-- ==== Sys2Proof/Word.lean ====
section
/-! DEFINITION. The plain units the module is described in: bytes, register words, value slots and
instants. -/

namespace Sys2Proof

/-- One byte of a descriptor, record or frame. -/
abbrev Byte := BitVec 8

/-- A register word (R9). -/
abbrev Word := BitVec 32

/-- A 64-bit value slot, cookie or host address (R36, R125). -/
abbrev Slot := BitVec 64

/-- An instant of PTP time as the count of nanoseconds it denotes: seconds × 10^9 + nanoseconds. -/
abbrev Instant := Nat

end Sys2Proof
end

