-- ==== Sys2Proof/Syntax.lean ====
section
/-! DEFINITION. The commands of the module: one constructor of `Instr` for each row of
spec/opcode_table.json. The table gives no operands; each constructor carries what the module cannot know
by itself when the step happens: which function, basin, ring, channel or port it concerns, and what
arrives from outside (notes/assumptions/9). -/

namespace Sys2Proof

/-- Where a request lands (R96): BAR0, the doorbell page of BAR2, the MSI-X table and pending bits of BAR4, or
configuration space. -/
inductive Space | bar0 | bar2 | msixTable | config
deriving DecidableEq, Repr

/-- Error codes of a CAN bit stream (R327, CHn_CANx_ERR). -/
inductive CanErr | none | bitR | bitD | stuff | form | crc | ack
deriving DecidableEq, Repr

/-- A CAN frame on the bus (R294): identifier, formats, DLC and data bytes. -/
structure CanFrame where
  id   : Nat
  ide  : Bool
  fdf  : Bool
  brs  : Bool
  rtr  : Bool
  esi  : Bool
  dlc  : Nat
  data : List Byte
deriving DecidableEq, Repr

/-- A frame as an Ethernet receiver sees it (R336): bytes from the destination address to the end of
the payload, and whether its FCS and alignment hold. Its size counts four bytes of FCS more. -/
structure EthFrame where
  bytes : List Byte
  fcsOk : Bool
deriving DecidableEq, Repr

/-- What a backbone receiver takes in (R349): a whole express frame, or an mPacket of a preemptable
frame with the judgement of its delimiter, fragment count and mCRC. -/
inductive NetRx
  | express (f : EthFrame)
  | mStart (f : EthFrame) (inSeq crcOk : Bool)
  | mCont (bytes : List Byte) (inSeq crcOk last : Bool)
deriving DecidableEq, Repr

/-- Errors that reach the endpoint in a TLP (R100). -/
inductive TlpError
  | receiver | badTlp | badDllp | replayTimeout | replayRollover
  | dataLink | flowControl | overflow | malformed
  | poisonedWrite | poisonedCompletion | ecrcRequest | ecrcCompletion
  | unsupported | urCompletion | caCompletion | unexpected
deriving DecidableEq, Repr

/-- What starts a host-port reset (R106). -/
inductive HostResetCause | perst | hotReset | linkDown
deriving DecidableEq, Repr

/-- The source of an offset sample of the hub servo (R196, R199). -/
inductive TimeSource | ptp | pair | rtc
deriving DecidableEq, Repr

/-- What PTP_MESSAGE brings (R211 to R213): an Announce with the state the best master clock algorithm
gives the port, an event message, or any other PTP message. -/
inductive PtpMsg
  | announce (portState : Nat) (grandmaster : Slot) (utc : Int) (leap61 leap59 utcValid : Bool)
  | event
  | general
deriving DecidableEq, Repr

/-- Classification of PAIR_ALIVE_IN (R406). -/
inductive AliveIn | silent | other | active
deriving DecidableEq, Repr

/-- What the partner says of itself when the link comes up (R401). -/
structure Partner where
  code4     : Bool
  enabled   : Bool
  groupId   : Nat
  sideB     : Bool
  mirrorFmt : Nat
  lifecycle : Nat
  serial    : Slot
  /-- Serial number of the module whose segment addresses it uses (R411). -/
  segSerial : Slot
  role      : Nat
  modeHot   : Bool
deriving DecidableEq, Repr

/-- The 16-byte heartbeat (R405). -/
structure Heartbeat where
  time      : Instant
  seq       : Nat
  role      : Nat
  fit       : Bool
  yields    : Bool
  made      : Bool
  swapPrep  : Bool
  mirrorSeq : Nat
  crcOk     : Bool
deriving DecidableEq, Repr

/-- The mirror entry of a point (R42, R48): value, stamp, quality and sequence number. -/
structure Mirror where
  value     : Slot
  stamp     : Instant
  timeValid : Bool
  quality   : Nat
  seq       : Nat
  epoch     : Nat
deriving DecidableEq, Repr

end Sys2Proof

namespace Sys2Proof.Machine

/-- A frame for transmission, Ethernet or CAN, with what its descriptor asks (R127). -/
structure TxFrame where
  basin   : Nat
  /-- Module ring and flight; ring 1,024: none. -/
  ring    : Nat
  flight  : Nat
  idx     : Nat
  can     : CanFrame
  bytes   : List Byte
  padEn   : Bool
  tsReq   : Bool
  tsTag   : Nat
  preempt : Bool
  prio    : Nat
  node    : Nat
  late    : Bool
  /-- Table (0 to 7, 8 hub list, 9 none) and index of the timed action it left from. -/
  table   : Nat
  entry   : Nat
  gen     : Nat
  /-- Points whose command this frame carries (R299, R361): handles and flights waiting on it. -/
  points  : List (Nat × Nat × Nat)
  /-- Cancel requests that wait for the end of an attempt: ring, flight (R319, R354). -/
  cancel  : List (Nat × Nat)
  order   : Nat
deriving DecidableEq, Repr

/-- What an entry does (R228). -/
inductive ActKind
  | dout (mask value : BitVec 8)
  | aout (term code : Nat)
  | burst (mask : BitVec 8) (samples spacing : Nat)
  | canFrame (seg : Nat) (f : CanFrame)
  /-- A descriptor's frame for target 0 to 33 (DESC_FRAME). -/
  | txFrame (target : Nat) (f : TxFrame)
  | pointWrite (handle : Nat) (value : Slot)
  | loopGroup (op : Nat) (loops : List Nat)
deriving DecidableEq, Repr

/-- How an entry came about (R223); COMMIT and TIED entries are derived from the contexts and loops. -/
inductive ActOrigin | descCmd | descFrame | declared
deriving DecidableEq, Repr

/-- STATE of an entry (R227). -/
inductive ActState | pending | running | ended | stopped
deriving DecidableEq, Repr

/-- A timed-action entry (R227, R238). -/
structure Entry where
  origin  : ActOrigin
  gen     : Nat
  kind    : ActKind
  report  : Bool
  nocomp  : Bool
  tol     : Nat
  /-- Instant of occurrence 0. -/
  start   : Instant
  period  : Nat
  count   : Nat
  basin   : Nat
  cookie  : Slot
  ring    : Nat
  flight  : Nat
  actId   : Nat
  /-- Occurrences passed (R236). -/
  done    : Nat
  last    : Option Instant
  st      : ActState
  order   : Nat
  /-- Preparation of a LOOP_GROUP: channels still to acknowledge; none: not prepared (R249). -/
  prep    : Option (List Nat)
  /-- A fired frame of the entry waits in its queue (R236). -/
  waiting : Bool
  /-- Occurrences passed during an outage, a stop or invalid time, to be reported as SKIPPED, and the
  detail they take (R237, R239, R247). -/
  skipped : Nat
  skipDet : Nat
  /-- Lateness of the fired occurrence in ns. -/
  late    : Nat
deriving DecidableEq, Repr

end Sys2Proof.Machine

namespace Sys2Proof

/-- A mirror record from the active module (R408, R409). Its format is not published; the constructors
name what R408 lists. -/
inductive MirrorRec
  | point (handle : Nat) (m : Mirror)
  | register (offset : Nat) (w : Word)
  | loopState (ch slot : Nat) (i48 pvf48 df48 pvfPrev sps out : Int) (primed : Bool)
  | output (ch terminal code : Nat)
  | canImage (ch x handle : Nat) (v : Slot)
  | actionLast (table index : Nat) (last : Instant)
  /-- An entry of a table or the hub list as it is entered; none: it has left. -/
  | entry (table index : Nat) (e : Option Machine.Entry)
  | declared (dtype id owner : Nat) (words : List Word)
  | withdrawn (dtype id : Nat)
  | placed (loop ch slot phase lane : Nat)
  /-- The bulk copy of R424 begins: what the standby holds of the tables is dropped. -/
  | restart
  /-- Stopped by placement. -/
  | stopped (loop : Nat)
  /-- Steered to a ring, 255 none: kind 0 a point, 1 a pass, 2 a subscription. -/
  | steered (kind id ring : Nat)
  /-- The assignments to a removed basin return to basin 0 (R66). -/
  | basinRemoved (basin : Nat)
  | pendingTxn (ctx id scope : Nat) (apply : Instant) (writes : List (Nat × BitVec 4 × Word))
  /-- A transaction mirrored as pending has ended. -/
  | txnEnded (ctx : Nat)
  /-- An image pushed to the partner's staging area, and the instant the partner is armed for; none: disarmed
  (R503). -/
  | image (header body : List Byte)
  | armed (instant : Option Instant)
deriving DecidableEq, Repr

/-- The verdict of one sample of a tamper loop (R474). -/
inductive LoopSense | good | open | short
deriving DecidableEq, Repr

/-- Why a converter conversion was made (R393). -/
inductive ConvSource | tied | burst | scan
deriving DecidableEq, Repr

/-- The commands. -/
inductive Instr
  /- chapters 00 to 02: registers, crossbar, points, basins -/
  /-- REGISTER_WRITE: function `fn` writes `len` bytes of `data` at `off` (R70, R75). -/
  | registerWrite (space : Space) (fn off len : Nat) (data : BitVec 64)
  /-- POINT_UPDATE: the head of channel `ch`'s egress queue reaches the hub (R26). -/
  | pointUpdate (ch : Nat)
  /-- FORWARDED_UPDATE: the head of channel `ch`'s ingress queue becomes usable (R24). -/
  | forwardedUpdate (ch : Nat)
  /-- COMMAND_AT_CHANNEL: the head of the commands on their way to `ch` arrives (R58). -/
  | commandAtChannel (ch : Nat)
  /-- OUTCOME_REPORTED: the head of `ch`'s outcomes reaches the hub (R131). -/
  | outcomeReported (ch : Nat)
  /-- LINK_LOST (R30). -/
  | linkLost (ch : Nat)
  /-- LINK_RETURN (R32). -/
  | linkReturn (ch : Nat)
  /-- RESEND_COMPLETE (R32). -/
  | resendComplete (ch : Nat)
  /-- MIRSEL_WRITE by function `fn` (R47). -/
  | mirselWrite (fn handle : Nat)
  /-- DIRWIN_WRITE (R46). -/
  | dirwinWrite (en : Bool)
  /-- MIN_INT_EXPIRY of a pending point (R51). -/
  | minIntExpiry (handle : Nat)
  /-- MAX_INT_EXPIRY of a point (R51). -/
  | maxIntExpiry (handle : Nat)
  /-- PASS_EXPIRY (R64). -/
  | passExpiry (pass : Nat)
  /-- BASIN_REMOVE: REMOVE written to HUB_WS_BASINCFGb (R66). -/
  | basinRemove (b : Nat)
  /-- BASIN_REMOVE_DONE (R66). -/
  | basinRemoveDone (b : Nat)
  /- chapter 03: transactions -/
  /-- BEGIN by function `fn` (R77). -/
  | beginTxn (fn : Nat)
  /-- STAGED_WRITE (R78). -/
  | stagedWrite (fn off len : Nat) (data : BitVec 64)
  /-- COMMIT_NOW (R81). -/
  | commitNow (fn : Nat)
  /-- COMMIT_AT (R81). -/
  | commitAt (fn : Nat)
  /-- ROLLBACK (R84). -/
  | rollback (fn : Nat)
  /-- PREPARE_ACK of channel `ch`, or of the hub with `ch` 8, for context `ctx`; context 64 is
  Watershed's (R82). -/
  | prepareAck (ctx ch : Nat)
  /-- TXN_PREP_TIMEOUT (R82). -/
  | txnPrepTimeout (ctx : Nat)
  /-- TXN_GO (R82). -/
  | txnGo (ctx : Nat)
  /-- GO_ACK (R82). -/
  | goAck (ctx ch : Nat)
  /-- TXN_GO_DEADLINE (R82). -/
  | txnGoDeadline (ctx : Nat)
  /-- TXN_APPLY (R80). -/
  | txnApply (ctx : Nat)
  /- chapter 04: host port -/
  /-- PERST_RELEASE (R103). -/
  | perstRelease
  /-- ENDPOINT_READY (R103). -/
  | endpointReady
  /-- HOST_PORT_RESET (R106). -/
  | hostPortReset (cause : HostResetCause)
  /-- FLR of virtual function `b` (R104). -/
  | flr (b : Nat)
  /-- PF_FLR (R105). -/
  | pfFlr
  /-- FLR_DONE (R104). -/
  | flrDone (fn : Nat)
  /-- VF_ENABLE_WRITE (R94). -/
  | vfEnableWrite (vfEnable : Bool) (numVfs : Nat)
  /-- BUS_MASTER_CHANGE (R529). -/
  | busMasterChange (fn : Nat) (bme d3hot : Bool)
  /-- MSIX_UNMASK of one vector, or of the whole function (R99). -/
  | msixUnmask (fn : Nat) (vector : Option Nat)
  /-- TLP_ERROR (R100), for the function and, for a completion, the ring (0 to 15) it served. `chain`: the
  fetched descriptors whose buffers were being read; empty when a descriptor fetch was. -/
  | tlpError (e : TlpError) (fn : Nat) (ring : Option Nat) (chain : List (BitVec 512))
  /-- COMPLETION_TIMEOUT (R100). -/
  | completionTimeout (fn ring : Nat) (chain : List (BitVec 512))
  /-- DMA_READ_FAILURE of a descriptor fetch or a buffer read (R102). -/
  | dmaReadFailure (fn ring : Nat) (chain : List (BitVec 512))
  /-- SMBUS_IDENT, to the address clocked out; `pec`: the host clocks one byte more (R112). -/
  | smbusIdent (addr : Nat := 0x5C) (pec : Bool := false)
  /-- SMBUS_HEALTH (R112). -/
  | smbusHealth (addr : Nat := 0x5C) (pec : Bool := false)
  /-- SMBUS_READ_ALERT (R112). -/
  | smbusReadAlert (addr : Nat := 0x5C) (pec : Bool := false)
  /-- SMBUS_CLEAR_ALERT (R112). -/
  | smbusClearAlert (bits : BitVec 16) (addr : Nat := 0x5C)
  /- chapter 05: rings -/
  /-- DOORBELL of ring `r` of basin `b`, with the eight byte enables of the write (R121, R122). -/
  | doorbell (b r : Nat) (be : BitVec 8) (data : BitVec 64)
  /-- EVCONS_WRITE (R122). -/
  | evconsWrite (b : Nat) (data : Word)
  /-- RING_ENABLE: HUB_RING_CTL written with EN 1 (R144). -/
  | ringEnable (b r : Nat) (ctl : Word)
  /-- RING_DISABLE: HUB_RING_CTL written with EN 0 (R145). -/
  | ringDisable (b r : Nat)
  /-- HALTED_RING_DISABLE (R146). -/
  | haltedRingDisable (b r : Nat)
  /-- RING_DISABLED, with the buffers still posted to a FRM_IN ring (R145). -/
  | ringDisabled (b r : Nat) (posted : List (BitVec 512))
  /-- EVENT_RING_CONTROL: HUB_RING_EVCTL written (R115, R134). -/
  | eventRingControl (b : Nat) (ctl : Word)
  /-- POINT_COMMAND: a fetched descriptor (R125, R139). -/
  | pointCommand (b r : Nat) (desc : BitVec 256)
  /-- FRAME_TRANSMIT: a fetched chain and the bytes its buffers hold (R127, R140). -/
  | frameTransmit (b r : Nat) (chain : List (BitVec 512)) (payload : List Byte)
  /-- CANCEL_FRAME (R141); `inArbitration`: the frame is in an attempt before the end of its
  arbitration field when the request arrives (R319). -/
  | cancelFrame (b r : Nat) (desc : BitVec 256) (inArbitration : Bool)
  /-- CANCEL_BY_COOKIE (R243). -/
  | cancelByCookie (b r : Nat) (desc : BitVec 256)
  /-- MODERATION_TIMER of a ring, 16 for the event ring (R142). -/
  | moderationTimer (b r : Nat)
  /-- FRAME_RECEIVED: the oldest staged frame for the ring, and the posted descriptors it takes
  (R129, R136). -/
  | frameReceived (b r : Nat) (posted : List (BitVec 512))
  /- chapter 06: Watershed -/
  /-- SUBMIT (R153). -/
  | submit (fn : Nat)
  /-- WITHDRAW (R163). -/
  | withdraw (fn : Nat)
  /-- QUERY (R164). -/
  | query (fn : Nat)
  /-- PLACE_NOW (R150). -/
  | placeNow (fn : Nat)
  /-- PLACEMENT_PASS (R179). -/
  | placementPass
  /-- REBALANCE_TIMER (R179). -/
  | rebalanceTimer
  /-- TAKE_OUT (R182). -/
  | takeOut (ch : Nat)
  /-- CHANNEL_DRAINED (R182). -/
  | channelDrained (ch : Nat)
  /-- BRING_IN (R181). -/
  | bringIn (ch : Nat)
  /-- CHANNEL_FAULT (R183); `converter`: the isolated converter failed. -/
  | channelFault (ch : Nat) (converter : Bool)
  /-- MIGRATION_STATE_ARRIVAL (R185). -/
  | migrationStateArrival (loop : Nat)
  /-- MIGRATION_STATE_TIMEOUT (R186). -/
  | migrationStateTimeout (loop : Nat)
  /-- MIGRATION_RELEASE (R184). -/
  | migrationRelease (loop : Nat)
  /- chapter 07: time -/
  /-- OFFSET_SAMPLE `e` ns from a source, with the sync interval exponent L (R199, R200). -/
  | offsetSample (src : TimeSource) (e : Int) (l : Int)
  /-- OFFIN_WRITE (R199). -/
  | offinWrite (data : Word)
  /-- SET (R198). -/
  | setTime
  /-- INVALIDATE (R198). -/
  | invalidate
  /-- TIME_STEP (R204). -/
  | timeStep
  /-- SOURCE_LOST (R202). -/
  | sourceLost
  /-- HOLDOVER_END (R196). -/
  | holdoverEnd
  /-- BEACON (R206). -/
  | beacon
  /-- BEACON_ARRIVAL (R207). -/
  | beaconArrival (ch : Nat)
  /-- PTP_MESSAGE on NET-A (0) or NET-B (1), with the frame that carries it, whose stamp lies `ago` hub ticks back (R213). -/
  | ptpMessage (port : Nat) (msg : PtpMsg) (frame : EthFrame) (ago : Nat := 0)
  /-- GPTP_SYNC on a segment (R215). -/
  | gptpSync (ch seg : Nat)
  /-- PDELAY_REQ of a node (R215). -/
  | pdelayReq (ch seg node : Nat)
  /-- TSQ_POP (R219). -/
  | tsqPop (q : Nat)
  /- chapter 08: timed actions -/
  /-- ACTION_FIRE of entry `idx` in table 0 to 7 (channel) or 8 (hub list) (R230). -/
  | actionFire (table idx : Nat)
  /-- LOOP_GROUP_PREPARE of a hub-list entry (R249). -/
  | loopGroupPrepare (idx : Nat)
  /-- CAL_START: CHn_TA_CAL written with START (R234). -/
  | calStart (ch : Nat) (sel : Word)
  /-- CAL_DONE with the delays measured: (terminal k, TON or DELAY, TOFF) in ns (R234). -/
  | calDone (ch : Nat) (results : List (Nat × Nat × Nat))
  /-- TABLE_DISABLE (R245). -/
  | tableDisable (ch : Nat)
  /-- TABLE_ENABLE (R245). -/
  | tableEnable (ch : Nat)
  /- chapters 09 and 10: loop engine -/
  /-- LOOP_SAMPLE (R260). -/
  | loopSample (ch slot : Nat)
  /-- LOOP_OUTPUT (R281). -/
  | loopOutput (ch slot : Nat)
  /-- LOOP_SLOT_WRITE of word `w` (0 to 15) of a slot (R258). -/
  | loopSlotWrite (ch slot w : Nat) (be : BitVec 4) (data : Word)
  /-- SNAPSEL_WRITE (R273). -/
  | snapselWrite (ch slot : Nat)
  /-- COUNTER_ACQUISITION (R375). -/
  | counterAcquisition (ch : Nat)
  /- chapter 11: CAN; controller 0 is CANA, 1 is CANB -/
  /-- CAN_CTL_WRITE (R307). -/
  | canCtlWrite (ch x : Nat) (data : Word)
  /-- RECOVER (R323). -/
  | recover (ch x : Nat)
  /-- CAN_MODE_APPLIED at bus idle (R308). -/
  | canModeApplied (ch x : Nat)
  /-- CAN_INTEGRATION_DONE (R308). -/
  | canIntegrationDone (ch x : Nat)
  /-- CAN_FRAME_RECEIVED; its start of frame was `ago` channel ticks back (R297, R325). -/
  | canFrameReceived (ch x : Nat) (frame : CanFrame) (ago : Nat)
  /-- CAN_ARBITRATION_END (R319). -/
  | canArbitrationEnd (ch x : Nat) (won : Bool)
  /-- CAN_TX_SUCCESS; its start of frame was `ago` channel ticks back; with the round trip timed, if any (R305, R317). -/
  | canTxSuccess (ch x : Nat) (ago : Nat) (loopDelay : Option Nat)
  /-- CAN_TX_ERROR; `dominant`: a dominant bit was seen during the passive error flag (R321). -/
  | canTxError (ch x : Nat) (err : CanErr) (dataPhase dominant : Bool)
  /-- CAN_BUS_ON after the recovery time in µs (R323). -/
  | canBusOn (ch x us : Nat)
  /-- CAN_NODE_TIMEOUT of an identifier (R300). -/
  | canNodeTimeout (ch x id : Nat) (ide : Bool)
  /-- CAN_PROTO_EXC (R324). -/
  | canProtoExc (ch x : Nat)
  /- chapter 12: backbone ports (0 NET-A, 1 NET-B) and segments -/
  /-- NET_LINK_UP with the speed code and the PAUSE resolution (R329, R343). -/
  | netLinkUp (p speed : Nat) (pauseRx pauseTx : Bool)
  /-- NET_LINK_DOWN (R330). -/
  | netLinkDown (p : Nat)
  /-- NET_PORT_DISABLE at the frame boundary (R331). -/
  | netPortDisable (p : Nat)
  /-- NET_FRAME_RECEIVED; the instant of its stamp lies `ago` hub ticks back (R334, R336). -/
  | netFrameReceived (p : Nat) (rx : NetRx) (ago : Nat)
  /-- NET_TX_DONE; the instant of the frame's stamp lies `ago` hub ticks back (R333). -/
  | netTxDone (p : Nat) (ago : Nat)
  /-- PAUSE_RECEIVED (R339). -/
  | pauseReceived (p quanta : Nat)
  /-- PAUSE_EXPIRY (R339). -/
  | pauseExpiry (p : Nat)
  /-- XOFF_REPEAT (R342). -/
  | xoffRepeat (p : Nat)
  /-- VERIFY_MPACKET (R344). -/
  | verifyMpacket (p : Nat)
  /-- VERIFY_RESPONSE (R344). -/
  | verifyResponse (p : Nat)
  /-- VERIFY_TIMEOUT (R344). -/
  | verifyTimeout (p : Nat)
  /-- HOLD (R348). -/
  | netHold (p : Nat)
  /-- REASM_TIMEOUT (R349). -/
  | reasmTimeout (p : Nat)
  /-- SEG_FRAME_RECEIVED; the instant of its stamp lies `ago` channel ticks back (R358). -/
  | segFrameReceived (ch x : Nat) (frame : EthFrame) (ago : Nat := 0)
  /-- SEG_TX_DONE; the instant of the frame's stamp lies `ago` channel ticks back (R354). -/
  | segTxDone (ch x : Nat) (ago : Nat)
  /-- SEG_COLLISION; `late`: after the first 512 bits (R353). -/
  | segCollision (ch x : Nat) (late : Bool)
  /-- SEG_BACKOFF_EXPIRY (R353). -/
  | segBackoffExpiry (ch x : Nat)
  /-- SEG_MODE_APPLIED (R352). -/
  | segModeApplied (ch x : Nat)
  /-- PLCA_BEACON sent or seen (R355). -/
  | plcaBeacon (ch x : Nat)
  /-- PLCA_TO_TIMER (R355). -/
  | plcaToTimer (ch x : Nat)
  /-- PLCA_BEACON_LOSS (R355). -/
  | plcaBeaconLoss (ch x : Nat)
  /-- T1S_NODE_TIMEOUT (R362). -/
  | t1sNodeTimeout (ch x node : Nat)
  /- chapter 13: field I/O; `mv` is FSUP in steps of 10 mV -/
  /-- FSUP_LOW (R370). -/
  | fsupLow (ch reading : Nat)
  /-- FSUP_OK (R370). -/
  | fsupOk (ch reading : Nat)
  /-- FSUP_INPUTS_INVALID (R370). -/
  | fsupInputsInvalid (ch reading : Nat)
  /-- FSUP_INPUTS_VALID (R370). -/
  | fsupInputsValid (ch reading : Nat)
  /-- UNDERVOLTAGE_LOCKOUT (R370). -/
  | undervoltageLockout (ch reading : Nat)
  /-- FSUP_RESTART_RISE (R371). -/
  | fsupRestartRise (ch reading : Nat)
  /-- UVLO_RESTART (R371). -/
  | uvloRestart (ch : Nat)
  /-- FSUP_GUARD_LOSS (R385). -/
  | fsupGuardLoss (ch reading : Nat)
  /-- DIN_EDGE: input `i` accepted at `level`; the first sample at it was `ago` channel ticks back (R373). -/
  | dinEdge (ch i : Nat) (level : Bool) (ago : Nat)
  /-- DOUT_OVERCURRENT (R378). -/
  | doutOvercurrent (ch d : Nat)
  /-- DOUT_OVERTEMP (R378). -/
  | doutOvertemp (ch d : Nat)
  /-- DOUT_RETRY (R378). -/
  | doutRetry (ch d : Nat)
  /-- CLR_OC: CHn_DIO_CLR written (R378). -/
  | clrOc (ch : Nat) (mask : BitVec 8)
  /-- GROUP_OVERCURRENT with the eight output currents in mA (R379). -/
  | groupOvercurrent (ch : Nat) (currents : List Nat)
  /-- EXT_DRIVE (R380). -/
  | extDrive (ch d : Nat)
  /-- OPEN_LOAD (R381). -/
  | openLoad (ch d : Nat)
  /-- GUARD_KICK (R384). -/
  | guardKick (ch : Nat)
  /-- GUARD_TRIP (R385). -/
  | guardTrip (ch : Nat)
  /-- GUARD_HOLD (R389). -/
  | guardHold (ch : Nat)
  /-- GUARD_HOLD_EXPIRY (R389). -/
  | guardHoldExpiry (ch : Nat)
  /-- ADC_SCAN of an input (R393). -/
  | adcScan (ch i : Nat)
  /-- ADC_CONVERSION_COMPLETE: the measurement in µV, nA or mΩ by range, and whether the converter
  reports a fault (R391, R394). -/
  | adcConversionComplete (ch i : Nat) (src : ConvSource) (meas : Int) (bad : Bool)
  /-- AIN_BURDEN_OPEN (R391). -/
  | ainBurdenOpen (ch i : Nat)
  /-- AIN_BURDEN_RESTORE (R391). -/
  | ainBurdenRestore (ch i : Nat)
  /- chapter 14: pairing -/
  /-- PAIR_LINK_UP (R401, R403). -/
  | pairLinkUp (partner : Partner) (lanes : BitVec 2)
  /-- ROLE_DECISION; `activeSeen`: heartbeats with ROLE ACTIVE were seen (R402). -/
  | roleDecision (activeSeen : Bool)
  /-- HEARTBEAT_SEND (R405). -/
  | heartbeatSend
  /-- HEARTBEAT_RECEIVED (R405, R409). -/
  | heartbeatReceived (hb : Heartbeat)
  /-- MIRROR_RECORD (R409). -/
  | mirrorRecord (seq : Nat) (rec : MirrorRec)
  /-- HEARTBEAT_TIMEOUT (R417). -/
  | heartbeatTimeout
  /-- PAIR_ALIVE_CHANGE (R406). -/
  | pairAliveChange (cls : AliveIn)
  /-- TAKEOVER: the time from H to MADE and the result of a warm self-check (R414, R418). -/
  | takeover (gapNs : Nat) (selfCheckOk : Bool)
  /-- MADE_RECEIVED (R421). -/
  | madeReceived
  /-- RELEASE_TIMEOUT (R421). -/
  | releaseTimeout (ch : Nat)
  /-- SWAP (R422). -/
  | swap
  /-- SWAP_YIELD (R422). -/
  | swapYield
  /-- SWAP_TIMEOUT (R422). -/
  | swapTimeout
  /-- SELFTEST (R414). -/
  | selftest
  /-- SELFTEST_DONE with bytes 3 to 9 of the report: faults of the hub, and what it finds of the channels (R416). -/
  | selftestDone (hubFaults chPresent chFit : Byte) (chFault : Word)
  /-- HEALTH_REPORT, 24 bytes as six words (R416). -/
  | healthReport (words : List Word)
  /-- HEALTH_REPORT_TIMEOUT (R415). -/
  | healthReportTimeout
  /-- RESYNC_DONE with the active module's epoch and PAIR time (R424). -/
  | resyncDone (epoch : Nat) (time : Instant)
  /- chapter 15: power -/
  /-- VIN_GOOD: the backup check, the tamper loops found active and the random source's self-test
  (R429, R430, R463). -/
  | vinGood (backupLost : Bool) (loops : BitVec 2) (rngOk : Bool)
  /-- POINT_SERVICE_BEGIN (R431). -/
  | pointServiceBegin
  /-- POWER_FAIL_WARNING (R436). -/
  | powerFailWarning
  /-- POWER_FAIL_FREEZE (R437). -/
  | powerFailFreeze
  /-- POWER_FAIL_RECORD (R438). -/
  | powerFailRecord
  /-- VIN_COLLAPSE (R437). -/
  | vinCollapse
  /-- VIN_RETURN (R437). -/
  | vinReturn
  /-- WARM (R433): KEY of the write. -/
  | warm (key : Byte)
  /-- CHANNEL (R435). -/
  | channelRestart (ch : Nat) (key : Byte)
  /-- CHANNEL_RESTART_DONE (R435). -/
  | channelRestartDone (ch : Nat)
  /-- WATCHDOG (R433). -/
  | watchdog
  /- chapter 16: backup domain -/
  /-- CALENDAR_SECOND (R447). -/
  | calendarSecond
  /-- LOAD (R446). -/
  | rtcLoad
  /-- SO_CLEAR (R455). -/
  | soClear
  /-- CALENDAR_SYNC (R450). -/
  | calendarSync
  /-- CAL_CYCLE (R451). -/
  | calCycle
  /-- AUTO_CAL_WINDOW with the measured drift in ppb (R451). -/
  | autoCalWindow (driftPpb : Int)
  /-- OSC_STOPPED (R443). -/
  | oscStopped
  /-- VBAT_MEASURE in 10 mV steps (R442). -/
  | vbatMeasure (v : Nat)
  /- chapter 17: vault, tamper, life cycle -/
  /-- GENERATE (R469). -/
  | vaultGenerate (slot : Nat)
  /-- DERIVE (R467). -/
  | vaultDerive (slot : Nat)
  /-- IMPORT (R469). -/
  | vaultImport (slot : Nat)
  /-- PROMOTE (R471). -/
  | vaultPromote (slot : Nat)
  /-- DISCARD (R469). -/
  | vaultDiscard (slot : Nat)
  /-- INVALIDATE_KEY: the vault operation INVALIDATE (R471). -/
  | vaultInvalidate (slot : Nat)
  /-- REDERIVE (R469). -/
  | vaultRederive (slot : Nat)
  /-- HMAC (R469). -/
  | vaultHmac (slot : Nat)
  /-- HMAC_VERIFY (R469). -/
  | vaultHmacVerify (slot : Nat)
  /-- ECDSA_VERIFY (R469). -/
  | vaultEcdsaVerify (slot : Nat)
  /-- VAULT_OP_COMPLETE (R469). -/
  | vaultOpComplete
  /-- SLOTSEL_WRITE (R488). -/
  | slotselWrite (slot : Nat)
  /-- TAMPER_SAMPLE: what the sense pins of loops 0 and 1 read (R474). -/
  | tamperSample (loop0 loop1 : LoopSense)
  /-- TAMPER_MODE_CHANGE: HUB_BKP_TCFG written (R478). -/
  | tamperModeChange (data : Word)
  /-- RELEASE with its KEY (R480). -/
  | release (key : Byte)
  /-- COMMISSION (R482). -/
  | commission (key : Byte) (confirm : BitVec 16)
  /-- ENTER_SERVICE (R482). -/
  | enterService (key : Byte) (confirm : BitVec 16)
  /-- MAINTAIN (R482). -/
  | maintain (key : Byte) (confirm : BitVec 16)
  /-- DECOMMISSION (R482). -/
  | decommission (key : Byte) (confirm : BitVec 16)
  /-- RECLAIM (R482). -/
  | reclaim (key : Byte) (confirm : BitVec 16)
  /-- REPROVISION (R483). -/
  | reprovision (key : Byte) (confirm : BitVec 16)
  /- chapter 18: update; `src` 1 NET-A, 2 NET-B with the sender's MAC -/
  /-- UPDATE_LOAD: the bytes DMA read at HUB_UPD_ADDR (R498). -/
  | updateLoad (bytes : List Byte)
  /-- UPDATE_ABORT (R497). -/
  | updateAbort
  /-- UPDATE_HEADER frame (R499). -/
  | updateHeader (port : Nat) (mac : BitVec 48) (seq : BitVec 16) (bytes : List Byte)
  /-- UPDATE_CHUNK frame (R499). -/
  | updateChunk (port : Nat) (mac : BitVec 48) (seq : BitVec 16) (offset : Nat) (bytes : List Byte)
  /-- UPDATE_ABORT_FRAME (R499). -/
  | updateAbortFrame (port : Nat) (mac : BitVec 48) (seq : BitVec 16)
  /-- STAGING_VERIFIED (R497). -/
  | stagingVerified
  /-- STAGING_TIMEOUT (R497). -/
  | stagingTimeout
  /-- ACTIVATE with its TARGET (R500). -/
  | activate (target : BitVec 2)
  /-- DISARM (R500). -/
  | disarm
  /-- PLANNED_RESTART (R501). -/
  | plannedRestart
  /-- CONFIRM (R502). -/
  | confirmSlot
  /-- AUTO_CONFIRM (R502). -/
  | autoConfirm
  /-- REVERT (R502). -/
  | revert
  /-- PUSH (R503). -/
  | push
  /- rows added at the table's end -/
  /-- LATCHING_READ, and any read of a space: `len` bytes from `off` (R9, R70, R194, R219, R444). -/
  | latchingRead (fn off : Nat) (space : Space := .bar0) (len : Nat := 4)
  /-- CAN_RX_ERROR; `severe`: the eight-point increment of ISO 11898-1 (R321). -/
  | canRxError (ch x : Nat) (err : CanErr) (dataPhase severe : Bool)
  /-- XON (R342). -/
  | xon (p : Nat)
  /-- DOUT_JUNCTION_COOLED (R378). -/
  | doutJunctionCooled (ch d : Nat)
  /-- AOUT_CURRENT_LIMIT entered or left (R396). -/
  | aoutCurrentLimit (ch t : Nat) (inLimit : Bool)
  /-- DIE_TEMPERATURE_LIMIT (R511). -/
  | dieTemperatureLimit
  /-- UNCORRECTABLE_MEMORY_ERROR (R417). -/
  | uncorrectableMemoryError
  /-- HOST_PORT_BUFFER_ERROR; `multi`: a multi-bit error (R100). -/
  | hostPortBufferError (multi : Bool) (fn : Nat) (ring : Option Nat) (chain : List (BitVec 512))
  /-- PCIE_LINK_UP with speed and width codes (R90). -/
  | pcieLinkUp (speed width : Nat)
  /-- USB_VBUS_SENSE (R518). -/
  | usbVbusSense (above : Bool)
  /-- ADC_BURST_CONVERSION of a burst entry (R393). -/
  | adcBurstConversion (ch idx : Nat)
  /-- VAULT_JOURNAL_CLOSE (R473). -/
  | vaultJournalClose
  /-- HEALTH_REPORT_SEND (R415). -/
  | healthReportSend
  /-- PTP_TRANSMIT on a port: 0 Announce, 1 Sync, 2 Follow_Up, 3 Delay_Req, 4 Pdelay_Req (R212). -/
  | ptpTransmit (port kind : Nat)
  /-- BEACON_SILENCE_STOP (R421). -/
  | beaconSilenceStop (ch : Nat)
deriving DecidableEq, Repr

end Sys2Proof
end

