-- ==== Sys2Proof/Config.lean ====
section
/-! DEFINITION. What the manual leaves open: free values, and functions it gives only by reference to
an outside standard. None has a body a proof can see (notes/assumptions/3, 12 and 13). -/

namespace Sys2Proof.Config

/-- How many ticks channel `ch` counts while the hub time island counts `n`, at free-value number `k`:
no two references are locked to one another (R16). -/
opaque channelTicks : (k ch n : Nat) → Nat

/-- A uniformly drawn number for the back-off of R353. -/
opaque backoffDraw : (k : Nat) → Nat

/-- The on-chip random source (R463, R469 GENERATE). -/
opaque random : (k : Nat) → BitVec 384

/-- A byte the manual leaves open (contents of a health report's test results and the like). -/
opaque freeByte : (k : Nat) → Byte

/-- A word the manual leaves open. -/
opaque freeWord : (k : Nat) → Word

/-- HMAC-SHA-384 of FIPS 198-1 over a key and a message (R467, R469). -/
opaque hmacSha384 : List Byte → List Byte → BitVec 384

/-- SHA-384 of FIPS 180-4 (R468, R493). -/
opaque sha384 : List Byte → BitVec 384

/-- ECDSA P-384 verification of FIPS 186-5: public key X ∥ Y, digest, r ∥ s (R469, R493). -/
opaque ecdsaP384 : List Byte → List Byte → List Byte → Bool

/-- Whether 96 bytes X ∥ Y name a point of P-384 (R469 IMPORT). -/
opaque onP384 : List Byte → Bool

/-- The Syfaeg signing public key X ∥ Y of a KEY_INDEX (R494). -/
opaque signingKey : (index : Nat) → List Byte

/-- CRC-32 (IEEE 802.3 polynomial) of R439. -/
opaque crc32 : List Byte → Word

/-- Temperature in thousandths of a degree from a PT1000 resistance in milliohm (R392, IEC 60751). -/
opaque pt1000MilliC : (milliohm : Int) → Int

/-- Temperature in thousandths of a degree from an NTC resistance in milliohm, NOM and BETA (R392). -/
opaque ntcMilliC : (milliohm : Int) → (nom beta : Nat) → Int

/-- HIST_SLOT that Watershed gives a point with a history (R44, R156): the manual gives no rule for it. -/
opaque historySlot : (handle : Nat) → Nat

/-- The fixed gains of the channel servo, which the manual does not publish (R208; log 138). -/
opaque channelKp : Nat
opaque channelKi : Nat

/-- Factory address of port `i` of the module with a serial number, as a number whose first octet is most
significant (R365, R411). -/
opaque factoryMac : (serial : Slot) → (i : Nat) → Nat

/-- The hub temperature and supply readings the SMBus reports (R112) at free-value number `k`. -/
opaque reading : (k : Nat) → BitVec 16

end Sys2Proof.Config
end

