-- ==== Sys2Proof/Machine/State.lean ====
section
/-! DEFINITION. The state of the module as plain data, its reset value, and the closed types of faults
and refusals. Times are nanosecond counts of PTP time (`Instant`) or elapsed ticks of the time island. -/

namespace Sys2Proof.Machine

/-- Why the machine stops with a fault. The spec gives every event an effect, if only that nothing changes,
so no command raises a fault and the type has no constructor: safe. -/
inductive Fault
deriving DecidableEq, Repr

/-- Why a command is refused. -/
inductive Refusal
  /-- An arm of `exec` without a meaning; safe. -/
  | notModelled (mnemonic : String)
deriving DecidableEq, Repr

/-- A finite map keyed by numbers: keys strictly rising. -/
abbrev AMap (α : Type) := List (Nat × α)


/- ## Identity and host port (chapters 00, 03, 04) -/

/-- Factory and strap values (log 5). -/
structure Ident where
  /-- UZF-8A: eight channels; false: UZF-4A with four (R3). -/
  eight    : Bool
  hwIssue  : Nat
  serial   : Slot
  /-- Address of port `i`: 0 NET-A, 1 NET-B, 2 + 2n + x segment x of channel n (R365). -/
  macBase  : Nat
  sideB    : Bool
  smbHigh  : Bool
deriving DecidableEq, Repr

/-- An entry of an MSI-X table (R99). -/
structure MsixEntry where
  addr   : Slot
  data   : Word
  masked : Bool
deriving DecidableEq, Repr

/-- What AER logs (R100). -/
inductive AerKind
  | tlp (e : TlpError) | completionTimeout | correctedInternal | uncorrectableInternal
deriving DecidableEq, Repr

/-- A PCI Express function (R93 to R105). -/
structure Fn where
  mse      : Bool
  bme      : Bool
  d3hot    : Bool
  msixEn   : Bool
  fmask    : Bool
  flrBusy  : Bool
  /-- Updates withheld (R56, R95), saturating at 65,535. -/
  withheld : Nat
  table    : AMap MsixEntry
  /-- Vectors whose pending bit is set (R99). -/
  pba      : List Nat
  /-- Errors logged and not yet cleared (R100). -/
  aer      : List AerKind
  /-- Configuration words that software wrote, by offset (R93, R96; log 17). -/
  cfg      : AMap Word
  /-- Mirror snapshot: handle, STATUS, the eight words (R47). -/
  mirsel   : Nat
  mirStat  : Nat
  mirdata  : List Word
  /-- The declaration command that runs (R150): 1 SUBMIT, 2 WITHDRAW, 3 QUERY, 4 PLACE_NOW; 0 none. -/
  declCmd  : Nat
  /-- Declaration status: RESULT, ID, OVERRUN (R191). -/
  declRes  : Nat
  declId   : Nat
  declOver : Bool
deriving DecidableEq, Repr

/-- The endpoint (R90, R103, R106, R110). -/
structure HostPort where
  perst    : Bool
  ready    : Bool
  vfEnable : Bool
  numVfs   : Nat
  speed    : Nat
  width    : Nat
  upCnt    : Nat
  corrCnt  : Nat
  alert    : Word
deriving DecidableEq, Repr

/-- STATE of a ring or event ring (R147). -/
inductive RingState | disabled | active | disabling | halted | waitService
deriving DecidableEq, Repr

/-- A completion (R130). -/
structure Completion where
  cookie : Slot
  idx    : Nat
  status : Nat
  ckind  : Nat
  tsq    : Bool
  late   : Bool
  info   : Word
deriving DecidableEq, Repr

/-- A descriptor chain fetched and not completed. -/
structure Flight where
  id      : Nat
  idx     : Nat
  cookies : List Slot
  ckind   : Nat
  /-- Channel it was passed to; 8: the hub or a backbone port, 9: none yet. -/
  channel : Nat
  late    : Bool
deriving DecidableEq, Repr

/-- A write that waits until the function may issue DMA (R529). -/
inductive HeldWrite
  | completion (c : Completion)
  /-- A receive slot; `last`: HW_IDX advances past it (R136). -/
  | slot (idx : Nat) (bytes : List Byte) (last : Bool)
deriving DecidableEq, Repr

/-- Runtime of a ring (R113 to R146). Indexes are 16 bits and wrap. -/
structure Ring where
  state     : RingState
  kind      : Nat
  sizeLog2  : Nat
  cfgErr    : Bool
  dbErr     : Bool
  haltCause : Nat
  hw        : Nat
  sw        : Nat
  cpl       : Nat
  cplCons   : Nat
  drops     : Nat
  truncs    : Nat
  loss      : Bool
  armed     : Bool
  pend      : Nat
  flights   : List Flight
  held      : List HeldWrite
  /-- The index record has changed and could not be written (R119, R529). -/
  stale     : Bool
deriving DecidableEq, Repr

/-- An event record before its write-back (R132). -/
structure EvRec where
  kind    : Nat
  subject : Nat
  payload : List Byte
deriving DecidableEq, Repr

/-- The event ring of a basin (R115, R134). -/
structure EvRing where
  state    : RingState
  sizeLog2 : Nat
  cfgErr   : Bool
  dbErr    : Bool
  hw       : Nat
  cons     : Nat
  armed    : Bool
  pend     : Nat
  drops    : Nat
  lost     : Bool
  queue    : List EvRec
  /-- As `Ring.stale`. -/
  stale    : Bool
deriving DecidableEq, Repr

/- ## Points (chapter 02) -/

/-- A declared point: directory entry (R44), declaration fields (R156), mirror entry, delivery state and
the owner's copy. -/
structure Point where
  owner : Nat
  /-- 0 FIELD, 1 LOCAL_IO, 2 LOOP, 3 HUB. -/
  origin : Nat
  type : Nat
  write : Nat
  cov : Nat
  pinned : Bool
  channel : Nat
  segment : Nat
  node : Nat
  index : Nat
  thresh : Word
  minInt : Nat
  maxInt : Nat
  histSlot : Nat
  histDepth : Nat
  enumCount : Nat
  /-- OWNER_RING as declared, 16 AUTO. -/
  ringDecl : Nat
  /-- Ring steered to; 255: no ACTIVE ring. -/
  ring : Nat
  /-- Ring the last POINT_PLACED named; 255: none (R531). -/
  told : Nat
  subs : BitVec 8
  /-- Placed by a pass (R165). -/
  inEffect : Bool
  canId : Nat
  ide : Bool
  byteOfs : Nat
  bit : Nat
  loopItem : Nat
  decl : List Word
  mir : Mirror
  /-- Last delivered value and quality, and the tick of that delivery (R50, R51). -/
  lastVal : Slot
  lastQual : Nat
  lastTick : Nat
  /-- MIN_INT said to have expired since the last delivery. -/
  minDone : Bool
  held : Bool
  /-- The owner's value, stamp, quality, sequence number (R38, R43). -/
  own : Mirror
  /-- The channel's copy of the owner basin and of WRITE (R58). -/
  chTag : Nat
  chWrite : Nat
deriving DecidableEq, Repr

/-- A point update on its way (R26). -/
structure Update where
  handle : Nat
  tag    : Nat
  m      : Mirror
  resent : Bool
deriving DecidableEq, Repr

/-- A point command on its way to its channel (R58); `ring` 1,024: from a loop or an action, which
expect no completion. -/
structure ChCmd where
  handle : Nat
  value  : Slot
  tag    : Nat
  ring   : Nat
  flight : Nat
  cookie : Slot
  at?    : Option Instant
  tol    : Nat
deriving DecidableEq, Repr

/-- An outcome on its way from a channel to the hub (R131). -/
structure Report where
  ring   : Nat
  flight : Nat
  status : Nat
  tsq    : Bool
  late   : Bool
  info   : Word
deriving DecidableEq, Repr

/- ## Transactions (chapter 03) -/

inductive TxnState | idle | opened | preparing | pending
deriving DecidableEq, Repr

/-- One staged write: store key, byte enables, data (R78). -/
structure Staged where
  key  : Nat
  be   : BitVec 4
  data : Word
deriving DecidableEq, Repr

/-- A transaction context (R76). -/
structure Txn where
  state   : TxnState
  err     : Bool
  result  : Nat
  id      : Nat
  scope   : Nat
  staged  : List Staged
  apply   : Instant
  isAt    : Bool
  /-- Parts not yet acknowledged in preparation: channels, 8 for the hub (R82). -/
  waitPrep : List Nat
  goSent  : Bool
  waitGo  : List Nat
  /-- Keys applied by any transaction since this one's BEGIN (R85). -/
  applied : List Nat
  errAddr : Nat
  /-- A reset of the context that takes effect after T (R107). -/
  resetAfter : Bool
  /-- Parts that have applied: channels, 8 for the hub (R80). -/
  parts   : List Nat
deriving DecidableEq, Repr

/- ## Watershed (chapter 06) -/

/-- An ASSIGN declaration (R155). -/
structure Assign where
  res     : Nat
  channel : Nat
  segment : Nat
  first   : Nat
  count   : Nat
  basin   : Nat
  slots   : Nat
  priv    : Nat
  idFirst : Nat
  idLast  : Nat
  ide     : Bool
  decl     : List Word
  /-- Order of acceptance: the latest assignment of a resource holds. -/
  ord     : Nat
deriving DecidableEq, Repr

/-- A pass (R60); `ring` is the ring steered to, 255 none. -/
structure Pass where
  grantor   : Nat
  grantee   : Nat
  first     : Nat
  count     : Nat
  ringDecl  : Nat
  ring      : Nat
  expiry    : Nat
  suspended : Bool
  decl       : List Word
deriving DecidableEq, Repr

inductive LoopState | pending | placed | migrating | stopped
deriving DecidableEq, Repr

/-- A LOOP declaration with its placement (R158). -/
structure Loop where
  basin : Nat
  fast : Bool
  priv : Bool
  phaseFixed : Bool
  pin : Bool
  pinCh : Nat
  pinSlot : Nat
  period : Nat
  phaseDecl : Nat
  pv : Nat
  sp : Nat
  outp : Nat
  ff : Nat
  track : Nat
  decl : List Word
  st : LoopState
  channel : Nat
  slot : Nat
  phase : Nat
  /-- Fast lane (R277). -/
  lane : Nat
  /-- Failed migration attempts during TAKE_OUT (R186). -/
  fails : Nat
  /-- Withdrawn; disabled at the next Watershed apply (R163). -/
  gone : Bool
deriving DecidableEq, Repr

/-- A SUB declaration (R160). -/
structure Sub where
  basin : Nat
  channel : Nat
  segment : Nat
  form : Nat
  ide : Bool
  ringDecl : Nat
  ring : Nat
  node : Nat
  id1 : Nat
  id2 : Nat
  decl : List Word
deriving DecidableEq, Repr

/-- A migration in flight (R184, R185). -/
structure Migration where
  loop : Nat
  fromCh : Nat
  fromSlot : Nat
  toCh : Nat
  toSlot : Nat
  reason : Nat
  /-- Tm once the transaction has applied. -/
  tm : Option Instant
  arrived : Bool
deriving DecidableEq, Repr

/-- One element of a compiled CAN filter (R174). -/
structure FiltElem where
  /-- 1 RANGE, 2 DUAL, 3 MASK (R313). -/
  form : Nat
  id1 : Nat
  id2 : Nat
  queue : Nat
deriving DecidableEq, Repr

/-- The compiled filter of a controller (R172 to R178). -/
structure Filter where
  std : List FiltElem
  ext : List FiltElem
  /-- Destination set of each queue: DECODE, and the subscriptions (R173). -/
  queues : List (Bool × List Nat)
deriving DecidableEq, Repr

/-- What a placement pass decided and its transaction will apply (R148). -/
structure Plan where
  trigger : Nat
  /-- Loop, channel, slot, phase, lane of newly placed loops. -/
  places : List (Nat × Nat × Nat × Nat × Nat)
  /-- Loops placed anew after a fault: LOOP_RESTARTED (R183). -/
  restarts : List Nat
  moves : List Migration
  /-- Loop and reason of LOOP_STOPPED; `gone` loops leave with reason 0. -/
  stops : List (Nat × Nat)
  points : List Nat
  actions : List Nat
  filters : List (Nat × Nat × Filter)
  /-- Handles withdrawn before the pass started, free again once it has run (R34). -/
  released : List Nat
deriving DecidableEq, Repr

/-- Service of a channel (R191). -/
inductive Svc | inPool | draining | out | absent
deriving DecidableEq, Repr

/-- Watershed (chapter 06). -/
structure Watershed where
  dirgen : Nat
  epoch : Nat
  /-- Handles withdrawn and not reissued before a pass has run (R34). -/
  reissue : List Nat
  removing : List Nat
  assigns : AMap Assign
  passes : AMap Pass
  loops : AMap Loop
  subs : AMap Sub
  svc : List Svc
  svcErr : List Bool
  /-- Trigger of the pass that waits to start (R179), first of several. -/
  trigger : Option Nat
  rebalance : Bool
  plan : Option Plan
  passCount : Nat
  migrations : List Migration
deriving DecidableEq, Repr

/- ## Time (chapter 07) -/

/-- State of the hub servo (R199). -/
inductive Servo | arm | freqEst | track
deriving DecidableEq, Repr

/-- An armed step (R204). -/
structure StepArm where
  /-- Cause 0 SERVO: the step in ns; 1 HOST_SET: the time set. -/
  value : Int
  cause : Nat
  /-- Y, once the beacon that carries STEP_ARM has left. -/
  y     : Option Instant
deriving DecidableEq, Repr

/-- One time beacon (R206). -/
structure Beacon where
  time    : Instant
  seq     : Nat
  valid   : Bool
  stepArm : Bool
  stepped : Bool
  cls     : Nat
deriving DecidableEq, Repr

/-- Port of PTP (R212): PORT_STATE code. -/
structure Ptp where
  stateA : Nat
  stateB : Nat
  gm     : Bool
  gmId   : Slot
deriving DecidableEq, Repr

/-- The hub timebase, its servo and its source (R192 to R206). -/
structure HubTime where
  now      : Instant
  frac     : Nat
  /-- CLASS: 0 INVALID, 1 RTC, 2 HOST, 3 HOLDOVER, 4 PAIR, 5 PTP. -/
  cls      : Nat
  servo    : Servo
  integ    : Int
  adj      : Int
  ePrev    : Int
  tPrev    : Instant
  offset   : Int
  syncL    : Int
  locked   : Bool
  lockCnt  : Nat
  unlockCnt : Nat
  overCnt  : Nat
  step     : Option StepArm
  stepCnt  : Nat
  cmdErr   : Bool
  seq      : Nat
  stepped  : Bool
  /-- NOW1 and NOW2 as latched (R194). -/
  latch1   : Word
  latch2   : Word
  /-- PTP port 0 to 2 that is the source; 3 PAIR (R221). -/
  ptp      : Ptp
deriving DecidableEq, Repr

/-- An entry of a transmit timestamp queue (R219). -/
structure TsEntry where
  stamp  : Instant
  tag    : Nat
  serial : Nat
  target : Nat
  valid  : Bool
deriving DecidableEq, Repr

/-- A transmit timestamp queue (R218 to R220). -/
structure Tsq where
  entries : List TsEntry
  serial  : Nat
  ovf     : Nat
  /-- TSQ_OVERFLOW was raised since the queue was last empty. -/
  told    : Bool
  e1      : Word
  e2      : Word
  e3      : Word
deriving DecidableEq, Repr

/-- A channel timebase (R193, R207 to R210). -/
structure ChanTime where
  now       : Instant
  frac      : Nat
  /-- Integrator of the channel servo (R208). -/
  integ     : Int
  adj       : Int
  locked    : Bool
  lockCnt   : Nat
  unlockCnt : Nat
  holdover  : Bool
  valid     : Bool
  cls       : Nat
  missed    : Nat
  /-- SEQ of the last beacon; none before the first. -/
  lastSeq   : Option Nat
  delay     : Nat
  offset    : Int
  /-- The beacon on its way, if any. -/
  beacon    : Option Beacon
  /-- Boundary of the last unarmed beacon (R204). -/
  lastPlain : Instant
  /-- New time armed by a STEP_ARM beacon. -/
  stepTo    : Option Instant
  /-- Beacons launched since the last arrival (R30, R32). -/
  silent    : Nat
  latch1    : Word
  latch2    : Word
deriving DecidableEq, Repr

/- ## Timed actions (chapter 08) -/

/-- A timed-action table (R225): entries by index, the generation of every index used, the counters. -/
structure Table where
  entries : AMap Entry
  gens    : AMap Nat
  late    : Nat
  missed  : Nat
deriving DecidableEq, Repr

/-- A declared action (R161). -/
structure Action where
  basin : Nat
  decl   : List Word
  table : Nat
  entry : Nat
deriving DecidableEq, Repr

/- ## Loop engine (chapters 09, 10) -/

/-- The five words of a coefficient bank, taken apart (R259). -/
structure Bank where
  kp : Int
  ki : Int
  kd : Int
  kff : Int
  kpSh : Nat
  kiSh : Nat
  kdSh : Nat
  kffSh : Nat
  pfSh : Nat
  dfSh : Nat
  omin : Int
  omax : Int
deriving DecidableEq, Repr

/-- CLAMP of a slot (R262). -/
inductive Clamp | none | high | low
deriving DecidableEq, Repr

/-- What the output instant of a sample is to do with OUT (R269, R270, R281). -/
inductive OutAct
  | nothing
  | command (u : Int)
  | disval
deriving DecidableEq, Repr

/-- What the output instant publishes (R272, R291): nothing, the values of the sample, or the last values
as UNCERTAIN. -/
inductive PubAct
  | nothing
  | values (uncertain : Bool)
  | stale
deriving DecidableEq, Repr

/-- Runtime state of a slot (R260 to R291). -/
structure LoopRt where
  /-- LOOP_ID in the slot; none: free. -/
  loop    : Option Nat
  en      : Bool
  bankSel : Nat
  primed  : Bool
  i48     : Int
  pvf48   : Int
  df48    : Int
  pvfPrev : Int
  sps     : Int
  tgt     : Int
  /-- Last FF and last bank that ran the law to its end (R261, R265). -/
  ffLast  : Int
  lastBank : Option Bank
  u       : Int
  e       : Int
  clamp   : Clamp
  tracking : Bool
  pvBad   : Bool
  bankErr : Bool
  spsrcErr : Bool
  fe      : Bool
  feTmr   : Nat
  settle  : Nat
  /-- Previous counts of PV, SP, FF, TRACK when CNT64, and of the PULSE source (R252, R288). -/
  cnts    : List Nat
  pulse   : Option Nat
  spsrc   : Nat
  out     : OutAct
  pub     : PubAct
  /-- OMIN and OMAX of the bank the last sample ran with (R80). -/
  lim     : Option (Int × Int)
  /-- Tick of the last input instant since the loop was enabled, plus 1; 0: none yet (R269, R282). -/
  lastIn  : Nat
  /-- Waiting for the state of a migration (R185). -/
  waiting : Bool
  /-- OUT belongs to the loop until the disable value is driven (R271). -/
  owns    : Bool
  /-- SRC_ERR of a privileged slot's terminal source (R289). -/
  srcErr  : Bool
deriving DecidableEq, Repr

/-- Snapshot of a slot (R273). -/
structure Snap where
  slot  : Nat
  words : List Word
deriving DecidableEq, Repr

/- ## CAN controllers (chapter 11) -/

/-- STATE of a controller (R327). -/
inductive CanState | disabled | integrating | errorActive | errorPassive | busOff | recovering
deriving DecidableEq, Repr

/-- A received frame in a queue of a controller or segment, on its way to raw delivery (R173, R312). -/
structure RxFrame where
  target    : Nat
  node      : Nat
  can       : Option CanFrame
  bytes     : List Byte
  stamp     : Instant
  timeValid : Bool
  queue     : Nat
deriving DecidableEq, Repr

/-- A CAN controller (R293 to R327). -/
structure Can where
  state     : CanState
  /-- MODE in force. -/
  mode      : Nat
  /-- MODE and timing written and not yet in force wait for bus idle (R308). -/
  modeWant  : Nat
  pendingMode : Bool
  ewarn     : Bool
  cfgErr    : Bool
  recv      : Nat
  tec       : Nat
  errA      : Nat
  errD      : Nat
  noack     : Nat
  noackBasin : Nat
  busoffCnt : Nat
  /-- Timing in force: ABT and DBT words (R302, R306). -/
  abt       : Word
  dbt       : Word
  loopDly   : Option Nat
  txq       : List TxFrame
  /-- Head of `txq` is in an attempt that has won arbitration (R319). -/
  won       : Bool
  rxqDrops  : Nat
  rxTold    : List Nat
  txOk      : Nat
  rxOk      : Nat
  rxRej     : Nat
  errFrames : Nat
  fdExc     : Nat
  bank      : Bool
  queues    : List (Bool × List Nat)
  /-- Elements and queues of the bank before the last switch, and the channel time of that switch (R178). -/
  oldElems  : List Word
  oldQueues : List (Bool × List Nat)
  switched  : Instant
  /-- Latest commanded values of writable points, by handle (R299). -/
  images    : AMap Slot
  /-- Identifiers timed out, coded id + 2^29 × IDE, and nodes reported lost (R300). -/
  silent    : List Nat
  lostNodes : List Nat
deriving DecidableEq, Repr

/- ## Backbone ports and T1S segments (chapter 12) -/

/-- VERIFY of a backbone port (R365). -/
inductive Verify | disabled | initial | verifying | succeeded | failed
deriving DecidableEq, Repr

/-- A backbone port (R329 to R350). -/
structure NetPort where
  up        : Bool
  speed     : Nat
  pauseRx   : Bool
  pauseTx   : Bool
  /-- Pause timer in quanta; none when it does not run. -/
  pauseQ    : Nat
  xoff      : Bool
  verify    : Verify
  attempts  : Nat
  hold      : Bool
  linkCnt   : Nat
  /-- EN = 0 waits for the frame boundary (R331). -/
  poweredDown : Bool
  express   : List TxFrame
  preempt   : List TxFrame
  /-- The frame on the wire, and a suspended preemptable frame (R346). -/
  wire      : Option TxFrame
  suspended : Option TxFrame
  /-- Received frames in the receive buffer, and the drop mark (R335). -/
  rx        : List RxFrame
  rxTold    : Bool
  /-- The preemptable frame being reassembled (R349). -/
  reasm     : Option EthFrame
  cnts      : AMap Nat
deriving DecidableEq, Repr

/-- A T1S segment (R351 to R362). -/
structure Seg where
  mode      : Nat
  plca      : Bool
  carrier   : Bool
  txq       : List TxFrame
  /-- The head of `txq` is in an attempt. -/
  busy      : Bool
  backoff   : Nat
  collisions : Nat
  /-- T1S_EXCESS_COLL was raised for the head frame. -/
  excTold   : Bool
  queues    : List Nat
  rxTold    : List Nat
  /-- Nodes heard within NODE_TMO, and nodes reported lost. -/
  heard     : List Nat
  lost      : List Nat
  /-- Nodes whose Pdelay_Req was answered, each with the tick (R222). -/
  gptp      : AMap Nat
  /-- PLCA: transmit opportunities since the last BEACON, and frames sent in the port's own beyond the first
  (R355). -/
  opp       : Nat
  burst     : Nat
  /-- TAG of the next WRITE, and the WRITEs sent: tag, FIRST, handle (R361). -/
  tag       : Nat
  writes    : List (Nat × Nat × Nat)
  cnts      : AMap Nat
deriving DecidableEq, Repr

/- ## Digital and analogue field I/O (chapter 13) -/

/-- A digital output (R377 to R383). -/
structure Dout where
  cmd     : Bool
  drive   : Bool
  /-- Switched off by R378 or R379 and not yet switched on again. -/
  tripped : Bool
  /-- The junction has not cooled to 135 °C since OT. -/
  hot     : Bool
  /-- Switch on as soon as the junction has cooled (R378). -/
  due     : Bool
  ext     : Bool
  current : Nat
  /-- Quality last given to the output's points (R369). -/
  qual    : Nat
deriving DecidableEq, Repr

/-- An analogue output (R396). -/
structure Aout where
  code   : Nat
  ovl    : Bool
  /-- Held at 0 V by the guard or by lack of its state, whatever `code` (R387). -/
  zero   : Bool
  /-- MODE DIM in force since the last latch. -/
  dim    : Bool
  /-- DISCONNECT: the output switch is open (R413). -/
  disc   : Bool
  qual   : Nat
deriving DecidableEq, Repr

/-- An analogue input (R391 to R395). -/
structure Ain where
  code    : Nat
  qual    : Nat
  meas    : Int
  /-- Scan filter; none: restarts at the next scan. -/
  fs      : Option Int
  range   : Nat
  /-- Channel time until which conversions are INVALID after a change of RANGE. -/
  settle  : Instant
  burden  : Bool
  scan    : Bool
  burst   : Bool
deriving DecidableEq, Repr

/-- A burst in progress (R228, R393): inputs, conversions left. -/
structure Burst where
  mask : BitVec 8
  left : Nat
deriving DecidableEq, Repr

/-- Field I/O of a channel. -/
structure Dio where
  fsup    : Nat
  fsupOk  : Bool
  low     : Bool
  inv     : Bool
  uvlo    : Bool
  restart : Bool
  /-- Channel time until which EXT_DRIVE and open-load checks are suspended (R371). -/
  suspTo  : Instant
  fc0     : Word
  fc1     : Word
  level   : BitVec 16
  counts  : List Nat
  dout    : List Dout
  group   : Nat
  aout    : List Aout
  ain     : List Ain
  bursts  : List Burst
  /-- Guard (R384 to R389). -/
  armed   : Bool
  tripped : Bool
  holding : Bool
  tripCnt : Nat
  /-- The guard holds a state of the terminals. -/
  keeps   : Bool
  /-- The channel logic has started, or the guard has tripped, since the guard was last armed: at the next arming
  the channel takes the states the terminals hold (R384, R387). -/
  fresh   : Bool
  /-- Safe-state table of the last kick: SAFE, WOR, AOSAFE codes. -/
  gSafe   : Word
  gWor    : BitVec 8
  gCodes  : List Nat
  /-- Calibration in progress (R234): the CAL word that started it. -/
  cal     : Option Word
  calErr  : Bool
deriving DecidableEq, Repr

/- ## Zone channels (chapter 01) -/

/-- STATE of a channel (R32). -/
inductive ChState | absent | starting | inService | outOfService | linkLost | fault
deriving DecidableEq, Repr

/-- A zone channel. -/
structure Chan where
  state   : ChState
  /-- State held when the link was lost or a restart began (R32, R435). -/
  prior   : ChState
  xbarUp  : Bool
  /-- The link has returned and the timebase relocks to the beacon before the resend (R32, R209). -/
  relock  : Bool
  /-- FSUP_OK, ISO_OK and GUARD_ARMED as CHn_CTL_STATE last showed them, from the hub's copy (R92). -/
  copied  : BitVec 3
  isoOk   : Bool
  lossCnt : Nat
  tb      : ChanTime
  /-- Updates on their way to the hub, from the hub, commands to the channel, outcomes to the hub. -/
  egress  : List Update
  ingress : List Update
  cmds    : List ChCmd
  reports : List Report
  /-- Event records held in LINK_LOST (R242): event ring and record. -/
  heldRecs : List (Nat × EvRec)
  /-- Values of points of other owners usable here (R24), by handle. -/
  inputs  : AMap Mirror
  table   : Table
  tableEn : Bool
  slots   : AMap LoopRt
  snap    : Snap
  feTrips : Nat
  can     : List Can
  seg     : List Seg
  dio     : Dio
  /-- Received frames staged for FRM_IN rings (R170): module ring and frame, oldest first. -/
  staged  : List (Nat × RxFrame)
  /-- Stopped starting work (R421), and RELEASE_ARMED. -/
  stopped : Bool
  relArmed : Bool
  /-- H of the stop (R421). -/
  stopH   : Instant
deriving DecidableEq, Repr

/- ## Pairing (chapter 14) -/

/-- The pair unit (R399 to R426). Roles: 0 UNPAIRED, 1 ACTIVE, 2 STANDBY, 3 SYNCING. -/
structure Pair where
  role     : Nat
  partnerRole : Nat
  partner  : Option Partner
  /-- The check of R401 has refused the partner. -/
  refused  : Bool
  linkUp   : Bool
  lanes    : BitVec 2
  aliveIn  : AliveIn
  /-- PAIR_ALIVE_OUT toggles (R406). -/
  aliveOut : Bool
  /-- Own FIT (R414, R415), and the partner's as last heard or inferred. -/
  fit      : Bool
  partnerFit : Bool
  /-- MODE in force, true HOT. -/
  hot      : Bool
  cfgErr   : Bool
  busy     : Bool
  cmdErr   : Bool
  syncPct  : Nat
  takeovers : Nat
  lastCause : Nat
  lastHot  : Bool
  lastGap  : Nat
  lastSec  : Nat
  health   : List Word
  reportSeq : Nat
  cycles   : Nat
  crcErr   : Nat
  hbMiss   : Nat
  /-- SEQ of the next own heartbeat, and of the last one received. -/
  seq      : Nat
  peerSeq  : Option Nat
  /-- Largest lag of the mirror in µs since the last health report (R410, R416). -/
  lagMax   : Nat
  /-- H: hub time carried by the last heartbeat sent or received (R409, R421). -/
  lastH    : Instant
  /-- Mirror records received and not yet closed, oldest first (R409). -/
  recs     : List (Nat × MirrorRec)
  /-- Last mirror record sent. -/
  mirSeq   : Nat
  /-- MADE goes out with every heartbeat of a new active module (R418). -/
  made     : Bool
  /-- An uncorrectable memory error since the role was taken (R414). -/
  memErr   : Bool
  /-- The latest SELFTEST report is UNFIT (R414). -/
  testBad  : Bool
  /-- A SWAP waits for the standby's FIT, and its Ts (R422). -/
  swapping : Bool
  swapTs   : Option Instant
  /-- YIELD is set in the heartbeats, with the cause (R417). -/
  yielding : Option Nat
  /-- A takeover is decided, with its cause; a received YIELD does not tell which (log 40). -/
  decided  : Option Nat
  /-- Commanded states of the active module's outputs, by 64 × channel + terminal (R408). -/
  outs     : AMap Nat
  /-- Serial number whose segment addresses are in use (R411). -/
  segBase  : Option Slot
deriving DecidableEq, Repr

/- ## Power (chapter 15) -/

/-- A power-fail record (R439). -/
structure PfRec where
  rseq    : Nat
  epoch   : Nat
  cls     : Nat
  flags   : Nat
  warnAt  : Instant
  lastTxn : Nat
  lost    : List Nat
  deliv   : AMap Nat
  /-- HW_IDX and CPL_IDX of each enabled module ring. -/
  idx     : AMap (Nat × Nat)
deriving DecidableEq, Repr

/-- Power, resets and start-up (R427 to R441). -/
structure Power where
  /-- 0 STARTING, 1 READY, 2 SERVICE, 3 QUARANTINE, 4 UPDATING, 5 POWER_FAIL (R112). -/
  state    : Nat
  vinGood  : Bool
  warn     : Bool
  frozen   : Bool
  recorded : Bool
  returned : Bool
  /-- The step of a start at which point service begins has come; a standby waits there for its takeover
  (R431). -/
  begun    : Bool
  service  : Bool
  backupLost : Bool
  resetErr : Bool
  kind     : Nat
  warmCnt  : Nat
  vin      : Nat
  vio      : Nat
  /-- Tick of the last VIN good, and SMB_ADDR sampled there (R109, R112). -/
  vinTick  : Nat
  smbHigh  : Bool
  /-- Function and identifier of transactions lost at the warning or a reset, whose TXN_LOST is raised at
  the next point service (R87). -/
  lost     : List (Nat × Nat)
  warnAt   : Instant
  warnCls  : Nat
  warnValid : Bool
  cancelled : Bool
  /-- Descriptors written to UPD_IN rings per basin (R439). -/
  deliv    : AMap Nat
  /-- The eight record slots, by number. -/
  recs     : AMap PfRec
  fresh    : Bool
deriving DecidableEq, Repr

/- ## Backup domain (chapter 16) -/

/-- The calendar (R444). -/
structure Cal where
  presc : Nat
  sec   : Nat
  min   : Nat
  hour  : Nat
  wday  : Nat
  day   : Nat
  month : Nat
  year  : Nat
deriving DecidableEq, Repr

/-- An alarm (R452, R453): value and configuration words, and LAST as PTP seconds. -/
structure Alarm where
  value   : Word
  cfg     : BitVec 6
  fired   : Bool
  skipped : Bool
  asleep  : Bool
  last    : Option Int
  /-- A firing while VIN was absent waits for point service: CALT, CALD. -/
  owed    : Option (Word × Word)
deriving DecidableEq, Repr

/-- The switch-over record (R455). -/
structure SoRec where
  valid : Bool
  cause : Nat
  hot   : Bool
  count : Nat
  gap   : Nat
  h     : Instant
  epoch : Nat
deriving DecidableEq, Repr

/-- A tamper loop (R474): last sample, and whether the loop is active. -/
structure TLoop where
  last   : LoopSense
  active : Bool
deriving DecidableEq, Repr

/-- The backup domain (R442 to R458, R474 to R478, R491). -/
structure Backup where
  cal      : Cal
  osf      : Bool
  vbatLow  : Bool
  vbat     : Nat
  dateErr  : Bool
  syncRange : Bool
  test     : Bool
  syncEn   : Bool
  rate     : Int
  autoCal  : Bool
  alarms   : List Alarm
  keep     : List Word
  so       : SoRec
  latchT   : Word
  latchD   : Word
  tcfg     : BitVec 3
  loops    : List TLoop
  unack    : Bool
  bkekErased : Bool
  /-- The domain holds BKEK (R459). -/
  bkek     : Bool
  tnext    : Nat
  tcount   : Nat
  tlog     : List (List Word)
  tseq     : Nat
  /-- TAMPER records of the time asleep, raised at the next point service (R476). -/
  owed     : List (List Byte)
deriving DecidableEq, Repr

/- ## Vault and life cycle (chapter 17) -/

/-- Content of a slot, active or pending (R466). KIND: 1 SECRET256, 2 SECRET384, 3 PUBKEY. -/
structure VKey where
  kind   : Nat
  /-- 0 ROOT, 1 GENERATED, 2 DERIVED, 3 IMPORTED, 4 MEASURED. -/
  origin : Nat
  parent : Nat
  depth  : Nat
  basin  : Nat
  label  : List Byte
  key    : List Byte
deriving DecidableEq, Repr

/-- A vault slot (R466): 1 ACTIVE, 2 ORPHANED when `active` holds a key; EMPTY otherwise. -/
structure VSlot where
  orphan : Bool
  gen    : Nat
  active : Option VKey
  pend   : Option VKey
deriving DecidableEq, Repr

/-- A vault operation in flight, with its arguments as its start latched them (R469). -/
structure VOp where
  cmd   : Nat
  slot  : Nat
  arg   : Word
  len   : Nat
  label : List Byte
  input : List Byte
deriving DecidableEq, Repr

/-- The vault (R459 to R473, R488). VSTATE: 0 SEALED, 1 OPEN, 2 ERASED. -/
structure Vault where
  vstate  : Nat
  busy    : Option VOp
  result  : Nat
  outLen  : Nat
  slots   : AMap VSlot
  meas    : BitVec 384
  /-- MEAS of the previous start. -/
  prevMeas : BitVec 384
  inBuf   : AMap Word
  outBuf  : List Word
  info    : List Word
  /-- Records owed at the next point service: kind, subject, payload. -/
  owed    : List (Nat × Nat × List Byte)
deriving DecidableEq, Repr

/-- Life cycle and quarantine (R479 to R489). -/
structure LifeCycle where
  /-- 0 BLANK, 1 PROVISIONED, 2 COMMISSIONING, 3 IN_SERVICE, 4 MAINTENANCE, 5 DECOMMISSIONED. -/
  state   : Nat
  lcErr   : Bool
  quar    : Nat
  qerr    : Bool
  /-- A transition that waits for a vault operation (R486): command code. -/
  waiting : Option Nat
deriving DecidableEq, Repr

/- ## Firmware update (chapter 18) -/

/-- What the module keeps of an image: header fields and the two digests (R493). -/
structure Image where
  major   : Nat
  minor   : Nat
  patch   : Nat
  chBuild : Nat
  mirFmt  : Nat
  secVer  : Nat
  digests : List Byte
deriving DecidableEq, Repr

/-- The update service (R492 to R505). -/
structure Upd where
  /-- 0 EMPTY, 1 RECEIVING, 2 VERIFYING, 3 STAGED, 4 ARMED. -/
  state   : Nat
  result  : Nat
  /-- 0 free, 1 HOST, 2 NET, 3 PAIR; for NET the port and the sender. -/
  lock    : Nat
  port    : Nat
  mac     : BitVec 48
  /-- Source of the last transfer: 0 HOST, 1 NET-A, 2 NET-B, 3 PAIR (R504). -/
  src     : Nat
  /-- Header and body received, and the staged image. -/
  header  : List Byte
  body    : List Byte
  /-- TARGET of the armed activation and its instant (R500). -/
  target  : Nat
  armedAt : Instant
  slotB   : Bool
  trial   : Bool
  floor   : Nat
  revoked : BitVec 4
  slotAImg : Image
  slotBImg    : Image
  /-- Partner staging: STATE, SEC_VER, MIRROR_FMT. -/
  pState  : Nat
  pSec    : Nat
  pFmt    : Nat
  /-- The next start runs the other slot, with the cause of UPD_REVERTED (R502). -/
  revert  : Option Nat
  /-- Records owed at the next point service: kind, payload. -/
  owed    : List (Nat × List Byte)
deriving DecidableEq, Repr

/- ## What the module puts on its buses, links and pins (log 2) -/

/-- A PTP or gPTP message as the module sends it (R211, R212, R215): kind 0 Announce, 1 Sync, 2 Follow_Up, 3 Delay_Req,
4 Pdelay_Req, 5 Pdelay_Resp, 6 Pdelay_Resp_Follow_Up; the domain; UDP over IPv4, or layer 2; one step; the clockClass and
the priorities of an Announce; the interval as a logarithm; and the time of the port's timebase it carries. -/
structure PtpSend where
  kind       : Nat
  domain     : Nat
  udp        : Bool
  oneStep    : Bool
  clockClass : Option Nat
  priorities : Option (Nat × Nat)
  logInterval : Int
  time       : Instant
deriving DecidableEq, Repr

/-- One thing the module put out, oldest first in `State.out`. -/
inductive Emission
  /-- A memory write TLP of function `fn` (R119). -/
  | memWrite (fn addr : Nat) (bytes : List Byte)
  /-- An MSI-X message (R98, R99). -/
  | msix (fn vector : Nat) (addr : Slot) (data : Word)
  /-- A word a read answers with, bytes not asked for 0 (R9, R70). -/
  | readData (fn off : Nat) (w : Word)
  /-- A non-posted request answered with Unsupported Request (R70, R97). -/
  | unsupported (fn off : Nat)
  /-- A configuration request answered with Configuration Request Retry Status (R103, R104). -/
  | configRetry (fn off : Nat)
  /-- An SMBus block or word (R112). -/
  | smbus (bytes : List Byte)
  /-- The shadow of a transaction sent to channel `ch` (8: held in the hub) (R82). -/
  | shadow (ctx ch : Nat)
  /-- GO of a transaction to a channel (R82). -/
  | go (ctx ch : Nat)
  /-- ABORT of a transaction to a channel (R82). -/
  | abort (ctx ch : Nat)
  /-- A time beacon launched to channel `ch` (R206). -/
  | beacon (ch : Nat) (b : Beacon)
  /-- A CAN frame sent on CANA (0) or CANB (1) of a channel (R294). -/
  | canFrame (ch x : Nat) (f : CanFrame)
  /-- An Ethernet frame sent on target 0 to 33, with its FCS (R127). -/
  | ethFrame (target : Nat) (bytes : List Byte)
  /-- NETx_ACT_N pulses low for 40 ms (R516). -/
  | netAct (p : Nat)
  /-- A PAUSE frame of a backbone port (R342). -/
  | pause (p quanta : Nat)
  /-- A verify or respond mPacket (R344). -/
  | verify (p : Nat)
  | respond (p : Nat)
  /-- A PTP or gPTP message of a port (16 + 2n + x: a segment) (R212, R215). -/
  | ptp (port : Nat) (m : PtpSend)
  /-- A heartbeat, a health report and a mirror record to the partner (R405, R415, R409). -/
  | heartbeat (h : Heartbeat)
  | health (words : List Word)
  | mirror (seq : Nat) (r : MirrorRec)
  /-- An acknowledgement of the update service on a port (R499). -/
  | updAck (port : Nat) (bytes : List Byte)
deriving DecidableEq, Repr

/- ## The module -/

/-- The state of the module. -/
structure State where
  /-- Commands that wait, first in first out (log 1). -/
  pending : List Instr
  /-- What the module has put out, oldest first (log 2). -/
  out     : List Emission
  /-- Number of the next free value (log 3; the model's own). -/
  free    : Nat
  /-- Elapsed ticks of the time island (R205; log 4). -/
  ticks   : Nat
  ident   : Ident
  /-- Register words that differ from their reset values, by function × 2^24 + offset. -/
  regs    : AMap Word
  /-- Low words of 64-bit registers that wait for their high words (R70). -/
  low64   : AMap Word
  /-- High words of 64-bit registers latched by reads of their low words (R9), by the offset of the low word. -/
  high64  : AMap Word
  /-- Offsets of the registers whose items are pinned (R73). -/
  pins    : List Nat
  host    : HostPort
  fns     : List Fn
  rings   : AMap Ring
  evs     : AMap EvRing
  points  : AMap Point
  ws      : Watershed
  txns    : AMap Txn
  nextTxn : Nat
  lastTxn : Nat
  time    : HubTime
  hlist   : Table
  /-- Declared actions (R161), by ACTION_ID. -/
  actions : AMap Action
  /-- Basin and cookie of descriptor entries that have fired (R141, R243). -/
  fired   : List (Nat × Slot)
  tsqs    : List Tsq
  chs     : List Chan
  nets    : List NetPort
  pair    : Pair
  pwr     : Power
  bkp     : Backup
  vlt     : Vault
  lc      : LifeCycle
  upd     : Upd
  /-- Frames handed to transmit queues so far: their order (R311). -/
  frames  : Nat
  /-- Flights and entries numbered so far. -/
  serial  : Nat
  /-- The D+ pull-up of the service port is connected (R518). -/
  usb     : Bool
  /-- VBUS is sensed (R518). -/
  vbus    : Bool
deriving DecidableEq, Repr

/- ## Reset values. What the spec leaves open here is named in notes/assumptions/5 to 8. -/

/-- A module of ordering code UZF-8A (log 5). -/
def Ident.factory : Ident :=
  { eight := true, hwIssue := 1, serial := 0x0000000000000001#64, macBase := 0x020000000000, sideB := false,
    smbHigh := false }

/-- An MSI-X table entry after reset: masked (R99). -/
def MsixEntry.reset : MsixEntry := { addr := 0, data := 0, masked := true }

/-- A function after reset (R112). -/
def Fn.reset : Fn :=
  { mse := false, bme := false, d3hot := false, msixEn := false, fmask := false, flrBusy := false,
    withheld := 0, table := [], pba := [], aer := [], cfg := [], mirsel := 0, mirStat := 0,
    mirdata := List.replicate 8 0, declCmd := 0, declRes := 0, declId := 0, declOver := false }

/-- The endpoint after power-on: PERST_N asserted, link down (R103, R112). -/
def HostPort.reset : HostPort :=
  { perst := true, ready := false, vfEnable := false, numVfs := 0, speed := 0, width := 0, upCnt := 0,
    corrCnt := 0, alert := 0 }

/-- A ring after reset (R147). -/
def Ring.reset : Ring :=
  { state := .disabled, kind := 0, sizeLog2 := 0, cfgErr := false, dbErr := false, haltCause := 0, hw := 0,
    sw := 0, cpl := 0, cplCons := 0, drops := 0, truncs := 0, loss := false, armed := false, pend := 0,
    flights := [], held := [], stale := false }

/-- An event ring after reset (R147). -/
def EvRing.reset : EvRing :=
  { state := .disabled, sizeLog2 := 0, cfgErr := false, dbErr := false, hw := 0, cons := 0, armed := false,
    pend := 0, drops := 0, lost := false, queue := [], stale := false }

/-- A mirror entry that has never been written (R38). -/
def Mirror.never : Mirror := { value := 0, stamp := 0, timeValid := false, quality := 0, seq := 0, epoch := 0 }

/-- A transaction context after reset (R89). -/
def Txn.reset : Txn :=
  { state := .idle, err := false, result := 0, id := 0, scope := 0, staged := [], apply := 0, isAt := false,
    waitPrep := [], goSent := false, waitGo := [], applied := [], errAddr := 0, resetAfter := false, parts := [] }

/-- Watershed before the first declaration. -/
def Watershed.reset : Watershed :=
  { dirgen := 0, epoch := 0, reissue := [], removing := [], assigns := [], passes := [], loops := [],
    subs := [], svc := List.replicate 8 .inPool, svcErr := List.replicate 8 false, trigger := none,
    rebalance := false, plan := none, passCount := 0, migrations := [] }

/-- The hub timebase after reset (R196, R199, R222). -/
def HubTime.reset : HubTime :=
  { now := 0, frac := 0, cls := 0, servo := .arm, integ := 0, adj := 0, ePrev := 0, tPrev := 0, offset := 0,
    syncL := -3, locked := false, lockCnt := 0, unlockCnt := 0, overCnt := 0, step := none, stepCnt := 0,
    cmdErr := false, seq := 0, stepped := false, latch1 := 0, latch2 := 0,
    ptp := { stateA := 0, stateB := 0, gm := false, gmId := 0 } }

/-- An empty transmit timestamp queue. -/
def Tsq.reset : Tsq := { entries := [], serial := 0, ovf := 0, told := false, e1 := 0, e2 := 0, e3 := 0 }

/-- A channel timebase after reset (R222). -/
def ChanTime.reset : ChanTime :=
  { now := 0, frac := 0, integ := 0, adj := 0, locked := false, lockCnt := 0, unlockCnt := 0, holdover := false,
    valid := false, cls := 0, missed := 0, lastSeq := none, delay := 0, offset := 0, beacon := none,
    lastPlain := 0, stepTo := none, silent := 0, latch1 := 0, latch2 := 0 }

/-- An empty timed-action table. -/
def Table.reset : Table := { entries := [], gens := [], late := 0, missed := 0 }

/-- A free loop slot. -/
def LoopRt.reset : LoopRt :=
  { loop := none, en := false, bankSel := 0, primed := false, i48 := 0, pvf48 := 0, df48 := 0, pvfPrev := 0,
    sps := 0, tgt := 0, ffLast := 0, lastBank := none, u := 0, e := 0, clamp := .none, tracking := false,
    pvBad := false, bankErr := false, spsrcErr := false, fe := false, feTmr := 0, settle := 0, cnts := [],
    pulse := none, spsrc := 0, out := .nothing, pub := .nothing, lim := none, lastIn := 0, waiting := false, owns := false,
    srcErr := false }

/-- A CAN controller after reset (R327): 500 kbit/s timing, nothing queued. -/
def Can.reset : Can :=
  { state := .disabled, mode := 0, modeWant := 0, pendingMode := false, ewarn := false, cfgErr := false,
    recv := 0, tec := 0, errA := 0, errD := 0, noack := 0, noackBasin := 0, busoffCnt := 0,
    abt := 0x020F0F3E#32, dbt := 0, loopDly := none, txq := [], won := false, rxqDrops := 0, rxTold := [],
    txOk := 0, rxOk := 0, rxRej := 0, errFrames := 0, fdExc := 0, bank := false, queues := [],
    oldElems := [], oldQueues := [], switched := 0, images := [],
    silent := [], lostNodes := [] }

/-- A backbone port after reset (R365): enabled, link down. -/
def NetPort.reset : NetPort :=
  { up := false, speed := 0, pauseRx := false, pauseTx := false, pauseQ := 0, xoff := false,
    verify := .disabled, attempts := 0, hold := false, linkCnt := 0, poweredDown := false, express := [],
    preempt := [], wire := none, suspended := none, rx := [], rxTold := false, reasm := none, cnts := [] }

/-- A T1S segment after reset (R366): DISABLED. -/
def Seg.reset : Seg :=
  { mode := 0, plca := false, carrier := false, txq := [], busy := false, backoff := 0, collisions := 0,
    excTold := false, queues := [], rxTold := [], heard := [], lost := [], gptp := [], opp := 0, burst := 0, tag := 0,
    writes := [],
    cnts := [] }

/-- A digital output after reset: off. -/
def Dout.reset : Dout :=
  { cmd := false, drive := false, tripped := false, hot := false, due := false, ext := false, current := 0,
    qual := 1 }

/-- An analogue output after reset: at 0 V until the channel first commands it (R384). -/
def Aout.reset : Aout := { code := 0, ovl := false, zero := true, dim := false, disc := false, qual := 1 }

/-- An analogue input after reset. -/
def Ain.reset : Ain :=
  { code := 0, qual := 0, meas := 0, fs := none, range := 0, settle := 0, burden := false, scan := false,
    burst := false }

/-- Field I/O after reset (R397, R398): outputs off, guard not armed. -/
def Dio.reset : Dio :=
  { fsup := 0, fsupOk := false, low := false, inv := false, uvlo := false, restart := false, suspTo := 0,
    fc0 := 0, fc1 := 0, level := 0, counts := [0, 0, 0, 0],
    dout := List.replicate 8 Dout.reset, group := 0, aout := List.replicate 4 Aout.reset,
    ain := List.replicate 8 Ain.reset, bursts := [], armed := false, tripped := false, holding := false,
    tripCnt := 0, keeps := false, fresh := true, gSafe := 0, gWor := 0, gCodes := [0, 0, 0, 0], cal := none, calErr := false }

/-- A zone channel after reset: STARTING (R32). -/
def Chan.reset : Chan :=
  { state := .starting, prior := .inService, xbarUp := false, relock := false, copied := 0, isoOk := false, lossCnt := 0,
    tb := ChanTime.reset, egress := [], ingress := [], cmds := [], reports := [], heldRecs := [], inputs := [],
    table := Table.reset, tableEn := true, slots := [], snap := { slot := 0, words := List.replicate 8 0 },
    feTrips := 0, can := [Can.reset, Can.reset], seg := [Seg.reset, Seg.reset], dio := Dio.reset, staged := [],
    stopped := false, relArmed := false, stopH := 0 }

/-- The pair unit after reset: UNPAIRED (R426). -/
def Pair.reset : Pair :=
  { role := 0, partnerRole := 0, partner := none, refused := false, linkUp := false, lanes := 0, aliveIn := .silent,
    aliveOut := false, fit := false, partnerFit := false, hot := false, cfgErr := false, busy := false,
    cmdErr := false, syncPct := 0, takeovers := 0, lastCause := 0, lastHot := false, lastGap := 0,
    lastSec := 0, health := List.replicate 6 0, reportSeq := 0, cycles := 0, crcErr := 0, hbMiss := 0,
    seq := 0, peerSeq := none, lagMax := 0, lastH := 0, recs := [], mirSeq := 0, made := false, memErr := false,
    testBad := false, swapping := false, swapTs := none, yielding := none, decided := none, outs := [],
    segBase := none }

/-- Before VIN is good (R441). -/
def Power.reset : Power :=
  { state := 0, vinGood := false, warn := false, frozen := false, recorded := false, returned := false,
    begun := false, service := false, backupLost := false, resetErr := false, kind := 0, warmCnt := 0, vin := 0, vio := 0,
    vinTick := 0, smbHigh := false,
    lost := [], warnAt := 0, warnCls := 0, warnValid := false, cancelled := false, deliv := [], recs := [],
    fresh := false }

/-- The calendar after loss of the domain: 2000-01-01 00:00:00 (R456). -/
def Cal.reset : Cal :=
  { presc := 0, sec := 0, min := 0, hour := 0, wday := 0, day := 1, month := 1, year := 0 }

/-- A disabled alarm (R456). -/
def Alarm.reset : Alarm :=
  { value := 0, cfg := 0, fired := false, skipped := false, asleep := false, last := none, owed := none }

/-- An empty switch-over record (R455). -/
def SoRec.reset : SoRec :=
  { valid := false, cause := 0, hot := false, count := 0, gap := 0, h := 0, epoch := 0 }

/-- The backup domain after its loss (R456, R458, R491). -/
def Backup.reset : Backup :=
  { cal := Cal.reset, osf := true, vbatLow := false, vbat := 0, dateErr := false, syncRange := false,
    test := false, syncEn := true, rate := 0, autoCal := true, alarms := [Alarm.reset, Alarm.reset],
    keep := List.replicate 32 0, so := SoRec.reset, latchT := 0, latchD := 0, tcfg := 0,
    loops := [{ last := .good, active := false }, { last := .good, active := false }], unack := false,
    bkekErased := false, bkek := false, tnext := 0, tcount := 0,
    tlog := List.replicate 30 [0, 0, 0, 0], tseq := 0, owed := [] }

/-- An empty slot (R466). -/
def VSlot.reset : VSlot := { orphan := false, gen := 0, active := none, pend := none }

/-- The vault before its first opening: SEALED (R460). -/
def Vault.reset : Vault :=
  { vstate := 0, busy := none, result := 0, outLen := 0, slots := [], meas := 0, prevMeas := 0, inBuf := [],
    outBuf := List.replicate 12 0, info := List.replicate 7 0, owed := [] }

/-- A module fresh from the factory: BLANK (log 8). -/
def LifeCycle.reset : LifeCycle := { state := 0, lcErr := false, quar := 0, qerr := false, waiting := none }

/-- The factory image (log 5). -/
def Image.factory : Image :=
  { major := 1, minor := 0, patch := 0, chBuild := 1, mirFmt := 1, secVer := 0, digests := List.replicate 96 0 }

/-- The update service of a module fresh from the factory (log 8). -/
def Upd.reset : Upd :=
  { state := 0, result := 0, lock := 0, port := 0, mac := 0, src := 0, header := [], body := [], target := 0,
    armedAt := 0, slotB := false, trial := false, floor := 0, revoked := 0, slotAImg := Image.factory,
    slotBImg := Image.factory, pState := 0, pSec := 0, pFmt := 0, revert := none, owed := [] }

/-- The module right after reset. -/
def State.reset : State :=
  { pending := [], out := [], free := 0, ticks := 0, ident := Ident.factory, regs := [], low64 := [],
    high64 := [], pins := [],
    host := HostPort.reset, fns := List.replicate 64 Fn.reset, rings := [], evs := [], points := [],
    ws := Watershed.reset, txns := [], nextTxn := 1, lastTxn := 0, time := HubTime.reset,
    hlist := Table.reset, actions := [], fired := [], tsqs := List.replicate 10 Tsq.reset,
    chs := List.replicate 8 Chan.reset, nets := [NetPort.reset, NetPort.reset], pair := Pair.reset,
    pwr := Power.reset, bkp := Backup.reset, vlt := Vault.reset, lc := LifeCycle.reset, upd := Upd.reset,
    frames := 0, serial := 0, usb := false, vbus := false }

end Sys2Proof.Machine
end

