-- ==== Sys2Proof/Machine/LoopLaw.lean ====
section
/-! DEFINITION. Arithmetic of the loop law (chapter 09, R252 to R269; chapter 10, R284 to R290) as pure
functions over exact integers. -/

namespace Sys2Proof.Machine

/-- sat32 of R254. -/
def sat32 (v : Int) : Int := max (-2147483648) (min 2147483647 v)

/-- rshr of R254: right shift with halves rounded towards +∞. -/
def rshr (v : Int) (n : Nat) : Int :=
  if n = 0 then v else (v + 2 ^ (n - 1)) / 2 ^ n

/-- mul of R254. -/
def mulK (k x : Int) (sh : Nat) : Int := sat32 (rshr (k * x) sh)

/-- mul48 of R255. -/
def mul48 (k x : Int) (sh : Nat) : Int :=
  if 16 ≤ sh then rshr (k * x) (sh - 16) else k * x * 2 ^ (16 - sh)

/-- clamp to [lo, hi]; for lo ≤ hi. -/
def clampTo (v lo hi : Int) : Int := if v < lo then lo else if hi < v then hi else v

/-- The low 32 bits of a slot as a signed number (R36). -/
def slotS32 (v : Slot) : Int := (v.truncate 32 : BitVec 32).toInt

/-- in_conv of R252 for the types other than CNT64. -/
def inConv (type : Nat) (v : Slot) : Int :=
  match type with
  | 0 => (v.toNat % 2 : Nat)
  | 1 | 5 => (v.toNat % 65536 : Nat)
  | _ => slotS32 v

/-- in_conv of a CNT64 input: the increase since the previous sample, saturated (R252). -/
def cntConv (prev now : Nat) : Int := min 2147483647 (((now + 2 ^ 64 - prev) % 2 ^ 64 : Nat) : Int)

/-- out_conv of R253: the value slot an engine value takes in a point of the type. -/
def outConv (type enumCount : Nat) (omin omax u : Int) : Slot :=
  match type with
  | 0 => if omin + (omax - omin + 1) / 2 ≤ u then 1 else 0
  | 1 => BitVec.ofInt 64 (clampTo u 0 65535)
  | 5 => BitVec.ofInt 64 (clampTo u 0 (enumCount - 1))
  | _ => BitVec.ofInt 64 u

/-- One quality-marked input of a sample: its engine value, and whether its quality is GOOD (R261). -/
structure LawIn where
  /-- Process value; meaningful when `pvGood`. -/
  pv      : Int
  pvGood  : Bool
  /-- New target value when its source has GOOD quality (R261, R284). -/
  tgt     : Option Int
  /-- The slot has an FF point, and its value when GOOD. -/
  hasFf   : Bool
  ff      : Option Int
  /-- The TRACK value when tracking is on (R261, R263). -/
  track   : Option Int
  /-- CTL.REVERSE, CTL.BUMPLESS, SLEW, FELIM, FE_TIME, SETTLE_PERIODS, PRESET. -/
  reverse  : Bool
  bumpless : Bool
  slew     : Nat
  felim    : Nat
  feTime   : Nat
  settleP  : Nat
  preset   : Int
  bankNo   : Nat

/-- Priming (R268, R285). -/
def primeRt (i : LawIn) (b : Bank) (r : LoopRt) : LoopRt :=
  { r with
    primed := true, pvf48 := i.pv * 65536, pvfPrev := i.pv, df48 := 0, sps := i.pv, tgt := i.pv,
    i48 := clampTo ((match i.track with | some t => t | none => i.preset) * 65536)
      (b.omin * 65536) (b.omax * 65536),
    settle := i.settleP, lastBank := none, pvBad := false, feTmr := 0, fe := false, tracking := false }

/-- Following-error supervision of a sample that ran the law (R290): the new FE_TMR, FE and whether FE was
activated. `settled`: SETTLE_CNT was 0 before its decrement (log 31). -/
def superviseRt (felim feTime : Nat) (settled tracking : Bool) (e : Int) (tmr : Nat) (fe : Bool) :
    Nat × Bool × Bool :=
  if felim = 0 then (0, false, false)
  else if settled && !tracking then
    if (felim : Int) < e.natAbs then
      let t := min (tmr + 1) (max feTime 1)
      (t, fe || t = max feTime 1, !fe && t = max feTime 1)
    else
      let t := tmr - 1
      (t, fe && t ≠ 0, false)
  else (tmr, fe, false)

/-- The loop law of R260 from the filter onward, for a primed slot with a GOOD process value and valid
limits: the runtime state after the sample, and whether following error was activated. -/
def lawRt (i : LawIn) (b : Bank) (r0 : LoopRt) : LoopRt × Bool :=
  -- on return to GOOD the filters restart from x (R261)
  let r := if r0.pvBad then { r0 with pvf48 := i.pv * 65536, pvfPrev := i.pv, df48 := 0 } else r0
  -- a swap clamps the integrator to the new limits (R265)
  let old := match r.lastBank with | some o => o | none => b
  let swap := old ≠ b
  let i48a := if swap then clampTo r.i48 (b.omin * 65536) (b.omax * 65536) else r.i48
  let pvf48 := r.pvf48 + rshr (i.pv * 65536 - r.pvf48) b.pfSh
  let pvf := rshr pvf48 16
  let tgt := match i.tgt with | some t => t | none => r.tgt
  let step0 := tgt - r.sps
  let step := if i.slew = 0 ∨ 2147483648 ≤ i.slew then step0 else clampTo step0 (-(i.slew : Int)) i.slew
  let sps := sat32 (r.sps + step)
  let e := sat32 (if i.reverse then pvf - sps else sps - pvf)
  let dx := sat32 (if i.reverse then pvf - r.pvfPrev else r.pvfPrev - pvf)
  let df48 := r.df48 + rshr (mulK b.kd dx b.kdSh * 65536 - r.df48) b.dfSh
  let ff := match i.ff with | some f => f | none => r.ffLast
  let p := mulK b.kp e b.kpSh
  let d := rshr df48 16
  let f := if i.hasFf then mulK b.kff ff b.kffSh else 0
  let pOld := mulK old.kp e old.kpSh
  let fOld := if i.hasFf then mulK old.kff ff old.kffSh else 0
  let i48b := if swap ∧ i.bumpless then i48a + (pOld + fOld - p - f) * 65536 else i48a
  let lo := b.omin * 65536
  let hi := b.omax * 65536
  let di := mul48 b.ki e b.kiSh
  let s0 := rshr i48b 16 + p + d + f
  let i48 := match i.track with
    | some t => clampTo ((t - p - d - f) * 65536) lo hi
    | none =>
      if (b.omax < s0 ∧ 0 < di) ∨ (s0 < b.omin ∧ di < 0) then clampTo i48b lo hi
      else clampTo (i48b + di) lo hi
  let sum := rshr i48 16 + p + d + f
  let tracking := i.track.isSome
  -- the settle count is loaded again at the first sample after tracking ends (R290)
  let settle0 := if r.tracking && !tracking then i.settleP else r.settle
  let sup := superviseRt i.felim i.feTime (settle0 = 0) tracking e r.feTmr r.fe
  ({ r with
      pvf48 := pvf48, pvfPrev := pvf, df48 := df48, tgt := tgt, sps := sps, i48 := i48, ffLast := ff,
      e := e, u := clampTo sum b.omin b.omax,
      clamp := if b.omax < sum then .high else if sum < b.omin then .low else .none,
      tracking := tracking, pvBad := false, bankErr := false, lastBank := some b, bankSel := i.bankNo,
      settle := settle0 - 1, feTmr := sup.1, fe := sup.2.1 }, sup.2.2)

/-- One sample (R260, R261, R264, R269): the runtime state after it, what its output instant does and
publishes, and whether following error was activated. `disHold`: DMODE HOLD; `first`: the first sample since
the loop was enabled, the only one that drives DISVAL (R269). -/
def sampleRt (i : LawIn) (b : Bank) (disHold first : Bool) (r : LoopRt) : LoopRt × Bool :=
  if !i.pvGood then
    if r.primed then
      ({ r with pvBad := true, out := .nothing, pub := if r.pvBad then .nothing else .stale }, false)
    else
      ({ r with out := if disHold || !first then .nothing else .disval, pub := .nothing }, false)
  else if b.omax < b.omin then
    ({ r with bankErr := true, pub := .nothing,
              out := (if r.primed || disHold || !first then .nothing else .disval) }, false)
  else
    let r1 := if r.primed then r else primeRt i b r
    let (r2, trip) := lawRt i b r1
    ({ r2 with out := .command r2.u, pub := .values r2.fe }, trip)

end Sys2Proof.Machine
end

