-- ==== Sys2Proof/Machine/RegMap.lean ====
section
/-! DEFINITION. The map of the configuration registers (R68, R69, R526 to R528): which bits of each word
software writes, its reset value, whether it is expert (R72) and whether it is stageable (R75). -/

namespace Sys2Proof.Machine

/-- One register or array of registers of a sub-block: words at base + stride × i for i < count. -/
structure RegRow where
  base   : Nat
  stride : Nat
  count  : Nat
  /-- Bits of type RW or RWS. -/
  mask   : Word
  reset  : Word
  expert : Bool
  stage  : Bool

/-- `o` is a word of the row. -/
def RegRow.has (r : RegRow) (o : Nat) : Bool :=
  r.base ≤ o && o < r.base + r.stride * r.count && (o - r.base) % r.stride == 0

/-- A basic stageable word. -/
def rB (base : Nat) (mask : Word) (reset : Word := 0) (stride : Nat := 4) (count : Nat := 1) : RegRow :=
  { base := base, stride := stride, count := count, mask := mask, reset := reset, expert := false, stage := true }

/-- A basic word that is not stageable. -/
def rD (base : Nat) (mask : Word) (reset : Word := 0) (stride : Nat := 4) (count : Nat := 1) : RegRow :=
  { rB base mask reset stride count with stage := false }

/-- An expert word. -/
def rE (base : Nat) (mask : Word) (reset : Word := 0) (stride : Nat := 4) (count : Nat := 1) : RegRow :=
  { rB base mask reset stride count with expert := true }

/-- The level register of R71: staged only. -/
def rLevel : RegRow := rE 0xFFFC 1

/-- All 32 bits. -/
abbrev all32 : Word := 0xFFFFFFFF

/-- Registers of a hub sub-block (R69 row index). -/
def hubRows : Nat → List RegRow
  | 0x1 => [rD 0x04 0xFFFF, rD 0x08 all32 0 4 2, rD 0x10 0xFFFF]
  | 0x2 => [rB 0x14 0x3FF, rB 0x18 0x3FF 0x1D]
  | 0x3 =>
    [rB 0x0000 0xFF 0 32 1024, rB 0x0004 0x010FFFFF 0x1420 32 1024, rB 0x0008 0xFFFFF000 0 32 1024,
     rB 0x000C all32 0 32 1024, rB 0x0010 0xFFFFF000 0 32 1024, rB 0x0014 all32 0 32 1024,
     rE 0x0018 0x7FF 0x7FF 32 1024,
     rB 0x8000 0xF1 0 32 64, rB 0x8004 0x010FFFFF 0x1420 32 64, rB 0x8008 0xFFFFF000 0 32 64,
     rB 0x800C all32 0 32 64, rB 0x8010 0xFFFFF000 0 32 64, rB 0x8014 all32 0 32 64,
     rD 0x8018 0xFFFF 0 32 64, rLevel]
  | 0x4 =>
    [rD 0x0000 all32 0 4 16, rB 0x1000 0xFFFFFF01 0x003C5501, rB 0xF000 1, rD 0xF010 0x3FFF,
     rD 0xF100 0x1FFFFFFE 0x10008001, rD 0xF104 0x1FFFFFFF 0 4 63, rLevel]
  | 0x5 =>
    [rB 0x10 0x7FFFF, rB 0x20 0xFFFF000F 0x03E80008, rB 0x24 0x1FFFF 3600, rB 0x2C all32 0 4 2, rB 0x34 0xFFFF,
     rE 0x48 all32 0x00220000, rE 0x4C all32 0x00020000, rE 0x50 0x3FF 500, rB 0x64 0x00FF03FF,
     rB 0x80 0xFFFF 0xB, rB 0x84 all32 0x00FDF8F8, rE 0x88 all32, rLevel]
  | 0x6 | 0x7 =>
    [rB 0x00 0x1FF 0x3F, rB 0x08 0xFFF 1522, rB 0x0C 0x7F7FFFFF 0x2060FFFF, rE 0x18 0xFFFF0FFF 0xA0,
     rB 0x24 0xF, rB 0x100 all32 0 8 32, rB 0x104 0x8000FFFF 0 8 32, rB 0x200 0x80000FFF 0 4 16, rLevel]
  | 0x8 => [rB 0x00 0xFFFF0003, rB 0x20 0xFFF 0xFFF 4 8]
  | 0x9 =>
    [rD 0x04 0x1FFF, rD 0x0C 0x7FF, rD 0x10 all32 0 4 4, rD 0x84 0x3F, rD 0x100 0x1FF]
  | 0xA =>
    [rD 0x08 all32 0 4 2, rD 0x10 0x3FFFFFF, rD 0x14 0x1FFFFF, rD 0x18 all32 0 4 2, rD 0x20 0xFFFF,
     rD 0x24 0xFFFF0003 0x02580000]
  | 0xB => [rD 0x1C 0x071F3F3F, rD 0x20 0x01FF0F1F 0x101, rD 0x2C 0xF]
  | _ => []

/-- Registers of a channel sub-block (R69). -/
def chRows : Nat → List RegRow
  | 0x1 => [rB 0x20 0xFF03 0xFD00]
  | 0x2 =>
    [rB 0x00 1 1, rD 0x10 0xFFF, rE 0x100 all32 0x03E803E8 4 8, rE 0x120 0xFFFF 0x03E8 4 5, rLevel]
  | 0x3 =>
    [rD 0x10 0x3FF, rD 0x100 0x1FFFFF 0 8 16, rD 0x104 all32 0 8 16, rD 0x200 all32 0 4 64]
  | 0x4 =>
    [rB 0x00 0xFFFF0F3F 0 64 1024, rB 0x04 all32 0 64 1024, rB 0x08 all32 0 64 1024, rB 0x0C all32 0 64 1024,
     rB 0x10 all32 0 64 1024, rB 0x14 all32 0 64 1024, rB 0x18 all32 0 64 1024, rB 0x1C all32 0 64 1024,
     rB 0x20 0x0FFFFFFF 0 64 1024, rB 0x24 all32 0x80000000 64 1024, rB 0x28 all32 0x7FFFFFFF 64 1024,
     rB 0x2C all32 0 64 1024, rB 0x30 all32 0 64 1024, rB 0x34 0x0FFFFFFF 0 64 1024,
     rB 0x38 all32 0x80000000 64 1024, rB 0x3C all32 0x7FFFFFFF 64 1024]
  | 0x5 | 0x6 =>
    [rD 0x00 0x7F2F 0x600, rB 0x0C 0xFF 0xCC, rE 0x10 all32 0x020F0F3E, rE 0x14 0x3FFFFFF, rB 0x38 0xFFFF,
     rB 0x100 0xBFFFFFFF 0 8 64, rB 0x104 0x1FFFFFFF 0 8 64, rE 0x1000 0x07FFFFFF 0 4 128,
     rE 0x1400 all32 0 8 64, rE 0x1404 0x7FFFFFFF 0 8 64, rLevel]
  | 0x7 | 0x8 =>
    [rB 0x00 0xFFFF0003, rB 0x08 0xFFF 1522, rE 0x18 0xFFFFFF01 0x20210000, rE 0x1C 0xFFFF 0x8000,
     rB 0x100 all32 0 8 32, rB 0x104 0x8000FFFF 0 8 32, rLevel]
  | 0x9 =>
    [rB 0x14 0xFFFF 5, rB 0x18 0xFFFFF 8000, rB 0x40 0x1FFFF 0x103E8 4 16, rB 0xA4 0xFFFF,
     rB 0xE0 0x1FFFBFFF 0x07D00064, rB 0xE4 0xFFFFFF, rB 0xE8 0xFFFF 0 4 4, rE 0xF8 0xFFFF00FF 0x03E80005,
     rLevel]
  | 0xA =>
    [rB 0x00 0xFFFF00F7 0x00500000 16 8, rB 0x08 0xFFFF 0 16 8, rB 0x0C all32 0x0D6B2710 16 8, rB 0x80 1 0 8 4]
  | _ => []

/-- Offset of the register block of channel `n` (R69). -/
def chBase (n : Nat) : Nat := 0x100000 * (n + 1)

/-- The row of a word at an offset of the physical function's BAR0. -/
def regRow (off : Nat) : Option RegRow :=
  if off < 0x100000 then (hubRows (off / 65536)).find? (fun r => r.has (off % 65536))
  else if off < 0x900000 then (chRows (off % 0x100000 / 65536)).find? (fun r => r.has (off % 65536))
  else none

/-- Reset value of a word; 0 where no bit of it is writable. -/
def regReset (off : Nat) : Word :=
  match regRow off with
  | some r => r.reset
  | none => 0

/-- The bits of a word that software writes. -/
def regMask (off : Nat) : Word :=
  match regRow off with
  | some r => r.mask
  | none => 0

/-- The level register of the sub-block an offset lies in (R71). -/
def levelOf (off : Nat) : Nat := off / 65536 * 65536 + 0xFFFC

/-- The item an expert word configures, named by its first word (R73); in HUB_TIME KP, KI and FMAX are one item and PTPINT
another (DESIGN CHOICE, log 130). -/
def pinItem (off : Nat) : Nat :=
  let o := off % 65536
  if off < 0x100000 then
    if off / 65536 = 5 then (if o = 0x4C ∨ o = 0x50 then off - o + 0x48 else off) else off
  else
    let blk := off % 0x100000 / 65536
    if blk = 5 ∨ blk = 6 then
      if o = 0x14 then off - 4 else if 0x1400 ≤ o ∧ o % 8 = 4 then off - 4 else off
    else if (blk = 7 ∨ blk = 8) ∧ o = 0x1C then off - 4 else off

/-- Values a field reads back after a write outside its range (R191, R222, R365, R366, R397, R398; log 34):
clamped. -/
def clampReg (off : Nat) (w : Word) : Word :=
  let o := off % 65536
  let f (lo n a b : Nat) (w : Word) : Word :=
    let v := max a (min b ((w.toNat >>> lo) % 2 ^ n))
    (w &&& ~~~(BitVec.ofNat 32 ((2 ^ n - 1) <<< lo))) ||| BitVec.ofNat 32 (v <<< lo)
  if off = 0x41000 then f 16 16 10 3600 w
  else if off = 0x50024 then f 0 17 60 86400 w
  else if (off = 0x60008 ∨ off = 0x70008) then f 0 12 1518 2048 w
  else if (off = 0x6000C ∨ off = 0x7000C) then f 16 7 16 120 w
  else if off < 0x100000 then w
  else
    let blk := off % 0x100000 / 65536
    if (blk = 7 ∨ blk = 8) ∧ o = 8 then f 0 12 1518 2048 w
    else if (blk = 7 ∨ blk = 8) ∧ o = 0x18 then f 16 8 2 33 w
    else if blk = 9 ∧ o = 0x18 then f 0 20 8 524288 w
    else if blk = 9 ∧ o = 0xE0 then f 16 13 0 8000 w
    else if blk = 10 ∧ o < 0x80 ∧ o % 16 = 12 then f 16 16 1000 6000 w
    else w

/-- The scope bit of an offset in a transaction of the physical function (R75). -/
def scopeBit (off : Nat) : Option Nat :=
  if off < 0x100000 then
    match off / 65536 with
    | 0x2 => some 8 | 0x3 => some 9 | 0x4 => some 10 | 0x5 => some 11 | 0x6 => some 12 | 0x7 => some 13
    | 0x8 => some 14 | _ => none
  else if off < 0x900000 then some (off / 0x100000 - 1) else none

/-- Where a word of a basin view lies (R97): the key of its register, or none. Own copies carry the
function's number above bit 24; the rest are the module's. -/
def viewKey (fn off : Nat) : Option Nat :=
  let own := fn * 0x1000000
  if off = 0x0004 then some (own + 0x20004)
  else if 0x1000 ≤ off ∧ off < 0x1030 then some (own + 0x10000 + (off - 0x1000))
  else if 0x3000 ≤ off ∧ off < 0x3200 then some (0x30000 + 512 * fn + (off - 0x3000))
  else if 0x3800 ≤ off ∧ off < 0x3820 then some (0x38000 + 32 * fn + (off - 0x3800))
  else if 0x4000 ≤ off ∧ off < 0x4048 then some (own + 0x40000 + (off - 0x4000))
  else if off = 0x4F0C then some 0x4F00C
  else if off = 0x4F10 then some (own + 0x4F010)
  else if 0x4F20 ≤ off ∧ off < 0x4F40 then some (own + 0x4F020 + (off - 0x4F20))
  else if 0x5000 ≤ off ∧ off < 0x5014 then some (0x50000 + (off - 0x5000))
  else none

end Sys2Proof.Machine
end

