-- ==== Sys2Proof/Machine/Ops.lean ====
section
/-! DEFINITION. Named operations over maps, words, registers, functions, rings and event records that the
meanings share. -/

namespace Sys2Proof.Machine

/- ### Maps with rising keys -/

/-- The value at a key. -/
def amGet {α : Type} (m : AMap α) (k : Nat) : Option α := (m.find? (fun p => p.1 == k)).map (·.2)

/-- Set the value at a key; the keys stay strictly rising. -/
def amSet {α : Type} : AMap α → Nat → α → AMap α
  | [], k, v => [(k, v)]
  | p :: t, k, v =>
    if k < p.1 then (k, v) :: p :: t else if k = p.1 then (k, v) :: t else p :: amSet t k v

/-- Remove a key. -/
def amDel {α : Type} (m : AMap α) (k : Nat) : AMap α := m.filter (fun p => !(p.1 == k))

/-- Change the value at a key, if any. -/
def amMod {α : Type} (m : AMap α) (k : Nat) (f : α → α) : AMap α :=
  m.map (fun p => if p.1 = k then (p.1, f p.2) else p)

/-- The lowest number below `n` that is no key. -/
def amFree {α : Type} (m : AMap α) (n : Nat) : Option Nat :=
  (List.range n).find? (fun k => (amGet m k).isNone)

/- ### Bits and bytes -/

/-- Field of `n` bits of a word from bit `lo`. -/
def fld (w : Word) (lo n : Nat) : Nat := w.toNat / 2 ^ lo % 2 ^ n

/-- Bit `i` of a word. -/
def bitN (w : Word) (i : Nat) : Bool := w.getLsbD i

/-- The word with bit `i` set. -/
def setBit (w : Word) (i : Nat) : Word := w ||| BitVec.ofNat 32 (2 ^ i)

/-- The vector with bit `i` set to `b`. -/
def setBitTo {n : Nat} (v : BitVec n) (i : Nat) (b : Bool) : BitVec n :=
  if b then v ||| BitVec.ofNat n (2 ^ i) else v &&& ~~~(BitVec.ofNat n (2 ^ i))

/-- A number as a field of `n` bits from bit `lo`. -/
def mkFld (lo n v : Nat) : Word := BitVec.ofNat 32 (v % 2 ^ n * 2 ^ lo)

/-- One bit of a word from a truth value. -/
def mkBit (i : Nat) (b : Bool) : Word := if b then BitVec.ofNat 32 (2 ^ i) else 0

/-- Signed value of a field of `n` bits. -/
def sgn (n v : Nat) : Int := if v < 2 ^ (n - 1) then v else (v : Int) - 2 ^ n

/-- `n` bytes of a number, least significant first (R9). -/
def bytesLE (n v : Nat) : List Byte := (List.range n).map (fun i => BitVec.ofNat 8 (v / 256 ^ i))

/-- `n` bytes of a number, most significant first. -/
def bytesBE (n v : Nat) : List Byte := (bytesLE n v).reverse

/-- The number little-endian bytes stand for. -/
def leNat (bs : List Byte) : Nat := bs.foldr (fun b v => b.toNat + 256 * v) 0

/-- `n` bytes of a list from offset `o`, as a little-endian number; bytes past its end count as 0. -/
def getLE (bs : List Byte) (o n : Nat) : Nat := leNat ((bs.drop o).take n)

/-- A list cut or filled with zeros to `n` bytes. -/
def padTo (n : Nat) (bs : List Byte) : List Byte := bs.take n ++ List.replicate (n - bs.length) 0

/-- The bytes of a word whose enables are set (R70). -/
def beMask (be : BitVec 4) : Word :=
  mkFld 0 8 (if be.getLsbD 0 then 255 else 0) ||| mkFld 8 8 (if be.getLsbD 1 then 255 else 0) |||
  mkFld 16 8 (if be.getLsbD 2 then 255 else 0) ||| mkFld 24 8 (if be.getLsbD 3 then 255 else 0)

/-- A word with the enabled bytes of `new` (R70). -/
def beMerge (be : BitVec 4) (old new : Word) : Word := (old &&& ~~~(beMask be)) ||| (new &&& beMask be)

/-- Nanoseconds of a second. -/
abbrev giga : Nat := 1000000000

/-- NS and SEC of an instant as 4 and 6 little-endian bytes (R41). -/
def stampBytes (t : Instant) : List Byte := bytesLE 4 (t % giga) ++ bytesLE 6 (t / giga)

/-- The instant of NS and SEC fields. -/
def mkInstant (ns sec : Nat) : Instant := sec * giga + ns

/-- Saturating count. -/
def satInc (max n : Nat) : Nat := if n < max then n + 1 else max

/-- The next sample boundary at or after an instant (R80). -/
def ceilSample (t : Instant) : Instant := (t + 124999) / 125000 * 125000

/- ### Registers -/

/-- A register word at a key. -/
def State.reg (s : State) (key : Nat) : Word :=
  match amGet s.regs key with
  | some w => w
  | none => regReset (key % 0x1000000)

/-- Store a register word; a word at its reset value is not listed. -/
def State.setReg (s : State) (key : Nat) (w : Word) : State :=
  if w = regReset (key % 0x1000000) then { s with regs := amDel s.regs key }
  else { s with regs := amSet s.regs key w }

/-- A register of function `fn`'s own copy. -/
def State.regF (s : State) (fn off : Nat) : Word := s.reg (fn * 0x1000000 + off)

/-- The level of the sub-block an offset lies in: EXPERT or BASIC (R71). -/
def State.expertAt (s : State) (off : Nat) : Bool := bitN (s.reg (levelOf off)) 0

/-- An instant held in three words NS, SEC_LO, SEC_HI at a key. -/
def State.regInstant (s : State) (key : Nat) : Instant :=
  mkInstant (s.reg key).toNat ((s.reg (key + 4)).toNat + 2 ^ 32 * fld (s.reg (key + 8)) 0 16)

/-- A 64-bit value held in two words. -/
def State.reg64 (s : State) (key : Nat) : Nat := (s.reg key).toNat + 2 ^ 32 * (s.reg (key + 4)).toNat

/- ### Parts of the state -/

/-- Change channel `n`. -/
def State.modCh (s : State) (n : Nat) (f : Chan → Chan) : State := { s with chs := s.chs.modify n f }

/-- Channel `n`. -/
def State.ch (s : State) (n : Nat) : Chan := s.chs.getD n Chan.reset

/-- Function `b`. -/
def State.fn (s : State) (b : Nat) : Fn := s.fns.getD b Fn.reset

/-- Change function `b`. -/
def State.modFn (s : State) (b : Nat) (f : Fn → Fn) : State := { s with fns := s.fns.modify b f }

/-- Module ring `k` = 16 × basin + ring (R53). -/
def State.ring (s : State) (k : Nat) : Ring :=
  match amGet s.rings k with
  | some r => r
  | none => Ring.reset

/-- Change module ring `k`. -/
def State.modRing (s : State) (k : Nat) (f : Ring → Ring) : State :=
  { s with rings := amSet s.rings k (f (s.ring k)) }

/-- Event ring of basin `b`. -/
def State.ev (s : State) (b : Nat) : EvRing :=
  match amGet s.evs b with
  | some r => r
  | none => EvRing.reset

/-- Change the event ring of basin `b`. -/
def State.modEv (s : State) (b : Nat) (f : EvRing → EvRing) : State :=
  { s with evs := amSet s.evs b (f (s.ev b)) }

/-- Backbone port `p`. -/
def State.net (s : State) (p : Nat) : NetPort := s.nets.getD p NetPort.reset

/-- Change backbone port `p`. -/
def State.modNet (s : State) (p : Nat) (f : NetPort → NetPort) : State := { s with nets := s.nets.modify p f }

/-- Transaction context `c`; 64 is Watershed's. -/
def State.txn (s : State) (c : Nat) : Txn :=
  match amGet s.txns c with
  | some t => t
  | none => Txn.reset

/-- Change transaction context `c`. -/
def State.modTxn (s : State) (c : Nat) (f : Txn → Txn) : State :=
  { s with txns := amSet s.txns c (f (s.txn c)) }

/-- Controller CANA (0) or CANB (1) of channel `n`. -/
def State.can (s : State) (n x : Nat) : Can := (s.ch n).can.getD x Can.reset

/-- Change a CAN controller. -/
def State.modCan (s : State) (n x : Nat) (f : Can → Can) : State :=
  s.modCh n (fun c => { c with can := c.can.modify x f })

/-- Segment SEG0 (0) or SEG1 (1) of channel `n`. -/
def State.seg (s : State) (n x : Nat) : Seg := (s.ch n).seg.getD x Seg.reset

/-- Change a T1S segment. -/
def State.modSeg (s : State) (n x : Nat) (f : Seg → Seg) : State :=
  s.modCh n (fun c => { c with seg := c.seg.modify x f })

/-- The hub timebase with a change. -/
def State.modTime (s : State) (f : HubTime → HubTime) : State := { s with time := f s.time }

/-- Watershed with a change. -/
def State.modWs (s : State) (f : Watershed → Watershed) : State := { s with ws := f s.ws }

/-- The pair unit with a change. -/
def State.modPair (s : State) (f : Pair → Pair) : State := { s with pair := f s.pair }

/-- The power unit with a change. -/
def State.modPwr (s : State) (f : Power → Power) : State := { s with pwr := f s.pwr }

/-- The backup domain with a change. -/
def State.modBkp (s : State) (f : Backup → Backup) : State := { s with bkp := f s.bkp }

/-- The vault with a change. -/
def State.modVlt (s : State) (f : Vault → Vault) : State := { s with vlt := f s.vlt }

/-- The update service with a change. -/
def State.modUpd (s : State) (f : Upd → Upd) : State := { s with upd := f s.upd }

/-- Put something out (log 2). -/
def State.emit (s : State) (e : Emission) : State := { s with out := s.out ++ [e] }

/-- Take the number of the next free value (log 3). -/
def State.tick1 (s : State) : State := { s with free := s.free + 1 }

/-- Hub time is valid (R195). -/
def State.timeValid (s : State) : Bool := s.time.cls ≠ 0

/-- Channel time of channel `n`. -/
def State.chNow (s : State) (n : Nat) : Instant := (s.ch n).tb.now

/-- A channel fitted on this ordering code (R3, R4). -/
def State.fitted (s : State) (n : Nat) : Bool := n < (if s.ident.eight then 8 else 4)

/-- The channel is IN_SERVICE. -/
def State.inService (s : State) (n : Nat) : Bool := (s.ch n).state = .inService

/-- Nothing passes between the hub and a channel whose link is lost until it returns (R30, R32). -/
def State.linkDown (s : State) (n : Nat) : Bool := (s.ch n).state = .linkLost && !(s.ch n).xbarUp

/-- INCR of the hub (R192). -/
def HubTime.incr (t : HubTime) : Int := 0x400000000 + t.adj

/-- Increment of a channel timebase (R193). -/
def ChanTime.incr (t : ChanTime) : Int := 0x500000000 + t.adj

/-- The hub's stamp of an event `ago` ticks back (R193, R217; log 9). -/
def State.hubStamp (s : State) (ago : Nat) : Instant :=
  (s.time.now * 2 ^ 32 + s.time.frac - ago * s.time.incr.toNat) / 2 ^ 32

/-- The stamp channel `n` took `ago` of its ticks back (R193; log 9). -/
def State.chStamp (s : State) (n ago : Nat) : Instant :=
  ((s.ch n).tb.now * 2 ^ 32 + (s.ch n).tb.frac - ago * (s.ch n).tb.incr.toNat) / 2 ^ 32

/-- ROLE is STANDBY or SYNCING (R400). -/
def State.standby (s : State) : Bool := s.pair.role = 2 || s.pair.role = 3

/-- A write of the physical function that addresses offset `off` reaches a register there: not in a sub-block a
QUARANTINE start hides or shows read-only (R108, R441), not one a STANDBY or SYNCING module ignores (R400), not one
under the directory window (R46), not a channel that is ABSENT, LINK_LOST or in FAULT (R4, R92). -/
def State.reaches (s : State) (off : Nat) : Bool :=
  let blk := off / 65536
  if off < 0x100000 then
    (s.lc.quar = 0 || blk = 0 || blk = 2) &&
    (!s.standby || blk = 2 || blk = 3 || blk = 8 || blk = 12) &&
    !(0x80000 ≤ off && bitN (s.reg 0x4F000) 0)
  else
    let n := off / 0x100000 - 1
    let st := (s.ch n).state
    s.lc.quar = 0 && !s.standby && s.fitted n && st ≠ .absent && st ≠ .linkLost && st ≠ .fault

/-- An effect of a register write that reaches its register; otherwise the write is ignored. -/
def ifReaches (off : Nat) (f : State → State) (s : State) : State := if s.reaches off then f s else s

/-- An effect that no module halted in QUARANTINE offers (R108). -/
def ifServed (f : State → State) (s : State) : State := if s.lc.quar = 0 then f s else s

/- ### DMA and interrupts (R94, R95, R98, R99, R529) -/

/-- The function exists (R112 FN_EN). -/
def State.fnEn (s : State) (b : Nat) : Bool := b = 0 || (s.host.vfEnable && b ≤ s.host.numVfs)

/-- VF_PRESENT of basin `b` (R94); 1 for b = 0. -/
def State.vfPresent (s : State) (b : Nat) : Bool :=
  b = 0 || (s.fnEn b && (s.fn b).bme && !(s.fn b).d3hot)

/-- The function may issue DMA (R95, R529). -/
def State.mayDma (s : State) (b : Nat) : Bool :=
  s.fnEn b && (s.fn b).bme && !(s.fn b).d3hot && !(s.fn b).flrBusy

/-- The ring engine may write to the rings of basin `b`: DMA, and no freeze (R437). -/
def State.mayWrite (s : State) (b : Nat) : Bool := s.mayDma b && !s.pwr.frozen

/-- An entry of the MSI-X table. -/
def Fn.entry (f : Fn) (v : Nat) : MsixEntry :=
  match amGet f.table v with
  | some e => e
  | none => MsixEntry.reset

/-- A vector falls due (R99, R529; only vector 0 in QUARANTINE, R108). -/
def State.sendVec (s : State) (b v : Nat) : State :=
  let f := s.fn b
  if f.flrBusy || !f.msixEn || (s.lc.quar ≠ 0 && (b ≠ 0 || v ≠ 0)) then s
  else if !s.mayDma b || f.fmask || (f.entry v).masked || (f.entry v).addr = 0 then
    s.modFn b (fun f => { f with pba := if f.pba.contains v then f.pba else f.pba ++ [v] })
  else s.emit (.msix b v (f.entry v).addr (f.entry v).data)

/-- An alert bit is set: vector 0 on a 0-to-1 change of an unmasked bit (R98, R110). -/
def State.alert (s : State) (i : Nat) : State :=
  let was := bitN s.host.alert i
  let s := { s with host := { s.host with alert := setBit s.host.alert i } }
  if was || bitN (s.reg 0x20014) i then s else s.sendVec 0 0

/-- HOST_ALERT_N is asserted (R110). -/
def State.hostAlert (s : State) : Bool := (s.host.alert &&& ~~~(s.reg 0x20014)) ≠ 0

/-- WAKE_N is asserted (R111). -/
def State.wake (s : State) : Bool := s.host.perst && (s.host.alert &&& s.reg 0x20018) ≠ 0

/-- A cause bit of an interrupt register at `key` with its enables at `key + 4`: the vector is sent on a
0-to-1 change of an enabled bit (R222, R365, R457, R488). -/
def State.intBit (s : State) (key i vec : Nat) : State :=
  let was := bitN (s.reg key) i
  let s := s.setReg key (setBit (s.reg key) i)
  if !was && bitN (s.reg (key + 4)) i then s.sendVec 0 vec else s

/- ### Event rings (R115, R132, R134, R142) -/

/-- PHASE of an index (R118). -/
def phaseOf (sizeLog2 i : Nat) : Nat := (i / 2 ^ sizeLog2 + 1) % 2

/-- Register block of the event ring of basin `b`. -/
def evBase (b : Nat) : Nat := 0x38000 + 32 * b

/-- Register block of module ring `k`. -/
def ringBase (k : Nat) : Nat := 0x30000 + 32 * k

/-- Bytes of an event record written now (R132). -/
def evBytes (s : State) (r : EvRing) (e : EvRec) : List Byte :=
  bytesLE 2 e.kind ++ bytesLE 2 e.subject ++ stampBytes s.time.now ++ padTo 16 e.payload ++
  [if s.timeValid then 1 else 0,
   BitVec.ofNat 8 ((if r.lost then 64 else 0) + 128 * phaseOf r.sizeLog2 r.hw)]

/-- Bytes of an index record (R120). -/
def idxBytes (hw cpl drops truncs : Nat) : List Byte :=
  bytesLE 2 hw ++ bytesLE 2 cpl ++ bytesLE 4 drops ++ bytesLE 4 truncs ++ bytesLE 4 0

/-- PKT_THR of a moderation word; 0 counts as 1 (R142). -/
def pktThr (mod : Word) : Nat := max 1 (fld mod 0 8)

/-- Vector of the event ring (R115). -/
def evVec (b : Nat) : Nat := if b = 0 then 1 else 0

/-- Write the index record of the event ring of basin `b`; while the function may issue no DMA the change waits
(R119, R529). -/
def writeEvIdx (s : State) (b : Nat) : State :=
  let r := s.ev b
  if s.mayWrite b then s.emit (.memWrite b (s.reg64 (evBase b + 16)) (idxBytes r.hw 0 r.drops 0))
  else s.modEv b (fun r => { r with stale := true })

/-- ARM_MODE 0: the event ring is always armed (R143). -/
def evArmed (s : State) (b : Nat) : Bool := (s.ev b).armed || !bitN (s.reg (evBase b + 4)) 24

/-- The event ring has items to announce and has reached its threshold (R142). -/
def evDue (s : State) (b : Nat) : Bool :=
  evArmed s b && 0 < (s.ev b).pend && pktThr (s.reg (evBase b + 4)) ≤ (s.ev b).pend

/-- Send the event ring's vector if `due`, resetting the pending count (R142, R143). -/
def evNotify (s : State) (b : Nat) (due : Bool) : State :=
  if due then
    let mode := bitN (s.reg (evBase b + 4)) 24
    (s.modEv b (fun r => { r with pend := 0, armed := !mode })).sendVec b (evVec b)
  else s

/-- The event ring writes its records while space remains (R134). -/
def pumpEv (b : Nat) : List EvRec → State → State
  | [], s => s
  | e :: q, s =>
    let r := s.ev b
    if r.state = .active ∧ s.mayWrite b ∧ (r.hw + 65536 - r.cons) % 65536 < 2 ^ r.sizeLog2 then
      let base := s.reg64 (evBase b + 8)
      let s := s.emit (.memWrite b (base + 32 * (r.hw % 2 ^ r.sizeLog2)) (evBytes s r e))
      let s := s.modEv b (fun r =>
        { r with hw := (r.hw + 1) % 65536, pend := r.pend + 1, lost := false, queue := q })
      let s := writeEvIdx s b
      pumpEv b q (evNotify s b (evDue s b))
    else s

/-- Write what waits in the hold queue of basin `b`. -/
def State.flushEv (s : State) (b : Nat) : State := pumpEv b (s.ev b).queue s

/-- Raise an event record in the event ring of basin `b`: the hold queue takes 256 (R134). -/
def raise (s : State) (b kind subject : Nat) (payload : List Byte) : State :=
  let r := s.ev b
  if 256 ≤ r.queue.length then
    let s := s.modEv b (fun r => { r with drops := (r.drops + 1) % 2 ^ 32, lost := true })
    if r.state = .active then writeEvIdx s b else s
  else
    (s.modEv b (fun r =>
      { r with queue := r.queue ++ [{ kind := kind, subject := subject, payload := payload }] })).flushEv b

/-- Raise a record in basin 0's event ring and, when the subject is another basin, in that one too. -/
def raiseBoth (s : State) (kind subject : Nat) (payload : List Byte) : State :=
  let s := raise s 0 kind subject payload
  if subject = 0 then s else raise s subject kind subject payload

/- ### The mirror to the partner (R408, R409) -/

/-- The module sends mirror records: ACTIVE with a partner that is STANDBY or SYNCING and not refused. -/
def State.mirrors (s : State) : Bool :=
  s.pair.role = 1 && s.pair.linkUp && 2 ≤ s.pair.partnerRole && !s.pair.refused

/-- A mirror record leaves as the state changes. -/
def State.mirror (s : State) (r : MirrorRec) : State :=
  if s.mirrors then
    let n := (s.pair.mirSeq + 1) % 65536
    (s.modPair (fun p => { p with mirSeq := n })).emit (.mirror n r)
  else s

end Sys2Proof.Machine
end

