-- ==== Sys2Proof/Machine/RingIo.lean ====
section
/-! DEFINITION. What the ring engine writes: update slots, completions, receive write-backs, index records
and their interrupts (R113 to R137, R142). -/

namespace Sys2Proof.Machine

/-- Slots of a ring (R114). -/
def Ring.slots (r : Ring) : Nat := 2 ^ r.sizeLog2

/-- Distance of two 16-bit indexes (R116). -/
def idxDist (a b : Nat) : Nat := (a + 65536 - b) % 65536

/-- The function a module ring belongs to (R53). -/
def ringFn (k : Nat) : Nat := k / 16

/-- Address of the index record (R114). -/
def idxAddr (s : State) (k : Nat) : Nat :=
  let r := s.ring k
  s.reg64 (ringBase k + 16) + if r.kind = 1 ∨ r.kind = 2 then 16 * r.slots else 0

/-- Write the index record of ring `k` (R119, R120); while the function may issue no DMA the change waits (R529). -/
def writeIdx (s : State) (k : Nat) : State :=
  if s.mayWrite (ringFn k) then
    let r := s.ring k
    s.emit (.memWrite (ringFn k) (idxAddr s k)
      (idxBytes r.hw (if r.kind = 1 ∨ r.kind = 2 then r.cpl else 0) r.drops r.truncs))
  else s.modRing k (fun r => { r with stale := true })

/-- Send the vector of ring `k` if `due`; the pending count restarts (R142, R143). -/
def ringNotify (s : State) (k : Nat) (due : Bool) : State :=
  if due then
    let mode := bitN (s.reg (ringBase k + 4)) 24
    let v := fld (s.reg (ringBase k + 0x18)) 0 11
    let s := s.modRing k (fun r => { r with pend := 0, armed := !mode })
    let b := ringFn k
    if (b = 0 ∧ 32 ≤ v ∧ v < 2047) ∨ (b ≠ 0 ∧ 1 ≤ v ∧ v ≤ 63) then s.sendVec b v else s
  else s

/-- ARM_MODE 0: a ring is always armed (R143). -/
def ringArmed (s : State) (k : Nat) : Bool := (s.ring k).armed || !bitN (s.reg (ringBase k + 4)) 24

/-- The pending count of a ring reaches its threshold while it is armed (R142). -/
def ringDue (s : State) (k : Nat) : Bool :=
  ringArmed s k && 0 < (s.ring k).pend && pktThr (s.reg (ringBase k + 4)) ≤ (s.ring k).pend

/-- An item has been written into ring `k`: index record, then the vector when due. -/
def ringItem (s : State) (k : Nat) : State :=
  let s := s.modRing k (fun r => { r with pend := r.pend + 1 })
  let s := writeIdx s k
  ringNotify s k (ringDue s k)

/-- Bytes of a completion (R130). -/
def cplBytes (r : Ring) (c : Completion) : List Byte :=
  bytesLE 8 c.cookie.toNat ++ bytesLE 2 c.idx ++
  [BitVec.ofNat 8 c.status,
   BitVec.ofNat 8 (c.ckind % 16 + (if c.tsq then 32 else 0) + (if c.late then 64 else 0) +
     128 * phaseOf r.sizeLog2 r.cpl)] ++ bytesLE 4 c.info.toNat

/-- Write a completion into the write-back area. -/
def putCompletion (s : State) (k : Nat) (c : Completion) : State :=
  let r := s.ring k
  let s := s.emit (.memWrite (ringFn k) (s.reg64 (ringBase k + 16) + 16 * (r.cpl % r.slots)) (cplBytes r c))
  ringItem (s.modRing k (fun r => { r with cpl := (r.cpl + 1) % 65536 })) k

/-- A descriptor of ring `k` completes: held while the function may issue no DMA (R529) or the ring is
HALTED (R146); nothing is written once the ring is DISABLED (R104). -/
def complete (s : State) (k : Nat) (c : Completion) : State :=
  let r := s.ring k
  if r.state = .disabled then s
  else if !s.mayWrite (ringFn k) || r.state = .halted || !r.held.isEmpty then
    s.modRing k (fun r => { r with held := r.held ++ [.completion c] })
  else putCompletion s k c

/-- The completions of a chain, in index order (R131). -/
def completeAll (s : State) (k idx status ckind : Nat) (tsq late : Bool) (info : Word) :
    Nat → List Slot → State
  | _, [] => s
  | j, c :: t =>
    completeAll (complete s k { cookie := c, idx := (idx + j) % 65536, status := status, ckind := ckind,
                                tsq := tsq, late := late, info := info })
      k idx status ckind tsq late info (j + 1) t

/-- The outcome of flight `id` of ring `k` (R131): each of its descriptors completes once. Rings from 1,024
stand for work without a descriptor. -/
def finish (s : State) (k id status : Nat) (tsq late : Bool) (info : Word) : State :=
  if 1024 ≤ k then s
  else match (s.ring k).flights.find? (fun f => f.id == id) with
    | none => s
    | some f =>
      completeAll (s.modRing k (fun r => { r with flights := r.flights.filter (fun f => !(f.id == id)) }))
        k f.idx status f.ckind tsq (late || f.late) info 0 f.cookies

/-- One write that waited; HW_IDX passes the slots of a burst with the last of them (R136). -/
def putHeld (s : State) (k : Nat) (h : HeldWrite) : State :=
  match h with
  | .completion c => putCompletion s k c
  | .slot idx bytes last =>
    let s := s.emit (.memWrite (ringFn k) (s.reg64 (ringBase k + 8) + 64 * (idx % (s.ring k).slots)) bytes)
    if !last then s
    else
      let s := s.modRing k (fun r => { r with hw := (idx + 1) % 65536 })
      if (bytes.getD 23 0).getLsbD 1 then ringItem s k else writeIdx s k

/-- What waited for DMA of ring `k` is written, in order (R529). -/
def flushRing (s : State) (k : Nat) : State :=
  if s.mayWrite (ringFn k) && !((s.ring k).state = .halted) then
    let h := (s.ring k).held
    h.foldl (fun s x => putHeld s k x) (s.modRing k (fun r => { r with held := [] }))
  else s

/-- A receive slot is written back (R129). -/
def putSlot (s : State) (k idx : Nat) (bytes : List Byte) (last : Bool) : State :=
  if s.mayWrite (ringFn k) && (s.ring k).held.isEmpty then putHeld s k (.slot idx bytes last)
  else s.modRing k (fun r => { r with held := r.held ++ [.slot idx bytes last] })

/-- Slots written back in one burst from index `i` on (R136). -/
def putSlots (s : State) (k i : Nat) : List (List Byte) → State
  | [] => s
  | [b] => putSlot s k (i % 65536) b true
  | b :: t => putSlots (putSlot s k (i % 65536) b false) k (i + 1) t

/-- Bytes of a point-update descriptor (R124). -/
def updBytes (p : Point) (h : Nat) (m : Mirror) (repeated : Bool) (r : Ring) : List Byte :=
  bytesLE 8 m.value.toNat ++ stampBytes m.stamp ++ bytesLE 2 m.epoch ++ bytesLE 4 m.seq ++ bytesLE 2 h ++
  [BitVec.ofNat 8 (m.quality % 16 + 16 * (p.type % 8) + if m.timeValid then 128 else 0),
   BitVec.ofNat 8 ((if repeated then 1 else 0) + if r.loss then 2 else 0),
   BitVec.ofNat 8 p.owner, 0, 1, BitVec.ofNat 8 (128 * phaseOf r.sizeLog2 r.hw)]

/-- An update of basin `b` is withheld and counted (R56, R95, R135). -/
def withhold (s : State) (b : Nat) : State :=
  s.modFn b (fun f => { f with withheld := satInc 65535 f.withheld })

/-- Basin `b` is enabled (R56). -/
def State.basinEn (s : State) (b : Nat) : Bool := b = 0 || bitN (s.reg (0x4F100 + 4 * b)) 0

/-- An update is steered to ring `r` of basin `b` (R135); 255: no ACTIVE ring. -/
def steer (s : State) (b r h : Nat) (p : Point) (m : Mirror) (repeated : Bool) : State :=
  if s.pwr.frozen || s.standby then s
  else
    let k := 16 * b + r
    let g := s.ring k
    if r < 16 ∧ s.basinEn b ∧ s.mayDma b ∧ g.state = .active ∧ g.kind = 0 then
      if idxDist g.hw g.sw < g.slots then
        let s := s.emit (.memWrite b (s.reg64 (ringBase k + 8) + 32 * (g.hw % g.slots))
          (updBytes p h m repeated g))
        let n := (match amGet s.pwr.deliv b with | some c => (c + 1) % 2 ^ 32 | none => 1)
        let s := s.modPwr (fun w => { w with deliv := amSet w.deliv b n })
        ringItem (s.modRing k (fun r => { r with hw := (r.hw + 1) % 65536, loss := false })) k
      else writeIdx (s.modRing k (fun r => { r with drops := (r.drops + 1) % 2 ^ 32, loss := true })) k
    else withhold s b

/- ### Received frames (R129, R136, R137) -/

/-- SOURCE, SRC_NODE, identifier word and flags of a received frame. -/
def rxIdWord (f : RxFrame) : Nat :=
  match f.can with
  | some c => c.id % 2 ^ 29 + (if c.ide then 2 ^ 29 else 0) + (if c.fdf then 2 ^ 30 else 0) +
      (if c.brs then 2 ^ 31 else 0)
  | none => 0

/-- Byte 28: RTR and ESI of a CAN frame. -/
def rxFlags (f : RxFrame) : Nat :=
  match f.can with
  | some c => (if c.rtr then 1 else 0) + if c.esi then 2 else 0
  | none => 0

/-- One written-back receive slot (R129). -/
def rxSlot (f : RxFrame) (desc : BitVec 512) (len : Nat) (sop eop trunc : Bool) (total : Nat) : List Byte :=
  let d := bytesLE 64 desc.toNat
  d.take 8 ++ bytesLE 8 0 ++ (d.drop 16).take 2 ++ bytesLE 2 len ++
  [BitVec.ofNat 8 f.target, BitVec.ofNat 8 f.node, 0,
   BitVec.ofNat 8 ((if sop then 1 else 0) + (if eop then 2 else 0) + (if trunc then 4 else 0) +
     if f.timeValid then 8 else 0)] ++
  bytesLE 4 (rxIdWord f) ++ [BitVec.ofNat 8 (rxFlags f), 0] ++ bytesLE 2 (if eop then total else 0) ++
  stampBytes f.stamp ++ List.replicate 20 0 ++ [0x22, 0]

/-- A posted descriptor names a buffer that holds data (R129). -/
def rxLen (desc : BitVec 512) : Option Nat :=
  let d := bytesLE 64 desc.toNat
  let len := getLE d 16 2
  if d.getD 62 0 = 0x21 ∧ len % 64 = 0 ∧ 64 ≤ len ∧ len ≤ 4096 then some len else none

/-- A posted buffer that comes back unused: CANCELLED, or DESC_ERR when it breaks R129. -/
def rxUnused (desc : BitVec 512) : List Byte :=
  let d := bytesLE 64 desc.toNat
  d.take 8 ++ bytesLE 8 0 ++ (d.drop 16).take 2 ++ bytesLE 2 0 ++
  [0, 0, if (rxLen desc).isSome then 2 else 8, 0] ++ List.replicate 38 0 ++ [0x22, 0]

/-- The bytes of a frame as buffers deliver it (R129). -/
def RxFrame.payload (f : RxFrame) : List Byte :=
  match f.can with
  | some c => c.data
  | none => f.bytes

/-- Slots to write back for a frame from the descriptors posted: bad descriptors come back with DESC_ERR and
hold nothing; the frame ends in the last buffer it reaches, or is truncated (R136, R137). `left`: bytes not yet
placed; `first`: no buffer taken yet. Answers the slots, and whether the frame was truncated. -/
def fillSlots (f : RxFrame) (total : Nat) : List (BitVec 512) → Nat → Bool → List (List Byte) × Bool
  | [], _, _ => ([], true)
  | d :: t, left, first =>
    match rxLen d with
    | none =>
      let (l, tr) := fillSlots f total t left first
      (rxUnused d :: l, tr)
    | some len =>
      if left ≤ len then ([rxSlot f d left first true false total], false)
      else if (t.filterMap rxLen).isEmpty then
        ([rxSlot f d len first true true (total - left + len)], true)
      else
        let (l, tr) := fillSlots f total t (left - len) false
        (rxSlot f d len first false false total :: l, tr)

/-- Maximum Payload Size in force: bits 7 to 5 of Device Control of the physical function, at most 512 bytes (R90). -/
def State.mps (s : State) : Nat :=
  128 * 2 ^ (min 2 (fld (match amGet (s.fn 0).cfg 0x1008 with | some w => w | none => 0) 5 3))

/-- Data for a buffer leave in memory writes of at most Maximum Payload Size (R90); `n` bounds their number. -/
def writeBuf (b : Nat) : Nat → Nat → List Byte → State → State
  | 0, _, _, s => s
  | n + 1, addr, bytes, s =>
    if bytes.isEmpty then s
    else writeBuf b n (addr + s.mps) (bytes.drop s.mps) (s.emit (.memWrite b addr (bytes.take s.mps)))

/-- Write the data of a frame into the buffers of its slots (R136). -/
def rxData (s : State) (b : Nat) : List (BitVec 512) → List Byte → State
  | [], _ => s
  | d :: t, bytes =>
    match rxLen d with
    | none => rxData s b t bytes
    | some len =>
      if bytes.isEmpty then s
      else rxData (writeBuf b 4096 (getLE (bytesLE 64 d.toNat) 0 8) (bytes.take len) s) b t (bytes.drop len)

/-- A frame is delivered into ring `k` (R136, R137): `posted` are the descriptors from HW_IDX on. -/
def deliverFrame (s : State) (k : Nat) (f : RxFrame) (posted : List (BitVec 512)) : State :=
  let r := s.ring k
  let b := ringFn k
  let posted := posted.take (idxDist r.sw r.hw)
  if !s.mayDma b || (posted.filterMap rxLen).isEmpty then
    -- NOBUF (R137, R529); descriptors that hold nothing come back with DESC_ERR (R129)
    let s := s.modRing k (fun r => { r with drops := (r.drops + 1) % 2 ^ 32 })
    if s.mayDma b && !posted.isEmpty then putSlots s k r.hw (posted.map rxUnused) else writeIdx s k
  else
    let (slots, tr) := fillSlots f f.payload.length posted f.payload.length true
    let s := if s.mayWrite b then rxData s b posted f.payload else s
    let s := if tr then s.modRing k (fun r => { r with truncs := (r.truncs + 1) % 2 ^ 32 }) else s
    putSlots s k r.hw slots

end Sys2Proof.Machine
end

