-- ==== Sys2Proof/Machine/Points.lean ====
section
/-! DEFINITION. Points (chapter 02): value slots, acquisitions by their owner, the mirror, the
change-of-value policy and steering. -/

namespace Sys2Proof.Machine

/-- The slot has the form of its type (R36). -/
def slotOk (type : Nat) (v : Slot) : Bool :=
  match type with
  | 0 => v.toNat < 2
  | 1 | 5 => v.toNat < 65536
  | 4 => v.toNat < 2 ^ 32
  | 6 => true
  | 2 | 3 => (v.truncate 32 : BitVec 32).signExtend 64 = v
  | _ => false

/-- A NaN of binary32. -/
def f32Nan (w : Word) : Bool := fld w 23 8 = 255 && fld w 0 23 ≠ 0

/-- An infinity of binary32. -/
def f32Inf (w : Word) : Bool := fld w 23 8 = 255 && fld w 0 23 = 0

/-- F32 values differ (R50): the zeros are equal, a NaN always differs. -/
def f32Differs (a b : Word) : Bool :=
  f32Nan a || f32Nan b || !(a = b || (fld a 0 31 = 0 && fld b 0 31 = 0))

/-- Magnitude of a binary32 number in units of 2^-149; an infinity counts as 2^128. -/
def f32Mag (w : Word) : Nat :=
  if fld w 23 8 = 0 then fld w 0 23 else (2 ^ 23 + fld w 0 23) * 2 ^ (fld w 23 8 - 1)

/-- A finite binary32 number in units of 2^-149. -/
def f32Val (w : Word) : Int := if bitN w 31 then - (f32Mag w : Int) else f32Mag w

/-- Rounding of a magnitude to the 24 significant bits of binary32, ties to even: the default of IEEE 754. What
rounds to 2^128 or above overflows to the infinity, which `f32Mag` places there. -/
def f32Round (m : Nat) : Nat :=
  if m < 2 ^ 24 then m
  else
    let k := Nat.log2 m - 23
    let q := m / 2 ^ k
    let r := m % 2 ^ k
    (if 2 ^ (k - 1) < r || (r == 2 ^ (k - 1) && q % 2 == 1) then q + 1 else q) * 2 ^ k

/-- F32 values differ by at least the threshold (R50), the difference taken in binary32 arithmetic. -/
def f32Deadband (a b th : Word) : Bool :=
  if f32Nan a || f32Nan b then true
  else if f32Nan th then false
  else if !f32Differs a b then fld th 0 31 = 0 || bitN th 31
  else if f32Inf a || f32Inf b then true
  else bitN th 31 || decide (f32Mag th ≤ f32Round (f32Val a - f32Val b).natAbs)

/-- The integer a U16, S32 or Q16_16 slot holds. -/
def slotInt (type : Nat) (v : Slot) : Int := if type = 1 then (v.toNat : Int) else slotS32 v

/-- The value differs from the last delivered one (R49 CHANGE, R50). -/
def valDiffers (type : Nat) (last now : Slot) : Bool :=
  if type = 4 then f32Differs (last.truncate 32) (now.truncate 32) else last ≠ now

/-- It differs by at least THRESH (R50). -/
def valDeadband (type : Nat) (th : Word) (last now : Slot) : Bool :=
  match type with
  | 1 | 2 | 3 => th.toNat ≤ (slotInt type now - slotInt type last).natAbs
  | 6 => th.toNat ≤ (now - last).toNat
  | 4 => f32Deadband (last.truncate 32) (now.truncate 32) th
  | _ => last ≠ now

/-- The delivery test of R49; `newSeq`: the update carries a new sequence number. -/
def covPasses (p : Point) (m : Mirror) (newSeq : Bool) : Bool :=
  match p.cov with
  | 0 => newSeq
  | 1 => valDiffers p.type p.lastVal m.value
  | 2 => valDeadband p.type p.thresh p.lastVal m.value
  | _ => false

/-- Change point `h`. -/
def State.modPt (s : State) (h : Nat) (f : Point → Point) : State := { s with points := amMod s.points h f }

/-- TYPE of a point; 7 for an unused handle. -/
def State.ptType (s : State) (h : Nat) : Nat :=
  match amGet s.points h with
  | some p => p.type
  | none => 7

/-- Value the owner holds. -/
def State.ownValue (s : State) (h : Nat) : Slot :=
  match amGet s.points h with
  | some p => p.own.value
  | none => 0

/-- LOCAL_IO points in effect on a terminal of channel `n` (R157). -/
def State.localPoints (s : State) (n term : Nat) : List Nat :=
  (s.points.filter (fun x => x.2.inEffect && x.2.origin == 1 && x.2.channel == n && x.2.index == term)).map (·.1)

/-- Points the hub acts as owner of (R37). -/
def Point.isHub (p : Point) : Bool := p.origin == 3

/-- The next sequence number; 0 is never issued (R38). -/
def seqNext (n : Nat) : Nat := if n = 0xFFFFFFFF then 1 else n + 1

/-- Grantees of passes of the owner that cover a handle now, each once with its ring (R60, R62, R64). -/
def State.grantees (s : State) (owner h : Nat) : List (Nat × Nat) :=
  (s.ws.passes.filter (fun x =>
    let p := x.2
    p.grantor == owner && p.first ≤ h && h < p.first + p.count && !p.suspended)).foldl
    (fun acc x => if acc.any (fun a => a.1 == x.2.grantee) then acc else acc ++ [(x.2.grantee, x.2.ring)]) []

/-- Basins that hold a pass of the owner over a handle, suspended or not, each once (R44, R57, R59, R64). -/
def State.holders (s : State) (owner h : Nat) : List Nat :=
  (s.ws.passes.filter (fun x => x.2.grantor == owner && x.2.first ≤ h && h < x.2.first + x.2.count)).foldl
    (fun acc x => if acc.contains x.2.grantee then acc else acc ++ [x.2.grantee]) []

/-- CHANNEL and INDEX of a directory entry: for a LOOP point the place of its loop, INDEX 0 while that holds none; those of
a migrating loop follow when its old slot is released (R44, R184). -/
def State.dirPlace (s : State) (p : Point) : Nat × Nat :=
  if p.origin ≠ 2 then (p.channel, p.index)
  else match s.ws.migrations.find? (fun m => m.loop == p.index) with
    | some m => (m.fromCh, m.fromSlot)
    | none =>
      match amGet s.ws.loops p.index with
      | some l => (p.channel, if l.st = .placed ∨ l.st = .migrating then l.slot else 0)
      | none => (p.channel, 0)

/-- Word `i` of the directory entry of handle `h`; an entry that is not VALID reads zeros (DESIGN CHOICE, log 128). -/
def dirWord (s : State) (h i : Nat) : Word :=
  match amGet s.points h with
  | none => 0
  | some p =>
    match i with
    | 0 => mkFld 0 14 h ||| mkBit 15 true ||| mkFld 16 6 p.owner ||| mkFld 22 2 p.origin ||| mkFld 24 3 p.type |||
        mkFld 27 2 p.write ||| mkFld 29 2 p.cov ||| mkBit 31 p.pinned
    | 1 => mkFld 0 3 (s.dirPlace p).1 ||| mkFld 3 2 p.segment ||| mkFld 8 6 p.node ||| mkFld 16 16 (s.dirPlace p).2
    | 2 => p.thresh
    | 3 => mkFld 0 16 p.minInt ||| mkFld 16 16 p.maxInt
    | 4 => mkFld 0 16 (if p.histSlot = 0xFFFF then 0xFFFF else Config.historySlot h % 0xFFFF) ||| mkFld 16 4 p.histDepth
    | 5 => mkFld 0 16 p.enumCount ||| mkFld 16 4 (if p.ring < 16 then p.ring else p.ringDecl)
    | 6 => p.subs.zeroExtend 32 ||| mkFld 8 6 (s.holders p.owner h).length
    | _ => 0

/-- The directory as software reads it. -/
def dirImage (s : State) : List (Nat × List Word) :=
  s.points.map (fun p => (p.1, (List.range 7).map (dirWord s p.1)))

/-- The directory changed (R45). -/
def dirChanged (s : State) : State := s.modWs (fun w => { w with dirgen := (w.dirgen + 1) % 2 ^ 32 })

/-- A change from `s` to `t` counts once in DIRGEN when it changed an entry (R45). -/
def dirFrom (s t : State) : State := if dirImage s = dirImage t then t else dirChanged t

/-- A mirror entry as it shows: one never written carries the epoch of this start (R38, R40). -/
def State.mirShown (s : State) (m : Mirror) : Mirror := if m.seq = 0 then { m with epoch := s.ws.epoch } else m

/-- The channel's points are OUT_OF_SERVICE (R42, R182): it is, or was when its link was lost, or it has left the pool
and BRING_IN has not returned it. -/
def State.takenOut (s : State) (n : Nat) : Bool :=
  (s.ch n).state = .outOfService || ((s.ch n).state = .linkLost && (s.ch n).prior = .outOfService) ||
    s.ws.svc.getD n .absent = .out

/-- Deliver an entry to the owner's ring, the pass holders and the subscribing channels (R25, R49, R51 rule
5, R62). -/
def deliver (s : State) (h : Nat) (m : Mirror) (repeated : Bool) : State :=
  match amGet s.points h with
  | none => s
  | some p =>
    let m := s.mirShown m
    let s := steer s p.owner p.ring h p m repeated
    let s := (s.grantees p.owner h).foldl (fun s g => steer s g.1 g.2 h p m repeated) s
    let s := (List.range 8).foldl (fun s n =>
      if p.subs.getLsbD n && ((s.ch n).state ≠ .linkLost || (s.ch n).xbarUp) then
        s.modCh n (fun c => { c with ingress := c.ingress ++ [{ handle := h, tag := p.owner, m := m,
                                                                 resent := repeated }] })
      else s) s
    s.modPt h (fun p => { p with lastVal := m.value, lastQual := m.quality, lastTick := s.ticks,
                                 minDone := false, held := false })

/-- MIN_INT has elapsed since the last delivery (R51, R205): 250,000 ticks of 4 ns are 1 ms. -/
def minElapsed (s : State) (p : Point) : Bool :=
  p.minInt = 0 || p.minDone || p.lastTick + p.minInt * 250000 ≤ s.ticks

/-- The change-of-value unit on an entry just written (R51). -/
def covUnit (s : State) (h : Nat) (p : Point) (m : Mirror) (newSeq : Bool) : State :=
  if m.quality ≠ p.lastQual then deliver s h m (!newSeq)
  else if covPasses p m newSeq then
    if minElapsed s p then deliver s h m (!newSeq) else s.modPt h (fun p => { p with held := true })
  else s

/-- An update that passed the tag check writes the mirror and meets the policy (R26). -/
def mirrorWrite (s : State) (h : Nat) (m : Mirror) : State :=
  match amGet s.points h with
  | none => s
  | some p =>
    let m := { m with epoch := s.ws.epoch }
    let newSeq := m.seq ≠ p.mir.seq
    let s := (s.modPt h (fun p => { p with mir := m })).mirror (.point h m)
    covUnit s h p m newSeq

/-- A new acquisition by the owner (R38, R41 to R43): the next sequence number; a channel out of service gives
quality 8 (R42). It leaves for the hub, unless the link is lost (R30); the hub processes a HUB point at
once (R37), and drops what reaches one that is not yet in effect (DESIGN CHOICE, log 126). On a STANDBY or SYNCING module
it is never written to the mirror (R400). -/
def acquire (s : State) (h : Nat) (v : Slot) (q : Nat) (stamp : Instant) : State :=
  match amGet s.points h with
  | none => s
  | some p =>
    if !p.inEffect then s
    else if s.standby then s.modPt h (fun p => { p with own := { p.own with value := v, quality := q, stamp := stamp } })
    else
      let hub := p.isHub
      let c := s.ch p.channel
      let m : Mirror :=
        { value := v, stamp := stamp, timeValid := if hub then s.timeValid else c.tb.valid,
          quality := if !hub ∧ s.takenOut p.channel then 8 else q,
          seq := seqNext p.own.seq, epoch := s.ws.epoch }
      let s := s.modPt h (fun p => { p with own := m })
      if hub then mirrorWrite s h m
      else if c.state = .linkLost ∧ (!c.xbarUp ∨ c.relock) then s
      else s.modCh p.channel (fun c =>
        { c with egress := c.egress ++ [{ handle := h, tag := p.chTag, m := m, resent := false }] })

/-- Ownership check and mirror write of an update that reaches the hub (R26, R27, R43); one of a point withdrawn
meanwhile is dropped without a record (DESIGN CHOICE, log 125). -/
def hubUpdate (s : State) (n : Nat) (u : Update) : State :=
  match amGet s.points u.handle with
  | none => s
  | some p =>
    if p.owner ≠ u.tag then
      raise s 0 1 0 (bytesLE 2 u.handle ++ [BitVec.ofNat 8 n, BitVec.ofNat 8 u.tag, BitVec.ofNat 8 p.owner, 0])
    else mirrorWrite s u.handle u.m

/-- POINT_UPDATE: the head of the egress queue (R25, R26). -/
def pointUpdateOp (n : Nat) (s : State) : State :=
  match (s.ch n).egress with
  | [] => s
  | u :: t => hubUpdate (s.modCh n (fun c => { c with egress := t })) n u

/-- FORWARDED_UPDATE: the head of the ingress queue becomes usable in the channel (R24). -/
def forwardedOp (n : Nat) (s : State) : State :=
  match (if s.linkDown n then [] else (s.ch n).ingress) with
  | [] => s
  | u :: t => s.modCh n (fun c => { c with ingress := t, inputs := amSet c.inputs u.handle u.m })

/-- Handles of the points channel `n` owns. -/
def State.owned (s : State) (n : Nat) : List Nat :=
  (s.points.filter (fun x => x.2.inEffect && !x.2.isHub && x.2.channel == n)).map (·.1)

/-- STALE in the mirror of every point of a channel, delivered once with REPEAT (R43). -/
def markStale (s : State) (n : Nat) : State :=
  (s.owned n).foldl (fun s h =>
    match amGet s.points h with
    | some p =>
      let m := { p.mir with quality := 6 }
      deliver ((s.modPt h (fun p => { p with mir := m })).mirror (.point h m)) h m true
    | none => s) s

/-- What CHn_CTL_STATE shows of the channel's own: FSUP_OK, ISO_OK and GUARD_ARMED (R92). -/
def chanBits (c : Chan) : BitVec 3 := BitVec.ofNat 3 ((if c.dio.fsupOk then 1 else 0) + (if c.isoOk then 2 else 0) + (if c.dio.armed then 4 else 0))

/-- The channel resends every point it owns (R32). -/
def resendAll (s : State) (n : Nat) : State :=
  let us := (s.owned n).filterMap (fun h => (amGet s.points h).map (fun p =>
    ({ handle := h, tag := p.chTag, m := p.own, resent := true } : Update)))
  s.modCh n (fun c => { c with egress := c.egress ++ us })

/-- MIN_INT of a pending point expires (R51 rule 3). -/
def minExpiryOp (h : Nat) (s : State) : State :=
  match amGet s.points h with
  | none => s
  | some p =>
    if p.held then
      if covPasses p p.mir true then deliver s h p.mir false
      else s.modPt h (fun p => { p with held := false, minDone := true })
    else s.modPt h (fun p => { p with minDone := true })

/-- MAX_INT of a point expires (R51 rule 4). -/
def maxExpiryOp (h : Nat) (s : State) : State :=
  match amGet s.points h with
  | none => s
  | some p => if p.maxInt = 0 then s else deliver s h p.mir true

/-- The function of basin `b` may see a point (R59). -/
def State.sees (s : State) (b h : Nat) : Bool :=
  match amGet s.points h with
  | none => false
  | some p => b = 0 || p.owner = b || (s.holders p.owner h).contains b

/-- The eight words of a snapshot (R48). -/
def mirWords (s : State) (h : Nat) (p : Point) : List Word :=
  let m := s.mirShown p.mir
  let sec := m.stamp / giga
  [m.value.truncate 32, (m.value >>> 32).truncate 32, BitVec.ofNat 32 (m.stamp % giga), BitVec.ofNat 32 sec,
   BitVec.ofNat 32 (sec / 2 ^ 32 % 65536 + m.quality % 16 * 65536 + (if m.timeValid then 2 ^ 20 else 0) +
     p.type % 8 * 2 ^ 24),
   BitVec.ofNat 32 m.seq, BitVec.ofNat 32 (h + p.owner % 64 * 65536), BitVec.ofNat 32 (m.epoch % 65536)]

/-- MIRSEL_WRITE (R47, R48, R59): a handle the function may not see gives NO_POINT and zeros. -/
def mirselOp (fn h : Nat) (s : State) : State :=
  let h := h % 16384
  let words := (match amGet s.points h with
    | some p => if s.sees fn h then some (mirWords s h p) else none
    | none => none)
  match words with
  | some ws => s.modFn fn (fun f => { f with mirsel := h, mirStat := 0, mirdata := ws })
  | none => s.modFn fn (fun f => { f with mirsel := h, mirStat := 1, mirdata := List.replicate 8 0 })

/-- DIRWIN_WRITE (R46). -/
def dirwinOp (en : Bool) (s : State) : State := s.setReg 0x4F000 (mkBit 0 en)

/- ### The commands -/

/-- POINT_UPDATE (R26). -/
def execPointUpdate (ch : Nat) (s : State) : Host.Outcome State Fault Refusal :=
  .next (pointUpdateOp ch s)

/-- FORWARDED_UPDATE (R24). -/
def execForwardedUpdate (ch : Nat) (s : State) : Host.Outcome State Fault Refusal :=
  .next (forwardedOp ch s)

/-- MIRSEL_WRITE (R47). -/
def execMirselWrite (fn handle : Nat) (s : State) : Host.Outcome State Fault Refusal :=
  .next (ifReaches 0x4F010 (mirselOp fn handle) s)

/-- DIRWIN_WRITE (R46). -/
def execDirwinWrite (en : Bool) (s : State) : Host.Outcome State Fault Refusal :=
  .next (ifReaches 0x4F000 (dirwinOp en) s)

/-- MIN_INT_EXPIRY (R51). -/
def execMinIntExpiry (handle : Nat) (s : State) : Host.Outcome State Fault Refusal :=
  .next (minExpiryOp handle s)

/-- MAX_INT_EXPIRY (R51). -/
def execMaxIntExpiry (handle : Nat) (s : State) : Host.Outcome State Fault Refusal :=
  .next (maxExpiryOp handle s)

end Sys2Proof.Machine
end

