-- ==== Sys2Proof/Machine/FieldIo.lean ====
section
/-! DEFINITION. Digital and analogue field I/O (chapter 13, R367 to R398): supply thresholds, inputs,
counters, outputs and their protection, the output guard, converters. -/

namespace Sys2Proof.Machine

/-- A register of the digital I/O sub-block of channel `n` (R397). -/
def State.dioReg (s : State) (n o : Nat) : Word := s.reg (chBase n + 0x90000 + o)

/-- A register of the converter sub-block of channel `n` (R398). -/
def State.adcReg (s : State) (n o : Nat) : Word := s.reg (chBase n + 0xA0000 + o)

/-- Change the field I/O of channel `n`. -/
def State.modDio (s : State) (n : Nat) (f : Dio → Dio) : State :=
  s.modCh n (fun c => { c with dio := f c.dio })

/-- The field I/O of channel `n`. -/
def State.dio (s : State) (n : Nat) : Dio := (s.ch n).dio

/-- Change output `d` of channel `n`. -/
def State.modDout (s : State) (n d : Nat) (f : Dout → Dout) : State :=
  s.modDio n (fun c => { c with dout := c.dout.modify d f })

/-- Output `d` of channel `n`. -/
def State.dout (s : State) (n d : Nat) : Dout := (s.dio n).dout.getD d Dout.reset

/-- Change analogue output `t` of channel `n`. -/
def State.modAout (s : State) (n t : Nat) (f : Aout → Aout) : State :=
  s.modDio n (fun c => { c with aout := c.aout.modify t f })

/-- Analogue output `t` of channel `n`. -/
def State.aout (s : State) (n t : Nat) : Aout := (s.dio n).aout.getD t Aout.reset

/-- Change analogue input `i` of channel `n`. -/
def State.modAin (s : State) (n i : Nat) (f : Ain → Ain) : State :=
  s.modDio n (fun c => { c with ain := c.ain.modify i f })

/-- Analogue input `i` of channel `n`. -/
def State.ain (s : State) (n i : Nat) : Ain := (s.dio n).ain.getD i Ain.reset

/-- DOUT `d` is joined and the module is not UNPAIRED (R412, R413). -/
def State.joinedDo (s : State) (n d : Nat) : Bool := s.pair.role ≠ 0 && bitN (s.reg (0x80020 + 4 * n)) d

/-- AOUT `t` is joined and the module is not UNPAIRED (R412, R413). -/
def State.joinedAo (s : State) (n t : Nat) : Bool := s.pair.role ≠ 0 && bitN (s.reg (0x80020 + 4 * n)) (8 + t)

/-- The output is in wired-OR mode (R383); a joined DOUT always is (R413). -/
def State.wor (s : State) (n d : Nat) : Bool := bitN (s.dioReg n 0xA4) d || s.joinedDo n d

/-- Lockout or restart delay (R370, R371). -/
def Dio.lockout (c : Dio) : Bool := c.uvlo || c.restart

/-- Quality of a DOUT point (R369). -/
def doutQual (lockout : Bool) (o : Dout) : Nat :=
  if (o.cmd && (lockout || o.tripped || o.hot || !o.drive)) || (!o.cmd && o.ext) then 7 else 1

/-- Quality of an AOUT point (R369, R387, R396). -/
def aoutQual (lockout : Bool) (o : Aout) : Nat :=
  if lockout || o.ovl || (o.zero && o.dim) then 7 else 1

/-- Acquire the points of a terminal of channel `n` (R157) at channel time. -/
def acquireTerm (s : State) (n term : Nat) (v : Slot) (q : Nat) (stamp : Instant) : State :=
  (s.localPoints n term).foldl (fun s h => acquire s h v q stamp) s

/-- Acquire output `d`'s points with its commanded state and present quality (R369). -/
def doutAcquire (s : State) (n d : Nat) (stamp : Instant) : State :=
  let o := s.dout n d
  let q := doutQual (s.dio n).lockout o
  acquireTerm (s.modDout n d (fun o => { o with qual := q })) n (16 + d)
    (if o.cmd then 1 else 0) q stamp

/-- A change of the condition of R369 is a new acquisition. -/
def doutRequal (s : State) (n d : Nat) : State :=
  let o := s.dout n d
  if doutQual (s.dio n).lockout o = o.qual then s else doutAcquire s n d (s.chNow n)

/-- Acquire analogue output `t`'s points (R369). -/
def aoutAcquire (s : State) (n t : Nat) (stamp : Instant) : State :=
  let o := s.aout n t
  let q := aoutQual (s.dio n).lockout o
  acquireTerm (s.modAout n t (fun o => { o with qual := q })) n (32 + t)
    (BitVec.ofNat 64 o.code) q stamp

/-- As `doutRequal`, for an analogue output. -/
def aoutRequal (s : State) (n t : Nat) : State :=
  let o := s.aout n t
  if aoutQual (s.dio n).lockout o = o.qual then s else aoutAcquire s n t (s.chNow n)

/-- The guard holds the terminals: it is not armed and holds a state, or holds them for a planned restart
(R384, R387, R389). -/
def State.guardHolds (s : State) (n : Nat) : Bool :=
  let c := s.dio n
  (c.fresh && !c.armed && c.keeps) || c.holding

/-- DOUT `d` latched with state `v` (R368, R371, R378). -/
def latchDout (s : State) (n d : Nat) (v : Bool) (stamp : Instant) : State :=
  let lock := (s.dio n).lockout
  let s := s.modDout n d (fun o =>
    if v then
      if o.cmd then o
      else { o with cmd := true, drive := !lock && !o.hot, tripped := o.hot, due := o.hot, ext := false }
    else { o with cmd := false, drive := false, tripped := false, due := false })
  doutAcquire s n d stamp

/-- AOUT `t` latched with `code`; a change of MODE applies at this latch (R396). -/
def latchAout (s : State) (n t code : Nat) (stamp : Instant) : State :=
  let dim := bitN (s.adcReg n (0x80 + 8 * t)) 0
  aoutAcquire (s.modAout n t (fun o => { o with code := code % 65536, zero := false, dim := dim, disc := false })) n t stamp

/-- The safe state of DOUT `d` in a SAFE word (R386): none is HOLD. -/
def doutSafe (safe : Word) (wor : Bool) (d : Nat) : Option Bool :=
  if wor then some false
  else match fld safe (2 * d) 2 with
    | 1 => some true
    | 2 => none
    | _ => some false

/-- The channel logic applies the safe state of a terminal (R388): 16 to 23 DOUT, 32 to 35 AOUT. -/
def applySafe (s : State) (n term : Nat) : State :=
  let safe := s.dioReg n 0xE4
  if 16 ≤ term ∧ term < 24 then
    match doutSafe safe (s.wor n (term - 16)) (term - 16) with
    | some v => latchDout s n (term - 16) v (s.chNow n)
    | none => s
  else if 32 ≤ term ∧ term < 36 then
    let t := term - 32
    if s.joinedAo n t then s.modAout n t (fun o => { o with disc := true })
    else match fld safe (16 + 2 * t) 2 with
    | 1 => latchAout s n t (fld (s.dioReg n (0xE8 + 4 * t)) 0 16) (s.chNow n)
    | 2 => s
    | _ => aoutAcquire (s.modAout n t (fun o =>
        { o with code := 0, zero := true, dim := bitN (s.adcReg n (0x80 + 8 * t)) 0 })) n t (s.chNow n)
  else s

/-- All output terminals of a channel. -/
def outTerms : List Nat := [16, 17, 18, 19, 20, 21, 22, 23, 32, 33, 34, 35]

/-- Every output of a channel takes its safe state (R388), unless the guard holds no state (R384). -/
def applyAllSafe (s : State) (n : Nat) : State :=
  if (s.dio n).keeps then outTerms.foldl (fun s t => applySafe s n t) s else s

/-- Points of every DOUT and AOUT after a change of the channel-wide condition of R369. -/
def requalAll (s : State) (n : Nat) : State :=
  let s := (List.range 8).foldl (fun s d => doutRequal s n d) s
  (List.range 4).foldl (fun s t => aoutRequal s n t) s

/-- The input of DIN `i` is enabled (R374). -/
def State.dinEn (s : State) (n i : Nat) : Bool := bitN (s.dioReg n (0x40 + 4 * i)) 16

/-- DIN `i` counts: its CNT_EN bit, and the input enabled (R375). -/
def State.counting (s : State) (n i : Nat) : Bool :=
  i < 4 && bitN (s.dioReg n 0x14) (4 + i) && s.dinEn n i

/-- Quality of DIN and counter points (R370). -/
def State.dinQual (s : State) (n : Nat) : Nat := if (s.dio n).inv then 2 else 1

/-- Acquire the BOOL point of DIN `i` (R374). -/
def acquireDin (s : State) (n i : Nat) (q : Nat) (stamp : Instant) : State :=
  acquireTerm s n i (if (s.dio n).level.getLsbD i then 1 else 0) q stamp

/-- Acquire the counter point of DIN `i` (R375). -/
def acquireCnt (s : State) (n i : Nat) (q : Nat) (stamp : Instant) : State :=
  acquireTerm s n (36 + i) (BitVec.ofNat 64 ((s.dio n).counts.getD i 0)) q stamp

/-- At the 14 V crossings every enabled DIN and running counter is acquired once (R370; R374 and R375
prevail for disabled inputs, log 32). -/
def acquireInputs (s : State) (n : Nat) (q : Nat) : State :=
  let s := (List.range 16).foldl (fun s i =>
    if s.dinEn n i then acquireDin s n i q (s.chNow n) else s) s
  (List.range 4).foldl (fun s i => if s.counting n i then acquireCnt s n i q (s.chNow n) else s) s

/-- The present value of an AIN's point again, with a quality. -/
def reacquireAin (s : State) (n i : Nat) (q : Nat) : State :=
  (s.localPoints n (24 + i)).foldl (fun s h => acquire s h (s.ownValue h) q (s.chNow n)) s

/- ### Supply thresholds (R370, R371) -/

/-- FSUP falls below 18 V. -/
def fsupLowOp (n v : Nat) (s : State) : State :=
  if v < 1800 ∧ !(s.dio n).low then
    s.modDio n (fun c => { c with fsup := v, fsupOk := false, low := true, fc0 := setBit c.fc0 0 })
  else s

/-- FSUP rises to 18 V or above. -/
def fsupOkOp (n v : Nat) (s : State) : State :=
  if 1800 ≤ v then s.modDio n (fun c => { c with fsup := v, fsupOk := true, low := false }) else s

/-- FSUP falls below 14 V: every declared DIN, counter and AIN point is acquired INVALID. -/
def fsupInvalidOp (n v : Nat) (s : State) : State :=
  if v < 1400 ∧ !(s.dio n).inv then
    let s := s.modDio n (fun c => { c with fsup := v, inv := true })
    let s := acquireInputs s n 2
    (List.range 8).foldl (fun s i => reacquireAin s n i 2) s
  else s

/-- FSUP rises to 14 V or above: DIN and counter points are acquired GOOD at once. -/
def fsupValidOp (n v : Nat) (s : State) : State :=
  if 1400 ≤ v ∧ (s.dio n).inv then
    acquireInputs (s.modDio n (fun c => { c with fsup := v, inv := false })) n 1
  else s

/-- FSUP falls below 9 V: lockout; a restart delay in progress ends (R371). -/
def uvloOp (n v : Nat) (s : State) : State :=
  if v < 900 then
    let s := s.modDio n (fun c =>
      { c with fsup := v, uvlo := true, restart := false,
               dout := c.dout.map (fun o => { o with drive := false }),
               aout := c.aout })
    requalAll s n
  else s

/-- FSUP rises through 11 V after a lockout: the restart delay begins. -/
def restartRiseOp (n v : Nat) (s : State) : State :=
  if 1100 ≤ v ∧ (s.dio n).uvlo then
    s.modDio n (fun c => { c with fsup := v, uvlo := false, restart := true })
  else s

/-- What a DOUT shows after the restart delay: its command, while the channel logic works or the guard has not
tripped; after a trip its safe state, and nothing when the guard holds no state (R370, R384, R387). -/
def restartDrive (c : Dio) (dead : Bool) (d : Nat) (o : Dout) : Bool :=
  if c.fresh && !c.armed && c.keeps && !c.holding then
    (match doutSafe c.gSafe (c.gWor.getLsbD d) d with
    | some v => v && !o.hot
    | none => o.cmd && !o.hot)
  else !(dead && !c.keeps) && o.cmd && !o.tripped && !o.hot

/-- The channel logic does not run: nothing commands the terminals. -/
def State.logicDead (s : State) (n : Nat) : Bool :=
  (s.ch n).state = .fault || (s.ch n).state = .starting || (s.ch n).state = .absent

/-- The restart delay ends: every DOUT still commanded on switches on, every AOUT returns to its code. -/
def uvloRestartOp (n : Nat) (s : State) : State :=
  if (s.dio n).restart then
    let t := s.chNow n + 2000000
    let dead := s.logicDead n
    let s := s.modDio n (fun c =>
      { c with restart := false, suspTo := t,
               dout := (List.range 8).map (fun d =>
                 let o := c.dout.getD d Dout.reset
                 { o with drive := restartDrive c dead d o }),
               aout := c.aout.map (fun o => { o with zero := o.zero || (dead && !c.keeps) }) })
    requalAll s n
  else s

/-- FSUP falls below 6 V: the guard disarms, forgets its table and holds no state (R385). The lockout has switched
the outputs off before; a channel that runs takes them up again after it. -/
def guardLossOp (n v : Nat) (s : State) : State :=
  if v < 600 then
    let dead := s.logicDead n
    s.modDio n (fun c =>
      { c with fsup := v, armed := false, holding := false, keeps := false, gSafe := 0, gWor := 0,
               gCodes := [0, 0, 0, 0],
               dout := c.dout.map (fun o => { o with drive := false }),
               aout := c.aout.map (fun o => { o with zero := o.zero || dead }) })
  else s

/- ### Digital inputs and counters -/

/-- CNT_EDGE of DIN `i` accepts an edge to `level` (R375). -/
def edgeCounts (cfg : Word) (i : Nat) (level : Bool) : Bool :=
  match fld cfg (8 + 2 * i) 2 with
  | 1 => !level
  | 2 => true
  | _ => level

/-- An accepted edge (R373 to R375). -/
def dinEdgeOp (n i : Nat) (level : Bool) (stamp : Instant) (s : State) : State :=
  if i < 16 ∧ (s.dio n).level.getLsbD i ≠ level then
    let s := s.modDio n (fun c => { c with level := setBitTo c.level i level })
    if s.dinEn n i then
      if s.counting n i then
        if edgeCounts (s.dioReg n 0x14) i level then
          s.modDio n (fun c => { c with counts := c.counts.modify i (fun k => (k + 1) % 2 ^ 64) })
        else s
      else acquireDin s n i (s.dinQual n) stamp
    else s
  else s

/-- An acquisition instant of the pulse counters (R375). -/
def counterAcqOp (n : Nat) (s : State) : State :=
  (List.range 4).foldl (fun s i =>
    if s.counting n i then
      acquireDin (acquireCnt s n i (s.dinQual n) (s.chNow n)) n i (s.dinQual n) (s.chNow n)
    else s) s

/-- An accepted command presets a counter (R376). -/
def presetCnt (s : State) (n i : Nat) (v : Slot) (stamp : Instant) : State :=
  let s := s.modDio n (fun c => { c with counts := c.counts.set i v.toNat })
  let s := s.modCh n (fun c => { c with slots := c.slots.map (fun p =>
    (p.1, { p.2 with cnts := [], pulse := none })) })
  acquireCnt s n i (s.dinQual n) stamp

/-- Points acquired when DINCFG, DINF or a converter's RANGE has been changed from `old` to the present
state (R374, R375, R395). -/
def inputsChanged (old s : State) (n : Nat) : State :=
  let s := (List.range 16).foldl (fun s i =>
    if old.dinEn n i && !s.dinEn n i then acquireDin s n i 2 (s.chNow n) else s) s
  let s := (List.range 4).foldl (fun s i =>
    if old.counting n i && !s.counting n i then acquireCnt s n i 2 (s.chNow n) else s) s
  (List.range 8).foldl (fun s i =>
    if fld (old.adcReg n (16 * i)) 0 3 % 7 ≠ 0 && fld (s.adcReg n (16 * i)) 0 3 % 7 = 0 then
      reacquireAin s n i 2 else s) s

/- ### Digital outputs (R378 to R383) -/

/-- Switch output `d` off under R378. -/
def switchOff (s : State) (n d : Nat) (hot : Bool) : State :=
  doutRequal (s.modDout n d (fun o => { o with drive := false, tripped := true, hot := o.hot || hot, due := false })) n d

/-- Current limit for LIM_MS without a break: OC. -/
def overcurrentOp (n d : Nat) (s : State) : State :=
  if d < 8 ∧ (s.dout n d).drive then
    switchOff (s.modDio n (fun c => { c with fc0 := setBit c.fc0 (16 + d) })) n d false
  else s

/-- Junction at 150 °C: OT. -/
def overtempOp (n d : Nat) (s : State) : State :=
  if d < 8 ∧ (s.dout n d).drive then
    switchOff (s.modDio n (fun c => { c with fc0 := setBit c.fc0 (24 + d) })) n d true
  else s

/-- Switch a tripped output on again while it is commanded on, cool and supplied. -/
def switchOn (s : State) (n d : Nat) : State :=
  let o := s.dout n d
  if o.cmd && o.tripped && !o.hot then
    let lock := (s.dio n).lockout
    doutRequal (s.modDout n d (fun o => { o with tripped := false, drive := !lock })) n d
  else s

/-- RETRY_MS has passed (R378); with RETRY_MS 0 there is no retry. -/
def retryOp (n d : Nat) (s : State) : State :=
  if d < 8 ∧ fld (s.dioReg n 0xF8) 16 16 ≠ 0 then
    if (s.dout n d).hot then s.modDout n d (fun o => { o with due := true }) else switchOn s n d
  else s

/-- The junction has cooled to 135 °C: an output that waits for it follows its command at its retry, or at
once when it was commanded on meanwhile (R378). -/
def cooledOp (n d : Nat) (s : State) : State :=
  if d < 8 ∧ (s.dout n d).hot then
    let due := (s.dout n d).due
    let s := s.modDout n d (fun o => { o with hot := false, due := false })
    if due then switchOn s n d else doutRequal s n d
  else s

/-- CLR_OC (R378, R397). -/
def clrOcOp (n : Nat) (mask : BitVec 8) (s : State) : State :=
  (List.range 8).foldl (fun s d => if mask.getLsbD d then switchOn s n d else s) s

/-- Index of the largest current among the outputs driven on. -/
def largestOn (os : List Dout) (cs : List Nat) : Nat :=
  (List.range 8).foldl (fun b d =>
    if (os.getD d Dout.reset).drive && (!(os.getD b Dout.reset).drive || cs.getD b 0 < cs.getD d 0)
    then d else b) 0

/-- The group limit (R379). -/
def groupOcOp (n : Nat) (cs : List Nat) (s : State) : State :=
  if cs.length = 8 ∧ 4400 < cs.foldl (· + ·) 0 then
    let s := s.modDio n (fun c =>
      { c with group := cs.foldl (· + ·) 0, fc0 := setBit c.fc0 1,
               dout := (List.range 8).map (fun d =>
                 { c.dout.getD d Dout.reset with current := cs.getD d 0 }) })
    let d := largestOn (s.dio n).dout cs
    if (s.dout n d).drive then switchOff s n d false else s
  else s

/-- EXT_DRIVE and open-load checks run (R371). -/
def State.checksRun (s : State) (n : Nat) : Bool :=
  !(s.dio n).lockout && (s.dio n).suspTo ≤ s.chNow n

/-- EXT_DRIVE (R380). -/
def extDriveOp (n d : Nat) (s : State) : State :=
  if d < 8 ∧ !(s.dout n d).cmd ∧ !s.wor n d ∧ s.checksRun n then
    let s := s.modDio n (fun c => { c with fc0 := setBit c.fc0 (8 + d) })
    doutRequal (s.modDout n d (fun o => { o with ext := true })) n d
  else s

/-- Open load (R381). -/
def openLoadOp (n d : Nat) (s : State) : State :=
  if d < 8 ∧ bitN (s.dioReg n 0xA4) (8 + d) ∧ (s.dout n d).cmd ∧ (s.dout n d).drive ∧ !s.wor n d ∧
      s.checksRun n then
    s.modDio n (fun c => { c with fc1 := setBit c.fc1 d })
  else s

/-- Conditions of FCAUSE0 that hold now (R382): a write of 1 leaves them set. Whether a terminal is still driven
from outside is the environment's: bit 8 + d of `free`. -/
def causeHolds (c : Dio) (free : Word) : Word :=
  (List.range 8).foldl (fun w d =>
    let o := c.dout.getD d Dout.reset
    let w := if o.ext && !o.cmd && bitN free (8 + d) then setBit w (8 + d) else w
    let w := if o.hot then setBit w (24 + d) else w
    if o.tripped && bitN c.fc0 (16 + d) then setBit w (16 + d) else w) (if c.low then 1 else 0)

/-- W1C of FCAUSE0 (R382); the points of an output no longer driven from outside are acquired (R369). -/
def clearCause0 (s : State) (n : Nat) (w : Word) : State :=
  let free := Config.freeWord s.free
  let gone (d : Nat) : Bool := bitN w (8 + d) && !bitN free (8 + d) && (s.dout n d).ext
  let s := (s.modDio n (fun c => { c with fc0 := c.fc0 &&& ~~~(w &&& ~~~ (causeHolds c free)) })).tick1
  (List.range 8).foldl (fun s d =>
    if gone d then doutRequal (s.modDout n d (fun o => { o with ext := false })) n d else s) s

/-- W1C of FCAUSE1 (R381, R382): the current of an output that is on is the environment's. -/
def clearCause1 (s : State) (n : Nat) (w : Word) : State :=
  let free := Config.freeWord s.free
  let held : Word := (List.range 8).foldl (fun h d =>
    if (s.dout n d).cmd && (s.dout n d).drive && bitN free d then setBit h d else h) 0
  (s.modDio n (fun c => { c with fc1 := c.fc1 &&& ~~~(w &&& ~~~held) })).tick1

/-- The common fault bit (R382). -/
def Dio.fault (c : Dio) : Bool := c.fc0 ≠ 0 || c.fc1 ≠ 0

/- ### The output guard (R384 to R389) -/

/-- The safe states a kick loads: AO_SAFE 3, treated as ZERO, becomes 0, and 3 stands for the DISCONNECT of a
joined AOUT (R386, R413). -/
def guardTable (s : State) (n : Nat) : Word :=
  let safe := s.dioReg n 0xE4
  (List.range 4).foldl (fun w t =>
    w ||| mkFld (16 + 2 * t) 2 (if s.joinedAo n t then 3 else fld safe (16 + 2 * t) 2 % 3))
    (BitVec.ofNat 32 (fld safe 0 16))

/-- A kick reloads the table, ends a hold, and arms the guard once the channel has reached IN_SERVICE; at a
re-arm the channel takes the states the terminals hold (R384, R387, R389). -/
def guardKickOp (n : Nat) (s : State) : State :=
  let st := (s.ch n).state
  if st = .inService ∨ ((s.dio n).keeps ∧ (st = .outOfService ∨ st = .linkLost)) then
    let safe := guardTable s n
    let wor : BitVec 8 := (List.range 8).foldl (fun w d => setBitTo w d (s.wor n d)) 0
    let codes := (List.range 4).map (fun t => fld (s.dioReg n (0xE8 + 4 * t)) 0 16)
    let rearm := (s.dio n).fresh && !(s.dio n).holding
    let s := s.modDio n (fun c =>
      { c with armed := true, holding := false, keeps := true, fresh := false, gSafe := safe, gWor := wor, gCodes := codes })
    if rearm then
      let s := s.modDio n (fun c =>
        { c with dout := c.dout.map (fun o => { o with cmd := o.drive, tripped := false }),
                 aout := c.aout.map (fun o => if o.zero then { o with code := 0 } else o) })
      let s := (List.range 8).foldl (fun s d => doutAcquire s n d (s.chNow n)) s
      (List.range 4).foldl (fun s t => aoutAcquire s n t (s.chNow n)) s
    else s
  else s

/-- The guard drives every output to its safe state (R385, R386). -/
def guardDrive (c : Dio) : Dio :=
  { c with
    armed := false, holding := false, tripped := true, tripCnt := min 255 (c.tripCnt + 1), keeps := true,
    fresh := true,
    dout := (List.range 8).map (fun d =>
      let o := c.dout.getD d Dout.reset
      match doutSafe c.gSafe (c.gWor.getLsbD d) d with
      | some v => { o with drive := v && !c.lockout && !o.hot }
      | none => o),
    aout := (List.range 4).map (fun t =>
      let o := c.aout.getD t Aout.reset
      match fld c.gSafe (16 + 2 * t) 2 with
      | 1 => { o with code := c.gCodes.getD t 0, zero := false }
      | 2 => o
      | 3 => { o with disc := true }
      | _ => { o with zero := true }) }

/-- No kick for TIMEOUT: the armed guard trips. -/
def guardTripOp (n : Nat) (s : State) : State :=
  if (s.dio n).armed ∧ !(s.dio n).holding then s.modDio n guardDrive else s

/-- The channel sends HOLD before a planned restart, when PR_HOLD_EN is 1 (R389). -/
def guardHoldOp (n : Nat) (s : State) : State :=
  if bitN (s.dioReg n 0xE0) 15 ∧ (s.dio n).armed then
    s.modDio n (fun c => { c with holding := true, armed := false, keeps := true })
  else s

/-- The hold ends without kicks: the guard trips (R389). -/
def guardHoldExpiryOp (n : Nat) (s : State) : State :=
  if (s.dio n).holding then s.modDio n guardDrive else s

/- ### Converters (R391 to R396) -/

/-- Rounded quotient, halves up (log 33). -/
def roundDiv (a : Int) (b : Int) : Int := (2 * a + b) / (2 * b)

/-- The unclamped code of a measurement in µV, nA or mΩ (R391). -/
def ainCode (range : Nat) (m : Int) : Int :=
  match range with
  | 1 => roundDiv (m * 65535) 10000000
  | 2 => 32768 + roundDiv (m * 32768) 10000000
  | 3 => roundDiv (m * 327675) 100000000
  | 4 => roundDiv ((m - 4000000) * 409594) 100000000
  | 5 => roundDiv (m * 65535) 2000000
  | 6 => roundDiv (m * 65535) 500000000
  | _ => 0

/-- The measurement an unclamped code stands for (R394). -/
def ainOfCode (range : Nat) (u : Int) : Int :=
  match range with
  | 1 => roundDiv (u * 10000000) 65535
  | 2 => roundDiv ((u - 32768) * 10000000) 32768
  | 3 => roundDiv (u * 100000000) 327675
  | 4 => 4000000 + roundDiv (u * 100000000) 409594
  | 5 => roundDiv (u * 2000000) 65535
  | 6 => roundDiv (u * 500000000) 65535
  | _ => 0

/-- Temperature of a resistance measurement in thousandths of a degree (R392). -/
def ainMilliC (s : State) (n i range : Nat) (m : Int) : Int :=
  if range = 5 then Config.pt1000MilliC (m - fld (s.adcReg n (8 + 16 * i)) 0 16)
  else
    let w := s.adcReg n (12 + 16 * i)
    Config.ntcMilliC m (max 100 (fld w 0 16)) (min 6000 (max 1000 (fld w 16 16)))

/-- The quality a measurement gives (R391). -/
def ainQual (s : State) (n i range : Nat) (m : Int) : Nat :=
  match range with
  | 1 => if m < -200000 then 5 else if 10200000 < m then 4 else 1
  | 2 => if m < -10200000 then 5 else if 10200000 < m then 4 else 1
  | 3 => if m < -200000 then 5 else if 20500000 < m then 4 else 1
  | 4 => if m < 3600000 then 5 else if 21000000 < m then 4 else 1
  | 5 =>
    if 2000000 ≤ m then 4
    else let t := ainMilliC s n i 5 m
      if t < -50000 then 5 else if 250000 < t then 4 else 1
  | 6 =>
    if 500000000 ≤ m then 5
    else let t := ainMilliC s n i 6 m
      if t < -40000 then 5 else if 125000 < t then 4 else 1
  | _ => 2

/-- The value slot of a point of a type (R391): S32 in mV, µA, m°C; Q16_16 in V, mA, °C. -/
def ainValue (s : State) (n i range type : Nat) (u m : Int) : Option Slot :=
  match type, range with
  | 1, 1 | 1, 2 | 1, 3 | 1, 4 => some (BitVec.ofInt 64 (max 0 (min 65535 u)))
  | 2, 1 | 2, 2 | 2, 3 | 2, 4 => some (BitVec.ofInt 64 (sat32 (roundDiv m 1000)))
  | 2, 5 | 2, 6 => some (BitVec.ofInt 64 (sat32 (ainMilliC s n i range m)))
  | 3, 1 | 3, 2 | 3, 3 | 3, 4 => some (BitVec.ofInt 64 (sat32 (roundDiv (m * 65536) 1000000)))
  | 3, 5 | 3, 6 => some (BitVec.ofInt 64 (sat32 (roundDiv (ainMilliC s n i range m * 65536) 1000)))
  | _, _ => none

/-- RANGE in force of an input; 7 is treated as 0 (R398). -/
def State.ainRange (s : State) (n i : Nat) : Nat := fld (s.adcReg n (16 * i)) 0 3 % 7

/-- A scan boundary of the input (R393). -/
def adcScanOp (n i : Nat) (s : State) : State :=
  if i < 8 ∧ s.ainRange n i ≠ 0 ∧ fld (s.adcReg n (16 * i)) 16 16 ≠ 0 then
    s.modAin n i (fun a => { a with scan := true })
  else s

/-- The next conversion of a burst starts (R228, R393). -/
def adcBurstOp (n idx : Nat) (s : State) : State :=
  match (s.dio n).bursts[idx]? with
  | none => s
  | some b =>
    let s := s.modDio n (fun c =>
      { c with bursts := if b.left ≤ 1 then c.bursts.eraseIdx idx
                         else c.bursts.set idx { b with left := b.left - 1 } })
    (List.range 8).foldl (fun s i =>
      if b.mask.getLsbD i then s.modAin n i (fun a => { a with burst := true }) else s) s

/-- Acquire the AIN points of an input from an unclamped code and a measurement (R391, R394). -/
def acquireAin (s : State) (n i range : Nat) (u m : Int) (bad : Bool) : State :=
  (s.localPoints n (24 + i)).foldl (fun s h =>
    match ainValue s n i range (s.ptType h) u m with
    | some v => acquire s h v (if bad then 2 else ainQual s n i range m) (s.chNow n)
    | none => acquire s h (s.ownValue h) 2 (s.chNow n)) s

/-- A conversion completes (R391 to R395). A tied or burst conversion serves a scan request that waits. -/
def adcDoneOp (n i : Nat) (src : ConvSource) (m : Int) (fault : Bool) (s : State) : State :=
  let range := s.ainRange n i
  if 8 ≤ i ∨ range = 0 then s
  else
    let a0 := s.ain n i
    let now := s.chNow n
    -- a new RANGE restarts the filter and settles for 5 ms from its first conversion (R395)
    let a1 := if a0.range = range then a0 else { a0 with range := range, fs := none, settle := now + 5000000 }
    let bad := fault || decide (now < a1.settle) || a1.burden || (s.dio n).inv
    let u := ainCode range m
    let q := if bad then 2 else ainQual s n i range m
    let scan := (match src with | .scan => true | _ => a1.scan)
    let burst := (match src with | .burst => true | _ => false)
    let fsh := fld (s.adcReg n (16 * i)) 4 4
    let fs0 := match a1.fs with | some f => f | none => u * 65536
    let fs := if fsh = 0 then u * 65536 else fs0 + (u * 65536 - fs0) / 2 ^ fsh
    let a2 := { a1 with
      code := (max 0 (min 65535 u)).toNat, qual := q, meas := m,
      fs := if scan then some fs else a1.fs, scan := false,
      burst := if burst then false else a1.burst }
    let s := s.modAin n i (fun _ => a2)
    let s := if burst then acquireAin s n i range u m bad else s
    if scan then
      if fsh = 0 then acquireAin s n i range u m bad
      else acquireAin s n i range (rshr fs 16) (ainOfCode range (rshr fs 16)) bad
    else s

/-- A current above 25 mA opens the burden of a current input (R391). -/
def burdenOpenOp (n i : Nat) (s : State) : State :=
  if i < 8 ∧ (s.ainRange n i = 3 ∨ s.ainRange n i = 4) then
    reacquireAin (s.modAin n i (fun a => { a with burden := true, qual := 2 })) n i 2
  else s

/-- The burden closes after 1 s (R391). -/
def burdenRestoreOp (n i : Nat) (s : State) : State := s.modAin n i (fun a => { a with burden := false })

/-- An AOUT enters or leaves its current limit (R396). -/
def aoutLimitOp (n t : Nat) (inLimit : Bool) (s : State) : State :=
  if t < 4 then aoutRequal (s.modAout n t (fun o => { o with ovl := inLimit })) n t else s

/- ### The commands -/

def execFsupLow (ch v : Nat) (s : State) : Host.Outcome State Fault Refusal := .next (fsupLowOp ch v s)
def execFsupOk (ch v : Nat) (s : State) : Host.Outcome State Fault Refusal := .next (fsupOkOp ch v s)
def execFsupInputsInvalid (ch v : Nat) (s : State) : Host.Outcome State Fault Refusal :=
  .next (fsupInvalidOp ch v s)
def execFsupInputsValid (ch v : Nat) (s : State) : Host.Outcome State Fault Refusal :=
  .next (fsupValidOp ch v s)
def execUndervoltageLockout (ch v : Nat) (s : State) : Host.Outcome State Fault Refusal :=
  .next (uvloOp ch v s)
def execFsupRestartRise (ch v : Nat) (s : State) : Host.Outcome State Fault Refusal :=
  .next (restartRiseOp ch v s)
def execUvloRestart (ch : Nat) (s : State) : Host.Outcome State Fault Refusal := .next (uvloRestartOp ch s)
def execFsupGuardLoss (ch v : Nat) (s : State) : Host.Outcome State Fault Refusal :=
  .next (guardLossOp ch v s)
def execDinEdge (ch i : Nat) (level : Bool) (ago : Nat) (s : State) :
    Host.Outcome State Fault Refusal := .next (dinEdgeOp ch i level (s.chStamp ch ago - 4000) s)
def execDoutOvercurrent (ch d : Nat) (s : State) : Host.Outcome State Fault Refusal :=
  .next (overcurrentOp ch d s)
def execDoutOvertemp (ch d : Nat) (s : State) : Host.Outcome State Fault Refusal := .next (overtempOp ch d s)
def execDoutRetry (ch d : Nat) (s : State) : Host.Outcome State Fault Refusal := .next (retryOp ch d s)
def execClrOc (ch : Nat) (mask : BitVec 8) (s : State) : Host.Outcome State Fault Refusal :=
  .next (ifReaches (chBase ch + 0x900A8) (clrOcOp ch mask) s)
def execGroupOvercurrent (ch : Nat) (cs : List Nat) (s : State) : Host.Outcome State Fault Refusal :=
  .next (groupOcOp ch cs s)
def execExtDrive (ch d : Nat) (s : State) : Host.Outcome State Fault Refusal := .next (extDriveOp ch d s)
def execOpenLoad (ch d : Nat) (s : State) : Host.Outcome State Fault Refusal := .next (openLoadOp ch d s)
def execGuardKick (ch : Nat) (s : State) : Host.Outcome State Fault Refusal := .next (guardKickOp ch s)
def execGuardTrip (ch : Nat) (s : State) : Host.Outcome State Fault Refusal := .next (guardTripOp ch s)
def execGuardHold (ch : Nat) (s : State) : Host.Outcome State Fault Refusal := .next (guardHoldOp ch s)
def execGuardHoldExpiry (ch : Nat) (s : State) : Host.Outcome State Fault Refusal :=
  .next (guardHoldExpiryOp ch s)
def execAdcScan (ch i : Nat) (s : State) : Host.Outcome State Fault Refusal := .next (adcScanOp ch i s)
def execAdcConversionComplete (ch i : Nat) (src : ConvSource) (m : Int) (bad : Bool) (s : State) :
    Host.Outcome State Fault Refusal := .next (adcDoneOp ch i src m bad s)
def execAinBurdenOpen (ch i : Nat) (s : State) : Host.Outcome State Fault Refusal :=
  .next (burdenOpenOp ch i s)
def execAinBurdenRestore (ch i : Nat) (s : State) : Host.Outcome State Fault Refusal :=
  .next (burdenRestoreOp ch i s)
def execDoutJunctionCooled (ch d : Nat) (s : State) : Host.Outcome State Fault Refusal :=
  .next (cooledOp ch d s)
def execAoutCurrentLimit (ch t : Nat) (inLimit : Bool) (s : State) : Host.Outcome State Fault Refusal :=
  .next (aoutLimitOp ch t inLimit s)
def execAdcBurstConversion (ch idx : Nat) (s : State) : Host.Outcome State Fault Refusal :=
  .next (adcBurstOp ch idx s)
def execCounterAcquisition (ch : Nat) (s : State) : Host.Outcome State Fault Refusal :=
  .next (counterAcqOp ch s)

end Sys2Proof.Machine
end

