-- ==== Sys2Proof/Machine/ActCore.lean ====
section
/-! DEFINITION. Timed-action tables: entries, references, outcomes and their records (chapter 08, R223 to
R242), transmit timestamps (R218 to R220), time records (R221) and the end of a transmitted frame. -/

namespace Sys2Proof.Machine

/- ### Time records and transmit timestamps -/

/-- A time record of kind 0x0301 + `i` (R221). -/
def timeRec (s : State) (i : Nat) (payload : List Byte) : State :=
  (raise s 0 (0x0301 + i) 0 payload).intBit 0x50060 (16 + i) 2

/-- A transmit timestamp enters queue `q` (R218 to R220); answers the completion's INFO. -/
def tsqPush (s : State) (q : Nat) (stamp : Instant) (valid : Bool) (tag target : Nat) : State × Word :=
  let t := s.tsqs.getD q Tsq.reset
  if t.entries.length < 64 then
    let serial := (t.serial + 1) % 65536
    let e : TsEntry := { stamp := stamp, tag := tag, serial := serial, target := target, valid := valid }
    let s := { s with tsqs := s.tsqs.modify q (fun t => { t with entries := t.entries ++ [e], serial := serial }) }
    let s := if t.entries.isEmpty then s.intBit 0x50060 q 2 else s
    (s, BitVec.ofNat 32 (serial + q * 65536))
  else
    let ovf := satInc 65535 t.ovf
    let s := { s with tsqs := s.tsqs.modify q (fun t => { t with ovf := ovf, told := true }) }
    let s := if t.told then s else timeRec s 6 ([BitVec.ofNat 8 q, 0, 0, 0] ++ bytesLE 4 ovf)
    (s, BitVec.ofNat 32 (t.serial + q * 65536 + 2 ^ 31))

/-- TSQ_POP (R219): the head is removed; an empty queue may report overflow again (R220). -/
def tsqPopOp (q : Nat) (s : State) : State :=
  { s with tsqs := s.tsqs.modify q (fun t =>
      { t with entries := t.entries.drop 1, told := if t.entries.length ≤ 1 then false else t.told }) }

/-- The outcome of a descriptor handed to channel `n` starts towards the hub (R131). -/
def sendReport (s : State) (n : Nat) (r : Report) : State :=
  if 1024 ≤ r.ring then s else s.modCh n (fun c => { c with reports := c.reports ++ [r] })

/- ### Tables -/

/-- Table 0 to 7 of a channel, 8 the hub list (R226). -/
def State.tbl (s : State) (t : Nat) : Table := if t < 8 then (s.ch t).table else s.hlist

/-- Change a table. -/
def State.modTbl (s : State) (t : Nat) (f : Table → Table) : State :=
  if t < 8 then s.modCh t (fun c => { c with table := f c.table }) else { s with hlist := f s.hlist }

/-- Change an entry. -/
def State.modEnt (s : State) (t i : Nat) (f : Entry → Entry) : State :=
  s.modTbl t (fun b => { b with entries := amMod b.entries i f })

/-- Time of a table (R230). -/
def State.tblNow (s : State) (t : Nat) : Instant := if t < 8 then s.chNow t else s.time.now

/-- The table's timebase is valid (R239). -/
def State.tblValid (s : State) (t : Nat) : Bool := if t < 8 then (s.ch t).tb.valid else s.timeValid

/-- Nanoseconds from the sample boundary to the input instant (R275, R277). -/
def Loop.inputOffset (l : Loop) : Nat := if l.fast then 500 * l.lane else 0

/-- TIED conversions of the loops placed on channel `n` (R225, R276): input, period, phase and input offset of each
distinct one. -/
def State.tiedOf (s : State) (n : Nat) : List (Nat × Nat × Nat × Nat) :=
  s.ws.loops.foldl (fun acc x =>
    let l := x.2
    if l.channel = n ∧ (l.st = .placed ∨ l.st = .migrating) then
      [l.pv, l.ff].foldl (fun acc h =>
        match amGet s.points h with
        | some p =>
          if p.origin = 1 ∧ p.channel = n ∧ 24 ≤ p.index ∧ p.index < 32 then
            let k := (p.index - 24, l.period, l.phase, l.inputOffset)
            if acc.contains k then acc else acc ++ [k]
          else acc
        | none => acc) acc
    else acc) []

/-- TIED entries of a channel table: none while it is stopped (R245). -/
def State.tied (s : State) (n : Nat) : Nat := if (s.ch n).tableEn then (s.tiedOf n).length else 0

/-- Entries a table can hold besides TIED and COMMIT entries (R225). -/
def State.tblCap (s : State) (t : Nat) : Nat := if t < 8 then 2048 - s.tied t else 958

/-- The index a new entry takes, if the table has room. -/
def State.tblFree (s : State) (t : Nat) : Option Nat :=
  if (s.tbl t).entries.length < s.tblCap t then amFree (s.tbl t).entries (if t < 8 then 2048 else 958) else none

/-- Entry reference (R226). -/
def entryRef (t i gen : Nat) : Word := BitVec.ofNat 32 (i % 2048 + t % 16 * 2048 + gen % 65536 * 65536)

/-- Enter `e` at index `i` with the next generation of that index (R226). -/
def enterEntry (s : State) (t i : Nat) (e : Entry) : State :=
  let g := (match amGet (s.tbl t).gens i with | some g => (g + 1) % 65536 | none => 1)
  let e := { e with gen := g, order := s.serial }
  ({ s.modTbl t (fun b => { b with entries := amSet b.entries i e, gens := amSet b.gens i g }) with
      serial := s.serial + 1 }).mirror (.entry t i (some e))

/-- Reference of the entry at an index. -/
def State.refOf (s : State) (t i : Nat) : Word :=
  entryRef t i (match amGet (s.tbl t).gens i with | some g => g | none => 0)

/-- Instant of occurrence `k` (R230). -/
def Entry.occ (e : Entry) (k : Nat) : Instant := e.start + k * (125000 * e.period)

/-- Occurrences of an entry; none: unlimited (R227). -/
def Entry.total (e : Entry) : Option Nat :=
  if e.period = 0 then some 1 else if e.count = 0 then none else some e.count

/-- Occurrence `k` is the last one. -/
def Entry.isLast (e : Entry) (k : Nat) : Bool :=
  match e.total with
  | some n => n ≤ k + 1
  | none => false

/-- Occurrences at or before an instant. -/
def Entry.passedAt (e : Entry) (now : Instant) : Nat :=
  if now < e.start then 0
  else
    let k := if e.period = 0 then 1 else (now - e.start) / (125000 * e.period) + 1
    match e.total with
    | some n => min n k
    | none => k

/-- CHn_TA_COMPk (R251). -/
def State.comp (s : State) (n k : Nat) : Word := s.reg (chBase n + 0x20100 + 4 * k)

/-- Compensation of a DOUT that turns on or off (R233). -/
def doutComp (s : State) (n d : Nat) (on : Bool) : Nat :=
  if on then fld (s.comp n d) 0 16 else fld (s.comp n d) 16 16

/-- The largest lead of an entry's latch instants over its instant (R231, R233). -/
def entryLead (s : State) (t : Nat) (e : Entry) : Nat :=
  if e.nocomp || 8 ≤ t then 0
  else match e.kind with
    | .dout mask value => (List.range 8).foldl (fun m d =>
        if mask.getLsbD d then max m (doutComp s t d (value.getLsbD d)) else m) 0
    | .aout term _ => fld (s.comp t (8 + term)) 0 16
    | .burst _ _ _ => fld (s.comp t 12) 0 16
    | .pointWrite h v =>
      (match amGet s.points h with
      | some p =>
        if p.origin = 1 ∧ 16 ≤ p.index ∧ p.index < 24 then doutComp s t (p.index - 16) (v.toNat % 2 == 1)
        else if p.origin = 1 ∧ 32 ≤ p.index ∧ p.index < 36 then fld (s.comp t (p.index - 24)) 0 16 else 0
      | none => 0)
    | _ => 0

/-- An occurrence judged on arrival counts LATE or MISSED (R235, R242). -/
def countArrival (s : State) (t outcome : Nat) : State :=
  s.modTbl t (fun b => { b with late := if outcome = 1 then satInc 65535 b.late else b.late,
                                missed := if outcome = 2 then satInc 65535 b.missed else b.missed })

/-- The outcome record of an entry (R240), held in the channel while its link is lost (R242). -/
def actRecord (s : State) (t i : Nat) (e : Entry) (outcome detail lateUs skipped : Nat) (final : Bool) : State :=
  let decl := e.origin = .declared
  let tag := if decl then bytesLE 2 e.actId ++ bytesLE 2 (min 65535 skipped) ++ bytesLE 4 0
    else bytesLE 8 e.cookie.toNat
  let payload := bytesLE 4 (entryRef t i e.gen).toNat ++ tag ++
    [BitVec.ofNat 8 (outcome + (if final then 8 else 0) + if decl then 16 else 0), BitVec.ofNat 8 detail] ++
    bytesLE 2 (if outcome = 0 ∨ outcome = 3 then 0 else min 65535 lateUs)
  if t < 8 ∧ (s.ch t).state = .linkLost then
    if (s.ch t).heldRecs.length < 256 then
      s.modCh t (fun c => { c with heldRecs := c.heldRecs ++
        [(e.basin, { kind := 0x0201, subject := e.basin, payload := payload })] })
    else s.modEv e.basin (fun r => { r with drops := (r.drops + 1) % 2 ^ 32, lost := true })
  else raise s e.basin 0x0201 e.basin payload

/-- Outcome codes of R240. -/
abbrev oDone : Nat := 0
abbrev oLate : Nat := 1
abbrev oMissed : Nat := 2
abbrev oCancelled : Nat := 3
abbrev oFailed : Nat := 4

/-- An outcome of an entry: counters and, under R242, its record. -/
def actOutcome (s : State) (t i : Nat) (e : Entry) (outcome detail lateUs : Nat) (final : Bool) : State :=
  let s := s.modTbl t (fun b =>
    { b with late := if outcome = oLate then satInc 65535 b.late else b.late,
             missed := if outcome = oMissed then min 65535 (b.missed + 1 + e.skipped)
                       else min 65535 (b.missed + e.skipped) })
  if e.origin ≠ .declared ∨ outcome ≠ oDone ∨ final ∨ e.report ∨ e.skipped ≠ 0 then
    (actRecord s t i e outcome detail lateUs e.skipped (final || e.origin ≠ .declared)).modEnt t i
      (fun e => { e with skipped := 0 })
  else s

/-- An entry has no further occurrence: a descriptor entry is gone, a declared one ENDED (R227). -/
def endEntry (s : State) (t i : Nat) (e : Entry) : State :=
  if e.origin = .declared then s.modEnt t i (fun e => { e with st := .ended })
  else (s.modTbl t (fun b => { b with entries := amDel b.entries i })).mirror (.entry t i none)

/-- One occurrence has its outcome; the last one ends the entry. -/
def occOutcome (s : State) (t i : Nat) (e : Entry) (outcome detail lateUs : Nat) (last : Bool) : State :=
  let s := actOutcome s t i e outcome detail lateUs last
  if last then endEntry s t i e else s

/-- An entry leaves its table with CANCELLED (R243 to R246). -/
def cancelEntry (s : State) (t i : Nat) (e : Entry) (detail : Nat) : State :=
  ((actOutcome s t i e oCancelled detail 0 true).modTbl t (fun b => { b with entries := amDel b.entries i })).mirror
    (.entry t i none)

/-- The occurrence whose frame was waiting has its outcome (R236, R242). -/
def actFrameDone (s : State) (f : TxFrame) (outcome detail : Nat) : State :=
  match amGet (s.tbl f.table).entries f.entry with
  | none => s
  | some e =>
    if e.gen = f.gen ∧ e.waiting then
      let s := s.modEnt f.table f.entry (fun e => { e with waiting := false })
      let last := e.isLast (e.done - 1)
      occOutcome s f.table f.entry e (if outcome = oDone ∧ 0 < e.late then oLate else outcome) detail (e.late / 1000) last
    else s

/-- A frame ends: sent (status 0), cancelled (2) or otherwise. From channel `n`, or from the hub with 8. -/
def frameEnds (s : State) (n : Nat) (f : TxFrame) (status detail : Nat) (tsq : Bool) (info : Word) : State :=
  if f.table < 9 then
    actFrameDone s f (if status = 0 then oDone else if status = 2 then oCancelled else oFailed)
      (if status = 0 then 0 else if status = 2 then detail else status)
  else if n < 8 then
    sendReport s n { ring := f.ring, flight := f.flight, status := status, tsq := tsq, late := f.late, info := info }
  else finish s f.ring f.flight status tsq f.late info

/-- A frame was sent in full, with its stamp: TS_REQ of basin 0 enters a timestamp queue (R218). -/
def frameSent (s : State) (n : Nat) (f : TxFrame) (stamp : Instant) (valid : Bool) (q target : Nat) : State :=
  if f.tsReq ∧ f.basin = 0 then
    let (s, info) := tsqPush s q stamp valid f.tsTag target
    frameEnds s n f 0 0 true info
  else frameEnds s n f 0 0 false 0

/-- An outcome reaches the hub and its completion follows (R131); over a lost link none does until it returns (R30, R320). -/
def outcomeReportedOp (n : Nat) (s : State) : State :=
  match (if s.linkDown n then [] else (s.ch n).reports) with
  | [] => s
  | r :: t => finish (s.modCh n (fun c => { c with reports := t })) r.ring r.flight r.status r.tsq r.late r.info

/-- Records held in the channel reach the hub (R242). -/
def releaseRecs (s : State) (n : Nat) : State :=
  (s.ch n).heldRecs.foldl (fun s x => raise s x.1 x.2.kind x.2.subject x.2.payload)
    (s.modCh n (fun c => { c with heldRecs := [] }))

/- ### The commands -/

/-- OUTCOME_REPORTED (R131). -/
def execOutcomeReported (ch : Nat) (s : State) : Host.Outcome State Fault Refusal :=
  .next (outcomeReportedOp ch s)

/-- TSQ_POP (R219). -/
def execTsqPop (q : Nat) (s : State) : Host.Outcome State Fault Refusal :=
  .next (ifReaches 0x50114 (tsqPopOp q) s)

end Sys2Proof.Machine
end

