-- ==== Sys2Proof/Machine/Can.lean ====
section
/-! DEFINITION. CAN controllers (chapter 11, R293 to R327): modes and bit timing, the transmit queue and its
ranking, acceptance, decode, retransmission, fault confinement and recovery. -/

namespace Sys2Proof.Machine

/-- An event record from channel `n`: held in the channel while its link is lost (R242). -/
def chRaise (s : State) (n b kind subject : Nat) (payload : List Byte) : State :=
  if (s.ch n).state = .linkLost then
    if (s.ch n).heldRecs.length < 256 then
      s.modCh n (fun c => { c with heldRecs := c.heldRecs ++
        [(b, { kind := kind, subject := subject, payload := payload })] })
    else s.modEv b (fun r => { r with drops := (r.drops + 1) % 2 ^ 32, lost := true })
  else raise s b kind subject payload

/-- As `raiseBoth`, from a channel. -/
def chRaiseBoth (s : State) (n kind subject : Nat) (payload : List Byte) : State :=
  let s := chRaise s n 0 kind subject payload
  if subject = 0 then s else chRaise s n subject kind subject payload

/-- A register of controller `x` of channel `n` (R327). -/
def State.canReg (s : State) (n x o : Nat) : Word := s.reg (chBase n + 0x50000 + 0x10000 * x + o)

/-- FD_EN. -/
def State.fdEn (s : State) (n x : Nat) : Bool := bitN (s.canReg n x 0) 3

/-- DATA_RATE. -/
def State.dataRate (s : State) (n x : Nat) : Nat := fld (s.canReg n x 0) 12 3

/-- The sub-block is at the expert level. -/
def State.canExpert (s : State) (n x : Nat) : Bool := bitN (s.canReg n x 0xFFFC) 0

/- ### Lengths (R294, R296) -/

/-- Data bytes of an FD frame by DLC. -/
def fdLens : List Nat := [0, 1, 2, 3, 4, 5, 6, 7, 8, 12, 16, 20, 24, 32, 48, 64]

/-- The smallest legal FD length that holds `n` bytes, for n ≤ 64. -/
def fdLenUp (n : Nat) : Nat :=
  match fdLens.find? (fun l => n ≤ l) with
  | some l => l
  | none => 64

/-- DLC of a frame with `n` data bytes, `n` a legal length. -/
def dlcOf (n : Nat) : Nat := fdLens.findIdx (fun l => l == n)

/-- R296: the length sent for FRAME_LEN `len`; none: LEN_ERR. -/
def canLen (fdEn fdf rtr : Bool) (len bufLen : Nat) : Option Nat :=
  if fdf then
    if !fdEn || 64 < len || bufLen < len then none else some (fdLenUp len)
  else if 8 < len || (!rtr && bufLen < len) then none
  else some len

/-- The frame of R295 and R296 from the CAN fields of a descriptor and the data read. -/
def canFrameOf (s : State) (n x id : Nat) (ide fdf brs rtr : Bool) (len : Nat) (data : List Byte) : CanFrame :=
  let rtr := rtr && !fdf
  let pad := (s.canReg n x 0xC).truncate 8
  let l := if fdf then fdLenUp len else len
  { id := if ide then id % 2 ^ 29 else id % 2048, ide := ide, fdf := fdf,
    brs := brs && fdf && s.dataRate n x ≠ 0, rtr := rtr, esi := false, dlc := dlcOf l,
    data := if rtr then [] else (data.take len) ++ List.replicate (l - len) pad }

/- ### Bit timing (R301, R302, R306) -/

/-- A timing word of the basic level: the fields less one, as ABT lays them out. -/
def abtWord (q p1 p2 sjw : Nat) : Word :=
  BitVec.ofNat 32 ((p1 - 1) + (p2 - 1) * 2 ^ 8 + (sjw - 1) * 2 ^ 16 + (q - 1) * 2 ^ 23)

/-- As `abtWord`, for DBT. -/
def dbtWord (q p1 p2 sjw ssp ofs : Nat) : Word :=
  BitVec.ofNat 32 ((p1 - 1) + (p2 - 1) * 2 ^ 5 + (sjw - 1) * 2 ^ 9 + (q - 1) * 2 ^ 13 + ssp * 2 ^ 18 + ofs * 2 ^ 19)

/-- ARB_RATE (R306). -/
def arbTiming : Nat → Option Word
  | 0 => some (abtWord 250 63 16 16) | 1 => some (abtWord 125 63 16 16) | 2 => some (abtWord 50 63 16 16)
  | 3 => some (abtWord 25 63 16 16) | 4 => some (abtWord 20 63 16 16) | 5 => some (abtWord 10 63 16 16)
  | 6 => some (abtWord 5 63 16 16) | 7 => some (abtWord 5 39 10 10) | 8 => some (abtWord 5 31 8 8)
  | _ => none

/-- DATA_RATE (R306). -/
def dataTiming : Nat → Option Word
  | 0 => some 0 | 1 => some (dbtWord 5 31 8 8 0 0) | 2 => some (dbtWord 5 15 4 4 1 80)
  | 3 => some (dbtWord 5 7 2 2 1 40) | 4 => some (dbtWord 5 5 2 2 1 30) | _ => none

/-- The timing the registers ask for: from the rate codes at the basic level, from ABT and DBT at the expert
level; none for a reserved code. -/
def canTiming (s : State) (n x : Nat) : Option (Word × Word) :=
  if s.canExpert n x then some (s.canReg n x 0x10, s.canReg n x 0x14)
  else match arbTiming (fld (s.canReg n x 0) 8 4), dataTiming (s.dataRate n x) with
    | some a, some d => some (a, d)
    | _, _ => none

/-- Kernel clocks of an arbitration bit. -/
def arbClocks (a : Word) : Nat := (fld a 23 9 + 1) * (1 + (fld a 0 8 + 1) + (fld a 8 7 + 1))

/-- Kernel clocks of a data-phase bit. -/
def dataClocks (d : Word) : Nat := (fld d 13 5 + 1) * (1 + (fld d 0 5 + 1) + (fld d 5 4 + 1))

/-- R302. -/
def timingOk (fdData : Bool) (a d : Word) : Bool :=
  let p1 := fld a 0 8 + 1
  let p2 := fld a 8 7 + 1
  let sj := fld a 16 7 + 1
  let d1 := fld d 0 5 + 1
  let d2 := fld d 5 4 + 1
  let dj := fld d 9 4 + 1
  2 ≤ p1 && 2 ≤ p2 && sj ≤ p1 && sj ≤ p2 && dj ≤ d1 && dj ≤ d2 &&
  200 ≤ arbClocks a && arbClocks a ≤ 20000 && (!bitN a 15 || 800 ≤ arbClocks a) &&
  (!fdData || (dataClocks d ≤ arbClocks a && 40 ≤ dataClocks d))

/- ### Node map (R316) -/

/-- Entry `j` of the node map is enabled and contains an identifier. -/
def nodeHas (s : State) (n x j id : Nat) (ide : Bool) : Bool :=
  let w0 := s.canReg n x (0x100 + 8 * j)
  bitN w0 31 && bitN w0 29 == ide && fld w0 0 29 ≤ id && id ≤ fld (s.canReg n x (0x104 + 8 * j)) 0 29

/-- The node of an identifier; 0xFE when no entry matches. -/
def canNode (s : State) (n x id : Nat) (ide : Bool) : Nat :=
  match (List.range 64).find? (fun j => nodeHas s n x j id ide) with
  | some j => j
  | none => 0xFE

/- ### Points of an identifier (R298, R299) -/

/-- Points declared on an identifier of a controller. -/
def State.canPoints (s : State) (n x id : Nat) (ide : Bool) : List (Nat × Point) :=
  s.points.filter (fun p => p.2.origin == 0 && p.2.channel == n && p.2.segment == x &&
    p.2.canId == id && p.2.ide == ide)

/-- Bytes a value of a type takes in a frame (R298). -/
def canWidth : Nat → Nat
  | 0 => 1 | 1 | 5 => 2 | 6 => 8 | _ => 4

/-- The value of a point in the data bytes of a frame; none when it lies beyond them. -/
def canValue (p : Point) (data : List Byte) : Option Slot :=
  if data.length < p.byteOfs + canWidth p.type then none
  else
    let v := getLE data p.byteOfs (canWidth p.type)
    some (match p.type with
      | 0 => BitVec.ofNat 64 (v / 2 ^ p.bit % 2)
      | 2 | 3 => (BitVec.ofNat 32 v).signExtend 64
      | _ => BitVec.ofNat 64 v)

/-- Write bytes over a list from an offset. -/
def putBytes (l : List Byte) (o : Nat) (bs : List Byte) : List Byte :=
  l.take o ++ bs ++ l.drop (o + bs.length)

/-- Put the value of a point into an image. -/
def putValue (p : Point) (v : Slot) (img : List Byte) : List Byte :=
  if p.type = 0 then img.modify p.byteOfs (fun b => setBitTo b p.bit (v.toNat % 2 == 1))
  else putBytes img p.byteOfs (bytesLE (canWidth p.type) v.toNat)

/-- Bytes that the declared points of an identifier reach. -/
def imageLen (ps : List (Nat × Point)) : Nat :=
  ps.foldl (fun m p => max m (p.2.byteOfs + canWidth p.2.type)) 0

/-- A writable point that no command has reached yet holds a value the spec does not give: a free value, kept
from then on. -/
def touchImages (s : State) (n x : Nat) (ps : List (Nat × Point)) : State :=
  ps.foldl (fun s p =>
    if p.2.write ≠ 0 ∧ (amGet (s.can n x).images p.1).isNone then
      let v : Slot := (Config.freeWord s.free).append (Config.freeWord (s.free + 1))
      (s.modCan n x (fun c => { c with images := amSet c.images p.1 v })).tick1.tick1
    else s) s

/-- The transmit image of an identifier (R299): PAD, and the latest commanded value of every writable point. -/
def imageBytes (s : State) (n x : Nat) (ps : List (Nat × Point)) : List Byte :=
  let pad := (s.canReg n x 0xC).truncate 8
  let len := fdLenUp (imageLen ps)
  ps.foldl (fun img p =>
    if p.2.write ≠ 0 then
      match amGet (s.can n x).images p.1 with
      | some v => putValue p.2 v img
      | none => img
    else img) (List.replicate len pad)

/-- The image of a point's identifier cannot be sent: it is longer than a classical frame while FD_EN is 0
(R299). -/
def imageTooLong (s : State) (n x : Nat) (p : Point) : Bool :=
  !s.fdEn n x && 8 < imageLen (s.canPoints n x p.canId p.ide)

/- ### The transmit queue (R311) -/

/-- Arbitration order of an identifier: the lower number wins. -/
def canKey (f : CanFrame) : Nat :=
  if f.ide then f.id / 2 ^ 18 * 2 ^ 19 + 2 ^ 18 + f.id % 2 ^ 18 else f.id * 2 ^ 19

/-- `a` ranks before `b`. -/
def canBefore (a b : TxFrame) : Bool :=
  b.prio < a.prio ||
  (a.prio == b.prio && (canKey a.can < canKey b.can || (canKey a.can == canKey b.can && a.order < b.order)))

/-- Insert a frame by rank. -/
def rankInsert (f : TxFrame) : List TxFrame → List TxFrame
  | [] => [f]
  | g :: t => if canBefore f g then f :: g :: t else g :: rankInsert f t

/-- Insert a frame behind an attempt that has won arbitration. -/
def queueInsert (won : Bool) (f : TxFrame) (q : List TxFrame) : List TxFrame :=
  if won then match q with
    | [] => [f]
    | g :: t => g :: rankInsert f t
  else rankInsert f q

/-- The controller refuses transmit work with SEG_DOWN (R307, R322). -/
def Can.down (c : Can) : Bool := c.state = .disabled || c.state = .busOff || c.state = .recovering

/-- A frame is handed to the controller (R311); SEG_DOWN when it takes none. -/
def canEnqueue (s : State) (n x : Nat) (f : TxFrame) : State :=
  if (s.can n x).down then frameEnds s n f 0x11 0 false 0
  else
    let f := { f with order := s.frames }
    { s.modCan n x (fun c => { c with txq := queueInsert c.won f c.txq }) with frames := s.frames + 1 }

/-- A command to a CAN point takes its value into the image and sends the identifier's frame (R299); LEN_ERR
when the image cannot be sent. `f` holds what the frame completes. -/
def canCommand (s : State) (n x h : Nat) (p : Point) (v : Slot) (f : TxFrame) : State :=
  if imageTooLong s n x p then frameEnds s n f 0x0F 0 false 0
  else if (s.can n x).down then frameEnds s n f 0x11 0 false 0
  else
    let ps := s.canPoints n x p.canId p.ide
    let s := touchImages (s.modCan n x (fun c => { c with images := amSet c.images h v })) n x ps
    let data := imageBytes s n x ps
    let fd := s.fdEn n x
    canEnqueue s n x { f with
      points := [(h, 0, 0)],
      can := { id := p.canId, ide := p.ide, fdf := fd, brs := fd && s.dataRate n x ≠ 0, rtr := false,
               esi := false, dlc := dlcOf data.length, data := data } }

/-- The cancel requests that waited for a frame's attempt are answered (R319, R354); `n` 8: a backbone frame. -/
def cancelAnswer (s : State) (n : Nat) (f : TxFrame) (status : Nat) : State :=
  f.cancel.foldl (fun s c =>
    if n < 8 then
      sendReport s n { ring := c.1, flight := c.2, status := status, tsq := false, late := false, info := 0 }
    else finish s c.1 c.2 status false false 0) s

/-- Every queued frame of a list ends with a status, in queue order. -/
def endFrames (s : State) (n : Nat) (fs : List TxFrame) (status detail req : Nat) : State :=
  fs.foldl (fun s f => cancelAnswer (frameEnds s n f status detail false 0) n f req) s

/- ### Fault confinement (R321 to R323) -/

/-- Error code of R327. -/
def canErrCode : CanErr → Nat
  | .none => 0 | .bitR => 1 | .bitD => 2 | .stuff => 3 | .form => 4 | .crc => 5 | .ack => 6

/-- STATE of a controller (R327). -/
def CanState.code : CanState → Nat
  | .disabled => 0 | .integrating => 1 | .errorActive => 2 | .errorPassive => 3 | .busOff => 4 | .recovering => 5

/-- The controller takes part on the bus. -/
def Can.onBus (c : Can) : Bool := c.state = .errorActive || c.state = .errorPassive

/-- The counters move: not in RESTRICTED and LISTEN (R307, R321). -/
def Can.counts (c : Can) : Bool := c.mode ≠ 2 && c.mode ≠ 3

/-- The state the counters give. -/
def faultState (tec rec : Nat) : CanState :=
  if 255 < tec then .busOff else if 128 ≤ tec ∨ 128 ≤ rec then .errorPassive else .errorActive

/-- Apply the state the counters give, with EWARN, and raise what its change raises. -/
def canFaultUpdate (s : State) (n x : Nat) : State :=
  let c := s.can n x
  let st := faultState c.tec c.recv
  let s := s.modCan n x (fun c => { c with state := if c.onBus then st else c.state,
                                           ewarn := 96 ≤ c.tec || 96 ≤ c.recv })
  let head := [BitVec.ofNat 8 n, BitVec.ofNat 8 x]
  let detail := [BitVec.ofNat 8 c.errA, BitVec.ofNat 8 c.errD]
  if !c.onBus || st = c.state then s
  else match st with
    | .errorPassive =>
      chRaise s n 0 0x0402 0 (head ++ [BitVec.ofNat 8 c.tec, BitVec.ofNat 8 c.recv] ++ detail)
    | .errorActive => chRaise s n 0 0x0403 0 (head ++ [BitVec.ofNat 8 c.tec, BitVec.ofNat 8 c.recv])
    | _ =>
      let s := s.modCan n x (fun c =>
        { c with tec := 256, txq := [], won := false, busoffCnt := satInc 65535 c.busoffCnt })
      let s := endFrames s n c.txq 0x11 0 3
      chRaise s n 0 0x0404 0 (head ++ bytesLE 2 c.txq.length ++ detail)

/-- NOACK_RUN after an attempt that ended in an acknowledgement error (R318). -/
def noAck (s : State) (n x : Nat) (f : TxFrame) : State :=
  let s := s.modCan n x (fun c =>
    { c with noackBasin := if c.noack = 0 then f.basin else c.noackBasin, noack := satInc 255 c.noack })
  let c := s.can n x
  if c.noack = 32 then
    let cookie := (((s.ring f.ring).flights.find? (fun g => g.id == f.flight)).bind (fun g => g.cookies.head?)).getD 0
    let cookie := if f.table < 9 then
        (match amGet (s.tbl f.table).entries f.entry with | some e => e.cookie | none => 0) else cookie
    chRaiseBoth s n 0x0401 c.noackBasin ([BitVec.ofNat 8 n, BitVec.ofNat 8 x, BitVec.ofNat 8 c.tec,
      BitVec.ofNat 8 c.state.code] ++ bytesLE 4 (f.can.id + if f.can.ide then 2 ^ 29 else 0) ++
      bytesLE 8 cookie.toNat)
  else s

/-- Record where an error struck (R321, R327). -/
def markErr (c : Can) (err : CanErr) (dataPhase : Bool) : Can :=
  { c with errA := if dataPhase then c.errA else canErrCode err,
           errD := if dataPhase then canErrCode err else c.errD,
           errFrames := (c.errFrames + 1) % 2 ^ 32 }

/-- The bits of a successful reception for the counters: REC falls by 1, or to between 119 and 127 (ISO
11898-1, log 14). -/
def recDown (s : State) (n x : Nat) : State :=
  let c := s.can n x
  if !c.counts || c.recv = 0 then s
  else if c.recv ≤ 127 then canFaultUpdate (s.modCan n x (fun c => { c with recv := c.recv - 1 })) n x
  else
    let v := 119 + (Config.freeByte s.free).toNat % 9
    canFaultUpdate (s.tick1.modCan n x (fun c => { c with recv := v })) n x

/- ### Reception (R297 to R300, R312 to R316) -/

/-- Form of a filter element matches an identifier (R314). -/
def elemMatches (form lo hi i : Nat) : Bool :=
  match form with
  | 1 => lo ≤ i && i ≤ hi
  | 2 => i == lo || i == hi
  | 3 => Nat.land i hi == Nat.land lo hi
  | _ => false

/-- Word `o` of the elements that judge a frame with a start of frame at `stamp`: of the old bank before its switch
(R178). -/
def filterWord (s : State) (n x : Nat) (stamp : Instant) (o : Nat) : Word :=
  let c := s.can n x
  if stamp < c.switched then c.oldElems.getD ((o - 0x1000) / 4) 0 else s.canReg n x o

/-- The queue the filter gives a frame that began at `stamp`; none: rejected. -/
def canFilter (s : State) (n x : Nat) (f : CanFrame) (stamp : Instant) : Option Nat :=
  let word (o : Nat) : Word := filterWord s n x stamp o
  if f.rtr && !bitN (s.canReg n x 0) 5 then none
  else if f.ide then
    ((List.range 64).find? (fun k =>
      let w0 := word (0x1400 + 8 * k)
      let w1 := word (0x1404 + 8 * k)
      elemMatches (fld w1 29 2) (fld w0 0 29) (fld w1 0 29) f.id)).map
      (fun k => fld (word (0x1400 + 8 * k)) 29 3)
  else
    ((List.range 128).find? (fun k =>
      let w := word (0x1000 + 4 * k)
      elemMatches (fld w 3 2) (fld w 5 11) (fld w 16 11) f.id)).map
      (fun k => fld (word (0x1000 + 4 * k)) 0 3)

/-- A queue's share of the channel's 4 MiB frame pool (R170): the pool divided among the active receive queues. -/
def stagingShare (s : State) (n : Nat) : Nat :=
  let queues := (List.range 2).foldl (fun k x => k + (s.can n x).queues.length + (s.seg n x).queues.length) 0
  max 0x20000 (0x400000 / max 1 queues)

/-- Bytes a staged frame takes. -/
def RxFrame.room (f : RxFrame) : Nat := f.payload.length + 20

/-- The receive queue of a channel a frame came through. -/
def RxFrame.queueKey (f : RxFrame) : Nat := 256 * f.target + f.queue

/-- Frames of a staging list, oldest first, that find neither room in their queue's share nor in `spill` bytes: they stay
in their receive queues (R312). -/
def overflowing (share : Nat) : List (Nat × RxFrame) → AMap Nat → Nat → List RxFrame
  | [], _, _ => []
  | p :: t, used, spill =>
    let u := (amGet used p.2.queueKey).getD 0 + p.2.room
    if u ≤ share then overflowing share t (amSet used p.2.queueKey u) spill
    else if p.2.room ≤ spill then overflowing share t used (spill - p.2.room)
    else p.2 :: overflowing share t used spill

/-- Bytes channel `n` holds in the spill pool. -/
def spillUsed (s : State) (n : Nat) : Nat :=
  (overflowing (stagingShare s n) (s.ch n).staged [] 0).foldl (fun k f => k + f.room) 0

/-- Bytes of the module's 256 MiB spill pool that channel `n` can use: none while its link is lost (R170, R312). -/
def spillCap (s : State) (n : Nat) : Nat :=
  if (s.ch n).state = .linkLost then 0
  else 0x10000000 - (List.range 8).foldl (fun k m => if m = n then k else k + spillUsed s m) 0

/-- Frames that stay in receive queues of channel `n`. -/
def stuckAll (s : State) (n : Nat) : List RxFrame :=
  overflowing (stagingShare s n) (s.ch n).staged [] (spillCap s n)

/-- Those of target `t`. -/
def stuckFrames (s : State) (n t : Nat) : List RxFrame := (stuckAll s n).filter (fun f => f.target == t)

/-- A frame finds no staging: neither its queue's share nor the spill pool has room for it (R170). -/
def stagingFull (s : State) (n : Nat) (f : RxFrame) : Bool :=
  decide (stagingShare s n < ((s.ch n).staged.filter (fun p => p.2.queueKey == f.queueKey)).foldl
    (fun k p => k + p.2.room) f.room) && decide (spillCap s n < spillUsed s n + f.room)

/-- A raw frame is staged for the rings of its destination set; dropped at a full queue (R312). -/
def canStage (s : State) (n x q : Nat) (f : RxFrame) (rings : List Nat) : State :=
  let stuck := stuckFrames s n (4 * n + x)
  let inQ := (stuck.filter (fun g => g.queue == q)).length
  let s := if inQ = 0 then s.modCan n x (fun c => { c with rxTold := c.rxTold.filter (fun k => !(k == q)) }) else s
  if 32 ≤ inQ ∨ 112 ≤ stuck.length then
    let told := (s.can n x).rxTold.contains q
    let s := s.modCan n x (fun c => { c with
      rxqDrops := (c.rxqDrops + 1) % 2 ^ 32, rxTold := if told then c.rxTold else c.rxTold ++ [q] })
    if told then s
    else chRaise s n 0 0x0406 0 ([BitVec.ofNat 8 n, BitVec.ofNat 8 x, BitVec.ofNat 8 q, 0] ++
      bytesLE 4 (s.can n x).rxqDrops)
  else s.modCh n (fun c => { c with staged := c.staged ++ rings.map (fun k => (k, f)) })

/-- Decode of an accepted data frame: one acquisition of every point declared on its identifier (R298). -/
def canDecode (s : State) (n x : Nat) (f : CanFrame) (stamp : Instant) : State :=
  (s.canPoints n x f.id f.ide).foldl (fun s p =>
    match canValue p.2 f.data with
    | some v => acquire s p.1 v 1 stamp
    | none => acquire s p.1 (s.ownValue p.1) 2 stamp) s

/-- Data bytes a frame delivers (R297). -/
def rxCanFrame (f : CanFrame) : CanFrame :=
  if f.rtr then { f with data := [] } else if f.fdf then f else { f with data := f.data.take 8 }

/-- A key for an identifier in `silent`. -/
def idKey (id : Nat) (ide : Bool) : Nat := id + if ide then 2 ^ 29 else 0

/-- A frame that ended without error meets the filter (R297, R312, R314). -/
def canAccept (s : State) (n x : Nat) (f0 : CanFrame) (stamp : Instant) : State :=
  let f := rxCanFrame f0
  match canFilter s n x f stamp with
  | none => s.modCan n x (fun c => { c with rxRej := (c.rxRej + 1) % 2 ^ 32 })
  | some q =>
    let node := canNode s n x f.id f.ide
    let s := s.modCan n x (fun c =>
      { c with rxOk := (c.rxOk + 1) % 2 ^ 32, silent := c.silent.filter (fun k => !(k == idKey f.id f.ide)),
               lostNodes := c.lostNodes.filter (fun j => !(nodeHas s n x j f.id f.ide)) })
    let c := s.can n x
    let dest := (if stamp < c.switched then c.oldQueues else c.queues).getD q (false, [])
    let s := if dest.1 && !f.rtr then canDecode s n x f stamp else s
    if dest.2.isEmpty then s
    else canStage s n x q { target := 4 * n + x, node := node, can := some f, bytes := [], stamp := stamp,
                            timeValid := (s.ch n).tb.valid, queue := q } dest.2

/-- A frame is received (R297): FD frames only while FD_EN is 1. -/
def canRxOp (n x : Nat) (f : CanFrame) (stamp : Instant) (s : State) : State :=
  let c := s.can n x
  if c.onBus && (!f.fdf || s.fdEn n x) then
    let s := s.modCan n x (fun c => { c with noack := 0 })
    canAccept (recDown s n x) n x f stamp
  else s

/-- No frame with an identifier for NODE_TMO (R300). -/
def canNodeTmoOp (n x id : Nat) (ide : Bool) (s : State) : State :=
  let c := s.can n x
  let ps := s.canPoints n x id ide
  if c.state = .disabled || fld (s.canReg n x 0x38) 0 16 = 0 || ps.isEmpty || c.silent.contains (idKey id ide) then s
  else
    let s := s.modCan n x (fun c => { c with silent := c.silent ++ [idKey id ide] })
    let s := ps.foldl (fun s p => acquire s p.1 (s.ownValue p.1) 3 (s.chNow n)) s
    (List.range 64).foldl (fun s j =>
      if nodeHas s n x j id ide && !(s.can n x).lostNodes.contains j &&
          s.points.all (fun p => !(p.2.inEffect && p.2.origin == 0 && p.2.channel == n && p.2.segment == x &&
            nodeHas s n x j p.2.canId p.2.ide) || (s.can n x).silent.contains (idKey p.2.canId p.2.ide)) then
        chRaise (s.modCan n x (fun c => { c with lostNodes := c.lostNodes ++ [j] })) n 0 0x0408 0
          [BitVec.ofNat 8 n, BitVec.ofNat 8 x, BitVec.ofNat 8 j]
      else s) s

/- ### Modes (R307 to R309) -/

/-- The mode the controller is to run in: RESTRICTED on a STANDBY or SYNCING module, whatever MODE holds
(R400), and in a stopped channel (R421). -/
def wantedMode (s : State) (n x : Nat) : Nat :=
  let m := fld (s.canReg n x 0) 0 3
  if s.standby || (s.ch n).stopped then 2 else m

/-- A mode change and new timing take effect (R302, R308, R309). -/
def canApply (s : State) (n x : Nat) : State :=
  let c := s.can n x
  let m := wantedMode s n x
  let fdData := s.fdEn n x && s.dataRate n x ≠ 0
  let ok := (match canTiming s n x with | some t => timingOk fdData t.1 t.2 | none => false)
  let t := if ok then (canTiming s n x).getD (c.abt, c.dbt) else (c.abt, c.dbt)
  let fresh := c.state = .disabled || t ≠ (c.abt, c.dbt)
  let s := s.modCan n x (fun c =>
    { c with mode := m, modeWant := m, pendingMode := false, cfgErr := !ok, abt := t.1, dbt := t.2,
             loopDly := if m = c.mode then c.loopDly else none,
             state := if m = 0 then .disabled else if fresh then .integrating else c.state })
  if m = 0 then
    endFrames (s.modCan n x (fun c => { c with txq := [], won := false })) n c.txq 2 0x2A 0
  else s

/-- CTL written (R307): a reserved MODE, and a loop-back mode at the basic level, is refused with CFG_ERR. -/
def canCtlOp (n x : Nat) (data : Word) (s : State) : State :=
  let key := chBase n + 0x50000 + 0x10000 * x
  let old := s.reg key
  let m := fld data 0 3
  let bad := 6 ≤ m || (4 ≤ m && !s.canExpert n x)
  let w := data &&& 0x7F2F
  let w := if bad then (w &&& ~~~7) ||| (old &&& 7) else w
  let s := s.setReg key w
  let s := s.modCan n x (fun c =>
    { c with cfgErr := c.cfgErr || bad, modeWant := wantedMode s n x, pendingMode := c.pendingMode || w ≠ old })
  if bitN data 4 && (s.can n x).state = .busOff then s.modCan n x (fun c => { c with state := .recovering }) else s

/-- RECOVER (R323). -/
def recoverOp (n x : Nat) (s : State) : State :=
  if (s.can n x).state = .busOff then s.modCan n x (fun c => { c with state := .recovering }) else s

/-- Bus idle: what waits takes effect; not while BUS_OFF or RECOVERING (R308, R323). -/
def canModeOp (n x : Nat) (s : State) : State :=
  let c := s.can n x
  if c.pendingMode && !c.won && !(c.state = .busOff) && !(c.state = .recovering) then canApply s n x else s

/-- Integration ends (R308). -/
def canIntegrateOp (n x : Nat) (s : State) : State :=
  if (s.can n x).state = .integrating then
    s.modCan n x (fun c => { c with state := faultState (min 255 c.tec) c.recv })
  else s

/-- Recovery ends (R323): what waited for it takes effect. -/
def canBusOnOp (n x us : Nat) (s : State) : State :=
  if (s.can n x).state = .recovering then
    let s := s.modCan n x (fun c => { c with state := .errorActive, tec := 0, recv := 0, ewarn := false })
    let s := chRaise s n 0 0x0405 0 ([BitVec.ofNat 8 n, BitVec.ofNat 8 x] ++ bytesLE 4 us)
    if (s.can n x).pendingMode then canApply s n x else s
  else s

/- ### Transmission (R317 to R322) -/

/-- The controller sends (R307). -/
def Can.sends (c : Can) : Bool := c.onBus && (c.mode = 1 || c.mode = 4 || c.mode = 5)

/-- The last bit of the arbitration field (R319). -/
def canArbOp (n x : Nat) (won : Bool) (s : State) : State :=
  let c := s.can n x
  if c.won || !c.sends then s
  else match c.txq with
    | [] => s
    | f :: t =>
      let q := if won then t else f :: t
      let keep := q.filter (fun g => g.cancel.isEmpty)
      endFrames (s.modCan n x (fun c => { c with won := won, txq := if won then f :: keep else keep })) n
        (q.filter (fun g => !g.cancel.isEmpty)) 2 0x29 0

/-- A frame is sent (R317, R325): the points it carries take their commanded values (R299). -/
def canTxOkOp (n x : Nat) (stamp : Instant) (dly : Option Nat) (s : State) : State :=
  let c := s.can n x
  if !c.won || !c.sends then s
  else match c.txq with
    | [] => s
    | f :: t =>
      let s := s.modCan n x (fun c =>
        { c with txq := t, won := false, txOk := (c.txOk + 1) % 2 ^ 32, noack := 0, tec := c.tec - 1,
                 loopDly := match dly with | some d => some (d % 256) | none => c.loopDly })
      let s := if c.mode = 4 then s else s.emit (.canFrame n x f.can)
      let s := canFaultUpdate s n x
      let s := f.points.foldl (fun s p =>
        match amGet s.points p.1 with
        | some pt =>
          (match canValue pt f.can.data with
          | some v => acquire s p.1 v 1 stamp
          | none => s)
        | none => s) s
      let s := frameSent s n f stamp (s.ch n).tb.valid (2 + n) (4 * n + x)
      let s := cancelAnswer s n f 3
      if 4 ≤ c.mode then canAccept s n x f.can stamp else s

/-- An attempt ends in an error (R318, R319, R321, R322). -/
def canTxErrOp (n x : Nat) (err : CanErr) (dataPhase dominant : Bool) (s : State) : State :=
  let c := s.can n x
  if !c.sends || (c.mode = 5 && err = .ack) then s
  else match c.txq with
    | [] => s
    | f :: t =>
      let quiet := c.state = .errorPassive && err = .ack && !dominant
      let s := s.modCan n x (fun c =>
        { markErr c err dataPhase with won := false, tec := if quiet then c.tec else c.tec + 8 })
      let s := if err = .ack then noAck s n x f else s
      let s := canFaultUpdate s n x
      if (s.can n x).state = .busOff then s
      else if !f.cancel.isEmpty then
        endFrames (s.modCan n x (fun c => { c with txq := t })) n [f] 2 0x29 (if c.won then 3 else 0)
      else if f.ring < 1024 ∧ (s.ring f.ring).state = .disabling then
        endFrames (s.modCan n x (fun c => { c with txq := t })) n [f] 2 0x2A 0
      else s

/-- An error while receiving (R321). -/
def canRxErrOp (n x : Nat) (err : CanErr) (dataPhase severe : Bool) (s : State) : State :=
  let c := s.can n x
  if !c.onBus then s
  else
    let s := s.modCan n x (fun c =>
      { markErr c err dataPhase with
        recv := if c.counts then min 255 (c.recv + if severe then 8 else 1) else c.recv })
    canFaultUpdate s n x

/-- An FD frame while FD_EN is 0 (R324). -/
def canProtoOp (n x : Nat) (s : State) : State :=
  let c := s.can n x
  if s.fdEn n x || !c.onBus then s
  else
    let s := s.modCan n x (fun c => { c with fdExc := satInc 0xFFFFFFFF c.fdExc, state := .integrating })
    if c.fdExc = 0 then
      chRaise s n 0 0x0407 0 ([BitVec.ofNat 8 n, BitVec.ofNat 8 x, 0, 0] ++ bytesLE 4 (s.can n x).fdExc)
    else s

/- ### The commands -/

/-- CAN_CTL_WRITE (R307). -/
def execCanCtlWrite (ch x : Nat) (data : Word) (s : State) : Host.Outcome State Fault Refusal :=
  .next (ifReaches (chBase ch + 0x50000) (canCtlOp ch x data) s)

/-- RECOVER (R323). -/
def execRecover (ch x : Nat) (s : State) : Host.Outcome State Fault Refusal :=
  .next (ifReaches (chBase ch + 0x50000) (recoverOp ch x) s)

/-- CAN_MODE_APPLIED (R308). -/
def execCanModeApplied (ch x : Nat) (s : State) : Host.Outcome State Fault Refusal :=
  .next (canModeOp ch x s)

/-- CAN_INTEGRATION_DONE (R308). -/
def execCanIntegrationDone (ch x : Nat) (s : State) : Host.Outcome State Fault Refusal :=
  .next (canIntegrateOp ch x s)

/-- CAN_FRAME_RECEIVED (R297, R325). -/
def execCanFrameReceived (ch x : Nat) (frame : CanFrame) (ago : Nat) (s : State) : Host.Outcome State Fault Refusal :=
  .next (canRxOp ch x frame (s.chStamp ch ago) s)

/-- CAN_ARBITRATION_END (R319). -/
def execCanArbitrationEnd (ch x : Nat) (won : Bool) (s : State) : Host.Outcome State Fault Refusal :=
  .next (canArbOp ch x won s)

/-- CAN_TX_SUCCESS (R305, R317). -/
def execCanTxSuccess (ch x : Nat) (ago : Nat) (loopDelay : Option Nat) (s : State) : Host.Outcome State Fault Refusal :=
  .next (canTxOkOp ch x (s.chStamp ch ago) loopDelay s)

/-- CAN_TX_ERROR (R321). -/
def execCanTxError (ch x : Nat) (err : CanErr) (dataPhase dominant : Bool) (s : State) : Host.Outcome State Fault Refusal :=
  .next (canTxErrOp ch x err dataPhase dominant s)

/-- CAN_BUS_ON (R323). -/
def execCanBusOn (ch x us : Nat) (s : State) : Host.Outcome State Fault Refusal :=
  .next (canBusOnOp ch x us s)

/-- CAN_NODE_TIMEOUT (R300). -/
def execCanNodeTimeout (ch x id : Nat) (ide : Bool) (s : State) : Host.Outcome State Fault Refusal :=
  .next (canNodeTmoOp ch x id ide s)

/-- CAN_PROTO_EXC (R324). -/
def execCanProtoExc (ch x : Nat) (s : State) : Host.Outcome State Fault Refusal :=
  .next (canProtoOp ch x s)

/-- CAN_RX_ERROR (R321). -/
def execCanRxError (ch x : Nat) (err : CanErr) (dataPhase severe : Bool) (s : State) : Host.Outcome State Fault Refusal :=
  .next (canRxErrOp ch x err dataPhase severe s)

end Sys2Proof.Machine
end

