-- ==== Sys2Proof/Machine/Net.lean ====
section
/-! DEFINITION. The backbone ports NET-A and NET-B (chapter 12, R328 to R350): link, queues, preemption,
PAUSE, reception. -/

namespace Sys2Proof.Machine

/-- A register of backbone port `p` (R365). -/
def State.netReg (s : State) (p o : Nat) : Word := s.reg (0x60000 + 0x10000 * p + o)

/-- Address of port `i` of this module (R365), in the order of transmission. -/
def portMac (s : State) (i : Nat) : List Byte := bytesBE 6 (s.ident.macBase + i)

/-- Count an event of R363 on a backbone port. -/
def netCount (s : State) (p o : Nat) : State :=
  s.modNet p (fun c =>
    { c with cnts := amSet c.cnts o (((match amGet c.cnts o with | some v => v | none => 0) + 1) % 2 ^ 32) })

/-- Set a cause bit of HUB_NETx_INT (R365). -/
def netInt (s : State) (p i : Nat) : State := s.intBit (0x60020 + 0x10000 * p) i (3 + p)

/-- MAXFRAME of a sub-block at a key (R336). -/
def maxFrame (w : Word) : Nat := fld w 0 12

/-- The EtherType of a frame. -/
def etherType (b : List Byte) : Nat := 256 * (b.getD 12 0).toNat + (b.getD 13 0).toNat

/-- R337: the length sent for FRAME_LEN `len`; none: LEN_ERR. -/
def ethLen (maxF len : Nat) (padEn : Bool) : Option Nat :=
  if len < 14 ∨ maxF < len + 4 then none else if len < 60 then (if padEn then some 60 else none) else some len

/-- The address of PAUSE and the MAC control frames. -/
def pauseMac : List Byte := [0x01, 0x80, 0xC2, 0x00, 0x00, 0x01]

/-- A frame software may not send on a backbone port (R341). -/
def macControl (b : List Byte) : Bool := etherType b = 0x8808 || b.take 6 = pauseMac

/-- NETx_LINK_N (R516): low while the link is up. -/
def State.netLinkN (s : State) (p : Nat) : Bool := !(s.net p).up

/-- NETx_ACT_N pulses low at a frame sent or received (R516). -/
def netAct (s : State) (p : Nat) : State := s.emit (.netAct p)

/-- Preemption is active on the port (R344). -/
def preemptActive (s : State) (p : Nat) : Bool :=
  bitN (s.netReg p 0) 6 && ((s.net p).verify = .succeeded || bitN (s.netReg p 0x18) 3)

/-- Insert a frame by PRIO, then arrival (R332, R357). -/
def prioInsert (f : TxFrame) : List TxFrame → List TxFrame
  | [] => [f]
  | g :: t => if g.prio < f.prio then f :: g :: t else g :: prioInsert f t

/-- The port may begin a frame: link up, not paused (R340). -/
def netFree (s : State) (p : Nat) : Bool := (s.net p).up && (s.net p).wire.isNone && (s.net p).pauseQ = 0

/-- At a frame boundary the next frame begins: express frames first, then a suspended frame, then a preemptable
frame (R332, R346, R348). With EN 0 only a suspended frame goes on (R331). -/
def netKick (s : State) (p : Nat) : State :=
  let c := s.net p
  let en := bitN (s.netReg p 0) 0
  if !netFree s p then s
  else match en, c.express with
    | true, f :: t => s.modNet p (fun c => { c with wire := some f, express := t })
    | _, _ =>
      match c.suspended with
      | some f => if c.hold then s else s.modNet p (fun c => { c with wire := some f, suspended := none })
      | none =>
        match en, c.preempt with
        | true, f :: t => if c.hold then s else s.modNet p (fun c => { c with wire := some f, preempt := t })
        | _, _ => s

/-- A preemptable frame on the wire is preempted at its first allowed boundary (R345). Whether one remains
depends on how far the frame has come, which no command tells: a free value. -/
def netPreempt (s : State) (p : Nat) : State :=
  match (s.net p).wire with
  | none => s
  | some f =>
    if f.preempt ∧ preemptActive s p ∧ 64 * (1 + fld (s.netReg p 0x18) 1 2) + 60 ≤ f.bytes.length + 4 then
      let s' := s.tick1
      if (Config.freeByte s.free).getLsbD 0 then
        netCount (s'.modNet p (fun c => { c with wire := none, suspended := some f })) p 0x438
      else s'
    else s

/-- A frame is handed to the port (R330 to R332, R345). -/
def netEnqueue (s : State) (p : Nat) (f : TxFrame) : State :=
  if !(s.net p).up || !bitN (s.netReg p 0) 0 then frameEnds s 8 f 0x11 0 false 0
  else
    let f := { f with order := s.frames }
    let s := { s.modNet p (fun c =>
      if f.preempt then { c with preempt := prioInsert f c.preempt }
      else { c with express := prioInsert f c.express }) with frames := s.frames + 1 }
    netKick (if f.preempt then s else netPreempt s p) p

/-- NET_LINK (R364). -/
def netLinkRec (s : State) (p : Nat) : State :=
  let c := s.net p
  netInt (raise s 0 0x0411 0 [BitVec.ofNat 8 p, if c.up then 1 else 0, BitVec.ofNat 8 c.speed,
    BitVec.ofNat 8 ((if c.pauseRx then 1 else 0) + if c.pauseTx then 2 else 0)]) p 0

/-- Verification starts or stops as R344 asks. -/
def netVerifyStart (s : State) (p : Nat) : State :=
  if bitN (s.netReg p 0) 6 && !bitN (s.netReg p 0x18) 3 then
    if (s.net p).up then
      (s.modNet p (fun c => { c with verify := .verifying, attempts := 1 })).emit (.verify p)
    else s.modNet p (fun c => { c with verify := .initial, attempts := 0 })
  else s.modNet p (fun c => { c with verify := .disabled, attempts := 0 })

/-- The link comes up (R329, R343, R344). -/
def netUpOp (p speed : Nat) (rx tx : Bool) (s : State) : State :=
  if bitN (s.netReg p 0) 0 ∧ !(s.net p).up then
    let s := s.modNet p (fun c => { c with up := true, speed := speed, pauseRx := rx, pauseTx := tx,
                                           linkCnt := satInc 255 c.linkCnt, poweredDown := false })
    netVerifyStart (netLinkRec s p) p
  else s

/-- The link goes down (R330). -/
def netDownOp (p : Nat) (s : State) : State :=
  let c := s.net p
  if !c.up then s
  else
    let lost := c.wire.toList ++ c.suspended.toList
    let s := s.modNet p (fun c =>
      { c with up := false, speed := 0, pauseRx := false, pauseTx := false, pauseQ := 0, xoff := false,
               hold := false, wire := none, suspended := none, express := [], preempt := [], reasm := none })
    let s := lost.foldl (fun s f => netCount (cancelAnswer (frameEnds s 8 f 0x11 0 false 0) 8 f 3) p 0x424) s
    let s := if lost.isEmpty then s else netInt s p 3
    let s := endFrames s 8 (c.express ++ c.preempt) 0x11 0 3
    let s := s.modNet p (fun c => { c with
      attempts := 0,
      verify := if bitN (s.netReg p 0) 6 && !bitN (s.netReg p 0x18) 3 then .initial else .disabled })
    netLinkRec s p

/-- EN = 0 takes effect at the frame boundary (R331). -/
def netDisableOp (p : Nat) (s : State) : State :=
  let c := s.net p
  if bitN (s.netReg p 0) 0 || c.wire.isSome || c.suspended.isSome then s
  else
    let s := endFrames (s.modNet p (fun c => { c with express := [], preempt := [] })) 8
      (c.express ++ c.preempt) 2 0x2A 0
    (netDownOp p s).modNet p (fun c => { c with poweredDown := true })

/-- Bytes in the receive buffer (R335). -/
def rxHeld (c : NetPort) : Nat := c.rx.foldl (fun n f => n + f.bytes.length + 4) 0

/-- XOFF_THR and XON_THR in bytes (R342, R365). -/
def xoffThr (s : State) (p : Nat) : Nat := fld (s.netReg p 0xC) 16 7 * 1024
def xonThr (s : State) (p : Nat) : Nat :=
  let x := fld (s.netReg p 0xC) 24 7 * 1024
  if x < xoffThr s p then x else xoffThr s p - 8192

/-- Send an XOFF (R342). -/
def sendXoff (s : State) (p : Nat) : State :=
  netCount (netAct (s.emit (.pause p (max 1 (fld (s.netReg p 0xC) 0 16)))) p) p 0x42C

/-- XOFF begins when the buffer reaches its threshold, or FORCE_XOFF is 1 (R342). -/
def netFlow (s : State) (p : Nat) : State :=
  let c := s.net p
  if c.pauseTx && c.up && !c.xoff && (bitN (s.netReg p 0) 8 || xoffThr s p ≤ rxHeld c) then
    sendXoff (s.modNet p (fun c => { c with xoff := true })) p
  else s

/-- Half of PAUSE_TIME has passed in XOFF (R342). -/
def xoffRepeatOp (p : Nat) (s : State) : State :=
  let c := s.net p
  if c.xoff && (bitN (s.netReg p 0) 8 || xonThr s p ≤ rxHeld c) then sendXoff s p else s

/-- The buffer has fallen below XON_THR (R342). -/
def xonOp (p : Nat) (s : State) : State :=
  let c := s.net p
  if c.xoff && !bitN (s.netReg p 0) 8 && rxHeld c < xonThr s p then
    netCount (netAct ((s.modNet p (fun c => { c with xoff := false })).emit (.pause p 0)) p) p 0x42C
  else s

/-- A PAUSE frame is received (R339, R340, R347). -/
def pauseRxOp (p quanta : Nat) (s : State) : State :=
  let s := netCount s p 0x428
  if (s.net p).pauseRx then
    let s := s.modNet p (fun c => { c with pauseQ := quanta % 65536 })
    if quanta % 65536 = 0 then netKick s p else netPreempt s p
  else s

/-- The pause timer expires (R339). -/
def pauseExpiryOp (p : Nat) (s : State) : State :=
  if (s.net p).pauseQ = 0 then s else netKick (s.modNet p (fun c => { c with pauseQ := 0 })) p

/-- A frame has been sent (R332, R333, R346, R348). -/
def netTxDoneOp (p : Nat) (stamp : Instant) (s : State) : State :=
  match (s.net p).wire with
  | none => s
  | some f =>
    let s := s.modNet p (fun c =>
      { c with wire := none, hold := c.hold && (f.preempt || 9 ≤ f.table) })
    let s := netCount (netAct (s.emit (.ethFrame (32 + p) (f.bytes ++ bytesLE 4 (Config.crc32 f.bytes).toNat))) p) p 0x400
    let s := frameSent s 8 f stamp s.timeValid p (32 + p)
    netKick (cancelAnswer s 8 f 3) p

/-- A verify mPacket is received (R344). -/
def verifyRxOp (p : Nat) (s : State) : State :=
  if bitN (s.netReg p 0) 6 then s.emit (.respond p) else s

/-- NET_VERIFY (R364). -/
def netVerifyRec (s : State) (p code : Nat) : State :=
  netInt (raise s 0 0x0412 0 [BitVec.ofNat 8 p, BitVec.ofNat 8 code, BitVec.ofNat 8 (s.net p).attempts]) p 1

/-- A respond mPacket is received (R344). -/
def verifyRespOp (p : Nat) (s : State) : State :=
  if (s.net p).verify = .verifying then
    netVerifyRec (s.modNet p (fun c => { c with verify := .succeeded })) p 3
  else s

/-- VERIFY_TIME has passed without a response (R344). -/
def verifyTmoOp (p : Nat) (s : State) : State :=
  if (s.net p).verify = .verifying then
    if (s.net p).attempts < 3 then
      (s.modNet p (fun c => { c with attempts := c.attempts + 1 })).emit (.verify p)
    else netVerifyRec (s.modNet p (fun c => { c with verify := .failed })) p 4
  else s

/-- HOLD_ADV before an express frame at its instant (R348). -/
def holdOp (p : Nat) (s : State) : State :=
  if fld (s.netReg p 0x18) 16 16 = 0 then s
  else netPreempt (s.modNet p (fun c => { c with hold := true })) p

/- ### Reception -/

/-- PTP multicast addresses of IEEE 1588 (R334, log 16). -/
def ptpMac (d : List Byte) : Bool :=
  d = [0x01, 0x1B, 0x19, 0x00, 0x00, 0x00] || d = [0x01, 0x80, 0xC2, 0x00, 0x00, 0x0E]

/-- Ethernet addresses of the PTP groups 224.0.1.129 and 224.0.0.107 of IEEE 1588 (R211, log 16). -/
def ptpUdpMac (d : List Byte) : Bool :=
  d = [0x01, 0x00, 0x5E, 0x00, 0x01, 0x81] || d = [0x01, 0x00, 0x5E, 0x00, 0x00, 0x6B]

/-- PTP_EN (R213). -/
def State.ptpEn (s : State) : Bool := bitN (s.reg 0x50080) 0

/-- PTP runs over UDP on IPv4: the default profile with UDP set (R211, R222). -/
def State.ptpUdp (s : State) : Bool := s.ptpEn && bitN (s.reg 0x50080) 7 && !bitN (s.reg 0x50080) 1

/-- The bytes of a frame from its own EtherType on: a first VLAN tag is skipped. -/
def etherBody (b : List Byte) : List Byte := if etherType b = 0x8100 then b.drop 16 else b.drop 12

/-- A UDP datagram over IPv4 to a PTP port, 319 or 320 (Annex C of IEEE 1588; R211, log 16). -/
def udpPtp (b : List Byte) : Bool :=
  let e := etherBody b
  let u := 2 + (e.getD 2 0).toNat % 16 * 4
  let dest := 256 * (e.getD (u + 2) 0).toNat + (e.getD (u + 3) 0).toNat
  e.take 2 = [0x08, 0x00] && e.getD 11 0 = 17 && (dest = 319 || dest = 320)

/-- The address filter (R334). -/
def netAddrOk (s : State) (p : Nat) (d : List Byte) : Bool :=
  bitN (s.netReg p 0x18) 0 || d = portMac s p || d = List.replicate 6 0xFF || (s.ptpEn && ptpMac d) || (s.ptpUdp && ptpUdpMac d) ||
  (List.range 32).any (fun j =>
    bitN (s.netReg p (0x104 + 8 * j)) 31 &&
    d = bytesLE 4 (s.netReg p (0x100 + 8 * j)).toNat ++ bytesLE 2 (fld (s.netReg p (0x104 + 8 * j)) 0 16))

/-- The VLAN filter (R334). -/
def netVlanOk (s : State) (p : Nat) (b : List Byte) : Bool :=
  let vid := (256 * (b.getD 14 0).toNat + (b.getD 15 0).toNat) % 4096
  !bitN (s.netReg p 0) 7 || etherType b ≠ 0x8100 || vid = 0 ||
  (List.range 16).any (fun j =>
    bitN (s.netReg p (0x200 + 4 * j)) 31 && fld (s.netReg p (0x200 + 4 * j)) 0 12 = vid)

/-- The first tag's EtherType is skipped to the frame's own. -/
def innerType (b : List Byte) : Nat := if etherType b = 0x8100 then etherType (b.drop 4) else etherType b

/-- An update frame the port accepts (R499): NET_EN of the port, EtherType 0x88B6, addressed to it. -/
def updFrame (s : State) (p : Nat) (b : List Byte) : Bool :=
  bitN (s.reg 0xB002C) p && etherType b = 0x88B6 && b.take 6 = portMac s p

/-- A frame that passed every filter enters the receive buffer (R335). -/
def netStage (s : State) (p : Nat) (b : List Byte) (stamp : Instant) : State :=
  let c := s.net p
  let s := if c.rx.isEmpty then s.modNet p (fun c => { c with rxTold := false }) else s
  if 131072 < rxHeld c + b.length + 4 then
    let s := netCount s p 0x418
    if (s.net p).rxTold then s
    else
      let n := (match amGet (s.net p).cnts 0x418 with | some v => v | none => 0)
      netInt (raise (s.modNet p (fun c => { c with rxTold := true })) 0 0x0413 0
        ([BitVec.ofNat 8 p, 0, 0, 0] ++ bytesLE 4 n)) p 2
  else
    netFlow (netCount (s.modNet p (fun c => { c with rx := c.rx ++
      [{ target := 32 + p, node := 0xFF, can := none, bytes := b, stamp := stamp, timeValid := s.timeValid,
         queue := 0 }] })) p 0x404) p

/-- A whole frame is judged (R334, R336, R339, R341, R213, R499). -/
def netJudge (s : State) (p : Nat) (f : EthFrame) (stamp : Instant) : State :=
  let s := netAct s p
  let size := f.bytes.length + 4
  if size < 64 then netCount s p 0x408
  else if maxFrame (s.netReg p 8) < size then netCount s p 0x40C
  else if !f.fcsOk then netCount s p 0x410
  else
    let d := f.bytes.take 6
    let op := 256 * (f.bytes.getD 14 0).toNat + (f.bytes.getD 15 0).toNat
    if etherType f.bytes = 0x8808 ∧ op ≠ 1 then netCount s p 0x430
    else if etherType f.bytes = 0x8808 ∧ (d = pauseMac ∨ d = portMac s p) then
      pauseRxOp p (256 * (f.bytes.getD 16 0).toNat + (f.bytes.getD 17 0).toNat) s
    else if !netAddrOk s p d then netCount s p 0x414
    else if !netVlanOk s p f.bytes then netCount s p 0x434
    else if (s.ptpEn && innerType f.bytes = 0x88F7) || (s.ptpUdp && udpPtp f.bytes) || updFrame s p f.bytes then netCount s p 0x404
    else netStage s p f.bytes stamp

/-- A reassembly ends in an error (R349). -/
def reasmErr (s : State) (p : Nat) : State := netCount (s.modNet p (fun c => { c with reasm := none })) p 0x43C

/-- What the receiver takes in (R334, R336, R349). -/
def netRxOp (p : Nat) (rx : NetRx) (stamp : Instant) (s : State) : State :=
  if !(s.net p).up then s
  else match rx with
    | .express f => netJudge s p f stamp
    | .mStart f inSeq crcOk =>
      if !bitN (s.netReg p 0) 6 || !inSeq || !crcOk then reasmErr s p
      else s.modNet p (fun c => { c with reasm := some f })
    | .mCont bytes inSeq crcOk last =>
      match (s.net p).reasm with
      | none => reasmErr s p
      | some f =>
        if !bitN (s.netReg p 0) 6 || !inSeq || !crcOk then reasmErr s p
        else
          let f := { f with bytes := f.bytes ++ bytes }
          if last then netJudge (s.modNet p (fun c => { c with reasm := none })) p f stamp
          else s.modNet p (fun c => { c with reasm := some f })

/-- A reassembly lasts longer than one maximum frame time (R349). -/
def reasmTmoOp (p : Nat) (s : State) : State := if (s.net p).reasm.isSome then reasmErr s p else s

/-- HUB_NETx_CTL has been written (R329, R331, R342, R344). -/
def netCtlWritten (s : State) (p : Nat) : State :=
  let on := bitN (s.netReg p 0) 6 && !bitN (s.netReg p 0x18) 3
  let v := (s.net p).verify
  let s := if on && (v = .verifying || v = .succeeded) then s else netVerifyStart s p
  netFlow s p

/- ### The commands -/

/-- NET_LINK_UP (R329, R343). -/
def execNetLinkUp (p speed : Nat) (pauseRx pauseTx : Bool) (s : State) : Host.Outcome State Fault Refusal :=
  .next (netUpOp p speed pauseRx pauseTx s)

/-- NET_LINK_DOWN (R330). -/
def execNetLinkDown (p : Nat) (s : State) : Host.Outcome State Fault Refusal :=
  .next (netDownOp p s)

/-- NET_PORT_DISABLE (R331). -/
def execNetPortDisable (p : Nat) (s : State) : Host.Outcome State Fault Refusal :=
  .next (netDisableOp p s)

/-- NET_FRAME_RECEIVED (R334, R336). -/
def execNetFrameReceived (p : Nat) (rx : NetRx) (ago : Nat) (s : State) : Host.Outcome State Fault Refusal :=
  .next (netRxOp p rx (s.hubStamp ago) s)

/-- NET_TX_DONE (R333). -/
def execNetTxDone (p : Nat) (ago : Nat) (s : State) : Host.Outcome State Fault Refusal :=
  .next (netTxDoneOp p (s.hubStamp ago) s)

/-- PAUSE_RECEIVED (R339). -/
def execPauseReceived (p quanta : Nat) (s : State) : Host.Outcome State Fault Refusal :=
  .next (pauseRxOp p quanta (netAct s p))

/-- PAUSE_EXPIRY (R339). -/
def execPauseExpiry (p : Nat) (s : State) : Host.Outcome State Fault Refusal :=
  .next (pauseExpiryOp p s)

/-- XOFF_REPEAT (R342). -/
def execXoffRepeat (p : Nat) (s : State) : Host.Outcome State Fault Refusal :=
  .next (xoffRepeatOp p s)

/-- VERIFY_MPACKET (R344). -/
def execVerifyMpacket (p : Nat) (s : State) : Host.Outcome State Fault Refusal :=
  .next (verifyRxOp p s)

/-- VERIFY_RESPONSE (R344). -/
def execVerifyResponse (p : Nat) (s : State) : Host.Outcome State Fault Refusal :=
  .next (verifyRespOp p s)

/-- VERIFY_TIMEOUT (R344). -/
def execVerifyTimeout (p : Nat) (s : State) : Host.Outcome State Fault Refusal :=
  .next (verifyTmoOp p s)

/-- HOLD (R348). -/
def execNetHold (p : Nat) (s : State) : Host.Outcome State Fault Refusal :=
  .next (holdOp p s)

/-- REASM_TIMEOUT (R349). -/
def execReasmTimeout (p : Nat) (s : State) : Host.Outcome State Fault Refusal :=
  .next (reasmTmoOp p s)

/-- XON (R342). -/
def execXon (p : Nat) (s : State) : Host.Outcome State Fault Refusal :=
  .next (xonOp p s)

end Sys2Proof.Machine
end

