-- ==== Sys2Proof/Machine/Seg.lean ====
section
/-! DEFINITION. The T1S segments of the channels (chapter 12, R351 to R362): CSMA/CD and PLCA, node map, point
frames. -/

namespace Sys2Proof.Machine

/-- A register of segment `x` of channel `n` (R366). -/
def State.segReg (s : State) (n x o : Nat) : Word := s.reg (chBase n + 0x70000 + 0x10000 * x + o)

/-- Count an event of R363 on a segment. -/
def segCount (s : State) (n x o : Nat) : State :=
  s.modSeg n x (fun c =>
    { c with cnts := amSet c.cnts o (((match amGet c.cnts o with | some v => v | none => 0) + 1) % 2 ^ 32) })

/-- A counter of a segment. -/
def Seg.cnt (c : Seg) (o : Nat) : Nat := match amGet c.cnts o with | some v => v | none => 0

/-- The segment's address in use (R411): in a pair group, that of the module active when the pair formed. -/
def segMac (s : State) (n x : Nat) : List Byte :=
  let i := 2 + 2 * n + x
  match s.pair.segBase with
  | some serial => if serial = s.ident.serial then portMac s i else bytesBE 6 (Config.factoryMac serial i)
  | none => portMac s i

/-- Address of node `j` of the node map, when its entry is enabled (R357). -/
def nodeMac (s : State) (n x j : Nat) : Option (List Byte) :=
  let w1 := s.segReg n x (0x104 + 8 * j)
  if j < 32 ∧ bitN w1 31 then
    some (bytesLE 4 (s.segReg n x (0x100 + 8 * j)).toNat ++ bytesLE 2 (fld w1 0 16))
  else none

/-- The node of a source address: the lowest enabled entry that holds it (R358). -/
def macNode (s : State) (n x : Nat) (mac : List Byte) : Option Nat :=
  (List.range 32).find? (fun j => nodeMac s n x j == some mac)

/-- The latest of the assignments that a test accepts; basin 0 without one (R155). -/
def assignedTo (s : State) (test : Assign → Bool) : Nat :=
  match s.ws.assigns.foldl (fun (best : Option Assign) p =>
      if test p.2 then
        match best with
        | some b => if b.ord < p.2.ord then some p.2 else some b
        | none => some p.2
      else best) none with
  | some a => a.basin
  | none => 0

/-- The basin a node belongs to (R55, R155); `seg` 2 SEG0, 3 SEG1. -/
def nodeBasin (s : State) (n seg j : Nat) : Nat :=
  assignedTo s (fun a => a.res == 0 && a.channel == n && a.segment == seg && a.first ≤ j && j < a.first + a.count)

/-- The basin an identifier belongs to (R55, R155). -/
def idBasin (s : State) (n x id : Nat) (ide : Bool) : Nat :=
  assignedTo s (fun a => a.res == 1 && a.channel == n && a.segment == x && a.ide == ide && a.idFirst ≤ id &&
    id ≤ a.idLast)

/-- The basin a terminal belongs to (R155). -/
def termBasin (s : State) (n t : Nat) : Nat :=
  assignedTo s (fun a => a.res == 2 && a.channel == n && a.first ≤ t && t < a.first + a.count)

/- ### Transmission (R352 to R357, R361) -/

/-- NODE_COUNT, 2 to 33 (R366). -/
def nodeCount (s : State) (n x : Nat) : Nat := fld (s.segReg n x 0x18) 16 8

/-- LOCAL_ID. -/
def localId (s : State) (n x : Nat) : Nat := fld (s.segReg n x 0x18) 8 8

/-- An attempt begins when the port may send: NORMAL, no back-off running and, with PLCA active, in its own
opportunity (R353, R355). -/
def segKick (s : State) (n x : Nat) : State :=
  let c := s.seg n x
  if c.mode = 1 && !(s.ch n).stopped && !c.busy && c.backoff = 0 && !c.txq.isEmpty && (!c.plca || c.opp = localId s n x) then
    s.modSeg n x (fun c => { c with busy := true, carrier := true })
  else s

/-- The port has taken its head frame: it stays the head until it ends (R353). -/
def Seg.taken (c : Seg) : Bool := c.busy || c.backoff ≠ 0 || c.collisions ≠ 0

/-- A frame is handed to the segment (R352, R357). -/
def segEnqueue (s : State) (n x : Nat) (f : TxFrame) : State :=
  if (s.seg n x).mode = 0 then frameEnds s n f 0x11 0 false 0
  else
    let f := { f with order := s.frames }
    let s := if (s.seg n x).busy then segCount s n x 0x44C else s
    let s := { s.modSeg n x (fun c =>
      { c with txq := (match c.taken, c.txq with
        | true, g :: t => g :: prioInsert f t
        | _, q => prioInsert f q) }) with frames := s.frames + 1 }
    segKick s n x

/-- The bytes of a frame as R357 addresses it; none: NOT_OWNER. -/
def segAddress (s : State) (n x basin dest : Nat) (b : List Byte) : Option (List Byte) :=
  let src := if basin = 0 then (b.drop 6).take 6 else segMac s n x
  if dest = 0xFF then
    if basin = 0 then some b else none
  else match nodeMac s n x dest with
    | some d => if nodeBasin s n (2 + x) dest = basin then some (d ++ src ++ b.drop 12) else none
    | none => none

/-- The WRITE frame of a point command (R359, R361). -/
def writeFrame (dst src : List Byte) (p : Point) (v : Slot) (tag : Nat) : List Byte :=
  padTo 60 (dst ++ src ++ [0x88, 0xB5, 2, if p.type = 6 then 2 else 1] ++ bytesLE 2 p.index ++ bytesLE 2 tag ++
    List.replicate 8 0 ++ bytesLE (if p.type = 6 then 8 else 4) v.toNat)

/-- A command to a T1S point sends one WRITE frame to the point's node (R361); an entry that is not enabled
gives NOT_OWNER (R357). `f` holds what the frame completes. -/
def segCommand (s : State) (n x h : Nat) (p : Point) (v : Slot) (f : TxFrame) : State :=
  match nodeMac s n x p.node with
  | none => frameEnds s n f 0x0A 0 false 0
  | some d =>
    let tag := (s.seg n x).tag
    let s := s.modSeg n x (fun c => { c with tag := (tag + 1) % 65536 })
    segEnqueue s n x { f with points := [(h, p.index, tag)], bytes := writeFrame d (segMac s n x) p v tag }

/-- The port's own opportunity, or another's, has passed (R355). -/
def nextOpp (s : State) (n x : Nat) : State :=
  if (s.seg n x).plca then
    segKick (s.modSeg n x (fun c => { c with opp := min (c.opp + 1) (nodeCount s n x), burst := 0 })) n x
  else segKick s n x

/-- A frame has been sent (R354, R361). -/
def segTxDoneOp (n x : Nat) (stamp : Instant) (s : State) : State :=
  let c := s.seg n x
  if !c.busy then s
  else match c.txq with
    | [] => s
    | f :: t =>
      let s := s.modSeg n x (fun c =>
        { c with txq := t, busy := false, carrier := false, collisions := 0, excTold := false,
                 writes := c.writes ++ f.points.map (fun p => (p.2.2, p.2.1, p.1)) })
      let s := segCount (s.emit (.ethFrame (4 * n + 2 + x)
        (f.bytes ++ bytesLE 4 (Config.crc32 f.bytes).toNat))) n x 0x400
      let s := frameSent s n f stamp (s.ch n).tb.valid (2 + n) (4 * n + 2 + x)
      let s := cancelAnswer s n f 3
      if c.plca && c.burst < fld (s.segReg n x 0x1C) 0 8 && !t.isEmpty then
        segKick (s.modSeg n x (fun c => { c with burst := c.burst + 1 })) n x
      else nextOpp s n x

/-- An attempt collides (R353 to R355). -/
def segCollOp (n x : Nat) (late : Bool) (s : State) : State :=
  let c := s.seg n x
  if !c.busy then s
  else match c.txq with
    | [] => s
    | f :: t =>
      let k := c.collisions + 1
      let s := segCount s n x 0x440
      let s := if late then segCount s n x 0x444 else s
      let s := s.modSeg n x (fun c => { c with busy := false, carrier := false, collisions := k })
      let s := (if k % 16 = 0 then
          let s := segCount s n x 0x448
          if c.excTold then s
          else
            let cookie := (((s.ring f.ring).flights.find? (fun g => g.id == f.flight)).bind
              (fun g => g.cookies.head?)).getD 0
            chRaiseBoth (s.modSeg n x (fun c => { c with excTold := true })) n 0x0421 f.basin
              ([BitVec.ofNat 8 n, BitVec.ofNat 8 x, 0, 0] ++ bytesLE 4 ((s.seg n x).cnt 0x448) ++
                bytesLE 8 cookie.toNat)
        else s)
      if !f.cancel.isEmpty then
        let s := s.modSeg n x (fun c => { c with txq := t, collisions := 0, excTold := false })
        nextOpp (endFrames s n [f] 2 0x29 0) n x
      else if f.ring < 1024 ∧ (s.ring f.ring).state = .disabling then
        let s := s.modSeg n x (fun c => { c with txq := t, collisions := 0, excTold := false })
        nextOpp (endFrames s n [f] 2 0x2A 0) n x
      else if c.plca then nextOpp s n x
      else
        -- r is drawn from 0 to 2^k − 1, k at most 10 (R353); the wait ends at SEG_BACKOFF_EXPIRY
        let r := Config.backoffDraw s.free % 2 ^ (min k 10)
        s.tick1.modSeg n x (fun c => { c with backoff := r + 1 })

/-- The back-off ends (R353). -/
def backoffOp (n x : Nat) (s : State) : State :=
  if (s.seg n x).backoff = 0 then s else segKick (s.modSeg n x (fun c => { c with backoff := 0 })) n x

/-- T1S_PLCA (R364). -/
def plcaSet (s : State) (n x : Nat) (on : Bool) : State :=
  if (s.seg n x).plca = on then s
  else chRaise (s.modSeg n x (fun c => { c with plca := on, opp := 0, burst := 0 })) n 0 0x0422 0
    [BitVec.ofNat 8 n, BitVec.ofNat 8 x, if on then 1 else 0]

/-- A BEACON is sent or seen (R355): a coordinator sends it in NORMAL only. -/
def plcaBeaconOp (n x : Nat) (s : State) : State :=
  let m := (s.seg n x).mode
  if bitN (s.segReg n x 0x18) 0 && (m = 1 || (m = 2 && localId s n x ≠ 0)) then
    let s := plcaSet (segCount s n x 0x450) n x true
    segKick (s.modSeg n x (fun c => { c with opp := 0, burst := 0, backoff := 0 })) n x
  else s

/-- A transmit opportunity passes unused (R355). -/
def plcaToOp (n x : Nat) (s : State) : State :=
  if (s.seg n x).plca && !(s.seg n x).busy then nextOpp s n x else s

/-- A follower sees no BEACON (R355). -/
def plcaLossOp (n x : Nat) (s : State) : State :=
  if (s.seg n x).plca && localId s n x ≠ 0 then segKick (plcaSet s n x false) n x else s

/-- The mode the segment is to run in: LISTEN on a STANDBY or SYNCING module (R400) and in a stopped
channel (R421). -/
def wantedSeg (s : State) (n x : Nat) : Nat :=
  if s.standby || (s.ch n).stopped then 2 else fld (s.segReg n x 0) 0 2

/-- A change of MODE takes effect (R352). -/
def segApply (s : State) (n x : Nat) : State :=
  let m := wantedSeg s n x
  let q := (s.seg n x).txq
  let s := s.modSeg n x (fun c => { c with mode := m })
  if m = 0 then
    let s := s.modSeg n x (fun c =>
      { c with txq := [], busy := false, carrier := false, backoff := 0, collisions := 0, excTold := false })
    plcaSet (endFrames s n q 2 0x2A 0) n x false
  else segKick s n x

/-- Bus idle (R352). -/
def segModeOp (n x : Nat) (s : State) : State :=
  if (s.seg n x).mode ≠ wantedSeg s n x ∧ !(s.seg n x).busy then segApply s n x else s

/- ### Reception (R358 to R362) -/

/-- Slot quality of a point frame (R360). -/
def slotQual (b : List Byte) (i : Nat) : Nat :=
  match (b.getD (14 + 8 + i / 4) 0).toNat / 2 ^ (2 * (i % 4)) % 4 with
  | 0 => 1 | 1 => 7 | _ => 2

/-- Slot `i` of a point frame. -/
def slotWord (b : List Byte) (i : Nat) : Nat := getLE b (14 + 14 + 4 * i) 4

/-- A point frame may be decoded (R360). -/
def pointFrameOk (b : List Byte) : Bool :=
  let kind := (b.getD 14 0).toNat
  let count := (b.getD 15 0).toNat % 32
  (kind = 1 || kind = 2 || kind = 3) && 1 ≤ count && count ≤ 24 && 14 + 14 + 4 * count ≤ b.length

/-- The value of a point of a type from the slots of a frame (R360); none: a CNT64 whose second slot is
missing. -/
def segValue (b : List Byte) (count i type : Nat) : Option Slot :=
  let w := slotWord b i
  match type with
  | 0 => some (BitVec.ofNat 64 (w % 2))
  | 1 | 5 => some (BitVec.ofNat 64 (w % 65536))
  | 2 | 3 => some ((BitVec.ofNat 32 w).signExtend 64)
  | 6 => if i + 1 < count then some (BitVec.ofNat 64 (w + 2 ^ 32 * slotWord b (i + 1))) else none
  | _ => some (BitVec.ofNat 64 w)

/-- One acquisition from slot `i` of a point frame. -/
def segAcquire (s : State) (h : Nat) (p : Point) (b : List Byte) (count i : Nat) (stamp : Instant) : State :=
  match segValue b count i p.type with
  | some v => acquire s h v (slotQual b i) stamp
  | none => acquire s h (s.ownValue h) 2 stamp

/-- Decode of a point frame from node `j` (R359 to R361). -/
def segDecode (s : State) (n x j : Nat) (b : List Byte) (stamp : Instant) : State :=
  let count := (b.getD 15 0).toNat % 32
  let first := getLE b 16 2
  let tag := getLE b 18 2
  match (b.getD 14 0).toNat with
  | 1 =>
    (s.points.filter (fun p => p.2.inEffect && p.2.origin == 0 && p.2.channel == n && p.2.segment == 2 + x &&
      p.2.node == j && first ≤ p.2.index && p.2.index < first + count)).foldl
      (fun s p => segAcquire s p.1 p.2 b count (p.2.index - first) stamp) s
  | 3 =>
    match (s.seg n x).writes.find? (fun w => w.1 == tag && w.2.1 == first) with
    | some w =>
      let s := s.modSeg n x (fun c => { c with writes := c.writes.filter (fun v => !(v == w)) })
      (match amGet s.points w.2.2 with
      | some p => if p.inEffect && p.node == j then segAcquire s w.2.2 p b count 0 stamp else s
      | none => s)
    | none => s
  | _ => s

/-- Rings of the subscriptions that take a frame (R160, R358). -/
def segSubs (s : State) (n x basin node : Nat) : List Nat :=
  (s.ws.subs.filter (fun p => p.2.basin == basin && p.2.channel == n && p.2.segment == 2 + x && p.2.ring < 16 &&
    (p.2.node == node || p.2.node == 0xFF))).map (fun p => 16 * p.2.basin + p.2.ring)

/-- A raw frame is staged through its basin's receive queue (R358). -/
def segStage (s : State) (n x basin : Nat) (f : RxFrame) (rings : List Nat) : State :=
  let q := (s.seg n x).queues.findIdx (fun b => b == basin)
  let f := { f with queue := q }
  let s := if !(s.ch n).staged.any (fun p => p.2.target == f.target && p.2.queue == q) then
      s.modSeg n x (fun c => { c with rxTold := c.rxTold.filter (fun k => !(k == q)) }) else s
  if stagingFull s n f then
    let s := segCount s n x 0x418
    if (s.seg n x).rxTold.contains q then s
    else chRaise (s.modSeg n x (fun c => { c with rxTold := c.rxTold ++ [q] })) n 0 0x0424 0
      ([BitVec.ofNat 8 n, BitVec.ofNat 8 x, BitVec.ofNat 8 q, 0] ++ bytesLE 4 ((s.seg n x).cnt 0x418))
  else s.modCh n (fun c => { c with staged := c.staged ++ rings.map (fun k => (k, f)) })

/-- GPTP_EN of the segment (R215). -/
def gptpEn (s : State) (n x : Nat) : Bool := bitN (s.reg (chBase n + 0x10020)) x

/-- A frame that ended on the segment (R336, R358). -/
def segRxOp (n x : Nat) (f : EthFrame) (stamp : Instant) (s : State) : State :=
  let c := s.seg n x
  let s := if c.plca && !c.busy then nextOpp s n x else s
  let size := f.bytes.length + 4
  let d := f.bytes.take 6
  if c.mode = 0 then s
  else if size < 64 then segCount s n x 0x408
  else if maxFrame (s.segReg n x 8) < size then segCount s n x 0x40C
  else if !f.fcsOk then segCount s n x 0x410
  else if !(d = segMac s n x || (d.headD 0).getLsbD 0) then s
  else
    let s := segCount s n x 0x404
    let rx : RxFrame := { target := 4 * n + 2 + x, node := 0xFE, can := none, bytes := f.bytes, stamp := stamp,
                          timeValid := (s.ch n).tb.valid, queue := 0 }
    match macNode s n x ((f.bytes.drop 6).take 6) with
    | none =>
      let s := segCount s n x 0x458
      let rings := segSubs s n x 0 0xFF
      if rings.isEmpty then s else segStage s n x 0 rx rings
    | some j =>
      let s := s.modSeg n x (fun c =>
        { c with heard := if c.heard.contains j then c.heard else c.heard ++ [j],
                 lost := c.lost.filter (fun k => !(k == j)) })
      if innerType f.bytes = 0x88F7 && gptpEn s n x then s
      else
        let s := (if etherType f.bytes = 0x88B5 then
            if pointFrameOk f.bytes then segDecode s n x j f.bytes stamp else segCount s n x 0x454
          else s)
        let b := nodeBasin s n (2 + x) j
        let rings := segSubs s n x b j
        if rings.isEmpty then s else segStage s n x b { rx with node := j } rings

/-- No frame from a mapped node for NODE_TMO (R362). -/
def segNodeTmoOp (n x j : Nat) (s : State) : State :=
  if fld (s.segReg n x 0) 16 16 = 0 || (nodeMac s n x j).isNone || (s.seg n x).lost.contains j then s
  else
    let s := s.modSeg n x (fun c =>
      { c with lost := c.lost ++ [j], heard := c.heard.filter (fun k => !(k == j)) })
    let ps := s.points.filter (fun p => p.2.inEffect && p.2.origin == 0 && p.2.channel == n &&
      p.2.segment == 2 + x && p.2.node == j)
    let s := ps.foldl (fun s p => acquire s p.1 (s.ownValue p.1) 3 (s.chNow n)) s
    chRaise s n 0 0x0423 0 [BitVec.ofNat 8 n, BitVec.ofNat 8 x, BitVec.ofNat 8 j]

/- ### The commands -/

/-- SEG_FRAME_RECEIVED (R358). -/
def execSegFrameReceived (ch x : Nat) (frame : EthFrame) (ago : Nat) (s : State) : Host.Outcome State Fault Refusal :=
  .next (segRxOp ch x frame (s.chStamp ch ago) s)

/-- SEG_TX_DONE (R354). -/
def execSegTxDone (ch x : Nat) (ago : Nat) (s : State) : Host.Outcome State Fault Refusal :=
  .next (segTxDoneOp ch x (s.chStamp ch ago) s)

/-- SEG_COLLISION (R353). -/
def execSegCollision (ch x : Nat) (late : Bool) (s : State) : Host.Outcome State Fault Refusal :=
  .next (segCollOp ch x late s)

/-- SEG_BACKOFF_EXPIRY (R353). -/
def execSegBackoffExpiry (ch x : Nat) (s : State) : Host.Outcome State Fault Refusal :=
  .next (backoffOp ch x s)

/-- SEG_MODE_APPLIED (R352). -/
def execSegModeApplied (ch x : Nat) (s : State) : Host.Outcome State Fault Refusal :=
  .next (segModeOp ch x s)

/-- PLCA_BEACON (R355). -/
def execPlcaBeacon (ch x : Nat) (s : State) : Host.Outcome State Fault Refusal :=
  .next (plcaBeaconOp ch x s)

/-- PLCA_TO_TIMER (R355). -/
def execPlcaToTimer (ch x : Nat) (s : State) : Host.Outcome State Fault Refusal :=
  .next (plcaToOp ch x s)

/-- PLCA_BEACON_LOSS (R355). -/
def execPlcaBeaconLoss (ch x : Nat) (s : State) : Host.Outcome State Fault Refusal :=
  .next (plcaLossOp ch x s)

/-- T1S_NODE_TIMEOUT (R362). -/
def execT1sNodeTimeout (ch x node : Nat) (s : State) : Host.Outcome State Fault Refusal :=
  .next (segNodeTmoOp ch x node s)

end Sys2Proof.Machine
end

