-- ==== Sys2Proof/Machine/ChanCmd.lean ====
section
/-! DEFINITION. Point commands at their owning channel (R58, R139, R271), the fields a descriptor's timed
entry takes, and the writing of a point on a terminal or a field bus. -/

namespace Sys2Proof.Machine

/-- A frame with nothing in it, for what a command completes. -/
def TxFrame.blank : TxFrame :=
  { basin := 0, ring := 1024, flight := 0, idx := 0,
    can := { id := 0, ide := false, fdf := false, brs := false, rtr := false, esi := false, dlc := 0, data := [] },
    bytes := [], padEn := false, tsReq := false, tsTag := 0, preempt := false, prio := 0, node := 0,
    late := false, table := 9, entry := 0, gen := 0, points := [], cancel := [], order := 0 }

/-- The channel runs loops and actions and drives outputs: not on a STANDBY or SYNCING module (R400), nor once
it has stopped starting work (R421). -/
def State.works (s : State) (n : Nat) : Bool := !s.standby && !(s.ch n).stopped

/-- A loop owns the point as its OUT: it is enabled, or its disable value has not been driven yet (R271). -/
def State.loopOut (s : State) (h : Nat) : Bool :=
  s.ws.loops.any (fun p => p.2.outp == h && (match amGet (s.ch p.2.channel).slots p.2.slot with
    | some r => r.loop == some p.1 && (r.en || r.owns)
    | none => false))

/-- A DOUT takes a state; the commanded state is mirrored (R408). -/
def driveDout (s : State) (n d : Nat) (v : Bool) (stamp : Instant) : State :=
  (latchDout s n d v stamp).mirror (.output n (16 + d) (if v then 1 else 0))

/-- An AOUT takes a code. -/
def driveAout (s : State) (n t code : Nat) (stamp : Instant) : State :=
  (latchAout s n t code stamp).mirror (.output n (32 + t) (code % 65536))

/-- The channel writes value `v` to its point `h`; `f` is what ends with the outcome (R139, R281, R361). -/
def writePoint (s : State) (n h : Nat) (p : Point) (v : Slot) (f : TxFrame) : State :=
  if p.origin = 1 then
    if 36 ≤ p.index ∧ p.index < 40 then
      frameEnds (presetCnt s n (p.index - 36) v (s.chNow n)) n f 0 0 false 0
    else if s.guardHolds n then frameEnds s n f 0x10 0 false 0
    else if 16 ≤ p.index ∧ p.index < 24 then
      frameEnds (driveDout s n (p.index - 16) (v.toNat % 2 == 1) (s.chNow n)) n f 0 0 false 0
    else if 32 ≤ p.index ∧ p.index < 36 then
      frameEnds (driveAout s n (p.index - 32) v.toNat (s.chNow n)) n f 0 0 false 0
    else frameEnds s n f 0x0C 0 false 0
  else if p.segment < 2 then
    (canCommand s n p.segment h p v f).mirror (.canImage n p.segment h v)
  else segCommand s n (p.segment - 2) h p v f

/-- The channel's own check of a command's tag (R58). -/
def tagOk (p : Point) (tag : Nat) : Bool := tag = p.chTag || (tag = 0 && p.chWrite = 2)

/-- A tag that fails R58: TAG_MISMATCH in basin 0's event ring. -/
def tagMismatch (s : State) (n h tag owner : Nat) : State :=
  chRaise s n 0 1 0 (bytesLE 2 h ++ [BitVec.ofNat 8 n, BitVec.ofNat 8 tag, BitVec.ofNat 8 owner, 1])


/-- A one-shot entry from a descriptor (R223, R227). -/
def descEntry (origin : ActOrigin) (kind : ActKind) (basin : Nat) (cookie : Slot) (ring flight tol : Nat)
    (at' : Instant) : Entry :=
  { origin := origin, gen := 0, kind := kind, report := false, nocomp := false, tol := tol, start := at',
    period := 0, count := 0, basin := basin, cookie := cookie, ring := ring, flight := flight, actId := 0,
    done := 0, last := none, st := .pending, order := 0, prep := none, waiting := false, skipped := 0,
    skipDet := 0, late := 0 }

/-- What a table does with an entry on arrival (R232, R235): 0 enter it, when it comes 20 µs before its earliest
latch instant; 1 act at once; 2 MISSED. -/
def judgeAt (s : State) (now t : Nat) (e : Entry) : Nat :=
  if now + 20000 + entryLead s t e ≤ e.start then 0
  else if e.tol = 0xFFFF ∨ now - e.start ≤ e.tol * 1000 then 1 else 2

/-- Report of a command that ends without a frame. -/
def cmdReport (c : ChCmd) (status : Nat) (late : Bool) (info : Word) : Report :=
  { ring := c.ring, flight := c.flight, status := status, tsq := false, late := late, info := info }

/-- An arrived command is carried out (R58, R139, R235, R271). -/
def runCmd (s : State) (n : Nat) (c : ChCmd) : State :=
  match amGet s.points c.handle with
  | none => sendReport s n (cmdReport c 0x0B false 0)
  | some p =>
    if (s.ch n).state ≠ .inService ∨ !s.works n then sendReport s n (cmdReport c 0x10 false 0)
    else if !tagOk p c.tag then
      sendReport (tagMismatch s n c.handle c.tag p.owner) n (cmdReport c 0x0A false 0)
    else if c.ring < 1024 ∧ s.loopOut c.handle then sendReport s n (cmdReport c 0x0C false 0)
    else if p.origin = 0 ∧ p.segment < 2 ∧ imageTooLong s n p.segment p then
      sendReport s n (cmdReport c 0x0F false 0)
    else
      let f := { TxFrame.blank with basin := c.tag, ring := c.ring, flight := c.flight, late := false,
                                    prio := if 1024 ≤ c.ring then 6 else 5 }
      match c.at? with
      | none => writePoint s n c.handle p c.value f
      | some t =>
        let e := descEntry .descCmd (.pointWrite c.handle c.value) c.tag c.cookie c.ring c.flight c.tol t
        match judgeAt s (s.chNow n) n e with
        | 1 =>
          let late : Bool := decide (t < s.chNow n)
          writePoint (if late then countArrival s n 1 else s) n c.handle p c.value { f with late := late, prio := 7 }
        | 2 => sendReport (countArrival s n 2) n (cmdReport c 5 false 0)
        | _ =>
          match s.tblFree n with
          | none => sendReport s n (cmdReport c 0x12 false 0)
          | some i =>
            let s := enterEntry s n i e
            sendReport s n (cmdReport c 1 false (s.refOf n i))

/-- COMMAND_AT_CHANNEL: the head of the commands on their way. -/
def commandAtOp (n : Nat) (s : State) : State :=
  match (if s.linkDown n then [] else (s.ch n).cmds) with
  | [] => s
  | c :: t => runCmd (s.modCh n (fun x => { x with cmds := t })) n c

/- ### The commands -/

/-- COMMAND_AT_CHANNEL (R58). -/
def execCommandAtChannel (ch : Nat) (s : State) : Host.Outcome State Fault Refusal :=
  .next (commandAtOp ch s)

end Sys2Proof.Machine
end

