-- ==== Sys2Proof/Machine/Loops.lean ====
section
/-! DEFINITION. The loop engine of a channel (chapters 09 and 10): slots, inputs, samples, outputs, enabling
and disabling, snapshots. -/

namespace Sys2Proof.Machine

/-- Key of word `w` of a slot (R257). -/
def slotKey (n slot w : Nat) : Nat := chBase n + 0x40000 + 64 * slot + 4 * w

/-- Word `w` of a slot. -/
def State.slotReg (s : State) (n slot w : Nat) : Word := s.reg (slotKey n slot w)

/-- Runtime state of a slot. -/
def State.slotRt (s : State) (n slot : Nat) : LoopRt :=
  match amGet (s.ch n).slots slot with
  | some r => r
  | none => LoopRt.reset

/-- Change the runtime state of a slot. -/
def State.modSlot (s : State) (n slot : Nat) (f : LoopRt → LoopRt) : State :=
  s.modCh n (fun c => { c with slots := amMod c.slots slot f })

/-- Coefficient bank `b` of a slot (R259). -/
def slotBank (s : State) (n slot b : Nat) : Bank :=
  let o := 6 + 5 * b
  let w0 := s.slotReg n slot o
  let w1 := s.slotReg n slot (o + 1)
  let w2 := s.slotReg n slot (o + 2)
  { kp := sgn 16 (fld w0 0 16), ki := sgn 16 (fld w0 16 16), kd := sgn 16 (fld w1 0 16),
    kff := sgn 16 (fld w1 16 16), kpSh := fld w2 0 5, kiSh := fld w2 5 5, kdSh := fld w2 10 5,
    kffSh := fld w2 15 5, pfSh := fld w2 20 4, dfSh := fld w2 24 4,
    omin := (s.slotReg n slot (o + 3)).toInt, omax := (s.slotReg n slot (o + 4)).toInt }

/- ### Inputs of a sample (R252, R275, R283) -/

/-- An input of a sample: type, value slot, and whether its quality is GOOD. Inputs from other channels are stale
while STATE is LINK_LOST (R31), and as last received from then on (DESIGN CHOICE, log 124). -/
def loopInput (s : State) (n h : Nat) : Nat × Slot × Bool :=
  match amGet s.points h with
  | none => (1, 0, false)
  | some p =>
    if !p.inEffect then (p.type, 0, false)
    else if p.origin = 1 ∧ p.channel = n ∧ p.index < 16 then
      (p.type, if (s.dio n).level.getLsbD p.index then 1 else 0, s.dinEn n p.index && s.dinQual n = 1)
    else if p.origin = 1 ∧ p.channel = n ∧ 36 ≤ p.index ∧ p.index < 40 then
      (p.type, BitVec.ofNat 64 ((s.dio n).counts.getD (p.index - 36) 0),
        s.counting n (p.index - 36) && s.dinQual n = 1)
    else if p.origin = 1 ∧ p.channel = n ∧ 24 ≤ p.index ∧ p.index < 32 then
      let i := p.index - 24
      let a := s.ain n i
      let range := s.ainRange n i
      match ainValue s n i range p.type (ainCode range a.meas) a.meas with
      | some v => (p.type, v, a.qual = 1)
      | none => (p.type, 0, false)
    else if p.channel = n ∧ !p.isHub then (p.type, p.own.value, p.own.quality = 1)
    else
      match amGet (s.ch n).inputs h with
      | some m => (p.type, m.value, m.quality = 1 && (s.ch n).state ≠ .linkLost)
      | none => (p.type, 0, false)

/-- Engine value of an input (R252); `prev`: the count at the previous sample, none in the first sample after
priming. -/
def engineValue (i : Nat × Slot × Bool) (prev : Option Nat) : Int :=
  if i.1 = 6 then
    match prev with
    | some c => cntConv c i.2.1.toNat
    | none => 0
  else inConv i.1 i.2.1

/-- A terminal set-point source (R287 to R289): its value when it delivers one with GOOD quality, and whether it
failed. -/
def spSource (s : State) (n slot basin src : Nat) (r : LoopRt) : Option Int × Bool :=
  let g := s.reg (chBase n + 0x30100 + 8 * slot)
  let o := (s.reg (chBase n + 0x30104 + 8 * slot)).toInt
  let scale (v : Nat) : Int := sat32 (o + mulK (sgn 16 (fld g 0 16)) v (fld g 16 5))
  if 1 ≤ src ∧ src ≤ 8 then
    let i := src - 1
    if termBasin s n (24 + i) ≠ basin ∨ s.ainRange n i = 0 then (none, true)
    else if (s.ain n i).qual = 1 then (some (scale (s.ain n i).code), false)
    else (none, false)
  else if 9 ≤ src ∧ src ≤ 12 then
    let i := src - 9
    if termBasin s n (36 + i) ≠ basin ∨ !s.counting n i then (none, true)
    else if (s.dio n).inv then (none, false)
    else
      let now := (s.dio n).counts.getD i 0
      let v := match r.pulse with
        | some c => if r.primed ∧ r.spsrc = src then min 2147483647 ((now + 2 ^ 64 - c) % 2 ^ 32) else 0
        | none => 0
      (some (scale v), false)
  else (none, true)

/-- Previous counts a slot keeps of its PV, SP, FF and TRACK (R252). -/
def sampleCnts (ins : List (Nat × Slot × Bool)) : List Nat := ins.map (fun i => if i.1 = 6 then i.2.1.toNat else 0)

/-- The input of the loop law for a sample (R260, R261, R284). -/
def lawInput (s : State) (n slot : Nat) (l : Loop) (r : LoopRt) : LawIn × List Nat × Nat × Bool × Bool × Bool :=
  let ctl := s.slotReg n slot 0
  let src0 := fld ctl 8 4
  let src := if slot < 16 then src0 else 0
  let pv := loopInput s n l.pv
  let sp := if l.sp = 0xFFFF then (2, 0, false) else loopInput s n l.sp
  let ff := if l.ff = 0xFFFF then (2, 0, false) else loopInput s n l.ff
  let tr := if l.track = 0xFFFF then (2, 0, false) else loopInput s n l.track
  let prev (k : Nat) : Option Nat := if r.primed then r.cnts[k]? else none
  let term := spSource s n slot l.basin src r
  let tgt := (if src ≠ 0 then term.1
    else if l.sp = 0xFFFF then some (s.slotReg n slot 1).toInt
    else if sp.2.2 then some (engineValue sp (prev 1)) else none)
  ({ pv := engineValue pv (prev 0), pvGood := pv.2.2, tgt := tgt, hasFf := l.ff ≠ 0xFFFF,
     ff := if ff.2.2 then some (engineValue ff (prev 2)) else none,
     track := if bitN ctl 3 && tr.2.2 then some (engineValue tr (prev 3)) else none,
     reverse := bitN ctl 2, bumpless := bitN ctl 4, slew := (s.slotReg n slot 4).toNat,
     felim := (s.slotReg n slot 5).toNat, feTime := fld ctl 16 8, settleP := fld ctl 24 8,
     preset := (s.slotReg n slot 3).toInt, bankNo := fld ctl 1 1 },
   sampleCnts [pv, sp, ff, tr], src, src0 ≠ 0 && 16 ≤ slot, src ≠ 0 && term.2, src ≠ 0 && term.1.isSome)

/- ### Enabling and disabling (R268 to R271) -/

/-- EN from 0 to 1: the loop is primed at its next sample and owns its OUT. -/
def enableRt (r : LoopRt) : LoopRt :=
  { r with en := true, primed := false, owns := true, lastIn := 0, out := .nothing, pub := .nothing, pulse := none,
           cnts := [] }

/-- EN from 1 to 0: a running sample completes, then the disable value is due. -/
def disableRt (r : LoopRt) : LoopRt :=
  { r with en := false, primed := false, out := if r.out = .nothing then .disval else r.out }

/-- Slot CTL has been applied with a new value (R270). -/
def slotCtlApplied (s : State) (n slot : Nat) (old new : Word) : State :=
  if (s.slotRt n slot).loop.isNone then s
  else if !bitN old 0 && bitN new 0 then s.modSlot n slot enableRt
  else if bitN old 0 && !bitN new 0 then s.modSlot n slot disableRt
  else s

/-- One slot word is written (R258). -/
def slotWriteOp (n slot w : Nat) (be : BitVec 4) (data : Word) (s : State) : State :=
  let key := slotKey n slot w
  if (regRow key).isSome then
    let old := s.reg key
    let new := beMerge be old data &&& regMask key
    let s := (s.setReg key new).mirror (.register key new)
    if w = 0 then slotCtlApplied s n slot old new else s
  else s

/-- EN is written 0 by the module itself, in both banks (R291). -/
def clearEn (s : State) (n slot : Nat) : State :=
  let w := s.slotReg n slot 0
  slotCtlApplied (s.setReg (slotKey n slot 0) (w &&& ~~~1)) n slot w (w &&& ~~~1)

/- ### Samples -/

/-- The channel's logic runs its loops (R31). -/
def State.loopsRun (s : State) (n : Nat) : Bool :=
  s.works n && ((s.ch n).state = .inService || (s.ch n).state = .linkLost)

/-- A sample is due: the boundary has the loop's phase, the input instant of its lane has come, and at least half a period
has passed since the last input instant (R274, R277, R282). -/
def sampleDue (s : State) (n : Nat) (l : Loop) (r : LoopRt) : Bool :=
  s.chNow n / 125000 % l.period = l.phase % l.period && l.inputOffset ≤ s.chNow n % 125000 &&
  (r.lastIn = 0 || r.lastIn - 1 + l.period * 15625 ≤ s.ticks)

/-- Following error was activated: TRIPS, and DISABLE when the slot's action says so (R291). -/
def feTrip (s : State) (n slot : Nat) : State :=
  let s := s.modCh n (fun c => { c with feTrips := satInc 65535 c.feTrips })
  if fld (s.reg (chBase n + 0x30200 + 4 * (slot / 16))) (2 * (slot % 16)) 2 = 1 then
    (clearEn s n slot).modSlot n slot (fun r => { r with fe := false, feTmr := 0 })
  else s

/-- LOOP_SAMPLE: one sample of an enabled slot (R260). -/
def loopSampleOp (n slot : Nat) (s : State) : State :=
  let r := s.slotRt n slot
  match r.loop with
  | none => s
  | some id =>
    match amGet s.ws.loops id with
    | none => s
    | some l =>
      if !(r.en && !r.waiting && s.loopsRun n && sampleDue s n l r) then s
      else
        let (i, cnts, src, spErr, failed, delivered) := lawInput s n slot l r
        let b := slotBank s n slot i.bankNo
        let (r', trip) := sampleRt i b (bitN (s.slotReg n slot 0) 5) (r.lastIn = 0) r
        let pulse := if 9 ≤ src ∧ src ≤ 12 then some ((s.dio n).counts.getD (src - 9) 0) else none
        let r' := { r' with
          lim := some ((slotBank s n slot r'.bankSel).omin, (slotBank s n slot r'.bankSel).omax),
          cnts := cnts, pulse := pulse, spsrc := src, spsrcErr := spErr, lastIn := s.ticks + 1,
          srcErr := failed || (r.srcErr && !delivered && src ≠ 0) }
        let s := (s.modSlot n slot (fun _ => r')).mirror
          (.loopState n slot r'.i48 r'.pvf48 r'.df48 r'.pvfPrev r'.sps r'.u r'.primed)
        if trip then feTrip s n slot else s

/- ### Outputs (R270, R272, R281) -/

/-- A loop commands its OUT with an engine value (R281). -/
def loopCommand (s : State) (n : Nat) (l : Loop) (b : Bank) (u : Int) : State :=
  match amGet s.points l.outp with
  | none => s
  | some p =>
    let v := outConv p.type p.enumCount b.omin b.omax u
    let f := { TxFrame.blank with basin := l.basin, prio := 6 }
    if p.isHub then acquire s l.outp v 1 s.time.now
    else if p.channel = n then
      if tagOk p l.basin then writePoint s n l.outp p v f else tagMismatch s n l.outp l.basin p.owner
    else if (s.ch n).state = .linkLost ∨ (s.ch p.channel).state = .linkLost then s
    else s.modCh p.channel (fun c => { c with cmds := c.cmds ++
      [{ handle := l.outp, value := v, tag := l.basin, ring := 1024, flight := 0, cookie := 0, at? := none,
         tol := 0 }] })

/-- LOOP points of a loop are acquired from the values of its sample (R272). -/
def publishLoop (s : State) (n id : Nat) (b : Bank) (r : LoopRt) : State :=
  let ps := s.points.filter (fun p => p.2.inEffect && p.2.origin == 2 && p.2.index == id)
  match r.pub with
  | .nothing => s
  | .values unc =>
    ps.foldl (fun s p =>
      let x := if p.2.loopItem = 0 then r.u else if p.2.loopItem = 1 then r.e else rshr r.i48 16
      acquire s p.1 (outConv p.2.type p.2.enumCount b.omin b.omax x) (if unc then 7 else 1) (s.chNow n)) s
  | .stale => ps.foldl (fun s p => acquire s p.1 p.2.own.value 7 (s.chNow n)) s

/-- LOOP_OUTPUT: the output instant of a slot. The sample completes with the limits it began with (R80). -/
def loopOutputOp (n slot : Nat) (s : State) : State :=
  let r := s.slotRt n slot
  match r.loop with
  | none => s
  | some id =>
    match amGet s.ws.loops id with
    | none => s
    | some l =>
      if !s.loopsRun n then s
      else
        let bank := slotBank s n slot r.bankSel
        let b := (match r.lim with | some m => { bank with omin := m.1, omax := m.2 } | none => bank)
        let ctl := s.slotReg n slot 0
        let s := (match r.out with
          | .nothing => s
          | .command u => loopCommand s n l b u
          | .disval =>
            if bitN ctl 5 then s
            else loopCommand s n l (slotBank s n slot (fld ctl 1 1)) (s.slotReg n slot 2).toInt)
        let s := publishLoop s n id b r
        s.modSlot n slot (fun c =>
          { c with out := if !r.en && r.owns && r.out ≠ .disval then .disval else .nothing, pub := .nothing,
                   owns := if !r.en && r.out = .disval then false else c.owns })

/-- SNAPSEL_WRITE: the runtime state of a slot into SNAP0 to SNAP7 (R273). -/
def snapselOp (n slot : Nat) (s : State) : State :=
  let slot := slot % 1024
  let r := s.slotRt n slot
  let w (v : Int) : Word := BitVec.ofInt 32 v
  let s := s.setReg (chBase n + 0x30010) (BitVec.ofNat 32 slot)
  s.modCh n (fun c => { c with snap := { slot := slot, words :=
    [w r.i48, w (r.i48 / 2 ^ 32), w (rshr r.pvf48 16), w r.sps, w (rshr r.df48 16), w r.u, w r.e,
     BitVec.ofNat 32 (r.feTmr % 65536 + r.settle % 256 * 65536)] } })

/- ### The commands -/

/-- LOOP_SAMPLE (R260). -/
def execLoopSample (ch slot : Nat) (s : State) : Host.Outcome State Fault Refusal :=
  .next (loopSampleOp ch slot s)

/-- LOOP_OUTPUT (R281). -/
def execLoopOutput (ch slot : Nat) (s : State) : Host.Outcome State Fault Refusal :=
  .next (loopOutputOp ch slot s)

/-- LOOP_SLOT_WRITE (R258). -/
def execLoopSlotWrite (ch slot w : Nat) (be : BitVec 4) (data : Word) (s : State) : Host.Outcome State Fault Refusal :=
  .next (ifReaches (chBase ch + 0x40000) (slotWriteOp ch slot w be data) s)

/-- SNAPSEL_WRITE (R273). -/
def execSnapselWrite (ch slot : Nat) (s : State) : Host.Outcome State Fault Refusal :=
  .next (ifReaches (chBase ch + 0x30010) (snapselOp ch slot) s)

end Sys2Proof.Machine
end

