-- ==== Sys2Proof/Machine/Txn.lean ====
section
/-! DEFINITION. Transactions up to their apply instant (chapter 03, R76 to R89), and Watershed's context 64
(R148). Applying the staged writes stands in RegWrite.lean. -/

namespace Sys2Proof.Machine

/-- Channels a transaction's scope names. -/
def Txn.channels (t : Txn) : List Nat := (List.range 8).filter (fun n => (t.scope / 2 ^ n) % 2 == 1)

/-- Payload of TXN_DONE (R133). -/
def txnPayload (t : Txn) (result : Nat) : List Byte :=
  bytesLE 4 t.id ++ [BitVec.ofNat 8 result, 0] ++ stampBytes t.apply

/-- The points of a loop; OUT last. -/
def loopPoints (l : Loop) : List Nat :=
  [l.pv] ++ (if l.sp = 0xFFFF then [] else [l.sp]) ++ (if l.ff = 0xFFFF then [] else [l.ff]) ++
  (if l.track = 0xFFFF then [] else [l.track]) ++ [l.outp]

/-- Its input points. -/
def loopInputs (l : Loop) : List Nat := (loopPoints l).dropLast

/-- The loop holds a place. -/
def Loop.holds (l : Loop) : Bool := (l.st = .placed || l.st = .migrating)

/-- The point is another channel's, or the hub's. -/
def foreignPoint (s : State) (n h : Nat) : Bool :=
  match amGet s.points h with
  | some p => p.isHub || p.channel ≠ n
  | none => false

/-- Channels that need a point forwarded (R25): where a loop that reads it runs, and from the preparation of a move where it
will run (R184). -/
def wantSubs (s : State) (h : Nat) : BitVec 8 :=
  let at' (n : Nat) : Bool :=
    foreignPoint s n h && (s.ws.loops.any (fun p => p.2.holds && p.2.channel == n && (loopInputs p.2).contains h) ||
      (s.ws.migrations.any (fun m => m.fromCh == n &&
        (match amGet s.ws.loops m.loop with | some l => (loopInputs l).contains h | none => false))) ||
      (match s.ws.plan with | some p => p.moves | none => []).any (fun m => m.toCh == n &&
        (match amGet s.ws.loops m.loop with | some l => (loopInputs l).contains h | none => false)))
  (List.range 8).foldl (fun v n => setBitTo v n (at' n)) 0

/-- SUBSCRIBERS follow the loops placed; a channel that newly subscribes gets the present mirror entry. -/
def resubscribe (s : State) : State :=
  (s.points.map (·.1)).foldl (fun s h =>
    match amGet s.points h with
    | none => s
    | some p =>
      let v := if p.inEffect then wantSubs s h else 0
      if v = p.subs then s
      else
        let s := s.modPt h (fun p => { p with subs := v })
        (List.range 8).foldl (fun s n =>
          if v.getLsbD n && !p.subs.getLsbD n && p.mir.seq ≠ 0 then
            s.modCh n (fun c => { c with ingress := c.ingress ++ [{ handle := h, tag := p.owner, m := p.mir, resent := true }] })
          else if !v.getLsbD n && p.subs.getLsbD n then s.modCh n (fun c => { c with inputs := amDel c.inputs h })
          else s) s) s

/-- A Watershed transaction ends without applying: nothing changes, each move is reported with
MIGRATE_RETRY and retried at the next pass; a third failed attempt of a loop on a DRAINING channel stops it
there (R186). An end other than CONFLICT is reported as ABORTED, and forwarding is as before. -/
def wsTxnFailed (s : State) (result : Nat) : State :=
  match s.ws.plan with
  | none => s
  | some p =>
    let s := s.modWs (fun w => { w with plan := none })
    let s := p.moves.foldl (fun s m =>
      let fails := (match amGet s.ws.loops m.loop with | some l => l.fails + 1 | none => 1)
      let basin := (match amGet s.ws.loops m.loop with | some l => l.basin | none => 0)
      let s := s.modWs (fun w => { w with loops := amMod w.loops m.loop (fun l => { l with fails := fails, st := .placed }) })
      raiseBoth s 0x0106 basin (bytesLE 2 m.loop ++ [BitVec.ofNat 8 (min fails 3), if result = 3 then 3 else 10])) s
    (resubscribe s).modWs (fun w =>
      { w with trigger := some (match w.trigger with | some t => t | none => p.trigger) })

/-- A LOOP_GROUP entry's transaction ends (R249): applied, it is DONE, or LATE by its boundary's distance from
the instant; passed by a forward step, it is judged anew (R237); otherwise FAILED with ABORTED. One withdrawn after GO ends
with WITHDRAWN once it has acted (R244). Contexts from 128 stand for the hub-list entries. -/
def groupTxnEnded (s : State) (i result : Nat) : State :=
  match amGet s.hlist.entries i with
  | none => s
  | some e =>
    let s := s.modEnt 8 i (fun e => { e with prep := none })
    if result = 1 then
      let s := s.modEnt 8 i (fun e => { e with last := some (e.occ (e.done - 1)) })
      let s := occOutcome s 8 i { e with prep := none } (if e.late = 0 then oDone else oLate) 0 (e.late / 1000)
        (e.isLast (e.done - 1) && e.skipDet ≠ 0x23)
      if e.skipDet = 0x23 then cancelEntry s 8 i { e with prep := none } 0x23 else s
    else if result = 9 then s.modEnt 8 i (fun e => { e with done := e.done - 1 })
    else occOutcome s 8 i { e with prep := none } oFailed 0x26 (e.late / 1000) (e.isLast (e.done - 1))

/-- The partner drops its copy of a transaction `t` that was PENDING and now ends (R88). -/
def mirrorEnded (s : State) (t : Txn) (c : Nat) : State := if t.state = .pending then s.mirror (.txnEnded c) else s

/-- A transaction ends with a result other than LOST: its shadow is discarded, here and where it was mirrored (R88), and
TXN_DONE is raised (R89); a context whose reset was put off (R107) is reset. -/
def endTxn (s : State) (c result : Nat) : State :=
  let t := s.txn c
  let s := s.modTxn c (fun t =>
    if t.resetAfter then Txn.reset
    else { t with state := .idle, result := result, staged := [], waitPrep := [], goSent := false, waitGo := [],
                  applied := [], parts := [] })
  let s := mirrorEnded s t c
  if c = 64 then (if result = 1 then s else wsTxnFailed s result)
  else if 128 ≤ c then groupTxnEnded s (c - 128) result
  else raise s c 4 c (txnPayload t result)

/-- A transaction ends and the shadows in its channels are thrown away (R82). -/
def abortTxn (s : State) (c result : Nat) : State :=
  endTxn ((s.txn c).channels.foldl (fun s n => s.emit (.abort c n)) s) c result

/-- A transaction is lost (R87): TXN_LOST in basin 0's event ring and in the owner's. -/
def loseTxn (s : State) (c : Nat) : State :=
  let t := s.txn c
  if t.state = .idle then s
  else
    let s := s.modTxn c (fun t =>
      { t with state := .idle, result := 12, staged := [], waitPrep := [], goSent := false, waitGo := [],
               applied := [], parts := [] })
    let s := mirrorEnded s t c
    if c = 64 then wsTxnFailed s 12 else if 128 ≤ c then groupTxnEnded s (c - 128) 12 else raiseBoth s 5 c (bytesLE 4 t.id)

/-- A command in the wrong state (R89). -/
def txnStateErr (s : State) (c : Nat) : State := s.modTxn c (fun t => { t with result := 14 })

/-- Transaction commands end with STATE_ERR: on a STANDBY or SYNCING module (R400), in DECOMMISSIONED (R484),
after a power-fail warning (R436; log 36). -/
def State.txnRefused (s : State) : Bool := s.standby || s.lc.state = 5 || s.pwr.warn

/-- The scope is acceptable for the function (R77). -/
def scopeOk (s : State) (fn scope : Nat) : Bool :=
  if fn = 0 then 0 < scope && scope < 2 ^ 15 && (List.range 8).all (fun n => scope / 2 ^ n % 2 == 0 || s.fitted n)
  else scope == 2 ^ 15

/-- BEGIN (R77). Identifiers count on in the module's own count; across a takeover the count is the new active module's
(DESIGN CHOICE, log 129). -/
def beginOp (fn : Nat) (s : State) : State :=
  let scope := fld (s.regF fn 0x10004) 0 16
  if s.txnRefused then txnStateErr s fn
  else if (s.txn fn).state ≠ .idle then s.modTxn fn (fun t => { t with result := 13 })
  else if !scopeOk s fn scope then s.modTxn fn (fun t => { t with result := 4 })
  else
    let id := s.nextTxn
    { s.modTxn fn (fun _ => { Txn.reset with state := .opened, id := id, scope := scope }) with
      nextTxn := (id + 1) % 2 ^ 32 }

/-- One staged write (R78). -/
def stageWord (s : State) (fn key : Nat) (be : BitVec 4) (w : Word) : State :=
  let t := s.txn fn
  if t.staged.any (fun e => e.key == key) then
    s.modTxn fn (fun t => { t with staged := t.staged.map (fun e =>
      if e.key = key then { e with be := e.be ||| be, data := beMerge be e.data w } else e) })
  else if 4096 ≤ t.staged.length then
    s.modTxn fn (fun t => { t with err := true, errAddr := if t.err then t.errAddr else key % 0x1000000 })
  else s.modTxn fn (fun t => { t with staged := t.staged ++ [{ key := key, be := be, data := beMerge be 0 w }] })

/-- The level a sub-block will have after the commit (R72). -/
def levelAfter (s : State) (t : Txn) (off : Nat) : Bool :=
  match t.staged.find? (fun e => e.key == levelOf off) with
  | some e => if e.be.getLsbD 0 then bitN e.data 0 else s.expertAt off
  | none => s.expertAt off

/-- The first staged expert register of a sub-block that will be BASIC (R72, R79). -/
def levelErr (s : State) (t : Txn) : Option Nat :=
  (t.staged.find? (fun e =>
    e.key % 65536 ≠ 0xFFFC && (match regRow (e.key % 0x1000000) with | some r => r.expert | none => false) &&
      !levelAfter s t (e.key % 0x1000000))).map (fun e => e.key % 0x1000000)

/-- The conflict rule of R85. -/
def conflicts (s : State) (c : Nat) : Bool :=
  let t := s.txn c
  t.staged.any (fun e => t.applied.contains e.key ||
    s.txns.any (fun o => o.1 ≠ c && (o.2.state = .preparing || o.2.state = .pending) &&
      o.2.staged.any (fun f => f.key == e.key)))

/-- The instant COMMIT_AT asks for, rounded up to a sample boundary (R81). -/
def commitInstant (s : State) (fn : Nat) : Instant := ceilSample (s.regInstant (fn * 0x1000000 + 0x10008))

/-- The checks of R79 in their order, with the time rules of R81 for COMMIT_AT: 0 when all pass. -/
def commitCheck (s : State) (fn : Nat) (isAt : Bool) : Nat :=
  let t := s.txn fn
  if t.err then 6
  else if (levelErr s t).isSome then 5
  else if conflicts s fn then 3
  else if t.channels.any (fun n => !s.inService n) then 10
  else if isAt then
    if giga ≤ (s.regF fn 0x10008).toNat then 8
    else if !s.timeValid then 7
    else if commitInstant s fn < s.time.now + 5000000 ∨ s.time.now + 604800 * giga < commitInstant s fn then 8
    else 0
  else 0

/-- COMMIT_NOW and COMMIT_AT (R79, R81, R82). A rounded instant out of range is reported all the same. -/
def commitOp (fn : Nat) (isAt : Bool) (s : State) : State :=
  let t := s.txn fn
  if s.txnRefused || t.state ≠ .opened then txnStateErr s fn
  else
    let r := commitCheck s fn isAt
    if r ≠ 0 then
      let s := (match levelErr s t with
        | some a => if r = 5 then s.modTxn fn (fun t => { t with errAddr := a }) else s
        | none => s)
      let s := (if r = 8 ∧ (s.regF fn 0x10008).toNat < giga then
          s.modTxn fn (fun t => { t with apply := commitInstant s fn }) else s)
      endTxn s fn r
    else
      let at' := if isAt then commitInstant s fn else 0
      let s := s.modTxn fn (fun t =>
        { t with state := .preparing, isAt := isAt, apply := at', waitPrep := t.channels ++ [8], goSent := false,
                 waitGo := [] })
      (t.channels ++ [8]).foldl (fun s n => s.emit (.shadow fn n)) s

/-- ROLLBACK (R84). -/
def rollbackOp (fn : Nat) (s : State) : State :=
  let t := s.txn fn
  if s.txnRefused || t.state = .idle then txnStateErr s fn
  else if t.goSent ∨ (t.state = .pending ∧ t.apply ≤ s.time.now + 100000) then
    s.modTxn fn (fun t => { t with result := 11 })
  else if t.state = .opened then endTxn s fn 2 else abortTxn s fn 2

/-- A part of a transaction has been prepared (R81, R82). -/
def prepareAckOp (c ch : Nat) (s : State) : State :=
  let t := s.txn c
  if t.state = .preparing ∧ t.waitPrep.contains ch then
    let rest := t.waitPrep.filter (fun n => !(n == ch))
    if rest.isEmpty then
      let at' := if t.isAt then t.apply else ceilSample (s.time.now + 250000)
      let s := s.modTxn c (fun t => { t with waitPrep := [], state := .pending, apply := at' })
      s.mirror (.pendingTxn c t.id t.scope at' (t.staged.map (fun e => (e.key, e.be, e.data))))
    else s.modTxn c (fun t => { t with waitPrep := rest })
  else s

/-- Preparation takes too long (R82). -/
def prepTimeoutOp (c : Nat) (s : State) : State :=
  if (s.txn c).state = .preparing then abortTxn s c 10 else s

/-- GO at T − 100 µs (R82). -/
def goOp (c : Nat) (s : State) : State :=
  let t := s.txn c
  if t.state = .pending ∧ !t.goSent ∧ t.apply ≤ s.time.now + 100000 then
    let s := s.modTxn c (fun t => { t with goSent := true, waitGo := t.channels })
    t.channels.foldl (fun s n => s.emit (.go c n)) s
  else s

/-- A channel has acknowledged GO (R82). -/
def goAckOp (c ch : Nat) (s : State) : State :=
  if (s.txn c).goSent then
    s.modTxn c (fun t => { t with waitGo := t.waitGo.filter (fun n => !(n == ch)) })
  else s

/-- T − 50 µs with an acknowledgement missing (R82). -/
def goDeadlineOp (c : Nat) (s : State) : State :=
  let t := s.txn c
  if t.state = .pending ∧ t.goSent ∧ t.waitGo ≠ [] then abortTxn s c 10 else s

/-- A channel leaves IN_SERVICE: every preparing or pending transaction that names it and has no GO
acknowledgement of it ends ABORTED (R82). -/
def txnChannelLeft (s : State) (n : Nat) : State :=
  (s.txns.map (·.1)).foldl (fun s c =>
    let t := s.txn c
    if (t.state = .preparing ∨ t.state = .pending) ∧ t.channels.contains n ∧ (!t.goSent ∨ t.waitGo.contains n)
    then abortTxn s c 10 else s) s

/-- Hub time ceases to be valid (R86). -/
def txnNoTime (s : State) : State :=
  (s.txns.map (·.1)).foldl (fun s c =>
    let t := s.txn c
    if (t.state = .preparing ∨ t.state = .pending) ∧ t.parts.isEmpty then abortTxn s c 7 else s) s

/-- Hub time has stepped forward: transactions whose instant it passed, or landed on (DESIGN CHOICE, log 131), end MISSED
(R86). -/
def txnStepped (s : State) : State :=
  (s.txns.map (·.1)).foldl (fun s c =>
    let t := s.txn c
    if (t.state = .pending ∨ (t.state = .preparing ∧ t.isAt)) ∧ t.apply ≤ s.time.now ∧ t.parts.isEmpty then
      abortTxn s c 9
    else s) s

/-- An FLR or a host-port reset reaches the context of function `fn` (R87, R107). -/
def txnFnReset (s : State) (fn : Nat) : State :=
  let t := s.txn fn
  if t.state = .pending ∧ (t.goSent ∨ t.apply ≤ s.time.now + 100000) then
    s.modTxn fn (fun t => { t with resetAfter := true })
  else
    let s := loseTxn s fn
    s.modTxn fn (fun _ => Txn.reset)

/-- HUB_TXN_STATUS, HUB_TXN_APPLY as R107 shows them. -/
def Txn.shown (t : Txn) : Txn := if t.resetAfter then Txn.reset else t

/- ### The commands -/

/-- BEGIN (R77). -/
def execBeginTxn (fn : Nat) (s : State) : Host.Outcome State Fault Refusal :=
  .next (ifServed (beginOp fn) s)

/-- COMMIT_NOW (R81). -/
def execCommitNow (fn : Nat) (s : State) : Host.Outcome State Fault Refusal :=
  .next (ifServed (commitOp fn false) s)

/-- COMMIT_AT (R81). -/
def execCommitAt (fn : Nat) (s : State) : Host.Outcome State Fault Refusal :=
  .next (ifServed (commitOp fn true) s)

/-- ROLLBACK (R84). -/
def execRollback (fn : Nat) (s : State) : Host.Outcome State Fault Refusal :=
  .next (ifServed (rollbackOp fn) s)

/-- PREPARE_ACK (R82). -/
def execPrepareAck (ctx ch : Nat) (s : State) : Host.Outcome State Fault Refusal :=
  .next (prepareAckOp ctx ch s)

/-- TXN_PREP_TIMEOUT (R82). -/
def execTxnPrepTimeout (ctx : Nat) (s : State) : Host.Outcome State Fault Refusal :=
  .next (prepTimeoutOp ctx s)

/-- TXN_GO (R82). -/
def execTxnGo (ctx : Nat) (s : State) : Host.Outcome State Fault Refusal :=
  .next (goOp ctx s)

/-- GO_ACK (R82). -/
def execGoAck (ctx ch : Nat) (s : State) : Host.Outcome State Fault Refusal :=
  .next (goAckOp ctx ch s)

/-- TXN_GO_DEADLINE (R82). -/
def execTxnGoDeadline (ctx : Nat) (s : State) : Host.Outcome State Fault Refusal :=
  .next (goDeadlineOp ctx s)

end Sys2Proof.Machine
end

