-- ==== Sys2Proof/Machine/Actions.lean ====
section
/-! DEFINITION. Timed actions (chapter 08): firing, cancellation, table stop and start, calibration and
LOOP_GROUP. -/

namespace Sys2Proof.Machine

/-- The channel tick nearest to an instant, ticks taken as 5 ns apart around the present one (R233; log 101). -/
def nearTick (now target : Nat) : Instant :=
  if now ≤ target then now + (target - now + 2) / 5 * 5 else now - (now - target + 2) / 5 * 5

/-- The stamp of a latch: the tick nearest to the instant less the compensation when the occurrence is on time
(R233). -/
def latchStamp (now occ comp : Nat) (nocomp onTime : Bool) : Instant :=
  if !onTime then now else nearTick now (if nocomp then occ else occ - comp)

/-- The entry has entered its resolution window: 20 µs before its earliest latch instant (R231). -/
def inWindow (s : State) (t : Nat) (e : Entry) : Bool :=
  e.occ e.done ≤ s.tblNow t + 20000 + entryLead s t e

/-- A terminal of channel `n` is the OUT of an enabled loop (R241, R271). -/
def termOwned (s : State) (n term : Nat) : Bool := (s.localPoints n term).any (fun h => s.loopOut h)

/-- DOUTs of an entry latch; an output already in its commanded state is not latched again (R233). -/
def fireDouts (s : State) (n : Nat) (mask value : BitVec 8) (stamp : Nat → Bool → Instant) : State :=
  (List.range 8).foldl (fun s d =>
    let v := value.getLsbD d
    if mask.getLsbD d && (s.dout n d).cmd ≠ v then driveDout s n d v (stamp d v) else s) s

/-- An AOUT of an entry latches. -/
def fireAout (s : State) (n t code : Nat) (stamp : Instant) : State :=
  if (s.aout n t).code = code ∧ !(s.aout n t).zero then s else driveAout s n t code stamp

/-- The frame of a FRAME entry, for its queue (R230): PRIO 7, and the entry it reports to. -/
def entryFrame (t i : Nat) (e : Entry) (f : TxFrame) : TxFrame :=
  { f with prio := 7, table := t, entry := i, gen := e.gen, basin := e.basin }

/-- What an occurrence does (R230, R241). `e` is the entry after the occurrence has been counted; the outcome of
a frame comes with the end of the frame. -/
def actOn (s : State) (t i : Nat) (e : Entry) (occ : Instant) : State :=
  let now := s.tblNow t
  let onTime : Bool := e.late = 0
  let last := e.isLast (e.done - 1)
  let ok := if onTime then oDone else oLate
  let stamp (c : Nat) := latchStamp now occ c e.nocomp onTime
  let fin (s : State) (outcome detail : Nat) := occOutcome s t i e outcome detail (e.late / 1000) last
  let wait (s : State) := s.modEnt t i (fun e => { e with waiting := true })
  match e.kind with
  | .dout mask value =>
    if (List.range 8).any (fun d => mask.getLsbD d && termOwned s t (16 + d)) then fin s oFailed 0x0C
    else if s.guardHolds t then fin s oFailed 0x10
    else fin (fireDouts s t mask value (fun d v => stamp (doutComp s t d v))) ok 0
  | .aout term code =>
    if termOwned s t (32 + term) then fin s oFailed 0x0C
    else if s.guardHolds t then fin s oFailed 0x10
    else fin (fireAout s t term code (stamp (fld (s.comp t (8 + term)) 0 16))) ok 0
  | .burst mask samples _ =>
    let k := (s.dio t).bursts.length
    fin (adcBurstOp t k (s.modDio t (fun c => { c with bursts := c.bursts ++ [{ mask := mask, left := samples }] }))) ok 0
  | .canFrame seg f =>
    let x := entryFrame t i e { TxFrame.blank with can := { f with brs := f.brs && s.dataRate t seg ≠ 0 } }
    if f.fdf && !s.fdEn t seg then fin s oFailed 0x0F else canEnqueue (wait s) t seg x
  | .txFrame target f =>
    let x := entryFrame t i e f
    if 32 ≤ target then netEnqueue (wait s) (target - 32) x
    else if target % 4 < 2 then canEnqueue (wait s) t (target % 4) x
    else segEnqueue (wait s) t (target % 4 - 2) x
  | .pointWrite h v =>
    (match amGet s.points h with
    | none => fin s oFailed 0x0B
    | some p =>
      if p.isHub then fin (acquire s h v 1 now) ok 0
      else if (s.ch t).state = .outOfService then fin s oFailed 0x10
      else if s.loopOut h then fin s oFailed 0x0C
      else if p.origin = 1 ∧ 16 ≤ p.index ∧ p.index < 24 then
        if s.guardHolds t then fin s oFailed 0x10
        else
          let d := p.index - 16
          let b : BitVec 8 := BitVec.ofNat 8 (2 ^ d)
          fin (fireDouts s t b (if v.toNat % 2 = 1 then b else 0) (fun d v => stamp (doutComp s t d v))) ok 0
      else if p.origin = 1 ∧ 32 ≤ p.index ∧ p.index < 36 then
        if s.guardHolds t then fin s oFailed 0x10
        else fin (fireAout s t (p.index - 32) (v.toNat % 65536) (stamp (fld (s.comp t (p.index - 24)) 0 16))) ok 0
      else writePoint (wait s) t h p v (entryFrame t i e TxFrame.blank))
  | .loopGroup _ _ => s

/-- An occurrence may act: the channel works or, stopped, the instant lies before H + 4 µs; the hub works or,
after a yield, the instant does not lie after H (R230, R421). -/
def mayFire (s : State) (t occ : Nat) : Bool :=
  if t < 8 then
    s.loopsRun t || ((s.ch t).stopped && !s.standby && occ < (s.ch t).stopH + 4000 &&
      ((s.ch t).state = .inService || (s.ch t).state = .linkLost))
  else !s.standby && (s.pair.yielding.isNone || occ ≤ s.pair.lastH)

/-- A descriptor entry fires: its cookie is remembered (R141). -/
def noteFired (s : State) (e : Entry) : State :=
  if e.origin = .declared ∨ s.fired.contains (e.basin, e.cookie) then s
  else { s with fired := s.fired ++ [(e.basin, e.cookie)] }

/-- An occurrence falls due (R230, R235 to R239): not before its earliest latch instant, unless `early`. Of several that
time has passed, only the latest is judged (R237); what a tick nearest to the instant leaves is no lateness. A new
occurrence of an entry whose frame still waits is OVERRUN (R236). -/
def fireEntry (early : Bool) (t i : Nat) (s : State) : State :=
  match amGet (s.tbl t).entries i with
  | none => s
  | some e =>
    let now := s.tblNow t
    let group := (match e.kind with | .loopGroup _ _ => true | _ => false)
    let k := max e.done (e.passedAt now - 1)
    let occ := e.occ k
    let spent : Bool := (match e.total with | some n => n ≤ e.done | none => false)
    if group || spent || e.st = .ended || e.st = .stopped || !s.tblValid t ||
        (!early && now + entryLead s t e + 2 < e.occ e.done) then s
    else if t < 8 ∧ !(s.ch t).tableEn then
      if e.origin = .declared || e.waiting then s else cancelEntry s t i e 0x24
    else if !mayFire s t occ then s
    else
      let late := if now < occ + 5 then 0 else now - occ
      let us := late / 1000
      let e' := { e with done := k + 1, skipped := e.skipped + (k - e.done), late := if e.waiting then e.late else late,
                         st := if e.period = 0 then .pending else .running }
      let last := e'.isLast k
      let s := s.modEnt t i (fun _ => { e' with skipDet := 0 })
      if e.tol ≠ 0xFFFF ∧ e.tol * 1000 < late then
        occOutcome s t i e' oMissed (if e.skipDet = 0 then 0x21 else e.skipDet) us (last && !e.waiting)
      else if e.waiting then actOutcome s t i e' oMissed 0x20 us false
      else
        let s := (s.modEnt t i (fun e => { e with last := some occ })).mirror (.actionLast t i occ)
        let s := noteFired s e
        actOn s t i { e' with last := some occ, skipDet := 0 } occ

/-- Terminals of a channel an entry drives: bit d DOUTd, bit 8 + t AOUTt (R231). -/
def entryTerms (s : State) (e : Entry) : Nat :=
  match e.kind with
  | .dout mask _ => mask.toNat
  | .aout term _ => 2 ^ (8 + term % 4)
  | .pointWrite h _ =>
    (match amGet s.points h with
    | some p =>
      if p.origin = 1 ∧ 16 ≤ p.index ∧ p.index < 24 then 2 ^ (p.index - 16)
      else if p.origin = 1 ∧ 32 ≤ p.index ∧ p.index < 36 then 2 ^ (p.index - 24)
      else 0
    | none => 0)
  | _ => 0

/-- Insert an entry by its order of acceptance. -/
def orderInsert (x : Nat × Entry) : List (Nat × Entry) → List (Nat × Entry)
  | [] => [x]
  | y :: t => if x.2.order < y.2.order then x :: y :: t else y :: orderInsert x t

/-- Entries accepted before `e` that act on one of its terminals at the same instant, in the order of acceptance (R231). -/
def firesBefore (s : State) (t : Nat) (e : Entry) : List Nat :=
  (((s.tbl t).entries.filter (fun p => p.2.order < e.order && p.2.occ p.2.done == e.occ e.done &&
    Nat.land (entryTerms s p.2) (entryTerms s e) ≠ 0)).foldl (fun l p => orderInsert p l) []).map (·.1)

/-- ACTION_FIRE: an occurrence falls due. Entries for the same terminal and instant that their table accepted earlier act
first, so that the one accepted last decides (R231). -/
def actionFireOp (t i : Nat) (s : State) : State :=
  match amGet (s.tbl t).entries i with
  | none => s
  | some e =>
    let s := if s.tblNow t + entryLead s t e + 2 < e.occ e.done then s
      else (firesBefore s t e).foldl (fun s j => fireEntry true t j s) s
    fireEntry false t i s

/-- Every index of a table in use. -/
def State.tblKeys (s : State) (t : Nat) : List Nat := (s.tbl t).entries.map (·.1)

/-- Time of a table becomes valid, or its entries return from an outage (R239, R247): occurrences passed in an
outage are MISSED with OUTAGE and none acts; those passed while time was invalid are judged when they fire. -/
def actTimeValid (s : State) (t : Nat) : State :=
  (s.tblKeys t).foldl (fun s i =>
    match amGet (s.tbl t).entries i with
    | none => s
    | some e =>
      let k := e.passedAt (s.tblNow t)
      if e.st = .ended ∨ e.st = .stopped then s
      else if e.skipDet = 0x22 then
        if e.done < k then
          let e' := { e with done := k, skipped := k - e.done - 1, skipDet := 0,
                             st := if e.period = 0 then e.st else .running }
          occOutcome (s.modEnt t i (fun _ => e')) t i e' oMissed 0x22 0 (e'.isLast (k - 1))
        else s.modEnt t i (fun e => { e with skipDet := 0 })
      else s.modEnt t i (fun e => { e with skipDet := if e.done < k then 0x28 else 0 })) s

/-- Time of a table has stepped back (R238): a periodic entry waits for its first occurrence after LAST; one that is being
prepared keeps its occurrence. -/
def actSteppedBack (s : State) (t : Nat) : State :=
  s.modTbl t (fun b => { b with entries := b.entries.map (fun p =>
    let e := p.2
    if e.period = 0 ∨ e.prep.isSome then p
    else
      let after := match e.last with
        | some l => if l < e.start then 0 else (l - e.start) / (125000 * e.period) + 1
        | none => 0
      (p.1, { e with done := min e.done (max after (e.passedAt (s.tblNow t))) })) })

/- ### Cancellation (R243, R244) -/

/-- CANCEL_BY_COOKIE in one table: the state, the entries removed and those that count as fired. The table of a channel
whose link is lost is out of reach (R30). -/
def cancelIn (t basin : Nat) (cookie : Slot) (acc : State × Nat × Nat) : State × Nat × Nat :=
  (if t < 8 ∧ acc.1.linkDown t then [] else acc.1.tblKeys t).foldl (fun a i =>
    match amGet (a.1.tbl t).entries i with
    | none => a
    | some e =>
      if e.origin ≠ .declared ∧ e.basin = basin ∧ e.cookie = cookie then
        if e.waiting || inWindow a.1 t e then (a.1, a.2.1, a.2.2 + 1)
        else (cancelEntry a.1 t i e 0x29, a.2.1 + 1, a.2.2)
      else a) acc

/-- CANCEL_BY_COOKIE in every table: the state and the status of the request (R141). Entries that fired before,
and are gone, count as fired. -/
def cancelCookie (s : State) (basin : Nat) (cookie : Slot) : State × Nat :=
  let r := (List.range 9).foldl (fun a t => cancelIn t basin cookie a) (s, 0, 0)
  (r.1, if r.2.1 ≠ 0 then 0 else if r.2.2 ≠ 0 ∨ s.fired.contains (basin, cookie) then 3 else 4)

/-- WITHDRAW of a declared action (R244): an occurrence in the resolution window acts first. A LOOP_GROUP in preparation is
called off with its shadows, unless GO has been sent: then it acts, and ends when it has. The table of a channel whose link
is lost learns of it at the return (R30). -/
def withdrawEntry (s : State) (t i : Nat) : State :=
  if t < 8 ∧ s.linkDown t then s else
  let s := (match amGet (s.tbl t).entries i with
    | some e => if inWindow s t e && e.st ≠ .ended && e.st ≠ .stopped then fireEntry true t i s else s
    | none => s)
  match amGet (s.tbl t).entries i with
  | some e =>
    if e.st = .ended then s.modTbl t (fun b => { b with entries := amDel b.entries i })
    else if t = 8 ∧ e.prep.isSome then
      if (s.txn (128 + i)).goSent then s.modEnt 8 i (fun e => { e with skipDet := 0x23 })
      else
        let s := (s.txn (128 + i)).channels.foldl (fun s n => s.emit (.abort (128 + i) n)) s
        cancelEntry (s.modTxn (128 + i) (fun _ => Txn.reset)) t i e 0x23
    else cancelEntry s t i e 0x23
  | none => s

/- ### Stopping and starting a table (R245) -/

/-- TABLE_DISABLE. -/
def tableOffOp (n : Nat) (s : State) : State :=
  if !(s.ch n).tableEn then s
  else
    let s := (s.setReg (chBase n + 0x20000) 0).modCh n (fun c => { c with tableEn := false })
    (s.tblKeys n).foldl (fun s i =>
      match amGet (s.tbl n).entries i with
      | none => s
      | some e =>
        if e.origin ≠ .declared then (if e.waiting then s else cancelEntry s n i e 0x24)
        else if e.st = .ended ∨ e.st = .stopped then s
        else (actOutcome s n i e oCancelled 0x24 0 false).modEnt n i (fun e => { e with st := .stopped })) s

/-- TABLE_ENABLE. -/
def tableOnOp (n : Nat) (s : State) : State :=
  if (s.ch n).tableEn then s
  else
    let s := (s.setReg (chBase n + 0x20000) 1).modCh n (fun c => { c with tableEn := true })
    s.modTbl n (fun b => { b with entries := b.entries.map (fun p =>
      if p.2.st = .stopped then (p.1, { p.2 with st := if p.2.done = 0 then .pending else .running }) else p) })

/- ### Calibration (R234) -/

/-- CAL is accepted. -/
def calOk (s : State) (n : Nat) (sel : Word) : Bool :=
  (s.lc.state = 2 || s.lc.state = 4) && (s.dio n).fsupOk &&
  (List.range 8).all (fun d => !bitN sel d || (!termOwned s n (16 + d) && !s.wor n d)) &&
  (List.range 4).all (fun t => !bitN sel (8 + t) || !termOwned s n (32 + t))

/-- CHn_TA_CAL written. -/
def calStartOp (n : Nat) (sel : Word) (s : State) : State :=
  if (s.dio n).cal.isSome then s
  else
    let s := s.setReg (chBase n + 0x20010) (sel &&& 0xFFF)
    if !bitN sel 16 then s
    else if calOk s n sel then s.modDio n (fun c => { c with cal := some (sel &&& 0xFFF), calErr := false })
    else s.modDio n (fun c => { c with calErr := true })

/-- CAL ends: the delays measured are written over the values of the selected terminals; the outputs are back
in their commanded states. -/
def calDoneOp (n : Nat) (results : List (Nat × Nat × Nat)) (s : State) : State :=
  match (s.dio n).cal with
  | none => s
  | some sel =>
    let s := results.foldl (fun s r =>
      if r.1 < 12 ∧ bitN sel r.1 then
        s.setReg (chBase n + 0x20100 + 4 * r.1)
          (BitVec.ofNat 32 (r.2.1 % 65536 + if r.1 < 8 then r.2.2 % 65536 * 65536 else 0))
      else s) s
    s.modDio n (fun c => { c with cal := none })

/- ### LOOP_GROUP (R249) -/

/-- The staged write of a loop's CTL for an operation. -/
def groupWrite (s : State) (op : Nat) (l : Loop) : Staged :=
  let w := s.slotReg l.channel l.slot 0
  { key := slotKey l.channel l.slot 0, be := 1,
    data := match op with
      | 0 => w ||| 1 | 1 => w &&& ~~~1 | 2 => w &&& ~~~2 | _ => w ||| 2 }

/-- LOOP_GROUP_PREPARE: from 10 ms before the instant the entry is a transaction over its loops' slots. -/
def groupPrepOp (i : Nat) (s : State) : State :=
  match amGet s.hlist.entries i with
  | none => s
  | some e =>
    match e.kind with
    | .loopGroup op ids =>
      let now := s.time.now
      let k := max e.done (e.passedAt now - 1)
      let t0 := ceilSample (e.occ k)
      let spent : Bool := (match e.total with | some n => n ≤ e.done | none => false)
      if spent || e.st = .ended || e.st = .stopped || e.prep.isSome || !s.timeValid || s.standby ||
          now + 10000000 + 1000 < t0 then s
      else
        let t := if now + 10000000 ≤ t0 + 1000 then t0 else ceilSample (now + 10000000)
        let us := (t - t0) / 1000
        let e' := { e with done := k + 1, skipped := e.skipped + (k - e.done), late := t - t0,
                           st := if e.period = 0 then .pending else .running }
        let s := s.modEnt 8 i (fun _ => { e' with skipDet := 0 })
        let ls := ids.filterMap (fun id => amGet s.ws.loops id)
        let chans := (List.range 8).filter (fun n => ls.any (fun l => l.channel == n))
        let c := 128 + i
        let staged := ls.map (groupWrite s op)
        if e.tol ≠ 0xFFFF ∧ e.tol * 1000 < t - t0 then
          occOutcome s 8 i e' oMissed
            (if e.skipDet ≠ 0 then e.skipDet else if e.occ k ≤ now then 0x21 else 0x27) us (e'.isLast k)
        else if ls.length ≠ ids.length ∨ ls.any (fun l => l.st == .pending || l.st == .stopped || l.gone) then
          occOutcome s 8 i e' oFailed 0x10 us (e'.isLast k)
        else
          let s := { s.modTxn c (fun _ => { Txn.reset with
            state := .preparing, id := s.nextTxn, scope := chans.foldl (fun m n => m + 2 ^ n) 0, staged := staged,
            apply := t, isAt := true, waitPrep := chans ++ [8] }) with nextTxn := (s.nextTxn + 1) % 2 ^ 32 }
          let s := s.modEnt 8 i (fun e => { e with prep := some chans })
          if conflicts s c || chans.any (fun n => !s.inService n) then abortTxn s c 10
          else (chans ++ [8]).foldl (fun s n => s.emit (.shadow c n)) s
    | _ => s

/- ### The commands -/

/-- ACTION_FIRE (R230). -/
def execActionFire (table idx : Nat) (s : State) : Host.Outcome State Fault Refusal :=
  .next (actionFireOp table idx s)

/-- LOOP_GROUP_PREPARE (R249). -/
def execLoopGroupPrepare (idx : Nat) (s : State) : Host.Outcome State Fault Refusal :=
  .next (groupPrepOp idx s)

/-- CAL_START (R234). -/
def execCalStart (ch : Nat) (sel : Word) (s : State) : Host.Outcome State Fault Refusal :=
  .next (ifReaches (chBase ch + 0x20010) (calStartOp ch sel) s)

/-- CAL_DONE (R234). -/
def execCalDone (ch : Nat) (results : List (Nat × Nat × Nat)) (s : State) : Host.Outcome State Fault Refusal :=
  .next (calDoneOp ch results s)

/-- TABLE_DISABLE (R245). -/
def execTableDisable (ch : Nat) (s : State) : Host.Outcome State Fault Refusal :=
  .next (ifReaches (chBase ch + 0x20000) (tableOffOp ch) s)

/-- TABLE_ENABLE (R245). -/
def execTableEnable (ch : Nat) (s : State) : Host.Outcome State Fault Refusal :=
  .next (ifReaches (chBase ch + 0x20000) (tableOnOp ch) s)

end Sys2Proof.Machine
end

