-- ==== Sys2Proof/Machine/Calendar.lean ====
section
/-! DEFINITION. Arithmetic of the calendar (chapter 16, R445, R447 to R449). -/

namespace Sys2Proof.Machine

/-- Leap year of 2000 + YEAR (R445). -/
def leapYear (y : Nat) : Bool := ((2000 + y) % 4 = 0 && (2000 + y) % 100 ≠ 0) || (2000 + y) % 400 = 0

/-- Days of a month; months 0 and 13 to 15 have 31 (R447). -/
def monthLen (y m : Nat) : Nat :=
  match m with
  | 2 => if leapYear y then 29 else 28
  | 4 | 6 | 9 | 11 => 30
  | _ => 31

/-- A date and time is valid (R445). -/
def Cal.ok (c : Cal) : Bool :=
  c.year < 400 && 1 ≤ c.month && c.month ≤ 12 && 1 ≤ c.day && c.day ≤ monthLen c.year c.month && c.hour < 24 &&
    c.min < 60 && c.sec < 60 && c.wday < 7

/-- Leap days before 1 January of a year. -/
def leapDays (y : Nat) : Nat := (y - 1) / 4 - (y - 1) / 100 + (y - 1) / 400

/-- Days from 1970-01-01 to 1 January of 2000 + YEAR. -/
def yearDays (y : Nat) : Nat := (30 + y) * 365 + leapDays (2000 + y) - leapDays 1970

/-- Days from 1970-01-01 to a calendar date, fields read as numbers (R449, R453). -/
def dateDays (y m d : Nat) : Int :=
  (yearDays y : Int) + (if m = 0 then -31 else (((List.range (m - 1)).foldl (fun n k => n + monthLen y (k + 1)) 0 : Nat) : Int)) +
    (d : Int) - 1

/-- PTP seconds of a calendar value (R449). -/
def Cal.secs (c : Cal) : Int := dateDays c.year c.month c.day * 86400 + c.hour * 3600 + c.min * 60 + c.sec

/-- PTP time of a calendar value, PRESC rounded to the nearest nanosecond (R449); before 1970 it is 0. -/
def Cal.instant (c : Cal) : Instant := (c.secs * giga + roundDiv (c.presc * 1000000000) 32768).toNat

/-- The month and day of a day of the year counted from 0. -/
def monthDay (y : Nat) : List Nat → Nat → Nat × Nat
  | [], d => (12, d + 1)
  | m :: t, d => if d < monthLen y m then (m, d + 1) else monthDay y t (d - monthLen y m)

/-- The calendar value of a whole second of PTP time with a weekday; none outside 2000 to 2399 (R450). -/
def calOf (secs wday : Nat) : Option Cal :=
  let days := secs / 86400
  let r := secs % 86400
  match (List.range 400).find? (fun y => yearDays y ≤ days && days < yearDays (y + 1)) with
  | none => none
  | some y =>
    let md := monthDay y [1, 2, 3, 4, 5, 6, 7, 8, 9, 10, 11, 12] (days - yearDays y)
    some { presc := 0, sec := r % 60, min := r / 60 % 60, hour := r / 3600, wday := wday, day := md.2,
           month := md.1, year := y }

/-- CALT (R458). -/
def Cal.timeWord (c : Cal) : Word := mkFld 0 6 c.sec ||| mkFld 8 6 c.min ||| mkFld 16 5 c.hour ||| mkFld 24 3 c.wday

/-- CALD (R458). -/
def Cal.dateWord (c : Cal) : Word := mkFld 0 5 c.day ||| mkFld 8 4 c.month ||| mkFld 16 9 c.year

/-- The value of SETT and SETD, with PRESC 0 (R446). -/
def calWords (t d : Word) : Cal :=
  { presc := 0, sec := fld t 0 6, min := fld t 8 6, hour := fld t 16 5, wday := fld t 24 3, day := fld d 0 5,
    month := fld d 8 4, year := fld d 16 9 }

/-- The calendar one second later (R447, R448). -/
def Cal.tick (c : Cal) : Cal :=
  let sec := c.sec + 1
  if sec ≠ 60 ∧ sec ≠ 64 then { c with sec := sec }
  else
    let min := c.min + 1
    if min ≠ 60 ∧ min ≠ 64 then { c with sec := 0, min := min }
    else
      let hour := c.hour + 1
      if hour ≠ 24 ∧ hour ≠ 32 then { c with sec := 0, min := 0, hour := hour }
      else
        let c := { c with sec := 0, min := 0, hour := 0, wday := if c.wday = 6 ∨ c.wday = 7 then 0 else c.wday + 1 }
        let day := c.day + 1
        if day = monthLen c.year c.month + 1 then
          let month := c.month + 1
          if month = 13 ∧ c.month = 12 ∨ month = 16 then
            { c with day := 1, month := 1, year := if c.year + 1 = 400 ∨ c.year + 1 = 512 then 0 else c.year + 1 }
          else { c with day := 1, month := month }
        else if day = 32 then { c with day := 0 }
        else { c with day := day }

/-- Source 4 of R196 is available (R196, R443, R449). -/
def State.rtcAvailable (s : State) : Bool := !s.bkp.osf && !s.pwr.backupLost && s.bkp.cal.ok

end Sys2Proof.Machine
end

