-- ==== Sys2Proof/Machine/Flags.lean ====
section
/-! DEFINITION. Status words and interrupt flags as software reads them, and the write-1-to-clear rules of
the shared ones. -/

namespace Sys2Proof.Machine

/-- STATE of a ring as STAT reads it (R147). -/
def RingState.code : RingState → Nat
  | .disabled => 0 | .active => 1 | .disabling => 2 | .halted => 3 | .waitService => 4

/-- HUB_RING_STATk. -/
def ringStat (r : Ring) : Word :=
  BitVec.ofNat 32 (r.state.code + (if r.cfgErr then 8 else 0) + (if r.dbErr then 16 else 0) +
    r.haltCause % 8 * 32 + r.hw % 65536 * 65536)

/-- HUB_RING_EVSTATb. -/
def evStat (r : EvRing) : Word :=
  BitVec.ofNat 32 (r.state.code + (if r.cfgErr then 8 else 0) + (if r.dbErr then 16 else 0) + r.hw % 65536 * 65536)

/-- STATE of a channel (R32). -/
def ChState.code : ChState → Nat
  | .absent => 0 | .starting => 1 | .inService => 2 | .outOfService => 3 | .linkLost => 4 | .fault => 5

/-- Point service has begun and the module serves it: rings become ACTIVE at enable (R103, R144, R400). On a
STANDBY or SYNCING module only basin 0's event ring runs. -/
def State.serves (s : State) : Bool := s.pwr.service && !s.standby

/-- W1C of HUB_HP_ALERT (R112): QUARANTINE is read only. -/
def clearAlert (s : State) (w : Word) : State :=
  { s with host := { s.host with alert := s.host.alert &&& ~~~(w &&& 0x3FE) } }

/-- W1C of an interrupt register at a key. -/
def clearInt (s : State) (key : Nat) (w : Word) : State := s.setReg key (s.reg key &&& ~~~w)

/-- HUB_HP_FNSTATb (R112). -/
def fnStat (s : State) (b : Nat) : Word :=
  let f := s.fn b
  mkBit 0 (s.fnEn b) ||| mkBit 1 f.mse ||| mkBit 2 f.bme ||| mkBit 3 f.msixEn ||| mkBit 4 f.flrBusy |||
    mkBit 5 f.d3hot ||| mkFld 16 16 f.withheld

/-- Pending vectors that may be sent now are sent (R99, R529). -/
def sendPending (s : State) (b : Nat) : State :=
  (s.fn b).pba.foldl (fun s v =>
    (s.modFn b (fun f => { f with pba := f.pba.filter (fun x => !(x == v)) })).sendVec b v) s

/-- CHn_CTL_STATE.STATE changes: vector 16 + n (R98). -/
def setChState (s : State) (n : Nat) (st : ChState) : State :=
  if (s.ch n).state = st then s else (s.modCh n (fun c => { c with state := st })).sendVec 0 (16 + n)

end Sys2Proof.Machine
end

