-- ==== Sys2Proof/Machine/Operands.lean ====
section
/-! DEFINITION. The fields of the descriptors software writes (R125 to R129) and of the declaration records
(R154 to R162). -/

namespace Sys2Proof.Machine

/-- Field of `n` bits of a 32-byte descriptor from byte `o`, bit `lo`. -/
def d32 (d : BitVec 256) (o lo n : Nat) : Nat := d.toNat / 2 ^ (8 * o + lo) % 2 ^ n

/-- Field of a 64-byte descriptor. -/
def d64 (d : BitVec 512) (o lo n : Nat) : Nat := d.toNat / 2 ^ (8 * o + lo) % 2 ^ n

/-- DKIND of a descriptor of a CMD_OUT ring. -/
def cmdKind (d : BitVec 256) : Nat := d32 d 30 0 8

/-- COOKIE of a descriptor of a CMD_OUT ring (R125, R126). -/
def cmdCookie (d : BitVec 256) : Slot := BitVec.ofNat 64 (d32 d 8 0 64)

/-- VALUE of a point command (R125). -/
def cmdValue (d : BitVec 256) : Slot := BitVec.ofNat 64 (d32 d 0 0 64)

/-- HANDLE of a point command. -/
def cmdHandle (d : BitVec 256) : Nat := d32 d 28 0 14

/-- TYPE of a point command. -/
def cmdType (d : BitVec 256) : Nat := d32 d 31 0 3

/-- AT of a point command. -/
def cmdAt (d : BitVec 256) : Bool := d32 d 31 3 1 = 1

/-- AT_NS of a point command. -/
def cmdNs (d : BitVec 256) : Nat := d32 d 16 0 32

/-- Execution instant of a point command. -/
def cmdInstant (d : BitVec 256) : Instant := mkInstant (cmdNs d) (d32 d 20 0 48)

/-- TOL of a point command. -/
def cmdTol (d : BitVec 256) : Nat := d32 d 26 0 16

/-- BY_COOKIE of a cancel descriptor (R126). -/
def cancelBy (d : BitVec 256) : Bool := d32 d 26 4 1 = 1

/-- COOKIE of a frame descriptor (R127). -/
def frmCookie (d : BitVec 512) : Slot := BitVec.ofNat 64 (d64 d 8 0 64)

/-- SOP and EOP of a frame descriptor. -/
def frmSop (d : BitVec 512) : Bool := d64 d 23 0 1 = 1
def frmEop (d : BitVec 512) : Bool := d64 d 23 1 1 = 1

/-- TARGET of a frame. -/
def frmTarget (d : BitVec 512) : Nat := d64 d 20 0 6

/-- FRAME_LEN of a frame. -/
def frmLen (d : BitVec 512) : Nat := d64 d 18 0 16

/-- DEST_NODE of a frame. -/
def frmDest (d : BitVec 512) : Nat := d64 d 21 0 8

/-- AT of a frame. -/
def frmAt (d : BitVec 512) : Bool := d64 d 23 4 1 = 1

/-- AT_NS of a frame. -/
def frmNs (d : BitVec 512) : Nat := d64 d 32 0 32

/-- Transmission instant of a frame. -/
def frmInstant (d : BitVec 512) : Instant := mkInstant (frmNs d) (d64 d 36 0 48)

/-- TOL of a frame. -/
def frmTol (d : BitVec 512) : Nat := d64 d 42 0 16

/-- CAN identifier of a frame; 11-bit ones lie in bits 10 to 0. -/
def frmCanId (d : BitVec 512) : Nat := if d64 d 24 29 1 = 1 then d64 d 24 0 29 else d64 d 24 0 11

/-- The target of a frame is a CAN controller (R127). -/
def canTarget (t : Nat) : Bool := t < 32 && t % 4 < 2

/-- Every descriptor of a chain is well formed and the chain is whole (R127, R128); DKIND is judged on every descriptor
(DESIGN CHOICE, log 123). -/
def chainOk (chain : List (BitVec 512)) : Bool :=
  match chain with
  | [] => false
  | d :: t =>
    frmSop d && (t.all (fun x => !frmSop x)) && (chain.getLast?.map frmEop).getD false &&
    chain.all (fun x => d64 x 62 0 8 == 0x20 && 1 ≤ d64 x 16 0 16 && d64 x 16 0 16 ≤ 4096) &&
    (if canTarget (frmTarget d) then t.isEmpty
     else chain.length ≤ 8 && chain.foldl (fun n x => n + d64 x 16 0 16) 0 == frmLen d)

/-- What the ring engine takes as one chain (R128): no SOP after its first descriptor, no EOP before its last. -/
def oneChain (chain : List (BitVec 512)) : Bool :=
  !chain.isEmpty && (chain.drop 1).all (fun x => !frmSop x) && chain.dropLast.all (fun x => !frmEop x)

/- ### Declaration records (R154) -/

/-- Field of `n` bits of a 64-byte record held in sixteen words, from byte `o`, bit `lo`. -/
def rec64 (ws : List Word) (o lo n : Nat) : Nat :=
  (ws.foldr (fun w v => w.toNat + 2 ^ 32 * v) 0) / 2 ^ (8 * o + lo) % 2 ^ n

/-- One bit of a record. -/
def recBit (ws : List Word) (o lo : Nat) : Bool := rec64 ws o lo 1 = 1

/-- The record with a field overwritten (QUERY, R164). -/
def recSet (ws : List Word) (o lo n v : Nat) : List Word :=
  ws.modify (o / 4) (fun w =>
    let p := 8 * (o % 4) + lo
    (w &&& ~~~(mkFld p n (2 ^ n - 1))) ||| mkFld p n v)

/-- Bit ranges of a record used by its kind: (byte, low bit, bits). All other bits are reserved (R154). -/
def recFields : Nat → List (Nat × Nat × Nat)
  | 1 => [(8, 0, 3), (9, 0, 5), (10, 0, 8), (11, 0, 8), (12, 0, 6), (14, 0, 16), (16, 0, 8), (20, 0, 30), (24, 0, 30)]
  | 2 => [(1, 0, 1), (8, 0, 7), (9, 0, 7), (10, 0, 5), (11, 0, 6), (12, 0, 16), (14, 0, 5), (16, 0, 32), (20, 0, 16),
          (22, 0, 16), (24, 0, 16), (28, 0, 30), (32, 0, 6), (33, 0, 3), (33, 4, 2)]
  | 3 => [(1, 0, 1), (8, 0, 3), (9, 0, 3), (10, 0, 10), (12, 0, 20), (16, 0, 20), (20, 0, 14), (22, 0, 16), (24, 0, 14),
          (26, 0, 16), (28, 0, 16)]
  | 4 => [(8, 0, 5), (9, 0, 3), (10, 0, 5), (11, 0, 8), (12, 0, 29), (16, 0, 29)]
  | 6 => [(8, 0, 6), (9, 0, 6), (10, 0, 14), (12, 0, 9), (14, 0, 5), (16, 0, 48)]
  | _ => []

/-- Bit ranges of an ACTION record by its KIND (R227, R228). -/
def actFields (kind : Nat) : List (Nat × Nat × Nat) :=
  [(8, 0, 4), (9, 0, 2), (10, 0, 16), (12, 0, 32), (16, 0, 48), (24, 0, 32), (28, 0, 16), (30, 0, 5)] ++
  (match kind with
  | 0 => [(32, 0, 16)]
  | 1 => [(32, 0, 2), (34, 0, 16)]
  | 2 => [(32, 0, 8), (34, 0, 16), (36, 0, 16)]
  | 3 => [(32, 0, 32), (36, 0, 6), (38, 0, 128)]
  | 4 => [(32, 0, 14), (34, 0, 3), (40, 0, 64)]
  | 5 => [(32, 0, 2), (33, 0, 8)] ++ (List.range 11).map (fun i => (34 + 2 * i, 0, 13))
  | _ => [])

/-- Mask of the bits a kind of record uses, with the header's DTYPE and REQ_ID. -/
def recMask (fields : List (Nat × Nat × Nat)) : Nat :=
  ((0, 0, 8) :: (2, 0, 16) :: fields).foldl (fun m f => m ||| ((2 ^ f.2.2 - 1) <<< (8 * f.1 + f.2.1))) 0

/-- No reserved bit of a record is set. -/
def recClean (ws : List Word) (fields : List (Nat × Nat × Nat)) : Bool :=
  let v := ws.foldr (fun w v => w.toNat + 2 ^ 32 * v) 0
  v &&& recMask fields = v

end Sys2Proof.Machine
end

