-- ==== Sys2Proof/Machine/Rings.lean ====
section
/-! DEFINITION. The ring engine (chapter 05): doorbells, enabling, disabling and halting rings, the descriptors
it fetches, and the frames it delivers. -/

namespace Sys2Proof.Machine

/- ### Doorbells (R121 to R123, R143) -/

/-- An invalid index value (R122): DB_ERR, and RING_DB_ERR the first time. -/
def dbError (s : State) (k field refused inForce : Nat) : State :=
  let r := s.ring k
  let s := s.modRing k (fun r => { r with dbErr := true })
  if r.dbErr then s
  else raise s (ringFn k) 7 (ringFn k)
    ([BitVec.ofNat 8 (k % 16), BitVec.ofNat 8 field] ++ bytesLE 2 refused ++ bytesLE 2 inForce)

/-- A producer index is valid (R122). -/
def producerOk (r : Ring) (p : Nat) : Bool := idxDist p r.sw ≤ r.slots && idxDist p r.hw ≤ r.slots

/-- A consumer index is valid against the module's matching index (R122). -/
def consumerOk (prev module' c : Nat) : Bool := idxDist c prev ≤ idxDist module' prev

/-- IDX of a doorbell: the consumer index of UPD_IN, the producer index of the other kinds. -/
def dbIdx (s : State) (k v : Nat) : State :=
  let r := s.ring k
  if (if r.kind = 0 then consumerOk r.sw r.hw v else producerOk r v) then s.modRing k (fun r => { r with sw := v })
  else dbError s k 0 v r.sw

/-- CPL_CONS of a doorbell. -/
def dbCpl (s : State) (k v : Nat) : State :=
  let r := s.ring k
  if r.kind ≠ 1 ∧ r.kind ≠ 2 then s
  else if consumerOk r.cplCons r.cpl v then s.modRing k (fun r => { r with cplCons := v })
  else dbError s k 1 v r.cplCons

/-- ARM of a doorbell: the interrupt may be sent as soon as R142 allows. -/
def dbArm (s : State) (k : Nat) : State :=
  let s := s.modRing k (fun r => { r with armed := true })
  ringNotify s k (ringDue s k)

/-- DOORBELL. A write that enables one byte of a 16-bit index leaves that index unchanged. -/
def doorbellOp (b r : Nat) (be : BitVec 8) (data : BitVec 64) (s : State) : State :=
  let k := 16 * b + r
  let st := (s.ring k).state
  if 16 ≤ r ∨ s.lc.quar ≠ 0 then s
  else
    let run : Bool := st = .active || st = .waitService
    let idx : Bool := be.getLsbD 0 && be.getLsbD 1
    let arm : Bool := be.getLsbD 2 && data.getLsbD 16
    let cpl : Bool := be.getLsbD 4 && be.getLsbD 5
    let s := if run && idx then dbIdx s k (data.toNat % 65536) else s
    let s := if (run || st = .disabling) && cpl then dbCpl s k (data.toNat / 2 ^ 32 % 65536) else s
    if run && arm then dbArm s k else s

/-- EVCONS_WRITE (R122, R143): space in the ring lets held records out (R134). A DISABLED event ring ignores it, as R123
has it for doorbells; the spec does not say so (DESIGN CHOICE, log 121). -/
def evconsOp (b : Nat) (data : Word) (s : State) : State :=
  let r := s.ev b
  if r.state = .disabled then s
  else
    let c := fld data 0 16
    let s := (if consumerOk r.cons r.hw c then s.modEv b (fun r => { r with cons := c })
      else
        let s := s.modEv b (fun r => { r with dbErr := true })
        if r.dbErr then s
        else raise s b 7 b ([16, 2] ++ bytesLE 2 c ++ bytesLE 2 r.cons))
    let s := if bitN data 16 then s.modEv b (fun r => { r with armed := true }) else s
    let s := s.flushEv b
    evNotify s b (bitN data 16 && evDue s b)

/-- A change waits for a pass (R179): the first trigger of several is reported. -/
def trigger (s : State) (t : Nat) : State :=
  s.modWs (fun w => { w with trigger := match w.trigger with | some x => some x | none => some t })

/- ### Enabling and disabling (R144 to R146) -/

/-- BASE and WB of a ring are non-zero and aligned (R144). -/
def addrsOk (s : State) (base : Nat) : Bool :=
  s.reg64 (base + 8) ≠ 0 && s.reg64 (base + 16) ≠ 0 && s.reg64 (base + 8) % 4096 = 0 &&
  s.reg64 (base + 16) % 4096 = 0

/-- Vector Watershed gives a ring at enable (R171). -/
def ringVector (k : Nat) : Nat := if ringFn k = 0 then 32 + k % 16 else 1 + k % 16

/-- RING_ENABLE: a DISABLED ring becomes ACTIVE, or WAIT_SERVICE before point service; a bad configuration sets
CFG_ERR. Every status of the ring starts anew, DB_ERR among them (DESIGN CHOICE, log 122). -/
def ringEnableOp (b r : Nat) (ctl : Word) (s : State) : State :=
  let k := 16 * b + r
  if (s.ring k).state ≠ .disabled ∨ 16 ≤ r then s
  else
    let kind := fld ctl 1 3
    let lg := fld ctl 4 4
    if 3 < kind ∨ lg < 6 ∨ 15 < lg ∨ !addrsOk s (ringBase k) ∨ !(s.fn b).bme then
      (s.setReg (ringBase k) (ctl &&& 0xFF)).modRing k (fun r => { r with cfgErr := true })
    else
      let s := s.setReg (ringBase k) (ctl &&& 0xFF)
      let s := if s.pins.contains (ringBase k + 0x18) then s
        else s.setReg (ringBase k + 0x18) (BitVec.ofNat 32 (ringVector k))
      let s := s.modRing k (fun _ =>
        { Ring.reset with state := if s.serves then .active else .waitService, kind := kind, sizeLog2 := lg,
                          armed := true })
      trigger (writeIdx s k) 1

/-- A ring reaches DISABLED: index record, then its vector (R119, R142, R145). -/
def ringOff (s : State) (k : Nat) : State :=
  let s := ringNotify (writeIdx s k) k true
  (s.modRing k (fun r => { r with state := .disabled })).setReg (ringBase k) (s.reg (ringBase k) &&& 0xFE)

/-- Split a list of frames into those that stay and those of ring `k` that a disable cancels: a frame that
carries a point command is awaited (R145). -/
def keepFrame (k : Nat) (f : TxFrame) : Bool := f.ring ≠ k || !f.points.isEmpty

/-- Frames of ring `k` queued in channel `n` complete CANCELLED, but for one on the wire (R145). -/
def flushChan (s : State) (n k : Nat) : State :=
  let s := [0, 1].foldl (fun s x =>
    let c := s.can n x
    let (head, q) := if c.won then (c.txq.take 1, c.txq.drop 1) else ([], c.txq)
    endFrames (s.modCan n x (fun c => { c with txq := head ++ q.filter (keepFrame k) })) n
      (q.filter (fun f => !keepFrame k f)) 2 0x2A 0) s
  [0, 1].foldl (fun s x =>
    let c := s.seg n x
    let (head, q) := if c.busy then (c.txq.take 1, c.txq.drop 1) else ([], c.txq)
    endFrames (s.modSeg n x (fun c => { c with txq := head ++ q.filter (keepFrame k) })) n
      (q.filter (fun f => !keepFrame k f)) 2 0x2A 0) s

/-- Frames of ring `k` queued at a backbone port complete CANCELLED (R145, R350). -/
def flushNet (s : State) (p k : Nat) : State :=
  let c := s.net p
  endFrames (s.modNet p (fun c =>
      { c with express := c.express.filter (keepFrame k), preempt := c.preempt.filter (keepFrame k) })) 8
    ((c.express ++ c.preempt).filter (fun f => !keepFrame k f)) 2 0x2A 0

/-- Commands of ring `k` that have not reached their channel complete CANCELLED (R145). -/
def flushCmds (s : State) (n k : Nat) : State :=
  (s.ch n).cmds.foldl (fun s c => if c.ring = k then finish s k c.flight 2 false false 0 else s)
    (s.modCh n (fun c => { c with cmds := c.cmds.filter (fun c => !(c.ring == k)) }))

/-- Everything of ring `k` that still waits to start completes CANCELLED. -/
def flushRingWork (s : State) (k : Nat) : State :=
  let s := (List.range 8).foldl (fun s n => flushChan (flushCmds s n k) n k) s
  [0, 1].foldl (fun s p => flushNet s p k) s

/-- RING_DISABLE of an ACTIVE or WAIT_SERVICE ring: DISABLING. -/
def ringDisableOp (b r : Nat) (s : State) : State :=
  let k := 16 * b + r
  if (s.ring k).state = .active ∨ (s.ring k).state = .waitService then
    let s := (s.modRing k (fun r => { r with state := .disabling })).setReg (ringBase k) (s.reg (ringBase k) &&& 0xFE)
    trigger (flushRingWork s k) 1
  else s

/-- HALTED_RING_DISABLE (R146): outcomes held meanwhile are completed, descriptors fetched but not passed on
complete CANCELLED, those passed on are awaited, and nothing more is fetched. -/
def haltedDisableOp (b r : Nat) (s : State) : State :=
  let k := 16 * b + r
  if (s.ring k).state = .halted then
    let s := s.modRing k (fun r => { r with state := .disabling, sw := if r.kind = 1 ∨ r.kind = 2 then r.hw else r.sw })
    let s := s.setReg (ringBase k) (s.reg (ringBase k) &&& 0xFE)
    let s := flushRing s k
    let s := (s.ring k).flights.foldl (fun s f => if f.channel = 9 then finish s k f.id 2 false false 0 else s) s
    flushRingWork s k
  else s

/-- RING_DISABLED: every fetched descriptor has completed; the buffers still posted come back CANCELLED, or
DESC_ERR when they break R129 (R145, R146). -/
def ringDisabledOp (b r : Nat) (posted : List (BitVec 512)) (s : State) : State :=
  let k := 16 * b + r
  let g := s.ring k
  let tx : Bool := g.kind = 1 || g.kind = 2
  if g.state ≠ .disabling ∨ !s.mayWrite b ∨ !g.held.isEmpty ∨ (tx && (g.hw ≠ g.sw || !g.flights.isEmpty)) ∨
      (g.kind = 3 ∧ posted.length ≠ idxDist g.sw g.hw) then s
  else
    let s := if g.kind = 3 then
        putSlots s k g.hw (posted.map rxUnused)
      else s
    ringOff s k

/-- EVENT_RING_CONTROL (R115, R134, R144). After a refused enable CTL reads as written (log 55); DB_ERR starts anew
(DESIGN CHOICE, log 122). -/
def evCtlOp (b : Nat) (ctl : Word) (s : State) : State :=
  let r := s.ev b
  if r.state = .disabled then
    if !bitN ctl 0 then s.setReg (evBase b) (ctl &&& 0xF0)
    else
      let lg := fld ctl 4 4
      if lg < 6 ∨ !addrsOk s (evBase b) ∨ !(s.fn b).bme then
        (s.setReg (evBase b) (ctl &&& 0xF1)).modEv b (fun r => { r with cfgErr := true })
      else
        let s := (s.setReg (evBase b) (ctl &&& 0xF1)).modEv b (fun r =>
          { EvRing.reset with state := if s.serves || (b = 0 && s.pwr.begun) then .active else .waitService,
                              sizeLog2 := lg, armed := true, lost := r.lost, queue := r.queue })
        (writeEvIdx s b).flushEv b
  else if bitN ctl 0 then s
  else
    let s := evNotify (writeEvIdx s b) b true
    (s.setReg (evBase b) (s.reg (evBase b) &&& 0xF0)).modEv b (fun r => { r with state := .disabled })

/-- Rings that wait for point service become ACTIVE (R144), basin 0's event ring on any module (R400). -/
def ringsServe (s : State) : State :=
  let s := { s with
    rings := s.rings.map (fun (p : Nat × Ring) => if p.2.state = RingState.waitService ∧ s.serves then (p.1, { p.2 with state := .active }) else p),
    evs := s.evs.map (fun (p : Nat × EvRing) =>
      if p.2.state = RingState.waitService ∧ (s.serves ∨ (p.1 = 0 ∧ s.pwr.begun)) then (p.1, { p.2 with state := .active }) else p) }
  (s.evs.map (fun (p : Nat × EvRing) => p.1)).foldl (fun s b => s.flushEv b) s

/- ### Fetching (R123, R131, R529) -/

/-- The ring engine may fetch `n` descriptors of ring `k`: state, posted slots, completion slots, DMA, and no
power-fail warning (R123, R436, R529). -/
def mayFetch (s : State) (k n kind : Nat) : Bool :=
  let r := s.ring k
  (r.state = .active || r.state = .disabling) && r.kind = kind && n ≤ idxDist r.sw r.hw &&
  idxDist r.hw r.cplCons + n ≤ r.slots && s.mayWrite (ringFn k) && !s.pwr.warn

/-- Descriptors are taken from ring `k` as one flight, numbered `s.serial`. -/
def takeFlight (s : State) (k : Nat) (cookies : List Slot) (ckind channel : Nat) : State :=
  let r := s.ring k
  let s' := s.modRing k (fun r =>
    { r with hw := (r.hw + cookies.length) % 65536,
             flights := r.flights ++ [{ id := s.serial, idx := r.hw, cookies := cookies, ckind := ckind,
                                        channel := channel, late := false }] })
  let _ := r
  writeIdx { s' with serial := s.serial + 1 } k

/-- A descriptor fetch or buffer read of ring `k` failed, or its data were lost (R102): HALTED. `chain`: what had
been fetched. -/
def haltRing (s : State) (k cause : Nat) (cookies : List Slot) (ckind : Nat) : State :=
  let r := s.ring k
  if r.state = .active ∨ r.state = .disabling then
    let s := if cookies.isEmpty then s else takeFlight s k cookies ckind 9
    let s := s.modRing k (fun r => { r with state := .halted, haltCause := cause })
    let s := raise s (ringFn k) 6 (ringFn k)
      ([BitVec.ofNat 8 (k % 16), BitVec.ofNat 8 cause] ++ bytesLE 2 (s.ring k).hw)
    trigger (ringNotify s k true) 1
  else s

/-- Every flight passed to channel `n` without an outcome completes UNREACHABLE (R183, R435). -/
def channelFlightsLost (s : State) (n : Nat) : State :=
  s.rings.foldl (fun s p => p.2.flights.foldl (fun s f =>
    if f.channel = n then finish s p.1 f.id 0x10 false false 0 else s) s) s

/- ### Point commands (R57, R139) -/

/-- The judgement of R57: 0, NO_POINT or NOT_WRITABLE. -/
def judgeWrite (s : State) (b h : Nat) : Nat :=
  match amGet s.points h with
  | none => 0x0B
  | some p =>
    if p.owner = b then (if p.write = 1 ∨ p.write = 2 then 0 else 0x0C)
    else if b = 0 ∧ p.write = 2 then 0
    else if (s.holders p.owner h).contains b then 0x0C
    else 0x0B

/-- The table of a point's timed command (R224). -/
def ptTable (p : Point) : Nat := if p.isHub then 8 else p.channel

/-- The entry a timed command makes (R223). -/
def cmdEntry (k id b : Nat) (d : BitVec 256) : Entry :=
  descEntry .descCmd (.pointWrite (cmdHandle d) (cmdValue d)) b (cmdCookie d) k id (cmdTol d) (cmdInstant d)

/-- Checks 1 to 7 of R139, the rule of R271 with check 3; 0 when the command passes. -/
def cmdCheck (s : State) (b : Nat) (d : BitVec 256) : Nat :=
  if cmdKind d ≠ 0x10 ∨ cmdType d = 7 then 8
  else if !s.basinEn b then 9
  else if judgeWrite s b (cmdHandle d) ≠ 0 then judgeWrite s b (cmdHandle d)
  else if s.loopOut (cmdHandle d) then 0x0C
  else match amGet s.points (cmdHandle d) with
    | none => 0x0B
    | some p =>
      if cmdType d ≠ p.type ∨ !slotOk p.type (cmdValue d) then 0x0D
      else if (p.type = 5 ∧ p.enumCount ≤ (cmdValue d).toNat) ∨ (cmdAt d ∧ giga ≤ cmdNs d) then 0x0E
      else if !p.isHub ∧ (!s.inService p.channel ∨ p.mir.quality = 8) then 0x10
      else if cmdAt d then
        if !s.timeValid then 0x13
        else match judgeAt s s.time.now (ptTable p) (cmdEntry 0 0 b d) with
          | 2 => 5
          | 1 => 0
          | _ => if (s.tblFree (ptTable p)).isNone then 0x12 else 0
      else 0

/-- A point command that passed (R139): to its channel, or carried out in the hub for a HUB point. -/
def cmdPass (s : State) (k id b : Nat) (d : BitVec 256) (p : Point) : State :=
  let h := cmdHandle d
  if p.isHub then
    if cmdAt d ∧ judgeAt s s.time.now 8 (cmdEntry k id b d) = 0 then
      match s.tblFree 8 with
      | none => finish s k id 0x12 false false 0
      | some i =>
        let s := enterEntry s 8 i (cmdEntry k id b d)
        finish s k id 1 false false (s.refOf 8 i)
    else
      let late : Bool := cmdAt d && decide (cmdInstant d < s.time.now)
      finish (acquire (if late then countArrival s 8 1 else s) h (cmdValue d) 1 s.time.now) k id 0 false late 0
  else s.modCh p.channel (fun c => { c with cmds := c.cmds ++
    [{ handle := h, value := cmdValue d, tag := b, ring := k, flight := id, cookie := cmdCookie d,
       at? := if cmdAt d then some (cmdInstant d) else none, tol := cmdTol d }] })

/-- Where a command is passed to. -/
def cmdChannel (s : State) (d : BitVec 256) : Nat :=
  match amGet s.points (cmdHandle d) with
  | some p => if p.isHub then 8 else p.channel
  | none => 8

/- ### Cancel requests (R126, R141, R243) -/

/-- A frame is the target of a cancel request. -/
def isTarget (k idx : Nat) (f : TxFrame) : Bool := f.ring == k && f.idx == idx && f.points.isEmpty

/-- A cancel request waits for the end of its target's attempt. -/
def markCancel (k idx : Nat) (req : Nat × Nat) (q : List TxFrame) : List TxFrame :=
  q.map (fun f => if isTarget k idx f then { f with cancel := f.cancel ++ [req] } else f)

/-- CANCEL_FRAME in controller `x` of channel `n` (R319): the state, when the frame is there. -/
def cancelCan (s : State) (n x k idx : Nat) (req : Nat × Nat) (inArb : Bool) : Option State :=
  let c := s.can n x
  match c.txq.find? (isTarget k idx) with
  | none => none
  | some f =>
    let head : Bool := match c.txq with | g :: _ => isTarget k idx g | [] => false
    if head && (c.won || inArb) then some (s.modCan n x (fun c => { c with txq := markCancel k idx req c.txq }))
    else some (endFrames (s.modCan n x (fun c => { c with txq := c.txq.filter (fun g => !isTarget k idx g) })) n
      [{ f with cancel := f.cancel ++ [req] }] 2 0x29 0)

/-- As `cancelCan`, in a segment (R354). -/
def cancelSeg (s : State) (n x k idx : Nat) (req : Nat × Nat) : Option State :=
  let c := s.seg n x
  match c.txq.find? (isTarget k idx) with
  | none => none
  | some f =>
    let head : Bool := match c.txq with | g :: _ => isTarget k idx g | [] => false
    if head && c.busy then some (s.modSeg n x (fun c => { c with txq := markCancel k idx req c.txq }))
    else some (endFrames (s.modSeg n x (fun c =>
        { c with txq := c.txq.filter (fun g => !isTarget k idx g),
                 collisions := if head then 0 else c.collisions, backoff := if head then 0 else c.backoff,
                 excTold := if head then false else c.excTold })) n
      [{ f with cancel := f.cancel ++ [req] }] 2 0x29 0)

/-- As `cancelCan`, at a backbone port (R350): a frame that has begun is sent. -/
def cancelNet (s : State) (p k idx : Nat) (req : Nat × Nat) : Option State :=
  let c := s.net p
  if (c.wire.toList ++ c.suspended.toList).any (isTarget k idx) then some (finish s req.1 req.2 3 false false 0)
  else match (c.express ++ c.preempt).find? (isTarget k idx) with
    | none => none
    | some f =>
      some (endFrames (s.modNet p (fun c =>
          { c with express := c.express.filter (fun g => !isTarget k idx g),
                   preempt := c.preempt.filter (fun g => !isTarget k idx g) })) 8
        [{ f with cancel := f.cancel ++ [req] }] 2 0x29 0)

/-- CANCEL_FRAME anywhere in the module; a lost channel cannot be asked (UNREACHABLE). -/
def cancelAnywhere (s : State) (k idx : Nat) (req : Nat × Nat) (inArb : Bool) : State :=
  let places : List (Option State) :=
    ((List.range 8).map (fun n =>
      let r := (cancelCan s n 0 k idx req inArb).orElse (fun _ => (cancelCan s n 1 k idx req inArb).orElse (fun _ =>
        (cancelSeg s n 0 k idx req).orElse (fun _ => cancelSeg s n 1 k idx req)))
      if r.isSome ∧ (s.ch n).state = .linkLost then some (finish s req.1 req.2 0x10 false false 0) else r)) ++
    [cancelNet s 0 k idx req, cancelNet s 1 k idx req]
  match places.find? (fun r => r.isSome) with
  | some (some t) => t
  | _ => finish s req.1 req.2 4 false false 0

/-- A cancel request is carried out; `id` is its flight in ring `k`. -/
def cancelRun (s : State) (k id b : Nat) (d : BitVec 256) (inArb : Bool) : State :=
  if !s.basinEn b then finish s k id 9 false false 0
  else if cancelBy d then
    let r := cancelCookie s b (BitVec.ofNat 64 (d32 d 16 0 64))
    finish r.1 k id r.2 false false 0
  else
    let t := 16 * b + d32 d 26 0 4
    if (s.ring t).state = .disabled ∨ (s.ring t).kind ≠ 2 then finish s k id 4 false false 0
    else cancelAnywhere s t (d32 d 24 0 16) (k, id) inArb

/-- A descriptor of a CMD_OUT ring is fetched and carried out. -/
def fetchCmdOp (b r : Nat) (d : BitVec 256) (inArb : Bool) (s : State) : State :=
  let k := 16 * b + r
  if 16 ≤ r ∨ !mayFetch s k 1 1 then s
  else
    let id := s.serial
    let stopping : Bool := (s.ring k).state = .disabling
    if cmdKind d = 0x11 then
      let s := takeFlight s k [cmdCookie d] 2 8
      if stopping then finish s k id 2 false false 0 else cancelRun s k id b d inArb
    else
      let e := cmdCheck s b d
      let s := takeFlight s k [cmdCookie d] 0 (cmdChannel s d)
      if e ≠ 0 then
        finish (if e = 5 then countArrival s (match amGet s.points (cmdHandle d) with
          | some p => ptTable p | none => 8) 2 else s) k id e false false 0
      else if stopping then finish s k id 2 false false 0
      else match amGet s.points (cmdHandle d) with
        | none => finish s k id 0x0B false false 0
        | some p => cmdPass s k id b d p

/- ### Frames (R128, R140) -/

/-- The frame a chain describes, as it would be sent; none where the rules of its target refuse its length. -/
def frameOf (s : State) (b k : Nat) (d : BitVec 512) (id idx : Nat) (payload : List Byte) : Option TxFrame :=
  let t := frmTarget d
  let n := t / 4
  let base : TxFrame := { TxFrame.blank with
    basin := b, ring := k, flight := id, idx := idx, padEn := d64 d 23 2 1 = 1, tsReq := d64 d 23 3 1 = 1,
    tsTag := d64 d 30 0 16, preempt := d64 d 23 5 1 = 1 && decide (32 ≤ t), prio := d64 d 22 0 3,
    node := frmDest d }
  if canTarget t then
    let fdf := d64 d 24 30 1 = 1
    let rtr := d64 d 28 0 1 = 1
    (canLen (s.fdEn n (t % 4)) fdf rtr (frmLen d) (d64 d 16 0 16)).map (fun _ =>
      { base with can := canFrameOf s n (t % 4) (frmCanId d) (d64 d 24 29 1 = 1) fdf (d64 d 24 31 1 = 1) rtr
                    (frmLen d) payload })
  else
    let maxF := if 32 ≤ t then maxFrame (s.netReg (t - 32) 8) else maxFrame (s.segReg n (t % 4 - 2) 8)
    (ethLen maxF (frmLen d) (d64 d 23 2 1 = 1)).bind (fun l =>
      let bytes := padTo l (padTo (frmLen d) payload)
      if 32 ≤ t then some { base with bytes := bytes }
      else (segAddress s n (t % 4 - 2) b (frmDest d) bytes).map (fun x => { base with bytes := x }))

/-- The destination of a frame belongs to the basin (R55, R341, R357). -/
def frameOwned (s : State) (b : Nat) (d : BitVec 512) (payload : List Byte) : Bool :=
  let t := frmTarget d
  if 32 ≤ t then b = 0 && !macControl payload
  else if canTarget t then idBasin s (t / 4) (t % 4) (frmCanId d) (d64 d 24 29 1 = 1) = b
  else (segAddress s (t / 4) (t % 4 - 2) b (frmDest d) (padTo 14 payload)).isSome

/-- The target takes no frames now (SEG_DOWN). -/
def targetDown (s : State) (t : Nat) : Bool :=
  if 32 ≤ t then !(s.net (t - 32)).up || !bitN (s.netReg (t - 32) 0) 0
  else if t % 4 < 2 then (s.can (t / 4) (t % 4)).down
  else (s.seg (t / 4) (t % 4 - 2)).mode = 0

/-- The table of a timed frame (R224). -/
def frmTable (t : Nat) : Nat := if 32 ≤ t then 8 else t / 4

/-- The entry a timed frame makes (R223). -/
def frmEntry (k id b : Nat) (d : BitVec 512) (f : TxFrame) : Entry :=
  descEntry .descFrame (.txFrame (frmTarget d) f) b (frmCookie d) k id (frmTol d) (frmInstant d)

/-- The checks of R140 in their order; 0 when the frame passes. -/
def frameCheck (s : State) (b : Nat) (chain : List (BitVec 512)) (payload : List Byte) : Nat :=
  match chain with
  | [] => 8
  | d :: _ =>
    let t := frmTarget d
    if !chainOk chain then 8
    else if !s.basinEn b then 9
    else if 33 < t ∨ (t < 32 ∧ 63 < frmDest d ∧ frmDest d ≠ 0xFF) ∨ (frmAt d ∧ giga ≤ frmNs d) then 0x0E
    else if !frameOwned s b d payload then 0x0A
    else if (frameOf s b 0 d 0 0 payload).isNone then 0x0F
    else if t < 32 ∧ !s.inService (t / 4) then 0x10
    else if targetDown s t then 0x11
    else if frmAt d then
      if !s.timeValid then 0x13
      else match judgeAt s s.time.now (frmTable t) (frmEntry 0 0 b d TxFrame.blank) with
        | 2 => 5
        | 1 => 0
        | _ => if (s.tblFree (frmTable t)).isNone then 0x12 else 0
    else 0

/-- TX_LEN_ERR and TX_PADDED of the target port (R337, R363). -/
def countTx (s : State) (t o : Nat) : State :=
  if 32 ≤ t then netCount s (t - 32) o
  else if t % 4 < 2 then s else segCount s (t / 4) (t % 4 - 2) o

/-- A frame that passed is released or entered in its table (R140, R223, R229). -/
def framePass (s : State) (k id b : Nat) (d : BitVec 512) (f : TxFrame) : State :=
  let t := frmTarget d
  if frmAt d ∧ judgeAt s s.time.now (frmTable t) (frmEntry k id b d f) = 0 then
    match s.tblFree (frmTable t) with
    | none => finish s k id 0x12 false false 0
    | some i =>
      let s := enterEntry s (frmTable t) i (frmEntry k id b d f)
      finish s k id 1 false false (s.refOf (frmTable t) i)
  else
    let late : Bool := frmAt d && decide (frmInstant d < s.time.now)
    let s := if late then countArrival s (frmTable t) 1 else s
    let f := { f with late := late, prio := if frmAt d then 7 else f.prio }
    if 32 ≤ t then netEnqueue s (t - 32) f
    else if t % 4 < 2 then canEnqueue s (t / 4) (t % 4) f
    else segEnqueue s (t / 4) (t % 4 - 2) f

/-- FRAME_TRANSMIT: a chain is fetched and its frame judged. -/
def frameTransmitOp (b r : Nat) (chain : List (BitVec 512)) (payload : List Byte) (s : State) : State :=
  let k := 16 * b + r
  match chain with
  | [] => s
  | d :: _ =>
    if 16 ≤ r ∨ !oneChain chain ∨ !mayFetch s k chain.length 2 then s
    else
      let id := s.serial
      let idx := (s.ring k).hw
      let stopping : Bool := (s.ring k).state = .disabling
      let e := frameCheck s b chain payload
      let f := frameOf s b k d id idx payload
      let t := frmTarget d
      let s := takeFlight s k (chain.map frmCookie) 1 (if 32 ≤ t then 8 else t / 4)
      if e ≠ 0 then
        finish (if e = 0x0F then countTx s t 0x420 else if e = 5 then countArrival s (frmTable t) 2 else s)
          k id e false false 0
      else if stopping then finish s k id 2 false false 0
      else match f with
        | none => finish s k id 0x0F false false 0
        | some f => framePass (if !canTarget t ∧ frmLen d < 60 then countTx s t 0x41C else s) k id b d f

/- ### Moderation and received frames -/

/-- MODERATION_TIMER: TIME_US since the oldest pending item (R142). -/
def moderationOp (b r : Nat) (s : State) : State :=
  if r = 16 then evNotify s b (evArmed s b && 0 < (s.ev b).pend)
  else
    let k := 16 * b + r
    ringNotify s k (r < 16 && ringArmed s k && 0 < (s.ring k).pend)

/-- The FRM_IN ring of basin 0 that takes backbone frames: the lowest ACTIVE one. -/
def netRing (s : State) : Option Nat :=
  (List.range 16).find? (fun r => (s.ring r).state = .active && (s.ring r).kind = 3)

/-- The staged frames for ring `k`: the oldest of each channel (0 to 7) and backbone port (8, 9). -/
def stagedFor (s : State) (k : Nat) : List (Nat × RxFrame) :=
  ((List.range 8).filterMap (fun n =>
    if (s.ch n).state = .linkLost then none
    else ((s.ch n).staged.find? (fun x => x.1 == k)).map (fun x => (n, x.2)))) ++
  (if netRing s = some k then
    [0, 1].filterMap (fun p => ((s.net p).rx.head?).map (fun f => (8 + p, f)))
   else [])

/-- Of several staged frames the one with the earliest stamp. -/
def oldestFrame : List (Nat × RxFrame) → Option (Nat × RxFrame)
  | [] => none
  | x :: t =>
    match oldestFrame t with
    | none => some x
    | some y => if y.2.stamp < x.2.stamp then some y else some x

/-- Remove the first staged frame for ring `k`. -/
def unstage (k : Nat) : List (Nat × RxFrame) → List (Nat × RxFrame)
  | [] => []
  | x :: t => if x.1 = k then t else x :: unstage k t

/-- FRAME_RECEIVED: the oldest staged frame for the ring is delivered; a ring that is neither ACTIVE nor DISABLING
takes none, nor does one of a basin whose EN is 0 (R56). -/
def frameReceivedOp (b r : Nat) (posted : List (BitVec 512)) (s : State) : State :=
  let k := 16 * b + r
  match oldestFrame (stagedFor s k) with
  | none => s
  | some (src, f) =>
    let s := if src < 8 then s.modCh src (fun c => { c with staged := unstage k c.staged })
      else s.modNet (src - 8) (fun c => { c with rx := c.rx.drop 1 })
    if ((s.ring k).state = .active ∨ (s.ring k).state = .disabling) ∧ (s.ring k).kind = 3 ∧ s.basinEn b then
      deliverFrame s k f posted
    else s

/- ### The commands -/

/-- EVCONS_WRITE (R122). -/
def execEvconsWrite (b : Nat) (data : Word) (s : State) : Host.Outcome State Fault Refusal :=
  .next (ifServed (evconsOp b data) s)

/-- RING_ENABLE (R144). -/
def execRingEnable (b r : Nat) (ctl : Word) (s : State) : Host.Outcome State Fault Refusal :=
  .next (ifServed (ringEnableOp b r ctl) s)

/-- RING_DISABLE (R145). -/
def execRingDisable (b r : Nat) (s : State) : Host.Outcome State Fault Refusal :=
  .next (ifServed (ringDisableOp b r) s)

/-- HALTED_RING_DISABLE (R146). -/
def execHaltedRingDisable (b r : Nat) (s : State) : Host.Outcome State Fault Refusal :=
  .next (ifServed (haltedDisableOp b r) s)

/-- RING_DISABLED (R145). -/
def execRingDisabled (b r : Nat) (posted : List (BitVec 512)) (s : State) : Host.Outcome State Fault Refusal :=
  .next (ringDisabledOp b r posted s)

/-- EVENT_RING_CONTROL (R115, R134). -/
def execEventRingControl (b : Nat) (ctl : Word) (s : State) : Host.Outcome State Fault Refusal :=
  .next (ifServed (evCtlOp b ctl) s)

/-- POINT_COMMAND (R125, R139). -/
def execPointCommand (b r : Nat) (desc : BitVec 256) (s : State) : Host.Outcome State Fault Refusal :=
  .next (fetchCmdOp b r desc false s)

/-- FRAME_TRANSMIT (R127, R140). -/
def execFrameTransmit (b r : Nat) (chain : List (BitVec 512)) (payload : List Byte) (s : State) : Host.Outcome State Fault Refusal :=
  .next (frameTransmitOp b r chain payload s)

/-- CANCEL_FRAME (R141, R319). -/
def execCancelFrame (b r : Nat) (desc : BitVec 256) (inArbitration : Bool) (s : State) : Host.Outcome State Fault Refusal :=
  .next (fetchCmdOp b r desc inArbitration s)

/-- CANCEL_BY_COOKIE (R243). -/
def execCancelByCookie (b r : Nat) (desc : BitVec 256) (s : State) : Host.Outcome State Fault Refusal :=
  .next (fetchCmdOp b r desc false s)

/-- MODERATION_TIMER (R142). -/
def execModerationTimer (b r : Nat) (s : State) : Host.Outcome State Fault Refusal :=
  .next (moderationOp b r s)

/-- FRAME_RECEIVED (R129, R136). -/
def execFrameReceived (b r : Nat) (posted : List (BitVec 512)) (s : State) : Host.Outcome State Fault Refusal :=
  .next (frameReceivedOp b r posted s)

end Sys2Proof.Machine
end

