-- ==== Sys2Proof/Machine/Filter.lean ====
section
/-! DEFINITION. Steering and the compilation of CAN acceptance filters (R171 to R178). -/

namespace Sys2Proof.Machine

/- ### Steering (R171) -/

/-- Rings of basin `b` that are ACTIVE and of a kind. -/
def activeRings (s : State) (b kind : Nat) : List Nat :=
  (List.range 16).filter (fun r => (s.ring (16 * b + r)).state = .active && (s.ring (16 * b + r)).kind = kind)

/-- Items steered to ring `r` of basin `b`: points and pass deliveries for UPD_IN, subscriptions for FRM_IN. -/
def steeredCount (s : State) (b r kind : Nat) : Nat :=
  if kind = 0 then
    (s.points.filter (fun p => p.2.owner == b && p.2.ring == r)).length +
    (s.ws.passes.filter (fun p => p.2.grantee == b && p.2.ring == r)).length
  else (s.ws.subs.filter (fun p => p.2.basin == b && p.2.ring == r)).length

/-- The ring that holds the fewest; the lowest on a tie; 255 when none is ACTIVE. -/
def fewestRing (s : State) (b kind : Nat) : Nat :=
  match (activeRings s b kind).foldl (fun (best : Option (Nat × Nat)) r =>
      let c := steeredCount s b r kind
      match best with
      | some x => if c < x.2 then some (r, c) else best
      | none => some (r, c)) none with
  | some x => x.1
  | none => 255

/-- The ring an item is steered to: a declared ring while it is ACTIVE, an AUTO item's ring while it stays ACTIVE,
else the one with the fewest items (R135, R171). A pinned item keeps its declared ring, and with AUTO the ring it was
steered to (R187). -/
def chooseRing (s : State) (b decl cur kind : Nat) (pinned : Bool) : Nat :=
  let act := activeRings s b kind
  if decl < 16 ∧ (pinned ∨ act.contains decl) then decl
  else if 16 ≤ decl ∧ (act.contains cur ∨ (pinned ∧ cur < 16)) then cur
  else if decl < 16 ∧ cur ≠ decl ∧ act.contains cur then cur
  else fewestRing s b kind

/- ### Declared set (R172) -/

/-- A subscription accepts an identifier (R160). -/
def subAccepts (form id1 id2 i : Nat) : Bool :=
  match form with
  | 0 => i == id1
  | 1 => id1 ≤ i && i ≤ id2
  | _ => Nat.land i id2 == Nat.land id1 id2

/-- Identifiers of one destination set, `lo` to `hi` (R172). -/
structure Cell where
  lo    : Nat
  hi    : Nat
  dec   : Bool
  rings : List Nat

/-- Two cells have one destination set. -/
def Cell.same (a : Bool × List Nat) (c : Cell) : Bool := a.1 == c.dec && a.2 == c.rings

/-- The destination set of a cell strictly contains another. -/
def Cell.above (a : Bool × List Nat) (c : Cell) : Bool :=
  (!a.1 || c.dec) && a.2.all (fun r => c.rings.contains r) && !Cell.same a c

/-- What is declared on a bus: identifiers of points, and (form, ID1, ID2, module ring) of subscriptions, 1,024 for one
steered to no ring: its identifiers belong to the declared set and deliver nowhere. -/
structure BusDecl where
  width : Nat
  pts   : List Nat
  subs  : List (Nat × Nat × Nat × Nat)

/-- The declarations on controller `x` of channel `n` for one kind of identifier; `extra` subscriptions and points
are judged as well. -/
def busDecl (s : State) (n x : Nat) (ide : Bool) : BusDecl :=
  { width := if ide then 29 else 11,
    pts := (s.points.filter (fun p => p.2.origin == 0 && p.2.channel == n && p.2.segment == x && p.2.ide == ide)).map
      (·.2.canId),
    subs := (s.ws.subs.filter (fun p => p.2.channel == n && p.2.segment == x && p.2.ide == ide)).map
      (fun p => (p.2.form, p.2.id1, p.2.id2, if p.2.ring < 16 then 16 * p.2.basin + p.2.ring else 1024)) }

/-- A mask whose identifiers are one run. -/
def prefixMask (w m : Nat) : Bool := m < 2 ^ w && Nat.land (2 ^ w - m) (2 ^ w - m - 1) = 0

/-- Insert a number into a rising list once. -/
def insertNat (x : Nat) : List Nat → List Nat
  | [] => [x]
  | y :: t => if x < y then x :: y :: t else if x = y then y :: t else y :: insertNat x t

/-- Destination set of an identifier. -/
def BusDecl.dest (d : BusDecl) (i : Nat) : Bool × List Nat :=
  (d.pts.contains i, (d.subs.filter (fun q => subAccepts q.1 q.2.1 q.2.2.1 i && q.2.2.2 ≠ 1024)).foldl
    (fun l q => insertNat q.2.2.2 l) [])

/-- The identifier is in the declared set. -/
def BusDecl.declares (d : BusDecl) (i : Nat) : Bool :=
  d.pts.contains i || d.subs.any (fun q => subAccepts q.1 q.2.1 q.2.2.1 i)

/-- Subscriptions by a mask that is not one run. -/
def BusDecl.wild (d : BusDecl) : List (Nat × Nat × Nat × Nat) :=
  d.subs.filter (fun q => 2 ≤ q.1 && !prefixMask d.width q.2.2.1)

/-- The identifiers of mask `a` lie within those of mask `b`; masks as (code, mask). -/
def maskWithin (a b : Nat × Nat) : Bool := Nat.land a.2 b.2 == b.2 && Nat.land a.1 b.2 == Nat.land b.1 b.2

/-- The identifiers two masks share, as a mask. -/
def maskMeet (a b : Nat × Nat) : Option (Nat × Nat) :=
  let m := Nat.land a.2 b.2
  if Nat.land a.1 m = Nat.land b.1 m then
    some (Nat.lor (Nat.land a.1 a.2) (Nat.land b.1 b.2), Nat.lor a.2 b.2)
  else none

/-- The runs of a mask of `w` bits, unless they are more than 300: a controller's elements cannot name so many. -/
def maskRuns (w : Nat) (c m : Nat) : Option (List (Nat × Nat)) :=
  let low := ((List.range w).takeWhile (fun k => !Nat.testBit m k)).length
  let free := (List.range w).filter (fun k => low ≤ k && !Nat.testBit m k)
  if 8 < free.length then none
  else
    some ((List.range (2 ^ free.length)).map (fun j =>
      let lo := (free.zipIdx).foldl (fun a p => if Nat.testBit j p.2 then a + 2 ^ p.1 else a)
        ((List.range w).foldl (fun a k => if Nat.testBit m k && Nat.testBit c k then a + 2 ^ k else a) 0)
      (lo, lo + 2 ^ low - 1)))

/-- Runs where two wild masks of different rings meet and no declared mask stands for the meeting: their elements are
built from runs, since a MASK element comes from a declared subscription only (R174). None: too many. -/
def BusDecl.overlaps (d : BusDecl) : Option (List (Nat × Nat)) :=
  let ms := d.wild
  ms.foldl (fun acc a => ms.foldl (fun acc b =>
    match acc, maskMeet (a.2.1, a.2.2.1) (b.2.1, b.2.2.1) with
    | some l, some g =>
      if a.2.2.2 = b.2.2.2 ∨ maskWithin (a.2.1, a.2.2.1) (b.2.1, b.2.2.1) ∨ maskWithin (b.2.1, b.2.2.1) (a.2.1, a.2.2.1) ∨
          ms.any (fun x => maskWithin (x.2.1, x.2.2.1) g && maskWithin g (x.2.1, x.2.2.1)) then some l
      else (maskRuns d.width g.1 g.2).map (fun r => l ++ r)
    | acc, _ => acc) acc) (some [])

/-- Where destination sets can change: the bounds of points, runs, prefix masks and overlaps. -/
def BusDecl.breaks (d : BusDecl) : List Nat :=
  let l := d.pts.foldl (fun l p => insertNat p (insertNat (p + 1) l)) []
  let l := (d.overlaps.getD []).foldl (fun l r => insertNat r.1 (insertNat (r.2 + 1) l)) l
  d.subs.foldl (fun l q =>
    match q.1 with
    | 0 => insertNat q.2.1 (insertNat (q.2.1 + 1) l)
    | 1 => insertNat q.2.1 (insertNat (q.2.2.1 + 1) l)
    | _ =>
      if prefixMask d.width q.2.2.1 then
        let b := Nat.land q.2.1 q.2.2.1
        insertNat b (insertNat (b + (2 ^ d.width - q.2.2.1)) l)
      else l) l

/-- A mask tells no identifier of the run from another. -/
def maskUniform (w m lo hi : Nat) : Bool :=
  (List.range (w + 1)).any (fun t => lo / 2 ^ t == hi / 2 ^ t && m % 2 ^ t == 0)

/-- The cells between breaks: those no point, run, prefix mask or overlap reaches are left to the wild masks. A wide
cell that a wild mask may cut is taken identifier by identifier. -/
def BusDecl.cells (d : BusDecl) : List Cell :=
  let wild := d.wild
  let plain : BusDecl := { d with subs := d.subs.filter (fun q => q.1 < 2 || prefixMask d.width q.2.2.1) }
  let b := d.breaks
  (b.zip (b.drop 1)).flatMap (fun p =>
    if !plain.declares p.1 && !(d.overlaps.getD []).any (fun r => r.1 ≤ p.1 && p.1 ≤ r.2) then []
    else
      let one (lo hi : Nat) : Cell := { lo := lo, hi := hi, dec := (d.dest lo).1, rings := (d.dest lo).2 }
      if wild.all (fun q => maskUniform d.width q.2.2.1 p.1 (p.2 - 1)) then [one p.1 (p.2 - 1)]
      else (List.range (p.2 - p.1)).map (fun i => one (p.1 + i) (p.1 + i)))

/-- A run under construction: its bounds, how far it may be carried on, and its own cells. -/
structure Run where
  lo    : Nat
  hi    : Nat
  reach : Nat
  own   : List Cell

/-- Runs of one destination set; identifiers whose set strictly contains it do not break a run (R175). -/
def runsOf (dst : Bool × List Nat) (cells : List Cell) : List Run :=
  let r := cells.foldl (fun (a : List Run × Option Run) c =>
    match a.2 with
    | some r =>
      if c.lo = r.reach + 1 ∧ Cell.same dst c then (a.1, some { r with hi := c.hi, reach := c.hi, own := r.own ++ [c] })
      else if c.lo = r.reach + 1 ∧ Cell.above dst c then (a.1, some { r with reach := c.hi })
      else if Cell.same dst c then (a.1 ++ [r], some { lo := c.lo, hi := c.hi, reach := c.hi, own := [c] })
      else (a.1 ++ [r], none)
    | none =>
      if Cell.same dst c then (a.1, some { lo := c.lo, hi := c.hi, reach := c.hi, own := [c] }) else a) ([], none)
  r.1 ++ r.2.toList

/-- An element before its queue is known: destination set, form, LO, HI, first identifier. -/
structure ProtoElem where
  dst   : Bool × List Nat
  form  : Nat
  lo    : Nat
  hi    : Nat
  first : Nat

/-- Left-over identifiers paired in ascending order (R174). -/
def pairUp (dst : Bool × List Nat) : List Nat → List ProtoElem
  | [] => []
  | [a] => [{ dst := dst, form := 2, lo := a, hi := a, first := a }]
  | a :: b :: t => { dst := dst, form := 2, lo := a, hi := b, first := a } :: pairUp dst t

/-- Elements of one destination set (R174): declared masks and ranges keep their form, runs of three or more
become RANGE, and the rest is paired. -/
def elemsOf (d : BusDecl) (dst : Bool × List Nat) (cells : List Cell) : List ProtoElem :=
  let rs := runsOf dst cells
  let whole (r : Run) : Option ProtoElem :=
    match d.subs.find? (fun q => 2 ≤ q.1 && prefixMask d.width q.2.2.1 && Nat.land q.2.1 q.2.2.1 == r.lo &&
        r.lo + (2 ^ d.width - q.2.2.1) == r.hi + 1) with
    | some q => some { dst := dst, form := 3, lo := Nat.land q.2.1 q.2.2.1, hi := q.2.2.1, first := r.lo }
    | none =>
      if 3 ≤ r.hi + 1 - r.lo ∨ d.subs.any (fun q => q.1 == 1 && q.2.1 == r.lo && q.2.2.1 == r.hi) then
        some { dst := dst, form := 1, lo := r.lo, hi := r.hi, first := r.lo }
      else none
  let rest := (rs.filter (fun r => (whole r).isNone)).flatMap (fun r =>
    r.own.flatMap (fun c => (List.range (c.hi + 1 - c.lo)).map (fun i => c.lo + i)))
  rs.filterMap whole ++ pairUp dst rest

/-- The declared wild masks, each once, with the rings of the wild masks that contain it (R174). -/
def BusDecl.masks (d : BusDecl) : List (Nat × Nat × List Nat) :=
  d.wild.foldl (fun acc q =>
    let c := Nat.land q.2.1 q.2.2.1
    let m := q.2.2.1
    if acc.any (fun a => a.1 == c && a.2.1 == m) then acc
    else acc ++ [(c, m, (d.wild.filter (fun x => maskWithin (c, m) (x.2.1, x.2.2.1) && x.2.2.2 ≠ 1024)).foldl
      (fun l x => insertNat x.2.2.2 l) [])]) []

/-- Insert by R175: more members first, then the lower first identifier. -/
def elemInsert (e : ProtoElem) : List ProtoElem → List ProtoElem
  | [] => [e]
  | g :: t =>
    let a := e.dst.2.length + (if e.dst.1 then 1 else 0)
    let b := g.dst.2.length + (if g.dst.1 then 1 else 0)
    if b < a ∨ (a = b ∧ e.first < g.first) then e :: g :: t else g :: elemInsert e t

/-- Distinct destination sets of a list of cells. -/
def destSets (cells : List Cell) : List (Bool × List Nat) :=
  cells.foldl (fun l c => if l.contains (c.dec, c.rings) then l else l ++ [(c.dec, c.rings)]) []

/-- The elements a bus needs, in the order of R175. -/
def BusDecl.elems (d : BusDecl) : List ProtoElem :=
  let cells := d.cells
  let es := (destSets cells).flatMap (fun dst => elemsOf d dst cells) ++
    d.masks.map (fun m => { dst := (false, m.2.2), form := 3, lo := m.1, hi := m.2.1, first := m.1 })
  es.foldl (fun l e => elemInsert e l) []

/- ### Compilation (R173 to R177) -/

/-- Offset of standard or extended element `k` of a controller. -/
def elemKey (n x : Nat) (ide : Bool) (k : Nat) : Nat :=
  chBase n + 0x50000 + 0x10000 * x + (if ide then 0x1400 + 8 * k else 0x1000 + 4 * k)

/-- Indexes of elements that software has not pinned (R177). -/
def freeElems (s : State) (n x : Nat) (ide : Bool) : List Nat :=
  (List.range (if ide then 64 else 128)).filter (fun k => !s.pins.contains (elemKey n x ide k))

/-- Compile what is declared on controller `x` of channel `n`; none: FILTER_FULL. -/
def compileFilter (s : State) (n x : Nat) : Option Filter :=
  let es := (busDecl s n x false).elems
  let el := (busDecl s n x true).elems
  let sets := (es ++ el).foldl (fun l e => elemInsert { e with form := 0 } l) []
  let queues := sets.foldl (fun (l : List (Bool × List Nat)) e => if l.contains e.dst then l else l ++ [e.dst]) []
  let put (e : ProtoElem) : FiltElem :=
    { form := e.form, id1 := e.lo, id2 := e.hi, queue := queues.findIdx (fun q => q == e.dst) }
  if 8 < queues.length ∨ (freeElems s n x false).length < es.length ∨ (freeElems s n x true).length < el.length ∨
      (busDecl s n x false).overlaps.isNone ∨ (busDecl s n x true).overlaps.isNone then none
  else some { std := es.map put, ext := el.map put, queues := queues }

/-- Words of an element (R313): standard, or the two words of an extended one. -/
def stdWord (e : FiltElem) : Word := mkFld 0 3 e.queue ||| mkFld 3 2 e.form ||| mkFld 5 11 e.id1 ||| mkFld 16 11 e.id2
def extWords (e : FiltElem) : Word × Word :=
  (mkFld 0 29 e.id1 ||| mkFld 29 3 e.queue, mkFld 0 29 e.id2 ||| mkFld 29 2 e.form)

/-- The compiled filter becomes the active bank (R178): its elements take the unpinned places in order. The bank it
replaces still judges frames whose start lies before this instant. -/
def applyFilter (s : State) (n x : Nat) (f : Filter) : State :=
  let s := s.modCan n x (fun c => { c with
    oldElems := (List.range 384).map (fun i => s.canReg n x (0x1000 + 4 * i)), oldQueues := c.queues, switched := s.chNow n })
  let s := ((freeElems s n x false).zipIdx).foldl (fun s p =>
    s.setReg (elemKey n x false p.1) (match f.std[p.2]? with | some e => stdWord e | none => 0)) s
  let s := ((freeElems s n x true).zipIdx).foldl (fun s p =>
    let w := match f.ext[p.2]? with | some e => extWords e | none => (0, 0)
    (s.setReg (elemKey n x true p.1) w.1).setReg (elemKey n x true p.1 + 4) w.2) s
  s.modCan n x (fun c => { c with bank := !c.bank, queues := f.queues })

/-- The lowest identifier of a mask at or above `lo`, of `w` bits. -/
def maskNext (w code mask lo : Nat) : Option Nat :=
  let c := Nat.land code mask
  let cand := lo :: ((List.range w).filterMap (fun k =>
    if Nat.testBit lo k then none else some ((lo / 2 ^ k + 1) * 2 ^ k + c % 2 ^ k)))
  (cand.filter (fun i => Nat.land i mask == c && lo ≤ i && i < 2 ^ w)).foldl (fun (m : Option Nat) i =>
    match m with | some j => some (min i j) | none => some i) none

/-- The lowest identifier at or above `i` that an element matches. -/
def nextMatch (w form lo hi i : Nat) : Option Nat :=
  match form with
  | 1 => if max i lo ≤ hi then some (max i lo) else none
  | 2 => if i ≤ min lo hi then some (min lo hi) else if i ≤ max lo hi then some (max lo hi) else none
  | 3 => maskNext w lo hi i
  | _ => none

/-- The first identifier from `i` on that a pinned element at index `k` takes from a compiled element at a higher index
that names another queue; `es`: index and element. -/
def firstShadowed (w k form lo hi q : Nat) (es : List (Nat × FiltElem)) : Nat → Nat → Option Nat
  | 0, _ => none
  | fuel + 1, i =>
    match nextMatch w form lo hi i with
    | none => none
    | some i =>
      match es.find? (fun e => elemMatches e.2.form e.2.id1 e.2.id2 i) with
      | some e =>
        if k < e.1 ∧ e.2.queue ≠ q then some i
        else firstShadowed w k form lo hi q es fuel (if e.2.form = 1 then e.2.id2 + 1 else i + 1)
      | none =>
        match (es.filterMap (fun e => nextMatch w e.2.form e.2.id1 e.2.id2 (i + 1))).foldl
            (fun (m : Option Nat) j => match m with | some x => some (min x j) | none => some j) none with
        | some j => firstShadowed w k form lo hi q es fuel j
        | none => none

/-- FILTER_SHADOWED of every pinned element that takes identifiers of another destination set (R177). -/
def shadowed (s : State) (n x : Nat) (ide : Bool) (f : Filter) : List (Nat × Nat) :=
  let free := freeElems s n x ide
  let es := (if ide then f.ext else f.std).zipIdx.map (fun p => (free.getD p.2 0, p.1))
  let w := if ide then 29 else 11
  ((List.range (if ide then 64 else 128)).filter (fun k => !free.contains k)).filterMap (fun k =>
    let w0 := s.reg (elemKey n x ide k)
    let w1 := s.reg (elemKey n x ide k + 4)
    let (form, lo, hi, q) := if ide then (fld w1 29 2, fld w0 0 29, fld w1 0 29, fld w0 29 3)
      else (fld w0 3 2, fld w0 5 11, fld w0 16 11, fld w0 0 3)
    (firstShadowed w k form lo hi q es (2 ^ w) 0).map (fun i => (k, i)))

/-- Write a compiled filter and report it (R176 to R178, R190). -/
def installFilter (s : State) (n x : Nat) (f : Filter) : State :=
  let s := applyFilter s n x f
  let s := raise s 0 0x0107 0 [BitVec.ofNat 8 n, BitVec.ofNat 8 x, BitVec.ofNat 8 f.std.length,
    BitVec.ofNat 8 f.ext.length, BitVec.ofNat 8 f.queues.length]
  let sh := (shadowed s n x false f).map (fun p => (p.1, p.2)) ++
    (shadowed s n x true f).map (fun p => (p.1, p.2 + 2 ^ 29))
  sh.foldl (fun s p => raise s 0 0x0108 0
    ([BitVec.ofNat 8 n, BitVec.ofNat 8 x, BitVec.ofNat 8 p.1, 0] ++ bytesLE 4 p.2)) s

/-- Receive queues of a segment (R173): one per basin with points or steered subscriptions on it, at most 8. -/
def segQueues (s : State) (n x : Nat) : List Nat :=
  let bs := (s.points.filter (fun p => p.2.origin == 0 && p.2.channel == n && p.2.segment == 2 + x)).map (·.2.owner) ++
    (s.ws.subs.filter (fun p => p.2.channel == n && p.2.segment == 2 + x)).map (·.2.basin)
  bs.foldl (fun l b => if l.contains b then l else l ++ [b])
    ((s.seg n x).queues.filter (fun b => bs.contains b))

/-- The filters of a channel, or the queues of a segment, hold what is declared on them. -/
def busFits (s : State) (n seg : Nat) : Bool :=
  if seg < 2 then (compileFilter s n seg).isSome else (segQueues s n (seg - 2)).length ≤ 8

end Sys2Proof.Machine
end

