-- ==== Sys2Proof/Machine/Place.lean ====
section
/-! DEFINITION. Placement of loops: the account of a channel, the rules of R168, phases (R159, R165 to R169) and
the parts of a placement pass (R179, R180). -/

namespace Sys2Proof.Machine

/- ### A loop and its points (R158, R159) -/

/-- Channels of its LOCAL_IO points. -/
def localChans (s : State) (l : Loop) : List Nat :=
  ((loopPoints l).filterMap (fun h => amGet s.points h)).filterMap (fun p =>
    if p.origin = 1 then some p.channel else none)

/-- The loop is bound (R159). -/
def isBound (s : State) (l : Loop) : Bool := l.fast || l.priv || !(localChans s l).isEmpty

/-- The channel a bound loop runs in. -/
def boundChan (s : State) (l : Loop) : Option Nat := if isBound s l then (localChans s l).head? else none

/-- The class rules of R159 and, when pinned, of R187. -/
def classOk (s : State) (l : Loop) : Bool :=
  let cs := localChans s l
  let out := amGet s.points l.outp
  let pv := amGet s.points l.pv
  let outLocal : Bool := match out with | some p => p.origin = 1 | none => false
  let fastPv : Bool := match pv with
    | some p => p.origin = 1 && (p.index < 16 || (24 ≤ p.index && p.index < 32) || (36 ≤ p.index && p.index < 40))
    | none => false
  let fastOut : Bool := match out with
    | some p => p.origin = 1 && ((16 ≤ p.index && p.index < 24) || (32 ≤ p.index && p.index < 36))
    | none => false
  cs.all (fun n => some n == cs.head?) && (!l.fast || (fastPv && fastOut)) && (!l.priv || outLocal) &&
  (!l.pin || ((boundChan s l).all (fun n => n == l.pinCh) && !(l.priv && 16 ≤ l.pinSlot)))

/- ### The account (R166, R167) -/

/-- Loop units of one sample. -/
def loopCost (l : Loop) : Nat := if l.fast then 8 else 1

/-- Units in window `w` of channel `n`. -/
def windowSum (ls : List Loop) (n w : Nat) : Nat :=
  ls.foldl (fun a l =>
    let g := Nat.gcd l.period 64
    if l.channel = n ∧ w % g = l.phase % g then a + loopCost l else a) 0

/-- The peak of a channel. -/
def peakOf (ls : List Loop) (n : Nat) : Nat := (List.range 64).foldl (fun m w => max m (windowSum ls n w)) 0

/-- Crossbar reservations of channel `n` towards it and from it, in kbit/s: of movable loops, one for each input point,
whatever its roles (R167). -/
def xbarIn (s : State) (ls : List Loop) (n : Nat) : Rat :=
  ls.foldl (fun a l =>
    if l.channel = n ∧ !isBound s l then
      a + ((loopInputs l).eraseDups.filter (foreignPoint s n)).length * (2048 / (l.period : Rat))
    else a) 0
def xbarOut (s : State) (ls : List Loop) (n : Nat) : Rat :=
  ls.foldl (fun a l => if !isBound s l && (l.channel == n && foreignPoint s n l.outp) then a + 2048 / (l.period : Rat) else a) 0

/-- Two loops sample in one window (R166, R277). -/
def Loop.meets (l m : Loop) : Bool :=
  let g := Nat.gcd l.period m.period
  l.phase % g == m.phase % g

/-- The lowest lane of channel `n` free in every window in which the loop samples (R277). -/
def freeLane (ls : List Loop) (l : Loop) (n : Nat) : Option Nat :=
  (List.range 32).find? (fun j => !ls.any (fun m => m.fast && m.channel == n && m.lane == j && l.meets m))

/-- TIED conversions of a set of loops on channel `n`: input, period, phase and input instant (R225, R276). -/
def tiedKeys (s : State) (ls : List Loop) (n : Nat) : List (Nat × Nat × Nat × Nat) :=
  ls.foldl (fun acc l =>
    if l.channel = n then
      [l.pv, l.ff].foldl (fun acc h =>
        match amGet s.points h with
        | some p =>
          if p.origin = 1 ∧ p.channel = n ∧ 24 ≤ p.index ∧ p.index < 32 then
            let k := (p.index - 24, l.period, l.phase, l.inputOffset)
            if acc.contains k then acc else acc ++ [k]
          else acc
        | none => acc) acc
    else acc) []

/-- Rule 4 of R168 for a set of loops on channel `n`, slots apart. -/
def capacityOk (s : State) (ls : List Loop) (n : Nat) : Bool :=
  decide (peakOf ls n ≤ 256) && decide (xbarIn s ls n ≤ 1000000) && decide (xbarOut s ls n ≤ 1000000) &&
  ((tiedKeys s ls n).length = 0 || decide ((tiedKeys s ls n).length + (s.tbl n).entries.length ≤ 2048))

/-- Loops that hold a place, with the places moves have reserved (R184). -/
def placedLoops (s : State) : List Loop :=
  (s.ws.loops.filter (fun p => p.2.holds)).map (·.2) ++
  ((match s.ws.plan with | some p => p.moves | none => []).filterMap (fun (m : Migration) =>
    (amGet s.ws.loops m.loop).map (fun (l : Loop) => { l with channel := m.toCh, slot := m.toSlot }))) ++
  (s.ws.migrations.filterMap (fun (m : Migration) =>
    (amGet s.ws.loops m.loop).map (fun (l : Loop) => { l with channel := m.fromCh, slot := m.fromSlot })))

/-- Quotas of a basin: SLOTS and PRIV (R155). -/
def loopQuota (s : State) (b : Nat) : Nat × Nat :=
  match s.ws.assigns.foldl (fun (best : Option Assign) p =>
      if p.2.res = 3 ∧ p.2.basin = b then
        match best with
        | some a => if a.ord < p.2.ord then some p.2 else best
        | none => some p.2
      else best) none with
  | some a => (a.slots, a.priv)
  | none => if b = 0 then (if s.ident.eight then (8192, 128) else (4096, 64)) else (0, 0)

/-- Rule 3 of R168: the basin may hold one loop more. -/
def quotaOk (s : State) (ls : List Loop) (l : Loop) : Bool :=
  let q := loopQuota s l.basin
  decide ((ls.filter (fun x => x.basin == l.basin)).length < q.1) &&
  (!(l.priv || (l.pin && l.pinSlot < 16)) ||
    decide ((ls.filter (fun x => x.basin == l.basin && x.slot < 16)).length < q.2))

/-- Lowest free slot of the kind the loop needs (R166), or its pinned slot when free. -/
def freeSlot (ls : List Loop) (l : Loop) (n : Nat) : Option Nat :=
  let used (t : Nat) : Bool := ls.any (fun x => x.channel == n && x.slot == t)
  if l.pin then (if used l.pinSlot then none else some l.pinSlot)
  else if l.priv then (List.range 16).find? (fun t => !used t)
  else ((List.range 1008).find? (fun t => !used (16 + t))).map (16 + ·)

/-- The phase of lowest peak, the lowest on a tie (R169). -/
def bestPhase (ls : List Loop) (l : Loop) (n : Nat) : Nat :=
  ((List.range (min l.period (Nat.gcd l.period 64))).foldl (fun (best : Nat × Nat) p =>
    let k := peakOf ({ l with channel := n, phase := p } :: ls) n
    if k < best.2 then (p, k) else best) (0, 1000000)).1

/-- A place on channel `n` under rules 1 and 4, with the lane of a FAST loop (R277); `fixed`: the phase binds. -/
def tryChannel (s : State) (ls : List Loop) (l : Loop) (n : Nat) (fixed : Bool) : Option Loop :=
  match freeSlot ls l n with
  | none => none
  | some t =>
    let p := if fixed || l.pin || l.phaseFixed then l.phase else bestPhase ls l n
    let l' := { l with channel := n, slot := t, phase := p, st := .placed }
    match if l.fast then freeLane ls l' n else some 0 with
    | none => none
    | some j =>
      let l' := { l' with lane := j }
      if capacityOk s (l' :: ls) n then some l' else none

/-- Rule 6: how many of the loop's points the channel owns, OUT twice. -/
def locality (s : State) (l : Loop) (n : Nat) : Nat :=
  ((loopPoints l ++ [l.outp]).filter (fun h => !foreignPoint s n h && (amGet s.points h).isSome)).length

/-- Channels that take loops: IN_SERVICE and in the pool. -/
def poolChans (s : State) : List Nat :=
  (List.range 8).filter (fun n => s.inService n && s.ws.svc.getD n .absent == Svc.inPool)

/-- Rules 1, 2, 4, 6 to 8 over the channels given: the loop with its place. -/
def bestPlace (s : State) (ls : List Loop) (l : Loop) (chans : List Nat) (fixed : Bool) : Option Loop :=
  let cs := chans.filter (fun n => (!l.pin || l.pinCh == n) && (boundChan s l).all (fun b => b == n))
  (cs.filterMap (fun n => tryChannel s ls l n fixed)).foldl (fun (best : Option Loop) c =>
    match best with
    | none => some c
    | some b =>
      let lb := locality s l b.channel
      let lc := locality s l c.channel
      let pb := peakOf (b :: ls) b.channel
      let pc := peakOf (c :: ls) c.channel
      if lb < lc ∨ (lb = lc ∧ pc < pb) then some c else best) none

/-- Work for the channel waits while its link is lost or it is starting (R31). -/
def mustWait (s : State) (l : Loop) : Bool :=
  let n := if l.pin then some l.pinCh else boundChan s l
  match n with
  | some n => (s.ch n).state = .linkLost || (s.ch n).state = .starting
  | none => (List.range 8).any (fun n => (s.ch n).state == ChState.starting)

/-- Channels a loop is judged against: those that take loops, and for a loop that must wait those it waits for. -/
def judgeChans (s : State) (l : Loop) : List Nat :=
  if mustWait s l then
    (List.range 8).filter (fun n => s.ws.svc.getD n .absent == Svc.inPool &&
      (s.inService n || (s.ch n).state == ChState.linkLost || (s.ch n).state == ChState.starting))
  else poolChans s

/-- A new loop under rules 1 to 4 and the preferences (R168). -/
def placeLoop (s : State) (ls : List Loop) (l : Loop) : Option Loop :=
  if quotaOk s ls l then bestPlace s ls l (judgeChans s l) false else none

/-- Loops accepted and not yet placed, in order of identifier. -/
def pendingLoops (s : State) : List (Nat × Loop) :=
  s.ws.loops.filter (fun p => p.2.st == LoopState.pending && !p.2.gone)

/-- Place loops one after the other: those placed, and those that fit nowhere. -/
def placeAll (s : State) : List (Nat × Loop) → List Loop → List (Nat × Loop) × List Nat
  | [], _ => ([], [])
  | (i, l) :: t, ls =>
    match placeLoop s ls l with
    | some l' =>
      let r := placeAll s t (l' :: ls)
      ((i, l') :: r.1, r.2)
    | none =>
      let r := placeAll s t ls
      (r.1, i :: r.2)

/-- The loops placed and those accepted and still to be placed, where a pass would place them; one that fits nowhere
now counts against its quota alone. -/
def loopsHeld (s : State) : List Loop :=
  let p := placeAll s (pendingLoops s) (placedLoops s)
  (p.1.map (·.2)) ++ p.2.filterMap (fun i => (amGet s.ws.loops i).map (fun (l : Loop) =>
    { l with channel := 8, slot := if l.priv then 0 else 16 })) ++ placedLoops s

/-- SUBMIT's judgement of rules 1 to 4 (R530), against the loops placed and those still to be placed. -/
def loopFits (s : State) (l : Loop) : Bool := (placeLoop s (loopsHeld s) l).isSome

/-- A software transaction that is preparing or pending stages the slot (R186). -/
def slotStaged (s : State) (n t : Nat) : Bool :=
  s.txns.any (fun x => x.1 < 64 && (x.2.state = .preparing || x.2.state = .pending) &&
    x.2.staged.any (fun e => slotKey n t 0 ≤ e.key && e.key ≤ slotKey n t 15))

/-- One move of a rebalance (R180): a loop of the most loaded channel that can give one up. The peaks are those the move
leaves. -/
def rebalanceMove (s : State) (ls : List (Nat × Loop)) (giver : Nat) : Option (Nat × Loop) :=
  let all := ls.map (·.2)
  let peak := peakOf all giver
  ls.findSome? (fun p =>
    let l := p.2
    if l.channel ≠ giver ∨ isBound s l ∨ l.pin ∨ l.st ≠ .placed ∨ l.gone ∨ slotStaged s giver l.slot then none
    else
      let rest := (ls.filter (fun q => q.1 ≠ p.1)).map (·.2)
      if peak < peakOf rest giver + 8 then none
      else
        match bestPlace s (l :: rest) { l with pin := false } ((poolChans s).filter (fun n => n ≠ giver)) true with
        | some l' =>
          if peakOf (l' :: rest) l'.channel < peakOf rest giver && !slotStaged s l'.channel l'.slot then some (p.1, l')
          else none
        | none => none)

/-- Moves of a rebalance, most loaded channel first, at most `fuel`. -/
def rebalanceMoves (s : State) : Nat → List (Nat × Loop) → List (Nat × Loop)
  | 0, _ => []
  | fuel + 1, ls =>
    let all := ls.map (·.2)
    let givers := (poolChans s).foldl (fun acc n =>
      let rec ins : List Nat → List Nat
        | [] => [n]
        | m :: t => if peakOf all m < peakOf all n then n :: m :: t else m :: ins t
      ins acc) []
    match givers.findSome? (fun n => rebalanceMove s ls n) with
    | some (i, l') => (i, l') :: rebalanceMoves s fuel (ls.map (fun q => if q.1 = i then (i, { l' with st := .migrating }) else q))
    | none => []

/-- The periodic rebalance is due (R179): one peak above HIGH_PCT of 256, another 20 percentage points lower. -/
def unbalanced (s : State) : Bool :=
  let ls := placedLoops s
  let pct := let p := fld (s.reg 0x41000) 8 8; if 50 ≤ p ∧ p ≤ 100 then p else 85
  (poolChans s).any (fun n => pct * 256 < 100 * peakOf ls n &&
    (poolChans s).any (fun m => peakOf ls m * 100 + 20 * 256 ≤ peakOf ls n * 100))

end Sys2Proof.Machine
end

