-- ==== Sys2Proof/Machine/Decl.lean ====
section
/-! DEFINITION. Declarations (R150 to R164, R187): the checks of SUBMIT, withdrawal, and QUERY. -/

namespace Sys2Proof.Machine

/-- The declaration buffer of a function (R191). -/
def declBuf (s : State) (fn : Nat) : List Word := (List.range 16).map (fun i => s.regF fn (0x40000 + 4 * i))

/-- Fill the declaration buffer. -/
def setDeclBuf (s : State) (fn : Nat) (ws : List Word) : State :=
  (ws.zipIdx).foldl (fun s p => s.setReg (fn * 0x1000000 + 0x40000 + 4 * p.2) p.1) s

/-- DECLSTAT after a command (R153). -/
def declDone (s : State) (fn res id : Nat) : State :=
  s.modFn fn (fun f => { f with declCmd := 0, declRes := res, declId := id })

/-- Declaration commands end with STATE_ERR: a STANDBY or SYNCING module (R400), DECOMMISSIONED (R484), after a
power-fail warning (R436). -/
def declRefused (s : State) : Bool := s.standby || s.lc.state = 5 || s.pwr.warn

/-- Commands of a function whose basin is off are refused (R56), with STATE_ERR (log 132). -/
def basinOff (s : State) (fn : Nat) : Bool := !s.basinEn fn || !s.vfPresent fn

/- ### Parsing (R155 to R162) -/

/-- An ASSIGN record. -/
def assignOf (ws : List Word) (ord : Nat) : Assign :=
  { res := rec64 ws 8 0 3, channel := rec64 ws 9 0 3, segment := rec64 ws 9 3 2, first := rec64 ws 10 0 8,
    count := rec64 ws 11 0 8, basin := rec64 ws 12 0 6, slots := rec64 ws 14 0 16, priv := rec64 ws 16 0 8,
    idFirst := rec64 ws 20 0 29, idLast := rec64 ws 24 0 29, ide := recBit ws 20 29, decl := ws, ord := ord }

/-- A POINT record of basin `b` at handle `h`. -/
def pointOf (b h : Nat) (ws : List Word) : Point :=
  let origin := rec64 ws 8 0 2
  let field : Bool := origin = 0
  let seg := if field then rec64 ws 10 3 2 else 0
  let hist := recBit ws 9 6
  { owner := b, origin := origin, type := rec64 ws 8 2 3, write := rec64 ws 8 5 2, cov := rec64 ws 9 0 2,
    pinned := recBit ws 1 0, channel := if origin < 2 then rec64 ws 10 0 3 else 0, segment := seg,
    node := if field ∧ 2 ≤ seg then rec64 ws 11 0 6 else 0, index := rec64 ws 12 0 16,
    thresh := BitVec.ofNat 32 (rec64 ws 16 0 32), minInt := rec64 ws 20 0 16, maxInt := rec64 ws 22 0 16,
    histSlot := if hist then h else 0xFFFF, histDepth := if hist then rec64 ws 9 2 4 else 0,
    enumCount := if rec64 ws 8 2 3 = 5 then rec64 ws 24 0 16 else 0, ringDecl := rec64 ws 14 0 5, ring := 255,
    told := 255, subs := 0, inEffect := false, canId := rec64 ws 28 0 29, ide := recBit ws 28 29, byteOfs := rec64 ws 32 0 6,
    bit := rec64 ws 33 0 3, loopItem := rec64 ws 33 4 2, decl := ws, mir := Mirror.never, lastVal := 0, lastQual := 0,
    lastTick := 0, minDone := true, held := false, own := Mirror.never, chTag := b, chWrite := rec64 ws 8 5 2 }

/-- A LOOP record of basin `b`. -/
def loopOf (b : Nat) (ws : List Word) : Loop :=
  { basin := b, fast := recBit ws 8 0, priv := recBit ws 8 1, phaseFixed := recBit ws 8 2, pin := recBit ws 1 0,
    pinCh := rec64 ws 9 0 3, pinSlot := rec64 ws 10 0 10, period := rec64 ws 12 0 20, phaseDecl := rec64 ws 16 0 20,
    pv := rec64 ws 20 0 14, sp := rec64 ws 22 0 16, outp := rec64 ws 24 0 14, ff := rec64 ws 26 0 16,
    track := rec64 ws 28 0 16, decl := ws, st := .pending, channel := 0, slot := 0, phase := rec64 ws 16 0 20,
    lane := 0, fails := 0, gone := false }

/-- A SUB record of basin `b`. -/
def subOf (b : Nat) (ws : List Word) : Sub :=
  { basin := b, channel := rec64 ws 8 0 3, segment := rec64 ws 8 3 2, form := rec64 ws 9 0 2, ide := recBit ws 9 2,
    ringDecl := rec64 ws 10 0 5, ring := 255, node := rec64 ws 11 0 8, id1 := rec64 ws 12 0 29,
    id2 := rec64 ws 16 0 29, decl := ws }

/-- A PASS record. -/
def passOf (ws : List Word) : Pass :=
  { grantor := rec64 ws 8 0 6, grantee := rec64 ws 9 0 6, first := rec64 ws 10 0 14, count := rec64 ws 12 0 9,
    ringDecl := rec64 ws 14 0 5, ring := 255, expiry := rec64 ws 16 0 48, suspended := false, decl := ws }

/-- What an ACTION record does (R228). -/
def actKindOf (s : State) (ws : List Word) : ActKind :=
  match rec64 ws 8 0 4 with
  | 0 => .dout (BitVec.ofNat 8 (rec64 ws 32 0 8)) (BitVec.ofNat 8 (rec64 ws 33 0 8))
  | 1 => .aout (rec64 ws 32 0 2) (rec64 ws 34 0 16)
  | 2 => .burst (BitVec.ofNat 8 (rec64 ws 32 0 8)) (rec64 ws 34 0 16) (rec64 ws 36 0 16)
  | 3 =>
    let len := rec64 ws 36 0 5
    let ide := recBit ws 32 29
    .canFrame (rec64 ws 30 3 2) (canFrameOf s (rec64 ws 30 0 3) (rec64 ws 30 3 2)
      (if ide then rec64 ws 32 0 29 else rec64 ws 32 0 11) ide (recBit ws 32 30) (recBit ws 32 31) (recBit ws 36 5)
      len ((List.range 16).map (fun i => BitVec.ofNat 8 (rec64 ws (38 + i) 0 8))))
  | 4 => .pointWrite (rec64 ws 32 0 14) (BitVec.ofNat 64 (rec64 ws 40 0 64))
  | _ => .loopGroup (rec64 ws 32 0 2) ((List.range (rec64 ws 33 0 8)).map (fun i => rec64 ws (34 + 2 * i) 0 13))

/-- The table of an ACTION record (R224). -/
def actTableOf (s : State) (ws : List Word) : Nat :=
  match rec64 ws 8 0 4 with
  | 4 => match amGet s.points (rec64 ws 32 0 14) with | some p => ptTable p | none => 8
  | 5 => 8
  | _ => rec64 ws 30 0 3

/-- The entry of an ACTION record (R227). -/
def actEntryOf (s : State) (b id : Nat) (ws : List Word) : Entry :=
  { descEntry .declared (actKindOf s ws) b 0 1024 0 (rec64 ws 10 0 16) (mkInstant (rec64 ws 12 0 32) (rec64 ws 16 0 48))
    with report := recBit ws 9 0, nocomp := recBit ws 9 1, period := rec64 ws 24 0 32, count := rec64 ws 28 0 16,
         actId := id }

/- ### Checks of SUBMIT (R153) -/

/-- The first check that fails, of results in order. -/
def firstFail (checks : List (Bool × Nat)) : Nat :=
  match checks.find? (fun c => c.1) with
  | some c => c.2
  | none => 1

/-- An identifier of a width is in range. -/
def idOk (ide : Bool) (id : Nat) : Bool := ide || id < 2048

/-- Every basin boundary of the CAN identifiers of a controller from `lo` to `hi`. -/
def idBounds (s : State) (n x : Nat) (ide : Bool) (lo hi : Nat) : List Nat :=
  lo :: (s.ws.assigns.flatMap (fun p =>
    if p.2.res = 1 ∧ p.2.channel = n ∧ p.2.segment = x ∧ p.2.ide = ide then
      [p.2.idFirst, p.2.idLast + 1].filter (fun i => lo < i && i ≤ hi) else []))

/-- Every identifier a subscription accepts belongs to basin `b` (R160). -/
def subOwned (s : State) (b : Nat) (q : Sub) : Bool :=
  if 2 ≤ q.segment then q.node = 0xFF || nodeBasin s q.channel q.segment q.node = b
  else
    let w := if q.ide then 29 else 11
    let foreign (i : Nat) : Bool := idBasin s q.channel q.segment i q.ide ≠ b
    match q.form with
    | 0 => !foreign q.id1
    | 1 => (idBounds s q.channel q.segment q.ide q.id1 q.id2).all (fun i => !foreign i)
    | _ =>
      let bs := ((idBounds s q.channel q.segment q.ide 0 (2 ^ w - 1)).foldl (fun l i => insertNat i l) [])
      (bs.zip (bs.drop 1 ++ [2 ^ w])).all (fun p =>
        !foreign p.1 || (match maskNext w q.id1 q.id2 p.1 with | some i => p.2 ≤ i | none => true))

/-- A resource an ASSIGN names is declared on by another basin (R155). -/
def assignUsed (s : State) (a : Assign) : Bool :=
  let hits (t : Nat) : Bool := a.first ≤ t && t < a.first + a.count
  match a.res with
  | 0 =>
    s.points.any (fun p => p.2.origin == 0 && p.2.channel == a.channel && p.2.segment == a.segment && 2 ≤ a.segment &&
      hits p.2.node && p.2.owner ≠ a.basin) ||
    s.ws.subs.any (fun p => p.2.channel == a.channel && p.2.segment == a.segment && 2 ≤ a.segment && hits p.2.node &&
      p.2.basin ≠ a.basin)
  | 1 =>
    s.points.any (fun p => p.2.origin == 0 && p.2.channel == a.channel && p.2.segment == a.segment && p.2.ide == a.ide &&
      a.idFirst ≤ p.2.canId && p.2.canId ≤ a.idLast && p.2.owner ≠ a.basin) ||
    s.ws.subs.any (fun p => p.2.channel == a.channel && p.2.segment == a.segment && p.2.ide == a.ide &&
      p.2.basin ≠ a.basin &&
      (match p.2.form with
      | 0 => a.idFirst ≤ p.2.id1 && p.2.id1 ≤ a.idLast
      | 1 => a.idFirst ≤ p.2.id2 && p.2.id1 ≤ a.idLast
      | _ => match maskNext (if a.ide then 29 else 11) p.2.id1 p.2.id2 a.idFirst with
        | some i => i ≤ a.idLast | none => false)) ||
    s.actions.any (fun p => p.2.basin ≠ a.basin && rec64 p.2.decl 8 0 4 = 3 && rec64 p.2.decl 30 0 3 = a.channel &&
      rec64 p.2.decl 30 3 2 = a.segment && recBit p.2.decl 32 29 == a.ide &&
      a.idFirst ≤ rec64 p.2.decl 32 0 29 && rec64 p.2.decl 32 0 29 ≤ a.idLast)
  | 2 =>
    s.points.any (fun p => p.2.origin == 1 && p.2.channel == a.channel && hits p.2.index && p.2.owner ≠ a.basin) ||
    s.actions.any (fun p => p.2.basin ≠ a.basin && rec64 p.2.decl 8 0 4 < 3 && rec64 p.2.decl 30 0 3 = a.channel &&
      (match rec64 p.2.decl 8 0 4 with
      | 0 => (List.range 8).any (fun d => recBit p.2.decl 32 d && hits (16 + d))
      | 1 => hits (32 + rec64 p.2.decl 32 0 2)
      | _ => (List.range 8).any (fun i => recBit p.2.decl 32 i && hits (24 + i))))
  | _ => false

/-- Checks of an ASSIGN. -/
def checkAssign (s : State) (fn : Nat) (ws : List Word) : Nat :=
  let a := assignOf ws 0
  let badRange : Bool :=
    3 < a.res || (a.res ≠ 3 && !s.fitted a.channel) ||
    (match a.res with
    | 0 => a.count = 0 || 64 < a.count || (if 2 ≤ a.segment then 32 else 64) < a.first + a.count
    | 1 => recBit ws 20 29 ≠ recBit ws 24 29 || a.idLast < a.idFirst || !idOk a.ide a.idLast
    | 2 => a.count = 0 || 64 < a.count || 40 < a.first + a.count
    | _ => false)
  firstFail [(badRange, 2), (fn ≠ 0, 4), (assignUsed s a, 12), ((amFree s.ws.assigns 1024).isNone, 5)]

/-- History bytes in use (R170). -/
def histUsed (s : State) : Nat :=
  s.points.foldl (fun n p => if p.2.histSlot = 0xFFFF then n else n + 32 * 2 ^ (p.2.histDepth + 6)) 0

/-- A handle is free to issue (R34, R152). -/
def handleFree (s : State) (h : Nat) : Bool := (amGet s.points h).isNone && !s.ws.reissue.contains h

/-- The handle a POINT record gets: the one requested, else the lowest free one. -/
def newHandle (s : State) (ws : List Word) : Option Nat :=
  if rec64 ws 2 0 16 ≠ 0xFFFF then
    (if handleFree s (rec64 ws 2 0 16) then some (rec64 ws 2 0 16) else none)
  else (List.range 16384).find? (fun h => handleFree s h)

/-- POINT_QUOTA and PASS_QUOTA of a basin (R48, R54, R61). -/
def pointQuota (s : State) (b : Nat) : Nat := fld (s.reg (0x4F100 + 4 * b)) 1 15
def passQuota (s : State) (b : Nat) : Nat := fld (s.reg (0x4F100 + 4 * b)) 16 13

/-- The owner of what a point is declared on is the basin (R54, R156). -/
def pointOwned (s : State) (b : Nat) (p : Point) : Bool :=
  match p.origin with
  | 0 => if p.segment < 2 then idBasin s p.channel p.segment p.canId p.ide = b
         else nodeBasin s p.channel p.segment p.node = b
  | 1 => termBasin s p.channel p.index = b
  | 2 => match amGet s.ws.loops p.index with | some l => l.basin = b && !l.gone | none => false
  | _ => true

/-- The types a point on a local terminal may have (R367). -/
def terminalType (term ty : Nat) : Bool :=
  if term < 24 then ty == 0 else if term < 32 then ty == 1 || ty == 2 || ty == 3
  else if term < 36 then ty == 1 else ty == 6

/-- Checks of a POINT. -/
def checkPoint (s : State) (fn : Nat) (ws : List Word) : Nat :=
  let p := pointOf fn 0 ws
  let req := rec64 ws 2 0 16
  let noWrite : Bool := p.origin = 2 || (p.origin = 1 && (p.index < 16 || (24 ≤ p.index && p.index < 32)))
  let badRange : Bool :=
    p.write = 3 || (req ≠ 0xFFFF && (fn ≠ 0 || 16384 ≤ req)) || 16 < p.ringDecl ||
    (p.origin < 2 && !s.fitted p.channel) || (p.origin = 1 && 40 ≤ p.index) || (p.origin = 2 && 8192 ≤ p.index) ||
    (p.origin = 2 && p.loopItem = 3) || (noWrite && p.write ≠ 0) ||
    (p.origin = 0 && p.segment < 2 && (!idOk p.ide p.canId ||
      (if s.fdEn p.channel p.segment then 64 else 8) < p.byteOfs + canWidth p.type)) ||
    (p.origin = 0 && 2 ≤ p.segment && 32 ≤ p.node)
  let s' := { s with points := amSet s.points (match newHandle s ws with | some h => h | none => 0) p }
  firstFail [(badRange, 2), ((p.pinned && fn ≠ 0) || !pointOwned s fn p, 4),
    (p.type = 7 || (p.type = 4 && (p.origin = 1 || p.origin = 2)) || (p.origin = 1 && !terminalType p.index p.type), 3),
    (p.pinned && !s.expertAt 0x40000, 10), (req ≠ 0xFFFF && !handleFree s req, 6),
    (decide (pointQuota s fn ≤ (s.points.filter (fun x => x.2.owner == fn)).length) || (newHandle s ws).isNone ||
      (p.histSlot ≠ 0xFFFF && decide (0x40000000 < histUsed s + 32 * 2 ^ (p.histDepth + 6))), 5),
    (p.origin = 0 && !busFits s' p.channel p.segment, 9)]

/-- A loop's input is owned by the basin or covered by a pass it holds (R158). -/
def readable (s : State) (b h : Nat) : Bool :=
  match amGet s.points h with
  | some p => p.owner = b || (s.holders p.owner h).contains b
  | none => false

/-- Checks of a LOOP. -/
def checkLoop (s : State) (fn : Nat) (ws : List Word) : Nat :=
  let l := loopOf fn ws
  let wide (h : Nat) : Bool := 16384 ≤ h && h ≠ 0xFFFF
  firstFail [
    (l.period = 0 || 524288 < l.period || l.period ≤ l.phaseDecl || wide l.sp || wide l.ff || wide l.track ||
      (l.pin && !s.fitted l.pinCh), 2),
    ((loopPoints l).any (fun h => !s.sees fn h), 13),
    ((l.pin && fn ≠ 0) || (loopInputs l).any (fun h => !readable s fn h) || judgeWrite s fn l.outp ≠ 0, 4),
    ((loopPoints l).any (fun h => s.ptType h == 4) || s.ptType l.outp == 6, 3),
    (!classOk s l, 7), (l.pin && !s.expertAt 0x40000, 10),
    ((amFree s.ws.loops 8192).isNone || !quotaOk s (loopsHeld s) l, 5), (!loopFits s l, 8)]

/-- Checks of a SUB. -/
def checkSub (s : State) (fn : Nat) (ws : List Word) : Nat :=
  let q := subOf fn ws
  let can : Bool := q.segment < 2
  let q' := { q with ring := chooseRing s fn q.ringDecl 255 3 false }
  let s' := s.modWs (fun w => { w with subs := amSet w.subs 4096 q' })
  firstFail [
    (!s.fitted q.channel || 16 < q.ringDecl ||
      (can && (q.form = 3 || !idOk q.ide q.id1 || (q.form ≠ 0 && !idOk q.ide q.id2) || (q.form = 1 && q.id2 < q.id1))) ||
      (!can && q.node ≠ 0xFF && 32 ≤ q.node), 2),
    (!subOwned s fn q, 4), ((amFree s.ws.subs 4096).isNone, 5),
    (!busFits s' q.channel q.segment, 9)]

/-- Checks of a PASS (R61). -/
def checkPass (s : State) (fn : Nat) (ws : List Word) : Nat :=
  let p := passOf ws
  firstFail [
    (p.count = 0 || 256 < p.count || 16384 < p.first + p.count || 16 < p.ringDecl, 2),
    (p.grantor ≠ fn || p.grantee = p.grantor, 4),
    (s.ws.passes.any (fun x => x.2.grantor == p.grantor && x.2.grantee == p.grantee && p.first < x.2.first + x.2.count &&
      x.2.first < p.first + p.count), 11),
    ((amFree s.ws.passes 4096).isNone ||
      decide (passQuota s p.grantee ≤ (s.ws.passes.filter (fun x => x.2.grantee == p.grantee)).length), 5)]

/-- Checks of an ACTION (R161, R227 to R229, R296). -/
def checkAction (s : State) (fn : Nat) (ws : List Word) : Nat :=
  let kind := rec64 ws 8 0 4
  let n := rec64 ws 30 0 3
  let h := rec64 ws 32 0 14
  let v : Slot := BitVec.ofNat 64 (rec64 ws 40 0 64)
  let loops := (List.range (rec64 ws 33 0 8)).map (fun i => rec64 ws (34 + 2 * i) 0 13)
  let bits (base : Nat) : List Nat := ((List.range 8).filter (fun d => recBit ws 32 d)).map (base + ·)
  let ide := recBit ws 32 29
  let badRange : Bool :=
    5 < kind || giga ≤ rec64 ws 12 0 32 || (kind < 4 && !s.fitted n) ||
    (match kind with
    | 2 => rec64 ws 34 0 16 = 0 || 256 < rec64 ws 34 0 16 || rec64 ws 36 0 16 < 10
    | 3 => 2 ≤ rec64 ws 30 3 2 || 16 < rec64 ws 36 0 5 ||
      (canLen (s.fdEn n (rec64 ws 30 3 2)) (recBit ws 32 30) (recBit ws 36 5) (rec64 ws 36 0 5) 16).isNone
    | 4 => s.sees fn h && s.ptType h = 5 && rec64 ws 34 0 3 = 5 && slotOk 5 v &&
      (match amGet s.points h with | some p => p.enumCount ≤ v.toNat | none => false)
    | 5 => rec64 ws 33 0 8 = 0 || 11 < rec64 ws 33 0 8
    | _ => false)
  let noPoint : Bool :=
    match kind with
    | 2 => (bits 24).any (fun t => !s.points.any (fun p => p.2.owner == fn && p.2.origin == 1 && p.2.channel == n &&
        p.2.index == t))
    | 4 => !s.sees fn h
    | _ => false
  let notOwner : Bool :=
    match kind with
    | 0 => (bits 16).any (fun t => termBasin s n t ≠ fn)
    | 1 => termBasin s n (32 + rec64 ws 32 0 2) ≠ fn
    | 2 => (bits 24).any (fun t => termBasin s n t ≠ fn)
    | 3 => idBasin s n (rec64 ws 30 3 2) (if ide then rec64 ws 32 0 29 else rec64 ws 32 0 11) ide ≠ fn
    | 4 => judgeWrite s fn h ≠ 0
    | _ => loops.any (fun i => match amGet s.ws.loops i with | some l => l.basin ≠ fn || l.gone | none => true)
  let typeErr : Bool := kind = 4 && (s.ptType h ≠ rec64 ws 34 0 3 || !slotOk (rec64 ws 34 0 3) v)
  firstFail [(badRange, 2), (noPoint, 13), (notOwner, 4), (typeErr, 3),
    ((amFree s.actions 17408).isNone ||
      decide (s.tblCap (actTableOf s ws) ≤ (s.tbl (actTableOf s ws)).entries.length +
        (s.actions.filter (fun a => a.2.table = 9 && actTableOf s a.2.decl = actTableOf s ws)).length), 5)]

/-- The header rules of R152 and R154. -/
def headerOk (fn : Nat) (ws : List Word) : Bool :=
  let t := rec64 ws 0 0 8
  1 ≤ t && t ≤ 6 && recClean ws (if t = 5 then actFields (rec64 ws 8 0 4) else recFields t) &&
  (t = 2 || rec64 ws 2 0 16 = 0xFFFF) && (fn = 0 || rec64 ws 2 0 16 = 0xFFFF)

/-- RESULT of a SUBMIT. -/
def submitCheck (s : State) (fn : Nat) (ws : List Word) : Nat :=
  if declRefused s || basinOff s fn then 15
  else if !headerOk fn ws then 2
  else match rec64 ws 0 0 8 with
    | 1 => checkAssign s fn ws
    | 2 => checkPoint s fn ws
    | 3 => checkLoop s fn ws
    | 4 => checkSub s fn ws
    | 5 => checkAction s fn ws
    | _ => checkPass s fn ws

/-- Enter an accepted record: the state and the identifier (R152). -/
def enterDecl (s : State) (fn : Nat) (ws : List Word) : State × Nat :=
  match rec64 ws 0 0 8 with
  | 1 =>
    let id := (amFree s.ws.assigns 1024).getD 0
    let ord := s.ws.assigns.foldl (fun m p => max m (p.2.ord + 1)) 0
    (s.modWs (fun w => { w with assigns := amSet w.assigns id (assignOf ws ord) }), id)
  | 2 =>
    let h := (newHandle s ws).getD 0
    (trigger (dirChanged { s with points := amSet s.points h (pointOf fn h ws) }) 0, h)
  | 3 =>
    let id := (amFree s.ws.loops 8192).getD 0
    (trigger (s.modWs (fun w => { w with loops := amSet w.loops id (loopOf fn ws) })) 0, id)
  | 4 =>
    let id := (amFree s.ws.subs 4096).getD 0
    let q0 := subOf fn ws
    let q := { q0 with ring := chooseRing s fn q0.ringDecl 255 3 false }
    (trigger (s.modWs (fun w => { w with subs := amSet w.subs id q })) 0, id)
  | 5 =>
    let id := (amFree s.actions 17408).getD 0
    let a : Action := { basin := fn, decl := ws, table := 9, entry := 0 }
    ({ s with actions := amSet s.actions id a }, id)
  | _ =>
    let id := (amFree s.ws.passes 4096).getD 0
    let p0 := passOf ws
    let p := { p0 with ring := chooseRing s p0.grantee p0.ringDecl 255 0 false,
                       suspended := p0.expiry ≠ 0 && !s.timeValid }
    (dirFrom s (s.modWs (fun w => { w with passes := amSet w.passes id p })), id)

/-- A declared action enters its table (R161, R237). Occurrences before its placement do not act: those of a
periodic entry count, a one-shot past its tolerance is MISSED. -/
def applyAction (s : State) (id : Nat) : State :=
  match amGet s.actions id with
  | none => s
  | some a =>
    let t := actTableOf s a.decl
    match s.tblFree t with
    | none => s
    | some i =>
      let e := actEntryOf s a.basin id a.decl
      let s := enterEntry s t i e
      let ref := s.refOf t i
      let s := { s with actions := amMod s.actions id (fun a => { a with table := t, entry := i }) }
      let s := raiseBoth s 0x010C a.basin (bytesLE 2 id ++ [BitVec.ofNat 8 t, 0] ++ bytesLE 4 ref.toNat)
      match amGet (s.tbl t).entries i with
      | none => s
      | some e =>
        let now := s.tblNow t
        let k := e.passedAt now
        if !s.tblValid t || k = 0 then s
        else
          let late := now - e.occ (k - 1)
          if e.period = 0 then
            if e.tol ≠ 0xFFFF ∧ e.tol * 1000 < late then
              occOutcome (s.modEnt t i (fun e => { e with done := 1 })) t i { e with done := 1 } oMissed 0x27 (late / 1000) true
            else s
          else if e.isLast (k - 1) then
            occOutcome (s.modEnt t i (fun e => { e with done := k })) t i { e with done := k } oMissed 0x27 (late / 1000) true
          else s.modEnt t i (fun e => { e with done := k, st := .running })

/-- SUBMIT (R150, R153): an accepted declaration starts a pass (R179). A declared action enters its table at once, or at a pass when its channel is not
IN_SERVICE. -/
def submitOp (fn : Nat) (s : State) : State :=
  let ws := declBuf s fn
  let r := submitCheck s fn ws
  if r ≠ 1 then declDone s fn r 0
  else
    let e := enterDecl s fn ws
    let s := trigger ((declDone e.1 fn 1 e.2).mirror (.declared (rec64 ws 0 0 8) e.2 fn ws)) 0
    if rec64 ws 0 0 8 ≠ 5 then s
    else if actTableOf s ws = 8 ∨ s.inService (actTableOf s ws) then applyAction s e.2
    else s

/- ### Stopping loops -/

/-- The slot of a loop is freed; its OUT takes the disable value when it was enabled and nothing holds it (R163,
R182, R270). -/
def leaveSlot (s : State) (id : Nat) (l : Loop) : State :=
  let r := s.slotRt l.channel l.slot
  if r.loop ≠ some id then s
  else
    let ctl := s.slotReg l.channel l.slot 0
    let b := slotBank s l.channel l.slot (fld ctl 1 1)
    let s := (if (r.en || r.owns) && !bitN ctl 5 && s.loopsRun l.channel then
      loopCommand s l.channel l b (s.slotReg l.channel l.slot 2).toInt else s)
    (s.setReg (slotKey l.channel l.slot 0) (ctl &&& ~~~1)).modCh l.channel
      (fun c => { c with slots := amDel c.slots l.slot })

/-- LOOP points of a loop take quality OUT_OF_SERVICE (R42, R182). -/
def loopPointsOut (s : State) (id : Nat) : State :=
  (s.points.filter (fun p => p.2.inEffect && p.2.origin == 2 && p.2.index == id)).foldl
    (fun s p => acquire s p.1 p.2.own.value 8 (s.chNow p.2.channel)) s

/-- A loop is stopped by placement: LOOP_STOPPED, and it stays declared (R182, R183, R530). A bound loop of a
channel taken out leaves its outputs to their safe states (R388), and a channel in FAULT drives nothing. A channel whose
link is lost learns it when the link returns (R30, R31). -/
def stopLoop (s : State) (id reason : Nat) : State :=
  match amGet s.ws.loops id with
  | none => s
  | some l =>
    let bound := isBound s l
    let quiet (s : State) : State :=
      let key := slotKey l.channel l.slot 0
      (s.setReg key (s.reg key &&& ~~~1)).modCh l.channel (fun c => { c with slots := amDel c.slots l.slot })
    let lost : Bool := s.linkDown l.channel
    let s := if !l.holds || lost then s else if reason = 2 ∨ (reason = 1 ∧ bound) then quiet s else leaveSlot s id l
    let s := (match amGet s.points l.outp with
      | some p => if reason = 1 ∧ bound ∧ l.holds ∧ !lost ∧ p.origin = 1 then applySafe s p.channel p.index else s
      | none => s)
    let s := s.modWs (fun w => { w with
      loops := if l.gone then amDel w.loops id else amMod w.loops id (fun l => { l with st := .stopped, fails := 0 }),
      migrations := w.migrations.filter (fun m => !(m.loop == id)) })
    let s := loopPointsOut (s.mirror (.stopped id)) id
    raiseBoth s 0x0104 l.basin (bytesLE 2 id ++ [BitVec.ofNat 8 l.channel, BitVec.ofNat 8 reason])

/- ### WITHDRAW (R163, R244) -/

/-- A pass ends (R63). -/
def revokePass (s : State) (id reason : Nat) : State :=
  match amGet s.ws.passes id with
  | none => s
  | some p =>
    let s := dirFrom s (s.modWs (fun w => { w with passes := amDel w.passes id }))
    raise s p.grantee 2 p.grantee (bytesLE 2 id ++ [BitVec.ofNat 8 reason, BitVec.ofNat 8 p.grantor])

/-- A loop or an action still uses a point (R163); a withdrawn loop does until its disable value is driven. -/
def pointUsed (s : State) (h : Nat) : Bool :=
  s.ws.loops.any (fun p => (loopPoints p.2).contains h) ||
  s.actions.any (fun a =>
    (rec64 a.2.decl 8 0 4 = 4 && rec64 a.2.decl 32 0 14 = h) ||
    (rec64 a.2.decl 8 0 4 = 2 && (match amGet s.points h with
      | some p => p.origin = 1 && p.owner = a.2.basin && p.channel = rec64 a.2.decl 30 0 3 && 24 ≤ p.index &&
          p.index < 32 && recBit a.2.decl 32 (p.index - 24)
      | none => false)))

/-- A point is withdrawn: holders of passes that cover it learn it (R65), its placement record says so (R190), its handle
waits for a pass (R34). -/
def dropPoint (s : State) (h : Nat) : State :=
  match amGet s.points h with
  | none => s
  | some p =>
    let s := s.ws.passes.foldl (fun s x =>
      if x.2.grantor = p.owner ∧ x.2.first ≤ h ∧ h < x.2.first + x.2.count then
        raise s x.2.grantee 3 x.2.grantee (bytesLE 2 h ++ bytesLE 2 x.1) else s) s
    let s := raiseBoth s 0x0101 p.owner
      (bytesLE 2 h ++ [BitVec.ofNat 8 p.channel, if p.ring < 16 then BitVec.ofNat 8 p.ring else 0xFF, 2])
    let s := { s with points := amDel s.points h }
    trigger (dirChanged (s.modWs (fun w => { w with reissue := w.reissue ++ [h] }))) 0

/-- A declared action is withdrawn (R244). -/
def dropAction (s : State) (id : Nat) : State :=
  match amGet s.actions id with
  | none => s
  | some a =>
    let s := if 9 ≤ a.table then s else withdrawEntry s a.table a.entry
    { s with actions := amDel s.actions id }

/-- A loop is withdrawn: one that holds a place leaves at the next Watershed transaction (R163). -/
def dropLoop (s : State) (id : Nat) : State :=
  match amGet s.ws.loops id with
  | none => s
  | some l =>
    if l.holds then trigger (s.modWs (fun w => { w with loops := amMod w.loops id (fun l => { l with gone := true }) })) 0
    else s.modWs (fun w => { w with loops := amDel w.loops id })

/-- A subscription is withdrawn; the filter follows at the next pass. -/
def dropSub (s : State) (id : Nat) : State := trigger (s.modWs (fun w => { w with subs := amDel w.subs id })) 0

/-- The basin that declared an item; none: no such declaration. -/
def declOwner (s : State) (t id : Nat) : Option Nat :=
  match t with
  | 1 => (amGet s.ws.assigns id).map (fun _ => 0)
  | 2 => (amGet s.points id).map (·.owner)
  | 3 => (amGet s.ws.loops id).bind (fun l => if l.gone then none else some l.basin)
  | 4 => (amGet s.ws.subs id).map (·.basin)
  | 5 => (amGet s.actions id).map (·.basin)
  | _ => (amGet s.ws.passes id).map (·.grantor)

/-- RESULT of naming a declaration: reserved DTYPE, unknown or foreign (R59, R153). -/
def declNamed (s : State) (fn t id : Nat) : Nat :=
  if t = 0 ∨ 6 < t then 2
  else match declOwner s t id with
    | some b => if fn = 0 ∨ b = fn then 1 else if t = 2 then 13 else 14
    | none => if t = 2 then 13 else 14

/-- WITHDRAW (R150, R163). -/
def withdrawOp (fn : Nat) (s : State) : State :=
  let ws := declBuf s fn
  let t := rec64 ws 0 0 8
  let id := rec64 ws 2 0 16
  let r := if declRefused s || basinOff s fn then 15 else declNamed s fn t id
  if r ≠ 1 then declDone s fn r id
  else if (t = 2 && pointUsed s id) ||
      (t = 1 && (match amGet s.ws.assigns id with
        | some a => assignUsed s { a with basin := 0 }
        | none => false)) then declDone s fn 12 id
  else
    let s := match t with
      | 1 => s.modWs (fun w => { w with assigns := amDel w.assigns id })
      | 2 => dropPoint s id
      | 3 => dropLoop s id
      | 4 => dropSub s id
      | 5 => dropAction s id
      | _ =>
        let grantor := match amGet s.ws.passes id with | some p => p.grantor | none => 0
        revokePass s id (if fn = grantor then 0 else 1)
    trigger ((declDone s fn 1 id).mirror (.withdrawn t id)) 0

/- ### QUERY (R164) -/

/-- STATE of a loop as QUERY gives it. -/
def LoopState.code : LoopState → Nat
  | .pending => 0 | .placed => 1 | .migrating => 2 | .stopped => 3

/-- STATE of an entry as QUERY gives it (R227). -/
def ActState.code : ActState → Nat
  | .pending => 0 | .running => 1 | .ended => 2 | .stopped => 3

/-- The record of a declaration with its present placement. -/
def queryRec (s : State) (t id : Nat) : List Word :=
  let ring (o decl cur : Nat) (ws : List Word) : List Word := if cur < 16 then recSet ws o 0 5 cur else recSet ws o 0 5 decl
  match t with
  | 1 => match amGet s.ws.assigns id with | some a => a.decl | none => []
  | 2 => match amGet s.points id with
    | some p => ring 14 p.ringDecl p.ring (recSet p.decl 10 0 3 p.channel)
    | none => []
  | 3 => match amGet s.ws.loops id with
    | some l =>
      let on := l.holds
      recSet (recSet (recSet (recSet l.decl 9 0 3 (if on then l.channel else 0)) 10 0 10 (if on then l.slot else 0))
        16 0 20 (if on then l.phase else l.phaseDecl)) 30 0 8 l.st.code
    | none => []
  | 4 => match amGet s.ws.subs id with | some q => ring 10 q.ringDecl q.ring q.decl | none => []
  | 5 => match amGet s.actions id with
    | some a =>
      match (if 9 ≤ a.table then none else amGet (s.tbl a.table).entries a.entry) with
      | some e =>
        recSet (recSet (recSet a.decl 56 0 32 (entryRef a.table a.entry e.gen).toNat) 60 0 16 (min 65535 e.done)) 62 0 2
          e.st.code
      | none => recSet a.decl 62 0 2 (if a.table = 9 then 0 else 3)
    | none => []
  | _ => match amGet s.ws.passes id with | some p => ring 14 p.ringDecl p.ring p.decl | none => []

/-- QUERY (R150, R164); a pass answers to its grantee too (R59). -/
def queryOp (fn : Nat) (s : State) : State :=
  let ws := declBuf s fn
  let t := rec64 ws 0 0 8
  let id := rec64 ws 2 0 16
  let held : Bool := t = 6 && (match amGet s.ws.passes id with | some p => p.grantee = fn | none => false)
  let r := if basinOff s fn then 15 else if held then 1 else declNamed s fn t id
  if r ≠ 1 then declDone s fn r id else declDone (setDeclBuf s fn (queryRec s t id)) fn 1 id

/-- PLACE_NOW (R150): a rebalance. -/
def placeNowOp (fn : Nat) (s : State) : State :=
  if fn ≠ 0 || declRefused s then declDone s fn 15 0
  else declDone ((trigger s 2).modWs (fun w => { w with rebalance := true })) fn 1 0

/- ### Passes and basins (R64 to R66) -/

/-- A pass's EXPIRY is reached (R64). -/
def passExpiryOp (id : Nat) (s : State) : State :=
  match amGet s.ws.passes id with
  | none => s
  | some p =>
    if p.expiry ≠ 0 ∧ s.timeValid ∧ p.expiry * giga ≤ s.time.now then (revokePass s id 2).mirror (.withdrawn 6 id) else s

/-- Hub time becomes valid: every pass is evaluated at once (R64). -/
def passesValid (s : State) : State :=
  (s.ws.passes.map (·.1)).foldl (fun s id => passExpiryOp id s)
    (s.modWs (fun w => { w with passes := w.passes.map (fun (p : Nat × Pass) => (p.1, { p.2 with suspended := false })) }))

/-- Hub time ceases to be valid: passes with an EXPIRY are suspended. -/
def passesInvalid (s : State) : State :=
  s.modWs (fun w => { w with passes := w.passes.map (fun (p : Nat × Pass) =>
    if p.2.expiry = 0 then p else (p.1, { p.2 with suspended := true })) })

/-- An assignment to basin `b` returns to basin 0: earlier ones of the same resources do not come back (R66). -/
def Assign.returned (b : Nat) (a : Assign) : Assign :=
  if a.basin = b then { a with basin := 0, decl := recSet a.decl 12 0 6 0 } else a

/-- Declarations of a basin are withdrawn one by one, and the standby learns of each (R66, R67). -/
def withdrawAll (t : Nat) (drop : State → Nat → State) (ids : List Nat) (s : State) : State :=
  ids.foldl (fun s id => (drop s id).mirror (.withdrawn t id)) s

/-- A loop of a removed basin stops at once. -/
def removeLoop (s : State) (id : Nat) : State :=
  match amGet s.ws.loops id with
  | none => s
  | some l =>
    if l.holds then stopLoop (s.modWs (fun w => { w with loops := amMod w.loops id (fun l => { l with gone := true }) })) id 0
    else s.modWs (fun w => { w with loops := amDel w.loops id })

/-- The assignments to a removed basin return, and its quotas end (R66). -/
def basinReturned (b : Nat) (s : State) : State :=
  s.modWs (fun w => { w with
    assigns := (w.assigns.filter (fun p => !(p.2.basin == b && p.2.res == 3))).map (fun p => (p.1, p.2.returned b)) })

/-- BASIN_REMOVE (R66): accepted for basins 1 to 63 while EN is 0. -/
def basinRemoveOp (b : Nat) (s : State) : State :=
  if b = 0 ∨ 63 < b ∨ s.basinEn b ∨ s.ws.removing.contains b then s
  else
    let s := s.modWs (fun w => { w with removing := w.removing ++ [b] })
    let mine (h : Nat) : Bool := match amGet s.points h with | some p => p.owner = b | none => false
    let s := (s.ws.loops.filter (fun p => p.2.basin ≠ b && p.2.st ≠ .stopped && (loopPoints p.2).any mine)).foldl
      (fun s p => stopLoop s p.1 0) s
    let s := withdrawAll 5 dropAction ((s.actions.filter (fun p => p.2.basin == b)).map (·.1)) s
    let s := withdrawAll 4 dropSub ((s.ws.subs.filter (fun p => p.2.basin == b)).map (·.1)) s
    let s := withdrawAll 3 removeLoop ((s.ws.loops.filter (fun p => p.2.basin == b)).map (·.1)) s
    let s := withdrawAll 6 (fun s id => revokePass s id 3)
      ((s.ws.passes.filter (fun p => p.2.grantor == b || p.2.grantee == b)).map (·.1)) s
    let s := withdrawAll 2 dropPoint ((s.points.filter (fun p => p.2.owner == b)).map (·.1)) s
    let s := (basinReturned b s).mirror (.basinRemoved b)
    (s.setReg (0x4F100 + 4 * b) 0).mirror (.register (0x4F100 + 4 * b) 0)

/-- BASIN_REMOVE_DONE (R66): REMOVING returns to 0. -/
def basinRemovedOp (b : Nat) (s : State) : State :=
  s.modWs (fun w => { w with removing := w.removing.filter (fun x => !(x == b)) })

/- ### The commands -/

/-- A declaration command of function `fn` is carried out: the one DECLCMD started, or one sent while none runs;
a function's commands run one at a time (R150). -/
def runDecl (fn cmd : Nat) (f : State → State) (s : State) : State :=
  if (s.fn fn).declCmd = 0 ∨ (s.fn fn).declCmd = cmd then f s else s

/-- SUBMIT (R153). -/
def execSubmit (fn : Nat) (s : State) : Host.Outcome State Fault Refusal :=
  .next (ifServed (runDecl fn 1 (submitOp fn)) s)

/-- WITHDRAW (R163). -/
def execWithdraw (fn : Nat) (s : State) : Host.Outcome State Fault Refusal :=
  .next (ifServed (runDecl fn 2 (withdrawOp fn)) s)

/-- QUERY (R164). -/
def execQuery (fn : Nat) (s : State) : Host.Outcome State Fault Refusal :=
  .next (ifServed (runDecl fn 3 (queryOp fn)) s)

/-- PLACE_NOW (R150). -/
def execPlaceNow (fn : Nat) (s : State) : Host.Outcome State Fault Refusal :=
  .next (ifServed (runDecl fn 4 (placeNowOp fn)) s)

/-- PASS_EXPIRY (R64). -/
def execPassExpiry (pass : Nat) (s : State) : Host.Outcome State Fault Refusal :=
  .next (passExpiryOp pass s)

/-- BASIN_REMOVE (R66). -/
def execBasinRemove (b : Nat) (s : State) : Host.Outcome State Fault Refusal :=
  .next (ifReaches 0x4F100 (basinRemoveOp b) s)

/-- BASIN_REMOVE_DONE (R66). -/
def execBasinRemoveDone (b : Nat) (s : State) : Host.Outcome State Fault Refusal :=
  .next (basinRemovedOp b s)

end Sys2Proof.Machine
end

