-- ==== Sys2Proof/Machine/UpdCore.lean ====
section
/-! DEFINITION. The Tuiziuri image, the judgement of its header, the staging area and the end of an armed
activation (chapter 18, R493 to R500, R504), as other chapters need them. -/

namespace Sys2Proof.Machine

/- ### The header (R493) -/

/-- HUB_LEN and CH_LEN. -/
def hdrHubLen (h : List Byte) : Nat := getLE h 8 4
def hdrChLen (h : List Byte) : Nat := getLE h 24 4

/-- SEC_VER and MIRROR_FMT. -/
def hdrSecVer (h : List Byte) : Nat := getLE h 20 4
def hdrMirFmt (h : List Byte) : Nat := getLE h 18 2

/-- Bytes of an image of a header. -/
def hdrTotal (h : List Byte) : Nat := 256 + hdrHubLen h + hdrChLen h

/-- Check 4 of R496: HDR_VER, reserved bytes and bits, lengths. -/
def hdrFormatOk (h : List Byte) : Bool :=
  getLE h 4 2 = 1 && ((h.drop 28).take 4).all (· == 0) && ((h.drop 128).take 32).all (· == 0) &&
    (h.getD 6 0).toNat < 4 && (h.getD 7 0).toNat < 4 && hdrSecVer h < 256 &&
    1 ≤ hdrHubLen h && hdrHubLen h ≤ 48 * 2 ^ 20 && 1 ≤ hdrChLen h && hdrChLen h ≤ 16 * 2 ^ 20 &&
    hdrTotal h ≤ 64 * 2 ^ 20

/-- SIGNATURE over SHA-384 of bytes 0 to 159 holds (R493, R494). -/
def hdrSigOk (h : List Byte) : Bool :=
  Config.ecdsaP384 (Config.signingKey (h.getD 7 0).toNat) (bytesBE 48 (Config.sha384 (h.take 160)).toNat) (h.drop 160)

/-- The judgement of a header from a source (R496), `mine`: the source holds the lock; 0 when accepted. -/
def hdrCheck (s : State) (mine : Bool) (h : List Byte) : Nat :=
  let u := s.upd
  if (u.lock ≠ 0 ∧ !mine) ∨ u.state = 4 then 2
  else if s.lc.state = 0 ∨ s.lc.state = 5 ∨ s.pwr.warn then 11
  else if getLE h 0 4 ≠ 0x495A5554 then 3
  else if !hdrFormatOk h then 4
  else if !(h.getD 6 0).getLsbD (if s.ident.eight then 0 else 1) then 5
  else if u.revoked.getLsbD (h.getD 7 0).toNat then 6
  else if !hdrSigOk h then 7
  else if hdrSecVer h < u.floor then 8
  else 0

/-- What the module keeps of an image. -/
def imageOf (h : List Byte) : Image :=
  { major := (h.getD 12 0).toNat, minor := (h.getD 13 0).toNat, patch := getLE h 14 2, chBuild := getLE h 16 2,
    mirFmt := hdrMirFmt h, secVer := hdrSecVer h, digests := (h.drop 32).take 96 }

/-- Both digests of a body match its header (R497). -/
def digestsOk (h body : List Byte) : Bool :=
  bytesBE 48 (Config.sha384 (body.take (hdrHubLen h))).toNat == (h.drop 32).take 48 &&
  bytesBE 48 (Config.sha384 (body.drop (hdrHubLen h))).toNat == (h.drop 80).take 48

/-- The image of the slot that runs (R468). -/
def Upd.running (u : Upd) : Image := if u.slotB then u.slotBImg else u.slotAImg

/- ### Records and transfers (R497, R504) -/

/-- An update record of kind 0x0680 + `i`, with vector 6. -/
def updRec (s : State) (i : Nat) (payload : List Byte) : State := (raise s 0 (0x0680 + i) 0 payload).sendVec 0 6

/-- Payload of UPD_STATE. -/
def updStatePayload (u : Upd) (old new res : Nat) : List Byte :=
  [BitVec.ofNat 8 old, BitVec.ofNat 8 new, BitVec.ofNat 8 res, BitVec.ofNat 8 u.src] ++ bytesLE 4 (hdrSecVer u.header)

/-- The staging state changes at the end of a transfer or of an activation, with its RESULT. -/
def updEnds (s : State) (new res : Nat) : State :=
  let u := s.upd
  updRec (s.modUpd (fun u =>
    { u with state := new, result := res, lock := 0, port := 0, mac := 0,
             header := if new = 3 then u.header else [], body := if new = 3 then u.body else [] }))
    1 (updStatePayload u u.state new res)

/-- An accepted header takes the lock for its source (R496). -/
def takeHeader (s : State) (lock src port : Nat) (mac : BitVec 48) (h : List Byte) : State :=
  s.modUpd (fun u =>
    { u with state := 1, result := 1, lock := lock, src := src, port := port, mac := mac, header := h, body := [] })

/-- Bytes the body still lacks. -/
def Upd.missing (u : Upd) : Nat := hdrTotal u.header - 256 - u.body.length

/-- Body bytes in order; the last one starts verification (R497). -/
def takeBody (s : State) (bytes : List Byte) : State :=
  let s := s.modUpd (fun u => { u with body := u.body ++ bytes })
  if s.upd.missing = 0 then s.modUpd (fun u => { u with state := 2 }) else s

/- ### An armed activation ends before its instant (R500) -/

/-- The activation returns to STAGED with a result; the partner's with it (R503). -/
def disarm (s : State) (res : Nat) : State :=
  let s := if s.upd.state = 4 then updEnds s 3 res else s
  if s.upd.pState = 4 then (s.modUpd (fun u => { u with pState := 3, result := res })).mirror (.armed none) else s

end Sys2Proof.Machine
end

