-- ==== Sys2Proof/Machine/PairCore.lean ====
section
/-! DEFINITION. What other chapters need of pairing (chapter 14): pair records, the fit partner, stopping a
channel, the yield and the abort of a vault operation (R417, R421, R425, R473). -/

namespace Sys2Proof.Machine

/-- A pair record of kind 0x0500 + `i`, with vector 5 (R425). -/
def pairRec (s : State) (i : Nat) (payload : List Byte) : State := (raise s 0 (0x0500 + i) 0 payload).sendVec 0 5

/-- A register whose content the standby receives: channel blocks, the basin table, HUB_PAIR_CFG and the stageable
registers of the hub, host port and rings apart (R88, R408). -/
def mirroredKey (key : Nat) : Bool :=
  (0x100000 ≤ key && key < 0x900000) || (0x4F100 ≤ key && key < 0x4F200) || key = 0x80000 ||
  (0x40000 ≤ key && key < 0x100000 && (match regRow key with | some r => r.stage | none => false))

/-- The module has a partner that it has not refused (R5, R401). -/
def State.paired (s : State) : Bool := s.pair.partnerRole ≠ 0 && !s.pair.refused

/-- The partner is a fit STANDBY (R417). -/
def State.partnerReady (s : State) : Bool :=
  s.pair.role = 1 && s.pair.partnerRole = 2 && s.pair.partnerFit && !s.pair.refused

/-- The partner's channel of the same number is fit: CH_FIT of the latest report of a hot standby; a warm standby
tests nothing and counts as fit (R414, R416, R417). -/
def State.partnerChFit (s : State) (n : Nat) : Bool := !s.pair.hot || bitN (s.pair.health.getD 1 0) (8 + n)

/-- A channel that holds RELEASE_ARMED stops starting work, with its H (R421): its controllers and segments change
at the next bus idle. -/
def stopChannel (s : State) (n : Nat) (h : Instant) : State :=
  if (s.ch n).relArmed ∧ !(s.ch n).stopped then
    s.modCh n (fun c =>
      { c with stopped := true, stopH := h, can := c.can.map (fun x => { x with pendingMode := true }) })
  else s

/-- A vault operation in flight is aborted before its COMMIT: its slot is unchanged, IN and OUT are zeroed (R473). -/
def vaultAbort (s : State) (result : Nat) : State :=
  if s.vlt.busy.isSome then
    (s.modVlt (fun v => { v with busy := none, result := result, outLen := 0, inBuf := [],
                                 outBuf := List.replicate 12 0 })).intBit 0x90080 0 7
  else s

/-- The active module yields with a cause of R425 (R417): PAIR_ALIVE_OUT stops, and the channels stop work; the
heartbeat that follows carries YIELD. -/
def yieldTo (s : State) (cause : Nat) : State :=
  if s.partnerReady ∧ s.pair.yielding.isNone then
    (List.range 8).foldl (fun s n => stopChannel s n s.pair.lastH)
      (s.modPair (fun p => { p with yielding := some cause, aliveOut := false }))
  else s

/-- A channel enters FAULT or LINK_LOST (R417). -/
def channelYield (s : State) (n : Nat) : State := if s.partnerChFit n then yieldTo s 4 else s

end Sys2Proof.Machine
end

