-- ==== Sys2Proof/Machine/Watershed.lean ====
section
/-! DEFINITION. Placement passes and their transaction (R148, R165, R179 to R189, R531), live migration, and the
service of channels. -/

namespace Sys2Proof.Machine

/- ### Deciding (R168, R179) -/

/-- Loops on a channel in FAULT that are placed anew (R183). -/
def faulted (s : State) : List (Nat × Loop) :=
  s.ws.loops.filter (fun p => p.2.holds && !p.2.gone && (s.ch p.2.channel).state == ChState.fault)

/-- Movable loops of DRAINING channels (R182). -/
def toMove (s : State) (n : Nat) : List (Nat × Loop) :=
  s.ws.loops.filter (fun p => p.2.holds && p.2.channel == n && !isBound s p.2 && !p.2.pin && !p.2.gone)

/-- A move of a loop to the place it is given. -/
def moveOf (id reason : Nat) (l l' : Loop) : Migration :=
  { loop := id, fromCh := l.channel, fromSlot := l.slot, toCh := l'.channel, toSlot := l'.slot, reason := reason,
    tm := none, arrived := false }

/-- Moves off a DRAINING channel: each loop keeps its phase; those that fit nowhere are stopped, and so is one whose
third attempt has failed (R182, R186). A loop whose old or new slot a software transaction stages is left to a later
pass. -/
def drainMoves (s : State) : List (Nat × Loop) → List Loop → List Migration × List (Nat × Nat)
  | [], _ => ([], [])
  | (i, l) :: t, ls =>
    if l.st ≠ .placed ∨ slotStaged s l.channel l.slot then drainMoves s t ls
    else if 3 ≤ l.fails then
      let r := drainMoves s t ls
      (r.1, (i, 4) :: r.2)
    else
      match bestPlace s ls l (poolChans s) true with
      | some l' =>
        if slotStaged s l'.channel l'.slot then drainMoves s t ls
        else
          let r := drainMoves s t (l' :: ls)
          (moveOf i 1 l l' :: r.1, r.2)
      | none =>
        let r := drainMoves s t ls
        (r.1, (i, 3) :: r.2)

/-- Re-placement of loops from a channel in FAULT: places and stops. -/
def faultPlaces (s : State) : List (Nat × Loop) → List Loop → List (Nat × Loop) × List (Nat × Nat)
  | [], _ => ([], [])
  | (i, l) :: t, ls =>
    match bestPlace s ls l (poolChans s) false with
    | some l' =>
      let r := faultPlaces s t (l' :: ls)
      ((i, l') :: r.1, r.2)
    | none =>
      let r := faultPlaces s t ls
      (r.1, (i, 3) :: r.2)

/-- The words of a controller's filter hold what a compilation gives. -/
def filterSame (s : State) (n x : Nat) (f : Filter) : Bool :=
  (s.can n x).queues == f.queues &&
  ((freeElems s n x false).zipIdx).all (fun p =>
    s.reg (elemKey n x false p.1) == (match f.std[p.2]? with | some e => stdWord e | none => 0)) &&
  ((freeElems s n x true).zipIdx).all (fun p =>
    let w := match f.ext[p.2]? with | some e => extWords e | none => (0, 0)
    s.reg (elemKey n x true p.1) == w.1 && s.reg (elemKey n x true p.1 + 4) == w.2)

/-- Filters that a pass compiles anew. -/
def newFilters (s : State) : List (Nat × Nat × Filter) :=
  (List.range 8).flatMap (fun n =>
    if s.inService n then
      [0, 1].filterMap (fun x =>
        match compileFilter s n x with
        | some f => if filterSame s n x f then none else some (n, x, f)
        | none => none)
    else [])

/-- Points that can come into effect: their channel is IN_SERVICE, or their loop holds a place; HUB points at
once. -/
def newPoints (s : State) (placed : List Nat) : List Nat :=
  (s.points.filter (fun p => !p.2.inEffect &&
    (match p.2.origin with
    | 2 => placed.contains p.2.index
    | 3 => true
    | _ => s.inService p.2.channel))).map (·.1)

/-- Actions that can enter their tables. -/
def newActions (s : State) : List Nat :=
  (s.actions.filter (fun a => a.2.table == 9 &&
    (let t := actTableOf s a.2.decl; (t == 8 || s.inService t) && (s.tblFree t).isSome))).map (·.1)

/-- A re-steered item: basin, kind (0 points, 1 passes, 2 subscriptions), from, to, identifier. -/
abbrev Steer := Nat × Nat × Nat × Nat × Nat

/-- Points, passes and subscriptions take the rings R171 gives them now. -/
def steerAll (s : State) : State × List Steer :=
  let a := (s.points.map (·.1)).foldl (fun (a : State × List Steer) h =>
    match amGet a.1.points h with
    | none => a
    | some p =>
      let r := chooseRing a.1 p.owner p.ringDecl p.ring 0 p.pinned
      if !p.inEffect ∨ r = p.ring then a
      else ((a.1.modPt h (fun p => { p with ring := r })).mirror (.steered 0 h r), a.2 ++ [(p.owner, 0, p.ring, r, h)])) (s, [])
  let a := (s.ws.passes.map (·.1)).foldl (fun (a : State × List Steer) i =>
    match amGet a.1.ws.passes i with
    | none => a
    | some p =>
      let r := chooseRing a.1 p.grantee p.ringDecl p.ring 0 false
      if r = p.ring then a
      else ((a.1.modWs (fun w => { w with passes := amMod w.passes i (fun p => { p with ring := r }) })).mirror (.steered 1 i r),
            a.2 ++ [(p.grantee, 1, p.ring, r, i)])) a
  (s.ws.subs.map (·.1)).foldl (fun (a : State × List Steer) i =>
    match amGet a.1.ws.subs i with
    | none => a
    | some q =>
      let r := chooseRing a.1 q.basin q.ringDecl q.ring 3 false
      if r = q.ring then a
      else ((a.1.modWs (fun w => { w with subs := amMod w.subs i (fun p => { p with ring := r }) })).mirror (.steered 2 i r),
            a.2 ++ [(q.basin, 2, q.ring, r, i)])) a

/-- What a pass with a trigger decides. A rebalance moves at most 64 loops, and one transaction at most 128 (R180,
R184). Filters are compiled for the rings the pass steers to (R171, R172). -/
def decidePlan (s : State) (trig : Nat) : Plan :=
  let ls := placedLoops s
  let placing := placeAll s ((pendingLoops s).filter (fun p => !mustWait s p.2)) ls
  let ls := placing.1.map (·.2) ++ ls
  let fp := faultPlaces s (faulted s) ls
  let ls := fp.1.map (·.2) ++ ls
  let drain := (List.range 8).filter (fun n => s.ws.svc.getD n .absent == Svc.draining)
  let bound := (s.ws.loops.filter (fun p => p.2.holds && drain.contains p.2.channel &&
    (isBound s p.2 || p.2.pin) && !p.2.gone)).map (fun p => (p.1, 1))
  let dm := drainMoves s (drain.flatMap (toMove s)) ls
  let rm := if s.ws.rebalance then
      rebalanceMoves s 64 ((s.ws.loops.filter (fun p => p.2.holds)) ++ placing.1)
    else []
  let rmoves := rm.filterMap (fun p =>
    match amGet s.ws.loops p.1 with
    | some l => if l.st = .placed ∧ s.inService l.channel then some (moveOf p.1 (if trig = 2 then 2 else 0) l p.2) else none
    | none => none)
  let gone := (s.ws.loops.filter (fun p => p.2.gone && p.2.st == LoopState.placed &&
    ((s.ch p.2.channel).state ≠ .linkLost))).map (fun p => (p.1, 0))
  let places := placing.1 ++ fp.1
  let hold := places.map (·.1) ++ (s.ws.loops.filter (fun p => p.2.holds)).map (·.1)
  { trigger := trig, places := places.map (fun p => (p.1, p.2.channel, p.2.slot, p.2.phase, p.2.lane)),
    restarts := fp.1.map (·.1), moves := (dm.1 ++ rmoves).take 128,
    stops := placing.2.map (fun i => (i, 3)) ++ fp.2 ++ bound ++ dm.2 ++ gone,
    points := newPoints s hold, actions := newActions s, filters := newFilters (steerAll s).1,
    released := s.ws.reissue }

/-- Channels a plan's transaction names. -/
def planChannels (s : State) (p : Plan) : List Nat :=
  (List.range 8).filter (fun n =>
    p.places.any (fun x => x.2.1 == n) || p.moves.any (fun m => m.fromCh == n || m.toCh == n) ||
    p.filters.any (fun f => f.1 == n) ||
    p.stops.any (fun x => match amGet s.ws.loops x.1 with
      | some l => l.holds && l.channel == n && s.inService n | none => false) ||
    (s.ws.svc.getD n .absent == Svc.draining && s.inService n && !(s.tbl n).entries.isEmpty) ||
    p.points.any (fun h => match amGet s.points h with | some q => q.origin < 2 && q.channel == n | none => false) ||
    p.actions.any (fun a => match amGet s.actions a with | some x => actTableOf s x.decl == n | none => false))

/-- A plan changes nothing that a transaction must switch: it ends at once. -/
def Plan.idle (s : State) (p : Plan) : Bool :=
  (planChannels s p).isEmpty && p.stops.isEmpty && p.points.isEmpty && p.actions.isEmpty && (steerAll s).2.isEmpty

/-- The slot and filter words a plan's transaction writes, for the conflict rule (R85, R186). -/
def planStaged (s : State) (p : Plan) : List Staged :=
  (p.moves.flatMap (fun m => [(m.fromCh, m.fromSlot), (m.toCh, m.toSlot)]) ++
    p.places.map (fun x => (x.2.1, x.2.2.1))).flatMap (fun q =>
      (List.range 16).map (fun w => { key := slotKey q.1 q.2 w, be := 15, data := 0 })) ++
  p.filters.flatMap (fun f =>
    ((freeElems s f.1 f.2.1 false).map (elemKey f.1 f.2.1 false) ++
      (freeElems s f.1 f.2.1 true).flatMap (fun k =>
        [elemKey f.1 f.2.1 true k, elemKey f.1 f.2.1 true k + 4])).map (fun k => { key := k, be := 15, data := 0 }))

/- ### Applying -/

/-- LOOP points of a loop are owned by the channel it runs in. -/
def loopPointsAt (s : State) (id n : Nat) : State :=
  { s with points := s.points.map (fun (p : Nat × Point) =>
      if p.2.origin = 2 ∧ p.2.index = id then (p.1, { p.2 with channel := n }) else p) }

/-- Write the sixteen words of a slot. -/
def putSlotWords (s : State) (n t : Nat) (ws : List Word) : State :=
  ws.zipIdx.foldl (fun s p => s.setReg (slotKey n t p.2) p.1) s

/-- The sixteen words of a slot. -/
def slotWords (s : State) (n t : Nat) : List Word := (List.range 16).map (fun w => s.slotReg n t w)

/-- Reset values of a slot's words (R158). -/
def slotResetWords (n t : Nat) : List Word := (List.range 16).map (fun w => regReset (slotKey n t w))

/-- A slot of a channel starts to hold a loop; EN as its CTL says. -/
def occupySlot (s : State) (id n t : Nat) : State :=
  let r := { LoopRt.reset with loop := some id }
  let r := if bitN (s.slotReg n t 0) 0 then enableRt r else r
  s.modCh n (fun c => { c with slots := amSet c.slots t r })

/-- LOOP_MOVED (R190). -/
def loopMovedRec (s : State) (b id n t n' t' reason : Nat) (tm : Instant) : State :=
  raiseBoth s 0x0103 b (bytesLE 2 id ++ [BitVec.ofNat 8 n, BitVec.ofNat 8 n'] ++ bytesLE 2 t ++ bytesLE 2 t' ++
    [BitVec.ofNat 8 reason, 0] ++ bytesLE 4 (tm % giga) ++ bytesLE 2 (tm / giga))

/-- A loop is placed (R158), or placed anew after a fault with its slot's words: LOOP_RESTARTED (R183), and LOOP_MOVED with
reason CHANNEL_FAULT and the apply instant (DEDUCED, log 134). -/
def applyPlace (s : State) (restart : Bool) (tm : Instant) (id n t phase lane : Nat) : State :=
  match amGet s.ws.loops id with
  | none => s
  | some l =>
    let s := putSlotWords s n t (if restart then slotWords s l.channel l.slot else slotResetWords n t)
    let s := s.modWs (fun w => { w with loops := amMod w.loops id (fun l =>
      { l with st := .placed, channel := n, slot := t, phase := phase, lane := lane, fails := 0 }) })
    let s := loopPointsAt (occupySlot s id n t) id n
    let s := s.mirror (.placed id n t phase lane)
    if restart then
      loopMovedRec (raiseBoth s 0x0105 l.basin (bytesLE 2 id ++ [BitVec.ofNat 8 n, 0] ++ bytesLE 2 t)) l.basin id
        l.channel l.slot n t 3 tm
    else raiseBoth s 0x0102 l.basin
      (bytesLE 2 id ++ [BitVec.ofNat 8 n, 0] ++ bytesLE 2 t ++ bytesLE 4 phase ++ bytesLE 4 l.period)

/-- The state of a migrating loop as its new slot takes it (R185). -/
def carriedRt (src dst : LoopRt) : LoopRt :=
  { src with en := dst.en, owns := dst.owns, out := .nothing, pub := .nothing, waiting := false, loop := dst.loop }

/-- The slots of a move at Tm: s disabled, t enabled; the state is there or awaited. -/
def moveSlots (s : State) (tm : Instant) (m : Migration) : State :=
  let src := s.slotRt m.fromCh m.fromSlot
  let ctl := s.slotReg m.fromCh m.fromSlot 0
  let en := bitN ctl 0
  let s := putSlotWords s m.toCh m.toSlot (slotWords s m.fromCh m.fromSlot)
  let s := s.setReg (slotKey m.fromCh m.fromSlot 0) (ctl &&& ~~~1)
  let new : LoopRt := { LoopRt.reset with loop := some m.loop, en := en, owns := src.owns, waiting := true }
  let s := s.modCh m.toCh (fun c => { c with slots := amSet c.slots m.toSlot (if m.arrived then carriedRt src new else new) })
  let s := s.modSlot m.fromCh m.fromSlot (fun r => { r with en := false, owns := false })
  s.modWs (fun w => { w with
    loops := amMod w.loops m.loop (fun l => { l with channel := m.toCh, slot := m.toSlot, st := .migrating }),
    migrations := w.migrations ++ [{ m with tm := some tm }] })

/-- The partner learns where a loop now runs (R67). -/
def mirrorMove (s : State) (m : Migration) : State :=
  match amGet s.ws.loops m.loop with
  | some l => s.mirror (.placed m.loop m.toCh m.toSlot l.phase l.lane)
  | none => s

/-- A move at Tm (R184). -/
def applyMove (s : State) (tm : Instant) (m : Migration) : State :=
  loopPointsAt (mirrorMove (moveSlots s tm m) m) m.loop m.toCh

/-- A point comes into effect: its ring is chosen and the channel takes its owner and WRITE (R58, R165). -/
def applyPoint (s : State) (h : Nat) : State :=
  match amGet s.points h with
  | none => s
  | some p =>
    let ring := chooseRing s p.owner p.ringDecl 255 0 p.pinned
    let n := if p.origin = 2 then (match amGet s.ws.loops p.index with | some l => l.channel | none => 0) else p.channel
    let active := (activeRings s p.owner 0).contains ring
    let s := s.modPt h (fun p => { p with inEffect := true, ring := ring, told := if active then ring else 255, channel := n,
                                          chTag := p.owner, chWrite := p.write })
    let s := s.mirror (.steered 0 h ring)
    let s := raiseBoth s 0x0101 p.owner
      (bytesLE 2 h ++ [BitVec.ofNat 8 n, BitVec.ofNat 8 (if active then ring else 255), 0])
    if p.origin = 1 ∧ p.index < 16 ∧ !s.dinEn n p.index then
      acquire s h (if (s.dio n).level.getLsbD p.index then 1 else 0) 2 (s.chNow n)
    else s

/-- Every entry of a channel's table ends, its channel removed (R182, R183, R246). -/
def removeTable (s : State) (n reason : Nat) : State :=
  (s.tblKeys n).foldl (fun s i =>
    match amGet (s.tbl n).entries i with
    | none => s
    | some e =>
      let s := if e.origin = .declared ∧ e.st = .ended then s.modTbl n (fun b => { b with entries := amDel b.entries i })
        else cancelEntry s n i e 0x25
      if e.origin = .declared then
        let s := { s with actions := amMod s.actions e.actId (fun a => { a with table := 10 }) }
        raiseBoth s 0x010D e.basin (bytesLE 2 e.actId ++ [BitVec.ofNat 8 n, BitVec.ofNat 8 reason])
      else s) s

/-- The ring a point's updates reach; 255: none that is ACTIVE. -/
def effRing (s : State) (p : Point) : Nat := if (activeRings s p.owner 0).contains p.ring then p.ring else 255

/-- Records of a re-steering (R531): RING_STEERED for each pair of rings and kind, then POINT_PLACED for every point
whose ring is not the one its last record named, a pinned point among them. -/
def steerRecords (s : State) (l : List Steer) : State :=
  let pairs := l.foldl (fun (acc : List (Nat × Nat × Nat × Nat)) x =>
    let k := (x.1, x.2.1, x.2.2.1, x.2.2.2.1)
    if x.2.2.1 < 16 ∧ x.2.2.2.1 < 16 ∧ !acc.contains k then acc ++ [k] else acc) []
  let s := pairs.foldl (fun s k =>
    let n := (l.filter (fun x => (x.1, x.2.1, x.2.2.1, x.2.2.2.1) == k)).length
    raiseBoth s 0x0109 k.1 ([BitVec.ofNat 8 k.2.2.1, BitVec.ofNat 8 k.2.2.2] ++ bytesLE 2 n ++ [BitVec.ofNat 8 k.2.1])) s
  (s.points.map (·.1)).foldl (fun s h =>
    match amGet s.points h with
    | some p =>
      let r := effRing s p
      if !p.inEffect || r = p.told then s
      else raiseBoth (s.modPt h (fun p => { p with told := r })) 0x0101 p.owner
        (bytesLE 2 h ++ [BitVec.ofNat 8 p.channel, BitVec.ofNat 8 r, 1])
    | none => s) s

/-- Controllers whose filter cannot be compiled around elements that software has pinned (R187). -/
def pinnedFull (s : State) : List Nat :=
  (List.range 16).filter (fun k => s.inService (k / 2) && (compileFilter s (k / 2) (k % 2)).isNone &&
    s.pins.any (fun q => elemKey (k / 2) (k % 2) false 0 ≤ q && q < elemKey (k / 2) (k % 2) true 64))

/-- PIN_CONFLICT of pinned loops that a pass would have had to move, and of filters pinned elements leave too few places:
item 2, identifier 2 × channel + controller, rule CAPACITY (R187; log 135). -/
def pinConflicts (s : State) (p : Plan) : State :=
  let s := (pinnedFull s).foldl (fun s k => raise s 0 0x010A 0 ([2, 0] ++ bytesLE 2 k ++ [4])) s
  p.stops.foldl (fun s x =>
    match amGet s.ws.loops x.1 with
    | some l => if l.pin ∧ x.2 = 3 then
        raise s 0 0x010A 0 ([1, 0] ++ bytesLE 2 x.1 ++ [if quotaOk s (placedLoops s) l then 4 else 3])
      else s
    | none => s) s

/-- CAPACITY_CHANGED of a channel (R190). -/
def capacityChanged (s : State) (n : Nat) : State :=
  let ls := placedLoops s
  let svc := match s.ws.svc.getD n .absent with | .inPool => 0 | .draining => 1 | .out => 2 | .absent => 3
  raise s 0 0x010B 0 ([BitVec.ofNat 8 n, BitVec.ofNat 8 svc] ++
    bytesLE 2 (1024 - (ls.filter (fun l => l.channel == n)).length) ++ bytesLE 2 (peakOf ls n))

/-- What a plan left to do: filters that follow the rings now steered to, and loops a DRAINING channel still holds. -/
def planAgain (s : State) : State :=
  let s := if (newFilters s).isEmpty then s else trigger s 1
  if (List.range 8).any (fun n => s.ws.svc.getD n .absent == Svc.draining &&
      (toMove s n).any (fun x => x.2.st == LoopState.placed)) then trigger s 4
  else s

/-- A plan takes effect: at the apply instant of its transaction, or at once when nothing needs one. -/
def applyPlan (s0 : State) (tm : Instant) (p : Plan) : State :=
  let s := s0
  let s := pinConflicts s p
  let s := s.modWs (fun w => { w with plan := none })
  let s := p.stops.foldl (fun s x => stopLoop s x.1 x.2) s
  let s := (List.range 8).foldl (fun s n =>
    if s.ws.svc.getD n .absent = .draining ∧ s.inService n then removeTable s n 1 else s) s
  let s := p.places.foldl (fun s x => applyPlace s (p.restarts.contains x.1) tm x.1 x.2.1 x.2.2.1 x.2.2.2.1 x.2.2.2.2) s
  let s := p.moves.foldl (fun s m => applyMove s tm m) s
  let s := p.points.foldl applyPoint s
  let s := p.actions.foldl applyAction s
  let s := p.filters.foldl (fun s f => installFilter s f.1 f.2.1 f.2.2) s
  let s := { s with points := s.points.map (fun (q : Nat × Point) =>
      if q.2.origin = 0 ∧ q.2.segment < 2 then
        let j := canNode s q.2.channel q.2.segment q.2.canId q.2.ide
        (q.1, { q.2 with node := if j = 0xFE then 0 else j })
      else q) }
  let s := (List.range 8).foldl (fun s n => [0, 1].foldl (fun s x =>
    s.modSeg n x (fun c => { c with queues := segQueues s n x })) s) s
  let s := resubscribe s
  let st := steerAll s
  let s := steerRecords st.1 st.2
  let s := planAgain (dirFrom s0 s)
  let dur := (Config.freeWord s.free).toNat % 65536
  let s := s.tick1.modWs (fun w => { w with
    passCount := (w.passCount + 1) % 65536, reissue := w.reissue.filter (fun h => !p.released.contains h) })
  raise s 0 0x010E 0 (bytesLE 2 s.ws.passCount ++ bytesLE 2 p.moves.length ++
    bytesLE 2 (st.2.filter (fun x => x.2.1 == 0)).length ++ bytesLE 2 dur ++ [BitVec.ofNat 8 p.trigger])

/-- PLACEMENT_PASS (R148, R179): the pass decides and hands its changes to a Watershed transaction. -/
def placementPassOp (s : State) : State :=
  match s.ws.trigger with
  | none => s
  | some t =>
    if s.ws.plan.isSome ∨ declRefused s ∨ (s.txn 64).state ≠ .idle then s
    else
      let p := decidePlan s t
      let chans := planChannels s p
      let idle := p.idle s
      let s := s.modWs (fun w => { w with trigger := none, rebalance := false, plan := some p })
      if idle then applyPlan s s.time.now p
      else
        let s := s.modWs (fun w => { w with loops := w.loops.map (fun (x : Nat × Loop) =>
          if p.moves.any (fun m => m.loop == x.1) then (x.1, { x.2 with st := .migrating }) else x) })
        let s := resubscribe s
        let s := { s.modTxn 64 (fun _ => { Txn.reset with
            state := .preparing, id := s.nextTxn, scope := chans.foldl (fun m n => m + 2 ^ n) 0,
            staged := planStaged s p, waitPrep := chans ++ [8] }) with nextTxn := (s.nextTxn + 1) % 2 ^ 32 }
        if conflicts s 64 then abortTxn s 64 3
        else if chans.any (fun n => !s.inService n) then abortTxn s 64 10
        else (chans ++ [8]).foldl (fun s n => s.emit (.shadow 64 n)) s

/-- REBALANCE_TIMER (R179). -/
def rebalanceTimerOp (s : State) : State :=
  if bitN (s.reg 0x41000) 0 && !declRefused s && unbalanced s then
    (trigger s 3).modWs (fun w => { w with rebalance := true })
  else s

/- ### Live migration (R184 to R186) -/

/-- MIGRATION_STATE_ARRIVAL: the state of a loop reaches its new channel, before Tm or after it. -/
def stateArrivalOp (id : Nat) (s : State) : State :=
  match s.ws.migrations.find? (fun m => m.loop == id) with
  | some m =>
    if m.arrived then s
    else
      let src := s.slotRt m.fromCh m.fromSlot
      let s := s.modSlot m.toCh m.toSlot (fun r => carriedRt src r)
      s.modWs (fun w => { w with migrations := w.migrations.map (fun x => if x.loop = id then { x with arrived := true } else x) })
  | none =>
    if (s.txn 64).goSent then
      s.modWs (fun w => { w with plan := w.plan.map (fun p =>
        { p with moves := p.moves.map (fun x => if x.loop = id then { x with arrived := true } else x) }) })
    else s

/-- MIGRATION_STATE_TIMEOUT: the state has not come by Tm + 20 µs; the loop is primed (R186). -/
def stateTimeoutOp (id : Nat) (s : State) : State :=
  match s.ws.migrations.find? (fun m => m.loop == id), amGet s.ws.loops id with
  | some m, some l =>
    if m.arrived then s
    else
      let s := s.modSlot m.toCh m.toSlot (fun r =>
        { (if r.en then enableRt r else r) with waiting := false })
      let s := s.modWs (fun w => { w with migrations := w.migrations.map (fun x =>
        if x.loop = id then { x with arrived := true } else x) })
      raiseBoth s 0x0105 l.basin (bytesLE 2 id ++ [BitVec.ofNat 8 m.toCh, 1] ++ bytesLE 2 m.toSlot)
  | _, _ => s

/-- MIGRATION_RELEASE: one period after Tm slot s is released; LOOP_MOVED (R184). A loop withdrawn meanwhile leaves at the
next pass (R163). -/
def migrationReleaseOp (id : Nat) (s0 : State) : State :=
  let s := s0
  match s.ws.migrations.find? (fun m => m.loop == id), amGet s.ws.loops id with
  | some m, some l =>
    if !m.arrived then s
    else
      let tm := m.tm.getD 0
      let s := s.modCh m.fromCh (fun c => { c with slots := amDel c.slots m.fromSlot })
      let s := s.modWs (fun w => { w with
        loops := amMod w.loops id (fun l => { l with st := .placed, fails := 0 }),
        migrations := w.migrations.filter (fun x => !(x.loop == id)) })
      let s := dirFrom s0 (resubscribe s)
      let s := if l.gone then trigger s 0 else s
      loopMovedRec s l.basin id m.fromCh m.fromSlot m.toCh m.toSlot m.reason tm
  | _, _ => s

/- ### Service of channels (R181 to R183) -/

/-- Set SVC of a channel. -/
def setSvc (s : State) (n : Nat) (v : Svc) : State := s.modWs (fun w => { w with svc := w.svc.set n v })

/-- A service command is refused (R191). -/
def svcError (s : State) (n : Nat) : State := s.modWs (fun w => { w with svcErr := w.svcErr.set n true })

/-- TAKE_OUT (R182). -/
def takeOutOp (n : Nat) (s : State) : State :=
  let st := (s.ch n).state
  if declRefused s ∨ !s.fitted n ∨ s.ws.svc.getD n .absent ≠ .inPool ∨ (st ≠ .inService ∧ st ≠ .linkLost ∧ st ≠ .starting) then svcError s n
  else
    let s := (setSvc s n .draining).modWs (fun w => { w with svcErr := w.svcErr.set n false })
    trigger (capacityChanged s n) 4

/-- The CAN frames a channel taken out of service still queues complete CANCELLED; the one on the wire and the
output frames of its loops stay (R320). -/
def cancelCanQueues (n : Nat) (s : State) : State :=
  [0, 1].foldl (fun s x =>
    let c := s.can n x
    let (head, q) := if c.won then (c.txq.take 1, c.txq.drop 1) else ([], c.txq)
    let host (f : TxFrame) : Bool := f.ring < 1024 || f.table < 9
    endFrames (s.modCan n x (fun c => { c with txq := head ++ q.filter (fun f => !host f) })) n (q.filter host)
      2 0x25 0) s

/-- What a channel does as it enters OUT_OF_SERVICE: its actions end, its queued frames are cancelled, loops that are not
placed in it any more leave its slots, and its outputs take their safe states (R182, R320, R388). -/
def channelOut (n : Nat) (s : State) : State :=
  let s := cancelCanQueues n (removeTable s n 1)
  let s := s.modCh n (fun c => { c with slots := c.slots.filter (fun r =>
    match r.2.loop with
    | some id => (match amGet s.ws.loops id with
      | some l => l.holds && l.channel == n && l.slot == r.1
      | none => false)
    | none => true) })
  applyAllSafe s n

/-- CHANNEL_DRAINED: nothing is left on the channel; it enters OUT_OF_SERVICE, its outputs safe, its points
OUT_OF_SERVICE (R182, R388). A channel whose link is lost does so when the link returns (R31, R32), one that is starting
once it has started. -/
def channelDrainedOp (n : Nat) (s : State) : State :=
  if s.ws.svc.getD n .absent ≠ .draining ∨ s.ws.plan.isSome ∨ (s.ch n).state = .starting ∨
      s.ws.loops.any (fun p => p.2.holds && p.2.channel == n) ∨
      s.ws.migrations.any (fun m => !m.arrived && (m.fromCh == n || m.toCh == n)) then s
  else
    let lost : Bool := (s.ch n).state = .linkLost
    let s := if lost then s else channelOut n s
    let s := (s.owned n).foldl (fun s h => acquire s h (s.ownValue h) 8 (s.chNow n)) (setSvc s n .out)
    let s := if lost then s.modCh n (fun c => { c with prior := .outOfService }) else setChState s n .outOfService
    capacityChanged (txnChannelLeft s n) n

/-- BRING_IN (R181). -/
def bringInOp (n : Nat) (s : State) : State :=
  if declRefused s ∨ s.ws.svc.getD n .absent ≠ .out ∨ (s.ch n).state ≠ .outOfService then svcError s n
  else
    let s := (setSvc s n .inPool).modWs (fun w => { w with svcErr := w.svcErr.set n false })
    let s := setChState s n .inService
    trigger (capacityChanged s n) 7

/-- The cancel requests that wait for a frame of a channel end with it, UNREACHABLE (R131, R183). -/
def frameCancelsLost (s : State) (n : Nat) : State :=
  ((s.ch n).can.flatMap (·.txq) ++ (s.ch n).seg.flatMap (·.txq)).foldl (fun s f =>
    f.cancel.foldl (fun s c => finish s c.1 c.2 0x10 false false 0) s) s

/-- CHANNEL_FAULT (R183, R246): what the hub had passed to the channel completes UNREACHABLE, its table ends, its
bound and pinned loops stop, and its movable loops wait for a pass. -/
def channelFaultOp (n : Nat) (converter : Bool) (s : State) : State :=
  let st := (s.ch n).state
  if !s.fitted n ∨ st = .absent ∨ st = .fault then s
  else
    let s := s.modCh n (fun c => { c with isoOk := c.isoOk && !converter, xbarUp := false })
    let s := txnChannelLeft (setChState s n .fault) n
    let s := s.alert 2
    let s := frameCancelsLost s n
    let s := s.modCh n (fun c => { c with
      egress := [], ingress := [], cmds := [], reports := [], staged := [], heldRecs := [],
      can := c.can.map (fun x => { x with txq := [], won := false }),
      seg := c.seg.map (fun x => { x with txq := [], busy := false, backoff := 0, collisions := 0, writes := [] }) })
    let s := channelFlightsLost s n
    let s := removeTable s n 2
    let s := s.modWs (fun w => { w with migrations := w.migrations.filter (fun m => !(m.toCh == n)) })
    let s := (s.ws.loops.filter (fun p => p.2.holds && p.2.channel == n && (isBound s p.2 || p.2.pin))).foldl
      (fun s p => stopLoop s p.1 2) s
    let s := s.modWs (fun w => { w with loops := w.loops.map (fun (p : Nat × Loop) =>
      if p.2.channel = n ∧ p.2.st = .migrating then (p.1, { p.2 with st := .placed }) else p) })
    channelYield (trigger (capacityChanged (setSvc s n .out) n) 5) n

/- ### The commands -/

/-- PLACEMENT_PASS (R179). -/
def execPlacementPass (s : State) : Host.Outcome State Fault Refusal :=
  .next (placementPassOp s)

/-- REBALANCE_TIMER (R179). -/
def execRebalanceTimer (s : State) : Host.Outcome State Fault Refusal :=
  .next (rebalanceTimerOp s)

/-- TAKE_OUT (R182). -/
def execTakeOut (ch : Nat) (s : State) : Host.Outcome State Fault Refusal :=
  .next (ifServed (takeOutOp ch) s)

/-- CHANNEL_DRAINED (R182). -/
def execChannelDrained (ch : Nat) (s : State) : Host.Outcome State Fault Refusal :=
  .next (channelDrainedOp ch s)

/-- BRING_IN (R181). -/
def execBringIn (ch : Nat) (s : State) : Host.Outcome State Fault Refusal :=
  .next (ifServed (bringInOp ch) s)

/-- CHANNEL_FAULT (R183). -/
def execChannelFault (ch : Nat) (converter : Bool) (s : State) : Host.Outcome State Fault Refusal :=
  .next (channelFaultOp ch converter s)

/-- MIGRATION_STATE_ARRIVAL (R185). -/
def execMigrationStateArrival (loop : Nat) (s : State) : Host.Outcome State Fault Refusal :=
  .next (stateArrivalOp loop s)

/-- MIGRATION_STATE_TIMEOUT (R186). -/
def execMigrationStateTimeout (loop : Nat) (s : State) : Host.Outcome State Fault Refusal :=
  .next (stateTimeoutOp loop s)

/-- MIGRATION_RELEASE (R184). -/
def execMigrationRelease (loop : Nat) (s : State) : Host.Outcome State Fault Refusal :=
  .next (migrationReleaseOp loop s)

end Sys2Proof.Machine
end

