-- ==== Sys2Proof/Machine/Time.lean ====
section
/-! DEFINITION. The hub timebase and its servo, steps, the beacon and the channel timebases, PTP and gPTP
(chapter 07, R192 to R222). -/

namespace Sys2Proof.Machine

/- ### Counters (R192, R193) -/

/-- A timebase after `n` ticks of an increment in units of 2^-32 ns; SEC has 48 bits. -/
def advance (now frac n : Nat) (incr : Int) : Instant × Nat :=
  let t := now * 2 ^ 32 + frac + n * incr.toNat
  (t / 2 ^ 32 % (2 ^ 48 * giga), t % 2 ^ 32)

/-- Ticks of the hub until its counter first reaches an instant. -/
def ticksTo (t : HubTime) (at' : Instant) : Nat :=
  let d := at' * 2 ^ 32 - (t.now * 2 ^ 32 + t.frac)
  (d + t.incr.toNat - 1) / t.incr.toNat

/-- The channel exists (R3, R32). -/
def State.present (s : State) (n : Nat) : Bool := s.fitted n && (s.ch n).state ≠ .absent

/-- A table's entries after its timebase stepped from `old` (R237, R238). -/
def tableStepped (s : State) (t old : Nat) : State := if s.tblNow t < old then actSteppedBack s t else s

/-- A channel loads a new time (R204, R208). -/
def stepChannel (s : State) (n : Nat) (y : Instant) : State :=
  let old := s.chNow n
  tableStepped (s.modCh n (fun c => { c with tb := { c.tb with now := y, frac := 0, stepTo := none } })) n old

/-- Channel `n` counts `k` ticks. -/
def chanTicks (s : State) (n k : Nat) : State :=
  let tb := (s.ch n).tb
  let r := advance tb.now tb.frac k tb.incr
  s.modCh n (fun x => { x with tb := { x.tb with now := r.1, frac := r.2 } })

/-- Ticks of a channel until it loads an armed step: its own time reaches the boundary after the one of the last unarmed
beacon plus 1,000 ns (R204). -/
def ChanTime.stepTicks (t : ChanTime) : Nat :=
  let d := (t.lastPlain / 1000 * 1000 + 2000) * 2 ^ 32 - (t.now * 2 ^ 32 + t.frac)
  (d + t.incr.toNat - 1) / t.incr.toNat

/-- Channel `n` counts `k` ticks and loads an armed step on the way (R193, R204). -/
def chanRun (s : State) (n k : Nat) : State :=
  let tb := (s.ch n).tb
  match tb.stepTo with
  | some y => if tb.stepTicks ≤ k then chanTicks (stepChannel (chanTicks s n tb.stepTicks) n y) n (k - tb.stepTicks) else chanTicks s n k
  | none => chanTicks s n k

/-- The hub counts `n` ticks, and every channel what its own reference counts meanwhile (R16, log 4). -/
def runTicks (n : Nat) (s : State) : State :=
  let r := advance s.time.now s.time.frac n s.time.incr
  let s := { s.modTime (fun t => { t with now := r.1, frac := r.2 }) with ticks := s.ticks + n }
  ((List.range 8).foldl (fun s c => if s.present c then chanRun s c (Config.channelTicks s.free c n) else s) s).tick1

/-- The block idles for one tick of the time island (log 4). -/
def idleTick (s : State) : State := runTicks 1 s

/- ### Classes (R195 to R198, R201) -/

/-- SRC_MODE; reserved codes count as AUTO (R222). -/
def srcMode (s : State) : Nat :=
  let m := fld (s.reg 0x50020) 0 3
  if 4 < m then 0 else m

/-- A value of 4 bytes, signed and saturating (R221, R222). -/
def satS32 (e : Int) : Int := max (-2147483647) (min 2147483647 e)

/-- The last offset as 4 bytes. -/
def offsetBytes (e : Int) : List Byte := bytesLE 4 ((satS32 e) % 2 ^ 32).toNat

/-- LOCKED is cleared (R201). -/
def clearLocked (s : State) : State :=
  if s.time.locked then
    timeRec (s.modTime (fun t => { t with locked := false })) 3
      ([BitVec.ofNat 8 s.time.cls, 0, 0, 0] ++ offsetBytes s.time.offset)
  else s

/-- Byte 2 of SOURCE_CHANGED: the port of the new source. -/
def sourcePort (s : State) (cls : Nat) : Nat :=
  if cls = 5 then (if s.time.ptp.stateA = 3 then 1 else 2) else if cls = 4 then 3 else 0

/-- Hub time becomes valid (R64, R195, R239). -/
def timeGained (s : State) : State := actTimeValid (passesValid s) 8

/-- Hub time ceases to be valid (R64, R86, R198): TIME_INVALID with its cause. -/
def timeGone (s : State) (was cause : Nat) : State :=
  let s := disarm (passesInvalid (txnNoTime s)) 12
  (timeRec s 4 [BitVec.ofNat 8 was, BitVec.ofNat 8 cause]).alert 5

/-- L of the class in force (R200): 0 for RTC and HOST, −3 for PAIR; a PTP sample brings its own. -/
def classL (cls : Nat) (l : Int) : Int := if cls = 1 ∨ cls = 2 then 0 else if cls = 4 then -3 else l

/-- CLASS changes (R195, R196, R199, R201); `cause` is that of TIME_INVALID. The grandmaster is that of PTP; for
another class the record's field is a free value (log 41). -/
def setClass (s : State) (new cause : Nat) : State :=
  let old := s.time.cls
  if old = new then s
  else
    let s := s.modTime (fun t =>
      { t with cls := new, servo := .arm, overCnt := 0, lockCnt := 0, unlockCnt := 0, syncL := classL new t.syncL })
    let gm := if new = 5 then bytesLE 8 s.time.ptp.gmId.toNat
      else (List.range 8).map (fun i => Config.freeByte (8 * s.free + i))
    let s := timeRec s.tick1 1 ([BitVec.ofNat 8 old, BitVec.ofNat 8 new, BitVec.ofNat 8 (sourcePort s new), 0] ++ gm)
    let s := clearLocked s
    if old = 0 then timeGained s else if new = 0 then timeGone s old cause else s

/- ### The servo (R199 to R203) -/

/-- FMAX in fraction units (R199, R222). -/
def fmaxUnits (s : State) : Int :=
  (max 1 (min 1000 (fld (s.reg 0x50050) 0 10)) * 1717987 / 100 : Nat)

/-- KP or KI, in force: derived from L at the basic level (R200). -/
def gain (s : State) (key base : Nat) : Nat :=
  if s.expertAt 0x50000 then (s.reg key).toNat else base / 2 ^ (s.time.syncL + 3).toNat

/-- Clamp to ±FMAX. -/
def clampF (s : State) (x : Int) : Int := max (-(fmaxUnits s)) (min (fmaxUnits s) x)

/-- (e × GAIN) >> 16, the product in 64 bits (R199). -/
def gainTerm (e : Int) (g : Nat) : Int := sgn 64 ((e * g) % 2 ^ 64).toNat / 65536

/-- The rate between two samples; for samples of one instant the manual states none: a free value (log 41). -/
def residualRate (s : State) (e : Int) : Int :=
  if s.time.now = s.time.tPrev then sgn 32 (Config.freeWord s.free).toNat
  else roundDiv ((e - s.time.ePrev) * 0x400000000) ((s.time.now : Int) - s.time.tPrev)

/-- The servo on a sample that causes no step (R199). -/
def servoSample (s : State) (e : Int) : State :=
  let t := s.time
  match t.servo with
  | .arm => s.modTime (fun t => { t with ePrev := e, tPrev := t.now, adj := t.integ, servo := .freqEst })
  | .freqEst =>
    let integ := clampF s (t.integ - residualRate s e)
    let adj := clampF s (integ - gainTerm e (gain s 0x50048 0x220000))
    (s.modTime (fun t => { t with integ := integ, adj := adj, servo := .track })).tick1
  | .track =>
    let integ := clampF s (t.integ - gainTerm e (gain s 0x5004C 0x20000))
    let adj := clampF s (integ - gainTerm e (gain s 0x50048 0x220000))
    s.modTime (fun t => { t with integ := integ, adj := adj })

/-- LOCKED after a sample (R201). -/
def lockSample (s : State) (e : Int) : State :=
  let a := e.natAbs
  let s := s.modTime (fun t =>
    { t with offset := satS32 e, lockCnt := if a < 100 then t.lockCnt + 1 else 0,
             unlockCnt := if 1000 ≤ a then t.unlockCnt + 1 else 0 })
  if !s.time.locked && 16 ≤ s.time.lockCnt then
    timeRec (s.modTime (fun t => { t with locked := true })) 2
      ([BitVec.ofNat 8 s.time.cls, 0, 0, 0] ++ offsetBytes e)
  else if 3 ≤ s.time.unlockCnt then clearLocked s
  else s

/-- STEP_THR in nanoseconds (R203, R222). -/
def stepThr (s : State) : Nat := max 10 (fld (s.reg 0x50020) 16 16) * 1000

/-- A step is armed (R204). -/
def armStep (s : State) (value : Int) (cause : Nat) : State :=
  s.modTime (fun t => { t with step := some { value := value, cause := cause, y := none } })

/-- The servo takes an offset sample of the source in force (R199, R201, R203); one that comes while a step is
armed is discarded (R204). -/
def takeSample (s : State) (e : Int) : State :=
  if s.time.step.isSome then s
  else
    let s := lockSample s e
    let big : Bool := stepThr s ≤ e.natAbs
    let runs := if big && s.time.servo = .track then s.time.overCnt + 1 else 0
    let s := s.modTime (fun t => { t with overCnt := runs })
    if bitN (s.reg 0x50020) 3 && big && (s.time.servo = .arm || 3 ≤ runs) then
      armStep (s.modTime (fun t => { t with overCnt := 0 })) (-e) 0
    else servoSample s e

/-- The class a source's sample gives, when SRC_MODE lets the module follow it (R196). -/
def sampleClass (s : State) (src : TimeSource) : Option Nat :=
  let m := srcMode s
  match src with
  | .ptp => if (m = 0 ∨ m = 1) ∧ (s.time.ptp.stateA = 3 ∨ s.time.ptp.stateB = 3) then some 5 else none
  | .pair => if (m = 2 ∨ (m = 0 ∧ s.time.cls ≠ 5)) ∧ s.standby then some 4 else none
  | .rtc => if s.rtcAvailable ∧ (m = 3 ∨ (m = 0 ∧ s.time.cls ≤ 1)) then some 1 else none

/-- L of a source's samples (R200). -/
def sampleL (src : TimeSource) (l : Int) : Int :=
  match src with
  | .ptp => max (-3) (min 1 l)
  | .pair => -3
  | .rtc => 0

/-- OFFSET_SAMPLE. -/
def offsetSampleOp (src : TimeSource) (e l : Int) (s : State) : State :=
  match sampleClass s src with
  | none => s
  | some cls => takeSample ((setClass s cls 0).modTime (fun t => { t with syncL := sampleL src l })) e

/-- OFFIN_WRITE: used only while SRC_MODE is HOST (R222). -/
def offinOp (data : Word) (s : State) : State :=
  if srcMode s = 4 ∧ !s.standby then takeSample ((setClass s 2 0).modTime (fun t => { t with syncL := 0 })) data.toInt else s

/- ### Commands and the loss of a source (R196, R198, R202) -/

/-- SET. -/
def setTimeOp (s : State) : State :=
  let ok : Bool := (srcMode s = 4 || s.time.cls = 0 || s.time.cls = 1 || s.time.cls = 3) &&
    (s.reg 0x5002C).toNat < giga
  if ok then
    let s := s.modTime (fun t => { t with cmdErr := false })
    setClass (armStep s (s.regInstant 0x5002C) 1) 2 0
  else s.modTime (fun t => { t with cmdErr := true })

/-- INVALIDATE. -/
def invalidateOp (s : State) : State := setClass (s.modTime (fun t => { t with cmdErr := false })) 0 0

/-- SOURCE_LOST: PTP or PAIR under any mode, RTC and HOST where SRC_MODE is fixed to them, falls to HOLDOVER; the
calendar as source 4 of AUTO falls to INVALID (R196, R202). -/
def sourceLostOp (s : State) : State :=
  let c := s.time.cls
  if c = 4 ∨ c = 5 ∨ (c = 1 ∧ srcMode s = 3) ∨ (c = 2 ∧ srcMode s = 4) then
    let s := s.modTime (fun t => { t with adj := t.integ })
    let s := timeRec s 7 ([BitVec.ofNat 8 c, 0, 0, 0] ++ bytesLE 4 (fld (s.reg 0x50024) 0 17))
    setClass s 3 0
  else if c = 1 ∧ srcMode s = 0 ∧ !s.rtcAvailable then
    setClass s.tick1 0 (Config.freeByte s.free).toNat
  else s

/-- HOLDOVER_END: to RTC where source 4 is open to the mode and available, else to INVALID. -/
def holdoverEndOp (s : State) : State :=
  if s.time.cls = 3 then
    if (srcMode s = 0 ∨ srcMode s = 3) ∧ s.rtcAvailable then setClass s 1 1 else setClass s 0 1
  else s

/- ### Steps (R204, R205) -/

/-- A time as the counter holds it: SEC has 48 bits. -/
def wrapTime (t : Int) : Instant := (t % (2 ^ 48 * 1000000000)).toNat

/-- TIME_STEP: at boundary k + 1 the hub loads Y; every channel that saw STEP_ARM does so by its own time (chanRun). -/
def timeStepOp (s : State) : State :=
  match s.time.step with
  | none => s
  | some a =>
    match a.y with
    | none => s
    | some y =>
      let s := runTicks (ticksTo s.time ((s.time.now / 1000 + 1) * 1000)) s
      let old := s.time.now
      let s := s.modTime (fun t =>
        { t with now := y, frac := 0, servo := .arm, overCnt := 0, step := none, stepped := true,
                 stepCnt := (t.stepCnt + 1) % 65536 })
      let s := timeRec s 0 (bytesLE 8 (((y : Int) - old) % 2 ^ 64).toNat ++
        [BitVec.ofNat 8 a.cause, BitVec.ofNat 8 s.time.cls] ++ bytesLE 4 (y / giga % 2 ^ 32))
      let s := tableStepped s 8 old
      let s := if old < y then txnStepped s else s
      let s := if old < y ∧ s.upd.armedAt ≤ y then disarm s 14 else s
      (s.ws.passes.map (·.1)).foldl (fun s id => passExpiryOp id s) s

/- ### The beacon (R206 to R210) -/

/-- BEACON: at the hub's first tick at or after the next multiple of 1,000 ns; the one after a step leaves at the
boundary of the step itself. While a step waits at this boundary, TIME_STEP comes first. -/
def beaconOp (s : State) : State :=
  if (match s.time.step with | some a => a.y.isSome | none => false) then s
  else
    let s := if s.time.stepped then s else runTicks (ticksTo s.time ((s.time.now / 1000 + 1) * 1000)) s
    let t := s.time
    let k := t.now / 1000 * 1000
    let y : Option Instant := match t.step with
      | some a => some (wrapTime (if a.cause = 1 then a.value else (k : Int) + 1000 + a.value))
      | none => none
    let b : Beacon :=
      { time := match y with | some y => y | none => t.now
        seq := (t.seq + 1) % 65536, valid := t.cls ≠ 0, stepArm := y.isSome, stepped := t.stepped, cls := t.cls }
    let s := s.modTime (fun t =>
      { t with seq := b.seq, stepped := false,
               step := match t.step with | some a => some { a with y := y } | none => none })
    (List.range 8).foldl (fun s n =>
      if s.present n then
        (s.modCh n (fun c => { c with tb :=
          { c.tb with beacon := if s.linkDown n then none else some b, silent := c.tb.silent + 1 } })).emit (.beacon n b)
      else s) s

/-- LOCKED of a channel after a beacon (R208). -/
def chanLock (s : State) (n : Nat) (e : Int) : State :=
  let good : Bool := e.natAbs ≤ 8
  let s := s.modCh n (fun c => { c with tb :=
    { c.tb with offset := e, lockCnt := if good then c.tb.lockCnt + 1 else 0,
                unlockCnt := if good then 0 else c.tb.unlockCnt + 1 } })
  let tb := (s.ch n).tb
  if !tb.locked && 64 ≤ tb.lockCnt then s.modCh n (fun c => { c with tb := { c.tb with locked := true } })
  else if tb.locked && 4 ≤ tb.unlockCnt then
    timeRec (s.modCh n (fun c => { c with tb := { c.tb with locked := false } })) 5
      ([BitVec.ofNat 8 n, 0, 0, 0] ++ offsetBytes e)
  else s

/-- ±1,000 ppm in fraction units of a 5 ns tick. -/
def clampChan (x : Int) : Int := max (-21474840) (min 21474840 x)

/-- The channel servo, a PI servo with fixed gains (its form as that of the hub servo: log 138), or a step beyond 1,000 ns
(R208). -/
def chanServo (s : State) (n : Nat) (b : Beacon) (e : Int) : State :=
  let integ := clampChan ((s.ch n).tb.integ - gainTerm e Config.channelKi)
  let s := s.modCh n (fun c => { c with tb := { c.tb with integ := integ, adj := clampChan (integ - gainTerm e Config.channelKp) } })
  if 1000 < e.natAbs then stepChannel s n (b.time + (s.ch n).tb.delay) else s

/-- After its link returned a channel has relocked once it is locked to the beacons again (log 136): it resends every point it
owns (R32) and delivers the records it held (R242). -/
def relockCheck (s : State) (n : Nat) : State :=
  if (s.ch n).relock && 64 ≤ (s.ch n).tb.lockCnt then
    let s := s.modCh n (fun c => { c with relock := false })
    releaseRecs (if s.standby then s else resendAll s n) n
  else s

/-- BEACON_ARRIVAL. -/
def beaconArrivalOp (n : Nat) (s : State) : State :=
  match (s.ch n).tb.beacon with
  | none => s
  | some b =>
    if !s.present n then s
    else
      let tb := (s.ch n).tb
      let gap := match tb.lastSeq with
        | some q => (b.seq + 65535 - q) % 65536
        | none => 0
      let s := s.modCh n (fun c => { c with tb :=
        { c.tb with beacon := none, silent := 0, holdover := false, valid := b.valid, cls := b.cls,
                    lastSeq := some b.seq, missed := min 255 (c.tb.missed + gap) } })
      let s :=
        (if b.stepArm then s.modCh n (fun c => { c with tb := { c.tb with stepTo := some b.time } })
         else
          let e : Int := (tb.now : Int) - (b.time + tb.delay)
          let s := s.modCh n (fun c => { c with tb := { c.tb with lastPlain := b.time } })
          chanLock (chanServo s n b e) n e)
      relockCheck (if !tb.valid && b.valid then actTimeValid s n else s) n

/- ### PTP (R211 to R213) -/

/-- PTPCFG lets PTP run: ORDINARY with one port, BOUNDARY with both (R212, R222). -/
def ptpRuns (s : State) : Bool :=
  let c := s.reg 0x50080
  s.ptpEn && (if bitN c 2 then bitN c 3 && bitN c 4 else bitN c 3 != bitN c 4)

/-- The port takes part. -/
def ptpPort (s : State) (p : Nat) : Bool := ptpRuns s && bitN (s.reg 0x50080) (3 + p)

/-- PORT_STATE of a port. -/
def Ptp.state (t : Ptp) (p : Nat) : Nat := if p = 0 then t.stateA else t.stateB

/-- Set PORT_STATE; the module is grandmaster when a port is MASTER, none is SLAVE and it may be (R212). -/
def setPortState (s : State) (p v : Nat) : State :=
  s.modTime (fun t =>
    let q := if p = 0 then { t.ptp with stateA := v } else { t.ptp with stateB := v }
    { t with ptp := { q with gm := bitN (s.reg 0x50080) 15 && (q.stateA = 2 || q.stateB = 2) && q.stateA ≠ 3 && q.stateB ≠ 3 } })

/-- CLASS PTP without a slave port, or PAIR without the standby role, has lost its source (R196, R202). -/
def sourceCheck (s : State) : State :=
  if (s.time.cls = 5 && s.time.ptp.stateA ≠ 3 && s.time.ptp.stateB ≠ 3) || (s.time.cls = 4 && !s.standby) then sourceLostOp s
  else s

/-- The ports as PTPCFG has them: one that takes part listens, another is DISABLED (R222). -/
def ptpPorts (s : State) : State :=
  [0, 1].foldl (fun s p =>
    setPortState s p (if !ptpPort s p then 0 else if s.time.ptp.state p = 0 then 1 else s.time.ptp.state p)) s

/-- PTPCFG has been written. -/
def ptpCfgWritten (s : State) : State := sourceCheck (ptpPorts s)

/-- An Announce: the state the algorithm gives the port, the grandmaster, and UTC while CLASS is PTP (R212,
R222). In ROLE BOUNDARY at most one port is a slave; on a STANDBY module none is (R400). -/
def announceOp (p st : Nat) (gm : Slot) (utc : Int) (l61 l59 uv : Bool) (s : State) : State :=
  let other := s.time.ptp.state (1 - p)
  let st := if 6 < st ∨ (st = 3 ∧ (other = 3 ∨ s.standby)) then s.time.ptp.state p else st
  let s := sourceCheck (setPortState s p st)
  if st = 3 then
    let s := s.modTime (fun t => { t with ptp := { t.ptp with gmId := gm } })
    if s.time.cls = 5 then
      s.setReg 0x50010 (mkFld 0 16 (utc % 65536).toNat ||| mkBit 16 l61 ||| mkBit 17 l59 ||| mkBit 18 uv)
    else s
  else s

/-- PTP_MESSAGE (R213): the frame passes the port's receiver; with PTP_EN the firmware consumes it, else it goes
on like any other. -/
def ptpMessageOp (p : Nat) (msg : PtpMsg) (frame : EthFrame) (stamp : Instant) (s : State) : State :=
  if !(s.net p).up then s
  else
    let on := ptpPort s p
    let s := netJudge s p frame stamp
    match msg with
    | .announce st gm utc l61 l59 uv => if on && frame.fcsOk then announceOp p st gm utc l61 l59 uv s else s
    | .event => s
    | .general => s

/-- clockClass announced on the backbone (R212). For PTP and PAIR the manual gives none: a free value (log 137). -/
def clockClass (s : State) : Nat :=
  if !bitN (s.reg 0x50080) 15 then 255
  else match s.time.cls with
    | 3 => 52
    | 1 => 187
    | 2 => 187
    | 0 => 248
    | _ => (Config.freeByte s.free).toNat

/-- logSyncInterval and logAnnounceInterval of the ports (R211, R222); values beyond their bounds are clamped (log 137). -/
def logSync (s : State) : Int := max (-3) (min 1 (sgn 8 (fld (s.reg 0x50084) 16 8)))
def logAnnounce (s : State) : Int := max 0 (min 3 (sgn 8 (fld (s.reg 0x50084) 24 8)))

/-- A message of a backbone port (R211, R212): PTPCFG gives domain, transport and one-step, PTPCLK priorities and intervals. -/
def ptpSend (s : State) (p kind : Nat) : PtpSend :=
  let c := s.reg 0x50080
  let k := s.reg 0x50084
  { kind := kind, domain := fld c 8 7, udp := bitN c 7 && !bitN c 1, oneStep := kind = 1 && bitN c (5 + p),
    clockClass := if kind = 0 then some (clockClass s) else none,
    priorities := if kind = 0 then some (fld k 0 8, fld k 8 8) else none,
    logInterval := if kind = 0 then logAnnounce s else logSync s, time := s.time.now }

/-- PTP_TRANSMIT (R212): Announce 0, Sync 1 and, two-step, Follow_Up 2 of a master port; Delay_Req 3 end to end, or
Pdelay_Req 4 peer to peer, of a slave port (R211). -/
def ptpTransmitOp (p kind : Nat) (s : State) : State :=
  let c := s.reg 0x50080
  let st := s.time.ptp.state p
  let ok : Bool := match kind with
    | 0 => st = 2
    | 1 => st = 2
    | 2 => st = 2 && !bitN c (5 + p)
    | 3 => st = 3 && !bitN c 1
    | 4 => st = 3 && bitN c 1
    | _ => false
  if ptpPort s p && (s.net p).up && ok then netAct (s.tick1.emit (.ptp p (ptpSend s p kind))) p else s

/- ### gPTP on the segments (R215) -/

/-- The segment's gPTP port sends. -/
def gptpSends (s : State) (n x : Nat) : Bool :=
  s.present n && gptpEn s n x && (s.seg n x).mode = 1 && s.works n

/-- clockClass a channel announces on its segments (R215): 6 for PTP and PAIR, else that of R212 for CLASS. -/
def segClass (cls : Nat) : Nat := if cls = 3 then 52 else if cls = 1 ∨ cls = 2 then 187 else if cls = 0 then 248 else 6

/-- A message of a segment's gPTP port (R215): domain 0, two-step; LOG_SYNC beyond −3 to 0 counts as −3 (R222). The rules give
an Announce there no priorities. -/
def segSend (s : State) (n kind : Nat) : PtpSend :=
  let l := sgn 8 (fld (s.reg (chBase n + 0x10020)) 8 8)
  { kind := kind, domain := 0, udp := false, oneStep := false,
    clockClass := if kind = 0 then some (segClass s.time.cls) else none, priorities := none,
    logInterval := if l < -3 ∨ 0 < l then -3 else l, time := s.chNow n }

/-- Emit messages of the segment's gPTP port. -/
def emitSeg (s : State) (n x : Nat) (kinds : List Nat) : State :=
  kinds.foldl (fun s k => s.emit (.ptp (16 + 2 * n + x) (segSend s n k))) s

/-- GPTP_SYNC: Sync 1 and Follow_Up 2; the Announce 0 goes with them (log 137). -/
def gptpSyncOp (n x : Nat) (s : State) : State := if gptpSends s n x then emitSeg s n x [0, 1, 2] else s

/-- PDELAY_REQ of node `j`: Pdelay_Resp 5 and Pdelay_Resp_Follow_Up 6. -/
def pdelayReqOp (n x j : Nat) (s : State) : State :=
  if gptpSends s n x then
    emitSeg (s.modSeg n x (fun c => { c with gptp := amSet c.gptp j s.ticks })) n x [5, 6]
  else s

/-- NODES0, NODES1: nodes answered within the last 8 s (R222). -/
def gptpNodes (s : State) (n x : Nat) : Nat :=
  ((s.seg n x).gptp.filter (fun (p : Nat × Nat) => s.ticks ≤ p.2 + 2000000000)).length

/- ### The commands -/

/-- OFFSET_SAMPLE (R199, R200). -/
def execOffsetSample (src : TimeSource) (e : Int) (l : Int) (s : State) : Host.Outcome State Fault Refusal :=
  .next (offsetSampleOp src e l s)

/-- OFFIN_WRITE (R199). -/
def execOffinWrite (data : Word) (s : State) : Host.Outcome State Fault Refusal :=
  .next (ifReaches 0x50038 (offinOp data) s)

/-- SET (R198). -/
def execSetTime (s : State) : Host.Outcome State Fault Refusal :=
  .next (ifReaches 0x50028 setTimeOp s)

/-- INVALIDATE (R198). -/
def execInvalidate (s : State) : Host.Outcome State Fault Refusal :=
  .next (ifReaches 0x50028 invalidateOp s)

/-- TIME_STEP (R204). -/
def execTimeStep (s : State) : Host.Outcome State Fault Refusal :=
  .next (timeStepOp s)

/-- SOURCE_LOST (R202). -/
def execSourceLost (s : State) : Host.Outcome State Fault Refusal :=
  .next (sourceLostOp s)

/-- HOLDOVER_END (R196). -/
def execHoldoverEnd (s : State) : Host.Outcome State Fault Refusal :=
  .next (holdoverEndOp s)

/-- BEACON (R206). -/
def execBeacon (s : State) : Host.Outcome State Fault Refusal :=
  .next (beaconOp s)

/-- BEACON_ARRIVAL (R207). -/
def execBeaconArrival (ch : Nat) (s : State) : Host.Outcome State Fault Refusal :=
  .next (beaconArrivalOp ch s)

/-- PTP_MESSAGE (R213). -/
def execPtpMessage (port : Nat) (msg : PtpMsg) (frame : EthFrame) (s : State) (ago : Nat := 0) :
    Host.Outcome State Fault Refusal := .next (ptpMessageOp port msg frame (s.hubStamp ago) s)

/-- GPTP_SYNC (R215). -/
def execGptpSync (ch seg : Nat) (s : State) : Host.Outcome State Fault Refusal :=
  .next (gptpSyncOp ch seg s)

/-- PDELAY_REQ (R215). -/
def execPdelayReq (ch seg node : Nat) (s : State) : Host.Outcome State Fault Refusal :=
  .next (pdelayReqOp ch seg node s)

/-- PTP_TRANSMIT (R212). -/
def execPtpTransmit (port kind : Nat) (s : State) : Host.Outcome State Fault Refusal :=
  .next (ptpTransmitOp port kind s)

end Sys2Proof.Machine
end

