-- ==== Sys2Proof/Machine/Pair.lean ====
section
/-! DEFINITION. Pairing and fail-over (chapter 14, R399 to R426). -/

namespace Sys2Proof.Machine

/- ### Roles (R399 to R403) -/

/-- Payload of PAIR_LOST: cause, ROLE, CH_FIT (R425). -/
def pairLost (s : State) (cause : Nat) : State :=
  (pairRec s 3 [BitVec.ofNat 8 cause, BitVec.ofNat 8 s.pair.role, BitVec.ofNat 8 (fld (s.pair.health.getD 1 0) 8 8)]).alert 3

/-- EN, and MODE in the form the ordering code allows (R401). -/
def pairEn (s : State) : Bool := bitN (s.reg 0x80000) 0
def pairHot (s : State) : Bool := s.ident.eight && bitN (s.reg 0x80000) 1

/-- The first condition of R401 that fails, as a reason of PAIR_REFUSED. -/
def pairRefusal (s : State) (p : Partner) : Option Nat :=
  if !(pairEn s && p.enabled) then some 0
  else if p.code4 = s.ident.eight then some 1
  else if fld (s.reg 0x80000) 16 16 ≠ p.groupId then some 2
  else if p.sideB = s.ident.sideB then some 3
  else if s.upd.running.mirFmt ≠ p.mirrorFmt then some 4
  else if s.lc.state ≠ p.lifecycle ∨ s.lc.state < 2 ∨ 4 < s.lc.state then some 5
  else none

/-- RELEASE_ARMED follows whether the partner is a fit standby (R421). -/
def armRelease (s : State) : State :=
  let on := s.partnerReady
  { s with chs := s.chs.map (fun c => { c with relArmed := on }) }

/-- The terminals of a channel that commands none: joined DOUTs off, joined AOUTs in DISCONNECT, the others safe
(R386, R400, R412, R421). -/
def holdTerminals (s : State) (n : Nat) : State :=
  let s := applyAllSafe s n
  (List.range 4).foldl (fun s t => if s.joinedAo n t then s.modAout n t (fun o => { o with disc := true }) else s) s

/-- Controllers and segments take the mode the new role asks for at their next bus idle (R400). -/
def busModes (s : State) : State :=
  { s with chs := s.chs.map (fun c => { c with can := c.can.map (fun x => { x with pendingMode := true }) }) }

/-- Rings of a module that does not serve wait (R400). -/
def ringsWait (s : State) : State :=
  { s with
    rings := s.rings.map (fun (p : Nat × Ring) => if p.2.state = RingState.active then (p.1, { p.2 with state := .waitService }) else p)
    evs := s.evs.map (fun (p : Nat × EvRing) =>
      if p.2.state = RingState.active ∧ p.1 ≠ 0 then (p.1, { p.2 with state := .waitService }) else p) }

/-- Transactions of a module that leaves ACTIVE: open and preparing ones are LOST, a pending one belongs to the new
active module (R88). -/
def txnsHandedOver (s : State) : State :=
  (s.txns.map (·.1)).foldl (fun s c =>
    if (s.txn c).state = .pending then s.modTxn c (fun _ => Txn.reset) else loseTxn s c) s

/-- Point service begins (R431): rings that wait become ACTIVE, and the records owed since the start are raised: the
transactions lost (R87), TIME_INVALID after a loss of the backup domain (R456), alarms of the time asleep
(R452), and those of the vault, the tamper monitor and the update service (R476, R486, R502). -/
def beginService (s : State) : State :=
  let s := ringsServe (s.modPwr (fun p => { p with service := true, state := 2 }))
  let s := s.pwr.lost.foldl (fun s x => raiseBoth s 5 x.1 (bytesLE 4 x.2)) (s.modPwr (fun p => { p with lost := [] }))
  let s := if s.pwr.backupLost then timeRec s 4 [BitVec.ofNat 8 0, 2] else s
  let s := s.bkp.alarms.zipIdx.foldl (fun s a =>
    match a.1.owed with
    | some w => (raise s 0 0x0310 0 ([BitVec.ofNat 8 a.2, (if a.1.skipped then 1 else 0) ||| 2, 0, 0] ++
        bytesLE 4 w.1.toNat ++ bytesLE 4 w.2.toNat)).intBit 0xB0028 0 2
    | none => s) (s.modBkp (fun b => { b with alarms := b.alarms.map (fun a => { a with owed := none }) }))
  let s := s.vlt.owed.foldl (fun s x => (raise s 0 x.1 x.2.1 x.2.2).intBit 0x90080 (x.1 - 0x0600) 7)
    (s.modVlt (fun v => { v with owed := [] }))
  let s := s.bkp.owed.foldl (fun s x => (raise s 0 0x0603 0 x).intBit 0x90080 3 7) (s.modBkp (fun b => { b with owed := [] }))
  s.upd.owed.foldl (fun s x => updRec s x.1 x.2) (s.modUpd (fun u => { u with owed := [] }))

/-- ROLE changes, with the cause of PAIR_ROLE (R400, R425). -/
def setRole (s : State) (new cause : Nat) : State :=
  let old := s.pair.role
  if old = new then s
  else
    let s := if 2 ≤ new then vaultAbort s 13 else s
    let s := s.modPair (fun p => { p with role := new, made := false, memErr := false, decided := none,
                                          yielding := none, cycles := 0, aliveOut := true,
                                          syncPct := if new = 2 then 100 else 0 })
    let s := pairRec s 1 [BitVec.ofNat 8 old, BitVec.ofNat 8 new, BitVec.ofNat 8 s.pair.partnerRole, BitVec.ofNat 8 cause]
    let s := busModes s
    let s := { s with chs := s.chs.map (fun c => { c with stopped := false }) }
    let s := sourceCheck (armRelease s)
    if s.standby then
      let s := if old ≤ 1 then txnsHandedOver (ringsWait s) else s
      let s := (List.range 8).foldl (fun s n => if s.present n then holdTerminals s n else s) s
      sourceCheck ([0, 1].foldl (fun s p => if s.time.ptp.state p = 3 then setPortState s p 1 else s) s)
    else if s.pwr.service then ringsServe s else if s.pwr.begun then beginService s else s

/-- The module lets go of its joined terminals (R403, R421): its channels hold them released. -/
def releaseChannels (s : State) : State :=
  (List.range 8).foldl (fun s n => if s.present n then holdTerminals s n else s) s

/-- PAIR_REFUSED (R5, R401): the module keeps ACTIVE, else it is UNPAIRED; the other module is no partner. -/
def pairRefused (s : State) (p : Partner) (reason : Nat) : State :=
  let s := armRelease (s.modPair (fun q => { q with refused := true, partnerFit := false }))
  let s := pairRec s 4 ([BitVec.ofNat 8 reason, BitVec.ofNat 8 (if p.code4 then 4 else 8)] ++ bytesLE 2 p.mirrorFmt)
  if s.pair.role = 1 then s else setRole s 0 0

/-- The check of R401 with the partner known: what it refuses, and the end of two ACTIVE modules (R403). -/
def pairCheck (s : State) : State :=
  match s.pair.partner with
  | none => s
  | some p =>
    let both : Bool := s.pair.role = 1 && p.role = 1
    match pairRefusal s p with
    | some r =>
      let s := pairRefused s p r
      if r = 3 && both && p.serial.toNat < s.ident.serial.toNat then setRole s 3 4 else s
    | none =>
      let s := s.modPair (fun q => { q with
        refused := false
        hot := if q.role = 1 then pairHot s else p.modeHot && s.ident.eight
        segBase := if q.role = 1 then some (q.segBase.getD s.ident.serial) else some p.segSerial })
      if both && s.ident.sideB then
        setRole (s.modPair (fun q => { q with segBase := some p.segSerial })) 3 4
      else s

/-- PAIR_LINK_UP. -/
def pairLinkUpOp (p : Partner) (lanes : BitVec 2) (s : State) : State :=
  pairCheck (s.modPair (fun q =>
    { q with linkUp := true, lanes := lanes, partner := some p, partnerRole := p.role, peerSeq := none }))

/-- ROLE_DECISION, before point service (R402). -/
def roleDecisionOp (activeSeen : Bool) (s : State) : State :=
  let refused := match s.pair.partner with
    | some p => s.pair.linkUp && (pairRefusal s p).isSome
    | none => false
  if !pairEn s || s.pwr.service || !s.pwr.vinGood || s.pair.role ≠ 0 || refused then s
  else if activeSeen || s.pair.aliveIn = .active then setRole s 3 0
  else if s.pair.linkUp then setRole s (if s.ident.sideB then 3 else 1) 0
  else if s.pair.aliveIn = .other then
    if s.ident.sideB then pairLost (setRole s 3 0) 1 else setRole s 1 0
  else setRole s 1 0

/-- HUB_PAIR_CFG has been written (R401, R423). -/
def pairCfgWritten (s : State) (old : Word) : State :=
  let w := s.reg 0x80000
  let bad := bitN w 1 && !s.ident.eight
  let s := if bad then s.setReg 0x80000 (w &&& ~~~2) else s
  let s := s.modPair (fun p => { p with cfgErr := bad })
  let moved : Bool := bitN old 0 ≠ bitN w 0 || fld old 16 16 ≠ fld w 16 16
  let s := if moved && s.pair.role ≠ 0 && s.paired then pairLost s 4 else s
  let s := if !bitN w 0 then setRole s 0 0 else s
  let s := if s.pair.role = 1 then s.modPair (fun p => { p with hot := pairHot s }) else s
  if s.pair.linkUp then pairCheck s else s

/-- The life-cycle state changed: PAIR_LOST, and the check again (R401, R423). -/
def pairLifecycle (s : State) : State :=
  let s := if s.pair.role ≠ 0 && s.paired then pairLost s 5 else s
  if s.pair.linkUp then pairCheck s else s

/- ### Heartbeats (R405, R406) -/

/-- Own FIT: a standby whose latest report is not UNFIT (R414, R415). -/
def ownFit (s : State) : Bool := s.pair.role = 2 && !s.pair.testBad

/-- HEARTBEAT_SEND: at a boundary of hub time, over a link that is up. -/
def heartbeatSendOp (s : State) : State :=
  if !s.pair.linkUp || !pairEn s then s
  else
    let t := s.time.now / 1000 * 1000
    let seq := (s.pair.seq + 1) % 65536
    let fit := ownFit s
    let hb : Heartbeat :=
      { time := t, seq := seq, role := s.pair.role, fit := fit, yields := s.pair.yielding.isSome, made := s.pair.made,
        swapPrep := s.pair.swapping, mirrorSeq := s.pair.mirSeq, crcOk := true }
    let s := s.modPair (fun p => { p with seq := seq, fit := if p.role = 1 then p.fit else fit,
                                          lastH := if p.role = 1 then t else p.lastH })
    s.emit (.heartbeat hb)

/-- PAIR_HEALTH from the latest report (R423, R425). -/
def pairHealthRec (s : State) : State :=
  let w (i : Nat) := s.pair.health.getD i 0
  let faults := fld (w 1) 16 16 + 65536 * fld (w 2) 0 16
  pairRec s 5 ([BitVec.ofNat 8 (fld (w 0) 16 1), BitVec.ofNat 8 (fld (w 0) 24 8), BitVec.ofNat 8 (fld (w 1) 8 8), 0] ++
    bytesLE 4 faults)

/-- The active module takes a new view of its partner's FIT (R415, R423). -/
def setPartnerFit (s : State) (fit : Bool) : State :=
  let was := s.pair.partnerFit && s.pair.partnerRole = 2
  let s := armRelease (s.modPair (fun p => { p with partnerFit := fit, fit := fit }))
  if was && !fit then pairHealthRec s else s

/-- The instant of a planned swap: the first sample boundary at least 10 ms on (R422). -/
def pickTs (s : State) : State :=
  if s.pair.swapping && s.pair.swapTs.isNone then
    s.modPair (fun p => { p with swapTs := some (ceilSample (s.time.now + 10000000)) })
  else s

/- ### The mirror on the standby (R408, R409) -/

/-- A sequence number `k` on, without 0 (R38, R39). -/
def seqAdd (n k : Nat) : Nat := (n + k - 1) % (2 ^ 32 - 1) + 1

/-- Hold the words and runtime state of a loop's slot as the active module placed it. -/
def mirrorPlaced (s : State) (id n t phase lane : Nat) : State :=
  match amGet s.ws.loops id with
  | none => s
  | some l =>
    let moved : Bool := l.holds && !(l.channel = n && l.slot = t)
    let words := if moved then slotWords s l.channel l.slot else slotResetWords n t
    let rt := if moved then some (s.slotRt l.channel l.slot) else none
    let s := putSlotWords s n t words
    let s := s.modWs (fun w => { w with loops := amMod w.loops id (fun l =>
      { l with st := .placed, channel := n, slot := t, phase := phase, lane := lane }) })
    let s := occupySlot s id n t
    let s := if moved then s.modCh l.channel (fun c => { c with slots := amDel c.slots l.slot }) else s
    let s := match rt with
      | some r => s.modSlot n t (fun _ => { r with loop := some id })
      | none => s
    loopPointsAt s id n

/-- A mirrored declaration (R67, R149); a point comes into effect with its steering. -/
def mirrorDeclared (s : State) (t id owner : Nat) (ws : List Word) : State :=
  match t with
  | 1 =>
    let ord := s.ws.assigns.foldl (fun m p => max m (p.2.ord + 1)) 0
    s.modWs (fun w => { w with assigns := amSet w.assigns id (assignOf ws ord) })
  | 2 =>
    dirChanged { s with points := amSet s.points id (pointOf owner id ws) }
  | 3 => s.modWs (fun w => { w with loops := amSet w.loops id (loopOf owner ws) })
  | 4 => s.modWs (fun w => { w with subs := amSet w.subs id (subOf owner ws) })
  | 5 => { s with actions := amSet s.actions id { basin := owner, decl := ws, table := 9, entry := 0 } }
  | _ => dirChanged (s.modWs (fun w => { w with passes := amSet w.passes id (passOf ws) }))

/-- A mirrored withdrawal: a handle waits for a pass of this module (R34), and a placed loop for its stop (R163). -/
def mirrorWithdrawn (s : State) (t id : Nat) : State :=
  match t with
  | 1 => s.modWs (fun w => { w with assigns := amDel w.assigns id })
  | 2 => dirChanged ({ s with points := amDel s.points id }.modWs (fun w => { w with reissue := w.reissue ++ [id] }))
  | 3 =>
    match amGet s.ws.loops id with
    | some l =>
      if l.holds then s.modWs (fun w => { w with loops := amMod w.loops id (fun l => { l with gone := true }) })
      else s.modWs (fun w => { w with loops := amDel w.loops id })
    | none => s
  | 4 => s.modWs (fun w => { w with subs := amDel w.subs id })
  | 5 => { s with actions := amDel s.actions id }
  | _ => dirChanged (s.modWs (fun w => { w with passes := amDel w.passes id }))

/-- A mirrored stop of a loop. -/
def mirrorStopped (s : State) (id : Nat) : State :=
  match amGet s.ws.loops id with
  | some l =>
    let s := if l.holds then s.modCh l.channel (fun c => { c with slots := amDel c.slots l.slot }) else s
    s.modWs (fun w => { w with
      loops := if l.gone then amDel w.loops id else amMod w.loops id (fun l => { l with st := .stopped }) })
  | none => s

/-- Mirrored steering (R149): the rings are the standby's of the same number. -/
def mirrorSteered (s : State) (kind id ring : Nat) : State :=
  match kind with
  | 0 =>
    match amGet s.points id with
    | none => s
    | some p =>
      let n := if p.origin = 2 then (match amGet s.ws.loops p.index with | some l => l.channel | none => 0) else p.channel
      dirFrom s (s.modPt id (fun p => { p with inEffect := true, ring := ring, channel := n }))
  | 1 => s.modWs (fun w => { w with passes := amMod w.passes id (fun p => { p with ring := ring }) })
  | _ => s.modWs (fun w => { w with subs := amMod w.subs id (fun p => { p with ring := ring }) })

/-- The bulk copy of R424 begins. -/
def mirrorRestart (s : State) : State :=
  let s := s.modWs (fun w => { w with assigns := [], passes := [], loops := [], subs := [], reissue := [], plan := none,
                                      migrations := [] })
  let s := { s with chs := s.chs.map (fun (c : Chan) => { c with slots := [], table := { c.table with entries := [] } }) }
  let s := { s with points := [], actions := [] }
  { s with hlist := { s.hlist with entries := [] }, txns := s.txns.map (fun (p : Nat × Txn) => (p.1, Txn.reset)) }

/-- A register the active module wrote (R408): GROUP_ID is the module's own; an expert word pins its item. -/
def mirrorRegister (s : State) (key : Nat) (w : Word) : State :=
  if key = 0x80000 then s.setReg key ((w &&& 0xFFFF) ||| (s.reg key &&& 0xFFFF0000))
  else
    let old := s.reg key
    let s := s.setReg key w
    let s := (match regRow key with
      | some r => if r.expert ∧ key % 65536 ≠ 0xFFFC ∧ !s.pins.contains key then { s with pins := s.pins ++ [key] } else s
      | none => s)
    let o := key % 0x100000
    if 0x100000 ≤ key ∧ key < 0x900000 ∧ 0x40000 ≤ o ∧ o < 0x50000 ∧ o % 64 = 0 then
      slotCtlApplied s (key / 0x100000 - 1) ((o - 0x40000) / 64) old w
    else s

/-- One mirror record takes effect (R408, R409). -/
def applyMirrorRec (s : State) (r : MirrorRec) : State :=
  match r with
  | .point h m => s.modPt h (fun p => { p with mir := m, own := { p.own with seq := m.seq } })
  | .register off w => mirrorRegister s off w
  | .loopState n t i48 pvf48 df48 pvfPrev sps out primed =>
    s.modSlot n t (fun r =>
      { r with i48 := i48, pvf48 := pvf48, df48 := df48, pvfPrev := pvfPrev, sps := sps, u := out, primed := primed,
               out := .command out, lastIn := s.ticks + 1 })
  | .output n term code => s.modPair (fun p => { p with outs := amSet p.outs (64 * n + term) code })
  | .canImage n x h v => s.modCan n x (fun c => { c with images := amSet c.images h v })
  | .actionLast t i last =>
    s.modEnt t i (fun e => { e with last := some last, done := max e.done (e.passedAt last) })
  | .entry t i (some e) =>
    let s := s.modTbl t (fun b => { b with entries := amSet b.entries i e, gens := amSet b.gens i e.gen })
    if e.origin = .declared then
      { s with actions := amMod s.actions e.actId (fun a => { a with table := t, entry := i }) }
    else s
  | .entry t i none => s.modTbl t (fun b => { b with entries := amDel b.entries i })
  | .declared t id owner ws => mirrorDeclared s t id owner ws
  | .withdrawn t id => mirrorWithdrawn s t id
  | .placed l n t phase lane => mirrorPlaced s l n t phase lane
  | .restart => mirrorRestart s
  | .stopped l => mirrorStopped s l
  | .steered kind id ring => mirrorSteered s kind id ring
  | .basinRemoved b => basinReturned b s
  | .txnEnded c => s.modTxn c (fun _ => Txn.reset)
  | .pendingTxn c id scope at' writes =>
    s.modTxn c (fun _ => { Txn.reset with
      state := .pending, id := id, scope := scope, apply := at',
      staged := writes.map (fun w => ({ key := w.1, be := w.2.1, data := w.2.2 } : Staged)) })
  | .image h body =>
    if hdrCheck s (s.upd.lock = 3) h = 0 then takeBody (takeHeader s 3 3 0 0 h) (body.take (hdrTotal h - 256)) else s
  | .armed (some t) =>
    if s.upd.state = 3 then s.modUpd (fun u => { u with state := 4, target := 0, armedAt := t }) else s
  | .armed none => if s.upd.state = 4 then updEnds s 3 21 else s

/-- The record can change what the CAN filters accept. -/
def steersRec : MirrorRec → Bool
  | .declared _ _ _ _ => true
  | .withdrawn _ _ => true
  | .steered _ _ _ => true
  | .basinRemoved _ => true
  | _ => false

/-- Filters follow the mirrored declarations (R149). -/
def refilter (s : State) : State :=
  (newFilters s).foldl (fun s f => installFilter s f.1 f.2.1 f.2.2) s

/-- The records a heartbeat closes take effect as one unit (R409): those up to MIRROR_SEQ. -/
def closeRecs (s : State) (upTo : Nat) : State :=
  let now := s.pair.recs.filter (fun r => (upTo + 65536 - r.1) % 65536 < 32768)
  let rest := s.pair.recs.filter (fun r => !((upTo + 65536 - r.1) % 65536 < 32768))
  let s := s.modPair (fun p => { p with recs := rest })
  let s := now.foldl (fun s r => applyMirrorRec s r.2) s
  if now.any (fun r => steersRec r.2) then refilter s
  else s

/-- MIRROR_RECORD: held until a heartbeat closes it. -/
def mirrorRecordOp (seq : Nat) (r : MirrorRec) (s : State) : State :=
  if s.standby then s.modPair (fun p => { p with recs := p.recs ++ [(seq, r)] }) else s

/-- Source of a received YIELD: SWAP when one was announced, otherwise one of POWER, MEMORY, WATCHDOG and CHANNEL,
which the heartbeat does not tell: a free value (log 40). -/
def yieldCause (s : State) (hb : Heartbeat) : Nat :=
  if hb.swapPrep then 5 else 1 + (Config.freeByte s.free).toNat % 4

/-- Bulk copy to a partner that joins (R67, R149, R408, R424): every table, then the slot words and the other mirrored
registers, the runtime state, the outputs, the images and the transactions pending. -/
def mirrorAll (s : State) : State :=
  let assigns := s.ws.assigns.foldl (fun (l : List (Nat × Assign)) p =>
    (l.filter (fun x => x.2.ord < p.2.ord)) ++ p :: l.filter (fun x => !(x.2.ord < p.2.ord))) []
  let recs : List MirrorRec :=
    .restart :: assigns.map (fun p => .declared 1 p.1 0 p.2.decl) ++
    s.points.map (fun p => .declared 2 p.1 p.2.owner p.2.decl) ++
    s.ws.loops.map (fun p => .declared 3 p.1 p.2.basin p.2.decl) ++
    s.ws.subs.map (fun p => .declared 4 p.1 p.2.basin p.2.decl) ++
    s.actions.map (fun p => .declared 5 p.1 p.2.basin p.2.decl) ++
    s.ws.passes.map (fun p => .declared 6 p.1 p.2.grantor p.2.decl) ++
    (s.ws.loops.filter (fun p => p.2.holds)).map (fun p => .placed p.1 p.2.channel p.2.slot p.2.phase p.2.lane) ++
    (s.ws.loops.filter (fun p => p.2.st == .stopped)).map (fun p => .stopped p.1) ++
    (s.points.filter (fun p => p.2.inEffect)).map (fun p => .steered 0 p.1 p.2.ring) ++
    s.ws.passes.map (fun p => .steered 1 p.1 p.2.ring) ++ s.ws.subs.map (fun p => .steered 2 p.1 p.2.ring) ++
    (s.ws.loops.filter (fun p => p.2.gone)).map (fun p => .withdrawn 3 p.1) ++
    (s.regs.filter (fun p => mirroredKey p.1)).map (fun p => .register p.1 p.2) ++
    s.points.map (fun p => .point p.1 { p.2.mir with seq := p.2.own.seq }) ++
    (List.range 8).flatMap (fun n =>
      (s.ch n).slots.map (fun p => .loopState n p.1 p.2.i48 p.2.pvf48 p.2.df48 p.2.pvfPrev p.2.sps p.2.u p.2.primed) ++
      (s.tbl n).entries.map (fun p => .entry n p.1 (some p.2)) ++
      (List.range 8).map (fun d => .output n (16 + d) (if (s.dout n d).cmd then 1 else 0)) ++
      (List.range 4).map (fun t => .output n (32 + t) (s.aout n t).code) ++
      [0, 1].flatMap (fun x => (s.can n x).images.map (fun p => .canImage n x p.1 p.2))) ++
    s.hlist.entries.map (fun p => .entry 8 p.1 (some p.2)) ++
    (s.txns.filter (fun p => p.2.state == .pending)).map (fun p =>
      .pendingTxn p.1 p.2.id p.2.scope p.2.apply (p.2.staged.map (fun e => (e.key, e.be, e.data))))
  recs.foldl State.mirror s

/-- After an event of the pair unit: a partner that the module now mirrors to receives the bulk copy. -/
def joinMirror (s t : State) : State := if !s.mirrors && t.mirrors then mirrorAll t else t

/-- H moves on as a STANDBY module closes a heartbeat; a mirror that lags by more than 100 µs ends its standing: SYNCING,
and PAIR_LOST with cause LINK (R410). -/
def mirrorLag (s : State) (h : Instant) : State :=
  let lag := s.time.now - h
  let s := s.modPair (fun p => { p with lastH := h, lagMax := max p.lagMax (lag / 1000) })
  if s.pair.role = 2 ∧ 100000 < lag then pairLost (setRole s 3 0) 1 else s

/-- HEARTBEAT_RECEIVED (R405, R409, R410, R414, R417, R422); one of a module that was refused counts and does no more. -/
def heartbeatReceivedOp (hb : Heartbeat) (s : State) : State :=
  if !hb.crcOk then s.modPair (fun p => { p with crcErr := (p.crcErr + 1) % 65536 })
  else
    let miss := match s.pair.peerSeq with
      | some q => (hb.seq + 65535 - q) % 65536
      | none => 0
    let s := s.modPair (fun p =>
      { p with peerSeq := some hb.seq, hbMiss := min 65535 (p.hbMiss + miss), partnerRole := hb.role })
    if s.pair.refused then s
    else if s.pair.role = 1 then
      let s := setPartnerFit s (hb.fit && hb.role = 2)
      if s.pair.hot && hb.fit then pickTs s else s
    else if s.standby && hb.role = 1 then
      let s := mirrorLag (closeRecs s hb.mirrorSeq) hb.time
      if s.pair.role = 2 then
        if hb.yields then
          if ownFit s then (s.modPair (fun p => { p with decided := some (yieldCause s hb) })).tick1 else s
        else if s.pair.decided.isSome then setRole s 3 0
        else if hb.swapPrep && !s.pair.hot && !s.pair.swapping then
          s.modPair (fun p => { p with swapping := true, busy := true })
        else s
      else s
    else s

/-- HEARTBEAT_TIMEOUT: 4 µs without a heartbeat (R417, R419, R423). The active module tells a silent partner from a
lost link by PAIR_ALIVE_IN. -/
def heartbeatTimeoutOp (s : State) : State :=
  if s.pair.partnerRole = 0 then s
  else
    let refused := s.pair.refused
    let gone (s : State) := armRelease (s.modPair (fun p =>
      { p with partnerRole := 0, partnerFit := false, linkUp := false, lanes := 0, peerSeq := none, refused := false }))
    if refused then gone s
    else if s.pair.role = 2 then
      if s.pair.aliveIn = .active then pairLost (setRole (gone s) 3 0) 1
      else if ownFit s then (gone s).modPair (fun p => { p with decided := some 0 })
      else pairLost (setRole (gone s) 3 0) 3
    else if s.pair.role = 1 then
      let s := pairLost (gone s) (if s.pair.aliveIn = .silent then 0 else 1)
      if s.pair.swapping then
        pairRec (s.modPair (fun p => { p with swapping := false, swapTs := none, busy := false })) 6
          ([2, 0, 0, 0] ++ List.replicate 8 0)
      else s
    else gone s

/-- PAIR_ALIVE_CHANGE (R406). -/
def aliveChangeOp (c : AliveIn) (s : State) : State := s.modPair (fun p => { p with aliveIn := c })

/- ### Takeover (R418 to R421) -/

/-- Ticks from a loop's input to its output instant (R278, R281). -/
def outTicks (l : Loop) : Nat := if l.fast then 700 else 31250

/-- A loop's mirrored sample at GO: an output instant that fell in the gap is commanded now, a later one waits, an
earlier one has been commanded (R420). -/
def resumeLoop (s : State) (n t gap : Nat) : State :=
  let r := s.slotRt n t
  match r.loop with
  | none => s
  | some id =>
    match amGet s.ws.loops id with
    | none => s
    | some l =>
      let d := s.ticks + 1 - r.lastIn
      if !r.en || r.lastIn = 0 || d < outTicks l then s
      else
        let u := r.u
        let s := s.modSlot n t (fun r => { r with out := .nothing })
        if d ≤ outTicks l + gap then loopCommand s n l (slotBank s n t r.bankSel) u else s

/-- GO at a channel (R418): outputs from the mirror, segments NORMAL at once, controllers at their next bit
boundary; occurrences due before H + 4 µs count as acted (R420). -/
def channelGo (s : State) (n : Nat) (h : Instant) : State :=
  if !s.present n || (s.ch n).state = .fault then s
  else
    let now := s.chNow n
    let out (term : Nat) := amGet s.pair.outs (64 * n + term)
    let s := (List.range 8).foldl (fun s d =>
      match out (16 + d) with
      | some v => driveDout s n d (v % 2 == 1) now
      | none => s) s
    let s := (List.range 4).foldl (fun s t =>
      match out (32 + t) with
      | some v => driveAout s n t v now
      | none => s) s
    let s := [0, 1].foldl (fun s x => segApply s n x) s
    let s := s.modCh n (fun c => { c with table := { c.table with entries := c.table.entries.map (fun (p : Nat × Entry) =>
      (p.1, { p.2 with done := max p.2.done (p.2.passedAt (h + 3999)) })) } })
    ((s.ch n).slots.map (·.1)).foldl (fun s t => resumeLoop s n t ((now - h) / 4)) s

/-- The switch-over record (R455). -/
def switchRecord (s : State) (cause gap : Nat) (h : Instant) : State :=
  s.modBkp (fun b =>
    if b.so.valid then { b with so := { b.so with count := satInc 255 b.so.count } }
    else { b with so := { valid := true, cause := cause, hot := s.pair.hot, count := b.so.count,
                          gap := min 65535 gap, h := h, epoch := s.ws.epoch } })

/-- The new active module is in control (R418, R420). A point never acquired keeps the number 0, and transaction identifiers
go on from the module's own count (DESIGN CHOICE, log 127 and 129). -/
def takeOver (s : State) (cause gap : Nat) : State :=
  let h := s.pair.lastH
  let hot := s.pair.hot
  let s := s.modPair (fun p => { p with recs := [] })
  let s := setRole (disarm s 21) 1 (if cause = 5 then 3 else 2)
  let s := { s with points := s.points.map (fun (p : Nat × Point) =>
    (p.1, { p.2 with own := { p.2.own with seq := if p.2.own.seq = 0 then 0 else seqAdd p.2.own.seq 256 } })) }
  let s := (List.range 8).foldl (fun s n => channelGo s n h) s
  let s := { s with hlist := { s.hlist with entries := s.hlist.entries.map (fun (p : Nat × Entry) =>
    (p.1, { p.2 with done := max p.2.done (p.2.passedAt h) })) } }
  let s := (s.txns.map (·.1)).foldl (fun s c =>
    let t := s.txn c
    if t.state = .pending ∧ t.apply ≤ s.time.now then
      s.modTxn c (fun t => { t with apply := ceilSample (s.time.now + 1), goSent := true, waitGo := [] })
    else s) s
  let s := s.modPair (fun p => { p with
    made := true, takeovers := satInc 255 p.takeovers, lastCause := cause, lastHot := hot, lastGap := min 65535 gap,
    lastSec := h / giga % 2 ^ 32, swapping := false, busy := false, decided := none, outs := [] })
  let s := (switchRecord s cause gap h).alert 3
  let s := pairRec s 2 ([BitVec.ofNat 8 cause, if hot then 1 else 0] ++ bytesLE 2 (min 65535 gap) ++
    bytesLE 4 (h % giga) ++ bytesLE 4 (h / giga % 2 ^ 32))
  trigger s 0

/-- TAKEOVER: source PAIR is lost; a warm standby passes its self-check first, which an uncorrectable memory error
fails (R407, R414, R418, R419). -/
def takeoverOp (gap : Nat) (selfCheckOk : Bool) (s : State) : State :=
  match s.pair.decided with
  | none => s
  | some cause =>
    if s.pair.role ≠ 2 then s
    else
      let s := if s.time.cls = 4 then sourceLostOp s else s
      if !s.pair.hot && (!selfCheckOk || s.pair.memErr) then pairLost (setRole s 3 0) 2
      else takeOver s cause gap

/-- Stopped channels let go of their joined terminals (R421). -/
def releaseStopped (s : State) (n : Nat) : State :=
  if (s.ch n).stopped && (s.ch n).relArmed then holdTerminals (s.modCh n (fun c => { c with relArmed := false })) n else s

/-- MADE_RECEIVED by the former active module (R421, R422): after a swap it is STANDBY at once; otherwise its state
is no longer level and it is SYNCING. -/
def madeReceivedOp (s : State) : State :=
  match s.pair.yielding with
  | none => s
  | some cause =>
    if s.pair.role ≠ 1 then s
    else
      let s := (List.range 8).foldl releaseStopped (disarm s 21)
      let s := s.modPair (fun p => { p with partnerRole := 1 })
      let ts := s.pair.swapTs.getD 0
      if cause = 5 then
        let s := setRole s 2 3
        let s := s.modPair (fun p => { p with swapping := false, swapTs := none, busy := false,
                                              takeovers := satInc 255 p.takeovers })
        (pairRec s 6 ([0, 0, 0, 0] ++ bytesLE 4 (ts % giga) ++ bytesLE 4 (ts / giga % 2 ^ 32))).alert 3
      else setRole s 3 4

/-- RELEASE_TIMEOUT: 1 ms after the stop without MADE (R421). -/
def releaseTimeoutOp (n : Nat) (s : State) : State := releaseStopped s n

/-- BEACON_SILENCE_STOP: after a lost hub, H is the time of the last beacon (R421). -/
def beaconSilenceOp (n : Nat) (s : State) : State := stopChannel s n (s.ch n).tb.lastPlain

/- ### Planned swap and self-test (R414 to R416, R422) -/

/-- A pair command is refused. -/
def pairCmdErr (s : State) : State := s.modPair (fun p => { p with cmdErr := true })

/-- SWAP. -/
def swapOp (s : State) : State :=
  if s.partnerReady && !s.pair.busy && s.pair.yielding.isNone then
    let s := s.modPair (fun p => { p with swapping := true, swapTs := none, busy := true, cmdErr := false })
    if s.pair.hot then pickTs s else s
  else pairRec (pairCmdErr s) 6 ([1, 0, 0, 0] ++ List.replicate 8 0)

/-- SWAP_YIELD at Ts. -/
def swapYieldOp (s : State) : State :=
  match s.pair.swapTs with
  | some ts => if s.pair.swapping && ts ≤ s.time.now then yieldTo s 5 else s
  | none => s

/-- SWAP_TIMEOUT at Ts + 16 µs: the module works on (R422). -/
def swapTimeoutOp (s : State) : State :=
  match s.pair.swapTs with
  | none => s
  | some ts =>
    if s.pair.yielding = some 5 ∧ ts + 16000 ≤ s.time.now then
      let s := s.modPair (fun p => { p with
        yielding := none, aliveOut := true, swapping := false, swapTs := none, busy := false, partnerRole := 3,
        partnerFit := false })
      let s := { s with chs := s.chs.map (fun c => { c with stopped := false }) }
      let s := armRelease (busModes s)
      pairRec s 6 ([2, 0, 0, 0] ++ bytesLE 4 (ts % giga) ++ bytesLE 4 (ts / giga % 2 ^ 32))
    else s

/-- SELFTEST: on a standby only (R426). -/
def selftestOp (s : State) : State :=
  if s.pair.role = 2 && !s.pair.busy then s.modPair (fun p => { p with busy := true, cmdErr := false }) else pairCmdErr s

/-- A report of this module (R416): the die temperature is a reading. -/
def ownReport (s : State) (hot : Bool) (hubF chP chF : Byte) (faults : Word) : State :=
  let bad : Bool := hubF ≠ 0 || (chP &&& ~~~chF) ≠ 0
  let seq := (s.pair.reportSeq + 1) % 65536
  let cycles := (s.pair.cycles + 1) % 2 ^ 32
  let ofs := ((max (-32768) (min 32767 s.time.offset)) % 65536).toNat
  let words : List Word :=
    [mkFld 0 16 seq ||| mkBit 16 bad ||| mkBit 17 hot ||| mkFld 24 8 hubF.toNat,
     mkFld 0 8 chP.toNat ||| mkFld 8 8 chF.toNat ||| mkFld 16 16 (fld faults 0 16),
     mkFld 0 16 (fld faults 16 16) ||| mkFld 16 16 (min 65535 s.pair.lagMax),
     mkFld 0 16 ofs ||| mkFld 16 16 (Config.reading s.free).toNat,
     BitVec.ofNat 32 cycles, 0]
  let s := (s.modPair (fun p => { p with health := words, reportSeq := seq, cycles := cycles, testBad := bad, lagMax := 0,
                                         fit := p.role = 2 && !bad })).tick1
  if s.pair.linkUp then s.emit (.health words) else s

/-- SELFTEST_DONE. -/
def selftestDoneOp (hubF chP chF : Byte) (faults : Word) (s : State) : State :=
  if s.pair.role = 2 && s.pair.busy then
    ownReport (s.modPair (fun p => { p with busy := false, swapping := false })) false hubF chP chF faults
  else s

/-- HEALTH_REPORT_SEND: what a hot standby's continuous tests found is a free value (log 42). -/
def healthSendOp (s : State) : State :=
  if s.pair.role = 2 && s.pair.hot then
    ownReport s.tick1 true (Config.freeByte (4 * s.free) &&& 0x7F) (Config.freeByte (4 * s.free + 1))
      (Config.freeByte (4 * s.free + 2)) (Config.freeWord (s.free))
  else s

/-- HEALTH_REPORT at the active module. -/
def healthReportOp (words : List Word) (s : State) : State :=
  if s.pair.role ≠ 1 then s
  else
    let ws := (words ++ List.replicate 6 0).take 6
    let s := s.modPair (fun p => { p with health := ws })
    let fit := !bitN (ws.getD 0 0) 16
    let s := setPartnerFit s (fit && s.pair.partnerRole = 2 && !s.pair.refused)
    if fit then pickTs s else s

/-- HEALTH_REPORT_TIMEOUT (R415). -/
def healthTimeoutOp (s : State) : State := if s.pair.role = 1 && s.pair.hot then setPartnerFit s false else s

/-- RESYNC_DONE (R424): level with the active module, whose epoch and time it takes. -/
def resyncDoneOp (epoch : Nat) (time : Instant) (s : State) : State :=
  if s.pair.role = 3 && s.pair.linkUp && s.pair.partnerRole = 1 && !s.pair.refused then
    let s := s.modWs (fun w => { w with epoch := epoch % 65536 })
    let s := setClass (armStep s ((time : Int) - s.time.now) 0) 4 0
    (setRole s 2 1).modPair (fun p => { p with fit := !p.testBad })
  else s

/- ### The commands -/

/-- PAIR_LINK_UP (R401, R403). -/
def execPairLinkUp (partner : Partner) (lanes : BitVec 2) (s : State) : Host.Outcome State Fault Refusal :=
  .next (joinMirror s (pairLinkUpOp partner lanes s))

/-- ROLE_DECISION (R402). -/
def execRoleDecision (activeSeen : Bool) (s : State) : Host.Outcome State Fault Refusal :=
  .next (roleDecisionOp activeSeen s)

/-- HEARTBEAT_SEND (R405). -/
def execHeartbeatSend (s : State) : Host.Outcome State Fault Refusal :=
  .next (heartbeatSendOp s)

/-- HEARTBEAT_RECEIVED (R405, R409). -/
def execHeartbeatReceived (hb : Heartbeat) (s : State) : Host.Outcome State Fault Refusal :=
  .next (joinMirror s (heartbeatReceivedOp hb s))

/-- MIRROR_RECORD (R409). -/
def execMirrorRecord (seq : Nat) (rcd : MirrorRec) (s : State) : Host.Outcome State Fault Refusal :=
  .next (mirrorRecordOp seq rcd s)

/-- HEARTBEAT_TIMEOUT (R417). -/
def execHeartbeatTimeout (s : State) : Host.Outcome State Fault Refusal :=
  .next (heartbeatTimeoutOp s)

/-- PAIR_ALIVE_CHANGE (R406). -/
def execPairAliveChange (cls : AliveIn) (s : State) : Host.Outcome State Fault Refusal :=
  .next (aliveChangeOp cls s)

/-- TAKEOVER (R414, R418). -/
def execTakeover (gapNs : Nat) (selfCheckOk : Bool) (s : State) : Host.Outcome State Fault Refusal :=
  .next (takeoverOp gapNs selfCheckOk s)

/-- MADE_RECEIVED (R421). -/
def execMadeReceived (s : State) : Host.Outcome State Fault Refusal :=
  .next (madeReceivedOp s)

/-- RELEASE_TIMEOUT (R421). -/
def execReleaseTimeout (ch : Nat) (s : State) : Host.Outcome State Fault Refusal :=
  .next (releaseTimeoutOp ch s)

/-- SWAP (R422). -/
def execSwap (s : State) : Host.Outcome State Fault Refusal :=
  .next (ifReaches 0x80008 swapOp s)

/-- SWAP_YIELD (R422). -/
def execSwapYield (s : State) : Host.Outcome State Fault Refusal :=
  .next (swapYieldOp s)

/-- SWAP_TIMEOUT (R422). -/
def execSwapTimeout (s : State) : Host.Outcome State Fault Refusal :=
  .next (swapTimeoutOp s)

/-- SELFTEST (R414). -/
def execSelftest (s : State) : Host.Outcome State Fault Refusal :=
  .next (ifReaches 0x80008 selftestOp s)

/-- SELFTEST_DONE (R416). -/
def execSelftestDone (hubFaults chPresent chFit : Byte) (chFault : Word) (s : State) : Host.Outcome State Fault Refusal :=
  .next (selftestDoneOp hubFaults chPresent chFit chFault s)

/-- HEALTH_REPORT (R416). -/
def execHealthReport (words : List Word) (s : State) : Host.Outcome State Fault Refusal :=
  .next (healthReportOp words s)

/-- HEALTH_REPORT_TIMEOUT (R415). -/
def execHealthReportTimeout (s : State) : Host.Outcome State Fault Refusal :=
  .next (healthTimeoutOp s)

/-- RESYNC_DONE (R424). -/
def execResyncDone (epoch : Nat) (time : Instant) (s : State) : Host.Outcome State Fault Refusal :=
  .next (resyncDoneOp epoch time s)

/-- HEALTH_REPORT_SEND (R415). -/
def execHealthReportSend (s : State) : Host.Outcome State Fault Refusal :=
  .next (healthSendOp s)

/-- BEACON_SILENCE_STOP (R421). -/
def execBeaconSilenceStop (ch : Nat) (s : State) : Host.Outcome State Fault Refusal :=
  .next (beaconSilenceOp ch s)

end Sys2Proof.Machine
end

