-- ==== Sys2Proof/Machine/Backup.lean ====
section
/-! DEFINITION. The backup domain (chapter 16, R442 to R458): the calendar's clock, its coupling to hub time, its
alarms and the measurement of VBAT. -/

namespace Sys2Proof.Machine

/-- A backup-domain record of kind 0x0310 + `i` (R457). -/
def bkpRec (s : State) (i : Nat) (payload : List Byte) : State := (raise s 0 (0x0310 + i) 0 payload).intBit 0xB0028 i 2

/-- The calendar guard is on (R445, R484). -/
def State.calGuard (s : State) : Bool :=
  s.lc.state = 3 || !(s.lc.state = 1 || s.lc.state = 2 || s.lc.state = 4 || s.bkp.test)

/-- The prescaler runs on between two events of the domain by a number of RTC ticks the model does not know: a free
value below the end of the second (log 43). -/
def prescRuns (s : State) : State :=
  let c := s.bkp.cal
  (s.modBkp (fun b => { b with cal :=
    { c with presc := c.presc + (Config.freeWord s.free).toNat % (32768 - c.presc) } })).tick1

/- ### Alarms (R452, R453) -/

/-- The alarm is enabled, and every selected field equals the calendar's. -/
def Alarm.matches (a : Alarm) (c : Cal) : Bool :=
  a.cfg.getLsbD 0 && (!a.cfg.getLsbD 1 || fld a.value 0 6 = c.sec) && (!a.cfg.getLsbD 2 || fld a.value 8 6 = c.min) &&
    (!a.cfg.getLsbD 3 || fld a.value 16 5 = c.hour) && (!a.cfg.getLsbD 4 || fld a.value 24 3 = c.wday) &&
    (!a.cfg.getLsbD 5 || fld a.value 27 5 = c.day)

/-- Alarm `i` fires; without VIN its record waits, and only the first is kept. -/
def fireAlarm (s : State) (i : Nat) (last : Int) (skipped : Bool) : State :=
  let c := s.bkp.cal
  let on := s.pwr.vinGood
  let s := s.modBkp (fun b => { b with alarms := b.alarms.modify i (fun a =>
    { a with fired := true, skipped := skipped, asleep := !on, last := some last,
             owed := if on then a.owed else some (a.owed.getD (c.timeWord, c.dateWord)) }) })
  if on then
    bkpRec s 0 ([BitVec.ofNat 8 i, if skipped then 1 else 0, 0, 0] ++ bytesLE 4 c.timeWord.toNat ++
      bytesLE 4 c.dateWord.toNat)
  else s

/-- The numbers a field of an alarm allows, greatest first. -/
def alarmField (a : Alarm) (bit lo n count : Nat) : List Nat :=
  if a.cfg.getLsbD bit then [fld a.value lo n] else (List.range count).reverse

/-- The latest second of a day in `lo` to `hi` that the time fields select. -/
def alarmTod (a : Alarm) (lo hi : Nat) : Option Nat :=
  (alarmField a 3 16 5 24).findSome? (fun h => (alarmField a 2 8 6 60).findSome? (fun m =>
    (alarmField a 1 0 6 60).findSome? (fun c =>
      let t := h * 3600 + m * 60 + c
      if h < 24 ∧ m < 60 ∧ c < 60 ∧ lo ≤ t ∧ t ≤ hi then some t else none)))

/-- The latest matching second in `lo` to `hi`, seconds of PTP time, over at most `fuel` days back; weekdays are
counted back from weekday `wd` on the day numbered `day0` (log 44). -/
def alarmSearch (a : Alarm) (wd day0 lo hi : Nat) : Nat → Option Nat
  | 0 => none
  | fuel + 1 =>
    if hi < lo then none
    else
      let d := hi / 86400
      let today : Option Nat :=
        match calOf (d * 86400) ((wd + 7 * 20872 + d - day0) % 7) with
        | some c =>
          if (!a.cfg.getLsbD 4 || fld a.value 24 3 = c.wday) && (!a.cfg.getLsbD 5 || fld a.value 27 5 = c.day) then
            (alarmTod a (lo - d * 86400) (hi % 86400)).map (fun t => d * 86400 + t)
          else none
        | none => none
      match today with
      | some t => some t
      | none => if d = 0 then none else alarmSearch a wd day0 lo (d * 86400 - 1) fuel

/-- What an adjustment from `old` to `new` makes of one alarm (R453): the second LAST takes, and SKIPPED. -/
def adjustHit (a : Alarm) (old new : Cal) : Option (Int × Bool) :=
  if !a.cfg.getLsbD 0 ∨ new.secs ≤ old.secs then none
  else
    let lo := (old.secs + 1).toNat
    let now := new.secs.toNat
    let before := if now = 0 then none
      else alarmSearch a (new.wday % 7) (now / 86400) lo (now - 1) (min 4400 (now / 86400 - lo / 86400 + 1))
    if a.matches new then some (new.secs, before.isSome) else before.map (fun t => ((t : Int), true))

/-- The calendar has been adjusted (R453). -/
def calAdjusted (s : State) (old : Cal) : State :=
  [0, 1].foldl (fun s i =>
    match adjustHit (s.bkp.alarms.getD i Alarm.reset) old s.bkp.cal with
    | some h => fireAlarm s i h.1 h.2
    | none => s) s

/-- The calendar takes a new value (R446, R450): RTC_LOADED with its cause, then the alarms. -/
def loadCal (s : State) (new : Cal) (cause : Nat) : State :=
  let old := s.bkp.cal
  let osf := s.bkp.osf
  let d := satS32 (new.secs - old.secs)
  let s := s.modBkp (fun b => { b with cal := new, osf := false })
  let s := bkpRec s 1 ([BitVec.ofNat 8 cause, if osf then 1 else 0, 0, 0] ++ bytesLE 4 (d % 2 ^ 32).toNat ++
    bytesLE 4 new.dateWord.toNat ++ bytesLE 4 new.timeWord.toNat)
  calAdjusted s old

/-- CALENDAR_SECOND: the calendar counts a second and the alarms compare (R447, R448, R452, R453). Where the date does
not move on, by a roll-over, LAST no longer holds a match back. -/
def calendarSecondOp (s : State) : State :=
  let old := s.bkp.cal
  let new := { old.tick with presc := 0 }
  let s := s.modBkp (fun b => { b with
    cal := new, alarms := if new.secs ≤ old.secs then b.alarms.map (fun a => { a with last := none }) else b.alarms })
  [0, 1].foldl (fun s i =>
    let a := s.bkp.alarms.getD i Alarm.reset
    if a.matches new && a.last.all (fun l => l < new.secs) then fireAlarm s i new.secs false else s) s

/-- LOAD (R446). -/
def rtcLoadOp (s : State) : State :=
  let new := calWords (s.reg 0xB001C) (s.reg 0xB0020)
  if s.calGuard && !new.ok then s.modBkp (fun b => { b with dateErr := true })
  else loadCal (s.modBkp (fun b => { b with dateErr := false })) new 0

/-- SO_CLEAR (R455). -/
def soClearOp (s : State) : State := s.modBkp (fun b => { b with so := SoRec.reset })

/-- CALENDAR_SYNC: the load from hub time at a whole second of it (R448, R450). -/
def calendarSyncOp (s : State) : State :=
  let c := s.time.cls
  if !s.bkp.syncEn || !(c = 5 || c = 4 || c = 2) || !s.pwr.vinGood then s
  else match calOf (s.time.now / giga) s.bkp.cal.wday with
    | some new => loadCal (s.modBkp (fun b => { b with syncRange := false })) new 1
    | none => s.modBkp (fun b => { b with syncRange := true })

/-- CAL_CYCLE: a positive CAL moves PRESC on, and the second with it; ticks withheld only delay the next second
(R451). -/
def calCycleOp (s : State) : State :=
  if s.bkp.rate ≤ 0 then s
  else
    let s := prescRuns s
    let p := s.bkp.cal.presc + s.bkp.rate.toNat
    if p < 32768 then s.modBkp (fun b => { b with cal := { b.cal with presc := p } })
    else (calendarSecondOp s).modBkp (fun b => { b with cal := { b.cal with presc := p - 32768 } })

/-- AUTO_CAL_WINDOW with its drift in ppb (R451). -/
def autoCalOp (drift : Int) (s : State) : State :=
  if s.bkp.autoCal && (s.time.cls = 5 || s.time.cls = 4) && s.time.locked then
    s.modBkp (fun b => { b with rate := max (-511) (min 511 (b.rate + roundDiv (drift * 10) 9537)) })
  else s

/-- OSC_STOPPED (R443). -/
def oscStoppedOp (s : State) : State :=
  let s := s.modBkp (fun b => { b with osf := true })
  if s.pwr.vinGood then bkpRec s 2 [] else s

/-- VBAT_MEASURE, in 10 mV steps (R442). -/
def vbatMeasureOp (v : Nat) (s : State) : State :=
  if !s.pwr.vinGood then s
  else
    let was := s.bkp.vbatLow
    let low := if v < 180 then true else if 190 < v then false else was
    let s := s.modBkp (fun b => { b with vbat := v % 65536, vbatLow := low })
    if low && !was then bkpRec s 3 (bytesLE 2 v) else s

/-- HUB_BKP_ALMCFG and HUB_BKP_ALM written (R452). -/
def almWritten (s : State) (i : Nat) (f : Alarm → Alarm) : State :=
  s.modBkp (fun b => { b with alarms := b.alarms.modify i f })

/-- The domain is lost (R456): everything it holds takes the values after loss. -/
def backupLoss (s : State) : State :=
  { (s.modBkp (fun _ => Backup.reset)).modPwr (fun p => { p with backupLost := true }) with
    regs := s.regs.filter (fun p => !(0xB0000 ≤ p.1 && p.1 < 0xC0000)) }

/- ### The commands -/

/-- CALENDAR_SECOND (R447). -/
def execCalendarSecond (s : State) : Host.Outcome State Fault Refusal :=
  .next (calendarSecondOp s)

/-- LOAD (R446). -/
def execRtcLoad (s : State) : Host.Outcome State Fault Refusal :=
  .next (ifReaches 0xB0008 rtcLoadOp s)

/-- SO_CLEAR (R455). -/
def execSoClear (s : State) : Host.Outcome State Fault Refusal :=
  .next (ifReaches 0xB0008 soClearOp s)

/-- CALENDAR_SYNC (R450). -/
def execCalendarSync (s : State) : Host.Outcome State Fault Refusal :=
  .next (calendarSyncOp s)

/-- CAL_CYCLE (R451). -/
def execCalCycle (s : State) : Host.Outcome State Fault Refusal :=
  .next (calCycleOp s)

/-- AUTO_CAL_WINDOW (R451). -/
def execAutoCalWindow (driftPpb : Int) (s : State) : Host.Outcome State Fault Refusal :=
  .next (autoCalOp driftPpb s)

/-- OSC_STOPPED (R443). -/
def execOscStopped (s : State) : Host.Outcome State Fault Refusal :=
  .next (oscStoppedOp s)

/-- VBAT_MEASURE (R442). -/
def execVbatMeasure (v : Nat) (s : State) : Host.Outcome State Fault Refusal :=
  .next (vbatMeasureOp v s)

end Sys2Proof.Machine
end

