-- ==== Sys2Proof/Machine/Links.lean ====
section
/-! DEFINITION. The loss of a channel's crossbar link and its return (R30 to R32, R43, R209, R242). -/

namespace Sys2Proof.Machine

/-- LINK_LOST: either side stops sending; the channel runs on alone (R30, R31), its points become STALE, and
transactions without its acknowledgement end (R82). The hub keeps its copy of CHn_CTL_STATE (R92). -/
def linkLostOp (n : Nat) (s : State) : State :=
  let st := (s.ch n).state
  if !s.fitted n ∨ st = .absent ∨ st = .fault ∨ s.linkDown n then s
  else
    let s := s.modCh n (fun c => { c with
      prior := if st = .linkLost then c.prior else st, xbarUp := false, relock := false, copied := chanBits c
      lossCnt := satInc 255 c.lossCnt, egress := [], ingress := []
      tb := { c.tb with holdover := true, beacon := none } })
    let s := (setChState s n .linkLost).alert 2
    let s := if s.standby then s else markStale s n
    channelYield (txnChannelLeft s n) n

/-- LINK_RETURN: beacons pass again, and the channel relocks its timebase before anything else (R32, R209). -/
def linkReturnOp (n : Nat) (s : State) : State :=
  if s.linkDown n then
    s.modCh n (fun c => { c with
      xbarUp := true, relock := true, tb := { c.tb with lockCnt := 0, unlockCnt := 0 } })
  else s

/-- Work waits for the channel (R31, R179): items a pass would now place on it, and loops withdrawn meanwhile. -/
def workWaits (s : State) (n : Nat) : Bool :=
  (newPoints s []).any (fun h => match amGet s.points h with | some p => p.channel == n | none => false) ||
  (newActions s).any (fun a => match amGet s.actions a with | some x => actTableOf s x.decl == n | none => false) ||
  (pendingLoops s).any (fun l => boundChan s l.2 == some n || (l.2.pin && l.2.pinCh == n)) ||
  s.ws.loops.any (fun l => l.2.gone && l.2.holds && l.2.channel == n) ||
  (newFilters s).any (fun f => f.1 == n)

/-- Declared entries whose action was withdrawn during the loss leave the table now (R30, R244). -/
def dropOrphans (s : State) (n : Nat) : State :=
  (s.tblKeys n).foldl (fun s i =>
    match amGet (s.tbl n).entries i with
    | some e => if e.origin = .declared ∧ !s.actions.any (fun a => a.2.table == n && a.2.entry == i) then withdrawEntry s n i else s
    | none => s) s

/-- RESEND_COMPLETE: the channel has relocked and no resent point is left on its way; it returns to the state it held (R32),
out of service if software took it out meanwhile. -/
def resendCompleteOp (n : Nat) (s : State) : State :=
  let c := s.ch n
  if c.state = .linkLost ∧ c.xbarUp ∧ !c.relock ∧ !c.egress.any (fun u => u.resent) then
    let s := dropOrphans (releaseRecs (setChState s n c.prior) n) n
    let s := if c.prior = .outOfService then channelOut n s else s
    if s.ws.svc.getD n .absent = .draining then trigger s 4
    else if c.prior = .inService ∧ workWaits s n then trigger s 8 else s
  else s

/- ### The commands -/

/-- LINK_LOST (R30). -/
def execLinkLost (ch : Nat) (s : State) : Host.Outcome State Fault Refusal :=
  .next (linkLostOp ch s)

/-- LINK_RETURN (R32). -/
def execLinkReturn (ch : Nat) (s : State) : Host.Outcome State Fault Refusal :=
  .next (linkReturnOp ch s)

/-- RESEND_COMPLETE (R32). -/
def execResendComplete (ch : Nat) (s : State) : Host.Outcome State Fault Refusal :=
  .next (resendCompleteOp ch s)

end Sys2Proof.Machine
end

