-- ==== Sys2Proof/Machine/Vault.lean ====
section
/-! DEFINITION. The key vault and the tamper monitor (chapter 17, R459 to R478, R487, R488). -/

namespace Sys2Proof.Machine

/-- A vault, life-cycle or tamper record of kind 0x0600 + `i` (R487). -/
def vaultRec (s : State) (i subject : Nat) (payload : List Byte) : State :=
  (raiseBoth s (0x0600 + i) subject payload).intBit 0x90080 i 7

/- ### Slots (R465, R466) -/

/-- A slot of the vault. -/
def State.vslot (s : State) (n : Nat) : VSlot :=
  match amGet s.vlt.slots n with
  | some v => v
  | none => VSlot.reset

/-- Change a slot; an empty one is not listed. -/
def State.setVslot (s : State) (n : Nat) (v : VSlot) : State :=
  s.modVlt (fun t => { t with slots := if v = VSlot.reset then amDel t.slots n else amSet t.slots n v })

/-- VSTATE as it reads (R460, R462): SEALED in QUARANTINE unless the store is ERASED, and on a STANDBY or SYNCING
module. -/
def State.vstate (s : State) : Nat :=
  if s.standby then 0 else if s.vlt.vstate = 2 then 2 else if s.lc.quar ≠ 0 then 0 else s.vlt.vstate

/-- The key of a slot descends directly from one of `ps`. -/
def VSlot.childOf (v : VSlot) (ps : List Nat) : Bool :=
  match v.active with
  | some k => ps.contains k.parent
  | none => false

/-- Slots whose active keys descend from slot `n`: depth 6 bounds the tree (R465). -/
def descendants (s : State) (n : Nat) : List Nat :=
  let step (ps : List Nat) : List Nat := (s.vlt.slots.filter (fun p => p.1 ≠ 0 && p.2.childOf ps)).map (·.1)
  let l1 := step [n]
  let l2 := step l1
  let l3 := step l2
  let l4 := step l3
  let l5 := step l4
  (l1 ++ l2 ++ l3 ++ l4 ++ l5 ++ step l5).filter (fun k => k ≠ n) |>.eraseDups

/-- GEN the next key of a slot will carry (R467). -/
def VSlot.nextGen (v : VSlot) : Nat := if v.active.isSome then (v.gen + 1) % 2 ^ 32 else 1

/-- The CONTEXT of R467. -/
def vaultContext (s : State) (slot basin depth gen : Nat) (measured : Bool) (meas : BitVec 384) : List Byte :=
  bytesLE 2 slot ++ [BitVec.ofNat 8 basin, BitVec.ofNat 8 depth] ++ bytesLE 4 gen ++ bytesLE 8 s.ident.serial.toNat ++
  (if measured then bytesBE 48 meas.toNat else List.replicate 48 0)

/-- The key of a KIND derived from a parent's key (R467). -/
def deriveKey (s : State) (parentKey label : List Byte) (kind slot basin depth gen : Nat) (measured : Bool)
    (meas : BitVec 384) : List Byte :=
  let l := if kind = 1 then 256 else 384
  let msg := bytesBE 4 1 ++ label ++ [0] ++ vaultContext s slot basin depth gen measured meas ++ bytesBE 4 l
  (bytesBE 48 (Config.hmacSha384 parentKey msg).toNat).take (l / 8)

/- ### Operations (R469, R470) -/

/-- ARG fields. -/
def VOp.parent (o : VOp) : Nat := fld o.arg 0 9
def VOp.kind (o : VOp) : Nat := fld o.arg 9 3
def VOp.measured (o : VOp) : Bool := bitN o.arg 12

/-- Where a new key of a slot hangs (R465, R466, R470): basin tag and depth, or the result that refuses it. A slot
is never placed below itself. -/
def vaultPlace (s : State) (o : VOp) : Except Nat (Nat × Nat) :=
  let p := s.vslot o.parent
  if o.slot < 66 then
    if o.parent = 0 then .ok (o.slot - 2, 1) else .error 5
  else if o.parent = 0 ∨ o.parent = o.slot ∨ (descendants s o.slot).contains o.parent then .error 2
  else match p.active with
    | none => .error 2
    | some k =>
      if k.kind = 3 then .error 2 else if 6 ≤ k.depth then .error 4 else .ok (k.basin, k.depth + 1)

/-- Write a pending key. -/
def putPending (s : State) (slot : Nat) (k : VKey) : State := s.setVslot slot { s.vslot slot with pend := some k }

/-- GENERATE. -/
def vGenerate (s : State) (o : VOp) : State × Nat :=
  if o.kind ≠ 1 ∧ o.kind ≠ 2 then (s, 3)
  else match vaultPlace s o with
    | .error r => (s, r)
    | .ok (b, d) =>
      let key := (bytesBE 48 (Config.random s.free).toNat).take (if o.kind = 1 then 32 else 48)
      (putPending s.tick1 o.slot
        { kind := o.kind, origin := 1, parent := o.parent, depth := d, basin := b, label := o.label, key := key }, 0)

/-- DERIVE: only from an ACTIVE parent. -/
def vDerive (s : State) (o : VOp) : State × Nat :=
  if o.kind ≠ 1 ∧ o.kind ≠ 2 then (s, 3)
  else match vaultPlace s o with
    | .error r => (s, r)
    | .ok (b, d) =>
      match (s.vslot o.parent).active with
      | some k =>
        if (s.vslot o.parent).orphan then (s, 2)
        else
          let key := deriveKey s k.key o.label o.kind o.slot b d (s.vslot o.slot).nextGen o.measured s.vlt.meas
          (putPending s o.slot
            { kind := o.kind, origin := if o.measured then 4 else 2, parent := o.parent, depth := d, basin := b,
              label := o.label, key := key }, 0)
      | none => (s, 2)

/-- IMPORT. -/
def vImport (s : State) (o : VOp) : State × Nat :=
  if o.kind = 0 ∨ 3 < o.kind then (s, 3)
  else if o.kind ≠ 3 ∧ s.lc.state = 3 then (s, 6)
  else if o.len ≠ (match o.kind with | 1 => 32 | 2 => 48 | _ => 96) then (s, 14)
  else match vaultPlace s o with
    | .error r => (s, r)
    | .ok (b, d) =>
      let key := o.input.take o.len
      if o.kind = 3 && !Config.onP384 key then (s, 3)
      else (putPending s o.slot
        { kind := o.kind, origin := 3, parent := o.parent, depth := d, basin := b, label := o.label, key := key }, 0)

/-- KEY_CHANGED of a slot (R487). -/
def keyChanged (s : State) (slot basin cause affected : Nat) : State :=
  vaultRec s 1 basin (bytesLE 2 slot ++ [BitVec.ofNat 8 cause, 0] ++
    bytesLE 4 (if (s.vslot slot).active.isSome then (s.vslot slot).gen else 0) ++ bytesLE 2 affected)

/-- Basin tag of a slot: of its key, active or pending. -/
def State.vtag (s : State) (n : Nat) : Nat :=
  match (s.vslot n).active, (s.vslot n).pend with
  | some k, _ => k.basin
  | none, some k => k.basin
  | none, none => 0

/-- Descendants lose their pending keys and become ORPHANED, each with its record (R472). -/
def orphanAll (s : State) (ds : List Nat) : State :=
  let s := ds.foldl (fun s d => s.setVslot d { s.vslot d with orphan := true, pend := none }) s
  ds.foldl (fun s d => keyChanged s d (s.vtag d) 2 0) s

/-- Pending keys that hang below any of `ps` are dropped (R472). -/
def dropPending (s : State) (ps : List Nat) : State :=
  (s.vlt.slots.filter (fun p => match p.2.pend with | some k => ps.contains k.parent | none => false)).foldl
    (fun s p => s.setVslot p.1 { s.vslot p.1 with pend := none }) s

/-- PROMOTE (R471, R472). -/
def vPromote (s : State) (o : VOp) : State × Nat :=
  let v := s.vslot o.slot
  match v.pend with
  | none => (s, 2)
  | some k =>
    let ds := descendants s o.slot
    let s := s.setVslot o.slot { orphan := false, gen := v.nextGen, active := some k, pend := none }
    let s := dropPending s (o.slot :: ds)
    (orphanAll (keyChanged s o.slot k.basin 0 ds.length) ds, 0)

/-- DISCARD. -/
def vDiscard (s : State) (o : VOp) : State × Nat :=
  let v := s.vslot o.slot
  if v.pend.isNone then (s, 2) else (s.setVslot o.slot { v with pend := none }, 0)

/-- INVALIDATE: the slot and its whole subtree become EMPTY (R469, R471). -/
def vInvalidate (s : State) (o : VOp) : State × Nat :=
  let v := s.vslot o.slot
  match v.active with
  | none => (s, 2)
  | some k =>
    let ds := descendants s o.slot
    let s := dropPending s (o.slot :: ds)
    let s := (o.slot :: ds).foldl (fun s d => s.setVslot d VSlot.reset) s
    (keyChanged s o.slot k.basin 1 ds.length, 0)

/-- REDERIVE: an ORPHANED derived slot under its parent's present key. -/
def vRederive (s : State) (o : VOp) : State × Nat :=
  let v := s.vslot o.slot
  match v.active with
  | none => (s, 2)
  | some k =>
    let p := s.vslot k.parent
    match p.active with
    | none => (s, 2)
    | some pk =>
      if !v.orphan || (k.origin ≠ 2 && k.origin ≠ 4) || p.orphan then (s, 2)
      else
        let key := deriveKey s pk.key k.label k.kind o.slot k.basin k.depth v.nextGen (k.origin = 4) s.vlt.meas
        (putPending s o.slot { k with key := key }, 0)

/-- A slot's secret key. -/
def VSlot.secret (v : VSlot) : Option (List Byte) :=
  match v.active with
  | some k => if k.kind = 3 then none else some k.key
  | none => none

/-- HMAC. -/
def vHmac (s : State) (o : VOp) : State × Nat :=
  match (s.vslot o.slot).secret with
  | none => (s, 2)
  | some k =>
    let mac := bytesBE 48 (Config.hmacSha384 k (o.input.take o.len)).toNat
    (s.modVlt (fun v => { v with
      outLen := 48, outBuf := (List.range 12).map (fun i => BitVec.ofNat 32 (getLE mac (4 * i) 4)) }), 0)

/-- HMAC_VERIFY. -/
def vHmacVerify (s : State) (o : VOp) : State × Nat :=
  if o.len < 48 then (s, 14)
  else match (s.vslot o.slot).secret with
    | none => (s, 2)
    | some k =>
      let mac := bytesBE 48 (Config.hmacSha384 k (o.input.take (o.len - 48))).toNat
      (s, if mac = (o.input.drop (o.len - 48)).take 48 then 0 else 7)

/-- ECDSA_VERIFY. -/
def vEcdsaVerify (s : State) (o : VOp) : State × Nat :=
  if o.len ≠ 144 then (s, 14)
  else match (s.vslot o.slot).active with
    | some k =>
      if k.kind ≠ 3 ∨ (s.vslot o.slot).orphan then (s, 2)
      else (s, if Config.ecdsaP384 k.key (o.input.take 48) ((o.input.drop 48).take 96) then 0 else 8)
    | none => (s, 2)

/-- The effect and the result of an operation at its end (R469, R470). -/
def vaultRun (s : State) (o : VOp) : State × Nat :=
  if o.slot < 2 then (s, 2)
  else if 1024 < o.len ∧ (o.cmd = 3 ∨ 8 ≤ o.cmd) then (s, 14)
  else match o.cmd with
    | 1 => vGenerate s o
    | 2 => vDerive s o
    | 3 => vImport s o
    | 4 => vPromote s o
    | 5 => vDiscard s o
    | 6 => vInvalidate s o
    | 7 => vRederive s o
    | 8 => vHmac s o
    | 9 => vHmacVerify s o
    | _ => vEcdsaVerify s o

/-- An operation that ends at once with a result. -/
def vaultRefuse (s : State) (res : Nat) : State :=
  (s.modVlt (fun v => { v with result := res, outLen := 0, inBuf := [], outBuf := List.replicate 12 0 })).intBit 0x90080 0 7

/-- HUB_VLT_OP written with a CMD (R436, R460, R469, R470): the arguments are latched, IN and OUT zeroed, and the
operation runs until VAULT_OP_COMPLETE. -/
def vaultOp (cmd slot : Nat) (s : State) : State :=
  if s.vlt.busy.isSome then s.modVlt (fun v => { v with result := 1 })
  else if s.lc.state = 0 ∨ s.lc.state = 5 then vaultRefuse s 6
  else if s.vstate = 0 then vaultRefuse s 11
  else if s.vstate = 2 then vaultRefuse s 12
  else if s.pwr.warn then vaultRefuse s 10
  else
    let input := (List.range 256).flatMap (fun i =>
      bytesLE 4 (match amGet s.vlt.inBuf i with | some w => w.toNat | none => 0))
    let label := (List.range 4).flatMap (fun i => bytesLE 4 (s.reg (0x90010 + 4 * i)).toNat)
    let o : VOp :=
      { cmd := cmd, slot := slot % 512, arg := s.reg 0x90004, len := fld (s.reg 0x9000C) 0 11, label := label, input := input }
    s.modVlt (fun v => { v with busy := some o, outLen := 0, inBuf := [], outBuf := List.replicate 12 0 })

/-- The operation in flight ends (R469). -/
def vaultDone (s : State) : State :=
  match s.vlt.busy with
  | none => s
  | some o =>
    let (s, res) := vaultRun s o
    (s.modVlt (fun v => { v with busy := none, result := res })).intBit 0x90080 0 7

/-- SLOTSEL_WRITE: the description of a slot (R488); a store that is not OPEN shows none. -/
def slotselOp (slot : Nat) (s : State) : State :=
  let n := slot % 512
  let s := s.setReg 0x90100 (BitVec.ofNat 32 n)
  let v := s.vslot n
  let info : List Word :=
    if s.vstate ≠ 1 then List.replicate 7 0
    else match v.active with
      | none => mkBit 2 v.pend.isSome :: List.replicate 6 0
      | some k =>
        let kcv := bytesBE 48 (Config.hmacSha384 k.key (List.replicate 16 0)).toNat
        [mkFld 0 2 (if v.orphan then 2 else 1) ||| mkBit 2 v.pend.isSome ||| mkFld 3 3 k.kind ||| mkFld 6 3 k.origin |||
           mkFld 9 3 k.depth ||| mkFld 12 6 k.basin ||| mkFld 18 9 k.parent,
         BitVec.ofNat 32 v.gen, BitVec.ofNat 32 (getLE kcv 0 4)] ++
        (List.range 4).map (fun i => BitVec.ofNat 32 (getLE k.label (4 * i) 4))
  s.modVlt (fun t => { t with info := info })

/-- VAULT_JOURNAL_CLOSE at 1 ms after the warning: an operation whose COMMIT has not begun ends with POWER_FAIL
(R437, R473). -/
def journalCloseOp (s : State) : State := if s.pwr.warn then vaultAbort s 10 else s

/- ### The first opening and measurement (R463, R468) -/

/-- Root, BKEK and slot 1 are made (R463, R465). -/
def makeRoot (s : State) : State :=
  let root := (bytesBE 48 (Config.random s.free).toNat).take 32
  let k0 : VKey := { kind := 1, origin := 0, parent := 0, depth := 0, basin := 0, label := List.replicate 16 0, key := root }
  let k1 : VKey := { kind := 1, origin := 2, parent := 0, depth := 1, basin := 0, label := List.replicate 16 0,
                     key := deriveKey s root (List.replicate 16 0) 1 1 0 1 1 false 0 }
  (s.tick1.modVlt (fun v => { v with slots :=
    [(0, { orphan := false, gen := 1, active := some k0, pend := none }),
     (1, { orphan := false, gen := 1, active := some k1, pend := none })] })).modBkp
    (fun b => { b with bkek := true, bkekErased := false })

/-- One MEASURED slot takes its value under the present MEAS, GEN unchanged. -/
def remeasure (s : State) (n : Nat) : State :=
  let v := s.vslot n
  match v.active with
  | some k =>
    match (s.vslot k.parent).active with
    | some p =>
      let key := deriveKey s p.key k.label k.kind n k.basin k.depth v.gen true s.vlt.meas
      s.setVslot n { v with active := some { k with key := key } }
    | none => s
  | none => s

/-- MEAS of the slot that starts (R468): a change renews the MEASURED slots from the top of the tree, orphans what
descends from them, and is recorded. -/
def measureStart (s : State) : State :=
  let meas := Config.sha384 s.upd.running.digests
  let prev := s.vlt.meas
  let s := s.modVlt (fun v => { v with prevMeas := prev, meas := meas })
  if meas = prev then s
  else
    let ms := (s.vlt.slots.filter (fun p => match p.2.active with | some k => k.origin = 4 | none => false)).map (·.1)
    let depth (n : Nat) : Nat := match (s.vslot n).active with | some k => k.depth | none => 0
    let s := [1, 2, 3, 4, 5, 6].foldl (fun s d => (ms.filter (fun n => depth n = d)).foldl remeasure s) s
    let ds := ((ms.flatMap (descendants s)).eraseDups).filter (fun n => !ms.contains n)
    let s := ms.foldl (fun s n => keyChanged s n (s.vtag n) 3 (descendants s n).length) s
    let s := orphanAll s ds
    vaultRec s 5 0 ((bytesBE 48 meas.toNat).take 16)

/- ### Tamper (R474 to R478) -/

/-- VSTATE changes, with the cause of VAULT_STATE (R487). -/
def setVstate (s : State) (new cause : Nat) : State :=
  let old := s.vlt.vstate
  if old = new then s
  else vaultRec (s.modVlt (fun v => { v with vstate := new })) 2 0 [BitVec.ofNat 8 old, BitVec.ofNat 8 new, BitVec.ofNat 8 cause]

/-- ERASE mode is in force. -/
def State.eraseMode (s : State) : Bool := s.bkp.tcfg.getLsbD 2

/-- A loop has become active (R475, R476): its log entry, and the response of the mode. -/
def tamperResponse (s : State) (i : Nat) (c : LoopSense) : State :=
  let s := prescRuns s
  let cal := s.bkp.cal
  let on := s.pwr.vinGood
  let erase := s.eraseMode
  let inOp := s.vlt.busy.isSome
  let short := c = .short
  let w2 := mkFld 0 15 cal.presc ||| mkBit (15 + i) true ||| mkBit 17 short ||| mkBit 18 on |||
    mkBit 19 (erase && s.bkp.bkek) ||| mkBit 20 inOp
  let s := s.modBkp (fun b => { b with
    tlog := b.tlog.set b.tnext [cal.dateWord, cal.timeWord, w2, BitVec.ofNat 32 (b.tseq % 65536)]
    tnext := (b.tnext + 1) % 30, tcount := satInc 255 b.tcount, tseq := (b.tseq + 1) % 65536, unack := true
    bkekErased := b.bkekErased || (erase && b.bkek), bkek := b.bkek && !erase })
  let act := (s.bkp.loops.zipIdx).foldl (fun n l => n + if l.1.active then 2 ^ l.2 else 0) 0
  let payload : List Byte := [BitVec.ofNat 8 act, if short then 1 else 0, if erase then 1 else 0, if on then 0 else 1] ++
    bytesLE 4 cal.dateWord.toNat ++ bytesLE 4 cal.timeWord.toNat
  if on then
    let s := vaultAbort s 9
    let s := vaultRec (s.alert 4) 3 0 payload
    if erase then setVstate s 2 1 else s
  else
    let s := s.modBkp (fun b => { b with owed := b.owed ++ [payload] })
    if erase then s.modVlt (fun v => { v with vstate := 2, owed := v.owed ++ [(0x0602, 0, [0, 2, 1])] }) else s

/-- One sample of one loop: two that agree make it active, two good ones end it (R474). -/
def sampleLoop (s : State) (i : Nat) (c : LoopSense) : State :=
  let l := s.bkp.loops.getD i { last := .good, active := false }
  if !s.bkp.tcfg.getLsbD i then s
  else
    let agree := l.last = c
    let now := if agree then c ≠ .good else l.active
    let s := s.modBkp (fun b => { b with loops := b.loops.set i { last := c, active := now } })
    if now && !l.active then tamperResponse s i c else s

/-- TAMPER_SAMPLE. -/
def tamperSampleOp (c0 c1 : LoopSense) (s : State) : State := sampleLoop (sampleLoop s 0 c0) 1 c1

/-- HUB_BKP_TCFG written (R478): in PROVISIONED, COMMISSIONING and MAINTENANCE only. ERASE protects the store under
BKEK; a loop no longer monitored is not active. -/
def tamperModeOp (data : Word) (s : State) : State :=
  if s.lc.state = 1 ∨ s.lc.state = 2 ∨ s.lc.state = 4 then
    let t : BitVec 3 := data.truncate 3
    s.modBkp (fun b => { b with
      tcfg := t, bkek := b.bkek || t.getLsbD 2
      loops := b.loops.zipIdx.map (fun l => if t.getLsbD l.2 then l.1 else { last := .good, active := false }) })
  else s

/- ### The commands -/

/-- GENERATE (R469). -/
def execVaultGenerate (slot : Nat) (s : State) : Host.Outcome State Fault Refusal :=
  .next (ifReaches 0x90000 (vaultOp 1 slot) s)

/-- DERIVE (R467). -/
def execVaultDerive (slot : Nat) (s : State) : Host.Outcome State Fault Refusal :=
  .next (ifReaches 0x90000 (vaultOp 2 slot) s)

/-- IMPORT (R469). -/
def execVaultImport (slot : Nat) (s : State) : Host.Outcome State Fault Refusal :=
  .next (ifReaches 0x90000 (vaultOp 3 slot) s)

/-- PROMOTE (R471). -/
def execVaultPromote (slot : Nat) (s : State) : Host.Outcome State Fault Refusal :=
  .next (ifReaches 0x90000 (vaultOp 4 slot) s)

/-- DISCARD (R469). -/
def execVaultDiscard (slot : Nat) (s : State) : Host.Outcome State Fault Refusal :=
  .next (ifReaches 0x90000 (vaultOp 5 slot) s)

/-- INVALIDATE_KEY (R471). -/
def execVaultInvalidate (slot : Nat) (s : State) : Host.Outcome State Fault Refusal :=
  .next (ifReaches 0x90000 (vaultOp 6 slot) s)

/-- REDERIVE (R469). -/
def execVaultRederive (slot : Nat) (s : State) : Host.Outcome State Fault Refusal :=
  .next (ifReaches 0x90000 (vaultOp 7 slot) s)

/-- HMAC (R469). -/
def execVaultHmac (slot : Nat) (s : State) : Host.Outcome State Fault Refusal :=
  .next (ifReaches 0x90000 (vaultOp 8 slot) s)

/-- HMAC_VERIFY (R469). -/
def execVaultHmacVerify (slot : Nat) (s : State) : Host.Outcome State Fault Refusal :=
  .next (ifReaches 0x90000 (vaultOp 9 slot) s)

/-- ECDSA_VERIFY (R469). -/
def execVaultEcdsaVerify (slot : Nat) (s : State) : Host.Outcome State Fault Refusal :=
  .next (ifReaches 0x90000 (vaultOp 10 slot) s)

/-- SLOTSEL_WRITE (R488). -/
def execSlotselWrite (slot : Nat) (s : State) : Host.Outcome State Fault Refusal :=
  .next (ifReaches 0x90100 (slotselOp slot) s)

/-- TAMPER_SAMPLE (R474). -/
def execTamperSample (loop0 loop1 : LoopSense) (s : State) : Host.Outcome State Fault Refusal :=
  .next (tamperSampleOp loop0 loop1 s)

/-- TAMPER_MODE_CHANGE (R478). -/
def execTamperModeChange (data : Word) (s : State) : Host.Outcome State Fault Refusal :=
  .next (ifReaches 0xB0200 (tamperModeOp data) s)

/-- VAULT_JOURNAL_CLOSE (R473). -/
def execVaultJournalClose (s : State) : Host.Outcome State Fault Refusal :=
  .next (journalCloseOp s)

end Sys2Proof.Machine
end

