-- ==== Sys2Proof/Machine/Start.lean ====
section
/-! DEFINITION. Resets and starts (chapter 15, R429 to R433; R151, R247, R259, R476, R479, R484, R495, R502): what a
reset keeps, and what a start makes of it up to the beginning of point service. -/

namespace Sys2Proof.Machine

/- ### What a reset keeps (R433) -/

/-- The field stage and the guard of a channel keep their physical state; the channel logic starts anew. -/
def wipedDio (c : Dio) : Dio :=
  { Dio.reset with
    fsup := c.fsup, fsupOk := c.fsupOk, low := c.low, inv := c.inv, uvlo := c.uvlo, restart := c.restart
    level := c.level, armed := c.armed, tripped := c.tripped, holding := c.holding, tripCnt := c.tripCnt
    keeps := c.keeps, fresh := true, gSafe := c.gSafe, gWor := c.gWor, gCodes := c.gCodes
    dout := c.dout.map (fun o => { Dout.reset with cmd := o.drive, drive := o.drive, hot := o.hot })
    aout := c.aout.map (fun o => { o with ovl := false, qual := 1 }) }

/-- A channel whose memories are wiped: STARTING, or ABSENT. -/
def wipedChan (fitted : Bool) (c : Chan) : Chan :=
  { Chan.reset with state := if fitted then .starting else .absent, dio := wipedDio c.dio }

/-- A point after a reset: its declaration and placement stand, nothing has been acquired (R38, R151). -/
def wipedPoint (p : Point) : Point :=
  { p with mir := Mirror.never, own := Mirror.never, lastVal := 0, lastQual := 0, lastTick := 0, minDone := false,
           held := false }

/-- A declared loop after a reset: the placement of the last completed pass stands (R151). -/
def wipedLoop (l : Loop) : Loop := { l with st := if l.st = .migrating then .placed else l.st, fails := 0 }

/-- The declared entries of a table, with LAST; those due meanwhile are to be MISSED with OUTAGE (R247). -/
def wipedTable (t : Table) : Table :=
  let es := t.entries.filter (fun p => p.2.origin == ActOrigin.declared)
  { Table.reset with
    entries := es.map (fun (p : Nat × Entry) =>
      (p.1, { p.2 with prep := none, waiting := false, skipped := 0, skipDet := 0x22, late := 0 }))
    gens := t.gens.filter (fun g => es.any (fun p => p.1 == g.1)) }

/-- Slot words of the placed loops (R259). -/
def slotKept (s : State) (key : Nat) : Bool :=
  s.ws.loops.any (fun p => p.2.holds && !p.2.gone && slotKey p.2.channel p.2.slot 0 ≤ key &&
    key ≤ slotKey p.2.channel p.2.slot 15)

/-- Watershed after a reset: declarations and placement (R151); every channel is in the pool again. -/
def wipedWs (s : State) : Watershed :=
  { Watershed.reset with
    epoch := s.ws.epoch, assigns := s.ws.assigns, subs := s.ws.subs, reissue := s.ws.reissue
    passes := s.ws.passes.map (fun (p : Nat × Pass) => (p.1, { p.2 with suspended := p.2.expiry ≠ 0 }))
    loops := (s.ws.loops.filter (fun p => !p.2.gone)).map (fun (p : Nat × Loop) => (p.1, wipedLoop p.2))
    svc := (List.range 8).map (fun n => if s.fitted n then Svc.inPool else Svc.absent) }

/-- The staging area after a reset (R495): RECEIVING and VERIFYING end EMPTY, ARMED ends STAGED with DISARMED, which
the next start reports (R500). The RESULT of an interrupted transfer is a free value. -/
def wipedUpd (s : State) : Upd :=
  let u := { s.upd with lock := 0, port := 0, mac := 0, pState := 0, pSec := 0, pFmt := 0, result := 0 }
  if u.state = 1 ∨ u.state = 2 then
    let res := (Config.freeByte s.free).toNat % 32
    { u with state := 0, result := res, header := [], body := [], owed := u.owed ++ [(1, updStatePayload u u.state 0 res)] }
  else if u.state = 4 then
    { u with state := 3, result := 21, owed := u.owed ++ [(1, updStatePayload u 4 3 21)] }
  else u

/-- Transactions a reset loses, with their functions (R87). -/
def txnsLost (s : State) : List (Nat × Nat) :=
  (s.txns.filter (fun t => t.2.state ≠ TxnState.idle)).map (fun t => (if t.1 < 64 then t.1 else 0, t.2.id))

/-- A TRIAL slot that a watchdog reset or a reset before point service ends starts the other slot (R502), with the
cause of UPD_REVERTED. -/
def trialEnds (s : State) (kind : Nat) : Option Nat :=
  if !s.upd.trial then none
  else if s.upd.revert.isSome then s.upd.revert
  else if kind = 3 then some 1
  else if s.pwr.vinGood && !s.pwr.service then some 2
  else none

/-- The state that a reset of a kind leaves (R433): the volatile memories and the registers at their reset values;
kept are the persisted configuration, the staging area, the boot slots, the power-fail records, the vault's
persisted keys, the backup domain, and what lies outside the module's logic. -/
def wiped (s : State) (kind : Nat) : State :=
  let keep := 2 ≤ kind
  { State.reset with
    pending := s.pending, out := s.out, free := s.free + 1, ticks := s.ticks, ident := s.ident
    frames := s.frames, serial := s.serial
    regs := s.regs.filter (fun p => (0xB0000 ≤ p.1 && p.1 < 0xC0000) || slotKept s p.1)
    host := { HostPort.reset with
      perst := s.host.perst, upCnt := if keep then s.host.upCnt else 0, corrCnt := if keep then s.host.corrCnt else 0 }
    points := s.points.map (fun (p : Nat × Point) => (p.1, wipedPoint p.2))
    ws := wipedWs s
    hlist := wipedTable s.hlist
    actions := s.actions
    chs := s.chs.zipIdx.map (fun c => { wipedChan (s.fitted c.2) c.1 with table := wipedTable c.1.table })
    pair := { Pair.reset with aliveIn := s.pair.aliveIn, takeovers := if keep then s.pair.takeovers else 0 }
    pwr := { Power.reset with
      vinGood := s.pwr.vinGood, vinTick := s.pwr.vinTick, smbHigh := s.pwr.smbHigh, kind := kind, warmCnt := if keep then satInc 255 s.pwr.warmCnt else 0
      lost := s.pwr.lost ++ txnsLost s, recs := s.pwr.recs
      fresh := if s.pwr.vinGood then s.pwr.recorded else s.pwr.fresh }
    bkp := { s.bkp with vbat := 0 }
    vlt := { Vault.reset with
      vstate := if s.vlt.vstate = 2 then 2 else 0, meas := s.vlt.meas, prevMeas := s.vlt.prevMeas, owed := s.vlt.owed
      slots := (s.vlt.slots.map (fun (p : Nat × VSlot) => (p.1, { p.2 with pend := none }))).filter
        (fun p => p.2.active.isSome) }
    lc := { LifeCycle.reset with state := s.lc.state }
    upd := { wipedUpd s with revert := trialEnds s kind }
    usb := s.usb, vbus := s.vbus }

/- ### The start (R430) -/

/-- The start halts in QUARANTINE (R108, R479). -/
def quarantine (s : State) (cause : Nat) : State :=
  let s := { s with lc := { s.lc with quar := cause } }
  let s := (s.modPwr (fun p => { p with state := 3 })).alert 0
  if cause ≤ 2 then s.alert 4 else s

/-- The slot that starts (R502): after a reverted TRIAL the other one, which is confirmed. -/
def bootSlot (s : State) : State :=
  match s.upd.revert with
  | none => s
  | some cause =>
    s.modUpd (fun u => { u with
      slotB := !u.slotB, trial := false, revert := none
      owed := u.owed ++ [(3, [if u.slotB then 0 else 1, BitVec.ofNat 8 cause])] })

/-- The tamper inputs at the boot ROM step: loops found active are logged (R475, R476). -/
def tamperAtStart (s : State) (loops : BitVec 2) : State :=
  [0, 1].foldl (fun s i =>
    let l := s.bkp.loops.getD i { last := .good, active := false }
    if s.bkp.tcfg.getLsbD i && loops.getLsbD i && !l.active then
      tamperResponse (s.modBkp (fun b => { b with loops := b.loops.set i { last := .open, active := true } })) i .open
    else s) s

/-- The vault opens, with the root made at the first start (R459, R463, R468). -/
def openVault (s : State) : State :=
  if s.lc.state = 0 then
    let s := makeRoot s
    let s := s.modVlt (fun v => { v with meas := Config.sha384 s.upd.running.digests })
    let s := { s with lc := { s.lc with state := 1 } }
    setVstate (s.modVlt (fun v => { v with owed := v.owed ++ [(0x0604, 0, [0, 1, 0])] })) 1 0
  else measureStart (setVstate s 1 0)

/-- The loops a start finds placed hold their slots (R151). -/
def occupySlots (s : State) : State :=
  (s.ws.loops.filter (fun p => p.2.holds)).foldl (fun s p => occupySlot s p.1 p.2.channel p.2.slot) s

/-- The channels train their links and measure their beacon delays, which the module cannot know: free values
(R207, R430). -/
def trainChannels (s : State) : State :=
  (List.range 8).foldl (fun s n =>
    if s.fitted n then
      let d := (Config.freeWord s.free).toNat % 65536
      (s.modCh n (fun c => { c with xbarUp := true, isoOk := true, tb := { c.tb with delay := d } })).tick1
    else s) s

/-- Hub time is loaded from the calendar, as no step and without a record (R197). -/
def loadTime (s : State) : State :=
  if s.rtcAvailable then
    let s := prescRuns s
    timeGained (s.modTime (fun t => { t with now := s.bkp.cal.instant, cls := 1, syncL := 0 }))
  else s

/-- A DECOMMISSIONED module stops before point service, its channels OUT_OF_SERVICE (R484). -/
def stopsOutOfService (s : State) : State :=
  let s := (List.range 8).foldl (fun s n =>
    if s.fitted n then applyAllSafe (setChState s n .outOfService) n else s) s
  s.modWs (fun w => { w with svc := w.svc.map (fun v => if v = .absent then v else .out) })

/-- The start after a reset (R430): the backup check, the boot slot, the tamper inputs, the vault and the life-cycle
state, the channels, and the time. -/
def startUp (s : State) (backupLost : Bool) (loops : BitVec 2) (rngOk : Bool) : State :=
  let s := s.modPwr (fun p => { p with vinGood := true })
  let s := s.modWs (fun w => { w with epoch := (w.epoch + 1) % 65536 })
  let s := { s.modPwr (fun p => { p with
      vin := (Config.reading s.free).toNat, vio := (Config.reading (s.free + 1)).toNat }) with free := s.free + 2 }
  let erase := s.eraseMode
  let s := if backupLost then (backupLoss s).alert 8 else s
  let s := if backupLost && erase && s.lc.state ≠ 0 && s.lc.state ≠ 5 then setVstate s 2 2 else s
  let s := tamperAtStart (bootSlot s) loops
  let s := { s with usb := s.vbus }
  if s.bkp.loops.any (fun l => l.active) then quarantine s 1
  else if s.bkp.unack then quarantine s 2
  else if s.vlt.vstate = 2 then quarantine s 3
  else if s.lc.state = 0 && !rngOk then quarantine s 4
  else
    let s := trainChannels s
    if s.lc.state = 5 then stopsOutOfService s
    else
      let s := occupySlots (openVault s)
      ptpPorts (loadTime s)

/-- A reset of a kind while VIN is good, and the start that follows (R433): the loops as they are, the random
source's self-test a free value. -/
def restart (s : State) (kind : Nat) : State :=
  let s := wiped s kind
  let loops : BitVec 2 := s.bkp.loops.zipIdx.foldl (fun w l => setBitTo w l.2 l.1.active) 0
  let ok := (Config.freeByte s.free).getLsbD 0
  startUp s.tick1 false loops ok

end Sys2Proof.Machine
end

