-- ==== Sys2Proof/Machine/Life.lean ====
section
/-! DEFINITION. Quarantine and the life cycle (chapter 17, R479 to R486), and the end of a vault operation, which a
life-cycle command may await. -/

namespace Sys2Proof.Machine

/-- The persisted configuration, the staging area, the keep bytes and the switch-over record are wiped (R482). -/
def wipePersisted (s : State) : State :=
  let s := { s with points := [], actions := [], hlist := Table.reset, chs := s.chs.map (fun (c : Chan) => { c with table := Table.reset }) }
  let s := s.modWs (fun w => { w with assigns := [], passes := [], loops := [], subs := [] })
  let s := s.modUpd (fun u => { u with state := 0, header := [], body := [], lock := 0 })
  s.modBkp (fun b => { b with keep := List.replicate 32 0, so := SoRec.reset })

/-- The transition a command makes from a state (R482): the new state; REPROVISION only while the vault is ERASED, and
only it and DECOMMISSION leave a QUARANTINE of cause 3, none one of cause 4 (R481). -/
def lcTarget (s : State) (cmd : Nat) : Option Nat :=
  let st := s.lc.state
  if s.lc.quar = 4 ∨ (s.lc.quar = 3 ∧ cmd ≠ 4 ∧ cmd ≠ 6) then none
  else match cmd with
    | 1 => if st = 1 ∨ st = 3 ∨ st = 4 then some 2 else none
    | 2 => if st = 2 ∨ st = 4 then some 3 else none
    | 3 => if st = 3 then some 4 else none
    | 4 => if st = 0 ∨ st = 5 then none else some 5
    | 5 => if st = 5 then some 0 else none
    | 6 => if s.vlt.vstate = 2 then some 1 else none
    | _ => none

/-- A transition is carried out (R486): committed, the pair role released, then the reset of kind LIFECYCLE with its
wipes. -/
def lcRun (cmd : Nat) (s : State) : State :=
  match lcTarget s cmd with
  | none => s
  | some new =>
    let old := s.lc.state
    let wipes : Bool := cmd = 1 || cmd = 4 || cmd = 6
    let vwipe : Bool := cmd = 4 || cmd = 6
    let s := if s.pair.role ≠ 0 && s.paired then pairLost s 5 else s
    let s := if wipes then wipePersisted s else s
    let s := (match cmd with
      | 1 => s.modVlt (fun v => { v with slots := v.slots.filter (fun p => p.1 < 2) })
      | 4 => (s.modVlt (fun v => { v with slots := [], vstate := 0 })).modBkp (fun b =>
          { b with bkek := false, bkekErased := b.bkekErased || b.bkek })
      | 6 => (makeRoot s).modVlt (fun v => { v with vstate := 0 })
      | _ => s)
    let s := if cmd = 2 then s.modBkp (fun b => { b with test := false }) else s
    let bits := (if wipes then 3 else 0) + if vwipe then 4 else 0
    let s := { s.modVlt (fun v => { v with
        owed := v.owed ++ [(0x0604, 0, [BitVec.ofNat 8 old, BitVec.ofNat 8 new, BitVec.ofNat 8 bits])] ++
          if cmd = 6 then [(0x0602, 0, [2, 0, 3])] else [] }) with lc := { s.lc with state := new } }
    restart s 5

/-- A life-cycle command (R485): refused with LC_ERR, carried out, or held until a vault operation ends. -/
def lcOp (cmd : Nat) (key : Byte) (confirm : BitVec 16) (s : State) : State :=
  let ok := key = 0xC3 && !(4 ≤ cmd && confirm.toNat ≠ s.ident.serial.toNat % 65536) && !s.pwr.warn &&
    (lcTarget s cmd).isSome && s.lc.waiting.isNone
  if !ok then { s with lc := { s.lc with lcErr := true } }
  else
    let s := { s with lc := { s.lc with lcErr := false } }
    if s.vlt.busy.isSome then { s with lc := { s.lc with waiting := some cmd } } else lcRun cmd s

/-- VAULT_OP_COMPLETE (R469), and the life-cycle command that awaited it (R473, R486). -/
def vaultOpCompleteOp (s : State) : State :=
  let s := vaultDone s
  match s.lc.waiting with
  | some cmd => lcRun cmd { s with lc := { s.lc with waiting := none } }
  | none => s

/-- RELEASE (R480): accepted in QUARANTINE of cause 1 or 2 with the vault SEALED and no loop active. -/
def releaseOp (key : Byte) (s : State) : State :=
  if key = 0xC3 && (s.lc.quar = 1 || s.lc.quar = 2) && s.vlt.vstate = 0 && !s.bkp.loops.any (fun l => l.active) then
    restart (s.modBkp (fun b => { b with unack := false })) 2
  else { s with lc := { s.lc with qerr := true } }

/- ### The commands -/

/-- VAULT_OP_COMPLETE (R469). -/
def execVaultOpComplete (s : State) : Host.Outcome State Fault Refusal :=
  .next (vaultOpCompleteOp s)

/-- RELEASE (R480). -/
def execRelease (key : Byte) (s : State) : Host.Outcome State Fault Refusal :=
  .next (ifReaches 0x48 (releaseOp key) s)

/-- COMMISSION (R482). -/
def execCommission (key : Byte) (confirm : BitVec 16) (s : State) : Host.Outcome State Fault Refusal :=
  .next (ifReaches 0x44 (lcOp 1 key confirm) s)

/-- ENTER_SERVICE (R482). -/
def execEnterService (key : Byte) (confirm : BitVec 16) (s : State) : Host.Outcome State Fault Refusal :=
  .next (ifReaches 0x44 (lcOp 2 key confirm) s)

/-- MAINTAIN (R482). -/
def execMaintain (key : Byte) (confirm : BitVec 16) (s : State) : Host.Outcome State Fault Refusal :=
  .next (ifReaches 0x44 (lcOp 3 key confirm) s)

/-- DECOMMISSION (R482). -/
def execDecommission (key : Byte) (confirm : BitVec 16) (s : State) : Host.Outcome State Fault Refusal :=
  .next (ifReaches 0x44 (lcOp 4 key confirm) s)

/-- RECLAIM (R482). -/
def execReclaim (key : Byte) (confirm : BitVec 16) (s : State) : Host.Outcome State Fault Refusal :=
  .next (ifReaches 0x44 (lcOp 5 key confirm) s)

/-- REPROVISION (R483). -/
def execReprovision (key : Byte) (confirm : BitVec 16) (s : State) : Host.Outcome State Fault Refusal :=
  .next (ifReaches 0x44 (lcOp 6 key confirm) s)

end Sys2Proof.Machine
end

