-- ==== Sys2Proof/Machine/Update.lean ====
section
/-! DEFINITION. Firmware update and timed activation (chapter 18, R492 to R505). -/

namespace Sys2Proof.Machine

/-- RESULT of a command. -/
def updResult (s : State) (r : Nat) : State := s.modUpd (fun u => { u with result := r })

/-- A RESULT the manual does not state: a free value of the field. -/
def updFreeResult (s : State) : State := updResult s.tick1 ((Config.freeByte s.free).toNat % 32)

/- ### Transfers (R496 to R499) -/

/-- LOAD with the bytes DMA read at HUB_UPD_ADDR (R496 to R498); without Bus Master Enable nothing is read. -/
def loadOp (bytes : List Byte) (s : State) : State :=
  let ofs := fld (s.reg 0xA0010) 0 26
  let len := fld (s.reg 0xA0014) 0 21
  let part := padTo len bytes
  if !s.mayDma 0 then s
  else if ofs = 0 then
    if len ≠ 256 then updFreeResult s
    else
      let r := hdrCheck s (s.upd.lock = 1) part
      if r = 0 then takeHeader s 1 0 0 0 part else updResult s r
  else if s.upd.lock ≠ 0 ∧ s.upd.lock ≠ 1 then updResult s 2
  else if s.upd.lock = 0 ∨ s.upd.state ≠ 1 then updResult s 19
  else if len = 0 ∨ 2 ^ 20 < len then updFreeResult s
  else if ofs ≠ 256 + s.upd.body.length ∨ s.upd.missing < len then updResult s 10
  else updResult (takeBody s part) 1

/-- ABORT by the holding source (R497): the RESULT is not stated. -/
def abortUpd (s : State) : State := updEnds s.tick1 0 ((Config.freeByte s.free).toNat % 32)

/-- UPDATE_ABORT, the host's command. -/
def updateAbortOp (s : State) : State := if s.upd.lock = 1 then abortUpd s else updResult s 19

/-- An acknowledgement (R499). -/
def updAck (s : State) (port res : Nat) (seq : BitVec 16) : State :=
  let next := if s.upd.lock = 2 then 256 + s.upd.body.length else 0
  s.emit (.updAck port ([4, BitVec.ofNat 8 res] ++ bytesLE 2 seq.toNat ++ bytesLE 4 next ++ [0, 0, 0, 0]))

/-- The port takes update frames: NET_EN, its link, and firmware that runs (R492, R499). -/
def updPort (s : State) (port : Nat) : Bool :=
  port < 2 && bitN (s.reg 0xA0024) port && (s.net port).up && s.lc.quar = 0

/-- The sender holds the lock (R499). -/
def updHolds (s : State) (port : Nat) (mac : BitVec 48) : Bool :=
  s.upd.lock = 2 && s.upd.port = port && s.upd.mac = mac

/-- UPDATE_HEADER. -/
def updateHeaderOp (port : Nat) (mac : BitVec 48) (seq : BitVec 16) (bytes : List Byte) (s : State) : State :=
  if !updPort s port then s
  else
    let h := padTo 256 bytes
    let r := hdrCheck s (updHolds s port mac) h
    if r = 0 then updAck (takeHeader s 2 (1 + port) port mac h) port 1 seq else updAck s port r seq

/-- UPDATE_CHUNK of 1 to 1,024 bytes. -/
def updateChunkOp (port : Nat) (mac : BitVec 48) (seq : BitVec 16) (offset : Nat) (bytes : List Byte) (s : State) : State :=
  if !updPort s port then s
  else if s.upd.lock ≠ 0 && !updHolds s port mac then updAck s port 2 seq
  else if s.upd.lock = 0 || s.upd.state ≠ 1 then updAck s port 19 seq
  else if bytes.isEmpty || 1024 < bytes.length then updAck s port 4 seq
  else if offset ≠ 256 + s.upd.body.length || s.upd.missing < bytes.length then updAck s port 10 seq
  else updAck (takeBody s bytes) port 1 seq

/-- UPDATE_ABORT_FRAME. -/
def updateAbortFrameOp (port : Nat) (mac : BitVec 48) (seq : BitVec 16) (s : State) : State :=
  if !updPort s port then s
  else if updHolds s port mac then updAck (abortUpd s) port 1 seq
  else updAck s port (if s.upd.lock = 0 then 19 else 2) seq

/-- STAGING_VERIFIED: both digests are computed (R497). -/
def stagingVerifiedOp (s : State) : State :=
  if s.upd.state ≠ 2 then s
  else if digestsOk s.upd.header s.upd.body then updEnds s 3 1 else updEnds s 0 9

/-- STAGING_TIMEOUT: 60 s without body data (R497). -/
def stagingTimeoutOp (s : State) : State := if s.upd.state = 1 then updEnds s 0 20 else s

/- ### Activation (R500 to R503) -/

/-- Every channel with a joined terminal has PR_HOLD_EN set (R503). -/
def holdsSet (s : State) : Bool :=
  (List.range 8).all (fun n => !s.fitted n || s.reg (0x80020 + 4 * n) &&& 0xFFF = 0 || bitN (s.dioReg n 0xE0) 15)

/-- The instant of HUB_UPD_TIME, rounded up to a sample boundary. -/
def updInstant (s : State) : Instant := ceilSample (s.regInstant 0xA0018)

/-- The refusals of ACTIVATE (R500, R503, R505); 0 when none holds. With PARTNER the staged image is the partner's. -/
def activateCheck (s : State) (target : Nat) : Nat :=
  let u := s.upd
  let t := updInstant s
  if target = 3 then 19
  else if (if target = 1 then u.state = 4 ∨ u.pState = 4 else u.state ≠ 3) then 19
  else if !s.timeValid then 12
  else if giga ≤ (s.reg 0xA0018).toNat ∨ t < s.time.now + giga ∨ s.time.now + 604800 * giga < t then 13
  else match target with
    | 0 => if s.pair.role ≠ 0 ∧ (s.pair.partnerRole = 2 ∨ s.pair.partnerRole = 3) then 16 else 0
    | 1 => if u.pState = 3 ∧ u.pFmt = u.running.mirFmt then 0 else 17
    | _ =>
      if !(u.pState = 3 ∧ u.pFmt = hdrMirFmt u.header) then 17 else if holdsSet s then 0 else 18

/-- ACTIVATE. -/
def activateOp (target : BitVec 2) (s : State) : State :=
  let k := target.toNat
  let r := activateCheck s k
  if r ≠ 0 then updResult s r
  else
    let t := updInstant s
    let s := s.modUpd (fun u =>
      { u with result := 1, target := k, armedAt := t, state := if k = 1 then u.state else 4,
               pState := if k = 0 then u.pState else 4 })
    if k = 0 then s else s.mirror (.armed (some t))

/-- DISARM. -/
def disarmOp (s : State) : State := if s.upd.state = 4 ∨ s.upd.pState = 4 then disarm s 21 else updResult s 19

/-- The staged image is copied into the inactive slot, which becomes TRIAL; a failed re-check leaves the old one (R501). -/
def copyStaged (s : State) : State :=
  let u := s.upd
  if hdrSigOk u.header && digestsOk u.header u.body then
    let img := imageOf u.header
    let payload : List Byte := [if u.slotB then 0 else 1, 1, BitVec.ofNat 8 img.major, BitVec.ofNat 8 img.minor] ++
      bytesLE 2 img.chBuild ++ bytesLE 2 img.mirFmt
    s.modUpd (fun u => { u with
      state := 0, header := [], body := [], slotB := !u.slotB, trial := true, revert := none
      slotAImg := if u.slotB then img else u.slotAImg, slotBImg := if u.slotB then u.slotBImg else img
      owed := u.owed ++ [(2, payload)] })
  else
    s.modUpd (fun u => { u with
      state := 0, header := [], body := [], owed := u.owed ++ [(1, updStatePayload u 4 0 9)] })

/-- The planned restart (R389, R501): each channel sends HOLD as its PR_HOLD_EN asks, then a reset of kind PLANNED. -/
def plannedReset (s : State) (copy : Bool) : State :=
  let s := (List.range 8).foldl (fun s n => if s.present n then guardHoldOp n s else s) s
  if copy then
    let t := s.upd.trial
    let s := copyStaged s
    -- the reset itself is no end of the slot that was running
    let trial := s.upd.trial
    let s := restart (s.modUpd (fun u => { u with trial := false })) 4
    let s := s.modUpd (fun u => { u with trial := if trial then true else t })
    if s.pwr.state = 0 then s.modPwr (fun p => { p with state := 4 }) else s
  else restart s 4

/-- PLANNED_RESTART at T; the partner's alone leaves this module running (R503). -/
def plannedRestartOp (s : State) : State :=
  if s.upd.armedAt ≤ s.time.now ∧ s.timeValid then
    let s := if s.upd.pState = 4 then s.modUpd (fun u => { u with pState := 0, pSec := 0, pFmt := 0 }) else s
    if s.upd.state = 4 then plannedReset s true else s
  else s

/-- The slot is confirmed (R502). -/
def confirmed (s : State) : State :=
  let u := s.upd
  let floor := max u.floor u.running.secVer
  updRec (s.modUpd (fun u => { u with trial := false, floor := floor, result := 1 })) 4
    [if u.slotB then 1 else 0, BitVec.ofNat 8 floor]

/-- CONFIRM. -/
def confirmOp (s : State) : State := if s.upd.trial then confirmed s else updResult s 19

/-- AUTO_CONFIRM after CONFIRM_S seconds of point service. -/
def autoConfirmOp (s : State) : State :=
  if s.upd.trial && s.pwr.service && fld (s.reg 0xA0024) 16 16 ≠ 0 then confirmed s else s

/-- REVERT (R502): a planned restart into the other slot. -/
def revertOp (s : State) : State :=
  if s.upd.trial then plannedReset (s.modUpd (fun u => { u with revert := some 0, result := 1 })) false
  else updResult s 19

/-- PUSH (R503). -/
def pushOp (s : State) : State :=
  if s.pair.role = 1 && s.mirrors && s.upd.state = 3 then
    let u := s.upd
    (s.modUpd (fun u => { u with
      result := 1, pState := 3, pSec := hdrSecVer u.header % 256, pFmt := hdrMirFmt u.header })).mirror (.image u.header u.body)
  else updResult s 19

/- ### The commands -/

/-- UPDATE_LOAD (R498). -/
def execUpdateLoad (bytes : List Byte) (s : State) : Host.Outcome State Fault Refusal :=
  .next (ifReaches 0xA0000 (loadOp bytes) s)

/-- UPDATE_ABORT (R497). -/
def execUpdateAbort (s : State) : Host.Outcome State Fault Refusal :=
  .next (ifReaches 0xA0000 updateAbortOp s)

/-- UPDATE_HEADER (R499). -/
def execUpdateHeader (port : Nat) (mac : BitVec 48) (seq : BitVec 16) (bytes : List Byte) (s : State) : Host.Outcome State Fault Refusal :=
  .next (updateHeaderOp port mac seq bytes s)

/-- UPDATE_CHUNK (R499). -/
def execUpdateChunk (port : Nat) (mac : BitVec 48) (seq : BitVec 16) (offset : Nat) (bytes : List Byte) (s : State) : Host.Outcome State Fault Refusal :=
  .next (updateChunkOp port mac seq offset bytes s)

/-- UPDATE_ABORT_FRAME (R499). -/
def execUpdateAbortFrame (port : Nat) (mac : BitVec 48) (seq : BitVec 16) (s : State) : Host.Outcome State Fault Refusal :=
  .next (updateAbortFrameOp port mac seq s)

/-- STAGING_VERIFIED (R497). -/
def execStagingVerified (s : State) : Host.Outcome State Fault Refusal :=
  .next (stagingVerifiedOp s)

/-- STAGING_TIMEOUT (R497). -/
def execStagingTimeout (s : State) : Host.Outcome State Fault Refusal :=
  .next (stagingTimeoutOp s)

/-- ACTIVATE (R500). -/
def execActivate (target : BitVec 2) (s : State) : Host.Outcome State Fault Refusal :=
  .next (ifReaches 0xA0000 (activateOp target) s)

/-- DISARM (R500). -/
def execDisarm (s : State) : Host.Outcome State Fault Refusal :=
  .next (ifReaches 0xA0000 disarmOp s)

/-- PLANNED_RESTART (R501). -/
def execPlannedRestart (s : State) : Host.Outcome State Fault Refusal :=
  .next (plannedRestartOp s)

/-- CONFIRM (R502). -/
def execConfirmSlot (s : State) : Host.Outcome State Fault Refusal :=
  .next (ifReaches 0xA0000 confirmOp s)

/-- AUTO_CONFIRM (R502). -/
def execAutoConfirm (s : State) : Host.Outcome State Fault Refusal :=
  .next (autoConfirmOp s)

/-- REVERT (R502). -/
def execRevert (s : State) : Host.Outcome State Fault Refusal :=
  .next (ifReaches 0xA0000 revertOp s)

/-- PUSH (R503). -/
def execPush (s : State) : Host.Outcome State Fault Refusal :=
  .next (ifReaches 0xA0000 pushOp s)

end Sys2Proof.Machine
end

