-- ==== Sys2Proof/Machine/HostPort.lean ====
section
/-! DEFINITION. The host port (chapter 04): functions and their resets, MSI-X, errors, the link, the SMBus and the
other signals of the HOST and AUX connectors. -/

namespace Sys2Proof.Machine

/- ### Function resets (R104 to R107) -/

/-- The transaction registers of a function's own copy take their reset values (R107). -/
def txnRegsReset (s : State) (fn : Nat) : State :=
  let base := fn * 0x1000000 + 0x10000
  { s with regs := s.regs.filter (fun p => !(base ≤ p.1 && p.1 < base + 0x30)) }

/-- A ring of a function that is reset: disabled, its indexes and caches reset (R104). -/
def ringReset (s : State) (k : Nat) : State :=
  { s.setReg (ringBase k) (s.reg (ringBase k) &&& 0xFE) with rings := amDel s.rings k }

/-- The event ring of a function that is reset: its records stay held (R134). -/
def evReset (s : State) (b : Nat) : State :=
  let r := s.ev b
  (s.setReg (evBase b) (s.reg (evBase b) &&& 0xF0)).modEv b (fun _ => { EvRing.reset with lost := r.lost, queue := r.queue })

/-- A function is reset as by an FLR (R104, R107, R529). -/
def fnReset (s : State) (b : Nat) (busy : Bool) : State :=
  let s := (List.range 16).foldl (fun s r => ringReset s (16 * b + r)) s
  let s := txnRegsReset (txnFnReset (evReset s b) b) b
  s.modFn b (fun f =>
    { Fn.reset with flrBusy := busy, withheld := f.withheld, declCmd := f.declCmd, declRes := f.declRes, declId := f.declId, declOver := f.declOver })

/-- FLR of virtual function `b`. -/
def flrOp (b : Nat) (s : State) : State :=
  if b = 0 ∨ !s.fnEn b ∨ (s.fn b).flrBusy then s else trigger (fnReset s b true) 1

/-- Every virtual function is reset and VF Enable cleared (R94, R105). -/
def vfsOff (s : State) : State :=
  let s := (List.range s.host.numVfs).foldl (fun s i => fnReset s (i + 1) false) s
  { s with host := { s.host with vfEnable := false } }

/-- The physical function is reset as by its FLR (R105): function 0 first, so that the records of the virtual functions'
resets are held for it (R107). -/
def pfReset (s : State) (busy : Bool) : State :=
  let s := fnReset s 0 busy
  let s := if s.host.vfEnable then vfsOff s else s
  let s := s.setReg 0x4F000 0
  trigger { s with host := { s.host with vfEnable := false, numVfs := 0, alert := s.host.alert &&& 1 } } 1

/-- PF_FLR. -/
def pfFlrOp (s : State) : State := if (s.fn 0).flrBusy then s else pfReset s true

/-- FLR_DONE. -/
def flrDoneOp (fn : Nat) (s : State) : State := s.modFn fn (fun f => { f with flrBusy := false })

/-- HOST_PORT_RESET (R106): the link goes down, which sets LINK_DOWN after the clearing. -/
def hostPortResetOp (cause : HostResetCause) (s : State) : State :=
  let up := s.host.speed ≠ 0
  let s := pfReset s false
  let s := { s with host := { s.host with
    speed := 0, width := 0
    perst := s.host.perst || cause = .perst, ready := s.host.ready && cause ≠ .perst } }
  if up then s.alert 9 else s

/-- PERST_RELEASE (R103). -/
def perstReleaseOp (s : State) : State := { s with host := { s.host with perst := false } }

/-- ENDPOINT_READY (R103, R430). -/
def endpointReadyOp (s : State) : State :=
  if s.host.perst || !s.pwr.vinGood then s
  else
    let s := { s with host := { s.host with ready := true } }
    if s.pwr.state = 0 then s.modPwr (fun p => { p with state := 1 }) else s

/-- The widest width the module shares with a link partner of so many lanes (R90). -/
def commonWidth (lanes : Nat) : Nat := if 4 ≤ lanes then 4 else if 2 ≤ lanes then 2 else 1

/-- PCIE_LINK_UP (R90, R112), with the partner's highest rate (1 for 2.5, 2 for 5, 3 for 8 GT/s) and lanes: the
fastest common rate and the widest common width. -/
def pcieLinkUpOp (speed width : Nat) (s : State) : State :=
  if s.host.perst || !s.pwr.vinGood || speed = 0 || width = 0 then s
  else
    let cnt := if s.host.speed = 0 then satInc 255 s.host.upCnt else s.host.upCnt
    { s with host := { s.host with speed := min 3 speed, width := commonWidth width, upCnt := cnt } }

/- ### SR-IOV, bus mastering and MSI-X (R94, R95, R99, R529) -/

/-- No virtual function is offered (R108, R484). -/
def State.noVfs (s : State) : Bool := s.lc.quar ≠ 0 || s.lc.state = 5

/-- VF_ENABLE_WRITE. -/
def vfEnableOp (en : Bool) (num : Nat) (s : State) : State :=
  let h := s.host
  let total := if s.noVfs then 0 else 63
  let num := if h.vfEnable ∨ total < num then h.numVfs else num
  if h.vfEnable && !en then
    let s := vfsOff s
    trigger { s with host := { s.host with numVfs := num } } 1
  else { s with host := { h with numVfs := num, vfEnable := en && 0 < total } }

/-- Index records that changed while the function might issue no DMA (R119). -/
def staleIdx (s : State) (b : Nat) : State :=
  if !s.mayWrite b then s
  else
    let s := (List.range 16).foldl (fun s r =>
      if (s.ring (16 * b + r)).stale then
        writeIdx (s.modRing (16 * b + r) (fun r => { r with stale := false })) (16 * b + r)
      else s) s
    if (s.ev b).stale then writeEvIdx (s.modEv b (fun r => { r with stale := false })) b else s

/-- What waited for DMA and MSI-X of a function goes out, in order (R529). -/
def dmaResumes (s : State) (b : Nat) : State :=
  let s := (List.range 16).foldl (fun s r => if (amGet s.rings (16 * b + r)).isSome then flushRing s (16 * b + r) else s) s
  let s := s.flushEv b
  let s := staleIdx s b
  if (s.fn b).msixEn then sendPending s b else s

/-- A configuration request that reaches function `b` (R103, R104): nothing arrives while PERST_N is asserted or VIN is
absent, and an endpoint that is not ready, or a function in its FLR, answers with Configuration Request Retry Status. -/
def ifConfig (b off : Nat) (f : State → State) (s : State) : State :=
  if !s.fnEn b || s.host.perst || !s.pwr.vinGood then s
  else if !s.host.ready || (s.fn b).flrBusy then s.emit (.configRetry b off)
  else f s

/-- BUS_MASTER_CHANGE. -/
def busMasterOp (b : Nat) (bme d3hot : Bool) (s : State) : State :=
  if !s.fnEn b then s
  else
    let s := s.modFn b (fun f => { f with bme := bme, d3hot := d3hot })
    if s.mayDma b then dmaResumes s b else s

/-- MSIX_UNMASK of one vector, or of the function. -/
def msixUnmaskOp (b : Nat) (vector : Option Nat) (s : State) : State :=
  let s := s.modFn b (fun f =>
    match vector with
    | some v => { f with table := amSet f.table v { f.entry v with masked := false } }
    | none => { f with fmask := false })
  if (s.fn b).msixEn then sendPending s b else s

/- ### Errors (R100 to R102) -/

/-- An error is logged in a function's AER registers. -/
def logAer (s : State) (b : Nat) (k : AerKind) : State :=
  s.modFn b (fun f => { f with aer := if f.aer.contains k then f.aer else f.aer ++ [k] })

/-- Where an error stands in the AER status registers of the base specification: correctable or not, and the bit
(PRESUMED, log 17). -/
def AerKind.place : AerKind → Bool × Nat
  | .tlp .receiver => (true, 0) | .tlp .badTlp => (true, 6) | .tlp .badDllp => (true, 7)
  | .tlp .replayRollover => (true, 8) | .tlp .replayTimeout => (true, 12) | .correctedInternal => (true, 15)
  | .tlp .dataLink => (false, 4) | .tlp .poisonedWrite => (false, 12) | .tlp .poisonedCompletion => (false, 12)
  | .tlp .flowControl => (false, 13) | .completionTimeout => (false, 14)
  | .tlp .urCompletion => (false, 20) | .tlp .caCompletion => (false, 15) | .tlp .unexpected => (false, 16)
  | .tlp .overflow => (false, 17) | .tlp .malformed => (false, 18)
  | .tlp .ecrcRequest => (false, 19) | .tlp .ecrcCompletion => (false, 19) | .tlp .unsupported => (false, 20)
  | .uncorrectableInternal => (false, 22)

/-- An AER status register of a function. -/
def Fn.aerStatus (f : Fn) (correctable : Bool) : Word :=
  f.aer.foldl (fun w k => if k.place.1 = correctable then setBit w k.place.2 else w) 0

/-- Write-1-to-clear of an AER status register. -/
def Fn.aerClear (f : Fn) (correctable : Bool) (w : Word) : Fn :=
  { f with aer := f.aer.filter (fun k => !(k.place.1 == correctable && bitN w k.place.2)) }

/-- A request that reaches function `b` and that it does not serve: logged, and answered where it is non-posted
(R97, R100). -/
def unsupportedRequest (s : State) (b off : Nat) (posted : Bool) : State :=
  let s := logAer s b (.tlp .unsupported)
  if posted then s else s.emit (.unsupported b off)

/-- A memory request of function `b`'s BARs with Memory Space Enable; else an Unsupported Request (R97). -/
def ifMse (b off : Nat) (posted : Bool) (f : State → State) (s : State) : State :=
  if !s.fnEn b then s else if !(s.fn b).mse then unsupportedRequest s b off posted else f s

/-- A correctable error is counted (R112). -/
def countCorr (s : State) : State := { s with host := { s.host with corrCnt := satInc 65535 s.host.corrCnt } }

/-- The ring an error reached halts: FETCH_ERR in a descriptor fetch, BUF_ERR in a buffer read, INTERNAL (R102,
R147). -/
def ringFails (s : State) (b : Nat) (ring : Option Nat) (chain : List (BitVec 512)) (internal : Bool) : State :=
  match ring with
  | some r =>
    if 16 ≤ r then s
    else haltRing s (16 * b + r) (if internal then 3 else if chain.isEmpty then 1 else 2) (chain.map frmCookie) 1
  | none => s

/-- TLP_ERROR. -/
def tlpErrorOp (e : TlpError) (b : Nat) (ring : Option Nat) (chain : List (BitVec 512)) (s : State) : State :=
  match e with
  | .receiver | .badTlp | .badDllp | .replayTimeout | .replayRollover => countCorr (logAer s 0 (.tlp e))
  | .dataLink | .flowControl | .overflow | .malformed | .unexpected => logAer s 0 (.tlp e)
  | .poisonedWrite | .ecrcRequest | .unsupported => logAer s b (.tlp e)
  | .poisonedCompletion | .ecrcCompletion | .urCompletion | .caCompletion =>
    ringFails (logAer s b (.tlp e)) b ring chain false

/-- COMPLETION_TIMEOUT. -/
def completionTimeoutOp (b r : Nat) (chain : List (BitVec 512)) (s : State) : State :=
  ringFails (logAer s b .completionTimeout) b (some r) chain false

/-- DMA_READ_FAILURE. -/
def dmaReadFailureOp (b r : Nat) (chain : List (BitVec 512)) (s : State) : State := ringFails s b (some r) chain false

/-- HOST_PORT_BUFFER_ERROR. -/
def bufferErrorOp (multi : Bool) (b : Nat) (ring : Option Nat) (chain : List (BitVec 512)) (s : State) : State :=
  if multi then ringFails (logAer s b .uncorrectableInternal) b ring chain true
  else countCorr (logAer s 0 .correctedInternal)

/- ### The SMBus (R112) -/

/-- HUB_HP_LINK. -/
def linkWord (h : HostPort) : Word := mkFld 0 2 h.speed ||| mkFld 2 3 h.width ||| mkFld 8 8 h.upCnt ||| mkFld 16 16 h.corrCnt

/-- Zone channels of the ordering code. -/
def State.chanCount (s : State) : Nat := if s.ident.eight then 8 else 4

/-- IDENT. -/
def identBytes (s : State) : List Byte :=
  let i := s.upd.running
  bytesLE 2 0x1F4B ++ bytesLE 2 (if s.ident.eight then 0x0810 else 0x0410) ++
  [BitVec.ofNat 8 s.chanCount, BitVec.ofNat 8 s.ident.hwIssue, BitVec.ofNat 8 i.major, BitVec.ofNat 8 i.minor] ++
  bytesLE 2 i.patch ++ bytesLE 2 i.chBuild ++ bytesLE 8 s.ident.serial.toNat

/-- HEALTH; the die temperature is a reading (log 42). -/
def healthBytes (s : State) : List Byte :=
  let chs := (List.range 8).foldl (fun n k => n + (s.ch k).state.code * 16 ^ k) 0
  [BitVec.ofNat 8 s.pwr.state, BitVec.ofNat 8 s.lc.state] ++ bytesLE 2 s.host.alert.toNat ++
  bytesLE 2 (Config.reading s.free).toNat ++ bytesLE 2 s.pwr.vin ++ bytesLE 4 chs ++
  [BitVec.ofNat 8 s.pair.role,
   BitVec.ofNat 8 ((if s.timeValid then 1 else 0) + (if s.host.speed ≠ 0 then 2 else 0) +
     if s.pwr.backupLost then 4 else 0)] ++ bytesLE 2 (linkWord s.host).toNat

/-- The address of the module on the SMBus: SMB_ADDR as sampled at VIN good (R109). -/
def State.smbAddr (s : State) : Nat := if s.pwr.smbHigh then 0x5D else 0x5C

/-- The SMBus answers its address from 150 ms after VIN good (R112; log 10): 37,500,000 ticks of the time island. -/
def ifSmbus (addr : Nat) (f : State → State) (s : State) : State :=
  if s.pwr.vinGood && s.pwr.vinTick + 37500000 ≤ s.ticks && addr = s.smbAddr then f s else s

/-- Packet Error Code of SMBus 2.0: CRC-8 of x^8 + x^2 + x + 1 (PRESUMED, log 10). -/
def smbusPec (bytes : List Byte) : Byte :=
  bytes.foldl (fun c b => (List.range 8).foldl (fun (c : Byte) _ =>
    if c.getLsbD 7 then (c <<< 1) ^^^ 0x07 else c <<< 1) (c ^^^ b)) 0

/-- A read on the SMBus: the data, with the Packet Error Code over the whole transaction when the host clocks one more
byte. -/
def smbusAnswer (s : State) (code : Nat) (block pec : Bool) (data : List Byte) : State :=
  let a := s.smbAddr
  let sent := (if block then [BitVec.ofNat 8 data.length] else []) ++ data
  let head : List Byte := [BitVec.ofNat 8 (2 * a), BitVec.ofNat 8 code, BitVec.ofNat 8 (2 * a + 1)]
  s.emit (.smbus (data ++ if pec then [smbusPec (head ++ sent)] else []))

/-- SMBUS_IDENT. -/
def smbusIdentOp (pec : Bool) (s : State) : State := smbusAnswer s 1 true pec (identBytes s)

/-- SMBUS_HEALTH. -/
def smbusHealthOp (pec : Bool) (s : State) : State := smbusAnswer s.tick1 2 true pec (healthBytes s)

/-- SMBUS_READ_ALERT. -/
def smbusReadAlertOp (pec : Bool) (s : State) : State := smbusAnswer s 3 false pec (bytesLE 2 s.host.alert.toNat)

/-- SMBUS_CLEAR_ALERT. -/
def smbusClearAlertOp (bits : BitVec 16) (s : State) : State := clearAlert s (bits.zeroExtend 32)

/- ### Other happenings (R417, R511, R518) -/

/-- DIE_TEMPERATURE_LIMIT. -/
def dieTempOp (s : State) : State := s.alert 6

/-- UNCORRECTABLE_MEMORY_ERROR (R112, R414, R417). -/
def memErrorOp (s : State) : State := yieldTo ((s.alert 7).modPair (fun p => { p with memErr := true })) 2

/-- USB_VBUS_SENSE. -/
def usbVbusOp (above : Bool) (s : State) : State := { s with vbus := above, usb := above && s.pwr.vinGood }

/- ### The commands -/

/-- PERST_RELEASE (R103). -/
def execPerstRelease (s : State) : Host.Outcome State Fault Refusal :=
  .next (perstReleaseOp s)

/-- ENDPOINT_READY (R103). -/
def execEndpointReady (s : State) : Host.Outcome State Fault Refusal :=
  .next (endpointReadyOp s)

/-- HOST_PORT_RESET (R106). -/
def execHostPortReset (cause : HostResetCause) (s : State) : Host.Outcome State Fault Refusal :=
  .next (hostPortResetOp cause s)

/-- DOORBELL: a write of BAR2 (R96, R97, R121, R122). -/
def execDoorbell (b r : Nat) (be : BitVec 8) (data : BitVec 64) (s : State) : Host.Outcome State Fault Refusal :=
  .next (ifMse b (8 * r) true (ifServed (doorbellOp b r be data)) s)

/-- FLR (R104). -/
def execFlr (b : Nat) (s : State) : Host.Outcome State Fault Refusal :=
  .next (ifConfig b 0x1008 (flrOp b) s)

/-- PF_FLR (R105). -/
def execPfFlr (s : State) : Host.Outcome State Fault Refusal :=
  .next (ifConfig 0 0x1008 pfFlrOp s)

/-- FLR_DONE (R104). -/
def execFlrDone (fn : Nat) (s : State) : Host.Outcome State Fault Refusal :=
  .next (flrDoneOp fn s)

/-- VF_ENABLE_WRITE (R94). -/
def execVfEnableWrite (vfEnable : Bool) (numVfs : Nat) (s : State) : Host.Outcome State Fault Refusal :=
  .next (ifConfig 0 0x100C (vfEnableOp vfEnable numVfs) s)

/-- BUS_MASTER_CHANGE (R529). -/
def execBusMasterChange (fn : Nat) (bme d3hot : Bool) (s : State) : Host.Outcome State Fault Refusal :=
  .next (ifConfig fn 4 (busMasterOp fn bme d3hot) s)

/-- MSIX_UNMASK (R99). -/
def execMsixUnmask (fn : Nat) (vector : Option Nat) (s : State) : Host.Outcome State Fault Refusal :=
  .next (msixUnmaskOp fn vector s)

/-- TLP_ERROR (R100). -/
def execTlpError (e : TlpError) (fn : Nat) (ring : Option Nat) (chain : List (BitVec 512)) (s : State) : Host.Outcome State Fault Refusal :=
  .next (tlpErrorOp e fn ring chain s)

/-- COMPLETION_TIMEOUT (R100). -/
def execCompletionTimeout (fn ring : Nat) (chain : List (BitVec 512)) (s : State) : Host.Outcome State Fault Refusal :=
  .next (completionTimeoutOp fn ring chain s)

/-- DMA_READ_FAILURE (R102). -/
def execDmaReadFailure (fn ring : Nat) (chain : List (BitVec 512)) (s : State) : Host.Outcome State Fault Refusal :=
  .next (dmaReadFailureOp fn ring chain s)

/-- SMBUS_IDENT (R112). -/
def execSmbusIdent (s : State) (addr : Nat := 0x5C) (pec : Bool := false) : Host.Outcome State Fault Refusal :=
  .next (ifSmbus addr (smbusIdentOp pec) s)

/-- SMBUS_HEALTH (R112). -/
def execSmbusHealth (s : State) (addr : Nat := 0x5C) (pec : Bool := false) : Host.Outcome State Fault Refusal :=
  .next (ifSmbus addr (smbusHealthOp pec) s)

/-- SMBUS_READ_ALERT (R112). -/
def execSmbusReadAlert (s : State) (addr : Nat := 0x5C) (pec : Bool := false) : Host.Outcome State Fault Refusal :=
  .next (ifSmbus addr (smbusReadAlertOp pec) s)

/-- SMBUS_CLEAR_ALERT (R112). -/
def execSmbusClearAlert (bits : BitVec 16) (s : State) (addr : Nat := 0x5C) : Host.Outcome State Fault Refusal :=
  .next (ifSmbus addr (smbusClearAlertOp bits) s)

/-- PCIE_LINK_UP (R90). -/
def execPcieLinkUp (speed width : Nat) (s : State) : Host.Outcome State Fault Refusal :=
  .next (pcieLinkUpOp speed width s)

/-- HOST_PORT_BUFFER_ERROR (R100). -/
def execHostPortBufferError (multi : Bool) (fn : Nat) (ring : Option Nat) (chain : List (BitVec 512)) (s : State) : Host.Outcome State Fault Refusal :=
  .next (bufferErrorOp multi fn ring chain s)

/-- USB_VBUS_SENSE (R518). -/
def execUsbVbusSense (above : Bool) (s : State) : Host.Outcome State Fault Refusal :=
  .next (usbVbusOp above s)

/-- DIE_TEMPERATURE_LIMIT (R511). -/
def execDieTemperatureLimit (s : State) : Host.Outcome State Fault Refusal :=
  .next (dieTempOp s)

/-- UNCORRECTABLE_MEMORY_ERROR (R417). -/
def execUncorrectableMemoryError (s : State) : Host.Outcome State Fault Refusal :=
  .next (memErrorOp s)

end Sys2Proof.Machine
end

