-- ==== Sys2Proof/Machine/Power.lean ====
section
/-! DEFINITION. Power: the power-fail warning and what follows it, the resets software and the watchdog ask for, and the
beginning of point service (chapter 15, R427 to R441). -/

namespace Sys2Proof.Machine

/- ### VIN and the start (R428 to R431) -/

/-- VIN_GOOD after VIN was absent: a start of kind POWER_ON; SMB_ADDR is sampled (R109). -/
def vinGoodOp (backupLost : Bool) (loops : BitVec 2) (rngOk : Bool) (s : State) : State :=
  if s.pwr.vinGood then s else 
    startUp ((wiped s 0).modPwr (fun p => { p with vinTick := s.ticks, smbHigh := s.ident.smbHigh })) backupLost loops rngOk

/-- A fit channel enters IN_SERVICE and its guard arms (R384, R431). -/
def channelServes (s : State) (n : Nat) : State :=
  if s.fitted n ∧ (s.ch n).state = .starting ∧ (s.ch n).isoOk then guardKickOp n (setChState s n .inService) else s

/-- POINT_SERVICE_BEGIN (R431): channels IN_SERVICE, the first placement pass, rings and records. A STANDBY or SYNCING
module only brings up its channels and basin 0's event ring; a start that halted begins no service (R432, R484). -/
def pointServiceOp (s : State) : State :=
  if !s.pwr.vinGood || s.pwr.begun || s.pwr.warn || s.lc.quar ≠ 0 || s.lc.state = 5 then s
  else
    let s := s.modPwr (fun p => { p with begun := true })
    let s := (List.range 8).foldl channelServes s
    if s.standby then ringsServe s
    else beginService (applyPlan s s.time.now (decidePlan s 0))

/- ### Power failure (R436 to R439) -/

/-- Every transaction not applied is LOST; the identifiers are kept for the record and the next point service (R87,
R436). -/
def txnsLostAtWarning (s : State) : State :=
  let lost := txnsLost s
  let s := s.modPwr (fun p => { p with lost := p.lost ++ lost })
  (s.txns.map (·.1)).foldl (fun s c =>
    if 64 ≤ c then loseTxn s c
    else if (s.txn c).state = .idle then s
    else s.modTxn c (fun t =>
      { t with state := .idle, result := 12, staged := [], waitPrep := [], goSent := false, waitGo := [], applied := [] })) s

/-- POWER_FAIL_WARNING (R436). -/
def powerWarningOp (s : State) : State :=
  if !s.pwr.vinGood || s.pwr.warn then s
  else
    let armed : Bool := s.upd.state = 4 || s.upd.pState = 4
    let s := s.modPwr (fun p => { p with
      warn := true, warnAt := s.time.now, warnCls := s.time.cls, warnValid := s.timeValid, cancelled := armed })
    let s := yieldTo (s.alert 1) 1
    disarm (txnsLostAtWarning s) 15

/-- POWER_FAIL_FREEZE at 100 µs (R437). -/
def powerFreezeOp (s : State) : State := if s.pwr.warn then s.modPwr (fun p => { p with frozen := true }) else s

/-- The record of R439. -/
def failRecord (s : State) : PfRec :=
  let p := s.pwr
  let last := p.recs.foldl (fun m x => max m x.2.rseq) 0
  { rseq := last + 1, epoch := s.ws.epoch, cls := p.warnCls,
    flags := (if p.warnValid then 1 else 0) + (if p.returned then 2 else 0) + if p.cancelled then 4 else 0,
    warnAt := p.warnAt, lastTxn := s.lastTxn, lost := (p.lost.map (·.2)).take 66, deliv := p.deliv,
    idx := (s.rings.filter (fun r => r.2.state ≠ RingState.disabled)).map (fun (r : Nat × Ring) => (r.1, (r.2.hw, r.2.cpl))) }

/-- POWER_FAIL_RECORD into the slot after the newest record (R438); VIN back meanwhile, the module then resets
(R437). -/
def powerRecordOp (s : State) : State :=
  if !s.pwr.frozen || s.pwr.recorded then s
  else
    let r := failRecord s
    let s := s.modPwr (fun p => { p with recorded := true, state := 5, recs := amSet p.recs (r.rseq % 8) r })
    if s.pwr.returned then restart s 1 else s

/-- VIN_COLLAPSE after a warning: the module is without power. -/
def vinCollapseOp (s : State) : State :=
  if !s.pwr.warn then s
  else
    let s := wiped s 0
    { s.modPwr (fun p => { p with vinGood := false }) with usb := false }

/-- VIN_RETURN during or after the hold-up: the record completes, then a reset of kind POWER_FAIL (R437). -/
def vinReturnOp (s : State) : State :=
  if !s.pwr.warn then s
  else
    let s := s.modPwr (fun p => { p with returned := true })
    if s.pwr.recorded then restart s 1 else s

/- ### Resets on command (R433, R435) -/

/-- WARM. -/
def warmOp (key : Byte) (s : State) : State := if key = 0xA5 ∧ !s.pwr.warn then restart s 2 else s

/-- WATCHDOG: the hub watchdog expired; an active module first yields (R417, R433). -/
def watchdogOp (s : State) : State := if s.pwr.vinGood then restart (yieldTo s 3) 3 else s

/-- CHANNEL: a channel that is OUT_OF_SERVICE or in FAULT restarts; what was passed to it completes UNREACHABLE, and
its memories are wiped (R435). -/
def channelRestartOp (n : Nat) (key : Byte) (s : State) : State :=
  let st := (s.ch n).state
  if key ≠ 0xA5 ∨ s.pwr.warn then s
  else if !s.fitted n ∨ (st ≠ .outOfService ∧ st ≠ .fault) then s.modPwr (fun p => { p with resetErr := true })
  else
    let s := channelFlightsLost (frameCancelsLost (s.modPwr (fun p => { p with resetErr := false })) n) n
    let lo := chBase n + 0x50000
    let s := { s with regs := s.regs.filter (fun p =>
      !((lo + 0x1000 ≤ p.1 && p.1 < lo + 0x1600) || (lo + 0x11000 ≤ p.1 && p.1 < lo + 0x11600))) }
    let s := setChState s n .starting
    setSvc (s.modCh n (fun c => { wipedChan true c with prior := .outOfService, lossCnt := c.lossCnt })) n .out

/-- CHANNEL_RESTART_DONE: the channel enters OUT_OF_SERVICE (R435), its outputs safe where its guard holds a state
(R384, R388). -/
def channelRestartDoneOp (n : Nat) (s : State) : State :=
  if (s.ch n).state = .starting ∧ s.pwr.begun then
    let d := (Config.freeWord s.free).toNat % 65536
    let s := (s.modCh n (fun c => { c with xbarUp := true, isoOk := true, tb := { c.tb with delay := d } })).tick1
    applyAllSafe (setChState s n .outOfService) n
  else s

/- ### The commands -/

/-- VIN_GOOD (R429, R430, R463). -/
def execVinGood (backupLost : Bool) (loops : BitVec 2) (rngOk : Bool) (s : State) : Host.Outcome State Fault Refusal :=
  .next (vinGoodOp backupLost loops rngOk s)

/-- POINT_SERVICE_BEGIN (R431). -/
def execPointServiceBegin (s : State) : Host.Outcome State Fault Refusal :=
  .next (pointServiceOp s)

/-- POWER_FAIL_WARNING (R436). -/
def execPowerFailWarning (s : State) : Host.Outcome State Fault Refusal :=
  .next (powerWarningOp s)

/-- POWER_FAIL_FREEZE (R437). -/
def execPowerFailFreeze (s : State) : Host.Outcome State Fault Refusal :=
  .next (powerFreezeOp s)

/-- POWER_FAIL_RECORD (R438). -/
def execPowerFailRecord (s : State) : Host.Outcome State Fault Refusal :=
  .next (powerRecordOp s)

/-- VIN_COLLAPSE (R437). -/
def execVinCollapse (s : State) : Host.Outcome State Fault Refusal :=
  .next (vinCollapseOp s)

/-- VIN_RETURN (R437). -/
def execVinReturn (s : State) : Host.Outcome State Fault Refusal :=
  .next (vinReturnOp s)

/-- WARM (R433). -/
def execWarm (key : Byte) (s : State) : Host.Outcome State Fault Refusal :=
  .next (ifReaches 0xC000C (warmOp key) s)

/-- CHANNEL (R435). -/
def execChannelRestart (ch : Nat) (key : Byte) (s : State) : Host.Outcome State Fault Refusal :=
  .next (ifReaches 0xC000C (channelRestartOp ch key) s)

/-- CHANNEL_RESTART_DONE (R435). -/
def execChannelRestartDone (ch : Nat) (s : State) : Host.Outcome State Fault Refusal :=
  .next (channelRestartDoneOp ch s)

/-- WATCHDOG (R433). -/
def execWatchdog (s : State) : Host.Outcome State Fault Refusal :=
  .next (watchdogOp s)

end Sys2Proof.Machine
end

