-- ==== Sys2Proof/Machine/RegWrite.lean ====
section
/-! DEFINITION. Register writes (chapter 03): byte enables, write-1-to-clear fields, registers that act on write,
staging, and the apply instant of a transaction. Writes of the MSI-X tables and of configuration space stand here too
(chapter 04). -/

namespace Sys2Proof.Machine

/- ### One word (R70) -/

/-- The bits a write brings into a W1C or WO field: bytes not enabled bring zeros. -/
def written (be : BitVec 4) (w : Word) : Word := w &&& beMask be

/-- The upper half of a word was written all ones, which clears a saturating counter (R112, R222, R292, R327). -/
def onesHigh (be : BitVec 4) (w : Word) : Bool := fld (written be w) 16 16 = 0xFFFF

/-- Change the enabled bytes of the RW bits of a word; a word without an entry in the map holds none. -/
def storeWord (s : State) (key : Nat) (be : BitVec 4) (w : Word) : State :=
  match regRow (key % 0x1000000) with
  | none => s
  | some row =>
    let old := s.reg key
    let new := clampReg (key % 0x1000000) ((old &&& ~~~row.mask) ||| (beMerge be old w &&& row.mask))
    let s := s.setReg key new
    if mirroredKey key then s.mirror (.register key new) else s

/-- The low word of a 64-bit register is held until its high word is written (R70). -/
def storeLow (s : State) (key : Nat) (be : BitVec 4) (w : Word) : State :=
  let old := match amGet s.low64 key with | some x => x | none => s.reg key
  { s with low64 := amSet s.low64 key (beMerge be old w) }

/-- The high word of a 64-bit register takes the held low word with it (R70). -/
def storeHigh (s : State) (key : Nat) (be : BitVec 4) (w : Word) : State :=
  let s := (match amGet s.low64 (key - 4) with
    | some l => { storeWord s (key - 4) 15 l with low64 := amDel s.low64 (key - 4) }
    | none => s)
  storeWord s key be w

/- ### Hub sub-blocks -/

/-- HUB_ID (R489). -/
def writeId (o : Nat) (be : BitVec 4) (w : Word) (s : State) : State :=
  let v := written be w
  let key : Byte := BitVec.ofNat 8 (fld v 8 8)
  if o = 0x44 then
    let cmd := fld v 0 3
    if 1 ≤ cmd ∧ cmd ≤ 6 then lcOp cmd key (BitVec.ofNat 16 (fld v 16 16)) s else s
  else if o = 0x48 then (if bitN v 4 then releaseOp key s else s)
  else s

/-- HUB_TXN of function `fn` (R89). -/
def writeTxn (fn o : Nat) (be : BitVec 4) (w : Word) (s : State) : State :=
  if o = 0 then
    match fld (written be w) 0 3 with
    | 1 => beginOp fn s
    | 2 => commitOp fn false s
    | 3 => commitOp fn true s
    | 4 => rollbackOp fn s
    | _ => s
  else storeWord s (fn * 0x1000000 + 0x10000 + o) be w

/-- HUB_HP (R112). -/
def writeHp (o : Nat) (be : BitVec 4) (w : Word) (s : State) : State :=
  if o = 0x10 then clearAlert s (written be w)
  else if 0x100 ≤ o ∧ o < 0x200 ∧ o % 4 = 0 then
    if onesHigh be w then s.modFn ((o - 0x100) / 4) (fun f => { f with withheld := 0 }) else s
  else storeWord s (0x20000 + o) be w

/-- The registers of module ring `k` (R144, R147): while the ring is not DISABLED, BASE and WB keep their values and
CTL only takes a change of EN to 0. A change of MOD may make the condition of R142 true. -/
def writeRing (k o : Nat) (be : BitVec 4) (w : Word) (s : State) : State :=
  let base := ringBase k
  let st := (s.ring k).state
  if o = 0 then
    let v := beMerge be (s.reg base) w
    if bitN v 0 then ringEnableOp (k / 16) (k % 16) v s
    else match st with
      | .disabled => s.setReg base (v &&& 0xFE)
      | .halted => haltedDisableOp (k / 16) (k % 16) s
      | .active | .waitService => ringDisableOp (k / 16) (k % 16) s
      | .disabling => s
  else if o = 8 ∨ o = 16 then (if st = .disabled then storeLow s (base + o) be w else s)
  else if o = 12 ∨ o = 20 then (if st = .disabled then storeHigh s (base + o) be w else s)
  else if o = 0x1C then
    if bitN (written be w) 4 then s.modRing k (fun r => { r with dbErr := false }) else s
  else if o = 4 then
    let s := storeWord s (base + 4) be w
    ringNotify s k (ringDue s k)
  else storeWord s (base + o) be w

/-- The registers of the event ring of basin `b` (R115, R122, R147). -/
def writeEv (b o : Nat) (be : BitVec 4) (w : Word) (s : State) : State :=
  let base := evBase b
  let off : Bool := (s.ev b).state = .disabled
  if o = 0 then evCtlOp b (beMerge be (s.reg base) w) s
  else if o = 8 ∨ o = 16 then (if off then storeLow s (base + o) be w else s)
  else if o = 12 ∨ o = 20 then (if off then storeHigh s (base + o) be w else s)
  else if o = 0x18 then
    let cons := if be.getLsbD 0 && be.getLsbD 1 then fld w 0 16 else (s.ev b).cons
    evconsOp b (mkFld 0 16 cons ||| mkBit 16 (bitN (written be w) 16)) s
  else if o = 0x1C then
    if bitN (written be w) 4 then s.modEv b (fun r => { r with dbErr := false }) else s
  else if o = 4 then
    let s := storeWord s (base + 4) be w
    evNotify s b (evDue s b)
  else storeWord s (base + o) be w

/-- HUB_WS (R48, R66, R191) as function `fn` writes it. -/
def writeWs (fn o : Nat) (be : BitVec 4) (w : Word) (s : State) : State :=
  let v := written be w
  let own := fn * 0x1000000 + 0x40000 + o
  if o ≤ 0x40 ∧ (s.fn fn).declCmd ≠ 0 then s.modFn fn (fun f => { f with declOver := true })
  else if o < 0x40 then storeWord s own be w
  else if o = 0x40 then
    (if 1 ≤ fld v 0 3 ∧ fld v 0 3 ≤ 4 then s.modFn fn (fun f => { f with declCmd := fld v 0 3 }) else s)
  else if o = 0x44 then (if bitN v 1 then s.modFn fn (fun f => { f with declOver := false }) else s)
  else if 0x1010 ≤ o ∧ o < 0x1030 ∧ o % 4 = 0 then
    match fld v 0 2 with
    | 1 => takeOutOp ((o - 0x1010) / 4) s
    | 2 => bringInOp ((o - 0x1010) / 4) s
    | _ => s
  else if o = 0xF010 then
    mirselOp fn (fld (beMerge be (BitVec.ofNat 32 (s.fn fn).mirsel) w) 0 14) s
  else if 0xF100 ≤ o ∧ o < 0xF200 ∧ o % 4 = 0 then
    let b := (o - 0xF100) / 4
    if s.ws.removing.contains b then s
    else
      let s := storeWord s own be w
      if bitN v 30 then basinRemoveOp b s else s
  else storeWord s own be w

/-- HUB_TIME (R198, R199, R219, R222). -/
def writeTime (o : Nat) (be : BitVec 4) (w : Word) (s : State) : State :=
  let v := written be w
  if o = 0x10 then (if s.time.cls = 5 then s else storeWord s 0x50010 be w)
  else if o = 0x28 then
    match fld v 0 2 with
    | 1 => setTimeOp s
    | 2 => invalidateOp s
    | _ => s
  else if o = 0x38 then offinOp v s
  else if o = 0x60 then clearInt s 0x50060 v
  else if o = 0x80 then ptpCfgWritten (storeWord s 0x50080 be w)
  else if 0x100 ≤ o ∧ o < 0x240 then
    let q := (o - 0x100) / 32
    if o % 32 = 0x10 then
      if onesHigh be w then { s with tsqs := s.tsqs.modify q (fun t => { t with ovf := 0 }) } else s
    else if o % 32 = 0x14 then (if bitN v 0 then tsqPopOp q s else s)
    else s
  else storeWord s (0x50000 + o) be w

/-- HUB_NETA and HUB_NETB (R365). -/
def writeNet (p o : Nat) (be : BitVec 4) (w : Word) (s : State) : State :=
  let key := 0x60000 + 0x10000 * p + o
  if o = 0x20 then clearInt s key (written be w)
  else
    let s := storeWord s key be w
    if o = 0 ∨ o = 0x0C ∨ o = 0x18 then netCtlWritten s p else s

/-- HUB_PAIR (R426). -/
def writePair (o : Nat) (be : BitVec 4) (w : Word) (s : State) : State :=
  if o = 0 then pairCfgWritten (storeWord s 0x80000 be w) (s.reg 0x80000)
  else if o = 8 then
    match fld (written be w) 0 2 with
    | 1 => swapOp s
    | 2 => selftestOp s
    | _ => s
  else storeWord s (0x80000 + o) be w

/-- HUB_VLT (R488). -/
def writeVault (o : Nat) (be : BitVec 4) (w : Word) (s : State) : State :=
  let v := written be w
  if o = 0 then
    let cmd := fld v 0 4
    if 1 ≤ cmd ∧ cmd ≤ 10 then vaultOp cmd (fld v 16 9) s else s
  else if o = 0x80 then clearInt s 0x90080 v
  else if o = 0x100 then slotselOp (fld (beMerge be (s.reg 0x90100) w) 0 9) s
  else if 0x1000 ≤ o ∧ o < 0x1400 ∧ o % 4 = 0 then
    let i := (o - 0x1000) / 4
    let old := match amGet s.vlt.inBuf i with | some x => x | none => 0
    s.modVlt (fun t => { t with inBuf := amSet t.inBuf i (beMerge be old w) })
  else storeWord s (0x90000 + o) be w

/-- HUB_UPD (R505); the bytes that LOAD reads by DMA are free values. -/
def writeUpd (o : Nat) (be : BitVec 4) (w : Word) (s : State) : State :=
  let v := written be w
  if o = 0 then
    match fld v 0 4 with
    | 1 => loadOp ((List.range (fld (s.reg 0xA0014) 0 21)).map (fun i => Config.freeByte (2097152 * s.free + i))) s.tick1
    | 2 => updateAbortOp s
    | 3 => activateOp (BitVec.ofNat 2 (fld v 4 2)) s
    | 4 => disarmOp s
    | 5 => confirmOp s
    | 6 => revertOp s
    | 7 => pushOp s
    | _ => s
  else if o = 8 then storeLow s 0xA0008 be w
  else if o = 12 then storeHigh s 0xA000C be w
  else storeWord s (0xA0000 + o) be w

/-- HUB_BKP_CAL as it reads (R458). -/
def bkpCalWord (b : Backup) : Word := mkFld 0 10 (b.rate % 1024).toNat ||| mkBit 16 b.autoCal

/-- HUB_BKP (R458, R491). -/
def writeBkp (o : Nat) (be : BitVec 4) (w : Word) (s : State) : State :=
  let v := written be w
  if o = 4 then
    if be.getLsbD 0 then
      s.modBkp (fun b => { b with test := if s.lc.state = 3 then b.test else bitN w 0, syncEn := bitN w 1 })
    else s
  else if o = 8 then
    match fld v 0 2 with
    | 1 => rtcLoadOp s
    | 2 => soClearOp s
    | _ => s
  else if o = 0x24 then
    let n := beMerge be (bkpCalWord s.bkp) w
    s.modBkp (fun b => { b with rate := sgn 10 (fld n 0 10), autoCal := bitN n 16 })
  else if o = 0x28 then clearInt s 0xB0028 v
  else if o = 0x40 ∨ o = 0x48 then
    almWritten s ((o - 0x40) / 8) (fun a => { a with value := beMerge be a.value w &&& 0xFF1F3F3F })
  else if o = 0x44 ∨ o = 0x4C then
    almWritten s ((o - 0x44) / 8) (fun a =>
      { a with cfg := if be.getLsbD 0 then BitVec.ofNat 6 (fld w 0 6) else a.cfg, fired := a.fired && !bitN v 8 })
  else if 0x100 ≤ o ∧ o < 0x180 ∧ o % 4 = 0 then
    s.modBkp (fun b => { b with keep := b.keep.modify ((o - 0x100) / 4) (fun x => beMerge be x w) })
  else if o = 0x200 then (if be.getLsbD 0 then tamperModeOp w s else s)
  else storeWord s (0xB0000 + o) be w

/-- HUB_PWR (R435, R441). -/
def writePwr (o : Nat) (be : BitVec 4) (w : Word) (s : State) : State :=
  let v := written be w
  let key : Byte := BitVec.ofNat 8 (fld v 8 8)
  if o = 0 then (if bitN v 6 then s.modPwr (fun p => { p with backupLost := false }) else s)
  else if o = 8 then (if be.getLsbD 1 then s.modPwr (fun p => { p with warmCnt := fld w 8 8 }) else s)
  else if o = 0x0C then
    match fld v 0 2 with
    | 1 => warmOp key s
    | 2 => channelRestartOp (fld v 4 3) key s
    | _ => s
  else s

/-- A word of a hub sub-block; `fn` matters where functions have copies of their own. -/
def writeHub (fn off : Nat) (be : BitVec 4) (w : Word) (s : State) : State :=
  let o := off % 65536
  match off / 65536 with
  | 0x0 => writeId o be w s
  | 0x1 => writeTxn fn o be w s
  | 0x2 => writeHp o be w s
  | 0x3 =>
    if o < 0x8000 then writeRing (o / 32) (o % 32) be w s
    else if o < 0x8800 then writeEv ((o - 0x8000) / 32) (o % 32) be w s
    else storeWord s off be w
  | 0x4 => writeWs fn o be w s
  | 0x5 => writeTime o be w s
  | 0x6 => writeNet 0 o be w s
  | 0x7 => writeNet 1 o be w s
  | 0x8 => writePair o be w s
  | 0x9 => writeVault o be w s
  | 0xA => writeUpd o be w s
  | 0xB => writeBkp o be w s
  | 0xC => writePwr o be w s
  | _ => s

/- ### Channel sub-blocks -/

/-- CHn_TA (R245, R251). -/
def writeTa (n o : Nat) (be : BitVec 4) (w : Word) (s : State) : State :=
  let key := chBase n + 0x20000 + o
  if o = 0 then
    if !be.getLsbD 0 then s else if bitN w 0 then tableOnOp n s else tableOffOp n s
  else if o = 0x10 then
    calStartOp n (beMerge be (s.reg key) w &&& 0xFFF ||| mkBit 16 (bitN (written be w) 16)) s
  else storeWord s key be w

/-- CHn_LE (R273, R292). -/
def writeLe (n o : Nat) (be : BitVec 4) (w : Word) (s : State) : State :=
  let key := chBase n + 0x30000 + o
  if o = 4 then (if onesHigh be w then s.modCh n (fun c => { c with feTrips := 0 }) else s)
  else if o = 0x10 then snapselOp n (fld (beMerge be (s.reg key) w) 0 10) s
  else storeWord s key be w

/-- CHn_CANA and CHn_CANB (R302, R307, R327): new bit timing waits for bus idle. -/
def writeCan (n x o : Nat) (be : BitVec 4) (w : Word) (s : State) : State :=
  let key := chBase n + 0x50000 + 0x10000 * x + o
  if o = 0 then
    canCtlOp n x ((beMerge be (s.reg key) w &&& 0xFFFFFFEF) ||| mkBit 4 (bitN (written be w) 4)) s
  else if o = 8 then (if onesHigh be w then s.modCan n x (fun c => { c with busoffCnt := 0 }) else s)
  else if o = 0x34 then (if written be w = all32 then s.modCan n x (fun c => { c with fdExc := 0 }) else s)
  else
    let s := storeWord s key be w
    if o = 0x10 ∨ o = 0x14 then s.modCan n x (fun c => { c with pendingMode := true }) else s

/-- CHn_SEG0 and CHn_SEG1 (R352, R355, R366): MODE 3 is refused and leaves MODE unchanged. -/
def writeSeg (n x o : Nat) (be : BitVec 4) (w : Word) (s : State) : State :=
  let key := chBase n + 0x70000 + 0x10000 * x + o
  if o = 0 then
    let old := s.reg key
    let w := if fld (beMerge be old w) 0 2 = 3 then (w &&& ~~~3) ||| (old &&& 3) else w
    storeWord s key be w
  else
    let s := storeWord s key be w
    if o = 0x18 ∧ !bitN (s.reg key) 0 then plcaSet s n x false else s

/-- CHn_DIO (R375, R378, R382, R383, R387, R397). -/
def writeDio (n o : Nat) (be : BitVec 4) (w : Word) (s : State) : State :=
  let key := chBase n + 0x90000 + o
  let v := written be w
  if o = 4 then clearCause0 s n v
  else if o = 8 then clearCause1 s n v
  else if o = 0xA8 then clrOcOp n (BitVec.ofNat 8 (fld v 0 8)) s
  else if o = 0xFC then (if bitN v 1 then s.modDio n (fun c => { c with tripped := false }) else s)
  else if o = 0xA4 then
    let joined := (List.range 8).foldl (fun m d => if s.joinedDo n d then setBit m d else m) (0 : Word)
    storeWord s key be (w ||| (s.reg key &&& joined))
  else
    let s' := storeWord s key be w
    if o = 0x14 ∨ (0x40 ≤ o ∧ o < 0x80) then inputsChanged s s' n else s'

/-- CHn_ADC (R391, R398). -/
def writeAdc (n o : Nat) (be : BitVec 4) (w : Word) (s : State) : State :=
  let s' := storeWord s (chBase n + 0xA0000 + o) be w
  if o < 0x80 ∧ o % 16 = 0 then inputsChanged s s' n else s'

/-- A word of a channel block. -/
def writeChannel (n o : Nat) (be : BitVec 4) (w : Word) (s : State) : State :=
  let r := o % 65536
  match o / 65536 with
  | 0x2 => writeTa n r be w s
  | 0x3 => writeLe n r be w s
  | 0x4 => slotWriteOp n (r / 64) (r % 64 / 4) be w s
  | 0x5 => writeCan n 0 r be w s
  | 0x6 => writeCan n 1 r be w s
  | 0x7 => writeSeg n 0 r be w s
  | 0x8 => writeSeg n 1 r be w s
  | 0x9 => writeDio n r be w s
  | 0xA => writeAdc n r be w s
  | _ => storeWord s (chBase n + o) be w

/-- A word at an offset of the physical function's BAR0 changes, now or at an apply instant. -/
def writeReg (fn off : Nat) (be : BitVec 4) (w : Word) (s : State) : State :=
  if off % 4 ≠ 0 then s
  else if off < 0x100000 then writeHub fn off be w s
  else if off < 0x900000 then writeChannel (off / 0x100000 - 1) (off % 0x100000) be w s
  else s

/- ### Direct and staged writes (R72, R75, R78, R97) -/

/-- The offset a function's write names in the physical function's map: none where its view has no register that it
may write (R97). -/
def viewOffset (fn off : Nat) : Option Nat :=
  if fn = 0 then some off
  else if 0x5000 ≤ off then none
  else (viewKey fn off).map (fun k => k % 0x1000000)

/-- Only VEC of another basin's rings is written from the physical function, and a basin view does not write VEC
(R147). -/
def ringForeign (fn off : Nat) : Bool :=
  if 0x30000 ≤ off ∧ off < 0x38000 then
    if off % 32 = 0x18 then fn ≠ 0 else (off - 0x30000) / 512 ≠ fn
  else if 0x38000 ≤ off ∧ off < 0x38800 then (off - 0x38000) / 32 ≠ fn
  else false

/-- Command registers whose commands a STANDBY or SYNCING module answers with STATE_ERR (R400). -/
def answersStandby (off : Nat) : Bool :=
  off = 0x10000 || off = 0x40040 || (0x41010 ≤ off && off < 0x41030)

/-- A function's write reaches the register at an offset. -/
def writeReaches (s : State) (fn off : Nat) : Bool :=
  !ringForeign fn off && (s.reaches off || (answersStandby off && s.lc.quar = 0))

/-- The write is staged: the function's transaction is open, the register is stageable and in scope (R75, R78). -/
def stages (s : State) (fn off : Nat) : Bool :=
  (s.txn fn).state = .opened && (match regRow off with | some r => r.stage | none => false) &&
  (fn ≠ 0 || (match scopeBit off with | some b => (s.txn 0).scope / 2 ^ b % 2 == 1 | none => false))

/-- An expert register takes no direct write (R72). -/
def isExpert (off : Nat) : Bool := match regRow off with | some r => r.expert | none => false

/-- One word of a memory write to BAR0 (R72, R78). -/
def bar0Word (fn off : Nat) (be : BitVec 4) (w : Word) (s : State) : State :=
  match viewOffset fn off with
  | none => s
  | some a =>
    if !writeReaches s fn a then s
    else if stages s fn a then stageWord s fn a be w
    else if isExpert a then s
    else writeReg fn a be w s

/-- One word of a write that is staged; any other word is no STAGED_WRITE and changes nothing here. -/
def stagedWord (fn off : Nat) (be : BitVec 4) (w : Word) (s : State) : State :=
  match viewOffset fn off with
  | none => s
  | some a => if writeReaches s fn a && stages s fn a then stageWord s fn a be w else s

/-- A request of 1 to 8 bytes that crosses no 8-byte boundary (R70). -/
def accessOk (off len : Nat) : Bool := 1 ≤ len && off % 8 + len ≤ 8

/-- Byte enables of an access within its 8 bytes. -/
def accessBe (off len : Nat) : BitVec 8 := BitVec.ofNat 8 ((2 ^ len - 1) * 2 ^ (off % 8))

/-- The two words of an access with its data in their places, low word first (R9, R70). -/
def accessWords (off len : Nat) (data : BitVec 64) : List (Nat × BitVec 4 × Word) :=
  let be := accessBe off len
  let d := data <<< (8 * (off % 8))
  let base := off / 8 * 8
  ([(base, be.extractLsb' 0 4, d.extractLsb' 0 32), (base + 4, be.extractLsb' 4 4, d.extractLsb' 32 32)] :
    List (Nat × BitVec 4 × Word)).filter (fun x => !(x.2.1 == 0))

/-- A memory write that reaches function `fn`: discarded as Unsupported Request without Memory Space Enable or against
R70 (R97, R100). -/
def memWriteOp (fn off len : Nat) (data : BitVec 64) (word : Nat → BitVec 4 → Word → State → State) (s : State) : State :=
  ifMse fn off true (fun s =>
    if !accessOk off len then unsupportedRequest s fn off true
    else (accessWords off len data).foldl (fun s x => word x.1 x.2.1 x.2.2 s) s) s

/- ### MSI-X tables and configuration space (R94, R96, R99) -/

/-- One word of an MSI-X table; vectors that no longer wait behind a mask are sent. -/
def msixWord (fn off : Nat) (be : BitVec 4) (w : Word) (s : State) : State :=
  let v := off / 16
  if (if fn = 0 then 2048 else 64) ≤ v then s
  else
    let s := s.modFn fn (fun f =>
      let e := f.entry v
      let lo : Word := e.addr.truncate 32
      let hi : Word := (e.addr >>> 32).truncate 32
      let e := (match off % 16 with
        | 0 => { e with addr := hi ++ beMerge be lo w }
        | 4 => { e with addr := beMerge be hi w ++ lo }
        | 8 => { e with data := beMerge be e.data w }
        | _ => if be.getLsbD 0 then { e with masked := bitN w 0 } else e)
      { f with table := amSet f.table v e })
    if (s.fn fn).msixEn then sendPending s fn else s

/-- Bits that software writes in a configuration word without an effect of its own, and the reset value: the BARs of the
physical function and those of the virtual functions (R96), Device Control (R90), Link Control, Device Control 2, the AER
severities and masks and ECRC enables (R93, R100; log 17). -/
def cfgRow (fn off : Nat) : Option (Word × Word) :=
  if off = 0x1008 then some (0x70E0, 0x2000)
  else if off = 0x1018 then some (0x005FF030, 0x00462030)
  else if off = 0x1020 then some (0x005FF030, 0)
  else if off = 0x1024 then some (0x0000F1C1, 0x2000)
  else if off = 0x1064 then some (0x1F, 0)
  else if off = 0x1068 then some (0x140, 0xA0)
  else if fn ≠ 0 then none
  else if off = 0x10 then some (0xFF000000, 4)
  else if off = 0x18 ∨ off = 0x1040 then some (0xFFFFF000, 4)
  else if off = 0x20 ∨ off = 0x1038 then some (0xFFFF0000, 4)
  else if off = 0x1048 then some (0xFFFFF000, 4)
  else if off = 0x14 ∨ off = 0x1C ∨ off = 0x24 ∨ off = 0x103C ∨ off = 0x1044 ∨ off = 0x104C then some (all32, 0)
  else if off = 0x1058 then some (2, 0)
  else none

/-- A stored configuration word. -/
def cfgStored (s : State) (fn off : Nat) : Word :=
  match cfgRow fn off with
  | none => 0
  | some (_, reset) => match amGet (s.fn fn).cfg off with | some w => w | none => reset

/-- A configuration word changes in its writable bits. -/
def cfgStore (fn off : Nat) (be : BitVec 4) (w : Word) (s : State) : State :=
  match cfgRow fn off with
  | none => s
  | some (mask, _) =>
    let old := cfgStored s fn off
    let new := (old &&& ~~~mask) ||| (beMerge be old w &&& mask)
    s.modFn fn (fun f => { f with cfg := amSet f.cfg off new })

/-- A word of configuration space. The spec gives no offsets there: 0x004 is the Command register of the base
specification (MSE bit 1, BME bit 2); 0x1000 the power state, 0x1004 MSI-X control (bit 15 enable, bit 14 Function
Mask), 0x1008 Device Control (bit 15 starts an FLR), 0x100C VF Enable, 0x1010 NumVFs, 0x1014 and 0x101C AER status,
written 1 to clear, stand for the capabilities' registers (log 17). -/
def configWord (fn off : Nat) (be : BitVec 4) (w : Word) (s : State) : State :=
  let f := s.fn fn
  let v := written be w
  if off = 4 then
    if be.getLsbD 0 then busMasterOp fn (bitN w 2) f.d3hot (s.modFn fn (fun f => { f with mse := bitN w 1 })) else s
  else if off = 0x1000 then (if be.getLsbD 0 then busMasterOp fn f.bme (fld w 0 2 = 3) s else s)
  else if off = 0x1004 then
    if be.getLsbD 1 then
      let s := s.modFn fn (fun f => { f with msixEn := bitN w 15, fmask := bitN w 14 })
      if (s.fn fn).msixEn then sendPending s fn else s
    else s
  else if off = 0x1008 then
    let s := cfgStore fn off be w s
    if bitN v 15 then (if fn = 0 then pfFlrOp s else flrOp fn s) else s
  else if fn = 0 ∧ off = 0x100C then (if be.getLsbD 0 then vfEnableOp (bitN w 0) s.host.numVfs s else s)
  else if fn = 0 ∧ off = 0x1010 then
    if be.getLsbD 0 && be.getLsbD 1 then vfEnableOp s.host.vfEnable (fld w 0 16) s else s
  else if off = 0x1014 ∨ off = 0x101C then s.modFn fn (fun f => f.aerClear (off = 0x101C) v)
  else cfgStore fn off be w s

/-- REGISTER_WRITE. -/
def registerWriteOp (space : Space) (fn off len : Nat) (data : BitVec 64) (s : State) : State :=
  match space with
  | .bar0 => memWriteOp fn off len data (bar0Word fn) s
  | .bar2 => ifMse fn off true (fun s =>
      if !accessOk off len then unsupportedRequest s fn off true
      else ifServed (doorbellOp fn (off / 8) (accessBe off len) (data <<< (8 * (off % 8)))) s) s
  | .msixTable => memWriteOp fn off len data (msixWord fn) s
  | .config => ifConfig fn off (fun s =>
      if accessOk off len then (accessWords off len data).foldl (fun s x => configWord fn x.1 x.2.1 x.2.2 s) s
      else s) s

/- ### The apply instant (R73, R74, R80) -/

/-- Every Watershed item is unpinned (R188). -/
def unpinWatershed (s : State) : State :=
  let t := { s.modWs (fun w => { w with loops := w.loops.map (fun (p : Nat × Loop) => (p.1, { p.2 with pin := false })) }) with
    points := s.points.map (fun (p : Nat × Point) => (p.1, { p.2 with pinned := false })) }
  trigger (dirFrom s t) 6

/-- LEVEL of a sub-block takes effect: BASIC unpins its items (R74, R179). -/
def levelApplied (s : State) (off : Nat) : State :=
  if s.expertAt off then s
  else
    let s := { s with pins := s.pins.filter (fun p => !(p / 65536 == off / 65536)) }
    if off / 65536 = 4 then unpinWatershed s else s

/-- One staged word is applied; an expert word pins its item (R73). -/
def applyStaged (fn : Nat) (s : State) (e : Staged) : State :=
  let off := e.key % 0x1000000
  if off % 65536 = 0xFFFC ∧ isExpert off then levelApplied (storeWord s off e.be e.data) off
  else
    let s := writeReg fn off e.be e.data s
    let item := pinItem off
    if isExpert off ∧ !s.pins.contains item then { s with pins := s.pins ++ [item] } else s

/-- The part of a transaction a staged word belongs to: a channel, or 8 for the hub. -/
def stagedPart (key : Nat) : Nat :=
  let off := key % 0x1000000
  if 0x100000 ≤ off ∧ off < 0x900000 then off / 0x100000 - 1 else 8

/-- The channel has a time of its own to apply at; for one that has failed since its acknowledgement the hub's counts. -/
def keepsTime (s : State) (n : Nat) : Bool :=
  (s.ch n).state = .inService || (s.ch n).state = .outOfService || (s.ch n).state = .linkLost

/-- Parts of a transaction whose own time has reached T and that have not applied (R80). -/
def partsDue (s : State) (t : Txn) : List Nat :=
  (t.channels ++ [8]).filter (fun n => !t.parts.contains n &&
    decide (t.apply ≤ if n < 8 ∧ keepsTime s n then s.chNow n else s.time.now))

/-- TXN_APPLY: the instant T of a pending transaction that every channel has acknowledged (R80, R82, R85, R89): every
part whose time has reached T applies, and the transaction ends with the last. Context 64 is Watershed's: its plan is
carried out at T of hub time. -/
def txnApplyOp (c : Nat) (s : State) : State :=
  let t := s.txn c
  let due := partsDue s t
  if t.state ≠ .pending ∨ (if c = 64 then decide (s.time.now < t.apply) else due.isEmpty) ∨ t.waitGo ≠ [] ∨
      (!t.goSent && !t.channels.isEmpty) then s
  else
    let s := (if c = 64 then
        match s.ws.plan with
        | some p => applyPlan s t.apply p
        | none => s
      else (t.staged.filter (fun e => due.contains (stagedPart e.key))).foldl (applyStaged (if c < 64 then c else 0)) s)
    if c ≠ 64 ∧ (t.channels ++ [8]).any (fun n => !t.parts.contains n && !due.contains n) then
      s.modTxn c (fun t => { t with parts := t.parts ++ due })
    else
      let keys := t.staged.map (·.key)
      let s := { s with
        txns := s.txns.map (fun (p : Nat × Txn) =>
          if p.1 ≠ c ∧ p.2.state = .opened then (p.1, { p.2 with applied := p.2.applied ++ keys }) else p)
        lastTxn := t.id }
      endTxn s c 1

/- ### The commands -/

/-- REGISTER_WRITE (R70, R75). -/
def execRegisterWrite (space : Space) (fn off len : Nat) (data : BitVec 64) (s : State) : Host.Outcome State Fault Refusal :=
  .next (registerWriteOp space fn off len data s)

/-- STAGED_WRITE (R78). -/
def execStagedWrite (fn off len : Nat) (data : BitVec 64) (s : State) : Host.Outcome State Fault Refusal :=
  .next (memWriteOp fn off len data (stagedWord fn) s)

/-- TXN_APPLY (R80). -/
def execTxnApply (ctx : Nat) (s : State) : Host.Outcome State Fault Refusal :=
  .next (txnApplyOp ctx s)

end Sys2Proof.Machine
end

