-- ==== Sys2Proof/Machine/Read.lean ====
section
/-! DEFINITION. Register reads: what every register of BAR0 shows, the words a read latches, and LATCHING_READ (R9, R46,
R92, R97, R108, R194, R219, R444). -/

namespace Sys2Proof.Machine

/-- Word `i` (0, 1, 2) of a time in the layout of R194, with CLASS in the third. -/
def timeWord (t : Instant) (cls i : Nat) : Word :=
  match i with
  | 0 => BitVec.ofNat 32 (t % giga)
  | 1 => BitVec.ofNat 32 (t / giga)
  | _ => mkFld 0 16 (t / giga / 2 ^ 32) ||| mkFld 16 3 cls

/-- A signed number as a word. -/
def intWord (v : Int) : Word := BitVec.ofInt 32 v

/-- Word `i` of a list of bytes, least significant byte first. -/
def byteWord (bs : List Byte) (i : Nat) : Word := BitVec.ofNat 32 (getLE bs (4 * i) 4)

/-- PINS of a sub-block (R71): pinned items; in HUB_WS the pinned loops and points (R187). -/
def pinCount (s : State) (off : Nat) : Nat :=
  if off / 65536 = 4 then
    (s.ws.loops.filter (fun p => p.2.pin)).length + (s.points.filter (fun p => p.2.pinned)).length
  else (s.pins.filter (fun p => p / 65536 == off / 65536)).length

/-- A stored word as it reads; the level register shows PINS beside LEVEL (R71). -/
def storedWord (s : State) (key : Nat) : Word :=
  let off := key % 0x1000000
  match regRow off with
  | none => 0
  | some _ =>
    if off % 65536 = 0xFFFC ∧ isExpert off then s.reg key ||| mkFld 8 16 (pinCount s off) else s.reg key

/-- The high word of a 64-bit register: as the last read of its low word latched it (R9). -/
def highWord (s : State) (key : Nat) : Word :=
  match amGet s.high64 (key - 4) with
  | some w => w
  | none => if key = 0x50044 then 4 else 0

/-- The high word a read of the low word at `key` latches. -/
def latchHigh (s : State) (key : Nat) (w : Word) : State := { s with high64 := amSet s.high64 key w }

/- ### Hub sub-blocks -/

/-- HUB_ID (R489, R490). -/
def readId (s : State) (o : Nat) : Word :=
  let i := s.upd.running
  match o with
  | 0x00 => mkBit 0 (!s.ident.eight) ||| mkFld 4 4 s.chanCount ||| mkFld 8 8 s.ident.hwIssue
  | 0x04 => if s.ident.eight then 0xFF else 0x0F
  | 0x08 => mkFld 0 8 i.major ||| mkFld 8 8 i.minor ||| mkFld 16 16 i.patch
  | 0x0C => mkFld 0 16 i.chBuild ||| mkFld 16 16 i.mirFmt
  | 0x10 => s.ident.serial.truncate 32
  | 0x14 => highWord s 0x14
  | 0x40 => mkFld 0 3 s.lc.state ||| mkBit 3 s.lc.lcErr
  | 0x48 => mkFld 0 3 s.lc.quar ||| mkBit 3 s.lc.qerr
  | _ => 0

/-- STATE of a transaction context (R89). -/
def TxnState.code : TxnState → Nat
  | .idle => 0 | .opened => 1 | .preparing => 2 | .pending => 3

/-- HUB_TXN of function `fn` (R89, R107). -/
def readTxn (s : State) (fn o : Nat) : Word :=
  let t := (s.txn fn).shown
  match o with
  | 0x14 => mkFld 0 3 t.state.code ||| mkBit 3 t.err ||| mkFld 4 4 t.result ||| mkFld 16 13 t.staged.length
  | 0x18 => BitVec.ofNat 32 t.id
  | 0x1C => timeWord t.apply 0 0
  | 0x20 => timeWord t.apply 0 1
  | 0x24 => timeWord t.apply 0 2
  | 0x28 => BitVec.ofNat 32 s.lastTxn
  | 0x2C => mkFld 0 24 t.errAddr
  | _ => storedWord s (fn * 0x1000000 + 0x10000 + o)

/-- HUB_HP (R112). -/
def readHp (s : State) (fn o : Nat) : Word :=
  if o = 0 then linkWord s.host
  else if o = 4 then BitVec.ofNat 32 fn
  else if o = 0x10 then s.host.alert
  else if 0x100 ≤ o ∧ o < 0x200 then fnStat s ((o - 0x100) / 4)
  else storedWord s (0x20000 + o)

/-- HUB_RING (R147). -/
def readRing (s : State) (o : Nat) : Word :=
  if o < 0x8000 then
    match o % 32 with
    | 0x0C => highWord s (0x30000 + o)
    | 0x14 => highWord s (0x30000 + o)
    | 0x1C => ringStat (s.ring (o / 32))
    | _ => storedWord s (0x30000 + o)
  else if o < 0x8800 then
    let e := s.ev ((o - 0x8000) / 32)
    match o % 32 with
    | 0x0C => highWord s (0x30000 + o)
    | 0x14 => highWord s (0x30000 + o)
    | 0x18 => mkFld 0 16 e.cons
    | 0x1C => evStat e
    | _ => storedWord s (0x30000 + o)
  else storedWord s (0x30000 + o)

/-- SVC of a channel (R191). -/
def Svc.code : Svc → Nat
  | .inPool => 0 | .draining => 1 | .out => 2 | .absent => 3

/-- The larger reservation of a channel's link in steps of 8 Mbit/s, rounded up; 2.048 Mbit/s are 2,048 in the
account (R167, R191). -/
def xbarSteps (s : State) (n : Nat) : Nat :=
  let ls := placedLoops s
  (Rat.ceil (max (xbarIn s ls n) (xbarOut s ls n) / 8000)).toNat

/-- HUB_WS (R48, R191) as function `fn` reads it. -/
def readWs (s : State) (fn o : Nat) : Word :=
  let f := s.fn fn
  let w := s.ws
  if o = 0x44 then mkBit 0 (f.declCmd ≠ 0) ||| mkBit 1 f.declOver ||| mkFld 8 5 f.declRes ||| mkFld 16 16 f.declId
  else if o = 0x1004 then mkBit 0 w.plan.isSome ||| mkBit 1 w.trigger.isSome ||| mkFld 16 16 w.passCount
  else if 0x1010 ≤ o ∧ o < 0x1030 then
    let n := (o - 0x1010) / 4
    let v := w.svc.getD n .absent
    mkFld 4 2 v.code ||| mkBit 6 (w.svcErr.getD n false) |||
      mkFld 16 11 (if v = .draining then (toMove s n).length else 0)
  else if 0x1030 ≤ o ∧ o < 0x1050 then
    let n := (o - 0x1030) / 4
    let ls := placedLoops s
    let here := ls.filter (fun l => l.channel == n)
    mkFld 0 11 here.length ||| mkFld 11 5 (here.filter (fun l => l.slot < 16)).length ||| mkFld 16 9 (peakOf ls n) |||
      mkFld 25 7 (xbarSteps s n)
  else if o = 0xF004 then BitVec.ofNat 32 w.dirgen
  else if o = 0xF008 then mkFld 0 15 s.points.length
  else if o = 0xF00C then mkFld 0 16 w.epoch
  else if o = 0xF010 then mkFld 0 14 f.mirsel ||| mkFld 16 2 f.mirStat
  else if 0xF020 ≤ o ∧ o < 0xF040 then f.mirdata.getD ((o - 0xF020) / 4) 0
  else if 0xF100 ≤ o ∧ o < 0xF200 then
    let b := (o - 0xF100) / 4
    storedWord s (0x40000 + o) ||| mkBit 29 (s.vfPresent b) ||| mkBit 31 (w.removing.contains b)
  else storedWord s (fn * 0x1000000 + 0x40000 + o)

/-- STATE of the servo (R199). -/
def Servo.code : Servo → Nat
  | .arm => 0 | .freqEst => 1 | .track => 2

/-- A lateness counter word (R251). -/
def lateWord (t : Table) : Word := mkFld 0 16 t.late ||| mkFld 16 16 t.missed

/-- Reserved entries of the hub list in use: pending COMMIT_AT transactions and an armed activation (R223, R225). -/
def commitEntries (s : State) : Nat :=
  (s.txns.filter (fun p => p.1 ≤ 64 && p.2.state = .pending && p.2.isAt)).length +
    if s.upd.state = 4 ∨ s.upd.pState = 4 then 1 else 0

/-- HUB_TIME (R222, R251). -/
def readTime (s : State) (o : Nat) : Word :=
  let t := s.time
  let q := s.tsqs.getD ((o - 0x100) / 32) Tsq.reset
  if o = 0 then timeWord t.now t.cls 0
  else if o = 4 then t.latch1
  else if o = 8 then t.latch2
  else if o = 0x0C then
    mkFld 0 3 t.cls ||| mkBit 3 t.locked ||| mkFld 4 2 t.servo.code ||| mkBit 6 t.step.isSome ||| mkBit 7 t.cmdErr |||
      mkFld 16 16 t.stepCnt
  else if o = 0x40 then intWord t.incr
  else if o = 0x44 then highWord s 0x50044
  else if o = 0x48 then BitVec.ofNat 32 (gain s 0x50048 0x220000)
  else if o = 0x4C then BitVec.ofNat 32 (gain s 0x5004C 0x20000)
  else if o = 0x54 then intWord t.adj
  else if o = 0x58 then intWord t.integ
  else if o = 0x5C then intWord t.offset
  else if o = 0x60 then s.reg 0x50060
  else if o = 0x8C then mkFld 0 4 t.ptp.stateA ||| mkFld 4 4 t.ptp.stateB ||| mkBit 8 t.ptp.gm
  else if 0x100 ≤ o ∧ o < 0x240 then
    match o % 32 with
    | 0x00 => (match q.entries with | e :: _ => timeWord e.stamp 0 0 | [] => 0)
    | 0x04 => q.e1
    | 0x08 => q.e2
    | 0x0C => q.e3
    | 0x10 => mkFld 0 7 q.entries.length ||| mkFld 16 16 q.ovf
    | _ => 0
  else if o = 0x400 then mkFld 0 10 s.hlist.entries.length ||| mkFld 16 7 (commitEntries s)
  else if o = 0x404 then lateWord s.hlist
  else storedWord s (0x50000 + o)

/-- VERIFY (R365). -/
def Verify.code : Verify → Nat
  | .disabled => 0 | .initial => 1 | .verifying => 2 | .succeeded => 3 | .failed => 4

/-- A MAC address as ADDR_LO and ADDR_HI: the first octet in bits [7:0] (R365). -/
def macWord (mac : List Byte) (hi : Bool) : Word :=
  let v := leNat mac
  if hi then mkFld 0 16 (v / 2 ^ 32) else BitVec.ofNat 32 v

/-- HUB_NETA and HUB_NETB (R363, R365). -/
def readNet (s : State) (p o : Nat) : Word :=
  let c := s.net p
  let key := 0x60000 + 0x10000 * p + o
  if o = 4 then
    mkBit 0 c.up ||| mkFld 1 2 (if c.up then c.speed else 0) ||| mkBit 3 c.pauseRx ||| mkBit 4 c.pauseTx |||
      mkBit 5 (c.pauseQ ≠ 0) ||| mkBit 6 c.xoff ||| mkFld 7 3 c.verify.code ||| mkBit 10 (preemptActive s p) |||
      mkBit 11 c.suspended.isSome ||| mkBit 12 c.hold ||| mkFld 16 8 c.linkCnt
  else if o = 0x10 then macWord (portMac s p) false
  else if o = 0x14 then macWord (portMac s p) true
  else if o = 0x20 then s.reg key
  else if 0x400 ≤ o ∧ o < 0x45C then BitVec.ofNat 32 (match amGet c.cnts o with | some v => v | none => 0)
  else storedWord s key

/-- ALIVE_IN (R426). -/
def AliveIn.code : AliveIn → Nat
  | .silent => 0 | .other => 1 | .active => 2

/-- HUB_PAIR (R426). -/
def readPair (s : State) (o : Nat) : Word :=
  let p := s.pair
  if o = 4 then
    mkFld 0 2 p.role ||| mkFld 2 2 p.partnerRole ||| mkBit 4 p.linkUp ||| mkFld 5 2 p.lanes.toNat |||
      mkFld 7 2 (AliveIn.code p.aliveIn) ||| mkBit 9 s.ident.sideB ||| mkBit 10 p.fit ||| mkBit 11 p.hot |||
      mkBit 12 p.cfgErr ||| mkFld 16 8 p.syncPct ||| mkFld 24 8 p.takeovers
  else if o = 8 then mkBit 8 p.busy ||| mkBit 9 p.cmdErr
  else if o = 0x0C then mkFld 0 4 p.lastCause ||| mkBit 4 p.lastHot ||| mkFld 16 16 p.lastGap
  else if o = 0x10 then BitVec.ofNat 32 p.lastSec
  else if 0x40 ≤ o ∧ o < 0x58 then p.health.getD ((o - 0x40) / 4) 0
  else if o = 0x60 then mkFld 0 16 p.crcErr ||| mkFld 16 16 p.hbMiss
  else storedWord s (0x80000 + o)

/-- HUB_VLT (R488). -/
def readVault (s : State) (o : Nat) : Word :=
  let v := s.vlt
  if o = 8 then
    mkBit 0 v.busy.isSome ||| mkFld 1 2 s.vstate ||| mkFld 8 4 v.result ||| mkFld 16 7 v.outLen
  else if 0x40 ≤ o ∧ o < 0x70 then byteWord (bytesBE 48 v.meas.toNat) ((o - 0x40) / 4)
  else if o = 0x80 then s.reg 0x90080
  else if o = 0x100 then s.reg 0x90100
  else if 0x120 ≤ o ∧ o < 0x13C then v.info.getD ((o - 0x120) / 4) 0
  else if 0x2000 ≤ o ∧ o < 0x2030 then v.outBuf.getD ((o - 0x2000) / 4) 0
  else storedWord s (0x90000 + o)

/-- HUB_UPD (R505). -/
def readUpd (s : State) (o : Nat) : Word :=
  let u := s.upd
  if o = 4 then
    mkFld 0 3 u.state ||| mkFld 4 5 u.result ||| mkFld 9 2 u.lock ||| mkBit 11 u.slotB ||| mkBit 12 u.trial |||
      mkFld 16 8 u.floor
  else if o = 0x0C then highWord s 0xA000C
  else if o = 0x28 then
    if s.pair.role = 0 then 0 else mkFld 0 3 u.pState ||| mkFld 8 8 u.pSec ||| mkFld 16 16 u.pFmt
  else storedWord s (0xA0000 + o)

/-- HUB_BKP (R458, R491). -/
def readBkp (s : State) (o : Nat) : Word :=
  let b := s.bkp
  if o = 0 then
    mkBit 0 b.osf ||| mkBit 1 b.vbatLow ||| mkBit 2 s.calGuard ||| mkBit 3 b.dateErr ||| mkBit 4 b.syncRange |||
      mkFld 16 16 b.vbat
  else if o = 4 then mkBit 0 b.test ||| mkBit 1 b.syncEn
  else if o = 0x10 then mkFld 0 15 b.cal.presc
  else if o = 0x14 then b.latchT
  else if o = 0x18 then b.latchD
  else if o = 0x24 then bkpCalWord b
  else if o = 0x28 then s.reg 0xB0028
  else if o = 0x40 ∨ o = 0x48 then (b.alarms.getD ((o - 0x40) / 8) Alarm.reset).value
  else if o = 0x44 ∨ o = 0x4C then
    let a := b.alarms.getD ((o - 0x44) / 8) Alarm.reset
    mkFld 0 6 a.cfg.toNat ||| mkBit 8 a.fired ||| mkBit 9 a.skipped ||| mkBit 10 a.asleep
  else if o = 0x80 then
    mkBit 0 b.so.valid ||| mkFld 1 4 b.so.cause ||| mkBit 5 b.so.hot ||| mkFld 8 8 b.so.count ||| mkFld 16 16 b.so.gap
  else if o = 0x84 then timeWord b.so.h 0 0
  else if o = 0x88 then timeWord b.so.h 0 1
  else if o = 0x8C then timeWord b.so.h 0 2 ||| mkFld 16 16 b.so.epoch
  else if 0x100 ≤ o ∧ o < 0x180 then b.keep.getD ((o - 0x100) / 4) 0
  else if o = 0x200 then b.tcfg.zeroExtend 32
  else if o = 0x204 then
    (b.loops.zipIdx.foldl (fun w l => if l.1.active then setBit w l.2 else w) 0) ||| mkBit 2 b.unack |||
      mkBit 3 b.bkekErased ||| mkFld 8 5 b.tnext ||| mkFld 16 8 b.tcount
  else if 0x220 ≤ o ∧ o < 0x400 then (b.tlog.getD ((o - 0x220) / 16) []).getD ((o - 0x220) % 16 / 4) 0
  else storedWord s (0xB0000 + o)

/-- The newest power-fail record, which PFREC shows (R438). -/
def newestRec (s : State) : Option PfRec :=
  s.pwr.recs.foldl (fun m p => match m with
    | some r => if r.rseq < p.2.rseq then some p.2 else m
    | none => some p.2) none

/-- The bytes of a record before its CRC (R439). -/
def recBody (r : PfRec) : List Byte :=
  let head := bytesLE 4 r.rseq ++ bytesLE 2 r.epoch ++ [BitVec.ofNat 8 r.cls, BitVec.ofNat 8 r.flags] ++
    stampBytes r.warnAt ++ [0, 0] ++ bytesLE 4 r.lastTxn ++ [BitVec.ofNat 8 r.lost.length] ++ List.replicate 39 0
  let lost := padTo 264 (r.lost.flatMap (fun i => bytesLE 4 i)) ++ List.replicate 696 0
  let basins := (List.range 64).flatMap (fun b =>
    bytesLE 4 (match amGet r.deliv b with | some n => n | none => 0) ++
    (List.range 16).flatMap (fun k =>
      match amGet r.idx (16 * b + k) with
      | some x => bytesLE 2 x.1 ++ bytesLE 2 x.2
      | none => [0, 0, 0, 0]))
  head ++ lost ++ basins ++ List.replicate 2812 0

/-- Word `i` of the record shown. -/
def recWord (s : State) (i : Nat) : Word :=
  match newestRec s with
  | none => 0
  | some r => if i = 2047 then Config.crc32 (recBody r) else byteWord (recBody r) i

/-- HUB_PWR (R441). -/
def readPwr (s : State) (o : Nat) : Word :=
  let p := s.pwr
  let rs := match newestRec s with | some r => r.rseq | none => 0
  if o = 0 then
    mkFld 0 3 p.state ||| mkBit 3 p.vinGood ||| mkBit 4 p.warn ||| mkBit 5 p.service ||| mkBit 6 p.backupLost |||
      mkBit 7 p.resetErr
  else if o = 4 then mkFld 0 16 p.vin ||| mkFld 16 16 p.vio
  else if o = 8 then mkFld 0 3 p.kind ||| mkFld 8 8 p.warmCnt ||| mkFld 16 16 rs
  else if o = 0x10 then mkBit 0 (newestRec s).isSome ||| mkBit 1 p.fresh ||| mkFld 16 16 rs
  else if 0x1000 ≤ o ∧ o < 0x3000 then recWord s ((o - 0x1000) / 4)
  else 0

/-- A word of a hub sub-block as function `fn` reads it. -/
def readHub (s : State) (fn off : Nat) : Word :=
  let o := off % 65536
  match off / 65536 with
  | 0x0 => readId s o
  | 0x1 => readTxn s fn o
  | 0x2 => readHp s fn o
  | 0x3 => readRing s o
  | 0x4 => readWs s fn o
  | 0x5 => readTime s o
  | 0x6 => readNet s 0 o
  | 0x7 => readNet s 1 o
  | 0x8 => readPair s o
  | 0x9 => readVault s o
  | 0xA => readUpd s o
  | 0xB => readBkp s o
  | 0xC => readPwr s o
  | _ => 0

/- ### Channel sub-blocks -/

/-- CHn_CTL_STATE (R32, R92). BEACON_OK: a beacon within the last 4 µs, which is four beacons (R206). What the channel
alone knows is shown as it was when the link was lost. -/
def ctlState (s : State) (n : Nat) : Word :=
  let c := s.ch n
  let copy : BitVec 3 := if s.linkDown n then c.copied else chanBits c
  mkFld 0 3 c.state.code ||| mkBit 3 c.xbarUp ||| mkBit 4 (c.tb.lastSeq.isSome && c.tb.silent ≤ 4) |||
    mkFld 5 3 copy.toNat ||| mkFld 16 8 c.lossCnt

/-- CHn_TB (R222). -/
def readTb (s : State) (n o : Nat) : Word :=
  let t := (s.ch n).tb
  let key := chBase n + 0x10000 + o
  match o with
  | 0x00 => timeWord t.now t.cls 0
  | 0x04 => t.latch1
  | 0x08 => t.latch2
  | 0x0C => mkBit 0 t.locked ||| mkBit 1 t.holdover ||| mkBit 2 t.valid ||| mkFld 8 8 t.missed |||
      mkFld 16 16 ((max (-32767) (min 32767 t.offset)) % 65536).toNat
  | 0x10 => intWord t.adj
  | 0x14 => BitVec.ofNat 32 t.delay
  | 0x20 => storedWord s key ||| mkFld 16 6 (gptpNodes s n 0) ||| mkFld 24 6 (gptpNodes s n 1)
  | _ => storedWord s key

/-- CHn_TA (R251). -/
def readTa (s : State) (n o : Nat) : Word :=
  let key := chBase n + 0x20000 + o
  match o with
  | 0x00 => mkBit 0 (s.ch n).tableEn
  | 0x04 => mkFld 0 12 ((s.ch n).table.entries.length + s.tied n) ||| mkFld 16 12 (s.tied n)
  | 0x08 => lateWord (s.ch n).table
  | 0x10 => storedWord s key ||| mkBit 17 (s.dio n).cal.isSome ||| mkBit 18 (s.dio n).calErr
  | _ => storedWord s key

/-- CLAMP (R273). -/
def Clamp.code : Clamp → Nat
  | .none => 0 | .high => 1 | .low => 2

/-- CHn_LE_SSTATs (R273). -/
def slotStat (s : State) (n slot : Nat) : Word :=
  let r := s.slotRt n slot
  mkBit 0 r.en ||| mkBit 1 (r.bankSel ≠ 0) ||| mkBit 2 r.primed ||| mkFld 3 2 r.clamp.code ||| mkBit 5 r.tracking |||
    mkBit 6 r.pvBad ||| mkBit 7 r.bankErr ||| mkBit 8 r.spsrcErr ||| mkBit 9 r.fe

/-- CHn_LE (R273, R292). -/
def readLe (s : State) (n o : Nat) : Word :=
  let c := s.ch n
  let key := chBase n + 0x30000 + o
  if o = 0 then
    mkFld 0 11 (c.slots.filter (fun p => p.2.en)).length |||
      mkFld 16 11 (c.slots.filter (fun p => p.2.en && !p.2.primed)).length
  else if o = 4 then mkFld 0 11 (c.slots.filter (fun p => p.2.fe)).length ||| mkFld 16 16 c.feTrips
  else if o = 0x24 then highWord s key
  else if 0x20 ≤ o ∧ o < 0x40 then c.snap.words.getD ((o - 0x20) / 4) 0
  else if 0x100 ≤ o ∧ o < 0x180 ∧ o % 8 = 0 then storedWord s key ||| mkBit 31 (s.slotRt n ((o - 0x100) / 8)).srcErr
  else if 0x1000 ≤ o ∧ o < 0x2000 then slotStat s n ((o - 0x1000) / 4)
  else storedWord s key

/-- CHn_CANA and CHn_CANB (R327). -/
def readCan (s : State) (n x o : Nat) : Word :=
  let c := s.can n x
  let base := chBase n + 0x50000 + 0x10000 * x
  let used (k0 step count : Nat) : Nat :=
    ((List.range count).filter (fun k => s.reg (base + k0 + step * k) ≠ 0)).length
  if o = 4 then
    mkFld 0 3 c.state.code ||| mkBit 3 c.ewarn ||| mkBit 4 c.cfgErr ||| mkFld 8 8 c.recv |||
      mkFld 16 9 (if c.state = .busOff then 256 else c.tec)
  else if o = 8 then mkFld 0 4 c.errA ||| mkFld 4 4 c.errD ||| mkFld 8 8 c.noack ||| mkFld 16 16 c.busoffCnt
  else if o = 0x18 then
    match c.loopDly with
    | some d => mkFld 0 8 d ||| mkBit 8 true
    | none => 0
  else if o = 0x1C then
    mkBit 0 c.bank ||| mkFld 8 8 (used 0x1000 4 128) |||
      mkFld 16 7 ((List.range 64).filter (fun k => s.reg (base + 0x1404 + 8 * k) ≠ 0)).length |||
      mkFld 24 8 (s.pins.filter (fun p => base + 0x1000 ≤ p && p < base + 0x1600)).length
  else if o = 0x20 then BitVec.ofNat 32 c.txOk
  else if o = 0x24 then BitVec.ofNat 32 c.rxOk
  else if o = 0x28 then BitVec.ofNat 32 c.rxRej
  else if o = 0x2C then BitVec.ofNat 32 c.rxqDrops
  else if o = 0x30 then BitVec.ofNat 32 c.errFrames
  else if o = 0x34 then BitVec.ofNat 32 c.fdExc
  else storedWord s (base + o)

/-- CHn_SEG0 and CHn_SEG1 (R363, R366). -/
def readSeg (s : State) (n x o : Nat) : Word :=
  let c := s.seg n x
  let key := chBase n + 0x70000 + 0x10000 * x + o
  if o = 4 then
    mkFld 0 2 c.mode ||| mkBit 2 c.plca ||| mkBit 3 c.carrier |||
      mkFld 8 6 (if fld (s.segReg n x 0) 16 16 = 0 then 0 else c.heard.length)
  else if o = 0x10 then macWord (segMac s n x) false
  else if o = 0x14 then macWord (segMac s n x) true
  else if 0x400 ≤ o ∧ o < 0x45C then BitVec.ofNat 32 (c.cnt o)
  else storedWord s key

/-- A word with a bit for each of eight outputs. -/
def doutBits (c : Dio) (f : Dout → Bool) : Nat :=
  (List.range 8).foldl (fun m d => if f (c.dout.getD d Dout.reset) then m + 2 ^ d else m) 0

/-- CHn_DIO (R397). The raw levels of the inputs and the readback of the outputs are what the terminals carry: free
values (log 42). -/
def readDio (s : State) (n o : Nat) : Word :=
  let c := s.dio n
  let key := chBase n + 0x90000 + o
  if o = 0 then
    mkBit 0 c.fault ||| mkBit 1 c.low ||| mkBit 2 c.inv ||| mkBit 3 c.lockout ||| mkFld 16 16 c.fsup
  else if o = 4 then c.fc0
  else if o = 8 then c.fc1
  else if o = 0x10 then mkFld 0 16 c.level.toNat ||| mkFld 16 16 (Config.freeWord s.free).toNat
  else if 0x80 ≤ o ∧ o < 0xA0 then
    if o % 8 = 0 then BitVec.ofNat 32 (c.counts.getD ((o - 0x80) / 8) 0) else highWord s key
  else if o = 0xA0 then
    mkFld 0 8 (doutBits c (fun d => d.cmd)) ||| mkFld 8 8 (doutBits c (fun d => d.drive)) |||
      mkFld 16 8 (Config.freeWord s.free).toNat
  else if o = 0xA4 then
    (List.range 8).foldl (fun w d => if s.joinedDo n d then setBit w d else w) (storedWord s key)
  else if o = 0xAC then mkFld 0 13 c.group
  else if 0xC0 ≤ o ∧ o < 0xE0 then mkFld 0 13 (c.dout.getD ((o - 0xC0) / 4) Dout.reset).current
  else if o = 0xFC then mkBit 0 c.armed ||| mkBit 1 c.tripped ||| mkBit 2 c.holding ||| mkFld 8 8 c.tripCnt
  else storedWord s key

/-- CHn_ADC (R398). -/
def readAdc (s : State) (n o : Nat) : Word :=
  let key := chBase n + 0xA0000 + o
  if o < 0x80 ∧ o % 16 = 4 then
    let a := s.ain n (o / 16)
    mkFld 0 16 a.code ||| mkFld 16 4 a.qual
  else if 0x80 ≤ o ∧ o < 0xA0 ∧ o % 8 = 4 then
    let a := s.aout n ((o - 0x80) / 8)
    mkFld 0 16 a.code ||| mkBit 16 a.ovl
  else storedWord s key

/-- A word of a channel block. -/
def readChannel (s : State) (n o : Nat) : Word :=
  let r := o % 65536
  match o / 65536 with
  | 0x0 => if r = 0 then ctlState s n else 0
  | 0x1 => readTb s n r
  | 0x2 => readTa s n r
  | 0x3 => readLe s n r
  | 0x4 => storedWord s (chBase n + o)
  | 0x5 => readCan s n 0 r
  | 0x6 => readCan s n 1 r
  | 0x7 => readSeg s n 0 r
  | 0x8 => readSeg s n 1 r
  | 0x9 => readDio s n r
  | 0xA => readAdc s n r
  | _ => 0

/- ### What a read answers and latches -/

/-- Offsets that answer in QUARANTINE (R108). -/
def quarReads (off : Nat) : Bool :=
  off / 65536 = 0 || off / 65536 = 2 || off / 65536 = 12 || (0xB0200 ≤ off && off < 0xB0400)

/-- What a read of the physical function's map at an offset answers (R4, R10, R46, R92, R108). -/
def readMap (s : State) (fn off : Nat) : Word :=
  if off % 4 ≠ 0 then 0
  else if s.lc.quar ≠ 0 ∧ !quarReads off then 0
  else if fn = 0 ∧ 0x80000 ≤ off ∧ off < 0x100000 ∧ bitN (s.reg 0x4F000) 0 then
    dirWord s ((off - 0x80000) / 32) (off % 32 / 4)
  else if off < 0x100000 then readHub s fn off
  else if off < 0x900000 then
    let n := off / 0x100000 - 1
    let o := off % 0x100000
    let st := (s.ch n).state
    if !s.fitted n ∨ st = .absent then 0
    else if o ≠ 0 ∧ (st = .linkLost ∨ st = .fault) then 0xFFFFFFFF
    else readChannel s n o
  else 0

/-- The offset a function's read names in the physical function's map (R97). -/
def readOffset (fn off : Nat) : Option Nat :=
  if fn = 0 then some off else (viewKey fn off).map (fun k => k % 0x1000000)

/-- What a function reads at an offset of its BAR0. -/
def readReg (s : State) (fn off : Nat) : Word :=
  match readOffset fn off with
  | some a => readMap s fn a
  | none => 0

/-- The words a read of the hub's map latches (R9, R194, R219, R444). -/
def latchHub (off : Nat) (s : State) : State :=
  let o := off % 65536
  match off / 65536 with
  | 0x0 => if o = 0x10 then latchHigh s 0x10 ((s.ident.serial >>> 32).truncate 32) else s
  | 0x3 => if o < 0x8800 ∧ (o % 32 = 8 ∨ o % 32 = 16) then latchHigh s off (s.reg (off + 4)) else s
  | 0x5 =>
    if o = 0 then s.modTime (fun t => { t with latch1 := timeWord t.now t.cls 1, latch2 := timeWord t.now t.cls 2 })
    else if o = 0x40 then latchHigh s 0x50040 (BitVec.ofNat 32 (s.time.incr / 2 ^ 32).toNat)
    else if 0x100 ≤ o ∧ o < 0x240 ∧ o % 32 = 0 then
      { s with tsqs := s.tsqs.modify ((o - 0x100) / 32) (fun q =>
          match q.entries with
          | e :: _ => { q with e1 := timeWord e.stamp 0 1, e2 := timeWord e.stamp 0 2 ||| mkFld 16 16 e.tag,
                               e3 := mkFld 0 16 e.serial ||| mkFld 16 6 e.target ||| mkBit 22 e.valid ||| mkBit 31 true }
          | [] => { q with e1 := 0, e2 := 0, e3 := 0 }) }
    else s
  | 0xA => if o = 8 then latchHigh s 0xA0008 (s.reg 0xA000C) else s
  | 0xB =>
    if o = 0x10 then s.modBkp (fun b => { b with latchT := b.cal.timeWord, latchD := b.cal.dateWord }) else s
  | _ => s

/-- The words a read of a channel block latches. -/
def latchChannel (n o : Nat) (s : State) : State :=
  if o = 0x30020 then latchHigh s (chBase n + o) ((s.ch n).snap.words.getD 1 0)
  else if o = 0x10000 then s.modCh n (fun c => { c with tb :=
    { c.tb with latch1 := timeWord c.tb.now c.tb.cls 1, latch2 := timeWord c.tb.now c.tb.cls 2 } })
  else if 0x90080 ≤ o ∧ o < 0x900A0 ∧ o % 8 = 0 then
    latchHigh s (chBase n + o) (BitVec.ofNat 32 ((s.dio n).counts.getD ((o - 0x90080) / 8) 0 / 2 ^ 32))
  else s

/-- The latching of a read that reaches its register. -/
def latchAt (off : Nat) (s : State) : State :=
  if s.lc.quar ≠ 0 ∧ !quarReads off then s
  else if 0x80000 ≤ off ∧ off < 0x100000 ∧ bitN (s.reg 0x4F000) 0 then s
  else if off < 0x100000 then latchHub off s
  else if off < 0x900000 then
    let n := off / 0x100000 - 1
    let st := (s.ch n).state
    if !s.fitted n ∨ st = .absent ∨ st = .linkLost ∨ st = .fault then s
    else latchChannel n (off % 0x100000) s
  else s

/-- One word of a read of BAR0: the calendar's prescaler has run on to the read; the register is read, and its companion
words are latched from the same instant. A read of raw levels takes a free value. -/
def bar0Read (fn off : Nat) (be : BitVec 4) (s : State) : State :=
  match readOffset fn off with
  | none => s.emit (.readData fn off 0)
  | some a =>
    let s := if a = 0xB0010 then prescRuns s else s.tick1
    (latchAt a s).emit (.readData fn off (readMap s fn a &&& beMask be))

/- ### MSI-X tables and configuration space (R93, R96, R98, R99, R108) -/

/-- A word of BAR4: the MSI-X table, and behind it the pending bits (R96). -/
def msixRead (s : State) (fn off : Nat) : Word :=
  let f := s.fn fn
  let n := if fn = 0 then 2048 else 64
  let pba := if fn = 0 then 0x8000 else 0x800
  if s.lc.quar ≠ 0 ∧ fn ≠ 0 then 0
  else if off < 16 * n then
    let e := f.entry (off / 16)
    match off % 16 with
    | 0 => e.addr.truncate 32
    | 4 => (e.addr >>> 32).truncate 32
    | 8 => e.data
    | 12 => mkBit 0 e.masked
    | _ => 0
  else if pba ≤ off ∧ off < pba + n / 8 then
    f.pba.foldl (fun w v => if v / 32 = (off - pba) / 4 then setBit w (v % 32) else w) 0
  else 0

/-- A word of configuration space (R93, R94, R98; offsets as `configWord`, log 17): identity, class code and Interrupt Pin
at the base specification's offsets; from 0x1028 on InitialVFs and TotalVFs, First VF Offset and VF Stride, Supported
Page Sizes, VF Device ID, the serial number, Device Capabilities and Device Capabilities 2, and the capabilities the
function has, one bit each in the order of R93. -/
def configRead (s : State) (fn off : Nat) : Word :=
  let f := s.fn fn
  let vfId : Nat := if s.ident.eight then 0x0811 else 0x0411
  let total := if s.noVfs then 0 else 63
  match off with
  | 0x000 => mkFld 0 16 0x1F4B ||| mkFld 16 16 (if fn ≠ 0 then vfId else if s.ident.eight then 0x0810 else 0x0410)
  | 0x004 => mkBit 1 f.mse ||| mkBit 2 f.bme ||| mkBit 20 true
  | 0x008 => mkFld 8 24 0x118000
  | 0x03C => 0
  | 0x1000 => if f.d3hot then 3 else 0
  | 0x1004 => mkFld 0 11 (if fn = 0 then 2047 else 63) ||| mkBit 14 f.fmask ||| mkBit 15 f.msixEn
  | 0x1014 => f.aerStatus false
  | 0x101C => f.aerStatus true
  | 0x105C => 0x10000002
  | 0x1060 => 0x13
  | 0x106C => if fn = 0 then 0x7F else 0x1E
  | _ =>
    if fn ≠ 0 then cfgStored s fn off
    else match off with
      | 0x100C => mkBit 0 s.host.vfEnable
      | 0x1010 => mkFld 0 16 s.host.numVfs
      | 0x1028 => mkFld 0 16 total ||| mkFld 16 16 total
      | 0x102C => 0x00010001
      | 0x1030 => 1
      | 0x1034 => mkFld 0 16 vfId
      | 0x1050 => s.ident.serial.truncate 32
      | 0x1054 => (s.ident.serial >>> 32).truncate 32
      | _ => cfgStored s fn off

/-- The words of a read with the bytes asked for, low word first (R9, R70). -/
def readWords (off len : Nat) : List (Nat × BitVec 4) := (accessWords off len 0).map (fun x => (x.1, x.2.1))

/-- A memory read that reaches function `fn`: Unsupported Request without Memory Space Enable or against R70 (R97). -/
def memReadOp (fn off len : Nat) (word : Nat → BitVec 4 → State → State) (s : State) : State :=
  ifMse fn off false (fun s =>
    if !accessOk off len then unsupportedRequest s fn off false
    else (readWords off len).foldl (fun s x => word x.1 x.2 s) s) s

/-- LATCHING_READ, and any other read: of BAR0, of the doorbell page, which reads 0 (R121), of the MSI-X table and pending
bits, and of configuration space. -/
def latchingReadOp (space : Space) (fn off len : Nat) (s : State) : State :=
  match space with
  | .bar0 => memReadOp fn off len (bar0Read fn) s
  | .bar2 => memReadOp fn off len (fun o _ s => s.emit (.readData fn o 0)) s
  | .msixTable => memReadOp fn off len (fun o be s => s.emit (.readData fn o (msixRead s fn o &&& beMask be))) s
  | .config => ifConfig fn off (fun s =>
      if accessOk off len then
        (readWords off len).foldl (fun s x => s.emit (.readData fn x.1 (configRead s fn x.1 &&& beMask x.2))) s
      else s) s

/- ### The commands -/

/-- LATCHING_READ (R9, R194, R219, R444). -/
def execLatchingRead (fn off : Nat) (s : State) (space : Space := .bar0) (len : Nat := 4) : Host.Outcome State Fault Refusal :=
  .next (latchingReadOp space fn off len s)

end Sys2Proof.Machine
end

