-- ==== Sys2Proof/Machine/Dispatch.lean ====
section
/-! DEFINITION. The meaning of every command: one arm per row of spec/opcode_table.json. -/

namespace Sys2Proof.Machine

def exec (i : Instr) (s : State) : Host.Outcome State Fault Refusal :=
  match i with
  | .registerWrite space fn off len data => Sys2Proof.Machine.execRegisterWrite space fn off len data s
  | .pointUpdate ch => Sys2Proof.Machine.execPointUpdate ch s
  | .forwardedUpdate ch => Sys2Proof.Machine.execForwardedUpdate ch s
  | .commandAtChannel ch => Sys2Proof.Machine.execCommandAtChannel ch s
  | .outcomeReported ch => Sys2Proof.Machine.execOutcomeReported ch s
  | .linkLost ch => Sys2Proof.Machine.execLinkLost ch s
  | .linkReturn ch => Sys2Proof.Machine.execLinkReturn ch s
  | .resendComplete ch => Sys2Proof.Machine.execResendComplete ch s
  | .mirselWrite fn handle => Sys2Proof.Machine.execMirselWrite fn handle s
  | .dirwinWrite en => Sys2Proof.Machine.execDirwinWrite en s
  | .minIntExpiry handle => Sys2Proof.Machine.execMinIntExpiry handle s
  | .maxIntExpiry handle => Sys2Proof.Machine.execMaxIntExpiry handle s
  | .passExpiry pass => Sys2Proof.Machine.execPassExpiry pass s
  | .basinRemove b => Sys2Proof.Machine.execBasinRemove b s
  | .basinRemoveDone b => Sys2Proof.Machine.execBasinRemoveDone b s
  | .beginTxn fn => Sys2Proof.Machine.execBeginTxn fn s
  | .stagedWrite fn off len data => Sys2Proof.Machine.execStagedWrite fn off len data s
  | .commitNow fn => Sys2Proof.Machine.execCommitNow fn s
  | .commitAt fn => Sys2Proof.Machine.execCommitAt fn s
  | .rollback fn => Sys2Proof.Machine.execRollback fn s
  | .prepareAck ctx ch => Sys2Proof.Machine.execPrepareAck ctx ch s
  | .txnPrepTimeout ctx => Sys2Proof.Machine.execTxnPrepTimeout ctx s
  | .txnGo ctx => Sys2Proof.Machine.execTxnGo ctx s
  | .goAck ctx ch => Sys2Proof.Machine.execGoAck ctx ch s
  | .txnGoDeadline ctx => Sys2Proof.Machine.execTxnGoDeadline ctx s
  | .txnApply ctx => Sys2Proof.Machine.execTxnApply ctx s
  | .perstRelease => Sys2Proof.Machine.execPerstRelease s
  | .endpointReady => Sys2Proof.Machine.execEndpointReady s
  | .hostPortReset cause => Sys2Proof.Machine.execHostPortReset cause s
  | .flr b => Sys2Proof.Machine.execFlr b s
  | .pfFlr => Sys2Proof.Machine.execPfFlr s
  | .flrDone fn => Sys2Proof.Machine.execFlrDone fn s
  | .vfEnableWrite vfEnable numVfs => Sys2Proof.Machine.execVfEnableWrite vfEnable numVfs s
  | .busMasterChange fn bme d3hot => Sys2Proof.Machine.execBusMasterChange fn bme d3hot s
  | .msixUnmask fn vector => Sys2Proof.Machine.execMsixUnmask fn vector s
  | .tlpError e fn ring chain => Sys2Proof.Machine.execTlpError e fn ring chain s
  | .completionTimeout fn ring chain => Sys2Proof.Machine.execCompletionTimeout fn ring chain s
  | .dmaReadFailure fn ring chain => Sys2Proof.Machine.execDmaReadFailure fn ring chain s
  | .smbusIdent addr pec => Sys2Proof.Machine.execSmbusIdent s addr pec
  | .smbusHealth addr pec => Sys2Proof.Machine.execSmbusHealth s addr pec
  | .smbusReadAlert addr pec => Sys2Proof.Machine.execSmbusReadAlert s addr pec
  | .smbusClearAlert bits addr => Sys2Proof.Machine.execSmbusClearAlert bits s addr
  | .doorbell b r be data => Sys2Proof.Machine.execDoorbell b r be data s
  | .evconsWrite b data => Sys2Proof.Machine.execEvconsWrite b data s
  | .ringEnable b r ctl => Sys2Proof.Machine.execRingEnable b r ctl s
  | .ringDisable b r => Sys2Proof.Machine.execRingDisable b r s
  | .haltedRingDisable b r => Sys2Proof.Machine.execHaltedRingDisable b r s
  | .ringDisabled b r posted => Sys2Proof.Machine.execRingDisabled b r posted s
  | .eventRingControl b ctl => Sys2Proof.Machine.execEventRingControl b ctl s
  | .pointCommand b r desc => Sys2Proof.Machine.execPointCommand b r desc s
  | .frameTransmit b r chain payload => Sys2Proof.Machine.execFrameTransmit b r chain payload s
  | .cancelFrame b r desc inArbitration => Sys2Proof.Machine.execCancelFrame b r desc inArbitration s
  | .cancelByCookie b r desc => Sys2Proof.Machine.execCancelByCookie b r desc s
  | .moderationTimer b r => Sys2Proof.Machine.execModerationTimer b r s
  | .frameReceived b r posted => Sys2Proof.Machine.execFrameReceived b r posted s
  | .submit fn => Sys2Proof.Machine.execSubmit fn s
  | .withdraw fn => Sys2Proof.Machine.execWithdraw fn s
  | .query fn => Sys2Proof.Machine.execQuery fn s
  | .placeNow fn => Sys2Proof.Machine.execPlaceNow fn s
  | .placementPass => Sys2Proof.Machine.execPlacementPass s
  | .rebalanceTimer => Sys2Proof.Machine.execRebalanceTimer s
  | .takeOut ch => Sys2Proof.Machine.execTakeOut ch s
  | .channelDrained ch => Sys2Proof.Machine.execChannelDrained ch s
  | .bringIn ch => Sys2Proof.Machine.execBringIn ch s
  | .channelFault ch converter => Sys2Proof.Machine.execChannelFault ch converter s
  | .migrationStateArrival loop => Sys2Proof.Machine.execMigrationStateArrival loop s
  | .migrationStateTimeout loop => Sys2Proof.Machine.execMigrationStateTimeout loop s
  | .migrationRelease loop => Sys2Proof.Machine.execMigrationRelease loop s
  | .offsetSample src e l => Sys2Proof.Machine.execOffsetSample src e l s
  | .offinWrite data => Sys2Proof.Machine.execOffinWrite data s
  | .setTime => Sys2Proof.Machine.execSetTime s
  | .invalidate => Sys2Proof.Machine.execInvalidate s
  | .timeStep => Sys2Proof.Machine.execTimeStep s
  | .sourceLost => Sys2Proof.Machine.execSourceLost s
  | .holdoverEnd => Sys2Proof.Machine.execHoldoverEnd s
  | .beacon => Sys2Proof.Machine.execBeacon s
  | .beaconArrival ch => Sys2Proof.Machine.execBeaconArrival ch s
  | .ptpMessage port msg frame ago => Sys2Proof.Machine.execPtpMessage port msg frame s ago
  | .gptpSync ch seg => Sys2Proof.Machine.execGptpSync ch seg s
  | .pdelayReq ch seg node => Sys2Proof.Machine.execPdelayReq ch seg node s
  | .tsqPop q => Sys2Proof.Machine.execTsqPop q s
  | .actionFire table idx => Sys2Proof.Machine.execActionFire table idx s
  | .loopGroupPrepare idx => Sys2Proof.Machine.execLoopGroupPrepare idx s
  | .calStart ch sel => Sys2Proof.Machine.execCalStart ch sel s
  | .calDone ch results => Sys2Proof.Machine.execCalDone ch results s
  | .tableDisable ch => Sys2Proof.Machine.execTableDisable ch s
  | .tableEnable ch => Sys2Proof.Machine.execTableEnable ch s
  | .loopSample ch slot => Sys2Proof.Machine.execLoopSample ch slot s
  | .loopOutput ch slot => Sys2Proof.Machine.execLoopOutput ch slot s
  | .loopSlotWrite ch slot w be data => Sys2Proof.Machine.execLoopSlotWrite ch slot w be data s
  | .snapselWrite ch slot => Sys2Proof.Machine.execSnapselWrite ch slot s
  | .counterAcquisition ch => Sys2Proof.Machine.execCounterAcquisition ch s
  | .canCtlWrite ch x data => Sys2Proof.Machine.execCanCtlWrite ch x data s
  | .recover ch x => Sys2Proof.Machine.execRecover ch x s
  | .canModeApplied ch x => Sys2Proof.Machine.execCanModeApplied ch x s
  | .canIntegrationDone ch x => Sys2Proof.Machine.execCanIntegrationDone ch x s
  | .canFrameReceived ch x frame ago => Sys2Proof.Machine.execCanFrameReceived ch x frame ago s
  | .canArbitrationEnd ch x won => Sys2Proof.Machine.execCanArbitrationEnd ch x won s
  | .canTxSuccess ch x ago loopDelay => Sys2Proof.Machine.execCanTxSuccess ch x ago loopDelay s
  | .canTxError ch x err dataPhase dominant => Sys2Proof.Machine.execCanTxError ch x err dataPhase dominant s
  | .canBusOn ch x us => Sys2Proof.Machine.execCanBusOn ch x us s
  | .canNodeTimeout ch x id ide => Sys2Proof.Machine.execCanNodeTimeout ch x id ide s
  | .canProtoExc ch x => Sys2Proof.Machine.execCanProtoExc ch x s
  | .netLinkUp p speed pauseRx pauseTx => Sys2Proof.Machine.execNetLinkUp p speed pauseRx pauseTx s
  | .netLinkDown p => Sys2Proof.Machine.execNetLinkDown p s
  | .netPortDisable p => Sys2Proof.Machine.execNetPortDisable p s
  | .netFrameReceived p rx ago => Sys2Proof.Machine.execNetFrameReceived p rx ago s
  | .netTxDone p ago => Sys2Proof.Machine.execNetTxDone p ago s
  | .pauseReceived p quanta => Sys2Proof.Machine.execPauseReceived p quanta s
  | .pauseExpiry p => Sys2Proof.Machine.execPauseExpiry p s
  | .xoffRepeat p => Sys2Proof.Machine.execXoffRepeat p s
  | .verifyMpacket p => Sys2Proof.Machine.execVerifyMpacket p s
  | .verifyResponse p => Sys2Proof.Machine.execVerifyResponse p s
  | .verifyTimeout p => Sys2Proof.Machine.execVerifyTimeout p s
  | .netHold p => Sys2Proof.Machine.execNetHold p s
  | .reasmTimeout p => Sys2Proof.Machine.execReasmTimeout p s
  | .segFrameReceived ch x frame ago => Sys2Proof.Machine.execSegFrameReceived ch x frame ago s
  | .segTxDone ch x ago => Sys2Proof.Machine.execSegTxDone ch x ago s
  | .segCollision ch x late => Sys2Proof.Machine.execSegCollision ch x late s
  | .segBackoffExpiry ch x => Sys2Proof.Machine.execSegBackoffExpiry ch x s
  | .segModeApplied ch x => Sys2Proof.Machine.execSegModeApplied ch x s
  | .plcaBeacon ch x => Sys2Proof.Machine.execPlcaBeacon ch x s
  | .plcaToTimer ch x => Sys2Proof.Machine.execPlcaToTimer ch x s
  | .plcaBeaconLoss ch x => Sys2Proof.Machine.execPlcaBeaconLoss ch x s
  | .t1sNodeTimeout ch x node => Sys2Proof.Machine.execT1sNodeTimeout ch x node s
  | .fsupLow ch reading => Sys2Proof.Machine.execFsupLow ch reading s
  | .fsupOk ch reading => Sys2Proof.Machine.execFsupOk ch reading s
  | .fsupInputsInvalid ch reading => Sys2Proof.Machine.execFsupInputsInvalid ch reading s
  | .fsupInputsValid ch reading => Sys2Proof.Machine.execFsupInputsValid ch reading s
  | .undervoltageLockout ch reading => Sys2Proof.Machine.execUndervoltageLockout ch reading s
  | .fsupRestartRise ch reading => Sys2Proof.Machine.execFsupRestartRise ch reading s
  | .uvloRestart ch => Sys2Proof.Machine.execUvloRestart ch s
  | .fsupGuardLoss ch reading => Sys2Proof.Machine.execFsupGuardLoss ch reading s
  | .dinEdge ch inp level ago => Sys2Proof.Machine.execDinEdge ch inp level ago s
  | .doutOvercurrent ch d => Sys2Proof.Machine.execDoutOvercurrent ch d s
  | .doutOvertemp ch d => Sys2Proof.Machine.execDoutOvertemp ch d s
  | .doutRetry ch d => Sys2Proof.Machine.execDoutRetry ch d s
  | .clrOc ch mask => Sys2Proof.Machine.execClrOc ch mask s
  | .groupOvercurrent ch currents => Sys2Proof.Machine.execGroupOvercurrent ch currents s
  | .extDrive ch d => Sys2Proof.Machine.execExtDrive ch d s
  | .openLoad ch d => Sys2Proof.Machine.execOpenLoad ch d s
  | .guardKick ch => Sys2Proof.Machine.execGuardKick ch s
  | .guardTrip ch => Sys2Proof.Machine.execGuardTrip ch s
  | .guardHold ch => Sys2Proof.Machine.execGuardHold ch s
  | .guardHoldExpiry ch => Sys2Proof.Machine.execGuardHoldExpiry ch s
  | .adcScan ch inp => Sys2Proof.Machine.execAdcScan ch inp s
  | .adcConversionComplete ch inp src meas bad => Sys2Proof.Machine.execAdcConversionComplete ch inp src meas bad s
  | .ainBurdenOpen ch inp => Sys2Proof.Machine.execAinBurdenOpen ch inp s
  | .ainBurdenRestore ch inp => Sys2Proof.Machine.execAinBurdenRestore ch inp s
  | .pairLinkUp partner lanes => Sys2Proof.Machine.execPairLinkUp partner lanes s
  | .roleDecision activeSeen => Sys2Proof.Machine.execRoleDecision activeSeen s
  | .heartbeatSend => Sys2Proof.Machine.execHeartbeatSend s
  | .heartbeatReceived hb => Sys2Proof.Machine.execHeartbeatReceived hb s
  | .mirrorRecord seq rcd => Sys2Proof.Machine.execMirrorRecord seq rcd s
  | .heartbeatTimeout => Sys2Proof.Machine.execHeartbeatTimeout s
  | .pairAliveChange cls => Sys2Proof.Machine.execPairAliveChange cls s
  | .takeover gapNs selfCheckOk => Sys2Proof.Machine.execTakeover gapNs selfCheckOk s
  | .madeReceived => Sys2Proof.Machine.execMadeReceived s
  | .releaseTimeout ch => Sys2Proof.Machine.execReleaseTimeout ch s
  | .swap => Sys2Proof.Machine.execSwap s
  | .swapYield => Sys2Proof.Machine.execSwapYield s
  | .swapTimeout => Sys2Proof.Machine.execSwapTimeout s
  | .selftest => Sys2Proof.Machine.execSelftest s
  | .selftestDone hubFaults chPresent chFit chFault => Sys2Proof.Machine.execSelftestDone hubFaults chPresent chFit chFault s
  | .healthReport words => Sys2Proof.Machine.execHealthReport words s
  | .healthReportTimeout => Sys2Proof.Machine.execHealthReportTimeout s
  | .resyncDone epoch time => Sys2Proof.Machine.execResyncDone epoch time s
  | .vinGood backupLost loops rngOk => Sys2Proof.Machine.execVinGood backupLost loops rngOk s
  | .pointServiceBegin => Sys2Proof.Machine.execPointServiceBegin s
  | .powerFailWarning => Sys2Proof.Machine.execPowerFailWarning s
  | .powerFailFreeze => Sys2Proof.Machine.execPowerFailFreeze s
  | .powerFailRecord => Sys2Proof.Machine.execPowerFailRecord s
  | .vinCollapse => Sys2Proof.Machine.execVinCollapse s
  | .vinReturn => Sys2Proof.Machine.execVinReturn s
  | .warm key => Sys2Proof.Machine.execWarm key s
  | .channelRestart ch key => Sys2Proof.Machine.execChannelRestart ch key s
  | .channelRestartDone ch => Sys2Proof.Machine.execChannelRestartDone ch s
  | .watchdog => Sys2Proof.Machine.execWatchdog s
  | .calendarSecond => Sys2Proof.Machine.execCalendarSecond s
  | .rtcLoad => Sys2Proof.Machine.execRtcLoad s
  | .soClear => Sys2Proof.Machine.execSoClear s
  | .calendarSync => Sys2Proof.Machine.execCalendarSync s
  | .calCycle => Sys2Proof.Machine.execCalCycle s
  | .autoCalWindow driftPpb => Sys2Proof.Machine.execAutoCalWindow driftPpb s
  | .oscStopped => Sys2Proof.Machine.execOscStopped s
  | .vbatMeasure v => Sys2Proof.Machine.execVbatMeasure v s
  | .vaultGenerate slot => Sys2Proof.Machine.execVaultGenerate slot s
  | .vaultDerive slot => Sys2Proof.Machine.execVaultDerive slot s
  | .vaultImport slot => Sys2Proof.Machine.execVaultImport slot s
  | .vaultPromote slot => Sys2Proof.Machine.execVaultPromote slot s
  | .vaultDiscard slot => Sys2Proof.Machine.execVaultDiscard slot s
  | .vaultInvalidate slot => Sys2Proof.Machine.execVaultInvalidate slot s
  | .vaultRederive slot => Sys2Proof.Machine.execVaultRederive slot s
  | .vaultHmac slot => Sys2Proof.Machine.execVaultHmac slot s
  | .vaultHmacVerify slot => Sys2Proof.Machine.execVaultHmacVerify slot s
  | .vaultEcdsaVerify slot => Sys2Proof.Machine.execVaultEcdsaVerify slot s
  | .vaultOpComplete => Sys2Proof.Machine.execVaultOpComplete s
  | .slotselWrite slot => Sys2Proof.Machine.execSlotselWrite slot s
  | .tamperSample loop0 loop1 => Sys2Proof.Machine.execTamperSample loop0 loop1 s
  | .tamperModeChange data => Sys2Proof.Machine.execTamperModeChange data s
  | .release key => Sys2Proof.Machine.execRelease key s
  | .commission key confirm => Sys2Proof.Machine.execCommission key confirm s
  | .enterService key confirm => Sys2Proof.Machine.execEnterService key confirm s
  | .maintain key confirm => Sys2Proof.Machine.execMaintain key confirm s
  | .decommission key confirm => Sys2Proof.Machine.execDecommission key confirm s
  | .reclaim key confirm => Sys2Proof.Machine.execReclaim key confirm s
  | .reprovision key confirm => Sys2Proof.Machine.execReprovision key confirm s
  | .updateLoad bytes => Sys2Proof.Machine.execUpdateLoad bytes s
  | .updateAbort => Sys2Proof.Machine.execUpdateAbort s
  | .updateHeader port mac seq bytes => Sys2Proof.Machine.execUpdateHeader port mac seq bytes s
  | .updateChunk port mac seq offset bytes => Sys2Proof.Machine.execUpdateChunk port mac seq offset bytes s
  | .updateAbortFrame port mac seq => Sys2Proof.Machine.execUpdateAbortFrame port mac seq s
  | .stagingVerified => Sys2Proof.Machine.execStagingVerified s
  | .stagingTimeout => Sys2Proof.Machine.execStagingTimeout s
  | .activate target => Sys2Proof.Machine.execActivate target s
  | .disarm => Sys2Proof.Machine.execDisarm s
  | .plannedRestart => Sys2Proof.Machine.execPlannedRestart s
  | .confirmSlot => Sys2Proof.Machine.execConfirmSlot s
  | .autoConfirm => Sys2Proof.Machine.execAutoConfirm s
  | .revert => Sys2Proof.Machine.execRevert s
  | .push => Sys2Proof.Machine.execPush s
  | .latchingRead fn off space len => Sys2Proof.Machine.execLatchingRead fn off s space len
  | .canRxError ch x err dataPhase severe => Sys2Proof.Machine.execCanRxError ch x err dataPhase severe s
  | .xon p => Sys2Proof.Machine.execXon p s
  | .doutJunctionCooled ch d => Sys2Proof.Machine.execDoutJunctionCooled ch d s
  | .aoutCurrentLimit ch t inLimit => Sys2Proof.Machine.execAoutCurrentLimit ch t inLimit s
  | .dieTemperatureLimit => Sys2Proof.Machine.execDieTemperatureLimit s
  | .uncorrectableMemoryError => Sys2Proof.Machine.execUncorrectableMemoryError s
  | .hostPortBufferError multi fn ring chain => Sys2Proof.Machine.execHostPortBufferError multi fn ring chain s
  | .pcieLinkUp speed width => Sys2Proof.Machine.execPcieLinkUp speed width s
  | .usbVbusSense above => Sys2Proof.Machine.execUsbVbusSense above s
  | .adcBurstConversion ch idx => Sys2Proof.Machine.execAdcBurstConversion ch idx s
  | .vaultJournalClose => Sys2Proof.Machine.execVaultJournalClose s
  | .healthReportSend => Sys2Proof.Machine.execHealthReportSend s
  | .ptpTransmit port kind => Sys2Proof.Machine.execPtpTransmit port kind s
  | .beaconSilenceStop ch => Sys2Proof.Machine.execBeaconSilenceStop ch s

end Sys2Proof.Machine
end

