-- ==== Sys2Proof/Safety.lean ====
section
/-! DEFINITION. What statements say of runs: completion, the canonical form of the register store, and the shape of
the state. -/

namespace Sys2Proof.Machine

/-- The keys of a map rise strictly. -/
def AMap.ok {α : Type} : AMap α → Bool
  | [] => true
  | [_] => true
  | p :: q :: t => p.1 < q.1 && AMap.ok (q :: t)

/-- The register store in canonical form: keys strictly rising, and no word listed at its reset value. -/
def regsOk (m : AMap Word) : Bool := AMap.ok m && m.all (fun p => p.2 != regReset (p.1 % 0x1000000))

/-- The fixed parts of the module are all there (R3, R53, R218). -/
def State.shaped (s : State) : Bool :=
  s.fns.length == 64 && s.chs.length == 8 && s.tsqs.length == 10 && s.nets.length == 2

/-- The invariant of the machine: canonical register store and fixed shape. -/
def State.Inv (s : State) : Prop := regsOk s.regs = true ∧ s.shaped = true

/-- A function answers configuration requests: it exists, the endpoint is ready and no FLR of it runs (R103, R104). -/
def State.cfgReady (s : State) (b : Nat) : Bool :=
  s.fnEn b && !s.host.perst && s.pwr.vinGood && s.host.ready && !(s.fn b).flrBusy

/-- The machine can take a step. -/
def State.Runs (s : State) : Prop := ∃ t, step s = .next t

/-- What a reset of a kind and the start that follows leave, seen from the state before (R433): the kind, no point
service yet, no role and no partner, and the hub's registers at their reset values, those of the backup domain kept
(the vault's interrupt bits aside, which the start may set). -/
def FreshStart (s t : State) (kind : Nat) : Prop :=
  t.pwr.kind = kind ∧ t.pwr.service = false ∧ t.pwr.begun = false ∧ t.pwr.warn = false ∧
  t.pair.role = 0 ∧ t.pair.partner = none ∧ t.pair.yielding = none ∧
  ∀ k, k < 0x100000 → k ≠ 0x90080 → t.reg k = if 0xB0000 ≤ k ∧ k < 0xC0000 then s.reg k else State.reset.reg k

end Sys2Proof.Machine
end

