-- ==== Sys2Proof/Certificates/Slice0/Obligations.lean ====
section
/-! DEFINITION. The statements about the module, for the provers. -/

open Sys2Proof Sys2Proof.Machine Sys2Proof.Config

/-- R26, R27, R43 (POINT_UPDATE): the hub compares the update's owner tag with the directory; an update whose tag is
the owner's writes the mirror entry, with the running epoch; one whose tag is not is dropped and leaves every point as
it was. R24 (FORWARDED_UPDATE): the update at the head of the queue to the channel becomes usable there, while the link of the
channel is not lost (R30). -/
def Obligations.PointUpdates : Prop :=
  (∀ (s : State) (n : Nat) (u : Update) (us : List Update) (p : Point), (s.ch n).egress = u :: us →
    amGet s.points u.handle = some p → p.owner = u.tag →
    ∃ t q, exec (.pointUpdate n) s = .next t ∧ amGet t.points u.handle = some q ∧
      q.mir = { u.m with epoch := s.ws.epoch }) ∧
  (∀ (s : State) (n : Nat) (u : Update) (us : List Update) (p : Point), (s.ch n).egress = u :: us →
    amGet s.points u.handle = some p → p.owner ≠ u.tag →
    ∃ t, exec (.pointUpdate n) s = .next t ∧ t.points = s.points ∧ (t.ch n).egress = us) ∧
  (∀ (s : State) (n : Nat) (u : Update) (us : List Update), (s.ch n).ingress = u :: us → s.linkDown n = false →
    ∃ t, exec (.forwardedUpdate n) s = .next t ∧ amGet (t.ch n).inputs u.handle = some u.m ∧ (t.ch n).ingress = us ∧
      t.points = s.points)

/-- R47, R48, R59 (MIRSEL_WRITE): the snapshot holds the entry of a point the function may see, with STATUS 0; a handle
it may not see, or an unused one, gives NO_POINT and zeros. R46 (DIRWIN_WRITE): the window register holds EN. -/
def Obligations.MirrorWindow : Prop :=
  (∀ (s : State) (fn h : Nat) (p : Point), s.shaped = true → fn < 64 → s.reaches 0x4F010 = true →
    amGet s.points (h % 16384) = some p → s.sees fn (h % 16384) = true →
    ∃ t, exec (.mirselWrite fn h) s = .next t ∧ (t.fn fn).mirsel = h % 16384 ∧ (t.fn fn).mirStat = 0 ∧
      (t.fn fn).mirdata = mirWords s (h % 16384) p ∧ t.points = s.points) ∧
  (∀ (s : State) (fn h : Nat), s.shaped = true → fn < 64 → s.reaches 0x4F010 = true → s.sees fn (h % 16384) = false →
    ∃ t, exec (.mirselWrite fn h) s = .next t ∧ (t.fn fn).mirsel = h % 16384 ∧ (t.fn fn).mirStat = 1 ∧
      (t.fn fn).mirdata = List.replicate 8 0 ∧ t.points = s.points) ∧
  (∀ (s : State) (en : Bool), s.reaches 0x4F000 = true →
    ∃ t, exec (.dirwinWrite en) s = .next t ∧ t.reg 0x4F000 = mkBit 0 en ∧ (∀ k, k ≠ 0x4F000 → t.reg k = s.reg k) ∧
      t.points = s.points)

/-- R51 rules 3 and 4 (MIN_INT_EXPIRY, MAX_INT_EXPIRY): a pending point whose value still passes is delivered with its
present mirror value when MIN_INT expires, one that no longer passes loses its pending mark; when MAX_INT expires the
present value is delivered whether or not it passes. A delivery stores its value, quality and instant as the last
delivered ones. -/
def Obligations.DeliveryTimers : Prop :=
  (∀ (s : State) (h : Nat) (p : Point), amGet s.points h = some p → p.held = true → covPasses p p.mir true = true →
    ∃ t q, exec (.minIntExpiry h) s = .next t ∧ amGet t.points h = some q ∧ q.lastVal = p.mir.value ∧
      q.lastQual = p.mir.quality ∧ q.lastTick = s.ticks ∧ q.held = false ∧ q.mir = p.mir) ∧
  (∀ (s : State) (h : Nat) (p : Point), amGet s.points h = some p → p.held = true → covPasses p p.mir true = false →
    ∃ t q, exec (.minIntExpiry h) s = .next t ∧ amGet t.points h = some q ∧ q.held = false ∧ q.minDone = true ∧
      q.lastVal = p.lastVal ∧ q.mir = p.mir ∧ t.out = s.out) ∧
  (∀ (s : State) (h : Nat) (p : Point), amGet s.points h = some p → p.maxInt ≠ 0 →
    ∃ t q, exec (.maxIntExpiry h) s = .next t ∧ amGet t.points h = some q ∧ q.lastVal = p.mir.value ∧
      q.lastQual = p.mir.quality ∧ q.lastTick = s.ticks ∧ q.held = false ∧ q.minDone = false ∧ q.mir = p.mir)

/-- R30, R31, R32 (LINK_LOST, LINK_RETURN, RESEND_COMPLETE): a fitted channel that is served enters LINK_LOST, its link
is down, the loss is counted, the state it held and the hub's copy of its state bits are kept; the link returns while it
stays LINK_LOST and relocks first; once it has relocked and no resent update is on its way it returns to the state it
held. -/
def Obligations.ChannelLink : Prop :=
  (∀ (s : State) (n : Nat), s.shaped = true → s.fitted n = true → (s.ch n).state ≠ .absent → (s.ch n).state ≠ .linkLost →
    (s.ch n).state ≠ .fault →
    ∃ t, exec (.linkLost n) s = .next t ∧ (t.ch n).state = .linkLost ∧ (t.ch n).prior = (s.ch n).state ∧
      (t.ch n).xbarUp = false ∧ (t.ch n).lossCnt = satInc 255 (s.ch n).lossCnt) ∧
  (∀ (s : State) (n : Nat), s.shaped = true → n < 8 → (s.ch n).state = .linkLost → (s.ch n).xbarUp = false →
    ∃ t, exec (.linkReturn n) s = .next t ∧ (t.ch n).state = .linkLost ∧ (t.ch n).xbarUp = true ∧
      (t.ch n).relock = true ∧ (t.ch n).prior = (s.ch n).prior ∧ (t.ch n).lossCnt = (s.ch n).lossCnt ∧
      (t.ch n).egress = (s.ch n).egress ∧ t.points = s.points) ∧
  (∀ (s : State) (n : Nat), s.shaped = true → n < 8 → (s.ch n).state = .linkLost → (s.ch n).xbarUp = true →
    (s.ch n).relock = false → (∀ u ∈ (s.ch n).egress, u.resent = false) →
    ∃ t, exec (.resendComplete n) s = .next t ∧ (t.ch n).state = (s.ch n).prior ∧ (t.ch n).xbarUp = true ∧
      (t.ch n).lossCnt = (s.ch n).lossCnt)

/-- R64 (PASS_EXPIRY): with valid time at or past EXPIRY the pass ends and is gone. R66 (BASIN_REMOVE): accepted while EN
is 0, it leaves the basin without points and assignments and its configuration 0. R66 (BASIN_REMOVE_DONE): REMOVING of
that basin alone returns to 0. -/
def Obligations.PassesAndRemoval : Prop :=
  (∀ (s : State) (id : Nat) (p : Pass), amGet s.ws.passes id = some p → p.expiry ≠ 0 → s.timeValid = true →
    p.expiry * giga ≤ s.time.now →
    ∃ t, exec (.passExpiry id) s = .next t ∧ amGet t.ws.passes id = none ∧
      (∀ j, j ≠ id → amGet t.ws.passes j = amGet s.ws.passes j) ∧ t.points = s.points) ∧
  (∀ (s : State) (b : Nat), 1 ≤ b → b ≤ 63 → s.reaches 0x4F100 = true → s.basinEn b = false →
    s.ws.removing.contains b = false →
    ∃ t, exec (.basinRemove b) s = .next t ∧ t.reg (0x4F100 + 4 * b) = 0 ∧ (∀ a ∈ t.ws.assigns, a.2.basin ≠ b) ∧
      (∀ h p, amGet t.points h = some p → p.owner ≠ b)) ∧
  (∀ (s : State) (b : Nat), ∃ t, exec (.basinRemoveDone b) s = .next t ∧ t.ws.removing.contains b = false ∧
    (∀ c, c ≠ b → t.ws.removing.contains c = s.ws.removing.contains c) ∧ t.points = s.points)

/-- R58, R368 (COMMAND_AT_CHANNEL): the channel compares the tag of the command at the head of the queue with its own copy;
one that fails is refused with NOT_OWNER (0x0A) and touches no terminal; one for a digital output that passes sets the commanded state, and the
outcome 0 leaves for the hub. R130, R131 (OUTCOME_REPORTED): an outcome of a one-descriptor flight that reaches the hub
writes its completion at CPL_IDX and advances it; while the channel's link is lost it waits (R30). -/
def Obligations.CommandsAndOutcomes : Prop :=
  (∀ (s : State) (n : Nat) (c : ChCmd) (cs : List ChCmd) (p : Point), s.shaped = true → n < 8 →
    (s.ch n).cmds = c :: cs → amGet s.points c.handle = some p → (s.ch n).state = .inService → s.works n = true →
    tagOk p c.tag = true → s.loopOut c.handle = false → p.origin = 1 → 16 ≤ p.index → p.index < 24 → c.at? = none →
    s.guardHolds n = false → p.index - 16 < (s.dio n).dout.length → c.ring < 1024 →
    ∃ t, exec (.commandAtChannel n) s = .next t ∧ (t.dout n (p.index - 16)).cmd = (c.value.toNat % 2 == 1) ∧
      (t.ch n).reports.getLast? = some { ring := c.ring, flight := c.flight, status := 0, tsq := false, late := false,
                                         info := 0 }) ∧
  (∀ (s : State) (n : Nat) (c : ChCmd) (cs : List ChCmd) (p : Point), s.shaped = true → n < 8 →
    (s.ch n).cmds = c :: cs → amGet s.points c.handle = some p → (s.ch n).state = .inService → s.works n = true →
    tagOk p c.tag = false → c.ring < 1024 →
    ∃ t, exec (.commandAtChannel n) s = .next t ∧ t.points = s.points ∧ (t.ch n).dio = (s.ch n).dio ∧
      (t.ch n).reports.getLast? = some { ring := c.ring, flight := c.flight, status := 0x0A, tsq := false, late := false,
                                         info := 0 }) ∧
  (∀ (s : State) (n : Nat) (r : Report) (rs : List Report) (f : Flight) (k : Slot), (s.ch n).reports = r :: rs →
    r.ring < 1024 → (s.ring r.ring).flights.find? (fun f => f.id == r.flight) = some f → f.cookies = [k] →
    (s.ring r.ring).state = .active → (s.ring r.ring).held = [] → s.mayWrite (ringFn r.ring) = true →
    s.linkDown n = false →
    ∃ t, exec (.outcomeReported n) s = .next t ∧ (t.ring r.ring).cpl = ((s.ring r.ring).cpl + 1) % 65536 ∧
      (t.ring r.ring).flights = (s.ring r.ring).flights.filter (fun f => !(f.id == r.flight)) ∧
      .memWrite (ringFn r.ring) (s.reg64 (ringBase r.ring + 16) + 16 * ((s.ring r.ring).cpl % (s.ring r.ring).slots))
        (cplBytes (s.ring r.ring) { cookie := k, idx := f.idx % 65536, status := r.status, ckind := f.ckind, tsq := r.tsq,
                                    late := r.late || f.late, info := r.info }) ∈ t.out)

/-- R77 (BEGIN): an idle context whose scope the function may name becomes OPENED with the next identifier; a second BEGIN
ends with its own result and changes nothing else. R78 (STAGED_WRITE): a whole word written to a stageable register in
scope is added to the shadow, and no register changes. R84 (ROLLBACK): an OPENED transaction ends with its shadow thrown
away, and no register changes. -/
def Obligations.TransactionBuilt : Prop :=
  (∀ (s : State) (fn : Nat), s.lc.quar = 0 → s.txnRefused = false → (s.txn fn).state = .idle →
    scopeOk s fn (fld (s.regF fn 0x10004) 0 16) = true →
    ∃ t, exec (.beginTxn fn) s = .next t ∧ (t.txn fn).state = .opened ∧ (t.txn fn).id = s.nextTxn ∧
      (t.txn fn).scope = fld (s.regF fn 0x10004) 0 16 ∧ (t.txn fn).staged = [] ∧ (t.txn fn).result = 0 ∧
      t.nextTxn = (s.nextTxn + 1) % 2 ^ 32 ∧ t.regs = s.regs ∧ (∀ c, c ≠ fn → t.txn c = s.txn c)) ∧
  (∀ (s : State) (fn : Nat), s.lc.quar = 0 → s.txnRefused = false → (s.txn fn).state ≠ .idle →
    ∃ t, exec (.beginTxn fn) s = .next t ∧ t.txn fn = { s.txn fn with result := 13 } ∧ t.nextTxn = s.nextTxn) ∧
  (∀ (s : State) (fn off a : Nat) (data : BitVec 64), s.fnEn fn = true → (s.fn fn).mse = true → off % 4 = 0 →
    viewOffset fn off = some a → writeReaches s fn a = true → stages s fn a = true →
    (∀ e ∈ (s.txn fn).staged, e.key ≠ a) → (s.txn fn).staged.length < 4096 →
    ∃ t, exec (.stagedWrite fn off 4 data) s = .next t ∧
      (t.txn fn).staged = (s.txn fn).staged ++ [{ key := a, be := 15, data := data.setWidth 32 }] ∧
      (t.txn fn).state = .opened ∧ t.regs = s.regs ∧ t.low64 = s.low64 ∧ (∀ c, c ≠ fn → t.txn c = s.txn c)) ∧
  (∀ (s : State) (fn : Nat), fn < 64 → s.lc.quar = 0 → s.txnRefused = false → (s.txn fn).state = .opened →
    (s.txn fn).goSent = false → (s.txn fn).resetAfter = false →
    ∃ t, exec (.rollback fn) s = .next t ∧ (t.txn fn).state = .idle ∧ (t.txn fn).result = 2 ∧ (t.txn fn).staged = [] ∧
      (t.txn fn).id = (s.txn fn).id ∧ t.regs = s.regs)

/-- R79, R81, R82 (COMMIT_NOW, COMMIT_AT): an OPENED transaction that passes the checks becomes PREPARING, and its shadow
goes to every part its scope names and is held in the hub. PREPARE_ACK: the last acknowledgement makes it PENDING, at the
instant asked for or a sample boundary 250 µs ahead. TXN_PREP_TIMEOUT and TXN_GO_DEADLINE: it ends ABORTED (10). TXN_GO:
from 100 µs before its instant GO goes to every channel; GO_ACK takes a channel off the list. R80 (TXN_APPLY): at its
instant, with every acknowledgement, every part whose own time has reached it applies its staged writes in order; with
the last part the context is idle with an empty shadow, and until then it stays PENDING. -/
def Obligations.TransactionCommitted : Prop :=
  (∀ (s : State) (fn : Nat), s.lc.quar = 0 → s.txnRefused = false → (s.txn fn).state = .opened →
    commitCheck s fn false = 0 →
    ∃ t, exec (.commitNow fn) s = .next t ∧ (t.txn fn).state = .preparing ∧ (t.txn fn).isAt = false ∧
      (t.txn fn).waitPrep = (s.txn fn).channels ++ [8] ∧ (t.txn fn).staged = (s.txn fn).staged ∧
      t.out = s.out ++ ((s.txn fn).channels ++ [8]).map (fun n => .shadow fn n) ∧ t.regs = s.regs) ∧
  (∀ (s : State) (fn : Nat), s.lc.quar = 0 → s.txnRefused = false → (s.txn fn).state = .opened →
    commitCheck s fn true = 0 →
    ∃ t, exec (.commitAt fn) s = .next t ∧ (t.txn fn).state = .preparing ∧ (t.txn fn).isAt = true ∧
      (t.txn fn).apply = commitInstant s fn ∧ (t.txn fn).waitPrep = (s.txn fn).channels ++ [8] ∧
      t.out = s.out ++ ((s.txn fn).channels ++ [8]).map (fun n => .shadow fn n) ∧ t.regs = s.regs) ∧
  (∀ (s : State) (c ch : Nat), (s.txn c).state = .preparing → (s.txn c).waitPrep = [ch] →
    ∃ t, exec (.prepareAck c ch) s = .next t ∧ (t.txn c).state = .pending ∧ (t.txn c).waitPrep = [] ∧
      (t.txn c).apply = (if (s.txn c).isAt then (s.txn c).apply else ceilSample (s.time.now + 250000)) ∧
      (t.txn c).staged = (s.txn c).staged ∧ t.regs = s.regs) ∧
  (∀ (s : State) (c : Nat), c < 64 → (s.txn c).state = .preparing → (s.txn c).resetAfter = false →
    ∃ t, exec (.txnPrepTimeout c) s = .next t ∧ (t.txn c).state = .idle ∧ (t.txn c).result = 10 ∧
      (t.txn c).staged = []) ∧
  (∀ (s : State) (c : Nat), (s.txn c).state = .pending → (s.txn c).goSent = false →
    (s.txn c).apply ≤ s.time.now + 100000 →
    ∃ t, exec (.txnGo c) s = .next t ∧ (t.txn c).goSent = true ∧ (t.txn c).waitGo = (s.txn c).channels ∧
      t.out = s.out ++ (s.txn c).channels.map (fun n => .go c n) ∧ t.regs = s.regs) ∧
  (∀ (s : State) (c ch : Nat), (s.txn c).goSent = true →
    ∃ t, exec (.goAck c ch) s = .next t ∧ (t.txn c).waitGo = (s.txn c).waitGo.filter (fun n => !(n == ch)) ∧
      (t.txn c).state = (s.txn c).state ∧ t.regs = s.regs) ∧
  (∀ (s : State) (c : Nat), c < 64 → (s.txn c).state = .pending → (s.txn c).goSent = true → (s.txn c).waitGo ≠ [] →
    (s.txn c).resetAfter = false →
    ∃ t, exec (.txnGoDeadline c) s = .next t ∧ (t.txn c).state = .idle ∧ (t.txn c).result = 10 ∧
      (t.txn c).staged = []) ∧
  (∀ (s : State) (c : Nat), c < 64 → (s.txn c).state = .pending → partsDue s (s.txn c) ≠ [] → (s.txn c).waitGo = [] →
    ((s.txn c).goSent = true ∨ (s.txn c).channels = []) →
    ∃ t, exec (.txnApply c) s = .next t ∧
      (∀ k, t.reg k = (((s.txn c).staged.filter (fun e => (partsDue s (s.txn c)).contains (stagedPart e.key))).foldl (applyStaged c) s).reg k) ∧
      ((∀ n ∈ (s.txn c).channels ++ [8], n ∈ (s.txn c).parts ∨ n ∈ partsDue s (s.txn c)) →
        (t.txn c).state = .idle ∧ (t.txn c).staged = [] ∧ t.lastTxn = (s.txn c).id) ∧
      (∀ n ∈ (s.txn c).channels ++ [8], n ∉ (s.txn c).parts → n ∉ partsDue s (s.txn c) →
        t = (((s.txn c).staged.filter (fun e => (partsDue s (s.txn c)).contains (stagedPart e.key))).foldl (applyStaged c) s).modTxn c (fun x => { x with parts := x.parts ++ partsDue s (s.txn c) })))

/-- R103 (PERST_RELEASE, ENDPOINT_READY): the release is noted and nothing else; the endpoint then becomes ready, and the
module leaves STARTING. R90, R112 (PCIE_LINK_UP): the fastest common rate and the widest common width, and a link that
was down counts. R518
(USB_VBUS_SENSE): the pull-up follows VBUS while VIN is good. R94 (VF_ENABLE_WRITE): with VF Enable 0 a NumVFs of at most
63 is taken and VF Enable follows; clearing VF Enable keeps NumVFs; before the endpoint is ready the write gets
Configuration Request Retry Status and nothing else happens. -/
def Obligations.HostPortUp : Prop :=
  (∀ s : State, exec .perstRelease s = .next { s with host := { s.host with perst := false } }) ∧
  (∀ s : State, s.host.perst = false → s.pwr.vinGood = true →
    ∃ t, exec .endpointReady s = .next t ∧ t.host = { s.host with ready := true } ∧
      t.pwr.state = (if s.pwr.state = 0 then 1 else s.pwr.state)) ∧
  (∀ (s : State) (speed width : Nat), s.host.perst = false → s.pwr.vinGood = true → 1 ≤ speed → 1 ≤ width →
    exec (.pcieLinkUp speed width) s = .next { s with host := { s.host with
      speed := min 3 speed, width := if 4 ≤ width then 4 else if 2 ≤ width then 2 else 1,
      upCnt := if s.host.speed = 0 then satInc 255 s.host.upCnt else s.host.upCnt } }) ∧
  (∀ (s : State) (above : Bool),
    exec (.usbVbusSense above) s = .next { s with vbus := above, usb := above && s.pwr.vinGood }) ∧
  (∀ (s : State) (en : Bool) (num : Nat), s.cfgReady 0 = true → s.host.vfEnable = false → s.lc.quar = 0 → s.lc.state ≠ 5 → num ≤ 63 →
    exec (.vfEnableWrite en num) s = .next { s with host := { s.host with vfEnable := en, numVfs := num } }) ∧
  (∀ (s : State) (num : Nat), s.cfgReady 0 = true → s.host.vfEnable = true →
    ∃ t, exec (.vfEnableWrite false num) s = .next t ∧ t.host.vfEnable = false ∧ t.host.numVfs = s.host.numVfs) ∧
  (∀ (s : State) (en : Bool) (num : Nat), s.host.perst = false → s.pwr.vinGood = true → s.host.ready = false →
    exec (.vfEnableWrite en num) s = .next (s.emit (.configRetry 0 0x100C)))

/-- R104 (FLR, FLR_DONE): the virtual function's rings are reset and disabled, its DMA and MSI-X stop, its table is at its
reset value, and points and declarations are unchanged; the reset ends at FLR_DONE. R105 (PF_FLR): the same for basin 0,
with VF Enable cleared, the directory window closed and every alert but QUARANTINE cleared. R106 (HOST_PORT_RESET): the
link is down and every function is reset. -/
def Obligations.FunctionResets : Prop :=
  (∀ (s : State) (b : Nat), s.Inv → 1 ≤ b → b < 64 → s.cfgReady b = true →
    ∃ t, exec (.flr b) s = .next t ∧ (t.fn b).flrBusy = true ∧ (t.fn b).bme = false ∧ (t.fn b).mse = false ∧
      (t.fn b).msixEn = false ∧ (t.fn b).table = [] ∧ (∀ r, r < 16 → (t.ring (16 * b + r)).state = .disabled) ∧
      (∀ k, k / 16 ≠ b → t.ring k = s.ring k) ∧ t.points = s.points ∧ t.ws.loops = s.ws.loops ∧
      t.ws.passes = s.ws.passes ∧ t.ws.assigns = s.ws.assigns) ∧
  (∀ (s : State) (fn : Nat), s.shaped = true → fn < 64 →
    ∃ t, exec (.flrDone fn) s = .next t ∧ t.fn fn = { s.fn fn with flrBusy := false } ∧
      (∀ c, c ≠ fn → t.fn c = s.fn c) ∧ t.rings = s.rings) ∧
  (∀ s : State, s.Inv → s.host.numVfs < 64 → s.cfgReady 0 = true →
    ∃ t, exec .pfFlr s = .next t ∧ (t.fn 0).flrBusy = true ∧ (t.fn 0).bme = false ∧ t.host.vfEnable = false ∧
      t.host.numVfs = 0 ∧ t.reg 0x4F000 = 0 ∧ t.host.alert &&& 0xFFFFFFFE = 0 ∧
      (∀ r, r < 16 → (t.ring r).state = .disabled) ∧ t.points = s.points) ∧
  (∀ (s : State) (cause : HostResetCause), s.Inv → s.host.numVfs < 64 →
    ∃ t, exec (.hostPortReset cause) s = .next t ∧ (t.fn 0).bme = false ∧ t.host.vfEnable = false ∧ t.host.speed = 0 ∧
      t.host.width = 0 ∧ (cause = .perst → t.host.perst = true ∧ t.host.ready = false) ∧ t.points = s.points)

/-- R95, R529 (BUS_MASTER_CHANGE): Bus Master Enable and the power state of the function are as written; every other
function keeps its own. R99 (MSIX_UNMASK): the vector's mask is cleared with its address and data kept and the other
entries untouched; or Function Mask is cleared. -/
def Obligations.BusMasteringAndMsix : Prop :=
  (∀ (s : State) (b : Nat) (bme d3hot : Bool), s.shaped = true → b < 64 → s.cfgReady b = true →
    ∃ t, exec (.busMasterChange b bme d3hot) s = .next t ∧ (t.fn b).bme = bme ∧ (t.fn b).d3hot = d3hot ∧
      (t.fn b).mse = (s.fn b).mse ∧ (t.fn b).table = (s.fn b).table ∧ (∀ c, c ≠ b → (t.fn c).bme = (s.fn c).bme)) ∧
  (∀ (s : State) (b v : Nat), s.shaped = true → b < 64 →
    ∃ t, exec (.msixUnmask b (some v)) s = .next t ∧ (t.fn b).entry v = { (s.fn b).entry v with masked := false } ∧
      (∀ w, w ≠ v → (t.fn b).entry w = (s.fn b).entry w) ∧ (t.fn b).fmask = (s.fn b).fmask) ∧
  (∀ (s : State) (b : Nat), s.shaped = true → b < 64 →
    ∃ t, exec (.msixUnmask b none) s = .next t ∧ (t.fn b).fmask = false ∧ (t.fn b).table = (s.fn b).table)

/-- R100 to R102 (TLP_ERROR): a correctable error is logged in function 0 and counted; a link-level uncorrectable one is
logged in function 0; a request's error is logged in its function; a failed completion is logged and halts the ring it
belongs to, with FETCH_ERR in a descriptor fetch and BUF_ERR in a buffer read. COMPLETION_TIMEOUT, DMA_READ_FAILURE: the
ring halts in the same way. HOST_PORT_BUFFER_ERROR: corrected, it is counted; otherwise the ring halts with INTERNAL.
UNCORRECTABLE_MEMORY_ERROR and DIE_TEMPERATURE_LIMIT set their alerts. -/
def Obligations.HostPortErrors : Prop :=
  (∀ (s : State) (e : TlpError) (fn : Nat) (ring : Option Nat) (chain : List (BitVec 512)), s.shaped = true →
    e = .receiver ∨ e = .badTlp ∨ e = .badDllp ∨ e = .replayTimeout ∨ e = .replayRollover →
    ∃ t, exec (.tlpError e fn ring chain) s = .next t ∧ t.host.corrCnt = satInc 65535 s.host.corrCnt ∧
      .tlp e ∈ (t.fn 0).aer ∧ t.rings = s.rings ∧ t.points = s.points) ∧
  (∀ (s : State) (e : TlpError) (fn : Nat) (ring : Option Nat) (chain : List (BitVec 512)), s.shaped = true →
    e = .dataLink ∨ e = .flowControl ∨ e = .overflow ∨ e = .malformed ∨ e = .unexpected →
    ∃ t, exec (.tlpError e fn ring chain) s = .next t ∧ .tlp e ∈ (t.fn 0).aer ∧ t.host = s.host ∧ t.rings = s.rings) ∧
  (∀ (s : State) (e : TlpError) (fn : Nat) (ring : Option Nat) (chain : List (BitVec 512)), s.shaped = true → fn < 64 →
    e = .poisonedWrite ∨ e = .ecrcRequest ∨ e = .unsupported →
    ∃ t, exec (.tlpError e fn ring chain) s = .next t ∧ .tlp e ∈ (t.fn fn).aer ∧ t.host = s.host ∧ t.rings = s.rings) ∧
  (∀ (s : State) (e : TlpError) (fn r : Nat) (chain : List (BitVec 512)), s.shaped = true → fn < 64 → r < 16 →
    (s.ring (16 * fn + r)).state = .active →
    e = .poisonedCompletion ∨ e = .ecrcCompletion ∨ e = .urCompletion ∨ e = .caCompletion →
    ∃ t, exec (.tlpError e fn (some r) chain) s = .next t ∧ .tlp e ∈ (t.fn fn).aer ∧
      (t.ring (16 * fn + r)).state = .halted ∧ (t.ring (16 * fn + r)).haltCause = if chain.isEmpty then 1 else 2) ∧
  (∀ (s : State) (fn r : Nat) (chain : List (BitVec 512)), s.shaped = true → fn < 64 → r < 16 →
    (s.ring (16 * fn + r)).state = .active →
    ∃ t, exec (.completionTimeout fn r chain) s = .next t ∧ .completionTimeout ∈ (t.fn fn).aer ∧
      (t.ring (16 * fn + r)).state = .halted ∧ (t.ring (16 * fn + r)).haltCause = if chain.isEmpty then 1 else 2) ∧
  (∀ (s : State) (fn r : Nat) (chain : List (BitVec 512)), r < 16 → (s.ring (16 * fn + r)).state = .active →
    ∃ t, exec (.dmaReadFailure fn r chain) s = .next t ∧ (t.ring (16 * fn + r)).state = .halted ∧
      (t.ring (16 * fn + r)).haltCause = if chain.isEmpty then 1 else 2) ∧
  (∀ (s : State) (fn : Nat) (ring : Option Nat) (chain : List (BitVec 512)), s.shaped = true →
    ∃ t, exec (.hostPortBufferError false fn ring chain) s = .next t ∧ .correctedInternal ∈ (t.fn 0).aer ∧
      t.host.corrCnt = satInc 65535 s.host.corrCnt ∧ t.rings = s.rings) ∧
  (∀ (s : State) (fn r : Nat) (chain : List (BitVec 512)), s.shaped = true → fn < 64 → r < 16 →
    (s.ring (16 * fn + r)).state = .active →
    ∃ t, exec (.hostPortBufferError true fn (some r) chain) s = .next t ∧ .uncorrectableInternal ∈ (t.fn fn).aer ∧
      (t.ring (16 * fn + r)).state = .halted ∧ (t.ring (16 * fn + r)).haltCause = 3) ∧
  (∀ s : State, ∃ t, exec .uncorrectableMemoryError s = .next t ∧ bitN t.host.alert 7 = true ∧ t.pair.memErr = true ∧
    t.points = s.points) ∧
  (∀ s : State, ∃ t, exec .dieTemperatureLimit s = .next t ∧ t.host = { s.host with alert := setBit s.host.alert 6 } ∧
    bitN t.host.alert 6 = true ∧ t.pair = s.pair ∧ t.points = s.points)

/-- R109, R112 (SMBUS_IDENT, SMBUS_HEALTH, SMBUS_READ_ALERT): from 150 ms after VIN good the module answers the address its
strap gave at VIN good: the block or word asked for is put out, with a Packet Error Code when the host clocks one more
byte, and nothing else changes but the number of the next free reading. SMBUS_CLEAR_ALERT: the bits written 1 are
cleared, but for QUARANTINE (bit 0). Before that, or at another address, a command is not acknowledged and does nothing. -/
def Obligations.SmbusCommands : Prop :=
  (∀ (s : State) (pec : Bool), s.pwr.vinGood = true → s.pwr.vinTick + 37500000 ≤ s.ticks →
    ∃ p, (pec = false → p = []) ∧ (pec = true → p.length = 1) ∧
      exec (.smbusIdent (if s.pwr.smbHigh then 0x5D else 0x5C) pec) s =
        .next { s with out := s.out ++ [.smbus (identBytes s ++ p)] }) ∧
  (∀ (s : State) (pec : Bool), s.pwr.vinGood = true → s.pwr.vinTick + 37500000 ≤ s.ticks →
    ∃ p, (pec = false → p = []) ∧ (pec = true → p.length = 1) ∧
      exec (.smbusHealth (if s.pwr.smbHigh then 0x5D else 0x5C) pec) s =
        .next { s with out := s.out ++ [.smbus (healthBytes s ++ p)], free := s.free + 1 }) ∧
  (∀ (s : State) (pec : Bool), s.pwr.vinGood = true → s.pwr.vinTick + 37500000 ≤ s.ticks →
    ∃ p, (pec = false → p = []) ∧ (pec = true → p.length = 1) ∧
      exec (.smbusReadAlert (if s.pwr.smbHigh then 0x5D else 0x5C) pec) s =
        .next { s with out := s.out ++ [.smbus (bytesLE 2 s.host.alert.toNat ++ p)] }) ∧
  (∀ (s : State) (bits : BitVec 16), s.pwr.vinGood = true → s.pwr.vinTick + 37500000 ≤ s.ticks →
    ∃ t, exec (.smbusClearAlert bits (if s.pwr.smbHigh then 0x5D else 0x5C)) s = .next t ∧
      bitN t.host.alert 0 = bitN s.host.alert 0 ∧
      (∀ i, 1 ≤ i → i ≤ 9 → bitN t.host.alert i = (bitN s.host.alert i && !bits.getLsbD i)) ∧ t.out = s.out) ∧
  (∀ (s : State) (addr : Nat) (pec : Bool) (bits : BitVec 16),
    s.pwr.vinGood = false ∨ s.ticks < s.pwr.vinTick + 37500000 ∨ addr ≠ (if s.pwr.smbHigh then 0x5D else 0x5C) →
    exec (.smbusIdent addr pec) s = .next s ∧ exec (.smbusHealth addr pec) s = .next s ∧
      exec (.smbusReadAlert addr pec) s = .next s ∧ exec (.smbusClearAlert bits addr) s = .next s)

/-- R144 (RING_ENABLE): a DISABLED ring with a good configuration starts at index 0 with the KIND and size written, ACTIVE
or WAIT_SERVICE; with a bad one CFG_ERR is set and it stays DISABLED. R145, R146 (RING_DISABLE, HALTED_RING_DISABLE): the
ring is DISABLING and keeps its KIND; RING_DISABLED: with everything fetched and completed a transmitting ring is
DISABLED. R115, R144 (EVENT_RING_CONTROL): the event ring starts with the size written, or stops. -/
def Obligations.RingControl : Prop :=
  (∀ (s : State) (b r : Nat) (ctl : Word), s.lc.quar = 0 → r < 16 → (s.ring (16 * b + r)).state = .disabled →
    fld ctl 1 3 ≤ 3 → 6 ≤ fld ctl 4 4 → addrsOk s (ringBase (16 * b + r)) = true → (s.fn b).bme = true →
    ∃ t, exec (.ringEnable b r ctl) s = .next t ∧
      t.ring (16 * b + r) = { Ring.reset with state := if s.serves then .active else .waitService,
                                              kind := fld ctl 1 3, sizeLog2 := fld ctl 4 4, armed := true } ∧
      (∀ j, j ≠ 16 * b + r → t.ring j = s.ring j) ∧ t.points = s.points) ∧
  (∀ (s : State) (b r : Nat) (ctl : Word), s.lc.quar = 0 → r < 16 → (s.ring (16 * b + r)).state = .disabled →
    3 < fld ctl 1 3 ∨ fld ctl 4 4 < 6 ∨ addrsOk s (ringBase (16 * b + r)) = false ∨ (s.fn b).bme = false →
    ∃ t, exec (.ringEnable b r ctl) s = .next t ∧ t.ring (16 * b + r) = { s.ring (16 * b + r) with cfgErr := true } ∧
      t.points = s.points ∧ t.out = s.out) ∧
  (∀ (s : State) (b r : Nat), s.lc.quar = 0 →
    (s.ring (16 * b + r)).state = .active ∨ (s.ring (16 * b + r)).state = .waitService →
    ∃ t, exec (.ringDisable b r) s = .next t ∧ (t.ring (16 * b + r)).state = .disabling ∧
      (t.ring (16 * b + r)).kind = (s.ring (16 * b + r)).kind) ∧
  (∀ (s : State) (b r : Nat), s.lc.quar = 0 → (s.ring (16 * b + r)).state = .halted →
    ∃ t, exec (.haltedRingDisable b r) s = .next t ∧ (t.ring (16 * b + r)).state = .disabling ∧
      (t.ring (16 * b + r)).haltCause = (s.ring (16 * b + r)).haltCause) ∧
  (∀ (s : State) (b r : Nat) (posted : List (BitVec 512)), (s.ring (16 * b + r)).state = .disabling →
    (s.ring (16 * b + r)).kind = 1 ∨ (s.ring (16 * b + r)).kind = 2 → s.mayWrite b = true →
    (s.ring (16 * b + r)).held = [] → (s.ring (16 * b + r)).hw = (s.ring (16 * b + r)).sw →
    (s.ring (16 * b + r)).flights = [] →
    ∃ t, exec (.ringDisabled b r posted) s = .next t ∧ (t.ring (16 * b + r)).state = .disabled ∧
      (t.ring (16 * b + r)).haltCause = (s.ring (16 * b + r)).haltCause ∧ t.points = s.points) ∧
  (∀ (s : State) (b : Nat) (ctl : Word), s.lc.quar = 0 → (s.ev b).state = .disabled → bitN ctl 0 = true →
    6 ≤ fld ctl 4 4 → addrsOk s (evBase b) = true → (s.fn b).bme = true →
    ∃ t, exec (.eventRingControl b ctl) s = .next t ∧
      (t.ev b).state = (if s.serves || (decide (b = 0) && s.pwr.begun) then .active else .waitService) ∧
      (t.ev b).sizeLog2 = fld ctl 4 4 ∧ (t.ev b).cons = 0 ∧ t.rings = s.rings) ∧
  (∀ (s : State) (b : Nat) (ctl : Word), s.lc.quar = 0 → (s.ev b).state ≠ .disabled → bitN ctl 0 = false →
    ∃ t, exec (.eventRingControl b ctl) s = .next t ∧ (t.ev b).state = .disabled ∧ t.rings = s.rings)

/-- R121, R122 (DOORBELL): a valid producer index of an ACTIVE transmitting ring is taken and nothing else changes; an
invalid one leaves the index and sets DB_ERR. EVCONS_WRITE: a valid consumer index is taken. R142, R143 (MODERATION_TIMER): a ring
with pending items that is armed, or need not be (ARM_MODE 0), sends, and nothing is pending any more. R129, R136 (FRAME_RECEIVED): the oldest staged
frame, when it fits the first posted buffer, is written back there as one complete slot, and HW_IDX advances. -/
def Obligations.RingTraffic : Prop :=
  (∀ (s : State) (b r : Nat) (be : BitVec 8) (data : BitVec 64), s.fnEn b = true → (s.fn b).mse = true →
    s.lc.quar = 0 → r < 16 →
    (s.ring (16 * b + r)).state = .active → (s.ring (16 * b + r)).kind ≠ 0 → be.getLsbD 0 = true → be.getLsbD 1 = true →
    be.getLsbD 2 = false → be.getLsbD 4 = false → producerOk (s.ring (16 * b + r)) (data.toNat % 65536) = true →
    exec (.doorbell b r be data) s =
      .next (s.modRing (16 * b + r) (fun g => { g with sw := data.toNat % 65536 }))) ∧
  (∀ (s : State) (b r : Nat) (be : BitVec 8) (data : BitVec 64), s.fnEn b = true → (s.fn b).mse = true →
    s.lc.quar = 0 → r < 16 →
    (s.ring (16 * b + r)).state = .active → (s.ring (16 * b + r)).kind ≠ 0 → be.getLsbD 0 = true → be.getLsbD 1 = true →
    be.getLsbD 2 = false → be.getLsbD 4 = false → producerOk (s.ring (16 * b + r)) (data.toNat % 65536) = false →
    ∃ t, exec (.doorbell b r be data) s = .next t ∧ t.ring (16 * b + r) = { s.ring (16 * b + r) with dbErr := true } ∧
      t.points = s.points) ∧
  (∀ (s : State) (b : Nat) (data : Word), s.lc.quar = 0 → (s.ev b).state ≠ .disabled →
    consumerOk (s.ev b).cons (s.ev b).hw (fld data 0 16) = true →
    ∃ t, exec (.evconsWrite b data) s = .next t ∧ (t.ev b).cons = fld data 0 16 ∧ (t.ev b).state = (s.ev b).state ∧
      t.rings = s.rings) ∧
  (∀ (s : State) (b : Nat), (s.ev b).armed = true ∨ bitN (s.reg (evBase b + 4)) 24 = false → 0 < (s.ev b).pend →
    ∃ t, exec (.moderationTimer b 16) s = .next t ∧ (t.ev b).pend = 0 ∧ (t.ev b).cons = (s.ev b).cons ∧
      (t.ev b).armed = !bitN (s.reg (evBase b + 4)) 24) ∧
  (∀ (s : State) (b r : Nat), r < 16 →
    (s.ring (16 * b + r)).armed = true ∨ bitN (s.reg (ringBase (16 * b + r) + 4)) 24 = false →
    0 < (s.ring (16 * b + r)).pend →
    ∃ t, exec (.moderationTimer b r) s = .next t ∧
      t.ring (16 * b + r) = { s.ring (16 * b + r) with pend := 0,
                                                       armed := !bitN (s.reg (ringBase (16 * b + r) + 4)) 24 }) ∧
  (∀ (s : State) (b r src len : Nat) (f : RxFrame) (d : BitVec 512) (ds : List (BitVec 512)), r < 16 →
    oldestFrame (stagedFor s (16 * b + r)) = some (src, f) → (s.ring (16 * b + r)).state = .active →
    (s.ring (16 * b + r)).kind = 3 → (s.ring (16 * b + r)).held = [] → s.mayWrite b = true → s.basinEn b = true →
    1 ≤ idxDist (s.ring (16 * b + r)).sw (s.ring (16 * b + r)).hw → rxLen d = some len → f.payload.length ≤ len →
    ∃ t, exec (.frameReceived b r (d :: ds)) s = .next t ∧
      (t.ring (16 * b + r)).hw = ((s.ring (16 * b + r)).hw % 65536 + 1) % 65536 ∧
      .memWrite b (s.reg64 (ringBase (16 * b + r) + 8) + 64 * ((s.ring (16 * b + r)).hw % 65536 %
        (s.ring (16 * b + r)).slots)) (rxSlot f d f.payload.length true true false f.payload.length) ∈ t.out)

/-- R139 (POINT_COMMAND): a command that passes its checks is passed, in order, to the channel of its point, and its
descriptor is taken; one that fails (but for TIME_PAST) is completed at once with the status of the check, its cookie and
index. R140, R311 (FRAME_TRANSMIT): a classic or FD frame that passes is entered in the transmit queue of its CAN
controller by rank. R141, R319 (CANCEL_FRAME): a frame that has not won arbitration leaves the queue, with CANCELLED for
the frame and OK for the request. R243 (CANCEL_BY_COOKIE): a waiting entry of the hub list is gone and the request
completes OK. -/
def Obligations.Descriptors : Prop :=
  (∀ (s : State) (b r : Nat) (d : BitVec 256) (p : Point), s.shaped = true → r < 16 →
    mayFetch s (16 * b + r) 1 1 = true → (s.ring (16 * b + r)).state = .active → cmdKind d ≠ 0x11 →
    cmdCheck s b d = 0 → amGet s.points (cmdHandle d) = some p → p.isHub = false → p.channel < 8 →
    ∃ t, exec (.pointCommand b r d) s = .next t ∧
      (t.ch p.channel).cmds = (s.ch p.channel).cmds ++ [{
        handle := cmdHandle d, value := cmdValue d, tag := b, ring := 16 * b + r, flight := s.serial,
        cookie := cmdCookie d, at? := if cmdAt d then some (cmdInstant d) else none, tol := cmdTol d }] ∧
      (t.ring (16 * b + r)).hw = ((s.ring (16 * b + r)).hw + 1) % 65536 ∧ t.points = s.points) ∧
  (∀ (s : State) (b r e : Nat) (d : BitVec 256), b < 64 → r < 16 → mayFetch s (16 * b + r) 1 1 = true →
    (s.ring (16 * b + r)).state = .active → (s.ring (16 * b + r)).held = [] →
    (∀ g ∈ (s.ring (16 * b + r)).flights, g.id ≠ s.serial) → cmdKind d ≠ 0x11 → cmdCheck s b d = e → e ≠ 0 → e ≠ 5 →
    ∃ t, exec (.pointCommand b r d) s = .next t ∧
      .memWrite b (s.reg64 (ringBase (16 * b + r) + 16) + 16 * ((s.ring (16 * b + r)).cpl % (s.ring (16 * b + r)).slots))
        (cplBytes (s.ring (16 * b + r))
          { cookie := cmdCookie d, idx := (s.ring (16 * b + r)).hw % 65536, status := e, ckind := 0, tsq := false,
            late := false, info := 0 }) ∈ t.out ∧
      (t.ring (16 * b + r)).flights = (s.ring (16 * b + r)).flights ∧ t.chs = s.chs) ∧
  (∀ (s : State) (b r : Nat) (d : BitVec 512) (ds : List (BitVec 512)) (payload : List Byte) (f : TxFrame),
    s.shaped = true → r < 16 → oneChain (d :: ds) = true → mayFetch s (16 * b + r) (ds.length + 1) 2 = true →
    (s.ring (16 * b + r)).state = .active → frameCheck s b (d :: ds) payload = 0 → canTarget (frmTarget d) = true →
    frmTarget d < 32 → (s.ch (frmTarget d / 4)).can.length = 2 → frmAt d = false →
    frameOf s b (16 * b + r) d s.serial (s.ring (16 * b + r)).hw payload = some f →
    (s.can (frmTarget d / 4) (frmTarget d % 4)).down = false →
    ∃ t, exec (.frameTransmit b r (d :: ds) payload) s = .next t ∧
      (t.can (frmTarget d / 4) (frmTarget d % 4)).txq = queueInsert (s.can (frmTarget d / 4) (frmTarget d % 4)).won
        { f with order := s.frames, late := false } (s.can (frmTarget d / 4) (frmTarget d % 4)).txq ∧
      (t.ring (16 * b + r)).hw = ((s.ring (16 * b + r)).hw + (ds.length + 1)) % 65536 ∧ t.points = s.points) ∧
  (∀ (s : State) (b r n : Nat) (d : BitVec 256) (f : TxFrame), s.shaped = true → b < 64 → r < 16 → n < 8 →
    (s.ch n).can.length = 2 → mayFetch s (16 * b + r) 1 1 = true → (s.ring (16 * b + r)).state = .active → cmdKind d = 0x11 →
    s.basinEn b = true → cancelBy d = false → (s.ring (16 * b + d32 d 26 0 4)).state ≠ .disabled →
    (s.ring (16 * b + d32 d 26 0 4)).kind = 2 → d32 d 26 0 4 ≠ r →
    (∀ m < n, ∀ x, (s.can m x).txq.find? (isTarget (16 * b + d32 d 26 0 4) (d32 d 24 0 16)) = none ∧
      (s.seg m x).txq.find? (isTarget (16 * b + d32 d 26 0 4) (d32 d 24 0 16)) = none) →
    (s.can n 0).txq.find? (isTarget (16 * b + d32 d 26 0 4) (d32 d 24 0 16)) = some f → f.table = 9 → f.cancel = [] →
    f.ring < 1024 → (s.can n 0).won = false → (s.ch n).state ≠ .linkLost →
    ∃ t, exec (.cancelFrame b r d false) s = .next t ∧
      (t.can n 0).txq = (s.can n 0).txq.filter (fun g => !isTarget (16 * b + d32 d 26 0 4) (d32 d 24 0 16) g) ∧
      (t.ch n).reports = (s.ch n).reports ++
        [{ ring := f.ring, flight := f.flight, status := 2, tsq := false, late := f.late, info := 0 },
         { ring := 16 * b + r, flight := s.serial, status := 0, tsq := false, late := false, info := 0 }]) ∧
  (∀ (s : State) (b r i : Nat) (d : BitVec 256) (e : Entry), b < 64 → r < 16 → mayFetch s (16 * b + r) 1 1 = true →
    (s.ring (16 * b + r)).state = .active → (s.ring (16 * b + r)).held = [] →
    (∀ g ∈ (s.ring (16 * b + r)).flights, g.id ≠ s.serial) → cmdKind d = 0x11 → s.basinEn b = true →
    cancelBy d = true → (∀ n < 8, (s.ch n).table.entries = []) → s.hlist.entries = [(i, e)] → e.origin ≠ .declared →
    e.basin = b → e.cookie = BitVec.ofNat 64 (d32 d 16 0 64) → e.waiting = false → inWindow s 8 e = false →
    ∃ t, exec (.cancelByCookie b r d) s = .next t ∧ t.hlist.entries = [] ∧
      .memWrite b (s.reg64 (ringBase (16 * b + r) + 16) + 16 * ((s.ring (16 * b + r)).cpl % (s.ring (16 * b + r)).slots))
        (cplBytes (s.ring (16 * b + r))
          { cookie := cmdCookie d, idx := (s.ring (16 * b + r)).hw % 65536, status := 0, ckind := 2, tsq := false,
            late := false, info := 0 }) ∈ t.out)

/-- R153, R156 (SUBMIT): a POINT record that passes every check becomes a point of the function at the handle it asked
for or the lowest free one; one that fails changes nothing but DECLSTAT, with the code of the first check that fails.
R163 (WITHDRAW): a point no loop or action uses is gone, and a subscription is gone. R59, R164 (QUERY): the declaration
buffer holds the record with its placement, of a declaration of the function or of a pass it holds. R150 (PLACE_NOW): the next pass is a rebalance. Each ends with
RESULT and the identifier in DECLSTAT. -/
def Obligations.Declarations : Prop :=
  (∀ (s : State) (fn h : Nat), s.Inv → fn < 64 → s.lc.quar = 0 →
    (s.fn fn).declCmd = 0 ∨ (s.fn fn).declCmd = 1 → submitCheck s fn (declBuf s fn) = 1 →
    rec64 (declBuf s fn) 0 0 8 = 2 → newHandle s (declBuf s fn) = some h →
    ∃ t, exec (.submit fn) s = .next t ∧ t.points = amSet s.points h (pointOf fn h (declBuf s fn)) ∧
      (t.fn fn).declRes = 1 ∧ (t.fn fn).declId = h ∧ (t.fn fn).declCmd = 0 ∧
      t.ws.dirgen = (s.ws.dirgen + 1) % 2 ^ 32 ∧ t.regs = s.regs) ∧
  (∀ (s : State) (fn : Nat), s.lc.quar = 0 → (s.fn fn).declCmd = 0 ∨ (s.fn fn).declCmd = 1 →
    submitCheck s fn (declBuf s fn) ≠ 1 →
    exec (.submit fn) s = .next (s.modFn fn (fun f =>
      { f with declCmd := 0, declRes := submitCheck s fn (declBuf s fn), declId := 0 }))) ∧
  (∀ (s : State) (fn h : Nat), s.Inv → fn < 64 → s.lc.quar = 0 →
    (s.fn fn).declCmd = 0 ∨ (s.fn fn).declCmd = 2 → declRefused s = false → basinOff s fn = false → rec64 (declBuf s fn) 0 0 8 = 2 →
    rec64 (declBuf s fn) 2 0 16 = h → declNamed s fn 2 h = 1 → pointUsed s h = false →
    ∃ t, exec (.withdraw fn) s = .next t ∧ t.points = amDel s.points h ∧ (t.fn fn).declRes = 1 ∧
      (t.fn fn).declId = h) ∧
  (∀ (s : State) (fn id : Nat), s.Inv → fn < 64 → s.lc.quar = 0 →
    (s.fn fn).declCmd = 0 ∨ (s.fn fn).declCmd = 2 → declRefused s = false → basinOff s fn = false → rec64 (declBuf s fn) 0 0 8 = 4 →
    rec64 (declBuf s fn) 2 0 16 = id → declNamed s fn 4 id = 1 →
    ∃ t, exec (.withdraw fn) s = .next t ∧ t.ws.subs = amDel s.ws.subs id ∧ (t.fn fn).declRes = 1 ∧
      t.points = s.points) ∧
  (∀ (s : State) (fn dt id i : Nat), s.Inv → fn < 64 → s.lc.quar = 0 →
    (s.fn fn).declCmd = 0 ∨ (s.fn fn).declCmd = 3 → basinOff s fn = false → rec64 (declBuf s fn) 0 0 8 = dt →
    rec64 (declBuf s fn) 2 0 16 = id →
    declNamed s fn dt id = 1 ∨ (dt = 6 ∧ ∃ p, amGet s.ws.passes id = some p ∧ p.grantee = fn) → (h : i < (queryRec s dt id).length) →
    ∃ t, exec (.query fn) s = .next t ∧ t.reg (fn * 0x1000000 + 0x40000 + 4 * i) = (queryRec s dt id)[i] ∧
      (t.fn fn).declRes = 1 ∧ (t.fn fn).declId = id ∧ t.points = s.points ∧ t.ws = s.ws) ∧
  (∀ (s : State), s.Inv → s.lc.quar = 0 → (s.fn 0).declCmd = 0 ∨ (s.fn 0).declCmd = 4 →
    declRefused s = false →
    ∃ t, exec (.placeNow 0) s = .next t ∧ t.ws.rebalance = true ∧ t.ws.trigger.isSome = true ∧
      (t.fn 0).declRes = 1 ∧ t.points = s.points ∧ t.rings = s.rings)

/-- R148, R179 (PLACEMENT_PASS): a waiting trigger with no pass under way gives a plan, and where it changes
anything a Watershed transaction is prepared in context 64, with the next transaction number, in every channel it names,
each IN_SERVICE, and in the hub; no register changes yet. REBALANCE_TIMER: an unbalanced pool
with REBALANCE on makes the next pass a rebalance. R182 (TAKE_OUT): a channel of the pool is draining and a pass
follows; CHANNEL_DRAINED: nothing left on it, it is OUT_OF_SERVICE, or will be when its lost link returns. R181 (BRING_IN): it is IN_SERVICE and in the
pool. R183 (CHANNEL_FAULT): the channel is in FAULT with its crossbar isolated and nothing queued to the hub. -/
def Obligations.ChannelService : Prop :=
  (∀ (s : State) (tr : Nat), s.ws.trigger = some tr → s.ws.plan = none → declRefused s = false →
    (s.txn 64).state = .idle → (∀ o ∈ s.txns, o.1 ≠ 64 → o.2.state ≠ .preparing ∧ o.2.state ≠ .pending) →
    (decidePlan s tr).idle s = false → (∀ n ∈ planChannels s (decidePlan s tr), s.inService n = true) →
    ∃ t, exec .placementPass s = .next t ∧ t.ws.plan = some (decidePlan s tr) ∧ t.ws.trigger = none ∧
      t.ws.rebalance = false ∧ (t.txn 64).state = .preparing ∧ (t.txn 64).id = s.nextTxn ∧
      (t.txn 64).waitPrep = planChannels s (decidePlan s tr) ++ [8] ∧ t.nextTxn = (s.nextTxn + 1) % 2 ^ 32 ∧
      t.regs = s.regs ∧ t.rings = s.rings) ∧
  (∀ (s : State), bitN (s.reg 0x41000) 0 = true → declRefused s = false → unbalanced s = true →
    ∃ t, exec .rebalanceTimer s = .next t ∧ t.ws.rebalance = true ∧ t.ws.trigger.isSome = true ∧
      t.points = s.points ∧ t.chs = s.chs) ∧
  (∀ (s : State) (n : Nat), s.lc.quar = 0 → declRefused s = false → s.fitted n = true →
    s.ws.svc.getD n .absent = .inPool →
    (s.ch n).state = .inService ∨ (s.ch n).state = .linkLost ∨ (s.ch n).state = .starting →
    ∃ t, exec (.takeOut n) s = .next t ∧ t.ws.svc = s.ws.svc.set n .draining ∧ t.ws.trigger.isSome = true ∧
      t.chs = s.chs ∧ t.points = s.points) ∧
  (∀ (s : State) (n : Nat), s.shaped = true → n < 8 → s.ws.svc.getD n .absent = .draining → s.ws.plan = none →
    s.ws.loops.any (fun p => p.2.holds && p.2.channel == n) = false →
    s.ws.migrations.any (fun m => !m.arrived && (m.fromCh == n || m.toCh == n)) = false →
    (s.ch n).state = .inService →
    ∃ t, exec (.channelDrained n) s = .next t ∧ (t.ch n).state = .outOfService ∧ (t.ch n).xbarUp = (s.ch n).xbarUp ∧
      (∀ m, m ≠ n → (t.ch m).state = (s.ch m).state)) ∧
  (∀ (s : State) (n : Nat), s.shaped = true → n < 8 → s.ws.svc.getD n .absent = .draining → s.ws.plan = none →
    s.ws.loops.any (fun p => p.2.holds && p.2.channel == n) = false →
    s.ws.migrations.any (fun m => !m.arrived && (m.fromCh == n || m.toCh == n)) = false →
    (s.ch n).state = .linkLost →
    ∃ t, exec (.channelDrained n) s = .next t ∧ (t.ch n).state = .linkLost ∧ (t.ch n).prior = .outOfService) ∧
  (∀ (s : State) (n : Nat), s.shaped = true → n < 8 → s.lc.quar = 0 → declRefused s = false →
    s.ws.svc.getD n .absent = .out → (s.ch n).state = .outOfService →
    ∃ t, exec (.bringIn n) s = .next t ∧ (t.ch n).state = .inService ∧ t.ws.svc = s.ws.svc.set n .inPool ∧
      t.ws.trigger.isSome = true ∧ t.points = s.points ∧ (∀ m, m ≠ n → t.ch m = s.ch m)) ∧
  (∀ (s : State) (n : Nat) (conv : Bool), s.shaped = true → n < 8 → s.fitted n = true → (s.ch n).state ≠ .absent →
    (s.ch n).state ≠ .fault →
    ∃ t, exec (.channelFault n conv) s = .next t ∧ (t.ch n).state = .fault ∧ (t.ch n).xbarUp = false ∧
      (t.ch n).isoOk = ((s.ch n).isoOk && !conv) ∧ (∀ m, m ≠ n → (t.ch m).state = (s.ch m).state))

/-- R185 (MIGRATION_STATE_ARRIVAL): the new slot takes the state carried from the old one and waits no more.
R186 (MIGRATION_STATE_TIMEOUT): the new slot runs without it, primed anew when enabled. R184 (MIGRATION_RELEASE): the old
slot is free, the loop is placed, its migration is over, and (R45) the directory number has advanced if an entry changed. -/
def Obligations.LiveMigration : Prop :=
  (∀ (s : State) (m : Migration) (r : LoopRt), s.ws.migrations.find? (fun x => x.loop == m.loop) = some m →
    m.arrived = false → s.shaped = true → m.toCh < 8 → amGet (s.ch m.toCh).slots m.toSlot = some r →
    ∃ t, exec (.migrationStateArrival m.loop) s = .next t ∧
      t.slotRt m.toCh m.toSlot = carriedRt (s.slotRt m.fromCh m.fromSlot) r ∧
      (∀ x ∈ t.ws.migrations, x.loop = m.loop → x.arrived = true) ∧ t.points = s.points ∧ t.regs = s.regs) ∧
  (∀ (s : State) (m : Migration) (r : LoopRt) (l : Loop), s.ws.migrations.find? (fun x => x.loop == m.loop) = some m →
    amGet s.ws.loops m.loop = some l → m.arrived = false → s.shaped = true → m.toCh < 8 →
    amGet (s.ch m.toCh).slots m.toSlot = some r →
    ∃ t, exec (.migrationStateTimeout m.loop) s = .next t ∧
      t.slotRt m.toCh m.toSlot = { (if r.en then enableRt r else r) with waiting := false } ∧
      (∀ x ∈ t.ws.migrations, x.loop = m.loop → x.arrived = true) ∧ t.points = s.points) ∧
  (∀ (s : State) (m : Migration) (l : Loop), s.ws.migrations.find? (fun x => x.loop == m.loop) = some m →
    amGet s.ws.loops m.loop = some l → m.arrived = true → s.shaped = true → m.fromCh < 8 →
    ∃ t, exec (.migrationRelease m.loop) s = .next t ∧ amGet (t.ch m.fromCh).slots m.fromSlot = none ∧
      amGet t.ws.loops m.loop = some { l with st := .placed, fails := 0 } ∧
      t.ws.migrations = s.ws.migrations.filter (fun x => !(x.loop == m.loop)) ∧
      t.ws.dirgen = (if dirImage s = dirImage t then s.ws.dirgen else (s.ws.dirgen + 1) % 2 ^ 32) ∧ t.regs = s.regs)

/-- R199, R200, R201 (OFFSET_SAMPLE, OFFIN_WRITE): a sample of the source in force, below the step threshold while the
servo tracks, is the last offset, and the integrator and the rate follow by KI and KP within FMAX. R204 (SET): the class
is HOST and the step to the time given is armed. R196 (INVALIDATE): the class is INVALID. R202 (SOURCE_LOST): the rate
falls to the integrator and the class to HOLDOVER; at its end (HOLDOVER_END) the calendar takes over where it may, else
the class is INVALID. -/
def Obligations.HubTimebase : Prop :=
  (∀ (s : State) (src : TimeSource) (e l : Int), sampleClass s src = some s.time.cls → s.time.step = none →
    s.time.servo = .track → e.natAbs < stepThr s →
    ∃ t, exec (.offsetSample src e l) s = .next t ∧ t.time.offset = satS32 e ∧ t.time.step = none ∧
      t.time.integ = clampF s (s.time.integ -
        gainTerm e (gain (s.modTime (fun h => { h with syncL := sampleL src l })) 0x5004C 0x20000)) ∧
      t.time.adj = clampF s (t.time.integ -
        gainTerm e (gain (s.modTime (fun h => { h with syncL := sampleL src l })) 0x50048 0x220000)) ∧
      t.time.cls = s.time.cls) ∧
  (∀ (s : State) (data : Word), s.reaches 0x50038 = true → srcMode s = 4 → s.standby = false → s.time.cls = 2 →
    s.time.step = none → s.time.servo = .track → data.toInt.natAbs < stepThr s →
    ∃ t, exec (.offinWrite data) s = .next t ∧ t.time.offset = satS32 data.toInt ∧
      t.time.integ = clampF s (s.time.integ -
        gainTerm data.toInt (gain (s.modTime (fun h => { h with syncL := 0 })) 0x5004C 0x20000)) ∧
      t.time.cls = 2) ∧
  (∀ (s : State), s.reaches 0x50028 = true →
    srcMode s = 4 ∨ s.time.cls = 0 ∨ s.time.cls = 1 ∨ s.time.cls = 3 → (s.reg 0x5002C).toNat < giga →
    ∃ t, exec .setTime s = .next t ∧ t.time.cls = 2 ∧ t.time.cmdErr = false ∧
      t.time.step = some { value := s.regInstant 0x5002C, cause := 1, y := none } ∧ t.time.now = s.time.now) ∧
  (∀ (s : State), s.reaches 0x50028 = true →
    ∃ t, exec .invalidate s = .next t ∧ t.time.cls = 0 ∧ t.time.cmdErr = false ∧ t.time.now = s.time.now) ∧
  (∀ (s : State), s.time.cls = 4 ∨ s.time.cls = 5 →
    ∃ t, exec .sourceLost s = .next t ∧ t.time.cls = 3 ∧ t.time.adj = s.time.integ ∧ t.time.integ = s.time.integ ∧
      t.time.now = s.time.now) ∧
  (∀ (s : State), s.time.cls = 3 →
    ∃ t, exec .holdoverEnd s = .next t ∧
      t.time.cls = (if (srcMode s = 0 ∨ srcMode s = 3) ∧ s.rtcAvailable then 1 else 0) ∧ t.time.adj = s.time.adj)

/-- R204, R205 (TIME_STEP): at the boundary the hub counter is the new time, the servo starts again and STEP_CNT has
advanced. R206, R207 (BEACON): the next number leaves for every channel present, with CLASS, validity and the armed step.
R208 (BEACON_ARRIVAL): the channel takes number, class and validity; a STEP_ARM beacon arms its new time, another gives
its offset; 64 good ones end the relock after the link's return (R209, log 136). R421 (BEACON_SILENCE_STOP): a channel that holds RELEASE_ARMED stops with the last boundary as H. -/
def Obligations.StepsAndBeacons : Prop :=
  (∀ (s : State) (a : StepArm) (y : Instant), s.time.step = some a → a.y = some y →
    ∃ t, exec .timeStep s = .next t ∧ t.time.now = y ∧ t.time.frac = 0 ∧ t.time.servo = .arm ∧ t.time.step = none ∧
      t.time.stepped = true ∧ t.time.stepCnt = (s.time.stepCnt + 1) % 65536 ∧ t.time.cls = s.time.cls) ∧
  (∀ (s : State) (n : Nat), s.shaped = true → n < 8 → s.present n = true → s.linkDown n = false →
    (∀ a, s.time.step = some a → a.y = none) →
    ∃ t b, exec .beacon s = .next t ∧ (t.ch n).tb.beacon = some b ∧ b.seq = (s.time.seq + 1) % 65536 ∧
      b.valid = decide (s.time.cls ≠ 0) ∧ b.cls = s.time.cls ∧ b.stepArm = s.time.step.isSome ∧
      b.stepped = s.time.stepped ∧ .beacon n b ∈ t.out ∧ t.time.seq = b.seq ∧ t.time.stepped = false) ∧
  (∀ (s : State) (n : Nat) (b : Beacon), s.shaped = true → n < 8 → s.present n = true →
    (s.ch n).tb.beacon = some b → b.stepArm = true → (s.ch n).tb.valid = true →
    ∃ t, exec (.beaconArrival n) s = .next t ∧ (t.ch n).tb.stepTo = some b.time ∧ (t.ch n).tb.beacon = none ∧
      (t.ch n).tb.valid = b.valid ∧ (t.ch n).tb.cls = b.cls ∧ (t.ch n).tb.lastSeq = some b.seq ∧
      (t.ch n).tb.silent = 0 ∧ (t.ch n).tb.now = (s.ch n).tb.now ∧
      (t.ch n).relock = ((s.ch n).relock && !decide (64 ≤ (s.ch n).tb.lockCnt)) ∧
      ((s.ch n).relock = false → ∀ m, m ≠ n → t.ch m = s.ch m)) ∧
  (∀ (s : State) (n : Nat) (b : Beacon), s.shaped = true → n < 8 → s.present n = true →
    (s.ch n).tb.beacon = some b → b.stepArm = false → (s.ch n).tb.valid = true →
    (((s.ch n).tb.now : Int) - ((b.time + (s.ch n).tb.delay : Nat) : Int)).natAbs ≤ 1000 →
    ∃ t, exec (.beaconArrival n) s = .next t ∧
      (t.ch n).tb.offset = ((s.ch n).tb.now : Int) - ((b.time + (s.ch n).tb.delay : Nat) : Int) ∧
      (t.ch n).tb.beacon = none ∧ (t.ch n).tb.valid = b.valid ∧ (t.ch n).tb.lastPlain = b.time ∧
      (t.ch n).tb.now = (s.ch n).tb.now ∧
      (t.ch n).relock = ((s.ch n).relock && !decide (64 ≤ (t.ch n).tb.lockCnt)) ∧
      ((s.ch n).relock = false → t.points = s.points)) ∧
  (∀ (s : State) (n : Nat), s.shaped = true → n < 8 → (s.ch n).relArmed = true → (s.ch n).stopped = false →
    ∃ t, exec (.beaconSilenceStop n) s = .next t ∧ (t.ch n).stopped = true ∧
      (t.ch n).stopH = (s.ch n).tb.lastPlain ∧ (∀ m, m ≠ n → t.ch m = s.ch m) ∧ t.points = s.points)

/-- R212, R213 (PTP_MESSAGE): a good Announce at a port that takes part gives the port the state the algorithm chose.
R211, R212 (PTP_TRANSMIT), R215 (GPTP_SYNC, PDELAY_REQ): the messages the port's state allows leave. R220 (TSQ_POP): the
oldest entry of the queue is gone. -/
def Obligations.PtpMessages : Prop :=
  (∀ (s : State) (p st : Nat) (gm : Slot) (utc : Int) (l61 l59 uv : Bool) (f : EthFrame) (ago : Nat), p < 2 →
    (s.net p).up = true → ptpPort s p = true → f.fcsOk = true → st ≤ 6 → st ≠ 3 →
    ∃ t, exec (.ptpMessage p (.announce st gm utc l61 l59 uv) f ago) s = .next t ∧ t.time.ptp.state p = st ∧
      t.time.ptp.state (1 - p) = s.time.ptp.state (1 - p) ∧ t.time.now = s.time.now) ∧
  (∀ (s : State) (p k : Nat), ptpPort s p = true → (s.net p).up = true →
    (s.time.ptp.state p = 2 ∧ (k = 0 ∨ k = 1 ∨ (k = 2 ∧ bitN (s.reg 0x50080) (5 + p) = false))) ∨
      (s.time.ptp.state p = 3 ∧ k = (if bitN (s.reg 0x50080) 1 then 4 else 3)) →
    ∃ t, exec (.ptpTransmit p k) s = .next t ∧ t.out = s.out ++ [.ptp p (ptpSend s p k), .netAct p] ∧
      t.points = s.points) ∧
  (∀ (s : State) (p : Nat), bitN (s.reg 0x50080) 15 = true → s.time.cls ≤ 3 →
    (ptpSend s p 0).clockClass = some (if s.time.cls = 3 then 52 else if s.time.cls = 0 then 248 else 187)) ∧
  (∀ (s : State) (p : Nat), bitN (s.reg 0x50080) 15 = false → (ptpSend s p 0).clockClass = some 255) ∧
  (∀ (s : State) (n x : Nat), gptpSends s n x = true →
    exec (.gptpSync n x) s = .next { s with out := s.out ++ [.ptp (16 + 2 * n + x) (segSend s n 0), .ptp (16 + 2 * n + x) (segSend s n 1), .ptp (16 + 2 * n + x) (segSend s n 2)] }) ∧
  (∀ (s : State) (n : Nat), 4 ≤ s.time.cls → (segSend s n 0).clockClass = some 6) ∧
  (∀ (s : State) (n x j : Nat), s.shaped = true → n < 8 → x < (s.ch n).seg.length → gptpSends s n x = true →
    ∃ t, exec (.pdelayReq n x j) s = .next t ∧ amGet (t.seg n x).gptp j = some s.ticks ∧
      t.out = s.out ++ [.ptp (16 + 2 * n + x) (segSend s n 5), .ptp (16 + 2 * n + x) (segSend s n 6)] ∧
      (t.seg n x).txq = (s.seg n x).txq) ∧
  (∀ (s : State) (q : Nat) (e : TsEntry) (es : List TsEntry), s.reaches 0x50114 = true → q < s.tsqs.length →
    (s.tsqs.getD q Tsq.reset).entries = e :: es →
    ∃ t, exec (.tsqPop q) s = .next t ∧ (t.tsqs.getD q Tsq.reset).entries = es ∧
      (t.tsqs.getD q Tsq.reset).ovf = (s.tsqs.getD q Tsq.reset).ovf ∧ t.regs = s.regs)

/-- R230, R233 (ACTION_FIRE): a due DOUT entry of a channel whose outputs nothing else holds, no entry accepted before it
acting on one of them at the same instant, puts every output it names
into its state. R249 (LOOP_GROUP_PREPARE): a due entry becomes a transaction in its context, over the slots of its loops.
R234 (CAL_START, CAL_DONE): calibration of the selected terminals starts, and its results are written. R245
(TABLE_DISABLE, TABLE_ENABLE): the table stops and starts, its stopped entries waiting again. -/
def Obligations.TimedActions : Prop :=
  (∀ (s : State) (n i d : Nat) (e : Entry) (mask value : BitVec 8), s.shaped = true → n < 8 → d < 8 →
    amGet (s.ch n).table.entries i = some e → e.kind = .dout mask value → e.period = 0 → e.done = 0 →
    e.st = .pending → e.waiting = false → (s.ch n).tb.valid = true → (s.ch n).tableEn = true → s.loopsRun n = true →
    e.start ≤ s.chNow n →
    s.chNow n < e.start + 5 ∨ e.tol = 0xFFFF ∨ s.chNow n - e.start ≤ 1000 * e.tol → mask.getLsbD d = true → (s.dio n).dout.length = 8 →
    (∀ x < 8, mask.getLsbD x = true → termOwned s n (16 + x) = false) → s.guardHolds n = false →
    firesBefore s n e = [] →
    ∃ t, exec (.actionFire n i) s = .next t ∧ (t.dout n d).cmd = value.getLsbD d) ∧
  (∀ (s : State) (i : Nat) (e : Entry) (op : Nat) (ids : List Nat) (l : Loop), amGet s.hlist.entries i = some e →
    e.kind = .loopGroup op ids → ids.filterMap (fun id => amGet s.ws.loops id) = [l] → ids.length = 1 → l.channel < 8 →
    e.period = 0 → e.done = 0 → e.st = .pending → e.prep = none → s.timeValid = true → s.standby = false →
    s.time.now < e.start → ceilSample e.start ≤ s.time.now + 10000000 + 1000 → s.time.now + 10000000 ≤ ceilSample e.start + 1000 →
    l.st = .placed → l.gone = false → s.inService l.channel = true →
    (∀ o ∈ s.txns, o.1 ≠ 128 + i → o.2.state ≠ .preparing ∧ o.2.state ≠ .pending) →
    ∃ t, exec (.loopGroupPrepare i) s = .next t ∧ (t.txn (128 + i)).state = .preparing ∧
      (t.txn (128 + i)).apply = ceilSample e.start ∧ (t.txn (128 + i)).staged = [groupWrite s op l] ∧
      t.nextTxn = (s.nextTxn + 1) % 2 ^ 32 ∧ t.points = s.points) ∧
  (∀ (s : State) (n : Nat) (sel : Word), s.shaped = true → n < 8 → s.reaches (chBase n + 0x20010) = true →
    (s.dio n).cal = none → bitN sel 16 = true → calOk s n sel = true →
    ∃ t, exec (.calStart n sel) s = .next t ∧ (t.dio n).cal = some (sel &&& 0xFFF) ∧ (t.dio n).calErr = false ∧
      t.points = s.points) ∧
  (∀ (s : State) (n k on off : Nat) (sel : Word), s.shaped = true → n < 8 → (s.dio n).cal = some sel → k < 8 →
    bitN sel k = true →
    ∃ t, exec (.calDone n [(k, on, off)]) s = .next t ∧ (t.dio n).cal = none ∧
      t.comp n k = BitVec.ofNat 32 (on % 65536 + off % 65536 * 65536) ∧ t.points = s.points) ∧
  (∀ (s : State) (n : Nat), s.shaped = true → n < 8 → s.reaches (chBase n + 0x20000) = true →
    (s.ch n).tableEn = true →
    ∃ t, exec (.tableDisable n) s = .next t ∧ (t.ch n).tableEn = false ∧ t.reg (chBase n + 0x20000) = 0 ∧
      (∀ m, (t.ch m).state = (s.ch m).state ∧ t.dio m = s.dio m)) ∧
  (∀ (s : State) (n i : Nat) (e : Entry), s.shaped = true → n < 8 → s.reaches (chBase n + 0x20000) = true →
    (s.ch n).tableEn = false → (i, e) ∈ (s.ch n).table.entries → e.st = .stopped →
    ∃ t, exec (.tableEnable n) s = .next t ∧ (t.ch n).tableEn = true ∧ t.reg (chBase n + 0x20000) = 1 ∧
      (i, { e with st := if e.done = 0 then .pending else .running }) ∈ (t.ch n).table.entries ∧ t.points = s.points)

/-- R258 (LOOP_SLOT_WRITE): the word takes the enabled bytes; R268: EN from 0 to 1 enables the loop, which owns its OUT
and is primed at its next sample. R260, R274 (LOOP_SAMPLE): a due sample of an enabled slot takes the state the loop law
gives. R281 (LOOP_OUTPUT): a value for an OUT on another channel leaves, converted over the limits of its sample (R80), as a command to that channel, and
nothing more is owed. R273 (SNAPSEL_WRITE): the snapshot holds the integrator and the output of the slot. -/
def Obligations.LoopEngine : Prop :=
  (∀ (s : State) (n slot w : Nat) (be : BitVec 4) (data : Word), s.reaches (chBase n + 0x40000) = true → w ≠ 0 →
    (regRow (slotKey n slot w)).isSome = true →
    ∃ t, exec (.loopSlotWrite n slot w be data) s = .next t ∧
      t.slotReg n slot w = beMerge be (s.slotReg n slot w) data &&& regMask (slotKey n slot w) ∧
      t.slotRt n slot = s.slotRt n slot ∧ t.points = s.points) ∧
  (∀ (s : State) (n slot : Nat) (data : Word) (r : LoopRt), s.shaped = true → n < 8 →
    s.reaches (chBase n + 0x40000) = true → (regRow (slotKey n slot 0)).isSome = true →
    amGet (s.ch n).slots slot = some r → r.loop.isSome = true → bitN (s.slotReg n slot 0) 0 = false →
    bitN (data &&& regMask (slotKey n slot 0)) 0 = true →
    ∃ t, exec (.loopSlotWrite n slot 0 0xF data) s = .next t ∧ (t.slotRt n slot).en = true ∧
      (t.slotRt n slot).owns = true ∧ (t.slotRt n slot).primed = false ∧ (t.slotRt n slot).loop = r.loop) ∧
  (∀ (s : State) (n slot id : Nat) (r : LoopRt) (l : Loop), s.shaped = true → n < 8 →
    amGet (s.ch n).slots slot = some r → r.loop = some id → amGet s.ws.loops id = some l → r.en = true →
    r.waiting = false → s.loopsRun n = true → sampleDue s n l r = true →
    (sampleRt (lawInput s n slot l r).1 (slotBank s n slot (lawInput s n slot l r).1.bankNo)
      (bitN (s.slotReg n slot 0) 5) (r.lastIn = 0) r).2 = false →
    ∃ t, exec (.loopSample n slot) s = .next t ∧ (t.slotRt n slot).lastIn = s.ticks + 1 ∧
      (t.slotRt n slot).u = (sampleRt (lawInput s n slot l r).1 (slotBank s n slot (lawInput s n slot l r).1.bankNo)
        (bitN (s.slotReg n slot 0) 5) (r.lastIn = 0) r).1.u ∧
      (t.slotRt n slot).i48 = (sampleRt (lawInput s n slot l r).1
        (slotBank s n slot (lawInput s n slot l r).1.bankNo) (bitN (s.slotReg n slot 0) 5) (r.lastIn = 0) r).1.i48 ∧
      t.points = s.points ∧ t.regs = s.regs) ∧
  (∀ (s : State) (n slot id : Nat) (u lo hi : Int) (r : LoopRt) (l : Loop) (p : Point), s.shaped = true → n < 8 →
    amGet (s.ch n).slots slot = some r → r.loop = some id → amGet s.ws.loops id = some l → s.loopsRun n = true →
    r.out = .command u → r.pub = .nothing → r.lim = some (lo, hi) → r.en = true → amGet s.points l.outp = some p → p.isHub = false →
    p.channel ≠ n → p.channel < 8 → (s.ch n).state = .inService → (s.ch p.channel).state = .inService →
    ∃ t, exec (.loopOutput n slot) s = .next t ∧ (t.slotRt n slot).out = .nothing ∧
      (t.ch p.channel).cmds = (s.ch p.channel).cmds ++ [{
        handle := l.outp, value := outConv p.type p.enumCount lo hi u,
        tag := l.basin, ring := 1024, flight := 0, cookie := 0, at? := none, tol := 0 }] ∧ t.points = s.points) ∧
  (∀ (s : State) (n slot : Nat), s.shaped = true → n < 8 → slot < 1024 → s.reaches (chBase n + 0x30010) = true →
    ∃ t, exec (.snapselWrite n slot) s = .next t ∧ (t.ch n).snap.slot = slot ∧
      (t.ch n).snap.words[0]? = some (BitVec.ofInt 32 (s.slotRt n slot).i48) ∧
      (t.ch n).snap.words[5]? = some (BitVec.ofInt 32 (s.slotRt n slot).u) ∧ t.points = s.points)

/-- R307 (CAN_CTL_WRITE): a control word with a mode the level allows is stored, and its mode waits for bus idle. R308
(CAN_MODE_APPLIED): at bus idle the wanted mode and timing are in force; CAN_INTEGRATION_DONE: the controller takes the
state its counters give. R323 (RECOVER, CAN_BUS_ON): from BUS_OFF it recovers, and ends ERROR_ACTIVE with both counters
zero. -/
def Obligations.CanModes : Prop :=
  (∀ (s : State) (n x : Nat) (data : Word), s.shaped = true → n < 8 → x < (s.ch n).can.length →
    s.reaches (chBase n + 0x50000) = true → fld data 0 3 < 4 → bitN data 4 = false →
    ∃ t, exec (.canCtlWrite n x data) s = .next t ∧ t.canReg n x 0 = data &&& 0x7F2F ∧
      (t.can n x).state = (s.can n x).state ∧ (t.can n x).mode = (s.can n x).mode ∧
      (t.can n x).cfgErr = (s.can n x).cfgErr ∧
      (t.can n x).pendingMode = ((s.can n x).pendingMode || decide (data &&& 0x7F2F ≠ s.canReg n x 0))) ∧
  (∀ (s : State) (n x : Nat), s.shaped = true → n < 8 → x < (s.ch n).can.length → (s.can n x).pendingMode = true →
    (s.can n x).won = false → (s.can n x).state ≠ .busOff → (s.can n x).state ≠ .recovering → wantedMode s n x ≠ 0 →
    ∃ t, exec (.canModeApplied n x) s = .next t ∧ (t.can n x).mode = wantedMode s n x ∧
      (t.can n x).pendingMode = false ∧ (t.can n x).txq = (s.can n x).txq ∧ (t.can n x).tec = (s.can n x).tec ∧
      t.points = s.points) ∧
  (∀ (s : State) (n x : Nat), s.shaped = true → n < 8 → x < (s.ch n).can.length → (s.can n x).state = .integrating →
    ∃ t, exec (.canIntegrationDone n x) s = .next t ∧
      (t.can n x).state = faultState (min 255 (s.can n x).tec) (s.can n x).recv ∧ t.points = s.points) ∧
  (∀ (s : State) (n x : Nat), s.shaped = true → n < 8 → x < (s.ch n).can.length →
    s.reaches (chBase n + 0x50000) = true → (s.can n x).state = .busOff →
    ∃ t, exec (.recover n x) s = .next t ∧ (t.can n x).state = .recovering ∧ (t.can n x).tec = (s.can n x).tec ∧
      t.points = s.points ∧ t.regs = s.regs) ∧
  (∀ (s : State) (n x us : Nat), s.shaped = true → n < 8 → x < (s.ch n).can.length →
    (s.can n x).state = .recovering → (s.can n x).pendingMode = false →
    ∃ t, exec (.canBusOn n x us) s = .next t ∧ (t.can n x).state = .errorActive ∧ (t.can n x).tec = 0 ∧
      (t.can n x).recv = 0 ∧ (t.can n x).ewarn = false ∧ (t.can n x).mode = (s.can n x).mode)

/-- R297, R312, R314 (CAN_FRAME_RECEIVED): an accepted frame counts, and waits in staging for the rings of its queue; a
rejected one counts as rejected; the old bank judges what began before its switch (R178). R319 (CAN_ARBITRATION_END): the head of the queue is the attempt. R317 (CAN_TX_SUCCESS):
it leaves, counts, and the transmit error counter falls. R321 (CAN_TX_ERROR, CAN_RX_ERROR): the counters rise by 8, or by
1 for a receiver. R300 (CAN_NODE_TIMEOUT): the identifier is silent. R324 (CAN_PROTO_EXC): an exception counts and the
controller integrates again. -/
def Obligations.CanFrames : Prop :=
  (∀ (s : State) (n x q : Nat) (f : CanFrame) (ago : Nat) (rings : List Nat), s.shaped = true → n < 8 →
    x < (s.ch n).can.length → (s.can n x).onBus = true → f.fdf = false → (s.can n x).recv = 0 →
    canFilter s n x (rxCanFrame f) (s.chStamp n ago) = some q →
    (if s.chStamp n ago < (s.can n x).switched then (s.can n x).oldQueues else (s.can n x).queues).getD q (false, []) = (false, rings) →
    rings ≠ [] →
    stuckFrames s n (4 * n + x) = [] →
    ∃ t, exec (.canFrameReceived n x f ago) s = .next t ∧ (t.can n x).rxOk = ((s.can n x).rxOk + 1) % 2 ^ 32 ∧
      (t.ch n).staged = (s.ch n).staged ++ rings.map (fun k => (k, {
        target := 4 * n + x, node := canNode s n x (rxCanFrame f).id (rxCanFrame f).ide, can := some (rxCanFrame f),
        bytes := [], stamp := s.chStamp n ago, timeValid := (s.ch n).tb.valid, queue := q })) ∧ t.points = s.points) ∧
  (∀ (s : State) (n x : Nat) (f : CanFrame) (ago : Nat), s.shaped = true → n < 8 → x < (s.ch n).can.length →
    (s.can n x).onBus = true → f.fdf = false → (s.can n x).recv = 0 → canFilter s n x (rxCanFrame f) (s.chStamp n ago) = none →
    ∃ t, exec (.canFrameReceived n x f ago) s = .next t ∧ (t.can n x).rxRej = ((s.can n x).rxRej + 1) % 2 ^ 32 ∧
      (t.ch n).staged = (s.ch n).staged ∧ t.points = s.points) ∧
  (∀ (s : State) (n x : Nat) (f : TxFrame) (q : List TxFrame), s.shaped = true → n < 8 → x < (s.ch n).can.length →
    (s.can n x).won = false → (s.can n x).sends = true → (s.can n x).txq = f :: q → (∀ g ∈ q, g.cancel = []) →
    ∃ t, exec (.canArbitrationEnd n x true) s = .next t ∧ (t.can n x).won = true ∧ (t.can n x).txq = f :: q ∧
      t.points = s.points) ∧
  (∀ (s : State) (n x : Nat) (f : TxFrame) (q : List TxFrame) (ago : Nat) (dly : Option Nat), s.shaped = true →
    n < 8 → x < (s.ch n).can.length → (s.can n x).won = true → (s.can n x).mode = 1 →
    (s.can n x).state = .errorActive → (s.can n x).tec < 128 → (s.can n x).recv < 128 → (s.can n x).txq = f :: q →
    f.points = [] → f.cancel = [] → f.tsReq = false → f.table = 9 → f.ring < 1024 →
    ∃ t, exec (.canTxSuccess n x ago dly) s = .next t ∧ (t.can n x).txq = q ∧ (t.can n x).won = false ∧
      (t.can n x).tec = (s.can n x).tec - 1 ∧ (t.can n x).txOk = ((s.can n x).txOk + 1) % 2 ^ 32 ∧
      (t.can n x).noack = 0 ∧ .canFrame n x f.can ∈ t.out ∧
      (t.ch n).reports = (s.ch n).reports ++
        [{ ring := f.ring, flight := f.flight, status := 0, tsq := false, late := f.late, info := 0 }]) ∧
  (∀ (s : State) (n x : Nat) (f : TxFrame) (q : List TxFrame) (err : CanErr) (dp dom : Bool), s.shaped = true →
    n < 8 → x < (s.ch n).can.length → (s.can n x).mode = 1 → (s.can n x).state = .errorActive →
    (s.can n x).tec < 120 → (s.can n x).recv < 128 → (s.can n x).txq = f :: q → f.cancel = [] → err ≠ .ack →
    (f.ring < 1024 → (s.ring f.ring).state ≠ .disabling) →
    ∃ t, exec (.canTxError n x err dp dom) s = .next t ∧ (t.can n x).tec = (s.can n x).tec + 8 ∧
      (t.can n x).txq = f :: q ∧ (t.can n x).won = false ∧ (t.can n x).state = .errorActive ∧
      (t.can n x).errFrames = ((s.can n x).errFrames + 1) % 2 ^ 32 ∧ t.points = s.points) ∧
  (∀ (s : State) (n x : Nat) (err : CanErr) (dp sev : Bool), s.shaped = true → n < 8 → x < (s.ch n).can.length →
    (s.can n x).mode = 1 → (s.can n x).state = .errorActive → (s.can n x).tec < 128 → (s.can n x).recv < 120 →
    ∃ t, exec (.canRxError n x err dp sev) s = .next t ∧
      (t.can n x).recv = (s.can n x).recv + (if sev then 8 else 1) ∧ (t.can n x).tec = (s.can n x).tec ∧
      (t.can n x).state = .errorActive ∧ t.points = s.points) ∧
  (∀ (s : State) (n x id : Nat) (ide : Bool), s.shaped = true → n < 8 → x < (s.ch n).can.length →
    (s.can n x).state ≠ .disabled → fld (s.canReg n x 0x38) 0 16 ≠ 0 → s.canPoints n x id ide ≠ [] →
    (s.can n x).silent.contains (idKey id ide) = false →
    ∃ t, exec (.canNodeTimeout n x id ide) s = .next t ∧
      (t.can n x).silent = (s.can n x).silent ++ [idKey id ide] ∧ (t.can n x).state = (s.can n x).state) ∧
  (∀ (s : State) (n x : Nat), s.shaped = true → n < 8 → x < (s.ch n).can.length → s.fdEn n x = false →
    (s.can n x).onBus = true →
    ∃ t, exec (.canProtoExc n x) s = .next t ∧ (t.can n x).state = .integrating ∧
      (t.can n x).fdExc = satInc 0xFFFFFFFF (s.can n x).fdExc ∧ (t.can n x).tec = (s.can n x).tec)

/-- R329, R343 (NET_LINK_UP): the port holds the speed and the PAUSE abilities the link gives, counts it, and begins
verification where R344 asks. R330 (NET_LINK_DOWN): nothing waits and no frame is on the wire. R331 (NET_PORT_DISABLE):
with EN 0 and no frame begun, the port goes down and powers down. R344: a verify mPacket is answered while PREEMPT_EN is 1; a
response succeeds; a timeout repeats the mPacket, and the third one fails. -/
def Obligations.BackboneLink : Prop :=
  (∀ (s : State) (p speed : Nat) (rx tx : Bool), s.shaped = true → p < 2 → bitN (s.netReg p 0) 0 = true →
    (s.net p).up = false →
    ∃ t, exec (.netLinkUp p speed rx tx) s = .next t ∧ (t.net p).up = true ∧ (t.net p).speed = speed ∧
      (t.net p).pauseRx = rx ∧ (t.net p).pauseTx = tx ∧ (t.net p).linkCnt = satInc 255 (s.net p).linkCnt ∧
      (t.net p).verify = (if bitN (s.netReg p 0) 6 && !bitN (s.netReg p 0x18) 3 then .verifying else .disabled) ∧
      t.points = s.points) ∧
  (∀ (s : State) (p : Nat), s.shaped = true → p < 2 → (s.net p).up = true →
    ∃ t, exec (.netLinkDown p) s = .next t ∧ (t.net p).up = false ∧ (t.net p).wire = none ∧
      (t.net p).suspended = none ∧ (t.net p).express = [] ∧ (t.net p).preempt = [] ∧ (t.net p).pauseQ = 0 ∧
      (t.net p).rx = (s.net p).rx ∧ (t.net p).linkCnt = (s.net p).linkCnt) ∧
  (∀ (s : State) (p : Nat), s.shaped = true → p < 2 → bitN (s.netReg p 0) 0 = false → (s.net p).wire = none →
    (s.net p).suspended = none → (s.net p).up = true →
    ∃ t, exec (.netPortDisable p) s = .next t ∧ (t.net p).up = false ∧ (t.net p).poweredDown = true ∧
      (t.net p).express = [] ∧ (t.net p).preempt = [] ∧ (t.net p).rx = (s.net p).rx) ∧
  (∀ (s : State) (p : Nat), bitN (s.netReg p 0) 6 = true →
    exec (.verifyMpacket p) s = .next (s.emit (.respond p))) ∧
  (∀ (s : State) (p : Nat), s.shaped = true → p < 2 → (s.net p).verify = .verifying →
    ∃ t, exec (.verifyResponse p) s = .next t ∧ t.net p = { s.net p with verify := .succeeded } ∧
      t.points = s.points) ∧
  (∀ (s : State) (p : Nat), s.shaped = true → p < 2 → (s.net p).verify = .verifying →
    ∃ t, exec (.verifyTimeout p) s = .next t ∧ t.points = s.points ∧
      ((s.net p).attempts < 3 → t.net p = { s.net p with attempts := (s.net p).attempts + 1 } ∧ .verify p ∈ t.out) ∧
      (3 ≤ (s.net p).attempts → t.net p = { s.net p with verify := .failed }))

/-- R334, R335, R336 (NET_FRAME_RECEIVED): a good frame that passes the filters waits in the receive buffer and counts; one
with a bad FCS counts as such. R333 (NET_TX_DONE): the frame has left the wire and counts. R339 (PAUSE_RECEIVED,
PAUSE_EXPIRY): the pause timer runs, and at its end the next express frame begins (R332, R340). R342 (XOFF_REPEAT, XON): XOFF
is sent again, or ends with a PAUSE of 0. R348 (HOLD): preemptable traffic is held. R349 (REASM_TIMEOUT): the reassembly ends
in an error. -/
def Obligations.BackboneTraffic : Prop :=
  (∀ (s : State) (p : Nat) (f : EthFrame) (ago : Nat), s.shaped = true → p < 2 → (s.net p).up = true →
    64 ≤ f.bytes.length + 4 → f.bytes.length + 4 ≤ maxFrame (s.netReg p 8) → f.fcsOk = true →
    etherType f.bytes ≠ 0x8808 → netAddrOk s p (f.bytes.take 6) = true → netVlanOk s p f.bytes = true →
    (s.ptpEn && innerType f.bytes = 0x88F7) = false → (s.ptpUdp && udpPtp f.bytes) = false → updFrame s p f.bytes = false →
    rxHeld (s.net p) + f.bytes.length + 4 ≤ 131072 → (s.net p).pauseTx = false →
    ∃ t, exec (.netFrameReceived p (.express f) ago) s = .next t ∧ (t.net p).rx = (s.net p).rx ++ [{
        target := 32 + p, node := 0xFF, can := none, bytes := f.bytes, stamp := s.hubStamp ago, timeValid := s.timeValid,
        queue := 0 }] ∧
      amGet (t.net p).cnts 0x404 = some (((amGet (s.net p).cnts 0x404).getD 0 + 1) % 2 ^ 32) ∧ t.points = s.points) ∧
  (∀ (s : State) (p : Nat) (f : EthFrame) (ago : Nat), s.shaped = true → p < 2 → (s.net p).up = true →
    64 ≤ f.bytes.length + 4 → f.bytes.length + 4 ≤ maxFrame (s.netReg p 8) → f.fcsOk = false →
    ∃ t, exec (.netFrameReceived p (.express f) ago) s = .next t ∧ (t.net p).rx = (s.net p).rx ∧
      amGet (t.net p).cnts 0x410 = some (((amGet (s.net p).cnts 0x410).getD 0 + 1) % 2 ^ 32) ∧ t.points = s.points) ∧
  (∀ (s : State) (p : Nat) (f : TxFrame) (ago : Nat), s.shaped = true → p < 2 → (s.net p).wire = some f →
    (s.net p).express = [] → (s.net p).preempt = [] → (s.net p).suspended = none → f.table = 9 → f.ring = 1024 →
    f.cancel = [] → f.tsReq = false →
    ∃ t, exec (.netTxDone p ago) s = .next t ∧ (t.net p).wire = none ∧
      .ethFrame (32 + p) (f.bytes ++ bytesLE 4 (crc32 f.bytes).toNat) ∈ t.out ∧
      amGet (t.net p).cnts 0x400 = some (((amGet (s.net p).cnts 0x400).getD 0 + 1) % 2 ^ 32) ∧ t.points = s.points) ∧
  (∀ (s : State) (p quanta : Nat), s.shaped = true → p < 2 → (s.net p).pauseRx = true → 0 < quanta → quanta < 65536 →
    preemptActive s p = false →
    ∃ t, exec (.pauseReceived p quanta) s = .next t ∧ (t.net p).pauseQ = quanta ∧ (t.net p).wire = (s.net p).wire ∧
      amGet (t.net p).cnts 0x428 = some (((amGet (s.net p).cnts 0x428).getD 0 + 1) % 2 ^ 32) ∧ t.points = s.points) ∧
  (∀ (s : State) (p : Nat) (f : TxFrame) (q : List TxFrame), s.shaped = true → p < 2 → (s.net p).up = true →
    (s.net p).wire = none → (s.net p).pauseQ ≠ 0 → bitN (s.netReg p 0) 0 = true → (s.net p).express = f :: q →
    ∃ t, exec (.pauseExpiry p) s = .next t ∧
      t.net p = { s.net p with pauseQ := 0, wire := some f, express := q } ∧ t.points = s.points) ∧
  (∀ (s : State) (p : Nat), s.shaped = true → p < 2 → (s.net p).xoff = true →
    (bitN (s.netReg p 0) 8 || decide (xonThr s p ≤ rxHeld (s.net p))) = true →
    ∃ t, exec (.xoffRepeat p) s = .next t ∧ (t.net p).xoff = true ∧
      .pause p (max 1 (fld (s.netReg p 0xC) 0 16)) ∈ t.out ∧
      amGet (t.net p).cnts 0x42C = some (((amGet (s.net p).cnts 0x42C).getD 0 + 1) % 2 ^ 32)) ∧
  (∀ (s : State) (p : Nat), s.shaped = true → p < 2 → (s.net p).xoff = true → bitN (s.netReg p 0) 8 = false →
    rxHeld (s.net p) < xonThr s p →
    ∃ t, exec (.xon p) s = .next t ∧ (t.net p).xoff = false ∧ .pause p 0 ∈ t.out ∧
      amGet (t.net p).cnts 0x42C = some (((amGet (s.net p).cnts 0x42C).getD 0 + 1) % 2 ^ 32)) ∧
  (∀ (s : State) (p : Nat), s.shaped = true → p < 2 → fld (s.netReg p 0x18) 16 16 ≠ 0 → preemptActive s p = false →
    ∃ t, exec (.netHold p) s = .next t ∧ t.net p = { s.net p with hold := true } ∧ t.points = s.points) ∧
  (∀ (s : State) (p : Nat), s.shaped = true → p < 2 → (s.net p).reasm.isSome = true →
    ∃ t, exec (.reasmTimeout p) s = .next t ∧ (t.net p).reasm = none ∧ (t.net p).rx = (s.net p).rx ∧
      amGet (t.net p).cnts 0x43C = some (((amGet (s.net p).cnts 0x43C).getD 0 + 1) % 2 ^ 32))

/-- R336, R358 (SEG_FRAME_RECEIVED): a good frame from a mapped node counts and waits for the rings of the subscriptions.
R354 (SEG_TX_DONE): the sent frame has left the queue and counts. R353 (SEG_COLLISION): the collision counts and a back-off
runs, drawn from 0 to 2^k - 1; SEG_BACKOFF_EXPIRY: the next attempt begins. R352 (SEG_MODE_APPLIED): the wanted mode is in
force and nothing queued is lost. -/
def Obligations.SegmentFrames : Prop :=
  (∀ (s : State) (n x j : Nat) (f : EthFrame) (ago : Nat) (rings : List Nat) (g : RxFrame), s.shaped = true → n < 8 →
    x < (s.ch n).seg.length → (s.seg n x).mode ≠ 0 → (s.seg n x).plca = false → 64 ≤ f.bytes.length + 4 →
    f.bytes.length + 4 ≤ maxFrame (s.segReg n x 8) → f.fcsOk = true → f.bytes.take 6 = segMac s n x →
    macNode s n x ((f.bytes.drop 6).take 6) = some j → innerType f.bytes ≠ 0x88F7 → etherType f.bytes ≠ 0x88B5 →
    segSubs s n x (nodeBasin s n (2 + x) j) j = rings → rings ≠ [] →
    g = { target := 4 * n + 2 + x, node := j, can := none, bytes := f.bytes, stamp := s.chStamp n ago, timeValid := (s.ch n).tb.valid, queue := (s.seg n x).queues.findIdx (fun b => b == nodeBasin s n (2 + x) j) } →
    stagingFull s n g = false →
    ∃ t, exec (.segFrameReceived n x f ago) s = .next t ∧
      (t.seg n x).cnt 0x404 = ((s.seg n x).cnt 0x404 + 1) % 2 ^ 32 ∧
      (t.ch n).staged = (s.ch n).staged ++ rings.map (fun k => (k, g)) ∧
      t.points = s.points) ∧
  (∀ (s : State) (n x : Nat) (f : TxFrame) (ago : Nat), s.shaped = true → n < 8 → x < (s.ch n).seg.length →
    (s.seg n x).busy = true → (s.seg n x).plca = false → (s.seg n x).txq = [f] → f.table = 9 → f.ring = 1024 →
    f.cancel = [] → f.tsReq = false → f.points = [] →
    ∃ t, exec (.segTxDone n x ago) s = .next t ∧ (t.seg n x).txq = [] ∧ (t.seg n x).busy = false ∧
      (t.seg n x).carrier = false ∧ (t.seg n x).collisions = 0 ∧
      (t.seg n x).cnt 0x400 = ((s.seg n x).cnt 0x400 + 1) % 2 ^ 32 ∧
      .ethFrame (4 * n + 2 + x) (f.bytes ++ bytesLE 4 (crc32 f.bytes).toNat) ∈ t.out ∧ t.points = s.points) ∧
  (∀ (s : State) (n x : Nat) (f : TxFrame) (q : List TxFrame), s.shaped = true → n < 8 → x < (s.ch n).seg.length →
    (s.seg n x).busy = true → (s.seg n x).plca = false → (s.seg n x).txq = f :: q → f.cancel = [] →
    ((s.seg n x).collisions + 1) % 16 ≠ 0 → (f.ring < 1024 → (s.ring f.ring).state ≠ .disabling) →
    ∃ t, exec (.segCollision n x false) s = .next t ∧ (t.seg n x).busy = false ∧ (t.seg n x).txq = f :: q ∧
      (t.seg n x).collisions = (s.seg n x).collisions + 1 ∧ 1 ≤ (t.seg n x).backoff ∧
      (t.seg n x).backoff ≤ 2 ^ min ((s.seg n x).collisions + 1) 10 ∧
      (t.seg n x).cnt 0x440 = ((s.seg n x).cnt 0x440 + 1) % 2 ^ 32 ∧ t.points = s.points) ∧
  (∀ (s : State) (n x : Nat), s.shaped = true → n < 8 → x < (s.ch n).seg.length → (s.seg n x).backoff ≠ 0 →
    (s.seg n x).mode = 1 → (s.ch n).stopped = false → (s.seg n x).busy = false → (s.seg n x).txq ≠ [] →
    (s.seg n x).plca = false →
    ∃ t, exec (.segBackoffExpiry n x) s = .next t ∧
      t.seg n x = { s.seg n x with backoff := 0, busy := true, carrier := true } ∧ t.points = s.points) ∧
  (∀ (s : State) (n x : Nat), s.shaped = true → n < 8 → x < (s.ch n).seg.length →
    (s.seg n x).mode ≠ wantedSeg s n x → (s.seg n x).busy = false → wantedSeg s n x ≠ 0 →
    ∃ t, exec (.segModeApplied n x) s = .next t ∧ (t.seg n x).mode = wantedSeg s n x ∧
      (t.seg n x).txq = (s.seg n x).txq ∧ (t.seg n x).cnts = (s.seg n x).cnts ∧ t.points = s.points)

/-- R355 (PLCA_BEACON): PLCA is active, the beacon counts and the opportunities begin again; PLCA_TO_TIMER: the
next opportunity; PLCA_BEACON_LOSS: a follower goes on without PLCA. R362 (T1S_NODE_TIMEOUT): a mapped node not heard for
NODE_TMO is lost. -/
def Obligations.SegmentPlca : Prop :=
  (∀ (s : State) (n x : Nat), s.shaped = true → n < 8 → x < (s.ch n).seg.length →
    bitN (s.segReg n x 0x18) 0 = true → (s.seg n x).mode = 1 →
    ∃ t, exec (.plcaBeacon n x) s = .next t ∧ (t.seg n x).plca = true ∧ (t.seg n x).opp = 0 ∧
      (t.seg n x).cnt 0x450 = ((s.seg n x).cnt 0x450 + 1) % 2 ^ 32 ∧ (t.seg n x).txq = (s.seg n x).txq ∧
      t.regs = s.regs) ∧
  (∀ (s : State) (n x : Nat), s.shaped = true → n < 8 → x < (s.ch n).seg.length → (s.seg n x).plca = true →
    (s.seg n x).busy = false →
    ∃ t, exec (.plcaToTimer n x) s = .next t ∧
      (t.seg n x).opp = min ((s.seg n x).opp + 1) (nodeCount s n x) ∧ (t.seg n x).burst = 0 ∧
      (t.seg n x).txq = (s.seg n x).txq ∧ t.points = s.points) ∧
  (∀ (s : State) (n x : Nat), s.shaped = true → n < 8 → x < (s.ch n).seg.length → (s.seg n x).plca = true →
    localId s n x ≠ 0 →
    ∃ t, exec (.plcaBeaconLoss n x) s = .next t ∧ (t.seg n x).plca = false ∧ (t.seg n x).txq = (s.seg n x).txq ∧
      (t.seg n x).mode = (s.seg n x).mode) ∧
  (∀ (s : State) (n x j : Nat), s.shaped = true → n < 8 → x < (s.ch n).seg.length →
    fld (s.segReg n x 0) 16 16 ≠ 0 → (nodeMac s n x j).isSome = true → (s.seg n x).lost.contains j = false →
    ∃ t, exec (.t1sNodeTimeout n x j) s = .next t ∧ (t.seg n x).lost = (s.seg n x).lost ++ [j] ∧
      (t.seg n x).heard = (s.seg n x).heard.filter (fun k => !(k == j)) ∧ (t.seg n x).txq = (s.seg n x).txq ∧
      t.regs = s.regs)

/-- R370 (FSUP_LOW, FSUP_OK, FSUP_INPUTS_INVALID, FSUP_INPUTS_VALID): the status bits follow the supply, and FCAUSE0 holds
LOW. R371 (UNDERVOLTAGE_LOCKOUT, FSUP_RESTART_RISE, UVLO_RESTART): lockout switches every output off; the restart delay
begins and ends, and the outputs follow their commands again. R385 (FSUP_GUARD_LOSS): the guard disarms and holds no state.
R373 to R375 (DIN_EDGE): the level follows, and a counting input counts the edge; COUNTER_ACQUISITION acquires a counter's
point with its count. -/
def Obligations.FieldSupplyAndInputs : Prop :=
  (∀ (s : State) (n v : Nat), s.shaped = true → n < 8 → v < 1800 → (s.dio n).low = false →
    ∃ t, exec (.fsupLow n v) s = .next t ∧ t.points = s.points ∧
      t.dio n = { s.dio n with fsup := v, fsupOk := false, low := true, fc0 := setBit (s.dio n).fc0 0 }) ∧
  (∀ (s : State) (n v : Nat), s.shaped = true → n < 8 → 1800 ≤ v →
    ∃ t, exec (.fsupOk n v) s = .next t ∧ t.points = s.points ∧
      t.dio n = { s.dio n with fsup := v, fsupOk := true, low := false }) ∧
  (∀ (s : State) (n v : Nat), s.shaped = true → n < 8 → v < 1400 → (s.dio n).inv = false →
    ∃ t, exec (.fsupInputsInvalid n v) s = .next t ∧ t.dio n = { s.dio n with fsup := v, inv := true } ∧
      t.regs = s.regs) ∧
  (∀ (s : State) (n v : Nat), s.shaped = true → n < 8 → 1400 ≤ v → (s.dio n).inv = true →
    ∃ t, exec (.fsupInputsValid n v) s = .next t ∧ t.dio n = { s.dio n with fsup := v, inv := false } ∧
      t.regs = s.regs) ∧
  (∀ (s : State) (n v d : Nat), s.shaped = true → n < 8 → v < 900 →
    ∃ t, exec (.undervoltageLockout n v) s = .next t ∧ (t.dio n).uvlo = true ∧ (t.dio n).restart = false ∧
      (t.dio n).fsup = v ∧ (t.dout n d).drive = false ∧ (t.dout n d).cmd = (s.dout n d).cmd ∧
      (t.aout n d).code = (s.aout n d).code ∧ (t.dio n).armed = (s.dio n).armed) ∧
  (∀ (s : State) (n v : Nat), s.shaped = true → n < 8 → 1100 ≤ v → (s.dio n).uvlo = true →
    ∃ t, exec (.fsupRestartRise n v) s = .next t ∧
      t.dio n = { s.dio n with fsup := v, uvlo := false, restart := true } ∧ t.points = s.points) ∧
  (∀ (s : State) (n d : Nat), s.shaped = true → n < 8 → d < 8 → (s.dio n).restart = true →
    ∃ t, exec (.uvloRestart n) s = .next t ∧ (t.dio n).restart = false ∧ (t.dio n).suspTo = s.chNow n + 2000000 ∧
      (t.dout n d).drive = restartDrive (s.dio n) (s.logicDead n) d (s.dout n d) ∧
      (t.dout n d).cmd = (s.dout n d).cmd ∧ (t.aout n d).code = (s.aout n d).code) ∧
  (∀ (s : State) (n v : Nat), s.shaped = true → n < 8 → v < 600 →
    ∃ t, exec (.fsupGuardLoss n v) s = .next t ∧ (t.dio n).armed = false ∧ (t.dio n).holding = false ∧
      (t.dio n).keeps = false ∧ (t.dio n).gSafe = 0 ∧ (t.dio n).counts = (s.dio n).counts ∧ t.points = s.points) ∧
  (∀ (s : State) (n i : Nat) (level : Bool) (ago : Nat), s.shaped = true → n < 8 → i < 16 →
    (s.dio n).level.getLsbD i ≠ level →
    ∃ t, exec (.dinEdge n i level ago) s = .next t ∧ (t.dio n).level = setBitTo (s.dio n).level i level ∧
      (t.dio n).counts = (if s.counting n i && edgeCounts (s.dioReg n 0x14) i level then
        (s.dio n).counts.modify i (fun k => (k + 1) % 2 ^ 64) else (s.dio n).counts) ∧
      (t.dio n).dout = (s.dio n).dout ∧ t.regs = s.regs) ∧
  (∀ (s : State) (n h : Nat) (p : Point), s.counting n 0 = true → (∀ i, 0 < i → i < 4 → s.counting n i = false) →
    s.localPoints n 36 = [h] → s.localPoints n 0 = [] → amGet s.points h = some p → p.isHub = false →
    exec (.counterAcquisition n) s = .next (acquire s h (BitVec.ofNat 64 ((s.dio n).counts.getD 0 0))
      (s.dinQual n) (s.chNow n)))

/-- R378 (DOUT_OVERCURRENT, DOUT_OVERTEMP): the output switches off, keeps its command, and FCAUSE0 holds the cause;
DOUT_RETRY, DOUT_JUNCTION_COOLED and CLR_OC: a tripped output that is commanded on and cool switches on again, unless lockout
holds it. R379 (GROUP_OVERCURRENT): of the outputs that are on, the one with the largest current switches off. R380
(EXT_DRIVE) and R381 (OPEN_LOAD): the cause is set, and the output stays as it was. -/
def Obligations.DigitalOutputs : Prop :=
  (∀ (s : State) (n d : Nat), s.shaped = true → n < 8 → d < 8 → d < (s.dio n).dout.length →
    (s.dout n d).drive = true →
    ∃ t, exec (.doutOvercurrent n d) s = .next t ∧ (t.dout n d).drive = false ∧ (t.dout n d).tripped = true ∧
      (t.dout n d).cmd = (s.dout n d).cmd ∧ (t.dout n d).hot = (s.dout n d).hot ∧
      bitN (t.dio n).fc0 (16 + d) = true ∧ (∀ c, c ≠ d → t.dout n c = s.dout n c)) ∧
  (∀ (s : State) (n d : Nat), s.shaped = true → n < 8 → d < 8 → d < (s.dio n).dout.length →
    (s.dout n d).drive = true →
    ∃ t, exec (.doutOvertemp n d) s = .next t ∧ (t.dout n d).drive = false ∧ (t.dout n d).tripped = true ∧
      (t.dout n d).cmd = (s.dout n d).cmd ∧ (t.dout n d).hot = true ∧
      bitN (t.dio n).fc0 (24 + d) = true ∧ (∀ c, c ≠ d → t.dout n c = s.dout n c)) ∧
  (∀ (s : State) (n d : Nat), s.shaped = true → n < 8 → d < 8 → d < (s.dio n).dout.length →
    fld (s.dioReg n 0xF8) 16 16 ≠ 0 → (s.dout n d).hot = false → (s.dout n d).cmd = true →
    (s.dout n d).tripped = true →
    ∃ t, exec (.doutRetry n d) s = .next t ∧ (t.dout n d).drive = !(s.dio n).lockout ∧
      (t.dout n d).tripped = false ∧ (t.dout n d).cmd = true ∧ (∀ c, c ≠ d → t.dout n c = s.dout n c)) ∧
  (∀ (s : State) (n d : Nat), s.shaped = true → n < 8 → d < 8 → d < (s.dio n).dout.length →
    (s.dout n d).hot = true → (s.dout n d).due = true → (s.dout n d).cmd = true → (s.dout n d).tripped = true →
    ∃ t, exec (.doutJunctionCooled n d) s = .next t ∧ (t.dout n d).drive = !(s.dio n).lockout ∧
      (t.dout n d).tripped = false ∧ (t.dout n d).cmd = true ∧ (∀ c, c ≠ d → t.dout n c = s.dout n c)) ∧
  (∀ (s : State) (n d : Nat) (mask : BitVec 8), s.shaped = true → n < 8 → d < 8 → d < (s.dio n).dout.length →
    s.reaches (chBase n + 0x900A8) = true → mask.getLsbD d = true → (s.dout n d).cmd = true →
    (s.dout n d).tripped = true → (s.dout n d).hot = false →
    ∃ t, exec (.clrOc n mask) s = .next t ∧ (t.dout n d).drive = !(s.dio n).lockout ∧
      (t.dout n d).tripped = false ∧ (t.dout n d).cmd = true ∧
      (∀ c, c < 8 → mask.getLsbD c = false → t.dout n c = s.dout n c)) ∧
  (∀ (s : State) (n d : Nat) (cs : List Nat), s.shaped = true → n < 8 → d < 8 → cs.length = 8 →
    4400 < cs.foldl (· + ·) 0 → (s.dout n d).drive = true →
    (∀ c, c < 8 → c ≠ d → (s.dout n c).drive = true → cs.getD c 0 < cs.getD d 0) →
    ∃ t, exec (.groupOvercurrent n cs) s = .next t ∧ (t.dout n d).drive = false ∧ (t.dout n d).tripped = true ∧
      (t.dout n d).cmd = (s.dout n d).cmd ∧ (t.dio n).group = cs.foldl (· + ·) 0 ∧ bitN (t.dio n).fc0 1 = true ∧
      (∀ c, c < 8 → c ≠ d → (t.dout n c).drive = (s.dout n c).drive)) ∧
  (∀ (s : State) (n d : Nat), s.shaped = true → n < 8 → d < 8 → d < (s.dio n).dout.length →
    (s.dout n d).cmd = false → s.wor n d = false → s.checksRun n = true →
    ∃ t, exec (.extDrive n d) s = .next t ∧ (t.dout n d).ext = true ∧ (t.dout n d).cmd = false ∧
      (t.dout n d).drive = (s.dout n d).drive ∧ bitN (t.dio n).fc0 (8 + d) = true ∧
      (∀ c, c ≠ d → t.dout n c = s.dout n c)) ∧
  (∀ (s : State) (n d : Nat), s.shaped = true → n < 8 → d < 8 → bitN (s.dioReg n 0xA4) (8 + d) = true →
    (s.dout n d).cmd = true → (s.dout n d).drive = true → s.wor n d = false → s.checksRun n = true →
    ∃ t, exec (.openLoad n d) s = .next t ∧ t.dio n = { s.dio n with fc1 := setBit (s.dio n).fc1 d } ∧
      t.points = s.points)

/-- R384, R387 (GUARD_KICK): the guard is armed, with the present safe states; at a re-arm the channel takes the states the
terminals hold. R385, R386 (GUARD_TRIP): every DOUT takes its safe state, and the trip counts. R389 (GUARD_HOLD,
GUARD_HOLD_EXPIRY): the terminals are held, and at the end of the hold the guard trips. -/
def Obligations.OutputGuard : Prop :=
  (∀ (s : State) (n d : Nat), s.shaped = true → n < 8 → (s.ch n).state = .inService →
    ∃ t, exec (.guardKick n) s = .next t ∧ (t.dio n).armed = true ∧ (t.dio n).holding = false ∧
      (t.dio n).keeps = true ∧ (t.dio n).fresh = false ∧ (t.dio n).gSafe = guardTable s n ∧
      (t.dio n).gCodes = (List.range 4).map (fun k => fld (s.dioReg n (0xE8 + 4 * k)) 0 16) ∧
      (t.dout n d).drive = (s.dout n d).drive ∧
      (t.dout n d).cmd = (if (s.dio n).fresh && !(s.dio n).holding then (s.dout n d).drive else (s.dout n d).cmd)) ∧
  (∀ (s : State) (n : Nat), s.shaped = true → n < 8 → (s.dio n).armed = true → (s.dio n).holding = false →
    ∃ t, exec (.guardTrip n) s = .next t ∧ (t.dio n).armed = false ∧ (t.dio n).tripped = true ∧
      (t.dio n).tripCnt = min 255 ((s.dio n).tripCnt + 1) ∧ (t.dio n).fresh = true ∧ t.points = s.points ∧
      (∀ d v, d < 8 → doutSafe (s.dio n).gSafe ((s.dio n).gWor.getLsbD d) d = some v →
        (t.dout n d).drive = (v && !(s.dio n).lockout && !(s.dout n d).hot)) ∧
      (∀ d, d < 8 → doutSafe (s.dio n).gSafe ((s.dio n).gWor.getLsbD d) d = none → t.dout n d = s.dout n d)) ∧
  (∀ (s : State) (n : Nat), s.shaped = true → n < 8 → bitN (s.dioReg n 0xE0) 15 = true → (s.dio n).armed = true →
    ∃ t, exec (.guardHold n) s = .next t ∧ t.points = s.points ∧
      t.dio n = { s.dio n with holding := true, armed := false, keeps := true }) ∧
  (∀ (s : State) (n : Nat), s.shaped = true → n < 8 → (s.dio n).holding = true →
    ∃ t, exec (.guardHoldExpiry n) s = .next t ∧ (t.dio n).armed = false ∧ (t.dio n).holding = false ∧
      (t.dio n).tripped = true ∧ (t.dio n).tripCnt = min 255 ((s.dio n).tripCnt + 1) ∧ t.points = s.points ∧
      (∀ d v, d < 8 → doutSafe (s.dio n).gSafe ((s.dio n).gWor.getLsbD d) d = some v →
        (t.dout n d).drive = (v && !(s.dio n).lockout && !(s.dout n d).hot)))

/-- R393 (ADC_SCAN, ADC_BURST_CONVERSION): the inputs asked for wait for a conversion, and a burst counts down. R391
(ADC_CONVERSION_COMPLETE): code, quality and measurement follow the range; the unfiltered scan restarts from the code.
R391 (AIN_BURDEN_OPEN, AIN_BURDEN_RESTORE): the burden opens with quality INVALID, and closes. R396 (AOUT_CURRENT_LIMIT): the
limit is entered or left, and the code stays. -/
def Obligations.Converters : Prop :=
  (∀ (s : State) (n i : Nat), s.shaped = true → n < 8 → i < 8 → i < (s.dio n).ain.length → s.ainRange n i ≠ 0 →
    fld (s.adcReg n (16 * i)) 16 16 ≠ 0 →
    ∃ t, exec (.adcScan n i) s = .next t ∧ t.ain n i = { s.ain n i with scan := true } ∧ t.points = s.points) ∧
  (∀ (s : State) (n idx i : Nat) (b : Burst), s.shaped = true → n < 8 → (s.dio n).bursts[idx]? = some b →
    1 < b.left → i < 8 → i < (s.dio n).ain.length → b.mask.getLsbD i = true →
    ∃ t, exec (.adcBurstConversion n idx) s = .next t ∧ (t.ain n i).burst = true ∧
      (t.ain n i).code = (s.ain n i).code ∧
      (t.dio n).bursts = (s.dio n).bursts.set idx { b with left := b.left - 1 } ∧ t.points = s.points) ∧
  (∀ (s : State) (n i : Nat) (m : Int), s.shaped = true → n < 8 → i < 8 → i < (s.dio n).ain.length →
    s.ainRange n i ≠ 0 → (s.ain n i).range = s.ainRange n i → (s.ain n i).settle ≤ s.chNow n →
    (s.ain n i).burden = false → (s.dio n).inv = false → fld (s.adcReg n (16 * i)) 4 4 = 0 →
    ∃ t, exec (.adcConversionComplete n i .scan m false) s = .next t ∧
      (t.ain n i).code = (max 0 (min 65535 (ainCode (s.ainRange n i) m))).toNat ∧
      (t.ain n i).qual = ainQual s n i (s.ainRange n i) m ∧ (t.ain n i).meas = m ∧ (t.ain n i).scan = false ∧
      (t.ain n i).fs = some (ainCode (s.ainRange n i) m * 65536) ∧ (t.ain n i).range = s.ainRange n i ∧
      t.regs = s.regs) ∧
  (∀ (s : State) (n i : Nat), s.shaped = true → n < 8 → i < 8 → i < (s.dio n).ain.length →
    s.ainRange n i = 3 ∨ s.ainRange n i = 4 →
    ∃ t, exec (.ainBurdenOpen n i) s = .next t ∧ t.ain n i = { s.ain n i with burden := true, qual := 2 } ∧
      t.regs = s.regs) ∧
  (∀ (s : State) (n i : Nat), s.shaped = true → n < 8 → i < (s.dio n).ain.length →
    ∃ t, exec (.ainBurdenRestore n i) s = .next t ∧ t.ain n i = { s.ain n i with burden := false } ∧
      t.points = s.points) ∧
  (∀ (s : State) (n k : Nat) (lim : Bool), s.shaped = true → n < 8 → k < 4 → k < (s.dio n).aout.length →
    ∃ t, exec (.aoutCurrentLimit n k lim) s = .next t ∧ (t.aout n k).ovl = lim ∧
      (t.aout n k).code = (s.aout n k).code ∧ (t.aout n k).zero = (s.aout n k).zero ∧ t.regs = s.regs)

/-- R447, R448 (CALENDAR_SECOND): the calendar counts a second. R446 (RTC_LOAD): a valid value, or any with the guard off,
is loaded and clears OSF; an invalid one under the guard sets DATE_ERR. R455 (SO_CLEAR): the switch-over record is cleared. R450
(CALENDAR_SYNC): the calendar takes hub time. R451 (CAL_CYCLE): a positive CAL moves PRESC on from a free value of the running
prescaler (log 43); (AUTO_CAL_WINDOW): CAL takes the drift, within its range. R443 (OSC_STOPPED): OSF. R442 (VBAT_MEASURE):
VBAT and its low mark. -/
def Obligations.Calendar : Prop :=
  (∀ s : State, ∃ t, exec .calendarSecond s = .next t ∧ t.bkp.cal = { s.bkp.cal.tick with presc := 0 } ∧
    t.bkp.so = s.bkp.so ∧ t.bkp.osf = s.bkp.osf ∧ t.bkp.rate = s.bkp.rate) ∧
  (∀ s : State, s.reaches 0xB0008 = true →
    ∃ t, exec .rtcLoad s = .next t ∧
      ((s.calGuard = false ∨ (calWords (s.reg 0xB001C) (s.reg 0xB0020)).ok = true) →
        t.bkp.cal = calWords (s.reg 0xB001C) (s.reg 0xB0020) ∧ t.bkp.osf = false ∧ t.bkp.dateErr = false) ∧
      ((s.calGuard = true ∧ (calWords (s.reg 0xB001C) (s.reg 0xB0020)).ok = false) →
        t.bkp = { s.bkp with dateErr := true })) ∧
  (∀ s : State, s.reaches 0xB0008 = true →
    ∃ t, exec .soClear s = .next t ∧ t.bkp = { s.bkp with so := SoRec.reset } ∧ t.points = s.points) ∧
  (∀ (s : State) (new : Cal), s.bkp.syncEn = true → s.time.cls = 5 ∨ s.time.cls = 4 ∨ s.time.cls = 2 →
    s.pwr.vinGood = true → calOf (s.time.now / giga) s.bkp.cal.wday = some new →
    ∃ t, exec .calendarSync s = .next t ∧ t.bkp.cal = new ∧ t.bkp.osf = false ∧ t.bkp.syncRange = false) ∧
  (∀ (s : State) (p : Nat), 0 < s.bkp.rate → s.bkp.rate ≤ 511 → s.bkp.cal.presc < 32768 →
    p = s.bkp.cal.presc + (freeWord s.free).toNat % (32768 - s.bkp.cal.presc) + s.bkp.rate.toNat →
    ∃ t, exec .calCycle s = .next t ∧ t.bkp.cal.presc = p % 32768 ∧
      t.bkp.cal.sec = (if p < 32768 then s.bkp.cal.sec else s.bkp.cal.tick.sec) ∧ t.bkp.rate = s.bkp.rate) ∧
  (∀ (s : State) (d : Int), s.bkp.autoCal = true → s.time.cls = 5 ∨ s.time.cls = 4 → s.time.locked = true →
    ∃ t, exec (.autoCalWindow d) s = .next t ∧ t.points = s.points ∧
      t.bkp = { s.bkp with rate := max (-511) (min 511 (s.bkp.rate + roundDiv (d * 10) 9537)) }) ∧
  (∀ s : State, ∃ t, exec .oscStopped s = .next t ∧ t.bkp = { s.bkp with osf := true }) ∧
  (∀ (s : State) (v : Nat), s.pwr.vinGood = true →
    ∃ t, exec (.vbatMeasure v) s = .next t ∧ t.bkp = { s.bkp with
      vbat := v % 65536, vbatLow := if v < 180 then true else if 190 < v then false else s.bkp.vbatLow })

/-- For every command c and state s, a step of s with c at the front of its queue is exec of c on s with the rest of the
queue; with an empty queue the block idles for one tick of the hub time island. The queue and the idle tick are the model's
choice (log entries 1 and 4). -/
def Obligations.StepRunsFront : Prop :=
  (∀ (c : Instr) (rest : List Instr) (s : State),
    step { s with pending := c :: rest } = exec c { s with pending := rest }) ∧
  (∀ s : State, s.pending = [] → step s = .next (idleTick s))

/-- The state after reset has its register store in canonical form and every fixed part of the module, an empty queue and
nothing put out. -/
def Obligations.ResetWellKept : Prop :=
  State.reset.Inv ∧ State.reset.pending = [] ∧ State.reset.out = []

/-- From every state in which the register store is in canonical form (offsets strictly rising, no word listed at its reset
value) and the module has its 64 functions, 8 channels, 10 timestamp queues and 2 backbone ports, a step that answers a next
state leaves it so, whatever command waits. -/
def Obligations.StepKeepsWellKept : Prop :=
  ∀ s t : State, s.Inv → step s = .next t → t.Inv

/-- Whatever the command, from a state that is well kept: it answers a next state; the commands that wait behind it and the
module's identity are as before; the key revocation fuses are as before and the rollback floor FLOOR does not fall (R494); and
the numbers of free values, of flights and of queued frames only rise. -/
def Obligations.CommandsKeepIdentity : Prop :=
  ∀ (c : Instr) (s : State), s.Inv → ∃ t, exec c s = .next t ∧
    t.pending = s.pending ∧ t.ident = s.ident ∧ t.upd.revoked = s.upd.revoked ∧ s.upd.floor ≤ t.upd.floor ∧
    s.free ≤ t.free ∧ s.serial ≤ t.serial ∧ s.frames ≤ t.frames

/-- R84 (ROLLBACK), for the transaction of any function on a module that is neither in quarantine nor refuses transactions:
an open or preparing transaction, or a pending one whose instant T is more than 100 µs ahead and for which no GO has been sent,
ends: the shadow is empty, the context idle, the result ROLLED_BACK (2), the registers as before. A pending one at T − 100 µs
or later, or one whose GO has been sent, stays as it is, so that it applies, and the result reads TOO_LATE (11). -/
def Obligations.RollbackWindow : Prop :=
  (∀ (s : State) (fn : Nat), fn < 64 → s.lc.quar = 0 → s.txnRefused = false →
    (s.txn fn).resetAfter = false → (s.txn fn).goSent = false →
    ((s.txn fn).state = .opened ∨ (s.txn fn).state = .preparing ∨
      ((s.txn fn).state = .pending ∧ s.time.now + 100000 < (s.txn fn).apply)) →
    ∃ t, exec (.rollback fn) s = .next t ∧ (t.txn fn).state = .idle ∧ (t.txn fn).result = 2 ∧
      (t.txn fn).staged = [] ∧ t.regs = s.regs) ∧
  (∀ (s : State) (fn : Nat), fn < 64 → s.lc.quar = 0 → s.txnRefused = false → (s.txn fn).state ≠ .idle →
    ((s.txn fn).goSent = true ∨ ((s.txn fn).state = .pending ∧ (s.txn fn).apply ≤ s.time.now + 100000)) →
    ∃ t, exec (.rollback fn) s = .next t ∧ t.txn fn = { s.txn fn with result := 11 } ∧ t.regs = s.regs ∧
      (∀ c, c ≠ fn → t.txn c = s.txn c))

/-- R92, on a module that is not in quarantine (R108). Reads of CHn_CTL_STATE read the hub's copy whatever the channel's state.
While a fitted channel n is LINK_LOST or in FAULT, every other word of its block reads 0xFFFF_FFFF, and a write of the physical
function of 1 to 8 bytes anywhere in it changes nothing and raises no error. On the UZF-4A, channels 4 to 7 read 0 and their
writes change nothing (R4). -/
def Obligations.LostChannelBlock : Prop :=
  (∀ (s : State) (n : Nat), n < 8 → s.lc.quar = 0 → s.fitted n = true → (s.ch n).state ≠ .absent →
    readReg s 0 (0x100000 * (n + 1)) = ctlState s n) ∧
  (∀ (s : State) (n o : Nat), n < 8 → s.lc.quar = 0 → s.fitted n = true → 0 < o → o < 0x100000 → o % 4 = 0 →
    ((s.ch n).state = .linkLost ∨ (s.ch n).state = .fault) →
    readReg s 0 (0x100000 * (n + 1) + o) = 0xFFFFFFFF) ∧
  (∀ (s : State) (n o len : Nat) (data : BitVec 64), n < 8 → o < 0x100000 → s.fnEn 0 = true → (s.fn 0).mse = true →
    accessOk o len = true → ((s.ch n).state = .linkLost ∨ (s.ch n).state = .fault) →
    exec (.registerWrite .bar0 0 (0x100000 * (n + 1) + o) len data) s = .next s) ∧
  (∀ (s : State) (n o len : Nat) (data : BitVec 64), s.ident.eight = false → 4 ≤ n → n < 8 → o < 0x100000 → o % 4 = 0 →
    s.fnEn 0 = true → (s.fn 0).mse = true → accessOk o len = true →
    readReg s 0 (0x100000 * (n + 1) + o) = 0 ∧
      exec (.registerWrite .bar0 0 (0x100000 * (n + 1) + o) len data) s = .next s)

/-- R447, for the calendar's advance, which CALENDAR_SECOND makes: SEC advances and carries at 60 or 64; MIN at 60 or 64, HOUR at
24 or 32, each only with the carry from below; DAY rolls to 1 with carry after the month's length, and to 0 without carry at 32
when that is not the month length + 1; MONTH rolls to 1 with carry after 12 or 15, months 0 and 13 to 15 having 31 days; YEAR
rolls at 400 or 512. PRESC is not touched. A valid calendar stays valid, and 2399-12-31 is followed by 2000-01-01. -/
def Obligations.CalendarFields : Prop :=
  (∀ c : Cal, c.sec < 64 → c.min < 64 → c.hour < 32 → c.day < 32 → c.month < 16 → c.year < 512 →
    let cs := c.sec + 1 = 60 ∨ c.sec + 1 = 64
    let cm := cs ∧ (c.min + 1 = 60 ∨ c.min + 1 = 64)
    let ch := cm ∧ (c.hour + 1 = 24 ∨ c.hour + 1 = 32)
    let cd := ch ∧ c.day = monthLen c.year c.month
    let cy := cd ∧ (c.month = 12 ∨ c.month = 15)
    (c.tick).presc = c.presc ∧ (cs → (c.tick).sec = 0) ∧ (¬cs → (c.tick).sec = c.sec + 1) ∧
    (cm → (c.tick).min = 0) ∧ (cs → ¬cm → (c.tick).min = c.min + 1) ∧ (¬cs → (c.tick).min = c.min) ∧
    (ch → (c.tick).hour = 0) ∧ (cm → ¬ch → (c.tick).hour = c.hour + 1) ∧ (¬cm → (c.tick).hour = c.hour) ∧
    (cd → (c.tick).day = 1) ∧ (ch → ¬cd → (c.tick).day = if c.day = 31 then 0 else c.day + 1) ∧
    (¬ch → (c.tick).day = c.day) ∧
    (cy → (c.tick).month = 1) ∧ (cd → ¬cy → (c.tick).month = c.month + 1) ∧ (¬cd → (c.tick).month = c.month) ∧
    (cy → (c.tick).year = if c.year + 1 = 400 ∨ c.year + 1 = 512 then 0 else c.year + 1) ∧
    (¬cy → (c.tick).year = c.year)) ∧
  (∀ y m, monthLen y m = if m = 2 then (if (y % 4 = 0 ∧ y % 100 ≠ 0) ∨ y % 400 = 0 then 29 else 28)
    else if m = 4 ∨ m = 6 ∨ m = 9 ∨ m = 11 then 30 else 31) ∧
  (∀ c : Cal, c.ok = true → (c.tick).ok = true) ∧
  (∀ c : Cal, c.ok = true → c.sec = 59 → c.min = 59 → c.hour = 23 → c.day = 31 → c.month = 12 → c.year = 399 →
    ((c.tick).year, (c.tick).month, (c.tick).day, (c.tick).hour, (c.tick).min, (c.tick).sec) = (0, 1, 1, 0, 0, 0))

/-- R496, R499 (UPDATE_HEADER), on a port that takes update frames: a header that fails a check changes nothing of the update
service and its acknowledgement carries the check's RESULT; one that passes takes the lock for the port and sender, discards a
staged image and sets RECEIVING, and the acknowledgement expects offset 256. UPDATE_CHUNK: bytes of the holder at the next offset
join the body, the last of them starts VERIFYING; at another offset or past the image's end ORDER_ERR, from another sender BUSY,
with nothing changed. UPDATE_ABORT_FRAME of the holder and UPDATE_ABORT of the host: EMPTY, the lock free. R498 (UPDATE_LOAD):
the same for the parts the host's DMA reads. R497: STAGING_VERIFIED gives STAGED with OK, or EMPTY with BAD_DIGEST (9) when a
digest differs; STAGING_TIMEOUT gives EMPTY with TIMEOUT (20). RESULT after an abort is not stated (log entry 75). -/
def Obligations.UpdateIntake : Prop :=
  (∀ (s : State) (port : Nat) (mac : BitVec 48) (seq : BitVec 16) (h : List Byte), updPort s port = true → h.length = 256 →
    hdrCheck s (updHolds s port mac) h = 0 →
    ∃ t, exec (.updateHeader port mac seq h) s = .next t ∧
      t.upd = { s.upd with state := 1, result := 1, lock := 2, src := 1 + port, port := port, mac := mac, header := h,
                           body := [] } ∧
      t.out = s.out ++ [.updAck port ([4, 1] ++ bytesLE 2 seq.toNat ++ bytesLE 4 256 ++ [0, 0, 0, 0])] ∧
      t.regs = s.regs) ∧
  (∀ (s : State) (port : Nat) (mac : BitVec 48) (seq : BitVec 16) (h : List Byte), updPort s port = true → h.length = 256 →
    hdrCheck s (updHolds s port mac) h ≠ 0 →
    ∃ t, exec (.updateHeader port mac seq h) s = .next t ∧ t.upd = s.upd ∧ t.regs = s.regs ∧
      ∃ next, t.out = s.out ++ [.updAck port
        ([4, BitVec.ofNat 8 (hdrCheck s (updHolds s port mac) h)] ++ bytesLE 2 seq.toNat ++ bytesLE 4 next ++ [0, 0, 0, 0])]) ∧
  (∀ (s : State) (port : Nat) (mac : BitVec 48) (seq : BitVec 16) (d : List Byte), updPort s port = true →
    updHolds s port mac = true → s.upd.state = 1 → 1 ≤ d.length → d.length ≤ 1024 → d.length ≤ s.upd.missing →
    ∃ t, exec (.updateChunk port mac seq (256 + s.upd.body.length) d) s = .next t ∧
      t.upd = { s.upd with body := s.upd.body ++ d, state := if d.length = s.upd.missing then 2 else 1 } ∧
      t.out = s.out ++ [.updAck port
        ([4, 1] ++ bytesLE 2 seq.toNat ++ bytesLE 4 (256 + s.upd.body.length + d.length) ++ [0, 0, 0, 0])] ∧
      t.regs = s.regs) ∧
  (∀ (s : State) (port : Nat) (mac : BitVec 48) (seq : BitVec 16) (ofs : Nat) (d : List Byte), updPort s port = true →
    updHolds s port mac = true → s.upd.state = 1 → 1 ≤ d.length → d.length ≤ 1024 →
    (ofs ≠ 256 + s.upd.body.length ∨ s.upd.missing < d.length) →
    ∃ t, exec (.updateChunk port mac seq ofs d) s = .next t ∧ t.upd = s.upd ∧ t.regs = s.regs ∧
      t.out = s.out ++ [.updAck port
        ([4, 10] ++ bytesLE 2 seq.toNat ++ bytesLE 4 (256 + s.upd.body.length) ++ [0, 0, 0, 0])]) ∧
  (∀ (s : State) (port : Nat) (mac : BitVec 48) (seq : BitVec 16) (ofs : Nat) (d : List Byte), updPort s port = true →
    s.upd.lock ≠ 0 → updHolds s port mac = false →
    ∃ t next, exec (.updateChunk port mac seq ofs d) s = .next t ∧ t.upd = s.upd ∧ t.regs = s.regs ∧
      t.out = s.out ++ [.updAck port ([4, 2] ++ bytesLE 2 seq.toNat ++ bytesLE 4 next ++ [0, 0, 0, 0])]) ∧
  (∀ (s : State) (port : Nat) (mac : BitVec 48) (seq : BitVec 16), updPort s port = true → updHolds s port mac = true →
    ∃ t, exec (.updateAbortFrame port mac seq) s = .next t ∧ t.upd.state = 0 ∧ t.upd.lock = 0 ∧ t.upd.header = [] ∧
      t.upd.body = [] ∧ t.upd.slotB = s.upd.slotB ∧ t.upd.trial = s.upd.trial ∧ t.upd.floor = s.upd.floor ∧
      t.regs = s.regs) ∧
  (∀ s : State, s.reaches 0xA0000 = true → s.upd.lock = 1 →
    ∃ t, exec .updateAbort s = .next t ∧ t.upd.state = 0 ∧ t.upd.lock = 0 ∧ t.upd.header = [] ∧ t.upd.body = [] ∧
      t.upd.slotB = s.upd.slotB ∧ t.upd.trial = s.upd.trial ∧ t.upd.floor = s.upd.floor ∧ t.regs = s.regs) ∧
  (∀ (s : State) (h : List Byte), s.reaches 0xA0000 = true → s.mayDma 0 = true → fld (s.reg 0xA0010) 0 26 = 0 →
    fld (s.reg 0xA0014) 0 21 = 256 → h.length = 256 →
    ∃ t, exec (.updateLoad h) s = .next t ∧ t.regs = s.regs ∧ t.out = s.out ∧
      t.upd = (let r := hdrCheck s (s.upd.lock = 1) h
        if r = 0 then { s.upd with state := 1, result := 1, lock := 1, src := 0, port := 0, mac := 0, header := h, body := [] }
        else { s.upd with result := r })) ∧
  (∀ (s : State) (d : List Byte), s.reaches 0xA0000 = true → s.mayDma 0 = true → s.upd.lock = 1 → s.upd.state = 1 →
    fld (s.reg 0xA0010) 0 26 = 256 + s.upd.body.length → fld (s.reg 0xA0014) 0 21 = d.length → 1 ≤ d.length →
    d.length ≤ 2 ^ 20 → d.length ≤ s.upd.missing →
    ∃ t, exec (.updateLoad d) s = .next t ∧ t.regs = s.regs ∧ t.out = s.out ∧
      t.upd = { s.upd with body := s.upd.body ++ d, state := if d.length = s.upd.missing then 2 else 1, result := 1 }) ∧
  (∀ s : State, s.upd.state = 2 →
    ∃ t, exec .stagingVerified s = .next t ∧ t.regs = s.regs ∧
      t.upd = (if digestsOk s.upd.header s.upd.body then { s.upd with state := 3, result := 1, lock := 0, port := 0, mac := 0 }
        else { s.upd with state := 0, result := 9, lock := 0, port := 0, mac := 0, header := [], body := [] })) ∧
  (∀ s : State, s.upd.state = 1 →
    ∃ t, exec .stagingTimeout s = .next t ∧ t.regs = s.regs ∧
      t.upd = { s.upd with state := 0, result := 20, lock := 0, port := 0, mac := 0, header := [], body := [] })

/-- R500, R503 (ACTIVATE, where the update block is reached): with hub time valid and T (HUB_UPD_TIME, rounded up to a sample
boundary) 1 s to 604,800 s ahead, SELF on a STAGED image of a module that is UNPAIRED or whose partner is neither STANDBY nor
SYNCING sets ARMED for T with OK; PARTNER, with a staged partner image of the running MIRROR_FMT, arms the partner's alone; a
state that is not STAGED gives STATE_ERR (19), invalid time NO_TIME (12), T out of range RANGE_ERR (13), a paired SELF PAIRED
(16), another format FORMAT (17), and a refused command changes RESULT only. DISARM of an armed image: STAGED with DISARMED
(21); with none armed 19. R501 (PLANNED_RESTART at T): a fresh start of kind PLANNED (4); when signature and digests hold
again the other boot slot holds the image, is TRIAL and starts, the staging area EMPTY; when not, the old slot starts, EMPTY
too. R502: CONFIRM, or AUTO_CONFIRM in point service with CONFIRM_S not 0, ends TRIAL and raises FLOOR to the slot's SEC_VER;
CONFIRM of a slot not TRIAL gives 19; REVERT of a TRIAL slot is a planned restart into the other slot. R503: PUSH on the
active module of a pair sends a STAGED image to the partner, whose state then reads STAGED; otherwise 19. -/
def Obligations.ActivationRuns : Prop :=
  (∀ s : State, s.reaches 0xA0000 = true → s.upd.state = 3 → s.timeValid = true → (s.reg 0xA0018).toNat < giga →
    s.time.now + giga ≤ updInstant s → updInstant s ≤ s.time.now + 604800 * giga →
    (s.pair.role = 0 ∨ (s.pair.partnerRole ≠ 2 ∧ s.pair.partnerRole ≠ 3)) →
    exec (.activate 0) s = .next (s.modUpd (fun u => { u with result := 1, target := 0, armedAt := updInstant s, state := 4 }))) ∧
  (∀ s : State, s.reaches 0xA0000 = true → s.upd.state = 3 → s.timeValid = true → (s.reg 0xA0018).toNat < giga →
    s.time.now + giga ≤ updInstant s → updInstant s ≤ s.time.now + 604800 * giga →
    s.pair.role ≠ 0 → (s.pair.partnerRole = 2 ∨ s.pair.partnerRole = 3) →
    exec (.activate 0) s = .next (s.modUpd (fun u => { u with result := 16 }))) ∧
  (∀ s : State, s.reaches 0xA0000 = true → s.upd.state ≠ 4 → s.upd.pState ≠ 4 → s.timeValid = true →
    (s.reg 0xA0018).toNat < giga → s.time.now + giga ≤ updInstant s → updInstant s ≤ s.time.now + 604800 * giga →
    exec (.activate 1) s = .next (if s.upd.pState = 3 ∧ s.upd.pFmt = s.upd.running.mirFmt then
        (s.modUpd (fun u => { u with result := 1, target := 1, armedAt := updInstant s, pState := 4 })).mirror
          (.armed (some (updInstant s)))
      else s.modUpd (fun u => { u with result := 17 }))) ∧
  (∀ (s : State) (g : BitVec 2), s.reaches 0xA0000 = true →
    ((g = 0 ∧ s.upd.state ≠ 3) ∨ (g = 2 ∧ s.upd.state ≠ 3) ∨ (g = 1 ∧ s.upd.state = 4)) →
    exec (.activate g) s = .next (s.modUpd (fun u => { u with result := 19 }))) ∧
  (∀ s : State, s.reaches 0xA0000 = true → s.upd.state = 3 →
    (s.timeValid = false → exec (.activate 0) s = .next (s.modUpd (fun u => { u with result := 12 }))) ∧
    (s.timeValid = true → (updInstant s < s.time.now + giga ∨ s.time.now + 604800 * giga < updInstant s) →
      exec (.activate 0) s = .next (s.modUpd (fun u => { u with result := 13 })))) ∧
  (∀ s : State, s.reaches 0xA0000 = true → s.upd.state = 4 → s.upd.pState ≠ 4 →
    ∃ t, exec .disarm s = .next t ∧ t.regs = s.regs ∧
      t.upd = { s.upd with state := 3, result := 21, lock := 0, port := 0, mac := 0 }) ∧
  (∀ s : State, s.reaches 0xA0000 = true → s.upd.state ≠ 4 → s.upd.pState ≠ 4 →
    exec .disarm s = .next (s.modUpd (fun u => { u with result := 19 }))) ∧
  (∀ s : State, s.upd.armedAt ≤ s.time.now → s.timeValid = true → s.upd.state = 4 → s.upd.pState ≠ 4 →
    (hdrSigOk s.upd.header && digestsOk s.upd.header s.upd.body) = true →
    ∃ t, exec .plannedRestart s = .next t ∧ FreshStart s t 4 ∧ t.upd.state = 0 ∧ t.upd.header = [] ∧ t.upd.body = [] ∧
      t.upd.slotB = !s.upd.slotB ∧ t.upd.trial = true ∧ t.upd.running = imageOf s.upd.header ∧ t.upd.floor = s.upd.floor ∧
      (if t.upd.slotB then t.upd.slotAImg else t.upd.slotBImg) = s.upd.running) ∧
  (∀ s : State, s.upd.armedAt ≤ s.time.now → s.timeValid = true → s.upd.state = 4 → s.upd.pState ≠ 4 →
    (hdrSigOk s.upd.header && digestsOk s.upd.header s.upd.body) = false →
    ∃ t, exec .plannedRestart s = .next t ∧ FreshStart s t 4 ∧ t.upd.state = 0 ∧ t.upd.header = [] ∧ t.upd.body = [] ∧
      t.upd.slotB = s.upd.slotB ∧ t.upd.trial = s.upd.trial ∧ t.upd.running = s.upd.running ∧ t.upd.floor = s.upd.floor) ∧
  (∀ s : State, s.reaches 0xA0000 = true → s.upd.trial = true →
    ∃ t, exec .confirmSlot s = .next t ∧ t.regs = s.regs ∧
      t.upd = { s.upd with trial := false, floor := max s.upd.floor s.upd.running.secVer, result := 1 }) ∧
  (∀ s : State, s.reaches 0xA0000 = true → s.upd.trial = false →
    exec .confirmSlot s = .next (s.modUpd (fun u => { u with result := 19 }))) ∧
  (∀ s : State, s.upd.trial = true → s.pwr.service = true → fld (s.reg 0xA0024) 16 16 ≠ 0 →
    ∃ t, exec .autoConfirm s = .next t ∧ t.regs = s.regs ∧
      t.upd = { s.upd with trial := false, floor := max s.upd.floor s.upd.running.secVer, result := 1 }) ∧
  (∀ s : State, s.reaches 0xA0000 = true → s.upd.trial = true →
    ∃ t, exec .revert s = .next t ∧ FreshStart s t 4 ∧ t.upd.slotB = !s.upd.slotB ∧ t.upd.trial = false ∧
      t.upd.slotAImg = s.upd.slotAImg ∧ t.upd.slotBImg = s.upd.slotBImg ∧ t.upd.floor = s.upd.floor) ∧
  (∀ s : State, s.reaches 0xA0000 = true → s.mirrors = true → s.upd.state = 3 →
    exec .push s = .next ((s.modUpd (fun u => { u with
      result := 1, pState := 3, pSec := hdrSecVer u.header % 256, pFmt := hdrMirFmt u.header })).mirror
        (.image s.upd.header s.upd.body))) ∧
  (∀ s : State, s.reaches 0xA0000 = true → (s.mirrors = false ∨ s.upd.state ≠ 3) →
    exec .push s = .next (s.modUpd (fun u => { u with result := 19 })))

/-- R469 (the ten operations of HUB_VLT_OP): with the vault OPEN, no operation in flight and a life-cycle state that allows
operations, the command latches CMD, SLOT, ARG, LEN, LABEL and IN, zeroes IN and OUT and is BUSY; no slot changes. While one is
in flight RESULT reads BUSY (1) and nothing else changes. R460, R470: while the vault is SEALED or ERASED, and in BLANK and
DECOMMISSIONED, the operation ends at once with SEALED (11), ERASED (12) or LC_DENIED (6). -/
def Obligations.VaultStarts : Prop :=
  (∀ (s : State) (slot : Nat), slot < 512 → s.reaches 0x90000 = true → s.vlt.busy = none → s.lc.state ≠ 0 → s.lc.state ≠ 5 →
    s.vstate = 1 → s.pwr.warn = false →
    ∀ p ∈ ([(1, .vaultGenerate slot), (2, .vaultDerive slot), (3, .vaultImport slot), (4, .vaultPromote slot),
      (5, .vaultDiscard slot), (6, .vaultInvalidate slot), (7, .vaultRederive slot), (8, .vaultHmac slot),
      (9, .vaultHmacVerify slot), (10, .vaultEcdsaVerify slot)] : List (Nat × Instr)),
    ∃ t o, exec p.2 s = .next t ∧
      t.vlt = { s.vlt with busy := some o, outLen := 0, inBuf := [], outBuf := List.replicate 12 0 } ∧
      o.cmd = p.1 ∧ o.slot = slot ∧ o.arg = s.reg 0x90004 ∧ o.len = fld (s.reg 0x9000C) 0 11 ∧
      o.label = (List.range 4).flatMap (fun i => bytesLE 4 (s.reg (0x90010 + 4 * i)).toNat) ∧
      o.input = (List.range 256).flatMap (fun i =>
        bytesLE 4 (match amGet s.vlt.inBuf i with | some w => w.toNat | none => 0)) ∧
      t.regs = s.regs ∧ t.out = s.out) ∧
  (∀ (s : State) (slot : Nat) (o : VOp), s.reaches 0x90000 = true → s.vlt.busy = some o →
    ∀ c ∈ ([.vaultGenerate slot, .vaultDerive slot, .vaultImport slot, .vaultPromote slot, .vaultDiscard slot,
      .vaultInvalidate slot, .vaultRederive slot, .vaultHmac slot, .vaultHmacVerify slot, .vaultEcdsaVerify slot] : List Instr),
    exec c s = .next { s with vlt := { s.vlt with result := 1 } }) ∧
  (∀ (s : State) (slot : Nat), s.reaches 0x90000 = true → s.vlt.busy = none →
    (s.lc.state = 0 ∨ s.lc.state = 5 ∨ s.vstate = 0 ∨ s.vstate = 2) →
    ∀ c ∈ ([.vaultGenerate slot, .vaultDerive slot, .vaultImport slot, .vaultPromote slot, .vaultDiscard slot,
      .vaultInvalidate slot, .vaultRederive slot, .vaultHmac slot, .vaultHmacVerify slot, .vaultEcdsaVerify slot] : List Instr),
    ∃ t, exec c s = .next t ∧ t.vlt.busy = none ∧ t.vlt.slots = s.vlt.slots ∧
      t.vlt.result = (if s.lc.state = 0 ∨ s.lc.state = 5 then 6 else if s.vstate = 0 then 11 else 12) ∧
      bitN (t.reg 0x90080) 0 = true)

/-- At VAULT_OP_COMPLETE with no life-cycle command waiting, for an operation on slot 2 to 511 in flight; each ends with BUSY 0 and
RESULT OK. GENERATE: a random key of 32 or 48 bytes is pending in the slot, where the tree rules (R465, R466) let it stand. DERIVE:
the pending key is the first bits of the HMAC of R467 under the ACTIVE parent's key. IMPORT: the pending key is what IN held.
PROMOTE: the pending key is ACTIVE with the next GEN, every descendant is ORPHANED without a pending key, other slots keep their
active keys. DISCARD drops the pending key. INVALIDATE empties the slot and its descendants. REDERIVE: an ORPHANED derived slot
gets its recipe's key under the parent's present key, pending. The root in slot 0 never changes (R464). -/
def Obligations.VaultTree : Prop :=
  (∀ (s : State) (o : VOp) (b d : Nat), s.vlt.busy = some o → s.lc.waiting = none → 2 ≤ o.slot → o.cmd = 1 →
    (o.kind = 1 ∨ o.kind = 2) → vaultPlace s o = .ok (b, d) →
    ∃ t key, exec .vaultOpComplete s = .next t ∧ t.vlt.busy = none ∧ t.vlt.result = 0 ∧
      key.length = (if o.kind = 1 then 32 else 48) ∧
      t.vslot o.slot = { s.vslot o.slot with pend := some (VKey.mk o.kind 1 o.parent d b o.label key) } ∧
      (∀ n, n ≠ o.slot → t.vslot n = s.vslot n)) ∧
  (∀ (s : State) (o : VOp) (b d : Nat) (k : VKey), s.vlt.busy = some o → s.lc.waiting = none → 2 ≤ o.slot → o.cmd = 2 →
    (o.kind = 1 ∨ o.kind = 2) → vaultPlace s o = .ok (b, d) → (s.vslot o.parent).active = some k →
    (s.vslot o.parent).orphan = false →
    ∃ t, exec .vaultOpComplete s = .next t ∧ t.vlt.busy = none ∧ t.vlt.result = 0 ∧
      t.vslot o.slot = { s.vslot o.slot with pend := some (VKey.mk o.kind (if o.measured then 4 else 2) o.parent d b o.label
        ((bytesBE 48 (hmacSha384 k.key (bytesBE 4 1 ++ o.label ++ [0] ++
          vaultContext s o.slot b d (s.vslot o.slot).nextGen o.measured s.vlt.meas ++
          bytesBE 4 (if o.kind = 1 then 256 else 384))).toNat).take (if o.kind = 1 then 32 else 48))) } ∧
      (∀ n, n ≠ o.slot → t.vslot n = s.vslot n)) ∧
  (∀ (s : State) (o : VOp) (b d : Nat), s.vlt.busy = some o → s.lc.waiting = none → 2 ≤ o.slot → o.cmd = 3 →
    (o.kind = 1 ∧ o.len = 32 ∧ s.lc.state ≠ 3 ∨ o.kind = 2 ∧ o.len = 48 ∧ s.lc.state ≠ 3 ∨
      o.kind = 3 ∧ o.len = 96 ∧ onP384 (o.input.take 96) = true) →
    vaultPlace s o = .ok (b, d) →
    ∃ t, exec .vaultOpComplete s = .next t ∧ t.vlt.busy = none ∧ t.vlt.result = 0 ∧
      t.vslot o.slot = { s.vslot o.slot with pend := some (VKey.mk o.kind 3 o.parent d b o.label (o.input.take o.len)) } ∧
      (∀ n, n ≠ o.slot → t.vslot n = s.vslot n)) ∧
  (∀ (s : State) (o : VOp) (k : VKey), s.vlt.busy = some o → s.lc.waiting = none → 2 ≤ o.slot → o.cmd = 4 →
    (s.vslot o.slot).pend = some k →
    ∃ t, exec .vaultOpComplete s = .next t ∧ t.vlt.busy = none ∧ t.vlt.result = 0 ∧
      t.vslot o.slot = VSlot.mk false (s.vslot o.slot).nextGen (some k) none ∧
      (∀ n ∈ descendants s o.slot, t.vslot n = { s.vslot n with orphan := true, pend := none }) ∧
      (∀ n, n ≠ o.slot → n ∉ descendants s o.slot → (t.vslot n).active = (s.vslot n).active ∧
        (t.vslot n).gen = (s.vslot n).gen ∧ (t.vslot n).orphan = (s.vslot n).orphan)) ∧
  (∀ (s : State) (o : VOp), s.vlt.busy = some o → s.lc.waiting = none → 2 ≤ o.slot → o.cmd = 5 →
    (s.vslot o.slot).pend ≠ none →
    ∃ t, exec .vaultOpComplete s = .next t ∧ t.vlt.busy = none ∧ t.vlt.result = 0 ∧
      t.vslot o.slot = { s.vslot o.slot with pend := none } ∧ (∀ n, n ≠ o.slot → t.vslot n = s.vslot n)) ∧
  (∀ (s : State) (o : VOp), s.vlt.busy = some o → s.lc.waiting = none → 2 ≤ o.slot → o.cmd = 6 →
    (s.vslot o.slot).active ≠ none →
    ∃ t, exec .vaultOpComplete s = .next t ∧ t.vlt.busy = none ∧ t.vlt.result = 0 ∧
      (∀ n, n = o.slot ∨ n ∈ descendants s o.slot → t.vslot n = VSlot.reset) ∧
      (∀ n, n ≠ o.slot → n ∉ descendants s o.slot → (t.vslot n).active = (s.vslot n).active ∧
        (t.vslot n).gen = (s.vslot n).gen ∧ (t.vslot n).orphan = (s.vslot n).orphan)) ∧
  (∀ (s : State) (o : VOp) (k p : VKey), s.vlt.busy = some o → s.lc.waiting = none → 2 ≤ o.slot → o.cmd = 7 →
    (s.vslot o.slot).active = some k → (s.vslot o.slot).orphan = true → (k.origin = 2 ∨ k.origin = 4) →
    (s.vslot k.parent).active = some p → (s.vslot k.parent).orphan = false →
    ∃ t, exec .vaultOpComplete s = .next t ∧ t.vlt.busy = none ∧ t.vlt.result = 0 ∧
      t.vslot o.slot = { s.vslot o.slot with pend := some (VKey.mk k.kind k.origin k.parent k.depth k.basin k.label
        (deriveKey s p.key k.label k.kind o.slot k.basin k.depth (s.vslot o.slot).nextGen (k.origin = 4) s.vlt.meas)) } ∧
      (∀ n, n ≠ o.slot → t.vslot n = s.vslot n)) ∧
  (∀ (s t : State), s.lc.waiting = none → exec .vaultOpComplete s = .next t → (t.vslot 0).active = (s.vslot 0).active ∧
    (t.vslot 0).gen = (s.vslot 0).gen ∧ (t.vslot 0).orphan = (s.vslot 0).orphan)

/-- R469, at VAULT_OP_COMPLETE with no life-cycle command waiting: HMAC puts the 48 bytes of HMAC-SHA-384 over the first LEN bytes of
IN into OUT; HMAC_VERIFY ends with OK or BAD_TAG (7) as the last 48 bytes are that MAC of the bytes before; ECDSA_VERIFY of an
ACTIVE PUBKEY slot ends with OK or BAD_SIG (8). No slot changes. R488 (SLOTSEL_WRITE): SLOTINFO0 to 6 describe the chosen slot of an
OPEN vault. R473 (VAULT_JOURNAL_CLOSE): an operation in flight after a power-fail warning ends with POWER_FAIL (10), IN and OUT
zeroed, the slots as they were. -/
def Obligations.VaultUses : Prop :=
  (∀ (s : State) (o : VOp) (k : VKey), s.vlt.busy = some o → s.lc.waiting = none → 2 ≤ o.slot → o.cmd = 8 → o.len ≤ 1024 →
    (s.vslot o.slot).active = some k → k.kind ≠ 3 →
    ∃ t, exec .vaultOpComplete s = .next t ∧ t.vlt.busy = none ∧ t.vlt.result = 0 ∧ t.vlt.slots = s.vlt.slots ∧
      t.vlt.outLen = 48 ∧ t.vlt.outBuf = (List.range 12).map (fun i =>
        BitVec.ofNat 32 (getLE (bytesBE 48 (hmacSha384 k.key (o.input.take o.len)).toNat) (4 * i) 4))) ∧
  (∀ (s : State) (o : VOp) (k : VKey), s.vlt.busy = some o → s.lc.waiting = none → 2 ≤ o.slot → o.cmd = 9 → 48 ≤ o.len →
    o.len ≤ 1024 → (s.vslot o.slot).active = some k → k.kind ≠ 3 →
    ∃ t, exec .vaultOpComplete s = .next t ∧ t.vlt.busy = none ∧ t.vlt.slots = s.vlt.slots ∧
      t.vlt.result = (if bytesBE 48 (hmacSha384 k.key (o.input.take (o.len - 48))).toNat =
        (o.input.drop (o.len - 48)).take 48 then 0 else 7)) ∧
  (∀ (s : State) (o : VOp) (k : VKey), s.vlt.busy = some o → s.lc.waiting = none → 2 ≤ o.slot → o.cmd = 10 → o.len = 144 →
    (s.vslot o.slot).active = some k → k.kind = 3 → (s.vslot o.slot).orphan = false →
    ∃ t, exec .vaultOpComplete s = .next t ∧ t.vlt.busy = none ∧ t.vlt.slots = s.vlt.slots ∧
      t.vlt.result = (if ecdsaP384 k.key (o.input.take 48) ((o.input.drop 48).take 96) then 0 else 8)) ∧
  (∀ (s : State) (n : Nat) (k : VKey), n < 512 → s.reaches 0x90100 = true → s.vstate = 1 → (s.vslot n).active = some k →
    ∃ t, exec (.slotselWrite n) s = .next t ∧ t.reg 0x90100 = BitVec.ofNat 32 n ∧ t.vlt.slots = s.vlt.slots ∧
      t.vlt.info = [mkFld 0 2 (if (s.vslot n).orphan then 2 else 1) ||| mkBit 2 (s.vslot n).pend.isSome |||
        mkFld 3 3 k.kind ||| mkFld 6 3 k.origin ||| mkFld 9 3 k.depth ||| mkFld 12 6 k.basin ||| mkFld 18 9 k.parent,
        BitVec.ofNat 32 (s.vslot n).gen,
        BitVec.ofNat 32 (getLE (bytesBE 48 (hmacSha384 k.key (List.replicate 16 0)).toNat) 0 4)] ++
        (List.range 4).map (fun i => BitVec.ofNat 32 (getLE k.label (4 * i) 4))) ∧
  (∀ (s : State) (o : VOp), s.pwr.warn = true → s.vlt.busy = some o →
    ∃ t, exec .vaultJournalClose s = .next t ∧
      t.vlt = { s.vlt with busy := none, result := 10, outLen := 0, inBuf := [], outBuf := List.replicate 12 0 })

/-- R474 (TAMPER_SAMPLE): a sample that differs from the one before only becomes the last sample. Two agreeing samples of an
enabled loop that are not good make it active: R475, R476, with VIN good, the log entry is counted and UNACK set, HUB_HP_ALERT.TAMPER
is set, an operation in flight ends with TAMPER (9), and in ERASE mode BKEK is erased and the vault ERASED; in LOG mode both stay.
Two good samples end the active state without an entry. R478 (TAMPER_MODE_CHANGE): TCFG is written in PROVISIONED, COMMISSIONING and
MAINTENANCE, else nothing changes. R480: a RELEASE that is not accepted sets QERR and changes nothing else. -/
def Obligations.TamperMonitor : Prop :=
  (∀ (s : State) (i : Nat) (c : LoopSense) (l : TLoop), i < 2 → s.bkp.tcfg.getLsbD i = true → s.bkp.tcfg.getLsbD (1 - i) = false →
    s.bkp.loops[i]? = some l → l.last ≠ c →
    exec (.tamperSample (if i = 0 then c else .good) (if i = 0 then .good else c)) s =
      .next { s with bkp := { s.bkp with loops := s.bkp.loops.set i { last := c, active := l.active } } }) ∧
  (∀ (s : State) (i : Nat) (c : LoopSense) (l : TLoop), i < 2 → s.bkp.tcfg.getLsbD i = true → s.bkp.tcfg.getLsbD (1 - i) = false →
    s.bkp.loops[i]? = some l → l.last = c → c ≠ .good → l.active = false → s.pwr.vinGood = true →
    ∃ t, exec (.tamperSample (if i = 0 then c else .good) (if i = 0 then .good else c)) s = .next t ∧
      t.bkp.loops = s.bkp.loops.set i { last := c, active := true } ∧ t.bkp.unack = true ∧
      t.bkp.tcount = satInc 255 s.bkp.tcount ∧ t.bkp.tnext = (s.bkp.tnext + 1) % 30 ∧ bitN t.host.alert 4 = true ∧
      t.vlt.busy = none ∧ t.vlt.slots = s.vlt.slots ∧ (s.vlt.busy ≠ none → t.vlt.result = 9) ∧
      t.vlt.vstate = (if s.eraseMode then 2 else s.vlt.vstate) ∧
      t.bkp.bkek = (s.bkp.bkek && !s.eraseMode) ∧ t.bkp.bkekErased = (s.bkp.bkekErased || (s.eraseMode && s.bkp.bkek))) ∧
  (∀ (s : State) (i : Nat) (l : TLoop), i < 2 → s.bkp.tcfg.getLsbD i = true → s.bkp.tcfg.getLsbD (1 - i) = false →
    s.bkp.loops[i]? = some l → l.last = .good →
    exec (.tamperSample .good .good) s =
      .next { s with bkp := { s.bkp with loops := s.bkp.loops.set i { last := .good, active := false } } }) ∧
  (∀ (s : State) (w : Word), s.reaches 0xB0200 = true → (s.lc.state = 1 ∨ s.lc.state = 2 ∨ s.lc.state = 4) →
    ∃ t, exec (.tamperModeChange w) s = .next t ∧ t.bkp.tcfg = w.truncate 3 ∧ t.bkp.tlog = s.bkp.tlog ∧
      t.bkp.unack = s.bkp.unack ∧ t.bkp.bkek = (s.bkp.bkek || bitN w 2) ∧ t.vlt = s.vlt ∧ t.regs = s.regs ∧
      ∀ i, i < s.bkp.loops.length → bitN w i = false → i < 3 →
        t.bkp.loops[i]? = some { last := .good, active := false }) ∧
  (∀ (s : State) (w : Word), ¬(s.lc.state = 1 ∨ s.lc.state = 2 ∨ s.lc.state = 4) →
    exec (.tamperModeChange w) s = .next s) ∧
  (∀ (s : State) (key : Byte), s.reaches 0x48 = true → (key ≠ 0xC3 ∨ (s.lc.quar ≠ 1 ∧ s.lc.quar ≠ 2) ∨ s.vlt.vstate ≠ 0 ∨
      s.bkp.loops.any (fun l => l.active) = true) →
    exec (.release key) s = .next { s with lc := { s.lc with qerr := true } })

/-- R429, R430 (VIN_GOOD after VIN was absent, the backup domain intact): a fresh start of kind POWER_ON (0). R433 (WARM with
the key A5H and no power-fail warning): a fresh start of kind WARM (2), WARM_CNT one more; WARM with another key does nothing.
WATCHDOG with VIN good: a fresh start of kind WATCHDOG (3), and R502, a slot still TRIAL ends with it, the other one starting.
R435 (CHANNEL with its key): a fitted channel that is OUT_OF_SERVICE or in FAULT enters STARTING; one in another state, or not
fitted, is refused with RESET_ERR and nothing else. CHANNEL_RESTART_DONE: it enters OUT_OF_SERVICE with its crossbar link up.
R431 (POINT_SERVICE_BEGIN) on a module that serves: point service begins; R432 on a STANDBY or SYNCING module: the rings that
may serve do, point service itself not begun. -/
def Obligations.StartsAndResets : Prop :=
  (∀ (s : State) (loops : BitVec 2) (ok : Bool), s.pwr.vinGood = false →
    ∃ t, exec (.vinGood false loops ok) s = .next t ∧ FreshStart s t 0 ∧ t.pwr.recs = s.pwr.recs) ∧
  (∀ (s : State) (b : Bool) (loops : BitVec 2) (ok : Bool), s.pwr.vinGood = true →
    exec (.vinGood b loops ok) s = .next s) ∧
  (∀ s : State, s.reaches 0xC000C = true → s.pwr.warn = false →
    ∃ t, exec (.warm 0xA5) s = .next t ∧ FreshStart s t 2 ∧ t.pwr.recs = s.pwr.recs) ∧
  (∀ (s : State) (key : Byte), s.reaches 0xC000C = true → key ≠ 0xA5 → exec (.warm key) s = .next s) ∧
  (∀ s : State, s.pwr.vinGood = true →
    ∃ t, exec .watchdog s = .next t ∧ FreshStart s t 3 ∧ t.pwr.recs = s.pwr.recs ∧
      (s.upd.trial = true → t.upd.slotB = !s.upd.slotB ∧ t.upd.trial = false)) ∧
  (∀ (s : State) (n : Nat), s.reaches 0xC000C = true → n < s.chs.length → s.fitted n = true → s.pwr.warn = false →
    ((s.ch n).state = .outOfService ∨ (s.ch n).state = .fault) →
    ∃ t, exec (.channelRestart n 0xA5) s = .next t ∧ (t.ch n).state = .starting ∧ (t.ch n).prior = .outOfService ∧
      t.pwr.resetErr = false ∧ t.ws.svc.getD n .absent = if n < s.ws.svc.length then .out else .absent) ∧
  (∀ (s : State) (n : Nat), s.reaches 0xC000C = true → s.pwr.warn = false →
    (s.fitted n = false ∨ ((s.ch n).state ≠ .outOfService ∧ (s.ch n).state ≠ .fault)) →
    exec (.channelRestart n 0xA5) s = .next (s.modPwr (fun p => { p with resetErr := true }))) ∧
  (∀ (s : State) (n : Nat), n < s.chs.length → (s.ch n).state = .starting → s.pwr.begun = true →
    ∃ t, exec (.channelRestartDone n) s = .next t ∧ (t.ch n).state = .outOfService ∧ (t.ch n).xbarUp = true ∧
      t.regs = s.regs ∧ { t.pair with mirSeq := 0 } = { s.pair with mirSeq := 0 }) ∧
  (∀ s : State, s.pwr.vinGood = true → s.pwr.begun = false → s.pwr.warn = false → s.lc.quar = 0 → s.lc.state ≠ 5 →
    s.standby = false →
    ∃ t, exec .pointServiceBegin s = .next t ∧ t.pwr.service = true ∧ t.pwr.state = 2 ∧ t.pwr.lost = []) ∧
  (∀ s : State, s.pwr.vinGood = true → s.pwr.begun = false → s.pwr.warn = false → s.lc.quar = 0 → s.lc.state ≠ 5 →
    s.standby = true →
    ∃ t, exec .pointServiceBegin s = .next t ∧ t.pwr.begun = true ∧ t.pwr.service = s.pwr.service ∧ { t.pair with mirSeq := 0 } = { s.pair with mirSeq := 0 } ∧
      t.upd = s.upd) ∧
  (∀ s : State, (s.pwr.vinGood = false ∨ s.pwr.begun = true ∨ s.lc.quar ≠ 0 ∨ s.lc.state = 5) →
    exec .pointServiceBegin s = .next s)

/-- R436 (POWER_FAIL_WARNING while VIN is good): the warning's instant, class and validity are held for the record, the
transactions not applied are LOST with them, an armed activation returns to STAGED with CANCELLED (15), and an active module
with a fit standby yields with cause POWER (1). R437: POWER_FAIL_FREEZE freezes; before a warning neither it nor VIN_COLLAPSE
nor VIN_RETURN does anything. R438, R439 (POWER_FAIL_RECORD, once, after the freeze): the record's RSEQ is one more than the
newest's and it goes into slot RSEQ mod 8, with the warning's instant and class, the epoch, and the identifiers lost (at most
66); with VIN back meanwhile a fresh start of kind POWER_FAIL (1) follows. VIN_COLLAPSE: without power, the records kept.
VIN_RETURN before the record is written waits for it; after it, the fresh start follows. -/
def Obligations.PowerFailure : Prop :=
  (∀ s : State, s.pwr.vinGood = true → s.pwr.warn = false → s.upd.pState ≠ 4 →
    ∃ t, exec .powerFailWarning s = .next t ∧ t.pwr.warn = true ∧ t.pwr.warnAt = s.time.now ∧ t.pwr.warnCls = s.time.cls ∧
      t.pwr.warnValid = s.timeValid ∧ t.pwr.lost = s.pwr.lost ++ txnsLost s ∧ t.pwr.recs = s.pwr.recs ∧
      t.pwr.cancelled = (s.upd.state = 4 : Bool) ∧
      t.upd = (if s.upd.state = 4 then { s.upd with state := 3, result := 15, lock := 0, port := 0, mac := 0 } else s.upd) ∧
      (s.partnerReady = true → s.pair.yielding = none → t.pair.yielding = some 1 ∧ t.pair.aliveOut = false)) ∧
  (∀ s : State, s.pwr.warn = true → exec .powerFailFreeze s = .next (s.modPwr (fun p => { p with frozen := true }))) ∧
  (∀ s : State, s.pwr.warn = false → exec .powerFailFreeze s = .next s ∧ exec .vinCollapse s = .next s ∧
    exec .vinReturn s = .next s) ∧
  (∀ s : State, s.pwr.frozen = true → s.pwr.recorded = false →
    ∃ t r, exec .powerFailRecord s = .next t ∧ t.pwr.recs = amSet s.pwr.recs (r.rseq % 8) r ∧
      r.rseq = s.pwr.recs.foldl (fun m x => max m x.2.rseq) 0 + 1 ∧ r.epoch = s.ws.epoch ∧ r.cls = s.pwr.warnCls ∧
      r.warnAt = s.pwr.warnAt ∧ r.lost = (s.pwr.lost.map (·.2)).take 66 ∧
      (s.pwr.returned = true → FreshStart s t 1) ∧
      (s.pwr.returned = false → t.pwr.recorded = true ∧ t.regs = s.regs ∧ t.upd = s.upd ∧ { t.pair with mirSeq := 0 } = { s.pair with mirSeq := 0 })) ∧
  (∀ s : State, (s.pwr.frozen = false ∨ s.pwr.recorded = true) → exec .powerFailRecord s = .next s) ∧
  (∀ s : State, s.pwr.warn = true →
    ∃ t, exec .vinCollapse s = .next t ∧ t.pwr.vinGood = false ∧ t.usb = false ∧ t.pwr.recs = s.pwr.recs ∧
      FreshStart s t 0) ∧
  (∀ s : State, s.pwr.warn = true → s.pwr.recorded = false →
    exec .vinReturn s = .next (s.modPwr (fun p => { p with returned := true }))) ∧
  (∀ s : State, s.pwr.warn = true → s.pwr.recorded = true →
    ∃ t, exec .vinReturn s = .next t ∧ FreshStart s t 1 ∧ t.pwr.recs = s.pwr.recs)

/-- R482, R485, R486: a life-cycle command with KEY C3H (and, for DECOMMISSION, RECLAIM and REPROVISION, CONFIRM equal to bits
15..0 of the serial number), outside QUARANTINE and outside a power-fail warning, with no vault operation in flight, makes the
transition its row of the table names by a fresh start of kind LIFECYCLE (5), and the state is then the row's (a BLANK module
is PROVISIONED by the start itself, R463); with a vault operation in flight it waits for its end. REPROVISION needs the vault
ERASED (R483). A wrong KEY, a wrong CONFIRM, or a transition not in the table sets LC_ERR and changes nothing else. R480:
RELEASE, with its key, in a QUARANTINE of cause 1 or 2 with the vault SEALED and no tamper loop active, is a fresh start of kind
WARM (2). -/
def Obligations.LifeCycleCommands : Prop :=
  (∀ (s : State) (cmd old new : Nat) (c : Byte → BitVec 16 → Instr) (confirm : BitVec 16),
    (cmd, c, old, new) ∈ [(1, Instr.commission, 1, 2), (1, .commission, 3, 2), (1, .commission, 4, 2),
      (2, .enterService, 2, 3), (2, .enterService, 4, 3), (3, .maintain, 3, 4), (4, .decommission, 1, 5),
      (4, .decommission, 2, 5), (4, .decommission, 3, 5), (4, .decommission, 4, 5), (5, .reclaim, 5, 0)] →
    s.reaches 0x44 = true → s.lc.quar = 0 → s.lc.state = old → s.pwr.warn = false → s.lc.waiting = none →
    (4 ≤ cmd → confirm.toNat = s.ident.serial.toNat % 65536) →
    (s.vlt.busy = none → ∃ t, exec (c 0xC3 confirm) s = .next t ∧ FreshStart s t 5 ∧
      t.lc.state = (if new = 0 then t.lc.state else new) ∧ t.lc.state ≤ max 1 new) ∧
    (s.vlt.busy ≠ none →
      exec (c 0xC3 confirm) s = .next { s with lc := { s.lc with lcErr := false, waiting := some cmd } })) ∧
  (∀ (s : State) (confirm : BitVec 16), s.reaches 0x44 = true → s.lc.quar ≠ 4 → s.vlt.vstate = 2 → s.pwr.warn = false →
    s.lc.waiting = none → s.vlt.busy = none → confirm.toNat = s.ident.serial.toNat % 65536 →
    ∃ t, exec (.reprovision 0xC3 confirm) s = .next t ∧ FreshStart s t 5 ∧ t.lc.state = 1) ∧
  (∀ (s : State) (c : Byte → BitVec 16 → Instr) (key : Byte) (confirm : BitVec 16),
    c ∈ [Instr.commission, .enterService, .maintain, .decommission, .reclaim, .reprovision] → s.reaches 0x44 = true →
    (key ≠ 0xC3 ∨ s.pwr.warn = true) →
    exec (c key confirm) s = .next { s with lc := { s.lc with lcErr := true } }) ∧
  (∀ (s : State) (c : Byte → BitVec 16 → Instr) (key : Byte) (confirm : BitVec 16),
    c ∈ [Instr.decommission, .reclaim, .reprovision] → s.reaches 0x44 = true →
    confirm.toNat ≠ s.ident.serial.toNat % 65536 →
    exec (c key confirm) s = .next { s with lc := { s.lc with lcErr := true } }) ∧
  (∀ (s : State) (c : Byte → BitVec 16 → Instr) (l : List Nat) (key : Byte) (confirm : BitVec 16),
    (c, l) ∈ [(Instr.commission, [0, 2, 5]), (.enterService, [0, 1, 3, 5]), (.maintain, [0, 1, 2, 4, 5]),
      (.decommission, [0, 5]), (.reclaim, [0, 1, 2, 3, 4])] → s.reaches 0x44 = true → s.lc.state ∈ l →
    exec (c key confirm) s = .next { s with lc := { s.lc with lcErr := true } }) ∧
  (∀ (s : State) (key : Byte) (confirm : BitVec 16), s.reaches 0x44 = true → s.vlt.vstate ≠ 2 →
    exec (.reprovision key confirm) s = .next { s with lc := { s.lc with lcErr := true } }) ∧
  (∀ s : State, s.reaches 0x48 = true → (s.lc.quar = 1 ∨ s.lc.quar = 2) → s.vlt.vstate = 0 →
    s.bkp.loops.any (fun l => l.active) = false →
    ∃ t, exec (.release 0xC3) s = .next t ∧ FreshStart s t 2)

/-- R405 (HEARTBEAT_SEND over a link that is up, EN set): one heartbeat leaves, at the boundary of 1,000 ns, with the next SEQ,
the role, the own FIT, YIELD, MADE, SWAP_PREP and the last mirror record it closes; otherwise nothing happens.
HEARTBEAT_RECEIVED with a bad CRC only counts it; one of a module that was refused changes no role, FIT or record. On the active module one that arrives sets PARTNER and takes the partner's
FIT, which counts only from a STANDBY; on a fit STANDBY with no mirror record held, one of the active module that carries YIELD
decides the takeover, its cause SWAP (5) when SWAP_PREP stands in it and otherwise one of 1 to 4 that the heartbeat does not
tell (log entry 40). R410: one whose time lies more than 100 µs back makes the STANDBY SYNCING. R409: a STANDBY or SYNCING module holds a MIRROR_RECORD until a heartbeat closes it. R406:
PAIR_ALIVE_CHANGE is what PAIR_ALIVE_IN reads. R416: the active module holds the latest HEALTH_REPORT, and an UNFIT one, or 30
ms without any in MODE HOT (R415), makes its partner not fit. SELFTEST on an idle STANDBY is BUSY until SELFTEST_DONE writes
its report, UNFIT when a hub fault stands or a channel present is not fit; in another role it sets CMD_ERR. HEALTH_REPORT_SEND
of a hot STANDBY counts one report and one test cycle. R401 (PAIR_LINK_UP on an UNPAIRED module): a partner with the same
ordering code, GROUP_ID, mirror format and a life-cycle state that pairs, EN set on both and the other strap, is accepted with
its role known; the first condition that fails is the reason of PAIR_REFUSED, and the module stays UNPAIRED. -/
def Obligations.PairLink : Prop :=
  (∀ s : State, s.pair.linkUp = true → bitN (s.reg 0x80000) 0 = true →
    ∃ t, exec .heartbeatSend s = .next t ∧ t.regs = s.regs ∧
      t.out = s.out ++ [.heartbeat { time := s.time.now / 1000 * 1000, seq := (s.pair.seq + 1) % 65536, role := s.pair.role, fit := ownFit s, yields := s.pair.yielding.isSome, made := s.pair.made, swapPrep := s.pair.swapping, mirrorSeq := s.pair.mirSeq, crcOk := true }] ∧
      t.pair.seq = (s.pair.seq + 1) % 65536) ∧
  (∀ s : State, (s.pair.linkUp = false ∨ bitN (s.reg 0x80000) 0 = false) → exec .heartbeatSend s = .next s) ∧
  (∀ (s : State) (hb : Heartbeat), hb.crcOk = false →
    exec (.heartbeatReceived hb) s = .next (s.modPair (fun p => { p with crcErr := (p.crcErr + 1) % 65536 }))) ∧
  (∀ (s : State) (hb : Heartbeat), hb.crcOk = true → s.pair.refused = true →
    ∃ t, exec (.heartbeatReceived hb) s = .next t ∧ t.pair.partnerRole = hb.role ∧ t.pair.peerSeq = some hb.seq ∧
      t.pair.role = s.pair.role ∧ t.pair.partnerFit = s.pair.partnerFit ∧ t.pair.decided = s.pair.decided ∧
      t.pair.recs = s.pair.recs ∧ t.regs = s.regs ∧ t.out = s.out) ∧
  (∀ (s : State) (hb : Heartbeat), hb.crcOk = true → s.pair.role = 1 → s.pair.refused = false →
    ∃ t, exec (.heartbeatReceived hb) s = .next t ∧ t.pair.role = 1 ∧ t.pair.partnerRole = hb.role ∧
      t.pair.partnerFit = (hb.fit && (hb.role = 2 : Bool)) ∧ t.pair.peerSeq = some hb.seq ∧ t.regs = s.regs) ∧
  (∀ (s : State) (hb : Heartbeat), hb.crcOk = true → s.pair.role = 2 → s.pair.refused = false →
    s.pair.testBad = false → s.pair.recs = [] → hb.role = 1 → hb.yields = true → s.time.now - hb.time ≤ 100000 →
    ∃ t cause, exec (.heartbeatReceived hb) s = .next t ∧ t.pair.decided = some cause ∧ t.pair.role = 2 ∧
      t.pair.lastH = hb.time ∧ t.regs = s.regs ∧ if hb.swapPrep = true then cause = 5 else 1 ≤ cause ∧ cause ≤ 4) ∧
  (∀ (s : State) (hb : Heartbeat), hb.crcOk = true → s.pair.role = 2 → s.pair.refused = false → s.pair.recs = [] →
    hb.role = 1 → 100000 < s.time.now - hb.time →
    ∃ t, exec (.heartbeatReceived hb) s = .next t ∧ t.pair.role = 3 ∧ t.pair.lastH = hb.time) ∧
  (∀ (s : State) (n : Nat) (r : MirrorRec), s.standby = true →
    exec (.mirrorRecord n r) s = .next (s.modPair (fun p => { p with recs := p.recs ++ [(n, r)] }))) ∧
  (∀ (s : State) (n : Nat) (r : MirrorRec), s.standby = false → exec (.mirrorRecord n r) s = .next s) ∧
  (∀ (s : State) (c : AliveIn), exec (.pairAliveChange c) s = .next (s.modPair (fun p => { p with aliveIn := c }))) ∧
  (∀ (s : State) (ws : List Word), s.pair.role = 1 → ws.length = 6 →
    ∃ t, exec (.healthReport ws) s = .next t ∧ t.pair.health = ws ∧ t.pair.role = 1 ∧ t.regs = s.regs ∧
      t.pair.partnerFit = (!bitN (ws.getD 0 0) 16 && (s.pair.partnerRole = 2 : Bool) && !s.pair.refused)) ∧
  (∀ (s : State) (ws : List Word), s.pair.role ≠ 1 → exec (.healthReport ws) s = .next s) ∧
  (∀ s : State, s.pair.role = 1 → s.pair.hot = true →
    ∃ t, exec .healthReportTimeout s = .next t ∧ t.pair.partnerFit = false ∧ t.pair.role = 1 ∧ t.regs = s.regs) ∧
  (∀ s : State, s.reaches 0x80008 = true → s.pair.role = 2 → s.pair.busy = false →
    exec .selftest s = .next (s.modPair (fun p => { p with busy := true, cmdErr := false }))) ∧
  (∀ s : State, s.reaches 0x80008 = true → (s.pair.role ≠ 2 ∨ s.pair.busy = true) →
    exec .selftest s = .next (s.modPair (fun p => { p with cmdErr := true }))) ∧
  (∀ (s : State) (hubF chP chF : Byte) (faults : Word), s.pair.role = 2 → s.pair.busy = true →
    ∃ t, exec (.selftestDone hubF chP chF faults) s = .next t ∧ t.pair.busy = false ∧ t.pair.role = 2 ∧
      t.pair.testBad = (hubF ≠ 0 || (chP &&& ~~~chF) ≠ 0 : Bool) ∧ t.pair.cycles = (s.pair.cycles + 1) % 2 ^ 32 ∧
      t.pair.reportSeq = (s.pair.reportSeq + 1) % 65536 ∧ t.pair.health.length = 6 ∧ t.regs = s.regs) ∧
  (∀ s : State, s.pair.role = 2 → s.pair.hot = true →
    ∃ t, exec .healthReportSend s = .next t ∧ t.pair.reportSeq = (s.pair.reportSeq + 1) % 65536 ∧
      t.pair.cycles = (s.pair.cycles + 1) % 2 ^ 32 ∧ t.pair.role = 2 ∧ t.regs = s.regs) ∧
  (∀ (s : State) (p : Partner) (lanes : BitVec 2), s.pair.role = 0 → bitN (s.reg 0x80000) 0 = true → p.enabled = true →
    p.code4 = !s.ident.eight → fld (s.reg 0x80000) 16 16 = p.groupId → p.sideB = !s.ident.sideB →
    s.upd.running.mirFmt = p.mirrorFmt → s.lc.state = p.lifecycle → 2 ≤ p.lifecycle → p.lifecycle ≤ 4 →
    ∃ t, exec (.pairLinkUp p lanes) s = .next t ∧ t.pair.linkUp = true ∧ t.pair.lanes = lanes ∧ t.pair.partner = some p ∧
      t.pair.partnerRole = p.role ∧ t.pair.role = 0 ∧ t.pair.refused = false ∧ t.pair.hot = (p.modeHot && s.ident.eight) ∧ t.regs = s.regs ∧
      t.out = s.out) ∧
  (∀ (s : State) (p : Partner) (lanes : BitVec 2), s.pair.role = 0 →
    (bitN (s.reg 0x80000) 0 = false ∨ p.enabled = false ∨ p.code4 = s.ident.eight ∨
      fld (s.reg 0x80000) 16 16 ≠ p.groupId ∨ p.sideB = s.ident.sideB) →
    ∃ t, exec (.pairLinkUp p lanes) s = .next t ∧ t.pair.linkUp = true ∧ t.pair.role = 0 ∧ t.pair.partner = some p ∧
      t.pair.refused = true ∧ t.pair.partnerFit = false ∧ t.regs = s.regs)

/-- R402 (ROLE_DECISION of an UNPAIRED module with EN set, before point service, its partner not refused): an ACTIVE partner
gives SYNCING; a link that is up gives side A ACTIVE and side B SYNCING; PAIR_ALIVE_IN reading OTHER with the link down the
same; SILENT gives ACTIVE. R417, R423 (HEARTBEAT_TIMEOUT): a fit STANDBY that does not read ACTIVE decides the takeover; one
that does, or is not fit, becomes SYNCING; the ACTIVE module, and one whose partner was refused, keeps its role; in each case the
partner is gone. R418, R420
(TAKEOVER, once decided, by a hot STANDBY or one whose self-check passes with no memory error since it took the role): ROLE
ACTIVE, MADE, the takeover counted and its cause, gap and second held; R414, R419: a warm STANDBY that fails becomes SYNCING. R421
(MADE_RECEIVED by the module that yielded): after a swap STANDBY at once and the swap counted (R422), otherwise SYNCING.
RELEASE_TIMEOUT of a channel that has not stopped, or holds no RELEASE_ARMED, does nothing. R422: SWAP with a fit STANDBY
partner sets BUSY and, in MODE HOT, picks Ts as the first sample boundary 10 ms on; otherwise CMD_ERR. SWAP_YIELD at Ts yields
with cause SWAP (5); SWAP_TIMEOUT 16 µs later takes the work back, the partner SYNCING. R424 (RESYNC_DONE): a SYNCING module
becomes STANDBY where the active module was not refused (R5). -/
def Obligations.RoleChanges : Prop :=
  (∀ (s : State) (seen : Bool), bitN (s.reg 0x80000) 0 = true → s.pwr.service = false → s.pwr.vinGood = true →
    s.pair.role = 0 → (∀ p, s.pair.partner = some p → s.pair.linkUp = true → pairRefusal s p = none) →
    ∃ t, exec (.roleDecision seen) s = .next t ∧ t.pair.linkUp = s.pair.linkUp ∧ t.pair.partner = s.pair.partner ∧
      t.pair.role = if seen = true ∨ s.pair.aliveIn = .active then 3
        else if s.pair.linkUp = true ∨ s.pair.aliveIn = .other then (if s.ident.sideB then 3 else 1) else 1) ∧
  (∀ (s : State) (seen : Bool), (bitN (s.reg 0x80000) 0 = false ∨ s.pwr.service = true ∨ s.pair.role ≠ 0) →
    exec (.roleDecision seen) s = .next s) ∧
  (∀ s : State, s.pair.partnerRole ≠ 0 → s.pair.role = 2 → s.pair.refused = false →
    ∃ t, exec .heartbeatTimeout s = .next t ∧ t.pair.partnerRole = 0 ∧ t.pair.linkUp = false ∧ t.pair.peerSeq = none ∧
      (if s.pair.aliveIn ≠ .active ∧ s.pair.testBad = false then t.pair.role = 2 ∧ t.pair.decided = some 0
        else t.pair.role = 3 ∧ t.pair.decided = none)) ∧
  (∀ s : State, s.pair.partnerRole ≠ 0 → (s.pair.role ≠ 2 ∨ s.pair.refused = true) →
    ∃ t, exec .heartbeatTimeout s = .next t ∧ t.pair.partnerRole = 0 ∧ t.pair.linkUp = false ∧ t.pair.partnerFit = false ∧
      t.pair.role = s.pair.role ∧ t.pair.decided = s.pair.decided ∧ t.pair.refused = false) ∧
  (∀ s : State, s.pair.partnerRole = 0 → exec .heartbeatTimeout s = .next s) ∧
  (∀ (s : State) (gap cause : Nat) (ok : Bool), s.pair.decided = some cause → s.pair.role = 2 →
    (s.pair.hot = true ∨ (ok = true ∧ s.pair.memErr = false)) →
    ∃ t, exec (.takeover gap ok) s = .next t ∧ t.pair.role = 1 ∧ t.pair.made = true ∧ t.pair.decided = none ∧
      t.pair.lastCause = cause ∧ t.pair.lastHot = s.pair.hot ∧ t.pair.lastGap = min 65535 gap ∧
      t.pair.lastSec = s.pair.lastH / giga % 2 ^ 32 ∧ t.pair.takeovers = satInc 255 s.pair.takeovers ∧ t.pair.recs = []) ∧
  (∀ (s : State) (gap cause : Nat) (ok : Bool), s.pair.decided = some cause → s.pair.role = 2 → s.pair.hot = false →
    (ok = false ∨ s.pair.memErr = true) →
    ∃ t, exec (.takeover gap ok) s = .next t ∧ t.pair.role = 3 ∧ t.pair.made = false ∧ t.pair.takeovers = s.pair.takeovers) ∧
  (∀ (s : State) (gap : Nat) (ok : Bool), s.pair.decided = none → exec (.takeover gap ok) s = .next s) ∧
  (∀ (s : State) (cause : Nat), s.pair.yielding = some cause → s.pair.role = 1 →
    ∃ t, exec .madeReceived s = .next t ∧ t.pair.partnerRole = 1 ∧ t.pair.yielding = none ∧
      (if cause = 5 then t.pair.role = 2 ∧ t.pair.swapping = false ∧ t.pair.busy = false ∧
          t.pair.takeovers = satInc 255 s.pair.takeovers
        else t.pair.role = 3 ∧ t.pair.takeovers = s.pair.takeovers)) ∧
  (∀ s : State, (s.pair.yielding = none ∨ s.pair.role ≠ 1) → exec .madeReceived s = .next s) ∧
  (∀ (s : State) (n : Nat), ((s.ch n).stopped = false ∨ (s.ch n).relArmed = false) → exec (.releaseTimeout n) s = .next s) ∧
  (∀ s : State, s.reaches 0x80008 = true → s.partnerReady = true → s.pair.busy = false → s.pair.yielding = none →
    exec .swap s = .next (s.modPair (fun p => { p with
      swapping := true, busy := true, cmdErr := false,
      swapTs := if p.hot then some (ceilSample (s.time.now + 10000000)) else none }))) ∧
  (∀ s : State, s.reaches 0x80008 = true → (s.partnerReady = false ∨ s.pair.busy = true) →
    ∃ t, exec .swap s = .next t ∧ { t.pair with mirSeq := 0 } = { s.pair with cmdErr := true, mirSeq := 0 } ∧ t.regs = s.regs) ∧
  (∀ (s : State) (ts : Instant), s.pair.swapTs = some ts → s.pair.swapping = true → ts ≤ s.time.now →
    s.partnerReady = true → s.pair.yielding = none →
    ∃ t, exec .swapYield s = .next t ∧ { t.pair with mirSeq := 0 } = { s.pair with yielding := some 5, aliveOut := false, mirSeq := 0 } ∧ t.regs = s.regs) ∧
  (∀ (s : State) (ts : Instant), s.pair.swapTs = some ts → s.pair.yielding = some 5 → ts + 16000 ≤ s.time.now →
    ∃ t, exec .swapTimeout s = .next t ∧ t.regs = s.regs ∧ { t.pair with mirSeq := 0 } = { s.pair with
      yielding := none, aliveOut := true, swapping := false, swapTs := none, busy := false, partnerRole := 3,
      partnerFit := false, mirSeq := 0 }) ∧
  (∀ (s : State) (epoch : Nat) (time : Instant), s.pair.role = 3 → s.pair.linkUp = true → s.pair.partnerRole = 1 →
    s.pair.refused = false →
    ∃ t, exec (.resyncDone epoch time) s = .next t ∧ t.pair.role = 2 ∧ t.pair.syncPct = 100 ∧
      t.pair.fit = !s.pair.testBad ∧ t.pair.linkUp = true) ∧
  (∀ (s : State) (epoch : Nat) (time : Instant), (s.pair.role ≠ 3 ∨ s.pair.linkUp = false ∨ s.pair.partnerRole ≠ 1 ∨
    s.pair.refused = true) → exec (.resyncDone epoch time) s = .next s)

/-- R70 (REGISTER_WRITE to HUB_PAIR_JOINn, whose bits 11..0 are RW, no transaction open): a write of four bytes brings them
into the register, one of the low byte changes JOIN_DO only, the reserved bits stay, and no other register, the hub's time,
the pair's state nor any channel changes; nothing leaves but the record for a partner (R88). R97, R100: an access to a function
without Memory Space Enable, and one of no bytes, of more than eight or across an 8-byte boundary, is an Unsupported Request: it
is logged in the function's AER registers, a read is answered so, and nothing else changes. R72: an expert register takes no
direct write. R9 (LATCHING_READ of the low word of the serial number): the low word is returned, and the high word is held
for the read of the high word; R194: a read of HUB_TIME0 holds the time's upper words of the same instant. -/
def Obligations.RegisterAccess : Prop :=
  (∀ (s : State) (n : Nat) (data : BitVec 64), n < 8 → s.fnEn 0 = true → (s.fn 0).mse = true →
    s.reaches (0x80020 + 4 * n) = true → (s.txn 0).state ≠ .opened →
    ∃ t, exec (.registerWrite .bar0 0 (0x80020 + 4 * n) 4 data) s = .next t ∧
      t.reg (0x80020 + 4 * n) = (s.reg (0x80020 + 4 * n) &&& 0xFFFFF000) ||| (data.truncate 32 &&& 0xFFF) ∧ (∀ k, k ≠ 0x80020 + 4 * n → t.reg k = s.reg k) ∧
      t.time = s.time ∧ t.pair = { s.pair with mirSeq := t.pair.mirSeq } ∧ t.chs = s.chs ∧ t.ws = s.ws ∧ t.txns = s.txns ∧
      (s.mirrors = false → t.out = s.out)) ∧
  (∀ (s : State) (n : Nat) (data : BitVec 64), n < 8 → s.fnEn 0 = true → (s.fn 0).mse = true →
    s.reaches (0x80020 + 4 * n) = true → (s.txn 0).state ≠ .opened →
    ∃ t, exec (.registerWrite .bar0 0 (0x80020 + 4 * n) 1 data) s = .next t ∧
      t.reg (0x80020 + 4 * n) = (s.reg (0x80020 + 4 * n) &&& 0xFFFFFF00) ||| (data.truncate 32 &&& 0xFF) ∧
      (∀ k, k ≠ 0x80020 + 4 * n → t.reg k = s.reg k) ∧ (s.mirrors = false → t.out = s.out)) ∧
  (∀ (s : State) (fn off len : Nat) (data : BitVec 64), s.fnEn fn = true →
    ((s.fn fn).mse = false ∨ len = 0 ∨ 8 < off % 8 + len) →
    exec (.registerWrite .bar0 fn off len data) s = .next (s.modFn fn (fun f =>
      { f with aer := if f.aer.contains (.tlp .unsupported) then f.aer else f.aer ++ [.tlp .unsupported] }))) ∧
  (∀ (s : State) (off : Nat) (be : BitVec 4) (w : Word), isExpert off = true → (s.txn 0).state ≠ .opened →
    bar0Word 0 off be w s = s) ∧
  (∀ s : State, s.fnEn 0 = true → (s.fn 0).mse = true → s.lc.quar = 0 →
    ∃ t, exec (.latchingRead 0 0x10 .bar0 4) s = .next t ∧ t.out = s.out ++ [.readData 0 0x10 (s.ident.serial.truncate 32)] ∧
      t.regs = s.regs ∧ amGet t.high64 0x10 = some ((s.ident.serial >>> 32).truncate 32)) ∧
  (∀ s : State, s.fnEn 0 = true → (s.fn 0).mse = true → s.lc.quar = 0 →
    ∃ t, exec (.latchingRead 0 0x50000 .bar0 4) s = .next t ∧
      t.out = s.out ++ [.readData 0 0x50000 (timeWord s.time.now s.time.cls 0)] ∧ t.regs = s.regs ∧
      t.time.latch1 = timeWord s.time.now s.time.cls 1 ∧ t.time.latch2 = timeWord s.time.now s.time.cls 2 ∧
      t.time.now = s.time.now) ∧
  (∀ (s : State) (fn off len : Nat), s.fnEn fn = true → ((s.fn fn).mse = false ∨ len = 0 ∨ 8 < off % 8 + len) →
    exec (.latchingRead fn off .bar0 len) s = .next ((s.modFn fn (fun f =>
      { f with aer := if f.aer.contains (.tlp .unsupported) then f.aer else f.aer ++ [.tlp .unsupported] })).emit
        (.unsupported fn off)))
end

