-- ==== Sys2Proof/Laws/State.lean ====
section
/-! SUPPORT. What each named update of the state leaves: one lemma per update and field, and the field it changes. -/

namespace Sys2Proof.Machine

@[simp] theorem State.emit_pending {s : State} {e : Emission} : (s.emit e).pending = s.pending := rfl
@[simp] theorem State.emit_free {s : State} {e : Emission} : (s.emit e).free = s.free := rfl
@[simp] theorem State.emit_ticks {s : State} {e : Emission} : (s.emit e).ticks = s.ticks := rfl
@[simp] theorem State.emit_ident {s : State} {e : Emission} : (s.emit e).ident = s.ident := rfl
@[simp] theorem State.emit_regs {s : State} {e : Emission} : (s.emit e).regs = s.regs := rfl
@[simp] theorem State.emit_low64 {s : State} {e : Emission} : (s.emit e).low64 = s.low64 := rfl
@[simp] theorem State.emit_high64 {s : State} {e : Emission} : (s.emit e).high64 = s.high64 := rfl
@[simp] theorem State.emit_pins {s : State} {e : Emission} : (s.emit e).pins = s.pins := rfl
@[simp] theorem State.emit_host {s : State} {e : Emission} : (s.emit e).host = s.host := rfl
@[simp] theorem State.emit_fns {s : State} {e : Emission} : (s.emit e).fns = s.fns := rfl
@[simp] theorem State.emit_rings {s : State} {e : Emission} : (s.emit e).rings = s.rings := rfl
@[simp] theorem State.emit_evs {s : State} {e : Emission} : (s.emit e).evs = s.evs := rfl
@[simp] theorem State.emit_points {s : State} {e : Emission} : (s.emit e).points = s.points := rfl
@[simp] theorem State.emit_ws {s : State} {e : Emission} : (s.emit e).ws = s.ws := rfl
@[simp] theorem State.emit_txns {s : State} {e : Emission} : (s.emit e).txns = s.txns := rfl
@[simp] theorem State.emit_nextTxn {s : State} {e : Emission} : (s.emit e).nextTxn = s.nextTxn := rfl
@[simp] theorem State.emit_lastTxn {s : State} {e : Emission} : (s.emit e).lastTxn = s.lastTxn := rfl
@[simp] theorem State.emit_time {s : State} {e : Emission} : (s.emit e).time = s.time := rfl
@[simp] theorem State.emit_hlist {s : State} {e : Emission} : (s.emit e).hlist = s.hlist := rfl
@[simp] theorem State.emit_actions {s : State} {e : Emission} : (s.emit e).actions = s.actions := rfl
@[simp] theorem State.emit_fired {s : State} {e : Emission} : (s.emit e).fired = s.fired := rfl
@[simp] theorem State.emit_tsqs {s : State} {e : Emission} : (s.emit e).tsqs = s.tsqs := rfl
@[simp] theorem State.emit_chs {s : State} {e : Emission} : (s.emit e).chs = s.chs := rfl
@[simp] theorem State.emit_nets {s : State} {e : Emission} : (s.emit e).nets = s.nets := rfl
@[simp] theorem State.emit_pair {s : State} {e : Emission} : (s.emit e).pair = s.pair := rfl
@[simp] theorem State.emit_pwr {s : State} {e : Emission} : (s.emit e).pwr = s.pwr := rfl
@[simp] theorem State.emit_bkp {s : State} {e : Emission} : (s.emit e).bkp = s.bkp := rfl
@[simp] theorem State.emit_vlt {s : State} {e : Emission} : (s.emit e).vlt = s.vlt := rfl
@[simp] theorem State.emit_lc {s : State} {e : Emission} : (s.emit e).lc = s.lc := rfl
@[simp] theorem State.emit_upd {s : State} {e : Emission} : (s.emit e).upd = s.upd := rfl
@[simp] theorem State.emit_frames {s : State} {e : Emission} : (s.emit e).frames = s.frames := rfl
@[simp] theorem State.emit_serial {s : State} {e : Emission} : (s.emit e).serial = s.serial := rfl
@[simp] theorem State.emit_usb {s : State} {e : Emission} : (s.emit e).usb = s.usb := rfl
@[simp] theorem State.emit_vbus {s : State} {e : Emission} : (s.emit e).vbus = s.vbus := rfl

@[simp] theorem State.tick1_pending {s : State} : (s.tick1).pending = s.pending := rfl
@[simp] theorem State.tick1_out {s : State} : (s.tick1).out = s.out := rfl
@[simp] theorem State.tick1_ticks {s : State} : (s.tick1).ticks = s.ticks := rfl
@[simp] theorem State.tick1_ident {s : State} : (s.tick1).ident = s.ident := rfl
@[simp] theorem State.tick1_regs {s : State} : (s.tick1).regs = s.regs := rfl
@[simp] theorem State.tick1_low64 {s : State} : (s.tick1).low64 = s.low64 := rfl
@[simp] theorem State.tick1_high64 {s : State} : (s.tick1).high64 = s.high64 := rfl
@[simp] theorem State.tick1_pins {s : State} : (s.tick1).pins = s.pins := rfl
@[simp] theorem State.tick1_host {s : State} : (s.tick1).host = s.host := rfl
@[simp] theorem State.tick1_fns {s : State} : (s.tick1).fns = s.fns := rfl
@[simp] theorem State.tick1_rings {s : State} : (s.tick1).rings = s.rings := rfl
@[simp] theorem State.tick1_evs {s : State} : (s.tick1).evs = s.evs := rfl
@[simp] theorem State.tick1_points {s : State} : (s.tick1).points = s.points := rfl
@[simp] theorem State.tick1_ws {s : State} : (s.tick1).ws = s.ws := rfl
@[simp] theorem State.tick1_txns {s : State} : (s.tick1).txns = s.txns := rfl
@[simp] theorem State.tick1_nextTxn {s : State} : (s.tick1).nextTxn = s.nextTxn := rfl
@[simp] theorem State.tick1_lastTxn {s : State} : (s.tick1).lastTxn = s.lastTxn := rfl
@[simp] theorem State.tick1_time {s : State} : (s.tick1).time = s.time := rfl
@[simp] theorem State.tick1_hlist {s : State} : (s.tick1).hlist = s.hlist := rfl
@[simp] theorem State.tick1_actions {s : State} : (s.tick1).actions = s.actions := rfl
@[simp] theorem State.tick1_fired {s : State} : (s.tick1).fired = s.fired := rfl
@[simp] theorem State.tick1_tsqs {s : State} : (s.tick1).tsqs = s.tsqs := rfl
@[simp] theorem State.tick1_chs {s : State} : (s.tick1).chs = s.chs := rfl
@[simp] theorem State.tick1_nets {s : State} : (s.tick1).nets = s.nets := rfl
@[simp] theorem State.tick1_pair {s : State} : (s.tick1).pair = s.pair := rfl
@[simp] theorem State.tick1_pwr {s : State} : (s.tick1).pwr = s.pwr := rfl
@[simp] theorem State.tick1_bkp {s : State} : (s.tick1).bkp = s.bkp := rfl
@[simp] theorem State.tick1_vlt {s : State} : (s.tick1).vlt = s.vlt := rfl
@[simp] theorem State.tick1_lc {s : State} : (s.tick1).lc = s.lc := rfl
@[simp] theorem State.tick1_upd {s : State} : (s.tick1).upd = s.upd := rfl
@[simp] theorem State.tick1_frames {s : State} : (s.tick1).frames = s.frames := rfl
@[simp] theorem State.tick1_serial {s : State} : (s.tick1).serial = s.serial := rfl
@[simp] theorem State.tick1_usb {s : State} : (s.tick1).usb = s.usb := rfl
@[simp] theorem State.tick1_vbus {s : State} : (s.tick1).vbus = s.vbus := rfl

@[simp] theorem State.modCh_pending {s : State} {n : Nat} {f : Chan → Chan} : (s.modCh n f).pending = s.pending := rfl
@[simp] theorem State.modCh_out {s : State} {n : Nat} {f : Chan → Chan} : (s.modCh n f).out = s.out := rfl
@[simp] theorem State.modCh_free {s : State} {n : Nat} {f : Chan → Chan} : (s.modCh n f).free = s.free := rfl
@[simp] theorem State.modCh_ticks {s : State} {n : Nat} {f : Chan → Chan} : (s.modCh n f).ticks = s.ticks := rfl
@[simp] theorem State.modCh_ident {s : State} {n : Nat} {f : Chan → Chan} : (s.modCh n f).ident = s.ident := rfl
@[simp] theorem State.modCh_regs {s : State} {n : Nat} {f : Chan → Chan} : (s.modCh n f).regs = s.regs := rfl
@[simp] theorem State.modCh_low64 {s : State} {n : Nat} {f : Chan → Chan} : (s.modCh n f).low64 = s.low64 := rfl
@[simp] theorem State.modCh_high64 {s : State} {n : Nat} {f : Chan → Chan} : (s.modCh n f).high64 = s.high64 := rfl
@[simp] theorem State.modCh_pins {s : State} {n : Nat} {f : Chan → Chan} : (s.modCh n f).pins = s.pins := rfl
@[simp] theorem State.modCh_host {s : State} {n : Nat} {f : Chan → Chan} : (s.modCh n f).host = s.host := rfl
@[simp] theorem State.modCh_fns {s : State} {n : Nat} {f : Chan → Chan} : (s.modCh n f).fns = s.fns := rfl
@[simp] theorem State.modCh_rings {s : State} {n : Nat} {f : Chan → Chan} : (s.modCh n f).rings = s.rings := rfl
@[simp] theorem State.modCh_evs {s : State} {n : Nat} {f : Chan → Chan} : (s.modCh n f).evs = s.evs := rfl
@[simp] theorem State.modCh_points {s : State} {n : Nat} {f : Chan → Chan} : (s.modCh n f).points = s.points := rfl
@[simp] theorem State.modCh_ws {s : State} {n : Nat} {f : Chan → Chan} : (s.modCh n f).ws = s.ws := rfl
@[simp] theorem State.modCh_txns {s : State} {n : Nat} {f : Chan → Chan} : (s.modCh n f).txns = s.txns := rfl
@[simp] theorem State.modCh_nextTxn {s : State} {n : Nat} {f : Chan → Chan} : (s.modCh n f).nextTxn = s.nextTxn := rfl
@[simp] theorem State.modCh_lastTxn {s : State} {n : Nat} {f : Chan → Chan} : (s.modCh n f).lastTxn = s.lastTxn := rfl
@[simp] theorem State.modCh_time {s : State} {n : Nat} {f : Chan → Chan} : (s.modCh n f).time = s.time := rfl
@[simp] theorem State.modCh_hlist {s : State} {n : Nat} {f : Chan → Chan} : (s.modCh n f).hlist = s.hlist := rfl
@[simp] theorem State.modCh_actions {s : State} {n : Nat} {f : Chan → Chan} : (s.modCh n f).actions = s.actions := rfl
@[simp] theorem State.modCh_fired {s : State} {n : Nat} {f : Chan → Chan} : (s.modCh n f).fired = s.fired := rfl
@[simp] theorem State.modCh_tsqs {s : State} {n : Nat} {f : Chan → Chan} : (s.modCh n f).tsqs = s.tsqs := rfl
@[simp] theorem State.modCh_nets {s : State} {n : Nat} {f : Chan → Chan} : (s.modCh n f).nets = s.nets := rfl
@[simp] theorem State.modCh_pair {s : State} {n : Nat} {f : Chan → Chan} : (s.modCh n f).pair = s.pair := rfl
@[simp] theorem State.modCh_pwr {s : State} {n : Nat} {f : Chan → Chan} : (s.modCh n f).pwr = s.pwr := rfl
@[simp] theorem State.modCh_bkp {s : State} {n : Nat} {f : Chan → Chan} : (s.modCh n f).bkp = s.bkp := rfl
@[simp] theorem State.modCh_vlt {s : State} {n : Nat} {f : Chan → Chan} : (s.modCh n f).vlt = s.vlt := rfl
@[simp] theorem State.modCh_lc {s : State} {n : Nat} {f : Chan → Chan} : (s.modCh n f).lc = s.lc := rfl
@[simp] theorem State.modCh_upd {s : State} {n : Nat} {f : Chan → Chan} : (s.modCh n f).upd = s.upd := rfl
@[simp] theorem State.modCh_frames {s : State} {n : Nat} {f : Chan → Chan} : (s.modCh n f).frames = s.frames := rfl
@[simp] theorem State.modCh_serial {s : State} {n : Nat} {f : Chan → Chan} : (s.modCh n f).serial = s.serial := rfl
@[simp] theorem State.modCh_usb {s : State} {n : Nat} {f : Chan → Chan} : (s.modCh n f).usb = s.usb := rfl
@[simp] theorem State.modCh_vbus {s : State} {n : Nat} {f : Chan → Chan} : (s.modCh n f).vbus = s.vbus := rfl

@[simp] theorem State.modFn_pending {s : State} {b : Nat} {f : Fn → Fn} : (s.modFn b f).pending = s.pending := rfl
@[simp] theorem State.modFn_out {s : State} {b : Nat} {f : Fn → Fn} : (s.modFn b f).out = s.out := rfl
@[simp] theorem State.modFn_free {s : State} {b : Nat} {f : Fn → Fn} : (s.modFn b f).free = s.free := rfl
@[simp] theorem State.modFn_ticks {s : State} {b : Nat} {f : Fn → Fn} : (s.modFn b f).ticks = s.ticks := rfl
@[simp] theorem State.modFn_ident {s : State} {b : Nat} {f : Fn → Fn} : (s.modFn b f).ident = s.ident := rfl
@[simp] theorem State.modFn_regs {s : State} {b : Nat} {f : Fn → Fn} : (s.modFn b f).regs = s.regs := rfl
@[simp] theorem State.modFn_low64 {s : State} {b : Nat} {f : Fn → Fn} : (s.modFn b f).low64 = s.low64 := rfl
@[simp] theorem State.modFn_high64 {s : State} {b : Nat} {f : Fn → Fn} : (s.modFn b f).high64 = s.high64 := rfl
@[simp] theorem State.modFn_pins {s : State} {b : Nat} {f : Fn → Fn} : (s.modFn b f).pins = s.pins := rfl
@[simp] theorem State.modFn_host {s : State} {b : Nat} {f : Fn → Fn} : (s.modFn b f).host = s.host := rfl
@[simp] theorem State.modFn_rings {s : State} {b : Nat} {f : Fn → Fn} : (s.modFn b f).rings = s.rings := rfl
@[simp] theorem State.modFn_evs {s : State} {b : Nat} {f : Fn → Fn} : (s.modFn b f).evs = s.evs := rfl
@[simp] theorem State.modFn_points {s : State} {b : Nat} {f : Fn → Fn} : (s.modFn b f).points = s.points := rfl
@[simp] theorem State.modFn_ws {s : State} {b : Nat} {f : Fn → Fn} : (s.modFn b f).ws = s.ws := rfl
@[simp] theorem State.modFn_txns {s : State} {b : Nat} {f : Fn → Fn} : (s.modFn b f).txns = s.txns := rfl
@[simp] theorem State.modFn_nextTxn {s : State} {b : Nat} {f : Fn → Fn} : (s.modFn b f).nextTxn = s.nextTxn := rfl
@[simp] theorem State.modFn_lastTxn {s : State} {b : Nat} {f : Fn → Fn} : (s.modFn b f).lastTxn = s.lastTxn := rfl
@[simp] theorem State.modFn_time {s : State} {b : Nat} {f : Fn → Fn} : (s.modFn b f).time = s.time := rfl
@[simp] theorem State.modFn_hlist {s : State} {b : Nat} {f : Fn → Fn} : (s.modFn b f).hlist = s.hlist := rfl
@[simp] theorem State.modFn_actions {s : State} {b : Nat} {f : Fn → Fn} : (s.modFn b f).actions = s.actions := rfl
@[simp] theorem State.modFn_fired {s : State} {b : Nat} {f : Fn → Fn} : (s.modFn b f).fired = s.fired := rfl
@[simp] theorem State.modFn_tsqs {s : State} {b : Nat} {f : Fn → Fn} : (s.modFn b f).tsqs = s.tsqs := rfl
@[simp] theorem State.modFn_chs {s : State} {b : Nat} {f : Fn → Fn} : (s.modFn b f).chs = s.chs := rfl
@[simp] theorem State.modFn_nets {s : State} {b : Nat} {f : Fn → Fn} : (s.modFn b f).nets = s.nets := rfl
@[simp] theorem State.modFn_pair {s : State} {b : Nat} {f : Fn → Fn} : (s.modFn b f).pair = s.pair := rfl
@[simp] theorem State.modFn_pwr {s : State} {b : Nat} {f : Fn → Fn} : (s.modFn b f).pwr = s.pwr := rfl
@[simp] theorem State.modFn_bkp {s : State} {b : Nat} {f : Fn → Fn} : (s.modFn b f).bkp = s.bkp := rfl
@[simp] theorem State.modFn_vlt {s : State} {b : Nat} {f : Fn → Fn} : (s.modFn b f).vlt = s.vlt := rfl
@[simp] theorem State.modFn_lc {s : State} {b : Nat} {f : Fn → Fn} : (s.modFn b f).lc = s.lc := rfl
@[simp] theorem State.modFn_upd {s : State} {b : Nat} {f : Fn → Fn} : (s.modFn b f).upd = s.upd := rfl
@[simp] theorem State.modFn_frames {s : State} {b : Nat} {f : Fn → Fn} : (s.modFn b f).frames = s.frames := rfl
@[simp] theorem State.modFn_serial {s : State} {b : Nat} {f : Fn → Fn} : (s.modFn b f).serial = s.serial := rfl
@[simp] theorem State.modFn_usb {s : State} {b : Nat} {f : Fn → Fn} : (s.modFn b f).usb = s.usb := rfl
@[simp] theorem State.modFn_vbus {s : State} {b : Nat} {f : Fn → Fn} : (s.modFn b f).vbus = s.vbus := rfl

@[simp] theorem State.modRing_pending {s : State} {k : Nat} {f : Ring → Ring} : (s.modRing k f).pending = s.pending := rfl
@[simp] theorem State.modRing_out {s : State} {k : Nat} {f : Ring → Ring} : (s.modRing k f).out = s.out := rfl
@[simp] theorem State.modRing_free {s : State} {k : Nat} {f : Ring → Ring} : (s.modRing k f).free = s.free := rfl
@[simp] theorem State.modRing_ticks {s : State} {k : Nat} {f : Ring → Ring} : (s.modRing k f).ticks = s.ticks := rfl
@[simp] theorem State.modRing_ident {s : State} {k : Nat} {f : Ring → Ring} : (s.modRing k f).ident = s.ident := rfl
@[simp] theorem State.modRing_regs {s : State} {k : Nat} {f : Ring → Ring} : (s.modRing k f).regs = s.regs := rfl
@[simp] theorem State.modRing_low64 {s : State} {k : Nat} {f : Ring → Ring} : (s.modRing k f).low64 = s.low64 := rfl
@[simp] theorem State.modRing_high64 {s : State} {k : Nat} {f : Ring → Ring} : (s.modRing k f).high64 = s.high64 := rfl
@[simp] theorem State.modRing_pins {s : State} {k : Nat} {f : Ring → Ring} : (s.modRing k f).pins = s.pins := rfl
@[simp] theorem State.modRing_host {s : State} {k : Nat} {f : Ring → Ring} : (s.modRing k f).host = s.host := rfl
@[simp] theorem State.modRing_fns {s : State} {k : Nat} {f : Ring → Ring} : (s.modRing k f).fns = s.fns := rfl
@[simp] theorem State.modRing_evs {s : State} {k : Nat} {f : Ring → Ring} : (s.modRing k f).evs = s.evs := rfl
@[simp] theorem State.modRing_points {s : State} {k : Nat} {f : Ring → Ring} : (s.modRing k f).points = s.points := rfl
@[simp] theorem State.modRing_ws {s : State} {k : Nat} {f : Ring → Ring} : (s.modRing k f).ws = s.ws := rfl
@[simp] theorem State.modRing_txns {s : State} {k : Nat} {f : Ring → Ring} : (s.modRing k f).txns = s.txns := rfl
@[simp] theorem State.modRing_nextTxn {s : State} {k : Nat} {f : Ring → Ring} : (s.modRing k f).nextTxn = s.nextTxn := rfl
@[simp] theorem State.modRing_lastTxn {s : State} {k : Nat} {f : Ring → Ring} : (s.modRing k f).lastTxn = s.lastTxn := rfl
@[simp] theorem State.modRing_time {s : State} {k : Nat} {f : Ring → Ring} : (s.modRing k f).time = s.time := rfl
@[simp] theorem State.modRing_hlist {s : State} {k : Nat} {f : Ring → Ring} : (s.modRing k f).hlist = s.hlist := rfl
@[simp] theorem State.modRing_actions {s : State} {k : Nat} {f : Ring → Ring} : (s.modRing k f).actions = s.actions := rfl
@[simp] theorem State.modRing_fired {s : State} {k : Nat} {f : Ring → Ring} : (s.modRing k f).fired = s.fired := rfl
@[simp] theorem State.modRing_tsqs {s : State} {k : Nat} {f : Ring → Ring} : (s.modRing k f).tsqs = s.tsqs := rfl
@[simp] theorem State.modRing_chs {s : State} {k : Nat} {f : Ring → Ring} : (s.modRing k f).chs = s.chs := rfl
@[simp] theorem State.modRing_nets {s : State} {k : Nat} {f : Ring → Ring} : (s.modRing k f).nets = s.nets := rfl
@[simp] theorem State.modRing_pair {s : State} {k : Nat} {f : Ring → Ring} : (s.modRing k f).pair = s.pair := rfl
@[simp] theorem State.modRing_pwr {s : State} {k : Nat} {f : Ring → Ring} : (s.modRing k f).pwr = s.pwr := rfl
@[simp] theorem State.modRing_bkp {s : State} {k : Nat} {f : Ring → Ring} : (s.modRing k f).bkp = s.bkp := rfl
@[simp] theorem State.modRing_vlt {s : State} {k : Nat} {f : Ring → Ring} : (s.modRing k f).vlt = s.vlt := rfl
@[simp] theorem State.modRing_lc {s : State} {k : Nat} {f : Ring → Ring} : (s.modRing k f).lc = s.lc := rfl
@[simp] theorem State.modRing_upd {s : State} {k : Nat} {f : Ring → Ring} : (s.modRing k f).upd = s.upd := rfl
@[simp] theorem State.modRing_frames {s : State} {k : Nat} {f : Ring → Ring} : (s.modRing k f).frames = s.frames := rfl
@[simp] theorem State.modRing_serial {s : State} {k : Nat} {f : Ring → Ring} : (s.modRing k f).serial = s.serial := rfl
@[simp] theorem State.modRing_usb {s : State} {k : Nat} {f : Ring → Ring} : (s.modRing k f).usb = s.usb := rfl
@[simp] theorem State.modRing_vbus {s : State} {k : Nat} {f : Ring → Ring} : (s.modRing k f).vbus = s.vbus := rfl

@[simp] theorem State.modEv_pending {s : State} {b : Nat} {f : EvRing → EvRing} : (s.modEv b f).pending = s.pending := rfl
@[simp] theorem State.modEv_out {s : State} {b : Nat} {f : EvRing → EvRing} : (s.modEv b f).out = s.out := rfl
@[simp] theorem State.modEv_free {s : State} {b : Nat} {f : EvRing → EvRing} : (s.modEv b f).free = s.free := rfl
@[simp] theorem State.modEv_ticks {s : State} {b : Nat} {f : EvRing → EvRing} : (s.modEv b f).ticks = s.ticks := rfl
@[simp] theorem State.modEv_ident {s : State} {b : Nat} {f : EvRing → EvRing} : (s.modEv b f).ident = s.ident := rfl
@[simp] theorem State.modEv_regs {s : State} {b : Nat} {f : EvRing → EvRing} : (s.modEv b f).regs = s.regs := rfl
@[simp] theorem State.modEv_low64 {s : State} {b : Nat} {f : EvRing → EvRing} : (s.modEv b f).low64 = s.low64 := rfl
@[simp] theorem State.modEv_high64 {s : State} {b : Nat} {f : EvRing → EvRing} : (s.modEv b f).high64 = s.high64 := rfl
@[simp] theorem State.modEv_pins {s : State} {b : Nat} {f : EvRing → EvRing} : (s.modEv b f).pins = s.pins := rfl
@[simp] theorem State.modEv_host {s : State} {b : Nat} {f : EvRing → EvRing} : (s.modEv b f).host = s.host := rfl
@[simp] theorem State.modEv_fns {s : State} {b : Nat} {f : EvRing → EvRing} : (s.modEv b f).fns = s.fns := rfl
@[simp] theorem State.modEv_rings {s : State} {b : Nat} {f : EvRing → EvRing} : (s.modEv b f).rings = s.rings := rfl
@[simp] theorem State.modEv_points {s : State} {b : Nat} {f : EvRing → EvRing} : (s.modEv b f).points = s.points := rfl
@[simp] theorem State.modEv_ws {s : State} {b : Nat} {f : EvRing → EvRing} : (s.modEv b f).ws = s.ws := rfl
@[simp] theorem State.modEv_txns {s : State} {b : Nat} {f : EvRing → EvRing} : (s.modEv b f).txns = s.txns := rfl
@[simp] theorem State.modEv_nextTxn {s : State} {b : Nat} {f : EvRing → EvRing} : (s.modEv b f).nextTxn = s.nextTxn := rfl
@[simp] theorem State.modEv_lastTxn {s : State} {b : Nat} {f : EvRing → EvRing} : (s.modEv b f).lastTxn = s.lastTxn := rfl
@[simp] theorem State.modEv_time {s : State} {b : Nat} {f : EvRing → EvRing} : (s.modEv b f).time = s.time := rfl
@[simp] theorem State.modEv_hlist {s : State} {b : Nat} {f : EvRing → EvRing} : (s.modEv b f).hlist = s.hlist := rfl
@[simp] theorem State.modEv_actions {s : State} {b : Nat} {f : EvRing → EvRing} : (s.modEv b f).actions = s.actions := rfl
@[simp] theorem State.modEv_fired {s : State} {b : Nat} {f : EvRing → EvRing} : (s.modEv b f).fired = s.fired := rfl
@[simp] theorem State.modEv_tsqs {s : State} {b : Nat} {f : EvRing → EvRing} : (s.modEv b f).tsqs = s.tsqs := rfl
@[simp] theorem State.modEv_chs {s : State} {b : Nat} {f : EvRing → EvRing} : (s.modEv b f).chs = s.chs := rfl
@[simp] theorem State.modEv_nets {s : State} {b : Nat} {f : EvRing → EvRing} : (s.modEv b f).nets = s.nets := rfl
@[simp] theorem State.modEv_pair {s : State} {b : Nat} {f : EvRing → EvRing} : (s.modEv b f).pair = s.pair := rfl
@[simp] theorem State.modEv_pwr {s : State} {b : Nat} {f : EvRing → EvRing} : (s.modEv b f).pwr = s.pwr := rfl
@[simp] theorem State.modEv_bkp {s : State} {b : Nat} {f : EvRing → EvRing} : (s.modEv b f).bkp = s.bkp := rfl
@[simp] theorem State.modEv_vlt {s : State} {b : Nat} {f : EvRing → EvRing} : (s.modEv b f).vlt = s.vlt := rfl
@[simp] theorem State.modEv_lc {s : State} {b : Nat} {f : EvRing → EvRing} : (s.modEv b f).lc = s.lc := rfl
@[simp] theorem State.modEv_upd {s : State} {b : Nat} {f : EvRing → EvRing} : (s.modEv b f).upd = s.upd := rfl
@[simp] theorem State.modEv_frames {s : State} {b : Nat} {f : EvRing → EvRing} : (s.modEv b f).frames = s.frames := rfl
@[simp] theorem State.modEv_serial {s : State} {b : Nat} {f : EvRing → EvRing} : (s.modEv b f).serial = s.serial := rfl
@[simp] theorem State.modEv_usb {s : State} {b : Nat} {f : EvRing → EvRing} : (s.modEv b f).usb = s.usb := rfl
@[simp] theorem State.modEv_vbus {s : State} {b : Nat} {f : EvRing → EvRing} : (s.modEv b f).vbus = s.vbus := rfl

@[simp] theorem State.modNet_pending {s : State} {p : Nat} {f : NetPort → NetPort} : (s.modNet p f).pending = s.pending := rfl
@[simp] theorem State.modNet_out {s : State} {p : Nat} {f : NetPort → NetPort} : (s.modNet p f).out = s.out := rfl
@[simp] theorem State.modNet_free {s : State} {p : Nat} {f : NetPort → NetPort} : (s.modNet p f).free = s.free := rfl
@[simp] theorem State.modNet_ticks {s : State} {p : Nat} {f : NetPort → NetPort} : (s.modNet p f).ticks = s.ticks := rfl
@[simp] theorem State.modNet_ident {s : State} {p : Nat} {f : NetPort → NetPort} : (s.modNet p f).ident = s.ident := rfl
@[simp] theorem State.modNet_regs {s : State} {p : Nat} {f : NetPort → NetPort} : (s.modNet p f).regs = s.regs := rfl
@[simp] theorem State.modNet_low64 {s : State} {p : Nat} {f : NetPort → NetPort} : (s.modNet p f).low64 = s.low64 := rfl
@[simp] theorem State.modNet_high64 {s : State} {p : Nat} {f : NetPort → NetPort} : (s.modNet p f).high64 = s.high64 := rfl
@[simp] theorem State.modNet_pins {s : State} {p : Nat} {f : NetPort → NetPort} : (s.modNet p f).pins = s.pins := rfl
@[simp] theorem State.modNet_host {s : State} {p : Nat} {f : NetPort → NetPort} : (s.modNet p f).host = s.host := rfl
@[simp] theorem State.modNet_fns {s : State} {p : Nat} {f : NetPort → NetPort} : (s.modNet p f).fns = s.fns := rfl
@[simp] theorem State.modNet_rings {s : State} {p : Nat} {f : NetPort → NetPort} : (s.modNet p f).rings = s.rings := rfl
@[simp] theorem State.modNet_evs {s : State} {p : Nat} {f : NetPort → NetPort} : (s.modNet p f).evs = s.evs := rfl
@[simp] theorem State.modNet_points {s : State} {p : Nat} {f : NetPort → NetPort} : (s.modNet p f).points = s.points := rfl
@[simp] theorem State.modNet_ws {s : State} {p : Nat} {f : NetPort → NetPort} : (s.modNet p f).ws = s.ws := rfl
@[simp] theorem State.modNet_txns {s : State} {p : Nat} {f : NetPort → NetPort} : (s.modNet p f).txns = s.txns := rfl
@[simp] theorem State.modNet_nextTxn {s : State} {p : Nat} {f : NetPort → NetPort} : (s.modNet p f).nextTxn = s.nextTxn := rfl
@[simp] theorem State.modNet_lastTxn {s : State} {p : Nat} {f : NetPort → NetPort} : (s.modNet p f).lastTxn = s.lastTxn := rfl
@[simp] theorem State.modNet_time {s : State} {p : Nat} {f : NetPort → NetPort} : (s.modNet p f).time = s.time := rfl
@[simp] theorem State.modNet_hlist {s : State} {p : Nat} {f : NetPort → NetPort} : (s.modNet p f).hlist = s.hlist := rfl
@[simp] theorem State.modNet_actions {s : State} {p : Nat} {f : NetPort → NetPort} : (s.modNet p f).actions = s.actions := rfl
@[simp] theorem State.modNet_fired {s : State} {p : Nat} {f : NetPort → NetPort} : (s.modNet p f).fired = s.fired := rfl
@[simp] theorem State.modNet_tsqs {s : State} {p : Nat} {f : NetPort → NetPort} : (s.modNet p f).tsqs = s.tsqs := rfl
@[simp] theorem State.modNet_chs {s : State} {p : Nat} {f : NetPort → NetPort} : (s.modNet p f).chs = s.chs := rfl
@[simp] theorem State.modNet_pair {s : State} {p : Nat} {f : NetPort → NetPort} : (s.modNet p f).pair = s.pair := rfl
@[simp] theorem State.modNet_pwr {s : State} {p : Nat} {f : NetPort → NetPort} : (s.modNet p f).pwr = s.pwr := rfl
@[simp] theorem State.modNet_bkp {s : State} {p : Nat} {f : NetPort → NetPort} : (s.modNet p f).bkp = s.bkp := rfl
@[simp] theorem State.modNet_vlt {s : State} {p : Nat} {f : NetPort → NetPort} : (s.modNet p f).vlt = s.vlt := rfl
@[simp] theorem State.modNet_lc {s : State} {p : Nat} {f : NetPort → NetPort} : (s.modNet p f).lc = s.lc := rfl
@[simp] theorem State.modNet_upd {s : State} {p : Nat} {f : NetPort → NetPort} : (s.modNet p f).upd = s.upd := rfl
@[simp] theorem State.modNet_frames {s : State} {p : Nat} {f : NetPort → NetPort} : (s.modNet p f).frames = s.frames := rfl
@[simp] theorem State.modNet_serial {s : State} {p : Nat} {f : NetPort → NetPort} : (s.modNet p f).serial = s.serial := rfl
@[simp] theorem State.modNet_usb {s : State} {p : Nat} {f : NetPort → NetPort} : (s.modNet p f).usb = s.usb := rfl
@[simp] theorem State.modNet_vbus {s : State} {p : Nat} {f : NetPort → NetPort} : (s.modNet p f).vbus = s.vbus := rfl

@[simp] theorem State.modTxn_pending {s : State} {c : Nat} {f : Txn → Txn} : (s.modTxn c f).pending = s.pending := rfl
@[simp] theorem State.modTxn_out {s : State} {c : Nat} {f : Txn → Txn} : (s.modTxn c f).out = s.out := rfl
@[simp] theorem State.modTxn_free {s : State} {c : Nat} {f : Txn → Txn} : (s.modTxn c f).free = s.free := rfl
@[simp] theorem State.modTxn_ticks {s : State} {c : Nat} {f : Txn → Txn} : (s.modTxn c f).ticks = s.ticks := rfl
@[simp] theorem State.modTxn_ident {s : State} {c : Nat} {f : Txn → Txn} : (s.modTxn c f).ident = s.ident := rfl
@[simp] theorem State.modTxn_regs {s : State} {c : Nat} {f : Txn → Txn} : (s.modTxn c f).regs = s.regs := rfl
@[simp] theorem State.modTxn_low64 {s : State} {c : Nat} {f : Txn → Txn} : (s.modTxn c f).low64 = s.low64 := rfl
@[simp] theorem State.modTxn_high64 {s : State} {c : Nat} {f : Txn → Txn} : (s.modTxn c f).high64 = s.high64 := rfl
@[simp] theorem State.modTxn_pins {s : State} {c : Nat} {f : Txn → Txn} : (s.modTxn c f).pins = s.pins := rfl
@[simp] theorem State.modTxn_host {s : State} {c : Nat} {f : Txn → Txn} : (s.modTxn c f).host = s.host := rfl
@[simp] theorem State.modTxn_fns {s : State} {c : Nat} {f : Txn → Txn} : (s.modTxn c f).fns = s.fns := rfl
@[simp] theorem State.modTxn_rings {s : State} {c : Nat} {f : Txn → Txn} : (s.modTxn c f).rings = s.rings := rfl
@[simp] theorem State.modTxn_evs {s : State} {c : Nat} {f : Txn → Txn} : (s.modTxn c f).evs = s.evs := rfl
@[simp] theorem State.modTxn_points {s : State} {c : Nat} {f : Txn → Txn} : (s.modTxn c f).points = s.points := rfl
@[simp] theorem State.modTxn_ws {s : State} {c : Nat} {f : Txn → Txn} : (s.modTxn c f).ws = s.ws := rfl
@[simp] theorem State.modTxn_nextTxn {s : State} {c : Nat} {f : Txn → Txn} : (s.modTxn c f).nextTxn = s.nextTxn := rfl
@[simp] theorem State.modTxn_lastTxn {s : State} {c : Nat} {f : Txn → Txn} : (s.modTxn c f).lastTxn = s.lastTxn := rfl
@[simp] theorem State.modTxn_time {s : State} {c : Nat} {f : Txn → Txn} : (s.modTxn c f).time = s.time := rfl
@[simp] theorem State.modTxn_hlist {s : State} {c : Nat} {f : Txn → Txn} : (s.modTxn c f).hlist = s.hlist := rfl
@[simp] theorem State.modTxn_actions {s : State} {c : Nat} {f : Txn → Txn} : (s.modTxn c f).actions = s.actions := rfl
@[simp] theorem State.modTxn_fired {s : State} {c : Nat} {f : Txn → Txn} : (s.modTxn c f).fired = s.fired := rfl
@[simp] theorem State.modTxn_tsqs {s : State} {c : Nat} {f : Txn → Txn} : (s.modTxn c f).tsqs = s.tsqs := rfl
@[simp] theorem State.modTxn_chs {s : State} {c : Nat} {f : Txn → Txn} : (s.modTxn c f).chs = s.chs := rfl
@[simp] theorem State.modTxn_nets {s : State} {c : Nat} {f : Txn → Txn} : (s.modTxn c f).nets = s.nets := rfl
@[simp] theorem State.modTxn_pair {s : State} {c : Nat} {f : Txn → Txn} : (s.modTxn c f).pair = s.pair := rfl
@[simp] theorem State.modTxn_pwr {s : State} {c : Nat} {f : Txn → Txn} : (s.modTxn c f).pwr = s.pwr := rfl
@[simp] theorem State.modTxn_bkp {s : State} {c : Nat} {f : Txn → Txn} : (s.modTxn c f).bkp = s.bkp := rfl
@[simp] theorem State.modTxn_vlt {s : State} {c : Nat} {f : Txn → Txn} : (s.modTxn c f).vlt = s.vlt := rfl
@[simp] theorem State.modTxn_lc {s : State} {c : Nat} {f : Txn → Txn} : (s.modTxn c f).lc = s.lc := rfl
@[simp] theorem State.modTxn_upd {s : State} {c : Nat} {f : Txn → Txn} : (s.modTxn c f).upd = s.upd := rfl
@[simp] theorem State.modTxn_frames {s : State} {c : Nat} {f : Txn → Txn} : (s.modTxn c f).frames = s.frames := rfl
@[simp] theorem State.modTxn_serial {s : State} {c : Nat} {f : Txn → Txn} : (s.modTxn c f).serial = s.serial := rfl
@[simp] theorem State.modTxn_usb {s : State} {c : Nat} {f : Txn → Txn} : (s.modTxn c f).usb = s.usb := rfl
@[simp] theorem State.modTxn_vbus {s : State} {c : Nat} {f : Txn → Txn} : (s.modTxn c f).vbus = s.vbus := rfl

@[simp] theorem State.modTime_pending {s : State} {f : HubTime → HubTime} : (s.modTime f).pending = s.pending := rfl
@[simp] theorem State.modTime_out {s : State} {f : HubTime → HubTime} : (s.modTime f).out = s.out := rfl
@[simp] theorem State.modTime_free {s : State} {f : HubTime → HubTime} : (s.modTime f).free = s.free := rfl
@[simp] theorem State.modTime_ticks {s : State} {f : HubTime → HubTime} : (s.modTime f).ticks = s.ticks := rfl
@[simp] theorem State.modTime_ident {s : State} {f : HubTime → HubTime} : (s.modTime f).ident = s.ident := rfl
@[simp] theorem State.modTime_regs {s : State} {f : HubTime → HubTime} : (s.modTime f).regs = s.regs := rfl
@[simp] theorem State.modTime_low64 {s : State} {f : HubTime → HubTime} : (s.modTime f).low64 = s.low64 := rfl
@[simp] theorem State.modTime_high64 {s : State} {f : HubTime → HubTime} : (s.modTime f).high64 = s.high64 := rfl
@[simp] theorem State.modTime_pins {s : State} {f : HubTime → HubTime} : (s.modTime f).pins = s.pins := rfl
@[simp] theorem State.modTime_host {s : State} {f : HubTime → HubTime} : (s.modTime f).host = s.host := rfl
@[simp] theorem State.modTime_fns {s : State} {f : HubTime → HubTime} : (s.modTime f).fns = s.fns := rfl
@[simp] theorem State.modTime_rings {s : State} {f : HubTime → HubTime} : (s.modTime f).rings = s.rings := rfl
@[simp] theorem State.modTime_evs {s : State} {f : HubTime → HubTime} : (s.modTime f).evs = s.evs := rfl
@[simp] theorem State.modTime_points {s : State} {f : HubTime → HubTime} : (s.modTime f).points = s.points := rfl
@[simp] theorem State.modTime_ws {s : State} {f : HubTime → HubTime} : (s.modTime f).ws = s.ws := rfl
@[simp] theorem State.modTime_txns {s : State} {f : HubTime → HubTime} : (s.modTime f).txns = s.txns := rfl
@[simp] theorem State.modTime_nextTxn {s : State} {f : HubTime → HubTime} : (s.modTime f).nextTxn = s.nextTxn := rfl
@[simp] theorem State.modTime_lastTxn {s : State} {f : HubTime → HubTime} : (s.modTime f).lastTxn = s.lastTxn := rfl
@[simp] theorem State.modTime_hlist {s : State} {f : HubTime → HubTime} : (s.modTime f).hlist = s.hlist := rfl
@[simp] theorem State.modTime_actions {s : State} {f : HubTime → HubTime} : (s.modTime f).actions = s.actions := rfl
@[simp] theorem State.modTime_fired {s : State} {f : HubTime → HubTime} : (s.modTime f).fired = s.fired := rfl
@[simp] theorem State.modTime_tsqs {s : State} {f : HubTime → HubTime} : (s.modTime f).tsqs = s.tsqs := rfl
@[simp] theorem State.modTime_chs {s : State} {f : HubTime → HubTime} : (s.modTime f).chs = s.chs := rfl
@[simp] theorem State.modTime_nets {s : State} {f : HubTime → HubTime} : (s.modTime f).nets = s.nets := rfl
@[simp] theorem State.modTime_pair {s : State} {f : HubTime → HubTime} : (s.modTime f).pair = s.pair := rfl
@[simp] theorem State.modTime_pwr {s : State} {f : HubTime → HubTime} : (s.modTime f).pwr = s.pwr := rfl
@[simp] theorem State.modTime_bkp {s : State} {f : HubTime → HubTime} : (s.modTime f).bkp = s.bkp := rfl
@[simp] theorem State.modTime_vlt {s : State} {f : HubTime → HubTime} : (s.modTime f).vlt = s.vlt := rfl
@[simp] theorem State.modTime_lc {s : State} {f : HubTime → HubTime} : (s.modTime f).lc = s.lc := rfl
@[simp] theorem State.modTime_upd {s : State} {f : HubTime → HubTime} : (s.modTime f).upd = s.upd := rfl
@[simp] theorem State.modTime_frames {s : State} {f : HubTime → HubTime} : (s.modTime f).frames = s.frames := rfl
@[simp] theorem State.modTime_serial {s : State} {f : HubTime → HubTime} : (s.modTime f).serial = s.serial := rfl
@[simp] theorem State.modTime_usb {s : State} {f : HubTime → HubTime} : (s.modTime f).usb = s.usb := rfl
@[simp] theorem State.modTime_vbus {s : State} {f : HubTime → HubTime} : (s.modTime f).vbus = s.vbus := rfl

@[simp] theorem State.modWs_pending {s : State} {f : Watershed → Watershed} : (s.modWs f).pending = s.pending := rfl
@[simp] theorem State.modWs_out {s : State} {f : Watershed → Watershed} : (s.modWs f).out = s.out := rfl
@[simp] theorem State.modWs_free {s : State} {f : Watershed → Watershed} : (s.modWs f).free = s.free := rfl
@[simp] theorem State.modWs_ticks {s : State} {f : Watershed → Watershed} : (s.modWs f).ticks = s.ticks := rfl
@[simp] theorem State.modWs_ident {s : State} {f : Watershed → Watershed} : (s.modWs f).ident = s.ident := rfl
@[simp] theorem State.modWs_regs {s : State} {f : Watershed → Watershed} : (s.modWs f).regs = s.regs := rfl
@[simp] theorem State.modWs_low64 {s : State} {f : Watershed → Watershed} : (s.modWs f).low64 = s.low64 := rfl
@[simp] theorem State.modWs_high64 {s : State} {f : Watershed → Watershed} : (s.modWs f).high64 = s.high64 := rfl
@[simp] theorem State.modWs_pins {s : State} {f : Watershed → Watershed} : (s.modWs f).pins = s.pins := rfl
@[simp] theorem State.modWs_host {s : State} {f : Watershed → Watershed} : (s.modWs f).host = s.host := rfl
@[simp] theorem State.modWs_fns {s : State} {f : Watershed → Watershed} : (s.modWs f).fns = s.fns := rfl
@[simp] theorem State.modWs_rings {s : State} {f : Watershed → Watershed} : (s.modWs f).rings = s.rings := rfl
@[simp] theorem State.modWs_evs {s : State} {f : Watershed → Watershed} : (s.modWs f).evs = s.evs := rfl
@[simp] theorem State.modWs_points {s : State} {f : Watershed → Watershed} : (s.modWs f).points = s.points := rfl
@[simp] theorem State.modWs_txns {s : State} {f : Watershed → Watershed} : (s.modWs f).txns = s.txns := rfl
@[simp] theorem State.modWs_nextTxn {s : State} {f : Watershed → Watershed} : (s.modWs f).nextTxn = s.nextTxn := rfl
@[simp] theorem State.modWs_lastTxn {s : State} {f : Watershed → Watershed} : (s.modWs f).lastTxn = s.lastTxn := rfl
@[simp] theorem State.modWs_time {s : State} {f : Watershed → Watershed} : (s.modWs f).time = s.time := rfl
@[simp] theorem State.modWs_hlist {s : State} {f : Watershed → Watershed} : (s.modWs f).hlist = s.hlist := rfl
@[simp] theorem State.modWs_actions {s : State} {f : Watershed → Watershed} : (s.modWs f).actions = s.actions := rfl
@[simp] theorem State.modWs_fired {s : State} {f : Watershed → Watershed} : (s.modWs f).fired = s.fired := rfl
@[simp] theorem State.modWs_tsqs {s : State} {f : Watershed → Watershed} : (s.modWs f).tsqs = s.tsqs := rfl
@[simp] theorem State.modWs_chs {s : State} {f : Watershed → Watershed} : (s.modWs f).chs = s.chs := rfl
@[simp] theorem State.modWs_nets {s : State} {f : Watershed → Watershed} : (s.modWs f).nets = s.nets := rfl
@[simp] theorem State.modWs_pair {s : State} {f : Watershed → Watershed} : (s.modWs f).pair = s.pair := rfl
@[simp] theorem State.modWs_pwr {s : State} {f : Watershed → Watershed} : (s.modWs f).pwr = s.pwr := rfl
@[simp] theorem State.modWs_bkp {s : State} {f : Watershed → Watershed} : (s.modWs f).bkp = s.bkp := rfl
@[simp] theorem State.modWs_vlt {s : State} {f : Watershed → Watershed} : (s.modWs f).vlt = s.vlt := rfl
@[simp] theorem State.modWs_lc {s : State} {f : Watershed → Watershed} : (s.modWs f).lc = s.lc := rfl
@[simp] theorem State.modWs_upd {s : State} {f : Watershed → Watershed} : (s.modWs f).upd = s.upd := rfl
@[simp] theorem State.modWs_frames {s : State} {f : Watershed → Watershed} : (s.modWs f).frames = s.frames := rfl
@[simp] theorem State.modWs_serial {s : State} {f : Watershed → Watershed} : (s.modWs f).serial = s.serial := rfl
@[simp] theorem State.modWs_usb {s : State} {f : Watershed → Watershed} : (s.modWs f).usb = s.usb := rfl
@[simp] theorem State.modWs_vbus {s : State} {f : Watershed → Watershed} : (s.modWs f).vbus = s.vbus := rfl

@[simp] theorem State.modPair_pending {s : State} {f : Pair → Pair} : (s.modPair f).pending = s.pending := rfl
@[simp] theorem State.modPair_out {s : State} {f : Pair → Pair} : (s.modPair f).out = s.out := rfl
@[simp] theorem State.modPair_free {s : State} {f : Pair → Pair} : (s.modPair f).free = s.free := rfl
@[simp] theorem State.modPair_ticks {s : State} {f : Pair → Pair} : (s.modPair f).ticks = s.ticks := rfl
@[simp] theorem State.modPair_ident {s : State} {f : Pair → Pair} : (s.modPair f).ident = s.ident := rfl
@[simp] theorem State.modPair_regs {s : State} {f : Pair → Pair} : (s.modPair f).regs = s.regs := rfl
@[simp] theorem State.modPair_low64 {s : State} {f : Pair → Pair} : (s.modPair f).low64 = s.low64 := rfl
@[simp] theorem State.modPair_high64 {s : State} {f : Pair → Pair} : (s.modPair f).high64 = s.high64 := rfl
@[simp] theorem State.modPair_pins {s : State} {f : Pair → Pair} : (s.modPair f).pins = s.pins := rfl
@[simp] theorem State.modPair_host {s : State} {f : Pair → Pair} : (s.modPair f).host = s.host := rfl
@[simp] theorem State.modPair_fns {s : State} {f : Pair → Pair} : (s.modPair f).fns = s.fns := rfl
@[simp] theorem State.modPair_rings {s : State} {f : Pair → Pair} : (s.modPair f).rings = s.rings := rfl
@[simp] theorem State.modPair_evs {s : State} {f : Pair → Pair} : (s.modPair f).evs = s.evs := rfl
@[simp] theorem State.modPair_points {s : State} {f : Pair → Pair} : (s.modPair f).points = s.points := rfl
@[simp] theorem State.modPair_ws {s : State} {f : Pair → Pair} : (s.modPair f).ws = s.ws := rfl
@[simp] theorem State.modPair_txns {s : State} {f : Pair → Pair} : (s.modPair f).txns = s.txns := rfl
@[simp] theorem State.modPair_nextTxn {s : State} {f : Pair → Pair} : (s.modPair f).nextTxn = s.nextTxn := rfl
@[simp] theorem State.modPair_lastTxn {s : State} {f : Pair → Pair} : (s.modPair f).lastTxn = s.lastTxn := rfl
@[simp] theorem State.modPair_time {s : State} {f : Pair → Pair} : (s.modPair f).time = s.time := rfl
@[simp] theorem State.modPair_hlist {s : State} {f : Pair → Pair} : (s.modPair f).hlist = s.hlist := rfl
@[simp] theorem State.modPair_actions {s : State} {f : Pair → Pair} : (s.modPair f).actions = s.actions := rfl
@[simp] theorem State.modPair_fired {s : State} {f : Pair → Pair} : (s.modPair f).fired = s.fired := rfl
@[simp] theorem State.modPair_tsqs {s : State} {f : Pair → Pair} : (s.modPair f).tsqs = s.tsqs := rfl
@[simp] theorem State.modPair_chs {s : State} {f : Pair → Pair} : (s.modPair f).chs = s.chs := rfl
@[simp] theorem State.modPair_nets {s : State} {f : Pair → Pair} : (s.modPair f).nets = s.nets := rfl
@[simp] theorem State.modPair_pwr {s : State} {f : Pair → Pair} : (s.modPair f).pwr = s.pwr := rfl
@[simp] theorem State.modPair_bkp {s : State} {f : Pair → Pair} : (s.modPair f).bkp = s.bkp := rfl
@[simp] theorem State.modPair_vlt {s : State} {f : Pair → Pair} : (s.modPair f).vlt = s.vlt := rfl
@[simp] theorem State.modPair_lc {s : State} {f : Pair → Pair} : (s.modPair f).lc = s.lc := rfl
@[simp] theorem State.modPair_upd {s : State} {f : Pair → Pair} : (s.modPair f).upd = s.upd := rfl
@[simp] theorem State.modPair_frames {s : State} {f : Pair → Pair} : (s.modPair f).frames = s.frames := rfl
@[simp] theorem State.modPair_serial {s : State} {f : Pair → Pair} : (s.modPair f).serial = s.serial := rfl
@[simp] theorem State.modPair_usb {s : State} {f : Pair → Pair} : (s.modPair f).usb = s.usb := rfl
@[simp] theorem State.modPair_vbus {s : State} {f : Pair → Pair} : (s.modPair f).vbus = s.vbus := rfl

@[simp] theorem State.modPwr_pending {s : State} {f : Power → Power} : (s.modPwr f).pending = s.pending := rfl
@[simp] theorem State.modPwr_out {s : State} {f : Power → Power} : (s.modPwr f).out = s.out := rfl
@[simp] theorem State.modPwr_free {s : State} {f : Power → Power} : (s.modPwr f).free = s.free := rfl
@[simp] theorem State.modPwr_ticks {s : State} {f : Power → Power} : (s.modPwr f).ticks = s.ticks := rfl
@[simp] theorem State.modPwr_ident {s : State} {f : Power → Power} : (s.modPwr f).ident = s.ident := rfl
@[simp] theorem State.modPwr_regs {s : State} {f : Power → Power} : (s.modPwr f).regs = s.regs := rfl
@[simp] theorem State.modPwr_low64 {s : State} {f : Power → Power} : (s.modPwr f).low64 = s.low64 := rfl
@[simp] theorem State.modPwr_high64 {s : State} {f : Power → Power} : (s.modPwr f).high64 = s.high64 := rfl
@[simp] theorem State.modPwr_pins {s : State} {f : Power → Power} : (s.modPwr f).pins = s.pins := rfl
@[simp] theorem State.modPwr_host {s : State} {f : Power → Power} : (s.modPwr f).host = s.host := rfl
@[simp] theorem State.modPwr_fns {s : State} {f : Power → Power} : (s.modPwr f).fns = s.fns := rfl
@[simp] theorem State.modPwr_rings {s : State} {f : Power → Power} : (s.modPwr f).rings = s.rings := rfl
@[simp] theorem State.modPwr_evs {s : State} {f : Power → Power} : (s.modPwr f).evs = s.evs := rfl
@[simp] theorem State.modPwr_points {s : State} {f : Power → Power} : (s.modPwr f).points = s.points := rfl
@[simp] theorem State.modPwr_ws {s : State} {f : Power → Power} : (s.modPwr f).ws = s.ws := rfl
@[simp] theorem State.modPwr_txns {s : State} {f : Power → Power} : (s.modPwr f).txns = s.txns := rfl
@[simp] theorem State.modPwr_nextTxn {s : State} {f : Power → Power} : (s.modPwr f).nextTxn = s.nextTxn := rfl
@[simp] theorem State.modPwr_lastTxn {s : State} {f : Power → Power} : (s.modPwr f).lastTxn = s.lastTxn := rfl
@[simp] theorem State.modPwr_time {s : State} {f : Power → Power} : (s.modPwr f).time = s.time := rfl
@[simp] theorem State.modPwr_hlist {s : State} {f : Power → Power} : (s.modPwr f).hlist = s.hlist := rfl
@[simp] theorem State.modPwr_actions {s : State} {f : Power → Power} : (s.modPwr f).actions = s.actions := rfl
@[simp] theorem State.modPwr_fired {s : State} {f : Power → Power} : (s.modPwr f).fired = s.fired := rfl
@[simp] theorem State.modPwr_tsqs {s : State} {f : Power → Power} : (s.modPwr f).tsqs = s.tsqs := rfl
@[simp] theorem State.modPwr_chs {s : State} {f : Power → Power} : (s.modPwr f).chs = s.chs := rfl
@[simp] theorem State.modPwr_nets {s : State} {f : Power → Power} : (s.modPwr f).nets = s.nets := rfl
@[simp] theorem State.modPwr_pair {s : State} {f : Power → Power} : (s.modPwr f).pair = s.pair := rfl
@[simp] theorem State.modPwr_bkp {s : State} {f : Power → Power} : (s.modPwr f).bkp = s.bkp := rfl
@[simp] theorem State.modPwr_vlt {s : State} {f : Power → Power} : (s.modPwr f).vlt = s.vlt := rfl
@[simp] theorem State.modPwr_lc {s : State} {f : Power → Power} : (s.modPwr f).lc = s.lc := rfl
@[simp] theorem State.modPwr_upd {s : State} {f : Power → Power} : (s.modPwr f).upd = s.upd := rfl
@[simp] theorem State.modPwr_frames {s : State} {f : Power → Power} : (s.modPwr f).frames = s.frames := rfl
@[simp] theorem State.modPwr_serial {s : State} {f : Power → Power} : (s.modPwr f).serial = s.serial := rfl
@[simp] theorem State.modPwr_usb {s : State} {f : Power → Power} : (s.modPwr f).usb = s.usb := rfl
@[simp] theorem State.modPwr_vbus {s : State} {f : Power → Power} : (s.modPwr f).vbus = s.vbus := rfl

@[simp] theorem State.modBkp_pending {s : State} {f : Backup → Backup} : (s.modBkp f).pending = s.pending := rfl
@[simp] theorem State.modBkp_out {s : State} {f : Backup → Backup} : (s.modBkp f).out = s.out := rfl
@[simp] theorem State.modBkp_free {s : State} {f : Backup → Backup} : (s.modBkp f).free = s.free := rfl
@[simp] theorem State.modBkp_ticks {s : State} {f : Backup → Backup} : (s.modBkp f).ticks = s.ticks := rfl
@[simp] theorem State.modBkp_ident {s : State} {f : Backup → Backup} : (s.modBkp f).ident = s.ident := rfl
@[simp] theorem State.modBkp_regs {s : State} {f : Backup → Backup} : (s.modBkp f).regs = s.regs := rfl
@[simp] theorem State.modBkp_low64 {s : State} {f : Backup → Backup} : (s.modBkp f).low64 = s.low64 := rfl
@[simp] theorem State.modBkp_high64 {s : State} {f : Backup → Backup} : (s.modBkp f).high64 = s.high64 := rfl
@[simp] theorem State.modBkp_pins {s : State} {f : Backup → Backup} : (s.modBkp f).pins = s.pins := rfl
@[simp] theorem State.modBkp_host {s : State} {f : Backup → Backup} : (s.modBkp f).host = s.host := rfl
@[simp] theorem State.modBkp_fns {s : State} {f : Backup → Backup} : (s.modBkp f).fns = s.fns := rfl
@[simp] theorem State.modBkp_rings {s : State} {f : Backup → Backup} : (s.modBkp f).rings = s.rings := rfl
@[simp] theorem State.modBkp_evs {s : State} {f : Backup → Backup} : (s.modBkp f).evs = s.evs := rfl
@[simp] theorem State.modBkp_points {s : State} {f : Backup → Backup} : (s.modBkp f).points = s.points := rfl
@[simp] theorem State.modBkp_ws {s : State} {f : Backup → Backup} : (s.modBkp f).ws = s.ws := rfl
@[simp] theorem State.modBkp_txns {s : State} {f : Backup → Backup} : (s.modBkp f).txns = s.txns := rfl
@[simp] theorem State.modBkp_nextTxn {s : State} {f : Backup → Backup} : (s.modBkp f).nextTxn = s.nextTxn := rfl
@[simp] theorem State.modBkp_lastTxn {s : State} {f : Backup → Backup} : (s.modBkp f).lastTxn = s.lastTxn := rfl
@[simp] theorem State.modBkp_time {s : State} {f : Backup → Backup} : (s.modBkp f).time = s.time := rfl
@[simp] theorem State.modBkp_hlist {s : State} {f : Backup → Backup} : (s.modBkp f).hlist = s.hlist := rfl
@[simp] theorem State.modBkp_actions {s : State} {f : Backup → Backup} : (s.modBkp f).actions = s.actions := rfl
@[simp] theorem State.modBkp_fired {s : State} {f : Backup → Backup} : (s.modBkp f).fired = s.fired := rfl
@[simp] theorem State.modBkp_tsqs {s : State} {f : Backup → Backup} : (s.modBkp f).tsqs = s.tsqs := rfl
@[simp] theorem State.modBkp_chs {s : State} {f : Backup → Backup} : (s.modBkp f).chs = s.chs := rfl
@[simp] theorem State.modBkp_nets {s : State} {f : Backup → Backup} : (s.modBkp f).nets = s.nets := rfl
@[simp] theorem State.modBkp_pair {s : State} {f : Backup → Backup} : (s.modBkp f).pair = s.pair := rfl
@[simp] theorem State.modBkp_pwr {s : State} {f : Backup → Backup} : (s.modBkp f).pwr = s.pwr := rfl
@[simp] theorem State.modBkp_vlt {s : State} {f : Backup → Backup} : (s.modBkp f).vlt = s.vlt := rfl
@[simp] theorem State.modBkp_lc {s : State} {f : Backup → Backup} : (s.modBkp f).lc = s.lc := rfl
@[simp] theorem State.modBkp_upd {s : State} {f : Backup → Backup} : (s.modBkp f).upd = s.upd := rfl
@[simp] theorem State.modBkp_frames {s : State} {f : Backup → Backup} : (s.modBkp f).frames = s.frames := rfl
@[simp] theorem State.modBkp_serial {s : State} {f : Backup → Backup} : (s.modBkp f).serial = s.serial := rfl
@[simp] theorem State.modBkp_usb {s : State} {f : Backup → Backup} : (s.modBkp f).usb = s.usb := rfl
@[simp] theorem State.modBkp_vbus {s : State} {f : Backup → Backup} : (s.modBkp f).vbus = s.vbus := rfl

@[simp] theorem State.modVlt_pending {s : State} {f : Vault → Vault} : (s.modVlt f).pending = s.pending := rfl
@[simp] theorem State.modVlt_out {s : State} {f : Vault → Vault} : (s.modVlt f).out = s.out := rfl
@[simp] theorem State.modVlt_free {s : State} {f : Vault → Vault} : (s.modVlt f).free = s.free := rfl
@[simp] theorem State.modVlt_ticks {s : State} {f : Vault → Vault} : (s.modVlt f).ticks = s.ticks := rfl
@[simp] theorem State.modVlt_ident {s : State} {f : Vault → Vault} : (s.modVlt f).ident = s.ident := rfl
@[simp] theorem State.modVlt_regs {s : State} {f : Vault → Vault} : (s.modVlt f).regs = s.regs := rfl
@[simp] theorem State.modVlt_low64 {s : State} {f : Vault → Vault} : (s.modVlt f).low64 = s.low64 := rfl
@[simp] theorem State.modVlt_high64 {s : State} {f : Vault → Vault} : (s.modVlt f).high64 = s.high64 := rfl
@[simp] theorem State.modVlt_pins {s : State} {f : Vault → Vault} : (s.modVlt f).pins = s.pins := rfl
@[simp] theorem State.modVlt_host {s : State} {f : Vault → Vault} : (s.modVlt f).host = s.host := rfl
@[simp] theorem State.modVlt_fns {s : State} {f : Vault → Vault} : (s.modVlt f).fns = s.fns := rfl
@[simp] theorem State.modVlt_rings {s : State} {f : Vault → Vault} : (s.modVlt f).rings = s.rings := rfl
@[simp] theorem State.modVlt_evs {s : State} {f : Vault → Vault} : (s.modVlt f).evs = s.evs := rfl
@[simp] theorem State.modVlt_points {s : State} {f : Vault → Vault} : (s.modVlt f).points = s.points := rfl
@[simp] theorem State.modVlt_ws {s : State} {f : Vault → Vault} : (s.modVlt f).ws = s.ws := rfl
@[simp] theorem State.modVlt_txns {s : State} {f : Vault → Vault} : (s.modVlt f).txns = s.txns := rfl
@[simp] theorem State.modVlt_nextTxn {s : State} {f : Vault → Vault} : (s.modVlt f).nextTxn = s.nextTxn := rfl
@[simp] theorem State.modVlt_lastTxn {s : State} {f : Vault → Vault} : (s.modVlt f).lastTxn = s.lastTxn := rfl
@[simp] theorem State.modVlt_time {s : State} {f : Vault → Vault} : (s.modVlt f).time = s.time := rfl
@[simp] theorem State.modVlt_hlist {s : State} {f : Vault → Vault} : (s.modVlt f).hlist = s.hlist := rfl
@[simp] theorem State.modVlt_actions {s : State} {f : Vault → Vault} : (s.modVlt f).actions = s.actions := rfl
@[simp] theorem State.modVlt_fired {s : State} {f : Vault → Vault} : (s.modVlt f).fired = s.fired := rfl
@[simp] theorem State.modVlt_tsqs {s : State} {f : Vault → Vault} : (s.modVlt f).tsqs = s.tsqs := rfl
@[simp] theorem State.modVlt_chs {s : State} {f : Vault → Vault} : (s.modVlt f).chs = s.chs := rfl
@[simp] theorem State.modVlt_nets {s : State} {f : Vault → Vault} : (s.modVlt f).nets = s.nets := rfl
@[simp] theorem State.modVlt_pair {s : State} {f : Vault → Vault} : (s.modVlt f).pair = s.pair := rfl
@[simp] theorem State.modVlt_pwr {s : State} {f : Vault → Vault} : (s.modVlt f).pwr = s.pwr := rfl
@[simp] theorem State.modVlt_bkp {s : State} {f : Vault → Vault} : (s.modVlt f).bkp = s.bkp := rfl
@[simp] theorem State.modVlt_lc {s : State} {f : Vault → Vault} : (s.modVlt f).lc = s.lc := rfl
@[simp] theorem State.modVlt_upd {s : State} {f : Vault → Vault} : (s.modVlt f).upd = s.upd := rfl
@[simp] theorem State.modVlt_frames {s : State} {f : Vault → Vault} : (s.modVlt f).frames = s.frames := rfl
@[simp] theorem State.modVlt_serial {s : State} {f : Vault → Vault} : (s.modVlt f).serial = s.serial := rfl
@[simp] theorem State.modVlt_usb {s : State} {f : Vault → Vault} : (s.modVlt f).usb = s.usb := rfl
@[simp] theorem State.modVlt_vbus {s : State} {f : Vault → Vault} : (s.modVlt f).vbus = s.vbus := rfl

@[simp] theorem State.modUpd_pending {s : State} {f : Upd → Upd} : (s.modUpd f).pending = s.pending := rfl
@[simp] theorem State.modUpd_out {s : State} {f : Upd → Upd} : (s.modUpd f).out = s.out := rfl
@[simp] theorem State.modUpd_free {s : State} {f : Upd → Upd} : (s.modUpd f).free = s.free := rfl
@[simp] theorem State.modUpd_ticks {s : State} {f : Upd → Upd} : (s.modUpd f).ticks = s.ticks := rfl
@[simp] theorem State.modUpd_ident {s : State} {f : Upd → Upd} : (s.modUpd f).ident = s.ident := rfl
@[simp] theorem State.modUpd_regs {s : State} {f : Upd → Upd} : (s.modUpd f).regs = s.regs := rfl
@[simp] theorem State.modUpd_low64 {s : State} {f : Upd → Upd} : (s.modUpd f).low64 = s.low64 := rfl
@[simp] theorem State.modUpd_high64 {s : State} {f : Upd → Upd} : (s.modUpd f).high64 = s.high64 := rfl
@[simp] theorem State.modUpd_pins {s : State} {f : Upd → Upd} : (s.modUpd f).pins = s.pins := rfl
@[simp] theorem State.modUpd_host {s : State} {f : Upd → Upd} : (s.modUpd f).host = s.host := rfl
@[simp] theorem State.modUpd_fns {s : State} {f : Upd → Upd} : (s.modUpd f).fns = s.fns := rfl
@[simp] theorem State.modUpd_rings {s : State} {f : Upd → Upd} : (s.modUpd f).rings = s.rings := rfl
@[simp] theorem State.modUpd_evs {s : State} {f : Upd → Upd} : (s.modUpd f).evs = s.evs := rfl
@[simp] theorem State.modUpd_points {s : State} {f : Upd → Upd} : (s.modUpd f).points = s.points := rfl
@[simp] theorem State.modUpd_ws {s : State} {f : Upd → Upd} : (s.modUpd f).ws = s.ws := rfl
@[simp] theorem State.modUpd_txns {s : State} {f : Upd → Upd} : (s.modUpd f).txns = s.txns := rfl
@[simp] theorem State.modUpd_nextTxn {s : State} {f : Upd → Upd} : (s.modUpd f).nextTxn = s.nextTxn := rfl
@[simp] theorem State.modUpd_lastTxn {s : State} {f : Upd → Upd} : (s.modUpd f).lastTxn = s.lastTxn := rfl
@[simp] theorem State.modUpd_time {s : State} {f : Upd → Upd} : (s.modUpd f).time = s.time := rfl
@[simp] theorem State.modUpd_hlist {s : State} {f : Upd → Upd} : (s.modUpd f).hlist = s.hlist := rfl
@[simp] theorem State.modUpd_actions {s : State} {f : Upd → Upd} : (s.modUpd f).actions = s.actions := rfl
@[simp] theorem State.modUpd_fired {s : State} {f : Upd → Upd} : (s.modUpd f).fired = s.fired := rfl
@[simp] theorem State.modUpd_tsqs {s : State} {f : Upd → Upd} : (s.modUpd f).tsqs = s.tsqs := rfl
@[simp] theorem State.modUpd_chs {s : State} {f : Upd → Upd} : (s.modUpd f).chs = s.chs := rfl
@[simp] theorem State.modUpd_nets {s : State} {f : Upd → Upd} : (s.modUpd f).nets = s.nets := rfl
@[simp] theorem State.modUpd_pair {s : State} {f : Upd → Upd} : (s.modUpd f).pair = s.pair := rfl
@[simp] theorem State.modUpd_pwr {s : State} {f : Upd → Upd} : (s.modUpd f).pwr = s.pwr := rfl
@[simp] theorem State.modUpd_bkp {s : State} {f : Upd → Upd} : (s.modUpd f).bkp = s.bkp := rfl
@[simp] theorem State.modUpd_vlt {s : State} {f : Upd → Upd} : (s.modUpd f).vlt = s.vlt := rfl
@[simp] theorem State.modUpd_lc {s : State} {f : Upd → Upd} : (s.modUpd f).lc = s.lc := rfl
@[simp] theorem State.modUpd_frames {s : State} {f : Upd → Upd} : (s.modUpd f).frames = s.frames := rfl
@[simp] theorem State.modUpd_serial {s : State} {f : Upd → Upd} : (s.modUpd f).serial = s.serial := rfl
@[simp] theorem State.modUpd_usb {s : State} {f : Upd → Upd} : (s.modUpd f).usb = s.usb := rfl
@[simp] theorem State.modUpd_vbus {s : State} {f : Upd → Upd} : (s.modUpd f).vbus = s.vbus := rfl

@[simp] theorem State.modPt_pending {s : State} {h : Nat} {f : Point → Point} : (s.modPt h f).pending = s.pending := rfl
@[simp] theorem State.modPt_out {s : State} {h : Nat} {f : Point → Point} : (s.modPt h f).out = s.out := rfl
@[simp] theorem State.modPt_free {s : State} {h : Nat} {f : Point → Point} : (s.modPt h f).free = s.free := rfl
@[simp] theorem State.modPt_ticks {s : State} {h : Nat} {f : Point → Point} : (s.modPt h f).ticks = s.ticks := rfl
@[simp] theorem State.modPt_ident {s : State} {h : Nat} {f : Point → Point} : (s.modPt h f).ident = s.ident := rfl
@[simp] theorem State.modPt_regs {s : State} {h : Nat} {f : Point → Point} : (s.modPt h f).regs = s.regs := rfl
@[simp] theorem State.modPt_low64 {s : State} {h : Nat} {f : Point → Point} : (s.modPt h f).low64 = s.low64 := rfl
@[simp] theorem State.modPt_high64 {s : State} {h : Nat} {f : Point → Point} : (s.modPt h f).high64 = s.high64 := rfl
@[simp] theorem State.modPt_pins {s : State} {h : Nat} {f : Point → Point} : (s.modPt h f).pins = s.pins := rfl
@[simp] theorem State.modPt_host {s : State} {h : Nat} {f : Point → Point} : (s.modPt h f).host = s.host := rfl
@[simp] theorem State.modPt_fns {s : State} {h : Nat} {f : Point → Point} : (s.modPt h f).fns = s.fns := rfl
@[simp] theorem State.modPt_rings {s : State} {h : Nat} {f : Point → Point} : (s.modPt h f).rings = s.rings := rfl
@[simp] theorem State.modPt_evs {s : State} {h : Nat} {f : Point → Point} : (s.modPt h f).evs = s.evs := rfl
@[simp] theorem State.modPt_ws {s : State} {h : Nat} {f : Point → Point} : (s.modPt h f).ws = s.ws := rfl
@[simp] theorem State.modPt_txns {s : State} {h : Nat} {f : Point → Point} : (s.modPt h f).txns = s.txns := rfl
@[simp] theorem State.modPt_nextTxn {s : State} {h : Nat} {f : Point → Point} : (s.modPt h f).nextTxn = s.nextTxn := rfl
@[simp] theorem State.modPt_lastTxn {s : State} {h : Nat} {f : Point → Point} : (s.modPt h f).lastTxn = s.lastTxn := rfl
@[simp] theorem State.modPt_time {s : State} {h : Nat} {f : Point → Point} : (s.modPt h f).time = s.time := rfl
@[simp] theorem State.modPt_hlist {s : State} {h : Nat} {f : Point → Point} : (s.modPt h f).hlist = s.hlist := rfl
@[simp] theorem State.modPt_actions {s : State} {h : Nat} {f : Point → Point} : (s.modPt h f).actions = s.actions := rfl
@[simp] theorem State.modPt_fired {s : State} {h : Nat} {f : Point → Point} : (s.modPt h f).fired = s.fired := rfl
@[simp] theorem State.modPt_tsqs {s : State} {h : Nat} {f : Point → Point} : (s.modPt h f).tsqs = s.tsqs := rfl
@[simp] theorem State.modPt_chs {s : State} {h : Nat} {f : Point → Point} : (s.modPt h f).chs = s.chs := rfl
@[simp] theorem State.modPt_nets {s : State} {h : Nat} {f : Point → Point} : (s.modPt h f).nets = s.nets := rfl
@[simp] theorem State.modPt_pair {s : State} {h : Nat} {f : Point → Point} : (s.modPt h f).pair = s.pair := rfl
@[simp] theorem State.modPt_pwr {s : State} {h : Nat} {f : Point → Point} : (s.modPt h f).pwr = s.pwr := rfl
@[simp] theorem State.modPt_bkp {s : State} {h : Nat} {f : Point → Point} : (s.modPt h f).bkp = s.bkp := rfl
@[simp] theorem State.modPt_vlt {s : State} {h : Nat} {f : Point → Point} : (s.modPt h f).vlt = s.vlt := rfl
@[simp] theorem State.modPt_lc {s : State} {h : Nat} {f : Point → Point} : (s.modPt h f).lc = s.lc := rfl
@[simp] theorem State.modPt_upd {s : State} {h : Nat} {f : Point → Point} : (s.modPt h f).upd = s.upd := rfl
@[simp] theorem State.modPt_frames {s : State} {h : Nat} {f : Point → Point} : (s.modPt h f).frames = s.frames := rfl
@[simp] theorem State.modPt_serial {s : State} {h : Nat} {f : Point → Point} : (s.modPt h f).serial = s.serial := rfl
@[simp] theorem State.modPt_usb {s : State} {h : Nat} {f : Point → Point} : (s.modPt h f).usb = s.usb := rfl
@[simp] theorem State.modPt_vbus {s : State} {h : Nat} {f : Point → Point} : (s.modPt h f).vbus = s.vbus := rfl

@[simp] theorem State.modCan_pending {s : State} {n x : Nat} {f : Can → Can} : (s.modCan n x f).pending = s.pending := rfl
@[simp] theorem State.modCan_out {s : State} {n x : Nat} {f : Can → Can} : (s.modCan n x f).out = s.out := rfl
@[simp] theorem State.modCan_free {s : State} {n x : Nat} {f : Can → Can} : (s.modCan n x f).free = s.free := rfl
@[simp] theorem State.modCan_ticks {s : State} {n x : Nat} {f : Can → Can} : (s.modCan n x f).ticks = s.ticks := rfl
@[simp] theorem State.modCan_ident {s : State} {n x : Nat} {f : Can → Can} : (s.modCan n x f).ident = s.ident := rfl
@[simp] theorem State.modCan_regs {s : State} {n x : Nat} {f : Can → Can} : (s.modCan n x f).regs = s.regs := rfl
@[simp] theorem State.modCan_low64 {s : State} {n x : Nat} {f : Can → Can} : (s.modCan n x f).low64 = s.low64 := rfl
@[simp] theorem State.modCan_high64 {s : State} {n x : Nat} {f : Can → Can} : (s.modCan n x f).high64 = s.high64 := rfl
@[simp] theorem State.modCan_pins {s : State} {n x : Nat} {f : Can → Can} : (s.modCan n x f).pins = s.pins := rfl
@[simp] theorem State.modCan_host {s : State} {n x : Nat} {f : Can → Can} : (s.modCan n x f).host = s.host := rfl
@[simp] theorem State.modCan_fns {s : State} {n x : Nat} {f : Can → Can} : (s.modCan n x f).fns = s.fns := rfl
@[simp] theorem State.modCan_rings {s : State} {n x : Nat} {f : Can → Can} : (s.modCan n x f).rings = s.rings := rfl
@[simp] theorem State.modCan_evs {s : State} {n x : Nat} {f : Can → Can} : (s.modCan n x f).evs = s.evs := rfl
@[simp] theorem State.modCan_points {s : State} {n x : Nat} {f : Can → Can} : (s.modCan n x f).points = s.points := rfl
@[simp] theorem State.modCan_ws {s : State} {n x : Nat} {f : Can → Can} : (s.modCan n x f).ws = s.ws := rfl
@[simp] theorem State.modCan_txns {s : State} {n x : Nat} {f : Can → Can} : (s.modCan n x f).txns = s.txns := rfl
@[simp] theorem State.modCan_nextTxn {s : State} {n x : Nat} {f : Can → Can} : (s.modCan n x f).nextTxn = s.nextTxn := rfl
@[simp] theorem State.modCan_lastTxn {s : State} {n x : Nat} {f : Can → Can} : (s.modCan n x f).lastTxn = s.lastTxn := rfl
@[simp] theorem State.modCan_time {s : State} {n x : Nat} {f : Can → Can} : (s.modCan n x f).time = s.time := rfl
@[simp] theorem State.modCan_hlist {s : State} {n x : Nat} {f : Can → Can} : (s.modCan n x f).hlist = s.hlist := rfl
@[simp] theorem State.modCan_actions {s : State} {n x : Nat} {f : Can → Can} : (s.modCan n x f).actions = s.actions := rfl
@[simp] theorem State.modCan_fired {s : State} {n x : Nat} {f : Can → Can} : (s.modCan n x f).fired = s.fired := rfl
@[simp] theorem State.modCan_tsqs {s : State} {n x : Nat} {f : Can → Can} : (s.modCan n x f).tsqs = s.tsqs := rfl
@[simp] theorem State.modCan_nets {s : State} {n x : Nat} {f : Can → Can} : (s.modCan n x f).nets = s.nets := rfl
@[simp] theorem State.modCan_pair {s : State} {n x : Nat} {f : Can → Can} : (s.modCan n x f).pair = s.pair := rfl
@[simp] theorem State.modCan_pwr {s : State} {n x : Nat} {f : Can → Can} : (s.modCan n x f).pwr = s.pwr := rfl
@[simp] theorem State.modCan_bkp {s : State} {n x : Nat} {f : Can → Can} : (s.modCan n x f).bkp = s.bkp := rfl
@[simp] theorem State.modCan_vlt {s : State} {n x : Nat} {f : Can → Can} : (s.modCan n x f).vlt = s.vlt := rfl
@[simp] theorem State.modCan_lc {s : State} {n x : Nat} {f : Can → Can} : (s.modCan n x f).lc = s.lc := rfl
@[simp] theorem State.modCan_upd {s : State} {n x : Nat} {f : Can → Can} : (s.modCan n x f).upd = s.upd := rfl
@[simp] theorem State.modCan_frames {s : State} {n x : Nat} {f : Can → Can} : (s.modCan n x f).frames = s.frames := rfl
@[simp] theorem State.modCan_serial {s : State} {n x : Nat} {f : Can → Can} : (s.modCan n x f).serial = s.serial := rfl
@[simp] theorem State.modCan_usb {s : State} {n x : Nat} {f : Can → Can} : (s.modCan n x f).usb = s.usb := rfl
@[simp] theorem State.modCan_vbus {s : State} {n x : Nat} {f : Can → Can} : (s.modCan n x f).vbus = s.vbus := rfl

@[simp] theorem State.modSeg_pending {s : State} {n x : Nat} {f : Seg → Seg} : (s.modSeg n x f).pending = s.pending := rfl
@[simp] theorem State.modSeg_out {s : State} {n x : Nat} {f : Seg → Seg} : (s.modSeg n x f).out = s.out := rfl
@[simp] theorem State.modSeg_free {s : State} {n x : Nat} {f : Seg → Seg} : (s.modSeg n x f).free = s.free := rfl
@[simp] theorem State.modSeg_ticks {s : State} {n x : Nat} {f : Seg → Seg} : (s.modSeg n x f).ticks = s.ticks := rfl
@[simp] theorem State.modSeg_ident {s : State} {n x : Nat} {f : Seg → Seg} : (s.modSeg n x f).ident = s.ident := rfl
@[simp] theorem State.modSeg_regs {s : State} {n x : Nat} {f : Seg → Seg} : (s.modSeg n x f).regs = s.regs := rfl
@[simp] theorem State.modSeg_low64 {s : State} {n x : Nat} {f : Seg → Seg} : (s.modSeg n x f).low64 = s.low64 := rfl
@[simp] theorem State.modSeg_high64 {s : State} {n x : Nat} {f : Seg → Seg} : (s.modSeg n x f).high64 = s.high64 := rfl
@[simp] theorem State.modSeg_pins {s : State} {n x : Nat} {f : Seg → Seg} : (s.modSeg n x f).pins = s.pins := rfl
@[simp] theorem State.modSeg_host {s : State} {n x : Nat} {f : Seg → Seg} : (s.modSeg n x f).host = s.host := rfl
@[simp] theorem State.modSeg_fns {s : State} {n x : Nat} {f : Seg → Seg} : (s.modSeg n x f).fns = s.fns := rfl
@[simp] theorem State.modSeg_rings {s : State} {n x : Nat} {f : Seg → Seg} : (s.modSeg n x f).rings = s.rings := rfl
@[simp] theorem State.modSeg_evs {s : State} {n x : Nat} {f : Seg → Seg} : (s.modSeg n x f).evs = s.evs := rfl
@[simp] theorem State.modSeg_points {s : State} {n x : Nat} {f : Seg → Seg} : (s.modSeg n x f).points = s.points := rfl
@[simp] theorem State.modSeg_ws {s : State} {n x : Nat} {f : Seg → Seg} : (s.modSeg n x f).ws = s.ws := rfl
@[simp] theorem State.modSeg_txns {s : State} {n x : Nat} {f : Seg → Seg} : (s.modSeg n x f).txns = s.txns := rfl
@[simp] theorem State.modSeg_nextTxn {s : State} {n x : Nat} {f : Seg → Seg} : (s.modSeg n x f).nextTxn = s.nextTxn := rfl
@[simp] theorem State.modSeg_lastTxn {s : State} {n x : Nat} {f : Seg → Seg} : (s.modSeg n x f).lastTxn = s.lastTxn := rfl
@[simp] theorem State.modSeg_time {s : State} {n x : Nat} {f : Seg → Seg} : (s.modSeg n x f).time = s.time := rfl
@[simp] theorem State.modSeg_hlist {s : State} {n x : Nat} {f : Seg → Seg} : (s.modSeg n x f).hlist = s.hlist := rfl
@[simp] theorem State.modSeg_actions {s : State} {n x : Nat} {f : Seg → Seg} : (s.modSeg n x f).actions = s.actions := rfl
@[simp] theorem State.modSeg_fired {s : State} {n x : Nat} {f : Seg → Seg} : (s.modSeg n x f).fired = s.fired := rfl
@[simp] theorem State.modSeg_tsqs {s : State} {n x : Nat} {f : Seg → Seg} : (s.modSeg n x f).tsqs = s.tsqs := rfl
@[simp] theorem State.modSeg_nets {s : State} {n x : Nat} {f : Seg → Seg} : (s.modSeg n x f).nets = s.nets := rfl
@[simp] theorem State.modSeg_pair {s : State} {n x : Nat} {f : Seg → Seg} : (s.modSeg n x f).pair = s.pair := rfl
@[simp] theorem State.modSeg_pwr {s : State} {n x : Nat} {f : Seg → Seg} : (s.modSeg n x f).pwr = s.pwr := rfl
@[simp] theorem State.modSeg_bkp {s : State} {n x : Nat} {f : Seg → Seg} : (s.modSeg n x f).bkp = s.bkp := rfl
@[simp] theorem State.modSeg_vlt {s : State} {n x : Nat} {f : Seg → Seg} : (s.modSeg n x f).vlt = s.vlt := rfl
@[simp] theorem State.modSeg_lc {s : State} {n x : Nat} {f : Seg → Seg} : (s.modSeg n x f).lc = s.lc := rfl
@[simp] theorem State.modSeg_upd {s : State} {n x : Nat} {f : Seg → Seg} : (s.modSeg n x f).upd = s.upd := rfl
@[simp] theorem State.modSeg_frames {s : State} {n x : Nat} {f : Seg → Seg} : (s.modSeg n x f).frames = s.frames := rfl
@[simp] theorem State.modSeg_serial {s : State} {n x : Nat} {f : Seg → Seg} : (s.modSeg n x f).serial = s.serial := rfl
@[simp] theorem State.modSeg_usb {s : State} {n x : Nat} {f : Seg → Seg} : (s.modSeg n x f).usb = s.usb := rfl
@[simp] theorem State.modSeg_vbus {s : State} {n x : Nat} {f : Seg → Seg} : (s.modSeg n x f).vbus = s.vbus := rfl

@[simp] theorem State.modDio_pending {s : State} {n : Nat} {f : Dio → Dio} : (s.modDio n f).pending = s.pending := rfl
@[simp] theorem State.modDio_out {s : State} {n : Nat} {f : Dio → Dio} : (s.modDio n f).out = s.out := rfl
@[simp] theorem State.modDio_free {s : State} {n : Nat} {f : Dio → Dio} : (s.modDio n f).free = s.free := rfl
@[simp] theorem State.modDio_ticks {s : State} {n : Nat} {f : Dio → Dio} : (s.modDio n f).ticks = s.ticks := rfl
@[simp] theorem State.modDio_ident {s : State} {n : Nat} {f : Dio → Dio} : (s.modDio n f).ident = s.ident := rfl
@[simp] theorem State.modDio_regs {s : State} {n : Nat} {f : Dio → Dio} : (s.modDio n f).regs = s.regs := rfl
@[simp] theorem State.modDio_low64 {s : State} {n : Nat} {f : Dio → Dio} : (s.modDio n f).low64 = s.low64 := rfl
@[simp] theorem State.modDio_high64 {s : State} {n : Nat} {f : Dio → Dio} : (s.modDio n f).high64 = s.high64 := rfl
@[simp] theorem State.modDio_pins {s : State} {n : Nat} {f : Dio → Dio} : (s.modDio n f).pins = s.pins := rfl
@[simp] theorem State.modDio_host {s : State} {n : Nat} {f : Dio → Dio} : (s.modDio n f).host = s.host := rfl
@[simp] theorem State.modDio_fns {s : State} {n : Nat} {f : Dio → Dio} : (s.modDio n f).fns = s.fns := rfl
@[simp] theorem State.modDio_rings {s : State} {n : Nat} {f : Dio → Dio} : (s.modDio n f).rings = s.rings := rfl
@[simp] theorem State.modDio_evs {s : State} {n : Nat} {f : Dio → Dio} : (s.modDio n f).evs = s.evs := rfl
@[simp] theorem State.modDio_points {s : State} {n : Nat} {f : Dio → Dio} : (s.modDio n f).points = s.points := rfl
@[simp] theorem State.modDio_ws {s : State} {n : Nat} {f : Dio → Dio} : (s.modDio n f).ws = s.ws := rfl
@[simp] theorem State.modDio_txns {s : State} {n : Nat} {f : Dio → Dio} : (s.modDio n f).txns = s.txns := rfl
@[simp] theorem State.modDio_nextTxn {s : State} {n : Nat} {f : Dio → Dio} : (s.modDio n f).nextTxn = s.nextTxn := rfl
@[simp] theorem State.modDio_lastTxn {s : State} {n : Nat} {f : Dio → Dio} : (s.modDio n f).lastTxn = s.lastTxn := rfl
@[simp] theorem State.modDio_time {s : State} {n : Nat} {f : Dio → Dio} : (s.modDio n f).time = s.time := rfl
@[simp] theorem State.modDio_hlist {s : State} {n : Nat} {f : Dio → Dio} : (s.modDio n f).hlist = s.hlist := rfl
@[simp] theorem State.modDio_actions {s : State} {n : Nat} {f : Dio → Dio} : (s.modDio n f).actions = s.actions := rfl
@[simp] theorem State.modDio_fired {s : State} {n : Nat} {f : Dio → Dio} : (s.modDio n f).fired = s.fired := rfl
@[simp] theorem State.modDio_tsqs {s : State} {n : Nat} {f : Dio → Dio} : (s.modDio n f).tsqs = s.tsqs := rfl
@[simp] theorem State.modDio_nets {s : State} {n : Nat} {f : Dio → Dio} : (s.modDio n f).nets = s.nets := rfl
@[simp] theorem State.modDio_pair {s : State} {n : Nat} {f : Dio → Dio} : (s.modDio n f).pair = s.pair := rfl
@[simp] theorem State.modDio_pwr {s : State} {n : Nat} {f : Dio → Dio} : (s.modDio n f).pwr = s.pwr := rfl
@[simp] theorem State.modDio_bkp {s : State} {n : Nat} {f : Dio → Dio} : (s.modDio n f).bkp = s.bkp := rfl
@[simp] theorem State.modDio_vlt {s : State} {n : Nat} {f : Dio → Dio} : (s.modDio n f).vlt = s.vlt := rfl
@[simp] theorem State.modDio_lc {s : State} {n : Nat} {f : Dio → Dio} : (s.modDio n f).lc = s.lc := rfl
@[simp] theorem State.modDio_upd {s : State} {n : Nat} {f : Dio → Dio} : (s.modDio n f).upd = s.upd := rfl
@[simp] theorem State.modDio_frames {s : State} {n : Nat} {f : Dio → Dio} : (s.modDio n f).frames = s.frames := rfl
@[simp] theorem State.modDio_serial {s : State} {n : Nat} {f : Dio → Dio} : (s.modDio n f).serial = s.serial := rfl
@[simp] theorem State.modDio_usb {s : State} {n : Nat} {f : Dio → Dio} : (s.modDio n f).usb = s.usb := rfl
@[simp] theorem State.modDio_vbus {s : State} {n : Nat} {f : Dio → Dio} : (s.modDio n f).vbus = s.vbus := rfl

@[simp] theorem State.modDout_pending {s : State} {n d : Nat} {f : Dout → Dout} : (s.modDout n d f).pending = s.pending := rfl
@[simp] theorem State.modDout_out {s : State} {n d : Nat} {f : Dout → Dout} : (s.modDout n d f).out = s.out := rfl
@[simp] theorem State.modDout_free {s : State} {n d : Nat} {f : Dout → Dout} : (s.modDout n d f).free = s.free := rfl
@[simp] theorem State.modDout_ticks {s : State} {n d : Nat} {f : Dout → Dout} : (s.modDout n d f).ticks = s.ticks := rfl
@[simp] theorem State.modDout_ident {s : State} {n d : Nat} {f : Dout → Dout} : (s.modDout n d f).ident = s.ident := rfl
@[simp] theorem State.modDout_regs {s : State} {n d : Nat} {f : Dout → Dout} : (s.modDout n d f).regs = s.regs := rfl
@[simp] theorem State.modDout_low64 {s : State} {n d : Nat} {f : Dout → Dout} : (s.modDout n d f).low64 = s.low64 := rfl
@[simp] theorem State.modDout_high64 {s : State} {n d : Nat} {f : Dout → Dout} : (s.modDout n d f).high64 = s.high64 := rfl
@[simp] theorem State.modDout_pins {s : State} {n d : Nat} {f : Dout → Dout} : (s.modDout n d f).pins = s.pins := rfl
@[simp] theorem State.modDout_host {s : State} {n d : Nat} {f : Dout → Dout} : (s.modDout n d f).host = s.host := rfl
@[simp] theorem State.modDout_fns {s : State} {n d : Nat} {f : Dout → Dout} : (s.modDout n d f).fns = s.fns := rfl
@[simp] theorem State.modDout_rings {s : State} {n d : Nat} {f : Dout → Dout} : (s.modDout n d f).rings = s.rings := rfl
@[simp] theorem State.modDout_evs {s : State} {n d : Nat} {f : Dout → Dout} : (s.modDout n d f).evs = s.evs := rfl
@[simp] theorem State.modDout_points {s : State} {n d : Nat} {f : Dout → Dout} : (s.modDout n d f).points = s.points := rfl
@[simp] theorem State.modDout_ws {s : State} {n d : Nat} {f : Dout → Dout} : (s.modDout n d f).ws = s.ws := rfl
@[simp] theorem State.modDout_txns {s : State} {n d : Nat} {f : Dout → Dout} : (s.modDout n d f).txns = s.txns := rfl
@[simp] theorem State.modDout_nextTxn {s : State} {n d : Nat} {f : Dout → Dout} : (s.modDout n d f).nextTxn = s.nextTxn := rfl
@[simp] theorem State.modDout_lastTxn {s : State} {n d : Nat} {f : Dout → Dout} : (s.modDout n d f).lastTxn = s.lastTxn := rfl
@[simp] theorem State.modDout_time {s : State} {n d : Nat} {f : Dout → Dout} : (s.modDout n d f).time = s.time := rfl
@[simp] theorem State.modDout_hlist {s : State} {n d : Nat} {f : Dout → Dout} : (s.modDout n d f).hlist = s.hlist := rfl
@[simp] theorem State.modDout_actions {s : State} {n d : Nat} {f : Dout → Dout} : (s.modDout n d f).actions = s.actions := rfl
@[simp] theorem State.modDout_fired {s : State} {n d : Nat} {f : Dout → Dout} : (s.modDout n d f).fired = s.fired := rfl
@[simp] theorem State.modDout_tsqs {s : State} {n d : Nat} {f : Dout → Dout} : (s.modDout n d f).tsqs = s.tsqs := rfl
@[simp] theorem State.modDout_nets {s : State} {n d : Nat} {f : Dout → Dout} : (s.modDout n d f).nets = s.nets := rfl
@[simp] theorem State.modDout_pair {s : State} {n d : Nat} {f : Dout → Dout} : (s.modDout n d f).pair = s.pair := rfl
@[simp] theorem State.modDout_pwr {s : State} {n d : Nat} {f : Dout → Dout} : (s.modDout n d f).pwr = s.pwr := rfl
@[simp] theorem State.modDout_bkp {s : State} {n d : Nat} {f : Dout → Dout} : (s.modDout n d f).bkp = s.bkp := rfl
@[simp] theorem State.modDout_vlt {s : State} {n d : Nat} {f : Dout → Dout} : (s.modDout n d f).vlt = s.vlt := rfl
@[simp] theorem State.modDout_lc {s : State} {n d : Nat} {f : Dout → Dout} : (s.modDout n d f).lc = s.lc := rfl
@[simp] theorem State.modDout_upd {s : State} {n d : Nat} {f : Dout → Dout} : (s.modDout n d f).upd = s.upd := rfl
@[simp] theorem State.modDout_frames {s : State} {n d : Nat} {f : Dout → Dout} : (s.modDout n d f).frames = s.frames := rfl
@[simp] theorem State.modDout_serial {s : State} {n d : Nat} {f : Dout → Dout} : (s.modDout n d f).serial = s.serial := rfl
@[simp] theorem State.modDout_usb {s : State} {n d : Nat} {f : Dout → Dout} : (s.modDout n d f).usb = s.usb := rfl
@[simp] theorem State.modDout_vbus {s : State} {n d : Nat} {f : Dout → Dout} : (s.modDout n d f).vbus = s.vbus := rfl

@[simp] theorem State.modAout_pending {s : State} {n d : Nat} {f : Aout → Aout} : (s.modAout n d f).pending = s.pending := rfl
@[simp] theorem State.modAout_out {s : State} {n d : Nat} {f : Aout → Aout} : (s.modAout n d f).out = s.out := rfl
@[simp] theorem State.modAout_free {s : State} {n d : Nat} {f : Aout → Aout} : (s.modAout n d f).free = s.free := rfl
@[simp] theorem State.modAout_ticks {s : State} {n d : Nat} {f : Aout → Aout} : (s.modAout n d f).ticks = s.ticks := rfl
@[simp] theorem State.modAout_ident {s : State} {n d : Nat} {f : Aout → Aout} : (s.modAout n d f).ident = s.ident := rfl
@[simp] theorem State.modAout_regs {s : State} {n d : Nat} {f : Aout → Aout} : (s.modAout n d f).regs = s.regs := rfl
@[simp] theorem State.modAout_low64 {s : State} {n d : Nat} {f : Aout → Aout} : (s.modAout n d f).low64 = s.low64 := rfl
@[simp] theorem State.modAout_high64 {s : State} {n d : Nat} {f : Aout → Aout} : (s.modAout n d f).high64 = s.high64 := rfl
@[simp] theorem State.modAout_pins {s : State} {n d : Nat} {f : Aout → Aout} : (s.modAout n d f).pins = s.pins := rfl
@[simp] theorem State.modAout_host {s : State} {n d : Nat} {f : Aout → Aout} : (s.modAout n d f).host = s.host := rfl
@[simp] theorem State.modAout_fns {s : State} {n d : Nat} {f : Aout → Aout} : (s.modAout n d f).fns = s.fns := rfl
@[simp] theorem State.modAout_rings {s : State} {n d : Nat} {f : Aout → Aout} : (s.modAout n d f).rings = s.rings := rfl
@[simp] theorem State.modAout_evs {s : State} {n d : Nat} {f : Aout → Aout} : (s.modAout n d f).evs = s.evs := rfl
@[simp] theorem State.modAout_points {s : State} {n d : Nat} {f : Aout → Aout} : (s.modAout n d f).points = s.points := rfl
@[simp] theorem State.modAout_ws {s : State} {n d : Nat} {f : Aout → Aout} : (s.modAout n d f).ws = s.ws := rfl
@[simp] theorem State.modAout_txns {s : State} {n d : Nat} {f : Aout → Aout} : (s.modAout n d f).txns = s.txns := rfl
@[simp] theorem State.modAout_nextTxn {s : State} {n d : Nat} {f : Aout → Aout} : (s.modAout n d f).nextTxn = s.nextTxn := rfl
@[simp] theorem State.modAout_lastTxn {s : State} {n d : Nat} {f : Aout → Aout} : (s.modAout n d f).lastTxn = s.lastTxn := rfl
@[simp] theorem State.modAout_time {s : State} {n d : Nat} {f : Aout → Aout} : (s.modAout n d f).time = s.time := rfl
@[simp] theorem State.modAout_hlist {s : State} {n d : Nat} {f : Aout → Aout} : (s.modAout n d f).hlist = s.hlist := rfl
@[simp] theorem State.modAout_actions {s : State} {n d : Nat} {f : Aout → Aout} : (s.modAout n d f).actions = s.actions := rfl
@[simp] theorem State.modAout_fired {s : State} {n d : Nat} {f : Aout → Aout} : (s.modAout n d f).fired = s.fired := rfl
@[simp] theorem State.modAout_tsqs {s : State} {n d : Nat} {f : Aout → Aout} : (s.modAout n d f).tsqs = s.tsqs := rfl
@[simp] theorem State.modAout_nets {s : State} {n d : Nat} {f : Aout → Aout} : (s.modAout n d f).nets = s.nets := rfl
@[simp] theorem State.modAout_pair {s : State} {n d : Nat} {f : Aout → Aout} : (s.modAout n d f).pair = s.pair := rfl
@[simp] theorem State.modAout_pwr {s : State} {n d : Nat} {f : Aout → Aout} : (s.modAout n d f).pwr = s.pwr := rfl
@[simp] theorem State.modAout_bkp {s : State} {n d : Nat} {f : Aout → Aout} : (s.modAout n d f).bkp = s.bkp := rfl
@[simp] theorem State.modAout_vlt {s : State} {n d : Nat} {f : Aout → Aout} : (s.modAout n d f).vlt = s.vlt := rfl
@[simp] theorem State.modAout_lc {s : State} {n d : Nat} {f : Aout → Aout} : (s.modAout n d f).lc = s.lc := rfl
@[simp] theorem State.modAout_upd {s : State} {n d : Nat} {f : Aout → Aout} : (s.modAout n d f).upd = s.upd := rfl
@[simp] theorem State.modAout_frames {s : State} {n d : Nat} {f : Aout → Aout} : (s.modAout n d f).frames = s.frames := rfl
@[simp] theorem State.modAout_serial {s : State} {n d : Nat} {f : Aout → Aout} : (s.modAout n d f).serial = s.serial := rfl
@[simp] theorem State.modAout_usb {s : State} {n d : Nat} {f : Aout → Aout} : (s.modAout n d f).usb = s.usb := rfl
@[simp] theorem State.modAout_vbus {s : State} {n d : Nat} {f : Aout → Aout} : (s.modAout n d f).vbus = s.vbus := rfl

@[simp] theorem State.modAin_pending {s : State} {n d : Nat} {f : Ain → Ain} : (s.modAin n d f).pending = s.pending := rfl
@[simp] theorem State.modAin_out {s : State} {n d : Nat} {f : Ain → Ain} : (s.modAin n d f).out = s.out := rfl
@[simp] theorem State.modAin_free {s : State} {n d : Nat} {f : Ain → Ain} : (s.modAin n d f).free = s.free := rfl
@[simp] theorem State.modAin_ticks {s : State} {n d : Nat} {f : Ain → Ain} : (s.modAin n d f).ticks = s.ticks := rfl
@[simp] theorem State.modAin_ident {s : State} {n d : Nat} {f : Ain → Ain} : (s.modAin n d f).ident = s.ident := rfl
@[simp] theorem State.modAin_regs {s : State} {n d : Nat} {f : Ain → Ain} : (s.modAin n d f).regs = s.regs := rfl
@[simp] theorem State.modAin_low64 {s : State} {n d : Nat} {f : Ain → Ain} : (s.modAin n d f).low64 = s.low64 := rfl
@[simp] theorem State.modAin_high64 {s : State} {n d : Nat} {f : Ain → Ain} : (s.modAin n d f).high64 = s.high64 := rfl
@[simp] theorem State.modAin_pins {s : State} {n d : Nat} {f : Ain → Ain} : (s.modAin n d f).pins = s.pins := rfl
@[simp] theorem State.modAin_host {s : State} {n d : Nat} {f : Ain → Ain} : (s.modAin n d f).host = s.host := rfl
@[simp] theorem State.modAin_fns {s : State} {n d : Nat} {f : Ain → Ain} : (s.modAin n d f).fns = s.fns := rfl
@[simp] theorem State.modAin_rings {s : State} {n d : Nat} {f : Ain → Ain} : (s.modAin n d f).rings = s.rings := rfl
@[simp] theorem State.modAin_evs {s : State} {n d : Nat} {f : Ain → Ain} : (s.modAin n d f).evs = s.evs := rfl
@[simp] theorem State.modAin_points {s : State} {n d : Nat} {f : Ain → Ain} : (s.modAin n d f).points = s.points := rfl
@[simp] theorem State.modAin_ws {s : State} {n d : Nat} {f : Ain → Ain} : (s.modAin n d f).ws = s.ws := rfl
@[simp] theorem State.modAin_txns {s : State} {n d : Nat} {f : Ain → Ain} : (s.modAin n d f).txns = s.txns := rfl
@[simp] theorem State.modAin_nextTxn {s : State} {n d : Nat} {f : Ain → Ain} : (s.modAin n d f).nextTxn = s.nextTxn := rfl
@[simp] theorem State.modAin_lastTxn {s : State} {n d : Nat} {f : Ain → Ain} : (s.modAin n d f).lastTxn = s.lastTxn := rfl
@[simp] theorem State.modAin_time {s : State} {n d : Nat} {f : Ain → Ain} : (s.modAin n d f).time = s.time := rfl
@[simp] theorem State.modAin_hlist {s : State} {n d : Nat} {f : Ain → Ain} : (s.modAin n d f).hlist = s.hlist := rfl
@[simp] theorem State.modAin_actions {s : State} {n d : Nat} {f : Ain → Ain} : (s.modAin n d f).actions = s.actions := rfl
@[simp] theorem State.modAin_fired {s : State} {n d : Nat} {f : Ain → Ain} : (s.modAin n d f).fired = s.fired := rfl
@[simp] theorem State.modAin_tsqs {s : State} {n d : Nat} {f : Ain → Ain} : (s.modAin n d f).tsqs = s.tsqs := rfl
@[simp] theorem State.modAin_nets {s : State} {n d : Nat} {f : Ain → Ain} : (s.modAin n d f).nets = s.nets := rfl
@[simp] theorem State.modAin_pair {s : State} {n d : Nat} {f : Ain → Ain} : (s.modAin n d f).pair = s.pair := rfl
@[simp] theorem State.modAin_pwr {s : State} {n d : Nat} {f : Ain → Ain} : (s.modAin n d f).pwr = s.pwr := rfl
@[simp] theorem State.modAin_bkp {s : State} {n d : Nat} {f : Ain → Ain} : (s.modAin n d f).bkp = s.bkp := rfl
@[simp] theorem State.modAin_vlt {s : State} {n d : Nat} {f : Ain → Ain} : (s.modAin n d f).vlt = s.vlt := rfl
@[simp] theorem State.modAin_lc {s : State} {n d : Nat} {f : Ain → Ain} : (s.modAin n d f).lc = s.lc := rfl
@[simp] theorem State.modAin_upd {s : State} {n d : Nat} {f : Ain → Ain} : (s.modAin n d f).upd = s.upd := rfl
@[simp] theorem State.modAin_frames {s : State} {n d : Nat} {f : Ain → Ain} : (s.modAin n d f).frames = s.frames := rfl
@[simp] theorem State.modAin_serial {s : State} {n d : Nat} {f : Ain → Ain} : (s.modAin n d f).serial = s.serial := rfl
@[simp] theorem State.modAin_usb {s : State} {n d : Nat} {f : Ain → Ain} : (s.modAin n d f).usb = s.usb := rfl
@[simp] theorem State.modAin_vbus {s : State} {n d : Nat} {f : Ain → Ain} : (s.modAin n d f).vbus = s.vbus := rfl

@[simp] theorem State.modSlot_pending {s : State} {n d : Nat} {f : LoopRt → LoopRt} : (s.modSlot n d f).pending = s.pending := rfl
@[simp] theorem State.modSlot_out {s : State} {n d : Nat} {f : LoopRt → LoopRt} : (s.modSlot n d f).out = s.out := rfl
@[simp] theorem State.modSlot_free {s : State} {n d : Nat} {f : LoopRt → LoopRt} : (s.modSlot n d f).free = s.free := rfl
@[simp] theorem State.modSlot_ticks {s : State} {n d : Nat} {f : LoopRt → LoopRt} : (s.modSlot n d f).ticks = s.ticks := rfl
@[simp] theorem State.modSlot_ident {s : State} {n d : Nat} {f : LoopRt → LoopRt} : (s.modSlot n d f).ident = s.ident := rfl
@[simp] theorem State.modSlot_regs {s : State} {n d : Nat} {f : LoopRt → LoopRt} : (s.modSlot n d f).regs = s.regs := rfl
@[simp] theorem State.modSlot_low64 {s : State} {n d : Nat} {f : LoopRt → LoopRt} : (s.modSlot n d f).low64 = s.low64 := rfl
@[simp] theorem State.modSlot_high64 {s : State} {n d : Nat} {f : LoopRt → LoopRt} : (s.modSlot n d f).high64 = s.high64 := rfl
@[simp] theorem State.modSlot_pins {s : State} {n d : Nat} {f : LoopRt → LoopRt} : (s.modSlot n d f).pins = s.pins := rfl
@[simp] theorem State.modSlot_host {s : State} {n d : Nat} {f : LoopRt → LoopRt} : (s.modSlot n d f).host = s.host := rfl
@[simp] theorem State.modSlot_fns {s : State} {n d : Nat} {f : LoopRt → LoopRt} : (s.modSlot n d f).fns = s.fns := rfl
@[simp] theorem State.modSlot_rings {s : State} {n d : Nat} {f : LoopRt → LoopRt} : (s.modSlot n d f).rings = s.rings := rfl
@[simp] theorem State.modSlot_evs {s : State} {n d : Nat} {f : LoopRt → LoopRt} : (s.modSlot n d f).evs = s.evs := rfl
@[simp] theorem State.modSlot_points {s : State} {n d : Nat} {f : LoopRt → LoopRt} : (s.modSlot n d f).points = s.points := rfl
@[simp] theorem State.modSlot_ws {s : State} {n d : Nat} {f : LoopRt → LoopRt} : (s.modSlot n d f).ws = s.ws := rfl
@[simp] theorem State.modSlot_txns {s : State} {n d : Nat} {f : LoopRt → LoopRt} : (s.modSlot n d f).txns = s.txns := rfl
@[simp] theorem State.modSlot_nextTxn {s : State} {n d : Nat} {f : LoopRt → LoopRt} : (s.modSlot n d f).nextTxn = s.nextTxn := rfl
@[simp] theorem State.modSlot_lastTxn {s : State} {n d : Nat} {f : LoopRt → LoopRt} : (s.modSlot n d f).lastTxn = s.lastTxn := rfl
@[simp] theorem State.modSlot_time {s : State} {n d : Nat} {f : LoopRt → LoopRt} : (s.modSlot n d f).time = s.time := rfl
@[simp] theorem State.modSlot_hlist {s : State} {n d : Nat} {f : LoopRt → LoopRt} : (s.modSlot n d f).hlist = s.hlist := rfl
@[simp] theorem State.modSlot_actions {s : State} {n d : Nat} {f : LoopRt → LoopRt} : (s.modSlot n d f).actions = s.actions := rfl
@[simp] theorem State.modSlot_fired {s : State} {n d : Nat} {f : LoopRt → LoopRt} : (s.modSlot n d f).fired = s.fired := rfl
@[simp] theorem State.modSlot_tsqs {s : State} {n d : Nat} {f : LoopRt → LoopRt} : (s.modSlot n d f).tsqs = s.tsqs := rfl
@[simp] theorem State.modSlot_nets {s : State} {n d : Nat} {f : LoopRt → LoopRt} : (s.modSlot n d f).nets = s.nets := rfl
@[simp] theorem State.modSlot_pair {s : State} {n d : Nat} {f : LoopRt → LoopRt} : (s.modSlot n d f).pair = s.pair := rfl
@[simp] theorem State.modSlot_pwr {s : State} {n d : Nat} {f : LoopRt → LoopRt} : (s.modSlot n d f).pwr = s.pwr := rfl
@[simp] theorem State.modSlot_bkp {s : State} {n d : Nat} {f : LoopRt → LoopRt} : (s.modSlot n d f).bkp = s.bkp := rfl
@[simp] theorem State.modSlot_vlt {s : State} {n d : Nat} {f : LoopRt → LoopRt} : (s.modSlot n d f).vlt = s.vlt := rfl
@[simp] theorem State.modSlot_lc {s : State} {n d : Nat} {f : LoopRt → LoopRt} : (s.modSlot n d f).lc = s.lc := rfl
@[simp] theorem State.modSlot_upd {s : State} {n d : Nat} {f : LoopRt → LoopRt} : (s.modSlot n d f).upd = s.upd := rfl
@[simp] theorem State.modSlot_frames {s : State} {n d : Nat} {f : LoopRt → LoopRt} : (s.modSlot n d f).frames = s.frames := rfl
@[simp] theorem State.modSlot_serial {s : State} {n d : Nat} {f : LoopRt → LoopRt} : (s.modSlot n d f).serial = s.serial := rfl
@[simp] theorem State.modSlot_usb {s : State} {n d : Nat} {f : LoopRt → LoopRt} : (s.modSlot n d f).usb = s.usb := rfl
@[simp] theorem State.modSlot_vbus {s : State} {n d : Nat} {f : LoopRt → LoopRt} : (s.modSlot n d f).vbus = s.vbus := rfl

@[simp] theorem State.modTime_time {s : State} {f : HubTime → HubTime} : (s.modTime f).time = f s.time := rfl
@[simp] theorem State.modWs_ws {s : State} {f : Watershed → Watershed} : (s.modWs f).ws = f s.ws := rfl
@[simp] theorem State.modPair_pair {s : State} {f : Pair → Pair} : (s.modPair f).pair = f s.pair := rfl
@[simp] theorem State.modPwr_pwr {s : State} {f : Power → Power} : (s.modPwr f).pwr = f s.pwr := rfl
@[simp] theorem State.modBkp_bkp {s : State} {f : Backup → Backup} : (s.modBkp f).bkp = f s.bkp := rfl
@[simp] theorem State.modVlt_vlt {s : State} {f : Vault → Vault} : (s.modVlt f).vlt = f s.vlt := rfl
@[simp] theorem State.modUpd_upd {s : State} {f : Upd → Upd} : (s.modUpd f).upd = f s.upd := rfl
@[simp] theorem State.emit_out {s : State} {e : Emission} : (s.emit e).out = s.out ++ [e] := rfl
@[simp] theorem State.tick1_free {s : State} : s.tick1.free = s.free + 1 := rfl

@[simp] theorem State.setReg_pending {s : State} {k : Nat} {w : Word} : (s.setReg k w).pending = s.pending := by
  unfold State.setReg; split <;> rfl
@[simp] theorem State.setReg_out {s : State} {k : Nat} {w : Word} : (s.setReg k w).out = s.out := by
  unfold State.setReg; split <;> rfl
@[simp] theorem State.setReg_free {s : State} {k : Nat} {w : Word} : (s.setReg k w).free = s.free := by
  unfold State.setReg; split <;> rfl
@[simp] theorem State.setReg_ticks {s : State} {k : Nat} {w : Word} : (s.setReg k w).ticks = s.ticks := by
  unfold State.setReg; split <;> rfl
@[simp] theorem State.setReg_ident {s : State} {k : Nat} {w : Word} : (s.setReg k w).ident = s.ident := by
  unfold State.setReg; split <;> rfl
@[simp] theorem State.setReg_low64 {s : State} {k : Nat} {w : Word} : (s.setReg k w).low64 = s.low64 := by
  unfold State.setReg; split <;> rfl
@[simp] theorem State.setReg_high64 {s : State} {k : Nat} {w : Word} : (s.setReg k w).high64 = s.high64 := by
  unfold State.setReg; split <;> rfl
@[simp] theorem State.setReg_pins {s : State} {k : Nat} {w : Word} : (s.setReg k w).pins = s.pins := by
  unfold State.setReg; split <;> rfl
@[simp] theorem State.setReg_host {s : State} {k : Nat} {w : Word} : (s.setReg k w).host = s.host := by
  unfold State.setReg; split <;> rfl
@[simp] theorem State.setReg_fns {s : State} {k : Nat} {w : Word} : (s.setReg k w).fns = s.fns := by
  unfold State.setReg; split <;> rfl
@[simp] theorem State.setReg_rings {s : State} {k : Nat} {w : Word} : (s.setReg k w).rings = s.rings := by
  unfold State.setReg; split <;> rfl
@[simp] theorem State.setReg_evs {s : State} {k : Nat} {w : Word} : (s.setReg k w).evs = s.evs := by
  unfold State.setReg; split <;> rfl
@[simp] theorem State.setReg_points {s : State} {k : Nat} {w : Word} : (s.setReg k w).points = s.points := by
  unfold State.setReg; split <;> rfl
@[simp] theorem State.setReg_ws {s : State} {k : Nat} {w : Word} : (s.setReg k w).ws = s.ws := by
  unfold State.setReg; split <;> rfl
@[simp] theorem State.setReg_txns {s : State} {k : Nat} {w : Word} : (s.setReg k w).txns = s.txns := by
  unfold State.setReg; split <;> rfl
@[simp] theorem State.setReg_nextTxn {s : State} {k : Nat} {w : Word} : (s.setReg k w).nextTxn = s.nextTxn := by
  unfold State.setReg; split <;> rfl
@[simp] theorem State.setReg_lastTxn {s : State} {k : Nat} {w : Word} : (s.setReg k w).lastTxn = s.lastTxn := by
  unfold State.setReg; split <;> rfl
@[simp] theorem State.setReg_time {s : State} {k : Nat} {w : Word} : (s.setReg k w).time = s.time := by
  unfold State.setReg; split <;> rfl
@[simp] theorem State.setReg_hlist {s : State} {k : Nat} {w : Word} : (s.setReg k w).hlist = s.hlist := by
  unfold State.setReg; split <;> rfl
@[simp] theorem State.setReg_actions {s : State} {k : Nat} {w : Word} : (s.setReg k w).actions = s.actions := by
  unfold State.setReg; split <;> rfl
@[simp] theorem State.setReg_fired {s : State} {k : Nat} {w : Word} : (s.setReg k w).fired = s.fired := by
  unfold State.setReg; split <;> rfl
@[simp] theorem State.setReg_tsqs {s : State} {k : Nat} {w : Word} : (s.setReg k w).tsqs = s.tsqs := by
  unfold State.setReg; split <;> rfl
@[simp] theorem State.setReg_chs {s : State} {k : Nat} {w : Word} : (s.setReg k w).chs = s.chs := by
  unfold State.setReg; split <;> rfl
@[simp] theorem State.setReg_nets {s : State} {k : Nat} {w : Word} : (s.setReg k w).nets = s.nets := by
  unfold State.setReg; split <;> rfl
@[simp] theorem State.setReg_pair {s : State} {k : Nat} {w : Word} : (s.setReg k w).pair = s.pair := by
  unfold State.setReg; split <;> rfl
@[simp] theorem State.setReg_pwr {s : State} {k : Nat} {w : Word} : (s.setReg k w).pwr = s.pwr := by
  unfold State.setReg; split <;> rfl
@[simp] theorem State.setReg_bkp {s : State} {k : Nat} {w : Word} : (s.setReg k w).bkp = s.bkp := by
  unfold State.setReg; split <;> rfl
@[simp] theorem State.setReg_vlt {s : State} {k : Nat} {w : Word} : (s.setReg k w).vlt = s.vlt := by
  unfold State.setReg; split <;> rfl
@[simp] theorem State.setReg_lc {s : State} {k : Nat} {w : Word} : (s.setReg k w).lc = s.lc := by
  unfold State.setReg; split <;> rfl
@[simp] theorem State.setReg_upd {s : State} {k : Nat} {w : Word} : (s.setReg k w).upd = s.upd := by
  unfold State.setReg; split <;> rfl
@[simp] theorem State.setReg_frames {s : State} {k : Nat} {w : Word} : (s.setReg k w).frames = s.frames := by
  unfold State.setReg; split <;> rfl
@[simp] theorem State.setReg_serial {s : State} {k : Nat} {w : Word} : (s.setReg k w).serial = s.serial := by
  unfold State.setReg; split <;> rfl
@[simp] theorem State.setReg_usb {s : State} {k : Nat} {w : Word} : (s.setReg k w).usb = s.usb := by
  unfold State.setReg; split <;> rfl
@[simp] theorem State.setReg_vbus {s : State} {k : Nat} {w : Word} : (s.setReg k w).vbus = s.vbus := by
  unfold State.setReg; split <;> rfl

/-- What each step of a fold leaves, the fold leaves. -/
theorem State.foldl_same {α β : Type} (F : State → β) {f : State → α → State} (hf : ∀ s a, F (f s a) = F s) :
    ∀ {l : List α} {s : State}, F (l.foldl f s) = F s
  | [], _ => rfl
  | a :: l, s => (State.foldl_same F hf (l := l)).trans (hf s a)

/-- Reading what the store lists. -/
theorem amGet_cons {α : Type} {p : Nat × α} {m : AMap α} {k : Nat} :
    amGet (p :: m) k = if p.1 = k then some p.2 else amGet m k := by
  unfold amGet
  by_cases h : p.1 = k <;> simp [h]

/-- A set key reads as set. -/
@[simp] theorem amGet_amSet_self {α : Type} {k : Nat} {v : α} : ∀ {m : AMap α}, amGet (amSet m k v) k = some v
  | [] => by simp [amSet, amGet_cons]
  | p :: t => by
    unfold amSet
    split
    · simp [amGet_cons]
    · split
      · simp [amGet_cons]
      · rename_i h1 h2
        rw [amGet_cons, if_neg (fun h => h2 h.symm), amGet_amSet_self]

/-- Another key reads as before. -/
theorem amGet_amSet_ne {α : Type} {k j : Nat} {v : α} (hj : j ≠ k) :
    ∀ {m : AMap α}, amGet (amSet m k v) j = amGet m j
  | [] => by simp [amSet, amGet, Ne.symm hj]
  | p :: t => by
    unfold amSet
    split
    · rw [amGet_cons, if_neg (Ne.symm hj)]
    · split
      · rename_i h1 h2
        rw [amGet_cons, amGet_cons, if_neg (Ne.symm hj), if_neg (fun h => hj (h.symm.trans h2.symm))]
      · rw [amGet_cons, amGet_cons, amGet_amSet_ne hj]

/-- A removed key reads as unlisted. -/
@[simp] theorem amGet_amDel_self {α : Type} {k : Nat} {m : AMap α} : amGet (amDel m k) k = none := by
  unfold amGet amDel
  rw [Option.map_eq_none_iff, List.find?_eq_none]
  intro p hp
  have := (List.mem_filter.mp hp).2
  simpa using this

/-- Another key reads as before. -/
theorem amGet_amDel_ne {α : Type} {k j : Nat} (hj : j ≠ k) : ∀ {m : AMap α}, amGet (amDel m k) j = amGet m j
  | [] => rfl
  | p :: t => by
    have ih := amGet_amDel_ne hj (m := t)
    unfold amDel at ih ⊢
    rw [List.filter_cons]
    split
    · rw [amGet_cons, amGet_cons, ih]
    · rename_i h
      have hp : p.1 = k := by simpa using h
      rw [amGet_cons, if_neg (fun e => hj (e.symm.trans hp)), ih]

/-- Changing the value at a key. -/
@[simp] theorem amGet_amMod_self {α : Type} {k : Nat} {f : α → α} :
    ∀ {m : AMap α}, amGet (amMod m k f) k = (amGet m k).map f
  | [] => rfl
  | p :: t => by
    have ih := amGet_amMod_self (k := k) (f := f) (m := t)
    unfold amMod at ih ⊢
    rw [List.map_cons, amGet_cons, amGet_cons, ih]
    by_cases h : p.1 = k <;> simp [h]

/-- Changing the value at a key leaves the others. -/
theorem amGet_amMod_ne {α : Type} {k j : Nat} {f : α → α} (hj : j ≠ k) :
    ∀ {m : AMap α}, amGet (amMod m k f) j = amGet m j
  | [] => rfl
  | p :: t => by
    have ih := amGet_amMod_ne hj (f := f) (m := t)
    unfold amMod at ih ⊢
    rw [List.map_cons, amGet_cons, amGet_cons, ih]
    by_cases h : p.1 = k
    · simp [h, Ne.symm hj]
    · simp [h]

/-- A register reads as it was stored. -/
@[simp] theorem State.reg_setReg_self {s : State} {k : Nat} {w : Word} : (s.setReg k w).reg k = w := by
  by_cases h : w = regReset (k % 0x1000000)
  · simp [State.reg, State.setReg, ← h]
  · simp [State.reg, State.setReg, h]

/-- Storing a register leaves the others. -/
theorem State.reg_setReg_ne {s : State} {k j : Nat} {w : Word} (hj : j ≠ k) : (s.setReg k w).reg j = s.reg j := by
  by_cases h : w = regReset (k % 0x1000000)
  · simp [State.reg, State.setReg, ← h, amGet_amDel_ne hj]
  · simp [State.reg, State.setReg, h, amGet_amSet_ne hj]

/-- A register reads the same where the store is the same. -/
theorem State.reg_congr {s t : State} (h : t.regs = s.regs) (k : Nat) : t.reg k = s.reg k := by
  unfold State.reg; rw [h]

/-- The eight channels. -/
theorem State.chs_length {s : State} (h : s.shaped = true) : s.chs.length = 8 := by
  simp only [State.shaped, Bool.and_eq_true, beq_iff_eq] at h; exact h.1.1.2

/-- The 64 functions. -/
theorem State.fns_length {s : State} (h : s.shaped = true) : s.fns.length = 64 := by
  simp only [State.shaped, Bool.and_eq_true, beq_iff_eq] at h; exact h.1.1.1

/-- The two backbone ports. -/
theorem State.nets_length {s : State} (h : s.shaped = true) : s.nets.length = 2 := by
  simp only [State.shaped, Bool.and_eq_true, beq_iff_eq] at h; exact h.2

/-- A changed channel reads as changed. -/
theorem State.modCh_ch_self {s : State} {n : Nat} {f : Chan → Chan} (h : n < s.chs.length) :
    (s.modCh n f).ch n = f (s.ch n) := by
  simp [State.modCh, State.ch, List.getD_eq_getElem?_getD, h]

/-- The other channels read as before. -/
theorem State.modCh_ch_ne {s : State} {n m : Nat} {f : Chan → Chan} (h : m ≠ n) : (s.modCh n f).ch m = s.ch m := by
  simp [State.modCh, State.ch, List.getD_eq_getElem?_getD, List.getElem?_modify, Ne.symm h]

/-- The channel as it is, or as it was changed. -/
theorem State.modCh_ch {s : State} {n m : Nat} {f : Chan → Chan} (h : n < s.chs.length) :
    (s.modCh n f).ch m = if m = n then f (s.ch n) else s.ch m := by
  split
  · rename_i e; rw [e, State.modCh_ch_self h]
  · rename_i e; exact State.modCh_ch_ne e

/-- A changed function reads as changed. -/
theorem State.modFn_fn_self {s : State} {n : Nat} {f : Fn → Fn} (h : n < s.fns.length) :
    (s.modFn n f).fn n = f (s.fn n) := by
  simp [State.modFn, State.fn, List.getD_eq_getElem?_getD, h]

/-- The other functions read as before. -/
theorem State.modFn_fn_ne {s : State} {n m : Nat} {f : Fn → Fn} (h : m ≠ n) : (s.modFn n f).fn m = s.fn m := by
  simp [State.modFn, State.fn, List.getD_eq_getElem?_getD, List.getElem?_modify, Ne.symm h]

/-- A changed port reads as changed. -/
theorem State.modNet_net_self {s : State} {n : Nat} {f : NetPort → NetPort} (h : n < s.nets.length) :
    (s.modNet n f).net n = f (s.net n) := by
  simp [State.modNet, State.net, List.getD_eq_getElem?_getD, h]

/-- A changed ring reads as changed. -/
@[simp] theorem State.modRing_ring_self {s : State} {k : Nat} {f : Ring → Ring} :
    (s.modRing k f).ring k = f (s.ring k) := by
  simp [State.modRing, State.ring]

/-- A changed event ring reads as changed. -/
@[simp] theorem State.modEv_ev_self {s : State} {b : Nat} {f : EvRing → EvRing} : (s.modEv b f).ev b = f (s.ev b) := by
  simp [State.modEv, State.ev]

/-- A changed transaction context reads as changed. -/
@[simp] theorem State.modTxn_txn_self {s : State} {c : Nat} {f : Txn → Txn} : (s.modTxn c f).txn c = f (s.txn c) := by
  simp [State.modTxn, State.txn]

/-- A changed point reads as changed. -/
theorem State.modPt_get {s : State} {h : Nat} {f : Point → Point} :
    amGet (s.modPt h f).points h = (amGet s.points h).map f := amGet_amMod_self

end Sys2Proof.Machine
end

