-- ==== Sys2Proof/Laws/Frames.lean ====
section
/-! SUPPORT. What the shared operations can change at most. Four views of the state, each with the operations that leave
it alone: all but the event rings and interrupts (`quiet`), all but what the host port and the partner see (`core`),
all but that and the channels' and ports' own work (`unit`), and the channels but for their queues to and from the hub
(`bodies`); then the same field by field, for the operations the meanings share most. -/

namespace Sys2Proof.Machine
/-- The state but for its event rings, interrupts and what it has put out. -/
abbrev State.quiet (s : State) : State := { s with out := [], fns := [], evs := [] }
theorem State.quiet_ite {c : Prop} [Decidable c] {a b r : State} (ha : a.quiet = r) (hb : b.quiet = r) :
    (if c then a else b).quiet = r := by split <;> assumption
theorem State.quiet_foldl {α : Type} {f : State → α → State} {r : State} (hf : ∀ s a, (f s a).quiet = s.quiet) :
    ∀ {l : List α} {s : State}, s.quiet = r → (l.foldl f s).quiet = r
  | [], _, h => h
  | a :: l, s, h => State.quiet_foldl hf (l := l) ((hf s a).trans h)
theorem State.emit_quiet {s : State} {e : Emission} : (s.emit e).quiet = s.quiet := rfl
theorem State.modFn_quiet {s : State} {b : Nat} {f : Fn → Fn} : (s.modFn b f).quiet = s.quiet := rfl
theorem State.modEv_quiet {s : State} {b : Nat} {f : EvRing → EvRing} : (s.modEv b f).quiet = s.quiet := rfl
/-- The state but for what the host port, the rings and the partner link show. -/
abbrev State.core (s : State) : State :=
  { s with out := [], fns := [], evs := [], rings := [], host := HostPort.reset, pair := Pair.reset,
           pwr := Power.reset }
theorem State.core_ite {c : Prop} [Decidable c] {a b r : State} (ha : a.core = r) (hb : b.core = r) :
    (if c then a else b).core = r := by split <;> assumption
theorem State.core_foldl {α : Type} {f : State → α → State} {r : State} (hf : ∀ s a, (f s a).core = s.core) :
    ∀ {l : List α} {s : State}, s.core = r → (l.foldl f s).core = r
  | [], _, h => h
  | a :: l, s, h => State.core_foldl hf (l := l) ((hf s a).trans h)
theorem State.emit_core {s : State} {e : Emission} : (s.emit e).core = s.core := rfl
theorem State.modFn_core {s : State} {b : Nat} {f : Fn → Fn} : (s.modFn b f).core = s.core := rfl
theorem State.modEv_core {s : State} {b : Nat} {f : EvRing → EvRing} : (s.modEv b f).core = s.core := rfl
theorem State.modRing_core {s : State} {b : Nat} {f : Ring → Ring} : (s.modRing b f).core = s.core := rfl
theorem State.modPair_core {s : State} {f : Pair → Pair} : (s.modPair f).core = s.core := rfl
/-- The state but for that and what channels, points, ports and tables hold. -/
abbrev State.unit (s : State) : State :=
  { s with out := [], fns := [], evs := [], rings := [], host := HostPort.reset, pair := Pair.reset, pwr := Power.reset, chs := [],
           points := [], tsqs := [], hlist := Table.reset, serial := 0, frames := 0, nets := [] }
theorem State.unit_ite {c : Prop} [Decidable c] {a b r : State} (ha : a.unit = r) (hb : b.unit = r) :
    (if c then a else b).unit = r := by split <;> assumption
theorem State.unit_foldl {α : Type} {f : State → α → State} {r : State} (hf : ∀ s a, (f s a).unit = s.unit) :
    ∀ {l : List α} {s : State}, s.unit = r → (l.foldl f s).unit = r
  | [], _, h => h
  | a :: l, s, h => State.unit_foldl hf (l := l) ((hf s a).trans h)
theorem State.emit_unit {s : State} {e : Emission} : (s.emit e).unit = s.unit := rfl
theorem State.modFn_unit {s : State} {b : Nat} {f : Fn → Fn} : (s.modFn b f).unit = s.unit := rfl
theorem State.modEv_unit {s : State} {b : Nat} {f : EvRing → EvRing} : (s.modEv b f).unit = s.unit := rfl
theorem State.modRing_unit {s : State} {b : Nat} {f : Ring → Ring} : (s.modRing b f).unit = s.unit := rfl
theorem State.modPair_unit {s : State} {f : Pair → Pair} : (s.modPair f).unit = s.unit := rfl
theorem State.modCh_unit {s : State} {n : Nat} {f : Chan → Chan} : (s.modCh n f).unit = s.unit := rfl
theorem State.modNet_unit {s : State} {n : Nat} {f : NetPort → NetPort} : (s.modNet n f).unit = s.unit := rfl
theorem State.modPt_unit {s : State} {n : Nat} {f : Point → Point} : (s.modPt n f).unit = s.unit := rfl
theorem State.modPwr_core {s : State} {f : Power → Power} : (s.modPwr f).core = s.core := rfl
theorem State.modPwr_unit {s : State} {f : Power → Power} : (s.modPwr f).unit = s.unit := rfl
/-- A channel but for its queues to and from the hub. -/
abbrev Chan.body (c : Chan) : Chan :=
  { c with egress := [], ingress := [], reports := [], heldRecs := [] }
/-- The channels but for those queues. -/
abbrev State.bodies (s : State) : List Chan := s.chs.map Chan.body
theorem State.bodies_ite {c : Prop} [Decidable c] {a b : State} {r : List Chan} (ha : a.bodies = r) (hb : b.bodies = r) :
    (if c then a else b).bodies = r := by split <;> assumption
theorem State.bodies_foldl {α : Type} {f : State → α → State} {r : List Chan}
    (hf : ∀ s a, (f s a).bodies = s.bodies) : ∀ {l : List α} {s : State}, s.bodies = r → (l.foldl f s).bodies = r
  | [], _, h => h
  | a :: l, s, h => State.bodies_foldl hf (l := l) ((hf s a).trans h)
theorem State.modCh_bodies {s : State} {n : Nat} {f : Chan → Chan} (hf : ∀ c, (f c).body = c.body) :
    (s.modCh n f).bodies = s.bodies := by
  unfold State.bodies State.modCh
  apply List.ext_getElem?
  intro i
  simp only [List.getElem?_map, List.getElem?_modify]
  cases s.chs[i]? with
  | none => rfl
  | some c => simp only [Option.map_some]; split <;> simp [hf]
theorem State.emit_bodies {s : State} {e : Emission} : (s.emit e).bodies = s.bodies := rfl
theorem State.modFn_bodies {s : State} {b : Nat} {f : Fn → Fn} : (s.modFn b f).bodies = s.bodies := rfl
theorem State.modEv_bodies {s : State} {b : Nat} {f : EvRing → EvRing} : (s.modEv b f).bodies = s.bodies := rfl
theorem State.modRing_bodies {s : State} {b : Nat} {f : Ring → Ring} : (s.modRing b f).bodies = s.bodies := rfl
theorem State.modPair_bodies {s : State} {f : Pair → Pair} : (s.modPair f).bodies = s.bodies := rfl
theorem State.modNet_bodies {s : State} {n : Nat} {f : NetPort → NetPort} : (s.modNet n f).bodies = s.bodies := rfl
theorem State.modPt_bodies {s : State} {n : Nat} {f : Point → Point} : (s.modPt n f).bodies = s.bodies := rfl
theorem State.modPwr_bodies {s : State} {f : Power → Power} : (s.modPwr f).bodies = s.bodies := rfl
theorem State.modTime_bodies {s : State} {f : HubTime → HubTime} : (s.modTime f).bodies = s.bodies := rfl
theorem State.modWs_bodies {s : State} {f : Watershed → Watershed} : (s.modWs f).bodies = s.bodies := rfl
theorem State.modTxn_bodies {s : State} {c : Nat} {f : Txn → Txn} : (s.modTxn c f).bodies = s.bodies := rfl
theorem State.modBkp_bodies {s : State} {f : Backup → Backup} : (s.modBkp f).bodies = s.bodies := rfl
theorem State.modVlt_bodies {s : State} {f : Vault → Vault} : (s.modVlt f).bodies = s.bodies := rfl
theorem State.modUpd_bodies {s : State} {f : Upd → Upd} : (s.modUpd f).bodies = s.bodies := rfl
theorem State.tick1_bodies {s : State} : s.tick1.bodies = s.bodies := rfl
theorem State.setReg_bodies {s : State} {k : Nat} {w : Word} : (s.setReg k w).bodies = s.bodies := by
  unfold State.setReg; split <;> rfl

/- ### `State.quiet` -/

theorem State.sendVec_quiet {s : State} {b v : Nat} :
    State.quiet (State.sendVec s b v) = State.quiet s := by
  unfold State.sendVec
  with_reducible repeat' first
    | rfl | apply State.quiet_ite | refine State.modFn_quiet.trans ?_ | refine State.emit_quiet.trans ?_ | split

theorem writeEvIdx_quiet {s : State} {b : Nat} :
    State.quiet (writeEvIdx s b) = State.quiet s := by
  unfold writeEvIdx
  with_reducible repeat' first
    | rfl | apply State.quiet_ite | refine State.emit_quiet.trans ?_ | refine State.modEv_quiet.trans ?_ | split

theorem evNotify_quiet {s : State} {b : Nat} {due : Bool} :
    State.quiet (evNotify s b due) = State.quiet s := by
  unfold evNotify
  with_reducible repeat' first
    | rfl | apply State.quiet_ite | refine State.modEv_quiet.trans ?_ | refine State.sendVec_quiet.trans ?_ | split

theorem pumpEv_quiet {b : Nat} : ∀ {q : List EvRec} {s : State}, State.quiet (pumpEv b q s) = State.quiet s
  | [], _ => rfl
  | _ :: q, s => by
    unfold pumpEv
    dsimp only
    split
    · exact (pumpEv_quiet (q := q)).trans (evNotify_quiet.trans (writeEvIdx_quiet.trans (State.modEv_quiet.trans State.emit_quiet)))
    · rfl

theorem State.flushEv_quiet {s : State} {b : Nat} :
    State.quiet (State.flushEv s b) = State.quiet s := by
  unfold State.flushEv
  with_reducible repeat' first
    | rfl | refine pumpEv_quiet.trans ?_

theorem raise_quiet {s : State} {b kind subject : Nat} {payload : List Byte} :
    State.quiet (raise s b kind subject payload) = State.quiet s := by
  unfold raise
  with_reducible repeat' first
    | rfl | apply State.quiet_ite | refine State.modEv_quiet.trans ?_ | refine writeEvIdx_quiet.trans ?_
    | refine State.flushEv_quiet.trans ?_ | split

theorem raiseBoth_quiet {s : State} {kind subject : Nat} {payload : List Byte} :
    State.quiet (raiseBoth s kind subject payload) = State.quiet s := by
  unfold raiseBoth
  with_reducible repeat' first
    | rfl | apply State.quiet_ite | refine raise_quiet.trans ?_ | split

/- ### `State.core` -/

theorem State.sendVec_core {s : State} {b v : Nat} :
    State.core (State.sendVec s b v) = State.core s := by
  unfold State.sendVec
  with_reducible repeat' first
    | rfl | apply State.core_ite | refine State.modFn_core.trans ?_ | refine State.emit_core.trans ?_ | split

theorem State.alert_core {s : State} {i : Nat} :
    State.core (State.alert s i) = State.core s := by
  unfold State.alert
  with_reducible repeat' first
    | rfl | apply State.core_ite | refine State.sendVec_core.trans ?_ | split

theorem writeEvIdx_core {s : State} {b : Nat} :
    State.core (writeEvIdx s b) = State.core s := by
  unfold writeEvIdx
  with_reducible repeat' first
    | rfl | apply State.core_ite | refine State.emit_core.trans ?_ | refine State.modEv_core.trans ?_ | split

theorem evNotify_core {s : State} {b : Nat} {due : Bool} :
    State.core (evNotify s b due) = State.core s := by
  unfold evNotify
  with_reducible repeat' first
    | rfl | apply State.core_ite | refine State.modEv_core.trans ?_ | refine State.sendVec_core.trans ?_ | split

theorem pumpEv_core {b : Nat} : ∀ {q : List EvRec} {s : State}, State.core (pumpEv b q s) = State.core s
  | [], _ => rfl
  | _ :: q, s => by
    unfold pumpEv
    dsimp only
    split
    · exact (pumpEv_core (q := q)).trans (evNotify_core.trans (writeEvIdx_core.trans (State.modEv_core.trans State.emit_core)))
    · rfl

theorem State.flushEv_core {s : State} {b : Nat} :
    State.core (State.flushEv s b) = State.core s := by
  unfold State.flushEv
  with_reducible repeat' first
    | rfl | refine pumpEv_core.trans ?_

theorem raise_core {s : State} {b kind subject : Nat} {payload : List Byte} :
    State.core (raise s b kind subject payload) = State.core s := by
  unfold raise
  with_reducible repeat' first
    | rfl | apply State.core_ite | refine State.modEv_core.trans ?_ | refine writeEvIdx_core.trans ?_
    | refine State.flushEv_core.trans ?_ | split

theorem raiseBoth_core {s : State} {kind subject : Nat} {payload : List Byte} :
    State.core (raiseBoth s kind subject payload) = State.core s := by
  unfold raiseBoth
  with_reducible repeat' first
    | rfl | apply State.core_ite | refine raise_core.trans ?_ | split

theorem State.mirror_core {s : State} {r : MirrorRec} :
    State.core (State.mirror s r) = State.core s := by
  unfold State.mirror
  with_reducible repeat' first
    | rfl | apply State.core_ite | refine State.modPair_core.trans ?_ | refine State.emit_core.trans ?_ | split


theorem writeIdx_core {s : State} {k : Nat} :
    State.core (writeIdx s k) = State.core s := by
  unfold writeIdx
  with_reducible repeat' first
    | rfl | apply State.core_ite | refine State.emit_core.trans ?_ | refine State.modRing_core.trans ?_ | split

theorem ringNotify_core {s : State} {k : Nat} {due : Bool} :
    State.core (ringNotify s k due) = State.core s := by
  unfold ringNotify
  with_reducible repeat' first
    | rfl | apply State.core_ite | refine State.modRing_core.trans ?_ | refine State.sendVec_core.trans ?_ | split

theorem ringItem_core {s : State} {k : Nat} :
    State.core (ringItem s k) = State.core s := by
  unfold ringItem
  with_reducible repeat' first
    | rfl | refine State.modRing_core.trans ?_ | refine writeIdx_core.trans ?_ | refine ringNotify_core.trans ?_

theorem putCompletion_core {s : State} {k : Nat} {c : Completion} :
    State.core (putCompletion s k c) = State.core s := by
  unfold putCompletion
  with_reducible repeat' first
    | rfl | refine State.emit_core.trans ?_ | refine ringItem_core.trans ?_ | refine State.modRing_core.trans ?_

theorem complete_core {s : State} {k : Nat} {c : Completion} :
    State.core (complete s k c) = State.core s := by
  unfold complete
  with_reducible repeat' first
    | rfl | apply State.core_ite | refine State.modRing_core.trans ?_ | refine putCompletion_core.trans ?_ | split

theorem completeAll_core {k idx status ckind : Nat} {tsq late : Bool} {info : Word} :
    ∀ {l : List Slot} {j : Nat} {s : State},
      State.core (completeAll s k idx status ckind tsq late info j l) = State.core s
  | [], _, _ => rfl
  | _ :: l, j, _ => (completeAll_core (l := l) (j := j + 1)).trans complete_core

theorem finish_core {s : State} {k id status : Nat} {tsq late : Bool} {info : Word} :
    State.core (finish s k id status tsq late info) = State.core s := by
  unfold finish
  with_reducible repeat' first
    | rfl | apply State.core_ite | refine completeAll_core.trans ?_ | refine State.modRing_core.trans ?_ | split

theorem putHeld_core {s : State} {k : Nat} {h : HeldWrite} :
    State.core (putHeld s k h) = State.core s := by
  unfold putHeld
  with_reducible repeat' first
    | rfl | apply State.core_ite | refine putCompletion_core.trans ?_ | refine State.emit_core.trans ?_
    | refine State.modRing_core.trans ?_ | refine ringItem_core.trans ?_ | refine writeIdx_core.trans ?_ | split

theorem flushRing_core {s : State} {k : Nat} :
    State.core (flushRing s k) = State.core s := by
  unfold flushRing
  with_reducible repeat' first
    | rfl | intro _ | apply State.core_ite | apply State.core_foldl | refine putHeld_core.trans ?_
    | refine State.modRing_core.trans ?_ | split

theorem putSlot_core {s : State} {k idx : Nat} {bytes : List Byte} {last : Bool} :
    State.core (putSlot s k idx bytes last) = State.core s := by
  unfold putSlot
  with_reducible repeat' first
    | rfl | apply State.core_ite | refine putHeld_core.trans ?_ | refine State.modRing_core.trans ?_ | split

theorem putSlots_core {k : Nat} : ∀ {l : List (List Byte)} {i : Nat} {s : State}, State.core (putSlots s k i l) = State.core s
  | [], _, _ => rfl
  | [_], _, _ => putSlot_core
  | _ :: c :: l, i, _ => (putSlots_core (l := c :: l) (i := i + 1)).trans putSlot_core

theorem withhold_core {s : State} {b : Nat} :
    State.core (withhold s b) = State.core s := by
  unfold withhold
  with_reducible repeat' first
    | rfl | refine State.modFn_core.trans ?_

theorem steer_core {s : State} {b r h : Nat} {p : Point} {m : Mirror} {repeated : Bool} :
    State.core (steer s b r h p m repeated) = State.core s := by
  unfold steer
  with_reducible repeat' first
    | rfl | apply State.core_ite | refine State.emit_core.trans ?_ | refine State.modPwr_core.trans ?_
    | refine ringItem_core.trans ?_ | refine State.modRing_core.trans ?_ | refine writeIdx_core.trans ?_
    | refine withhold_core.trans ?_ | split

theorem writeBuf_core {b : Nat} : ∀ {n addr : Nat} {bytes : List Byte} {s : State}, State.core (writeBuf b n addr bytes s) = State.core s
  | 0, _, _, _ => rfl
  | n + 1, addr, bytes, s => by
    unfold writeBuf
    split
    · rfl
    · exact (writeBuf_core (n := n)).trans State.emit_core

theorem rxData_core {b : Nat} :
    ∀ {l : List (BitVec 512)} {bs : List Byte} {s : State}, State.core (rxData s b l bs) = State.core s
  | [], _, _ => rfl
  | _ :: l, bs, s => by
    unfold rxData
    split
    · exact rxData_core (l := l)
    · split
      · rfl
      · exact (rxData_core (l := l)).trans writeBuf_core

theorem deliverFrame_core {s : State} {k : Nat} {f : RxFrame} {posted : List (BitVec 512)} :
    State.core (deliverFrame s k f posted) = State.core s := by
  unfold deliverFrame
  with_reducible repeat' first
    | rfl | apply State.core_ite | refine State.modRing_core.trans ?_ | refine putSlots_core.trans ?_
    | refine writeIdx_core.trans ?_ | refine rxData_core.trans ?_ | split




theorem clearAlert_core {s : State} {w : Word} :
    State.core (clearAlert s w) = State.core s := by
  unfold clearAlert
  with_reducible repeat' first
    | rfl | refine State.alert_core.trans ?_

theorem sendPending_core {s : State} {b : Nat} :
    State.core (sendPending s b) = State.core s := by
  unfold sendPending
  with_reducible repeat' first
    | rfl | intro _ | apply State.core_foldl | refine State.modFn_core.trans ?_ | refine State.sendVec_core.trans ?_


theorem dbError_core {s : State} {k field refused inForce : Nat} :
    State.core (dbError s k field refused inForce) = State.core s := by
  unfold dbError
  with_reducible repeat' first
    | rfl | apply State.core_ite | refine State.modRing_core.trans ?_ | refine raise_core.trans ?_ | split

theorem dbIdx_core {s : State} {k v : Nat} :
    State.core (dbIdx s k v) = State.core s := by
  unfold dbIdx
  with_reducible repeat' first
    | rfl | apply State.core_ite | refine State.modRing_core.trans ?_ | refine dbError_core.trans ?_ | split

theorem dbCpl_core {s : State} {k v : Nat} :
    State.core (dbCpl s k v) = State.core s := by
  unfold dbCpl
  with_reducible repeat' first
    | rfl | apply State.core_ite | refine State.modRing_core.trans ?_ | refine dbError_core.trans ?_ | split

theorem dbArm_core {s : State} {k : Nat} :
    State.core (dbArm s k) = State.core s := by
  unfold dbArm
  with_reducible repeat' first
    | rfl | refine State.modRing_core.trans ?_ | refine ringNotify_core.trans ?_

theorem doorbellOp_core {b r : Nat} {be : BitVec 8} {data : BitVec 64} {s : State} :
    State.core (doorbellOp b r be data s) = State.core s := by
  unfold doorbellOp
  with_reducible repeat' first
    | rfl | apply State.core_ite | refine dbIdx_core.trans ?_ | refine dbCpl_core.trans ?_
    | refine dbArm_core.trans ?_ | split

theorem evconsOp_core {b : Nat} {data : Word} {s : State} :
    State.core (evconsOp b data s) = State.core s := by
  unfold evconsOp
  with_reducible repeat' first
    | rfl | apply State.core_ite | refine State.modEv_core.trans ?_ | refine raise_core.trans ?_
    | refine State.flushEv_core.trans ?_ | refine evNotify_core.trans ?_ | split

theorem ringsServe_core {s : State} :
    State.core (ringsServe s) = State.core s := by
  unfold ringsServe
  with_reducible repeat' first
    | rfl | intro _ | apply State.core_ite | apply State.core_foldl | refine State.flushEv_core.trans ?_ | split

theorem channelFlightsLost_core {s : State} {n : Nat} :
    State.core (channelFlightsLost s n) = State.core s := by
  unfold channelFlightsLost
  with_reducible repeat' first
    | rfl | intro _ | apply State.core_ite | apply State.core_foldl | refine finish_core.trans ?_ | split

theorem moderationOp_core {b r : Nat} {s : State} :
    State.core (moderationOp b r s) = State.core s := by
  unfold moderationOp
  with_reducible repeat' first
    | rfl | apply State.core_ite | refine evNotify_core.trans ?_ | refine ringNotify_core.trans ?_ | split

/- ### `State.unit` -/

theorem State.modCan_unit {s : State} {n x : Nat} {f : Can → Can} :
    State.unit (State.modCan s n x f) = State.unit s := by
  unfold State.modCan
  with_reducible repeat' first
    | rfl | refine State.modCh_unit.trans ?_

theorem State.modSeg_unit {s : State} {n x : Nat} {f : Seg → Seg} :
    State.unit (State.modSeg s n x f) = State.unit s := by
  unfold State.modSeg
  with_reducible repeat' first
    | rfl | refine State.modCh_unit.trans ?_

theorem State.sendVec_unit {s : State} {b v : Nat} :
    State.unit (State.sendVec s b v) = State.unit s := by
  unfold State.sendVec
  with_reducible repeat' first
    | rfl | apply State.unit_ite | refine State.modFn_unit.trans ?_ | refine State.emit_unit.trans ?_ | split

theorem State.alert_unit {s : State} {i : Nat} :
    State.unit (State.alert s i) = State.unit s := by
  unfold State.alert
  with_reducible repeat' first
    | rfl | apply State.unit_ite | refine State.sendVec_unit.trans ?_ | split

theorem writeEvIdx_unit {s : State} {b : Nat} :
    State.unit (writeEvIdx s b) = State.unit s := by
  unfold writeEvIdx
  with_reducible repeat' first
    | rfl | apply State.unit_ite | refine State.emit_unit.trans ?_ | refine State.modEv_unit.trans ?_ | split

theorem evNotify_unit {s : State} {b : Nat} {due : Bool} :
    State.unit (evNotify s b due) = State.unit s := by
  unfold evNotify
  with_reducible repeat' first
    | rfl | apply State.unit_ite | refine State.modEv_unit.trans ?_ | refine State.sendVec_unit.trans ?_ | split

theorem pumpEv_unit {b : Nat} : ∀ {q : List EvRec} {s : State}, State.unit (pumpEv b q s) = State.unit s
  | [], _ => rfl
  | _ :: q, s => by
    unfold pumpEv
    dsimp only
    split
    · exact (pumpEv_unit (q := q)).trans (evNotify_unit.trans (writeEvIdx_unit.trans (State.modEv_unit.trans State.emit_unit)))
    · rfl

theorem State.flushEv_unit {s : State} {b : Nat} :
    State.unit (State.flushEv s b) = State.unit s := by
  unfold State.flushEv
  with_reducible repeat' first
    | rfl | refine pumpEv_unit.trans ?_

theorem raise_unit {s : State} {b kind subject : Nat} {payload : List Byte} :
    State.unit (raise s b kind subject payload) = State.unit s := by
  unfold raise
  with_reducible repeat' first
    | rfl | apply State.unit_ite | refine State.modEv_unit.trans ?_ | refine writeEvIdx_unit.trans ?_
    | refine State.flushEv_unit.trans ?_ | split

theorem raiseBoth_unit {s : State} {kind subject : Nat} {payload : List Byte} :
    State.unit (raiseBoth s kind subject payload) = State.unit s := by
  unfold raiseBoth
  with_reducible repeat' first
    | rfl | apply State.unit_ite | refine raise_unit.trans ?_ | split

theorem State.mirror_unit {s : State} {r : MirrorRec} :
    State.unit (State.mirror s r) = State.unit s := by
  unfold State.mirror
  with_reducible repeat' first
    | rfl | apply State.unit_ite | refine State.modPair_unit.trans ?_ | refine State.emit_unit.trans ?_ | split


theorem writeIdx_unit {s : State} {k : Nat} :
    State.unit (writeIdx s k) = State.unit s := by
  unfold writeIdx
  with_reducible repeat' first
    | rfl | apply State.unit_ite | refine State.emit_unit.trans ?_ | refine State.modRing_unit.trans ?_ | split

theorem ringNotify_unit {s : State} {k : Nat} {due : Bool} :
    State.unit (ringNotify s k due) = State.unit s := by
  unfold ringNotify
  with_reducible repeat' first
    | rfl | apply State.unit_ite | refine State.modRing_unit.trans ?_ | refine State.sendVec_unit.trans ?_ | split

theorem ringItem_unit {s : State} {k : Nat} :
    State.unit (ringItem s k) = State.unit s := by
  unfold ringItem
  with_reducible repeat' first
    | rfl | refine State.modRing_unit.trans ?_ | refine writeIdx_unit.trans ?_ | refine ringNotify_unit.trans ?_

theorem putCompletion_unit {s : State} {k : Nat} {c : Completion} :
    State.unit (putCompletion s k c) = State.unit s := by
  unfold putCompletion
  with_reducible repeat' first
    | rfl | refine State.emit_unit.trans ?_ | refine ringItem_unit.trans ?_ | refine State.modRing_unit.trans ?_

theorem complete_unit {s : State} {k : Nat} {c : Completion} :
    State.unit (complete s k c) = State.unit s := by
  unfold complete
  with_reducible repeat' first
    | rfl | apply State.unit_ite | refine State.modRing_unit.trans ?_ | refine putCompletion_unit.trans ?_ | split

theorem completeAll_unit {k idx status ckind : Nat} {tsq late : Bool} {info : Word} :
    ∀ {l : List Slot} {j : Nat} {s : State},
      State.unit (completeAll s k idx status ckind tsq late info j l) = State.unit s
  | [], _, _ => rfl
  | _ :: l, j, _ => (completeAll_unit (l := l) (j := j + 1)).trans complete_unit

theorem finish_unit {s : State} {k id status : Nat} {tsq late : Bool} {info : Word} :
    State.unit (finish s k id status tsq late info) = State.unit s := by
  unfold finish
  with_reducible repeat' first
    | rfl | apply State.unit_ite | refine completeAll_unit.trans ?_ | refine State.modRing_unit.trans ?_ | split

theorem putHeld_unit {s : State} {k : Nat} {h : HeldWrite} :
    State.unit (putHeld s k h) = State.unit s := by
  unfold putHeld
  with_reducible repeat' first
    | rfl | apply State.unit_ite | refine putCompletion_unit.trans ?_ | refine State.emit_unit.trans ?_
    | refine State.modRing_unit.trans ?_ | refine ringItem_unit.trans ?_ | refine writeIdx_unit.trans ?_ | split

theorem flushRing_unit {s : State} {k : Nat} :
    State.unit (flushRing s k) = State.unit s := by
  unfold flushRing
  with_reducible repeat' first
    | rfl | intro _ | apply State.unit_ite | apply State.unit_foldl | refine putHeld_unit.trans ?_
    | refine State.modRing_unit.trans ?_ | split

theorem putSlot_unit {s : State} {k idx : Nat} {bytes : List Byte} {last : Bool} :
    State.unit (putSlot s k idx bytes last) = State.unit s := by
  unfold putSlot
  with_reducible repeat' first
    | rfl | apply State.unit_ite | refine putHeld_unit.trans ?_ | refine State.modRing_unit.trans ?_ | split

theorem putSlots_unit {k : Nat} : ∀ {l : List (List Byte)} {i : Nat} {s : State}, State.unit (putSlots s k i l) = State.unit s
  | [], _, _ => rfl
  | [_], _, _ => putSlot_unit
  | _ :: c :: l, i, _ => (putSlots_unit (l := c :: l) (i := i + 1)).trans putSlot_unit

theorem withhold_unit {s : State} {b : Nat} :
    State.unit (withhold s b) = State.unit s := by
  unfold withhold
  with_reducible repeat' first
    | rfl | refine State.modFn_unit.trans ?_

theorem steer_unit {s : State} {b r h : Nat} {p : Point} {m : Mirror} {repeated : Bool} :
    State.unit (steer s b r h p m repeated) = State.unit s := by
  unfold steer
  with_reducible repeat' first
    | rfl | apply State.unit_ite | refine State.emit_unit.trans ?_ | refine State.modPwr_unit.trans ?_
    | refine ringItem_unit.trans ?_ | refine State.modRing_unit.trans ?_ | refine writeIdx_unit.trans ?_
    | refine withhold_unit.trans ?_ | split

theorem writeBuf_unit {b : Nat} : ∀ {n addr : Nat} {bytes : List Byte} {s : State}, State.unit (writeBuf b n addr bytes s) = State.unit s
  | 0, _, _, _ => rfl
  | n + 1, addr, bytes, s => by
    unfold writeBuf
    split
    · rfl
    · exact (writeBuf_unit (n := n)).trans State.emit_unit

theorem rxData_unit {b : Nat} :
    ∀ {l : List (BitVec 512)} {bs : List Byte} {s : State}, State.unit (rxData s b l bs) = State.unit s
  | [], _, _ => rfl
  | _ :: l, bs, s => by
    unfold rxData
    split
    · exact rxData_unit (l := l)
    · split
      · rfl
      · exact (rxData_unit (l := l)).trans writeBuf_unit

theorem deliverFrame_unit {s : State} {k : Nat} {f : RxFrame} {posted : List (BitVec 512)} :
    State.unit (deliverFrame s k f posted) = State.unit s := by
  unfold deliverFrame
  with_reducible repeat' first
    | rfl | apply State.unit_ite | refine State.modRing_unit.trans ?_ | refine putSlots_unit.trans ?_
    | refine writeIdx_unit.trans ?_ | refine rxData_unit.trans ?_ | split


theorem deliver_unit {s : State} {h : Nat} {m : Mirror} {repeated : Bool} :
    State.unit (deliver s h m repeated) = State.unit s := by
  unfold deliver
  with_reducible repeat' first
    | rfl | intro _ | apply State.unit_ite | apply State.unit_foldl | refine steer_unit.trans ?_
    | refine State.modCh_unit.trans ?_ | refine State.modPt_unit.trans ?_ | split

theorem covUnit_unit {s : State} {h : Nat} {p : Point} {m : Mirror} {newSeq : Bool} :
    State.unit (covUnit s h p m newSeq) = State.unit s := by
  unfold covUnit
  with_reducible repeat' first
    | rfl | apply State.unit_ite | refine deliver_unit.trans ?_ | refine State.modPt_unit.trans ?_ | split

theorem mirrorWrite_unit {s : State} {h : Nat} {m : Mirror} :
    State.unit (mirrorWrite s h m) = State.unit s := by
  unfold mirrorWrite
  with_reducible repeat' first
    | rfl | refine State.modPt_unit.trans ?_ | refine State.mirror_unit.trans ?_ | refine covUnit_unit.trans ?_
    | split

theorem acquire_unit {s : State} {h : Nat} {v : Slot} {q : Nat} {stamp : Instant} :
    State.unit (acquire s h v q stamp) = State.unit s := by
  unfold acquire
  with_reducible repeat' first
    | rfl | apply State.unit_ite | refine State.modPt_unit.trans ?_ | refine mirrorWrite_unit.trans ?_
    | refine State.modCh_unit.trans ?_ | split

theorem hubUpdate_unit {s : State} {n : Nat} {u : Update} :
    State.unit (hubUpdate s n u) = State.unit s := by
  unfold hubUpdate
  with_reducible repeat' first
    | rfl | apply State.unit_ite | refine raise_unit.trans ?_ | refine mirrorWrite_unit.trans ?_ | split

theorem pointUpdateOp_unit {n : Nat} {s : State} :
    State.unit (pointUpdateOp n s) = State.unit s := by
  unfold pointUpdateOp
  with_reducible repeat' first
    | rfl | refine hubUpdate_unit.trans ?_ | refine State.modCh_unit.trans ?_ | split

theorem forwardedOp_unit {n : Nat} {s : State} :
    State.unit (forwardedOp n s) = State.unit s := by
  unfold forwardedOp
  with_reducible repeat' first
    | rfl | apply State.unit_ite | refine State.modCh_unit.trans ?_ | split

theorem markStale_unit {s : State} {n : Nat} :
    State.unit (markStale s n) = State.unit s := by
  unfold markStale
  with_reducible repeat' first
    | rfl | intro _ | apply State.unit_foldl | refine deliver_unit.trans ?_ | refine State.modPt_unit.trans ?_
    | refine State.mirror_unit.trans ?_ | split

theorem resendAll_unit {s : State} {n : Nat} :
    State.unit (resendAll s n) = State.unit s := by
  unfold resendAll
  with_reducible repeat' first
    | rfl | refine State.modCh_unit.trans ?_

theorem minExpiryOp_unit {h : Nat} {s : State} :
    State.unit (minExpiryOp h s) = State.unit s := by
  unfold minExpiryOp
  with_reducible repeat' first
    | rfl | apply State.unit_ite | refine deliver_unit.trans ?_ | refine State.modPt_unit.trans ?_ | split

theorem maxExpiryOp_unit {h : Nat} {s : State} :
    State.unit (maxExpiryOp h s) = State.unit s := by
  unfold maxExpiryOp
  with_reducible repeat' first
    | rfl | apply State.unit_ite | refine deliver_unit.trans ?_ | split


theorem State.modDio_unit {s : State} {n : Nat} {f : Dio → Dio} :
    State.unit (State.modDio s n f) = State.unit s := by
  unfold State.modDio
  with_reducible repeat' first
    | rfl | refine State.modCh_unit.trans ?_

theorem State.modDout_unit {s : State} {n d : Nat} {f : Dout → Dout} :
    State.unit (State.modDout s n d f) = State.unit s := by
  unfold State.modDout
  with_reducible repeat' first
    | rfl | refine State.modDio_unit.trans ?_

theorem State.modAout_unit {s : State} {n t : Nat} {f : Aout → Aout} :
    State.unit (State.modAout s n t f) = State.unit s := by
  unfold State.modAout
  with_reducible repeat' first
    | rfl | refine State.modDio_unit.trans ?_

theorem State.modAin_unit {s : State} {n i : Nat} {f : Ain → Ain} :
    State.unit (State.modAin s n i f) = State.unit s := by
  unfold State.modAin
  with_reducible repeat' first
    | rfl | refine State.modDio_unit.trans ?_

theorem acquireTerm_unit {s : State} {n term : Nat} {v : Slot} {q : Nat} {stamp : Instant} :
    State.unit (acquireTerm s n term v q stamp) = State.unit s := by
  unfold acquireTerm
  with_reducible repeat' first
    | rfl | intro _ | apply State.unit_foldl | refine acquire_unit.trans ?_

theorem doutAcquire_unit {s : State} {n d : Nat} {stamp : Instant} :
    State.unit (doutAcquire s n d stamp) = State.unit s := by
  unfold doutAcquire
  with_reducible repeat' first
    | rfl | apply State.unit_ite | refine acquireTerm_unit.trans ?_ | refine State.modDout_unit.trans ?_ | split

theorem doutRequal_unit {s : State} {n d : Nat} :
    State.unit (doutRequal s n d) = State.unit s := by
  unfold doutRequal
  with_reducible repeat' first
    | rfl | apply State.unit_ite | refine doutAcquire_unit.trans ?_ | split

theorem aoutAcquire_unit {s : State} {n t : Nat} {stamp : Instant} :
    State.unit (aoutAcquire s n t stamp) = State.unit s := by
  unfold aoutAcquire
  with_reducible repeat' first
    | rfl | refine acquireTerm_unit.trans ?_ | refine State.modAout_unit.trans ?_

theorem aoutRequal_unit {s : State} {n t : Nat} :
    State.unit (aoutRequal s n t) = State.unit s := by
  unfold aoutRequal
  with_reducible repeat' first
    | rfl | apply State.unit_ite | refine aoutAcquire_unit.trans ?_ | split

theorem latchDout_unit {s : State} {n d : Nat} {v : Bool} {stamp : Instant} :
    State.unit (latchDout s n d v stamp) = State.unit s := by
  unfold latchDout
  with_reducible repeat' first
    | rfl | apply State.unit_ite | refine State.modDout_unit.trans ?_ | refine doutAcquire_unit.trans ?_ | split

theorem latchAout_unit {s : State} {n t code : Nat} {stamp : Instant} :
    State.unit (latchAout s n t code stamp) = State.unit s := by
  unfold latchAout
  with_reducible repeat' first
    | rfl | refine aoutAcquire_unit.trans ?_ | refine State.modAout_unit.trans ?_

theorem applySafe_unit {s : State} {n term : Nat} :
    State.unit (applySafe s n term) = State.unit s := by
  unfold applySafe
  with_reducible repeat' first
    | rfl | apply State.unit_ite | refine latchDout_unit.trans ?_ | refine State.modAout_unit.trans ?_
    | refine latchAout_unit.trans ?_ | refine aoutAcquire_unit.trans ?_ | split

theorem applyAllSafe_unit {s : State} {n : Nat} :
    State.unit (applyAllSafe s n) = State.unit s := by
  unfold applyAllSafe
  with_reducible repeat' first
    | rfl | intro _ | apply State.unit_ite | apply State.unit_foldl | refine applySafe_unit.trans ?_ | split

theorem requalAll_unit {s : State} {n : Nat} :
    State.unit (requalAll s n) = State.unit s := by
  unfold requalAll
  with_reducible repeat' first
    | rfl | intro _ | apply State.unit_foldl | refine doutRequal_unit.trans ?_ | refine aoutRequal_unit.trans ?_

theorem acquireDin_unit {s : State} {n i : Nat} {q : Nat} {stamp : Instant} :
    State.unit (acquireDin s n i q stamp) = State.unit s := by
  unfold acquireDin
  with_reducible repeat' first
    | rfl | apply State.unit_ite | refine acquireTerm_unit.trans ?_ | split

theorem acquireCnt_unit {s : State} {n i : Nat} {q : Nat} {stamp : Instant} :
    State.unit (acquireCnt s n i q stamp) = State.unit s := by
  unfold acquireCnt
  with_reducible repeat' first
    | rfl | refine acquireTerm_unit.trans ?_

theorem acquireInputs_unit {s : State} {n : Nat} {q : Nat} :
    State.unit (acquireInputs s n q) = State.unit s := by
  unfold acquireInputs
  with_reducible repeat' first
    | rfl | intro _ | apply State.unit_ite | apply State.unit_foldl | refine acquireDin_unit.trans ?_
    | refine acquireCnt_unit.trans ?_ | split

theorem reacquireAin_unit {s : State} {n i : Nat} {q : Nat} :
    State.unit (reacquireAin s n i q) = State.unit s := by
  unfold reacquireAin
  with_reducible repeat' first
    | rfl | intro _ | apply State.unit_foldl | refine acquire_unit.trans ?_

theorem fsupLowOp_unit {n v : Nat} {s : State} :
    State.unit (fsupLowOp n v s) = State.unit s := by
  unfold fsupLowOp
  with_reducible repeat' first
    | rfl | apply State.unit_ite | refine State.modDio_unit.trans ?_ | split

theorem fsupOkOp_unit {n v : Nat} {s : State} :
    State.unit (fsupOkOp n v s) = State.unit s := by
  unfold fsupOkOp
  with_reducible repeat' first
    | rfl | apply State.unit_ite | refine State.modDio_unit.trans ?_ | split

theorem fsupInvalidOp_unit {n v : Nat} {s : State} :
    State.unit (fsupInvalidOp n v s) = State.unit s := by
  unfold fsupInvalidOp
  with_reducible repeat' first
    | rfl | intro _ | apply State.unit_ite | apply State.unit_foldl | refine State.modDio_unit.trans ?_
    | refine acquireInputs_unit.trans ?_ | refine reacquireAin_unit.trans ?_ | split

theorem fsupValidOp_unit {n v : Nat} {s : State} :
    State.unit (fsupValidOp n v s) = State.unit s := by
  unfold fsupValidOp
  with_reducible repeat' first
    | rfl | apply State.unit_ite | refine acquireInputs_unit.trans ?_ | refine State.modDio_unit.trans ?_ | split

theorem guardLossOp_unit {n v : Nat} {s : State} :
    State.unit (guardLossOp n v s) = State.unit s := by
  unfold guardLossOp
  with_reducible repeat' first
    | rfl | apply State.unit_ite | refine State.modDio_unit.trans ?_ | split

theorem dinEdgeOp_unit {n i : Nat} {level : Bool} {stamp : Instant} {s : State} :
    State.unit (dinEdgeOp n i level stamp s) = State.unit s := by
  unfold dinEdgeOp
  with_reducible repeat' first
    | rfl | apply State.unit_ite | refine State.modDio_unit.trans ?_ | refine acquireDin_unit.trans ?_ | split

theorem counterAcqOp_unit {n : Nat} {s : State} :
    State.unit (counterAcqOp n s) = State.unit s := by
  unfold counterAcqOp
  with_reducible repeat' first
    | rfl | intro _ | apply State.unit_ite | apply State.unit_foldl | refine acquireDin_unit.trans ?_
    | refine acquireCnt_unit.trans ?_ | split

theorem presetCnt_unit {s : State} {n i : Nat} {v : Slot} {stamp : Instant} :
    State.unit (presetCnt s n i v stamp) = State.unit s := by
  unfold presetCnt
  with_reducible repeat' first
    | rfl | refine State.modDio_unit.trans ?_ | refine State.modCh_unit.trans ?_ | refine acquireCnt_unit.trans ?_

theorem inputsChanged_unit {old s : State} {n : Nat} :
    State.unit (inputsChanged old s n) = State.unit s := by
  unfold inputsChanged
  with_reducible repeat' first
    | rfl | intro _ | apply State.unit_ite | apply State.unit_foldl | refine acquireDin_unit.trans ?_
    | refine acquireCnt_unit.trans ?_ | refine reacquireAin_unit.trans ?_ | split

theorem switchOff_unit {s : State} {n d : Nat} {hot : Bool} :
    State.unit (switchOff s n d hot) = State.unit s := by
  unfold switchOff
  with_reducible repeat' first
    | rfl | refine doutRequal_unit.trans ?_ | refine State.modDout_unit.trans ?_

theorem overcurrentOp_unit {n d : Nat} {s : State} :
    State.unit (overcurrentOp n d s) = State.unit s := by
  unfold overcurrentOp
  with_reducible repeat' first
    | rfl | apply State.unit_ite | refine switchOff_unit.trans ?_ | refine State.modDio_unit.trans ?_ | split

theorem overtempOp_unit {n d : Nat} {s : State} :
    State.unit (overtempOp n d s) = State.unit s := by
  unfold overtempOp
  with_reducible repeat' first
    | rfl | apply State.unit_ite | refine switchOff_unit.trans ?_ | refine State.modDio_unit.trans ?_ | split

theorem switchOn_unit {s : State} {n d : Nat} :
    State.unit (switchOn s n d) = State.unit s := by
  unfold switchOn
  with_reducible repeat' first
    | rfl | apply State.unit_ite | refine doutRequal_unit.trans ?_ | refine State.modDout_unit.trans ?_ | split

theorem retryOp_unit {n d : Nat} {s : State} :
    State.unit (retryOp n d s) = State.unit s := by
  unfold retryOp
  with_reducible repeat' first
    | rfl | apply State.unit_ite | refine State.modDout_unit.trans ?_ | refine switchOn_unit.trans ?_ | split

theorem cooledOp_unit {n d : Nat} {s : State} :
    State.unit (cooledOp n d s) = State.unit s := by
  unfold cooledOp
  with_reducible repeat' first
    | rfl | apply State.unit_ite | refine State.modDout_unit.trans ?_ | refine switchOn_unit.trans ?_
    | refine doutRequal_unit.trans ?_ | split

theorem clrOcOp_unit {n : Nat} {mask : BitVec 8} {s : State} :
    State.unit (clrOcOp n mask s) = State.unit s := by
  unfold clrOcOp
  with_reducible repeat' first
    | rfl | intro _ | apply State.unit_ite | apply State.unit_foldl | refine switchOn_unit.trans ?_ | split

theorem groupOcOp_unit {n : Nat} {cs : List Nat} {s : State} :
    State.unit (groupOcOp n cs s) = State.unit s := by
  unfold groupOcOp
  with_reducible repeat' first
    | rfl | intro _ | apply State.unit_ite | apply State.unit_foldl | refine State.modDio_unit.trans ?_
    | refine switchOff_unit.trans ?_ | split

theorem extDriveOp_unit {n d : Nat} {s : State} :
    State.unit (extDriveOp n d s) = State.unit s := by
  unfold extDriveOp
  with_reducible repeat' first
    | rfl | apply State.unit_ite | refine State.modDio_unit.trans ?_ | refine doutRequal_unit.trans ?_
    | refine State.modDout_unit.trans ?_ | split

theorem openLoadOp_unit {n d : Nat} {s : State} :
    State.unit (openLoadOp n d s) = State.unit s := by
  unfold openLoadOp
  with_reducible repeat' first
    | rfl | apply State.unit_ite | refine State.modDio_unit.trans ?_ | split

theorem guardKickOp_unit {n : Nat} {s : State} :
    State.unit (guardKickOp n s) = State.unit s := by
  unfold guardKickOp
  with_reducible repeat' first
    | rfl | intro _ | apply State.unit_ite | apply State.unit_foldl | refine State.modDio_unit.trans ?_
    | refine doutAcquire_unit.trans ?_ | refine aoutAcquire_unit.trans ?_ | split

theorem guardTripOp_unit {n : Nat} {s : State} :
    State.unit (guardTripOp n s) = State.unit s := by
  unfold guardTripOp
  with_reducible repeat' first
    | rfl | apply State.unit_ite | refine State.modDio_unit.trans ?_ | split

theorem guardHoldOp_unit {n : Nat} {s : State} :
    State.unit (guardHoldOp n s) = State.unit s := by
  unfold guardHoldOp
  with_reducible repeat' first
    | rfl | apply State.unit_ite | refine State.modDio_unit.trans ?_ | split

theorem guardHoldExpiryOp_unit {n : Nat} {s : State} :
    State.unit (guardHoldExpiryOp n s) = State.unit s := by
  unfold guardHoldExpiryOp
  with_reducible repeat' first
    | rfl | apply State.unit_ite | refine State.modDio_unit.trans ?_ | split

theorem adcScanOp_unit {n i : Nat} {s : State} :
    State.unit (adcScanOp n i s) = State.unit s := by
  unfold adcScanOp
  with_reducible repeat' first
    | rfl | apply State.unit_ite | refine State.modAin_unit.trans ?_ | split

theorem adcBurstOp_unit {n idx : Nat} {s : State} :
    State.unit (adcBurstOp n idx s) = State.unit s := by
  unfold adcBurstOp
  with_reducible repeat' first
    | rfl | intro _ | apply State.unit_ite | apply State.unit_foldl | refine State.modDio_unit.trans ?_
    | refine State.modAin_unit.trans ?_ | split

theorem acquireAin_unit {s : State} {n i range : Nat} {u m : Int} {bad : Bool} :
    State.unit (acquireAin s n i range u m bad) = State.unit s := by
  unfold acquireAin
  with_reducible repeat' first
    | rfl | intro _ | apply State.unit_ite | apply State.unit_foldl | refine acquire_unit.trans ?_ | split

theorem adcDoneOp_unit {n i : Nat} {src : ConvSource} {m : Int} {fault : Bool} {s : State} :
    State.unit (adcDoneOp n i src m fault s) = State.unit s := by
  unfold adcDoneOp
  with_reducible repeat' first
    | rfl | apply State.unit_ite | refine State.modAin_unit.trans ?_ | refine acquireAin_unit.trans ?_ | split

theorem burdenOpenOp_unit {n i : Nat} {s : State} :
    State.unit (burdenOpenOp n i s) = State.unit s := by
  unfold burdenOpenOp
  with_reducible repeat' first
    | rfl | apply State.unit_ite | refine reacquireAin_unit.trans ?_ | refine State.modAin_unit.trans ?_ | split

theorem burdenRestoreOp_unit {n i : Nat} {s : State} :
    State.unit (burdenRestoreOp n i s) = State.unit s := by
  unfold burdenRestoreOp
  with_reducible repeat' first
    | rfl | refine State.modAin_unit.trans ?_

theorem aoutLimitOp_unit {n t : Nat} {inLimit : Bool} {s : State} :
    State.unit (aoutLimitOp n t inLimit s) = State.unit s := by
  unfold aoutLimitOp
  with_reducible repeat' first
    | rfl | apply State.unit_ite | refine aoutRequal_unit.trans ?_ | refine State.modAout_unit.trans ?_ | split


theorem tsqPopOp_unit {q : Nat} {s : State} :
    State.unit (tsqPopOp q s) = State.unit s := by
  unfold tsqPopOp
  with_reducible repeat' first
    | rfl | apply State.unit_ite | split

theorem sendReport_unit {s : State} {n : Nat} {r : Report} :
    State.unit (sendReport s n r) = State.unit s := by
  unfold sendReport
  with_reducible repeat' first
    | rfl | apply State.unit_ite | refine State.modCh_unit.trans ?_ | split

theorem State.modTbl_unit {s : State} {t : Nat} {f : Table → Table} :
    State.unit (State.modTbl s t f) = State.unit s := by
  unfold State.modTbl
  with_reducible repeat' first
    | rfl | apply State.unit_ite | refine State.modCh_unit.trans ?_ | split

theorem State.modEnt_unit {s : State} {t i : Nat} {f : Entry → Entry} :
    State.unit (State.modEnt s t i f) = State.unit s := by
  unfold State.modEnt
  with_reducible repeat' first
    | rfl | refine State.modTbl_unit.trans ?_

theorem enterEntry_unit {s : State} {t i : Nat} {e : Entry} :
    State.unit (enterEntry s t i e) = State.unit s := by
  unfold enterEntry
  with_reducible repeat' first
    | rfl | refine State.modTbl_unit.trans ?_ | refine State.mirror_unit.trans ?_ | split

theorem countArrival_unit {s : State} {t outcome : Nat} :
    State.unit (countArrival s t outcome) = State.unit s := by
  unfold countArrival
  with_reducible repeat' first
    | rfl | apply State.unit_ite | refine State.modTbl_unit.trans ?_ | split

theorem actRecord_unit {s : State} {t i : Nat} {e : Entry} {outcome detail lateUs skipped : Nat} {final : Bool} :
    State.unit (actRecord s t i e outcome detail lateUs skipped final) = State.unit s := by
  unfold actRecord
  with_reducible repeat' first
    | rfl | apply State.unit_ite | refine State.modCh_unit.trans ?_ | refine State.modEv_unit.trans ?_
    | refine raise_unit.trans ?_ | split

theorem actOutcome_unit {s : State} {t i : Nat} {e : Entry} {outcome detail lateUs : Nat} {final : Bool} :
    State.unit (actOutcome s t i e outcome detail lateUs final) = State.unit s := by
  unfold actOutcome
  with_reducible repeat' first
    | rfl | apply State.unit_ite | refine State.modTbl_unit.trans ?_ | refine actRecord_unit.trans ?_
    | refine State.modEnt_unit.trans ?_ | split

theorem endEntry_unit {s : State} {t i : Nat} {e : Entry} :
    State.unit (endEntry s t i e) = State.unit s := by
  unfold endEntry
  with_reducible repeat' first
    | rfl | apply State.unit_ite | refine State.modEnt_unit.trans ?_ | refine State.modTbl_unit.trans ?_
    | refine State.mirror_unit.trans ?_ | split

theorem occOutcome_unit {s : State} {t i : Nat} {e : Entry} {outcome detail lateUs : Nat} {last : Bool} :
    State.unit (occOutcome s t i e outcome detail lateUs last) = State.unit s := by
  unfold occOutcome
  with_reducible repeat' first
    | rfl | apply State.unit_ite | refine actOutcome_unit.trans ?_ | refine endEntry_unit.trans ?_ | split

theorem cancelEntry_unit {s : State} {t i : Nat} {e : Entry} {detail : Nat} :
    State.unit (cancelEntry s t i e detail) = State.unit s := by
  unfold cancelEntry
  with_reducible repeat' first
    | rfl | refine actOutcome_unit.trans ?_ | refine State.modTbl_unit.trans ?_ | refine State.mirror_unit.trans ?_

theorem actFrameDone_unit {s : State} {f : TxFrame} {outcome detail : Nat} :
    State.unit (actFrameDone s f outcome detail) = State.unit s := by
  unfold actFrameDone
  with_reducible repeat' first
    | rfl | apply State.unit_ite | refine State.modEnt_unit.trans ?_ | refine occOutcome_unit.trans ?_ | split

theorem frameEnds_unit {s : State} {n : Nat} {f : TxFrame} {status detail : Nat} {tsq : Bool} {info : Word} :
    State.unit (frameEnds s n f status detail tsq info) = State.unit s := by
  unfold frameEnds
  with_reducible repeat' first
    | rfl | apply State.unit_ite | refine actFrameDone_unit.trans ?_ | refine sendReport_unit.trans ?_
    | refine finish_unit.trans ?_ | split

theorem outcomeReportedOp_unit {n : Nat} {s : State} :
    State.unit (outcomeReportedOp n s) = State.unit s := by
  unfold outcomeReportedOp
  with_reducible repeat' first
    | rfl | apply State.unit_ite | refine finish_unit.trans ?_ | refine State.modCh_unit.trans ?_ | split

theorem releaseRecs_unit {s : State} {n : Nat} :
    State.unit (releaseRecs s n) = State.unit s := by
  unfold releaseRecs
  with_reducible repeat' first
    | rfl | intro _ | apply State.unit_foldl | refine raise_unit.trans ?_ | refine State.modCh_unit.trans ?_


theorem chRaise_unit {s : State} {n b kind subject : Nat} {payload : List Byte} :
    State.unit (chRaise s n b kind subject payload) = State.unit s := by
  unfold chRaise
  with_reducible repeat' first
    | rfl | apply State.unit_ite | refine State.modCh_unit.trans ?_ | refine State.modEv_unit.trans ?_
    | refine raise_unit.trans ?_ | split

theorem chRaiseBoth_unit {s : State} {n kind subject : Nat} {payload : List Byte} :
    State.unit (chRaiseBoth s n kind subject payload) = State.unit s := by
  unfold chRaiseBoth
  with_reducible repeat' first
    | rfl | apply State.unit_ite | refine chRaise_unit.trans ?_ | split

theorem canEnqueue_unit {s : State} {n x : Nat} {f : TxFrame} :
    State.unit (canEnqueue s n x f) = State.unit s := by
  unfold canEnqueue
  with_reducible repeat' first
    | rfl | apply State.unit_ite | refine frameEnds_unit.trans ?_ | refine State.modCan_unit.trans ?_ | split

theorem cancelAnswer_unit {s : State} {n : Nat} {f : TxFrame} {status : Nat} :
    State.unit (cancelAnswer s n f status) = State.unit s := by
  unfold cancelAnswer
  with_reducible repeat' first
    | rfl | intro _ | apply State.unit_ite | apply State.unit_foldl | refine sendReport_unit.trans ?_
    | refine finish_unit.trans ?_ | split

theorem endFrames_unit {s : State} {n : Nat} {fs : List TxFrame} {status detail req : Nat} :
    State.unit (endFrames s n fs status detail req) = State.unit s := by
  unfold endFrames
  with_reducible repeat' first
    | rfl | intro _ | apply State.unit_foldl | refine cancelAnswer_unit.trans ?_ | refine frameEnds_unit.trans ?_

theorem canFaultUpdate_unit {s : State} {n x : Nat} :
    State.unit (canFaultUpdate s n x) = State.unit s := by
  unfold canFaultUpdate
  with_reducible repeat' first
    | rfl | apply State.unit_ite | refine State.modCan_unit.trans ?_ | refine chRaise_unit.trans ?_
    | refine endFrames_unit.trans ?_ | split

theorem noAck_unit {s : State} {n x : Nat} {f : TxFrame} :
    State.unit (noAck s n x f) = State.unit s := by
  unfold noAck
  with_reducible repeat' first
    | rfl | apply State.unit_ite | refine State.modCan_unit.trans ?_ | refine chRaiseBoth_unit.trans ?_ | split

theorem canStage_unit {s : State} {n x q : Nat} {f : RxFrame} {rings : List Nat} :
    State.unit (canStage s n x q f rings) = State.unit s := by
  unfold canStage
  with_reducible repeat' first
    | rfl | apply State.unit_ite | refine State.modCan_unit.trans ?_ | refine chRaise_unit.trans ?_
    | refine State.modCh_unit.trans ?_ | split

theorem canDecode_unit {s : State} {n x : Nat} {f : CanFrame} {stamp : Instant} :
    State.unit (canDecode s n x f stamp) = State.unit s := by
  unfold canDecode
  with_reducible repeat' first
    | rfl | intro _ | apply State.unit_foldl | refine acquire_unit.trans ?_ | split

theorem canNodeTmoOp_unit {n x id : Nat} {ide : Bool} {s : State} :
    State.unit (canNodeTmoOp n x id ide s) = State.unit s := by
  unfold canNodeTmoOp
  with_reducible repeat' first
    | rfl | intro _ | apply State.unit_ite | apply State.unit_foldl | refine State.modCan_unit.trans ?_
    | refine acquire_unit.trans ?_ | refine chRaise_unit.trans ?_ | split

theorem canApply_unit {s : State} {n x : Nat} :
    State.unit (canApply s n x) = State.unit s := by
  unfold canApply
  with_reducible repeat' first
    | rfl | apply State.unit_ite | refine State.modCan_unit.trans ?_ | refine endFrames_unit.trans ?_ | split

theorem recoverOp_unit {n x : Nat} {s : State} :
    State.unit (recoverOp n x s) = State.unit s := by
  unfold recoverOp
  with_reducible repeat' first
    | rfl | apply State.unit_ite | refine State.modCan_unit.trans ?_ | split

theorem canModeOp_unit {n x : Nat} {s : State} :
    State.unit (canModeOp n x s) = State.unit s := by
  unfold canModeOp
  with_reducible repeat' first
    | rfl | apply State.unit_ite | refine canApply_unit.trans ?_ | split

theorem canIntegrateOp_unit {n x : Nat} {s : State} :
    State.unit (canIntegrateOp n x s) = State.unit s := by
  unfold canIntegrateOp
  with_reducible repeat' first
    | rfl | apply State.unit_ite | refine State.modCan_unit.trans ?_ | split

theorem canBusOnOp_unit {n x us : Nat} {s : State} :
    State.unit (canBusOnOp n x us s) = State.unit s := by
  unfold canBusOnOp
  with_reducible repeat' first
    | rfl | apply State.unit_ite | refine State.modCan_unit.trans ?_ | refine chRaise_unit.trans ?_
    | refine canApply_unit.trans ?_ | split

theorem canArbOp_unit {n x : Nat} {won : Bool} {s : State} :
    State.unit (canArbOp n x won s) = State.unit s := by
  unfold canArbOp
  with_reducible repeat' first
    | rfl | apply State.unit_ite | refine endFrames_unit.trans ?_ | refine State.modCan_unit.trans ?_ | split

theorem canTxErrOp_unit {n x : Nat} {err : CanErr} {dataPhase dominant : Bool} {s : State} :
    State.unit (canTxErrOp n x err dataPhase dominant s) = State.unit s := by
  unfold canTxErrOp
  with_reducible repeat' first
    | rfl | apply State.unit_ite | refine State.modCan_unit.trans ?_ | refine noAck_unit.trans ?_
    | refine canFaultUpdate_unit.trans ?_ | refine endFrames_unit.trans ?_ | split

theorem canRxErrOp_unit {n x : Nat} {err : CanErr} {dataPhase severe : Bool} {s : State} :
    State.unit (canRxErrOp n x err dataPhase severe s) = State.unit s := by
  unfold canRxErrOp
  with_reducible repeat' first
    | rfl | apply State.unit_ite | refine State.modCan_unit.trans ?_ | refine canFaultUpdate_unit.trans ?_ | split

theorem canProtoOp_unit {n x : Nat} {s : State} :
    State.unit (canProtoOp n x s) = State.unit s := by
  unfold canProtoOp
  with_reducible repeat' first
    | rfl | apply State.unit_ite | refine State.modCan_unit.trans ?_ | refine chRaise_unit.trans ?_ | split


theorem netCount_unit {s : State} {p o : Nat} :
    State.unit (netCount s p o) = State.unit s := by
  unfold netCount
  with_reducible repeat' first
    | rfl | refine State.modNet_unit.trans ?_ | split

theorem netAct_unit {s : State} {p : Nat} :
    State.unit (netAct s p) = State.unit s := by
  unfold netAct
  with_reducible repeat' first
    | rfl | refine State.emit_unit.trans ?_

theorem netKick_unit {s : State} {p : Nat} :
    State.unit (netKick s p) = State.unit s := by
  unfold netKick
  with_reducible repeat' first
    | rfl | apply State.unit_ite | refine State.modNet_unit.trans ?_ | split

theorem netVerifyStart_unit {s : State} {p : Nat} :
    State.unit (netVerifyStart s p) = State.unit s := by
  unfold netVerifyStart
  with_reducible repeat' first
    | rfl | apply State.unit_ite | refine State.modNet_unit.trans ?_ | refine State.emit_unit.trans ?_ | split

theorem sendXoff_unit {s : State} {p : Nat} :
    State.unit (sendXoff s p) = State.unit s := by
  unfold sendXoff
  with_reducible repeat' first
    | rfl | refine netCount_unit.trans ?_ | refine netAct_unit.trans ?_ | refine State.emit_unit.trans ?_

theorem netFlow_unit {s : State} {p : Nat} :
    State.unit (netFlow s p) = State.unit s := by
  unfold netFlow
  with_reducible repeat' first
    | rfl | apply State.unit_ite | refine sendXoff_unit.trans ?_ | refine State.modNet_unit.trans ?_ | split

theorem xoffRepeatOp_unit {p : Nat} {s : State} :
    State.unit (xoffRepeatOp p s) = State.unit s := by
  unfold xoffRepeatOp
  with_reducible repeat' first
    | rfl | apply State.unit_ite | refine sendXoff_unit.trans ?_ | split

theorem xonOp_unit {p : Nat} {s : State} :
    State.unit (xonOp p s) = State.unit s := by
  unfold xonOp
  with_reducible repeat' first
    | rfl | apply State.unit_ite | refine netCount_unit.trans ?_ | refine netAct_unit.trans ?_
    | refine State.modNet_unit.trans ?_ | refine State.emit_unit.trans ?_ | split

theorem pauseExpiryOp_unit {p : Nat} {s : State} :
    State.unit (pauseExpiryOp p s) = State.unit s := by
  unfold pauseExpiryOp
  with_reducible repeat' first
    | rfl | apply State.unit_ite | refine netKick_unit.trans ?_ | refine State.modNet_unit.trans ?_ | split

theorem verifyRxOp_unit {p : Nat} {s : State} :
    State.unit (verifyRxOp p s) = State.unit s := by
  unfold verifyRxOp
  with_reducible repeat' first
    | rfl | apply State.unit_ite | refine State.emit_unit.trans ?_ | split

theorem reasmErr_unit {s : State} {p : Nat} :
    State.unit (reasmErr s p) = State.unit s := by
  unfold reasmErr
  with_reducible repeat' first
    | rfl | refine netCount_unit.trans ?_ | refine State.modNet_unit.trans ?_

theorem reasmTmoOp_unit {p : Nat} {s : State} :
    State.unit (reasmTmoOp p s) = State.unit s := by
  unfold reasmTmoOp
  with_reducible repeat' first
    | rfl | apply State.unit_ite | refine reasmErr_unit.trans ?_ | split

theorem netCtlWritten_unit {s : State} {p : Nat} :
    State.unit (netCtlWritten s p) = State.unit s := by
  unfold netCtlWritten
  with_reducible repeat' first
    | rfl | apply State.unit_ite | refine netVerifyStart_unit.trans ?_ | refine netFlow_unit.trans ?_ | split


theorem segCount_unit {s : State} {n x o : Nat} :
    State.unit (segCount s n x o) = State.unit s := by
  unfold segCount
  with_reducible repeat' first
    | rfl | refine State.modSeg_unit.trans ?_ | split

theorem segKick_unit {s : State} {n x : Nat} :
    State.unit (segKick s n x) = State.unit s := by
  unfold segKick
  with_reducible repeat' first
    | rfl | apply State.unit_ite | refine State.modSeg_unit.trans ?_ | split

theorem segEnqueue_unit {s : State} {n x : Nat} {f : TxFrame} :
    State.unit (segEnqueue s n x f) = State.unit s := by
  unfold segEnqueue
  with_reducible repeat' first
    | rfl | apply State.unit_ite | refine frameEnds_unit.trans ?_ | refine segCount_unit.trans ?_
    | refine State.modSeg_unit.trans ?_ | refine segKick_unit.trans ?_ | split

theorem segCommand_unit {s : State} {n x h : Nat} {p : Point} {v : Slot} {f : TxFrame} :
    State.unit (segCommand s n x h p v f) = State.unit s := by
  unfold segCommand
  with_reducible repeat' first
    | rfl | refine frameEnds_unit.trans ?_ | refine State.modSeg_unit.trans ?_ | refine segEnqueue_unit.trans ?_
    | split

theorem nextOpp_unit {s : State} {n x : Nat} :
    State.unit (nextOpp s n x) = State.unit s := by
  unfold nextOpp
  with_reducible repeat' first
    | rfl | apply State.unit_ite | refine segKick_unit.trans ?_ | refine State.modSeg_unit.trans ?_ | split

theorem backoffOp_unit {n x : Nat} {s : State} :
    State.unit (backoffOp n x s) = State.unit s := by
  unfold backoffOp
  with_reducible repeat' first
    | rfl | apply State.unit_ite | refine segKick_unit.trans ?_ | refine State.modSeg_unit.trans ?_ | split

theorem plcaSet_unit {s : State} {n x : Nat} {on : Bool} :
    State.unit (plcaSet s n x on) = State.unit s := by
  unfold plcaSet
  with_reducible repeat' first
    | rfl | apply State.unit_ite | refine chRaise_unit.trans ?_ | refine State.modSeg_unit.trans ?_ | split

theorem plcaBeaconOp_unit {n x : Nat} {s : State} :
    State.unit (plcaBeaconOp n x s) = State.unit s := by
  unfold plcaBeaconOp
  with_reducible repeat' first
    | rfl | apply State.unit_ite | refine plcaSet_unit.trans ?_ | refine segCount_unit.trans ?_
    | refine segKick_unit.trans ?_ | refine State.modSeg_unit.trans ?_ | split

theorem plcaToOp_unit {n x : Nat} {s : State} :
    State.unit (plcaToOp n x s) = State.unit s := by
  unfold plcaToOp
  with_reducible repeat' first
    | rfl | apply State.unit_ite | refine nextOpp_unit.trans ?_ | split

theorem plcaLossOp_unit {n x : Nat} {s : State} :
    State.unit (plcaLossOp n x s) = State.unit s := by
  unfold plcaLossOp
  with_reducible repeat' first
    | rfl | apply State.unit_ite | refine segKick_unit.trans ?_ | refine plcaSet_unit.trans ?_ | split

theorem segApply_unit {s : State} {n x : Nat} :
    State.unit (segApply s n x) = State.unit s := by
  unfold segApply
  with_reducible repeat' first
    | rfl | apply State.unit_ite | refine State.modSeg_unit.trans ?_ | refine plcaSet_unit.trans ?_
    | refine endFrames_unit.trans ?_ | refine segKick_unit.trans ?_ | split

theorem segModeOp_unit {n x : Nat} {s : State} :
    State.unit (segModeOp n x s) = State.unit s := by
  unfold segModeOp
  with_reducible repeat' first
    | rfl | apply State.unit_ite | refine segApply_unit.trans ?_ | split

theorem segAcquire_unit {s : State} {h : Nat} {p : Point} {b : List Byte} {count i : Nat} {stamp : Instant} :
    State.unit (segAcquire s h p b count i stamp) = State.unit s := by
  unfold segAcquire
  with_reducible repeat' first
    | rfl | refine acquire_unit.trans ?_ | split

theorem segStage_unit {s : State} {n x basin : Nat} {f : RxFrame} {rings : List Nat} :
    State.unit (segStage s n x basin f rings) = State.unit s := by
  unfold segStage
  with_reducible repeat' first
    | rfl | apply State.unit_ite | refine State.modSeg_unit.trans ?_ | refine segCount_unit.trans ?_
    | refine chRaise_unit.trans ?_ | refine State.modCh_unit.trans ?_ | split

theorem segNodeTmoOp_unit {n x j : Nat} {s : State} :
    State.unit (segNodeTmoOp n x j s) = State.unit s := by
  unfold segNodeTmoOp
  with_reducible repeat' first
    | rfl | intro _ | apply State.unit_ite | apply State.unit_foldl | refine State.modSeg_unit.trans ?_
    | refine acquire_unit.trans ?_ | refine chRaise_unit.trans ?_ | split


theorem driveDout_unit {s : State} {n d : Nat} {v : Bool} {stamp : Instant} :
    State.unit (driveDout s n d v stamp) = State.unit s := by
  unfold driveDout
  with_reducible repeat' first
    | rfl | apply State.unit_ite | refine latchDout_unit.trans ?_ | refine State.mirror_unit.trans ?_ | split

theorem driveAout_unit {s : State} {n t code : Nat} {stamp : Instant} :
    State.unit (driveAout s n t code stamp) = State.unit s := by
  unfold driveAout
  with_reducible repeat' first
    | rfl | refine latchAout_unit.trans ?_ | refine State.mirror_unit.trans ?_

theorem tagMismatch_unit {s : State} {n h tag owner : Nat} :
    State.unit (tagMismatch s n h tag owner) = State.unit s := by
  unfold tagMismatch
  with_reducible repeat' first
    | rfl | refine chRaise_unit.trans ?_


theorem State.modSlot_unit {s : State} {n slot : Nat} {f : LoopRt → LoopRt} :
    State.unit (State.modSlot s n slot f) = State.unit s := by
  unfold State.modSlot
  with_reducible repeat' first
    | rfl | refine State.modCh_unit.trans ?_

theorem slotCtlApplied_unit {s : State} {n slot : Nat} {old new : Word} :
    State.unit (slotCtlApplied s n slot old new) = State.unit s := by
  unfold slotCtlApplied
  with_reducible repeat' first
    | rfl | apply State.unit_ite | refine State.modSlot_unit.trans ?_ | split

theorem publishLoop_unit {s : State} {n id : Nat} {b : Bank} {r : LoopRt} :
    State.unit (publishLoop s n id b r) = State.unit s := by
  unfold publishLoop
  with_reducible repeat' first
    | rfl | intro _ | apply State.unit_ite | apply State.unit_foldl | refine acquire_unit.trans ?_ | split


theorem clearAlert_unit {s : State} {w : Word} :
    State.unit (clearAlert s w) = State.unit s := by
  unfold clearAlert
  with_reducible repeat' first
    | rfl | refine State.alert_unit.trans ?_

theorem sendPending_unit {s : State} {b : Nat} :
    State.unit (sendPending s b) = State.unit s := by
  unfold sendPending
  with_reducible repeat' first
    | rfl | intro _ | apply State.unit_foldl | refine State.modFn_unit.trans ?_ | refine State.sendVec_unit.trans ?_

theorem setChState_unit {s : State} {n : Nat} {st : ChState} :
    State.unit (setChState s n st) = State.unit s := by
  unfold setChState
  with_reducible repeat' first
    | rfl | apply State.unit_ite | refine State.modCh_unit.trans ?_ | refine State.sendVec_unit.trans ?_ | split


theorem dbError_unit {s : State} {k field refused inForce : Nat} :
    State.unit (dbError s k field refused inForce) = State.unit s := by
  unfold dbError
  with_reducible repeat' first
    | rfl | apply State.unit_ite | refine State.modRing_unit.trans ?_ | refine raise_unit.trans ?_ | split

theorem dbIdx_unit {s : State} {k v : Nat} :
    State.unit (dbIdx s k v) = State.unit s := by
  unfold dbIdx
  with_reducible repeat' first
    | rfl | apply State.unit_ite | refine State.modRing_unit.trans ?_ | refine dbError_unit.trans ?_ | split

theorem dbCpl_unit {s : State} {k v : Nat} :
    State.unit (dbCpl s k v) = State.unit s := by
  unfold dbCpl
  with_reducible repeat' first
    | rfl | apply State.unit_ite | refine State.modRing_unit.trans ?_ | refine dbError_unit.trans ?_ | split

theorem dbArm_unit {s : State} {k : Nat} :
    State.unit (dbArm s k) = State.unit s := by
  unfold dbArm
  with_reducible repeat' first
    | rfl | refine State.modRing_unit.trans ?_ | refine ringNotify_unit.trans ?_

theorem doorbellOp_unit {b r : Nat} {be : BitVec 8} {data : BitVec 64} {s : State} :
    State.unit (doorbellOp b r be data s) = State.unit s := by
  unfold doorbellOp
  with_reducible repeat' first
    | rfl | apply State.unit_ite | refine dbIdx_unit.trans ?_ | refine dbCpl_unit.trans ?_
    | refine dbArm_unit.trans ?_ | split

theorem evconsOp_unit {b : Nat} {data : Word} {s : State} :
    State.unit (evconsOp b data s) = State.unit s := by
  unfold evconsOp
  with_reducible repeat' first
    | rfl | apply State.unit_ite | refine State.modEv_unit.trans ?_ | refine raise_unit.trans ?_
    | refine State.flushEv_unit.trans ?_ | refine evNotify_unit.trans ?_ | split

theorem flushChan_unit {s : State} {n k : Nat} :
    State.unit (flushChan s n k) = State.unit s := by
  unfold flushChan
  with_reducible repeat' first
    | rfl | intro _ | apply State.unit_ite | apply State.unit_foldl | refine endFrames_unit.trans ?_
    | refine State.modCan_unit.trans ?_ | refine State.modSeg_unit.trans ?_ | split

theorem flushNet_unit {s : State} {p k : Nat} :
    State.unit (flushNet s p k) = State.unit s := by
  unfold flushNet
  with_reducible repeat' first
    | rfl | refine endFrames_unit.trans ?_ | refine State.modNet_unit.trans ?_

theorem flushCmds_unit {s : State} {n k : Nat} :
    State.unit (flushCmds s n k) = State.unit s := by
  unfold flushCmds
  with_reducible repeat' first
    | rfl | intro _ | apply State.unit_ite | apply State.unit_foldl | refine finish_unit.trans ?_
    | refine State.modCh_unit.trans ?_ | split

theorem flushRingWork_unit {s : State} {k : Nat} :
    State.unit (flushRingWork s k) = State.unit s := by
  unfold flushRingWork
  with_reducible repeat' first
    | rfl | intro _ | apply State.unit_foldl | refine flushChan_unit.trans ?_ | refine flushCmds_unit.trans ?_
    | refine flushNet_unit.trans ?_

theorem ringsServe_unit {s : State} :
    State.unit (ringsServe s) = State.unit s := by
  unfold ringsServe
  with_reducible repeat' first
    | rfl | intro _ | apply State.unit_ite | apply State.unit_foldl | refine State.flushEv_unit.trans ?_ | split

theorem takeFlight_unit {s : State} {k : Nat} {cookies : List Slot} {ckind channel : Nat} :
    State.unit (takeFlight s k cookies ckind channel) = State.unit s := by
  unfold takeFlight
  with_reducible repeat' first
    | rfl | refine State.modRing_unit.trans ?_ | refine writeIdx_unit.trans ?_

theorem channelFlightsLost_unit {s : State} {n : Nat} :
    State.unit (channelFlightsLost s n) = State.unit s := by
  unfold channelFlightsLost
  with_reducible repeat' first
    | rfl | intro _ | apply State.unit_ite | apply State.unit_foldl | refine finish_unit.trans ?_ | split

theorem cmdPass_unit {s : State} {k id b : Nat} {d : BitVec 256} {p : Point} :
    State.unit (cmdPass s k id b d p) = State.unit s := by
  unfold cmdPass
  with_reducible repeat' first
    | rfl | apply State.unit_ite | refine finish_unit.trans ?_ | refine enterEntry_unit.trans ?_
    | refine acquire_unit.trans ?_ | refine countArrival_unit.trans ?_ | refine State.modCh_unit.trans ?_ | split

theorem countTx_unit {s : State} {t o : Nat} :
    State.unit (countTx s t o) = State.unit s := by
  unfold countTx
  with_reducible repeat' first
    | rfl | apply State.unit_ite | refine netCount_unit.trans ?_ | refine segCount_unit.trans ?_ | split

theorem moderationOp_unit {b r : Nat} {s : State} :
    State.unit (moderationOp b r s) = State.unit s := by
  unfold moderationOp
  with_reducible repeat' first
    | rfl | apply State.unit_ite | refine evNotify_unit.trans ?_ | refine ringNotify_unit.trans ?_ | split


theorem declDone_unit {s : State} {fn res id : Nat} :
    State.unit (declDone s fn res id) = State.unit s := by
  unfold declDone
  with_reducible repeat' first
    | rfl | refine State.modFn_unit.trans ?_

theorem loopPointsOut_unit {s : State} {id : Nat} :
    State.unit (loopPointsOut s id) = State.unit s := by
  unfold loopPointsOut
  with_reducible repeat' first
    | rfl | intro _ | apply State.unit_foldl | refine acquire_unit.trans ?_


theorem pairRec_unit {s : State} {i : Nat} {payload : List Byte} :
    State.unit (pairRec s i payload) = State.unit s := by
  unfold pairRec
  with_reducible repeat' first
    | rfl | refine raise_unit.trans ?_ | refine State.sendVec_unit.trans ?_

theorem stopChannel_unit {s : State} {n : Nat} {h : Instant} :
    State.unit (stopChannel s n h) = State.unit s := by
  unfold stopChannel
  with_reducible repeat' first
    | rfl | apply State.unit_ite | refine State.modCh_unit.trans ?_ | split

theorem yieldTo_unit {s : State} {cause : Nat} :
    State.unit (yieldTo s cause) = State.unit s := by
  unfold yieldTo
  with_reducible repeat' first
    | rfl | intro _ | apply State.unit_ite | apply State.unit_foldl | refine stopChannel_unit.trans ?_
    | refine State.modPair_unit.trans ?_ | split

theorem channelYield_unit {s : State} {n : Nat} :
    State.unit (channelYield s n) = State.unit s := by
  unfold channelYield
  with_reducible repeat' first
    | rfl | apply State.unit_ite | refine yieldTo_unit.trans ?_ | split


theorem loopPointsAt_unit {s : State} {id n : Nat} :
    State.unit (loopPointsAt s id n) = State.unit s := by
  unfold loopPointsAt
  with_reducible repeat' first
    | rfl | apply State.unit_ite | split

theorem occupySlot_unit {s : State} {id n t : Nat} :
    State.unit (occupySlot s id n t) = State.unit s := by
  unfold occupySlot
  with_reducible repeat' first
    | rfl | apply State.unit_ite | refine State.modCh_unit.trans ?_ | split

theorem loopMovedRec_unit {s : State} {b id n t n' t' reason : Nat} {tm : Instant} :
    State.unit (loopMovedRec s b id n t n' t' reason tm) = State.unit s := by
  unfold loopMovedRec
  with_reducible repeat' first
    | rfl | refine raiseBoth_unit.trans ?_

theorem mirrorMove_unit {s : State} {m : Migration} :
    State.unit (mirrorMove s m) = State.unit s := by
  unfold mirrorMove
  with_reducible repeat' first
    | rfl | refine State.mirror_unit.trans ?_ | split

theorem applyPoint_unit {s : State} {h : Nat} :
    State.unit (applyPoint s h) = State.unit s := by
  unfold applyPoint
  with_reducible repeat' first
    | rfl | apply State.unit_ite | refine State.modPt_unit.trans ?_ | refine State.mirror_unit.trans ?_
    | refine raiseBoth_unit.trans ?_ | refine acquire_unit.trans ?_ | split

theorem steerRecords_unit {s : State} {l : List Steer} :
    State.unit (steerRecords s l) = State.unit s := by
  unfold steerRecords
  with_reducible repeat' first
    | rfl | intro _ | apply State.unit_ite | apply State.unit_foldl | refine raiseBoth_unit.trans ?_
    | refine State.modPt_unit.trans ?_ | split

theorem pinConflicts_unit {s : State} {p : Plan} :
    State.unit (pinConflicts s p) = State.unit s := by
  unfold pinConflicts
  with_reducible repeat' first
    | rfl | intro _ | apply State.unit_ite | apply State.unit_foldl | refine raise_unit.trans ?_ | split

theorem capacityChanged_unit {s : State} {n : Nat} :
    State.unit (capacityChanged s n) = State.unit s := by
  unfold capacityChanged
  with_reducible repeat' first
    | rfl | refine raise_unit.trans ?_ | split

theorem cancelCanQueues_unit {n : Nat} {s : State} :
    State.unit (cancelCanQueues n s) = State.unit s := by
  unfold cancelCanQueues
  with_reducible repeat' first
    | rfl | intro _ | apply State.unit_ite | apply State.unit_foldl | refine endFrames_unit.trans ?_
    | refine State.modCan_unit.trans ?_ | split

theorem frameCancelsLost_unit {s : State} {n : Nat} :
    State.unit (frameCancelsLost s n) = State.unit s := by
  unfold frameCancelsLost
  with_reducible repeat' first
    | rfl | intro _ | apply State.unit_foldl | refine finish_unit.trans ?_

/- ### `State.bodies` -/

theorem State.sendVec_bodies {s : State} {b v : Nat} :
    State.bodies (State.sendVec s b v) = State.bodies s := by
  unfold State.sendVec
  with_reducible repeat' first
    | rfl | apply State.bodies_ite | refine State.modFn_bodies.trans ?_ | refine State.emit_bodies.trans ?_ | split

theorem State.alert_bodies {s : State} {i : Nat} :
    State.bodies (State.alert s i) = State.bodies s := by
  unfold State.alert
  with_reducible repeat' first
    | rfl | apply State.bodies_ite | refine State.sendVec_bodies.trans ?_ | split

theorem State.intBit_bodies {s : State} {key i vec : Nat} :
    State.bodies (State.intBit s key i vec) = State.bodies s := by
  unfold State.intBit
  with_reducible repeat' first
    | rfl | apply State.bodies_ite | refine State.setReg_bodies.trans ?_ | refine State.sendVec_bodies.trans ?_
    | split

theorem writeEvIdx_bodies {s : State} {b : Nat} :
    State.bodies (writeEvIdx s b) = State.bodies s := by
  unfold writeEvIdx
  with_reducible repeat' first
    | rfl | apply State.bodies_ite | refine State.emit_bodies.trans ?_ | refine State.modEv_bodies.trans ?_ | split

theorem evNotify_bodies {s : State} {b : Nat} {due : Bool} :
    State.bodies (evNotify s b due) = State.bodies s := by
  unfold evNotify
  with_reducible repeat' first
    | rfl | apply State.bodies_ite | refine State.modEv_bodies.trans ?_ | refine State.sendVec_bodies.trans ?_
    | split

theorem pumpEv_bodies {b : Nat} : ∀ {q : List EvRec} {s : State}, State.bodies (pumpEv b q s) = State.bodies s
  | [], _ => rfl
  | _ :: q, s => by
    unfold pumpEv
    dsimp only
    split
    · exact (pumpEv_bodies (q := q)).trans (evNotify_bodies.trans (writeEvIdx_bodies.trans (State.modEv_bodies.trans State.emit_bodies)))
    · rfl

theorem State.flushEv_bodies {s : State} {b : Nat} :
    State.bodies (State.flushEv s b) = State.bodies s := by
  unfold State.flushEv
  with_reducible repeat' first
    | rfl | refine pumpEv_bodies.trans ?_

theorem raise_bodies {s : State} {b kind subject : Nat} {payload : List Byte} :
    State.bodies (raise s b kind subject payload) = State.bodies s := by
  unfold raise
  with_reducible repeat' first
    | rfl | apply State.bodies_ite | refine State.modEv_bodies.trans ?_ | refine writeEvIdx_bodies.trans ?_
    | refine State.flushEv_bodies.trans ?_ | split

theorem raiseBoth_bodies {s : State} {kind subject : Nat} {payload : List Byte} :
    State.bodies (raiseBoth s kind subject payload) = State.bodies s := by
  unfold raiseBoth
  with_reducible repeat' first
    | rfl | apply State.bodies_ite | refine raise_bodies.trans ?_ | split

theorem State.mirror_bodies {s : State} {r : MirrorRec} :
    State.bodies (State.mirror s r) = State.bodies s := by
  unfold State.mirror
  with_reducible repeat' first
    | rfl | apply State.bodies_ite | refine State.modPair_bodies.trans ?_ | refine State.emit_bodies.trans ?_
    | split


theorem writeIdx_bodies {s : State} {k : Nat} :
    State.bodies (writeIdx s k) = State.bodies s := by
  unfold writeIdx
  with_reducible repeat' first
    | rfl | apply State.bodies_ite | refine State.emit_bodies.trans ?_ | refine State.modRing_bodies.trans ?_
    | split

theorem ringNotify_bodies {s : State} {k : Nat} {due : Bool} :
    State.bodies (ringNotify s k due) = State.bodies s := by
  unfold ringNotify
  with_reducible repeat' first
    | rfl | apply State.bodies_ite | refine State.modRing_bodies.trans ?_ | refine State.sendVec_bodies.trans ?_
    | split

theorem ringItem_bodies {s : State} {k : Nat} :
    State.bodies (ringItem s k) = State.bodies s := by
  unfold ringItem
  with_reducible repeat' first
    | rfl | refine State.modRing_bodies.trans ?_ | refine writeIdx_bodies.trans ?_
    | refine ringNotify_bodies.trans ?_

theorem putCompletion_bodies {s : State} {k : Nat} {c : Completion} :
    State.bodies (putCompletion s k c) = State.bodies s := by
  unfold putCompletion
  with_reducible repeat' first
    | rfl | refine State.emit_bodies.trans ?_ | refine ringItem_bodies.trans ?_
    | refine State.modRing_bodies.trans ?_

theorem complete_bodies {s : State} {k : Nat} {c : Completion} :
    State.bodies (complete s k c) = State.bodies s := by
  unfold complete
  with_reducible repeat' first
    | rfl | apply State.bodies_ite | refine State.modRing_bodies.trans ?_ | refine putCompletion_bodies.trans ?_
    | split

theorem completeAll_bodies {k idx status ckind : Nat} {tsq late : Bool} {info : Word} :
    ∀ {l : List Slot} {j : Nat} {s : State},
      State.bodies (completeAll s k idx status ckind tsq late info j l) = State.bodies s
  | [], _, _ => rfl
  | _ :: l, j, _ => (completeAll_bodies (l := l) (j := j + 1)).trans complete_bodies

theorem finish_bodies {s : State} {k id status : Nat} {tsq late : Bool} {info : Word} :
    State.bodies (finish s k id status tsq late info) = State.bodies s := by
  unfold finish
  with_reducible repeat' first
    | rfl | apply State.bodies_ite | refine completeAll_bodies.trans ?_ | refine State.modRing_bodies.trans ?_
    | split

theorem putHeld_bodies {s : State} {k : Nat} {h : HeldWrite} :
    State.bodies (putHeld s k h) = State.bodies s := by
  unfold putHeld
  with_reducible repeat' first
    | rfl | apply State.bodies_ite | refine putCompletion_bodies.trans ?_ | refine State.emit_bodies.trans ?_
    | refine State.modRing_bodies.trans ?_ | refine ringItem_bodies.trans ?_ | refine writeIdx_bodies.trans ?_
    | split

theorem flushRing_bodies {s : State} {k : Nat} :
    State.bodies (flushRing s k) = State.bodies s := by
  unfold flushRing
  with_reducible repeat' first
    | rfl | intro _ | apply State.bodies_ite | apply State.bodies_foldl | refine putHeld_bodies.trans ?_
    | refine State.modRing_bodies.trans ?_ | split

theorem putSlot_bodies {s : State} {k idx : Nat} {bytes : List Byte} {last : Bool} :
    State.bodies (putSlot s k idx bytes last) = State.bodies s := by
  unfold putSlot
  with_reducible repeat' first
    | rfl | apply State.bodies_ite | refine putHeld_bodies.trans ?_ | refine State.modRing_bodies.trans ?_ | split

theorem putSlots_bodies {k : Nat} : ∀ {l : List (List Byte)} {i : Nat} {s : State}, State.bodies (putSlots s k i l) = State.bodies s
  | [], _, _ => rfl
  | [_], _, _ => putSlot_bodies
  | _ :: c :: l, i, _ => (putSlots_bodies (l := c :: l) (i := i + 1)).trans putSlot_bodies

theorem withhold_bodies {s : State} {b : Nat} :
    State.bodies (withhold s b) = State.bodies s := by
  unfold withhold
  with_reducible repeat' first
    | rfl | refine State.modFn_bodies.trans ?_

theorem steer_bodies {s : State} {b r h : Nat} {p : Point} {m : Mirror} {repeated : Bool} :
    State.bodies (steer s b r h p m repeated) = State.bodies s := by
  unfold steer
  with_reducible repeat' first
    | rfl | apply State.bodies_ite | refine State.emit_bodies.trans ?_ | refine State.modPwr_bodies.trans ?_
    | refine ringItem_bodies.trans ?_ | refine State.modRing_bodies.trans ?_ | refine writeIdx_bodies.trans ?_
    | refine withhold_bodies.trans ?_ | split

theorem writeBuf_bodies {b : Nat} : ∀ {n addr : Nat} {bytes : List Byte} {s : State}, State.bodies (writeBuf b n addr bytes s) = State.bodies s
  | 0, _, _, _ => rfl
  | n + 1, addr, bytes, s => by
    unfold writeBuf
    split
    · rfl
    · exact (writeBuf_bodies (n := n)).trans State.emit_bodies

theorem rxData_bodies {b : Nat} :
    ∀ {l : List (BitVec 512)} {bs : List Byte} {s : State}, State.bodies (rxData s b l bs) = State.bodies s
  | [], _, _ => rfl
  | _ :: l, bs, s => by
    unfold rxData
    split
    · exact rxData_bodies (l := l)
    · split
      · rfl
      · exact (rxData_bodies (l := l)).trans writeBuf_bodies

theorem deliverFrame_bodies {s : State} {k : Nat} {f : RxFrame} {posted : List (BitVec 512)} :
    State.bodies (deliverFrame s k f posted) = State.bodies s := by
  unfold deliverFrame
  with_reducible repeat' first
    | rfl | apply State.bodies_ite | refine State.modRing_bodies.trans ?_ | refine putSlots_bodies.trans ?_
    | refine writeIdx_bodies.trans ?_ | refine rxData_bodies.trans ?_ | split


theorem dirChanged_bodies {s : State} :
    State.bodies (dirChanged s) = State.bodies s := by
  unfold dirChanged
  with_reducible repeat' first
    | rfl | refine State.modWs_bodies.trans ?_

theorem dirFrom_bodies {s t : State} :
    State.bodies (dirFrom s t) = State.bodies t := by
  unfold dirFrom
  with_reducible repeat' first
    | rfl | apply State.bodies_ite | refine dirChanged_bodies.trans ?_ | split

theorem deliver_bodies {s : State} {h : Nat} {m : Mirror} {repeated : Bool} :
    State.bodies (deliver s h m repeated) = State.bodies s := by
  unfold deliver
  with_reducible repeat' first
    | rfl | intro _ | apply State.bodies_ite | apply State.bodies_foldl | refine steer_bodies.trans ?_
    | refine (State.modCh_bodies ?_).trans ?_ | intro _ | refine State.modPt_bodies.trans ?_ | split

theorem covUnit_bodies {s : State} {h : Nat} {p : Point} {m : Mirror} {newSeq : Bool} :
    State.bodies (covUnit s h p m newSeq) = State.bodies s := by
  unfold covUnit
  with_reducible repeat' first
    | rfl | apply State.bodies_ite | refine deliver_bodies.trans ?_ | refine State.modPt_bodies.trans ?_ | split

theorem mirrorWrite_bodies {s : State} {h : Nat} {m : Mirror} :
    State.bodies (mirrorWrite s h m) = State.bodies s := by
  unfold mirrorWrite
  with_reducible repeat' first
    | rfl | refine State.modPt_bodies.trans ?_ | refine State.mirror_bodies.trans ?_
    | refine covUnit_bodies.trans ?_ | split

theorem acquire_bodies {s : State} {h : Nat} {v : Slot} {q : Nat} {stamp : Instant} :
    State.bodies (acquire s h v q stamp) = State.bodies s := by
  unfold acquire
  with_reducible repeat' first
    | rfl | apply State.bodies_ite | refine State.modPt_bodies.trans ?_ | refine mirrorWrite_bodies.trans ?_
    | refine (State.modCh_bodies ?_).trans ?_ | intro _ | split

theorem hubUpdate_bodies {s : State} {n : Nat} {u : Update} :
    State.bodies (hubUpdate s n u) = State.bodies s := by
  unfold hubUpdate
  with_reducible repeat' first
    | rfl | apply State.bodies_ite | refine raise_bodies.trans ?_ | refine mirrorWrite_bodies.trans ?_ | split

theorem pointUpdateOp_bodies {n : Nat} {s : State} :
    State.bodies (pointUpdateOp n s) = State.bodies s := by
  unfold pointUpdateOp
  with_reducible repeat' first
    | rfl | refine hubUpdate_bodies.trans ?_ | refine (State.modCh_bodies ?_).trans ?_ | intro _ | split

theorem markStale_bodies {s : State} {n : Nat} :
    State.bodies (markStale s n) = State.bodies s := by
  unfold markStale
  with_reducible repeat' first
    | rfl | intro _ | apply State.bodies_foldl | refine deliver_bodies.trans ?_ | refine State.modPt_bodies.trans ?_
    | refine State.mirror_bodies.trans ?_ | split

theorem resendAll_bodies {s : State} {n : Nat} :
    State.bodies (resendAll s n) = State.bodies s := by
  unfold resendAll
  with_reducible repeat' first
    | rfl | refine (State.modCh_bodies ?_).trans ?_ | intro _

theorem minExpiryOp_bodies {h : Nat} {s : State} :
    State.bodies (minExpiryOp h s) = State.bodies s := by
  unfold minExpiryOp
  with_reducible repeat' first
    | rfl | apply State.bodies_ite | refine deliver_bodies.trans ?_ | refine State.modPt_bodies.trans ?_ | split

theorem maxExpiryOp_bodies {h : Nat} {s : State} :
    State.bodies (maxExpiryOp h s) = State.bodies s := by
  unfold maxExpiryOp
  with_reducible repeat' first
    | rfl | apply State.bodies_ite | refine deliver_bodies.trans ?_ | split

theorem dirwinOp_bodies {en : Bool} {s : State} :
    State.bodies (dirwinOp en s) = State.bodies s := by
  unfold dirwinOp
  with_reducible repeat' first
    | rfl | refine State.setReg_bodies.trans ?_


theorem acquireTerm_bodies {s : State} {n term : Nat} {v : Slot} {q : Nat} {stamp : Instant} :
    State.bodies (acquireTerm s n term v q stamp) = State.bodies s := by
  unfold acquireTerm
  with_reducible repeat' first
    | rfl | intro _ | apply State.bodies_foldl | refine acquire_bodies.trans ?_

theorem acquireDin_bodies {s : State} {n i : Nat} {q : Nat} {stamp : Instant} :
    State.bodies (acquireDin s n i q stamp) = State.bodies s := by
  unfold acquireDin
  with_reducible repeat' first
    | rfl | apply State.bodies_ite | refine acquireTerm_bodies.trans ?_ | split

theorem acquireCnt_bodies {s : State} {n i : Nat} {q : Nat} {stamp : Instant} :
    State.bodies (acquireCnt s n i q stamp) = State.bodies s := by
  unfold acquireCnt
  with_reducible repeat' first
    | rfl | refine acquireTerm_bodies.trans ?_

theorem acquireInputs_bodies {s : State} {n : Nat} {q : Nat} :
    State.bodies (acquireInputs s n q) = State.bodies s := by
  unfold acquireInputs
  with_reducible repeat' first
    | rfl | intro _ | apply State.bodies_ite | apply State.bodies_foldl | refine acquireDin_bodies.trans ?_
    | refine acquireCnt_bodies.trans ?_ | split

theorem reacquireAin_bodies {s : State} {n i : Nat} {q : Nat} :
    State.bodies (reacquireAin s n i q) = State.bodies s := by
  unfold reacquireAin
  with_reducible repeat' first
    | rfl | intro _ | apply State.bodies_foldl | refine acquire_bodies.trans ?_

theorem counterAcqOp_bodies {n : Nat} {s : State} :
    State.bodies (counterAcqOp n s) = State.bodies s := by
  unfold counterAcqOp
  with_reducible repeat' first
    | rfl | intro _ | apply State.bodies_ite | apply State.bodies_foldl | refine acquireDin_bodies.trans ?_
    | refine acquireCnt_bodies.trans ?_ | split

theorem inputsChanged_bodies {old s : State} {n : Nat} :
    State.bodies (inputsChanged old s n) = State.bodies s := by
  unfold inputsChanged
  with_reducible repeat' first
    | rfl | intro _ | apply State.bodies_ite | apply State.bodies_foldl | refine acquireDin_bodies.trans ?_
    | refine acquireCnt_bodies.trans ?_ | refine reacquireAin_bodies.trans ?_ | split

theorem acquireAin_bodies {s : State} {n i range : Nat} {u m : Int} {bad : Bool} :
    State.bodies (acquireAin s n i range u m bad) = State.bodies s := by
  unfold acquireAin
  with_reducible repeat' first
    | rfl | intro _ | apply State.bodies_ite | apply State.bodies_foldl | refine acquire_bodies.trans ?_ | split


theorem timeRec_bodies {s : State} {i : Nat} {payload : List Byte} :
    State.bodies (timeRec s i payload) = State.bodies s := by
  unfold timeRec
  with_reducible repeat' first
    | rfl | refine raise_bodies.trans ?_ | refine State.intBit_bodies.trans ?_

theorem tsqPopOp_bodies {q : Nat} {s : State} :
    State.bodies (tsqPopOp q s) = State.bodies s := by
  unfold tsqPopOp
  with_reducible repeat' first
    | rfl | apply State.bodies_ite | split

theorem sendReport_bodies {s : State} {n : Nat} {r : Report} :
    State.bodies (sendReport s n r) = State.bodies s := by
  unfold sendReport
  with_reducible repeat' first
    | rfl | apply State.bodies_ite | refine (State.modCh_bodies ?_).trans ?_ | intro _ | split

theorem actRecord_bodies {s : State} {t i : Nat} {e : Entry} {outcome detail lateUs skipped : Nat} {final : Bool} :
    State.bodies (actRecord s t i e outcome detail lateUs skipped final) = State.bodies s := by
  unfold actRecord
  with_reducible repeat' first
    | rfl | apply State.bodies_ite | refine (State.modCh_bodies ?_).trans ?_ | intro _
    | refine State.modEv_bodies.trans ?_ | refine raise_bodies.trans ?_ | split

theorem outcomeReportedOp_bodies {n : Nat} {s : State} :
    State.bodies (outcomeReportedOp n s) = State.bodies s := by
  unfold outcomeReportedOp
  with_reducible repeat' first
    | rfl | apply State.bodies_ite | refine finish_bodies.trans ?_ | refine (State.modCh_bodies ?_).trans ?_
    | intro _ | split

theorem releaseRecs_bodies {s : State} {n : Nat} :
    State.bodies (releaseRecs s n) = State.bodies s := by
  unfold releaseRecs
  with_reducible repeat' first
    | rfl | intro _ | apply State.bodies_foldl | refine raise_bodies.trans ?_
    | refine (State.modCh_bodies ?_).trans ?_ | intro _


theorem chRaise_bodies {s : State} {n b kind subject : Nat} {payload : List Byte} :
    State.bodies (chRaise s n b kind subject payload) = State.bodies s := by
  unfold chRaise
  with_reducible repeat' first
    | rfl | apply State.bodies_ite | refine (State.modCh_bodies ?_).trans ?_ | intro _
    | refine State.modEv_bodies.trans ?_ | refine raise_bodies.trans ?_ | split

theorem chRaiseBoth_bodies {s : State} {n kind subject : Nat} {payload : List Byte} :
    State.bodies (chRaiseBoth s n kind subject payload) = State.bodies s := by
  unfold chRaiseBoth
  with_reducible repeat' first
    | rfl | apply State.bodies_ite | refine chRaise_bodies.trans ?_ | split

theorem cancelAnswer_bodies {s : State} {n : Nat} {f : TxFrame} {status : Nat} :
    State.bodies (cancelAnswer s n f status) = State.bodies s := by
  unfold cancelAnswer
  with_reducible repeat' first
    | rfl | intro _ | apply State.bodies_ite | apply State.bodies_foldl | refine sendReport_bodies.trans ?_
    | refine finish_bodies.trans ?_ | split

theorem canDecode_bodies {s : State} {n x : Nat} {f : CanFrame} {stamp : Instant} :
    State.bodies (canDecode s n x f stamp) = State.bodies s := by
  unfold canDecode
  with_reducible repeat' first
    | rfl | intro _ | apply State.bodies_foldl | refine acquire_bodies.trans ?_ | split


theorem segAcquire_bodies {s : State} {h : Nat} {p : Point} {b : List Byte} {count i : Nat} {stamp : Instant} :
    State.bodies (segAcquire s h p b count i stamp) = State.bodies s := by
  unfold segAcquire
  with_reducible repeat' first
    | rfl | refine acquire_bodies.trans ?_ | split


theorem tagMismatch_bodies {s : State} {n h tag owner : Nat} :
    State.bodies (tagMismatch s n h tag owner) = State.bodies s := by
  unfold tagMismatch
  with_reducible repeat' first
    | rfl | refine chRaise_bodies.trans ?_


theorem publishLoop_bodies {s : State} {n id : Nat} {b : Bank} {r : LoopRt} :
    State.bodies (publishLoop s n id b r) = State.bodies s := by
  unfold publishLoop
  with_reducible repeat' first
    | rfl | intro _ | apply State.bodies_ite | apply State.bodies_foldl | refine acquire_bodies.trans ?_ | split


theorem clearAlert_bodies {s : State} {w : Word} :
    State.bodies (clearAlert s w) = State.bodies s := by
  unfold clearAlert
  with_reducible repeat' first
    | rfl | refine State.alert_bodies.trans ?_

theorem clearInt_bodies {s : State} {key : Nat} {w : Word} :
    State.bodies (clearInt s key w) = State.bodies s := by
  unfold clearInt
  with_reducible repeat' first
    | rfl | refine State.setReg_bodies.trans ?_

theorem sendPending_bodies {s : State} {b : Nat} :
    State.bodies (sendPending s b) = State.bodies s := by
  unfold sendPending
  with_reducible repeat' first
    | rfl | intro _ | apply State.bodies_foldl | refine State.modFn_bodies.trans ?_
    | refine State.sendVec_bodies.trans ?_


theorem dbError_bodies {s : State} {k field refused inForce : Nat} :
    State.bodies (dbError s k field refused inForce) = State.bodies s := by
  unfold dbError
  with_reducible repeat' first
    | rfl | apply State.bodies_ite | refine State.modRing_bodies.trans ?_ | refine raise_bodies.trans ?_ | split

theorem dbIdx_bodies {s : State} {k v : Nat} :
    State.bodies (dbIdx s k v) = State.bodies s := by
  unfold dbIdx
  with_reducible repeat' first
    | rfl | apply State.bodies_ite | refine State.modRing_bodies.trans ?_ | refine dbError_bodies.trans ?_ | split

theorem dbCpl_bodies {s : State} {k v : Nat} :
    State.bodies (dbCpl s k v) = State.bodies s := by
  unfold dbCpl
  with_reducible repeat' first
    | rfl | apply State.bodies_ite | refine State.modRing_bodies.trans ?_ | refine dbError_bodies.trans ?_ | split

theorem dbArm_bodies {s : State} {k : Nat} :
    State.bodies (dbArm s k) = State.bodies s := by
  unfold dbArm
  with_reducible repeat' first
    | rfl | refine State.modRing_bodies.trans ?_ | refine ringNotify_bodies.trans ?_

theorem doorbellOp_bodies {b r : Nat} {be : BitVec 8} {data : BitVec 64} {s : State} :
    State.bodies (doorbellOp b r be data s) = State.bodies s := by
  unfold doorbellOp
  with_reducible repeat' first
    | rfl | apply State.bodies_ite | refine dbIdx_bodies.trans ?_ | refine dbCpl_bodies.trans ?_
    | refine dbArm_bodies.trans ?_ | split

theorem evconsOp_bodies {b : Nat} {data : Word} {s : State} :
    State.bodies (evconsOp b data s) = State.bodies s := by
  unfold evconsOp
  with_reducible repeat' first
    | rfl | apply State.bodies_ite | refine State.modEv_bodies.trans ?_ | refine raise_bodies.trans ?_
    | refine State.flushEv_bodies.trans ?_ | refine evNotify_bodies.trans ?_ | split

theorem trigger_bodies {s : State} {t : Nat} :
    State.bodies (trigger s t) = State.bodies s := by
  unfold trigger
  with_reducible repeat' first
    | rfl | refine State.modWs_bodies.trans ?_ | split

theorem ringEnableOp_bodies {b r : Nat} {ctl : Word} {s : State} :
    State.bodies (ringEnableOp b r ctl s) = State.bodies s := by
  unfold ringEnableOp
  with_reducible repeat' first
    | rfl | apply State.bodies_ite | refine State.setReg_bodies.trans ?_ | refine State.modRing_bodies.trans ?_
    | refine trigger_bodies.trans ?_ | refine writeIdx_bodies.trans ?_ | split

theorem ringOff_bodies {s : State} {k : Nat} :
    State.bodies (ringOff s k) = State.bodies s := by
  unfold ringOff
  with_reducible repeat' first
    | rfl | refine ringNotify_bodies.trans ?_ | refine writeIdx_bodies.trans ?_
    | refine State.modRing_bodies.trans ?_ | refine State.setReg_bodies.trans ?_

theorem ringDisabledOp_bodies {b r : Nat} {posted : List (BitVec 512)} {s : State} :
    State.bodies (ringDisabledOp b r posted s) = State.bodies s := by
  unfold ringDisabledOp
  with_reducible repeat' first
    | rfl | apply State.bodies_ite | refine putSlots_bodies.trans ?_ | refine ringOff_bodies.trans ?_ | split

theorem evCtlOp_bodies {b : Nat} {ctl : Word} {s : State} :
    State.bodies (evCtlOp b ctl s) = State.bodies s := by
  unfold evCtlOp
  with_reducible repeat' first
    | rfl | apply State.bodies_ite | refine State.setReg_bodies.trans ?_ | refine State.modEv_bodies.trans ?_
    | refine writeEvIdx_bodies.trans ?_ | refine State.flushEv_bodies.trans ?_ | refine evNotify_bodies.trans ?_
    | split

theorem ringsServe_bodies {s : State} :
    State.bodies (ringsServe s) = State.bodies s := by
  unfold ringsServe
  with_reducible repeat' first
    | rfl | intro _ | apply State.bodies_ite | apply State.bodies_foldl | refine State.flushEv_bodies.trans ?_
    | split

theorem takeFlight_bodies {s : State} {k : Nat} {cookies : List Slot} {ckind channel : Nat} :
    State.bodies (takeFlight s k cookies ckind channel) = State.bodies s := by
  unfold takeFlight
  with_reducible repeat' first
    | rfl | refine State.modRing_bodies.trans ?_ | refine writeIdx_bodies.trans ?_

theorem haltRing_bodies {s : State} {k cause : Nat} {cookies : List Slot} {ckind : Nat} :
    State.bodies (haltRing s k cause cookies ckind) = State.bodies s := by
  unfold haltRing
  with_reducible repeat' first
    | rfl | apply State.bodies_ite | refine takeFlight_bodies.trans ?_ | refine State.modRing_bodies.trans ?_
    | refine raise_bodies.trans ?_ | refine trigger_bodies.trans ?_ | refine ringNotify_bodies.trans ?_ | split

theorem channelFlightsLost_bodies {s : State} {n : Nat} :
    State.bodies (channelFlightsLost s n) = State.bodies s := by
  unfold channelFlightsLost
  with_reducible repeat' first
    | rfl | intro _ | apply State.bodies_ite | apply State.bodies_foldl | refine finish_bodies.trans ?_ | split

theorem moderationOp_bodies {b r : Nat} {s : State} :
    State.bodies (moderationOp b r s) = State.bodies s := by
  unfold moderationOp
  with_reducible repeat' first
    | rfl | apply State.bodies_ite | refine evNotify_bodies.trans ?_ | refine ringNotify_bodies.trans ?_ | split

/- ### Field by field -/

@[simp] theorem State.sendVec_pending {s : State} {b v : Nat} : (State.sendVec s b v).pending = s.pending :=
  (congrArg State.pending (State.sendVec_quiet : State.quiet (State.sendVec s b v) = s.quiet) :)
@[simp] theorem State.sendVec_free {s : State} {b v : Nat} : (State.sendVec s b v).free = s.free :=
  (congrArg State.free (State.sendVec_quiet : State.quiet (State.sendVec s b v) = s.quiet) :)
@[simp] theorem State.sendVec_ticks {s : State} {b v : Nat} : (State.sendVec s b v).ticks = s.ticks :=
  (congrArg State.ticks (State.sendVec_quiet : State.quiet (State.sendVec s b v) = s.quiet) :)
@[simp] theorem State.sendVec_ident {s : State} {b v : Nat} : (State.sendVec s b v).ident = s.ident :=
  (congrArg State.ident (State.sendVec_quiet : State.quiet (State.sendVec s b v) = s.quiet) :)
@[simp] theorem State.sendVec_regs {s : State} {b v : Nat} : (State.sendVec s b v).regs = s.regs :=
  (congrArg State.regs (State.sendVec_quiet : State.quiet (State.sendVec s b v) = s.quiet) :)
@[simp] theorem State.sendVec_low64 {s : State} {b v : Nat} : (State.sendVec s b v).low64 = s.low64 :=
  (congrArg State.low64 (State.sendVec_quiet : State.quiet (State.sendVec s b v) = s.quiet) :)
@[simp] theorem State.sendVec_high64 {s : State} {b v : Nat} : (State.sendVec s b v).high64 = s.high64 :=
  (congrArg State.high64 (State.sendVec_quiet : State.quiet (State.sendVec s b v) = s.quiet) :)
@[simp] theorem State.sendVec_pins {s : State} {b v : Nat} : (State.sendVec s b v).pins = s.pins :=
  (congrArg State.pins (State.sendVec_quiet : State.quiet (State.sendVec s b v) = s.quiet) :)
@[simp] theorem State.sendVec_host {s : State} {b v : Nat} : (State.sendVec s b v).host = s.host :=
  (congrArg State.host (State.sendVec_quiet : State.quiet (State.sendVec s b v) = s.quiet) :)
@[simp] theorem State.sendVec_rings {s : State} {b v : Nat} : (State.sendVec s b v).rings = s.rings :=
  (congrArg State.rings (State.sendVec_quiet : State.quiet (State.sendVec s b v) = s.quiet) :)
@[simp] theorem State.sendVec_points {s : State} {b v : Nat} : (State.sendVec s b v).points = s.points :=
  (congrArg State.points (State.sendVec_quiet : State.quiet (State.sendVec s b v) = s.quiet) :)
@[simp] theorem State.sendVec_ws {s : State} {b v : Nat} : (State.sendVec s b v).ws = s.ws :=
  (congrArg State.ws (State.sendVec_quiet : State.quiet (State.sendVec s b v) = s.quiet) :)
@[simp] theorem State.sendVec_txns {s : State} {b v : Nat} : (State.sendVec s b v).txns = s.txns :=
  (congrArg State.txns (State.sendVec_quiet : State.quiet (State.sendVec s b v) = s.quiet) :)
@[simp] theorem State.sendVec_nextTxn {s : State} {b v : Nat} : (State.sendVec s b v).nextTxn = s.nextTxn :=
  (congrArg State.nextTxn (State.sendVec_quiet : State.quiet (State.sendVec s b v) = s.quiet) :)
@[simp] theorem State.sendVec_lastTxn {s : State} {b v : Nat} : (State.sendVec s b v).lastTxn = s.lastTxn :=
  (congrArg State.lastTxn (State.sendVec_quiet : State.quiet (State.sendVec s b v) = s.quiet) :)
@[simp] theorem State.sendVec_time {s : State} {b v : Nat} : (State.sendVec s b v).time = s.time :=
  (congrArg State.time (State.sendVec_quiet : State.quiet (State.sendVec s b v) = s.quiet) :)
@[simp] theorem State.sendVec_hlist {s : State} {b v : Nat} : (State.sendVec s b v).hlist = s.hlist :=
  (congrArg State.hlist (State.sendVec_quiet : State.quiet (State.sendVec s b v) = s.quiet) :)
@[simp] theorem State.sendVec_actions {s : State} {b v : Nat} : (State.sendVec s b v).actions = s.actions :=
  (congrArg State.actions (State.sendVec_quiet : State.quiet (State.sendVec s b v) = s.quiet) :)
@[simp] theorem State.sendVec_fired {s : State} {b v : Nat} : (State.sendVec s b v).fired = s.fired :=
  (congrArg State.fired (State.sendVec_quiet : State.quiet (State.sendVec s b v) = s.quiet) :)
@[simp] theorem State.sendVec_tsqs {s : State} {b v : Nat} : (State.sendVec s b v).tsqs = s.tsqs :=
  (congrArg State.tsqs (State.sendVec_quiet : State.quiet (State.sendVec s b v) = s.quiet) :)
@[simp] theorem State.sendVec_chs {s : State} {b v : Nat} : (State.sendVec s b v).chs = s.chs :=
  (congrArg State.chs (State.sendVec_quiet : State.quiet (State.sendVec s b v) = s.quiet) :)
@[simp] theorem State.sendVec_nets {s : State} {b v : Nat} : (State.sendVec s b v).nets = s.nets :=
  (congrArg State.nets (State.sendVec_quiet : State.quiet (State.sendVec s b v) = s.quiet) :)
@[simp] theorem State.sendVec_pair {s : State} {b v : Nat} : (State.sendVec s b v).pair = s.pair :=
  (congrArg State.pair (State.sendVec_quiet : State.quiet (State.sendVec s b v) = s.quiet) :)
@[simp] theorem State.sendVec_pwr {s : State} {b v : Nat} : (State.sendVec s b v).pwr = s.pwr :=
  (congrArg State.pwr (State.sendVec_quiet : State.quiet (State.sendVec s b v) = s.quiet) :)
@[simp] theorem State.sendVec_bkp {s : State} {b v : Nat} : (State.sendVec s b v).bkp = s.bkp :=
  (congrArg State.bkp (State.sendVec_quiet : State.quiet (State.sendVec s b v) = s.quiet) :)
@[simp] theorem State.sendVec_vlt {s : State} {b v : Nat} : (State.sendVec s b v).vlt = s.vlt :=
  (congrArg State.vlt (State.sendVec_quiet : State.quiet (State.sendVec s b v) = s.quiet) :)
@[simp] theorem State.sendVec_lc {s : State} {b v : Nat} : (State.sendVec s b v).lc = s.lc :=
  (congrArg State.lc (State.sendVec_quiet : State.quiet (State.sendVec s b v) = s.quiet) :)
@[simp] theorem State.sendVec_upd {s : State} {b v : Nat} : (State.sendVec s b v).upd = s.upd :=
  (congrArg State.upd (State.sendVec_quiet : State.quiet (State.sendVec s b v) = s.quiet) :)
@[simp] theorem State.sendVec_frames {s : State} {b v : Nat} : (State.sendVec s b v).frames = s.frames :=
  (congrArg State.frames (State.sendVec_quiet : State.quiet (State.sendVec s b v) = s.quiet) :)
@[simp] theorem State.sendVec_serial {s : State} {b v : Nat} : (State.sendVec s b v).serial = s.serial :=
  (congrArg State.serial (State.sendVec_quiet : State.quiet (State.sendVec s b v) = s.quiet) :)
@[simp] theorem State.sendVec_usb {s : State} {b v : Nat} : (State.sendVec s b v).usb = s.usb :=
  (congrArg State.usb (State.sendVec_quiet : State.quiet (State.sendVec s b v) = s.quiet) :)
@[simp] theorem State.sendVec_vbus {s : State} {b v : Nat} : (State.sendVec s b v).vbus = s.vbus :=
  (congrArg State.vbus (State.sendVec_quiet : State.quiet (State.sendVec s b v) = s.quiet) :)
@[simp] theorem State.sendVec_ch {s : State} {b v : Nat} {chn : Nat} : (State.sendVec s b v).ch chn = s.ch chn :=
  (congrArg (fun x => State.ch x chn) (State.sendVec_quiet : State.quiet (State.sendVec s b v) = s.quiet) :)
@[simp] theorem State.sendVec_reg {s : State} {b v : Nat} {key : Nat} : (State.sendVec s b v).reg key = s.reg key :=
  (congrArg (fun x => State.reg x key) (State.sendVec_quiet : State.quiet (State.sendVec s b v) = s.quiet) :)

@[simp] theorem evNotify_pending {s : State} {b : Nat} {due : Bool} : (evNotify s b due).pending = s.pending :=
  (congrArg State.pending (evNotify_quiet : State.quiet (evNotify s b due) = s.quiet) :)
@[simp] theorem evNotify_free {s : State} {b : Nat} {due : Bool} : (evNotify s b due).free = s.free :=
  (congrArg State.free (evNotify_quiet : State.quiet (evNotify s b due) = s.quiet) :)
@[simp] theorem evNotify_ticks {s : State} {b : Nat} {due : Bool} : (evNotify s b due).ticks = s.ticks :=
  (congrArg State.ticks (evNotify_quiet : State.quiet (evNotify s b due) = s.quiet) :)
@[simp] theorem evNotify_ident {s : State} {b : Nat} {due : Bool} : (evNotify s b due).ident = s.ident :=
  (congrArg State.ident (evNotify_quiet : State.quiet (evNotify s b due) = s.quiet) :)
@[simp] theorem evNotify_regs {s : State} {b : Nat} {due : Bool} : (evNotify s b due).regs = s.regs :=
  (congrArg State.regs (evNotify_quiet : State.quiet (evNotify s b due) = s.quiet) :)
@[simp] theorem evNotify_low64 {s : State} {b : Nat} {due : Bool} : (evNotify s b due).low64 = s.low64 :=
  (congrArg State.low64 (evNotify_quiet : State.quiet (evNotify s b due) = s.quiet) :)
@[simp] theorem evNotify_high64 {s : State} {b : Nat} {due : Bool} : (evNotify s b due).high64 = s.high64 :=
  (congrArg State.high64 (evNotify_quiet : State.quiet (evNotify s b due) = s.quiet) :)
@[simp] theorem evNotify_pins {s : State} {b : Nat} {due : Bool} : (evNotify s b due).pins = s.pins :=
  (congrArg State.pins (evNotify_quiet : State.quiet (evNotify s b due) = s.quiet) :)
@[simp] theorem evNotify_host {s : State} {b : Nat} {due : Bool} : (evNotify s b due).host = s.host :=
  (congrArg State.host (evNotify_quiet : State.quiet (evNotify s b due) = s.quiet) :)
@[simp] theorem evNotify_rings {s : State} {b : Nat} {due : Bool} : (evNotify s b due).rings = s.rings :=
  (congrArg State.rings (evNotify_quiet : State.quiet (evNotify s b due) = s.quiet) :)
@[simp] theorem evNotify_points {s : State} {b : Nat} {due : Bool} : (evNotify s b due).points = s.points :=
  (congrArg State.points (evNotify_quiet : State.quiet (evNotify s b due) = s.quiet) :)
@[simp] theorem evNotify_ws {s : State} {b : Nat} {due : Bool} : (evNotify s b due).ws = s.ws :=
  (congrArg State.ws (evNotify_quiet : State.quiet (evNotify s b due) = s.quiet) :)
@[simp] theorem evNotify_txns {s : State} {b : Nat} {due : Bool} : (evNotify s b due).txns = s.txns :=
  (congrArg State.txns (evNotify_quiet : State.quiet (evNotify s b due) = s.quiet) :)
@[simp] theorem evNotify_nextTxn {s : State} {b : Nat} {due : Bool} : (evNotify s b due).nextTxn = s.nextTxn :=
  (congrArg State.nextTxn (evNotify_quiet : State.quiet (evNotify s b due) = s.quiet) :)
@[simp] theorem evNotify_lastTxn {s : State} {b : Nat} {due : Bool} : (evNotify s b due).lastTxn = s.lastTxn :=
  (congrArg State.lastTxn (evNotify_quiet : State.quiet (evNotify s b due) = s.quiet) :)
@[simp] theorem evNotify_time {s : State} {b : Nat} {due : Bool} : (evNotify s b due).time = s.time :=
  (congrArg State.time (evNotify_quiet : State.quiet (evNotify s b due) = s.quiet) :)
@[simp] theorem evNotify_hlist {s : State} {b : Nat} {due : Bool} : (evNotify s b due).hlist = s.hlist :=
  (congrArg State.hlist (evNotify_quiet : State.quiet (evNotify s b due) = s.quiet) :)
@[simp] theorem evNotify_actions {s : State} {b : Nat} {due : Bool} : (evNotify s b due).actions = s.actions :=
  (congrArg State.actions (evNotify_quiet : State.quiet (evNotify s b due) = s.quiet) :)
@[simp] theorem evNotify_fired {s : State} {b : Nat} {due : Bool} : (evNotify s b due).fired = s.fired :=
  (congrArg State.fired (evNotify_quiet : State.quiet (evNotify s b due) = s.quiet) :)
@[simp] theorem evNotify_tsqs {s : State} {b : Nat} {due : Bool} : (evNotify s b due).tsqs = s.tsqs :=
  (congrArg State.tsqs (evNotify_quiet : State.quiet (evNotify s b due) = s.quiet) :)
@[simp] theorem evNotify_chs {s : State} {b : Nat} {due : Bool} : (evNotify s b due).chs = s.chs :=
  (congrArg State.chs (evNotify_quiet : State.quiet (evNotify s b due) = s.quiet) :)
@[simp] theorem evNotify_nets {s : State} {b : Nat} {due : Bool} : (evNotify s b due).nets = s.nets :=
  (congrArg State.nets (evNotify_quiet : State.quiet (evNotify s b due) = s.quiet) :)
@[simp] theorem evNotify_pair {s : State} {b : Nat} {due : Bool} : (evNotify s b due).pair = s.pair :=
  (congrArg State.pair (evNotify_quiet : State.quiet (evNotify s b due) = s.quiet) :)
@[simp] theorem evNotify_pwr {s : State} {b : Nat} {due : Bool} : (evNotify s b due).pwr = s.pwr :=
  (congrArg State.pwr (evNotify_quiet : State.quiet (evNotify s b due) = s.quiet) :)
@[simp] theorem evNotify_bkp {s : State} {b : Nat} {due : Bool} : (evNotify s b due).bkp = s.bkp :=
  (congrArg State.bkp (evNotify_quiet : State.quiet (evNotify s b due) = s.quiet) :)
@[simp] theorem evNotify_vlt {s : State} {b : Nat} {due : Bool} : (evNotify s b due).vlt = s.vlt :=
  (congrArg State.vlt (evNotify_quiet : State.quiet (evNotify s b due) = s.quiet) :)
@[simp] theorem evNotify_lc {s : State} {b : Nat} {due : Bool} : (evNotify s b due).lc = s.lc :=
  (congrArg State.lc (evNotify_quiet : State.quiet (evNotify s b due) = s.quiet) :)
@[simp] theorem evNotify_upd {s : State} {b : Nat} {due : Bool} : (evNotify s b due).upd = s.upd :=
  (congrArg State.upd (evNotify_quiet : State.quiet (evNotify s b due) = s.quiet) :)
@[simp] theorem evNotify_frames {s : State} {b : Nat} {due : Bool} : (evNotify s b due).frames = s.frames :=
  (congrArg State.frames (evNotify_quiet : State.quiet (evNotify s b due) = s.quiet) :)
@[simp] theorem evNotify_serial {s : State} {b : Nat} {due : Bool} : (evNotify s b due).serial = s.serial :=
  (congrArg State.serial (evNotify_quiet : State.quiet (evNotify s b due) = s.quiet) :)
@[simp] theorem evNotify_usb {s : State} {b : Nat} {due : Bool} : (evNotify s b due).usb = s.usb :=
  (congrArg State.usb (evNotify_quiet : State.quiet (evNotify s b due) = s.quiet) :)
@[simp] theorem evNotify_vbus {s : State} {b : Nat} {due : Bool} : (evNotify s b due).vbus = s.vbus :=
  (congrArg State.vbus (evNotify_quiet : State.quiet (evNotify s b due) = s.quiet) :)
@[simp] theorem evNotify_ch {s : State} {b : Nat} {due : Bool} {chn : Nat} : (evNotify s b due).ch chn = s.ch chn :=
  (congrArg (fun x => State.ch x chn) (evNotify_quiet : State.quiet (evNotify s b due) = s.quiet) :)
@[simp] theorem evNotify_reg {s : State} {b : Nat} {due : Bool} {key : Nat} : (evNotify s b due).reg key = s.reg key :=
  (congrArg (fun x => State.reg x key) (evNotify_quiet : State.quiet (evNotify s b due) = s.quiet) :)

@[simp] theorem State.flushEv_pending {s : State} {b : Nat} : (State.flushEv s b).pending = s.pending :=
  (congrArg State.pending (State.flushEv_quiet : State.quiet (State.flushEv s b) = s.quiet) :)
@[simp] theorem State.flushEv_free {s : State} {b : Nat} : (State.flushEv s b).free = s.free :=
  (congrArg State.free (State.flushEv_quiet : State.quiet (State.flushEv s b) = s.quiet) :)
@[simp] theorem State.flushEv_ticks {s : State} {b : Nat} : (State.flushEv s b).ticks = s.ticks :=
  (congrArg State.ticks (State.flushEv_quiet : State.quiet (State.flushEv s b) = s.quiet) :)
@[simp] theorem State.flushEv_ident {s : State} {b : Nat} : (State.flushEv s b).ident = s.ident :=
  (congrArg State.ident (State.flushEv_quiet : State.quiet (State.flushEv s b) = s.quiet) :)
@[simp] theorem State.flushEv_regs {s : State} {b : Nat} : (State.flushEv s b).regs = s.regs :=
  (congrArg State.regs (State.flushEv_quiet : State.quiet (State.flushEv s b) = s.quiet) :)
@[simp] theorem State.flushEv_low64 {s : State} {b : Nat} : (State.flushEv s b).low64 = s.low64 :=
  (congrArg State.low64 (State.flushEv_quiet : State.quiet (State.flushEv s b) = s.quiet) :)
@[simp] theorem State.flushEv_high64 {s : State} {b : Nat} : (State.flushEv s b).high64 = s.high64 :=
  (congrArg State.high64 (State.flushEv_quiet : State.quiet (State.flushEv s b) = s.quiet) :)
@[simp] theorem State.flushEv_pins {s : State} {b : Nat} : (State.flushEv s b).pins = s.pins :=
  (congrArg State.pins (State.flushEv_quiet : State.quiet (State.flushEv s b) = s.quiet) :)
@[simp] theorem State.flushEv_host {s : State} {b : Nat} : (State.flushEv s b).host = s.host :=
  (congrArg State.host (State.flushEv_quiet : State.quiet (State.flushEv s b) = s.quiet) :)
@[simp] theorem State.flushEv_rings {s : State} {b : Nat} : (State.flushEv s b).rings = s.rings :=
  (congrArg State.rings (State.flushEv_quiet : State.quiet (State.flushEv s b) = s.quiet) :)
@[simp] theorem State.flushEv_points {s : State} {b : Nat} : (State.flushEv s b).points = s.points :=
  (congrArg State.points (State.flushEv_quiet : State.quiet (State.flushEv s b) = s.quiet) :)
@[simp] theorem State.flushEv_ws {s : State} {b : Nat} : (State.flushEv s b).ws = s.ws :=
  (congrArg State.ws (State.flushEv_quiet : State.quiet (State.flushEv s b) = s.quiet) :)
@[simp] theorem State.flushEv_txns {s : State} {b : Nat} : (State.flushEv s b).txns = s.txns :=
  (congrArg State.txns (State.flushEv_quiet : State.quiet (State.flushEv s b) = s.quiet) :)
@[simp] theorem State.flushEv_nextTxn {s : State} {b : Nat} : (State.flushEv s b).nextTxn = s.nextTxn :=
  (congrArg State.nextTxn (State.flushEv_quiet : State.quiet (State.flushEv s b) = s.quiet) :)
@[simp] theorem State.flushEv_lastTxn {s : State} {b : Nat} : (State.flushEv s b).lastTxn = s.lastTxn :=
  (congrArg State.lastTxn (State.flushEv_quiet : State.quiet (State.flushEv s b) = s.quiet) :)
@[simp] theorem State.flushEv_time {s : State} {b : Nat} : (State.flushEv s b).time = s.time :=
  (congrArg State.time (State.flushEv_quiet : State.quiet (State.flushEv s b) = s.quiet) :)
@[simp] theorem State.flushEv_hlist {s : State} {b : Nat} : (State.flushEv s b).hlist = s.hlist :=
  (congrArg State.hlist (State.flushEv_quiet : State.quiet (State.flushEv s b) = s.quiet) :)
@[simp] theorem State.flushEv_actions {s : State} {b : Nat} : (State.flushEv s b).actions = s.actions :=
  (congrArg State.actions (State.flushEv_quiet : State.quiet (State.flushEv s b) = s.quiet) :)
@[simp] theorem State.flushEv_fired {s : State} {b : Nat} : (State.flushEv s b).fired = s.fired :=
  (congrArg State.fired (State.flushEv_quiet : State.quiet (State.flushEv s b) = s.quiet) :)
@[simp] theorem State.flushEv_tsqs {s : State} {b : Nat} : (State.flushEv s b).tsqs = s.tsqs :=
  (congrArg State.tsqs (State.flushEv_quiet : State.quiet (State.flushEv s b) = s.quiet) :)
@[simp] theorem State.flushEv_chs {s : State} {b : Nat} : (State.flushEv s b).chs = s.chs :=
  (congrArg State.chs (State.flushEv_quiet : State.quiet (State.flushEv s b) = s.quiet) :)
@[simp] theorem State.flushEv_nets {s : State} {b : Nat} : (State.flushEv s b).nets = s.nets :=
  (congrArg State.nets (State.flushEv_quiet : State.quiet (State.flushEv s b) = s.quiet) :)
@[simp] theorem State.flushEv_pair {s : State} {b : Nat} : (State.flushEv s b).pair = s.pair :=
  (congrArg State.pair (State.flushEv_quiet : State.quiet (State.flushEv s b) = s.quiet) :)
@[simp] theorem State.flushEv_pwr {s : State} {b : Nat} : (State.flushEv s b).pwr = s.pwr :=
  (congrArg State.pwr (State.flushEv_quiet : State.quiet (State.flushEv s b) = s.quiet) :)
@[simp] theorem State.flushEv_bkp {s : State} {b : Nat} : (State.flushEv s b).bkp = s.bkp :=
  (congrArg State.bkp (State.flushEv_quiet : State.quiet (State.flushEv s b) = s.quiet) :)
@[simp] theorem State.flushEv_vlt {s : State} {b : Nat} : (State.flushEv s b).vlt = s.vlt :=
  (congrArg State.vlt (State.flushEv_quiet : State.quiet (State.flushEv s b) = s.quiet) :)
@[simp] theorem State.flushEv_lc {s : State} {b : Nat} : (State.flushEv s b).lc = s.lc :=
  (congrArg State.lc (State.flushEv_quiet : State.quiet (State.flushEv s b) = s.quiet) :)
@[simp] theorem State.flushEv_upd {s : State} {b : Nat} : (State.flushEv s b).upd = s.upd :=
  (congrArg State.upd (State.flushEv_quiet : State.quiet (State.flushEv s b) = s.quiet) :)
@[simp] theorem State.flushEv_frames {s : State} {b : Nat} : (State.flushEv s b).frames = s.frames :=
  (congrArg State.frames (State.flushEv_quiet : State.quiet (State.flushEv s b) = s.quiet) :)
@[simp] theorem State.flushEv_serial {s : State} {b : Nat} : (State.flushEv s b).serial = s.serial :=
  (congrArg State.serial (State.flushEv_quiet : State.quiet (State.flushEv s b) = s.quiet) :)
@[simp] theorem State.flushEv_usb {s : State} {b : Nat} : (State.flushEv s b).usb = s.usb :=
  (congrArg State.usb (State.flushEv_quiet : State.quiet (State.flushEv s b) = s.quiet) :)
@[simp] theorem State.flushEv_vbus {s : State} {b : Nat} : (State.flushEv s b).vbus = s.vbus :=
  (congrArg State.vbus (State.flushEv_quiet : State.quiet (State.flushEv s b) = s.quiet) :)
@[simp] theorem State.flushEv_ch {s : State} {b : Nat} {chn : Nat} : (State.flushEv s b).ch chn = s.ch chn :=
  (congrArg (fun x => State.ch x chn) (State.flushEv_quiet : State.quiet (State.flushEv s b) = s.quiet) :)
@[simp] theorem State.flushEv_reg {s : State} {b : Nat} {key : Nat} : (State.flushEv s b).reg key = s.reg key :=
  (congrArg (fun x => State.reg x key) (State.flushEv_quiet : State.quiet (State.flushEv s b) = s.quiet) :)

@[simp] theorem raise_pending {s : State} {b kind subject : Nat} {payload : List Byte} : (raise s b kind subject payload).pending = s.pending :=
  (congrArg State.pending (raise_quiet : State.quiet (raise s b kind subject payload) = s.quiet) :)
@[simp] theorem raise_free {s : State} {b kind subject : Nat} {payload : List Byte} : (raise s b kind subject payload).free = s.free :=
  (congrArg State.free (raise_quiet : State.quiet (raise s b kind subject payload) = s.quiet) :)
@[simp] theorem raise_ticks {s : State} {b kind subject : Nat} {payload : List Byte} : (raise s b kind subject payload).ticks = s.ticks :=
  (congrArg State.ticks (raise_quiet : State.quiet (raise s b kind subject payload) = s.quiet) :)
@[simp] theorem raise_ident {s : State} {b kind subject : Nat} {payload : List Byte} : (raise s b kind subject payload).ident = s.ident :=
  (congrArg State.ident (raise_quiet : State.quiet (raise s b kind subject payload) = s.quiet) :)
@[simp] theorem raise_regs {s : State} {b kind subject : Nat} {payload : List Byte} : (raise s b kind subject payload).regs = s.regs :=
  (congrArg State.regs (raise_quiet : State.quiet (raise s b kind subject payload) = s.quiet) :)
@[simp] theorem raise_low64 {s : State} {b kind subject : Nat} {payload : List Byte} : (raise s b kind subject payload).low64 = s.low64 :=
  (congrArg State.low64 (raise_quiet : State.quiet (raise s b kind subject payload) = s.quiet) :)
@[simp] theorem raise_high64 {s : State} {b kind subject : Nat} {payload : List Byte} : (raise s b kind subject payload).high64 = s.high64 :=
  (congrArg State.high64 (raise_quiet : State.quiet (raise s b kind subject payload) = s.quiet) :)
@[simp] theorem raise_pins {s : State} {b kind subject : Nat} {payload : List Byte} : (raise s b kind subject payload).pins = s.pins :=
  (congrArg State.pins (raise_quiet : State.quiet (raise s b kind subject payload) = s.quiet) :)
@[simp] theorem raise_host {s : State} {b kind subject : Nat} {payload : List Byte} : (raise s b kind subject payload).host = s.host :=
  (congrArg State.host (raise_quiet : State.quiet (raise s b kind subject payload) = s.quiet) :)
@[simp] theorem raise_rings {s : State} {b kind subject : Nat} {payload : List Byte} : (raise s b kind subject payload).rings = s.rings :=
  (congrArg State.rings (raise_quiet : State.quiet (raise s b kind subject payload) = s.quiet) :)
@[simp] theorem raise_points {s : State} {b kind subject : Nat} {payload : List Byte} : (raise s b kind subject payload).points = s.points :=
  (congrArg State.points (raise_quiet : State.quiet (raise s b kind subject payload) = s.quiet) :)
@[simp] theorem raise_ws {s : State} {b kind subject : Nat} {payload : List Byte} : (raise s b kind subject payload).ws = s.ws :=
  (congrArg State.ws (raise_quiet : State.quiet (raise s b kind subject payload) = s.quiet) :)
@[simp] theorem raise_txns {s : State} {b kind subject : Nat} {payload : List Byte} : (raise s b kind subject payload).txns = s.txns :=
  (congrArg State.txns (raise_quiet : State.quiet (raise s b kind subject payload) = s.quiet) :)
@[simp] theorem raise_nextTxn {s : State} {b kind subject : Nat} {payload : List Byte} : (raise s b kind subject payload).nextTxn = s.nextTxn :=
  (congrArg State.nextTxn (raise_quiet : State.quiet (raise s b kind subject payload) = s.quiet) :)
@[simp] theorem raise_lastTxn {s : State} {b kind subject : Nat} {payload : List Byte} : (raise s b kind subject payload).lastTxn = s.lastTxn :=
  (congrArg State.lastTxn (raise_quiet : State.quiet (raise s b kind subject payload) = s.quiet) :)
@[simp] theorem raise_time {s : State} {b kind subject : Nat} {payload : List Byte} : (raise s b kind subject payload).time = s.time :=
  (congrArg State.time (raise_quiet : State.quiet (raise s b kind subject payload) = s.quiet) :)
@[simp] theorem raise_hlist {s : State} {b kind subject : Nat} {payload : List Byte} : (raise s b kind subject payload).hlist = s.hlist :=
  (congrArg State.hlist (raise_quiet : State.quiet (raise s b kind subject payload) = s.quiet) :)
@[simp] theorem raise_actions {s : State} {b kind subject : Nat} {payload : List Byte} : (raise s b kind subject payload).actions = s.actions :=
  (congrArg State.actions (raise_quiet : State.quiet (raise s b kind subject payload) = s.quiet) :)
@[simp] theorem raise_fired {s : State} {b kind subject : Nat} {payload : List Byte} : (raise s b kind subject payload).fired = s.fired :=
  (congrArg State.fired (raise_quiet : State.quiet (raise s b kind subject payload) = s.quiet) :)
@[simp] theorem raise_tsqs {s : State} {b kind subject : Nat} {payload : List Byte} : (raise s b kind subject payload).tsqs = s.tsqs :=
  (congrArg State.tsqs (raise_quiet : State.quiet (raise s b kind subject payload) = s.quiet) :)
@[simp] theorem raise_chs {s : State} {b kind subject : Nat} {payload : List Byte} : (raise s b kind subject payload).chs = s.chs :=
  (congrArg State.chs (raise_quiet : State.quiet (raise s b kind subject payload) = s.quiet) :)
@[simp] theorem raise_nets {s : State} {b kind subject : Nat} {payload : List Byte} : (raise s b kind subject payload).nets = s.nets :=
  (congrArg State.nets (raise_quiet : State.quiet (raise s b kind subject payload) = s.quiet) :)
@[simp] theorem raise_pair {s : State} {b kind subject : Nat} {payload : List Byte} : (raise s b kind subject payload).pair = s.pair :=
  (congrArg State.pair (raise_quiet : State.quiet (raise s b kind subject payload) = s.quiet) :)
@[simp] theorem raise_pwr {s : State} {b kind subject : Nat} {payload : List Byte} : (raise s b kind subject payload).pwr = s.pwr :=
  (congrArg State.pwr (raise_quiet : State.quiet (raise s b kind subject payload) = s.quiet) :)
@[simp] theorem raise_bkp {s : State} {b kind subject : Nat} {payload : List Byte} : (raise s b kind subject payload).bkp = s.bkp :=
  (congrArg State.bkp (raise_quiet : State.quiet (raise s b kind subject payload) = s.quiet) :)
@[simp] theorem raise_vlt {s : State} {b kind subject : Nat} {payload : List Byte} : (raise s b kind subject payload).vlt = s.vlt :=
  (congrArg State.vlt (raise_quiet : State.quiet (raise s b kind subject payload) = s.quiet) :)
@[simp] theorem raise_lc {s : State} {b kind subject : Nat} {payload : List Byte} : (raise s b kind subject payload).lc = s.lc :=
  (congrArg State.lc (raise_quiet : State.quiet (raise s b kind subject payload) = s.quiet) :)
@[simp] theorem raise_upd {s : State} {b kind subject : Nat} {payload : List Byte} : (raise s b kind subject payload).upd = s.upd :=
  (congrArg State.upd (raise_quiet : State.quiet (raise s b kind subject payload) = s.quiet) :)
@[simp] theorem raise_frames {s : State} {b kind subject : Nat} {payload : List Byte} : (raise s b kind subject payload).frames = s.frames :=
  (congrArg State.frames (raise_quiet : State.quiet (raise s b kind subject payload) = s.quiet) :)
@[simp] theorem raise_serial {s : State} {b kind subject : Nat} {payload : List Byte} : (raise s b kind subject payload).serial = s.serial :=
  (congrArg State.serial (raise_quiet : State.quiet (raise s b kind subject payload) = s.quiet) :)
@[simp] theorem raise_usb {s : State} {b kind subject : Nat} {payload : List Byte} : (raise s b kind subject payload).usb = s.usb :=
  (congrArg State.usb (raise_quiet : State.quiet (raise s b kind subject payload) = s.quiet) :)
@[simp] theorem raise_vbus {s : State} {b kind subject : Nat} {payload : List Byte} : (raise s b kind subject payload).vbus = s.vbus :=
  (congrArg State.vbus (raise_quiet : State.quiet (raise s b kind subject payload) = s.quiet) :)
@[simp] theorem raise_ch {s : State} {b kind subject : Nat} {payload : List Byte} {chn : Nat} : (raise s b kind subject payload).ch chn = s.ch chn :=
  (congrArg (fun x => State.ch x chn) (raise_quiet : State.quiet (raise s b kind subject payload) = s.quiet) :)
@[simp] theorem raise_reg {s : State} {b kind subject : Nat} {payload : List Byte} {key : Nat} : (raise s b kind subject payload).reg key = s.reg key :=
  (congrArg (fun x => State.reg x key) (raise_quiet : State.quiet (raise s b kind subject payload) = s.quiet) :)

@[simp] theorem raiseBoth_pending {s : State} {kind subject : Nat} {payload : List Byte} : (raiseBoth s kind subject payload).pending = s.pending :=
  (congrArg State.pending (raiseBoth_quiet : State.quiet (raiseBoth s kind subject payload) = s.quiet) :)
@[simp] theorem raiseBoth_free {s : State} {kind subject : Nat} {payload : List Byte} : (raiseBoth s kind subject payload).free = s.free :=
  (congrArg State.free (raiseBoth_quiet : State.quiet (raiseBoth s kind subject payload) = s.quiet) :)
@[simp] theorem raiseBoth_ticks {s : State} {kind subject : Nat} {payload : List Byte} : (raiseBoth s kind subject payload).ticks = s.ticks :=
  (congrArg State.ticks (raiseBoth_quiet : State.quiet (raiseBoth s kind subject payload) = s.quiet) :)
@[simp] theorem raiseBoth_ident {s : State} {kind subject : Nat} {payload : List Byte} : (raiseBoth s kind subject payload).ident = s.ident :=
  (congrArg State.ident (raiseBoth_quiet : State.quiet (raiseBoth s kind subject payload) = s.quiet) :)
@[simp] theorem raiseBoth_regs {s : State} {kind subject : Nat} {payload : List Byte} : (raiseBoth s kind subject payload).regs = s.regs :=
  (congrArg State.regs (raiseBoth_quiet : State.quiet (raiseBoth s kind subject payload) = s.quiet) :)
@[simp] theorem raiseBoth_low64 {s : State} {kind subject : Nat} {payload : List Byte} : (raiseBoth s kind subject payload).low64 = s.low64 :=
  (congrArg State.low64 (raiseBoth_quiet : State.quiet (raiseBoth s kind subject payload) = s.quiet) :)
@[simp] theorem raiseBoth_high64 {s : State} {kind subject : Nat} {payload : List Byte} : (raiseBoth s kind subject payload).high64 = s.high64 :=
  (congrArg State.high64 (raiseBoth_quiet : State.quiet (raiseBoth s kind subject payload) = s.quiet) :)
@[simp] theorem raiseBoth_pins {s : State} {kind subject : Nat} {payload : List Byte} : (raiseBoth s kind subject payload).pins = s.pins :=
  (congrArg State.pins (raiseBoth_quiet : State.quiet (raiseBoth s kind subject payload) = s.quiet) :)
@[simp] theorem raiseBoth_host {s : State} {kind subject : Nat} {payload : List Byte} : (raiseBoth s kind subject payload).host = s.host :=
  (congrArg State.host (raiseBoth_quiet : State.quiet (raiseBoth s kind subject payload) = s.quiet) :)
@[simp] theorem raiseBoth_rings {s : State} {kind subject : Nat} {payload : List Byte} : (raiseBoth s kind subject payload).rings = s.rings :=
  (congrArg State.rings (raiseBoth_quiet : State.quiet (raiseBoth s kind subject payload) = s.quiet) :)
@[simp] theorem raiseBoth_points {s : State} {kind subject : Nat} {payload : List Byte} : (raiseBoth s kind subject payload).points = s.points :=
  (congrArg State.points (raiseBoth_quiet : State.quiet (raiseBoth s kind subject payload) = s.quiet) :)
@[simp] theorem raiseBoth_ws {s : State} {kind subject : Nat} {payload : List Byte} : (raiseBoth s kind subject payload).ws = s.ws :=
  (congrArg State.ws (raiseBoth_quiet : State.quiet (raiseBoth s kind subject payload) = s.quiet) :)
@[simp] theorem raiseBoth_txns {s : State} {kind subject : Nat} {payload : List Byte} : (raiseBoth s kind subject payload).txns = s.txns :=
  (congrArg State.txns (raiseBoth_quiet : State.quiet (raiseBoth s kind subject payload) = s.quiet) :)
@[simp] theorem raiseBoth_nextTxn {s : State} {kind subject : Nat} {payload : List Byte} : (raiseBoth s kind subject payload).nextTxn = s.nextTxn :=
  (congrArg State.nextTxn (raiseBoth_quiet : State.quiet (raiseBoth s kind subject payload) = s.quiet) :)
@[simp] theorem raiseBoth_lastTxn {s : State} {kind subject : Nat} {payload : List Byte} : (raiseBoth s kind subject payload).lastTxn = s.lastTxn :=
  (congrArg State.lastTxn (raiseBoth_quiet : State.quiet (raiseBoth s kind subject payload) = s.quiet) :)
@[simp] theorem raiseBoth_time {s : State} {kind subject : Nat} {payload : List Byte} : (raiseBoth s kind subject payload).time = s.time :=
  (congrArg State.time (raiseBoth_quiet : State.quiet (raiseBoth s kind subject payload) = s.quiet) :)
@[simp] theorem raiseBoth_hlist {s : State} {kind subject : Nat} {payload : List Byte} : (raiseBoth s kind subject payload).hlist = s.hlist :=
  (congrArg State.hlist (raiseBoth_quiet : State.quiet (raiseBoth s kind subject payload) = s.quiet) :)
@[simp] theorem raiseBoth_actions {s : State} {kind subject : Nat} {payload : List Byte} : (raiseBoth s kind subject payload).actions = s.actions :=
  (congrArg State.actions (raiseBoth_quiet : State.quiet (raiseBoth s kind subject payload) = s.quiet) :)
@[simp] theorem raiseBoth_fired {s : State} {kind subject : Nat} {payload : List Byte} : (raiseBoth s kind subject payload).fired = s.fired :=
  (congrArg State.fired (raiseBoth_quiet : State.quiet (raiseBoth s kind subject payload) = s.quiet) :)
@[simp] theorem raiseBoth_tsqs {s : State} {kind subject : Nat} {payload : List Byte} : (raiseBoth s kind subject payload).tsqs = s.tsqs :=
  (congrArg State.tsqs (raiseBoth_quiet : State.quiet (raiseBoth s kind subject payload) = s.quiet) :)
@[simp] theorem raiseBoth_chs {s : State} {kind subject : Nat} {payload : List Byte} : (raiseBoth s kind subject payload).chs = s.chs :=
  (congrArg State.chs (raiseBoth_quiet : State.quiet (raiseBoth s kind subject payload) = s.quiet) :)
@[simp] theorem raiseBoth_nets {s : State} {kind subject : Nat} {payload : List Byte} : (raiseBoth s kind subject payload).nets = s.nets :=
  (congrArg State.nets (raiseBoth_quiet : State.quiet (raiseBoth s kind subject payload) = s.quiet) :)
@[simp] theorem raiseBoth_pair {s : State} {kind subject : Nat} {payload : List Byte} : (raiseBoth s kind subject payload).pair = s.pair :=
  (congrArg State.pair (raiseBoth_quiet : State.quiet (raiseBoth s kind subject payload) = s.quiet) :)
@[simp] theorem raiseBoth_pwr {s : State} {kind subject : Nat} {payload : List Byte} : (raiseBoth s kind subject payload).pwr = s.pwr :=
  (congrArg State.pwr (raiseBoth_quiet : State.quiet (raiseBoth s kind subject payload) = s.quiet) :)
@[simp] theorem raiseBoth_bkp {s : State} {kind subject : Nat} {payload : List Byte} : (raiseBoth s kind subject payload).bkp = s.bkp :=
  (congrArg State.bkp (raiseBoth_quiet : State.quiet (raiseBoth s kind subject payload) = s.quiet) :)
@[simp] theorem raiseBoth_vlt {s : State} {kind subject : Nat} {payload : List Byte} : (raiseBoth s kind subject payload).vlt = s.vlt :=
  (congrArg State.vlt (raiseBoth_quiet : State.quiet (raiseBoth s kind subject payload) = s.quiet) :)
@[simp] theorem raiseBoth_lc {s : State} {kind subject : Nat} {payload : List Byte} : (raiseBoth s kind subject payload).lc = s.lc :=
  (congrArg State.lc (raiseBoth_quiet : State.quiet (raiseBoth s kind subject payload) = s.quiet) :)
@[simp] theorem raiseBoth_upd {s : State} {kind subject : Nat} {payload : List Byte} : (raiseBoth s kind subject payload).upd = s.upd :=
  (congrArg State.upd (raiseBoth_quiet : State.quiet (raiseBoth s kind subject payload) = s.quiet) :)
@[simp] theorem raiseBoth_frames {s : State} {kind subject : Nat} {payload : List Byte} : (raiseBoth s kind subject payload).frames = s.frames :=
  (congrArg State.frames (raiseBoth_quiet : State.quiet (raiseBoth s kind subject payload) = s.quiet) :)
@[simp] theorem raiseBoth_serial {s : State} {kind subject : Nat} {payload : List Byte} : (raiseBoth s kind subject payload).serial = s.serial :=
  (congrArg State.serial (raiseBoth_quiet : State.quiet (raiseBoth s kind subject payload) = s.quiet) :)
@[simp] theorem raiseBoth_usb {s : State} {kind subject : Nat} {payload : List Byte} : (raiseBoth s kind subject payload).usb = s.usb :=
  (congrArg State.usb (raiseBoth_quiet : State.quiet (raiseBoth s kind subject payload) = s.quiet) :)
@[simp] theorem raiseBoth_vbus {s : State} {kind subject : Nat} {payload : List Byte} : (raiseBoth s kind subject payload).vbus = s.vbus :=
  (congrArg State.vbus (raiseBoth_quiet : State.quiet (raiseBoth s kind subject payload) = s.quiet) :)
@[simp] theorem raiseBoth_ch {s : State} {kind subject : Nat} {payload : List Byte} {chn : Nat} : (raiseBoth s kind subject payload).ch chn = s.ch chn :=
  (congrArg (fun x => State.ch x chn) (raiseBoth_quiet : State.quiet (raiseBoth s kind subject payload) = s.quiet) :)
@[simp] theorem raiseBoth_reg {s : State} {kind subject : Nat} {payload : List Byte} {key : Nat} : (raiseBoth s kind subject payload).reg key = s.reg key :=
  (congrArg (fun x => State.reg x key) (raiseBoth_quiet : State.quiet (raiseBoth s kind subject payload) = s.quiet) :)

@[simp] theorem State.alert_pending {s : State} {i : Nat} : (State.alert s i).pending = s.pending :=
  (congrArg State.pending (State.alert_core : State.core (State.alert s i) = s.core) :)
@[simp] theorem State.alert_free {s : State} {i : Nat} : (State.alert s i).free = s.free :=
  (congrArg State.free (State.alert_core : State.core (State.alert s i) = s.core) :)
@[simp] theorem State.alert_ticks {s : State} {i : Nat} : (State.alert s i).ticks = s.ticks :=
  (congrArg State.ticks (State.alert_core : State.core (State.alert s i) = s.core) :)
@[simp] theorem State.alert_ident {s : State} {i : Nat} : (State.alert s i).ident = s.ident :=
  (congrArg State.ident (State.alert_core : State.core (State.alert s i) = s.core) :)
@[simp] theorem State.alert_regs {s : State} {i : Nat} : (State.alert s i).regs = s.regs :=
  (congrArg State.regs (State.alert_core : State.core (State.alert s i) = s.core) :)
@[simp] theorem State.alert_low64 {s : State} {i : Nat} : (State.alert s i).low64 = s.low64 :=
  (congrArg State.low64 (State.alert_core : State.core (State.alert s i) = s.core) :)
@[simp] theorem State.alert_high64 {s : State} {i : Nat} : (State.alert s i).high64 = s.high64 :=
  (congrArg State.high64 (State.alert_core : State.core (State.alert s i) = s.core) :)
@[simp] theorem State.alert_pins {s : State} {i : Nat} : (State.alert s i).pins = s.pins :=
  (congrArg State.pins (State.alert_core : State.core (State.alert s i) = s.core) :)
@[simp] theorem State.alert_points {s : State} {i : Nat} : (State.alert s i).points = s.points :=
  (congrArg State.points (State.alert_core : State.core (State.alert s i) = s.core) :)
@[simp] theorem State.alert_ws {s : State} {i : Nat} : (State.alert s i).ws = s.ws :=
  (congrArg State.ws (State.alert_core : State.core (State.alert s i) = s.core) :)
@[simp] theorem State.alert_txns {s : State} {i : Nat} : (State.alert s i).txns = s.txns :=
  (congrArg State.txns (State.alert_core : State.core (State.alert s i) = s.core) :)
@[simp] theorem State.alert_nextTxn {s : State} {i : Nat} : (State.alert s i).nextTxn = s.nextTxn :=
  (congrArg State.nextTxn (State.alert_core : State.core (State.alert s i) = s.core) :)
@[simp] theorem State.alert_lastTxn {s : State} {i : Nat} : (State.alert s i).lastTxn = s.lastTxn :=
  (congrArg State.lastTxn (State.alert_core : State.core (State.alert s i) = s.core) :)
@[simp] theorem State.alert_time {s : State} {i : Nat} : (State.alert s i).time = s.time :=
  (congrArg State.time (State.alert_core : State.core (State.alert s i) = s.core) :)
@[simp] theorem State.alert_hlist {s : State} {i : Nat} : (State.alert s i).hlist = s.hlist :=
  (congrArg State.hlist (State.alert_core : State.core (State.alert s i) = s.core) :)
@[simp] theorem State.alert_actions {s : State} {i : Nat} : (State.alert s i).actions = s.actions :=
  (congrArg State.actions (State.alert_core : State.core (State.alert s i) = s.core) :)
@[simp] theorem State.alert_fired {s : State} {i : Nat} : (State.alert s i).fired = s.fired :=
  (congrArg State.fired (State.alert_core : State.core (State.alert s i) = s.core) :)
@[simp] theorem State.alert_tsqs {s : State} {i : Nat} : (State.alert s i).tsqs = s.tsqs :=
  (congrArg State.tsqs (State.alert_core : State.core (State.alert s i) = s.core) :)
@[simp] theorem State.alert_chs {s : State} {i : Nat} : (State.alert s i).chs = s.chs :=
  (congrArg State.chs (State.alert_core : State.core (State.alert s i) = s.core) :)
@[simp] theorem State.alert_nets {s : State} {i : Nat} : (State.alert s i).nets = s.nets :=
  (congrArg State.nets (State.alert_core : State.core (State.alert s i) = s.core) :)
@[simp] theorem State.alert_bkp {s : State} {i : Nat} : (State.alert s i).bkp = s.bkp :=
  (congrArg State.bkp (State.alert_core : State.core (State.alert s i) = s.core) :)
@[simp] theorem State.alert_vlt {s : State} {i : Nat} : (State.alert s i).vlt = s.vlt :=
  (congrArg State.vlt (State.alert_core : State.core (State.alert s i) = s.core) :)
@[simp] theorem State.alert_lc {s : State} {i : Nat} : (State.alert s i).lc = s.lc :=
  (congrArg State.lc (State.alert_core : State.core (State.alert s i) = s.core) :)
@[simp] theorem State.alert_upd {s : State} {i : Nat} : (State.alert s i).upd = s.upd :=
  (congrArg State.upd (State.alert_core : State.core (State.alert s i) = s.core) :)
@[simp] theorem State.alert_frames {s : State} {i : Nat} : (State.alert s i).frames = s.frames :=
  (congrArg State.frames (State.alert_core : State.core (State.alert s i) = s.core) :)
@[simp] theorem State.alert_serial {s : State} {i : Nat} : (State.alert s i).serial = s.serial :=
  (congrArg State.serial (State.alert_core : State.core (State.alert s i) = s.core) :)
@[simp] theorem State.alert_usb {s : State} {i : Nat} : (State.alert s i).usb = s.usb :=
  (congrArg State.usb (State.alert_core : State.core (State.alert s i) = s.core) :)
@[simp] theorem State.alert_vbus {s : State} {i : Nat} : (State.alert s i).vbus = s.vbus :=
  (congrArg State.vbus (State.alert_core : State.core (State.alert s i) = s.core) :)
@[simp] theorem State.alert_ch {s : State} {i : Nat} {chn : Nat} : (State.alert s i).ch chn = s.ch chn :=
  (congrArg (fun x => State.ch x chn) (State.alert_core : State.core (State.alert s i) = s.core) :)
@[simp] theorem State.alert_reg {s : State} {i : Nat} {key : Nat} : (State.alert s i).reg key = s.reg key :=
  (congrArg (fun x => State.reg x key) (State.alert_core : State.core (State.alert s i) = s.core) :)

@[simp] theorem State.mirror_pending {s : State} {r : MirrorRec} : (State.mirror s r).pending = s.pending :=
  (congrArg State.pending (State.mirror_core : State.core (State.mirror s r) = s.core) :)
@[simp] theorem State.mirror_free {s : State} {r : MirrorRec} : (State.mirror s r).free = s.free :=
  (congrArg State.free (State.mirror_core : State.core (State.mirror s r) = s.core) :)
@[simp] theorem State.mirror_ticks {s : State} {r : MirrorRec} : (State.mirror s r).ticks = s.ticks :=
  (congrArg State.ticks (State.mirror_core : State.core (State.mirror s r) = s.core) :)
@[simp] theorem State.mirror_ident {s : State} {r : MirrorRec} : (State.mirror s r).ident = s.ident :=
  (congrArg State.ident (State.mirror_core : State.core (State.mirror s r) = s.core) :)
@[simp] theorem State.mirror_regs {s : State} {r : MirrorRec} : (State.mirror s r).regs = s.regs :=
  (congrArg State.regs (State.mirror_core : State.core (State.mirror s r) = s.core) :)
@[simp] theorem State.mirror_low64 {s : State} {r : MirrorRec} : (State.mirror s r).low64 = s.low64 :=
  (congrArg State.low64 (State.mirror_core : State.core (State.mirror s r) = s.core) :)
@[simp] theorem State.mirror_high64 {s : State} {r : MirrorRec} : (State.mirror s r).high64 = s.high64 :=
  (congrArg State.high64 (State.mirror_core : State.core (State.mirror s r) = s.core) :)
@[simp] theorem State.mirror_pins {s : State} {r : MirrorRec} : (State.mirror s r).pins = s.pins :=
  (congrArg State.pins (State.mirror_core : State.core (State.mirror s r) = s.core) :)
@[simp] theorem State.mirror_points {s : State} {r : MirrorRec} : (State.mirror s r).points = s.points :=
  (congrArg State.points (State.mirror_core : State.core (State.mirror s r) = s.core) :)
@[simp] theorem State.mirror_ws {s : State} {r : MirrorRec} : (State.mirror s r).ws = s.ws :=
  (congrArg State.ws (State.mirror_core : State.core (State.mirror s r) = s.core) :)
@[simp] theorem State.mirror_txns {s : State} {r : MirrorRec} : (State.mirror s r).txns = s.txns :=
  (congrArg State.txns (State.mirror_core : State.core (State.mirror s r) = s.core) :)
@[simp] theorem State.mirror_nextTxn {s : State} {r : MirrorRec} : (State.mirror s r).nextTxn = s.nextTxn :=
  (congrArg State.nextTxn (State.mirror_core : State.core (State.mirror s r) = s.core) :)
@[simp] theorem State.mirror_lastTxn {s : State} {r : MirrorRec} : (State.mirror s r).lastTxn = s.lastTxn :=
  (congrArg State.lastTxn (State.mirror_core : State.core (State.mirror s r) = s.core) :)
@[simp] theorem State.mirror_time {s : State} {r : MirrorRec} : (State.mirror s r).time = s.time :=
  (congrArg State.time (State.mirror_core : State.core (State.mirror s r) = s.core) :)
@[simp] theorem State.mirror_hlist {s : State} {r : MirrorRec} : (State.mirror s r).hlist = s.hlist :=
  (congrArg State.hlist (State.mirror_core : State.core (State.mirror s r) = s.core) :)
@[simp] theorem State.mirror_actions {s : State} {r : MirrorRec} : (State.mirror s r).actions = s.actions :=
  (congrArg State.actions (State.mirror_core : State.core (State.mirror s r) = s.core) :)
@[simp] theorem State.mirror_fired {s : State} {r : MirrorRec} : (State.mirror s r).fired = s.fired :=
  (congrArg State.fired (State.mirror_core : State.core (State.mirror s r) = s.core) :)
@[simp] theorem State.mirror_tsqs {s : State} {r : MirrorRec} : (State.mirror s r).tsqs = s.tsqs :=
  (congrArg State.tsqs (State.mirror_core : State.core (State.mirror s r) = s.core) :)
@[simp] theorem State.mirror_chs {s : State} {r : MirrorRec} : (State.mirror s r).chs = s.chs :=
  (congrArg State.chs (State.mirror_core : State.core (State.mirror s r) = s.core) :)
@[simp] theorem State.mirror_nets {s : State} {r : MirrorRec} : (State.mirror s r).nets = s.nets :=
  (congrArg State.nets (State.mirror_core : State.core (State.mirror s r) = s.core) :)
@[simp] theorem State.mirror_bkp {s : State} {r : MirrorRec} : (State.mirror s r).bkp = s.bkp :=
  (congrArg State.bkp (State.mirror_core : State.core (State.mirror s r) = s.core) :)
@[simp] theorem State.mirror_vlt {s : State} {r : MirrorRec} : (State.mirror s r).vlt = s.vlt :=
  (congrArg State.vlt (State.mirror_core : State.core (State.mirror s r) = s.core) :)
@[simp] theorem State.mirror_lc {s : State} {r : MirrorRec} : (State.mirror s r).lc = s.lc :=
  (congrArg State.lc (State.mirror_core : State.core (State.mirror s r) = s.core) :)
@[simp] theorem State.mirror_upd {s : State} {r : MirrorRec} : (State.mirror s r).upd = s.upd :=
  (congrArg State.upd (State.mirror_core : State.core (State.mirror s r) = s.core) :)
@[simp] theorem State.mirror_frames {s : State} {r : MirrorRec} : (State.mirror s r).frames = s.frames :=
  (congrArg State.frames (State.mirror_core : State.core (State.mirror s r) = s.core) :)
@[simp] theorem State.mirror_serial {s : State} {r : MirrorRec} : (State.mirror s r).serial = s.serial :=
  (congrArg State.serial (State.mirror_core : State.core (State.mirror s r) = s.core) :)
@[simp] theorem State.mirror_usb {s : State} {r : MirrorRec} : (State.mirror s r).usb = s.usb :=
  (congrArg State.usb (State.mirror_core : State.core (State.mirror s r) = s.core) :)
@[simp] theorem State.mirror_vbus {s : State} {r : MirrorRec} : (State.mirror s r).vbus = s.vbus :=
  (congrArg State.vbus (State.mirror_core : State.core (State.mirror s r) = s.core) :)
@[simp] theorem State.mirror_ch {s : State} {r : MirrorRec} {chn : Nat} : (State.mirror s r).ch chn = s.ch chn :=
  (congrArg (fun x => State.ch x chn) (State.mirror_core : State.core (State.mirror s r) = s.core) :)
@[simp] theorem State.mirror_reg {s : State} {r : MirrorRec} {key : Nat} : (State.mirror s r).reg key = s.reg key :=
  (congrArg (fun x => State.reg x key) (State.mirror_core : State.core (State.mirror s r) = s.core) :)

@[simp] theorem writeIdx_pending {s : State} {k : Nat} : (writeIdx s k).pending = s.pending :=
  (congrArg State.pending (writeIdx_core : State.core (writeIdx s k) = s.core) :)
@[simp] theorem writeIdx_free {s : State} {k : Nat} : (writeIdx s k).free = s.free :=
  (congrArg State.free (writeIdx_core : State.core (writeIdx s k) = s.core) :)
@[simp] theorem writeIdx_ticks {s : State} {k : Nat} : (writeIdx s k).ticks = s.ticks :=
  (congrArg State.ticks (writeIdx_core : State.core (writeIdx s k) = s.core) :)
@[simp] theorem writeIdx_ident {s : State} {k : Nat} : (writeIdx s k).ident = s.ident :=
  (congrArg State.ident (writeIdx_core : State.core (writeIdx s k) = s.core) :)
@[simp] theorem writeIdx_regs {s : State} {k : Nat} : (writeIdx s k).regs = s.regs :=
  (congrArg State.regs (writeIdx_core : State.core (writeIdx s k) = s.core) :)
@[simp] theorem writeIdx_low64 {s : State} {k : Nat} : (writeIdx s k).low64 = s.low64 :=
  (congrArg State.low64 (writeIdx_core : State.core (writeIdx s k) = s.core) :)
@[simp] theorem writeIdx_high64 {s : State} {k : Nat} : (writeIdx s k).high64 = s.high64 :=
  (congrArg State.high64 (writeIdx_core : State.core (writeIdx s k) = s.core) :)
@[simp] theorem writeIdx_pins {s : State} {k : Nat} : (writeIdx s k).pins = s.pins :=
  (congrArg State.pins (writeIdx_core : State.core (writeIdx s k) = s.core) :)
@[simp] theorem writeIdx_points {s : State} {k : Nat} : (writeIdx s k).points = s.points :=
  (congrArg State.points (writeIdx_core : State.core (writeIdx s k) = s.core) :)
@[simp] theorem writeIdx_ws {s : State} {k : Nat} : (writeIdx s k).ws = s.ws :=
  (congrArg State.ws (writeIdx_core : State.core (writeIdx s k) = s.core) :)
@[simp] theorem writeIdx_txns {s : State} {k : Nat} : (writeIdx s k).txns = s.txns :=
  (congrArg State.txns (writeIdx_core : State.core (writeIdx s k) = s.core) :)
@[simp] theorem writeIdx_nextTxn {s : State} {k : Nat} : (writeIdx s k).nextTxn = s.nextTxn :=
  (congrArg State.nextTxn (writeIdx_core : State.core (writeIdx s k) = s.core) :)
@[simp] theorem writeIdx_lastTxn {s : State} {k : Nat} : (writeIdx s k).lastTxn = s.lastTxn :=
  (congrArg State.lastTxn (writeIdx_core : State.core (writeIdx s k) = s.core) :)
@[simp] theorem writeIdx_time {s : State} {k : Nat} : (writeIdx s k).time = s.time :=
  (congrArg State.time (writeIdx_core : State.core (writeIdx s k) = s.core) :)
@[simp] theorem writeIdx_hlist {s : State} {k : Nat} : (writeIdx s k).hlist = s.hlist :=
  (congrArg State.hlist (writeIdx_core : State.core (writeIdx s k) = s.core) :)
@[simp] theorem writeIdx_actions {s : State} {k : Nat} : (writeIdx s k).actions = s.actions :=
  (congrArg State.actions (writeIdx_core : State.core (writeIdx s k) = s.core) :)
@[simp] theorem writeIdx_fired {s : State} {k : Nat} : (writeIdx s k).fired = s.fired :=
  (congrArg State.fired (writeIdx_core : State.core (writeIdx s k) = s.core) :)
@[simp] theorem writeIdx_tsqs {s : State} {k : Nat} : (writeIdx s k).tsqs = s.tsqs :=
  (congrArg State.tsqs (writeIdx_core : State.core (writeIdx s k) = s.core) :)
@[simp] theorem writeIdx_chs {s : State} {k : Nat} : (writeIdx s k).chs = s.chs :=
  (congrArg State.chs (writeIdx_core : State.core (writeIdx s k) = s.core) :)
@[simp] theorem writeIdx_nets {s : State} {k : Nat} : (writeIdx s k).nets = s.nets :=
  (congrArg State.nets (writeIdx_core : State.core (writeIdx s k) = s.core) :)
@[simp] theorem writeIdx_bkp {s : State} {k : Nat} : (writeIdx s k).bkp = s.bkp :=
  (congrArg State.bkp (writeIdx_core : State.core (writeIdx s k) = s.core) :)
@[simp] theorem writeIdx_vlt {s : State} {k : Nat} : (writeIdx s k).vlt = s.vlt :=
  (congrArg State.vlt (writeIdx_core : State.core (writeIdx s k) = s.core) :)
@[simp] theorem writeIdx_lc {s : State} {k : Nat} : (writeIdx s k).lc = s.lc :=
  (congrArg State.lc (writeIdx_core : State.core (writeIdx s k) = s.core) :)
@[simp] theorem writeIdx_upd {s : State} {k : Nat} : (writeIdx s k).upd = s.upd :=
  (congrArg State.upd (writeIdx_core : State.core (writeIdx s k) = s.core) :)
@[simp] theorem writeIdx_frames {s : State} {k : Nat} : (writeIdx s k).frames = s.frames :=
  (congrArg State.frames (writeIdx_core : State.core (writeIdx s k) = s.core) :)
@[simp] theorem writeIdx_serial {s : State} {k : Nat} : (writeIdx s k).serial = s.serial :=
  (congrArg State.serial (writeIdx_core : State.core (writeIdx s k) = s.core) :)
@[simp] theorem writeIdx_usb {s : State} {k : Nat} : (writeIdx s k).usb = s.usb :=
  (congrArg State.usb (writeIdx_core : State.core (writeIdx s k) = s.core) :)
@[simp] theorem writeIdx_vbus {s : State} {k : Nat} : (writeIdx s k).vbus = s.vbus :=
  (congrArg State.vbus (writeIdx_core : State.core (writeIdx s k) = s.core) :)
@[simp] theorem writeIdx_ch {s : State} {k : Nat} {chn : Nat} : (writeIdx s k).ch chn = s.ch chn :=
  (congrArg (fun x => State.ch x chn) (writeIdx_core : State.core (writeIdx s k) = s.core) :)
@[simp] theorem writeIdx_reg {s : State} {k : Nat} {key : Nat} : (writeIdx s k).reg key = s.reg key :=
  (congrArg (fun x => State.reg x key) (writeIdx_core : State.core (writeIdx s k) = s.core) :)

@[simp] theorem ringNotify_pending {s : State} {k : Nat} {due : Bool} : (ringNotify s k due).pending = s.pending :=
  (congrArg State.pending (ringNotify_core : State.core (ringNotify s k due) = s.core) :)
@[simp] theorem ringNotify_free {s : State} {k : Nat} {due : Bool} : (ringNotify s k due).free = s.free :=
  (congrArg State.free (ringNotify_core : State.core (ringNotify s k due) = s.core) :)
@[simp] theorem ringNotify_ticks {s : State} {k : Nat} {due : Bool} : (ringNotify s k due).ticks = s.ticks :=
  (congrArg State.ticks (ringNotify_core : State.core (ringNotify s k due) = s.core) :)
@[simp] theorem ringNotify_ident {s : State} {k : Nat} {due : Bool} : (ringNotify s k due).ident = s.ident :=
  (congrArg State.ident (ringNotify_core : State.core (ringNotify s k due) = s.core) :)
@[simp] theorem ringNotify_regs {s : State} {k : Nat} {due : Bool} : (ringNotify s k due).regs = s.regs :=
  (congrArg State.regs (ringNotify_core : State.core (ringNotify s k due) = s.core) :)
@[simp] theorem ringNotify_low64 {s : State} {k : Nat} {due : Bool} : (ringNotify s k due).low64 = s.low64 :=
  (congrArg State.low64 (ringNotify_core : State.core (ringNotify s k due) = s.core) :)
@[simp] theorem ringNotify_high64 {s : State} {k : Nat} {due : Bool} : (ringNotify s k due).high64 = s.high64 :=
  (congrArg State.high64 (ringNotify_core : State.core (ringNotify s k due) = s.core) :)
@[simp] theorem ringNotify_pins {s : State} {k : Nat} {due : Bool} : (ringNotify s k due).pins = s.pins :=
  (congrArg State.pins (ringNotify_core : State.core (ringNotify s k due) = s.core) :)
@[simp] theorem ringNotify_points {s : State} {k : Nat} {due : Bool} : (ringNotify s k due).points = s.points :=
  (congrArg State.points (ringNotify_core : State.core (ringNotify s k due) = s.core) :)
@[simp] theorem ringNotify_ws {s : State} {k : Nat} {due : Bool} : (ringNotify s k due).ws = s.ws :=
  (congrArg State.ws (ringNotify_core : State.core (ringNotify s k due) = s.core) :)
@[simp] theorem ringNotify_txns {s : State} {k : Nat} {due : Bool} : (ringNotify s k due).txns = s.txns :=
  (congrArg State.txns (ringNotify_core : State.core (ringNotify s k due) = s.core) :)
@[simp] theorem ringNotify_nextTxn {s : State} {k : Nat} {due : Bool} : (ringNotify s k due).nextTxn = s.nextTxn :=
  (congrArg State.nextTxn (ringNotify_core : State.core (ringNotify s k due) = s.core) :)
@[simp] theorem ringNotify_lastTxn {s : State} {k : Nat} {due : Bool} : (ringNotify s k due).lastTxn = s.lastTxn :=
  (congrArg State.lastTxn (ringNotify_core : State.core (ringNotify s k due) = s.core) :)
@[simp] theorem ringNotify_time {s : State} {k : Nat} {due : Bool} : (ringNotify s k due).time = s.time :=
  (congrArg State.time (ringNotify_core : State.core (ringNotify s k due) = s.core) :)
@[simp] theorem ringNotify_hlist {s : State} {k : Nat} {due : Bool} : (ringNotify s k due).hlist = s.hlist :=
  (congrArg State.hlist (ringNotify_core : State.core (ringNotify s k due) = s.core) :)
@[simp] theorem ringNotify_actions {s : State} {k : Nat} {due : Bool} : (ringNotify s k due).actions = s.actions :=
  (congrArg State.actions (ringNotify_core : State.core (ringNotify s k due) = s.core) :)
@[simp] theorem ringNotify_fired {s : State} {k : Nat} {due : Bool} : (ringNotify s k due).fired = s.fired :=
  (congrArg State.fired (ringNotify_core : State.core (ringNotify s k due) = s.core) :)
@[simp] theorem ringNotify_tsqs {s : State} {k : Nat} {due : Bool} : (ringNotify s k due).tsqs = s.tsqs :=
  (congrArg State.tsqs (ringNotify_core : State.core (ringNotify s k due) = s.core) :)
@[simp] theorem ringNotify_chs {s : State} {k : Nat} {due : Bool} : (ringNotify s k due).chs = s.chs :=
  (congrArg State.chs (ringNotify_core : State.core (ringNotify s k due) = s.core) :)
@[simp] theorem ringNotify_nets {s : State} {k : Nat} {due : Bool} : (ringNotify s k due).nets = s.nets :=
  (congrArg State.nets (ringNotify_core : State.core (ringNotify s k due) = s.core) :)
@[simp] theorem ringNotify_bkp {s : State} {k : Nat} {due : Bool} : (ringNotify s k due).bkp = s.bkp :=
  (congrArg State.bkp (ringNotify_core : State.core (ringNotify s k due) = s.core) :)
@[simp] theorem ringNotify_vlt {s : State} {k : Nat} {due : Bool} : (ringNotify s k due).vlt = s.vlt :=
  (congrArg State.vlt (ringNotify_core : State.core (ringNotify s k due) = s.core) :)
@[simp] theorem ringNotify_lc {s : State} {k : Nat} {due : Bool} : (ringNotify s k due).lc = s.lc :=
  (congrArg State.lc (ringNotify_core : State.core (ringNotify s k due) = s.core) :)
@[simp] theorem ringNotify_upd {s : State} {k : Nat} {due : Bool} : (ringNotify s k due).upd = s.upd :=
  (congrArg State.upd (ringNotify_core : State.core (ringNotify s k due) = s.core) :)
@[simp] theorem ringNotify_frames {s : State} {k : Nat} {due : Bool} : (ringNotify s k due).frames = s.frames :=
  (congrArg State.frames (ringNotify_core : State.core (ringNotify s k due) = s.core) :)
@[simp] theorem ringNotify_serial {s : State} {k : Nat} {due : Bool} : (ringNotify s k due).serial = s.serial :=
  (congrArg State.serial (ringNotify_core : State.core (ringNotify s k due) = s.core) :)
@[simp] theorem ringNotify_usb {s : State} {k : Nat} {due : Bool} : (ringNotify s k due).usb = s.usb :=
  (congrArg State.usb (ringNotify_core : State.core (ringNotify s k due) = s.core) :)
@[simp] theorem ringNotify_vbus {s : State} {k : Nat} {due : Bool} : (ringNotify s k due).vbus = s.vbus :=
  (congrArg State.vbus (ringNotify_core : State.core (ringNotify s k due) = s.core) :)
@[simp] theorem ringNotify_ch {s : State} {k : Nat} {due : Bool} {chn : Nat} : (ringNotify s k due).ch chn = s.ch chn :=
  (congrArg (fun x => State.ch x chn) (ringNotify_core : State.core (ringNotify s k due) = s.core) :)
@[simp] theorem ringNotify_reg {s : State} {k : Nat} {due : Bool} {key : Nat} : (ringNotify s k due).reg key = s.reg key :=
  (congrArg (fun x => State.reg x key) (ringNotify_core : State.core (ringNotify s k due) = s.core) :)

@[simp] theorem ringItem_pending {s : State} {k : Nat} : (ringItem s k).pending = s.pending :=
  (congrArg State.pending (ringItem_core : State.core (ringItem s k) = s.core) :)
@[simp] theorem ringItem_free {s : State} {k : Nat} : (ringItem s k).free = s.free :=
  (congrArg State.free (ringItem_core : State.core (ringItem s k) = s.core) :)
@[simp] theorem ringItem_ticks {s : State} {k : Nat} : (ringItem s k).ticks = s.ticks :=
  (congrArg State.ticks (ringItem_core : State.core (ringItem s k) = s.core) :)
@[simp] theorem ringItem_ident {s : State} {k : Nat} : (ringItem s k).ident = s.ident :=
  (congrArg State.ident (ringItem_core : State.core (ringItem s k) = s.core) :)
@[simp] theorem ringItem_regs {s : State} {k : Nat} : (ringItem s k).regs = s.regs :=
  (congrArg State.regs (ringItem_core : State.core (ringItem s k) = s.core) :)
@[simp] theorem ringItem_low64 {s : State} {k : Nat} : (ringItem s k).low64 = s.low64 :=
  (congrArg State.low64 (ringItem_core : State.core (ringItem s k) = s.core) :)
@[simp] theorem ringItem_high64 {s : State} {k : Nat} : (ringItem s k).high64 = s.high64 :=
  (congrArg State.high64 (ringItem_core : State.core (ringItem s k) = s.core) :)
@[simp] theorem ringItem_pins {s : State} {k : Nat} : (ringItem s k).pins = s.pins :=
  (congrArg State.pins (ringItem_core : State.core (ringItem s k) = s.core) :)
@[simp] theorem ringItem_points {s : State} {k : Nat} : (ringItem s k).points = s.points :=
  (congrArg State.points (ringItem_core : State.core (ringItem s k) = s.core) :)
@[simp] theorem ringItem_ws {s : State} {k : Nat} : (ringItem s k).ws = s.ws :=
  (congrArg State.ws (ringItem_core : State.core (ringItem s k) = s.core) :)
@[simp] theorem ringItem_txns {s : State} {k : Nat} : (ringItem s k).txns = s.txns :=
  (congrArg State.txns (ringItem_core : State.core (ringItem s k) = s.core) :)
@[simp] theorem ringItem_nextTxn {s : State} {k : Nat} : (ringItem s k).nextTxn = s.nextTxn :=
  (congrArg State.nextTxn (ringItem_core : State.core (ringItem s k) = s.core) :)
@[simp] theorem ringItem_lastTxn {s : State} {k : Nat} : (ringItem s k).lastTxn = s.lastTxn :=
  (congrArg State.lastTxn (ringItem_core : State.core (ringItem s k) = s.core) :)
@[simp] theorem ringItem_time {s : State} {k : Nat} : (ringItem s k).time = s.time :=
  (congrArg State.time (ringItem_core : State.core (ringItem s k) = s.core) :)
@[simp] theorem ringItem_hlist {s : State} {k : Nat} : (ringItem s k).hlist = s.hlist :=
  (congrArg State.hlist (ringItem_core : State.core (ringItem s k) = s.core) :)
@[simp] theorem ringItem_actions {s : State} {k : Nat} : (ringItem s k).actions = s.actions :=
  (congrArg State.actions (ringItem_core : State.core (ringItem s k) = s.core) :)
@[simp] theorem ringItem_fired {s : State} {k : Nat} : (ringItem s k).fired = s.fired :=
  (congrArg State.fired (ringItem_core : State.core (ringItem s k) = s.core) :)
@[simp] theorem ringItem_tsqs {s : State} {k : Nat} : (ringItem s k).tsqs = s.tsqs :=
  (congrArg State.tsqs (ringItem_core : State.core (ringItem s k) = s.core) :)
@[simp] theorem ringItem_chs {s : State} {k : Nat} : (ringItem s k).chs = s.chs :=
  (congrArg State.chs (ringItem_core : State.core (ringItem s k) = s.core) :)
@[simp] theorem ringItem_nets {s : State} {k : Nat} : (ringItem s k).nets = s.nets :=
  (congrArg State.nets (ringItem_core : State.core (ringItem s k) = s.core) :)
@[simp] theorem ringItem_bkp {s : State} {k : Nat} : (ringItem s k).bkp = s.bkp :=
  (congrArg State.bkp (ringItem_core : State.core (ringItem s k) = s.core) :)
@[simp] theorem ringItem_vlt {s : State} {k : Nat} : (ringItem s k).vlt = s.vlt :=
  (congrArg State.vlt (ringItem_core : State.core (ringItem s k) = s.core) :)
@[simp] theorem ringItem_lc {s : State} {k : Nat} : (ringItem s k).lc = s.lc :=
  (congrArg State.lc (ringItem_core : State.core (ringItem s k) = s.core) :)
@[simp] theorem ringItem_upd {s : State} {k : Nat} : (ringItem s k).upd = s.upd :=
  (congrArg State.upd (ringItem_core : State.core (ringItem s k) = s.core) :)
@[simp] theorem ringItem_frames {s : State} {k : Nat} : (ringItem s k).frames = s.frames :=
  (congrArg State.frames (ringItem_core : State.core (ringItem s k) = s.core) :)
@[simp] theorem ringItem_serial {s : State} {k : Nat} : (ringItem s k).serial = s.serial :=
  (congrArg State.serial (ringItem_core : State.core (ringItem s k) = s.core) :)
@[simp] theorem ringItem_usb {s : State} {k : Nat} : (ringItem s k).usb = s.usb :=
  (congrArg State.usb (ringItem_core : State.core (ringItem s k) = s.core) :)
@[simp] theorem ringItem_vbus {s : State} {k : Nat} : (ringItem s k).vbus = s.vbus :=
  (congrArg State.vbus (ringItem_core : State.core (ringItem s k) = s.core) :)
@[simp] theorem ringItem_ch {s : State} {k : Nat} {chn : Nat} : (ringItem s k).ch chn = s.ch chn :=
  (congrArg (fun x => State.ch x chn) (ringItem_core : State.core (ringItem s k) = s.core) :)
@[simp] theorem ringItem_reg {s : State} {k : Nat} {key : Nat} : (ringItem s k).reg key = s.reg key :=
  (congrArg (fun x => State.reg x key) (ringItem_core : State.core (ringItem s k) = s.core) :)

@[simp] theorem withhold_pending {s : State} {b : Nat} : (withhold s b).pending = s.pending :=
  (congrArg State.pending (withhold_core : State.core (withhold s b) = s.core) :)
@[simp] theorem withhold_free {s : State} {b : Nat} : (withhold s b).free = s.free :=
  (congrArg State.free (withhold_core : State.core (withhold s b) = s.core) :)
@[simp] theorem withhold_ticks {s : State} {b : Nat} : (withhold s b).ticks = s.ticks :=
  (congrArg State.ticks (withhold_core : State.core (withhold s b) = s.core) :)
@[simp] theorem withhold_ident {s : State} {b : Nat} : (withhold s b).ident = s.ident :=
  (congrArg State.ident (withhold_core : State.core (withhold s b) = s.core) :)
@[simp] theorem withhold_regs {s : State} {b : Nat} : (withhold s b).regs = s.regs :=
  (congrArg State.regs (withhold_core : State.core (withhold s b) = s.core) :)
@[simp] theorem withhold_low64 {s : State} {b : Nat} : (withhold s b).low64 = s.low64 :=
  (congrArg State.low64 (withhold_core : State.core (withhold s b) = s.core) :)
@[simp] theorem withhold_high64 {s : State} {b : Nat} : (withhold s b).high64 = s.high64 :=
  (congrArg State.high64 (withhold_core : State.core (withhold s b) = s.core) :)
@[simp] theorem withhold_pins {s : State} {b : Nat} : (withhold s b).pins = s.pins :=
  (congrArg State.pins (withhold_core : State.core (withhold s b) = s.core) :)
@[simp] theorem withhold_points {s : State} {b : Nat} : (withhold s b).points = s.points :=
  (congrArg State.points (withhold_core : State.core (withhold s b) = s.core) :)
@[simp] theorem withhold_ws {s : State} {b : Nat} : (withhold s b).ws = s.ws :=
  (congrArg State.ws (withhold_core : State.core (withhold s b) = s.core) :)
@[simp] theorem withhold_txns {s : State} {b : Nat} : (withhold s b).txns = s.txns :=
  (congrArg State.txns (withhold_core : State.core (withhold s b) = s.core) :)
@[simp] theorem withhold_nextTxn {s : State} {b : Nat} : (withhold s b).nextTxn = s.nextTxn :=
  (congrArg State.nextTxn (withhold_core : State.core (withhold s b) = s.core) :)
@[simp] theorem withhold_lastTxn {s : State} {b : Nat} : (withhold s b).lastTxn = s.lastTxn :=
  (congrArg State.lastTxn (withhold_core : State.core (withhold s b) = s.core) :)
@[simp] theorem withhold_time {s : State} {b : Nat} : (withhold s b).time = s.time :=
  (congrArg State.time (withhold_core : State.core (withhold s b) = s.core) :)
@[simp] theorem withhold_hlist {s : State} {b : Nat} : (withhold s b).hlist = s.hlist :=
  (congrArg State.hlist (withhold_core : State.core (withhold s b) = s.core) :)
@[simp] theorem withhold_actions {s : State} {b : Nat} : (withhold s b).actions = s.actions :=
  (congrArg State.actions (withhold_core : State.core (withhold s b) = s.core) :)
@[simp] theorem withhold_fired {s : State} {b : Nat} : (withhold s b).fired = s.fired :=
  (congrArg State.fired (withhold_core : State.core (withhold s b) = s.core) :)
@[simp] theorem withhold_tsqs {s : State} {b : Nat} : (withhold s b).tsqs = s.tsqs :=
  (congrArg State.tsqs (withhold_core : State.core (withhold s b) = s.core) :)
@[simp] theorem withhold_chs {s : State} {b : Nat} : (withhold s b).chs = s.chs :=
  (congrArg State.chs (withhold_core : State.core (withhold s b) = s.core) :)
@[simp] theorem withhold_nets {s : State} {b : Nat} : (withhold s b).nets = s.nets :=
  (congrArg State.nets (withhold_core : State.core (withhold s b) = s.core) :)
@[simp] theorem withhold_bkp {s : State} {b : Nat} : (withhold s b).bkp = s.bkp :=
  (congrArg State.bkp (withhold_core : State.core (withhold s b) = s.core) :)
@[simp] theorem withhold_vlt {s : State} {b : Nat} : (withhold s b).vlt = s.vlt :=
  (congrArg State.vlt (withhold_core : State.core (withhold s b) = s.core) :)
@[simp] theorem withhold_lc {s : State} {b : Nat} : (withhold s b).lc = s.lc :=
  (congrArg State.lc (withhold_core : State.core (withhold s b) = s.core) :)
@[simp] theorem withhold_upd {s : State} {b : Nat} : (withhold s b).upd = s.upd :=
  (congrArg State.upd (withhold_core : State.core (withhold s b) = s.core) :)
@[simp] theorem withhold_frames {s : State} {b : Nat} : (withhold s b).frames = s.frames :=
  (congrArg State.frames (withhold_core : State.core (withhold s b) = s.core) :)
@[simp] theorem withhold_serial {s : State} {b : Nat} : (withhold s b).serial = s.serial :=
  (congrArg State.serial (withhold_core : State.core (withhold s b) = s.core) :)
@[simp] theorem withhold_usb {s : State} {b : Nat} : (withhold s b).usb = s.usb :=
  (congrArg State.usb (withhold_core : State.core (withhold s b) = s.core) :)
@[simp] theorem withhold_vbus {s : State} {b : Nat} : (withhold s b).vbus = s.vbus :=
  (congrArg State.vbus (withhold_core : State.core (withhold s b) = s.core) :)
@[simp] theorem withhold_ch {s : State} {b : Nat} {chn : Nat} : (withhold s b).ch chn = s.ch chn :=
  (congrArg (fun x => State.ch x chn) (withhold_core : State.core (withhold s b) = s.core) :)
@[simp] theorem withhold_reg {s : State} {b : Nat} {key : Nat} : (withhold s b).reg key = s.reg key :=
  (congrArg (fun x => State.reg x key) (withhold_core : State.core (withhold s b) = s.core) :)

@[simp] theorem steer_pending {s : State} {b r h : Nat} {p : Point} {m : Mirror} {repeated : Bool} : (steer s b r h p m repeated).pending = s.pending :=
  (congrArg State.pending (steer_core : State.core (steer s b r h p m repeated) = s.core) :)
@[simp] theorem steer_free {s : State} {b r h : Nat} {p : Point} {m : Mirror} {repeated : Bool} : (steer s b r h p m repeated).free = s.free :=
  (congrArg State.free (steer_core : State.core (steer s b r h p m repeated) = s.core) :)
@[simp] theorem steer_ticks {s : State} {b r h : Nat} {p : Point} {m : Mirror} {repeated : Bool} : (steer s b r h p m repeated).ticks = s.ticks :=
  (congrArg State.ticks (steer_core : State.core (steer s b r h p m repeated) = s.core) :)
@[simp] theorem steer_ident {s : State} {b r h : Nat} {p : Point} {m : Mirror} {repeated : Bool} : (steer s b r h p m repeated).ident = s.ident :=
  (congrArg State.ident (steer_core : State.core (steer s b r h p m repeated) = s.core) :)
@[simp] theorem steer_regs {s : State} {b r h : Nat} {p : Point} {m : Mirror} {repeated : Bool} : (steer s b r h p m repeated).regs = s.regs :=
  (congrArg State.regs (steer_core : State.core (steer s b r h p m repeated) = s.core) :)
@[simp] theorem steer_low64 {s : State} {b r h : Nat} {p : Point} {m : Mirror} {repeated : Bool} : (steer s b r h p m repeated).low64 = s.low64 :=
  (congrArg State.low64 (steer_core : State.core (steer s b r h p m repeated) = s.core) :)
@[simp] theorem steer_high64 {s : State} {b r h : Nat} {p : Point} {m : Mirror} {repeated : Bool} : (steer s b r h p m repeated).high64 = s.high64 :=
  (congrArg State.high64 (steer_core : State.core (steer s b r h p m repeated) = s.core) :)
@[simp] theorem steer_pins {s : State} {b r h : Nat} {p : Point} {m : Mirror} {repeated : Bool} : (steer s b r h p m repeated).pins = s.pins :=
  (congrArg State.pins (steer_core : State.core (steer s b r h p m repeated) = s.core) :)
@[simp] theorem steer_points {s : State} {b r h : Nat} {p : Point} {m : Mirror} {repeated : Bool} : (steer s b r h p m repeated).points = s.points :=
  (congrArg State.points (steer_core : State.core (steer s b r h p m repeated) = s.core) :)
@[simp] theorem steer_ws {s : State} {b r h : Nat} {p : Point} {m : Mirror} {repeated : Bool} : (steer s b r h p m repeated).ws = s.ws :=
  (congrArg State.ws (steer_core : State.core (steer s b r h p m repeated) = s.core) :)
@[simp] theorem steer_txns {s : State} {b r h : Nat} {p : Point} {m : Mirror} {repeated : Bool} : (steer s b r h p m repeated).txns = s.txns :=
  (congrArg State.txns (steer_core : State.core (steer s b r h p m repeated) = s.core) :)
@[simp] theorem steer_nextTxn {s : State} {b r h : Nat} {p : Point} {m : Mirror} {repeated : Bool} : (steer s b r h p m repeated).nextTxn = s.nextTxn :=
  (congrArg State.nextTxn (steer_core : State.core (steer s b r h p m repeated) = s.core) :)
@[simp] theorem steer_lastTxn {s : State} {b r h : Nat} {p : Point} {m : Mirror} {repeated : Bool} : (steer s b r h p m repeated).lastTxn = s.lastTxn :=
  (congrArg State.lastTxn (steer_core : State.core (steer s b r h p m repeated) = s.core) :)
@[simp] theorem steer_time {s : State} {b r h : Nat} {p : Point} {m : Mirror} {repeated : Bool} : (steer s b r h p m repeated).time = s.time :=
  (congrArg State.time (steer_core : State.core (steer s b r h p m repeated) = s.core) :)
@[simp] theorem steer_hlist {s : State} {b r h : Nat} {p : Point} {m : Mirror} {repeated : Bool} : (steer s b r h p m repeated).hlist = s.hlist :=
  (congrArg State.hlist (steer_core : State.core (steer s b r h p m repeated) = s.core) :)
@[simp] theorem steer_actions {s : State} {b r h : Nat} {p : Point} {m : Mirror} {repeated : Bool} : (steer s b r h p m repeated).actions = s.actions :=
  (congrArg State.actions (steer_core : State.core (steer s b r h p m repeated) = s.core) :)
@[simp] theorem steer_fired {s : State} {b r h : Nat} {p : Point} {m : Mirror} {repeated : Bool} : (steer s b r h p m repeated).fired = s.fired :=
  (congrArg State.fired (steer_core : State.core (steer s b r h p m repeated) = s.core) :)
@[simp] theorem steer_tsqs {s : State} {b r h : Nat} {p : Point} {m : Mirror} {repeated : Bool} : (steer s b r h p m repeated).tsqs = s.tsqs :=
  (congrArg State.tsqs (steer_core : State.core (steer s b r h p m repeated) = s.core) :)
@[simp] theorem steer_chs {s : State} {b r h : Nat} {p : Point} {m : Mirror} {repeated : Bool} : (steer s b r h p m repeated).chs = s.chs :=
  (congrArg State.chs (steer_core : State.core (steer s b r h p m repeated) = s.core) :)
@[simp] theorem steer_nets {s : State} {b r h : Nat} {p : Point} {m : Mirror} {repeated : Bool} : (steer s b r h p m repeated).nets = s.nets :=
  (congrArg State.nets (steer_core : State.core (steer s b r h p m repeated) = s.core) :)
@[simp] theorem steer_bkp {s : State} {b r h : Nat} {p : Point} {m : Mirror} {repeated : Bool} : (steer s b r h p m repeated).bkp = s.bkp :=
  (congrArg State.bkp (steer_core : State.core (steer s b r h p m repeated) = s.core) :)
@[simp] theorem steer_vlt {s : State} {b r h : Nat} {p : Point} {m : Mirror} {repeated : Bool} : (steer s b r h p m repeated).vlt = s.vlt :=
  (congrArg State.vlt (steer_core : State.core (steer s b r h p m repeated) = s.core) :)
@[simp] theorem steer_lc {s : State} {b r h : Nat} {p : Point} {m : Mirror} {repeated : Bool} : (steer s b r h p m repeated).lc = s.lc :=
  (congrArg State.lc (steer_core : State.core (steer s b r h p m repeated) = s.core) :)
@[simp] theorem steer_upd {s : State} {b r h : Nat} {p : Point} {m : Mirror} {repeated : Bool} : (steer s b r h p m repeated).upd = s.upd :=
  (congrArg State.upd (steer_core : State.core (steer s b r h p m repeated) = s.core) :)
@[simp] theorem steer_frames {s : State} {b r h : Nat} {p : Point} {m : Mirror} {repeated : Bool} : (steer s b r h p m repeated).frames = s.frames :=
  (congrArg State.frames (steer_core : State.core (steer s b r h p m repeated) = s.core) :)
@[simp] theorem steer_serial {s : State} {b r h : Nat} {p : Point} {m : Mirror} {repeated : Bool} : (steer s b r h p m repeated).serial = s.serial :=
  (congrArg State.serial (steer_core : State.core (steer s b r h p m repeated) = s.core) :)
@[simp] theorem steer_usb {s : State} {b r h : Nat} {p : Point} {m : Mirror} {repeated : Bool} : (steer s b r h p m repeated).usb = s.usb :=
  (congrArg State.usb (steer_core : State.core (steer s b r h p m repeated) = s.core) :)
@[simp] theorem steer_vbus {s : State} {b r h : Nat} {p : Point} {m : Mirror} {repeated : Bool} : (steer s b r h p m repeated).vbus = s.vbus :=
  (congrArg State.vbus (steer_core : State.core (steer s b r h p m repeated) = s.core) :)
@[simp] theorem steer_ch {s : State} {b r h : Nat} {p : Point} {m : Mirror} {repeated : Bool} {chn : Nat} : (steer s b r h p m repeated).ch chn = s.ch chn :=
  (congrArg (fun x => State.ch x chn) (steer_core : State.core (steer s b r h p m repeated) = s.core) :)
@[simp] theorem steer_reg {s : State} {b r h : Nat} {p : Point} {m : Mirror} {repeated : Bool} {key : Nat} : (steer s b r h p m repeated).reg key = s.reg key :=
  (congrArg (fun x => State.reg x key) (steer_core : State.core (steer s b r h p m repeated) = s.core) :)

@[simp] theorem complete_pending {s : State} {k : Nat} {c : Completion} : (complete s k c).pending = s.pending :=
  (congrArg State.pending (complete_core : State.core (complete s k c) = s.core) :)
@[simp] theorem complete_free {s : State} {k : Nat} {c : Completion} : (complete s k c).free = s.free :=
  (congrArg State.free (complete_core : State.core (complete s k c) = s.core) :)
@[simp] theorem complete_ticks {s : State} {k : Nat} {c : Completion} : (complete s k c).ticks = s.ticks :=
  (congrArg State.ticks (complete_core : State.core (complete s k c) = s.core) :)
@[simp] theorem complete_ident {s : State} {k : Nat} {c : Completion} : (complete s k c).ident = s.ident :=
  (congrArg State.ident (complete_core : State.core (complete s k c) = s.core) :)
@[simp] theorem complete_regs {s : State} {k : Nat} {c : Completion} : (complete s k c).regs = s.regs :=
  (congrArg State.regs (complete_core : State.core (complete s k c) = s.core) :)
@[simp] theorem complete_low64 {s : State} {k : Nat} {c : Completion} : (complete s k c).low64 = s.low64 :=
  (congrArg State.low64 (complete_core : State.core (complete s k c) = s.core) :)
@[simp] theorem complete_high64 {s : State} {k : Nat} {c : Completion} : (complete s k c).high64 = s.high64 :=
  (congrArg State.high64 (complete_core : State.core (complete s k c) = s.core) :)
@[simp] theorem complete_pins {s : State} {k : Nat} {c : Completion} : (complete s k c).pins = s.pins :=
  (congrArg State.pins (complete_core : State.core (complete s k c) = s.core) :)
@[simp] theorem complete_points {s : State} {k : Nat} {c : Completion} : (complete s k c).points = s.points :=
  (congrArg State.points (complete_core : State.core (complete s k c) = s.core) :)
@[simp] theorem complete_ws {s : State} {k : Nat} {c : Completion} : (complete s k c).ws = s.ws :=
  (congrArg State.ws (complete_core : State.core (complete s k c) = s.core) :)
@[simp] theorem complete_txns {s : State} {k : Nat} {c : Completion} : (complete s k c).txns = s.txns :=
  (congrArg State.txns (complete_core : State.core (complete s k c) = s.core) :)
@[simp] theorem complete_nextTxn {s : State} {k : Nat} {c : Completion} : (complete s k c).nextTxn = s.nextTxn :=
  (congrArg State.nextTxn (complete_core : State.core (complete s k c) = s.core) :)
@[simp] theorem complete_lastTxn {s : State} {k : Nat} {c : Completion} : (complete s k c).lastTxn = s.lastTxn :=
  (congrArg State.lastTxn (complete_core : State.core (complete s k c) = s.core) :)
@[simp] theorem complete_time {s : State} {k : Nat} {c : Completion} : (complete s k c).time = s.time :=
  (congrArg State.time (complete_core : State.core (complete s k c) = s.core) :)
@[simp] theorem complete_hlist {s : State} {k : Nat} {c : Completion} : (complete s k c).hlist = s.hlist :=
  (congrArg State.hlist (complete_core : State.core (complete s k c) = s.core) :)
@[simp] theorem complete_actions {s : State} {k : Nat} {c : Completion} : (complete s k c).actions = s.actions :=
  (congrArg State.actions (complete_core : State.core (complete s k c) = s.core) :)
@[simp] theorem complete_fired {s : State} {k : Nat} {c : Completion} : (complete s k c).fired = s.fired :=
  (congrArg State.fired (complete_core : State.core (complete s k c) = s.core) :)
@[simp] theorem complete_tsqs {s : State} {k : Nat} {c : Completion} : (complete s k c).tsqs = s.tsqs :=
  (congrArg State.tsqs (complete_core : State.core (complete s k c) = s.core) :)
@[simp] theorem complete_chs {s : State} {k : Nat} {c : Completion} : (complete s k c).chs = s.chs :=
  (congrArg State.chs (complete_core : State.core (complete s k c) = s.core) :)
@[simp] theorem complete_nets {s : State} {k : Nat} {c : Completion} : (complete s k c).nets = s.nets :=
  (congrArg State.nets (complete_core : State.core (complete s k c) = s.core) :)
@[simp] theorem complete_bkp {s : State} {k : Nat} {c : Completion} : (complete s k c).bkp = s.bkp :=
  (congrArg State.bkp (complete_core : State.core (complete s k c) = s.core) :)
@[simp] theorem complete_vlt {s : State} {k : Nat} {c : Completion} : (complete s k c).vlt = s.vlt :=
  (congrArg State.vlt (complete_core : State.core (complete s k c) = s.core) :)
@[simp] theorem complete_lc {s : State} {k : Nat} {c : Completion} : (complete s k c).lc = s.lc :=
  (congrArg State.lc (complete_core : State.core (complete s k c) = s.core) :)
@[simp] theorem complete_upd {s : State} {k : Nat} {c : Completion} : (complete s k c).upd = s.upd :=
  (congrArg State.upd (complete_core : State.core (complete s k c) = s.core) :)
@[simp] theorem complete_frames {s : State} {k : Nat} {c : Completion} : (complete s k c).frames = s.frames :=
  (congrArg State.frames (complete_core : State.core (complete s k c) = s.core) :)
@[simp] theorem complete_serial {s : State} {k : Nat} {c : Completion} : (complete s k c).serial = s.serial :=
  (congrArg State.serial (complete_core : State.core (complete s k c) = s.core) :)
@[simp] theorem complete_usb {s : State} {k : Nat} {c : Completion} : (complete s k c).usb = s.usb :=
  (congrArg State.usb (complete_core : State.core (complete s k c) = s.core) :)
@[simp] theorem complete_vbus {s : State} {k : Nat} {c : Completion} : (complete s k c).vbus = s.vbus :=
  (congrArg State.vbus (complete_core : State.core (complete s k c) = s.core) :)
@[simp] theorem complete_ch {s : State} {k : Nat} {c : Completion} {chn : Nat} : (complete s k c).ch chn = s.ch chn :=
  (congrArg (fun x => State.ch x chn) (complete_core : State.core (complete s k c) = s.core) :)
@[simp] theorem complete_reg {s : State} {k : Nat} {c : Completion} {key : Nat} : (complete s k c).reg key = s.reg key :=
  (congrArg (fun x => State.reg x key) (complete_core : State.core (complete s k c) = s.core) :)

@[simp] theorem finish_pending {s : State} {k id status : Nat} {tsq late : Bool} {info : Word} : (finish s k id status tsq late info).pending = s.pending :=
  (congrArg State.pending (finish_core : State.core (finish s k id status tsq late info) = s.core) :)
@[simp] theorem finish_free {s : State} {k id status : Nat} {tsq late : Bool} {info : Word} : (finish s k id status tsq late info).free = s.free :=
  (congrArg State.free (finish_core : State.core (finish s k id status tsq late info) = s.core) :)
@[simp] theorem finish_ticks {s : State} {k id status : Nat} {tsq late : Bool} {info : Word} : (finish s k id status tsq late info).ticks = s.ticks :=
  (congrArg State.ticks (finish_core : State.core (finish s k id status tsq late info) = s.core) :)
@[simp] theorem finish_ident {s : State} {k id status : Nat} {tsq late : Bool} {info : Word} : (finish s k id status tsq late info).ident = s.ident :=
  (congrArg State.ident (finish_core : State.core (finish s k id status tsq late info) = s.core) :)
@[simp] theorem finish_regs {s : State} {k id status : Nat} {tsq late : Bool} {info : Word} : (finish s k id status tsq late info).regs = s.regs :=
  (congrArg State.regs (finish_core : State.core (finish s k id status tsq late info) = s.core) :)
@[simp] theorem finish_low64 {s : State} {k id status : Nat} {tsq late : Bool} {info : Word} : (finish s k id status tsq late info).low64 = s.low64 :=
  (congrArg State.low64 (finish_core : State.core (finish s k id status tsq late info) = s.core) :)
@[simp] theorem finish_high64 {s : State} {k id status : Nat} {tsq late : Bool} {info : Word} : (finish s k id status tsq late info).high64 = s.high64 :=
  (congrArg State.high64 (finish_core : State.core (finish s k id status tsq late info) = s.core) :)
@[simp] theorem finish_pins {s : State} {k id status : Nat} {tsq late : Bool} {info : Word} : (finish s k id status tsq late info).pins = s.pins :=
  (congrArg State.pins (finish_core : State.core (finish s k id status tsq late info) = s.core) :)
@[simp] theorem finish_points {s : State} {k id status : Nat} {tsq late : Bool} {info : Word} : (finish s k id status tsq late info).points = s.points :=
  (congrArg State.points (finish_core : State.core (finish s k id status tsq late info) = s.core) :)
@[simp] theorem finish_ws {s : State} {k id status : Nat} {tsq late : Bool} {info : Word} : (finish s k id status tsq late info).ws = s.ws :=
  (congrArg State.ws (finish_core : State.core (finish s k id status tsq late info) = s.core) :)
@[simp] theorem finish_txns {s : State} {k id status : Nat} {tsq late : Bool} {info : Word} : (finish s k id status tsq late info).txns = s.txns :=
  (congrArg State.txns (finish_core : State.core (finish s k id status tsq late info) = s.core) :)
@[simp] theorem finish_nextTxn {s : State} {k id status : Nat} {tsq late : Bool} {info : Word} : (finish s k id status tsq late info).nextTxn = s.nextTxn :=
  (congrArg State.nextTxn (finish_core : State.core (finish s k id status tsq late info) = s.core) :)
@[simp] theorem finish_lastTxn {s : State} {k id status : Nat} {tsq late : Bool} {info : Word} : (finish s k id status tsq late info).lastTxn = s.lastTxn :=
  (congrArg State.lastTxn (finish_core : State.core (finish s k id status tsq late info) = s.core) :)
@[simp] theorem finish_time {s : State} {k id status : Nat} {tsq late : Bool} {info : Word} : (finish s k id status tsq late info).time = s.time :=
  (congrArg State.time (finish_core : State.core (finish s k id status tsq late info) = s.core) :)
@[simp] theorem finish_hlist {s : State} {k id status : Nat} {tsq late : Bool} {info : Word} : (finish s k id status tsq late info).hlist = s.hlist :=
  (congrArg State.hlist (finish_core : State.core (finish s k id status tsq late info) = s.core) :)
@[simp] theorem finish_actions {s : State} {k id status : Nat} {tsq late : Bool} {info : Word} : (finish s k id status tsq late info).actions = s.actions :=
  (congrArg State.actions (finish_core : State.core (finish s k id status tsq late info) = s.core) :)
@[simp] theorem finish_fired {s : State} {k id status : Nat} {tsq late : Bool} {info : Word} : (finish s k id status tsq late info).fired = s.fired :=
  (congrArg State.fired (finish_core : State.core (finish s k id status tsq late info) = s.core) :)
@[simp] theorem finish_tsqs {s : State} {k id status : Nat} {tsq late : Bool} {info : Word} : (finish s k id status tsq late info).tsqs = s.tsqs :=
  (congrArg State.tsqs (finish_core : State.core (finish s k id status tsq late info) = s.core) :)
@[simp] theorem finish_chs {s : State} {k id status : Nat} {tsq late : Bool} {info : Word} : (finish s k id status tsq late info).chs = s.chs :=
  (congrArg State.chs (finish_core : State.core (finish s k id status tsq late info) = s.core) :)
@[simp] theorem finish_nets {s : State} {k id status : Nat} {tsq late : Bool} {info : Word} : (finish s k id status tsq late info).nets = s.nets :=
  (congrArg State.nets (finish_core : State.core (finish s k id status tsq late info) = s.core) :)
@[simp] theorem finish_bkp {s : State} {k id status : Nat} {tsq late : Bool} {info : Word} : (finish s k id status tsq late info).bkp = s.bkp :=
  (congrArg State.bkp (finish_core : State.core (finish s k id status tsq late info) = s.core) :)
@[simp] theorem finish_vlt {s : State} {k id status : Nat} {tsq late : Bool} {info : Word} : (finish s k id status tsq late info).vlt = s.vlt :=
  (congrArg State.vlt (finish_core : State.core (finish s k id status tsq late info) = s.core) :)
@[simp] theorem finish_lc {s : State} {k id status : Nat} {tsq late : Bool} {info : Word} : (finish s k id status tsq late info).lc = s.lc :=
  (congrArg State.lc (finish_core : State.core (finish s k id status tsq late info) = s.core) :)
@[simp] theorem finish_upd {s : State} {k id status : Nat} {tsq late : Bool} {info : Word} : (finish s k id status tsq late info).upd = s.upd :=
  (congrArg State.upd (finish_core : State.core (finish s k id status tsq late info) = s.core) :)
@[simp] theorem finish_frames {s : State} {k id status : Nat} {tsq late : Bool} {info : Word} : (finish s k id status tsq late info).frames = s.frames :=
  (congrArg State.frames (finish_core : State.core (finish s k id status tsq late info) = s.core) :)
@[simp] theorem finish_serial {s : State} {k id status : Nat} {tsq late : Bool} {info : Word} : (finish s k id status tsq late info).serial = s.serial :=
  (congrArg State.serial (finish_core : State.core (finish s k id status tsq late info) = s.core) :)
@[simp] theorem finish_usb {s : State} {k id status : Nat} {tsq late : Bool} {info : Word} : (finish s k id status tsq late info).usb = s.usb :=
  (congrArg State.usb (finish_core : State.core (finish s k id status tsq late info) = s.core) :)
@[simp] theorem finish_vbus {s : State} {k id status : Nat} {tsq late : Bool} {info : Word} : (finish s k id status tsq late info).vbus = s.vbus :=
  (congrArg State.vbus (finish_core : State.core (finish s k id status tsq late info) = s.core) :)
@[simp] theorem finish_ch {s : State} {k id status : Nat} {tsq late : Bool} {info : Word} {chn : Nat} : (finish s k id status tsq late info).ch chn = s.ch chn :=
  (congrArg (fun x => State.ch x chn) (finish_core : State.core (finish s k id status tsq late info) = s.core) :)
@[simp] theorem finish_reg {s : State} {k id status : Nat} {tsq late : Bool} {info : Word} {key : Nat} : (finish s k id status tsq late info).reg key = s.reg key :=
  (congrArg (fun x => State.reg x key) (finish_core : State.core (finish s k id status tsq late info) = s.core) :)

@[simp] theorem acquire_pending {s : State} {h : Nat} {v : Slot} {q : Nat} {stamp : Instant} : (acquire s h v q stamp).pending = s.pending :=
  (congrArg State.pending (acquire_unit : State.unit (acquire s h v q stamp) = s.unit) :)
@[simp] theorem acquire_free {s : State} {h : Nat} {v : Slot} {q : Nat} {stamp : Instant} : (acquire s h v q stamp).free = s.free :=
  (congrArg State.free (acquire_unit : State.unit (acquire s h v q stamp) = s.unit) :)
@[simp] theorem acquire_ticks {s : State} {h : Nat} {v : Slot} {q : Nat} {stamp : Instant} : (acquire s h v q stamp).ticks = s.ticks :=
  (congrArg State.ticks (acquire_unit : State.unit (acquire s h v q stamp) = s.unit) :)
@[simp] theorem acquire_ident {s : State} {h : Nat} {v : Slot} {q : Nat} {stamp : Instant} : (acquire s h v q stamp).ident = s.ident :=
  (congrArg State.ident (acquire_unit : State.unit (acquire s h v q stamp) = s.unit) :)
@[simp] theorem acquire_regs {s : State} {h : Nat} {v : Slot} {q : Nat} {stamp : Instant} : (acquire s h v q stamp).regs = s.regs :=
  (congrArg State.regs (acquire_unit : State.unit (acquire s h v q stamp) = s.unit) :)
@[simp] theorem acquire_low64 {s : State} {h : Nat} {v : Slot} {q : Nat} {stamp : Instant} : (acquire s h v q stamp).low64 = s.low64 :=
  (congrArg State.low64 (acquire_unit : State.unit (acquire s h v q stamp) = s.unit) :)
@[simp] theorem acquire_high64 {s : State} {h : Nat} {v : Slot} {q : Nat} {stamp : Instant} : (acquire s h v q stamp).high64 = s.high64 :=
  (congrArg State.high64 (acquire_unit : State.unit (acquire s h v q stamp) = s.unit) :)
@[simp] theorem acquire_pins {s : State} {h : Nat} {v : Slot} {q : Nat} {stamp : Instant} : (acquire s h v q stamp).pins = s.pins :=
  (congrArg State.pins (acquire_unit : State.unit (acquire s h v q stamp) = s.unit) :)
@[simp] theorem acquire_ws {s : State} {h : Nat} {v : Slot} {q : Nat} {stamp : Instant} : (acquire s h v q stamp).ws = s.ws :=
  (congrArg State.ws (acquire_unit : State.unit (acquire s h v q stamp) = s.unit) :)
@[simp] theorem acquire_txns {s : State} {h : Nat} {v : Slot} {q : Nat} {stamp : Instant} : (acquire s h v q stamp).txns = s.txns :=
  (congrArg State.txns (acquire_unit : State.unit (acquire s h v q stamp) = s.unit) :)
@[simp] theorem acquire_nextTxn {s : State} {h : Nat} {v : Slot} {q : Nat} {stamp : Instant} : (acquire s h v q stamp).nextTxn = s.nextTxn :=
  (congrArg State.nextTxn (acquire_unit : State.unit (acquire s h v q stamp) = s.unit) :)
@[simp] theorem acquire_lastTxn {s : State} {h : Nat} {v : Slot} {q : Nat} {stamp : Instant} : (acquire s h v q stamp).lastTxn = s.lastTxn :=
  (congrArg State.lastTxn (acquire_unit : State.unit (acquire s h v q stamp) = s.unit) :)
@[simp] theorem acquire_time {s : State} {h : Nat} {v : Slot} {q : Nat} {stamp : Instant} : (acquire s h v q stamp).time = s.time :=
  (congrArg State.time (acquire_unit : State.unit (acquire s h v q stamp) = s.unit) :)
@[simp] theorem acquire_actions {s : State} {h : Nat} {v : Slot} {q : Nat} {stamp : Instant} : (acquire s h v q stamp).actions = s.actions :=
  (congrArg State.actions (acquire_unit : State.unit (acquire s h v q stamp) = s.unit) :)
@[simp] theorem acquire_fired {s : State} {h : Nat} {v : Slot} {q : Nat} {stamp : Instant} : (acquire s h v q stamp).fired = s.fired :=
  (congrArg State.fired (acquire_unit : State.unit (acquire s h v q stamp) = s.unit) :)
@[simp] theorem acquire_bkp {s : State} {h : Nat} {v : Slot} {q : Nat} {stamp : Instant} : (acquire s h v q stamp).bkp = s.bkp :=
  (congrArg State.bkp (acquire_unit : State.unit (acquire s h v q stamp) = s.unit) :)
@[simp] theorem acquire_vlt {s : State} {h : Nat} {v : Slot} {q : Nat} {stamp : Instant} : (acquire s h v q stamp).vlt = s.vlt :=
  (congrArg State.vlt (acquire_unit : State.unit (acquire s h v q stamp) = s.unit) :)
@[simp] theorem acquire_lc {s : State} {h : Nat} {v : Slot} {q : Nat} {stamp : Instant} : (acquire s h v q stamp).lc = s.lc :=
  (congrArg State.lc (acquire_unit : State.unit (acquire s h v q stamp) = s.unit) :)
@[simp] theorem acquire_upd {s : State} {h : Nat} {v : Slot} {q : Nat} {stamp : Instant} : (acquire s h v q stamp).upd = s.upd :=
  (congrArg State.upd (acquire_unit : State.unit (acquire s h v q stamp) = s.unit) :)
@[simp] theorem acquire_usb {s : State} {h : Nat} {v : Slot} {q : Nat} {stamp : Instant} : (acquire s h v q stamp).usb = s.usb :=
  (congrArg State.usb (acquire_unit : State.unit (acquire s h v q stamp) = s.unit) :)
@[simp] theorem acquire_vbus {s : State} {h : Nat} {v : Slot} {q : Nat} {stamp : Instant} : (acquire s h v q stamp).vbus = s.vbus :=
  (congrArg State.vbus (acquire_unit : State.unit (acquire s h v q stamp) = s.unit) :)
@[simp] theorem acquire_reg {s : State} {h : Nat} {v : Slot} {q : Nat} {stamp : Instant} {key : Nat} : (acquire s h v q stamp).reg key = s.reg key :=
  (congrArg (fun x => State.reg x key) (acquire_unit : State.unit (acquire s h v q stamp) = s.unit) :)

@[simp] theorem deliver_pending {s : State} {h : Nat} {m : Mirror} {repeated : Bool} : (deliver s h m repeated).pending = s.pending :=
  (congrArg State.pending (deliver_unit : State.unit (deliver s h m repeated) = s.unit) :)
@[simp] theorem deliver_free {s : State} {h : Nat} {m : Mirror} {repeated : Bool} : (deliver s h m repeated).free = s.free :=
  (congrArg State.free (deliver_unit : State.unit (deliver s h m repeated) = s.unit) :)
@[simp] theorem deliver_ticks {s : State} {h : Nat} {m : Mirror} {repeated : Bool} : (deliver s h m repeated).ticks = s.ticks :=
  (congrArg State.ticks (deliver_unit : State.unit (deliver s h m repeated) = s.unit) :)
@[simp] theorem deliver_ident {s : State} {h : Nat} {m : Mirror} {repeated : Bool} : (deliver s h m repeated).ident = s.ident :=
  (congrArg State.ident (deliver_unit : State.unit (deliver s h m repeated) = s.unit) :)
@[simp] theorem deliver_regs {s : State} {h : Nat} {m : Mirror} {repeated : Bool} : (deliver s h m repeated).regs = s.regs :=
  (congrArg State.regs (deliver_unit : State.unit (deliver s h m repeated) = s.unit) :)
@[simp] theorem deliver_low64 {s : State} {h : Nat} {m : Mirror} {repeated : Bool} : (deliver s h m repeated).low64 = s.low64 :=
  (congrArg State.low64 (deliver_unit : State.unit (deliver s h m repeated) = s.unit) :)
@[simp] theorem deliver_high64 {s : State} {h : Nat} {m : Mirror} {repeated : Bool} : (deliver s h m repeated).high64 = s.high64 :=
  (congrArg State.high64 (deliver_unit : State.unit (deliver s h m repeated) = s.unit) :)
@[simp] theorem deliver_pins {s : State} {h : Nat} {m : Mirror} {repeated : Bool} : (deliver s h m repeated).pins = s.pins :=
  (congrArg State.pins (deliver_unit : State.unit (deliver s h m repeated) = s.unit) :)
@[simp] theorem deliver_ws {s : State} {h : Nat} {m : Mirror} {repeated : Bool} : (deliver s h m repeated).ws = s.ws :=
  (congrArg State.ws (deliver_unit : State.unit (deliver s h m repeated) = s.unit) :)
@[simp] theorem deliver_txns {s : State} {h : Nat} {m : Mirror} {repeated : Bool} : (deliver s h m repeated).txns = s.txns :=
  (congrArg State.txns (deliver_unit : State.unit (deliver s h m repeated) = s.unit) :)
@[simp] theorem deliver_nextTxn {s : State} {h : Nat} {m : Mirror} {repeated : Bool} : (deliver s h m repeated).nextTxn = s.nextTxn :=
  (congrArg State.nextTxn (deliver_unit : State.unit (deliver s h m repeated) = s.unit) :)
@[simp] theorem deliver_lastTxn {s : State} {h : Nat} {m : Mirror} {repeated : Bool} : (deliver s h m repeated).lastTxn = s.lastTxn :=
  (congrArg State.lastTxn (deliver_unit : State.unit (deliver s h m repeated) = s.unit) :)
@[simp] theorem deliver_time {s : State} {h : Nat} {m : Mirror} {repeated : Bool} : (deliver s h m repeated).time = s.time :=
  (congrArg State.time (deliver_unit : State.unit (deliver s h m repeated) = s.unit) :)
@[simp] theorem deliver_actions {s : State} {h : Nat} {m : Mirror} {repeated : Bool} : (deliver s h m repeated).actions = s.actions :=
  (congrArg State.actions (deliver_unit : State.unit (deliver s h m repeated) = s.unit) :)
@[simp] theorem deliver_fired {s : State} {h : Nat} {m : Mirror} {repeated : Bool} : (deliver s h m repeated).fired = s.fired :=
  (congrArg State.fired (deliver_unit : State.unit (deliver s h m repeated) = s.unit) :)
@[simp] theorem deliver_bkp {s : State} {h : Nat} {m : Mirror} {repeated : Bool} : (deliver s h m repeated).bkp = s.bkp :=
  (congrArg State.bkp (deliver_unit : State.unit (deliver s h m repeated) = s.unit) :)
@[simp] theorem deliver_vlt {s : State} {h : Nat} {m : Mirror} {repeated : Bool} : (deliver s h m repeated).vlt = s.vlt :=
  (congrArg State.vlt (deliver_unit : State.unit (deliver s h m repeated) = s.unit) :)
@[simp] theorem deliver_lc {s : State} {h : Nat} {m : Mirror} {repeated : Bool} : (deliver s h m repeated).lc = s.lc :=
  (congrArg State.lc (deliver_unit : State.unit (deliver s h m repeated) = s.unit) :)
@[simp] theorem deliver_upd {s : State} {h : Nat} {m : Mirror} {repeated : Bool} : (deliver s h m repeated).upd = s.upd :=
  (congrArg State.upd (deliver_unit : State.unit (deliver s h m repeated) = s.unit) :)
@[simp] theorem deliver_usb {s : State} {h : Nat} {m : Mirror} {repeated : Bool} : (deliver s h m repeated).usb = s.usb :=
  (congrArg State.usb (deliver_unit : State.unit (deliver s h m repeated) = s.unit) :)
@[simp] theorem deliver_vbus {s : State} {h : Nat} {m : Mirror} {repeated : Bool} : (deliver s h m repeated).vbus = s.vbus :=
  (congrArg State.vbus (deliver_unit : State.unit (deliver s h m repeated) = s.unit) :)
@[simp] theorem deliver_reg {s : State} {h : Nat} {m : Mirror} {repeated : Bool} {key : Nat} : (deliver s h m repeated).reg key = s.reg key :=
  (congrArg (fun x => State.reg x key) (deliver_unit : State.unit (deliver s h m repeated) = s.unit) :)

@[simp] theorem mirrorWrite_pending {s : State} {h : Nat} {m : Mirror} : (mirrorWrite s h m).pending = s.pending :=
  (congrArg State.pending (mirrorWrite_unit : State.unit (mirrorWrite s h m) = s.unit) :)
@[simp] theorem mirrorWrite_free {s : State} {h : Nat} {m : Mirror} : (mirrorWrite s h m).free = s.free :=
  (congrArg State.free (mirrorWrite_unit : State.unit (mirrorWrite s h m) = s.unit) :)
@[simp] theorem mirrorWrite_ticks {s : State} {h : Nat} {m : Mirror} : (mirrorWrite s h m).ticks = s.ticks :=
  (congrArg State.ticks (mirrorWrite_unit : State.unit (mirrorWrite s h m) = s.unit) :)
@[simp] theorem mirrorWrite_ident {s : State} {h : Nat} {m : Mirror} : (mirrorWrite s h m).ident = s.ident :=
  (congrArg State.ident (mirrorWrite_unit : State.unit (mirrorWrite s h m) = s.unit) :)
@[simp] theorem mirrorWrite_regs {s : State} {h : Nat} {m : Mirror} : (mirrorWrite s h m).regs = s.regs :=
  (congrArg State.regs (mirrorWrite_unit : State.unit (mirrorWrite s h m) = s.unit) :)
@[simp] theorem mirrorWrite_low64 {s : State} {h : Nat} {m : Mirror} : (mirrorWrite s h m).low64 = s.low64 :=
  (congrArg State.low64 (mirrorWrite_unit : State.unit (mirrorWrite s h m) = s.unit) :)
@[simp] theorem mirrorWrite_high64 {s : State} {h : Nat} {m : Mirror} : (mirrorWrite s h m).high64 = s.high64 :=
  (congrArg State.high64 (mirrorWrite_unit : State.unit (mirrorWrite s h m) = s.unit) :)
@[simp] theorem mirrorWrite_pins {s : State} {h : Nat} {m : Mirror} : (mirrorWrite s h m).pins = s.pins :=
  (congrArg State.pins (mirrorWrite_unit : State.unit (mirrorWrite s h m) = s.unit) :)
@[simp] theorem mirrorWrite_ws {s : State} {h : Nat} {m : Mirror} : (mirrorWrite s h m).ws = s.ws :=
  (congrArg State.ws (mirrorWrite_unit : State.unit (mirrorWrite s h m) = s.unit) :)
@[simp] theorem mirrorWrite_txns {s : State} {h : Nat} {m : Mirror} : (mirrorWrite s h m).txns = s.txns :=
  (congrArg State.txns (mirrorWrite_unit : State.unit (mirrorWrite s h m) = s.unit) :)
@[simp] theorem mirrorWrite_nextTxn {s : State} {h : Nat} {m : Mirror} : (mirrorWrite s h m).nextTxn = s.nextTxn :=
  (congrArg State.nextTxn (mirrorWrite_unit : State.unit (mirrorWrite s h m) = s.unit) :)
@[simp] theorem mirrorWrite_lastTxn {s : State} {h : Nat} {m : Mirror} : (mirrorWrite s h m).lastTxn = s.lastTxn :=
  (congrArg State.lastTxn (mirrorWrite_unit : State.unit (mirrorWrite s h m) = s.unit) :)
@[simp] theorem mirrorWrite_time {s : State} {h : Nat} {m : Mirror} : (mirrorWrite s h m).time = s.time :=
  (congrArg State.time (mirrorWrite_unit : State.unit (mirrorWrite s h m) = s.unit) :)
@[simp] theorem mirrorWrite_actions {s : State} {h : Nat} {m : Mirror} : (mirrorWrite s h m).actions = s.actions :=
  (congrArg State.actions (mirrorWrite_unit : State.unit (mirrorWrite s h m) = s.unit) :)
@[simp] theorem mirrorWrite_fired {s : State} {h : Nat} {m : Mirror} : (mirrorWrite s h m).fired = s.fired :=
  (congrArg State.fired (mirrorWrite_unit : State.unit (mirrorWrite s h m) = s.unit) :)
@[simp] theorem mirrorWrite_bkp {s : State} {h : Nat} {m : Mirror} : (mirrorWrite s h m).bkp = s.bkp :=
  (congrArg State.bkp (mirrorWrite_unit : State.unit (mirrorWrite s h m) = s.unit) :)
@[simp] theorem mirrorWrite_vlt {s : State} {h : Nat} {m : Mirror} : (mirrorWrite s h m).vlt = s.vlt :=
  (congrArg State.vlt (mirrorWrite_unit : State.unit (mirrorWrite s h m) = s.unit) :)
@[simp] theorem mirrorWrite_lc {s : State} {h : Nat} {m : Mirror} : (mirrorWrite s h m).lc = s.lc :=
  (congrArg State.lc (mirrorWrite_unit : State.unit (mirrorWrite s h m) = s.unit) :)
@[simp] theorem mirrorWrite_upd {s : State} {h : Nat} {m : Mirror} : (mirrorWrite s h m).upd = s.upd :=
  (congrArg State.upd (mirrorWrite_unit : State.unit (mirrorWrite s h m) = s.unit) :)
@[simp] theorem mirrorWrite_usb {s : State} {h : Nat} {m : Mirror} : (mirrorWrite s h m).usb = s.usb :=
  (congrArg State.usb (mirrorWrite_unit : State.unit (mirrorWrite s h m) = s.unit) :)
@[simp] theorem mirrorWrite_vbus {s : State} {h : Nat} {m : Mirror} : (mirrorWrite s h m).vbus = s.vbus :=
  (congrArg State.vbus (mirrorWrite_unit : State.unit (mirrorWrite s h m) = s.unit) :)
@[simp] theorem mirrorWrite_reg {s : State} {h : Nat} {m : Mirror} {key : Nat} : (mirrorWrite s h m).reg key = s.reg key :=
  (congrArg (fun x => State.reg x key) (mirrorWrite_unit : State.unit (mirrorWrite s h m) = s.unit) :)

@[simp] theorem covUnit_pending {s : State} {h : Nat} {p : Point} {m : Mirror} {newSeq : Bool} : (covUnit s h p m newSeq).pending = s.pending :=
  (congrArg State.pending (covUnit_unit : State.unit (covUnit s h p m newSeq) = s.unit) :)
@[simp] theorem covUnit_free {s : State} {h : Nat} {p : Point} {m : Mirror} {newSeq : Bool} : (covUnit s h p m newSeq).free = s.free :=
  (congrArg State.free (covUnit_unit : State.unit (covUnit s h p m newSeq) = s.unit) :)
@[simp] theorem covUnit_ticks {s : State} {h : Nat} {p : Point} {m : Mirror} {newSeq : Bool} : (covUnit s h p m newSeq).ticks = s.ticks :=
  (congrArg State.ticks (covUnit_unit : State.unit (covUnit s h p m newSeq) = s.unit) :)
@[simp] theorem covUnit_ident {s : State} {h : Nat} {p : Point} {m : Mirror} {newSeq : Bool} : (covUnit s h p m newSeq).ident = s.ident :=
  (congrArg State.ident (covUnit_unit : State.unit (covUnit s h p m newSeq) = s.unit) :)
@[simp] theorem covUnit_regs {s : State} {h : Nat} {p : Point} {m : Mirror} {newSeq : Bool} : (covUnit s h p m newSeq).regs = s.regs :=
  (congrArg State.regs (covUnit_unit : State.unit (covUnit s h p m newSeq) = s.unit) :)
@[simp] theorem covUnit_low64 {s : State} {h : Nat} {p : Point} {m : Mirror} {newSeq : Bool} : (covUnit s h p m newSeq).low64 = s.low64 :=
  (congrArg State.low64 (covUnit_unit : State.unit (covUnit s h p m newSeq) = s.unit) :)
@[simp] theorem covUnit_high64 {s : State} {h : Nat} {p : Point} {m : Mirror} {newSeq : Bool} : (covUnit s h p m newSeq).high64 = s.high64 :=
  (congrArg State.high64 (covUnit_unit : State.unit (covUnit s h p m newSeq) = s.unit) :)
@[simp] theorem covUnit_pins {s : State} {h : Nat} {p : Point} {m : Mirror} {newSeq : Bool} : (covUnit s h p m newSeq).pins = s.pins :=
  (congrArg State.pins (covUnit_unit : State.unit (covUnit s h p m newSeq) = s.unit) :)
@[simp] theorem covUnit_ws {s : State} {h : Nat} {p : Point} {m : Mirror} {newSeq : Bool} : (covUnit s h p m newSeq).ws = s.ws :=
  (congrArg State.ws (covUnit_unit : State.unit (covUnit s h p m newSeq) = s.unit) :)
@[simp] theorem covUnit_txns {s : State} {h : Nat} {p : Point} {m : Mirror} {newSeq : Bool} : (covUnit s h p m newSeq).txns = s.txns :=
  (congrArg State.txns (covUnit_unit : State.unit (covUnit s h p m newSeq) = s.unit) :)
@[simp] theorem covUnit_nextTxn {s : State} {h : Nat} {p : Point} {m : Mirror} {newSeq : Bool} : (covUnit s h p m newSeq).nextTxn = s.nextTxn :=
  (congrArg State.nextTxn (covUnit_unit : State.unit (covUnit s h p m newSeq) = s.unit) :)
@[simp] theorem covUnit_lastTxn {s : State} {h : Nat} {p : Point} {m : Mirror} {newSeq : Bool} : (covUnit s h p m newSeq).lastTxn = s.lastTxn :=
  (congrArg State.lastTxn (covUnit_unit : State.unit (covUnit s h p m newSeq) = s.unit) :)
@[simp] theorem covUnit_time {s : State} {h : Nat} {p : Point} {m : Mirror} {newSeq : Bool} : (covUnit s h p m newSeq).time = s.time :=
  (congrArg State.time (covUnit_unit : State.unit (covUnit s h p m newSeq) = s.unit) :)
@[simp] theorem covUnit_actions {s : State} {h : Nat} {p : Point} {m : Mirror} {newSeq : Bool} : (covUnit s h p m newSeq).actions = s.actions :=
  (congrArg State.actions (covUnit_unit : State.unit (covUnit s h p m newSeq) = s.unit) :)
@[simp] theorem covUnit_fired {s : State} {h : Nat} {p : Point} {m : Mirror} {newSeq : Bool} : (covUnit s h p m newSeq).fired = s.fired :=
  (congrArg State.fired (covUnit_unit : State.unit (covUnit s h p m newSeq) = s.unit) :)
@[simp] theorem covUnit_bkp {s : State} {h : Nat} {p : Point} {m : Mirror} {newSeq : Bool} : (covUnit s h p m newSeq).bkp = s.bkp :=
  (congrArg State.bkp (covUnit_unit : State.unit (covUnit s h p m newSeq) = s.unit) :)
@[simp] theorem covUnit_vlt {s : State} {h : Nat} {p : Point} {m : Mirror} {newSeq : Bool} : (covUnit s h p m newSeq).vlt = s.vlt :=
  (congrArg State.vlt (covUnit_unit : State.unit (covUnit s h p m newSeq) = s.unit) :)
@[simp] theorem covUnit_lc {s : State} {h : Nat} {p : Point} {m : Mirror} {newSeq : Bool} : (covUnit s h p m newSeq).lc = s.lc :=
  (congrArg State.lc (covUnit_unit : State.unit (covUnit s h p m newSeq) = s.unit) :)
@[simp] theorem covUnit_upd {s : State} {h : Nat} {p : Point} {m : Mirror} {newSeq : Bool} : (covUnit s h p m newSeq).upd = s.upd :=
  (congrArg State.upd (covUnit_unit : State.unit (covUnit s h p m newSeq) = s.unit) :)
@[simp] theorem covUnit_usb {s : State} {h : Nat} {p : Point} {m : Mirror} {newSeq : Bool} : (covUnit s h p m newSeq).usb = s.usb :=
  (congrArg State.usb (covUnit_unit : State.unit (covUnit s h p m newSeq) = s.unit) :)
@[simp] theorem covUnit_vbus {s : State} {h : Nat} {p : Point} {m : Mirror} {newSeq : Bool} : (covUnit s h p m newSeq).vbus = s.vbus :=
  (congrArg State.vbus (covUnit_unit : State.unit (covUnit s h p m newSeq) = s.unit) :)
@[simp] theorem covUnit_reg {s : State} {h : Nat} {p : Point} {m : Mirror} {newSeq : Bool} {key : Nat} : (covUnit s h p m newSeq).reg key = s.reg key :=
  (congrArg (fun x => State.reg x key) (covUnit_unit : State.unit (covUnit s h p m newSeq) = s.unit) :)

@[simp] theorem hubUpdate_pending {s : State} {n : Nat} {u : Update} : (hubUpdate s n u).pending = s.pending :=
  (congrArg State.pending (hubUpdate_unit : State.unit (hubUpdate s n u) = s.unit) :)
@[simp] theorem hubUpdate_free {s : State} {n : Nat} {u : Update} : (hubUpdate s n u).free = s.free :=
  (congrArg State.free (hubUpdate_unit : State.unit (hubUpdate s n u) = s.unit) :)
@[simp] theorem hubUpdate_ticks {s : State} {n : Nat} {u : Update} : (hubUpdate s n u).ticks = s.ticks :=
  (congrArg State.ticks (hubUpdate_unit : State.unit (hubUpdate s n u) = s.unit) :)
@[simp] theorem hubUpdate_ident {s : State} {n : Nat} {u : Update} : (hubUpdate s n u).ident = s.ident :=
  (congrArg State.ident (hubUpdate_unit : State.unit (hubUpdate s n u) = s.unit) :)
@[simp] theorem hubUpdate_regs {s : State} {n : Nat} {u : Update} : (hubUpdate s n u).regs = s.regs :=
  (congrArg State.regs (hubUpdate_unit : State.unit (hubUpdate s n u) = s.unit) :)
@[simp] theorem hubUpdate_low64 {s : State} {n : Nat} {u : Update} : (hubUpdate s n u).low64 = s.low64 :=
  (congrArg State.low64 (hubUpdate_unit : State.unit (hubUpdate s n u) = s.unit) :)
@[simp] theorem hubUpdate_high64 {s : State} {n : Nat} {u : Update} : (hubUpdate s n u).high64 = s.high64 :=
  (congrArg State.high64 (hubUpdate_unit : State.unit (hubUpdate s n u) = s.unit) :)
@[simp] theorem hubUpdate_pins {s : State} {n : Nat} {u : Update} : (hubUpdate s n u).pins = s.pins :=
  (congrArg State.pins (hubUpdate_unit : State.unit (hubUpdate s n u) = s.unit) :)
@[simp] theorem hubUpdate_ws {s : State} {n : Nat} {u : Update} : (hubUpdate s n u).ws = s.ws :=
  (congrArg State.ws (hubUpdate_unit : State.unit (hubUpdate s n u) = s.unit) :)
@[simp] theorem hubUpdate_txns {s : State} {n : Nat} {u : Update} : (hubUpdate s n u).txns = s.txns :=
  (congrArg State.txns (hubUpdate_unit : State.unit (hubUpdate s n u) = s.unit) :)
@[simp] theorem hubUpdate_nextTxn {s : State} {n : Nat} {u : Update} : (hubUpdate s n u).nextTxn = s.nextTxn :=
  (congrArg State.nextTxn (hubUpdate_unit : State.unit (hubUpdate s n u) = s.unit) :)
@[simp] theorem hubUpdate_lastTxn {s : State} {n : Nat} {u : Update} : (hubUpdate s n u).lastTxn = s.lastTxn :=
  (congrArg State.lastTxn (hubUpdate_unit : State.unit (hubUpdate s n u) = s.unit) :)
@[simp] theorem hubUpdate_time {s : State} {n : Nat} {u : Update} : (hubUpdate s n u).time = s.time :=
  (congrArg State.time (hubUpdate_unit : State.unit (hubUpdate s n u) = s.unit) :)
@[simp] theorem hubUpdate_actions {s : State} {n : Nat} {u : Update} : (hubUpdate s n u).actions = s.actions :=
  (congrArg State.actions (hubUpdate_unit : State.unit (hubUpdate s n u) = s.unit) :)
@[simp] theorem hubUpdate_fired {s : State} {n : Nat} {u : Update} : (hubUpdate s n u).fired = s.fired :=
  (congrArg State.fired (hubUpdate_unit : State.unit (hubUpdate s n u) = s.unit) :)
@[simp] theorem hubUpdate_bkp {s : State} {n : Nat} {u : Update} : (hubUpdate s n u).bkp = s.bkp :=
  (congrArg State.bkp (hubUpdate_unit : State.unit (hubUpdate s n u) = s.unit) :)
@[simp] theorem hubUpdate_vlt {s : State} {n : Nat} {u : Update} : (hubUpdate s n u).vlt = s.vlt :=
  (congrArg State.vlt (hubUpdate_unit : State.unit (hubUpdate s n u) = s.unit) :)
@[simp] theorem hubUpdate_lc {s : State} {n : Nat} {u : Update} : (hubUpdate s n u).lc = s.lc :=
  (congrArg State.lc (hubUpdate_unit : State.unit (hubUpdate s n u) = s.unit) :)
@[simp] theorem hubUpdate_upd {s : State} {n : Nat} {u : Update} : (hubUpdate s n u).upd = s.upd :=
  (congrArg State.upd (hubUpdate_unit : State.unit (hubUpdate s n u) = s.unit) :)
@[simp] theorem hubUpdate_usb {s : State} {n : Nat} {u : Update} : (hubUpdate s n u).usb = s.usb :=
  (congrArg State.usb (hubUpdate_unit : State.unit (hubUpdate s n u) = s.unit) :)
@[simp] theorem hubUpdate_vbus {s : State} {n : Nat} {u : Update} : (hubUpdate s n u).vbus = s.vbus :=
  (congrArg State.vbus (hubUpdate_unit : State.unit (hubUpdate s n u) = s.unit) :)
@[simp] theorem hubUpdate_reg {s : State} {n : Nat} {u : Update} {key : Nat} : (hubUpdate s n u).reg key = s.reg key :=
  (congrArg (fun x => State.reg x key) (hubUpdate_unit : State.unit (hubUpdate s n u) = s.unit) :)

@[simp] theorem acquireTerm_pending {s : State} {n term : Nat} {v : Slot} {q : Nat} {stamp : Instant} : (acquireTerm s n term v q stamp).pending = s.pending :=
  (congrArg State.pending (acquireTerm_unit : State.unit (acquireTerm s n term v q stamp) = s.unit) :)
@[simp] theorem acquireTerm_free {s : State} {n term : Nat} {v : Slot} {q : Nat} {stamp : Instant} : (acquireTerm s n term v q stamp).free = s.free :=
  (congrArg State.free (acquireTerm_unit : State.unit (acquireTerm s n term v q stamp) = s.unit) :)
@[simp] theorem acquireTerm_ticks {s : State} {n term : Nat} {v : Slot} {q : Nat} {stamp : Instant} : (acquireTerm s n term v q stamp).ticks = s.ticks :=
  (congrArg State.ticks (acquireTerm_unit : State.unit (acquireTerm s n term v q stamp) = s.unit) :)
@[simp] theorem acquireTerm_ident {s : State} {n term : Nat} {v : Slot} {q : Nat} {stamp : Instant} : (acquireTerm s n term v q stamp).ident = s.ident :=
  (congrArg State.ident (acquireTerm_unit : State.unit (acquireTerm s n term v q stamp) = s.unit) :)
@[simp] theorem acquireTerm_regs {s : State} {n term : Nat} {v : Slot} {q : Nat} {stamp : Instant} : (acquireTerm s n term v q stamp).regs = s.regs :=
  (congrArg State.regs (acquireTerm_unit : State.unit (acquireTerm s n term v q stamp) = s.unit) :)
@[simp] theorem acquireTerm_low64 {s : State} {n term : Nat} {v : Slot} {q : Nat} {stamp : Instant} : (acquireTerm s n term v q stamp).low64 = s.low64 :=
  (congrArg State.low64 (acquireTerm_unit : State.unit (acquireTerm s n term v q stamp) = s.unit) :)
@[simp] theorem acquireTerm_high64 {s : State} {n term : Nat} {v : Slot} {q : Nat} {stamp : Instant} : (acquireTerm s n term v q stamp).high64 = s.high64 :=
  (congrArg State.high64 (acquireTerm_unit : State.unit (acquireTerm s n term v q stamp) = s.unit) :)
@[simp] theorem acquireTerm_pins {s : State} {n term : Nat} {v : Slot} {q : Nat} {stamp : Instant} : (acquireTerm s n term v q stamp).pins = s.pins :=
  (congrArg State.pins (acquireTerm_unit : State.unit (acquireTerm s n term v q stamp) = s.unit) :)
@[simp] theorem acquireTerm_ws {s : State} {n term : Nat} {v : Slot} {q : Nat} {stamp : Instant} : (acquireTerm s n term v q stamp).ws = s.ws :=
  (congrArg State.ws (acquireTerm_unit : State.unit (acquireTerm s n term v q stamp) = s.unit) :)
@[simp] theorem acquireTerm_txns {s : State} {n term : Nat} {v : Slot} {q : Nat} {stamp : Instant} : (acquireTerm s n term v q stamp).txns = s.txns :=
  (congrArg State.txns (acquireTerm_unit : State.unit (acquireTerm s n term v q stamp) = s.unit) :)
@[simp] theorem acquireTerm_nextTxn {s : State} {n term : Nat} {v : Slot} {q : Nat} {stamp : Instant} : (acquireTerm s n term v q stamp).nextTxn = s.nextTxn :=
  (congrArg State.nextTxn (acquireTerm_unit : State.unit (acquireTerm s n term v q stamp) = s.unit) :)
@[simp] theorem acquireTerm_lastTxn {s : State} {n term : Nat} {v : Slot} {q : Nat} {stamp : Instant} : (acquireTerm s n term v q stamp).lastTxn = s.lastTxn :=
  (congrArg State.lastTxn (acquireTerm_unit : State.unit (acquireTerm s n term v q stamp) = s.unit) :)
@[simp] theorem acquireTerm_time {s : State} {n term : Nat} {v : Slot} {q : Nat} {stamp : Instant} : (acquireTerm s n term v q stamp).time = s.time :=
  (congrArg State.time (acquireTerm_unit : State.unit (acquireTerm s n term v q stamp) = s.unit) :)
@[simp] theorem acquireTerm_actions {s : State} {n term : Nat} {v : Slot} {q : Nat} {stamp : Instant} : (acquireTerm s n term v q stamp).actions = s.actions :=
  (congrArg State.actions (acquireTerm_unit : State.unit (acquireTerm s n term v q stamp) = s.unit) :)
@[simp] theorem acquireTerm_fired {s : State} {n term : Nat} {v : Slot} {q : Nat} {stamp : Instant} : (acquireTerm s n term v q stamp).fired = s.fired :=
  (congrArg State.fired (acquireTerm_unit : State.unit (acquireTerm s n term v q stamp) = s.unit) :)
@[simp] theorem acquireTerm_bkp {s : State} {n term : Nat} {v : Slot} {q : Nat} {stamp : Instant} : (acquireTerm s n term v q stamp).bkp = s.bkp :=
  (congrArg State.bkp (acquireTerm_unit : State.unit (acquireTerm s n term v q stamp) = s.unit) :)
@[simp] theorem acquireTerm_vlt {s : State} {n term : Nat} {v : Slot} {q : Nat} {stamp : Instant} : (acquireTerm s n term v q stamp).vlt = s.vlt :=
  (congrArg State.vlt (acquireTerm_unit : State.unit (acquireTerm s n term v q stamp) = s.unit) :)
@[simp] theorem acquireTerm_lc {s : State} {n term : Nat} {v : Slot} {q : Nat} {stamp : Instant} : (acquireTerm s n term v q stamp).lc = s.lc :=
  (congrArg State.lc (acquireTerm_unit : State.unit (acquireTerm s n term v q stamp) = s.unit) :)
@[simp] theorem acquireTerm_upd {s : State} {n term : Nat} {v : Slot} {q : Nat} {stamp : Instant} : (acquireTerm s n term v q stamp).upd = s.upd :=
  (congrArg State.upd (acquireTerm_unit : State.unit (acquireTerm s n term v q stamp) = s.unit) :)
@[simp] theorem acquireTerm_usb {s : State} {n term : Nat} {v : Slot} {q : Nat} {stamp : Instant} : (acquireTerm s n term v q stamp).usb = s.usb :=
  (congrArg State.usb (acquireTerm_unit : State.unit (acquireTerm s n term v q stamp) = s.unit) :)
@[simp] theorem acquireTerm_vbus {s : State} {n term : Nat} {v : Slot} {q : Nat} {stamp : Instant} : (acquireTerm s n term v q stamp).vbus = s.vbus :=
  (congrArg State.vbus (acquireTerm_unit : State.unit (acquireTerm s n term v q stamp) = s.unit) :)
@[simp] theorem acquireTerm_reg {s : State} {n term : Nat} {v : Slot} {q : Nat} {stamp : Instant} {key : Nat} : (acquireTerm s n term v q stamp).reg key = s.reg key :=
  (congrArg (fun x => State.reg x key) (acquireTerm_unit : State.unit (acquireTerm s n term v q stamp) = s.unit) :)

@[simp] theorem doutAcquire_pending {s : State} {n d : Nat} {stamp : Instant} : (doutAcquire s n d stamp).pending = s.pending :=
  (congrArg State.pending (doutAcquire_unit : State.unit (doutAcquire s n d stamp) = s.unit) :)
@[simp] theorem doutAcquire_free {s : State} {n d : Nat} {stamp : Instant} : (doutAcquire s n d stamp).free = s.free :=
  (congrArg State.free (doutAcquire_unit : State.unit (doutAcquire s n d stamp) = s.unit) :)
@[simp] theorem doutAcquire_ticks {s : State} {n d : Nat} {stamp : Instant} : (doutAcquire s n d stamp).ticks = s.ticks :=
  (congrArg State.ticks (doutAcquire_unit : State.unit (doutAcquire s n d stamp) = s.unit) :)
@[simp] theorem doutAcquire_ident {s : State} {n d : Nat} {stamp : Instant} : (doutAcquire s n d stamp).ident = s.ident :=
  (congrArg State.ident (doutAcquire_unit : State.unit (doutAcquire s n d stamp) = s.unit) :)
@[simp] theorem doutAcquire_regs {s : State} {n d : Nat} {stamp : Instant} : (doutAcquire s n d stamp).regs = s.regs :=
  (congrArg State.regs (doutAcquire_unit : State.unit (doutAcquire s n d stamp) = s.unit) :)
@[simp] theorem doutAcquire_low64 {s : State} {n d : Nat} {stamp : Instant} : (doutAcquire s n d stamp).low64 = s.low64 :=
  (congrArg State.low64 (doutAcquire_unit : State.unit (doutAcquire s n d stamp) = s.unit) :)
@[simp] theorem doutAcquire_high64 {s : State} {n d : Nat} {stamp : Instant} : (doutAcquire s n d stamp).high64 = s.high64 :=
  (congrArg State.high64 (doutAcquire_unit : State.unit (doutAcquire s n d stamp) = s.unit) :)
@[simp] theorem doutAcquire_pins {s : State} {n d : Nat} {stamp : Instant} : (doutAcquire s n d stamp).pins = s.pins :=
  (congrArg State.pins (doutAcquire_unit : State.unit (doutAcquire s n d stamp) = s.unit) :)
@[simp] theorem doutAcquire_ws {s : State} {n d : Nat} {stamp : Instant} : (doutAcquire s n d stamp).ws = s.ws :=
  (congrArg State.ws (doutAcquire_unit : State.unit (doutAcquire s n d stamp) = s.unit) :)
@[simp] theorem doutAcquire_txns {s : State} {n d : Nat} {stamp : Instant} : (doutAcquire s n d stamp).txns = s.txns :=
  (congrArg State.txns (doutAcquire_unit : State.unit (doutAcquire s n d stamp) = s.unit) :)
@[simp] theorem doutAcquire_nextTxn {s : State} {n d : Nat} {stamp : Instant} : (doutAcquire s n d stamp).nextTxn = s.nextTxn :=
  (congrArg State.nextTxn (doutAcquire_unit : State.unit (doutAcquire s n d stamp) = s.unit) :)
@[simp] theorem doutAcquire_lastTxn {s : State} {n d : Nat} {stamp : Instant} : (doutAcquire s n d stamp).lastTxn = s.lastTxn :=
  (congrArg State.lastTxn (doutAcquire_unit : State.unit (doutAcquire s n d stamp) = s.unit) :)
@[simp] theorem doutAcquire_time {s : State} {n d : Nat} {stamp : Instant} : (doutAcquire s n d stamp).time = s.time :=
  (congrArg State.time (doutAcquire_unit : State.unit (doutAcquire s n d stamp) = s.unit) :)
@[simp] theorem doutAcquire_actions {s : State} {n d : Nat} {stamp : Instant} : (doutAcquire s n d stamp).actions = s.actions :=
  (congrArg State.actions (doutAcquire_unit : State.unit (doutAcquire s n d stamp) = s.unit) :)
@[simp] theorem doutAcquire_fired {s : State} {n d : Nat} {stamp : Instant} : (doutAcquire s n d stamp).fired = s.fired :=
  (congrArg State.fired (doutAcquire_unit : State.unit (doutAcquire s n d stamp) = s.unit) :)
@[simp] theorem doutAcquire_bkp {s : State} {n d : Nat} {stamp : Instant} : (doutAcquire s n d stamp).bkp = s.bkp :=
  (congrArg State.bkp (doutAcquire_unit : State.unit (doutAcquire s n d stamp) = s.unit) :)
@[simp] theorem doutAcquire_vlt {s : State} {n d : Nat} {stamp : Instant} : (doutAcquire s n d stamp).vlt = s.vlt :=
  (congrArg State.vlt (doutAcquire_unit : State.unit (doutAcquire s n d stamp) = s.unit) :)
@[simp] theorem doutAcquire_lc {s : State} {n d : Nat} {stamp : Instant} : (doutAcquire s n d stamp).lc = s.lc :=
  (congrArg State.lc (doutAcquire_unit : State.unit (doutAcquire s n d stamp) = s.unit) :)
@[simp] theorem doutAcquire_upd {s : State} {n d : Nat} {stamp : Instant} : (doutAcquire s n d stamp).upd = s.upd :=
  (congrArg State.upd (doutAcquire_unit : State.unit (doutAcquire s n d stamp) = s.unit) :)
@[simp] theorem doutAcquire_usb {s : State} {n d : Nat} {stamp : Instant} : (doutAcquire s n d stamp).usb = s.usb :=
  (congrArg State.usb (doutAcquire_unit : State.unit (doutAcquire s n d stamp) = s.unit) :)
@[simp] theorem doutAcquire_vbus {s : State} {n d : Nat} {stamp : Instant} : (doutAcquire s n d stamp).vbus = s.vbus :=
  (congrArg State.vbus (doutAcquire_unit : State.unit (doutAcquire s n d stamp) = s.unit) :)
@[simp] theorem doutAcquire_reg {s : State} {n d : Nat} {stamp : Instant} {key : Nat} : (doutAcquire s n d stamp).reg key = s.reg key :=
  (congrArg (fun x => State.reg x key) (doutAcquire_unit : State.unit (doutAcquire s n d stamp) = s.unit) :)

@[simp] theorem doutRequal_pending {s : State} {n d : Nat} : (doutRequal s n d).pending = s.pending :=
  (congrArg State.pending (doutRequal_unit : State.unit (doutRequal s n d) = s.unit) :)
@[simp] theorem doutRequal_free {s : State} {n d : Nat} : (doutRequal s n d).free = s.free :=
  (congrArg State.free (doutRequal_unit : State.unit (doutRequal s n d) = s.unit) :)
@[simp] theorem doutRequal_ticks {s : State} {n d : Nat} : (doutRequal s n d).ticks = s.ticks :=
  (congrArg State.ticks (doutRequal_unit : State.unit (doutRequal s n d) = s.unit) :)
@[simp] theorem doutRequal_ident {s : State} {n d : Nat} : (doutRequal s n d).ident = s.ident :=
  (congrArg State.ident (doutRequal_unit : State.unit (doutRequal s n d) = s.unit) :)
@[simp] theorem doutRequal_regs {s : State} {n d : Nat} : (doutRequal s n d).regs = s.regs :=
  (congrArg State.regs (doutRequal_unit : State.unit (doutRequal s n d) = s.unit) :)
@[simp] theorem doutRequal_low64 {s : State} {n d : Nat} : (doutRequal s n d).low64 = s.low64 :=
  (congrArg State.low64 (doutRequal_unit : State.unit (doutRequal s n d) = s.unit) :)
@[simp] theorem doutRequal_high64 {s : State} {n d : Nat} : (doutRequal s n d).high64 = s.high64 :=
  (congrArg State.high64 (doutRequal_unit : State.unit (doutRequal s n d) = s.unit) :)
@[simp] theorem doutRequal_pins {s : State} {n d : Nat} : (doutRequal s n d).pins = s.pins :=
  (congrArg State.pins (doutRequal_unit : State.unit (doutRequal s n d) = s.unit) :)
@[simp] theorem doutRequal_ws {s : State} {n d : Nat} : (doutRequal s n d).ws = s.ws :=
  (congrArg State.ws (doutRequal_unit : State.unit (doutRequal s n d) = s.unit) :)
@[simp] theorem doutRequal_txns {s : State} {n d : Nat} : (doutRequal s n d).txns = s.txns :=
  (congrArg State.txns (doutRequal_unit : State.unit (doutRequal s n d) = s.unit) :)
@[simp] theorem doutRequal_nextTxn {s : State} {n d : Nat} : (doutRequal s n d).nextTxn = s.nextTxn :=
  (congrArg State.nextTxn (doutRequal_unit : State.unit (doutRequal s n d) = s.unit) :)
@[simp] theorem doutRequal_lastTxn {s : State} {n d : Nat} : (doutRequal s n d).lastTxn = s.lastTxn :=
  (congrArg State.lastTxn (doutRequal_unit : State.unit (doutRequal s n d) = s.unit) :)
@[simp] theorem doutRequal_time {s : State} {n d : Nat} : (doutRequal s n d).time = s.time :=
  (congrArg State.time (doutRequal_unit : State.unit (doutRequal s n d) = s.unit) :)
@[simp] theorem doutRequal_actions {s : State} {n d : Nat} : (doutRequal s n d).actions = s.actions :=
  (congrArg State.actions (doutRequal_unit : State.unit (doutRequal s n d) = s.unit) :)
@[simp] theorem doutRequal_fired {s : State} {n d : Nat} : (doutRequal s n d).fired = s.fired :=
  (congrArg State.fired (doutRequal_unit : State.unit (doutRequal s n d) = s.unit) :)
@[simp] theorem doutRequal_bkp {s : State} {n d : Nat} : (doutRequal s n d).bkp = s.bkp :=
  (congrArg State.bkp (doutRequal_unit : State.unit (doutRequal s n d) = s.unit) :)
@[simp] theorem doutRequal_vlt {s : State} {n d : Nat} : (doutRequal s n d).vlt = s.vlt :=
  (congrArg State.vlt (doutRequal_unit : State.unit (doutRequal s n d) = s.unit) :)
@[simp] theorem doutRequal_lc {s : State} {n d : Nat} : (doutRequal s n d).lc = s.lc :=
  (congrArg State.lc (doutRequal_unit : State.unit (doutRequal s n d) = s.unit) :)
@[simp] theorem doutRequal_upd {s : State} {n d : Nat} : (doutRequal s n d).upd = s.upd :=
  (congrArg State.upd (doutRequal_unit : State.unit (doutRequal s n d) = s.unit) :)
@[simp] theorem doutRequal_usb {s : State} {n d : Nat} : (doutRequal s n d).usb = s.usb :=
  (congrArg State.usb (doutRequal_unit : State.unit (doutRequal s n d) = s.unit) :)
@[simp] theorem doutRequal_vbus {s : State} {n d : Nat} : (doutRequal s n d).vbus = s.vbus :=
  (congrArg State.vbus (doutRequal_unit : State.unit (doutRequal s n d) = s.unit) :)
@[simp] theorem doutRequal_reg {s : State} {n d : Nat} {key : Nat} : (doutRequal s n d).reg key = s.reg key :=
  (congrArg (fun x => State.reg x key) (doutRequal_unit : State.unit (doutRequal s n d) = s.unit) :)

@[simp] theorem aoutAcquire_pending {s : State} {n t : Nat} {stamp : Instant} : (aoutAcquire s n t stamp).pending = s.pending :=
  (congrArg State.pending (aoutAcquire_unit : State.unit (aoutAcquire s n t stamp) = s.unit) :)
@[simp] theorem aoutAcquire_free {s : State} {n t : Nat} {stamp : Instant} : (aoutAcquire s n t stamp).free = s.free :=
  (congrArg State.free (aoutAcquire_unit : State.unit (aoutAcquire s n t stamp) = s.unit) :)
@[simp] theorem aoutAcquire_ticks {s : State} {n t : Nat} {stamp : Instant} : (aoutAcquire s n t stamp).ticks = s.ticks :=
  (congrArg State.ticks (aoutAcquire_unit : State.unit (aoutAcquire s n t stamp) = s.unit) :)
@[simp] theorem aoutAcquire_ident {s : State} {n t : Nat} {stamp : Instant} : (aoutAcquire s n t stamp).ident = s.ident :=
  (congrArg State.ident (aoutAcquire_unit : State.unit (aoutAcquire s n t stamp) = s.unit) :)
@[simp] theorem aoutAcquire_regs {s : State} {n t : Nat} {stamp : Instant} : (aoutAcquire s n t stamp).regs = s.regs :=
  (congrArg State.regs (aoutAcquire_unit : State.unit (aoutAcquire s n t stamp) = s.unit) :)
@[simp] theorem aoutAcquire_low64 {s : State} {n t : Nat} {stamp : Instant} : (aoutAcquire s n t stamp).low64 = s.low64 :=
  (congrArg State.low64 (aoutAcquire_unit : State.unit (aoutAcquire s n t stamp) = s.unit) :)
@[simp] theorem aoutAcquire_high64 {s : State} {n t : Nat} {stamp : Instant} : (aoutAcquire s n t stamp).high64 = s.high64 :=
  (congrArg State.high64 (aoutAcquire_unit : State.unit (aoutAcquire s n t stamp) = s.unit) :)
@[simp] theorem aoutAcquire_pins {s : State} {n t : Nat} {stamp : Instant} : (aoutAcquire s n t stamp).pins = s.pins :=
  (congrArg State.pins (aoutAcquire_unit : State.unit (aoutAcquire s n t stamp) = s.unit) :)
@[simp] theorem aoutAcquire_ws {s : State} {n t : Nat} {stamp : Instant} : (aoutAcquire s n t stamp).ws = s.ws :=
  (congrArg State.ws (aoutAcquire_unit : State.unit (aoutAcquire s n t stamp) = s.unit) :)
@[simp] theorem aoutAcquire_txns {s : State} {n t : Nat} {stamp : Instant} : (aoutAcquire s n t stamp).txns = s.txns :=
  (congrArg State.txns (aoutAcquire_unit : State.unit (aoutAcquire s n t stamp) = s.unit) :)
@[simp] theorem aoutAcquire_nextTxn {s : State} {n t : Nat} {stamp : Instant} : (aoutAcquire s n t stamp).nextTxn = s.nextTxn :=
  (congrArg State.nextTxn (aoutAcquire_unit : State.unit (aoutAcquire s n t stamp) = s.unit) :)
@[simp] theorem aoutAcquire_lastTxn {s : State} {n t : Nat} {stamp : Instant} : (aoutAcquire s n t stamp).lastTxn = s.lastTxn :=
  (congrArg State.lastTxn (aoutAcquire_unit : State.unit (aoutAcquire s n t stamp) = s.unit) :)
@[simp] theorem aoutAcquire_time {s : State} {n t : Nat} {stamp : Instant} : (aoutAcquire s n t stamp).time = s.time :=
  (congrArg State.time (aoutAcquire_unit : State.unit (aoutAcquire s n t stamp) = s.unit) :)
@[simp] theorem aoutAcquire_actions {s : State} {n t : Nat} {stamp : Instant} : (aoutAcquire s n t stamp).actions = s.actions :=
  (congrArg State.actions (aoutAcquire_unit : State.unit (aoutAcquire s n t stamp) = s.unit) :)
@[simp] theorem aoutAcquire_fired {s : State} {n t : Nat} {stamp : Instant} : (aoutAcquire s n t stamp).fired = s.fired :=
  (congrArg State.fired (aoutAcquire_unit : State.unit (aoutAcquire s n t stamp) = s.unit) :)
@[simp] theorem aoutAcquire_bkp {s : State} {n t : Nat} {stamp : Instant} : (aoutAcquire s n t stamp).bkp = s.bkp :=
  (congrArg State.bkp (aoutAcquire_unit : State.unit (aoutAcquire s n t stamp) = s.unit) :)
@[simp] theorem aoutAcquire_vlt {s : State} {n t : Nat} {stamp : Instant} : (aoutAcquire s n t stamp).vlt = s.vlt :=
  (congrArg State.vlt (aoutAcquire_unit : State.unit (aoutAcquire s n t stamp) = s.unit) :)
@[simp] theorem aoutAcquire_lc {s : State} {n t : Nat} {stamp : Instant} : (aoutAcquire s n t stamp).lc = s.lc :=
  (congrArg State.lc (aoutAcquire_unit : State.unit (aoutAcquire s n t stamp) = s.unit) :)
@[simp] theorem aoutAcquire_upd {s : State} {n t : Nat} {stamp : Instant} : (aoutAcquire s n t stamp).upd = s.upd :=
  (congrArg State.upd (aoutAcquire_unit : State.unit (aoutAcquire s n t stamp) = s.unit) :)
@[simp] theorem aoutAcquire_usb {s : State} {n t : Nat} {stamp : Instant} : (aoutAcquire s n t stamp).usb = s.usb :=
  (congrArg State.usb (aoutAcquire_unit : State.unit (aoutAcquire s n t stamp) = s.unit) :)
@[simp] theorem aoutAcquire_vbus {s : State} {n t : Nat} {stamp : Instant} : (aoutAcquire s n t stamp).vbus = s.vbus :=
  (congrArg State.vbus (aoutAcquire_unit : State.unit (aoutAcquire s n t stamp) = s.unit) :)
@[simp] theorem aoutAcquire_reg {s : State} {n t : Nat} {stamp : Instant} {key : Nat} : (aoutAcquire s n t stamp).reg key = s.reg key :=
  (congrArg (fun x => State.reg x key) (aoutAcquire_unit : State.unit (aoutAcquire s n t stamp) = s.unit) :)

@[simp] theorem aoutRequal_pending {s : State} {n t : Nat} : (aoutRequal s n t).pending = s.pending :=
  (congrArg State.pending (aoutRequal_unit : State.unit (aoutRequal s n t) = s.unit) :)
@[simp] theorem aoutRequal_free {s : State} {n t : Nat} : (aoutRequal s n t).free = s.free :=
  (congrArg State.free (aoutRequal_unit : State.unit (aoutRequal s n t) = s.unit) :)
@[simp] theorem aoutRequal_ticks {s : State} {n t : Nat} : (aoutRequal s n t).ticks = s.ticks :=
  (congrArg State.ticks (aoutRequal_unit : State.unit (aoutRequal s n t) = s.unit) :)
@[simp] theorem aoutRequal_ident {s : State} {n t : Nat} : (aoutRequal s n t).ident = s.ident :=
  (congrArg State.ident (aoutRequal_unit : State.unit (aoutRequal s n t) = s.unit) :)
@[simp] theorem aoutRequal_regs {s : State} {n t : Nat} : (aoutRequal s n t).regs = s.regs :=
  (congrArg State.regs (aoutRequal_unit : State.unit (aoutRequal s n t) = s.unit) :)
@[simp] theorem aoutRequal_low64 {s : State} {n t : Nat} : (aoutRequal s n t).low64 = s.low64 :=
  (congrArg State.low64 (aoutRequal_unit : State.unit (aoutRequal s n t) = s.unit) :)
@[simp] theorem aoutRequal_high64 {s : State} {n t : Nat} : (aoutRequal s n t).high64 = s.high64 :=
  (congrArg State.high64 (aoutRequal_unit : State.unit (aoutRequal s n t) = s.unit) :)
@[simp] theorem aoutRequal_pins {s : State} {n t : Nat} : (aoutRequal s n t).pins = s.pins :=
  (congrArg State.pins (aoutRequal_unit : State.unit (aoutRequal s n t) = s.unit) :)
@[simp] theorem aoutRequal_ws {s : State} {n t : Nat} : (aoutRequal s n t).ws = s.ws :=
  (congrArg State.ws (aoutRequal_unit : State.unit (aoutRequal s n t) = s.unit) :)
@[simp] theorem aoutRequal_txns {s : State} {n t : Nat} : (aoutRequal s n t).txns = s.txns :=
  (congrArg State.txns (aoutRequal_unit : State.unit (aoutRequal s n t) = s.unit) :)
@[simp] theorem aoutRequal_nextTxn {s : State} {n t : Nat} : (aoutRequal s n t).nextTxn = s.nextTxn :=
  (congrArg State.nextTxn (aoutRequal_unit : State.unit (aoutRequal s n t) = s.unit) :)
@[simp] theorem aoutRequal_lastTxn {s : State} {n t : Nat} : (aoutRequal s n t).lastTxn = s.lastTxn :=
  (congrArg State.lastTxn (aoutRequal_unit : State.unit (aoutRequal s n t) = s.unit) :)
@[simp] theorem aoutRequal_time {s : State} {n t : Nat} : (aoutRequal s n t).time = s.time :=
  (congrArg State.time (aoutRequal_unit : State.unit (aoutRequal s n t) = s.unit) :)
@[simp] theorem aoutRequal_actions {s : State} {n t : Nat} : (aoutRequal s n t).actions = s.actions :=
  (congrArg State.actions (aoutRequal_unit : State.unit (aoutRequal s n t) = s.unit) :)
@[simp] theorem aoutRequal_fired {s : State} {n t : Nat} : (aoutRequal s n t).fired = s.fired :=
  (congrArg State.fired (aoutRequal_unit : State.unit (aoutRequal s n t) = s.unit) :)
@[simp] theorem aoutRequal_bkp {s : State} {n t : Nat} : (aoutRequal s n t).bkp = s.bkp :=
  (congrArg State.bkp (aoutRequal_unit : State.unit (aoutRequal s n t) = s.unit) :)
@[simp] theorem aoutRequal_vlt {s : State} {n t : Nat} : (aoutRequal s n t).vlt = s.vlt :=
  (congrArg State.vlt (aoutRequal_unit : State.unit (aoutRequal s n t) = s.unit) :)
@[simp] theorem aoutRequal_lc {s : State} {n t : Nat} : (aoutRequal s n t).lc = s.lc :=
  (congrArg State.lc (aoutRequal_unit : State.unit (aoutRequal s n t) = s.unit) :)
@[simp] theorem aoutRequal_upd {s : State} {n t : Nat} : (aoutRequal s n t).upd = s.upd :=
  (congrArg State.upd (aoutRequal_unit : State.unit (aoutRequal s n t) = s.unit) :)
@[simp] theorem aoutRequal_usb {s : State} {n t : Nat} : (aoutRequal s n t).usb = s.usb :=
  (congrArg State.usb (aoutRequal_unit : State.unit (aoutRequal s n t) = s.unit) :)
@[simp] theorem aoutRequal_vbus {s : State} {n t : Nat} : (aoutRequal s n t).vbus = s.vbus :=
  (congrArg State.vbus (aoutRequal_unit : State.unit (aoutRequal s n t) = s.unit) :)
@[simp] theorem aoutRequal_reg {s : State} {n t : Nat} {key : Nat} : (aoutRequal s n t).reg key = s.reg key :=
  (congrArg (fun x => State.reg x key) (aoutRequal_unit : State.unit (aoutRequal s n t) = s.unit) :)

@[simp] theorem latchDout_pending {s : State} {n d : Nat} {v : Bool} {stamp : Instant} : (latchDout s n d v stamp).pending = s.pending :=
  (congrArg State.pending (latchDout_unit : State.unit (latchDout s n d v stamp) = s.unit) :)
@[simp] theorem latchDout_free {s : State} {n d : Nat} {v : Bool} {stamp : Instant} : (latchDout s n d v stamp).free = s.free :=
  (congrArg State.free (latchDout_unit : State.unit (latchDout s n d v stamp) = s.unit) :)
@[simp] theorem latchDout_ticks {s : State} {n d : Nat} {v : Bool} {stamp : Instant} : (latchDout s n d v stamp).ticks = s.ticks :=
  (congrArg State.ticks (latchDout_unit : State.unit (latchDout s n d v stamp) = s.unit) :)
@[simp] theorem latchDout_ident {s : State} {n d : Nat} {v : Bool} {stamp : Instant} : (latchDout s n d v stamp).ident = s.ident :=
  (congrArg State.ident (latchDout_unit : State.unit (latchDout s n d v stamp) = s.unit) :)
@[simp] theorem latchDout_regs {s : State} {n d : Nat} {v : Bool} {stamp : Instant} : (latchDout s n d v stamp).regs = s.regs :=
  (congrArg State.regs (latchDout_unit : State.unit (latchDout s n d v stamp) = s.unit) :)
@[simp] theorem latchDout_low64 {s : State} {n d : Nat} {v : Bool} {stamp : Instant} : (latchDout s n d v stamp).low64 = s.low64 :=
  (congrArg State.low64 (latchDout_unit : State.unit (latchDout s n d v stamp) = s.unit) :)
@[simp] theorem latchDout_high64 {s : State} {n d : Nat} {v : Bool} {stamp : Instant} : (latchDout s n d v stamp).high64 = s.high64 :=
  (congrArg State.high64 (latchDout_unit : State.unit (latchDout s n d v stamp) = s.unit) :)
@[simp] theorem latchDout_pins {s : State} {n d : Nat} {v : Bool} {stamp : Instant} : (latchDout s n d v stamp).pins = s.pins :=
  (congrArg State.pins (latchDout_unit : State.unit (latchDout s n d v stamp) = s.unit) :)
@[simp] theorem latchDout_ws {s : State} {n d : Nat} {v : Bool} {stamp : Instant} : (latchDout s n d v stamp).ws = s.ws :=
  (congrArg State.ws (latchDout_unit : State.unit (latchDout s n d v stamp) = s.unit) :)
@[simp] theorem latchDout_txns {s : State} {n d : Nat} {v : Bool} {stamp : Instant} : (latchDout s n d v stamp).txns = s.txns :=
  (congrArg State.txns (latchDout_unit : State.unit (latchDout s n d v stamp) = s.unit) :)
@[simp] theorem latchDout_nextTxn {s : State} {n d : Nat} {v : Bool} {stamp : Instant} : (latchDout s n d v stamp).nextTxn = s.nextTxn :=
  (congrArg State.nextTxn (latchDout_unit : State.unit (latchDout s n d v stamp) = s.unit) :)
@[simp] theorem latchDout_lastTxn {s : State} {n d : Nat} {v : Bool} {stamp : Instant} : (latchDout s n d v stamp).lastTxn = s.lastTxn :=
  (congrArg State.lastTxn (latchDout_unit : State.unit (latchDout s n d v stamp) = s.unit) :)
@[simp] theorem latchDout_time {s : State} {n d : Nat} {v : Bool} {stamp : Instant} : (latchDout s n d v stamp).time = s.time :=
  (congrArg State.time (latchDout_unit : State.unit (latchDout s n d v stamp) = s.unit) :)
@[simp] theorem latchDout_actions {s : State} {n d : Nat} {v : Bool} {stamp : Instant} : (latchDout s n d v stamp).actions = s.actions :=
  (congrArg State.actions (latchDout_unit : State.unit (latchDout s n d v stamp) = s.unit) :)
@[simp] theorem latchDout_fired {s : State} {n d : Nat} {v : Bool} {stamp : Instant} : (latchDout s n d v stamp).fired = s.fired :=
  (congrArg State.fired (latchDout_unit : State.unit (latchDout s n d v stamp) = s.unit) :)
@[simp] theorem latchDout_bkp {s : State} {n d : Nat} {v : Bool} {stamp : Instant} : (latchDout s n d v stamp).bkp = s.bkp :=
  (congrArg State.bkp (latchDout_unit : State.unit (latchDout s n d v stamp) = s.unit) :)
@[simp] theorem latchDout_vlt {s : State} {n d : Nat} {v : Bool} {stamp : Instant} : (latchDout s n d v stamp).vlt = s.vlt :=
  (congrArg State.vlt (latchDout_unit : State.unit (latchDout s n d v stamp) = s.unit) :)
@[simp] theorem latchDout_lc {s : State} {n d : Nat} {v : Bool} {stamp : Instant} : (latchDout s n d v stamp).lc = s.lc :=
  (congrArg State.lc (latchDout_unit : State.unit (latchDout s n d v stamp) = s.unit) :)
@[simp] theorem latchDout_upd {s : State} {n d : Nat} {v : Bool} {stamp : Instant} : (latchDout s n d v stamp).upd = s.upd :=
  (congrArg State.upd (latchDout_unit : State.unit (latchDout s n d v stamp) = s.unit) :)
@[simp] theorem latchDout_usb {s : State} {n d : Nat} {v : Bool} {stamp : Instant} : (latchDout s n d v stamp).usb = s.usb :=
  (congrArg State.usb (latchDout_unit : State.unit (latchDout s n d v stamp) = s.unit) :)
@[simp] theorem latchDout_vbus {s : State} {n d : Nat} {v : Bool} {stamp : Instant} : (latchDout s n d v stamp).vbus = s.vbus :=
  (congrArg State.vbus (latchDout_unit : State.unit (latchDout s n d v stamp) = s.unit) :)
@[simp] theorem latchDout_reg {s : State} {n d : Nat} {v : Bool} {stamp : Instant} {key : Nat} : (latchDout s n d v stamp).reg key = s.reg key :=
  (congrArg (fun x => State.reg x key) (latchDout_unit : State.unit (latchDout s n d v stamp) = s.unit) :)

@[simp] theorem latchAout_pending {s : State} {n t code : Nat} {stamp : Instant} : (latchAout s n t code stamp).pending = s.pending :=
  (congrArg State.pending (latchAout_unit : State.unit (latchAout s n t code stamp) = s.unit) :)
@[simp] theorem latchAout_free {s : State} {n t code : Nat} {stamp : Instant} : (latchAout s n t code stamp).free = s.free :=
  (congrArg State.free (latchAout_unit : State.unit (latchAout s n t code stamp) = s.unit) :)
@[simp] theorem latchAout_ticks {s : State} {n t code : Nat} {stamp : Instant} : (latchAout s n t code stamp).ticks = s.ticks :=
  (congrArg State.ticks (latchAout_unit : State.unit (latchAout s n t code stamp) = s.unit) :)
@[simp] theorem latchAout_ident {s : State} {n t code : Nat} {stamp : Instant} : (latchAout s n t code stamp).ident = s.ident :=
  (congrArg State.ident (latchAout_unit : State.unit (latchAout s n t code stamp) = s.unit) :)
@[simp] theorem latchAout_regs {s : State} {n t code : Nat} {stamp : Instant} : (latchAout s n t code stamp).regs = s.regs :=
  (congrArg State.regs (latchAout_unit : State.unit (latchAout s n t code stamp) = s.unit) :)
@[simp] theorem latchAout_low64 {s : State} {n t code : Nat} {stamp : Instant} : (latchAout s n t code stamp).low64 = s.low64 :=
  (congrArg State.low64 (latchAout_unit : State.unit (latchAout s n t code stamp) = s.unit) :)
@[simp] theorem latchAout_high64 {s : State} {n t code : Nat} {stamp : Instant} : (latchAout s n t code stamp).high64 = s.high64 :=
  (congrArg State.high64 (latchAout_unit : State.unit (latchAout s n t code stamp) = s.unit) :)
@[simp] theorem latchAout_pins {s : State} {n t code : Nat} {stamp : Instant} : (latchAout s n t code stamp).pins = s.pins :=
  (congrArg State.pins (latchAout_unit : State.unit (latchAout s n t code stamp) = s.unit) :)
@[simp] theorem latchAout_ws {s : State} {n t code : Nat} {stamp : Instant} : (latchAout s n t code stamp).ws = s.ws :=
  (congrArg State.ws (latchAout_unit : State.unit (latchAout s n t code stamp) = s.unit) :)
@[simp] theorem latchAout_txns {s : State} {n t code : Nat} {stamp : Instant} : (latchAout s n t code stamp).txns = s.txns :=
  (congrArg State.txns (latchAout_unit : State.unit (latchAout s n t code stamp) = s.unit) :)
@[simp] theorem latchAout_nextTxn {s : State} {n t code : Nat} {stamp : Instant} : (latchAout s n t code stamp).nextTxn = s.nextTxn :=
  (congrArg State.nextTxn (latchAout_unit : State.unit (latchAout s n t code stamp) = s.unit) :)
@[simp] theorem latchAout_lastTxn {s : State} {n t code : Nat} {stamp : Instant} : (latchAout s n t code stamp).lastTxn = s.lastTxn :=
  (congrArg State.lastTxn (latchAout_unit : State.unit (latchAout s n t code stamp) = s.unit) :)
@[simp] theorem latchAout_time {s : State} {n t code : Nat} {stamp : Instant} : (latchAout s n t code stamp).time = s.time :=
  (congrArg State.time (latchAout_unit : State.unit (latchAout s n t code stamp) = s.unit) :)
@[simp] theorem latchAout_actions {s : State} {n t code : Nat} {stamp : Instant} : (latchAout s n t code stamp).actions = s.actions :=
  (congrArg State.actions (latchAout_unit : State.unit (latchAout s n t code stamp) = s.unit) :)
@[simp] theorem latchAout_fired {s : State} {n t code : Nat} {stamp : Instant} : (latchAout s n t code stamp).fired = s.fired :=
  (congrArg State.fired (latchAout_unit : State.unit (latchAout s n t code stamp) = s.unit) :)
@[simp] theorem latchAout_bkp {s : State} {n t code : Nat} {stamp : Instant} : (latchAout s n t code stamp).bkp = s.bkp :=
  (congrArg State.bkp (latchAout_unit : State.unit (latchAout s n t code stamp) = s.unit) :)
@[simp] theorem latchAout_vlt {s : State} {n t code : Nat} {stamp : Instant} : (latchAout s n t code stamp).vlt = s.vlt :=
  (congrArg State.vlt (latchAout_unit : State.unit (latchAout s n t code stamp) = s.unit) :)
@[simp] theorem latchAout_lc {s : State} {n t code : Nat} {stamp : Instant} : (latchAout s n t code stamp).lc = s.lc :=
  (congrArg State.lc (latchAout_unit : State.unit (latchAout s n t code stamp) = s.unit) :)
@[simp] theorem latchAout_upd {s : State} {n t code : Nat} {stamp : Instant} : (latchAout s n t code stamp).upd = s.upd :=
  (congrArg State.upd (latchAout_unit : State.unit (latchAout s n t code stamp) = s.unit) :)
@[simp] theorem latchAout_usb {s : State} {n t code : Nat} {stamp : Instant} : (latchAout s n t code stamp).usb = s.usb :=
  (congrArg State.usb (latchAout_unit : State.unit (latchAout s n t code stamp) = s.unit) :)
@[simp] theorem latchAout_vbus {s : State} {n t code : Nat} {stamp : Instant} : (latchAout s n t code stamp).vbus = s.vbus :=
  (congrArg State.vbus (latchAout_unit : State.unit (latchAout s n t code stamp) = s.unit) :)
@[simp] theorem latchAout_reg {s : State} {n t code : Nat} {stamp : Instant} {key : Nat} : (latchAout s n t code stamp).reg key = s.reg key :=
  (congrArg (fun x => State.reg x key) (latchAout_unit : State.unit (latchAout s n t code stamp) = s.unit) :)

@[simp] theorem applySafe_pending {s : State} {n term : Nat} : (applySafe s n term).pending = s.pending :=
  (congrArg State.pending (applySafe_unit : State.unit (applySafe s n term) = s.unit) :)
@[simp] theorem applySafe_free {s : State} {n term : Nat} : (applySafe s n term).free = s.free :=
  (congrArg State.free (applySafe_unit : State.unit (applySafe s n term) = s.unit) :)
@[simp] theorem applySafe_ticks {s : State} {n term : Nat} : (applySafe s n term).ticks = s.ticks :=
  (congrArg State.ticks (applySafe_unit : State.unit (applySafe s n term) = s.unit) :)
@[simp] theorem applySafe_ident {s : State} {n term : Nat} : (applySafe s n term).ident = s.ident :=
  (congrArg State.ident (applySafe_unit : State.unit (applySafe s n term) = s.unit) :)
@[simp] theorem applySafe_regs {s : State} {n term : Nat} : (applySafe s n term).regs = s.regs :=
  (congrArg State.regs (applySafe_unit : State.unit (applySafe s n term) = s.unit) :)
@[simp] theorem applySafe_low64 {s : State} {n term : Nat} : (applySafe s n term).low64 = s.low64 :=
  (congrArg State.low64 (applySafe_unit : State.unit (applySafe s n term) = s.unit) :)
@[simp] theorem applySafe_high64 {s : State} {n term : Nat} : (applySafe s n term).high64 = s.high64 :=
  (congrArg State.high64 (applySafe_unit : State.unit (applySafe s n term) = s.unit) :)
@[simp] theorem applySafe_pins {s : State} {n term : Nat} : (applySafe s n term).pins = s.pins :=
  (congrArg State.pins (applySafe_unit : State.unit (applySafe s n term) = s.unit) :)
@[simp] theorem applySafe_ws {s : State} {n term : Nat} : (applySafe s n term).ws = s.ws :=
  (congrArg State.ws (applySafe_unit : State.unit (applySafe s n term) = s.unit) :)
@[simp] theorem applySafe_txns {s : State} {n term : Nat} : (applySafe s n term).txns = s.txns :=
  (congrArg State.txns (applySafe_unit : State.unit (applySafe s n term) = s.unit) :)
@[simp] theorem applySafe_nextTxn {s : State} {n term : Nat} : (applySafe s n term).nextTxn = s.nextTxn :=
  (congrArg State.nextTxn (applySafe_unit : State.unit (applySafe s n term) = s.unit) :)
@[simp] theorem applySafe_lastTxn {s : State} {n term : Nat} : (applySafe s n term).lastTxn = s.lastTxn :=
  (congrArg State.lastTxn (applySafe_unit : State.unit (applySafe s n term) = s.unit) :)
@[simp] theorem applySafe_time {s : State} {n term : Nat} : (applySafe s n term).time = s.time :=
  (congrArg State.time (applySafe_unit : State.unit (applySafe s n term) = s.unit) :)
@[simp] theorem applySafe_actions {s : State} {n term : Nat} : (applySafe s n term).actions = s.actions :=
  (congrArg State.actions (applySafe_unit : State.unit (applySafe s n term) = s.unit) :)
@[simp] theorem applySafe_fired {s : State} {n term : Nat} : (applySafe s n term).fired = s.fired :=
  (congrArg State.fired (applySafe_unit : State.unit (applySafe s n term) = s.unit) :)
@[simp] theorem applySafe_bkp {s : State} {n term : Nat} : (applySafe s n term).bkp = s.bkp :=
  (congrArg State.bkp (applySafe_unit : State.unit (applySafe s n term) = s.unit) :)
@[simp] theorem applySafe_vlt {s : State} {n term : Nat} : (applySafe s n term).vlt = s.vlt :=
  (congrArg State.vlt (applySafe_unit : State.unit (applySafe s n term) = s.unit) :)
@[simp] theorem applySafe_lc {s : State} {n term : Nat} : (applySafe s n term).lc = s.lc :=
  (congrArg State.lc (applySafe_unit : State.unit (applySafe s n term) = s.unit) :)
@[simp] theorem applySafe_upd {s : State} {n term : Nat} : (applySafe s n term).upd = s.upd :=
  (congrArg State.upd (applySafe_unit : State.unit (applySafe s n term) = s.unit) :)
@[simp] theorem applySafe_usb {s : State} {n term : Nat} : (applySafe s n term).usb = s.usb :=
  (congrArg State.usb (applySafe_unit : State.unit (applySafe s n term) = s.unit) :)
@[simp] theorem applySafe_vbus {s : State} {n term : Nat} : (applySafe s n term).vbus = s.vbus :=
  (congrArg State.vbus (applySafe_unit : State.unit (applySafe s n term) = s.unit) :)
@[simp] theorem applySafe_reg {s : State} {n term : Nat} {key : Nat} : (applySafe s n term).reg key = s.reg key :=
  (congrArg (fun x => State.reg x key) (applySafe_unit : State.unit (applySafe s n term) = s.unit) :)

@[simp] theorem applyAllSafe_pending {s : State} {n : Nat} : (applyAllSafe s n).pending = s.pending :=
  (congrArg State.pending (applyAllSafe_unit : State.unit (applyAllSafe s n) = s.unit) :)
@[simp] theorem applyAllSafe_free {s : State} {n : Nat} : (applyAllSafe s n).free = s.free :=
  (congrArg State.free (applyAllSafe_unit : State.unit (applyAllSafe s n) = s.unit) :)
@[simp] theorem applyAllSafe_ticks {s : State} {n : Nat} : (applyAllSafe s n).ticks = s.ticks :=
  (congrArg State.ticks (applyAllSafe_unit : State.unit (applyAllSafe s n) = s.unit) :)
@[simp] theorem applyAllSafe_ident {s : State} {n : Nat} : (applyAllSafe s n).ident = s.ident :=
  (congrArg State.ident (applyAllSafe_unit : State.unit (applyAllSafe s n) = s.unit) :)
@[simp] theorem applyAllSafe_regs {s : State} {n : Nat} : (applyAllSafe s n).regs = s.regs :=
  (congrArg State.regs (applyAllSafe_unit : State.unit (applyAllSafe s n) = s.unit) :)
@[simp] theorem applyAllSafe_low64 {s : State} {n : Nat} : (applyAllSafe s n).low64 = s.low64 :=
  (congrArg State.low64 (applyAllSafe_unit : State.unit (applyAllSafe s n) = s.unit) :)
@[simp] theorem applyAllSafe_high64 {s : State} {n : Nat} : (applyAllSafe s n).high64 = s.high64 :=
  (congrArg State.high64 (applyAllSafe_unit : State.unit (applyAllSafe s n) = s.unit) :)
@[simp] theorem applyAllSafe_pins {s : State} {n : Nat} : (applyAllSafe s n).pins = s.pins :=
  (congrArg State.pins (applyAllSafe_unit : State.unit (applyAllSafe s n) = s.unit) :)
@[simp] theorem applyAllSafe_ws {s : State} {n : Nat} : (applyAllSafe s n).ws = s.ws :=
  (congrArg State.ws (applyAllSafe_unit : State.unit (applyAllSafe s n) = s.unit) :)
@[simp] theorem applyAllSafe_txns {s : State} {n : Nat} : (applyAllSafe s n).txns = s.txns :=
  (congrArg State.txns (applyAllSafe_unit : State.unit (applyAllSafe s n) = s.unit) :)
@[simp] theorem applyAllSafe_nextTxn {s : State} {n : Nat} : (applyAllSafe s n).nextTxn = s.nextTxn :=
  (congrArg State.nextTxn (applyAllSafe_unit : State.unit (applyAllSafe s n) = s.unit) :)
@[simp] theorem applyAllSafe_lastTxn {s : State} {n : Nat} : (applyAllSafe s n).lastTxn = s.lastTxn :=
  (congrArg State.lastTxn (applyAllSafe_unit : State.unit (applyAllSafe s n) = s.unit) :)
@[simp] theorem applyAllSafe_time {s : State} {n : Nat} : (applyAllSafe s n).time = s.time :=
  (congrArg State.time (applyAllSafe_unit : State.unit (applyAllSafe s n) = s.unit) :)
@[simp] theorem applyAllSafe_actions {s : State} {n : Nat} : (applyAllSafe s n).actions = s.actions :=
  (congrArg State.actions (applyAllSafe_unit : State.unit (applyAllSafe s n) = s.unit) :)
@[simp] theorem applyAllSafe_fired {s : State} {n : Nat} : (applyAllSafe s n).fired = s.fired :=
  (congrArg State.fired (applyAllSafe_unit : State.unit (applyAllSafe s n) = s.unit) :)
@[simp] theorem applyAllSafe_bkp {s : State} {n : Nat} : (applyAllSafe s n).bkp = s.bkp :=
  (congrArg State.bkp (applyAllSafe_unit : State.unit (applyAllSafe s n) = s.unit) :)
@[simp] theorem applyAllSafe_vlt {s : State} {n : Nat} : (applyAllSafe s n).vlt = s.vlt :=
  (congrArg State.vlt (applyAllSafe_unit : State.unit (applyAllSafe s n) = s.unit) :)
@[simp] theorem applyAllSafe_lc {s : State} {n : Nat} : (applyAllSafe s n).lc = s.lc :=
  (congrArg State.lc (applyAllSafe_unit : State.unit (applyAllSafe s n) = s.unit) :)
@[simp] theorem applyAllSafe_upd {s : State} {n : Nat} : (applyAllSafe s n).upd = s.upd :=
  (congrArg State.upd (applyAllSafe_unit : State.unit (applyAllSafe s n) = s.unit) :)
@[simp] theorem applyAllSafe_usb {s : State} {n : Nat} : (applyAllSafe s n).usb = s.usb :=
  (congrArg State.usb (applyAllSafe_unit : State.unit (applyAllSafe s n) = s.unit) :)
@[simp] theorem applyAllSafe_vbus {s : State} {n : Nat} : (applyAllSafe s n).vbus = s.vbus :=
  (congrArg State.vbus (applyAllSafe_unit : State.unit (applyAllSafe s n) = s.unit) :)
@[simp] theorem applyAllSafe_reg {s : State} {n : Nat} {key : Nat} : (applyAllSafe s n).reg key = s.reg key :=
  (congrArg (fun x => State.reg x key) (applyAllSafe_unit : State.unit (applyAllSafe s n) = s.unit) :)

@[simp] theorem acquireDin_pending {s : State} {n i : Nat} {q : Nat} {stamp : Instant} : (acquireDin s n i q stamp).pending = s.pending :=
  (congrArg State.pending (acquireDin_unit : State.unit (acquireDin s n i q stamp) = s.unit) :)
@[simp] theorem acquireDin_free {s : State} {n i : Nat} {q : Nat} {stamp : Instant} : (acquireDin s n i q stamp).free = s.free :=
  (congrArg State.free (acquireDin_unit : State.unit (acquireDin s n i q stamp) = s.unit) :)
@[simp] theorem acquireDin_ticks {s : State} {n i : Nat} {q : Nat} {stamp : Instant} : (acquireDin s n i q stamp).ticks = s.ticks :=
  (congrArg State.ticks (acquireDin_unit : State.unit (acquireDin s n i q stamp) = s.unit) :)
@[simp] theorem acquireDin_ident {s : State} {n i : Nat} {q : Nat} {stamp : Instant} : (acquireDin s n i q stamp).ident = s.ident :=
  (congrArg State.ident (acquireDin_unit : State.unit (acquireDin s n i q stamp) = s.unit) :)
@[simp] theorem acquireDin_regs {s : State} {n i : Nat} {q : Nat} {stamp : Instant} : (acquireDin s n i q stamp).regs = s.regs :=
  (congrArg State.regs (acquireDin_unit : State.unit (acquireDin s n i q stamp) = s.unit) :)
@[simp] theorem acquireDin_low64 {s : State} {n i : Nat} {q : Nat} {stamp : Instant} : (acquireDin s n i q stamp).low64 = s.low64 :=
  (congrArg State.low64 (acquireDin_unit : State.unit (acquireDin s n i q stamp) = s.unit) :)
@[simp] theorem acquireDin_high64 {s : State} {n i : Nat} {q : Nat} {stamp : Instant} : (acquireDin s n i q stamp).high64 = s.high64 :=
  (congrArg State.high64 (acquireDin_unit : State.unit (acquireDin s n i q stamp) = s.unit) :)
@[simp] theorem acquireDin_pins {s : State} {n i : Nat} {q : Nat} {stamp : Instant} : (acquireDin s n i q stamp).pins = s.pins :=
  (congrArg State.pins (acquireDin_unit : State.unit (acquireDin s n i q stamp) = s.unit) :)
@[simp] theorem acquireDin_ws {s : State} {n i : Nat} {q : Nat} {stamp : Instant} : (acquireDin s n i q stamp).ws = s.ws :=
  (congrArg State.ws (acquireDin_unit : State.unit (acquireDin s n i q stamp) = s.unit) :)
@[simp] theorem acquireDin_txns {s : State} {n i : Nat} {q : Nat} {stamp : Instant} : (acquireDin s n i q stamp).txns = s.txns :=
  (congrArg State.txns (acquireDin_unit : State.unit (acquireDin s n i q stamp) = s.unit) :)
@[simp] theorem acquireDin_nextTxn {s : State} {n i : Nat} {q : Nat} {stamp : Instant} : (acquireDin s n i q stamp).nextTxn = s.nextTxn :=
  (congrArg State.nextTxn (acquireDin_unit : State.unit (acquireDin s n i q stamp) = s.unit) :)
@[simp] theorem acquireDin_lastTxn {s : State} {n i : Nat} {q : Nat} {stamp : Instant} : (acquireDin s n i q stamp).lastTxn = s.lastTxn :=
  (congrArg State.lastTxn (acquireDin_unit : State.unit (acquireDin s n i q stamp) = s.unit) :)
@[simp] theorem acquireDin_time {s : State} {n i : Nat} {q : Nat} {stamp : Instant} : (acquireDin s n i q stamp).time = s.time :=
  (congrArg State.time (acquireDin_unit : State.unit (acquireDin s n i q stamp) = s.unit) :)
@[simp] theorem acquireDin_actions {s : State} {n i : Nat} {q : Nat} {stamp : Instant} : (acquireDin s n i q stamp).actions = s.actions :=
  (congrArg State.actions (acquireDin_unit : State.unit (acquireDin s n i q stamp) = s.unit) :)
@[simp] theorem acquireDin_fired {s : State} {n i : Nat} {q : Nat} {stamp : Instant} : (acquireDin s n i q stamp).fired = s.fired :=
  (congrArg State.fired (acquireDin_unit : State.unit (acquireDin s n i q stamp) = s.unit) :)
@[simp] theorem acquireDin_bkp {s : State} {n i : Nat} {q : Nat} {stamp : Instant} : (acquireDin s n i q stamp).bkp = s.bkp :=
  (congrArg State.bkp (acquireDin_unit : State.unit (acquireDin s n i q stamp) = s.unit) :)
@[simp] theorem acquireDin_vlt {s : State} {n i : Nat} {q : Nat} {stamp : Instant} : (acquireDin s n i q stamp).vlt = s.vlt :=
  (congrArg State.vlt (acquireDin_unit : State.unit (acquireDin s n i q stamp) = s.unit) :)
@[simp] theorem acquireDin_lc {s : State} {n i : Nat} {q : Nat} {stamp : Instant} : (acquireDin s n i q stamp).lc = s.lc :=
  (congrArg State.lc (acquireDin_unit : State.unit (acquireDin s n i q stamp) = s.unit) :)
@[simp] theorem acquireDin_upd {s : State} {n i : Nat} {q : Nat} {stamp : Instant} : (acquireDin s n i q stamp).upd = s.upd :=
  (congrArg State.upd (acquireDin_unit : State.unit (acquireDin s n i q stamp) = s.unit) :)
@[simp] theorem acquireDin_usb {s : State} {n i : Nat} {q : Nat} {stamp : Instant} : (acquireDin s n i q stamp).usb = s.usb :=
  (congrArg State.usb (acquireDin_unit : State.unit (acquireDin s n i q stamp) = s.unit) :)
@[simp] theorem acquireDin_vbus {s : State} {n i : Nat} {q : Nat} {stamp : Instant} : (acquireDin s n i q stamp).vbus = s.vbus :=
  (congrArg State.vbus (acquireDin_unit : State.unit (acquireDin s n i q stamp) = s.unit) :)
@[simp] theorem acquireDin_reg {s : State} {n i : Nat} {q : Nat} {stamp : Instant} {key : Nat} : (acquireDin s n i q stamp).reg key = s.reg key :=
  (congrArg (fun x => State.reg x key) (acquireDin_unit : State.unit (acquireDin s n i q stamp) = s.unit) :)

@[simp] theorem acquireCnt_pending {s : State} {n i : Nat} {q : Nat} {stamp : Instant} : (acquireCnt s n i q stamp).pending = s.pending :=
  (congrArg State.pending (acquireCnt_unit : State.unit (acquireCnt s n i q stamp) = s.unit) :)
@[simp] theorem acquireCnt_free {s : State} {n i : Nat} {q : Nat} {stamp : Instant} : (acquireCnt s n i q stamp).free = s.free :=
  (congrArg State.free (acquireCnt_unit : State.unit (acquireCnt s n i q stamp) = s.unit) :)
@[simp] theorem acquireCnt_ticks {s : State} {n i : Nat} {q : Nat} {stamp : Instant} : (acquireCnt s n i q stamp).ticks = s.ticks :=
  (congrArg State.ticks (acquireCnt_unit : State.unit (acquireCnt s n i q stamp) = s.unit) :)
@[simp] theorem acquireCnt_ident {s : State} {n i : Nat} {q : Nat} {stamp : Instant} : (acquireCnt s n i q stamp).ident = s.ident :=
  (congrArg State.ident (acquireCnt_unit : State.unit (acquireCnt s n i q stamp) = s.unit) :)
@[simp] theorem acquireCnt_regs {s : State} {n i : Nat} {q : Nat} {stamp : Instant} : (acquireCnt s n i q stamp).regs = s.regs :=
  (congrArg State.regs (acquireCnt_unit : State.unit (acquireCnt s n i q stamp) = s.unit) :)
@[simp] theorem acquireCnt_low64 {s : State} {n i : Nat} {q : Nat} {stamp : Instant} : (acquireCnt s n i q stamp).low64 = s.low64 :=
  (congrArg State.low64 (acquireCnt_unit : State.unit (acquireCnt s n i q stamp) = s.unit) :)
@[simp] theorem acquireCnt_high64 {s : State} {n i : Nat} {q : Nat} {stamp : Instant} : (acquireCnt s n i q stamp).high64 = s.high64 :=
  (congrArg State.high64 (acquireCnt_unit : State.unit (acquireCnt s n i q stamp) = s.unit) :)
@[simp] theorem acquireCnt_pins {s : State} {n i : Nat} {q : Nat} {stamp : Instant} : (acquireCnt s n i q stamp).pins = s.pins :=
  (congrArg State.pins (acquireCnt_unit : State.unit (acquireCnt s n i q stamp) = s.unit) :)
@[simp] theorem acquireCnt_ws {s : State} {n i : Nat} {q : Nat} {stamp : Instant} : (acquireCnt s n i q stamp).ws = s.ws :=
  (congrArg State.ws (acquireCnt_unit : State.unit (acquireCnt s n i q stamp) = s.unit) :)
@[simp] theorem acquireCnt_txns {s : State} {n i : Nat} {q : Nat} {stamp : Instant} : (acquireCnt s n i q stamp).txns = s.txns :=
  (congrArg State.txns (acquireCnt_unit : State.unit (acquireCnt s n i q stamp) = s.unit) :)
@[simp] theorem acquireCnt_nextTxn {s : State} {n i : Nat} {q : Nat} {stamp : Instant} : (acquireCnt s n i q stamp).nextTxn = s.nextTxn :=
  (congrArg State.nextTxn (acquireCnt_unit : State.unit (acquireCnt s n i q stamp) = s.unit) :)
@[simp] theorem acquireCnt_lastTxn {s : State} {n i : Nat} {q : Nat} {stamp : Instant} : (acquireCnt s n i q stamp).lastTxn = s.lastTxn :=
  (congrArg State.lastTxn (acquireCnt_unit : State.unit (acquireCnt s n i q stamp) = s.unit) :)
@[simp] theorem acquireCnt_time {s : State} {n i : Nat} {q : Nat} {stamp : Instant} : (acquireCnt s n i q stamp).time = s.time :=
  (congrArg State.time (acquireCnt_unit : State.unit (acquireCnt s n i q stamp) = s.unit) :)
@[simp] theorem acquireCnt_actions {s : State} {n i : Nat} {q : Nat} {stamp : Instant} : (acquireCnt s n i q stamp).actions = s.actions :=
  (congrArg State.actions (acquireCnt_unit : State.unit (acquireCnt s n i q stamp) = s.unit) :)
@[simp] theorem acquireCnt_fired {s : State} {n i : Nat} {q : Nat} {stamp : Instant} : (acquireCnt s n i q stamp).fired = s.fired :=
  (congrArg State.fired (acquireCnt_unit : State.unit (acquireCnt s n i q stamp) = s.unit) :)
@[simp] theorem acquireCnt_bkp {s : State} {n i : Nat} {q : Nat} {stamp : Instant} : (acquireCnt s n i q stamp).bkp = s.bkp :=
  (congrArg State.bkp (acquireCnt_unit : State.unit (acquireCnt s n i q stamp) = s.unit) :)
@[simp] theorem acquireCnt_vlt {s : State} {n i : Nat} {q : Nat} {stamp : Instant} : (acquireCnt s n i q stamp).vlt = s.vlt :=
  (congrArg State.vlt (acquireCnt_unit : State.unit (acquireCnt s n i q stamp) = s.unit) :)
@[simp] theorem acquireCnt_lc {s : State} {n i : Nat} {q : Nat} {stamp : Instant} : (acquireCnt s n i q stamp).lc = s.lc :=
  (congrArg State.lc (acquireCnt_unit : State.unit (acquireCnt s n i q stamp) = s.unit) :)
@[simp] theorem acquireCnt_upd {s : State} {n i : Nat} {q : Nat} {stamp : Instant} : (acquireCnt s n i q stamp).upd = s.upd :=
  (congrArg State.upd (acquireCnt_unit : State.unit (acquireCnt s n i q stamp) = s.unit) :)
@[simp] theorem acquireCnt_usb {s : State} {n i : Nat} {q : Nat} {stamp : Instant} : (acquireCnt s n i q stamp).usb = s.usb :=
  (congrArg State.usb (acquireCnt_unit : State.unit (acquireCnt s n i q stamp) = s.unit) :)
@[simp] theorem acquireCnt_vbus {s : State} {n i : Nat} {q : Nat} {stamp : Instant} : (acquireCnt s n i q stamp).vbus = s.vbus :=
  (congrArg State.vbus (acquireCnt_unit : State.unit (acquireCnt s n i q stamp) = s.unit) :)
@[simp] theorem acquireCnt_reg {s : State} {n i : Nat} {q : Nat} {stamp : Instant} {key : Nat} : (acquireCnt s n i q stamp).reg key = s.reg key :=
  (congrArg (fun x => State.reg x key) (acquireCnt_unit : State.unit (acquireCnt s n i q stamp) = s.unit) :)

@[simp] theorem acquireInputs_pending {s : State} {n : Nat} {q : Nat} : (acquireInputs s n q).pending = s.pending :=
  (congrArg State.pending (acquireInputs_unit : State.unit (acquireInputs s n q) = s.unit) :)
@[simp] theorem acquireInputs_free {s : State} {n : Nat} {q : Nat} : (acquireInputs s n q).free = s.free :=
  (congrArg State.free (acquireInputs_unit : State.unit (acquireInputs s n q) = s.unit) :)
@[simp] theorem acquireInputs_ticks {s : State} {n : Nat} {q : Nat} : (acquireInputs s n q).ticks = s.ticks :=
  (congrArg State.ticks (acquireInputs_unit : State.unit (acquireInputs s n q) = s.unit) :)
@[simp] theorem acquireInputs_ident {s : State} {n : Nat} {q : Nat} : (acquireInputs s n q).ident = s.ident :=
  (congrArg State.ident (acquireInputs_unit : State.unit (acquireInputs s n q) = s.unit) :)
@[simp] theorem acquireInputs_regs {s : State} {n : Nat} {q : Nat} : (acquireInputs s n q).regs = s.regs :=
  (congrArg State.regs (acquireInputs_unit : State.unit (acquireInputs s n q) = s.unit) :)
@[simp] theorem acquireInputs_low64 {s : State} {n : Nat} {q : Nat} : (acquireInputs s n q).low64 = s.low64 :=
  (congrArg State.low64 (acquireInputs_unit : State.unit (acquireInputs s n q) = s.unit) :)
@[simp] theorem acquireInputs_high64 {s : State} {n : Nat} {q : Nat} : (acquireInputs s n q).high64 = s.high64 :=
  (congrArg State.high64 (acquireInputs_unit : State.unit (acquireInputs s n q) = s.unit) :)
@[simp] theorem acquireInputs_pins {s : State} {n : Nat} {q : Nat} : (acquireInputs s n q).pins = s.pins :=
  (congrArg State.pins (acquireInputs_unit : State.unit (acquireInputs s n q) = s.unit) :)
@[simp] theorem acquireInputs_ws {s : State} {n : Nat} {q : Nat} : (acquireInputs s n q).ws = s.ws :=
  (congrArg State.ws (acquireInputs_unit : State.unit (acquireInputs s n q) = s.unit) :)
@[simp] theorem acquireInputs_txns {s : State} {n : Nat} {q : Nat} : (acquireInputs s n q).txns = s.txns :=
  (congrArg State.txns (acquireInputs_unit : State.unit (acquireInputs s n q) = s.unit) :)
@[simp] theorem acquireInputs_nextTxn {s : State} {n : Nat} {q : Nat} : (acquireInputs s n q).nextTxn = s.nextTxn :=
  (congrArg State.nextTxn (acquireInputs_unit : State.unit (acquireInputs s n q) = s.unit) :)
@[simp] theorem acquireInputs_lastTxn {s : State} {n : Nat} {q : Nat} : (acquireInputs s n q).lastTxn = s.lastTxn :=
  (congrArg State.lastTxn (acquireInputs_unit : State.unit (acquireInputs s n q) = s.unit) :)
@[simp] theorem acquireInputs_time {s : State} {n : Nat} {q : Nat} : (acquireInputs s n q).time = s.time :=
  (congrArg State.time (acquireInputs_unit : State.unit (acquireInputs s n q) = s.unit) :)
@[simp] theorem acquireInputs_actions {s : State} {n : Nat} {q : Nat} : (acquireInputs s n q).actions = s.actions :=
  (congrArg State.actions (acquireInputs_unit : State.unit (acquireInputs s n q) = s.unit) :)
@[simp] theorem acquireInputs_fired {s : State} {n : Nat} {q : Nat} : (acquireInputs s n q).fired = s.fired :=
  (congrArg State.fired (acquireInputs_unit : State.unit (acquireInputs s n q) = s.unit) :)
@[simp] theorem acquireInputs_bkp {s : State} {n : Nat} {q : Nat} : (acquireInputs s n q).bkp = s.bkp :=
  (congrArg State.bkp (acquireInputs_unit : State.unit (acquireInputs s n q) = s.unit) :)
@[simp] theorem acquireInputs_vlt {s : State} {n : Nat} {q : Nat} : (acquireInputs s n q).vlt = s.vlt :=
  (congrArg State.vlt (acquireInputs_unit : State.unit (acquireInputs s n q) = s.unit) :)
@[simp] theorem acquireInputs_lc {s : State} {n : Nat} {q : Nat} : (acquireInputs s n q).lc = s.lc :=
  (congrArg State.lc (acquireInputs_unit : State.unit (acquireInputs s n q) = s.unit) :)
@[simp] theorem acquireInputs_upd {s : State} {n : Nat} {q : Nat} : (acquireInputs s n q).upd = s.upd :=
  (congrArg State.upd (acquireInputs_unit : State.unit (acquireInputs s n q) = s.unit) :)
@[simp] theorem acquireInputs_usb {s : State} {n : Nat} {q : Nat} : (acquireInputs s n q).usb = s.usb :=
  (congrArg State.usb (acquireInputs_unit : State.unit (acquireInputs s n q) = s.unit) :)
@[simp] theorem acquireInputs_vbus {s : State} {n : Nat} {q : Nat} : (acquireInputs s n q).vbus = s.vbus :=
  (congrArg State.vbus (acquireInputs_unit : State.unit (acquireInputs s n q) = s.unit) :)
@[simp] theorem acquireInputs_reg {s : State} {n : Nat} {q : Nat} {key : Nat} : (acquireInputs s n q).reg key = s.reg key :=
  (congrArg (fun x => State.reg x key) (acquireInputs_unit : State.unit (acquireInputs s n q) = s.unit) :)

@[simp] theorem reacquireAin_pending {s : State} {n i : Nat} {q : Nat} : (reacquireAin s n i q).pending = s.pending :=
  (congrArg State.pending (reacquireAin_unit : State.unit (reacquireAin s n i q) = s.unit) :)
@[simp] theorem reacquireAin_free {s : State} {n i : Nat} {q : Nat} : (reacquireAin s n i q).free = s.free :=
  (congrArg State.free (reacquireAin_unit : State.unit (reacquireAin s n i q) = s.unit) :)
@[simp] theorem reacquireAin_ticks {s : State} {n i : Nat} {q : Nat} : (reacquireAin s n i q).ticks = s.ticks :=
  (congrArg State.ticks (reacquireAin_unit : State.unit (reacquireAin s n i q) = s.unit) :)
@[simp] theorem reacquireAin_ident {s : State} {n i : Nat} {q : Nat} : (reacquireAin s n i q).ident = s.ident :=
  (congrArg State.ident (reacquireAin_unit : State.unit (reacquireAin s n i q) = s.unit) :)
@[simp] theorem reacquireAin_regs {s : State} {n i : Nat} {q : Nat} : (reacquireAin s n i q).regs = s.regs :=
  (congrArg State.regs (reacquireAin_unit : State.unit (reacquireAin s n i q) = s.unit) :)
@[simp] theorem reacquireAin_low64 {s : State} {n i : Nat} {q : Nat} : (reacquireAin s n i q).low64 = s.low64 :=
  (congrArg State.low64 (reacquireAin_unit : State.unit (reacquireAin s n i q) = s.unit) :)
@[simp] theorem reacquireAin_high64 {s : State} {n i : Nat} {q : Nat} : (reacquireAin s n i q).high64 = s.high64 :=
  (congrArg State.high64 (reacquireAin_unit : State.unit (reacquireAin s n i q) = s.unit) :)
@[simp] theorem reacquireAin_pins {s : State} {n i : Nat} {q : Nat} : (reacquireAin s n i q).pins = s.pins :=
  (congrArg State.pins (reacquireAin_unit : State.unit (reacquireAin s n i q) = s.unit) :)
@[simp] theorem reacquireAin_ws {s : State} {n i : Nat} {q : Nat} : (reacquireAin s n i q).ws = s.ws :=
  (congrArg State.ws (reacquireAin_unit : State.unit (reacquireAin s n i q) = s.unit) :)
@[simp] theorem reacquireAin_txns {s : State} {n i : Nat} {q : Nat} : (reacquireAin s n i q).txns = s.txns :=
  (congrArg State.txns (reacquireAin_unit : State.unit (reacquireAin s n i q) = s.unit) :)
@[simp] theorem reacquireAin_nextTxn {s : State} {n i : Nat} {q : Nat} : (reacquireAin s n i q).nextTxn = s.nextTxn :=
  (congrArg State.nextTxn (reacquireAin_unit : State.unit (reacquireAin s n i q) = s.unit) :)
@[simp] theorem reacquireAin_lastTxn {s : State} {n i : Nat} {q : Nat} : (reacquireAin s n i q).lastTxn = s.lastTxn :=
  (congrArg State.lastTxn (reacquireAin_unit : State.unit (reacquireAin s n i q) = s.unit) :)
@[simp] theorem reacquireAin_time {s : State} {n i : Nat} {q : Nat} : (reacquireAin s n i q).time = s.time :=
  (congrArg State.time (reacquireAin_unit : State.unit (reacquireAin s n i q) = s.unit) :)
@[simp] theorem reacquireAin_actions {s : State} {n i : Nat} {q : Nat} : (reacquireAin s n i q).actions = s.actions :=
  (congrArg State.actions (reacquireAin_unit : State.unit (reacquireAin s n i q) = s.unit) :)
@[simp] theorem reacquireAin_fired {s : State} {n i : Nat} {q : Nat} : (reacquireAin s n i q).fired = s.fired :=
  (congrArg State.fired (reacquireAin_unit : State.unit (reacquireAin s n i q) = s.unit) :)
@[simp] theorem reacquireAin_bkp {s : State} {n i : Nat} {q : Nat} : (reacquireAin s n i q).bkp = s.bkp :=
  (congrArg State.bkp (reacquireAin_unit : State.unit (reacquireAin s n i q) = s.unit) :)
@[simp] theorem reacquireAin_vlt {s : State} {n i : Nat} {q : Nat} : (reacquireAin s n i q).vlt = s.vlt :=
  (congrArg State.vlt (reacquireAin_unit : State.unit (reacquireAin s n i q) = s.unit) :)
@[simp] theorem reacquireAin_lc {s : State} {n i : Nat} {q : Nat} : (reacquireAin s n i q).lc = s.lc :=
  (congrArg State.lc (reacquireAin_unit : State.unit (reacquireAin s n i q) = s.unit) :)
@[simp] theorem reacquireAin_upd {s : State} {n i : Nat} {q : Nat} : (reacquireAin s n i q).upd = s.upd :=
  (congrArg State.upd (reacquireAin_unit : State.unit (reacquireAin s n i q) = s.unit) :)
@[simp] theorem reacquireAin_usb {s : State} {n i : Nat} {q : Nat} : (reacquireAin s n i q).usb = s.usb :=
  (congrArg State.usb (reacquireAin_unit : State.unit (reacquireAin s n i q) = s.unit) :)
@[simp] theorem reacquireAin_vbus {s : State} {n i : Nat} {q : Nat} : (reacquireAin s n i q).vbus = s.vbus :=
  (congrArg State.vbus (reacquireAin_unit : State.unit (reacquireAin s n i q) = s.unit) :)
@[simp] theorem reacquireAin_reg {s : State} {n i : Nat} {q : Nat} {key : Nat} : (reacquireAin s n i q).reg key = s.reg key :=
  (congrArg (fun x => State.reg x key) (reacquireAin_unit : State.unit (reacquireAin s n i q) = s.unit) :)

@[simp] theorem acquireAin_pending {s : State} {n i range : Nat} {u m : Int} {bad : Bool} : (acquireAin s n i range u m bad).pending = s.pending :=
  (congrArg State.pending (acquireAin_unit : State.unit (acquireAin s n i range u m bad) = s.unit) :)
@[simp] theorem acquireAin_free {s : State} {n i range : Nat} {u m : Int} {bad : Bool} : (acquireAin s n i range u m bad).free = s.free :=
  (congrArg State.free (acquireAin_unit : State.unit (acquireAin s n i range u m bad) = s.unit) :)
@[simp] theorem acquireAin_ticks {s : State} {n i range : Nat} {u m : Int} {bad : Bool} : (acquireAin s n i range u m bad).ticks = s.ticks :=
  (congrArg State.ticks (acquireAin_unit : State.unit (acquireAin s n i range u m bad) = s.unit) :)
@[simp] theorem acquireAin_ident {s : State} {n i range : Nat} {u m : Int} {bad : Bool} : (acquireAin s n i range u m bad).ident = s.ident :=
  (congrArg State.ident (acquireAin_unit : State.unit (acquireAin s n i range u m bad) = s.unit) :)
@[simp] theorem acquireAin_regs {s : State} {n i range : Nat} {u m : Int} {bad : Bool} : (acquireAin s n i range u m bad).regs = s.regs :=
  (congrArg State.regs (acquireAin_unit : State.unit (acquireAin s n i range u m bad) = s.unit) :)
@[simp] theorem acquireAin_low64 {s : State} {n i range : Nat} {u m : Int} {bad : Bool} : (acquireAin s n i range u m bad).low64 = s.low64 :=
  (congrArg State.low64 (acquireAin_unit : State.unit (acquireAin s n i range u m bad) = s.unit) :)
@[simp] theorem acquireAin_high64 {s : State} {n i range : Nat} {u m : Int} {bad : Bool} : (acquireAin s n i range u m bad).high64 = s.high64 :=
  (congrArg State.high64 (acquireAin_unit : State.unit (acquireAin s n i range u m bad) = s.unit) :)
@[simp] theorem acquireAin_pins {s : State} {n i range : Nat} {u m : Int} {bad : Bool} : (acquireAin s n i range u m bad).pins = s.pins :=
  (congrArg State.pins (acquireAin_unit : State.unit (acquireAin s n i range u m bad) = s.unit) :)
@[simp] theorem acquireAin_ws {s : State} {n i range : Nat} {u m : Int} {bad : Bool} : (acquireAin s n i range u m bad).ws = s.ws :=
  (congrArg State.ws (acquireAin_unit : State.unit (acquireAin s n i range u m bad) = s.unit) :)
@[simp] theorem acquireAin_txns {s : State} {n i range : Nat} {u m : Int} {bad : Bool} : (acquireAin s n i range u m bad).txns = s.txns :=
  (congrArg State.txns (acquireAin_unit : State.unit (acquireAin s n i range u m bad) = s.unit) :)
@[simp] theorem acquireAin_nextTxn {s : State} {n i range : Nat} {u m : Int} {bad : Bool} : (acquireAin s n i range u m bad).nextTxn = s.nextTxn :=
  (congrArg State.nextTxn (acquireAin_unit : State.unit (acquireAin s n i range u m bad) = s.unit) :)
@[simp] theorem acquireAin_lastTxn {s : State} {n i range : Nat} {u m : Int} {bad : Bool} : (acquireAin s n i range u m bad).lastTxn = s.lastTxn :=
  (congrArg State.lastTxn (acquireAin_unit : State.unit (acquireAin s n i range u m bad) = s.unit) :)
@[simp] theorem acquireAin_time {s : State} {n i range : Nat} {u m : Int} {bad : Bool} : (acquireAin s n i range u m bad).time = s.time :=
  (congrArg State.time (acquireAin_unit : State.unit (acquireAin s n i range u m bad) = s.unit) :)
@[simp] theorem acquireAin_actions {s : State} {n i range : Nat} {u m : Int} {bad : Bool} : (acquireAin s n i range u m bad).actions = s.actions :=
  (congrArg State.actions (acquireAin_unit : State.unit (acquireAin s n i range u m bad) = s.unit) :)
@[simp] theorem acquireAin_fired {s : State} {n i range : Nat} {u m : Int} {bad : Bool} : (acquireAin s n i range u m bad).fired = s.fired :=
  (congrArg State.fired (acquireAin_unit : State.unit (acquireAin s n i range u m bad) = s.unit) :)
@[simp] theorem acquireAin_bkp {s : State} {n i range : Nat} {u m : Int} {bad : Bool} : (acquireAin s n i range u m bad).bkp = s.bkp :=
  (congrArg State.bkp (acquireAin_unit : State.unit (acquireAin s n i range u m bad) = s.unit) :)
@[simp] theorem acquireAin_vlt {s : State} {n i range : Nat} {u m : Int} {bad : Bool} : (acquireAin s n i range u m bad).vlt = s.vlt :=
  (congrArg State.vlt (acquireAin_unit : State.unit (acquireAin s n i range u m bad) = s.unit) :)
@[simp] theorem acquireAin_lc {s : State} {n i range : Nat} {u m : Int} {bad : Bool} : (acquireAin s n i range u m bad).lc = s.lc :=
  (congrArg State.lc (acquireAin_unit : State.unit (acquireAin s n i range u m bad) = s.unit) :)
@[simp] theorem acquireAin_upd {s : State} {n i range : Nat} {u m : Int} {bad : Bool} : (acquireAin s n i range u m bad).upd = s.upd :=
  (congrArg State.upd (acquireAin_unit : State.unit (acquireAin s n i range u m bad) = s.unit) :)
@[simp] theorem acquireAin_usb {s : State} {n i range : Nat} {u m : Int} {bad : Bool} : (acquireAin s n i range u m bad).usb = s.usb :=
  (congrArg State.usb (acquireAin_unit : State.unit (acquireAin s n i range u m bad) = s.unit) :)
@[simp] theorem acquireAin_vbus {s : State} {n i range : Nat} {u m : Int} {bad : Bool} : (acquireAin s n i range u m bad).vbus = s.vbus :=
  (congrArg State.vbus (acquireAin_unit : State.unit (acquireAin s n i range u m bad) = s.unit) :)
@[simp] theorem acquireAin_reg {s : State} {n i range : Nat} {u m : Int} {bad : Bool} {key : Nat} : (acquireAin s n i range u m bad).reg key = s.reg key :=
  (congrArg (fun x => State.reg x key) (acquireAin_unit : State.unit (acquireAin s n i range u m bad) = s.unit) :)

@[simp] theorem sendReport_pending {s : State} {n : Nat} {r : Report} : (sendReport s n r).pending = s.pending :=
  (congrArg State.pending (sendReport_unit : State.unit (sendReport s n r) = s.unit) :)
@[simp] theorem sendReport_free {s : State} {n : Nat} {r : Report} : (sendReport s n r).free = s.free :=
  (congrArg State.free (sendReport_unit : State.unit (sendReport s n r) = s.unit) :)
@[simp] theorem sendReport_ticks {s : State} {n : Nat} {r : Report} : (sendReport s n r).ticks = s.ticks :=
  (congrArg State.ticks (sendReport_unit : State.unit (sendReport s n r) = s.unit) :)
@[simp] theorem sendReport_ident {s : State} {n : Nat} {r : Report} : (sendReport s n r).ident = s.ident :=
  (congrArg State.ident (sendReport_unit : State.unit (sendReport s n r) = s.unit) :)
@[simp] theorem sendReport_regs {s : State} {n : Nat} {r : Report} : (sendReport s n r).regs = s.regs :=
  (congrArg State.regs (sendReport_unit : State.unit (sendReport s n r) = s.unit) :)
@[simp] theorem sendReport_low64 {s : State} {n : Nat} {r : Report} : (sendReport s n r).low64 = s.low64 :=
  (congrArg State.low64 (sendReport_unit : State.unit (sendReport s n r) = s.unit) :)
@[simp] theorem sendReport_high64 {s : State} {n : Nat} {r : Report} : (sendReport s n r).high64 = s.high64 :=
  (congrArg State.high64 (sendReport_unit : State.unit (sendReport s n r) = s.unit) :)
@[simp] theorem sendReport_pins {s : State} {n : Nat} {r : Report} : (sendReport s n r).pins = s.pins :=
  (congrArg State.pins (sendReport_unit : State.unit (sendReport s n r) = s.unit) :)
@[simp] theorem sendReport_ws {s : State} {n : Nat} {r : Report} : (sendReport s n r).ws = s.ws :=
  (congrArg State.ws (sendReport_unit : State.unit (sendReport s n r) = s.unit) :)
@[simp] theorem sendReport_txns {s : State} {n : Nat} {r : Report} : (sendReport s n r).txns = s.txns :=
  (congrArg State.txns (sendReport_unit : State.unit (sendReport s n r) = s.unit) :)
@[simp] theorem sendReport_nextTxn {s : State} {n : Nat} {r : Report} : (sendReport s n r).nextTxn = s.nextTxn :=
  (congrArg State.nextTxn (sendReport_unit : State.unit (sendReport s n r) = s.unit) :)
@[simp] theorem sendReport_lastTxn {s : State} {n : Nat} {r : Report} : (sendReport s n r).lastTxn = s.lastTxn :=
  (congrArg State.lastTxn (sendReport_unit : State.unit (sendReport s n r) = s.unit) :)
@[simp] theorem sendReport_time {s : State} {n : Nat} {r : Report} : (sendReport s n r).time = s.time :=
  (congrArg State.time (sendReport_unit : State.unit (sendReport s n r) = s.unit) :)
@[simp] theorem sendReport_actions {s : State} {n : Nat} {r : Report} : (sendReport s n r).actions = s.actions :=
  (congrArg State.actions (sendReport_unit : State.unit (sendReport s n r) = s.unit) :)
@[simp] theorem sendReport_fired {s : State} {n : Nat} {r : Report} : (sendReport s n r).fired = s.fired :=
  (congrArg State.fired (sendReport_unit : State.unit (sendReport s n r) = s.unit) :)
@[simp] theorem sendReport_bkp {s : State} {n : Nat} {r : Report} : (sendReport s n r).bkp = s.bkp :=
  (congrArg State.bkp (sendReport_unit : State.unit (sendReport s n r) = s.unit) :)
@[simp] theorem sendReport_vlt {s : State} {n : Nat} {r : Report} : (sendReport s n r).vlt = s.vlt :=
  (congrArg State.vlt (sendReport_unit : State.unit (sendReport s n r) = s.unit) :)
@[simp] theorem sendReport_lc {s : State} {n : Nat} {r : Report} : (sendReport s n r).lc = s.lc :=
  (congrArg State.lc (sendReport_unit : State.unit (sendReport s n r) = s.unit) :)
@[simp] theorem sendReport_upd {s : State} {n : Nat} {r : Report} : (sendReport s n r).upd = s.upd :=
  (congrArg State.upd (sendReport_unit : State.unit (sendReport s n r) = s.unit) :)
@[simp] theorem sendReport_usb {s : State} {n : Nat} {r : Report} : (sendReport s n r).usb = s.usb :=
  (congrArg State.usb (sendReport_unit : State.unit (sendReport s n r) = s.unit) :)
@[simp] theorem sendReport_vbus {s : State} {n : Nat} {r : Report} : (sendReport s n r).vbus = s.vbus :=
  (congrArg State.vbus (sendReport_unit : State.unit (sendReport s n r) = s.unit) :)
@[simp] theorem sendReport_reg {s : State} {n : Nat} {r : Report} {key : Nat} : (sendReport s n r).reg key = s.reg key :=
  (congrArg (fun x => State.reg x key) (sendReport_unit : State.unit (sendReport s n r) = s.unit) :)

@[simp] theorem chRaise_pending {s : State} {n b kind subject : Nat} {payload : List Byte} : (chRaise s n b kind subject payload).pending = s.pending :=
  (congrArg State.pending (chRaise_unit : State.unit (chRaise s n b kind subject payload) = s.unit) :)
@[simp] theorem chRaise_free {s : State} {n b kind subject : Nat} {payload : List Byte} : (chRaise s n b kind subject payload).free = s.free :=
  (congrArg State.free (chRaise_unit : State.unit (chRaise s n b kind subject payload) = s.unit) :)
@[simp] theorem chRaise_ticks {s : State} {n b kind subject : Nat} {payload : List Byte} : (chRaise s n b kind subject payload).ticks = s.ticks :=
  (congrArg State.ticks (chRaise_unit : State.unit (chRaise s n b kind subject payload) = s.unit) :)
@[simp] theorem chRaise_ident {s : State} {n b kind subject : Nat} {payload : List Byte} : (chRaise s n b kind subject payload).ident = s.ident :=
  (congrArg State.ident (chRaise_unit : State.unit (chRaise s n b kind subject payload) = s.unit) :)
@[simp] theorem chRaise_regs {s : State} {n b kind subject : Nat} {payload : List Byte} : (chRaise s n b kind subject payload).regs = s.regs :=
  (congrArg State.regs (chRaise_unit : State.unit (chRaise s n b kind subject payload) = s.unit) :)
@[simp] theorem chRaise_low64 {s : State} {n b kind subject : Nat} {payload : List Byte} : (chRaise s n b kind subject payload).low64 = s.low64 :=
  (congrArg State.low64 (chRaise_unit : State.unit (chRaise s n b kind subject payload) = s.unit) :)
@[simp] theorem chRaise_high64 {s : State} {n b kind subject : Nat} {payload : List Byte} : (chRaise s n b kind subject payload).high64 = s.high64 :=
  (congrArg State.high64 (chRaise_unit : State.unit (chRaise s n b kind subject payload) = s.unit) :)
@[simp] theorem chRaise_pins {s : State} {n b kind subject : Nat} {payload : List Byte} : (chRaise s n b kind subject payload).pins = s.pins :=
  (congrArg State.pins (chRaise_unit : State.unit (chRaise s n b kind subject payload) = s.unit) :)
@[simp] theorem chRaise_ws {s : State} {n b kind subject : Nat} {payload : List Byte} : (chRaise s n b kind subject payload).ws = s.ws :=
  (congrArg State.ws (chRaise_unit : State.unit (chRaise s n b kind subject payload) = s.unit) :)
@[simp] theorem chRaise_txns {s : State} {n b kind subject : Nat} {payload : List Byte} : (chRaise s n b kind subject payload).txns = s.txns :=
  (congrArg State.txns (chRaise_unit : State.unit (chRaise s n b kind subject payload) = s.unit) :)
@[simp] theorem chRaise_nextTxn {s : State} {n b kind subject : Nat} {payload : List Byte} : (chRaise s n b kind subject payload).nextTxn = s.nextTxn :=
  (congrArg State.nextTxn (chRaise_unit : State.unit (chRaise s n b kind subject payload) = s.unit) :)
@[simp] theorem chRaise_lastTxn {s : State} {n b kind subject : Nat} {payload : List Byte} : (chRaise s n b kind subject payload).lastTxn = s.lastTxn :=
  (congrArg State.lastTxn (chRaise_unit : State.unit (chRaise s n b kind subject payload) = s.unit) :)
@[simp] theorem chRaise_time {s : State} {n b kind subject : Nat} {payload : List Byte} : (chRaise s n b kind subject payload).time = s.time :=
  (congrArg State.time (chRaise_unit : State.unit (chRaise s n b kind subject payload) = s.unit) :)
@[simp] theorem chRaise_actions {s : State} {n b kind subject : Nat} {payload : List Byte} : (chRaise s n b kind subject payload).actions = s.actions :=
  (congrArg State.actions (chRaise_unit : State.unit (chRaise s n b kind subject payload) = s.unit) :)
@[simp] theorem chRaise_fired {s : State} {n b kind subject : Nat} {payload : List Byte} : (chRaise s n b kind subject payload).fired = s.fired :=
  (congrArg State.fired (chRaise_unit : State.unit (chRaise s n b kind subject payload) = s.unit) :)
@[simp] theorem chRaise_bkp {s : State} {n b kind subject : Nat} {payload : List Byte} : (chRaise s n b kind subject payload).bkp = s.bkp :=
  (congrArg State.bkp (chRaise_unit : State.unit (chRaise s n b kind subject payload) = s.unit) :)
@[simp] theorem chRaise_vlt {s : State} {n b kind subject : Nat} {payload : List Byte} : (chRaise s n b kind subject payload).vlt = s.vlt :=
  (congrArg State.vlt (chRaise_unit : State.unit (chRaise s n b kind subject payload) = s.unit) :)
@[simp] theorem chRaise_lc {s : State} {n b kind subject : Nat} {payload : List Byte} : (chRaise s n b kind subject payload).lc = s.lc :=
  (congrArg State.lc (chRaise_unit : State.unit (chRaise s n b kind subject payload) = s.unit) :)
@[simp] theorem chRaise_upd {s : State} {n b kind subject : Nat} {payload : List Byte} : (chRaise s n b kind subject payload).upd = s.upd :=
  (congrArg State.upd (chRaise_unit : State.unit (chRaise s n b kind subject payload) = s.unit) :)
@[simp] theorem chRaise_usb {s : State} {n b kind subject : Nat} {payload : List Byte} : (chRaise s n b kind subject payload).usb = s.usb :=
  (congrArg State.usb (chRaise_unit : State.unit (chRaise s n b kind subject payload) = s.unit) :)
@[simp] theorem chRaise_vbus {s : State} {n b kind subject : Nat} {payload : List Byte} : (chRaise s n b kind subject payload).vbus = s.vbus :=
  (congrArg State.vbus (chRaise_unit : State.unit (chRaise s n b kind subject payload) = s.unit) :)
@[simp] theorem chRaise_reg {s : State} {n b kind subject : Nat} {payload : List Byte} {key : Nat} : (chRaise s n b kind subject payload).reg key = s.reg key :=
  (congrArg (fun x => State.reg x key) (chRaise_unit : State.unit (chRaise s n b kind subject payload) = s.unit) :)

@[simp] theorem chRaiseBoth_pending {s : State} {n kind subject : Nat} {payload : List Byte} : (chRaiseBoth s n kind subject payload).pending = s.pending :=
  (congrArg State.pending (chRaiseBoth_unit : State.unit (chRaiseBoth s n kind subject payload) = s.unit) :)
@[simp] theorem chRaiseBoth_free {s : State} {n kind subject : Nat} {payload : List Byte} : (chRaiseBoth s n kind subject payload).free = s.free :=
  (congrArg State.free (chRaiseBoth_unit : State.unit (chRaiseBoth s n kind subject payload) = s.unit) :)
@[simp] theorem chRaiseBoth_ticks {s : State} {n kind subject : Nat} {payload : List Byte} : (chRaiseBoth s n kind subject payload).ticks = s.ticks :=
  (congrArg State.ticks (chRaiseBoth_unit : State.unit (chRaiseBoth s n kind subject payload) = s.unit) :)
@[simp] theorem chRaiseBoth_ident {s : State} {n kind subject : Nat} {payload : List Byte} : (chRaiseBoth s n kind subject payload).ident = s.ident :=
  (congrArg State.ident (chRaiseBoth_unit : State.unit (chRaiseBoth s n kind subject payload) = s.unit) :)
@[simp] theorem chRaiseBoth_regs {s : State} {n kind subject : Nat} {payload : List Byte} : (chRaiseBoth s n kind subject payload).regs = s.regs :=
  (congrArg State.regs (chRaiseBoth_unit : State.unit (chRaiseBoth s n kind subject payload) = s.unit) :)
@[simp] theorem chRaiseBoth_low64 {s : State} {n kind subject : Nat} {payload : List Byte} : (chRaiseBoth s n kind subject payload).low64 = s.low64 :=
  (congrArg State.low64 (chRaiseBoth_unit : State.unit (chRaiseBoth s n kind subject payload) = s.unit) :)
@[simp] theorem chRaiseBoth_high64 {s : State} {n kind subject : Nat} {payload : List Byte} : (chRaiseBoth s n kind subject payload).high64 = s.high64 :=
  (congrArg State.high64 (chRaiseBoth_unit : State.unit (chRaiseBoth s n kind subject payload) = s.unit) :)
@[simp] theorem chRaiseBoth_pins {s : State} {n kind subject : Nat} {payload : List Byte} : (chRaiseBoth s n kind subject payload).pins = s.pins :=
  (congrArg State.pins (chRaiseBoth_unit : State.unit (chRaiseBoth s n kind subject payload) = s.unit) :)
@[simp] theorem chRaiseBoth_ws {s : State} {n kind subject : Nat} {payload : List Byte} : (chRaiseBoth s n kind subject payload).ws = s.ws :=
  (congrArg State.ws (chRaiseBoth_unit : State.unit (chRaiseBoth s n kind subject payload) = s.unit) :)
@[simp] theorem chRaiseBoth_txns {s : State} {n kind subject : Nat} {payload : List Byte} : (chRaiseBoth s n kind subject payload).txns = s.txns :=
  (congrArg State.txns (chRaiseBoth_unit : State.unit (chRaiseBoth s n kind subject payload) = s.unit) :)
@[simp] theorem chRaiseBoth_nextTxn {s : State} {n kind subject : Nat} {payload : List Byte} : (chRaiseBoth s n kind subject payload).nextTxn = s.nextTxn :=
  (congrArg State.nextTxn (chRaiseBoth_unit : State.unit (chRaiseBoth s n kind subject payload) = s.unit) :)
@[simp] theorem chRaiseBoth_lastTxn {s : State} {n kind subject : Nat} {payload : List Byte} : (chRaiseBoth s n kind subject payload).lastTxn = s.lastTxn :=
  (congrArg State.lastTxn (chRaiseBoth_unit : State.unit (chRaiseBoth s n kind subject payload) = s.unit) :)
@[simp] theorem chRaiseBoth_time {s : State} {n kind subject : Nat} {payload : List Byte} : (chRaiseBoth s n kind subject payload).time = s.time :=
  (congrArg State.time (chRaiseBoth_unit : State.unit (chRaiseBoth s n kind subject payload) = s.unit) :)
@[simp] theorem chRaiseBoth_actions {s : State} {n kind subject : Nat} {payload : List Byte} : (chRaiseBoth s n kind subject payload).actions = s.actions :=
  (congrArg State.actions (chRaiseBoth_unit : State.unit (chRaiseBoth s n kind subject payload) = s.unit) :)
@[simp] theorem chRaiseBoth_fired {s : State} {n kind subject : Nat} {payload : List Byte} : (chRaiseBoth s n kind subject payload).fired = s.fired :=
  (congrArg State.fired (chRaiseBoth_unit : State.unit (chRaiseBoth s n kind subject payload) = s.unit) :)
@[simp] theorem chRaiseBoth_bkp {s : State} {n kind subject : Nat} {payload : List Byte} : (chRaiseBoth s n kind subject payload).bkp = s.bkp :=
  (congrArg State.bkp (chRaiseBoth_unit : State.unit (chRaiseBoth s n kind subject payload) = s.unit) :)
@[simp] theorem chRaiseBoth_vlt {s : State} {n kind subject : Nat} {payload : List Byte} : (chRaiseBoth s n kind subject payload).vlt = s.vlt :=
  (congrArg State.vlt (chRaiseBoth_unit : State.unit (chRaiseBoth s n kind subject payload) = s.unit) :)
@[simp] theorem chRaiseBoth_lc {s : State} {n kind subject : Nat} {payload : List Byte} : (chRaiseBoth s n kind subject payload).lc = s.lc :=
  (congrArg State.lc (chRaiseBoth_unit : State.unit (chRaiseBoth s n kind subject payload) = s.unit) :)
@[simp] theorem chRaiseBoth_upd {s : State} {n kind subject : Nat} {payload : List Byte} : (chRaiseBoth s n kind subject payload).upd = s.upd :=
  (congrArg State.upd (chRaiseBoth_unit : State.unit (chRaiseBoth s n kind subject payload) = s.unit) :)
@[simp] theorem chRaiseBoth_usb {s : State} {n kind subject : Nat} {payload : List Byte} : (chRaiseBoth s n kind subject payload).usb = s.usb :=
  (congrArg State.usb (chRaiseBoth_unit : State.unit (chRaiseBoth s n kind subject payload) = s.unit) :)
@[simp] theorem chRaiseBoth_vbus {s : State} {n kind subject : Nat} {payload : List Byte} : (chRaiseBoth s n kind subject payload).vbus = s.vbus :=
  (congrArg State.vbus (chRaiseBoth_unit : State.unit (chRaiseBoth s n kind subject payload) = s.unit) :)
@[simp] theorem chRaiseBoth_reg {s : State} {n kind subject : Nat} {payload : List Byte} {key : Nat} : (chRaiseBoth s n kind subject payload).reg key = s.reg key :=
  (congrArg (fun x => State.reg x key) (chRaiseBoth_unit : State.unit (chRaiseBoth s n kind subject payload) = s.unit) :)

@[simp] theorem frameEnds_pending {s : State} {n : Nat} {f : TxFrame} {status detail : Nat} {tsq : Bool} {info : Word} : (frameEnds s n f status detail tsq info).pending = s.pending :=
  (congrArg State.pending (frameEnds_unit : State.unit (frameEnds s n f status detail tsq info) = s.unit) :)
@[simp] theorem frameEnds_free {s : State} {n : Nat} {f : TxFrame} {status detail : Nat} {tsq : Bool} {info : Word} : (frameEnds s n f status detail tsq info).free = s.free :=
  (congrArg State.free (frameEnds_unit : State.unit (frameEnds s n f status detail tsq info) = s.unit) :)
@[simp] theorem frameEnds_ticks {s : State} {n : Nat} {f : TxFrame} {status detail : Nat} {tsq : Bool} {info : Word} : (frameEnds s n f status detail tsq info).ticks = s.ticks :=
  (congrArg State.ticks (frameEnds_unit : State.unit (frameEnds s n f status detail tsq info) = s.unit) :)
@[simp] theorem frameEnds_ident {s : State} {n : Nat} {f : TxFrame} {status detail : Nat} {tsq : Bool} {info : Word} : (frameEnds s n f status detail tsq info).ident = s.ident :=
  (congrArg State.ident (frameEnds_unit : State.unit (frameEnds s n f status detail tsq info) = s.unit) :)
@[simp] theorem frameEnds_regs {s : State} {n : Nat} {f : TxFrame} {status detail : Nat} {tsq : Bool} {info : Word} : (frameEnds s n f status detail tsq info).regs = s.regs :=
  (congrArg State.regs (frameEnds_unit : State.unit (frameEnds s n f status detail tsq info) = s.unit) :)
@[simp] theorem frameEnds_low64 {s : State} {n : Nat} {f : TxFrame} {status detail : Nat} {tsq : Bool} {info : Word} : (frameEnds s n f status detail tsq info).low64 = s.low64 :=
  (congrArg State.low64 (frameEnds_unit : State.unit (frameEnds s n f status detail tsq info) = s.unit) :)
@[simp] theorem frameEnds_high64 {s : State} {n : Nat} {f : TxFrame} {status detail : Nat} {tsq : Bool} {info : Word} : (frameEnds s n f status detail tsq info).high64 = s.high64 :=
  (congrArg State.high64 (frameEnds_unit : State.unit (frameEnds s n f status detail tsq info) = s.unit) :)
@[simp] theorem frameEnds_pins {s : State} {n : Nat} {f : TxFrame} {status detail : Nat} {tsq : Bool} {info : Word} : (frameEnds s n f status detail tsq info).pins = s.pins :=
  (congrArg State.pins (frameEnds_unit : State.unit (frameEnds s n f status detail tsq info) = s.unit) :)
@[simp] theorem frameEnds_ws {s : State} {n : Nat} {f : TxFrame} {status detail : Nat} {tsq : Bool} {info : Word} : (frameEnds s n f status detail tsq info).ws = s.ws :=
  (congrArg State.ws (frameEnds_unit : State.unit (frameEnds s n f status detail tsq info) = s.unit) :)
@[simp] theorem frameEnds_txns {s : State} {n : Nat} {f : TxFrame} {status detail : Nat} {tsq : Bool} {info : Word} : (frameEnds s n f status detail tsq info).txns = s.txns :=
  (congrArg State.txns (frameEnds_unit : State.unit (frameEnds s n f status detail tsq info) = s.unit) :)
@[simp] theorem frameEnds_nextTxn {s : State} {n : Nat} {f : TxFrame} {status detail : Nat} {tsq : Bool} {info : Word} : (frameEnds s n f status detail tsq info).nextTxn = s.nextTxn :=
  (congrArg State.nextTxn (frameEnds_unit : State.unit (frameEnds s n f status detail tsq info) = s.unit) :)
@[simp] theorem frameEnds_lastTxn {s : State} {n : Nat} {f : TxFrame} {status detail : Nat} {tsq : Bool} {info : Word} : (frameEnds s n f status detail tsq info).lastTxn = s.lastTxn :=
  (congrArg State.lastTxn (frameEnds_unit : State.unit (frameEnds s n f status detail tsq info) = s.unit) :)
@[simp] theorem frameEnds_time {s : State} {n : Nat} {f : TxFrame} {status detail : Nat} {tsq : Bool} {info : Word} : (frameEnds s n f status detail tsq info).time = s.time :=
  (congrArg State.time (frameEnds_unit : State.unit (frameEnds s n f status detail tsq info) = s.unit) :)
@[simp] theorem frameEnds_actions {s : State} {n : Nat} {f : TxFrame} {status detail : Nat} {tsq : Bool} {info : Word} : (frameEnds s n f status detail tsq info).actions = s.actions :=
  (congrArg State.actions (frameEnds_unit : State.unit (frameEnds s n f status detail tsq info) = s.unit) :)
@[simp] theorem frameEnds_fired {s : State} {n : Nat} {f : TxFrame} {status detail : Nat} {tsq : Bool} {info : Word} : (frameEnds s n f status detail tsq info).fired = s.fired :=
  (congrArg State.fired (frameEnds_unit : State.unit (frameEnds s n f status detail tsq info) = s.unit) :)
@[simp] theorem frameEnds_bkp {s : State} {n : Nat} {f : TxFrame} {status detail : Nat} {tsq : Bool} {info : Word} : (frameEnds s n f status detail tsq info).bkp = s.bkp :=
  (congrArg State.bkp (frameEnds_unit : State.unit (frameEnds s n f status detail tsq info) = s.unit) :)
@[simp] theorem frameEnds_vlt {s : State} {n : Nat} {f : TxFrame} {status detail : Nat} {tsq : Bool} {info : Word} : (frameEnds s n f status detail tsq info).vlt = s.vlt :=
  (congrArg State.vlt (frameEnds_unit : State.unit (frameEnds s n f status detail tsq info) = s.unit) :)
@[simp] theorem frameEnds_lc {s : State} {n : Nat} {f : TxFrame} {status detail : Nat} {tsq : Bool} {info : Word} : (frameEnds s n f status detail tsq info).lc = s.lc :=
  (congrArg State.lc (frameEnds_unit : State.unit (frameEnds s n f status detail tsq info) = s.unit) :)
@[simp] theorem frameEnds_upd {s : State} {n : Nat} {f : TxFrame} {status detail : Nat} {tsq : Bool} {info : Word} : (frameEnds s n f status detail tsq info).upd = s.upd :=
  (congrArg State.upd (frameEnds_unit : State.unit (frameEnds s n f status detail tsq info) = s.unit) :)
@[simp] theorem frameEnds_usb {s : State} {n : Nat} {f : TxFrame} {status detail : Nat} {tsq : Bool} {info : Word} : (frameEnds s n f status detail tsq info).usb = s.usb :=
  (congrArg State.usb (frameEnds_unit : State.unit (frameEnds s n f status detail tsq info) = s.unit) :)
@[simp] theorem frameEnds_vbus {s : State} {n : Nat} {f : TxFrame} {status detail : Nat} {tsq : Bool} {info : Word} : (frameEnds s n f status detail tsq info).vbus = s.vbus :=
  (congrArg State.vbus (frameEnds_unit : State.unit (frameEnds s n f status detail tsq info) = s.unit) :)
@[simp] theorem frameEnds_reg {s : State} {n : Nat} {f : TxFrame} {status detail : Nat} {tsq : Bool} {info : Word} {key : Nat} : (frameEnds s n f status detail tsq info).reg key = s.reg key :=
  (congrArg (fun x => State.reg x key) (frameEnds_unit : State.unit (frameEnds s n f status detail tsq info) = s.unit) :)

@[simp] theorem endFrames_pending {s : State} {n : Nat} {fs : List TxFrame} {status detail req : Nat} : (endFrames s n fs status detail req).pending = s.pending :=
  (congrArg State.pending (endFrames_unit : State.unit (endFrames s n fs status detail req) = s.unit) :)
@[simp] theorem endFrames_free {s : State} {n : Nat} {fs : List TxFrame} {status detail req : Nat} : (endFrames s n fs status detail req).free = s.free :=
  (congrArg State.free (endFrames_unit : State.unit (endFrames s n fs status detail req) = s.unit) :)
@[simp] theorem endFrames_ticks {s : State} {n : Nat} {fs : List TxFrame} {status detail req : Nat} : (endFrames s n fs status detail req).ticks = s.ticks :=
  (congrArg State.ticks (endFrames_unit : State.unit (endFrames s n fs status detail req) = s.unit) :)
@[simp] theorem endFrames_ident {s : State} {n : Nat} {fs : List TxFrame} {status detail req : Nat} : (endFrames s n fs status detail req).ident = s.ident :=
  (congrArg State.ident (endFrames_unit : State.unit (endFrames s n fs status detail req) = s.unit) :)
@[simp] theorem endFrames_regs {s : State} {n : Nat} {fs : List TxFrame} {status detail req : Nat} : (endFrames s n fs status detail req).regs = s.regs :=
  (congrArg State.regs (endFrames_unit : State.unit (endFrames s n fs status detail req) = s.unit) :)
@[simp] theorem endFrames_low64 {s : State} {n : Nat} {fs : List TxFrame} {status detail req : Nat} : (endFrames s n fs status detail req).low64 = s.low64 :=
  (congrArg State.low64 (endFrames_unit : State.unit (endFrames s n fs status detail req) = s.unit) :)
@[simp] theorem endFrames_high64 {s : State} {n : Nat} {fs : List TxFrame} {status detail req : Nat} : (endFrames s n fs status detail req).high64 = s.high64 :=
  (congrArg State.high64 (endFrames_unit : State.unit (endFrames s n fs status detail req) = s.unit) :)
@[simp] theorem endFrames_pins {s : State} {n : Nat} {fs : List TxFrame} {status detail req : Nat} : (endFrames s n fs status detail req).pins = s.pins :=
  (congrArg State.pins (endFrames_unit : State.unit (endFrames s n fs status detail req) = s.unit) :)
@[simp] theorem endFrames_ws {s : State} {n : Nat} {fs : List TxFrame} {status detail req : Nat} : (endFrames s n fs status detail req).ws = s.ws :=
  (congrArg State.ws (endFrames_unit : State.unit (endFrames s n fs status detail req) = s.unit) :)
@[simp] theorem endFrames_txns {s : State} {n : Nat} {fs : List TxFrame} {status detail req : Nat} : (endFrames s n fs status detail req).txns = s.txns :=
  (congrArg State.txns (endFrames_unit : State.unit (endFrames s n fs status detail req) = s.unit) :)
@[simp] theorem endFrames_nextTxn {s : State} {n : Nat} {fs : List TxFrame} {status detail req : Nat} : (endFrames s n fs status detail req).nextTxn = s.nextTxn :=
  (congrArg State.nextTxn (endFrames_unit : State.unit (endFrames s n fs status detail req) = s.unit) :)
@[simp] theorem endFrames_lastTxn {s : State} {n : Nat} {fs : List TxFrame} {status detail req : Nat} : (endFrames s n fs status detail req).lastTxn = s.lastTxn :=
  (congrArg State.lastTxn (endFrames_unit : State.unit (endFrames s n fs status detail req) = s.unit) :)
@[simp] theorem endFrames_time {s : State} {n : Nat} {fs : List TxFrame} {status detail req : Nat} : (endFrames s n fs status detail req).time = s.time :=
  (congrArg State.time (endFrames_unit : State.unit (endFrames s n fs status detail req) = s.unit) :)
@[simp] theorem endFrames_actions {s : State} {n : Nat} {fs : List TxFrame} {status detail req : Nat} : (endFrames s n fs status detail req).actions = s.actions :=
  (congrArg State.actions (endFrames_unit : State.unit (endFrames s n fs status detail req) = s.unit) :)
@[simp] theorem endFrames_fired {s : State} {n : Nat} {fs : List TxFrame} {status detail req : Nat} : (endFrames s n fs status detail req).fired = s.fired :=
  (congrArg State.fired (endFrames_unit : State.unit (endFrames s n fs status detail req) = s.unit) :)
@[simp] theorem endFrames_bkp {s : State} {n : Nat} {fs : List TxFrame} {status detail req : Nat} : (endFrames s n fs status detail req).bkp = s.bkp :=
  (congrArg State.bkp (endFrames_unit : State.unit (endFrames s n fs status detail req) = s.unit) :)
@[simp] theorem endFrames_vlt {s : State} {n : Nat} {fs : List TxFrame} {status detail req : Nat} : (endFrames s n fs status detail req).vlt = s.vlt :=
  (congrArg State.vlt (endFrames_unit : State.unit (endFrames s n fs status detail req) = s.unit) :)
@[simp] theorem endFrames_lc {s : State} {n : Nat} {fs : List TxFrame} {status detail req : Nat} : (endFrames s n fs status detail req).lc = s.lc :=
  (congrArg State.lc (endFrames_unit : State.unit (endFrames s n fs status detail req) = s.unit) :)
@[simp] theorem endFrames_upd {s : State} {n : Nat} {fs : List TxFrame} {status detail req : Nat} : (endFrames s n fs status detail req).upd = s.upd :=
  (congrArg State.upd (endFrames_unit : State.unit (endFrames s n fs status detail req) = s.unit) :)
@[simp] theorem endFrames_usb {s : State} {n : Nat} {fs : List TxFrame} {status detail req : Nat} : (endFrames s n fs status detail req).usb = s.usb :=
  (congrArg State.usb (endFrames_unit : State.unit (endFrames s n fs status detail req) = s.unit) :)
@[simp] theorem endFrames_vbus {s : State} {n : Nat} {fs : List TxFrame} {status detail req : Nat} : (endFrames s n fs status detail req).vbus = s.vbus :=
  (congrArg State.vbus (endFrames_unit : State.unit (endFrames s n fs status detail req) = s.unit) :)
@[simp] theorem endFrames_reg {s : State} {n : Nat} {fs : List TxFrame} {status detail req : Nat} {key : Nat} : (endFrames s n fs status detail req).reg key = s.reg key :=
  (congrArg (fun x => State.reg x key) (endFrames_unit : State.unit (endFrames s n fs status detail req) = s.unit) :)

@[simp] theorem markStale_pending {s : State} {n : Nat} : (markStale s n).pending = s.pending :=
  (congrArg State.pending (markStale_unit : State.unit (markStale s n) = s.unit) :)
@[simp] theorem markStale_free {s : State} {n : Nat} : (markStale s n).free = s.free :=
  (congrArg State.free (markStale_unit : State.unit (markStale s n) = s.unit) :)
@[simp] theorem markStale_ticks {s : State} {n : Nat} : (markStale s n).ticks = s.ticks :=
  (congrArg State.ticks (markStale_unit : State.unit (markStale s n) = s.unit) :)
@[simp] theorem markStale_ident {s : State} {n : Nat} : (markStale s n).ident = s.ident :=
  (congrArg State.ident (markStale_unit : State.unit (markStale s n) = s.unit) :)
@[simp] theorem markStale_regs {s : State} {n : Nat} : (markStale s n).regs = s.regs :=
  (congrArg State.regs (markStale_unit : State.unit (markStale s n) = s.unit) :)
@[simp] theorem markStale_low64 {s : State} {n : Nat} : (markStale s n).low64 = s.low64 :=
  (congrArg State.low64 (markStale_unit : State.unit (markStale s n) = s.unit) :)
@[simp] theorem markStale_high64 {s : State} {n : Nat} : (markStale s n).high64 = s.high64 :=
  (congrArg State.high64 (markStale_unit : State.unit (markStale s n) = s.unit) :)
@[simp] theorem markStale_pins {s : State} {n : Nat} : (markStale s n).pins = s.pins :=
  (congrArg State.pins (markStale_unit : State.unit (markStale s n) = s.unit) :)
@[simp] theorem markStale_ws {s : State} {n : Nat} : (markStale s n).ws = s.ws :=
  (congrArg State.ws (markStale_unit : State.unit (markStale s n) = s.unit) :)
@[simp] theorem markStale_txns {s : State} {n : Nat} : (markStale s n).txns = s.txns :=
  (congrArg State.txns (markStale_unit : State.unit (markStale s n) = s.unit) :)
@[simp] theorem markStale_nextTxn {s : State} {n : Nat} : (markStale s n).nextTxn = s.nextTxn :=
  (congrArg State.nextTxn (markStale_unit : State.unit (markStale s n) = s.unit) :)
@[simp] theorem markStale_lastTxn {s : State} {n : Nat} : (markStale s n).lastTxn = s.lastTxn :=
  (congrArg State.lastTxn (markStale_unit : State.unit (markStale s n) = s.unit) :)
@[simp] theorem markStale_time {s : State} {n : Nat} : (markStale s n).time = s.time :=
  (congrArg State.time (markStale_unit : State.unit (markStale s n) = s.unit) :)
@[simp] theorem markStale_actions {s : State} {n : Nat} : (markStale s n).actions = s.actions :=
  (congrArg State.actions (markStale_unit : State.unit (markStale s n) = s.unit) :)
@[simp] theorem markStale_fired {s : State} {n : Nat} : (markStale s n).fired = s.fired :=
  (congrArg State.fired (markStale_unit : State.unit (markStale s n) = s.unit) :)
@[simp] theorem markStale_bkp {s : State} {n : Nat} : (markStale s n).bkp = s.bkp :=
  (congrArg State.bkp (markStale_unit : State.unit (markStale s n) = s.unit) :)
@[simp] theorem markStale_vlt {s : State} {n : Nat} : (markStale s n).vlt = s.vlt :=
  (congrArg State.vlt (markStale_unit : State.unit (markStale s n) = s.unit) :)
@[simp] theorem markStale_lc {s : State} {n : Nat} : (markStale s n).lc = s.lc :=
  (congrArg State.lc (markStale_unit : State.unit (markStale s n) = s.unit) :)
@[simp] theorem markStale_upd {s : State} {n : Nat} : (markStale s n).upd = s.upd :=
  (congrArg State.upd (markStale_unit : State.unit (markStale s n) = s.unit) :)
@[simp] theorem markStale_usb {s : State} {n : Nat} : (markStale s n).usb = s.usb :=
  (congrArg State.usb (markStale_unit : State.unit (markStale s n) = s.unit) :)
@[simp] theorem markStale_vbus {s : State} {n : Nat} : (markStale s n).vbus = s.vbus :=
  (congrArg State.vbus (markStale_unit : State.unit (markStale s n) = s.unit) :)
@[simp] theorem markStale_reg {s : State} {n : Nat} {key : Nat} : (markStale s n).reg key = s.reg key :=
  (congrArg (fun x => State.reg x key) (markStale_unit : State.unit (markStale s n) = s.unit) :)

@[simp] theorem enterEntry_pending {s : State} {t i : Nat} {e : Entry} : (enterEntry s t i e).pending = s.pending :=
  (congrArg State.pending (enterEntry_unit : State.unit (enterEntry s t i e) = s.unit) :)
@[simp] theorem enterEntry_free {s : State} {t i : Nat} {e : Entry} : (enterEntry s t i e).free = s.free :=
  (congrArg State.free (enterEntry_unit : State.unit (enterEntry s t i e) = s.unit) :)
@[simp] theorem enterEntry_ticks {s : State} {t i : Nat} {e : Entry} : (enterEntry s t i e).ticks = s.ticks :=
  (congrArg State.ticks (enterEntry_unit : State.unit (enterEntry s t i e) = s.unit) :)
@[simp] theorem enterEntry_ident {s : State} {t i : Nat} {e : Entry} : (enterEntry s t i e).ident = s.ident :=
  (congrArg State.ident (enterEntry_unit : State.unit (enterEntry s t i e) = s.unit) :)
@[simp] theorem enterEntry_regs {s : State} {t i : Nat} {e : Entry} : (enterEntry s t i e).regs = s.regs :=
  (congrArg State.regs (enterEntry_unit : State.unit (enterEntry s t i e) = s.unit) :)
@[simp] theorem enterEntry_low64 {s : State} {t i : Nat} {e : Entry} : (enterEntry s t i e).low64 = s.low64 :=
  (congrArg State.low64 (enterEntry_unit : State.unit (enterEntry s t i e) = s.unit) :)
@[simp] theorem enterEntry_high64 {s : State} {t i : Nat} {e : Entry} : (enterEntry s t i e).high64 = s.high64 :=
  (congrArg State.high64 (enterEntry_unit : State.unit (enterEntry s t i e) = s.unit) :)
@[simp] theorem enterEntry_pins {s : State} {t i : Nat} {e : Entry} : (enterEntry s t i e).pins = s.pins :=
  (congrArg State.pins (enterEntry_unit : State.unit (enterEntry s t i e) = s.unit) :)
@[simp] theorem enterEntry_ws {s : State} {t i : Nat} {e : Entry} : (enterEntry s t i e).ws = s.ws :=
  (congrArg State.ws (enterEntry_unit : State.unit (enterEntry s t i e) = s.unit) :)
@[simp] theorem enterEntry_txns {s : State} {t i : Nat} {e : Entry} : (enterEntry s t i e).txns = s.txns :=
  (congrArg State.txns (enterEntry_unit : State.unit (enterEntry s t i e) = s.unit) :)
@[simp] theorem enterEntry_nextTxn {s : State} {t i : Nat} {e : Entry} : (enterEntry s t i e).nextTxn = s.nextTxn :=
  (congrArg State.nextTxn (enterEntry_unit : State.unit (enterEntry s t i e) = s.unit) :)
@[simp] theorem enterEntry_lastTxn {s : State} {t i : Nat} {e : Entry} : (enterEntry s t i e).lastTxn = s.lastTxn :=
  (congrArg State.lastTxn (enterEntry_unit : State.unit (enterEntry s t i e) = s.unit) :)
@[simp] theorem enterEntry_time {s : State} {t i : Nat} {e : Entry} : (enterEntry s t i e).time = s.time :=
  (congrArg State.time (enterEntry_unit : State.unit (enterEntry s t i e) = s.unit) :)
@[simp] theorem enterEntry_actions {s : State} {t i : Nat} {e : Entry} : (enterEntry s t i e).actions = s.actions :=
  (congrArg State.actions (enterEntry_unit : State.unit (enterEntry s t i e) = s.unit) :)
@[simp] theorem enterEntry_fired {s : State} {t i : Nat} {e : Entry} : (enterEntry s t i e).fired = s.fired :=
  (congrArg State.fired (enterEntry_unit : State.unit (enterEntry s t i e) = s.unit) :)
@[simp] theorem enterEntry_bkp {s : State} {t i : Nat} {e : Entry} : (enterEntry s t i e).bkp = s.bkp :=
  (congrArg State.bkp (enterEntry_unit : State.unit (enterEntry s t i e) = s.unit) :)
@[simp] theorem enterEntry_vlt {s : State} {t i : Nat} {e : Entry} : (enterEntry s t i e).vlt = s.vlt :=
  (congrArg State.vlt (enterEntry_unit : State.unit (enterEntry s t i e) = s.unit) :)
@[simp] theorem enterEntry_lc {s : State} {t i : Nat} {e : Entry} : (enterEntry s t i e).lc = s.lc :=
  (congrArg State.lc (enterEntry_unit : State.unit (enterEntry s t i e) = s.unit) :)
@[simp] theorem enterEntry_upd {s : State} {t i : Nat} {e : Entry} : (enterEntry s t i e).upd = s.upd :=
  (congrArg State.upd (enterEntry_unit : State.unit (enterEntry s t i e) = s.unit) :)
@[simp] theorem enterEntry_usb {s : State} {t i : Nat} {e : Entry} : (enterEntry s t i e).usb = s.usb :=
  (congrArg State.usb (enterEntry_unit : State.unit (enterEntry s t i e) = s.unit) :)
@[simp] theorem enterEntry_vbus {s : State} {t i : Nat} {e : Entry} : (enterEntry s t i e).vbus = s.vbus :=
  (congrArg State.vbus (enterEntry_unit : State.unit (enterEntry s t i e) = s.unit) :)
@[simp] theorem enterEntry_reg {s : State} {t i : Nat} {e : Entry} {key : Nat} : (enterEntry s t i e).reg key = s.reg key :=
  (congrArg (fun x => State.reg x key) (enterEntry_unit : State.unit (enterEntry s t i e) = s.unit) :)

@[simp] theorem cancelEntry_pending {s : State} {t i : Nat} {e : Entry} {detail : Nat} : (cancelEntry s t i e detail).pending = s.pending :=
  (congrArg State.pending (cancelEntry_unit : State.unit (cancelEntry s t i e detail) = s.unit) :)
@[simp] theorem cancelEntry_free {s : State} {t i : Nat} {e : Entry} {detail : Nat} : (cancelEntry s t i e detail).free = s.free :=
  (congrArg State.free (cancelEntry_unit : State.unit (cancelEntry s t i e detail) = s.unit) :)
@[simp] theorem cancelEntry_ticks {s : State} {t i : Nat} {e : Entry} {detail : Nat} : (cancelEntry s t i e detail).ticks = s.ticks :=
  (congrArg State.ticks (cancelEntry_unit : State.unit (cancelEntry s t i e detail) = s.unit) :)
@[simp] theorem cancelEntry_ident {s : State} {t i : Nat} {e : Entry} {detail : Nat} : (cancelEntry s t i e detail).ident = s.ident :=
  (congrArg State.ident (cancelEntry_unit : State.unit (cancelEntry s t i e detail) = s.unit) :)
@[simp] theorem cancelEntry_regs {s : State} {t i : Nat} {e : Entry} {detail : Nat} : (cancelEntry s t i e detail).regs = s.regs :=
  (congrArg State.regs (cancelEntry_unit : State.unit (cancelEntry s t i e detail) = s.unit) :)
@[simp] theorem cancelEntry_low64 {s : State} {t i : Nat} {e : Entry} {detail : Nat} : (cancelEntry s t i e detail).low64 = s.low64 :=
  (congrArg State.low64 (cancelEntry_unit : State.unit (cancelEntry s t i e detail) = s.unit) :)
@[simp] theorem cancelEntry_high64 {s : State} {t i : Nat} {e : Entry} {detail : Nat} : (cancelEntry s t i e detail).high64 = s.high64 :=
  (congrArg State.high64 (cancelEntry_unit : State.unit (cancelEntry s t i e detail) = s.unit) :)
@[simp] theorem cancelEntry_pins {s : State} {t i : Nat} {e : Entry} {detail : Nat} : (cancelEntry s t i e detail).pins = s.pins :=
  (congrArg State.pins (cancelEntry_unit : State.unit (cancelEntry s t i e detail) = s.unit) :)
@[simp] theorem cancelEntry_ws {s : State} {t i : Nat} {e : Entry} {detail : Nat} : (cancelEntry s t i e detail).ws = s.ws :=
  (congrArg State.ws (cancelEntry_unit : State.unit (cancelEntry s t i e detail) = s.unit) :)
@[simp] theorem cancelEntry_txns {s : State} {t i : Nat} {e : Entry} {detail : Nat} : (cancelEntry s t i e detail).txns = s.txns :=
  (congrArg State.txns (cancelEntry_unit : State.unit (cancelEntry s t i e detail) = s.unit) :)
@[simp] theorem cancelEntry_nextTxn {s : State} {t i : Nat} {e : Entry} {detail : Nat} : (cancelEntry s t i e detail).nextTxn = s.nextTxn :=
  (congrArg State.nextTxn (cancelEntry_unit : State.unit (cancelEntry s t i e detail) = s.unit) :)
@[simp] theorem cancelEntry_lastTxn {s : State} {t i : Nat} {e : Entry} {detail : Nat} : (cancelEntry s t i e detail).lastTxn = s.lastTxn :=
  (congrArg State.lastTxn (cancelEntry_unit : State.unit (cancelEntry s t i e detail) = s.unit) :)
@[simp] theorem cancelEntry_time {s : State} {t i : Nat} {e : Entry} {detail : Nat} : (cancelEntry s t i e detail).time = s.time :=
  (congrArg State.time (cancelEntry_unit : State.unit (cancelEntry s t i e detail) = s.unit) :)
@[simp] theorem cancelEntry_actions {s : State} {t i : Nat} {e : Entry} {detail : Nat} : (cancelEntry s t i e detail).actions = s.actions :=
  (congrArg State.actions (cancelEntry_unit : State.unit (cancelEntry s t i e detail) = s.unit) :)
@[simp] theorem cancelEntry_fired {s : State} {t i : Nat} {e : Entry} {detail : Nat} : (cancelEntry s t i e detail).fired = s.fired :=
  (congrArg State.fired (cancelEntry_unit : State.unit (cancelEntry s t i e detail) = s.unit) :)
@[simp] theorem cancelEntry_bkp {s : State} {t i : Nat} {e : Entry} {detail : Nat} : (cancelEntry s t i e detail).bkp = s.bkp :=
  (congrArg State.bkp (cancelEntry_unit : State.unit (cancelEntry s t i e detail) = s.unit) :)
@[simp] theorem cancelEntry_vlt {s : State} {t i : Nat} {e : Entry} {detail : Nat} : (cancelEntry s t i e detail).vlt = s.vlt :=
  (congrArg State.vlt (cancelEntry_unit : State.unit (cancelEntry s t i e detail) = s.unit) :)
@[simp] theorem cancelEntry_lc {s : State} {t i : Nat} {e : Entry} {detail : Nat} : (cancelEntry s t i e detail).lc = s.lc :=
  (congrArg State.lc (cancelEntry_unit : State.unit (cancelEntry s t i e detail) = s.unit) :)
@[simp] theorem cancelEntry_upd {s : State} {t i : Nat} {e : Entry} {detail : Nat} : (cancelEntry s t i e detail).upd = s.upd :=
  (congrArg State.upd (cancelEntry_unit : State.unit (cancelEntry s t i e detail) = s.unit) :)
@[simp] theorem cancelEntry_usb {s : State} {t i : Nat} {e : Entry} {detail : Nat} : (cancelEntry s t i e detail).usb = s.usb :=
  (congrArg State.usb (cancelEntry_unit : State.unit (cancelEntry s t i e detail) = s.unit) :)
@[simp] theorem cancelEntry_vbus {s : State} {t i : Nat} {e : Entry} {detail : Nat} : (cancelEntry s t i e detail).vbus = s.vbus :=
  (congrArg State.vbus (cancelEntry_unit : State.unit (cancelEntry s t i e detail) = s.unit) :)
@[simp] theorem cancelEntry_reg {s : State} {t i : Nat} {e : Entry} {detail : Nat} {key : Nat} : (cancelEntry s t i e detail).reg key = s.reg key :=
  (congrArg (fun x => State.reg x key) (cancelEntry_unit : State.unit (cancelEntry s t i e detail) = s.unit) :)

@[simp] theorem actOutcome_pending {s : State} {t i : Nat} {e : Entry} {outcome detail lateUs : Nat} {final : Bool} : (actOutcome s t i e outcome detail lateUs final).pending = s.pending :=
  (congrArg State.pending (actOutcome_unit : State.unit (actOutcome s t i e outcome detail lateUs final) = s.unit) :)
@[simp] theorem actOutcome_free {s : State} {t i : Nat} {e : Entry} {outcome detail lateUs : Nat} {final : Bool} : (actOutcome s t i e outcome detail lateUs final).free = s.free :=
  (congrArg State.free (actOutcome_unit : State.unit (actOutcome s t i e outcome detail lateUs final) = s.unit) :)
@[simp] theorem actOutcome_ticks {s : State} {t i : Nat} {e : Entry} {outcome detail lateUs : Nat} {final : Bool} : (actOutcome s t i e outcome detail lateUs final).ticks = s.ticks :=
  (congrArg State.ticks (actOutcome_unit : State.unit (actOutcome s t i e outcome detail lateUs final) = s.unit) :)
@[simp] theorem actOutcome_ident {s : State} {t i : Nat} {e : Entry} {outcome detail lateUs : Nat} {final : Bool} : (actOutcome s t i e outcome detail lateUs final).ident = s.ident :=
  (congrArg State.ident (actOutcome_unit : State.unit (actOutcome s t i e outcome detail lateUs final) = s.unit) :)
@[simp] theorem actOutcome_regs {s : State} {t i : Nat} {e : Entry} {outcome detail lateUs : Nat} {final : Bool} : (actOutcome s t i e outcome detail lateUs final).regs = s.regs :=
  (congrArg State.regs (actOutcome_unit : State.unit (actOutcome s t i e outcome detail lateUs final) = s.unit) :)
@[simp] theorem actOutcome_low64 {s : State} {t i : Nat} {e : Entry} {outcome detail lateUs : Nat} {final : Bool} : (actOutcome s t i e outcome detail lateUs final).low64 = s.low64 :=
  (congrArg State.low64 (actOutcome_unit : State.unit (actOutcome s t i e outcome detail lateUs final) = s.unit) :)
@[simp] theorem actOutcome_high64 {s : State} {t i : Nat} {e : Entry} {outcome detail lateUs : Nat} {final : Bool} : (actOutcome s t i e outcome detail lateUs final).high64 = s.high64 :=
  (congrArg State.high64 (actOutcome_unit : State.unit (actOutcome s t i e outcome detail lateUs final) = s.unit) :)
@[simp] theorem actOutcome_pins {s : State} {t i : Nat} {e : Entry} {outcome detail lateUs : Nat} {final : Bool} : (actOutcome s t i e outcome detail lateUs final).pins = s.pins :=
  (congrArg State.pins (actOutcome_unit : State.unit (actOutcome s t i e outcome detail lateUs final) = s.unit) :)
@[simp] theorem actOutcome_ws {s : State} {t i : Nat} {e : Entry} {outcome detail lateUs : Nat} {final : Bool} : (actOutcome s t i e outcome detail lateUs final).ws = s.ws :=
  (congrArg State.ws (actOutcome_unit : State.unit (actOutcome s t i e outcome detail lateUs final) = s.unit) :)
@[simp] theorem actOutcome_txns {s : State} {t i : Nat} {e : Entry} {outcome detail lateUs : Nat} {final : Bool} : (actOutcome s t i e outcome detail lateUs final).txns = s.txns :=
  (congrArg State.txns (actOutcome_unit : State.unit (actOutcome s t i e outcome detail lateUs final) = s.unit) :)
@[simp] theorem actOutcome_nextTxn {s : State} {t i : Nat} {e : Entry} {outcome detail lateUs : Nat} {final : Bool} : (actOutcome s t i e outcome detail lateUs final).nextTxn = s.nextTxn :=
  (congrArg State.nextTxn (actOutcome_unit : State.unit (actOutcome s t i e outcome detail lateUs final) = s.unit) :)
@[simp] theorem actOutcome_lastTxn {s : State} {t i : Nat} {e : Entry} {outcome detail lateUs : Nat} {final : Bool} : (actOutcome s t i e outcome detail lateUs final).lastTxn = s.lastTxn :=
  (congrArg State.lastTxn (actOutcome_unit : State.unit (actOutcome s t i e outcome detail lateUs final) = s.unit) :)
@[simp] theorem actOutcome_time {s : State} {t i : Nat} {e : Entry} {outcome detail lateUs : Nat} {final : Bool} : (actOutcome s t i e outcome detail lateUs final).time = s.time :=
  (congrArg State.time (actOutcome_unit : State.unit (actOutcome s t i e outcome detail lateUs final) = s.unit) :)
@[simp] theorem actOutcome_actions {s : State} {t i : Nat} {e : Entry} {outcome detail lateUs : Nat} {final : Bool} : (actOutcome s t i e outcome detail lateUs final).actions = s.actions :=
  (congrArg State.actions (actOutcome_unit : State.unit (actOutcome s t i e outcome detail lateUs final) = s.unit) :)
@[simp] theorem actOutcome_fired {s : State} {t i : Nat} {e : Entry} {outcome detail lateUs : Nat} {final : Bool} : (actOutcome s t i e outcome detail lateUs final).fired = s.fired :=
  (congrArg State.fired (actOutcome_unit : State.unit (actOutcome s t i e outcome detail lateUs final) = s.unit) :)
@[simp] theorem actOutcome_bkp {s : State} {t i : Nat} {e : Entry} {outcome detail lateUs : Nat} {final : Bool} : (actOutcome s t i e outcome detail lateUs final).bkp = s.bkp :=
  (congrArg State.bkp (actOutcome_unit : State.unit (actOutcome s t i e outcome detail lateUs final) = s.unit) :)
@[simp] theorem actOutcome_vlt {s : State} {t i : Nat} {e : Entry} {outcome detail lateUs : Nat} {final : Bool} : (actOutcome s t i e outcome detail lateUs final).vlt = s.vlt :=
  (congrArg State.vlt (actOutcome_unit : State.unit (actOutcome s t i e outcome detail lateUs final) = s.unit) :)
@[simp] theorem actOutcome_lc {s : State} {t i : Nat} {e : Entry} {outcome detail lateUs : Nat} {final : Bool} : (actOutcome s t i e outcome detail lateUs final).lc = s.lc :=
  (congrArg State.lc (actOutcome_unit : State.unit (actOutcome s t i e outcome detail lateUs final) = s.unit) :)
@[simp] theorem actOutcome_upd {s : State} {t i : Nat} {e : Entry} {outcome detail lateUs : Nat} {final : Bool} : (actOutcome s t i e outcome detail lateUs final).upd = s.upd :=
  (congrArg State.upd (actOutcome_unit : State.unit (actOutcome s t i e outcome detail lateUs final) = s.unit) :)
@[simp] theorem actOutcome_usb {s : State} {t i : Nat} {e : Entry} {outcome detail lateUs : Nat} {final : Bool} : (actOutcome s t i e outcome detail lateUs final).usb = s.usb :=
  (congrArg State.usb (actOutcome_unit : State.unit (actOutcome s t i e outcome detail lateUs final) = s.unit) :)
@[simp] theorem actOutcome_vbus {s : State} {t i : Nat} {e : Entry} {outcome detail lateUs : Nat} {final : Bool} : (actOutcome s t i e outcome detail lateUs final).vbus = s.vbus :=
  (congrArg State.vbus (actOutcome_unit : State.unit (actOutcome s t i e outcome detail lateUs final) = s.unit) :)
@[simp] theorem actOutcome_reg {s : State} {t i : Nat} {e : Entry} {outcome detail lateUs : Nat} {final : Bool} {key : Nat} : (actOutcome s t i e outcome detail lateUs final).reg key = s.reg key :=
  (congrArg (fun x => State.reg x key) (actOutcome_unit : State.unit (actOutcome s t i e outcome detail lateUs final) = s.unit) :)

@[simp] theorem State.modTbl_pending {s : State} {t : Nat} {f : Table → Table} : (State.modTbl s t f).pending = s.pending :=
  (congrArg State.pending (State.modTbl_unit : State.unit (State.modTbl s t f) = s.unit) :)
@[simp] theorem State.modTbl_free {s : State} {t : Nat} {f : Table → Table} : (State.modTbl s t f).free = s.free :=
  (congrArg State.free (State.modTbl_unit : State.unit (State.modTbl s t f) = s.unit) :)
@[simp] theorem State.modTbl_ticks {s : State} {t : Nat} {f : Table → Table} : (State.modTbl s t f).ticks = s.ticks :=
  (congrArg State.ticks (State.modTbl_unit : State.unit (State.modTbl s t f) = s.unit) :)
@[simp] theorem State.modTbl_ident {s : State} {t : Nat} {f : Table → Table} : (State.modTbl s t f).ident = s.ident :=
  (congrArg State.ident (State.modTbl_unit : State.unit (State.modTbl s t f) = s.unit) :)
@[simp] theorem State.modTbl_regs {s : State} {t : Nat} {f : Table → Table} : (State.modTbl s t f).regs = s.regs :=
  (congrArg State.regs (State.modTbl_unit : State.unit (State.modTbl s t f) = s.unit) :)
@[simp] theorem State.modTbl_low64 {s : State} {t : Nat} {f : Table → Table} : (State.modTbl s t f).low64 = s.low64 :=
  (congrArg State.low64 (State.modTbl_unit : State.unit (State.modTbl s t f) = s.unit) :)
@[simp] theorem State.modTbl_high64 {s : State} {t : Nat} {f : Table → Table} : (State.modTbl s t f).high64 = s.high64 :=
  (congrArg State.high64 (State.modTbl_unit : State.unit (State.modTbl s t f) = s.unit) :)
@[simp] theorem State.modTbl_pins {s : State} {t : Nat} {f : Table → Table} : (State.modTbl s t f).pins = s.pins :=
  (congrArg State.pins (State.modTbl_unit : State.unit (State.modTbl s t f) = s.unit) :)
@[simp] theorem State.modTbl_ws {s : State} {t : Nat} {f : Table → Table} : (State.modTbl s t f).ws = s.ws :=
  (congrArg State.ws (State.modTbl_unit : State.unit (State.modTbl s t f) = s.unit) :)
@[simp] theorem State.modTbl_txns {s : State} {t : Nat} {f : Table → Table} : (State.modTbl s t f).txns = s.txns :=
  (congrArg State.txns (State.modTbl_unit : State.unit (State.modTbl s t f) = s.unit) :)
@[simp] theorem State.modTbl_nextTxn {s : State} {t : Nat} {f : Table → Table} : (State.modTbl s t f).nextTxn = s.nextTxn :=
  (congrArg State.nextTxn (State.modTbl_unit : State.unit (State.modTbl s t f) = s.unit) :)
@[simp] theorem State.modTbl_lastTxn {s : State} {t : Nat} {f : Table → Table} : (State.modTbl s t f).lastTxn = s.lastTxn :=
  (congrArg State.lastTxn (State.modTbl_unit : State.unit (State.modTbl s t f) = s.unit) :)
@[simp] theorem State.modTbl_time {s : State} {t : Nat} {f : Table → Table} : (State.modTbl s t f).time = s.time :=
  (congrArg State.time (State.modTbl_unit : State.unit (State.modTbl s t f) = s.unit) :)
@[simp] theorem State.modTbl_actions {s : State} {t : Nat} {f : Table → Table} : (State.modTbl s t f).actions = s.actions :=
  (congrArg State.actions (State.modTbl_unit : State.unit (State.modTbl s t f) = s.unit) :)
@[simp] theorem State.modTbl_fired {s : State} {t : Nat} {f : Table → Table} : (State.modTbl s t f).fired = s.fired :=
  (congrArg State.fired (State.modTbl_unit : State.unit (State.modTbl s t f) = s.unit) :)
@[simp] theorem State.modTbl_bkp {s : State} {t : Nat} {f : Table → Table} : (State.modTbl s t f).bkp = s.bkp :=
  (congrArg State.bkp (State.modTbl_unit : State.unit (State.modTbl s t f) = s.unit) :)
@[simp] theorem State.modTbl_vlt {s : State} {t : Nat} {f : Table → Table} : (State.modTbl s t f).vlt = s.vlt :=
  (congrArg State.vlt (State.modTbl_unit : State.unit (State.modTbl s t f) = s.unit) :)
@[simp] theorem State.modTbl_lc {s : State} {t : Nat} {f : Table → Table} : (State.modTbl s t f).lc = s.lc :=
  (congrArg State.lc (State.modTbl_unit : State.unit (State.modTbl s t f) = s.unit) :)
@[simp] theorem State.modTbl_upd {s : State} {t : Nat} {f : Table → Table} : (State.modTbl s t f).upd = s.upd :=
  (congrArg State.upd (State.modTbl_unit : State.unit (State.modTbl s t f) = s.unit) :)
@[simp] theorem State.modTbl_usb {s : State} {t : Nat} {f : Table → Table} : (State.modTbl s t f).usb = s.usb :=
  (congrArg State.usb (State.modTbl_unit : State.unit (State.modTbl s t f) = s.unit) :)
@[simp] theorem State.modTbl_vbus {s : State} {t : Nat} {f : Table → Table} : (State.modTbl s t f).vbus = s.vbus :=
  (congrArg State.vbus (State.modTbl_unit : State.unit (State.modTbl s t f) = s.unit) :)
@[simp] theorem State.modTbl_reg {s : State} {t : Nat} {f : Table → Table} {key : Nat} : (State.modTbl s t f).reg key = s.reg key :=
  (congrArg (fun x => State.reg x key) (State.modTbl_unit : State.unit (State.modTbl s t f) = s.unit) :)

@[simp] theorem State.modEnt_pending {s : State} {t i : Nat} {f : Entry → Entry} : (State.modEnt s t i f).pending = s.pending :=
  (congrArg State.pending (State.modEnt_unit : State.unit (State.modEnt s t i f) = s.unit) :)
@[simp] theorem State.modEnt_free {s : State} {t i : Nat} {f : Entry → Entry} : (State.modEnt s t i f).free = s.free :=
  (congrArg State.free (State.modEnt_unit : State.unit (State.modEnt s t i f) = s.unit) :)
@[simp] theorem State.modEnt_ticks {s : State} {t i : Nat} {f : Entry → Entry} : (State.modEnt s t i f).ticks = s.ticks :=
  (congrArg State.ticks (State.modEnt_unit : State.unit (State.modEnt s t i f) = s.unit) :)
@[simp] theorem State.modEnt_ident {s : State} {t i : Nat} {f : Entry → Entry} : (State.modEnt s t i f).ident = s.ident :=
  (congrArg State.ident (State.modEnt_unit : State.unit (State.modEnt s t i f) = s.unit) :)
@[simp] theorem State.modEnt_regs {s : State} {t i : Nat} {f : Entry → Entry} : (State.modEnt s t i f).regs = s.regs :=
  (congrArg State.regs (State.modEnt_unit : State.unit (State.modEnt s t i f) = s.unit) :)
@[simp] theorem State.modEnt_low64 {s : State} {t i : Nat} {f : Entry → Entry} : (State.modEnt s t i f).low64 = s.low64 :=
  (congrArg State.low64 (State.modEnt_unit : State.unit (State.modEnt s t i f) = s.unit) :)
@[simp] theorem State.modEnt_high64 {s : State} {t i : Nat} {f : Entry → Entry} : (State.modEnt s t i f).high64 = s.high64 :=
  (congrArg State.high64 (State.modEnt_unit : State.unit (State.modEnt s t i f) = s.unit) :)
@[simp] theorem State.modEnt_pins {s : State} {t i : Nat} {f : Entry → Entry} : (State.modEnt s t i f).pins = s.pins :=
  (congrArg State.pins (State.modEnt_unit : State.unit (State.modEnt s t i f) = s.unit) :)
@[simp] theorem State.modEnt_ws {s : State} {t i : Nat} {f : Entry → Entry} : (State.modEnt s t i f).ws = s.ws :=
  (congrArg State.ws (State.modEnt_unit : State.unit (State.modEnt s t i f) = s.unit) :)
@[simp] theorem State.modEnt_txns {s : State} {t i : Nat} {f : Entry → Entry} : (State.modEnt s t i f).txns = s.txns :=
  (congrArg State.txns (State.modEnt_unit : State.unit (State.modEnt s t i f) = s.unit) :)
@[simp] theorem State.modEnt_nextTxn {s : State} {t i : Nat} {f : Entry → Entry} : (State.modEnt s t i f).nextTxn = s.nextTxn :=
  (congrArg State.nextTxn (State.modEnt_unit : State.unit (State.modEnt s t i f) = s.unit) :)
@[simp] theorem State.modEnt_lastTxn {s : State} {t i : Nat} {f : Entry → Entry} : (State.modEnt s t i f).lastTxn = s.lastTxn :=
  (congrArg State.lastTxn (State.modEnt_unit : State.unit (State.modEnt s t i f) = s.unit) :)
@[simp] theorem State.modEnt_time {s : State} {t i : Nat} {f : Entry → Entry} : (State.modEnt s t i f).time = s.time :=
  (congrArg State.time (State.modEnt_unit : State.unit (State.modEnt s t i f) = s.unit) :)
@[simp] theorem State.modEnt_actions {s : State} {t i : Nat} {f : Entry → Entry} : (State.modEnt s t i f).actions = s.actions :=
  (congrArg State.actions (State.modEnt_unit : State.unit (State.modEnt s t i f) = s.unit) :)
@[simp] theorem State.modEnt_fired {s : State} {t i : Nat} {f : Entry → Entry} : (State.modEnt s t i f).fired = s.fired :=
  (congrArg State.fired (State.modEnt_unit : State.unit (State.modEnt s t i f) = s.unit) :)
@[simp] theorem State.modEnt_bkp {s : State} {t i : Nat} {f : Entry → Entry} : (State.modEnt s t i f).bkp = s.bkp :=
  (congrArg State.bkp (State.modEnt_unit : State.unit (State.modEnt s t i f) = s.unit) :)
@[simp] theorem State.modEnt_vlt {s : State} {t i : Nat} {f : Entry → Entry} : (State.modEnt s t i f).vlt = s.vlt :=
  (congrArg State.vlt (State.modEnt_unit : State.unit (State.modEnt s t i f) = s.unit) :)
@[simp] theorem State.modEnt_lc {s : State} {t i : Nat} {f : Entry → Entry} : (State.modEnt s t i f).lc = s.lc :=
  (congrArg State.lc (State.modEnt_unit : State.unit (State.modEnt s t i f) = s.unit) :)
@[simp] theorem State.modEnt_upd {s : State} {t i : Nat} {f : Entry → Entry} : (State.modEnt s t i f).upd = s.upd :=
  (congrArg State.upd (State.modEnt_unit : State.unit (State.modEnt s t i f) = s.unit) :)
@[simp] theorem State.modEnt_usb {s : State} {t i : Nat} {f : Entry → Entry} : (State.modEnt s t i f).usb = s.usb :=
  (congrArg State.usb (State.modEnt_unit : State.unit (State.modEnt s t i f) = s.unit) :)
@[simp] theorem State.modEnt_vbus {s : State} {t i : Nat} {f : Entry → Entry} : (State.modEnt s t i f).vbus = s.vbus :=
  (congrArg State.vbus (State.modEnt_unit : State.unit (State.modEnt s t i f) = s.unit) :)
@[simp] theorem State.modEnt_reg {s : State} {t i : Nat} {f : Entry → Entry} {key : Nat} : (State.modEnt s t i f).reg key = s.reg key :=
  (congrArg (fun x => State.reg x key) (State.modEnt_unit : State.unit (State.modEnt s t i f) = s.unit) :)

/-- States with the same channel bodies have the same channels but for the queues to the hub. -/
theorem State.body_of {s t : State} (h : t.bodies = s.bodies) (n : Nat) : (t.ch n).body = (s.ch n).body := by
  have e := congrArg (fun l => l[n]?) h
  simp only [State.bodies, List.getElem?_map] at e
  unfold State.ch
  rw [List.getD_eq_getElem?_getD, List.getD_eq_getElem?_getD]
  cases ht : t.chs[n]? <;> cases hs : s.chs[n]? <;> simp_all

/-- What a channel holds beside its queues to the hub is the same where the bodies are. -/
theorem State.ch_of_bodies {α : Type} (f : Chan → α) (hf : ∀ c, f c.body = f c) {s t : State} (h : t.bodies = s.bodies)
    (n : Nat) : f (t.ch n) = f (s.ch n) := by
  rw [← hf, State.body_of h n, hf]

@[simp] theorem acquire_ch_state {s : State} {h : Nat} {v : Slot} {q : Nat} {stamp : Instant} {chn : Nat} :
    ((acquire s h v q stamp).ch chn).state = (s.ch chn).state :=
  State.ch_of_bodies Chan.state (fun _ => rfl) acquire_bodies chn
@[simp] theorem acquire_ch_prior {s : State} {h : Nat} {v : Slot} {q : Nat} {stamp : Instant} {chn : Nat} :
    ((acquire s h v q stamp).ch chn).prior = (s.ch chn).prior :=
  State.ch_of_bodies Chan.prior (fun _ => rfl) acquire_bodies chn
@[simp] theorem acquire_ch_xbarUp {s : State} {h : Nat} {v : Slot} {q : Nat} {stamp : Instant} {chn : Nat} :
    ((acquire s h v q stamp).ch chn).xbarUp = (s.ch chn).xbarUp :=
  State.ch_of_bodies Chan.xbarUp (fun _ => rfl) acquire_bodies chn
@[simp] theorem acquire_ch_relock {s : State} {h : Nat} {v : Slot} {q : Nat} {stamp : Instant} {chn : Nat} :
    ((acquire s h v q stamp).ch chn).relock = (s.ch chn).relock :=
  State.ch_of_bodies Chan.relock (fun _ => rfl) acquire_bodies chn
@[simp] theorem acquire_ch_copied {s : State} {h : Nat} {v : Slot} {q : Nat} {stamp : Instant} {chn : Nat} :
    ((acquire s h v q stamp).ch chn).copied = (s.ch chn).copied :=
  State.ch_of_bodies Chan.copied (fun _ => rfl) acquire_bodies chn
@[simp] theorem acquire_ch_isoOk {s : State} {h : Nat} {v : Slot} {q : Nat} {stamp : Instant} {chn : Nat} :
    ((acquire s h v q stamp).ch chn).isoOk = (s.ch chn).isoOk :=
  State.ch_of_bodies Chan.isoOk (fun _ => rfl) acquire_bodies chn
@[simp] theorem acquire_ch_lossCnt {s : State} {h : Nat} {v : Slot} {q : Nat} {stamp : Instant} {chn : Nat} :
    ((acquire s h v q stamp).ch chn).lossCnt = (s.ch chn).lossCnt :=
  State.ch_of_bodies Chan.lossCnt (fun _ => rfl) acquire_bodies chn
@[simp] theorem acquire_ch_tb {s : State} {h : Nat} {v : Slot} {q : Nat} {stamp : Instant} {chn : Nat} :
    ((acquire s h v q stamp).ch chn).tb = (s.ch chn).tb :=
  State.ch_of_bodies Chan.tb (fun _ => rfl) acquire_bodies chn
@[simp] theorem acquire_ch_cmds {s : State} {h : Nat} {v : Slot} {q : Nat} {stamp : Instant} {chn : Nat} :
    ((acquire s h v q stamp).ch chn).cmds = (s.ch chn).cmds :=
  State.ch_of_bodies Chan.cmds (fun _ => rfl) acquire_bodies chn
@[simp] theorem acquire_ch_inputs {s : State} {h : Nat} {v : Slot} {q : Nat} {stamp : Instant} {chn : Nat} :
    ((acquire s h v q stamp).ch chn).inputs = (s.ch chn).inputs :=
  State.ch_of_bodies Chan.inputs (fun _ => rfl) acquire_bodies chn
@[simp] theorem acquire_ch_table {s : State} {h : Nat} {v : Slot} {q : Nat} {stamp : Instant} {chn : Nat} :
    ((acquire s h v q stamp).ch chn).table = (s.ch chn).table :=
  State.ch_of_bodies Chan.table (fun _ => rfl) acquire_bodies chn
@[simp] theorem acquire_ch_tableEn {s : State} {h : Nat} {v : Slot} {q : Nat} {stamp : Instant} {chn : Nat} :
    ((acquire s h v q stamp).ch chn).tableEn = (s.ch chn).tableEn :=
  State.ch_of_bodies Chan.tableEn (fun _ => rfl) acquire_bodies chn
@[simp] theorem acquire_ch_slots {s : State} {h : Nat} {v : Slot} {q : Nat} {stamp : Instant} {chn : Nat} :
    ((acquire s h v q stamp).ch chn).slots = (s.ch chn).slots :=
  State.ch_of_bodies Chan.slots (fun _ => rfl) acquire_bodies chn
@[simp] theorem acquire_ch_snap {s : State} {h : Nat} {v : Slot} {q : Nat} {stamp : Instant} {chn : Nat} :
    ((acquire s h v q stamp).ch chn).snap = (s.ch chn).snap :=
  State.ch_of_bodies Chan.snap (fun _ => rfl) acquire_bodies chn
@[simp] theorem acquire_ch_feTrips {s : State} {h : Nat} {v : Slot} {q : Nat} {stamp : Instant} {chn : Nat} :
    ((acquire s h v q stamp).ch chn).feTrips = (s.ch chn).feTrips :=
  State.ch_of_bodies Chan.feTrips (fun _ => rfl) acquire_bodies chn
@[simp] theorem acquire_ch_can {s : State} {h : Nat} {v : Slot} {q : Nat} {stamp : Instant} {chn : Nat} :
    ((acquire s h v q stamp).ch chn).can = (s.ch chn).can :=
  State.ch_of_bodies Chan.can (fun _ => rfl) acquire_bodies chn
@[simp] theorem acquire_ch_seg {s : State} {h : Nat} {v : Slot} {q : Nat} {stamp : Instant} {chn : Nat} :
    ((acquire s h v q stamp).ch chn).seg = (s.ch chn).seg :=
  State.ch_of_bodies Chan.seg (fun _ => rfl) acquire_bodies chn
@[simp] theorem acquire_ch_dio {s : State} {h : Nat} {v : Slot} {q : Nat} {stamp : Instant} {chn : Nat} :
    ((acquire s h v q stamp).ch chn).dio = (s.ch chn).dio :=
  State.ch_of_bodies Chan.dio (fun _ => rfl) acquire_bodies chn
@[simp] theorem acquire_ch_staged {s : State} {h : Nat} {v : Slot} {q : Nat} {stamp : Instant} {chn : Nat} :
    ((acquire s h v q stamp).ch chn).staged = (s.ch chn).staged :=
  State.ch_of_bodies Chan.staged (fun _ => rfl) acquire_bodies chn
@[simp] theorem acquire_ch_stopped {s : State} {h : Nat} {v : Slot} {q : Nat} {stamp : Instant} {chn : Nat} :
    ((acquire s h v q stamp).ch chn).stopped = (s.ch chn).stopped :=
  State.ch_of_bodies Chan.stopped (fun _ => rfl) acquire_bodies chn
@[simp] theorem acquire_ch_relArmed {s : State} {h : Nat} {v : Slot} {q : Nat} {stamp : Instant} {chn : Nat} :
    ((acquire s h v q stamp).ch chn).relArmed = (s.ch chn).relArmed :=
  State.ch_of_bodies Chan.relArmed (fun _ => rfl) acquire_bodies chn
@[simp] theorem acquire_ch_stopH {s : State} {h : Nat} {v : Slot} {q : Nat} {stamp : Instant} {chn : Nat} :
    ((acquire s h v q stamp).ch chn).stopH = (s.ch chn).stopH :=
  State.ch_of_bodies Chan.stopH (fun _ => rfl) acquire_bodies chn
@[simp] theorem acquire_dio {s : State} {h : Nat} {v : Slot} {q : Nat} {stamp : Instant} {chn : Nat} : (acquire s h v q stamp).dio chn = s.dio chn :=
  acquire_ch_dio

@[simp] theorem deliver_ch_state {s : State} {h : Nat} {m : Mirror} {repeated : Bool} {chn : Nat} :
    ((deliver s h m repeated).ch chn).state = (s.ch chn).state :=
  State.ch_of_bodies Chan.state (fun _ => rfl) deliver_bodies chn
@[simp] theorem deliver_ch_prior {s : State} {h : Nat} {m : Mirror} {repeated : Bool} {chn : Nat} :
    ((deliver s h m repeated).ch chn).prior = (s.ch chn).prior :=
  State.ch_of_bodies Chan.prior (fun _ => rfl) deliver_bodies chn
@[simp] theorem deliver_ch_xbarUp {s : State} {h : Nat} {m : Mirror} {repeated : Bool} {chn : Nat} :
    ((deliver s h m repeated).ch chn).xbarUp = (s.ch chn).xbarUp :=
  State.ch_of_bodies Chan.xbarUp (fun _ => rfl) deliver_bodies chn
@[simp] theorem deliver_ch_relock {s : State} {h : Nat} {m : Mirror} {repeated : Bool} {chn : Nat} :
    ((deliver s h m repeated).ch chn).relock = (s.ch chn).relock :=
  State.ch_of_bodies Chan.relock (fun _ => rfl) deliver_bodies chn
@[simp] theorem deliver_ch_copied {s : State} {h : Nat} {m : Mirror} {repeated : Bool} {chn : Nat} :
    ((deliver s h m repeated).ch chn).copied = (s.ch chn).copied :=
  State.ch_of_bodies Chan.copied (fun _ => rfl) deliver_bodies chn
@[simp] theorem deliver_ch_isoOk {s : State} {h : Nat} {m : Mirror} {repeated : Bool} {chn : Nat} :
    ((deliver s h m repeated).ch chn).isoOk = (s.ch chn).isoOk :=
  State.ch_of_bodies Chan.isoOk (fun _ => rfl) deliver_bodies chn
@[simp] theorem deliver_ch_lossCnt {s : State} {h : Nat} {m : Mirror} {repeated : Bool} {chn : Nat} :
    ((deliver s h m repeated).ch chn).lossCnt = (s.ch chn).lossCnt :=
  State.ch_of_bodies Chan.lossCnt (fun _ => rfl) deliver_bodies chn
@[simp] theorem deliver_ch_tb {s : State} {h : Nat} {m : Mirror} {repeated : Bool} {chn : Nat} :
    ((deliver s h m repeated).ch chn).tb = (s.ch chn).tb :=
  State.ch_of_bodies Chan.tb (fun _ => rfl) deliver_bodies chn
@[simp] theorem deliver_ch_cmds {s : State} {h : Nat} {m : Mirror} {repeated : Bool} {chn : Nat} :
    ((deliver s h m repeated).ch chn).cmds = (s.ch chn).cmds :=
  State.ch_of_bodies Chan.cmds (fun _ => rfl) deliver_bodies chn
@[simp] theorem deliver_ch_inputs {s : State} {h : Nat} {m : Mirror} {repeated : Bool} {chn : Nat} :
    ((deliver s h m repeated).ch chn).inputs = (s.ch chn).inputs :=
  State.ch_of_bodies Chan.inputs (fun _ => rfl) deliver_bodies chn
@[simp] theorem deliver_ch_table {s : State} {h : Nat} {m : Mirror} {repeated : Bool} {chn : Nat} :
    ((deliver s h m repeated).ch chn).table = (s.ch chn).table :=
  State.ch_of_bodies Chan.table (fun _ => rfl) deliver_bodies chn
@[simp] theorem deliver_ch_tableEn {s : State} {h : Nat} {m : Mirror} {repeated : Bool} {chn : Nat} :
    ((deliver s h m repeated).ch chn).tableEn = (s.ch chn).tableEn :=
  State.ch_of_bodies Chan.tableEn (fun _ => rfl) deliver_bodies chn
@[simp] theorem deliver_ch_slots {s : State} {h : Nat} {m : Mirror} {repeated : Bool} {chn : Nat} :
    ((deliver s h m repeated).ch chn).slots = (s.ch chn).slots :=
  State.ch_of_bodies Chan.slots (fun _ => rfl) deliver_bodies chn
@[simp] theorem deliver_ch_snap {s : State} {h : Nat} {m : Mirror} {repeated : Bool} {chn : Nat} :
    ((deliver s h m repeated).ch chn).snap = (s.ch chn).snap :=
  State.ch_of_bodies Chan.snap (fun _ => rfl) deliver_bodies chn
@[simp] theorem deliver_ch_feTrips {s : State} {h : Nat} {m : Mirror} {repeated : Bool} {chn : Nat} :
    ((deliver s h m repeated).ch chn).feTrips = (s.ch chn).feTrips :=
  State.ch_of_bodies Chan.feTrips (fun _ => rfl) deliver_bodies chn
@[simp] theorem deliver_ch_can {s : State} {h : Nat} {m : Mirror} {repeated : Bool} {chn : Nat} :
    ((deliver s h m repeated).ch chn).can = (s.ch chn).can :=
  State.ch_of_bodies Chan.can (fun _ => rfl) deliver_bodies chn
@[simp] theorem deliver_ch_seg {s : State} {h : Nat} {m : Mirror} {repeated : Bool} {chn : Nat} :
    ((deliver s h m repeated).ch chn).seg = (s.ch chn).seg :=
  State.ch_of_bodies Chan.seg (fun _ => rfl) deliver_bodies chn
@[simp] theorem deliver_ch_dio {s : State} {h : Nat} {m : Mirror} {repeated : Bool} {chn : Nat} :
    ((deliver s h m repeated).ch chn).dio = (s.ch chn).dio :=
  State.ch_of_bodies Chan.dio (fun _ => rfl) deliver_bodies chn
@[simp] theorem deliver_ch_staged {s : State} {h : Nat} {m : Mirror} {repeated : Bool} {chn : Nat} :
    ((deliver s h m repeated).ch chn).staged = (s.ch chn).staged :=
  State.ch_of_bodies Chan.staged (fun _ => rfl) deliver_bodies chn
@[simp] theorem deliver_ch_stopped {s : State} {h : Nat} {m : Mirror} {repeated : Bool} {chn : Nat} :
    ((deliver s h m repeated).ch chn).stopped = (s.ch chn).stopped :=
  State.ch_of_bodies Chan.stopped (fun _ => rfl) deliver_bodies chn
@[simp] theorem deliver_ch_relArmed {s : State} {h : Nat} {m : Mirror} {repeated : Bool} {chn : Nat} :
    ((deliver s h m repeated).ch chn).relArmed = (s.ch chn).relArmed :=
  State.ch_of_bodies Chan.relArmed (fun _ => rfl) deliver_bodies chn
@[simp] theorem deliver_ch_stopH {s : State} {h : Nat} {m : Mirror} {repeated : Bool} {chn : Nat} :
    ((deliver s h m repeated).ch chn).stopH = (s.ch chn).stopH :=
  State.ch_of_bodies Chan.stopH (fun _ => rfl) deliver_bodies chn
@[simp] theorem deliver_dio {s : State} {h : Nat} {m : Mirror} {repeated : Bool} {chn : Nat} : (deliver s h m repeated).dio chn = s.dio chn :=
  deliver_ch_dio

@[simp] theorem mirrorWrite_ch_state {s : State} {h : Nat} {m : Mirror} {chn : Nat} :
    ((mirrorWrite s h m).ch chn).state = (s.ch chn).state :=
  State.ch_of_bodies Chan.state (fun _ => rfl) mirrorWrite_bodies chn
@[simp] theorem mirrorWrite_ch_prior {s : State} {h : Nat} {m : Mirror} {chn : Nat} :
    ((mirrorWrite s h m).ch chn).prior = (s.ch chn).prior :=
  State.ch_of_bodies Chan.prior (fun _ => rfl) mirrorWrite_bodies chn
@[simp] theorem mirrorWrite_ch_xbarUp {s : State} {h : Nat} {m : Mirror} {chn : Nat} :
    ((mirrorWrite s h m).ch chn).xbarUp = (s.ch chn).xbarUp :=
  State.ch_of_bodies Chan.xbarUp (fun _ => rfl) mirrorWrite_bodies chn
@[simp] theorem mirrorWrite_ch_relock {s : State} {h : Nat} {m : Mirror} {chn : Nat} :
    ((mirrorWrite s h m).ch chn).relock = (s.ch chn).relock :=
  State.ch_of_bodies Chan.relock (fun _ => rfl) mirrorWrite_bodies chn
@[simp] theorem mirrorWrite_ch_copied {s : State} {h : Nat} {m : Mirror} {chn : Nat} :
    ((mirrorWrite s h m).ch chn).copied = (s.ch chn).copied :=
  State.ch_of_bodies Chan.copied (fun _ => rfl) mirrorWrite_bodies chn
@[simp] theorem mirrorWrite_ch_isoOk {s : State} {h : Nat} {m : Mirror} {chn : Nat} :
    ((mirrorWrite s h m).ch chn).isoOk = (s.ch chn).isoOk :=
  State.ch_of_bodies Chan.isoOk (fun _ => rfl) mirrorWrite_bodies chn
@[simp] theorem mirrorWrite_ch_lossCnt {s : State} {h : Nat} {m : Mirror} {chn : Nat} :
    ((mirrorWrite s h m).ch chn).lossCnt = (s.ch chn).lossCnt :=
  State.ch_of_bodies Chan.lossCnt (fun _ => rfl) mirrorWrite_bodies chn
@[simp] theorem mirrorWrite_ch_tb {s : State} {h : Nat} {m : Mirror} {chn : Nat} :
    ((mirrorWrite s h m).ch chn).tb = (s.ch chn).tb :=
  State.ch_of_bodies Chan.tb (fun _ => rfl) mirrorWrite_bodies chn
@[simp] theorem mirrorWrite_ch_cmds {s : State} {h : Nat} {m : Mirror} {chn : Nat} :
    ((mirrorWrite s h m).ch chn).cmds = (s.ch chn).cmds :=
  State.ch_of_bodies Chan.cmds (fun _ => rfl) mirrorWrite_bodies chn
@[simp] theorem mirrorWrite_ch_inputs {s : State} {h : Nat} {m : Mirror} {chn : Nat} :
    ((mirrorWrite s h m).ch chn).inputs = (s.ch chn).inputs :=
  State.ch_of_bodies Chan.inputs (fun _ => rfl) mirrorWrite_bodies chn
@[simp] theorem mirrorWrite_ch_table {s : State} {h : Nat} {m : Mirror} {chn : Nat} :
    ((mirrorWrite s h m).ch chn).table = (s.ch chn).table :=
  State.ch_of_bodies Chan.table (fun _ => rfl) mirrorWrite_bodies chn
@[simp] theorem mirrorWrite_ch_tableEn {s : State} {h : Nat} {m : Mirror} {chn : Nat} :
    ((mirrorWrite s h m).ch chn).tableEn = (s.ch chn).tableEn :=
  State.ch_of_bodies Chan.tableEn (fun _ => rfl) mirrorWrite_bodies chn
@[simp] theorem mirrorWrite_ch_slots {s : State} {h : Nat} {m : Mirror} {chn : Nat} :
    ((mirrorWrite s h m).ch chn).slots = (s.ch chn).slots :=
  State.ch_of_bodies Chan.slots (fun _ => rfl) mirrorWrite_bodies chn
@[simp] theorem mirrorWrite_ch_snap {s : State} {h : Nat} {m : Mirror} {chn : Nat} :
    ((mirrorWrite s h m).ch chn).snap = (s.ch chn).snap :=
  State.ch_of_bodies Chan.snap (fun _ => rfl) mirrorWrite_bodies chn
@[simp] theorem mirrorWrite_ch_feTrips {s : State} {h : Nat} {m : Mirror} {chn : Nat} :
    ((mirrorWrite s h m).ch chn).feTrips = (s.ch chn).feTrips :=
  State.ch_of_bodies Chan.feTrips (fun _ => rfl) mirrorWrite_bodies chn
@[simp] theorem mirrorWrite_ch_can {s : State} {h : Nat} {m : Mirror} {chn : Nat} :
    ((mirrorWrite s h m).ch chn).can = (s.ch chn).can :=
  State.ch_of_bodies Chan.can (fun _ => rfl) mirrorWrite_bodies chn
@[simp] theorem mirrorWrite_ch_seg {s : State} {h : Nat} {m : Mirror} {chn : Nat} :
    ((mirrorWrite s h m).ch chn).seg = (s.ch chn).seg :=
  State.ch_of_bodies Chan.seg (fun _ => rfl) mirrorWrite_bodies chn
@[simp] theorem mirrorWrite_ch_dio {s : State} {h : Nat} {m : Mirror} {chn : Nat} :
    ((mirrorWrite s h m).ch chn).dio = (s.ch chn).dio :=
  State.ch_of_bodies Chan.dio (fun _ => rfl) mirrorWrite_bodies chn
@[simp] theorem mirrorWrite_ch_staged {s : State} {h : Nat} {m : Mirror} {chn : Nat} :
    ((mirrorWrite s h m).ch chn).staged = (s.ch chn).staged :=
  State.ch_of_bodies Chan.staged (fun _ => rfl) mirrorWrite_bodies chn
@[simp] theorem mirrorWrite_ch_stopped {s : State} {h : Nat} {m : Mirror} {chn : Nat} :
    ((mirrorWrite s h m).ch chn).stopped = (s.ch chn).stopped :=
  State.ch_of_bodies Chan.stopped (fun _ => rfl) mirrorWrite_bodies chn
@[simp] theorem mirrorWrite_ch_relArmed {s : State} {h : Nat} {m : Mirror} {chn : Nat} :
    ((mirrorWrite s h m).ch chn).relArmed = (s.ch chn).relArmed :=
  State.ch_of_bodies Chan.relArmed (fun _ => rfl) mirrorWrite_bodies chn
@[simp] theorem mirrorWrite_ch_stopH {s : State} {h : Nat} {m : Mirror} {chn : Nat} :
    ((mirrorWrite s h m).ch chn).stopH = (s.ch chn).stopH :=
  State.ch_of_bodies Chan.stopH (fun _ => rfl) mirrorWrite_bodies chn
@[simp] theorem mirrorWrite_dio {s : State} {h : Nat} {m : Mirror} {chn : Nat} : (mirrorWrite s h m).dio chn = s.dio chn :=
  mirrorWrite_ch_dio

@[simp] theorem covUnit_ch_state {s : State} {h : Nat} {p : Point} {m : Mirror} {newSeq : Bool} {chn : Nat} :
    ((covUnit s h p m newSeq).ch chn).state = (s.ch chn).state :=
  State.ch_of_bodies Chan.state (fun _ => rfl) covUnit_bodies chn
@[simp] theorem covUnit_ch_prior {s : State} {h : Nat} {p : Point} {m : Mirror} {newSeq : Bool} {chn : Nat} :
    ((covUnit s h p m newSeq).ch chn).prior = (s.ch chn).prior :=
  State.ch_of_bodies Chan.prior (fun _ => rfl) covUnit_bodies chn
@[simp] theorem covUnit_ch_xbarUp {s : State} {h : Nat} {p : Point} {m : Mirror} {newSeq : Bool} {chn : Nat} :
    ((covUnit s h p m newSeq).ch chn).xbarUp = (s.ch chn).xbarUp :=
  State.ch_of_bodies Chan.xbarUp (fun _ => rfl) covUnit_bodies chn
@[simp] theorem covUnit_ch_relock {s : State} {h : Nat} {p : Point} {m : Mirror} {newSeq : Bool} {chn : Nat} :
    ((covUnit s h p m newSeq).ch chn).relock = (s.ch chn).relock :=
  State.ch_of_bodies Chan.relock (fun _ => rfl) covUnit_bodies chn
@[simp] theorem covUnit_ch_copied {s : State} {h : Nat} {p : Point} {m : Mirror} {newSeq : Bool} {chn : Nat} :
    ((covUnit s h p m newSeq).ch chn).copied = (s.ch chn).copied :=
  State.ch_of_bodies Chan.copied (fun _ => rfl) covUnit_bodies chn
@[simp] theorem covUnit_ch_isoOk {s : State} {h : Nat} {p : Point} {m : Mirror} {newSeq : Bool} {chn : Nat} :
    ((covUnit s h p m newSeq).ch chn).isoOk = (s.ch chn).isoOk :=
  State.ch_of_bodies Chan.isoOk (fun _ => rfl) covUnit_bodies chn
@[simp] theorem covUnit_ch_lossCnt {s : State} {h : Nat} {p : Point} {m : Mirror} {newSeq : Bool} {chn : Nat} :
    ((covUnit s h p m newSeq).ch chn).lossCnt = (s.ch chn).lossCnt :=
  State.ch_of_bodies Chan.lossCnt (fun _ => rfl) covUnit_bodies chn
@[simp] theorem covUnit_ch_tb {s : State} {h : Nat} {p : Point} {m : Mirror} {newSeq : Bool} {chn : Nat} :
    ((covUnit s h p m newSeq).ch chn).tb = (s.ch chn).tb :=
  State.ch_of_bodies Chan.tb (fun _ => rfl) covUnit_bodies chn
@[simp] theorem covUnit_ch_cmds {s : State} {h : Nat} {p : Point} {m : Mirror} {newSeq : Bool} {chn : Nat} :
    ((covUnit s h p m newSeq).ch chn).cmds = (s.ch chn).cmds :=
  State.ch_of_bodies Chan.cmds (fun _ => rfl) covUnit_bodies chn
@[simp] theorem covUnit_ch_inputs {s : State} {h : Nat} {p : Point} {m : Mirror} {newSeq : Bool} {chn : Nat} :
    ((covUnit s h p m newSeq).ch chn).inputs = (s.ch chn).inputs :=
  State.ch_of_bodies Chan.inputs (fun _ => rfl) covUnit_bodies chn
@[simp] theorem covUnit_ch_table {s : State} {h : Nat} {p : Point} {m : Mirror} {newSeq : Bool} {chn : Nat} :
    ((covUnit s h p m newSeq).ch chn).table = (s.ch chn).table :=
  State.ch_of_bodies Chan.table (fun _ => rfl) covUnit_bodies chn
@[simp] theorem covUnit_ch_tableEn {s : State} {h : Nat} {p : Point} {m : Mirror} {newSeq : Bool} {chn : Nat} :
    ((covUnit s h p m newSeq).ch chn).tableEn = (s.ch chn).tableEn :=
  State.ch_of_bodies Chan.tableEn (fun _ => rfl) covUnit_bodies chn
@[simp] theorem covUnit_ch_slots {s : State} {h : Nat} {p : Point} {m : Mirror} {newSeq : Bool} {chn : Nat} :
    ((covUnit s h p m newSeq).ch chn).slots = (s.ch chn).slots :=
  State.ch_of_bodies Chan.slots (fun _ => rfl) covUnit_bodies chn
@[simp] theorem covUnit_ch_snap {s : State} {h : Nat} {p : Point} {m : Mirror} {newSeq : Bool} {chn : Nat} :
    ((covUnit s h p m newSeq).ch chn).snap = (s.ch chn).snap :=
  State.ch_of_bodies Chan.snap (fun _ => rfl) covUnit_bodies chn
@[simp] theorem covUnit_ch_feTrips {s : State} {h : Nat} {p : Point} {m : Mirror} {newSeq : Bool} {chn : Nat} :
    ((covUnit s h p m newSeq).ch chn).feTrips = (s.ch chn).feTrips :=
  State.ch_of_bodies Chan.feTrips (fun _ => rfl) covUnit_bodies chn
@[simp] theorem covUnit_ch_can {s : State} {h : Nat} {p : Point} {m : Mirror} {newSeq : Bool} {chn : Nat} :
    ((covUnit s h p m newSeq).ch chn).can = (s.ch chn).can :=
  State.ch_of_bodies Chan.can (fun _ => rfl) covUnit_bodies chn
@[simp] theorem covUnit_ch_seg {s : State} {h : Nat} {p : Point} {m : Mirror} {newSeq : Bool} {chn : Nat} :
    ((covUnit s h p m newSeq).ch chn).seg = (s.ch chn).seg :=
  State.ch_of_bodies Chan.seg (fun _ => rfl) covUnit_bodies chn
@[simp] theorem covUnit_ch_dio {s : State} {h : Nat} {p : Point} {m : Mirror} {newSeq : Bool} {chn : Nat} :
    ((covUnit s h p m newSeq).ch chn).dio = (s.ch chn).dio :=
  State.ch_of_bodies Chan.dio (fun _ => rfl) covUnit_bodies chn
@[simp] theorem covUnit_ch_staged {s : State} {h : Nat} {p : Point} {m : Mirror} {newSeq : Bool} {chn : Nat} :
    ((covUnit s h p m newSeq).ch chn).staged = (s.ch chn).staged :=
  State.ch_of_bodies Chan.staged (fun _ => rfl) covUnit_bodies chn
@[simp] theorem covUnit_ch_stopped {s : State} {h : Nat} {p : Point} {m : Mirror} {newSeq : Bool} {chn : Nat} :
    ((covUnit s h p m newSeq).ch chn).stopped = (s.ch chn).stopped :=
  State.ch_of_bodies Chan.stopped (fun _ => rfl) covUnit_bodies chn
@[simp] theorem covUnit_ch_relArmed {s : State} {h : Nat} {p : Point} {m : Mirror} {newSeq : Bool} {chn : Nat} :
    ((covUnit s h p m newSeq).ch chn).relArmed = (s.ch chn).relArmed :=
  State.ch_of_bodies Chan.relArmed (fun _ => rfl) covUnit_bodies chn
@[simp] theorem covUnit_ch_stopH {s : State} {h : Nat} {p : Point} {m : Mirror} {newSeq : Bool} {chn : Nat} :
    ((covUnit s h p m newSeq).ch chn).stopH = (s.ch chn).stopH :=
  State.ch_of_bodies Chan.stopH (fun _ => rfl) covUnit_bodies chn
@[simp] theorem covUnit_dio {s : State} {h : Nat} {p : Point} {m : Mirror} {newSeq : Bool} {chn : Nat} : (covUnit s h p m newSeq).dio chn = s.dio chn :=
  covUnit_ch_dio

@[simp] theorem hubUpdate_ch_state {s : State} {n : Nat} {u : Update} {chn : Nat} :
    ((hubUpdate s n u).ch chn).state = (s.ch chn).state :=
  State.ch_of_bodies Chan.state (fun _ => rfl) hubUpdate_bodies chn
@[simp] theorem hubUpdate_ch_prior {s : State} {n : Nat} {u : Update} {chn : Nat} :
    ((hubUpdate s n u).ch chn).prior = (s.ch chn).prior :=
  State.ch_of_bodies Chan.prior (fun _ => rfl) hubUpdate_bodies chn
@[simp] theorem hubUpdate_ch_xbarUp {s : State} {n : Nat} {u : Update} {chn : Nat} :
    ((hubUpdate s n u).ch chn).xbarUp = (s.ch chn).xbarUp :=
  State.ch_of_bodies Chan.xbarUp (fun _ => rfl) hubUpdate_bodies chn
@[simp] theorem hubUpdate_ch_relock {s : State} {n : Nat} {u : Update} {chn : Nat} :
    ((hubUpdate s n u).ch chn).relock = (s.ch chn).relock :=
  State.ch_of_bodies Chan.relock (fun _ => rfl) hubUpdate_bodies chn
@[simp] theorem hubUpdate_ch_copied {s : State} {n : Nat} {u : Update} {chn : Nat} :
    ((hubUpdate s n u).ch chn).copied = (s.ch chn).copied :=
  State.ch_of_bodies Chan.copied (fun _ => rfl) hubUpdate_bodies chn
@[simp] theorem hubUpdate_ch_isoOk {s : State} {n : Nat} {u : Update} {chn : Nat} :
    ((hubUpdate s n u).ch chn).isoOk = (s.ch chn).isoOk :=
  State.ch_of_bodies Chan.isoOk (fun _ => rfl) hubUpdate_bodies chn
@[simp] theorem hubUpdate_ch_lossCnt {s : State} {n : Nat} {u : Update} {chn : Nat} :
    ((hubUpdate s n u).ch chn).lossCnt = (s.ch chn).lossCnt :=
  State.ch_of_bodies Chan.lossCnt (fun _ => rfl) hubUpdate_bodies chn
@[simp] theorem hubUpdate_ch_tb {s : State} {n : Nat} {u : Update} {chn : Nat} :
    ((hubUpdate s n u).ch chn).tb = (s.ch chn).tb :=
  State.ch_of_bodies Chan.tb (fun _ => rfl) hubUpdate_bodies chn
@[simp] theorem hubUpdate_ch_cmds {s : State} {n : Nat} {u : Update} {chn : Nat} :
    ((hubUpdate s n u).ch chn).cmds = (s.ch chn).cmds :=
  State.ch_of_bodies Chan.cmds (fun _ => rfl) hubUpdate_bodies chn
@[simp] theorem hubUpdate_ch_inputs {s : State} {n : Nat} {u : Update} {chn : Nat} :
    ((hubUpdate s n u).ch chn).inputs = (s.ch chn).inputs :=
  State.ch_of_bodies Chan.inputs (fun _ => rfl) hubUpdate_bodies chn
@[simp] theorem hubUpdate_ch_table {s : State} {n : Nat} {u : Update} {chn : Nat} :
    ((hubUpdate s n u).ch chn).table = (s.ch chn).table :=
  State.ch_of_bodies Chan.table (fun _ => rfl) hubUpdate_bodies chn
@[simp] theorem hubUpdate_ch_tableEn {s : State} {n : Nat} {u : Update} {chn : Nat} :
    ((hubUpdate s n u).ch chn).tableEn = (s.ch chn).tableEn :=
  State.ch_of_bodies Chan.tableEn (fun _ => rfl) hubUpdate_bodies chn
@[simp] theorem hubUpdate_ch_slots {s : State} {n : Nat} {u : Update} {chn : Nat} :
    ((hubUpdate s n u).ch chn).slots = (s.ch chn).slots :=
  State.ch_of_bodies Chan.slots (fun _ => rfl) hubUpdate_bodies chn
@[simp] theorem hubUpdate_ch_snap {s : State} {n : Nat} {u : Update} {chn : Nat} :
    ((hubUpdate s n u).ch chn).snap = (s.ch chn).snap :=
  State.ch_of_bodies Chan.snap (fun _ => rfl) hubUpdate_bodies chn
@[simp] theorem hubUpdate_ch_feTrips {s : State} {n : Nat} {u : Update} {chn : Nat} :
    ((hubUpdate s n u).ch chn).feTrips = (s.ch chn).feTrips :=
  State.ch_of_bodies Chan.feTrips (fun _ => rfl) hubUpdate_bodies chn
@[simp] theorem hubUpdate_ch_can {s : State} {n : Nat} {u : Update} {chn : Nat} :
    ((hubUpdate s n u).ch chn).can = (s.ch chn).can :=
  State.ch_of_bodies Chan.can (fun _ => rfl) hubUpdate_bodies chn
@[simp] theorem hubUpdate_ch_seg {s : State} {n : Nat} {u : Update} {chn : Nat} :
    ((hubUpdate s n u).ch chn).seg = (s.ch chn).seg :=
  State.ch_of_bodies Chan.seg (fun _ => rfl) hubUpdate_bodies chn
@[simp] theorem hubUpdate_ch_dio {s : State} {n : Nat} {u : Update} {chn : Nat} :
    ((hubUpdate s n u).ch chn).dio = (s.ch chn).dio :=
  State.ch_of_bodies Chan.dio (fun _ => rfl) hubUpdate_bodies chn
@[simp] theorem hubUpdate_ch_staged {s : State} {n : Nat} {u : Update} {chn : Nat} :
    ((hubUpdate s n u).ch chn).staged = (s.ch chn).staged :=
  State.ch_of_bodies Chan.staged (fun _ => rfl) hubUpdate_bodies chn
@[simp] theorem hubUpdate_ch_stopped {s : State} {n : Nat} {u : Update} {chn : Nat} :
    ((hubUpdate s n u).ch chn).stopped = (s.ch chn).stopped :=
  State.ch_of_bodies Chan.stopped (fun _ => rfl) hubUpdate_bodies chn
@[simp] theorem hubUpdate_ch_relArmed {s : State} {n : Nat} {u : Update} {chn : Nat} :
    ((hubUpdate s n u).ch chn).relArmed = (s.ch chn).relArmed :=
  State.ch_of_bodies Chan.relArmed (fun _ => rfl) hubUpdate_bodies chn
@[simp] theorem hubUpdate_ch_stopH {s : State} {n : Nat} {u : Update} {chn : Nat} :
    ((hubUpdate s n u).ch chn).stopH = (s.ch chn).stopH :=
  State.ch_of_bodies Chan.stopH (fun _ => rfl) hubUpdate_bodies chn
@[simp] theorem hubUpdate_dio {s : State} {n : Nat} {u : Update} {chn : Nat} : (hubUpdate s n u).dio chn = s.dio chn :=
  hubUpdate_ch_dio

@[simp] theorem acquireTerm_ch_state {s : State} {n term : Nat} {v : Slot} {q : Nat} {stamp : Instant} {chn : Nat} :
    ((acquireTerm s n term v q stamp).ch chn).state = (s.ch chn).state :=
  State.ch_of_bodies Chan.state (fun _ => rfl) acquireTerm_bodies chn
@[simp] theorem acquireTerm_ch_prior {s : State} {n term : Nat} {v : Slot} {q : Nat} {stamp : Instant} {chn : Nat} :
    ((acquireTerm s n term v q stamp).ch chn).prior = (s.ch chn).prior :=
  State.ch_of_bodies Chan.prior (fun _ => rfl) acquireTerm_bodies chn
@[simp] theorem acquireTerm_ch_xbarUp {s : State} {n term : Nat} {v : Slot} {q : Nat} {stamp : Instant} {chn : Nat} :
    ((acquireTerm s n term v q stamp).ch chn).xbarUp = (s.ch chn).xbarUp :=
  State.ch_of_bodies Chan.xbarUp (fun _ => rfl) acquireTerm_bodies chn
@[simp] theorem acquireTerm_ch_relock {s : State} {n term : Nat} {v : Slot} {q : Nat} {stamp : Instant} {chn : Nat} :
    ((acquireTerm s n term v q stamp).ch chn).relock = (s.ch chn).relock :=
  State.ch_of_bodies Chan.relock (fun _ => rfl) acquireTerm_bodies chn
@[simp] theorem acquireTerm_ch_copied {s : State} {n term : Nat} {v : Slot} {q : Nat} {stamp : Instant} {chn : Nat} :
    ((acquireTerm s n term v q stamp).ch chn).copied = (s.ch chn).copied :=
  State.ch_of_bodies Chan.copied (fun _ => rfl) acquireTerm_bodies chn
@[simp] theorem acquireTerm_ch_isoOk {s : State} {n term : Nat} {v : Slot} {q : Nat} {stamp : Instant} {chn : Nat} :
    ((acquireTerm s n term v q stamp).ch chn).isoOk = (s.ch chn).isoOk :=
  State.ch_of_bodies Chan.isoOk (fun _ => rfl) acquireTerm_bodies chn
@[simp] theorem acquireTerm_ch_lossCnt {s : State} {n term : Nat} {v : Slot} {q : Nat} {stamp : Instant} {chn : Nat} :
    ((acquireTerm s n term v q stamp).ch chn).lossCnt = (s.ch chn).lossCnt :=
  State.ch_of_bodies Chan.lossCnt (fun _ => rfl) acquireTerm_bodies chn
@[simp] theorem acquireTerm_ch_tb {s : State} {n term : Nat} {v : Slot} {q : Nat} {stamp : Instant} {chn : Nat} :
    ((acquireTerm s n term v q stamp).ch chn).tb = (s.ch chn).tb :=
  State.ch_of_bodies Chan.tb (fun _ => rfl) acquireTerm_bodies chn
@[simp] theorem acquireTerm_ch_cmds {s : State} {n term : Nat} {v : Slot} {q : Nat} {stamp : Instant} {chn : Nat} :
    ((acquireTerm s n term v q stamp).ch chn).cmds = (s.ch chn).cmds :=
  State.ch_of_bodies Chan.cmds (fun _ => rfl) acquireTerm_bodies chn
@[simp] theorem acquireTerm_ch_inputs {s : State} {n term : Nat} {v : Slot} {q : Nat} {stamp : Instant} {chn : Nat} :
    ((acquireTerm s n term v q stamp).ch chn).inputs = (s.ch chn).inputs :=
  State.ch_of_bodies Chan.inputs (fun _ => rfl) acquireTerm_bodies chn
@[simp] theorem acquireTerm_ch_table {s : State} {n term : Nat} {v : Slot} {q : Nat} {stamp : Instant} {chn : Nat} :
    ((acquireTerm s n term v q stamp).ch chn).table = (s.ch chn).table :=
  State.ch_of_bodies Chan.table (fun _ => rfl) acquireTerm_bodies chn
@[simp] theorem acquireTerm_ch_tableEn {s : State} {n term : Nat} {v : Slot} {q : Nat} {stamp : Instant} {chn : Nat} :
    ((acquireTerm s n term v q stamp).ch chn).tableEn = (s.ch chn).tableEn :=
  State.ch_of_bodies Chan.tableEn (fun _ => rfl) acquireTerm_bodies chn
@[simp] theorem acquireTerm_ch_slots {s : State} {n term : Nat} {v : Slot} {q : Nat} {stamp : Instant} {chn : Nat} :
    ((acquireTerm s n term v q stamp).ch chn).slots = (s.ch chn).slots :=
  State.ch_of_bodies Chan.slots (fun _ => rfl) acquireTerm_bodies chn
@[simp] theorem acquireTerm_ch_snap {s : State} {n term : Nat} {v : Slot} {q : Nat} {stamp : Instant} {chn : Nat} :
    ((acquireTerm s n term v q stamp).ch chn).snap = (s.ch chn).snap :=
  State.ch_of_bodies Chan.snap (fun _ => rfl) acquireTerm_bodies chn
@[simp] theorem acquireTerm_ch_feTrips {s : State} {n term : Nat} {v : Slot} {q : Nat} {stamp : Instant} {chn : Nat} :
    ((acquireTerm s n term v q stamp).ch chn).feTrips = (s.ch chn).feTrips :=
  State.ch_of_bodies Chan.feTrips (fun _ => rfl) acquireTerm_bodies chn
@[simp] theorem acquireTerm_ch_can {s : State} {n term : Nat} {v : Slot} {q : Nat} {stamp : Instant} {chn : Nat} :
    ((acquireTerm s n term v q stamp).ch chn).can = (s.ch chn).can :=
  State.ch_of_bodies Chan.can (fun _ => rfl) acquireTerm_bodies chn
@[simp] theorem acquireTerm_ch_seg {s : State} {n term : Nat} {v : Slot} {q : Nat} {stamp : Instant} {chn : Nat} :
    ((acquireTerm s n term v q stamp).ch chn).seg = (s.ch chn).seg :=
  State.ch_of_bodies Chan.seg (fun _ => rfl) acquireTerm_bodies chn
@[simp] theorem acquireTerm_ch_dio {s : State} {n term : Nat} {v : Slot} {q : Nat} {stamp : Instant} {chn : Nat} :
    ((acquireTerm s n term v q stamp).ch chn).dio = (s.ch chn).dio :=
  State.ch_of_bodies Chan.dio (fun _ => rfl) acquireTerm_bodies chn
@[simp] theorem acquireTerm_ch_staged {s : State} {n term : Nat} {v : Slot} {q : Nat} {stamp : Instant} {chn : Nat} :
    ((acquireTerm s n term v q stamp).ch chn).staged = (s.ch chn).staged :=
  State.ch_of_bodies Chan.staged (fun _ => rfl) acquireTerm_bodies chn
@[simp] theorem acquireTerm_ch_stopped {s : State} {n term : Nat} {v : Slot} {q : Nat} {stamp : Instant} {chn : Nat} :
    ((acquireTerm s n term v q stamp).ch chn).stopped = (s.ch chn).stopped :=
  State.ch_of_bodies Chan.stopped (fun _ => rfl) acquireTerm_bodies chn
@[simp] theorem acquireTerm_ch_relArmed {s : State} {n term : Nat} {v : Slot} {q : Nat} {stamp : Instant} {chn : Nat} :
    ((acquireTerm s n term v q stamp).ch chn).relArmed = (s.ch chn).relArmed :=
  State.ch_of_bodies Chan.relArmed (fun _ => rfl) acquireTerm_bodies chn
@[simp] theorem acquireTerm_ch_stopH {s : State} {n term : Nat} {v : Slot} {q : Nat} {stamp : Instant} {chn : Nat} :
    ((acquireTerm s n term v q stamp).ch chn).stopH = (s.ch chn).stopH :=
  State.ch_of_bodies Chan.stopH (fun _ => rfl) acquireTerm_bodies chn
@[simp] theorem acquireTerm_dio {s : State} {n term : Nat} {v : Slot} {q : Nat} {stamp : Instant} {chn : Nat} : (acquireTerm s n term v q stamp).dio chn = s.dio chn :=
  acquireTerm_ch_dio

@[simp] theorem acquireDin_ch_state {s : State} {n i : Nat} {q : Nat} {stamp : Instant} {chn : Nat} :
    ((acquireDin s n i q stamp).ch chn).state = (s.ch chn).state :=
  State.ch_of_bodies Chan.state (fun _ => rfl) acquireDin_bodies chn
@[simp] theorem acquireDin_ch_prior {s : State} {n i : Nat} {q : Nat} {stamp : Instant} {chn : Nat} :
    ((acquireDin s n i q stamp).ch chn).prior = (s.ch chn).prior :=
  State.ch_of_bodies Chan.prior (fun _ => rfl) acquireDin_bodies chn
@[simp] theorem acquireDin_ch_xbarUp {s : State} {n i : Nat} {q : Nat} {stamp : Instant} {chn : Nat} :
    ((acquireDin s n i q stamp).ch chn).xbarUp = (s.ch chn).xbarUp :=
  State.ch_of_bodies Chan.xbarUp (fun _ => rfl) acquireDin_bodies chn
@[simp] theorem acquireDin_ch_relock {s : State} {n i : Nat} {q : Nat} {stamp : Instant} {chn : Nat} :
    ((acquireDin s n i q stamp).ch chn).relock = (s.ch chn).relock :=
  State.ch_of_bodies Chan.relock (fun _ => rfl) acquireDin_bodies chn
@[simp] theorem acquireDin_ch_copied {s : State} {n i : Nat} {q : Nat} {stamp : Instant} {chn : Nat} :
    ((acquireDin s n i q stamp).ch chn).copied = (s.ch chn).copied :=
  State.ch_of_bodies Chan.copied (fun _ => rfl) acquireDin_bodies chn
@[simp] theorem acquireDin_ch_isoOk {s : State} {n i : Nat} {q : Nat} {stamp : Instant} {chn : Nat} :
    ((acquireDin s n i q stamp).ch chn).isoOk = (s.ch chn).isoOk :=
  State.ch_of_bodies Chan.isoOk (fun _ => rfl) acquireDin_bodies chn
@[simp] theorem acquireDin_ch_lossCnt {s : State} {n i : Nat} {q : Nat} {stamp : Instant} {chn : Nat} :
    ((acquireDin s n i q stamp).ch chn).lossCnt = (s.ch chn).lossCnt :=
  State.ch_of_bodies Chan.lossCnt (fun _ => rfl) acquireDin_bodies chn
@[simp] theorem acquireDin_ch_tb {s : State} {n i : Nat} {q : Nat} {stamp : Instant} {chn : Nat} :
    ((acquireDin s n i q stamp).ch chn).tb = (s.ch chn).tb :=
  State.ch_of_bodies Chan.tb (fun _ => rfl) acquireDin_bodies chn
@[simp] theorem acquireDin_ch_cmds {s : State} {n i : Nat} {q : Nat} {stamp : Instant} {chn : Nat} :
    ((acquireDin s n i q stamp).ch chn).cmds = (s.ch chn).cmds :=
  State.ch_of_bodies Chan.cmds (fun _ => rfl) acquireDin_bodies chn
@[simp] theorem acquireDin_ch_inputs {s : State} {n i : Nat} {q : Nat} {stamp : Instant} {chn : Nat} :
    ((acquireDin s n i q stamp).ch chn).inputs = (s.ch chn).inputs :=
  State.ch_of_bodies Chan.inputs (fun _ => rfl) acquireDin_bodies chn
@[simp] theorem acquireDin_ch_table {s : State} {n i : Nat} {q : Nat} {stamp : Instant} {chn : Nat} :
    ((acquireDin s n i q stamp).ch chn).table = (s.ch chn).table :=
  State.ch_of_bodies Chan.table (fun _ => rfl) acquireDin_bodies chn
@[simp] theorem acquireDin_ch_tableEn {s : State} {n i : Nat} {q : Nat} {stamp : Instant} {chn : Nat} :
    ((acquireDin s n i q stamp).ch chn).tableEn = (s.ch chn).tableEn :=
  State.ch_of_bodies Chan.tableEn (fun _ => rfl) acquireDin_bodies chn
@[simp] theorem acquireDin_ch_slots {s : State} {n i : Nat} {q : Nat} {stamp : Instant} {chn : Nat} :
    ((acquireDin s n i q stamp).ch chn).slots = (s.ch chn).slots :=
  State.ch_of_bodies Chan.slots (fun _ => rfl) acquireDin_bodies chn
@[simp] theorem acquireDin_ch_snap {s : State} {n i : Nat} {q : Nat} {stamp : Instant} {chn : Nat} :
    ((acquireDin s n i q stamp).ch chn).snap = (s.ch chn).snap :=
  State.ch_of_bodies Chan.snap (fun _ => rfl) acquireDin_bodies chn
@[simp] theorem acquireDin_ch_feTrips {s : State} {n i : Nat} {q : Nat} {stamp : Instant} {chn : Nat} :
    ((acquireDin s n i q stamp).ch chn).feTrips = (s.ch chn).feTrips :=
  State.ch_of_bodies Chan.feTrips (fun _ => rfl) acquireDin_bodies chn
@[simp] theorem acquireDin_ch_can {s : State} {n i : Nat} {q : Nat} {stamp : Instant} {chn : Nat} :
    ((acquireDin s n i q stamp).ch chn).can = (s.ch chn).can :=
  State.ch_of_bodies Chan.can (fun _ => rfl) acquireDin_bodies chn
@[simp] theorem acquireDin_ch_seg {s : State} {n i : Nat} {q : Nat} {stamp : Instant} {chn : Nat} :
    ((acquireDin s n i q stamp).ch chn).seg = (s.ch chn).seg :=
  State.ch_of_bodies Chan.seg (fun _ => rfl) acquireDin_bodies chn
@[simp] theorem acquireDin_ch_dio {s : State} {n i : Nat} {q : Nat} {stamp : Instant} {chn : Nat} :
    ((acquireDin s n i q stamp).ch chn).dio = (s.ch chn).dio :=
  State.ch_of_bodies Chan.dio (fun _ => rfl) acquireDin_bodies chn
@[simp] theorem acquireDin_ch_staged {s : State} {n i : Nat} {q : Nat} {stamp : Instant} {chn : Nat} :
    ((acquireDin s n i q stamp).ch chn).staged = (s.ch chn).staged :=
  State.ch_of_bodies Chan.staged (fun _ => rfl) acquireDin_bodies chn
@[simp] theorem acquireDin_ch_stopped {s : State} {n i : Nat} {q : Nat} {stamp : Instant} {chn : Nat} :
    ((acquireDin s n i q stamp).ch chn).stopped = (s.ch chn).stopped :=
  State.ch_of_bodies Chan.stopped (fun _ => rfl) acquireDin_bodies chn
@[simp] theorem acquireDin_ch_relArmed {s : State} {n i : Nat} {q : Nat} {stamp : Instant} {chn : Nat} :
    ((acquireDin s n i q stamp).ch chn).relArmed = (s.ch chn).relArmed :=
  State.ch_of_bodies Chan.relArmed (fun _ => rfl) acquireDin_bodies chn
@[simp] theorem acquireDin_ch_stopH {s : State} {n i : Nat} {q : Nat} {stamp : Instant} {chn : Nat} :
    ((acquireDin s n i q stamp).ch chn).stopH = (s.ch chn).stopH :=
  State.ch_of_bodies Chan.stopH (fun _ => rfl) acquireDin_bodies chn
@[simp] theorem acquireDin_dio {s : State} {n i : Nat} {q : Nat} {stamp : Instant} {chn : Nat} : (acquireDin s n i q stamp).dio chn = s.dio chn :=
  acquireDin_ch_dio

@[simp] theorem acquireCnt_ch_state {s : State} {n i : Nat} {q : Nat} {stamp : Instant} {chn : Nat} :
    ((acquireCnt s n i q stamp).ch chn).state = (s.ch chn).state :=
  State.ch_of_bodies Chan.state (fun _ => rfl) acquireCnt_bodies chn
@[simp] theorem acquireCnt_ch_prior {s : State} {n i : Nat} {q : Nat} {stamp : Instant} {chn : Nat} :
    ((acquireCnt s n i q stamp).ch chn).prior = (s.ch chn).prior :=
  State.ch_of_bodies Chan.prior (fun _ => rfl) acquireCnt_bodies chn
@[simp] theorem acquireCnt_ch_xbarUp {s : State} {n i : Nat} {q : Nat} {stamp : Instant} {chn : Nat} :
    ((acquireCnt s n i q stamp).ch chn).xbarUp = (s.ch chn).xbarUp :=
  State.ch_of_bodies Chan.xbarUp (fun _ => rfl) acquireCnt_bodies chn
@[simp] theorem acquireCnt_ch_relock {s : State} {n i : Nat} {q : Nat} {stamp : Instant} {chn : Nat} :
    ((acquireCnt s n i q stamp).ch chn).relock = (s.ch chn).relock :=
  State.ch_of_bodies Chan.relock (fun _ => rfl) acquireCnt_bodies chn
@[simp] theorem acquireCnt_ch_copied {s : State} {n i : Nat} {q : Nat} {stamp : Instant} {chn : Nat} :
    ((acquireCnt s n i q stamp).ch chn).copied = (s.ch chn).copied :=
  State.ch_of_bodies Chan.copied (fun _ => rfl) acquireCnt_bodies chn
@[simp] theorem acquireCnt_ch_isoOk {s : State} {n i : Nat} {q : Nat} {stamp : Instant} {chn : Nat} :
    ((acquireCnt s n i q stamp).ch chn).isoOk = (s.ch chn).isoOk :=
  State.ch_of_bodies Chan.isoOk (fun _ => rfl) acquireCnt_bodies chn
@[simp] theorem acquireCnt_ch_lossCnt {s : State} {n i : Nat} {q : Nat} {stamp : Instant} {chn : Nat} :
    ((acquireCnt s n i q stamp).ch chn).lossCnt = (s.ch chn).lossCnt :=
  State.ch_of_bodies Chan.lossCnt (fun _ => rfl) acquireCnt_bodies chn
@[simp] theorem acquireCnt_ch_tb {s : State} {n i : Nat} {q : Nat} {stamp : Instant} {chn : Nat} :
    ((acquireCnt s n i q stamp).ch chn).tb = (s.ch chn).tb :=
  State.ch_of_bodies Chan.tb (fun _ => rfl) acquireCnt_bodies chn
@[simp] theorem acquireCnt_ch_cmds {s : State} {n i : Nat} {q : Nat} {stamp : Instant} {chn : Nat} :
    ((acquireCnt s n i q stamp).ch chn).cmds = (s.ch chn).cmds :=
  State.ch_of_bodies Chan.cmds (fun _ => rfl) acquireCnt_bodies chn
@[simp] theorem acquireCnt_ch_inputs {s : State} {n i : Nat} {q : Nat} {stamp : Instant} {chn : Nat} :
    ((acquireCnt s n i q stamp).ch chn).inputs = (s.ch chn).inputs :=
  State.ch_of_bodies Chan.inputs (fun _ => rfl) acquireCnt_bodies chn
@[simp] theorem acquireCnt_ch_table {s : State} {n i : Nat} {q : Nat} {stamp : Instant} {chn : Nat} :
    ((acquireCnt s n i q stamp).ch chn).table = (s.ch chn).table :=
  State.ch_of_bodies Chan.table (fun _ => rfl) acquireCnt_bodies chn
@[simp] theorem acquireCnt_ch_tableEn {s : State} {n i : Nat} {q : Nat} {stamp : Instant} {chn : Nat} :
    ((acquireCnt s n i q stamp).ch chn).tableEn = (s.ch chn).tableEn :=
  State.ch_of_bodies Chan.tableEn (fun _ => rfl) acquireCnt_bodies chn
@[simp] theorem acquireCnt_ch_slots {s : State} {n i : Nat} {q : Nat} {stamp : Instant} {chn : Nat} :
    ((acquireCnt s n i q stamp).ch chn).slots = (s.ch chn).slots :=
  State.ch_of_bodies Chan.slots (fun _ => rfl) acquireCnt_bodies chn
@[simp] theorem acquireCnt_ch_snap {s : State} {n i : Nat} {q : Nat} {stamp : Instant} {chn : Nat} :
    ((acquireCnt s n i q stamp).ch chn).snap = (s.ch chn).snap :=
  State.ch_of_bodies Chan.snap (fun _ => rfl) acquireCnt_bodies chn
@[simp] theorem acquireCnt_ch_feTrips {s : State} {n i : Nat} {q : Nat} {stamp : Instant} {chn : Nat} :
    ((acquireCnt s n i q stamp).ch chn).feTrips = (s.ch chn).feTrips :=
  State.ch_of_bodies Chan.feTrips (fun _ => rfl) acquireCnt_bodies chn
@[simp] theorem acquireCnt_ch_can {s : State} {n i : Nat} {q : Nat} {stamp : Instant} {chn : Nat} :
    ((acquireCnt s n i q stamp).ch chn).can = (s.ch chn).can :=
  State.ch_of_bodies Chan.can (fun _ => rfl) acquireCnt_bodies chn
@[simp] theorem acquireCnt_ch_seg {s : State} {n i : Nat} {q : Nat} {stamp : Instant} {chn : Nat} :
    ((acquireCnt s n i q stamp).ch chn).seg = (s.ch chn).seg :=
  State.ch_of_bodies Chan.seg (fun _ => rfl) acquireCnt_bodies chn
@[simp] theorem acquireCnt_ch_dio {s : State} {n i : Nat} {q : Nat} {stamp : Instant} {chn : Nat} :
    ((acquireCnt s n i q stamp).ch chn).dio = (s.ch chn).dio :=
  State.ch_of_bodies Chan.dio (fun _ => rfl) acquireCnt_bodies chn
@[simp] theorem acquireCnt_ch_staged {s : State} {n i : Nat} {q : Nat} {stamp : Instant} {chn : Nat} :
    ((acquireCnt s n i q stamp).ch chn).staged = (s.ch chn).staged :=
  State.ch_of_bodies Chan.staged (fun _ => rfl) acquireCnt_bodies chn
@[simp] theorem acquireCnt_ch_stopped {s : State} {n i : Nat} {q : Nat} {stamp : Instant} {chn : Nat} :
    ((acquireCnt s n i q stamp).ch chn).stopped = (s.ch chn).stopped :=
  State.ch_of_bodies Chan.stopped (fun _ => rfl) acquireCnt_bodies chn
@[simp] theorem acquireCnt_ch_relArmed {s : State} {n i : Nat} {q : Nat} {stamp : Instant} {chn : Nat} :
    ((acquireCnt s n i q stamp).ch chn).relArmed = (s.ch chn).relArmed :=
  State.ch_of_bodies Chan.relArmed (fun _ => rfl) acquireCnt_bodies chn
@[simp] theorem acquireCnt_ch_stopH {s : State} {n i : Nat} {q : Nat} {stamp : Instant} {chn : Nat} :
    ((acquireCnt s n i q stamp).ch chn).stopH = (s.ch chn).stopH :=
  State.ch_of_bodies Chan.stopH (fun _ => rfl) acquireCnt_bodies chn
@[simp] theorem acquireCnt_dio {s : State} {n i : Nat} {q : Nat} {stamp : Instant} {chn : Nat} : (acquireCnt s n i q stamp).dio chn = s.dio chn :=
  acquireCnt_ch_dio

@[simp] theorem acquireInputs_ch_state {s : State} {n : Nat} {q : Nat} {chn : Nat} :
    ((acquireInputs s n q).ch chn).state = (s.ch chn).state :=
  State.ch_of_bodies Chan.state (fun _ => rfl) acquireInputs_bodies chn
@[simp] theorem acquireInputs_ch_prior {s : State} {n : Nat} {q : Nat} {chn : Nat} :
    ((acquireInputs s n q).ch chn).prior = (s.ch chn).prior :=
  State.ch_of_bodies Chan.prior (fun _ => rfl) acquireInputs_bodies chn
@[simp] theorem acquireInputs_ch_xbarUp {s : State} {n : Nat} {q : Nat} {chn : Nat} :
    ((acquireInputs s n q).ch chn).xbarUp = (s.ch chn).xbarUp :=
  State.ch_of_bodies Chan.xbarUp (fun _ => rfl) acquireInputs_bodies chn
@[simp] theorem acquireInputs_ch_relock {s : State} {n : Nat} {q : Nat} {chn : Nat} :
    ((acquireInputs s n q).ch chn).relock = (s.ch chn).relock :=
  State.ch_of_bodies Chan.relock (fun _ => rfl) acquireInputs_bodies chn
@[simp] theorem acquireInputs_ch_copied {s : State} {n : Nat} {q : Nat} {chn : Nat} :
    ((acquireInputs s n q).ch chn).copied = (s.ch chn).copied :=
  State.ch_of_bodies Chan.copied (fun _ => rfl) acquireInputs_bodies chn
@[simp] theorem acquireInputs_ch_isoOk {s : State} {n : Nat} {q : Nat} {chn : Nat} :
    ((acquireInputs s n q).ch chn).isoOk = (s.ch chn).isoOk :=
  State.ch_of_bodies Chan.isoOk (fun _ => rfl) acquireInputs_bodies chn
@[simp] theorem acquireInputs_ch_lossCnt {s : State} {n : Nat} {q : Nat} {chn : Nat} :
    ((acquireInputs s n q).ch chn).lossCnt = (s.ch chn).lossCnt :=
  State.ch_of_bodies Chan.lossCnt (fun _ => rfl) acquireInputs_bodies chn
@[simp] theorem acquireInputs_ch_tb {s : State} {n : Nat} {q : Nat} {chn : Nat} :
    ((acquireInputs s n q).ch chn).tb = (s.ch chn).tb :=
  State.ch_of_bodies Chan.tb (fun _ => rfl) acquireInputs_bodies chn
@[simp] theorem acquireInputs_ch_cmds {s : State} {n : Nat} {q : Nat} {chn : Nat} :
    ((acquireInputs s n q).ch chn).cmds = (s.ch chn).cmds :=
  State.ch_of_bodies Chan.cmds (fun _ => rfl) acquireInputs_bodies chn
@[simp] theorem acquireInputs_ch_inputs {s : State} {n : Nat} {q : Nat} {chn : Nat} :
    ((acquireInputs s n q).ch chn).inputs = (s.ch chn).inputs :=
  State.ch_of_bodies Chan.inputs (fun _ => rfl) acquireInputs_bodies chn
@[simp] theorem acquireInputs_ch_table {s : State} {n : Nat} {q : Nat} {chn : Nat} :
    ((acquireInputs s n q).ch chn).table = (s.ch chn).table :=
  State.ch_of_bodies Chan.table (fun _ => rfl) acquireInputs_bodies chn
@[simp] theorem acquireInputs_ch_tableEn {s : State} {n : Nat} {q : Nat} {chn : Nat} :
    ((acquireInputs s n q).ch chn).tableEn = (s.ch chn).tableEn :=
  State.ch_of_bodies Chan.tableEn (fun _ => rfl) acquireInputs_bodies chn
@[simp] theorem acquireInputs_ch_slots {s : State} {n : Nat} {q : Nat} {chn : Nat} :
    ((acquireInputs s n q).ch chn).slots = (s.ch chn).slots :=
  State.ch_of_bodies Chan.slots (fun _ => rfl) acquireInputs_bodies chn
@[simp] theorem acquireInputs_ch_snap {s : State} {n : Nat} {q : Nat} {chn : Nat} :
    ((acquireInputs s n q).ch chn).snap = (s.ch chn).snap :=
  State.ch_of_bodies Chan.snap (fun _ => rfl) acquireInputs_bodies chn
@[simp] theorem acquireInputs_ch_feTrips {s : State} {n : Nat} {q : Nat} {chn : Nat} :
    ((acquireInputs s n q).ch chn).feTrips = (s.ch chn).feTrips :=
  State.ch_of_bodies Chan.feTrips (fun _ => rfl) acquireInputs_bodies chn
@[simp] theorem acquireInputs_ch_can {s : State} {n : Nat} {q : Nat} {chn : Nat} :
    ((acquireInputs s n q).ch chn).can = (s.ch chn).can :=
  State.ch_of_bodies Chan.can (fun _ => rfl) acquireInputs_bodies chn
@[simp] theorem acquireInputs_ch_seg {s : State} {n : Nat} {q : Nat} {chn : Nat} :
    ((acquireInputs s n q).ch chn).seg = (s.ch chn).seg :=
  State.ch_of_bodies Chan.seg (fun _ => rfl) acquireInputs_bodies chn
@[simp] theorem acquireInputs_ch_dio {s : State} {n : Nat} {q : Nat} {chn : Nat} :
    ((acquireInputs s n q).ch chn).dio = (s.ch chn).dio :=
  State.ch_of_bodies Chan.dio (fun _ => rfl) acquireInputs_bodies chn
@[simp] theorem acquireInputs_ch_staged {s : State} {n : Nat} {q : Nat} {chn : Nat} :
    ((acquireInputs s n q).ch chn).staged = (s.ch chn).staged :=
  State.ch_of_bodies Chan.staged (fun _ => rfl) acquireInputs_bodies chn
@[simp] theorem acquireInputs_ch_stopped {s : State} {n : Nat} {q : Nat} {chn : Nat} :
    ((acquireInputs s n q).ch chn).stopped = (s.ch chn).stopped :=
  State.ch_of_bodies Chan.stopped (fun _ => rfl) acquireInputs_bodies chn
@[simp] theorem acquireInputs_ch_relArmed {s : State} {n : Nat} {q : Nat} {chn : Nat} :
    ((acquireInputs s n q).ch chn).relArmed = (s.ch chn).relArmed :=
  State.ch_of_bodies Chan.relArmed (fun _ => rfl) acquireInputs_bodies chn
@[simp] theorem acquireInputs_ch_stopH {s : State} {n : Nat} {q : Nat} {chn : Nat} :
    ((acquireInputs s n q).ch chn).stopH = (s.ch chn).stopH :=
  State.ch_of_bodies Chan.stopH (fun _ => rfl) acquireInputs_bodies chn
@[simp] theorem acquireInputs_dio {s : State} {n : Nat} {q : Nat} {chn : Nat} : (acquireInputs s n q).dio chn = s.dio chn :=
  acquireInputs_ch_dio

@[simp] theorem reacquireAin_ch_state {s : State} {n i : Nat} {q : Nat} {chn : Nat} :
    ((reacquireAin s n i q).ch chn).state = (s.ch chn).state :=
  State.ch_of_bodies Chan.state (fun _ => rfl) reacquireAin_bodies chn
@[simp] theorem reacquireAin_ch_prior {s : State} {n i : Nat} {q : Nat} {chn : Nat} :
    ((reacquireAin s n i q).ch chn).prior = (s.ch chn).prior :=
  State.ch_of_bodies Chan.prior (fun _ => rfl) reacquireAin_bodies chn
@[simp] theorem reacquireAin_ch_xbarUp {s : State} {n i : Nat} {q : Nat} {chn : Nat} :
    ((reacquireAin s n i q).ch chn).xbarUp = (s.ch chn).xbarUp :=
  State.ch_of_bodies Chan.xbarUp (fun _ => rfl) reacquireAin_bodies chn
@[simp] theorem reacquireAin_ch_relock {s : State} {n i : Nat} {q : Nat} {chn : Nat} :
    ((reacquireAin s n i q).ch chn).relock = (s.ch chn).relock :=
  State.ch_of_bodies Chan.relock (fun _ => rfl) reacquireAin_bodies chn
@[simp] theorem reacquireAin_ch_copied {s : State} {n i : Nat} {q : Nat} {chn : Nat} :
    ((reacquireAin s n i q).ch chn).copied = (s.ch chn).copied :=
  State.ch_of_bodies Chan.copied (fun _ => rfl) reacquireAin_bodies chn
@[simp] theorem reacquireAin_ch_isoOk {s : State} {n i : Nat} {q : Nat} {chn : Nat} :
    ((reacquireAin s n i q).ch chn).isoOk = (s.ch chn).isoOk :=
  State.ch_of_bodies Chan.isoOk (fun _ => rfl) reacquireAin_bodies chn
@[simp] theorem reacquireAin_ch_lossCnt {s : State} {n i : Nat} {q : Nat} {chn : Nat} :
    ((reacquireAin s n i q).ch chn).lossCnt = (s.ch chn).lossCnt :=
  State.ch_of_bodies Chan.lossCnt (fun _ => rfl) reacquireAin_bodies chn
@[simp] theorem reacquireAin_ch_tb {s : State} {n i : Nat} {q : Nat} {chn : Nat} :
    ((reacquireAin s n i q).ch chn).tb = (s.ch chn).tb :=
  State.ch_of_bodies Chan.tb (fun _ => rfl) reacquireAin_bodies chn
@[simp] theorem reacquireAin_ch_cmds {s : State} {n i : Nat} {q : Nat} {chn : Nat} :
    ((reacquireAin s n i q).ch chn).cmds = (s.ch chn).cmds :=
  State.ch_of_bodies Chan.cmds (fun _ => rfl) reacquireAin_bodies chn
@[simp] theorem reacquireAin_ch_inputs {s : State} {n i : Nat} {q : Nat} {chn : Nat} :
    ((reacquireAin s n i q).ch chn).inputs = (s.ch chn).inputs :=
  State.ch_of_bodies Chan.inputs (fun _ => rfl) reacquireAin_bodies chn
@[simp] theorem reacquireAin_ch_table {s : State} {n i : Nat} {q : Nat} {chn : Nat} :
    ((reacquireAin s n i q).ch chn).table = (s.ch chn).table :=
  State.ch_of_bodies Chan.table (fun _ => rfl) reacquireAin_bodies chn
@[simp] theorem reacquireAin_ch_tableEn {s : State} {n i : Nat} {q : Nat} {chn : Nat} :
    ((reacquireAin s n i q).ch chn).tableEn = (s.ch chn).tableEn :=
  State.ch_of_bodies Chan.tableEn (fun _ => rfl) reacquireAin_bodies chn
@[simp] theorem reacquireAin_ch_slots {s : State} {n i : Nat} {q : Nat} {chn : Nat} :
    ((reacquireAin s n i q).ch chn).slots = (s.ch chn).slots :=
  State.ch_of_bodies Chan.slots (fun _ => rfl) reacquireAin_bodies chn
@[simp] theorem reacquireAin_ch_snap {s : State} {n i : Nat} {q : Nat} {chn : Nat} :
    ((reacquireAin s n i q).ch chn).snap = (s.ch chn).snap :=
  State.ch_of_bodies Chan.snap (fun _ => rfl) reacquireAin_bodies chn
@[simp] theorem reacquireAin_ch_feTrips {s : State} {n i : Nat} {q : Nat} {chn : Nat} :
    ((reacquireAin s n i q).ch chn).feTrips = (s.ch chn).feTrips :=
  State.ch_of_bodies Chan.feTrips (fun _ => rfl) reacquireAin_bodies chn
@[simp] theorem reacquireAin_ch_can {s : State} {n i : Nat} {q : Nat} {chn : Nat} :
    ((reacquireAin s n i q).ch chn).can = (s.ch chn).can :=
  State.ch_of_bodies Chan.can (fun _ => rfl) reacquireAin_bodies chn
@[simp] theorem reacquireAin_ch_seg {s : State} {n i : Nat} {q : Nat} {chn : Nat} :
    ((reacquireAin s n i q).ch chn).seg = (s.ch chn).seg :=
  State.ch_of_bodies Chan.seg (fun _ => rfl) reacquireAin_bodies chn
@[simp] theorem reacquireAin_ch_dio {s : State} {n i : Nat} {q : Nat} {chn : Nat} :
    ((reacquireAin s n i q).ch chn).dio = (s.ch chn).dio :=
  State.ch_of_bodies Chan.dio (fun _ => rfl) reacquireAin_bodies chn
@[simp] theorem reacquireAin_ch_staged {s : State} {n i : Nat} {q : Nat} {chn : Nat} :
    ((reacquireAin s n i q).ch chn).staged = (s.ch chn).staged :=
  State.ch_of_bodies Chan.staged (fun _ => rfl) reacquireAin_bodies chn
@[simp] theorem reacquireAin_ch_stopped {s : State} {n i : Nat} {q : Nat} {chn : Nat} :
    ((reacquireAin s n i q).ch chn).stopped = (s.ch chn).stopped :=
  State.ch_of_bodies Chan.stopped (fun _ => rfl) reacquireAin_bodies chn
@[simp] theorem reacquireAin_ch_relArmed {s : State} {n i : Nat} {q : Nat} {chn : Nat} :
    ((reacquireAin s n i q).ch chn).relArmed = (s.ch chn).relArmed :=
  State.ch_of_bodies Chan.relArmed (fun _ => rfl) reacquireAin_bodies chn
@[simp] theorem reacquireAin_ch_stopH {s : State} {n i : Nat} {q : Nat} {chn : Nat} :
    ((reacquireAin s n i q).ch chn).stopH = (s.ch chn).stopH :=
  State.ch_of_bodies Chan.stopH (fun _ => rfl) reacquireAin_bodies chn
@[simp] theorem reacquireAin_dio {s : State} {n i : Nat} {q : Nat} {chn : Nat} : (reacquireAin s n i q).dio chn = s.dio chn :=
  reacquireAin_ch_dio

@[simp] theorem acquireAin_ch_state {s : State} {n i range : Nat} {u m : Int} {bad : Bool} {chn : Nat} :
    ((acquireAin s n i range u m bad).ch chn).state = (s.ch chn).state :=
  State.ch_of_bodies Chan.state (fun _ => rfl) acquireAin_bodies chn
@[simp] theorem acquireAin_ch_prior {s : State} {n i range : Nat} {u m : Int} {bad : Bool} {chn : Nat} :
    ((acquireAin s n i range u m bad).ch chn).prior = (s.ch chn).prior :=
  State.ch_of_bodies Chan.prior (fun _ => rfl) acquireAin_bodies chn
@[simp] theorem acquireAin_ch_xbarUp {s : State} {n i range : Nat} {u m : Int} {bad : Bool} {chn : Nat} :
    ((acquireAin s n i range u m bad).ch chn).xbarUp = (s.ch chn).xbarUp :=
  State.ch_of_bodies Chan.xbarUp (fun _ => rfl) acquireAin_bodies chn
@[simp] theorem acquireAin_ch_relock {s : State} {n i range : Nat} {u m : Int} {bad : Bool} {chn : Nat} :
    ((acquireAin s n i range u m bad).ch chn).relock = (s.ch chn).relock :=
  State.ch_of_bodies Chan.relock (fun _ => rfl) acquireAin_bodies chn
@[simp] theorem acquireAin_ch_copied {s : State} {n i range : Nat} {u m : Int} {bad : Bool} {chn : Nat} :
    ((acquireAin s n i range u m bad).ch chn).copied = (s.ch chn).copied :=
  State.ch_of_bodies Chan.copied (fun _ => rfl) acquireAin_bodies chn
@[simp] theorem acquireAin_ch_isoOk {s : State} {n i range : Nat} {u m : Int} {bad : Bool} {chn : Nat} :
    ((acquireAin s n i range u m bad).ch chn).isoOk = (s.ch chn).isoOk :=
  State.ch_of_bodies Chan.isoOk (fun _ => rfl) acquireAin_bodies chn
@[simp] theorem acquireAin_ch_lossCnt {s : State} {n i range : Nat} {u m : Int} {bad : Bool} {chn : Nat} :
    ((acquireAin s n i range u m bad).ch chn).lossCnt = (s.ch chn).lossCnt :=
  State.ch_of_bodies Chan.lossCnt (fun _ => rfl) acquireAin_bodies chn
@[simp] theorem acquireAin_ch_tb {s : State} {n i range : Nat} {u m : Int} {bad : Bool} {chn : Nat} :
    ((acquireAin s n i range u m bad).ch chn).tb = (s.ch chn).tb :=
  State.ch_of_bodies Chan.tb (fun _ => rfl) acquireAin_bodies chn
@[simp] theorem acquireAin_ch_cmds {s : State} {n i range : Nat} {u m : Int} {bad : Bool} {chn : Nat} :
    ((acquireAin s n i range u m bad).ch chn).cmds = (s.ch chn).cmds :=
  State.ch_of_bodies Chan.cmds (fun _ => rfl) acquireAin_bodies chn
@[simp] theorem acquireAin_ch_inputs {s : State} {n i range : Nat} {u m : Int} {bad : Bool} {chn : Nat} :
    ((acquireAin s n i range u m bad).ch chn).inputs = (s.ch chn).inputs :=
  State.ch_of_bodies Chan.inputs (fun _ => rfl) acquireAin_bodies chn
@[simp] theorem acquireAin_ch_table {s : State} {n i range : Nat} {u m : Int} {bad : Bool} {chn : Nat} :
    ((acquireAin s n i range u m bad).ch chn).table = (s.ch chn).table :=
  State.ch_of_bodies Chan.table (fun _ => rfl) acquireAin_bodies chn
@[simp] theorem acquireAin_ch_tableEn {s : State} {n i range : Nat} {u m : Int} {bad : Bool} {chn : Nat} :
    ((acquireAin s n i range u m bad).ch chn).tableEn = (s.ch chn).tableEn :=
  State.ch_of_bodies Chan.tableEn (fun _ => rfl) acquireAin_bodies chn
@[simp] theorem acquireAin_ch_slots {s : State} {n i range : Nat} {u m : Int} {bad : Bool} {chn : Nat} :
    ((acquireAin s n i range u m bad).ch chn).slots = (s.ch chn).slots :=
  State.ch_of_bodies Chan.slots (fun _ => rfl) acquireAin_bodies chn
@[simp] theorem acquireAin_ch_snap {s : State} {n i range : Nat} {u m : Int} {bad : Bool} {chn : Nat} :
    ((acquireAin s n i range u m bad).ch chn).snap = (s.ch chn).snap :=
  State.ch_of_bodies Chan.snap (fun _ => rfl) acquireAin_bodies chn
@[simp] theorem acquireAin_ch_feTrips {s : State} {n i range : Nat} {u m : Int} {bad : Bool} {chn : Nat} :
    ((acquireAin s n i range u m bad).ch chn).feTrips = (s.ch chn).feTrips :=
  State.ch_of_bodies Chan.feTrips (fun _ => rfl) acquireAin_bodies chn
@[simp] theorem acquireAin_ch_can {s : State} {n i range : Nat} {u m : Int} {bad : Bool} {chn : Nat} :
    ((acquireAin s n i range u m bad).ch chn).can = (s.ch chn).can :=
  State.ch_of_bodies Chan.can (fun _ => rfl) acquireAin_bodies chn
@[simp] theorem acquireAin_ch_seg {s : State} {n i range : Nat} {u m : Int} {bad : Bool} {chn : Nat} :
    ((acquireAin s n i range u m bad).ch chn).seg = (s.ch chn).seg :=
  State.ch_of_bodies Chan.seg (fun _ => rfl) acquireAin_bodies chn
@[simp] theorem acquireAin_ch_dio {s : State} {n i range : Nat} {u m : Int} {bad : Bool} {chn : Nat} :
    ((acquireAin s n i range u m bad).ch chn).dio = (s.ch chn).dio :=
  State.ch_of_bodies Chan.dio (fun _ => rfl) acquireAin_bodies chn
@[simp] theorem acquireAin_ch_staged {s : State} {n i range : Nat} {u m : Int} {bad : Bool} {chn : Nat} :
    ((acquireAin s n i range u m bad).ch chn).staged = (s.ch chn).staged :=
  State.ch_of_bodies Chan.staged (fun _ => rfl) acquireAin_bodies chn
@[simp] theorem acquireAin_ch_stopped {s : State} {n i range : Nat} {u m : Int} {bad : Bool} {chn : Nat} :
    ((acquireAin s n i range u m bad).ch chn).stopped = (s.ch chn).stopped :=
  State.ch_of_bodies Chan.stopped (fun _ => rfl) acquireAin_bodies chn
@[simp] theorem acquireAin_ch_relArmed {s : State} {n i range : Nat} {u m : Int} {bad : Bool} {chn : Nat} :
    ((acquireAin s n i range u m bad).ch chn).relArmed = (s.ch chn).relArmed :=
  State.ch_of_bodies Chan.relArmed (fun _ => rfl) acquireAin_bodies chn
@[simp] theorem acquireAin_ch_stopH {s : State} {n i range : Nat} {u m : Int} {bad : Bool} {chn : Nat} :
    ((acquireAin s n i range u m bad).ch chn).stopH = (s.ch chn).stopH :=
  State.ch_of_bodies Chan.stopH (fun _ => rfl) acquireAin_bodies chn
@[simp] theorem acquireAin_dio {s : State} {n i range : Nat} {u m : Int} {bad : Bool} {chn : Nat} : (acquireAin s n i range u m bad).dio chn = s.dio chn :=
  acquireAin_ch_dio

@[simp] theorem sendReport_ch_state {s : State} {n : Nat} {r : Report} {chn : Nat} :
    ((sendReport s n r).ch chn).state = (s.ch chn).state :=
  State.ch_of_bodies Chan.state (fun _ => rfl) sendReport_bodies chn
@[simp] theorem sendReport_ch_prior {s : State} {n : Nat} {r : Report} {chn : Nat} :
    ((sendReport s n r).ch chn).prior = (s.ch chn).prior :=
  State.ch_of_bodies Chan.prior (fun _ => rfl) sendReport_bodies chn
@[simp] theorem sendReport_ch_xbarUp {s : State} {n : Nat} {r : Report} {chn : Nat} :
    ((sendReport s n r).ch chn).xbarUp = (s.ch chn).xbarUp :=
  State.ch_of_bodies Chan.xbarUp (fun _ => rfl) sendReport_bodies chn
@[simp] theorem sendReport_ch_relock {s : State} {n : Nat} {r : Report} {chn : Nat} :
    ((sendReport s n r).ch chn).relock = (s.ch chn).relock :=
  State.ch_of_bodies Chan.relock (fun _ => rfl) sendReport_bodies chn
@[simp] theorem sendReport_ch_copied {s : State} {n : Nat} {r : Report} {chn : Nat} :
    ((sendReport s n r).ch chn).copied = (s.ch chn).copied :=
  State.ch_of_bodies Chan.copied (fun _ => rfl) sendReport_bodies chn
@[simp] theorem sendReport_ch_isoOk {s : State} {n : Nat} {r : Report} {chn : Nat} :
    ((sendReport s n r).ch chn).isoOk = (s.ch chn).isoOk :=
  State.ch_of_bodies Chan.isoOk (fun _ => rfl) sendReport_bodies chn
@[simp] theorem sendReport_ch_lossCnt {s : State} {n : Nat} {r : Report} {chn : Nat} :
    ((sendReport s n r).ch chn).lossCnt = (s.ch chn).lossCnt :=
  State.ch_of_bodies Chan.lossCnt (fun _ => rfl) sendReport_bodies chn
@[simp] theorem sendReport_ch_tb {s : State} {n : Nat} {r : Report} {chn : Nat} :
    ((sendReport s n r).ch chn).tb = (s.ch chn).tb :=
  State.ch_of_bodies Chan.tb (fun _ => rfl) sendReport_bodies chn
@[simp] theorem sendReport_ch_cmds {s : State} {n : Nat} {r : Report} {chn : Nat} :
    ((sendReport s n r).ch chn).cmds = (s.ch chn).cmds :=
  State.ch_of_bodies Chan.cmds (fun _ => rfl) sendReport_bodies chn
@[simp] theorem sendReport_ch_inputs {s : State} {n : Nat} {r : Report} {chn : Nat} :
    ((sendReport s n r).ch chn).inputs = (s.ch chn).inputs :=
  State.ch_of_bodies Chan.inputs (fun _ => rfl) sendReport_bodies chn
@[simp] theorem sendReport_ch_table {s : State} {n : Nat} {r : Report} {chn : Nat} :
    ((sendReport s n r).ch chn).table = (s.ch chn).table :=
  State.ch_of_bodies Chan.table (fun _ => rfl) sendReport_bodies chn
@[simp] theorem sendReport_ch_tableEn {s : State} {n : Nat} {r : Report} {chn : Nat} :
    ((sendReport s n r).ch chn).tableEn = (s.ch chn).tableEn :=
  State.ch_of_bodies Chan.tableEn (fun _ => rfl) sendReport_bodies chn
@[simp] theorem sendReport_ch_slots {s : State} {n : Nat} {r : Report} {chn : Nat} :
    ((sendReport s n r).ch chn).slots = (s.ch chn).slots :=
  State.ch_of_bodies Chan.slots (fun _ => rfl) sendReport_bodies chn
@[simp] theorem sendReport_ch_snap {s : State} {n : Nat} {r : Report} {chn : Nat} :
    ((sendReport s n r).ch chn).snap = (s.ch chn).snap :=
  State.ch_of_bodies Chan.snap (fun _ => rfl) sendReport_bodies chn
@[simp] theorem sendReport_ch_feTrips {s : State} {n : Nat} {r : Report} {chn : Nat} :
    ((sendReport s n r).ch chn).feTrips = (s.ch chn).feTrips :=
  State.ch_of_bodies Chan.feTrips (fun _ => rfl) sendReport_bodies chn
@[simp] theorem sendReport_ch_can {s : State} {n : Nat} {r : Report} {chn : Nat} :
    ((sendReport s n r).ch chn).can = (s.ch chn).can :=
  State.ch_of_bodies Chan.can (fun _ => rfl) sendReport_bodies chn
@[simp] theorem sendReport_ch_seg {s : State} {n : Nat} {r : Report} {chn : Nat} :
    ((sendReport s n r).ch chn).seg = (s.ch chn).seg :=
  State.ch_of_bodies Chan.seg (fun _ => rfl) sendReport_bodies chn
@[simp] theorem sendReport_ch_dio {s : State} {n : Nat} {r : Report} {chn : Nat} :
    ((sendReport s n r).ch chn).dio = (s.ch chn).dio :=
  State.ch_of_bodies Chan.dio (fun _ => rfl) sendReport_bodies chn
@[simp] theorem sendReport_ch_staged {s : State} {n : Nat} {r : Report} {chn : Nat} :
    ((sendReport s n r).ch chn).staged = (s.ch chn).staged :=
  State.ch_of_bodies Chan.staged (fun _ => rfl) sendReport_bodies chn
@[simp] theorem sendReport_ch_stopped {s : State} {n : Nat} {r : Report} {chn : Nat} :
    ((sendReport s n r).ch chn).stopped = (s.ch chn).stopped :=
  State.ch_of_bodies Chan.stopped (fun _ => rfl) sendReport_bodies chn
@[simp] theorem sendReport_ch_relArmed {s : State} {n : Nat} {r : Report} {chn : Nat} :
    ((sendReport s n r).ch chn).relArmed = (s.ch chn).relArmed :=
  State.ch_of_bodies Chan.relArmed (fun _ => rfl) sendReport_bodies chn
@[simp] theorem sendReport_ch_stopH {s : State} {n : Nat} {r : Report} {chn : Nat} :
    ((sendReport s n r).ch chn).stopH = (s.ch chn).stopH :=
  State.ch_of_bodies Chan.stopH (fun _ => rfl) sendReport_bodies chn
@[simp] theorem sendReport_dio {s : State} {n : Nat} {r : Report} {chn : Nat} : (sendReport s n r).dio chn = s.dio chn :=
  sendReport_ch_dio

@[simp] theorem chRaise_ch_state {s : State} {n b kind subject : Nat} {payload : List Byte} {chn : Nat} :
    ((chRaise s n b kind subject payload).ch chn).state = (s.ch chn).state :=
  State.ch_of_bodies Chan.state (fun _ => rfl) chRaise_bodies chn
@[simp] theorem chRaise_ch_prior {s : State} {n b kind subject : Nat} {payload : List Byte} {chn : Nat} :
    ((chRaise s n b kind subject payload).ch chn).prior = (s.ch chn).prior :=
  State.ch_of_bodies Chan.prior (fun _ => rfl) chRaise_bodies chn
@[simp] theorem chRaise_ch_xbarUp {s : State} {n b kind subject : Nat} {payload : List Byte} {chn : Nat} :
    ((chRaise s n b kind subject payload).ch chn).xbarUp = (s.ch chn).xbarUp :=
  State.ch_of_bodies Chan.xbarUp (fun _ => rfl) chRaise_bodies chn
@[simp] theorem chRaise_ch_relock {s : State} {n b kind subject : Nat} {payload : List Byte} {chn : Nat} :
    ((chRaise s n b kind subject payload).ch chn).relock = (s.ch chn).relock :=
  State.ch_of_bodies Chan.relock (fun _ => rfl) chRaise_bodies chn
@[simp] theorem chRaise_ch_copied {s : State} {n b kind subject : Nat} {payload : List Byte} {chn : Nat} :
    ((chRaise s n b kind subject payload).ch chn).copied = (s.ch chn).copied :=
  State.ch_of_bodies Chan.copied (fun _ => rfl) chRaise_bodies chn
@[simp] theorem chRaise_ch_isoOk {s : State} {n b kind subject : Nat} {payload : List Byte} {chn : Nat} :
    ((chRaise s n b kind subject payload).ch chn).isoOk = (s.ch chn).isoOk :=
  State.ch_of_bodies Chan.isoOk (fun _ => rfl) chRaise_bodies chn
@[simp] theorem chRaise_ch_lossCnt {s : State} {n b kind subject : Nat} {payload : List Byte} {chn : Nat} :
    ((chRaise s n b kind subject payload).ch chn).lossCnt = (s.ch chn).lossCnt :=
  State.ch_of_bodies Chan.lossCnt (fun _ => rfl) chRaise_bodies chn
@[simp] theorem chRaise_ch_tb {s : State} {n b kind subject : Nat} {payload : List Byte} {chn : Nat} :
    ((chRaise s n b kind subject payload).ch chn).tb = (s.ch chn).tb :=
  State.ch_of_bodies Chan.tb (fun _ => rfl) chRaise_bodies chn
@[simp] theorem chRaise_ch_cmds {s : State} {n b kind subject : Nat} {payload : List Byte} {chn : Nat} :
    ((chRaise s n b kind subject payload).ch chn).cmds = (s.ch chn).cmds :=
  State.ch_of_bodies Chan.cmds (fun _ => rfl) chRaise_bodies chn
@[simp] theorem chRaise_ch_inputs {s : State} {n b kind subject : Nat} {payload : List Byte} {chn : Nat} :
    ((chRaise s n b kind subject payload).ch chn).inputs = (s.ch chn).inputs :=
  State.ch_of_bodies Chan.inputs (fun _ => rfl) chRaise_bodies chn
@[simp] theorem chRaise_ch_table {s : State} {n b kind subject : Nat} {payload : List Byte} {chn : Nat} :
    ((chRaise s n b kind subject payload).ch chn).table = (s.ch chn).table :=
  State.ch_of_bodies Chan.table (fun _ => rfl) chRaise_bodies chn
@[simp] theorem chRaise_ch_tableEn {s : State} {n b kind subject : Nat} {payload : List Byte} {chn : Nat} :
    ((chRaise s n b kind subject payload).ch chn).tableEn = (s.ch chn).tableEn :=
  State.ch_of_bodies Chan.tableEn (fun _ => rfl) chRaise_bodies chn
@[simp] theorem chRaise_ch_slots {s : State} {n b kind subject : Nat} {payload : List Byte} {chn : Nat} :
    ((chRaise s n b kind subject payload).ch chn).slots = (s.ch chn).slots :=
  State.ch_of_bodies Chan.slots (fun _ => rfl) chRaise_bodies chn
@[simp] theorem chRaise_ch_snap {s : State} {n b kind subject : Nat} {payload : List Byte} {chn : Nat} :
    ((chRaise s n b kind subject payload).ch chn).snap = (s.ch chn).snap :=
  State.ch_of_bodies Chan.snap (fun _ => rfl) chRaise_bodies chn
@[simp] theorem chRaise_ch_feTrips {s : State} {n b kind subject : Nat} {payload : List Byte} {chn : Nat} :
    ((chRaise s n b kind subject payload).ch chn).feTrips = (s.ch chn).feTrips :=
  State.ch_of_bodies Chan.feTrips (fun _ => rfl) chRaise_bodies chn
@[simp] theorem chRaise_ch_can {s : State} {n b kind subject : Nat} {payload : List Byte} {chn : Nat} :
    ((chRaise s n b kind subject payload).ch chn).can = (s.ch chn).can :=
  State.ch_of_bodies Chan.can (fun _ => rfl) chRaise_bodies chn
@[simp] theorem chRaise_ch_seg {s : State} {n b kind subject : Nat} {payload : List Byte} {chn : Nat} :
    ((chRaise s n b kind subject payload).ch chn).seg = (s.ch chn).seg :=
  State.ch_of_bodies Chan.seg (fun _ => rfl) chRaise_bodies chn
@[simp] theorem chRaise_ch_dio {s : State} {n b kind subject : Nat} {payload : List Byte} {chn : Nat} :
    ((chRaise s n b kind subject payload).ch chn).dio = (s.ch chn).dio :=
  State.ch_of_bodies Chan.dio (fun _ => rfl) chRaise_bodies chn
@[simp] theorem chRaise_ch_staged {s : State} {n b kind subject : Nat} {payload : List Byte} {chn : Nat} :
    ((chRaise s n b kind subject payload).ch chn).staged = (s.ch chn).staged :=
  State.ch_of_bodies Chan.staged (fun _ => rfl) chRaise_bodies chn
@[simp] theorem chRaise_ch_stopped {s : State} {n b kind subject : Nat} {payload : List Byte} {chn : Nat} :
    ((chRaise s n b kind subject payload).ch chn).stopped = (s.ch chn).stopped :=
  State.ch_of_bodies Chan.stopped (fun _ => rfl) chRaise_bodies chn
@[simp] theorem chRaise_ch_relArmed {s : State} {n b kind subject : Nat} {payload : List Byte} {chn : Nat} :
    ((chRaise s n b kind subject payload).ch chn).relArmed = (s.ch chn).relArmed :=
  State.ch_of_bodies Chan.relArmed (fun _ => rfl) chRaise_bodies chn
@[simp] theorem chRaise_ch_stopH {s : State} {n b kind subject : Nat} {payload : List Byte} {chn : Nat} :
    ((chRaise s n b kind subject payload).ch chn).stopH = (s.ch chn).stopH :=
  State.ch_of_bodies Chan.stopH (fun _ => rfl) chRaise_bodies chn
@[simp] theorem chRaise_dio {s : State} {n b kind subject : Nat} {payload : List Byte} {chn : Nat} : (chRaise s n b kind subject payload).dio chn = s.dio chn :=
  chRaise_ch_dio

@[simp] theorem chRaiseBoth_ch_state {s : State} {n kind subject : Nat} {payload : List Byte} {chn : Nat} :
    ((chRaiseBoth s n kind subject payload).ch chn).state = (s.ch chn).state :=
  State.ch_of_bodies Chan.state (fun _ => rfl) chRaiseBoth_bodies chn
@[simp] theorem chRaiseBoth_ch_prior {s : State} {n kind subject : Nat} {payload : List Byte} {chn : Nat} :
    ((chRaiseBoth s n kind subject payload).ch chn).prior = (s.ch chn).prior :=
  State.ch_of_bodies Chan.prior (fun _ => rfl) chRaiseBoth_bodies chn
@[simp] theorem chRaiseBoth_ch_xbarUp {s : State} {n kind subject : Nat} {payload : List Byte} {chn : Nat} :
    ((chRaiseBoth s n kind subject payload).ch chn).xbarUp = (s.ch chn).xbarUp :=
  State.ch_of_bodies Chan.xbarUp (fun _ => rfl) chRaiseBoth_bodies chn
@[simp] theorem chRaiseBoth_ch_relock {s : State} {n kind subject : Nat} {payload : List Byte} {chn : Nat} :
    ((chRaiseBoth s n kind subject payload).ch chn).relock = (s.ch chn).relock :=
  State.ch_of_bodies Chan.relock (fun _ => rfl) chRaiseBoth_bodies chn
@[simp] theorem chRaiseBoth_ch_copied {s : State} {n kind subject : Nat} {payload : List Byte} {chn : Nat} :
    ((chRaiseBoth s n kind subject payload).ch chn).copied = (s.ch chn).copied :=
  State.ch_of_bodies Chan.copied (fun _ => rfl) chRaiseBoth_bodies chn
@[simp] theorem chRaiseBoth_ch_isoOk {s : State} {n kind subject : Nat} {payload : List Byte} {chn : Nat} :
    ((chRaiseBoth s n kind subject payload).ch chn).isoOk = (s.ch chn).isoOk :=
  State.ch_of_bodies Chan.isoOk (fun _ => rfl) chRaiseBoth_bodies chn
@[simp] theorem chRaiseBoth_ch_lossCnt {s : State} {n kind subject : Nat} {payload : List Byte} {chn : Nat} :
    ((chRaiseBoth s n kind subject payload).ch chn).lossCnt = (s.ch chn).lossCnt :=
  State.ch_of_bodies Chan.lossCnt (fun _ => rfl) chRaiseBoth_bodies chn
@[simp] theorem chRaiseBoth_ch_tb {s : State} {n kind subject : Nat} {payload : List Byte} {chn : Nat} :
    ((chRaiseBoth s n kind subject payload).ch chn).tb = (s.ch chn).tb :=
  State.ch_of_bodies Chan.tb (fun _ => rfl) chRaiseBoth_bodies chn
@[simp] theorem chRaiseBoth_ch_cmds {s : State} {n kind subject : Nat} {payload : List Byte} {chn : Nat} :
    ((chRaiseBoth s n kind subject payload).ch chn).cmds = (s.ch chn).cmds :=
  State.ch_of_bodies Chan.cmds (fun _ => rfl) chRaiseBoth_bodies chn
@[simp] theorem chRaiseBoth_ch_inputs {s : State} {n kind subject : Nat} {payload : List Byte} {chn : Nat} :
    ((chRaiseBoth s n kind subject payload).ch chn).inputs = (s.ch chn).inputs :=
  State.ch_of_bodies Chan.inputs (fun _ => rfl) chRaiseBoth_bodies chn
@[simp] theorem chRaiseBoth_ch_table {s : State} {n kind subject : Nat} {payload : List Byte} {chn : Nat} :
    ((chRaiseBoth s n kind subject payload).ch chn).table = (s.ch chn).table :=
  State.ch_of_bodies Chan.table (fun _ => rfl) chRaiseBoth_bodies chn
@[simp] theorem chRaiseBoth_ch_tableEn {s : State} {n kind subject : Nat} {payload : List Byte} {chn : Nat} :
    ((chRaiseBoth s n kind subject payload).ch chn).tableEn = (s.ch chn).tableEn :=
  State.ch_of_bodies Chan.tableEn (fun _ => rfl) chRaiseBoth_bodies chn
@[simp] theorem chRaiseBoth_ch_slots {s : State} {n kind subject : Nat} {payload : List Byte} {chn : Nat} :
    ((chRaiseBoth s n kind subject payload).ch chn).slots = (s.ch chn).slots :=
  State.ch_of_bodies Chan.slots (fun _ => rfl) chRaiseBoth_bodies chn
@[simp] theorem chRaiseBoth_ch_snap {s : State} {n kind subject : Nat} {payload : List Byte} {chn : Nat} :
    ((chRaiseBoth s n kind subject payload).ch chn).snap = (s.ch chn).snap :=
  State.ch_of_bodies Chan.snap (fun _ => rfl) chRaiseBoth_bodies chn
@[simp] theorem chRaiseBoth_ch_feTrips {s : State} {n kind subject : Nat} {payload : List Byte} {chn : Nat} :
    ((chRaiseBoth s n kind subject payload).ch chn).feTrips = (s.ch chn).feTrips :=
  State.ch_of_bodies Chan.feTrips (fun _ => rfl) chRaiseBoth_bodies chn
@[simp] theorem chRaiseBoth_ch_can {s : State} {n kind subject : Nat} {payload : List Byte} {chn : Nat} :
    ((chRaiseBoth s n kind subject payload).ch chn).can = (s.ch chn).can :=
  State.ch_of_bodies Chan.can (fun _ => rfl) chRaiseBoth_bodies chn
@[simp] theorem chRaiseBoth_ch_seg {s : State} {n kind subject : Nat} {payload : List Byte} {chn : Nat} :
    ((chRaiseBoth s n kind subject payload).ch chn).seg = (s.ch chn).seg :=
  State.ch_of_bodies Chan.seg (fun _ => rfl) chRaiseBoth_bodies chn
@[simp] theorem chRaiseBoth_ch_dio {s : State} {n kind subject : Nat} {payload : List Byte} {chn : Nat} :
    ((chRaiseBoth s n kind subject payload).ch chn).dio = (s.ch chn).dio :=
  State.ch_of_bodies Chan.dio (fun _ => rfl) chRaiseBoth_bodies chn
@[simp] theorem chRaiseBoth_ch_staged {s : State} {n kind subject : Nat} {payload : List Byte} {chn : Nat} :
    ((chRaiseBoth s n kind subject payload).ch chn).staged = (s.ch chn).staged :=
  State.ch_of_bodies Chan.staged (fun _ => rfl) chRaiseBoth_bodies chn
@[simp] theorem chRaiseBoth_ch_stopped {s : State} {n kind subject : Nat} {payload : List Byte} {chn : Nat} :
    ((chRaiseBoth s n kind subject payload).ch chn).stopped = (s.ch chn).stopped :=
  State.ch_of_bodies Chan.stopped (fun _ => rfl) chRaiseBoth_bodies chn
@[simp] theorem chRaiseBoth_ch_relArmed {s : State} {n kind subject : Nat} {payload : List Byte} {chn : Nat} :
    ((chRaiseBoth s n kind subject payload).ch chn).relArmed = (s.ch chn).relArmed :=
  State.ch_of_bodies Chan.relArmed (fun _ => rfl) chRaiseBoth_bodies chn
@[simp] theorem chRaiseBoth_ch_stopH {s : State} {n kind subject : Nat} {payload : List Byte} {chn : Nat} :
    ((chRaiseBoth s n kind subject payload).ch chn).stopH = (s.ch chn).stopH :=
  State.ch_of_bodies Chan.stopH (fun _ => rfl) chRaiseBoth_bodies chn
@[simp] theorem chRaiseBoth_dio {s : State} {n kind subject : Nat} {payload : List Byte} {chn : Nat} : (chRaiseBoth s n kind subject payload).dio chn = s.dio chn :=
  chRaiseBoth_ch_dio

@[simp] theorem publishLoop_ch_state {s : State} {n id : Nat} {b : Bank} {r : LoopRt} {chn : Nat} :
    ((publishLoop s n id b r).ch chn).state = (s.ch chn).state :=
  State.ch_of_bodies Chan.state (fun _ => rfl) publishLoop_bodies chn
@[simp] theorem publishLoop_ch_prior {s : State} {n id : Nat} {b : Bank} {r : LoopRt} {chn : Nat} :
    ((publishLoop s n id b r).ch chn).prior = (s.ch chn).prior :=
  State.ch_of_bodies Chan.prior (fun _ => rfl) publishLoop_bodies chn
@[simp] theorem publishLoop_ch_xbarUp {s : State} {n id : Nat} {b : Bank} {r : LoopRt} {chn : Nat} :
    ((publishLoop s n id b r).ch chn).xbarUp = (s.ch chn).xbarUp :=
  State.ch_of_bodies Chan.xbarUp (fun _ => rfl) publishLoop_bodies chn
@[simp] theorem publishLoop_ch_relock {s : State} {n id : Nat} {b : Bank} {r : LoopRt} {chn : Nat} :
    ((publishLoop s n id b r).ch chn).relock = (s.ch chn).relock :=
  State.ch_of_bodies Chan.relock (fun _ => rfl) publishLoop_bodies chn
@[simp] theorem publishLoop_ch_copied {s : State} {n id : Nat} {b : Bank} {r : LoopRt} {chn : Nat} :
    ((publishLoop s n id b r).ch chn).copied = (s.ch chn).copied :=
  State.ch_of_bodies Chan.copied (fun _ => rfl) publishLoop_bodies chn
@[simp] theorem publishLoop_ch_isoOk {s : State} {n id : Nat} {b : Bank} {r : LoopRt} {chn : Nat} :
    ((publishLoop s n id b r).ch chn).isoOk = (s.ch chn).isoOk :=
  State.ch_of_bodies Chan.isoOk (fun _ => rfl) publishLoop_bodies chn
@[simp] theorem publishLoop_ch_lossCnt {s : State} {n id : Nat} {b : Bank} {r : LoopRt} {chn : Nat} :
    ((publishLoop s n id b r).ch chn).lossCnt = (s.ch chn).lossCnt :=
  State.ch_of_bodies Chan.lossCnt (fun _ => rfl) publishLoop_bodies chn
@[simp] theorem publishLoop_ch_tb {s : State} {n id : Nat} {b : Bank} {r : LoopRt} {chn : Nat} :
    ((publishLoop s n id b r).ch chn).tb = (s.ch chn).tb :=
  State.ch_of_bodies Chan.tb (fun _ => rfl) publishLoop_bodies chn
@[simp] theorem publishLoop_ch_cmds {s : State} {n id : Nat} {b : Bank} {r : LoopRt} {chn : Nat} :
    ((publishLoop s n id b r).ch chn).cmds = (s.ch chn).cmds :=
  State.ch_of_bodies Chan.cmds (fun _ => rfl) publishLoop_bodies chn
@[simp] theorem publishLoop_ch_inputs {s : State} {n id : Nat} {b : Bank} {r : LoopRt} {chn : Nat} :
    ((publishLoop s n id b r).ch chn).inputs = (s.ch chn).inputs :=
  State.ch_of_bodies Chan.inputs (fun _ => rfl) publishLoop_bodies chn
@[simp] theorem publishLoop_ch_table {s : State} {n id : Nat} {b : Bank} {r : LoopRt} {chn : Nat} :
    ((publishLoop s n id b r).ch chn).table = (s.ch chn).table :=
  State.ch_of_bodies Chan.table (fun _ => rfl) publishLoop_bodies chn
@[simp] theorem publishLoop_ch_tableEn {s : State} {n id : Nat} {b : Bank} {r : LoopRt} {chn : Nat} :
    ((publishLoop s n id b r).ch chn).tableEn = (s.ch chn).tableEn :=
  State.ch_of_bodies Chan.tableEn (fun _ => rfl) publishLoop_bodies chn
@[simp] theorem publishLoop_ch_slots {s : State} {n id : Nat} {b : Bank} {r : LoopRt} {chn : Nat} :
    ((publishLoop s n id b r).ch chn).slots = (s.ch chn).slots :=
  State.ch_of_bodies Chan.slots (fun _ => rfl) publishLoop_bodies chn
@[simp] theorem publishLoop_ch_snap {s : State} {n id : Nat} {b : Bank} {r : LoopRt} {chn : Nat} :
    ((publishLoop s n id b r).ch chn).snap = (s.ch chn).snap :=
  State.ch_of_bodies Chan.snap (fun _ => rfl) publishLoop_bodies chn
@[simp] theorem publishLoop_ch_feTrips {s : State} {n id : Nat} {b : Bank} {r : LoopRt} {chn : Nat} :
    ((publishLoop s n id b r).ch chn).feTrips = (s.ch chn).feTrips :=
  State.ch_of_bodies Chan.feTrips (fun _ => rfl) publishLoop_bodies chn
@[simp] theorem publishLoop_ch_can {s : State} {n id : Nat} {b : Bank} {r : LoopRt} {chn : Nat} :
    ((publishLoop s n id b r).ch chn).can = (s.ch chn).can :=
  State.ch_of_bodies Chan.can (fun _ => rfl) publishLoop_bodies chn
@[simp] theorem publishLoop_ch_seg {s : State} {n id : Nat} {b : Bank} {r : LoopRt} {chn : Nat} :
    ((publishLoop s n id b r).ch chn).seg = (s.ch chn).seg :=
  State.ch_of_bodies Chan.seg (fun _ => rfl) publishLoop_bodies chn
@[simp] theorem publishLoop_ch_dio {s : State} {n id : Nat} {b : Bank} {r : LoopRt} {chn : Nat} :
    ((publishLoop s n id b r).ch chn).dio = (s.ch chn).dio :=
  State.ch_of_bodies Chan.dio (fun _ => rfl) publishLoop_bodies chn
@[simp] theorem publishLoop_ch_staged {s : State} {n id : Nat} {b : Bank} {r : LoopRt} {chn : Nat} :
    ((publishLoop s n id b r).ch chn).staged = (s.ch chn).staged :=
  State.ch_of_bodies Chan.staged (fun _ => rfl) publishLoop_bodies chn
@[simp] theorem publishLoop_ch_stopped {s : State} {n id : Nat} {b : Bank} {r : LoopRt} {chn : Nat} :
    ((publishLoop s n id b r).ch chn).stopped = (s.ch chn).stopped :=
  State.ch_of_bodies Chan.stopped (fun _ => rfl) publishLoop_bodies chn
@[simp] theorem publishLoop_ch_relArmed {s : State} {n id : Nat} {b : Bank} {r : LoopRt} {chn : Nat} :
    ((publishLoop s n id b r).ch chn).relArmed = (s.ch chn).relArmed :=
  State.ch_of_bodies Chan.relArmed (fun _ => rfl) publishLoop_bodies chn
@[simp] theorem publishLoop_ch_stopH {s : State} {n id : Nat} {b : Bank} {r : LoopRt} {chn : Nat} :
    ((publishLoop s n id b r).ch chn).stopH = (s.ch chn).stopH :=
  State.ch_of_bodies Chan.stopH (fun _ => rfl) publishLoop_bodies chn
@[simp] theorem publishLoop_dio {s : State} {n id : Nat} {b : Bank} {r : LoopRt} {chn : Nat} : (publishLoop s n id b r).dio chn = s.dio chn :=
  publishLoop_ch_dio

@[simp] theorem markStale_ch_state {s : State} {n : Nat} {chn : Nat} :
    ((markStale s n).ch chn).state = (s.ch chn).state :=
  State.ch_of_bodies Chan.state (fun _ => rfl) markStale_bodies chn
@[simp] theorem markStale_ch_prior {s : State} {n : Nat} {chn : Nat} :
    ((markStale s n).ch chn).prior = (s.ch chn).prior :=
  State.ch_of_bodies Chan.prior (fun _ => rfl) markStale_bodies chn
@[simp] theorem markStale_ch_xbarUp {s : State} {n : Nat} {chn : Nat} :
    ((markStale s n).ch chn).xbarUp = (s.ch chn).xbarUp :=
  State.ch_of_bodies Chan.xbarUp (fun _ => rfl) markStale_bodies chn
@[simp] theorem markStale_ch_relock {s : State} {n : Nat} {chn : Nat} :
    ((markStale s n).ch chn).relock = (s.ch chn).relock :=
  State.ch_of_bodies Chan.relock (fun _ => rfl) markStale_bodies chn
@[simp] theorem markStale_ch_copied {s : State} {n : Nat} {chn : Nat} :
    ((markStale s n).ch chn).copied = (s.ch chn).copied :=
  State.ch_of_bodies Chan.copied (fun _ => rfl) markStale_bodies chn
@[simp] theorem markStale_ch_isoOk {s : State} {n : Nat} {chn : Nat} :
    ((markStale s n).ch chn).isoOk = (s.ch chn).isoOk :=
  State.ch_of_bodies Chan.isoOk (fun _ => rfl) markStale_bodies chn
@[simp] theorem markStale_ch_lossCnt {s : State} {n : Nat} {chn : Nat} :
    ((markStale s n).ch chn).lossCnt = (s.ch chn).lossCnt :=
  State.ch_of_bodies Chan.lossCnt (fun _ => rfl) markStale_bodies chn
@[simp] theorem markStale_ch_tb {s : State} {n : Nat} {chn : Nat} :
    ((markStale s n).ch chn).tb = (s.ch chn).tb :=
  State.ch_of_bodies Chan.tb (fun _ => rfl) markStale_bodies chn
@[simp] theorem markStale_ch_cmds {s : State} {n : Nat} {chn : Nat} :
    ((markStale s n).ch chn).cmds = (s.ch chn).cmds :=
  State.ch_of_bodies Chan.cmds (fun _ => rfl) markStale_bodies chn
@[simp] theorem markStale_ch_inputs {s : State} {n : Nat} {chn : Nat} :
    ((markStale s n).ch chn).inputs = (s.ch chn).inputs :=
  State.ch_of_bodies Chan.inputs (fun _ => rfl) markStale_bodies chn
@[simp] theorem markStale_ch_table {s : State} {n : Nat} {chn : Nat} :
    ((markStale s n).ch chn).table = (s.ch chn).table :=
  State.ch_of_bodies Chan.table (fun _ => rfl) markStale_bodies chn
@[simp] theorem markStale_ch_tableEn {s : State} {n : Nat} {chn : Nat} :
    ((markStale s n).ch chn).tableEn = (s.ch chn).tableEn :=
  State.ch_of_bodies Chan.tableEn (fun _ => rfl) markStale_bodies chn
@[simp] theorem markStale_ch_slots {s : State} {n : Nat} {chn : Nat} :
    ((markStale s n).ch chn).slots = (s.ch chn).slots :=
  State.ch_of_bodies Chan.slots (fun _ => rfl) markStale_bodies chn
@[simp] theorem markStale_ch_snap {s : State} {n : Nat} {chn : Nat} :
    ((markStale s n).ch chn).snap = (s.ch chn).snap :=
  State.ch_of_bodies Chan.snap (fun _ => rfl) markStale_bodies chn
@[simp] theorem markStale_ch_feTrips {s : State} {n : Nat} {chn : Nat} :
    ((markStale s n).ch chn).feTrips = (s.ch chn).feTrips :=
  State.ch_of_bodies Chan.feTrips (fun _ => rfl) markStale_bodies chn
@[simp] theorem markStale_ch_can {s : State} {n : Nat} {chn : Nat} :
    ((markStale s n).ch chn).can = (s.ch chn).can :=
  State.ch_of_bodies Chan.can (fun _ => rfl) markStale_bodies chn
@[simp] theorem markStale_ch_seg {s : State} {n : Nat} {chn : Nat} :
    ((markStale s n).ch chn).seg = (s.ch chn).seg :=
  State.ch_of_bodies Chan.seg (fun _ => rfl) markStale_bodies chn
@[simp] theorem markStale_ch_dio {s : State} {n : Nat} {chn : Nat} :
    ((markStale s n).ch chn).dio = (s.ch chn).dio :=
  State.ch_of_bodies Chan.dio (fun _ => rfl) markStale_bodies chn
@[simp] theorem markStale_ch_staged {s : State} {n : Nat} {chn : Nat} :
    ((markStale s n).ch chn).staged = (s.ch chn).staged :=
  State.ch_of_bodies Chan.staged (fun _ => rfl) markStale_bodies chn
@[simp] theorem markStale_ch_stopped {s : State} {n : Nat} {chn : Nat} :
    ((markStale s n).ch chn).stopped = (s.ch chn).stopped :=
  State.ch_of_bodies Chan.stopped (fun _ => rfl) markStale_bodies chn
@[simp] theorem markStale_ch_relArmed {s : State} {n : Nat} {chn : Nat} :
    ((markStale s n).ch chn).relArmed = (s.ch chn).relArmed :=
  State.ch_of_bodies Chan.relArmed (fun _ => rfl) markStale_bodies chn
@[simp] theorem markStale_ch_stopH {s : State} {n : Nat} {chn : Nat} :
    ((markStale s n).ch chn).stopH = (s.ch chn).stopH :=
  State.ch_of_bodies Chan.stopH (fun _ => rfl) markStale_bodies chn
@[simp] theorem markStale_dio {s : State} {n : Nat} {chn : Nat} : (markStale s n).dio chn = s.dio chn :=
  markStale_ch_dio

end Sys2Proof.Machine
end

