-- ==== Sys2Proof/Laws/Keeps.lean ====
section
/-! SUPPORT. What every effect keeps (`State.Keeps`: the invariant, the queue, the identity) through the updates every meaning is made of: the canonical
form of the register store and the shape of the state. -/

namespace Sys2Proof.Machine

/-- What holds of `s` after any effect that began in `s0`: the invariant, the queue of commands and the identity of
`s0`, no fewer free values, flights and frames numbered, a roll-back floor that has not fallen and the revocation fuses
of `s0` (R494). -/
structure State.Keeps (s0 s : State) : Prop where
  inv : s.Inv
  pending : s.pending = s0.pending
  ident : s.ident = s0.ident
  free : s0.free ≤ s.free
  serial : s0.serial ≤ s.serial
  frames : s0.frames ≤ s.frames
  floor : s0.upd.floor ≤ s.upd.floor
  revoked : s.upd.revoked = s0.upd.revoked

/-- The parts of the state `State.Keeps` speaks of. -/
structure KeepsParts (s0 : State) (pending : List Instr) (ident : Ident) (free serial frames : Nat)
    (regs : AMap Word) (fns chs tsqs nets floor : Nat) (revoked : BitVec 4) : Prop where
  inv : regsOk regs = true ∧ (fns == 64 && chs == 8 && tsqs == 10 && nets == 2) = true
  pending : pending = s0.pending
  ident : ident = s0.ident
  free : s0.free ≤ free
  serial : s0.serial ≤ serial
  frames : s0.frames ≤ frames
  floor : s0.upd.floor ≤ floor
  revoked : revoked = s0.upd.revoked

/-- One part counts one more. -/
theorem KeepsParts.more {s0 : State} {pd : List Instr} {i : Ident} {f1 f2 s1 s2 r1 r2 : Nat} {m : AMap Word}
    {a b c d e : Nat} {v : BitVec 4} (h : KeepsParts s0 pd i f1 s1 r1 m a b c d e v) (hf : f1 ≤ f2) (hs : s1 ≤ s2) (hr : r1 ≤ r2) :
    KeepsParts s0 pd i f2 s2 r2 m a b c d e v :=
  ⟨h.inv, h.pending, h.ident, Nat.le_trans h.free hf, Nat.le_trans h.serial hs, Nat.le_trans h.frames hr, h.floor, h.revoked⟩

/-- To its parts. -/
theorem State.Keeps.ofParts {s0 s : State} (h : State.Keeps s0 s) :
    KeepsParts s0 s.pending s.ident s.free s.serial s.frames s.regs s.fns.length s.chs.length s.tsqs.length
      s.nets.length s.upd.floor s.upd.revoked := ⟨h.inv, h.pending, h.ident, h.free, h.serial, h.frames, h.floor, h.revoked⟩

/-- From its parts. -/
theorem State.keeps_of_parts {s0 s : State}
    (h : KeepsParts s0 s.pending s.ident s.free s.serial s.frames s.regs s.fns.length s.chs.length s.tsqs.length
      s.nets.length s.upd.floor s.upd.revoked) : State.Keeps s0 s := ⟨h.inv, h.pending, h.ident, h.free, h.serial, h.frames, h.floor, h.revoked⟩

/-- A state that meets the invariant keeps itself. -/
theorem State.Inv.keeps {s : State} (h : s.Inv) : State.Keeps s s :=
  ⟨h, rfl, rfl, Nat.le_refl _, Nat.le_refl _, Nat.le_refl _, Nat.le_refl _, rfl⟩

/-- Both branches. -/
theorem State.ite_keeps {s0 : State} {c : Prop} [Decidable c] {a b : State} (ha : State.Keeps s0 a)
    (hb : State.Keeps s0 b) : State.Keeps s0 (if c then a else b) := by
  split <;> assumption

/-- A fold. -/
theorem State.foldl_keeps {s0 : State} {α : Type} {f : State → α → State}
    (hf : ∀ s a, State.Keeps s0 s → State.Keeps s0 (f s a)) :
    ∀ {l : List α} {s : State}, State.Keeps s0 s → State.Keeps s0 (l.foldl f s)
  | [], _, h => h
  | _ :: l, _, h => State.foldl_keeps hf (l := l) (hf _ _ h)

/-- The state of a pair. -/
theorem State.keeps_of_pair {s0 : State} {α : Type} {x : State × α} {a : State} {b : α} (hx : x = (a, b))
    (h : State.Keeps s0 x.1) : State.Keeps s0 a := by
  subst hx; exact h

/-- Both branches, of a state beside something else. -/
theorem State.iteFst_keeps {s0 : State} {α : Type} {c : Prop} [Decidable c] {a b : State × α}
    (ha : State.Keeps s0 a.1) (hb : State.Keeps s0 b.1) : State.Keeps s0 (if c then a else b).1 := by
  split <;> assumption

/-- A fold over a state beside something else. -/
theorem State.foldlFst_keeps {s0 : State} {α β : Type} {f : State × β → α → State × β}
    (hf : ∀ s a, State.Keeps s0 s.1 → State.Keeps s0 (f s a).1) :
    ∀ {l : List α} {s : State × β}, State.Keeps s0 s.1 → State.Keeps s0 (l.foldl f s).1
  | [], _, h => h
  | _ :: l, _, h => State.foldlFst_keeps hf (l := l) (hf _ _ h)

/-- The keys of a map rise strictly, as a pairwise statement. -/
theorem AMap.ok_iff {α : Type} : ∀ {m : AMap α}, AMap.ok m = true ↔ m.Pairwise (fun p q => p.1 < q.1)
  | [] => by simp [AMap.ok]
  | [_] => by simp [AMap.ok]
  | p :: q :: t => by
    rw [AMap.ok, Bool.and_eq_true, AMap.ok_iff (m := q :: t), decide_eq_true_eq, List.pairwise_cons (l := q :: t)]
    constructor
    · rintro ⟨h, ht⟩
      refine ⟨fun r hr => ?_, ht⟩
      rcases List.mem_cons.mp hr with rfl | hr
      · exact h
      · exact Nat.lt_trans h (List.rel_of_pairwise_cons ht hr)
    · rintro ⟨h, ht⟩
      exact ⟨h q (List.mem_cons_self ..), ht⟩

/-- Removing entries keeps the keys rising. -/
theorem AMap.ok_filter {α : Type} {m : AMap α} (f : Nat × α → Bool) (h : AMap.ok m = true) :
    AMap.ok (m.filter f) = true := AMap.ok_iff.mpr ((AMap.ok_iff.mp h).filter _)

/-- What a set map holds. -/
theorem mem_amSet {α : Type} {k : Nat} {v : α} {p : Nat × α} : ∀ {m : AMap α}, p ∈ amSet m k v → p = (k, v) ∨ p ∈ m
  | [], h => by simpa [amSet] using h
  | q :: t, h => by
    unfold amSet at h
    split at h
    · simpa using h
    · split at h
      · rcases List.mem_cons.mp h with h | h
        · exact .inl h
        · exact .inr (List.mem_cons_of_mem _ h)
      · rcases List.mem_cons.mp h with h | h
        · exact .inr (by simp [h])
        · exact (mem_amSet h).imp id (List.mem_cons_of_mem _)

/-- Setting a key keeps the keys rising. -/
theorem AMap.ok_amSet {α : Type} {k : Nat} {v : α} : ∀ {m : AMap α}, AMap.ok m = true → AMap.ok (amSet m k v) = true
  | [], _ => by simp [amSet, AMap.ok]
  | q :: t, h => by
    have h := AMap.ok_iff.mp h
    have ht : ∀ p ∈ t, q.1 < p.1 := fun p hp => List.rel_of_pairwise_cons h hp
    rw [AMap.ok_iff]
    unfold amSet
    split
    · rename_i hk
      refine List.pairwise_cons.mpr ⟨fun p hp => ?_, h⟩
      rcases List.mem_cons.mp hp with rfl | hp
      · exact hk
      · exact Nat.lt_trans hk (ht p hp)
    · split
      · rename_i hk
        exact List.pairwise_cons.mpr ⟨fun p hp => by simpa [hk] using ht p hp, h.of_cons⟩
      · refine List.pairwise_cons.mpr ⟨fun p hp => ?_, AMap.ok_iff.mp (AMap.ok_amSet (AMap.ok_iff.mpr h.of_cons))⟩
        rcases mem_amSet hp with rfl | hp
        · simp only; omega
        · exact ht p hp

/-- Dropping words keeps the register store canonical. -/
theorem regsOk_filter {m : AMap Word} (f : Nat × Word → Bool) (h : regsOk m = true) : regsOk (m.filter f) = true := by
  simp only [regsOk, Bool.and_eq_true, List.all_eq_true] at h ⊢
  exact ⟨AMap.ok_filter f h.1, fun p hp => h.2 p (List.mem_filter.mp hp).1⟩

/-- The words of the store from some keys on are dropped. -/
theorem State.regsFilter_keeps {s0 s : State} (f : Nat × Word → Bool) (h : State.Keeps s0 s) :
    State.Keeps s0 { s with regs := s.regs.filter f } :=
  ⟨⟨regsOk_filter _ h.inv.1, h.inv.2⟩, h.pending, h.ident, h.free, h.serial, h.frames, h.floor, h.revoked⟩

/-- Storing a register word keeps the store canonical. -/
theorem regsOk_setReg {s : State} {key : Nat} {w : Word} (h : regsOk s.regs = true) :
    regsOk (s.setReg key w).regs = true := by
  unfold State.setReg
  split
  · exact regsOk_filter _ h
  · rename_i hw
    simp only [regsOk, Bool.and_eq_true, List.all_eq_true, bne_iff_ne, ne_eq] at h ⊢
    refine ⟨AMap.ok_amSet h.1, fun p hp => ?_⟩
    rcases mem_amSet hp with rfl | hp
    · exact hw
    · exact h.2 p hp

theorem State.setReg_keeps {s0 s : State} {key : Nat} {w : Word} (h : State.Keeps s0 s) :
    State.Keeps s0 (s.setReg key w) := by
  have hr := regsOk_setReg (key := key) (w := w) h.inv.1
  unfold State.setReg at hr ⊢
  split
  · rename_i hw
    rw [if_pos hw] at hr
    exact ⟨⟨hr, h.inv.2⟩, h.pending, h.ident, h.free, h.serial, h.frames, h.floor, h.revoked⟩
  · rename_i hw
    rw [if_neg hw] at hr
    exact ⟨⟨hr, h.inv.2⟩, h.pending, h.ident, h.free, h.serial, h.frames, h.floor, h.revoked⟩

theorem State.modCh_keeps {s0 s : State} {n : Nat} {f : Chan → Chan} (h : State.Keeps s0 s) :
    State.Keeps s0 (s.modCh n f) :=
  ⟨by simpa [State.Inv, State.shaped, State.modCh] using h.inv, h.pending, h.ident, h.free, h.serial, h.frames, h.floor, h.revoked⟩

theorem State.modFn_keeps {s0 s : State} {b : Nat} {f : Fn → Fn} (h : State.Keeps s0 s) :
    State.Keeps s0 (s.modFn b f) :=
  ⟨by simpa [State.Inv, State.shaped, State.modFn] using h.inv, h.pending, h.ident, h.free, h.serial, h.frames, h.floor, h.revoked⟩

theorem State.modNet_keeps {s0 s : State} {p : Nat} {f : NetPort → NetPort} (h : State.Keeps s0 s) :
    State.Keeps s0 (s.modNet p f) :=
  ⟨by simpa [State.Inv, State.shaped, State.modNet] using h.inv, h.pending, h.ident, h.free, h.serial, h.frames, h.floor, h.revoked⟩

/-- A change of the update service that leaves its fuses. -/
theorem State.modUpd_keeps {s0 s : State} {f : Upd → Upd}
    (hf : s.upd.floor ≤ (f s.upd).floor ∧ (f s.upd).revoked = s.upd.revoked) (h : State.Keeps s0 s) :
    State.Keeps s0 (s.modUpd f) :=
  ⟨h.inv, h.pending, h.ident, h.free, h.serial, h.frames, Nat.le_trans h.floor hf.1, hf.2.trans h.revoked⟩

/-- A change of a timestamp queue. -/
theorem State.tsqs_keeps {s0 s : State} {q : Nat} {f : Tsq → Tsq} (h : State.Keeps s0 s) :
    State.Keeps s0 { s with tsqs := s.tsqs.modify q f } :=
  ⟨by simpa [State.Inv, State.shaped] using h.inv, h.pending, h.ident, h.free, h.serial, h.frames, h.floor, h.revoked⟩

/-- A change of every channel. -/
theorem State.chs_keeps {s0 s : State} {f : Chan → Chan} (h : State.Keeps s0 s) :
    State.Keeps s0 { s with chs := s.chs.map f } :=
  ⟨by simpa [State.Inv, State.shaped] using h.inv, h.pending, h.ident, h.free, h.serial, h.frames, h.floor, h.revoked⟩

end Sys2Proof.Machine
end

