-- ==== Sys2Proof/Laws/KeepsOps.lean ====
section
/-! SUPPORT. What every effect keeps (`State.Keeps`), for the shared operations, the rings and the point directory: one lemma per operation. -/

namespace Sys2Proof.Machine

theorem State.modRing_keeps {s0 : State} {s : State} {k : Nat} {f : Ring → Ring} (hs : State.Keeps s0 s) :
    State.Keeps s0 (State.modRing s k f) := by
  unfold State.modRing
  with_reducible repeat' first
    | assumption | (refine State.keeps_of_parts ?_; dsimp only; refine State.Keeps.ofParts ?_)

theorem State.modEv_keeps {s0 : State} {s : State} {b : Nat} {f : EvRing → EvRing} (hs : State.Keeps s0 s) :
    State.Keeps s0 (State.modEv s b f) := by
  unfold State.modEv
  with_reducible repeat' first
    | assumption | (refine State.keeps_of_parts ?_; dsimp only; refine State.Keeps.ofParts ?_)

theorem State.modTxn_keeps {s0 : State} {s : State} {c : Nat} {f : Txn → Txn} (hs : State.Keeps s0 s) :
    State.Keeps s0 (State.modTxn s c f) := by
  unfold State.modTxn
  with_reducible repeat' first
    | assumption | (refine State.keeps_of_parts ?_; dsimp only; refine State.Keeps.ofParts ?_)

theorem State.modCan_keeps {s0 : State} {s : State} {n x : Nat} {f : Can → Can} (hs : State.Keeps s0 s) :
    State.Keeps s0 (State.modCan s n x f) := by
  unfold State.modCan
  with_reducible repeat' first
    | assumption | apply State.modCh_keeps

theorem State.modSeg_keeps {s0 : State} {s : State} {n x : Nat} {f : Seg → Seg} (hs : State.Keeps s0 s) :
    State.Keeps s0 (State.modSeg s n x f) := by
  unfold State.modSeg
  with_reducible repeat' first
    | assumption | apply State.modCh_keeps

theorem State.modTime_keeps {s0 : State} {s : State} {f : HubTime → HubTime} (hs : State.Keeps s0 s) :
    State.Keeps s0 (State.modTime s f) := by
  unfold State.modTime
  with_reducible repeat' first
    | assumption | (refine State.keeps_of_parts ?_; dsimp only; refine State.Keeps.ofParts ?_)

theorem State.modWs_keeps {s0 : State} {s : State} {f : Watershed → Watershed} (hs : State.Keeps s0 s) :
    State.Keeps s0 (State.modWs s f) := by
  unfold State.modWs
  with_reducible repeat' first
    | assumption | (refine State.keeps_of_parts ?_; dsimp only; refine State.Keeps.ofParts ?_)

theorem State.modPair_keeps {s0 : State} {s : State} {f : Pair → Pair} (hs : State.Keeps s0 s) :
    State.Keeps s0 (State.modPair s f) := by
  unfold State.modPair
  with_reducible repeat' first
    | assumption | (refine State.keeps_of_parts ?_; dsimp only; refine State.Keeps.ofParts ?_)

theorem State.modPwr_keeps {s0 : State} {s : State} {f : Power → Power} (hs : State.Keeps s0 s) :
    State.Keeps s0 (State.modPwr s f) := by
  unfold State.modPwr
  with_reducible repeat' first
    | assumption | (refine State.keeps_of_parts ?_; dsimp only; refine State.Keeps.ofParts ?_)

theorem State.modBkp_keeps {s0 : State} {s : State} {f : Backup → Backup} (hs : State.Keeps s0 s) :
    State.Keeps s0 (State.modBkp s f) := by
  unfold State.modBkp
  with_reducible repeat' first
    | assumption | (refine State.keeps_of_parts ?_; dsimp only; refine State.Keeps.ofParts ?_)

theorem State.modVlt_keeps {s0 : State} {s : State} {f : Vault → Vault} (hs : State.Keeps s0 s) :
    State.Keeps s0 (State.modVlt s f) := by
  unfold State.modVlt
  with_reducible repeat' first
    | assumption | (refine State.keeps_of_parts ?_; dsimp only; refine State.Keeps.ofParts ?_)

theorem State.emit_keeps {s0 : State} {s : State} {e : Emission} (hs : State.Keeps s0 s) :
    State.Keeps s0 (State.emit s e) := by
  unfold State.emit
  with_reducible repeat' first
    | assumption | (refine State.keeps_of_parts ?_; dsimp only; refine State.Keeps.ofParts ?_)

theorem State.tick1_keeps {s0 : State} {s : State} (hs : State.Keeps s0 s) :
    State.Keeps s0 (State.tick1 s) := by
  unfold State.tick1
  with_reducible repeat' first
    | assumption | (refine State.keeps_of_parts ?_; dsimp only; refine State.Keeps.ofParts ?_)
    | (refine State.keeps_of_parts ?_; dsimp only; refine KeepsParts.more (State.Keeps.ofParts ?_) (Nat.le_add_right _ _) (Nat.le_refl _) (Nat.le_refl _))

theorem ifReaches_keeps {s0 : State} {off : Nat} {f : State → State} {s : State} (hf : ∀ x : State, State.Keeps s0 x → State.Keeps s0 (f x)) (hs : State.Keeps s0 s) :
    State.Keeps s0 (ifReaches off f s) := by
  unfold ifReaches
  with_reducible repeat' first
    | assumption | intro _ | apply State.ite_keeps | apply hf

theorem ifServed_keeps {s0 : State} {f : State → State} {s : State} (hf : ∀ x : State, State.Keeps s0 x → State.Keeps s0 (f x)) (hs : State.Keeps s0 s) :
    State.Keeps s0 (ifServed f s) := by
  unfold ifServed
  with_reducible repeat' first
    | assumption | intro _ | apply State.ite_keeps | apply hf

theorem State.sendVec_keeps {s0 : State} {s : State} {b v : Nat} (hs : State.Keeps s0 s) :
    State.Keeps s0 (State.sendVec s b v) := by
  unfold State.sendVec
  with_reducible repeat' first
    | assumption | apply State.ite_keeps | apply State.modFn_keeps | apply State.emit_keeps

theorem State.alert_keeps {s0 : State} {s : State} {i : Nat} (hs : State.Keeps s0 s) :
    State.Keeps s0 (State.alert s i) := by
  unfold State.alert
  with_reducible repeat' first
    | assumption | apply State.ite_keeps | apply State.sendVec_keeps
    | (refine State.keeps_of_parts ?_; dsimp only; refine State.Keeps.ofParts ?_)

theorem State.intBit_keeps {s0 : State} {s : State} {key i vec : Nat} (hs : State.Keeps s0 s) :
    State.Keeps s0 (State.intBit s key i vec) := by
  unfold State.intBit
  with_reducible repeat' first
    | assumption | apply State.ite_keeps | apply State.setReg_keeps | apply State.sendVec_keeps

theorem writeEvIdx_keeps {s0 : State} {s : State} {b : Nat} (hs : State.Keeps s0 s) :
    State.Keeps s0 (writeEvIdx s b) := by
  unfold writeEvIdx
  with_reducible repeat' first
    | assumption | apply State.ite_keeps | apply State.emit_keeps | apply State.modEv_keeps

theorem evNotify_keeps {s0 : State} {s : State} {b : Nat} {due : Bool} (hs : State.Keeps s0 s) :
    State.Keeps s0 (evNotify s b due) := by
  unfold evNotify
  with_reducible repeat' first
    | assumption | apply State.ite_keeps | apply State.modEv_keeps | apply State.sendVec_keeps

theorem pumpEv_keeps {s0 : State} {b : Nat} :
    ∀ {q : List EvRec} {s : State}, State.Keeps s0 s → State.Keeps s0 (pumpEv b q s)
  | [], _, h => h
  | _ :: q, s, h => by
    unfold pumpEv
    with_reducible repeat' first
      | assumption | apply State.ite_keeps | apply evNotify_keeps | apply State.emit_keeps | apply State.modEv_keeps | apply writeEvIdx_keeps
      | apply pumpEv_keeps (q := q)

theorem State.flushEv_keeps {s0 : State} {s : State} {b : Nat} (hs : State.Keeps s0 s) :
    State.Keeps s0 (State.flushEv s b) := by
  unfold State.flushEv
  with_reducible repeat' first
    | assumption | intro _ | apply pumpEv_keeps

theorem raise_keeps {s0 : State} {s : State} {b kind subject : Nat} {payload : List Byte} (hs : State.Keeps s0 s) :
    State.Keeps s0 (raise s b kind subject payload) := by
  unfold raise
  with_reducible repeat' first
    | assumption | apply State.ite_keeps | apply State.modEv_keeps | apply writeEvIdx_keeps
    | apply State.flushEv_keeps

theorem raiseBoth_keeps {s0 : State} {s : State} {kind subject : Nat} {payload : List Byte} (hs : State.Keeps s0 s) :
    State.Keeps s0 (raiseBoth s kind subject payload) := by
  unfold raiseBoth
  with_reducible repeat' first
    | assumption | apply State.ite_keeps | apply raise_keeps

theorem State.mirror_keeps {s0 : State} {s : State} {r : MirrorRec} (hs : State.Keeps s0 s) :
    State.Keeps s0 (State.mirror s r) := by
  unfold State.mirror
  with_reducible repeat' first
    | assumption | apply State.ite_keeps | apply State.modPair_keeps | apply State.emit_keeps

theorem writeIdx_keeps {s0 : State} {s : State} {k : Nat} (hs : State.Keeps s0 s) :
    State.Keeps s0 (writeIdx s k) := by
  unfold writeIdx
  with_reducible repeat' first
    | assumption | apply State.ite_keeps | apply State.emit_keeps | apply State.modRing_keeps

theorem ringNotify_keeps {s0 : State} {s : State} {k : Nat} {due : Bool} (hs : State.Keeps s0 s) :
    State.Keeps s0 (ringNotify s k due) := by
  unfold ringNotify
  with_reducible repeat' first
    | assumption | apply State.ite_keeps | apply State.modRing_keeps | apply State.sendVec_keeps

theorem ringItem_keeps {s0 : State} {s : State} {k : Nat} (hs : State.Keeps s0 s) :
    State.Keeps s0 (ringItem s k) := by
  unfold ringItem
  with_reducible repeat' first
    | assumption | apply State.modRing_keeps | apply writeIdx_keeps | apply ringNotify_keeps

theorem putCompletion_keeps {s0 : State} {s : State} {k : Nat} {c : Completion} (hs : State.Keeps s0 s) :
    State.Keeps s0 (putCompletion s k c) := by
  unfold putCompletion
  with_reducible repeat' first
    | assumption | apply State.emit_keeps | apply ringItem_keeps | apply State.modRing_keeps

theorem complete_keeps {s0 : State} {s : State} {k : Nat} {c : Completion} (hs : State.Keeps s0 s) :
    State.Keeps s0 (complete s k c) := by
  unfold complete
  with_reducible repeat' first
    | assumption | apply State.ite_keeps | apply State.modRing_keeps | apply putCompletion_keeps

theorem completeAll_keeps {s0 : State} {k idx status ckind : Nat} {tsq late : Bool} {info : Word} :
    ∀ {l : List Slot} {j : Nat} {s : State}, State.Keeps s0 s →
      State.Keeps s0 (completeAll s k idx status ckind tsq late info j l)
  | [], _, _, h => h
  | _ :: l, j, _, h => completeAll_keeps (l := l) (j := j + 1) (complete_keeps h)

theorem finish_keeps {s0 : State} {s : State} {k id status : Nat} {tsq late : Bool} {info : Word} (hs : State.Keeps s0 s) :
    State.Keeps s0 (finish s k id status tsq late info) := by
  unfold finish
  with_reducible repeat' first
    | assumption | apply State.ite_keeps | apply completeAll_keeps | apply State.modRing_keeps
    | (refine State.keeps_of_pair (by assumption) ?_)
    | (refine State.keeps_of_parts ?_; dsimp only; refine State.Keeps.ofParts ?_) | split

theorem putHeld_keeps {s0 : State} {s : State} {k : Nat} {h : HeldWrite} (hs : State.Keeps s0 s) :
    State.Keeps s0 (putHeld s k h) := by
  unfold putHeld
  with_reducible repeat' first
    | assumption | apply State.ite_keeps | apply putCompletion_keeps | apply State.emit_keeps
    | apply State.modRing_keeps | apply ringItem_keeps | apply writeIdx_keeps
    | (refine State.keeps_of_pair (by assumption) ?_)
    | (refine State.keeps_of_parts ?_; dsimp only; refine State.Keeps.ofParts ?_) | split

theorem flushRing_keeps {s0 : State} {s : State} {k : Nat} (hs : State.Keeps s0 s) :
    State.Keeps s0 (flushRing s k) := by
  unfold flushRing
  with_reducible repeat' first
    | assumption | intro _ | apply State.ite_keeps | apply State.foldl_keeps | apply putHeld_keeps
    | apply State.modRing_keeps

theorem putSlot_keeps {s0 : State} {s : State} {k idx : Nat} {bytes : List Byte} {last : Bool} (hs : State.Keeps s0 s) :
    State.Keeps s0 (putSlot s k idx bytes last) := by
  unfold putSlot
  with_reducible repeat' first
    | assumption | apply State.ite_keeps | apply putHeld_keeps | apply State.modRing_keeps

theorem putSlots_keeps {s0 : State} {k : Nat} :
    ∀ {l : List (List Byte)} {i : Nat} {s : State}, State.Keeps s0 s → State.Keeps s0 (putSlots s k i l)
  | [], _, _, h => h
  | [_], _, _, h => putSlot_keeps h
  | _ :: c :: l, i, _, h => putSlots_keeps (l := c :: l) (i := i + 1) (putSlot_keeps h)

theorem withhold_keeps {s0 : State} {s : State} {b : Nat} (hs : State.Keeps s0 s) :
    State.Keeps s0 (withhold s b) := by
  unfold withhold
  with_reducible repeat' first
    | assumption | apply State.modFn_keeps

theorem steer_keeps {s0 : State} {s : State} {b r h : Nat} {p : Point} {m : Mirror} {repeated : Bool} (hs : State.Keeps s0 s) :
    State.Keeps s0 (steer s b r h p m repeated) := by
  unfold steer
  with_reducible repeat' first
    | assumption | apply State.ite_keeps | apply State.emit_keeps | apply State.modPwr_keeps | apply ringItem_keeps
    | apply State.modRing_keeps | apply writeIdx_keeps | apply withhold_keeps

theorem writeBuf_keeps {s0 : State} {b : Nat} :
    ∀ {n addr : Nat} {bytes : List Byte} {s : State}, State.Keeps s0 s → State.Keeps s0 (writeBuf b n addr bytes s)
  | 0, _, _, _, h => h
  | n + 1, addr, bytes, s, h => by
    unfold writeBuf
    split
    · exact h
    · exact writeBuf_keeps (n := n) (State.emit_keeps h)

theorem rxData_keeps {s0 : State} {b : Nat} :
    ∀ {l : List (BitVec 512)} {bs : List Byte} {s : State}, State.Keeps s0 s → State.Keeps s0 (rxData s b l bs)
  | [], _, _, h => h
  | _ :: l, bs, s, h => by
    unfold rxData
    split
    · exact rxData_keeps (l := l) h
    · split
      · exact h
      · exact rxData_keeps (l := l) (writeBuf_keeps h)

theorem deliverFrame_keeps {s0 : State} {s : State} {k : Nat} {f : RxFrame} {posted : List (BitVec 512)} (hs : State.Keeps s0 s) :
    State.Keeps s0 (deliverFrame s k f posted) := by
  unfold deliverFrame
  with_reducible repeat' first
    | assumption | apply State.ite_keeps | apply State.modRing_keeps | apply putSlots_keeps | apply writeIdx_keeps
    | apply rxData_keeps

theorem State.modPt_keeps {s0 : State} {s : State} {h : Nat} {f : Point → Point} (hs : State.Keeps s0 s) :
    State.Keeps s0 (State.modPt s h f) := by
  unfold State.modPt
  with_reducible repeat' first
    | assumption | (refine State.keeps_of_parts ?_; dsimp only; refine State.Keeps.ofParts ?_)

theorem dirChanged_keeps {s0 : State} {s : State} (hs : State.Keeps s0 s) :
    State.Keeps s0 (dirChanged s) := by
  unfold dirChanged
  with_reducible repeat' first
    | assumption | apply State.modWs_keeps

theorem dirFrom_keeps {s0 : State} {s t : State} (hs : State.Keeps s0 s) (ht : State.Keeps s0 t) :
    State.Keeps s0 (dirFrom s t) := by
  unfold dirFrom
  with_reducible repeat' first
    | assumption | apply State.ite_keeps | apply dirChanged_keeps

theorem deliver_keeps {s0 : State} {s : State} {h : Nat} {m : Mirror} {repeated : Bool} (hs : State.Keeps s0 s) :
    State.Keeps s0 (deliver s h m repeated) := by
  unfold deliver
  with_reducible repeat' first
    | assumption | intro _ | apply State.ite_keeps | apply State.foldl_keeps | apply steer_keeps
    | apply State.modCh_keeps | apply State.modPt_keeps | (refine State.keeps_of_pair (by assumption) ?_)
    | (refine State.keeps_of_parts ?_; dsimp only; refine State.Keeps.ofParts ?_) | split

theorem covUnit_keeps {s0 : State} {s : State} {h : Nat} {p : Point} {m : Mirror} {newSeq : Bool} (hs : State.Keeps s0 s) :
    State.Keeps s0 (covUnit s h p m newSeq) := by
  unfold covUnit
  with_reducible repeat' first
    | assumption | apply State.ite_keeps | apply deliver_keeps | apply State.modPt_keeps

theorem mirrorWrite_keeps {s0 : State} {s : State} {h : Nat} {m : Mirror} (hs : State.Keeps s0 s) :
    State.Keeps s0 (mirrorWrite s h m) := by
  unfold mirrorWrite
  with_reducible repeat' first
    | assumption | apply State.modPt_keeps | apply State.mirror_keeps | apply covUnit_keeps
    | (refine State.keeps_of_pair (by assumption) ?_)
    | (refine State.keeps_of_parts ?_; dsimp only; refine State.Keeps.ofParts ?_) | split

theorem acquire_keeps {s0 : State} {s : State} {h : Nat} {v : Slot} {q : Nat} {stamp : Instant} (hs : State.Keeps s0 s) :
    State.Keeps s0 (acquire s h v q stamp) := by
  unfold acquire
  with_reducible repeat' first
    | assumption | apply State.ite_keeps | apply State.modPt_keeps | apply mirrorWrite_keeps
    | apply State.modCh_keeps | (refine State.keeps_of_pair (by assumption) ?_)
    | (refine State.keeps_of_parts ?_; dsimp only; refine State.Keeps.ofParts ?_) | split

theorem hubUpdate_keeps {s0 : State} {s : State} {n : Nat} {u : Update} (hs : State.Keeps s0 s) :
    State.Keeps s0 (hubUpdate s n u) := by
  unfold hubUpdate
  with_reducible repeat' first
    | assumption | apply State.ite_keeps | apply raise_keeps | apply mirrorWrite_keeps
    | (refine State.keeps_of_pair (by assumption) ?_)
    | (refine State.keeps_of_parts ?_; dsimp only; refine State.Keeps.ofParts ?_) | split

theorem pointUpdateOp_keeps {s0 : State} {n : Nat} {s : State} (hs : State.Keeps s0 s) :
    State.Keeps s0 (pointUpdateOp n s) := by
  unfold pointUpdateOp
  with_reducible repeat' first
    | assumption | apply hubUpdate_keeps | apply State.modCh_keeps | (refine State.keeps_of_pair (by assumption) ?_)
    | (refine State.keeps_of_parts ?_; dsimp only; refine State.Keeps.ofParts ?_) | split

theorem forwardedOp_keeps {s0 : State} {n : Nat} {s : State} (hs : State.Keeps s0 s) :
    State.Keeps s0 (forwardedOp n s) := by
  unfold forwardedOp
  with_reducible repeat' first
    | assumption | apply State.ite_keeps | apply State.modCh_keeps | (refine State.keeps_of_pair (by assumption) ?_)
    | (refine State.keeps_of_parts ?_; dsimp only; refine State.Keeps.ofParts ?_) | split

theorem markStale_keeps {s0 : State} {s : State} {n : Nat} (hs : State.Keeps s0 s) :
    State.Keeps s0 (markStale s n) := by
  unfold markStale
  with_reducible repeat' first
    | assumption | intro _ | apply State.foldl_keeps | apply deliver_keeps | apply State.modPt_keeps
    | apply State.mirror_keeps | (refine State.keeps_of_pair (by assumption) ?_)
    | (refine State.keeps_of_parts ?_; dsimp only; refine State.Keeps.ofParts ?_) | split

theorem resendAll_keeps {s0 : State} {s : State} {n : Nat} (hs : State.Keeps s0 s) :
    State.Keeps s0 (resendAll s n) := by
  unfold resendAll
  with_reducible repeat' first
    | assumption | apply State.modCh_keeps

theorem minExpiryOp_keeps {s0 : State} {h : Nat} {s : State} (hs : State.Keeps s0 s) :
    State.Keeps s0 (minExpiryOp h s) := by
  unfold minExpiryOp
  with_reducible repeat' first
    | assumption | apply State.ite_keeps | apply deliver_keeps | apply State.modPt_keeps
    | (refine State.keeps_of_pair (by assumption) ?_)
    | (refine State.keeps_of_parts ?_; dsimp only; refine State.Keeps.ofParts ?_) | split

theorem maxExpiryOp_keeps {s0 : State} {h : Nat} {s : State} (hs : State.Keeps s0 s) :
    State.Keeps s0 (maxExpiryOp h s) := by
  unfold maxExpiryOp
  with_reducible repeat' first
    | assumption | apply State.ite_keeps | apply deliver_keeps | (refine State.keeps_of_pair (by assumption) ?_)
    | (refine State.keeps_of_parts ?_; dsimp only; refine State.Keeps.ofParts ?_) | split

theorem mirselOp_keeps {s0 : State} {fn h : Nat} {s : State} (hs : State.Keeps s0 s) :
    State.Keeps s0 (mirselOp fn h s) := by
  unfold mirselOp
  with_reducible repeat' first
    | assumption | apply State.ite_keeps | apply State.modFn_keeps | (refine State.keeps_of_pair (by assumption) ?_)
    | (refine State.keeps_of_parts ?_; dsimp only; refine State.Keeps.ofParts ?_) | split

theorem dirwinOp_keeps {s0 : State} {en : Bool} {s : State} (hs : State.Keeps s0 s) :
    State.Keeps s0 (dirwinOp en s) := by
  unfold dirwinOp
  with_reducible repeat' first
    | assumption | apply State.setReg_keeps

end Sys2Proof.Machine
end

