-- ==== Sys2Proof/Laws/KeepsField.lean ====
section
/-! SUPPORT. What every effect keeps (`State.Keeps`), for field I/O, timed-action cores, CAN, backbone ports and segments: one lemma per operation. -/

namespace Sys2Proof.Machine

theorem State.modDio_keeps {s0 : State} {s : State} {n : Nat} {f : Dio → Dio} (hs : State.Keeps s0 s) :
    State.Keeps s0 (State.modDio s n f) := by
  unfold State.modDio
  with_reducible repeat' first
    | assumption | apply State.modCh_keeps

theorem State.modDout_keeps {s0 : State} {s : State} {n d : Nat} {f : Dout → Dout} (hs : State.Keeps s0 s) :
    State.Keeps s0 (State.modDout s n d f) := by
  unfold State.modDout
  with_reducible repeat' first
    | assumption | apply State.modDio_keeps

theorem State.modAout_keeps {s0 : State} {s : State} {n t : Nat} {f : Aout → Aout} (hs : State.Keeps s0 s) :
    State.Keeps s0 (State.modAout s n t f) := by
  unfold State.modAout
  with_reducible repeat' first
    | assumption | apply State.modDio_keeps

theorem State.modAin_keeps {s0 : State} {s : State} {n i : Nat} {f : Ain → Ain} (hs : State.Keeps s0 s) :
    State.Keeps s0 (State.modAin s n i f) := by
  unfold State.modAin
  with_reducible repeat' first
    | assumption | apply State.modDio_keeps

theorem acquireTerm_keeps {s0 : State} {s : State} {n term : Nat} {v : Slot} {q : Nat} {stamp : Instant} (hs : State.Keeps s0 s) :
    State.Keeps s0 (acquireTerm s n term v q stamp) := by
  unfold acquireTerm
  with_reducible repeat' first
    | assumption | intro _ | apply State.foldl_keeps | apply acquire_keeps

theorem doutAcquire_keeps {s0 : State} {s : State} {n d : Nat} {stamp : Instant} (hs : State.Keeps s0 s) :
    State.Keeps s0 (doutAcquire s n d stamp) := by
  unfold doutAcquire
  with_reducible repeat' first
    | assumption | apply State.ite_keeps | apply acquireTerm_keeps | apply State.modDout_keeps

theorem doutRequal_keeps {s0 : State} {s : State} {n d : Nat} (hs : State.Keeps s0 s) :
    State.Keeps s0 (doutRequal s n d) := by
  unfold doutRequal
  with_reducible repeat' first
    | assumption | apply State.ite_keeps | apply doutAcquire_keeps

theorem aoutAcquire_keeps {s0 : State} {s : State} {n t : Nat} {stamp : Instant} (hs : State.Keeps s0 s) :
    State.Keeps s0 (aoutAcquire s n t stamp) := by
  unfold aoutAcquire
  with_reducible repeat' first
    | assumption | apply acquireTerm_keeps | apply State.modAout_keeps

theorem aoutRequal_keeps {s0 : State} {s : State} {n t : Nat} (hs : State.Keeps s0 s) :
    State.Keeps s0 (aoutRequal s n t) := by
  unfold aoutRequal
  with_reducible repeat' first
    | assumption | apply State.ite_keeps | apply aoutAcquire_keeps

theorem latchDout_keeps {s0 : State} {s : State} {n d : Nat} {v : Bool} {stamp : Instant} (hs : State.Keeps s0 s) :
    State.Keeps s0 (latchDout s n d v stamp) := by
  unfold latchDout
  with_reducible repeat' first
    | assumption | apply State.ite_keeps | apply State.modDout_keeps | apply doutAcquire_keeps

theorem latchAout_keeps {s0 : State} {s : State} {n t code : Nat} {stamp : Instant} (hs : State.Keeps s0 s) :
    State.Keeps s0 (latchAout s n t code stamp) := by
  unfold latchAout
  with_reducible repeat' first
    | assumption | apply aoutAcquire_keeps | apply State.modAout_keeps

theorem applySafe_keeps {s0 : State} {s : State} {n term : Nat} (hs : State.Keeps s0 s) :
    State.Keeps s0 (applySafe s n term) := by
  unfold applySafe
  with_reducible repeat' first
    | assumption | apply State.ite_keeps | apply latchDout_keeps | apply State.modAout_keeps | apply latchAout_keeps
    | apply aoutAcquire_keeps | (refine State.keeps_of_pair (by assumption) ?_)
    | (refine State.keeps_of_parts ?_; dsimp only; refine State.Keeps.ofParts ?_) | split

theorem applyAllSafe_keeps {s0 : State} {s : State} {n : Nat} (hs : State.Keeps s0 s) :
    State.Keeps s0 (applyAllSafe s n) := by
  unfold applyAllSafe
  with_reducible repeat' first
    | assumption | intro _ | apply State.ite_keeps | apply State.foldl_keeps | apply applySafe_keeps

theorem requalAll_keeps {s0 : State} {s : State} {n : Nat} (hs : State.Keeps s0 s) :
    State.Keeps s0 (requalAll s n) := by
  unfold requalAll
  with_reducible repeat' first
    | assumption | intro _ | apply State.foldl_keeps | apply doutRequal_keeps | apply aoutRequal_keeps

theorem acquireDin_keeps {s0 : State} {s : State} {n i : Nat} {q : Nat} {stamp : Instant} (hs : State.Keeps s0 s) :
    State.Keeps s0 (acquireDin s n i q stamp) := by
  unfold acquireDin
  with_reducible repeat' first
    | assumption | apply State.ite_keeps | apply acquireTerm_keeps

theorem acquireCnt_keeps {s0 : State} {s : State} {n i : Nat} {q : Nat} {stamp : Instant} (hs : State.Keeps s0 s) :
    State.Keeps s0 (acquireCnt s n i q stamp) := by
  unfold acquireCnt
  with_reducible repeat' first
    | assumption | apply acquireTerm_keeps

theorem acquireInputs_keeps {s0 : State} {s : State} {n : Nat} {q : Nat} (hs : State.Keeps s0 s) :
    State.Keeps s0 (acquireInputs s n q) := by
  unfold acquireInputs
  with_reducible repeat' first
    | assumption | intro _ | apply State.ite_keeps | apply State.foldl_keeps | apply acquireDin_keeps
    | apply acquireCnt_keeps

theorem reacquireAin_keeps {s0 : State} {s : State} {n i : Nat} {q : Nat} (hs : State.Keeps s0 s) :
    State.Keeps s0 (reacquireAin s n i q) := by
  unfold reacquireAin
  with_reducible repeat' first
    | assumption | intro _ | apply State.foldl_keeps | apply acquire_keeps

theorem fsupLowOp_keeps {s0 : State} {n v : Nat} {s : State} (hs : State.Keeps s0 s) :
    State.Keeps s0 (fsupLowOp n v s) := by
  unfold fsupLowOp
  with_reducible repeat' first
    | assumption | apply State.ite_keeps | apply State.modDio_keeps

theorem fsupOkOp_keeps {s0 : State} {n v : Nat} {s : State} (hs : State.Keeps s0 s) :
    State.Keeps s0 (fsupOkOp n v s) := by
  unfold fsupOkOp
  with_reducible repeat' first
    | assumption | apply State.ite_keeps | apply State.modDio_keeps

theorem fsupInvalidOp_keeps {s0 : State} {n v : Nat} {s : State} (hs : State.Keeps s0 s) :
    State.Keeps s0 (fsupInvalidOp n v s) := by
  unfold fsupInvalidOp
  with_reducible repeat' first
    | assumption | intro _ | apply State.ite_keeps | apply State.foldl_keeps | apply State.modDio_keeps
    | apply acquireInputs_keeps | apply reacquireAin_keeps

theorem fsupValidOp_keeps {s0 : State} {n v : Nat} {s : State} (hs : State.Keeps s0 s) :
    State.Keeps s0 (fsupValidOp n v s) := by
  unfold fsupValidOp
  with_reducible repeat' first
    | assumption | apply State.ite_keeps | apply acquireInputs_keeps | apply State.modDio_keeps

theorem uvloOp_keeps {s0 : State} {n v : Nat} {s : State} (hs : State.Keeps s0 s) :
    State.Keeps s0 (uvloOp n v s) := by
  unfold uvloOp
  with_reducible repeat' first
    | assumption | apply State.ite_keeps | apply State.modDio_keeps | apply restart_keeps | apply requalAll_keeps

theorem restartRiseOp_keeps {s0 : State} {n v : Nat} {s : State} (hs : State.Keeps s0 s) :
    State.Keeps s0 (restartRiseOp n v s) := by
  unfold restartRiseOp
  with_reducible repeat' first
    | assumption | apply State.ite_keeps | apply State.modDio_keeps

theorem uvloRestartOp_keeps {s0 : State} {n : Nat} {s : State} (hs : State.Keeps s0 s) :
    State.Keeps s0 (uvloRestartOp n s) := by
  unfold uvloRestartOp
  with_reducible repeat' first
    | assumption | apply State.ite_keeps | apply State.modDio_keeps | apply restart_keeps | apply requalAll_keeps

theorem guardLossOp_keeps {s0 : State} {n v : Nat} {s : State} (hs : State.Keeps s0 s) :
    State.Keeps s0 (guardLossOp n v s) := by
  unfold guardLossOp
  with_reducible repeat' first
    | assumption | apply State.ite_keeps | apply State.modDio_keeps

theorem dinEdgeOp_keeps {s0 : State} {n i : Nat} {level : Bool} {stamp : Instant} {s : State} (hs : State.Keeps s0 s) :
    State.Keeps s0 (dinEdgeOp n i level stamp s) := by
  unfold dinEdgeOp
  with_reducible repeat' first
    | assumption | apply State.ite_keeps | apply State.modDio_keeps | apply acquireDin_keeps

theorem counterAcqOp_keeps {s0 : State} {n : Nat} {s : State} (hs : State.Keeps s0 s) :
    State.Keeps s0 (counterAcqOp n s) := by
  unfold counterAcqOp
  with_reducible repeat' first
    | assumption | intro _ | apply State.ite_keeps | apply State.foldl_keeps | apply acquireDin_keeps
    | apply acquireCnt_keeps

theorem presetCnt_keeps {s0 : State} {s : State} {n i : Nat} {v : Slot} {stamp : Instant} (hs : State.Keeps s0 s) :
    State.Keeps s0 (presetCnt s n i v stamp) := by
  unfold presetCnt
  with_reducible repeat' first
    | assumption | apply State.modDio_keeps | apply State.modCh_keeps | apply acquireCnt_keeps

theorem inputsChanged_keeps {s0 : State} {old s : State} {n : Nat} (hold : State.Keeps s0 old) (hs : State.Keeps s0 s) :
    State.Keeps s0 (inputsChanged old s n) := by
  unfold inputsChanged
  with_reducible repeat' first
    | assumption | intro _ | apply State.ite_keeps | apply State.foldl_keeps | apply acquireDin_keeps
    | apply acquireCnt_keeps | apply reacquireAin_keeps

theorem switchOff_keeps {s0 : State} {s : State} {n d : Nat} {hot : Bool} (hs : State.Keeps s0 s) :
    State.Keeps s0 (switchOff s n d hot) := by
  unfold switchOff
  with_reducible repeat' first
    | assumption | apply doutRequal_keeps | apply State.modDout_keeps

theorem overcurrentOp_keeps {s0 : State} {n d : Nat} {s : State} (hs : State.Keeps s0 s) :
    State.Keeps s0 (overcurrentOp n d s) := by
  unfold overcurrentOp
  with_reducible repeat' first
    | assumption | apply State.ite_keeps | apply switchOff_keeps | apply State.modDio_keeps

theorem overtempOp_keeps {s0 : State} {n d : Nat} {s : State} (hs : State.Keeps s0 s) :
    State.Keeps s0 (overtempOp n d s) := by
  unfold overtempOp
  with_reducible repeat' first
    | assumption | apply State.ite_keeps | apply switchOff_keeps | apply State.modDio_keeps

theorem switchOn_keeps {s0 : State} {s : State} {n d : Nat} (hs : State.Keeps s0 s) :
    State.Keeps s0 (switchOn s n d) := by
  unfold switchOn
  with_reducible repeat' first
    | assumption | apply State.ite_keeps | apply doutRequal_keeps | apply State.modDout_keeps

theorem retryOp_keeps {s0 : State} {n d : Nat} {s : State} (hs : State.Keeps s0 s) :
    State.Keeps s0 (retryOp n d s) := by
  unfold retryOp
  with_reducible repeat' first
    | assumption | apply State.ite_keeps | apply State.modDout_keeps | apply switchOn_keeps

theorem cooledOp_keeps {s0 : State} {n d : Nat} {s : State} (hs : State.Keeps s0 s) :
    State.Keeps s0 (cooledOp n d s) := by
  unfold cooledOp
  with_reducible repeat' first
    | assumption | apply State.ite_keeps | apply State.modDout_keeps | apply switchOn_keeps | apply doutRequal_keeps

theorem clrOcOp_keeps {s0 : State} {n : Nat} {mask : BitVec 8} {s : State} (hs : State.Keeps s0 s) :
    State.Keeps s0 (clrOcOp n mask s) := by
  unfold clrOcOp
  with_reducible repeat' first
    | assumption | intro _ | apply State.ite_keeps | apply State.foldl_keeps | apply switchOn_keeps

theorem groupOcOp_keeps {s0 : State} {n : Nat} {cs : List Nat} {s : State} (hs : State.Keeps s0 s) :
    State.Keeps s0 (groupOcOp n cs s) := by
  unfold groupOcOp
  with_reducible repeat' first
    | assumption | intro _ | apply State.ite_keeps | apply State.foldl_keeps | apply State.modDio_keeps
    | apply switchOff_keeps

theorem extDriveOp_keeps {s0 : State} {n d : Nat} {s : State} (hs : State.Keeps s0 s) :
    State.Keeps s0 (extDriveOp n d s) := by
  unfold extDriveOp
  with_reducible repeat' first
    | assumption | apply State.ite_keeps | apply State.modDio_keeps | apply doutRequal_keeps
    | apply State.modDout_keeps

theorem openLoadOp_keeps {s0 : State} {n d : Nat} {s : State} (hs : State.Keeps s0 s) :
    State.Keeps s0 (openLoadOp n d s) := by
  unfold openLoadOp
  with_reducible repeat' first
    | assumption | apply State.ite_keeps | apply State.modDio_keeps

theorem clearCause0_keeps {s0 : State} {s : State} {n : Nat} {w : Word} (hs : State.Keeps s0 s) :
    State.Keeps s0 (clearCause0 s n w) := by
  unfold clearCause0
  with_reducible repeat' first
    | assumption | intro _ | apply State.ite_keeps | apply State.foldl_keeps | apply State.modDio_keeps
    | apply State.tick1_keeps | apply doutRequal_keeps | apply State.modDout_keeps

theorem clearCause1_keeps {s0 : State} {s : State} {n : Nat} {w : Word} (hs : State.Keeps s0 s) :
    State.Keeps s0 (clearCause1 s n w) := by
  unfold clearCause1
  with_reducible repeat' first
    | assumption | intro _ | apply State.ite_keeps | apply State.foldl_keeps | apply State.modDio_keeps
    | apply State.tick1_keeps

theorem guardKickOp_keeps {s0 : State} {n : Nat} {s : State} (hs : State.Keeps s0 s) :
    State.Keeps s0 (guardKickOp n s) := by
  unfold guardKickOp
  with_reducible repeat' first
    | assumption | intro _ | apply State.ite_keeps | apply State.foldl_keeps | apply State.modDio_keeps
    | apply doutAcquire_keeps | apply aoutAcquire_keeps

theorem guardTripOp_keeps {s0 : State} {n : Nat} {s : State} (hs : State.Keeps s0 s) :
    State.Keeps s0 (guardTripOp n s) := by
  unfold guardTripOp
  with_reducible repeat' first
    | assumption | apply State.ite_keeps | apply State.modDio_keeps

theorem guardHoldOp_keeps {s0 : State} {n : Nat} {s : State} (hs : State.Keeps s0 s) :
    State.Keeps s0 (guardHoldOp n s) := by
  unfold guardHoldOp
  with_reducible repeat' first
    | assumption | apply State.ite_keeps | apply State.modDio_keeps

theorem guardHoldExpiryOp_keeps {s0 : State} {n : Nat} {s : State} (hs : State.Keeps s0 s) :
    State.Keeps s0 (guardHoldExpiryOp n s) := by
  unfold guardHoldExpiryOp
  with_reducible repeat' first
    | assumption | apply State.ite_keeps | apply State.modDio_keeps

theorem adcScanOp_keeps {s0 : State} {n i : Nat} {s : State} (hs : State.Keeps s0 s) :
    State.Keeps s0 (adcScanOp n i s) := by
  unfold adcScanOp
  with_reducible repeat' first
    | assumption | apply State.ite_keeps | apply State.modAin_keeps

theorem adcBurstOp_keeps {s0 : State} {n idx : Nat} {s : State} (hs : State.Keeps s0 s) :
    State.Keeps s0 (adcBurstOp n idx s) := by
  unfold adcBurstOp
  with_reducible repeat' first
    | assumption | intro _ | apply State.ite_keeps | apply State.foldl_keeps | apply State.modDio_keeps
    | apply State.modAin_keeps | (refine State.keeps_of_pair (by assumption) ?_)
    | (refine State.keeps_of_parts ?_; dsimp only; refine State.Keeps.ofParts ?_) | split

theorem acquireAin_keeps {s0 : State} {s : State} {n i range : Nat} {u m : Int} {bad : Bool} (hs : State.Keeps s0 s) :
    State.Keeps s0 (acquireAin s n i range u m bad) := by
  unfold acquireAin
  with_reducible repeat' first
    | assumption | intro _ | apply State.ite_keeps | apply State.foldl_keeps | apply acquire_keeps
    | (refine State.keeps_of_pair (by assumption) ?_)
    | (refine State.keeps_of_parts ?_; dsimp only; refine State.Keeps.ofParts ?_) | split

theorem adcDoneOp_keeps {s0 : State} {n i : Nat} {src : ConvSource} {m : Int} {fault : Bool} {s : State} (hs : State.Keeps s0 s) :
    State.Keeps s0 (adcDoneOp n i src m fault s) := by
  unfold adcDoneOp
  with_reducible repeat' first
    | assumption | apply State.ite_keeps | apply State.modAin_keeps | apply acquireAin_keeps

theorem burdenOpenOp_keeps {s0 : State} {n i : Nat} {s : State} (hs : State.Keeps s0 s) :
    State.Keeps s0 (burdenOpenOp n i s) := by
  unfold burdenOpenOp
  with_reducible repeat' first
    | assumption | apply State.ite_keeps | apply reacquireAin_keeps | apply State.modAin_keeps

theorem burdenRestoreOp_keeps {s0 : State} {n i : Nat} {s : State} (hs : State.Keeps s0 s) :
    State.Keeps s0 (burdenRestoreOp n i s) := by
  unfold burdenRestoreOp
  with_reducible repeat' first
    | assumption | apply State.modAin_keeps

theorem aoutLimitOp_keeps {s0 : State} {n t : Nat} {inLimit : Bool} {s : State} (hs : State.Keeps s0 s) :
    State.Keeps s0 (aoutLimitOp n t inLimit s) := by
  unfold aoutLimitOp
  with_reducible repeat' first
    | assumption | apply State.ite_keeps | apply aoutRequal_keeps | apply State.modAout_keeps

theorem timeRec_keeps {s0 : State} {s : State} {i : Nat} {payload : List Byte} (hs : State.Keeps s0 s) :
    State.Keeps s0 (timeRec s i payload) := by
  unfold timeRec
  with_reducible repeat' first
    | assumption | apply raise_keeps | apply State.intBit_keeps

theorem tsqPush_keeps {s0 : State} {s : State} {q : Nat} {stamp : Instant} {valid : Bool} {tag target : Nat} (hs : State.Keeps s0 s) :
    State.Keeps s0 (tsqPush s q stamp valid tag target).1 := by
  unfold tsqPush
  with_reducible repeat' first
    | assumption | apply State.ite_keeps | apply State.iteFst_keeps | apply State.intBit_keeps | apply timeRec_keeps
    | apply State.tsqs_keeps

theorem tsqPopOp_keeps {s0 : State} {q : Nat} {s : State} (hs : State.Keeps s0 s) :
    State.Keeps s0 (tsqPopOp q s) := by
  unfold tsqPopOp
  with_reducible repeat' first
    | assumption | apply State.ite_keeps | apply State.tsqs_keeps

theorem sendReport_keeps {s0 : State} {s : State} {n : Nat} {r : Report} (hs : State.Keeps s0 s) :
    State.Keeps s0 (sendReport s n r) := by
  unfold sendReport
  with_reducible repeat' first
    | assumption | apply State.ite_keeps | apply State.modCh_keeps

theorem State.modTbl_keeps {s0 : State} {s : State} {t : Nat} {f : Table → Table} (hs : State.Keeps s0 s) :
    State.Keeps s0 (State.modTbl s t f) := by
  unfold State.modTbl
  with_reducible repeat' first
    | assumption | apply State.ite_keeps | apply State.modCh_keeps
    | (refine State.keeps_of_parts ?_; dsimp only; refine State.Keeps.ofParts ?_)

theorem State.modEnt_keeps {s0 : State} {s : State} {t i : Nat} {f : Entry → Entry} (hs : State.Keeps s0 s) :
    State.Keeps s0 (State.modEnt s t i f) := by
  unfold State.modEnt
  with_reducible repeat' first
    | assumption | apply State.modTbl_keeps

theorem enterEntry_keeps {s0 s : State} {t i : Nat} {e : Entry} (hs : State.Keeps s0 s) :
    State.Keeps s0 (enterEntry s t i e) := by
  unfold enterEntry
  apply State.mirror_keeps
  have h : ∀ f, State.Keeps s0 (s.modTbl t f) := fun f => State.modTbl_keeps hs
  exact ⟨(h _).inv, (h _).pending, (h _).ident, (h _).free, Nat.le_succ_of_le hs.serial, (h _).frames,
    (h _).floor, (h _).revoked⟩

theorem countArrival_keeps {s0 : State} {s : State} {t outcome : Nat} (hs : State.Keeps s0 s) :
    State.Keeps s0 (countArrival s t outcome) := by
  unfold countArrival
  with_reducible repeat' first
    | assumption | apply State.ite_keeps | apply State.modTbl_keeps

theorem actRecord_keeps {s0 : State} {s : State} {t i : Nat} {e : Entry} {outcome detail lateUs skipped : Nat} {final : Bool} (hs : State.Keeps s0 s) :
    State.Keeps s0 (actRecord s t i e outcome detail lateUs skipped final) := by
  unfold actRecord
  with_reducible repeat' first
    | assumption | apply State.ite_keeps | apply State.modCh_keeps | apply State.modEv_keeps | apply raise_keeps

theorem actOutcome_keeps {s0 : State} {s : State} {t i : Nat} {e : Entry} {outcome detail lateUs : Nat} {final : Bool} (hs : State.Keeps s0 s) :
    State.Keeps s0 (actOutcome s t i e outcome detail lateUs final) := by
  unfold actOutcome
  with_reducible repeat' first
    | assumption | apply State.ite_keeps | apply State.modTbl_keeps | apply actRecord_keeps
    | apply State.modEnt_keeps

theorem endEntry_keeps {s0 : State} {s : State} {t i : Nat} {e : Entry} (hs : State.Keeps s0 s) :
    State.Keeps s0 (endEntry s t i e) := by
  unfold endEntry
  with_reducible repeat' first
    | assumption | apply State.ite_keeps | apply State.modEnt_keeps | apply State.modTbl_keeps
    | apply State.mirror_keeps

theorem occOutcome_keeps {s0 : State} {s : State} {t i : Nat} {e : Entry} {outcome detail lateUs : Nat} {last : Bool} (hs : State.Keeps s0 s) :
    State.Keeps s0 (occOutcome s t i e outcome detail lateUs last) := by
  unfold occOutcome
  with_reducible repeat' first
    | assumption | apply State.ite_keeps | apply actOutcome_keeps | apply endEntry_keeps

theorem cancelEntry_keeps {s0 : State} {s : State} {t i : Nat} {e : Entry} {detail : Nat} (hs : State.Keeps s0 s) :
    State.Keeps s0 (cancelEntry s t i e detail) := by
  unfold cancelEntry
  with_reducible repeat' first
    | assumption | apply actOutcome_keeps | apply State.modTbl_keeps | apply State.mirror_keeps

theorem actFrameDone_keeps {s0 : State} {s : State} {f : TxFrame} {outcome detail : Nat} (hs : State.Keeps s0 s) :
    State.Keeps s0 (actFrameDone s f outcome detail) := by
  unfold actFrameDone
  with_reducible repeat' first
    | assumption | apply State.ite_keeps | apply State.modEnt_keeps | apply occOutcome_keeps
    | (refine State.keeps_of_pair (by assumption) ?_)
    | (refine State.keeps_of_parts ?_; dsimp only; refine State.Keeps.ofParts ?_) | split

theorem frameEnds_keeps {s0 : State} {s : State} {n : Nat} {f : TxFrame} {status detail : Nat} {tsq : Bool} {info : Word} (hs : State.Keeps s0 s) :
    State.Keeps s0 (frameEnds s n f status detail tsq info) := by
  unfold frameEnds
  with_reducible repeat' first
    | assumption | apply State.ite_keeps | apply actFrameDone_keeps | apply sendReport_keeps | apply finish_keeps

theorem frameSent_keeps {s0 : State} {s : State} {n : Nat} {f : TxFrame} {stamp : Instant} {valid : Bool} {q target : Nat} (hs : State.Keeps s0 s) :
    State.Keeps s0 (frameSent s n f stamp valid q target) := by
  unfold frameSent
  with_reducible repeat' first
    | assumption | apply State.ite_keeps | apply tsqPush_keeps | apply frameEnds_keeps

theorem outcomeReportedOp_keeps {s0 : State} {n : Nat} {s : State} (hs : State.Keeps s0 s) :
    State.Keeps s0 (outcomeReportedOp n s) := by
  unfold outcomeReportedOp
  with_reducible repeat' first
    | assumption | apply State.ite_keeps | apply finish_keeps | apply State.modCh_keeps
    | (refine State.keeps_of_pair (by assumption) ?_)
    | (refine State.keeps_of_parts ?_; dsimp only; refine State.Keeps.ofParts ?_) | split

theorem releaseRecs_keeps {s0 : State} {s : State} {n : Nat} (hs : State.Keeps s0 s) :
    State.Keeps s0 (releaseRecs s n) := by
  unfold releaseRecs
  with_reducible repeat' first
    | assumption | intro _ | apply State.foldl_keeps | apply raise_keeps | apply State.modCh_keeps

theorem chRaise_keeps {s0 : State} {s : State} {n b kind subject : Nat} {payload : List Byte} (hs : State.Keeps s0 s) :
    State.Keeps s0 (chRaise s n b kind subject payload) := by
  unfold chRaise
  with_reducible repeat' first
    | assumption | apply State.ite_keeps | apply State.modCh_keeps | apply State.modEv_keeps | apply raise_keeps

theorem chRaiseBoth_keeps {s0 : State} {s : State} {n kind subject : Nat} {payload : List Byte} (hs : State.Keeps s0 s) :
    State.Keeps s0 (chRaiseBoth s n kind subject payload) := by
  unfold chRaiseBoth
  with_reducible repeat' first
    | assumption | apply State.ite_keeps | apply chRaise_keeps

theorem touchImages_keeps {s0 : State} {s : State} {n x : Nat} {ps : List (Nat × Point)} (hs : State.Keeps s0 s) :
    State.Keeps s0 (touchImages s n x ps) := by
  unfold touchImages
  with_reducible repeat' first
    | assumption | intro _ | apply State.ite_keeps | apply State.foldl_keeps | apply State.modCan_keeps
    | apply State.tick1_keeps

theorem canEnqueue_keeps {s0 : State} {s : State} {n x : Nat} {f : TxFrame} (hs : State.Keeps s0 s) :
    State.Keeps s0 (canEnqueue s n x f) := by
  unfold canEnqueue
  with_reducible repeat' first
    | assumption | apply State.ite_keeps | apply frameEnds_keeps | apply State.modCan_keeps
    | (refine State.keeps_of_parts ?_; dsimp only; refine State.Keeps.ofParts ?_)
    | (refine State.keeps_of_parts ?_; dsimp only; refine KeepsParts.more (State.Keeps.ofParts ?_) (Nat.le_refl _) (Nat.le_refl _) (Nat.le_add_right _ _))

theorem canCommand_keeps {s0 : State} {s : State} {n x h : Nat} {p : Point} {v : Slot} {f : TxFrame} (hs : State.Keeps s0 s) :
    State.Keeps s0 (canCommand s n x h p v f) := by
  unfold canCommand
  with_reducible repeat' first
    | assumption | apply State.ite_keeps | apply frameEnds_keeps | apply touchImages_keeps
    | apply State.modCan_keeps | apply canEnqueue_keeps

theorem cancelAnswer_keeps {s0 : State} {s : State} {n : Nat} {f : TxFrame} {status : Nat} (hs : State.Keeps s0 s) :
    State.Keeps s0 (cancelAnswer s n f status) := by
  unfold cancelAnswer
  with_reducible repeat' first
    | assumption | intro _ | apply State.ite_keeps | apply State.foldl_keeps | apply sendReport_keeps
    | apply finish_keeps

theorem endFrames_keeps {s0 : State} {s : State} {n : Nat} {fs : List TxFrame} {status detail req : Nat} (hs : State.Keeps s0 s) :
    State.Keeps s0 (endFrames s n fs status detail req) := by
  unfold endFrames
  with_reducible repeat' first
    | assumption | intro _ | apply State.foldl_keeps | apply cancelAnswer_keeps | apply frameEnds_keeps

theorem canFaultUpdate_keeps {s0 : State} {s : State} {n x : Nat} (hs : State.Keeps s0 s) :
    State.Keeps s0 (canFaultUpdate s n x) := by
  unfold canFaultUpdate
  with_reducible repeat' first
    | assumption | apply State.ite_keeps | apply State.modCan_keeps | apply chRaise_keeps | apply endFrames_keeps
    | (refine State.keeps_of_pair (by assumption) ?_)
    | (refine State.keeps_of_parts ?_; dsimp only; refine State.Keeps.ofParts ?_) | split

theorem noAck_keeps {s0 : State} {s : State} {n x : Nat} {f : TxFrame} (hs : State.Keeps s0 s) :
    State.Keeps s0 (noAck s n x f) := by
  unfold noAck
  with_reducible repeat' first
    | assumption | apply State.ite_keeps | apply State.modCan_keeps | apply chRaiseBoth_keeps

theorem recDown_keeps {s0 : State} {s : State} {n x : Nat} (hs : State.Keeps s0 s) :
    State.Keeps s0 (recDown s n x) := by
  unfold recDown
  with_reducible repeat' first
    | assumption | apply State.ite_keeps | apply canFaultUpdate_keeps | apply State.modCan_keeps
    | apply State.tick1_keeps

theorem canStage_keeps {s0 : State} {s : State} {n x q : Nat} {f : RxFrame} {rings : List Nat} (hs : State.Keeps s0 s) :
    State.Keeps s0 (canStage s n x q f rings) := by
  unfold canStage
  with_reducible repeat' first
    | assumption | apply State.ite_keeps | apply State.modCan_keeps | apply chRaise_keeps | apply State.modCh_keeps

theorem canDecode_keeps {s0 : State} {s : State} {n x : Nat} {f : CanFrame} {stamp : Instant} (hs : State.Keeps s0 s) :
    State.Keeps s0 (canDecode s n x f stamp) := by
  unfold canDecode
  with_reducible repeat' first
    | assumption | intro _ | apply State.foldl_keeps | apply acquire_keeps
    | (refine State.keeps_of_pair (by assumption) ?_)
    | (refine State.keeps_of_parts ?_; dsimp only; refine State.Keeps.ofParts ?_) | split

theorem canAccept_keeps {s0 : State} {s : State} {n x : Nat} {f0 : CanFrame} {stamp : Instant} (hs : State.Keeps s0 s) :
    State.Keeps s0 (canAccept s n x f0 stamp) := by
  unfold canAccept
  with_reducible repeat' first
    | assumption | apply State.ite_keeps | apply State.modCan_keeps | apply canDecode_keeps | apply canStage_keeps
    | (refine State.keeps_of_pair (by assumption) ?_)
    | (refine State.keeps_of_parts ?_; dsimp only; refine State.Keeps.ofParts ?_) | split

theorem canRxOp_keeps {s0 : State} {n x : Nat} {f : CanFrame} {stamp : Instant} {s : State} (hs : State.Keeps s0 s) :
    State.Keeps s0 (canRxOp n x f stamp s) := by
  unfold canRxOp
  with_reducible repeat' first
    | assumption | apply State.ite_keeps | apply State.modCan_keeps | apply canAccept_keeps | apply recDown_keeps

theorem canNodeTmoOp_keeps {s0 : State} {n x id : Nat} {ide : Bool} {s : State} (hs : State.Keeps s0 s) :
    State.Keeps s0 (canNodeTmoOp n x id ide s) := by
  unfold canNodeTmoOp
  with_reducible repeat' first
    | assumption | intro _ | apply State.ite_keeps | apply State.foldl_keeps | apply State.modCan_keeps
    | apply acquire_keeps | apply chRaise_keeps

theorem canApply_keeps {s0 : State} {s : State} {n x : Nat} (hs : State.Keeps s0 s) :
    State.Keeps s0 (canApply s n x) := by
  unfold canApply
  with_reducible repeat' first
    | assumption | apply State.ite_keeps | apply State.modCan_keeps | apply endFrames_keeps

theorem canCtlOp_keeps {s0 : State} {n x : Nat} {data : Word} {s : State} (hs : State.Keeps s0 s) :
    State.Keeps s0 (canCtlOp n x data s) := by
  unfold canCtlOp
  with_reducible repeat' first
    | assumption | apply State.ite_keeps | apply State.setReg_keeps | apply State.modCan_keeps

theorem recoverOp_keeps {s0 : State} {n x : Nat} {s : State} (hs : State.Keeps s0 s) :
    State.Keeps s0 (recoverOp n x s) := by
  unfold recoverOp
  with_reducible repeat' first
    | assumption | apply State.ite_keeps | apply State.modCan_keeps

theorem canModeOp_keeps {s0 : State} {n x : Nat} {s : State} (hs : State.Keeps s0 s) :
    State.Keeps s0 (canModeOp n x s) := by
  unfold canModeOp
  with_reducible repeat' first
    | assumption | apply State.ite_keeps | apply canApply_keeps

theorem canIntegrateOp_keeps {s0 : State} {n x : Nat} {s : State} (hs : State.Keeps s0 s) :
    State.Keeps s0 (canIntegrateOp n x s) := by
  unfold canIntegrateOp
  with_reducible repeat' first
    | assumption | apply State.ite_keeps | apply State.modCan_keeps

theorem canBusOnOp_keeps {s0 : State} {n x us : Nat} {s : State} (hs : State.Keeps s0 s) :
    State.Keeps s0 (canBusOnOp n x us s) := by
  unfold canBusOnOp
  with_reducible repeat' first
    | assumption | apply State.ite_keeps | apply State.modCan_keeps | apply chRaise_keeps | apply canApply_keeps

theorem canArbOp_keeps {s0 : State} {n x : Nat} {won : Bool} {s : State} (hs : State.Keeps s0 s) :
    State.Keeps s0 (canArbOp n x won s) := by
  unfold canArbOp
  with_reducible repeat' first
    | assumption | apply State.ite_keeps | apply endFrames_keeps | apply State.modCan_keeps
    | (refine State.keeps_of_pair (by assumption) ?_)
    | (refine State.keeps_of_parts ?_; dsimp only; refine State.Keeps.ofParts ?_) | split

theorem canTxOkOp_keeps {s0 : State} {n x : Nat} {stamp : Instant} {dly : Option Nat} {s : State} (hs : State.Keeps s0 s) :
    State.Keeps s0 (canTxOkOp n x stamp dly s) := by
  unfold canTxOkOp
  with_reducible repeat' first
    | assumption | intro _ | apply State.ite_keeps | apply State.foldl_keeps | apply State.modCan_keeps
    | apply State.emit_keeps | apply canFaultUpdate_keeps | apply acquire_keeps | apply frameSent_keeps
    | apply cancelAnswer_keeps | apply canAccept_keeps | (refine State.keeps_of_pair (by assumption) ?_)
    | (refine State.keeps_of_parts ?_; dsimp only; refine State.Keeps.ofParts ?_) | split

theorem canTxErrOp_keeps {s0 : State} {n x : Nat} {err : CanErr} {dataPhase dominant : Bool} {s : State} (hs : State.Keeps s0 s) :
    State.Keeps s0 (canTxErrOp n x err dataPhase dominant s) := by
  unfold canTxErrOp
  with_reducible repeat' first
    | assumption | apply State.ite_keeps | apply State.modCan_keeps | apply noAck_keeps | apply canFaultUpdate_keeps
    | apply endFrames_keeps | (refine State.keeps_of_pair (by assumption) ?_)
    | (refine State.keeps_of_parts ?_; dsimp only; refine State.Keeps.ofParts ?_) | split

theorem canRxErrOp_keeps {s0 : State} {n x : Nat} {err : CanErr} {dataPhase severe : Bool} {s : State} (hs : State.Keeps s0 s) :
    State.Keeps s0 (canRxErrOp n x err dataPhase severe s) := by
  unfold canRxErrOp
  with_reducible repeat' first
    | assumption | apply State.ite_keeps | apply State.modCan_keeps | apply canFaultUpdate_keeps

theorem canProtoOp_keeps {s0 : State} {n x : Nat} {s : State} (hs : State.Keeps s0 s) :
    State.Keeps s0 (canProtoOp n x s) := by
  unfold canProtoOp
  with_reducible repeat' first
    | assumption | apply State.ite_keeps | apply State.modCan_keeps | apply chRaise_keeps

theorem netCount_keeps {s0 : State} {s : State} {p o : Nat} (hs : State.Keeps s0 s) :
    State.Keeps s0 (netCount s p o) := by
  unfold netCount
  with_reducible repeat' first
    | assumption | apply State.modNet_keeps

theorem netInt_keeps {s0 : State} {s : State} {p i : Nat} (hs : State.Keeps s0 s) :
    State.Keeps s0 (netInt s p i) := by
  unfold netInt
  with_reducible repeat' first
    | assumption | apply State.intBit_keeps

theorem netAct_keeps {s0 : State} {s : State} {p : Nat} (hs : State.Keeps s0 s) :
    State.Keeps s0 (netAct s p) := by
  unfold netAct
  with_reducible repeat' first
    | assumption | apply State.emit_keeps

theorem netKick_keeps {s0 : State} {s : State} {p : Nat} (hs : State.Keeps s0 s) :
    State.Keeps s0 (netKick s p) := by
  unfold netKick
  with_reducible repeat' first
    | assumption | apply State.ite_keeps | apply State.modNet_keeps
    | (refine State.keeps_of_pair (by assumption) ?_)
    | (refine State.keeps_of_parts ?_; dsimp only; refine State.Keeps.ofParts ?_) | split

theorem netPreempt_keeps {s0 : State} {s : State} {p : Nat} (hs : State.Keeps s0 s) :
    State.Keeps s0 (netPreempt s p) := by
  unfold netPreempt
  with_reducible repeat' first
    | assumption | apply State.ite_keeps | apply State.tick1_keeps | apply netCount_keeps | apply State.modNet_keeps
    | (refine State.keeps_of_pair (by assumption) ?_)
    | (refine State.keeps_of_parts ?_; dsimp only; refine State.Keeps.ofParts ?_) | split

theorem netEnqueue_keeps {s0 : State} {s : State} {p : Nat} {f : TxFrame} (hs : State.Keeps s0 s) :
    State.Keeps s0 (netEnqueue s p f) := by
  unfold netEnqueue
  with_reducible repeat' first
    | assumption | apply State.ite_keeps | apply frameEnds_keeps | apply State.modNet_keeps | apply netKick_keeps
    | apply netPreempt_keeps | (refine State.keeps_of_parts ?_; dsimp only; refine State.Keeps.ofParts ?_)
    | (refine State.keeps_of_parts ?_; dsimp only; refine KeepsParts.more (State.Keeps.ofParts ?_) (Nat.le_refl _) (Nat.le_refl _) (Nat.le_add_right _ _))

theorem netLinkRec_keeps {s0 : State} {s : State} {p : Nat} (hs : State.Keeps s0 s) :
    State.Keeps s0 (netLinkRec s p) := by
  unfold netLinkRec
  with_reducible repeat' first
    | assumption | apply State.ite_keeps | apply netInt_keeps | apply raise_keeps

theorem netVerifyStart_keeps {s0 : State} {s : State} {p : Nat} (hs : State.Keeps s0 s) :
    State.Keeps s0 (netVerifyStart s p) := by
  unfold netVerifyStart
  with_reducible repeat' first
    | assumption | apply State.ite_keeps | apply State.modNet_keeps | apply State.emit_keeps

theorem netUpOp_keeps {s0 : State} {p speed : Nat} {rx tx : Bool} {s : State} (hs : State.Keeps s0 s) :
    State.Keeps s0 (netUpOp p speed rx tx s) := by
  unfold netUpOp
  with_reducible repeat' first
    | assumption | apply State.ite_keeps | apply State.modNet_keeps | apply netVerifyStart_keeps
    | apply netLinkRec_keeps

theorem netDownOp_keeps {s0 : State} {p : Nat} {s : State} (hs : State.Keeps s0 s) :
    State.Keeps s0 (netDownOp p s) := by
  unfold netDownOp
  with_reducible repeat' first
    | assumption | intro _ | apply State.ite_keeps | apply State.foldl_keeps | apply State.modNet_keeps
    | apply netCount_keeps | apply cancelAnswer_keeps | apply frameEnds_keeps | apply netInt_keeps
    | apply endFrames_keeps | apply netLinkRec_keeps

theorem netDisableOp_keeps {s0 : State} {p : Nat} {s : State} (hs : State.Keeps s0 s) :
    State.Keeps s0 (netDisableOp p s) := by
  unfold netDisableOp
  with_reducible repeat' first
    | assumption | apply State.ite_keeps | apply endFrames_keeps | apply State.modNet_keeps | apply netDownOp_keeps

theorem sendXoff_keeps {s0 : State} {s : State} {p : Nat} (hs : State.Keeps s0 s) :
    State.Keeps s0 (sendXoff s p) := by
  unfold sendXoff
  with_reducible repeat' first
    | assumption | apply netCount_keeps | apply netAct_keeps | apply State.emit_keeps

theorem netFlow_keeps {s0 : State} {s : State} {p : Nat} (hs : State.Keeps s0 s) :
    State.Keeps s0 (netFlow s p) := by
  unfold netFlow
  with_reducible repeat' first
    | assumption | apply State.ite_keeps | apply sendXoff_keeps | apply State.modNet_keeps

theorem xoffRepeatOp_keeps {s0 : State} {p : Nat} {s : State} (hs : State.Keeps s0 s) :
    State.Keeps s0 (xoffRepeatOp p s) := by
  unfold xoffRepeatOp
  with_reducible repeat' first
    | assumption | apply State.ite_keeps | apply sendXoff_keeps

theorem xonOp_keeps {s0 : State} {p : Nat} {s : State} (hs : State.Keeps s0 s) :
    State.Keeps s0 (xonOp p s) := by
  unfold xonOp
  with_reducible repeat' first
    | assumption | apply State.ite_keeps | apply netCount_keeps | apply netAct_keeps | apply State.modNet_keeps
    | apply State.emit_keeps

theorem pauseRxOp_keeps {s0 : State} {p quanta : Nat} {s : State} (hs : State.Keeps s0 s) :
    State.Keeps s0 (pauseRxOp p quanta s) := by
  unfold pauseRxOp
  with_reducible repeat' first
    | assumption | apply State.ite_keeps | apply netCount_keeps | apply State.modNet_keeps | apply netKick_keeps
    | apply netPreempt_keeps

theorem pauseExpiryOp_keeps {s0 : State} {p : Nat} {s : State} (hs : State.Keeps s0 s) :
    State.Keeps s0 (pauseExpiryOp p s) := by
  unfold pauseExpiryOp
  with_reducible repeat' first
    | assumption | apply State.ite_keeps | apply netKick_keeps | apply State.modNet_keeps

theorem netTxDoneOp_keeps {s0 : State} {p : Nat} {stamp : Instant} {s : State} (hs : State.Keeps s0 s) :
    State.Keeps s0 (netTxDoneOp p stamp s) := by
  unfold netTxDoneOp
  with_reducible repeat' first
    | assumption | apply State.modNet_keeps | apply netCount_keeps | apply netAct_keeps | apply State.emit_keeps
    | apply frameSent_keeps | apply netKick_keeps | apply cancelAnswer_keeps
    | (refine State.keeps_of_pair (by assumption) ?_)
    | (refine State.keeps_of_parts ?_; dsimp only; refine State.Keeps.ofParts ?_) | split

theorem verifyRxOp_keeps {s0 : State} {p : Nat} {s : State} (hs : State.Keeps s0 s) :
    State.Keeps s0 (verifyRxOp p s) := by
  unfold verifyRxOp
  with_reducible repeat' first
    | assumption | apply State.ite_keeps | apply State.emit_keeps

theorem netVerifyRec_keeps {s0 : State} {s : State} {p code : Nat} (hs : State.Keeps s0 s) :
    State.Keeps s0 (netVerifyRec s p code) := by
  unfold netVerifyRec
  with_reducible repeat' first
    | assumption | apply netInt_keeps | apply raise_keeps

theorem verifyRespOp_keeps {s0 : State} {p : Nat} {s : State} (hs : State.Keeps s0 s) :
    State.Keeps s0 (verifyRespOp p s) := by
  unfold verifyRespOp
  with_reducible repeat' first
    | assumption | apply State.ite_keeps | apply netVerifyRec_keeps | apply State.modNet_keeps

theorem verifyTmoOp_keeps {s0 : State} {p : Nat} {s : State} (hs : State.Keeps s0 s) :
    State.Keeps s0 (verifyTmoOp p s) := by
  unfold verifyTmoOp
  with_reducible repeat' first
    | assumption | apply State.ite_keeps | apply State.modNet_keeps | apply State.emit_keeps
    | apply netVerifyRec_keeps

theorem holdOp_keeps {s0 : State} {p : Nat} {s : State} (hs : State.Keeps s0 s) :
    State.Keeps s0 (holdOp p s) := by
  unfold holdOp
  with_reducible repeat' first
    | assumption | apply State.ite_keeps | apply netPreempt_keeps | apply State.modNet_keeps

theorem netStage_keeps {s0 : State} {s : State} {p : Nat} {b : List Byte} {stamp : Instant} (hs : State.Keeps s0 s) :
    State.Keeps s0 (netStage s p b stamp) := by
  unfold netStage
  with_reducible repeat' first
    | assumption | apply State.ite_keeps | apply State.modNet_keeps | apply netCount_keeps | apply netInt_keeps
    | apply raise_keeps | apply netFlow_keeps

theorem netJudge_keeps {s0 : State} {s : State} {p : Nat} {f : EthFrame} {stamp : Instant} (hs : State.Keeps s0 s) :
    State.Keeps s0 (netJudge s p f stamp) := by
  unfold netJudge
  with_reducible repeat' first
    | assumption | apply State.ite_keeps | apply netAct_keeps | apply netCount_keeps | apply pauseRxOp_keeps
    | apply netStage_keeps

theorem reasmErr_keeps {s0 : State} {s : State} {p : Nat} (hs : State.Keeps s0 s) :
    State.Keeps s0 (reasmErr s p) := by
  unfold reasmErr
  with_reducible repeat' first
    | assumption | apply netCount_keeps | apply State.modNet_keeps

theorem netRxOp_keeps {s0 : State} {p : Nat} {rx : NetRx} {stamp : Instant} {s : State} (hs : State.Keeps s0 s) :
    State.Keeps s0 (netRxOp p rx stamp s) := by
  unfold netRxOp
  with_reducible repeat' first
    | assumption | apply State.ite_keeps | apply netJudge_keeps | apply reasmErr_keeps | apply State.modNet_keeps
    | (refine State.keeps_of_pair (by assumption) ?_)
    | (refine State.keeps_of_parts ?_; dsimp only; refine State.Keeps.ofParts ?_) | split

theorem reasmTmoOp_keeps {s0 : State} {p : Nat} {s : State} (hs : State.Keeps s0 s) :
    State.Keeps s0 (reasmTmoOp p s) := by
  unfold reasmTmoOp
  with_reducible repeat' first
    | assumption | apply State.ite_keeps | apply reasmErr_keeps

theorem netCtlWritten_keeps {s0 : State} {s : State} {p : Nat} (hs : State.Keeps s0 s) :
    State.Keeps s0 (netCtlWritten s p) := by
  unfold netCtlWritten
  with_reducible repeat' first
    | assumption | apply State.ite_keeps | apply netVerifyStart_keeps | apply netFlow_keeps

theorem segCount_keeps {s0 : State} {s : State} {n x o : Nat} (hs : State.Keeps s0 s) :
    State.Keeps s0 (segCount s n x o) := by
  unfold segCount
  with_reducible repeat' first
    | assumption | apply State.modSeg_keeps

theorem segKick_keeps {s0 : State} {s : State} {n x : Nat} (hs : State.Keeps s0 s) :
    State.Keeps s0 (segKick s n x) := by
  unfold segKick
  with_reducible repeat' first
    | assumption | apply State.ite_keeps | apply State.modSeg_keeps

theorem segEnqueue_keeps {s0 : State} {s : State} {n x : Nat} {f : TxFrame} (hs : State.Keeps s0 s) :
    State.Keeps s0 (segEnqueue s n x f) := by
  unfold segEnqueue
  with_reducible repeat' first
    | assumption | apply State.ite_keeps | apply frameEnds_keeps | apply segCount_keeps | apply State.modSeg_keeps
    | apply segKick_keeps | (refine State.keeps_of_pair (by assumption) ?_)
    | (refine State.keeps_of_parts ?_; dsimp only; refine State.Keeps.ofParts ?_)
    | (refine State.keeps_of_parts ?_; dsimp only; refine KeepsParts.more (State.Keeps.ofParts ?_) (Nat.le_refl _) (Nat.le_refl _) (Nat.le_add_right _ _))

theorem segCommand_keeps {s0 : State} {s : State} {n x h : Nat} {p : Point} {v : Slot} {f : TxFrame} (hs : State.Keeps s0 s) :
    State.Keeps s0 (segCommand s n x h p v f) := by
  unfold segCommand
  with_reducible repeat' first
    | assumption | apply frameEnds_keeps | apply State.modSeg_keeps | apply segEnqueue_keeps
    | (refine State.keeps_of_pair (by assumption) ?_)
    | (refine State.keeps_of_parts ?_; dsimp only; refine State.Keeps.ofParts ?_) | split

theorem nextOpp_keeps {s0 : State} {s : State} {n x : Nat} (hs : State.Keeps s0 s) :
    State.Keeps s0 (nextOpp s n x) := by
  unfold nextOpp
  with_reducible repeat' first
    | assumption | apply State.ite_keeps | apply segKick_keeps | apply State.modSeg_keeps

theorem segTxDoneOp_keeps {s0 : State} {n x : Nat} {stamp : Instant} {s : State} (hs : State.Keeps s0 s) :
    State.Keeps s0 (segTxDoneOp n x stamp s) := by
  unfold segTxDoneOp
  with_reducible repeat' first
    | assumption | apply State.ite_keeps | apply State.modSeg_keeps | apply segCount_keeps | apply State.emit_keeps
    | apply frameSent_keeps | apply cancelAnswer_keeps | apply segKick_keeps | apply nextOpp_keeps
    | (refine State.keeps_of_pair (by assumption) ?_)
    | (refine State.keeps_of_parts ?_; dsimp only; refine State.Keeps.ofParts ?_) | split

theorem segCollOp_keeps {s0 : State} {n x : Nat} {late : Bool} {s : State} (hs : State.Keeps s0 s) :
    State.Keeps s0 (segCollOp n x late s) := by
  unfold segCollOp
  with_reducible repeat' first
    | assumption | apply State.ite_keeps | apply segCount_keeps | apply State.modSeg_keeps | apply chRaiseBoth_keeps
    | apply nextOpp_keeps | apply endFrames_keeps | apply State.tick1_keeps
    | (refine State.keeps_of_pair (by assumption) ?_)
    | (refine State.keeps_of_parts ?_; dsimp only; refine State.Keeps.ofParts ?_) | split

theorem backoffOp_keeps {s0 : State} {n x : Nat} {s : State} (hs : State.Keeps s0 s) :
    State.Keeps s0 (backoffOp n x s) := by
  unfold backoffOp
  with_reducible repeat' first
    | assumption | apply State.ite_keeps | apply segKick_keeps | apply State.modSeg_keeps

theorem plcaSet_keeps {s0 : State} {s : State} {n x : Nat} {on : Bool} (hs : State.Keeps s0 s) :
    State.Keeps s0 (plcaSet s n x on) := by
  unfold plcaSet
  with_reducible repeat' first
    | assumption | apply State.ite_keeps | apply chRaise_keeps | apply State.modSeg_keeps

theorem plcaBeaconOp_keeps {s0 : State} {n x : Nat} {s : State} (hs : State.Keeps s0 s) :
    State.Keeps s0 (plcaBeaconOp n x s) := by
  unfold plcaBeaconOp
  with_reducible repeat' first
    | assumption | apply State.ite_keeps | apply plcaSet_keeps | apply segCount_keeps | apply segKick_keeps
    | apply State.modSeg_keeps

theorem plcaToOp_keeps {s0 : State} {n x : Nat} {s : State} (hs : State.Keeps s0 s) :
    State.Keeps s0 (plcaToOp n x s) := by
  unfold plcaToOp
  with_reducible repeat' first
    | assumption | apply State.ite_keeps | apply nextOpp_keeps

theorem plcaLossOp_keeps {s0 : State} {n x : Nat} {s : State} (hs : State.Keeps s0 s) :
    State.Keeps s0 (plcaLossOp n x s) := by
  unfold plcaLossOp
  with_reducible repeat' first
    | assumption | apply State.ite_keeps | apply segKick_keeps | apply plcaSet_keeps

theorem segApply_keeps {s0 : State} {s : State} {n x : Nat} (hs : State.Keeps s0 s) :
    State.Keeps s0 (segApply s n x) := by
  unfold segApply
  with_reducible repeat' first
    | assumption | apply State.ite_keeps | apply State.modSeg_keeps | apply plcaSet_keeps | apply endFrames_keeps
    | apply segKick_keeps

theorem segModeOp_keeps {s0 : State} {n x : Nat} {s : State} (hs : State.Keeps s0 s) :
    State.Keeps s0 (segModeOp n x s) := by
  unfold segModeOp
  with_reducible repeat' first
    | assumption | apply State.ite_keeps | apply segApply_keeps

theorem segAcquire_keeps {s0 : State} {s : State} {h : Nat} {p : Point} {b : List Byte} {count i : Nat} {stamp : Instant} (hs : State.Keeps s0 s) :
    State.Keeps s0 (segAcquire s h p b count i stamp) := by
  unfold segAcquire
  with_reducible repeat' first
    | assumption | apply acquire_keeps | (refine State.keeps_of_pair (by assumption) ?_)
    | (refine State.keeps_of_parts ?_; dsimp only; refine State.Keeps.ofParts ?_) | split

theorem segDecode_keeps {s0 : State} {s : State} {n x j : Nat} {b : List Byte} {stamp : Instant} (hs : State.Keeps s0 s) :
    State.Keeps s0 (segDecode s n x j b stamp) := by
  unfold segDecode
  with_reducible repeat' first
    | assumption | intro _ | apply State.ite_keeps | apply State.foldl_keeps | apply segAcquire_keeps
    | apply State.modSeg_keeps | (refine State.keeps_of_pair (by assumption) ?_)
    | (refine State.keeps_of_parts ?_; dsimp only; refine State.Keeps.ofParts ?_) | split

theorem segStage_keeps {s0 : State} {s : State} {n x basin : Nat} {f : RxFrame} {rings : List Nat} (hs : State.Keeps s0 s) :
    State.Keeps s0 (segStage s n x basin f rings) := by
  unfold segStage
  with_reducible repeat' first
    | assumption | apply State.ite_keeps | apply State.modSeg_keeps | apply segCount_keeps | apply chRaise_keeps
    | apply State.modCh_keeps

theorem segRxOp_keeps {s0 : State} {n x : Nat} {f : EthFrame} {stamp : Instant} {s : State} (hs : State.Keeps s0 s) :
    State.Keeps s0 (segRxOp n x f stamp s) := by
  unfold segRxOp
  with_reducible repeat' first
    | assumption | apply State.ite_keeps | apply nextOpp_keeps | apply segCount_keeps | apply segStage_keeps
    | apply State.modSeg_keeps | apply segDecode_keeps | (refine State.keeps_of_pair (by assumption) ?_)
    | (refine State.keeps_of_parts ?_; dsimp only; refine State.Keeps.ofParts ?_) | split

theorem segNodeTmoOp_keeps {s0 : State} {n x j : Nat} {s : State} (hs : State.Keeps s0 s) :
    State.Keeps s0 (segNodeTmoOp n x j s) := by
  unfold segNodeTmoOp
  with_reducible repeat' first
    | assumption | intro _ | apply State.ite_keeps | apply State.foldl_keeps | apply State.modSeg_keeps
    | apply acquire_keeps | apply chRaise_keeps

end Sys2Proof.Machine
end

