-- ==== Sys2Proof/Laws/KeepsWork.lean ====
section
/-! SUPPORT. What every effect keeps (`State.Keeps`), for channel commands, loops, transactions, actions, rings and filters: one lemma per operation. -/

namespace Sys2Proof.Machine

theorem driveDout_keeps {s0 : State} {s : State} {n d : Nat} {v : Bool} {stamp : Instant} (hs : State.Keeps s0 s) :
    State.Keeps s0 (driveDout s n d v stamp) := by
  unfold driveDout
  with_reducible repeat' first
    | assumption | apply State.ite_keeps | apply latchDout_keeps | apply State.mirror_keeps

theorem driveAout_keeps {s0 : State} {s : State} {n t code : Nat} {stamp : Instant} (hs : State.Keeps s0 s) :
    State.Keeps s0 (driveAout s n t code stamp) := by
  unfold driveAout
  with_reducible repeat' first
    | assumption | apply latchAout_keeps | apply State.mirror_keeps

theorem writePoint_keeps {s0 : State} {s : State} {n h : Nat} {p : Point} {v : Slot} {f : TxFrame} (hs : State.Keeps s0 s) :
    State.Keeps s0 (writePoint s n h p v f) := by
  unfold writePoint
  with_reducible repeat' first
    | assumption | apply State.ite_keeps | apply frameEnds_keeps | apply presetCnt_keeps | apply driveDout_keeps
    | apply driveAout_keeps | apply canCommand_keeps | apply State.mirror_keeps | apply segCommand_keeps

theorem tagMismatch_keeps {s0 : State} {s : State} {n h tag owner : Nat} (hs : State.Keeps s0 s) :
    State.Keeps s0 (tagMismatch s n h tag owner) := by
  unfold tagMismatch
  with_reducible repeat' first
    | assumption | apply chRaise_keeps

theorem runCmd_keeps {s0 : State} {s : State} {n : Nat} {c : ChCmd} (hs : State.Keeps s0 s) :
    State.Keeps s0 (runCmd s n c) := by
  unfold runCmd
  with_reducible repeat' first
    | assumption | apply State.ite_keeps | apply sendReport_keeps | apply tagMismatch_keeps | apply writePoint_keeps
    | apply countArrival_keeps | apply enterEntry_keeps | (refine State.keeps_of_pair (by assumption) ?_)
    | (refine State.keeps_of_parts ?_; dsimp only; refine State.Keeps.ofParts ?_) | split

theorem commandAtOp_keeps {s0 : State} {n : Nat} {s : State} (hs : State.Keeps s0 s) :
    State.Keeps s0 (commandAtOp n s) := by
  unfold commandAtOp
  with_reducible repeat' first
    | assumption | apply State.ite_keeps | apply runCmd_keeps | apply State.modCh_keeps
    | (refine State.keeps_of_pair (by assumption) ?_)
    | (refine State.keeps_of_parts ?_; dsimp only; refine State.Keeps.ofParts ?_) | split

theorem State.modSlot_keeps {s0 : State} {s : State} {n slot : Nat} {f : LoopRt → LoopRt} (hs : State.Keeps s0 s) :
    State.Keeps s0 (State.modSlot s n slot f) := by
  unfold State.modSlot
  with_reducible repeat' first
    | assumption | apply State.modCh_keeps

theorem slotCtlApplied_keeps {s0 : State} {s : State} {n slot : Nat} {old new : Word} (hs : State.Keeps s0 s) :
    State.Keeps s0 (slotCtlApplied s n slot old new) := by
  unfold slotCtlApplied
  with_reducible repeat' first
    | assumption | apply State.ite_keeps | apply State.modSlot_keeps

theorem slotWriteOp_keeps {s0 : State} {n slot w : Nat} {be : BitVec 4} {data : Word} {s : State} (hs : State.Keeps s0 s) :
    State.Keeps s0 (slotWriteOp n slot w be data s) := by
  unfold slotWriteOp
  with_reducible repeat' first
    | assumption | apply State.ite_keeps | apply State.setReg_keeps | apply State.mirror_keeps
    | apply slotCtlApplied_keeps

theorem clearEn_keeps {s0 : State} {s : State} {n slot : Nat} (hs : State.Keeps s0 s) :
    State.Keeps s0 (clearEn s n slot) := by
  unfold clearEn
  with_reducible repeat' first
    | assumption | apply slotCtlApplied_keeps | apply State.setReg_keeps

theorem feTrip_keeps {s0 : State} {s : State} {n slot : Nat} (hs : State.Keeps s0 s) :
    State.Keeps s0 (feTrip s n slot) := by
  unfold feTrip
  with_reducible repeat' first
    | assumption | apply State.ite_keeps | apply State.modCh_keeps | apply clearEn_keeps | apply State.modSlot_keeps

theorem loopSampleOp_keeps {s0 : State} {n slot : Nat} {s : State} (hs : State.Keeps s0 s) :
    State.Keeps s0 (loopSampleOp n slot s) := by
  unfold loopSampleOp
  with_reducible repeat' first
    | assumption | apply State.ite_keeps | apply State.modSlot_keeps | apply State.mirror_keeps | apply feTrip_keeps
    | (refine State.keeps_of_pair (by assumption) ?_)
    | (refine State.keeps_of_parts ?_; dsimp only; refine State.Keeps.ofParts ?_) | split

theorem loopCommand_keeps {s0 : State} {s : State} {n : Nat} {l : Loop} {b : Bank} {u : Int} (hs : State.Keeps s0 s) :
    State.Keeps s0 (loopCommand s n l b u) := by
  unfold loopCommand
  with_reducible repeat' first
    | assumption | apply State.ite_keeps | apply acquire_keeps | apply writePoint_keeps | apply tagMismatch_keeps
    | apply State.modCh_keeps | (refine State.keeps_of_pair (by assumption) ?_)
    | (refine State.keeps_of_parts ?_; dsimp only; refine State.Keeps.ofParts ?_) | split

theorem publishLoop_keeps {s0 : State} {s : State} {n id : Nat} {b : Bank} {r : LoopRt} (hs : State.Keeps s0 s) :
    State.Keeps s0 (publishLoop s n id b r) := by
  unfold publishLoop
  with_reducible repeat' first
    | assumption | intro _ | apply State.ite_keeps | apply State.foldl_keeps | apply acquire_keeps
    | (refine State.keeps_of_pair (by assumption) ?_)
    | (refine State.keeps_of_parts ?_; dsimp only; refine State.Keeps.ofParts ?_) | split

theorem loopOutputOp_keeps {s0 : State} {n slot : Nat} {s : State} (hs : State.Keeps s0 s) :
    State.Keeps s0 (loopOutputOp n slot s) := by
  unfold loopOutputOp
  with_reducible repeat' first
    | assumption | apply State.ite_keeps | apply loopCommand_keeps | apply publishLoop_keeps
    | apply State.modSlot_keeps | (refine State.keeps_of_pair (by assumption) ?_)
    | (refine State.keeps_of_parts ?_; dsimp only; refine State.Keeps.ofParts ?_) | split

theorem snapselOp_keeps {s0 : State} {n slot : Nat} {s : State} (hs : State.Keeps s0 s) :
    State.Keeps s0 (snapselOp n slot s) := by
  unfold snapselOp
  with_reducible repeat' first
    | assumption | apply State.setReg_keeps | apply State.modCh_keeps

theorem resubscribe_keeps {s0 : State} {s : State} (hs : State.Keeps s0 s) :
    State.Keeps s0 (resubscribe s) := by
  unfold resubscribe
  with_reducible repeat' first
    | assumption | intro _ | apply State.ite_keeps | apply State.foldl_keeps | apply State.modPt_keeps
    | apply State.modCh_keeps | (refine State.keeps_of_pair (by assumption) ?_)
    | (refine State.keeps_of_parts ?_; dsimp only; refine State.Keeps.ofParts ?_) | split

theorem wsTxnFailed_keeps {s0 : State} {s : State} {result : Nat} (hs : State.Keeps s0 s) :
    State.Keeps s0 (wsTxnFailed s result) := by
  unfold wsTxnFailed
  with_reducible repeat' first
    | assumption | intro _ | apply State.ite_keeps | apply State.foldl_keeps | apply State.modWs_keeps
    | apply raiseBoth_keeps | apply resubscribe_keeps | apply trigger_keeps
    | (refine State.keeps_of_pair (by assumption) ?_)
    | (refine State.keeps_of_parts ?_; dsimp only; refine State.Keeps.ofParts ?_) | split

theorem groupTxnEnded_keeps {s0 : State} {s : State} {i result : Nat} (hs : State.Keeps s0 s) :
    State.Keeps s0 (groupTxnEnded s i result) := by
  unfold groupTxnEnded
  with_reducible repeat' first
    | assumption | apply State.ite_keeps | apply State.modEnt_keeps | apply occOutcome_keeps
    | apply cancelEntry_keeps | (refine State.keeps_of_pair (by assumption) ?_)
    | (refine State.keeps_of_parts ?_; dsimp only; refine State.Keeps.ofParts ?_) | split

theorem mirrorEnded_keeps {s0 : State} {s : State} {t : Txn} {c : Nat} (hs : State.Keeps s0 s) :
    State.Keeps s0 (mirrorEnded s t c) := by
  unfold mirrorEnded
  with_reducible repeat' first
    | assumption | apply State.ite_keeps | apply State.mirror_keeps

theorem endTxn_keeps {s0 : State} {s : State} {c result : Nat} (hs : State.Keeps s0 s) :
    State.Keeps s0 (endTxn s c result) := by
  unfold endTxn
  with_reducible repeat' first
    | assumption | apply State.ite_keeps | apply State.modTxn_keeps | apply mirrorEnded_keeps
    | apply wsTxnFailed_keeps | apply groupTxnEnded_keeps | apply raise_keeps

theorem abortTxn_keeps {s0 : State} {s : State} {c result : Nat} (hs : State.Keeps s0 s) :
    State.Keeps s0 (abortTxn s c result) := by
  unfold abortTxn
  with_reducible repeat' first
    | assumption | intro _ | apply State.foldl_keeps | apply endTxn_keeps | apply State.emit_keeps

theorem loseTxn_keeps {s0 : State} {s : State} {c : Nat} (hs : State.Keeps s0 s) :
    State.Keeps s0 (loseTxn s c) := by
  unfold loseTxn
  with_reducible repeat' first
    | assumption | apply State.ite_keeps | apply State.modTxn_keeps | apply mirrorEnded_keeps
    | apply wsTxnFailed_keeps | apply groupTxnEnded_keeps | apply raiseBoth_keeps

theorem txnStateErr_keeps {s0 : State} {s : State} {c : Nat} (hs : State.Keeps s0 s) :
    State.Keeps s0 (txnStateErr s c) := by
  unfold txnStateErr
  with_reducible repeat' first
    | assumption | apply State.modTxn_keeps

theorem beginOp_keeps {s0 : State} {fn : Nat} {s : State} (hs : State.Keeps s0 s) :
    State.Keeps s0 (beginOp fn s) := by
  unfold beginOp
  with_reducible repeat' first
    | assumption | apply State.ite_keeps | apply txnStateErr_keeps | apply State.modTxn_keeps
    | (refine State.keeps_of_parts ?_; dsimp only; refine State.Keeps.ofParts ?_)

theorem stageWord_keeps {s0 : State} {s : State} {fn key : Nat} {be : BitVec 4} {w : Word} (hs : State.Keeps s0 s) :
    State.Keeps s0 (stageWord s fn key be w) := by
  unfold stageWord
  with_reducible repeat' first
    | assumption | apply State.ite_keeps | apply State.modTxn_keeps

theorem commitOp_keeps {s0 : State} {fn : Nat} {isAt : Bool} {s : State} (hs : State.Keeps s0 s) :
    State.Keeps s0 (commitOp fn isAt s) := by
  unfold commitOp
  with_reducible repeat' first
    | assumption | intro _ | apply State.ite_keeps | apply State.foldl_keeps | apply txnStateErr_keeps
    | apply State.modTxn_keeps | apply endTxn_keeps | apply State.emit_keeps
    | (refine State.keeps_of_pair (by assumption) ?_)
    | (refine State.keeps_of_parts ?_; dsimp only; refine State.Keeps.ofParts ?_) | split

theorem rollbackOp_keeps {s0 : State} {fn : Nat} {s : State} (hs : State.Keeps s0 s) :
    State.Keeps s0 (rollbackOp fn s) := by
  unfold rollbackOp
  with_reducible repeat' first
    | assumption | apply State.ite_keeps | apply txnStateErr_keeps | apply State.modTxn_keeps | apply endTxn_keeps
    | apply abortTxn_keeps

theorem prepareAckOp_keeps {s0 : State} {c ch : Nat} {s : State} (hs : State.Keeps s0 s) :
    State.Keeps s0 (prepareAckOp c ch s) := by
  unfold prepareAckOp
  with_reducible repeat' first
    | assumption | apply State.ite_keeps | apply State.modTxn_keeps | apply State.mirror_keeps

theorem prepTimeoutOp_keeps {s0 : State} {c : Nat} {s : State} (hs : State.Keeps s0 s) :
    State.Keeps s0 (prepTimeoutOp c s) := by
  unfold prepTimeoutOp
  with_reducible repeat' first
    | assumption | apply State.ite_keeps | apply abortTxn_keeps

theorem goOp_keeps {s0 : State} {c : Nat} {s : State} (hs : State.Keeps s0 s) :
    State.Keeps s0 (goOp c s) := by
  unfold goOp
  with_reducible repeat' first
    | assumption | intro _ | apply State.ite_keeps | apply State.foldl_keeps | apply State.modTxn_keeps
    | apply State.emit_keeps

theorem goAckOp_keeps {s0 : State} {c ch : Nat} {s : State} (hs : State.Keeps s0 s) :
    State.Keeps s0 (goAckOp c ch s) := by
  unfold goAckOp
  with_reducible repeat' first
    | assumption | apply State.ite_keeps | apply State.modTxn_keeps

theorem goDeadlineOp_keeps {s0 : State} {c : Nat} {s : State} (hs : State.Keeps s0 s) :
    State.Keeps s0 (goDeadlineOp c s) := by
  unfold goDeadlineOp
  with_reducible repeat' first
    | assumption | apply State.ite_keeps | apply abortTxn_keeps

theorem txnChannelLeft_keeps {s0 : State} {s : State} {n : Nat} (hs : State.Keeps s0 s) :
    State.Keeps s0 (txnChannelLeft s n) := by
  unfold txnChannelLeft
  with_reducible repeat' first
    | assumption | intro _ | apply State.ite_keeps | apply State.foldl_keeps | apply abortTxn_keeps

theorem txnNoTime_keeps {s0 : State} {s : State} (hs : State.Keeps s0 s) :
    State.Keeps s0 (txnNoTime s) := by
  unfold txnNoTime
  with_reducible repeat' first
    | assumption | intro _ | apply State.ite_keeps | apply State.foldl_keeps | apply abortTxn_keeps

theorem txnStepped_keeps {s0 : State} {s : State} (hs : State.Keeps s0 s) :
    State.Keeps s0 (txnStepped s) := by
  unfold txnStepped
  with_reducible repeat' first
    | assumption | intro _ | apply State.ite_keeps | apply State.foldl_keeps | apply abortTxn_keeps

theorem txnFnReset_keeps {s0 : State} {s : State} {fn : Nat} (hs : State.Keeps s0 s) :
    State.Keeps s0 (txnFnReset s fn) := by
  unfold txnFnReset
  with_reducible repeat' first
    | assumption | apply State.ite_keeps | apply State.modTxn_keeps | apply loseTxn_keeps

theorem fireDouts_keeps {s0 : State} {s : State} {n : Nat} {mask value : BitVec 8} {stamp : Nat → Bool → Instant} (hs : State.Keeps s0 s) :
    State.Keeps s0 (fireDouts s n mask value stamp) := by
  unfold fireDouts
  with_reducible repeat' first
    | assumption | intro _ | apply State.ite_keeps | apply State.foldl_keeps | apply driveDout_keeps

theorem fireAout_keeps {s0 : State} {s : State} {n t code : Nat} {stamp : Instant} (hs : State.Keeps s0 s) :
    State.Keeps s0 (fireAout s n t code stamp) := by
  unfold fireAout
  with_reducible repeat' first
    | assumption | apply State.ite_keeps | apply driveAout_keeps

theorem actOn_keeps {s0 : State} {s : State} {t i : Nat} {e : Entry} {occ : Instant} (hs : State.Keeps s0 s) :
    State.Keeps s0 (actOn s t i e occ) := by
  unfold actOn
  with_reducible repeat' first
    | assumption | apply State.ite_keeps | apply occOutcome_keeps | apply State.modEnt_keeps | apply fireDouts_keeps
    | apply fireAout_keeps | apply adcBurstOp_keeps | apply State.modDio_keeps | apply canEnqueue_keeps
    | apply netEnqueue_keeps | apply segEnqueue_keeps | apply acquire_keeps | apply writePoint_keeps
    | (refine State.keeps_of_pair (by assumption) ?_)
    | (refine State.keeps_of_parts ?_; dsimp only; refine State.Keeps.ofParts ?_) | split

theorem noteFired_keeps {s0 : State} {s : State} {e : Entry} (hs : State.Keeps s0 s) :
    State.Keeps s0 (noteFired s e) := by
  unfold noteFired
  with_reducible repeat' first
    | assumption | apply State.ite_keeps
    | (refine State.keeps_of_parts ?_; dsimp only; refine State.Keeps.ofParts ?_)

theorem fireEntry_keeps {s0 : State} {early : Bool} {t i : Nat} {s : State} (hs : State.Keeps s0 s) :
    State.Keeps s0 (fireEntry early t i s) := by
  unfold fireEntry
  with_reducible repeat' first
    | assumption | apply State.ite_keeps | apply cancelEntry_keeps | apply State.modEnt_keeps
    | apply occOutcome_keeps | apply actOutcome_keeps | apply State.mirror_keeps | apply noteFired_keeps
    | apply actOn_keeps | (refine State.keeps_of_pair (by assumption) ?_)
    | (refine State.keeps_of_parts ?_; dsimp only; refine State.Keeps.ofParts ?_) | split

theorem actionFireOp_keeps {s0 : State} {t i : Nat} {s : State} (hs : State.Keeps s0 s) :
    State.Keeps s0 (actionFireOp t i s) := by
  unfold actionFireOp
  with_reducible repeat' first
    | assumption | intro _ | apply State.ite_keeps | apply State.foldl_keeps | apply fireEntry_keeps
    | (refine State.keeps_of_pair (by assumption) ?_)
    | (refine State.keeps_of_parts ?_; dsimp only; refine State.Keeps.ofParts ?_) | split

theorem actTimeValid_keeps {s0 : State} {s : State} {t : Nat} (hs : State.Keeps s0 s) :
    State.Keeps s0 (actTimeValid s t) := by
  unfold actTimeValid
  with_reducible repeat' first
    | assumption | intro _ | apply State.ite_keeps | apply State.foldl_keeps | apply occOutcome_keeps
    | apply State.modEnt_keeps | (refine State.keeps_of_pair (by assumption) ?_)
    | (refine State.keeps_of_parts ?_; dsimp only; refine State.Keeps.ofParts ?_) | split

theorem actSteppedBack_keeps {s0 : State} {s : State} {t : Nat} (hs : State.Keeps s0 s) :
    State.Keeps s0 (actSteppedBack s t) := by
  unfold actSteppedBack
  with_reducible repeat' first
    | assumption | apply State.ite_keeps | apply State.modTbl_keeps

theorem cancelIn_keeps {s0 : State} {t basin : Nat} {cookie : Slot} {acc : State × Nat × Nat} (hacc : State.Keeps s0 acc.1) :
    State.Keeps s0 (cancelIn t basin cookie acc).1 := by
  unfold cancelIn
  with_reducible repeat' first
    | assumption | intro _ | apply State.ite_keeps | apply State.foldl_keeps | apply State.iteFst_keeps
    | apply State.foldlFst_keeps | apply cancelEntry_keeps | (refine State.keeps_of_pair (by assumption) ?_)
    | (refine State.keeps_of_parts ?_; dsimp only; refine State.Keeps.ofParts ?_) | split

theorem cancelCookie_keeps {s0 : State} {s : State} {basin : Nat} {cookie : Slot} (hs : State.Keeps s0 s) :
    State.Keeps s0 (cancelCookie s basin cookie).1 := by
  unfold cancelCookie
  with_reducible repeat' first
    | assumption | intro _ | apply State.ite_keeps | apply State.foldl_keeps | apply State.iteFst_keeps
    | apply State.foldlFst_keeps | apply cancelIn_keeps

theorem withdrawEntry_keeps {s0 : State} {s : State} {t i : Nat} (hs : State.Keeps s0 s) :
    State.Keeps s0 (withdrawEntry s t i) := by
  unfold withdrawEntry
  with_reducible repeat' first
    | assumption | intro _ | apply State.ite_keeps | apply State.foldl_keeps | apply fireEntry_keeps
    | apply State.modTbl_keeps | apply State.modEnt_keeps | apply State.emit_keeps | apply cancelEntry_keeps
    | apply State.modTxn_keeps | (refine State.keeps_of_pair (by assumption) ?_)
    | (refine State.keeps_of_parts ?_; dsimp only; refine State.Keeps.ofParts ?_) | split

theorem tableOffOp_keeps {s0 : State} {n : Nat} {s : State} (hs : State.Keeps s0 s) :
    State.Keeps s0 (tableOffOp n s) := by
  unfold tableOffOp
  with_reducible repeat' first
    | assumption | intro _ | apply State.ite_keeps | apply State.foldl_keeps | apply State.setReg_keeps
    | apply State.modCh_keeps | apply cancelEntry_keeps | apply actOutcome_keeps | apply State.modEnt_keeps
    | (refine State.keeps_of_pair (by assumption) ?_)
    | (refine State.keeps_of_parts ?_; dsimp only; refine State.Keeps.ofParts ?_) | split

theorem tableOnOp_keeps {s0 : State} {n : Nat} {s : State} (hs : State.Keeps s0 s) :
    State.Keeps s0 (tableOnOp n s) := by
  unfold tableOnOp
  with_reducible repeat' first
    | assumption | apply State.ite_keeps | apply State.setReg_keeps | apply State.modCh_keeps
    | apply State.modTbl_keeps

theorem calStartOp_keeps {s0 : State} {n : Nat} {sel : Word} {s : State} (hs : State.Keeps s0 s) :
    State.Keeps s0 (calStartOp n sel s) := by
  unfold calStartOp
  with_reducible repeat' first
    | assumption | apply State.ite_keeps | apply State.setReg_keeps | apply State.modDio_keeps

theorem calDoneOp_keeps {s0 : State} {n : Nat} {results : List (Nat × Nat × Nat)} {s : State} (hs : State.Keeps s0 s) :
    State.Keeps s0 (calDoneOp n results s) := by
  unfold calDoneOp
  with_reducible repeat' first
    | assumption | intro _ | apply State.ite_keeps | apply State.foldl_keeps | apply State.setReg_keeps
    | apply State.modDio_keeps | (refine State.keeps_of_pair (by assumption) ?_)
    | (refine State.keeps_of_parts ?_; dsimp only; refine State.Keeps.ofParts ?_) | split

theorem groupPrepOp_keeps {s0 : State} {i : Nat} {s : State} (hs : State.Keeps s0 s) :
    State.Keeps s0 (groupPrepOp i s) := by
  unfold groupPrepOp
  with_reducible repeat' first
    | assumption | intro _ | apply State.ite_keeps | apply State.foldl_keeps | apply State.modEnt_keeps
    | apply occOutcome_keeps | apply State.modTxn_keeps | apply abortTxn_keeps | apply State.emit_keeps
    | (refine State.keeps_of_pair (by assumption) ?_)
    | (refine State.keeps_of_parts ?_; dsimp only; refine State.Keeps.ofParts ?_) | split

theorem clearAlert_keeps {s0 : State} {s : State} {w : Word} (hs : State.Keeps s0 s) :
    State.Keeps s0 (clearAlert s w) := by
  unfold clearAlert
  with_reducible repeat' first
    | assumption | apply State.alert_keeps
    | (refine State.keeps_of_parts ?_; dsimp only; refine State.Keeps.ofParts ?_)

theorem clearInt_keeps {s0 : State} {s : State} {key : Nat} {w : Word} (hs : State.Keeps s0 s) :
    State.Keeps s0 (clearInt s key w) := by
  unfold clearInt
  with_reducible repeat' first
    | assumption | apply State.setReg_keeps

theorem sendPending_keeps {s0 : State} {s : State} {b : Nat} (hs : State.Keeps s0 s) :
    State.Keeps s0 (sendPending s b) := by
  unfold sendPending
  with_reducible repeat' first
    | assumption | intro _ | apply State.foldl_keeps | apply State.modFn_keeps | apply State.sendVec_keeps

theorem setChState_keeps {s0 : State} {s : State} {n : Nat} {st : ChState} (hs : State.Keeps s0 s) :
    State.Keeps s0 (setChState s n st) := by
  unfold setChState
  with_reducible repeat' first
    | assumption | apply State.ite_keeps | apply State.modCh_keeps | apply State.sendVec_keeps

theorem dbError_keeps {s0 : State} {s : State} {k field refused inForce : Nat} (hs : State.Keeps s0 s) :
    State.Keeps s0 (dbError s k field refused inForce) := by
  unfold dbError
  with_reducible repeat' first
    | assumption | apply State.ite_keeps | apply State.modRing_keeps | apply raise_keeps

theorem dbIdx_keeps {s0 : State} {s : State} {k v : Nat} (hs : State.Keeps s0 s) :
    State.Keeps s0 (dbIdx s k v) := by
  unfold dbIdx
  with_reducible repeat' first
    | assumption | apply State.ite_keeps | apply State.modRing_keeps | apply dbError_keeps

theorem dbCpl_keeps {s0 : State} {s : State} {k v : Nat} (hs : State.Keeps s0 s) :
    State.Keeps s0 (dbCpl s k v) := by
  unfold dbCpl
  with_reducible repeat' first
    | assumption | apply State.ite_keeps | apply State.modRing_keeps | apply dbError_keeps

theorem dbArm_keeps {s0 : State} {s : State} {k : Nat} (hs : State.Keeps s0 s) :
    State.Keeps s0 (dbArm s k) := by
  unfold dbArm
  with_reducible repeat' first
    | assumption | apply State.modRing_keeps | apply ringNotify_keeps

theorem doorbellOp_keeps {s0 : State} {b r : Nat} {be : BitVec 8} {data : BitVec 64} {s : State} (hs : State.Keeps s0 s) :
    State.Keeps s0 (doorbellOp b r be data s) := by
  unfold doorbellOp
  with_reducible repeat' first
    | assumption | apply State.ite_keeps | apply dbIdx_keeps | apply dbCpl_keeps | apply dbArm_keeps

theorem evconsOp_keeps {s0 : State} {b : Nat} {data : Word} {s : State} (hs : State.Keeps s0 s) :
    State.Keeps s0 (evconsOp b data s) := by
  unfold evconsOp
  with_reducible repeat' first
    | assumption | apply State.ite_keeps | apply State.modEv_keeps | apply raise_keeps | apply State.flushEv_keeps
    | apply evNotify_keeps

theorem trigger_keeps {s0 : State} {s : State} {t : Nat} (hs : State.Keeps s0 s) :
    State.Keeps s0 (trigger s t) := by
  unfold trigger
  with_reducible repeat' first
    | assumption | apply State.modWs_keeps

theorem ringEnableOp_keeps {s0 : State} {b r : Nat} {ctl : Word} {s : State} (hs : State.Keeps s0 s) :
    State.Keeps s0 (ringEnableOp b r ctl s) := by
  unfold ringEnableOp
  with_reducible repeat' first
    | assumption | apply State.ite_keeps | apply State.setReg_keeps | apply State.modRing_keeps
    | apply trigger_keeps | apply writeIdx_keeps

theorem ringOff_keeps {s0 : State} {s : State} {k : Nat} (hs : State.Keeps s0 s) :
    State.Keeps s0 (ringOff s k) := by
  unfold ringOff
  with_reducible repeat' first
    | assumption | apply ringNotify_keeps | apply writeIdx_keeps | apply State.modRing_keeps
    | apply State.setReg_keeps

theorem flushChan_keeps {s0 : State} {s : State} {n k : Nat} (hs : State.Keeps s0 s) :
    State.Keeps s0 (flushChan s n k) := by
  unfold flushChan
  with_reducible repeat' first
    | assumption | intro _ | apply State.ite_keeps | apply State.foldl_keeps | apply endFrames_keeps
    | apply State.modCan_keeps | apply State.modSeg_keeps

theorem flushNet_keeps {s0 : State} {s : State} {p k : Nat} (hs : State.Keeps s0 s) :
    State.Keeps s0 (flushNet s p k) := by
  unfold flushNet
  with_reducible repeat' first
    | assumption | apply endFrames_keeps | apply State.modNet_keeps

theorem flushCmds_keeps {s0 : State} {s : State} {n k : Nat} (hs : State.Keeps s0 s) :
    State.Keeps s0 (flushCmds s n k) := by
  unfold flushCmds
  with_reducible repeat' first
    | assumption | intro _ | apply State.ite_keeps | apply State.foldl_keeps | apply finish_keeps
    | apply State.modCh_keeps

theorem flushRingWork_keeps {s0 : State} {s : State} {k : Nat} (hs : State.Keeps s0 s) :
    State.Keeps s0 (flushRingWork s k) := by
  unfold flushRingWork
  with_reducible repeat' first
    | assumption | intro _ | apply State.foldl_keeps | apply flushChan_keeps | apply flushCmds_keeps
    | apply flushNet_keeps

theorem ringDisableOp_keeps {s0 : State} {b r : Nat} {s : State} (hs : State.Keeps s0 s) :
    State.Keeps s0 (ringDisableOp b r s) := by
  unfold ringDisableOp
  with_reducible repeat' first
    | assumption | apply State.ite_keeps | apply State.modRing_keeps | apply State.setReg_keeps
    | apply trigger_keeps | apply flushRingWork_keeps

theorem haltedDisableOp_keeps {s0 : State} {b r : Nat} {s : State} (hs : State.Keeps s0 s) :
    State.Keeps s0 (haltedDisableOp b r s) := by
  unfold haltedDisableOp
  with_reducible repeat' first
    | assumption | intro _ | apply State.ite_keeps | apply State.foldl_keeps | apply State.modRing_keeps
    | apply State.setReg_keeps | apply flushRing_keeps | apply finish_keeps | apply flushRingWork_keeps

theorem ringDisabledOp_keeps {s0 : State} {b r : Nat} {posted : List (BitVec 512)} {s : State} (hs : State.Keeps s0 s) :
    State.Keeps s0 (ringDisabledOp b r posted s) := by
  unfold ringDisabledOp
  with_reducible repeat' first
    | assumption | apply State.ite_keeps | apply putSlots_keeps | apply ringOff_keeps

theorem evCtlOp_keeps {s0 : State} {b : Nat} {ctl : Word} {s : State} (hs : State.Keeps s0 s) :
    State.Keeps s0 (evCtlOp b ctl s) := by
  unfold evCtlOp
  with_reducible repeat' first
    | assumption | apply State.ite_keeps | apply State.setReg_keeps | apply State.modEv_keeps
    | apply writeEvIdx_keeps | apply State.flushEv_keeps | apply evNotify_keeps

theorem ringsServe_keeps {s0 : State} {s : State} (hs : State.Keeps s0 s) :
    State.Keeps s0 (ringsServe s) := by
  unfold ringsServe
  with_reducible repeat' first
    | assumption | intro _ | apply State.ite_keeps | apply State.foldl_keeps | apply State.flushEv_keeps
    | (refine State.keeps_of_parts ?_; dsimp only; refine State.Keeps.ofParts ?_)

theorem takeFlight_keeps {s0 : State} {s : State} {k : Nat} {cookies : List Slot} {ckind channel : Nat} (hs : State.Keeps s0 s) :
    State.Keeps s0 (takeFlight s k cookies ckind channel) := by
  unfold takeFlight
  with_reducible repeat' first
    | assumption | apply State.modRing_keeps | apply writeIdx_keeps
    | (refine State.keeps_of_parts ?_; dsimp only; refine State.Keeps.ofParts ?_)
    | (refine State.keeps_of_parts ?_; dsimp only; refine KeepsParts.more (State.Keeps.ofParts ?_) (Nat.le_refl _) (Nat.le_add_right _ _) (Nat.le_refl _))

theorem haltRing_keeps {s0 : State} {s : State} {k cause : Nat} {cookies : List Slot} {ckind : Nat} (hs : State.Keeps s0 s) :
    State.Keeps s0 (haltRing s k cause cookies ckind) := by
  unfold haltRing
  with_reducible repeat' first
    | assumption | apply State.ite_keeps | apply takeFlight_keeps | apply State.modRing_keeps | apply raise_keeps
    | apply trigger_keeps | apply ringNotify_keeps

theorem channelFlightsLost_keeps {s0 : State} {s : State} {n : Nat} (hs : State.Keeps s0 s) :
    State.Keeps s0 (channelFlightsLost s n) := by
  unfold channelFlightsLost
  with_reducible repeat' first
    | assumption | intro _ | apply State.ite_keeps | apply State.foldl_keeps | apply finish_keeps

theorem cmdPass_keeps {s0 : State} {s : State} {k id b : Nat} {d : BitVec 256} {p : Point} (hs : State.Keeps s0 s) :
    State.Keeps s0 (cmdPass s k id b d p) := by
  unfold cmdPass
  with_reducible repeat' first
    | assumption | apply State.ite_keeps | apply finish_keeps | apply enterEntry_keeps | apply acquire_keeps
    | apply countArrival_keeps | apply State.modCh_keeps | (refine State.keeps_of_pair (by assumption) ?_)
    | (refine State.keeps_of_parts ?_; dsimp only; refine State.Keeps.ofParts ?_) | split

theorem cancelCan_keeps {s0 s t : State} {n x k idx : Nat} {req : Nat × Nat} {inArb : Bool} (h : State.Keeps s0 s)
    (ht : cancelCan s n x k idx req inArb = some t) : State.Keeps s0 t := by
  unfold cancelCan at ht
  dsimp only at ht
  repeat' split at ht
  all_goals first
    | (obtain rfl := Option.some.inj ht
       with_reducible repeat' first
         | assumption | apply finish_keeps | apply endFrames_keeps | apply State.modCan_keeps | apply State.modSeg_keeps
         | apply State.modNet_keeps)
    | cases ht

theorem cancelSeg_keeps {s0 s t : State} {n x k idx : Nat} {req : Nat × Nat} (h : State.Keeps s0 s)
    (ht : cancelSeg s n x k idx req = some t) : State.Keeps s0 t := by
  unfold cancelSeg at ht
  dsimp only at ht
  repeat' split at ht
  all_goals first
    | (obtain rfl := Option.some.inj ht
       with_reducible repeat' first
         | assumption | apply finish_keeps | apply endFrames_keeps | apply State.modCan_keeps | apply State.modSeg_keeps
         | apply State.modNet_keeps)
    | cases ht

theorem cancelNet_keeps {s0 s t : State} {p k idx : Nat} {req : Nat × Nat} (h : State.Keeps s0 s)
    (ht : cancelNet s p k idx req = some t) : State.Keeps s0 t := by
  unfold cancelNet at ht
  dsimp only at ht
  repeat' split at ht
  all_goals first
    | (obtain rfl := Option.some.inj ht
       with_reducible repeat' first
         | assumption | apply finish_keeps | apply endFrames_keeps | apply State.modCan_keeps | apply State.modSeg_keeps
         | apply State.modNet_keeps)
    | cases ht

/-- An answer of one of two searches. -/
theorem orElse_some {α : Type} {a : Option α} {f : Unit → Option α} {t : α} (h : a.orElse f = some t) :
    a = some t ∨ f () = some t := by
  cases a <;> simp_all [Option.orElse]

theorem cancelAnywhere_keeps {s0 s : State} {k idx : Nat} {req : Nat × Nat} {inArb : Bool} (h : State.Keeps s0 s) :
    State.Keeps s0 (cancelAnywhere s k idx req inArb) := by
  unfold cancelAnywhere
  dsimp only
  split
  · rename_i t ht
    have hm := List.mem_of_find?_eq_some ht
    simp only [List.mem_append, List.mem_map, List.mem_cons, List.not_mem_nil, or_false] at hm
    rcases hm with ⟨n, _, hn⟩ | hn | hn
    · split at hn
      · obtain rfl := Option.some.inj hn
        exact finish_keeps h
      · rcases orElse_some hn with hn | hn
        rotate_left
        rcases orElse_some hn with hn | hn
        rotate_left
        rcases orElse_some hn with hn | hn
        · first | exact cancelCan_keeps h hn | exact cancelSeg_keeps h hn
        · first | exact cancelCan_keeps h hn | exact cancelSeg_keeps h hn
        · first | exact cancelCan_keeps h hn | exact cancelSeg_keeps h hn
        · first | exact cancelCan_keeps h hn | exact cancelSeg_keeps h hn
    · exact cancelNet_keeps h hn.symm
    · exact cancelNet_keeps h hn.symm
  · exact finish_keeps h

theorem cancelRun_keeps {s0 : State} {s : State} {k id b : Nat} {d : BitVec 256} {inArb : Bool} (hs : State.Keeps s0 s) :
    State.Keeps s0 (cancelRun s k id b d inArb) := by
  unfold cancelRun
  with_reducible repeat' first
    | assumption | apply State.ite_keeps | apply finish_keeps | apply cancelCookie_keeps
    | apply cancelAnywhere_keeps

theorem fetchCmdOp_keeps {s0 : State} {b r : Nat} {d : BitVec 256} {inArb : Bool} {s : State} (hs : State.Keeps s0 s) :
    State.Keeps s0 (fetchCmdOp b r d inArb s) := by
  unfold fetchCmdOp
  with_reducible repeat' first
    | assumption | apply State.ite_keeps | apply takeFlight_keeps | apply finish_keeps | apply cancelRun_keeps
    | apply countArrival_keeps | apply cmdPass_keeps | (refine State.keeps_of_pair (by assumption) ?_)
    | (refine State.keeps_of_parts ?_; dsimp only; refine State.Keeps.ofParts ?_) | split

theorem countTx_keeps {s0 : State} {s : State} {t o : Nat} (hs : State.Keeps s0 s) :
    State.Keeps s0 (countTx s t o) := by
  unfold countTx
  with_reducible repeat' first
    | assumption | apply State.ite_keeps | apply netCount_keeps | apply segCount_keeps

theorem framePass_keeps {s0 : State} {s : State} {k id b : Nat} {d : BitVec 512} {f : TxFrame} (hs : State.Keeps s0 s) :
    State.Keeps s0 (framePass s k id b d f) := by
  unfold framePass
  with_reducible repeat' first
    | assumption | apply State.ite_keeps | apply finish_keeps | apply enterEntry_keeps | apply countArrival_keeps
    | apply netEnqueue_keeps | apply canEnqueue_keeps | apply segEnqueue_keeps
    | (refine State.keeps_of_pair (by assumption) ?_)
    | (refine State.keeps_of_parts ?_; dsimp only; refine State.Keeps.ofParts ?_) | split

theorem frameTransmitOp_keeps {s0 : State} {b r : Nat} {chain : List (BitVec 512)} {payload : List Byte} {s : State} (hs : State.Keeps s0 s) :
    State.Keeps s0 (frameTransmitOp b r chain payload s) := by
  unfold frameTransmitOp
  with_reducible repeat' first
    | assumption | apply State.ite_keeps | apply takeFlight_keeps | apply finish_keeps | apply countTx_keeps
    | apply countArrival_keeps | apply framePass_keeps | (refine State.keeps_of_pair (by assumption) ?_)
    | (refine State.keeps_of_parts ?_; dsimp only; refine State.Keeps.ofParts ?_) | split

theorem moderationOp_keeps {s0 : State} {b r : Nat} {s : State} (hs : State.Keeps s0 s) :
    State.Keeps s0 (moderationOp b r s) := by
  unfold moderationOp
  with_reducible repeat' first
    | assumption | apply State.ite_keeps | apply evNotify_keeps | apply ringNotify_keeps

theorem frameReceivedOp_keeps {s0 : State} {b r : Nat} {posted : List (BitVec 512)} {s : State} (hs : State.Keeps s0 s) :
    State.Keeps s0 (frameReceivedOp b r posted s) := by
  unfold frameReceivedOp
  with_reducible repeat' first
    | assumption | apply State.ite_keeps | apply State.modCh_keeps | apply State.modNet_keeps
    | apply deliverFrame_keeps | (refine State.keeps_of_pair (by assumption) ?_)
    | (refine State.keeps_of_parts ?_; dsimp only; refine State.Keeps.ofParts ?_) | split

theorem applyFilter_keeps {s0 : State} {s : State} {n x : Nat} {f : Filter} (hs : State.Keeps s0 s) :
    State.Keeps s0 (applyFilter s n x f) := by
  unfold applyFilter
  with_reducible repeat' first
    | assumption | intro _ | apply State.foldl_keeps | apply State.modCan_keeps | apply State.setReg_keeps

theorem installFilter_keeps {s0 : State} {s : State} {n x : Nat} {f : Filter} (hs : State.Keeps s0 s) :
    State.Keeps s0 (installFilter s n x f) := by
  unfold installFilter
  with_reducible repeat' first
    | assumption | intro _ | apply State.foldl_keeps | apply applyFilter_keeps | apply raise_keeps

end Sys2Proof.Machine
end

