-- ==== Sys2Proof/Laws/KeepsPlace.lean ====
section
/-! SUPPORT. What every effect keeps (`State.Keeps`), for placement and declarations: one lemma per operation. -/

namespace Sys2Proof.Machine

theorem setDeclBuf_keeps {s0 : State} {s : State} {fn : Nat} {ws : List Word} (hs : State.Keeps s0 s) :
    State.Keeps s0 (setDeclBuf s fn ws) := by
  unfold setDeclBuf
  with_reducible repeat' first
    | assumption | intro _ | apply State.foldl_keeps | apply State.setReg_keeps

theorem declDone_keeps {s0 : State} {s : State} {fn res id : Nat} (hs : State.Keeps s0 s) :
    State.Keeps s0 (declDone s fn res id) := by
  unfold declDone
  with_reducible repeat' first
    | assumption | apply State.modFn_keeps

theorem enterDecl_keeps {s0 : State} {s : State} {fn : Nat} {ws : List Word} (hs : State.Keeps s0 s) :
    State.Keeps s0 (enterDecl s fn ws).1 := by
  unfold enterDecl
  with_reducible repeat' first
    | assumption | intro _ | apply State.foldl_keeps | apply State.foldlFst_keeps | apply State.modWs_keeps
    | apply trigger_keeps | apply dirChanged_keeps | apply dirFrom_keeps
    | (refine State.keeps_of_pair (by assumption) ?_)
    | (refine State.keeps_of_parts ?_; dsimp only; refine State.Keeps.ofParts ?_) | split

theorem applyAction_keeps {s0 : State} {s : State} {id : Nat} (hs : State.Keeps s0 s) :
    State.Keeps s0 (applyAction s id) := by
  unfold applyAction
  with_reducible repeat' first
    | assumption | apply State.ite_keeps | apply enterEntry_keeps | apply raiseBoth_keeps | apply occOutcome_keeps
    | apply State.modEnt_keeps | (refine State.keeps_of_pair (by assumption) ?_)
    | (refine State.keeps_of_parts ?_; dsimp only; refine State.Keeps.ofParts ?_) | split

theorem submitOp_keeps {s0 : State} {fn : Nat} {s : State} (hs : State.Keeps s0 s) :
    State.Keeps s0 (submitOp fn s) := by
  unfold submitOp
  with_reducible repeat' first
    | assumption | apply State.ite_keeps | apply declDone_keeps | apply enterDecl_keeps | apply trigger_keeps
    | apply State.mirror_keeps | apply applyAction_keeps

theorem leaveSlot_keeps {s0 : State} {s : State} {id : Nat} {l : Loop} (hs : State.Keeps s0 s) :
    State.Keeps s0 (leaveSlot s id l) := by
  unfold leaveSlot
  with_reducible repeat' first
    | assumption | apply State.ite_keeps | apply loopCommand_keeps | apply State.setReg_keeps
    | apply State.modCh_keeps

theorem loopPointsOut_keeps {s0 : State} {s : State} {id : Nat} (hs : State.Keeps s0 s) :
    State.Keeps s0 (loopPointsOut s id) := by
  unfold loopPointsOut
  with_reducible repeat' first
    | assumption | intro _ | apply State.foldl_keeps | apply acquire_keeps

theorem stopLoop_keeps {s0 : State} {s : State} {id reason : Nat} (hs : State.Keeps s0 s) :
    State.Keeps s0 (stopLoop s id reason) := by
  unfold stopLoop
  with_reducible repeat' first
    | assumption | apply State.ite_keeps | apply State.setReg_keeps | apply State.modCh_keeps
    | apply leaveSlot_keeps | apply applySafe_keeps | apply State.modWs_keeps | apply loopPointsOut_keeps
    | apply State.mirror_keeps | apply raiseBoth_keeps | (refine State.keeps_of_pair (by assumption) ?_)
    | (refine State.keeps_of_parts ?_; dsimp only; refine State.Keeps.ofParts ?_) | split

theorem revokePass_keeps {s0 : State} {s : State} {id reason : Nat} (hs : State.Keeps s0 s) :
    State.Keeps s0 (revokePass s id reason) := by
  unfold revokePass
  with_reducible repeat' first
    | assumption | apply dirFrom_keeps | apply State.modWs_keeps | apply raise_keeps
    | (refine State.keeps_of_pair (by assumption) ?_)
    | (refine State.keeps_of_parts ?_; dsimp only; refine State.Keeps.ofParts ?_) | split

theorem dropPoint_keeps {s0 : State} {s : State} {h : Nat} (hs : State.Keeps s0 s) :
    State.Keeps s0 (dropPoint s h) := by
  unfold dropPoint
  with_reducible repeat' first
    | assumption | intro _ | apply State.ite_keeps | apply State.foldl_keeps | apply raise_keeps
    | apply raiseBoth_keeps | apply trigger_keeps | apply dirChanged_keeps | apply State.modWs_keeps
    | (refine State.keeps_of_pair (by assumption) ?_)
    | (refine State.keeps_of_parts ?_; dsimp only; refine State.Keeps.ofParts ?_) | split

theorem dropAction_keeps {s0 : State} {s : State} {id : Nat} (hs : State.Keeps s0 s) :
    State.Keeps s0 (dropAction s id) := by
  unfold dropAction
  with_reducible repeat' first
    | assumption | apply State.ite_keeps | apply withdrawEntry_keeps
    | (refine State.keeps_of_pair (by assumption) ?_)
    | (refine State.keeps_of_parts ?_; dsimp only; refine State.Keeps.ofParts ?_) | split

theorem dropLoop_keeps {s0 : State} {s : State} {id : Nat} (hs : State.Keeps s0 s) :
    State.Keeps s0 (dropLoop s id) := by
  unfold dropLoop
  with_reducible repeat' first
    | assumption | apply State.ite_keeps | apply trigger_keeps | apply State.modWs_keeps
    | (refine State.keeps_of_pair (by assumption) ?_)
    | (refine State.keeps_of_parts ?_; dsimp only; refine State.Keeps.ofParts ?_) | split

theorem dropSub_keeps {s0 : State} {s : State} {id : Nat} (hs : State.Keeps s0 s) :
    State.Keeps s0 (dropSub s id) := by
  unfold dropSub
  with_reducible repeat' first
    | assumption | apply trigger_keeps | apply State.modWs_keeps

theorem withdrawOp_keeps {s0 : State} {fn : Nat} {s : State} (hs : State.Keeps s0 s) :
    State.Keeps s0 (withdrawOp fn s) := by
  unfold withdrawOp
  with_reducible repeat' first
    | assumption | apply State.ite_keeps | apply declDone_keeps | apply State.modWs_keeps | apply dropPoint_keeps
    | apply dropLoop_keeps | apply dropSub_keeps | apply dropAction_keeps | apply revokePass_keeps
    | apply trigger_keeps | apply State.mirror_keeps | (refine State.keeps_of_pair (by assumption) ?_)
    | (refine State.keeps_of_parts ?_; dsimp only; refine State.Keeps.ofParts ?_) | split

theorem queryOp_keeps {s0 : State} {fn : Nat} {s : State} (hs : State.Keeps s0 s) :
    State.Keeps s0 (queryOp fn s) := by
  unfold queryOp
  with_reducible repeat' first
    | assumption | apply State.ite_keeps | apply declDone_keeps | apply setDeclBuf_keeps

theorem placeNowOp_keeps {s0 : State} {fn : Nat} {s : State} (hs : State.Keeps s0 s) :
    State.Keeps s0 (placeNowOp fn s) := by
  unfold placeNowOp
  with_reducible repeat' first
    | assumption | apply State.ite_keeps | apply declDone_keeps | apply trigger_keeps | apply State.modWs_keeps

theorem passExpiryOp_keeps {s0 : State} {id : Nat} {s : State} (hs : State.Keeps s0 s) :
    State.Keeps s0 (passExpiryOp id s) := by
  unfold passExpiryOp
  with_reducible repeat' first
    | assumption | apply State.ite_keeps | apply revokePass_keeps | apply State.mirror_keeps
    | (refine State.keeps_of_pair (by assumption) ?_)
    | (refine State.keeps_of_parts ?_; dsimp only; refine State.Keeps.ofParts ?_) | split

theorem passesValid_keeps {s0 : State} {s : State} (hs : State.Keeps s0 s) :
    State.Keeps s0 (passesValid s) := by
  unfold passesValid
  with_reducible repeat' first
    | assumption | intro _ | apply State.foldl_keeps | apply passExpiryOp_keeps | apply State.modWs_keeps

theorem passesInvalid_keeps {s0 : State} {s : State} (hs : State.Keeps s0 s) :
    State.Keeps s0 (passesInvalid s) := by
  unfold passesInvalid
  with_reducible repeat' first
    | assumption | apply State.ite_keeps | apply State.modWs_keeps

theorem withdrawAll_keeps {s0 : State} {t : Nat} {drop : State → Nat → State} {ids : List Nat} {s : State} (hdrop : ∀ (x : State) i, State.Keeps s0 x → State.Keeps s0 (drop x i)) (hs : State.Keeps s0 s) :
    State.Keeps s0 (withdrawAll t drop ids s) := by
  unfold withdrawAll
  with_reducible repeat' first
    | assumption | intro _ | apply State.foldl_keeps | apply hdrop | apply State.mirror_keeps

theorem removeLoop_keeps {s0 : State} {s : State} {id : Nat} (hs : State.Keeps s0 s) :
    State.Keeps s0 (removeLoop s id) := by
  unfold removeLoop
  with_reducible repeat' first
    | assumption | apply State.ite_keeps | apply stopLoop_keeps | apply State.modWs_keeps
    | (refine State.keeps_of_pair (by assumption) ?_)
    | (refine State.keeps_of_parts ?_; dsimp only; refine State.Keeps.ofParts ?_) | split

theorem basinReturned_keeps {s0 : State} {b : Nat} {s : State} (hs : State.Keeps s0 s) :
    State.Keeps s0 (basinReturned b s) := by
  unfold basinReturned
  with_reducible repeat' first
    | assumption | apply State.modWs_keeps

theorem basinRemoveOp_keeps {s0 : State} {b : Nat} {s : State} (hs : State.Keeps s0 s) :
    State.Keeps s0 (basinRemoveOp b s) := by
  unfold basinRemoveOp
  with_reducible repeat' first
    | assumption | intro _ | apply State.ite_keeps | apply State.foldl_keeps | apply State.modWs_keeps
    | apply stopLoop_keeps | apply withdrawAll_keeps | apply dropAction_keeps | apply dropSub_keeps
    | apply removeLoop_keeps | apply revokePass_keeps | apply dropPoint_keeps | apply basinReturned_keeps
    | apply State.mirror_keeps | apply State.setReg_keeps

theorem basinRemovedOp_keeps {s0 : State} {b : Nat} {s : State} (hs : State.Keeps s0 s) :
    State.Keeps s0 (basinRemovedOp b s) := by
  unfold basinRemovedOp
  with_reducible repeat' first
    | assumption | apply State.modWs_keeps

theorem runDecl_keeps {s0 : State} {fn cmd : Nat} {f : State → State} {s : State} (hf : ∀ x : State, State.Keeps s0 x → State.Keeps s0 (f x)) (hs : State.Keeps s0 s) :
    State.Keeps s0 (runDecl fn cmd f s) := by
  unfold runDecl
  with_reducible repeat' first
    | assumption | intro _ | apply State.ite_keeps | apply hf

theorem updRec_keeps {s0 : State} {s : State} {i : Nat} {payload : List Byte} (hs : State.Keeps s0 s) :
    State.Keeps s0 (updRec s i payload) := by
  unfold updRec
  with_reducible repeat' first
    | assumption | apply raise_keeps | apply State.sendVec_keeps

theorem updEnds_keeps {s0 : State} {s : State} {new res : Nat} (hs : State.Keeps s0 s) :
    State.Keeps s0 (updEnds s new res) := by
  unfold updEnds
  with_reducible repeat' first
    | assumption | apply State.ite_keeps | apply updRec_keeps | apply State.modUpd_keeps
    | exact ⟨Nat.le_refl _, rfl⟩

theorem takeHeader_keeps {s0 : State} {s : State} {lock src port : Nat} {mac : BitVec 48} {h : List Byte} (hs : State.Keeps s0 s) :
    State.Keeps s0 (takeHeader s lock src port mac h) := by
  unfold takeHeader
  with_reducible repeat' first
    | assumption | apply State.modUpd_keeps | exact ⟨Nat.le_refl _, rfl⟩

theorem takeBody_keeps {s0 : State} {s : State} {bytes : List Byte} (hs : State.Keeps s0 s) :
    State.Keeps s0 (takeBody s bytes) := by
  unfold takeBody
  with_reducible repeat' first
    | assumption | apply State.ite_keeps | apply State.modUpd_keeps | exact ⟨Nat.le_refl _, rfl⟩

theorem disarm_keeps {s0 : State} {s : State} {res : Nat} (hs : State.Keeps s0 s) :
    State.Keeps s0 (disarm s res) := by
  unfold disarm
  with_reducible repeat' first
    | assumption | apply State.ite_keeps | apply updEnds_keeps | apply State.modUpd_keeps | apply State.mirror_keeps
    | exact ⟨Nat.le_refl _, rfl⟩

theorem pairRec_keeps {s0 : State} {s : State} {i : Nat} {payload : List Byte} (hs : State.Keeps s0 s) :
    State.Keeps s0 (pairRec s i payload) := by
  unfold pairRec
  with_reducible repeat' first
    | assumption | apply raise_keeps | apply State.sendVec_keeps

theorem stopChannel_keeps {s0 : State} {s : State} {n : Nat} {h : Instant} (hs : State.Keeps s0 s) :
    State.Keeps s0 (stopChannel s n h) := by
  unfold stopChannel
  with_reducible repeat' first
    | assumption | apply State.ite_keeps | apply State.modCh_keeps

theorem vaultAbort_keeps {s0 : State} {s : State} {result : Nat} (hs : State.Keeps s0 s) :
    State.Keeps s0 (vaultAbort s result) := by
  unfold vaultAbort
  with_reducible repeat' first
    | assumption | apply State.ite_keeps | apply State.modVlt_keeps | apply State.intBit_keeps

theorem yieldTo_keeps {s0 : State} {s : State} {cause : Nat} (hs : State.Keeps s0 s) :
    State.Keeps s0 (yieldTo s cause) := by
  unfold yieldTo
  with_reducible repeat' first
    | assumption | intro _ | apply State.ite_keeps | apply State.foldl_keeps | apply stopChannel_keeps
    | apply State.modPair_keeps

theorem channelYield_keeps {s0 : State} {s : State} {n : Nat} (hs : State.Keeps s0 s) :
    State.Keeps s0 (channelYield s n) := by
  unfold channelYield
  with_reducible repeat' first
    | assumption | apply State.ite_keeps | apply yieldTo_keeps

theorem steerAll_keeps {s0 : State} {s : State} (hs : State.Keeps s0 s) :
    State.Keeps s0 (steerAll s).1 := by
  unfold steerAll
  with_reducible repeat' first
    | assumption | intro _ | apply State.ite_keeps | apply State.foldl_keeps | apply State.iteFst_keeps
    | apply State.foldlFst_keeps | apply State.modPt_keeps | apply State.mirror_keeps | apply State.modWs_keeps
    | (refine State.keeps_of_pair (by assumption) ?_)
    | (refine State.keeps_of_parts ?_; dsimp only; refine State.Keeps.ofParts ?_) | split

theorem loopPointsAt_keeps {s0 : State} {s : State} {id n : Nat} (hs : State.Keeps s0 s) :
    State.Keeps s0 (loopPointsAt s id n) := by
  unfold loopPointsAt
  with_reducible repeat' first
    | assumption | apply State.ite_keeps
    | (refine State.keeps_of_parts ?_; dsimp only; refine State.Keeps.ofParts ?_)

theorem putSlotWords_keeps {s0 : State} {s : State} {n t : Nat} {ws : List Word} (hs : State.Keeps s0 s) :
    State.Keeps s0 (putSlotWords s n t ws) := by
  unfold putSlotWords
  with_reducible repeat' first
    | assumption | intro _ | apply State.foldl_keeps | apply State.setReg_keeps

theorem occupySlot_keeps {s0 : State} {s : State} {id n t : Nat} (hs : State.Keeps s0 s) :
    State.Keeps s0 (occupySlot s id n t) := by
  unfold occupySlot
  with_reducible repeat' first
    | assumption | apply State.ite_keeps | apply State.modCh_keeps

theorem loopMovedRec_keeps {s0 : State} {s : State} {b id n t n' t' reason : Nat} {tm : Instant} (hs : State.Keeps s0 s) :
    State.Keeps s0 (loopMovedRec s b id n t n' t' reason tm) := by
  unfold loopMovedRec
  with_reducible repeat' first
    | assumption | apply raiseBoth_keeps

theorem applyPlace_keeps {s0 : State} {s : State} {restart : Bool} {tm : Instant} {id n t phase lane : Nat} (hs : State.Keeps s0 s) :
    State.Keeps s0 (applyPlace s restart tm id n t phase lane) := by
  unfold applyPlace
  with_reducible repeat' first
    | assumption | apply State.ite_keeps | apply putSlotWords_keeps | apply restart_keeps | apply State.modWs_keeps
    | apply loopPointsAt_keeps | apply occupySlot_keeps | apply State.mirror_keeps | apply loopMovedRec_keeps
    | apply raiseBoth_keeps | (refine State.keeps_of_pair (by assumption) ?_)
    | (refine State.keeps_of_parts ?_; dsimp only; refine State.Keeps.ofParts ?_) | split

theorem moveSlots_keeps {s0 : State} {s : State} {tm : Instant} {m : Migration} (hs : State.Keeps s0 s) :
    State.Keeps s0 (moveSlots s tm m) := by
  unfold moveSlots
  with_reducible repeat' first
    | assumption | apply State.ite_keeps | apply putSlotWords_keeps | apply State.setReg_keeps
    | apply State.modCh_keeps | apply State.modSlot_keeps | apply State.modWs_keeps

theorem mirrorMove_keeps {s0 : State} {s : State} {m : Migration} (hs : State.Keeps s0 s) :
    State.Keeps s0 (mirrorMove s m) := by
  unfold mirrorMove
  with_reducible repeat' first
    | assumption | apply State.mirror_keeps | (refine State.keeps_of_pair (by assumption) ?_)
    | (refine State.keeps_of_parts ?_; dsimp only; refine State.Keeps.ofParts ?_) | split

theorem applyMove_keeps {s0 : State} {s : State} {tm : Instant} {m : Migration} (hs : State.Keeps s0 s) :
    State.Keeps s0 (applyMove s tm m) := by
  unfold applyMove
  with_reducible repeat' first
    | assumption | apply loopPointsAt_keeps | apply mirrorMove_keeps | apply moveSlots_keeps

theorem applyPoint_keeps {s0 : State} {s : State} {h : Nat} (hs : State.Keeps s0 s) :
    State.Keeps s0 (applyPoint s h) := by
  unfold applyPoint
  with_reducible repeat' first
    | assumption | apply State.ite_keeps | apply State.modPt_keeps | apply State.mirror_keeps
    | apply raiseBoth_keeps | apply acquire_keeps | (refine State.keeps_of_pair (by assumption) ?_)
    | (refine State.keeps_of_parts ?_; dsimp only; refine State.Keeps.ofParts ?_) | split

theorem removeTable_keeps {s0 : State} {s : State} {n reason : Nat} (hs : State.Keeps s0 s) :
    State.Keeps s0 (removeTable s n reason) := by
  unfold removeTable
  with_reducible repeat' first
    | assumption | intro _ | apply State.ite_keeps | apply State.foldl_keeps | apply State.modTbl_keeps
    | apply cancelEntry_keeps | apply raiseBoth_keeps | (refine State.keeps_of_pair (by assumption) ?_)
    | (refine State.keeps_of_parts ?_; dsimp only; refine State.Keeps.ofParts ?_) | split

theorem steerRecords_keeps {s0 : State} {s : State} {l : List Steer} (hs : State.Keeps s0 s) :
    State.Keeps s0 (steerRecords s l) := by
  unfold steerRecords
  with_reducible repeat' first
    | assumption | intro _ | apply State.ite_keeps | apply State.foldl_keeps | apply raiseBoth_keeps
    | apply State.modPt_keeps | (refine State.keeps_of_pair (by assumption) ?_)
    | (refine State.keeps_of_parts ?_; dsimp only; refine State.Keeps.ofParts ?_) | split

theorem pinConflicts_keeps {s0 : State} {s : State} {p : Plan} (hs : State.Keeps s0 s) :
    State.Keeps s0 (pinConflicts s p) := by
  unfold pinConflicts
  with_reducible repeat' first
    | assumption | intro _ | apply State.ite_keeps | apply State.foldl_keeps | apply raise_keeps
    | (refine State.keeps_of_pair (by assumption) ?_)
    | (refine State.keeps_of_parts ?_; dsimp only; refine State.Keeps.ofParts ?_) | split

theorem capacityChanged_keeps {s0 : State} {s : State} {n : Nat} (hs : State.Keeps s0 s) :
    State.Keeps s0 (capacityChanged s n) := by
  unfold capacityChanged
  with_reducible repeat' first
    | assumption | apply raise_keeps

theorem planAgain_keeps {s0 : State} {s : State} (hs : State.Keeps s0 s) :
    State.Keeps s0 (planAgain s) := by
  unfold planAgain
  with_reducible repeat' first
    | assumption | apply State.ite_keeps | apply trigger_keeps

theorem applyPlan_keeps {z0 : State} {s0 : State} {tm : Instant} {p : Plan} (hs0 : State.Keeps z0 s0) :
    State.Keeps z0 (applyPlan s0 tm p) := by
  unfold applyPlan
  with_reducible repeat' first
    | assumption | intro _ | apply State.ite_keeps | apply State.foldl_keeps | apply pinConflicts_keeps
    | apply State.modWs_keeps | apply stopLoop_keeps | apply removeTable_keeps | apply applyPlace_keeps
    | apply applyMove_keeps | apply applyPoint_keeps | apply applyAction_keeps | apply installFilter_keeps
    | apply State.modSeg_keeps | apply resubscribe_keeps | apply steerAll_keeps | apply steerRecords_keeps
    | apply planAgain_keeps | apply dirFrom_keeps | apply State.tick1_keeps | apply raise_keeps
    | (refine State.keeps_of_parts ?_; dsimp only; refine State.Keeps.ofParts ?_)

theorem placementPassOp_keeps {s0 : State} {s : State} (hs : State.Keeps s0 s) :
    State.Keeps s0 (placementPassOp s) := by
  unfold placementPassOp
  with_reducible repeat' first
    | assumption | intro _ | apply State.ite_keeps | apply State.foldl_keeps | apply State.modWs_keeps
    | apply trigger_keeps | apply applyPlan_keeps | apply resubscribe_keeps | apply State.modTxn_keeps
    | apply abortTxn_keeps | apply State.emit_keeps | (refine State.keeps_of_pair (by assumption) ?_)
    | (refine State.keeps_of_parts ?_; dsimp only; refine State.Keeps.ofParts ?_) | split

theorem rebalanceTimerOp_keeps {s0 : State} {s : State} (hs : State.Keeps s0 s) :
    State.Keeps s0 (rebalanceTimerOp s) := by
  unfold rebalanceTimerOp
  with_reducible repeat' first
    | assumption | apply State.ite_keeps | apply trigger_keeps | apply State.modWs_keeps

theorem stateArrivalOp_keeps {s0 : State} {id : Nat} {s : State} (hs : State.Keeps s0 s) :
    State.Keeps s0 (stateArrivalOp id s) := by
  unfold stateArrivalOp
  with_reducible repeat' first
    | assumption | apply State.ite_keeps | apply State.modSlot_keeps | apply State.modWs_keeps
    | (refine State.keeps_of_pair (by assumption) ?_)
    | (refine State.keeps_of_parts ?_; dsimp only; refine State.Keeps.ofParts ?_) | split

theorem stateTimeoutOp_keeps {s0 : State} {id : Nat} {s : State} (hs : State.Keeps s0 s) :
    State.Keeps s0 (stateTimeoutOp id s) := by
  unfold stateTimeoutOp
  with_reducible repeat' first
    | assumption | apply State.ite_keeps | apply State.modSlot_keeps | apply State.modWs_keeps
    | apply raiseBoth_keeps | (refine State.keeps_of_pair (by assumption) ?_)
    | (refine State.keeps_of_parts ?_; dsimp only; refine State.Keeps.ofParts ?_) | split

theorem migrationReleaseOp_keeps {z0 : State} {id : Nat} {s0 : State} (hs0 : State.Keeps z0 s0) :
    State.Keeps z0 (migrationReleaseOp id s0) := by
  unfold migrationReleaseOp
  with_reducible repeat' first
    | assumption | apply State.ite_keeps | apply State.modCh_keeps | apply State.modWs_keeps | apply dirFrom_keeps
    | apply resubscribe_keeps | apply trigger_keeps | apply loopMovedRec_keeps
    | (refine State.keeps_of_pair (by assumption) ?_)
    | (refine State.keeps_of_parts ?_; dsimp only; refine State.Keeps.ofParts ?_) | split

theorem setSvc_keeps {s0 : State} {s : State} {n : Nat} {v : Svc} (hs : State.Keeps s0 s) :
    State.Keeps s0 (setSvc s n v) := by
  unfold setSvc
  with_reducible repeat' first
    | assumption | apply State.modWs_keeps

theorem svcError_keeps {s0 : State} {s : State} {n : Nat} (hs : State.Keeps s0 s) :
    State.Keeps s0 (svcError s n) := by
  unfold svcError
  with_reducible repeat' first
    | assumption | apply State.modWs_keeps

theorem takeOutOp_keeps {s0 : State} {n : Nat} {s : State} (hs : State.Keeps s0 s) :
    State.Keeps s0 (takeOutOp n s) := by
  unfold takeOutOp
  with_reducible repeat' first
    | assumption | apply State.ite_keeps | apply svcError_keeps | apply setSvc_keeps | apply State.modWs_keeps
    | apply trigger_keeps | apply capacityChanged_keeps

theorem cancelCanQueues_keeps {s0 : State} {n : Nat} {s : State} (hs : State.Keeps s0 s) :
    State.Keeps s0 (cancelCanQueues n s) := by
  unfold cancelCanQueues
  with_reducible repeat' first
    | assumption | intro _ | apply State.ite_keeps | apply State.foldl_keeps | apply endFrames_keeps
    | apply State.modCan_keeps

theorem channelOut_keeps {s0 : State} {n : Nat} {s : State} (hs : State.Keeps s0 s) :
    State.Keeps s0 (channelOut n s) := by
  unfold channelOut
  with_reducible repeat' first
    | assumption | apply cancelCanQueues_keeps | apply removeTable_keeps | apply State.modCh_keeps
    | apply applyAllSafe_keeps

theorem channelDrainedOp_keeps {s0 : State} {n : Nat} {s : State} (hs : State.Keeps s0 s) :
    State.Keeps s0 (channelDrainedOp n s) := by
  unfold channelDrainedOp
  with_reducible repeat' first
    | assumption | intro _ | apply State.ite_keeps | apply State.foldl_keeps | apply channelOut_keeps
    | apply acquire_keeps | apply setSvc_keeps | apply State.modCh_keeps | apply setChState_keeps
    | apply capacityChanged_keeps | apply txnChannelLeft_keeps

theorem bringInOp_keeps {s0 : State} {n : Nat} {s : State} (hs : State.Keeps s0 s) :
    State.Keeps s0 (bringInOp n s) := by
  unfold bringInOp
  with_reducible repeat' first
    | assumption | apply State.ite_keeps | apply svcError_keeps | apply setSvc_keeps | apply State.modWs_keeps
    | apply setChState_keeps | apply trigger_keeps | apply capacityChanged_keeps

theorem frameCancelsLost_keeps {s0 : State} {s : State} {n : Nat} (hs : State.Keeps s0 s) :
    State.Keeps s0 (frameCancelsLost s n) := by
  unfold frameCancelsLost
  with_reducible repeat' first
    | assumption | intro _ | apply State.foldl_keeps | apply finish_keeps

theorem channelFaultOp_keeps {s0 : State} {n : Nat} {converter : Bool} {s : State} (hs : State.Keeps s0 s) :
    State.Keeps s0 (channelFaultOp n converter s) := by
  unfold channelFaultOp
  with_reducible repeat' first
    | assumption | intro _ | apply State.ite_keeps | apply State.foldl_keeps | apply State.modCh_keeps
    | apply txnChannelLeft_keeps | apply setChState_keeps | apply State.alert_keeps | apply frameCancelsLost_keeps
    | apply channelFlightsLost_keeps | apply removeTable_keeps | apply State.modWs_keeps | apply stopLoop_keeps
    | apply channelYield_keeps | apply trigger_keeps | apply capacityChanged_keeps | apply setSvc_keeps

end Sys2Proof.Machine
end

