-- ==== Sys2Proof/Laws/KeepsTime.lean ====
section
/-! SUPPORT. What every effect keeps (`State.Keeps`), for time, the pair, the channel links and the backup domain: one lemma per operation. -/

namespace Sys2Proof.Machine

theorem tableStepped_keeps {s0 : State} {s : State} {t old : Nat} (hs : State.Keeps s0 s) :
    State.Keeps s0 (tableStepped s t old) := by
  unfold tableStepped
  with_reducible repeat' first
    | assumption | apply State.ite_keeps | apply actSteppedBack_keeps

theorem stepChannel_keeps {s0 : State} {s : State} {n : Nat} {y : Instant} (hs : State.Keeps s0 s) :
    State.Keeps s0 (stepChannel s n y) := by
  unfold stepChannel
  with_reducible repeat' first
    | assumption | apply tableStepped_keeps | apply State.modCh_keeps

theorem chanTicks_keeps {s0 : State} {s : State} {n k : Nat} (hs : State.Keeps s0 s) :
    State.Keeps s0 (chanTicks s n k) := by
  unfold chanTicks
  with_reducible repeat' first
    | assumption | apply State.modCh_keeps

theorem chanRun_keeps {s0 : State} {s : State} {n k : Nat} (hs : State.Keeps s0 s) :
    State.Keeps s0 (chanRun s n k) := by
  unfold chanRun
  with_reducible repeat' first
    | assumption | apply State.ite_keeps | apply chanTicks_keeps | apply stepChannel_keeps
    | (refine State.keeps_of_pair (by assumption) ?_)
    | (refine State.keeps_of_parts ?_; dsimp only; refine State.Keeps.ofParts ?_) | split

theorem runTicks_keeps {s0 : State} {n : Nat} {s : State} (hs : State.Keeps s0 s) :
    State.Keeps s0 (runTicks n s) := by
  unfold runTicks
  with_reducible repeat' first
    | assumption | intro _ | apply State.ite_keeps | apply State.foldl_keeps | apply State.modTime_keeps
    | apply chanRun_keeps | apply State.tick1_keeps
    | (refine State.keeps_of_parts ?_; dsimp only; refine State.Keeps.ofParts ?_)

theorem idleTick_keeps {s0 : State} {s : State} (hs : State.Keeps s0 s) :
    State.Keeps s0 (idleTick s) := by
  unfold idleTick
  with_reducible repeat' first
    | assumption | apply runTicks_keeps

theorem clearLocked_keeps {s0 : State} {s : State} (hs : State.Keeps s0 s) :
    State.Keeps s0 (clearLocked s) := by
  unfold clearLocked
  with_reducible repeat' first
    | assumption | apply State.ite_keeps | apply timeRec_keeps | apply State.modTime_keeps

theorem timeGained_keeps {s0 : State} {s : State} (hs : State.Keeps s0 s) :
    State.Keeps s0 (timeGained s) := by
  unfold timeGained
  with_reducible repeat' first
    | assumption | apply actTimeValid_keeps | apply passesValid_keeps

theorem timeGone_keeps {s0 : State} {s : State} {was cause : Nat} (hs : State.Keeps s0 s) :
    State.Keeps s0 (timeGone s was cause) := by
  unfold timeGone
  with_reducible repeat' first
    | assumption | apply disarm_keeps | apply passesInvalid_keeps | apply txnNoTime_keeps | apply timeRec_keeps
    | apply State.alert_keeps

theorem setClass_keeps {s0 : State} {s : State} {new cause : Nat} (hs : State.Keeps s0 s) :
    State.Keeps s0 (setClass s new cause) := by
  unfold setClass
  with_reducible repeat' first
    | assumption | apply State.ite_keeps | apply State.modTime_keeps | apply timeRec_keeps | apply State.tick1_keeps
    | apply clearLocked_keeps | apply timeGained_keeps | apply timeGone_keeps

theorem servoSample_keeps {s0 : State} {s : State} {e : Int} (hs : State.Keeps s0 s) :
    State.Keeps s0 (servoSample s e) := by
  unfold servoSample
  with_reducible repeat' first
    | assumption | apply State.modTime_keeps | apply State.tick1_keeps
    | (refine State.keeps_of_pair (by assumption) ?_)
    | (refine State.keeps_of_parts ?_; dsimp only; refine State.Keeps.ofParts ?_) | split

theorem lockSample_keeps {s0 : State} {s : State} {e : Int} (hs : State.Keeps s0 s) :
    State.Keeps s0 (lockSample s e) := by
  unfold lockSample
  with_reducible repeat' first
    | assumption | apply State.ite_keeps | apply State.modTime_keeps | apply timeRec_keeps | apply clearLocked_keeps

theorem armStep_keeps {s0 : State} {s : State} {value : Int} {cause : Nat} (hs : State.Keeps s0 s) :
    State.Keeps s0 (armStep s value cause) := by
  unfold armStep
  with_reducible repeat' first
    | assumption | apply State.modTime_keeps

theorem takeSample_keeps {s0 : State} {s : State} {e : Int} (hs : State.Keeps s0 s) :
    State.Keeps s0 (takeSample s e) := by
  unfold takeSample
  with_reducible repeat' first
    | assumption | apply State.ite_keeps | apply lockSample_keeps | apply State.modTime_keeps | apply armStep_keeps
    | apply servoSample_keeps

theorem offsetSampleOp_keeps {s0 : State} {src : TimeSource} {e l : Int} {s : State} (hs : State.Keeps s0 s) :
    State.Keeps s0 (offsetSampleOp src e l s) := by
  unfold offsetSampleOp
  with_reducible repeat' first
    | assumption | apply takeSample_keeps | apply setClass_keeps | apply State.modTime_keeps
    | (refine State.keeps_of_pair (by assumption) ?_)
    | (refine State.keeps_of_parts ?_; dsimp only; refine State.Keeps.ofParts ?_) | split

theorem offinOp_keeps {s0 : State} {data : Word} {s : State} (hs : State.Keeps s0 s) :
    State.Keeps s0 (offinOp data s) := by
  unfold offinOp
  with_reducible repeat' first
    | assumption | apply State.ite_keeps | apply takeSample_keeps | apply setClass_keeps | apply State.modTime_keeps

theorem setTimeOp_keeps {s0 : State} {s : State} (hs : State.Keeps s0 s) :
    State.Keeps s0 (setTimeOp s) := by
  unfold setTimeOp
  with_reducible repeat' first
    | assumption | apply State.ite_keeps | apply State.modTime_keeps | apply setClass_keeps | apply armStep_keeps

theorem invalidateOp_keeps {s0 : State} {s : State} (hs : State.Keeps s0 s) :
    State.Keeps s0 (invalidateOp s) := by
  unfold invalidateOp
  with_reducible repeat' first
    | assumption | apply setClass_keeps | apply State.modTime_keeps

theorem sourceLostOp_keeps {s0 : State} {s : State} (hs : State.Keeps s0 s) :
    State.Keeps s0 (sourceLostOp s) := by
  unfold sourceLostOp
  with_reducible repeat' first
    | assumption | apply State.ite_keeps | apply State.modTime_keeps | apply timeRec_keeps | apply setClass_keeps
    | apply State.tick1_keeps

theorem holdoverEndOp_keeps {s0 : State} {s : State} (hs : State.Keeps s0 s) :
    State.Keeps s0 (holdoverEndOp s) := by
  unfold holdoverEndOp
  with_reducible repeat' first
    | assumption | apply State.ite_keeps | apply setClass_keeps

theorem timeStepOp_keeps {s0 : State} {s : State} (hs : State.Keeps s0 s) :
    State.Keeps s0 (timeStepOp s) := by
  unfold timeStepOp
  with_reducible repeat' first
    | assumption | intro _ | apply State.ite_keeps | apply State.foldl_keeps | apply runTicks_keeps
    | apply State.modTime_keeps | apply timeRec_keeps | apply tableStepped_keeps | apply txnStepped_keeps
    | apply disarm_keeps | apply passExpiryOp_keeps | (refine State.keeps_of_pair (by assumption) ?_)
    | (refine State.keeps_of_parts ?_; dsimp only; refine State.Keeps.ofParts ?_) | split

theorem beaconOp_keeps {s0 : State} {s : State} (hs : State.Keeps s0 s) :
    State.Keeps s0 (beaconOp s) := by
  unfold beaconOp
  with_reducible repeat' first
    | assumption | intro _ | apply State.ite_keeps | apply State.foldl_keeps | apply runTicks_keeps
    | apply State.modTime_keeps | apply State.modCh_keeps | apply State.emit_keeps

theorem chanLock_keeps {s0 : State} {s : State} {n : Nat} {e : Int} (hs : State.Keeps s0 s) :
    State.Keeps s0 (chanLock s n e) := by
  unfold chanLock
  with_reducible repeat' first
    | assumption | apply State.ite_keeps | apply State.modCh_keeps | apply timeRec_keeps

theorem chanServo_keeps {s0 : State} {s : State} {n : Nat} {b : Beacon} {e : Int} (hs : State.Keeps s0 s) :
    State.Keeps s0 (chanServo s n b e) := by
  unfold chanServo
  with_reducible repeat' first
    | assumption | apply State.ite_keeps | apply State.modCh_keeps | apply stepChannel_keeps

theorem relockCheck_keeps {s0 : State} {s : State} {n : Nat} (hs : State.Keeps s0 s) :
    State.Keeps s0 (relockCheck s n) := by
  unfold relockCheck
  with_reducible repeat' first
    | assumption | apply State.ite_keeps | apply State.modCh_keeps | apply releaseRecs_keeps | apply resendAll_keeps

theorem beaconArrivalOp_keeps {s0 : State} {n : Nat} {s : State} (hs : State.Keeps s0 s) :
    State.Keeps s0 (beaconArrivalOp n s) := by
  unfold beaconArrivalOp
  with_reducible repeat' first
    | assumption | apply State.ite_keeps | apply State.modCh_keeps | apply chanLock_keeps | apply chanServo_keeps
    | apply relockCheck_keeps | apply actTimeValid_keeps | (refine State.keeps_of_pair (by assumption) ?_)
    | (refine State.keeps_of_parts ?_; dsimp only; refine State.Keeps.ofParts ?_) | split

theorem setPortState_keeps {s0 : State} {s : State} {p v : Nat} (hs : State.Keeps s0 s) :
    State.Keeps s0 (setPortState s p v) := by
  unfold setPortState
  with_reducible repeat' first
    | assumption | apply State.ite_keeps | apply State.modTime_keeps

theorem sourceCheck_keeps {s0 : State} {s : State} (hs : State.Keeps s0 s) :
    State.Keeps s0 (sourceCheck s) := by
  unfold sourceCheck
  with_reducible repeat' first
    | assumption | apply State.ite_keeps | apply sourceLostOp_keeps

theorem ptpPorts_keeps {s0 : State} {s : State} (hs : State.Keeps s0 s) :
    State.Keeps s0 (ptpPorts s) := by
  unfold ptpPorts
  with_reducible repeat' first
    | assumption | intro _ | apply State.ite_keeps | apply State.foldl_keeps | apply setPortState_keeps

theorem ptpCfgWritten_keeps {s0 : State} {s : State} (hs : State.Keeps s0 s) :
    State.Keeps s0 (ptpCfgWritten s) := by
  unfold ptpCfgWritten
  with_reducible repeat' first
    | assumption | apply sourceCheck_keeps | apply ptpPorts_keeps

theorem announceOp_keeps {s0 : State} {p st : Nat} {gm : Slot} {utc : Int} {l61 l59 uv : Bool} {s : State} (hs : State.Keeps s0 s) :
    State.Keeps s0 (announceOp p st gm utc l61 l59 uv s) := by
  unfold announceOp
  with_reducible repeat' first
    | assumption | apply State.ite_keeps | apply sourceCheck_keeps | apply setPortState_keeps
    | apply State.modTime_keeps | apply State.setReg_keeps

theorem ptpMessageOp_keeps {s0 : State} {p : Nat} {msg : PtpMsg} {frame : EthFrame} {stamp : Instant} {s : State} (hs : State.Keeps s0 s) :
    State.Keeps s0 (ptpMessageOp p msg frame stamp s) := by
  unfold ptpMessageOp
  with_reducible repeat' first
    | assumption | apply State.ite_keeps | apply netJudge_keeps | apply announceOp_keeps
    | (refine State.keeps_of_pair (by assumption) ?_)
    | (refine State.keeps_of_parts ?_; dsimp only; refine State.Keeps.ofParts ?_) | split

theorem ptpTransmitOp_keeps {s0 : State} {p kind : Nat} {s : State} (hs : State.Keeps s0 s) :
    State.Keeps s0 (ptpTransmitOp p kind s) := by
  unfold ptpTransmitOp
  with_reducible repeat' first
    | assumption | apply State.ite_keeps | apply netAct_keeps | apply State.tick1_keeps | apply State.emit_keeps

theorem emitSeg_keeps {s0 : State} {s : State} {n x : Nat} {kinds : List Nat} (hs : State.Keeps s0 s) :
    State.Keeps s0 (emitSeg s n x kinds) := by
  unfold emitSeg
  with_reducible repeat' first
    | assumption | intro _ | apply State.foldl_keeps | apply State.emit_keeps

theorem gptpSyncOp_keeps {s0 : State} {n x : Nat} {s : State} (hs : State.Keeps s0 s) :
    State.Keeps s0 (gptpSyncOp n x s) := by
  unfold gptpSyncOp
  with_reducible repeat' first
    | assumption | apply State.ite_keeps | apply emitSeg_keeps

theorem pdelayReqOp_keeps {s0 : State} {n x j : Nat} {s : State} (hs : State.Keeps s0 s) :
    State.Keeps s0 (pdelayReqOp n x j s) := by
  unfold pdelayReqOp
  with_reducible repeat' first
    | assumption | apply State.ite_keeps | apply emitSeg_keeps | apply State.modSeg_keeps

theorem pairLost_keeps {s0 : State} {s : State} {cause : Nat} (hs : State.Keeps s0 s) :
    State.Keeps s0 (pairLost s cause) := by
  unfold pairLost
  with_reducible repeat' first
    | assumption | apply pairRec_keeps | apply State.alert_keeps

theorem armRelease_keeps {s0 : State} {s : State} (hs : State.Keeps s0 s) :
    State.Keeps s0 (armRelease s) := by
  unfold armRelease
  with_reducible repeat' first
    | assumption | apply State.chs_keeps

theorem holdTerminals_keeps {s0 : State} {s : State} {n : Nat} (hs : State.Keeps s0 s) :
    State.Keeps s0 (holdTerminals s n) := by
  unfold holdTerminals
  with_reducible repeat' first
    | assumption | intro _ | apply State.ite_keeps | apply State.foldl_keeps | apply applyAllSafe_keeps
    | apply State.modAout_keeps

theorem busModes_keeps {s0 : State} {s : State} (hs : State.Keeps s0 s) :
    State.Keeps s0 (busModes s) := by
  unfold busModes
  with_reducible repeat' first
    | assumption | apply State.chs_keeps

theorem ringsWait_keeps {s0 : State} {s : State} (hs : State.Keeps s0 s) :
    State.Keeps s0 (ringsWait s) := by
  unfold ringsWait
  with_reducible repeat' first
    | assumption | apply State.ite_keeps
    | (refine State.keeps_of_parts ?_; dsimp only; refine State.Keeps.ofParts ?_)

theorem txnsHandedOver_keeps {s0 : State} {s : State} (hs : State.Keeps s0 s) :
    State.Keeps s0 (txnsHandedOver s) := by
  unfold txnsHandedOver
  with_reducible repeat' first
    | assumption | intro _ | apply State.ite_keeps | apply State.foldl_keeps | apply State.modTxn_keeps
    | apply loseTxn_keeps

theorem beginService_keeps {s0 : State} {s : State} (hs : State.Keeps s0 s) :
    State.Keeps s0 (beginService s) := by
  unfold beginService
  with_reducible repeat' first
    | assumption | intro _ | apply State.ite_keeps | apply State.foldl_keeps | apply ringsServe_keeps
    | apply State.modPwr_keeps | apply raiseBoth_keeps | apply timeRec_keeps | apply raise_keeps
    | apply State.intBit_keeps | apply State.modBkp_keeps | apply State.modVlt_keeps | apply updRec_keeps
    | apply State.modUpd_keeps | exact ⟨Nat.le_refl _, rfl⟩ | (refine State.keeps_of_pair (by assumption) ?_)
    | (refine State.keeps_of_parts ?_; dsimp only; refine State.Keeps.ofParts ?_) | split

theorem setRole_keeps {s0 : State} {s : State} {new cause : Nat} (hs : State.Keeps s0 s) :
    State.Keeps s0 (setRole s new cause) := by
  unfold setRole
  with_reducible repeat' first
    | assumption | intro _ | apply State.ite_keeps | apply State.foldl_keeps | apply vaultAbort_keeps
    | apply State.modPair_keeps | apply pairRec_keeps | apply busModes_keeps | apply sourceCheck_keeps
    | apply armRelease_keeps | apply txnsHandedOver_keeps | apply ringsWait_keeps | apply holdTerminals_keeps
    | apply setPortState_keeps | apply ringsServe_keeps | apply beginService_keeps | apply State.chs_keeps

theorem releaseChannels_keeps {s0 : State} {s : State} (hs : State.Keeps s0 s) :
    State.Keeps s0 (releaseChannels s) := by
  unfold releaseChannels
  with_reducible repeat' first
    | assumption | intro _ | apply State.ite_keeps | apply State.foldl_keeps | apply holdTerminals_keeps

theorem pairRefused_keeps {s0 : State} {s : State} {p : Partner} {reason : Nat} (hs : State.Keeps s0 s) :
    State.Keeps s0 (pairRefused s p reason) := by
  unfold pairRefused
  with_reducible repeat' first
    | assumption | apply State.ite_keeps | apply armRelease_keeps | apply State.modPair_keeps | apply pairRec_keeps
    | apply setRole_keeps

theorem pairCheck_keeps {s0 : State} {s : State} (hs : State.Keeps s0 s) :
    State.Keeps s0 (pairCheck s) := by
  unfold pairCheck
  with_reducible repeat' first
    | assumption | apply State.ite_keeps | apply pairRefused_keeps | apply setRole_keeps | apply State.modPair_keeps
    | (refine State.keeps_of_pair (by assumption) ?_)
    | (refine State.keeps_of_parts ?_; dsimp only; refine State.Keeps.ofParts ?_) | split

theorem pairLinkUpOp_keeps {s0 : State} {p : Partner} {lanes : BitVec 2} {s : State} (hs : State.Keeps s0 s) :
    State.Keeps s0 (pairLinkUpOp p lanes s) := by
  unfold pairLinkUpOp
  with_reducible repeat' first
    | assumption | apply pairCheck_keeps | apply State.modPair_keeps

theorem roleDecisionOp_keeps {s0 : State} {activeSeen : Bool} {s : State} (hs : State.Keeps s0 s) :
    State.Keeps s0 (roleDecisionOp activeSeen s) := by
  unfold roleDecisionOp
  with_reducible repeat' first
    | assumption | apply State.ite_keeps | apply setRole_keeps | apply pairLost_keeps

theorem pairCfgWritten_keeps {s0 : State} {s : State} {old : Word} (hs : State.Keeps s0 s) :
    State.Keeps s0 (pairCfgWritten s old) := by
  unfold pairCfgWritten
  with_reducible repeat' first
    | assumption | apply State.ite_keeps | apply State.setReg_keeps | apply State.modPair_keeps
    | apply pairLost_keeps | apply setRole_keeps | apply pairCheck_keeps

theorem pairLifecycle_keeps {s0 : State} {s : State} (hs : State.Keeps s0 s) :
    State.Keeps s0 (pairLifecycle s) := by
  unfold pairLifecycle
  with_reducible repeat' first
    | assumption | apply State.ite_keeps | apply pairLost_keeps | apply pairCheck_keeps

theorem heartbeatSendOp_keeps {s0 : State} {s : State} (hs : State.Keeps s0 s) :
    State.Keeps s0 (heartbeatSendOp s) := by
  unfold heartbeatSendOp
  with_reducible repeat' first
    | assumption | apply State.ite_keeps | apply State.modPair_keeps | apply State.emit_keeps

theorem pairHealthRec_keeps {s0 : State} {s : State} (hs : State.Keeps s0 s) :
    State.Keeps s0 (pairHealthRec s) := by
  unfold pairHealthRec
  with_reducible repeat' first
    | assumption | apply pairRec_keeps

theorem setPartnerFit_keeps {s0 : State} {s : State} {fit : Bool} (hs : State.Keeps s0 s) :
    State.Keeps s0 (setPartnerFit s fit) := by
  unfold setPartnerFit
  with_reducible repeat' first
    | assumption | apply State.ite_keeps | apply armRelease_keeps | apply State.modPair_keeps
    | apply pairHealthRec_keeps

theorem pickTs_keeps {s0 : State} {s : State} (hs : State.Keeps s0 s) :
    State.Keeps s0 (pickTs s) := by
  unfold pickTs
  with_reducible repeat' first
    | assumption | apply State.ite_keeps | apply State.modPair_keeps

theorem mirrorPlaced_keeps {s0 : State} {s : State} {id n t phase lane : Nat} (hs : State.Keeps s0 s) :
    State.Keeps s0 (mirrorPlaced s id n t phase lane) := by
  unfold mirrorPlaced
  with_reducible repeat' first
    | assumption | apply State.ite_keeps | apply putSlotWords_keeps | apply State.modWs_keeps
    | apply occupySlot_keeps | apply State.modCh_keeps | apply State.modSlot_keeps | apply loopPointsAt_keeps
    | (refine State.keeps_of_pair (by assumption) ?_)
    | (refine State.keeps_of_parts ?_; dsimp only; refine State.Keeps.ofParts ?_) | split

theorem mirrorDeclared_keeps {s0 : State} {s : State} {t id owner : Nat} {ws : List Word} (hs : State.Keeps s0 s) :
    State.Keeps s0 (mirrorDeclared s t id owner ws) := by
  unfold mirrorDeclared
  with_reducible repeat' first
    | assumption | intro _ | apply State.foldl_keeps | apply State.modWs_keeps | apply dirChanged_keeps
    | (refine State.keeps_of_pair (by assumption) ?_)
    | (refine State.keeps_of_parts ?_; dsimp only; refine State.Keeps.ofParts ?_) | split

theorem mirrorWithdrawn_keeps {s0 : State} {s : State} {t id : Nat} (hs : State.Keeps s0 s) :
    State.Keeps s0 (mirrorWithdrawn s t id) := by
  unfold mirrorWithdrawn
  with_reducible repeat' first
    | assumption | apply State.ite_keeps | apply State.modWs_keeps | apply dirChanged_keeps
    | (refine State.keeps_of_pair (by assumption) ?_)
    | (refine State.keeps_of_parts ?_; dsimp only; refine State.Keeps.ofParts ?_) | split

theorem mirrorStopped_keeps {s0 : State} {s : State} {id : Nat} (hs : State.Keeps s0 s) :
    State.Keeps s0 (mirrorStopped s id) := by
  unfold mirrorStopped
  with_reducible repeat' first
    | assumption | apply State.ite_keeps | apply State.modCh_keeps | apply State.modWs_keeps
    | (refine State.keeps_of_pair (by assumption) ?_)
    | (refine State.keeps_of_parts ?_; dsimp only; refine State.Keeps.ofParts ?_) | split

theorem mirrorSteered_keeps {s0 : State} {s : State} {kind id ring : Nat} (hs : State.Keeps s0 s) :
    State.Keeps s0 (mirrorSteered s kind id ring) := by
  unfold mirrorSteered
  with_reducible repeat' first
    | assumption | apply State.ite_keeps | apply dirFrom_keeps | apply State.modPt_keeps | apply State.modWs_keeps
    | (refine State.keeps_of_pair (by assumption) ?_)
    | (refine State.keeps_of_parts ?_; dsimp only; refine State.Keeps.ofParts ?_) | split

theorem mirrorRestart_keeps {s0 s : State} (hs : State.Keeps s0 s) : State.Keeps s0 (mirrorRestart s) := by
  have h := State.chs_keeps (f := fun (c : Chan) => { c with slots := [], table := { c.table with entries := [] } }) (State.modWs_keeps (f := fun w =>
    { w with assigns := [], passes := [], loops := [], subs := [], reissue := [], plan := none, migrations := [] }) hs)
  exact ⟨h.inv, h.pending, h.ident, h.free, h.serial, h.frames, h.floor, h.revoked⟩

theorem mirrorRegister_keeps {s0 : State} {s : State} {key : Nat} {w : Word} (hs : State.Keeps s0 s) :
    State.Keeps s0 (mirrorRegister s key w) := by
  unfold mirrorRegister
  with_reducible repeat' first
    | assumption | apply State.ite_keeps | apply State.setReg_keeps | apply slotCtlApplied_keeps
    | (refine State.keeps_of_pair (by assumption) ?_)
    | (refine State.keeps_of_parts ?_; dsimp only; refine State.Keeps.ofParts ?_) | split

theorem applyMirrorRec_keeps {s0 : State} {s : State} {r : MirrorRec} (hs : State.Keeps s0 s) :
    State.Keeps s0 (applyMirrorRec s r) := by
  unfold applyMirrorRec
  with_reducible repeat' first
    | assumption | apply State.ite_keeps | apply State.modPt_keeps | apply mirrorRegister_keeps
    | apply State.modSlot_keeps | apply State.modPair_keeps | apply State.modCan_keeps | apply State.modEnt_keeps
    | apply State.modTbl_keeps | apply mirrorDeclared_keeps | apply mirrorWithdrawn_keeps | apply mirrorPlaced_keeps
    | apply mirrorRestart_keeps | apply mirrorStopped_keeps | apply mirrorSteered_keeps | apply basinReturned_keeps
    | apply State.modTxn_keeps | apply takeBody_keeps | apply takeHeader_keeps | apply State.modUpd_keeps
    | apply updEnds_keeps | exact ⟨Nat.le_refl _, rfl⟩ | exact ⟨Nat.le_max_left _ _, rfl⟩
    | (refine State.keeps_of_pair (by assumption) ?_)
    | (refine State.keeps_of_parts ?_; dsimp only; refine State.Keeps.ofParts ?_) | split

theorem refilter_keeps {s0 : State} {s : State} (hs : State.Keeps s0 s) :
    State.Keeps s0 (refilter s) := by
  unfold refilter
  with_reducible repeat' first
    | assumption | intro _ | apply State.foldl_keeps | apply installFilter_keeps

theorem closeRecs_keeps {s0 : State} {s : State} {upTo : Nat} (hs : State.Keeps s0 s) :
    State.Keeps s0 (closeRecs s upTo) := by
  unfold closeRecs
  with_reducible repeat' first
    | assumption | intro _ | apply State.ite_keeps | apply State.foldl_keeps | apply State.modPair_keeps
    | apply applyMirrorRec_keeps | apply refilter_keeps

theorem mirrorRecordOp_keeps {s0 : State} {seq : Nat} {r : MirrorRec} {s : State} (hs : State.Keeps s0 s) :
    State.Keeps s0 (mirrorRecordOp seq r s) := by
  unfold mirrorRecordOp
  with_reducible repeat' first
    | assumption | apply State.ite_keeps | apply State.modPair_keeps

theorem mirrorAll_keeps {s0 : State} {s : State} (hs : State.Keeps s0 s) :
    State.Keeps s0 (mirrorAll s) := by
  unfold mirrorAll
  with_reducible repeat' first
    | assumption | intro _ | apply State.ite_keeps | apply State.foldl_keeps | apply State.mirror_keeps

theorem joinMirror_keeps {s0 : State} {s t : State} (hs : State.Keeps s0 s) (ht : State.Keeps s0 t) :
    State.Keeps s0 (joinMirror s t) := by
  unfold joinMirror
  with_reducible repeat' first
    | assumption | apply State.ite_keeps | apply mirrorAll_keeps

theorem mirrorLag_keeps {s0 : State} {s : State} {h : Instant} (hs : State.Keeps s0 s) :
    State.Keeps s0 (mirrorLag s h) := by
  unfold mirrorLag
  with_reducible repeat' first
    | assumption | apply State.ite_keeps | apply State.modPair_keeps | apply pairLost_keeps | apply setRole_keeps

theorem heartbeatReceivedOp_keeps {s0 : State} {hb : Heartbeat} {s : State} (hs : State.Keeps s0 s) :
    State.Keeps s0 (heartbeatReceivedOp hb s) := by
  unfold heartbeatReceivedOp
  with_reducible repeat' first
    | assumption | apply State.ite_keeps | apply State.modPair_keeps | apply setPartnerFit_keeps
    | apply pickTs_keeps | apply mirrorLag_keeps | apply closeRecs_keeps | apply State.tick1_keeps
    | apply setRole_keeps

theorem heartbeatTimeoutOp_keeps {s0 : State} {s : State} (hs : State.Keeps s0 s) :
    State.Keeps s0 (heartbeatTimeoutOp s) := by
  unfold heartbeatTimeoutOp
  with_reducible repeat' first
    | assumption | apply State.ite_keeps | apply armRelease_keeps | apply State.modPair_keeps | apply pairLost_keeps
    | apply setRole_keeps | apply pairRec_keeps

theorem aliveChangeOp_keeps {s0 : State} {c : AliveIn} {s : State} (hs : State.Keeps s0 s) :
    State.Keeps s0 (aliveChangeOp c s) := by
  unfold aliveChangeOp
  with_reducible repeat' first
    | assumption | apply State.modPair_keeps

theorem resumeLoop_keeps {s0 : State} {s : State} {n t gap : Nat} (hs : State.Keeps s0 s) :
    State.Keeps s0 (resumeLoop s n t gap) := by
  unfold resumeLoop
  with_reducible repeat' first
    | assumption | apply State.ite_keeps | apply State.modSlot_keeps | apply loopCommand_keeps
    | (refine State.keeps_of_pair (by assumption) ?_)
    | (refine State.keeps_of_parts ?_; dsimp only; refine State.Keeps.ofParts ?_) | split

theorem channelGo_keeps {s0 : State} {s : State} {n : Nat} {h : Instant} (hs : State.Keeps s0 s) :
    State.Keeps s0 (channelGo s n h) := by
  unfold channelGo
  with_reducible repeat' first
    | assumption | intro _ | apply State.ite_keeps | apply State.foldl_keeps | apply driveDout_keeps
    | apply driveAout_keeps | apply segApply_keeps | apply State.modCh_keeps | apply resumeLoop_keeps
    | (refine State.keeps_of_pair (by assumption) ?_)
    | (refine State.keeps_of_parts ?_; dsimp only; refine State.Keeps.ofParts ?_) | split

theorem switchRecord_keeps {s0 : State} {s : State} {cause gap : Nat} {h : Instant} (hs : State.Keeps s0 s) :
    State.Keeps s0 (switchRecord s cause gap h) := by
  unfold switchRecord
  with_reducible repeat' first
    | assumption | apply State.ite_keeps | apply State.modBkp_keeps

theorem takeOver_keeps {s0 : State} {s : State} {cause gap : Nat} (hs : State.Keeps s0 s) :
    State.Keeps s0 (takeOver s cause gap) := by
  unfold takeOver
  with_reducible repeat' first
    | assumption | intro _ | apply State.ite_keeps | apply State.foldl_keeps | apply State.modPair_keeps
    | apply setRole_keeps | apply disarm_keeps | apply channelGo_keeps | apply State.modTxn_keeps
    | apply switchRecord_keeps | apply State.alert_keeps | apply pairRec_keeps | apply trigger_keeps
    | (refine State.keeps_of_parts ?_; dsimp only; refine State.Keeps.ofParts ?_)

theorem takeoverOp_keeps {s0 : State} {gap : Nat} {selfCheckOk : Bool} {s : State} (hs : State.Keeps s0 s) :
    State.Keeps s0 (takeoverOp gap selfCheckOk s) := by
  unfold takeoverOp
  with_reducible repeat' first
    | assumption | apply State.ite_keeps | apply sourceLostOp_keeps | apply pairLost_keeps | apply setRole_keeps
    | apply takeOver_keeps | (refine State.keeps_of_pair (by assumption) ?_)
    | (refine State.keeps_of_parts ?_; dsimp only; refine State.Keeps.ofParts ?_) | split

theorem releaseStopped_keeps {s0 : State} {s : State} {n : Nat} (hs : State.Keeps s0 s) :
    State.Keeps s0 (releaseStopped s n) := by
  unfold releaseStopped
  with_reducible repeat' first
    | assumption | apply State.ite_keeps | apply holdTerminals_keeps | apply State.modCh_keeps

theorem madeReceivedOp_keeps {s0 : State} {s : State} (hs : State.Keeps s0 s) :
    State.Keeps s0 (madeReceivedOp s) := by
  unfold madeReceivedOp
  with_reducible repeat' first
    | assumption | intro _ | apply State.ite_keeps | apply State.foldl_keeps | apply releaseStopped_keeps
    | apply disarm_keeps | apply State.modPair_keeps | apply setRole_keeps | apply pairRec_keeps
    | apply State.alert_keeps | (refine State.keeps_of_pair (by assumption) ?_)
    | (refine State.keeps_of_parts ?_; dsimp only; refine State.Keeps.ofParts ?_) | split

theorem releaseTimeoutOp_keeps {s0 : State} {n : Nat} {s : State} (hs : State.Keeps s0 s) :
    State.Keeps s0 (releaseTimeoutOp n s) := by
  unfold releaseTimeoutOp
  with_reducible repeat' first
    | assumption | apply releaseStopped_keeps

theorem beaconSilenceOp_keeps {s0 : State} {n : Nat} {s : State} (hs : State.Keeps s0 s) :
    State.Keeps s0 (beaconSilenceOp n s) := by
  unfold beaconSilenceOp
  with_reducible repeat' first
    | assumption | apply stopChannel_keeps

theorem pairCmdErr_keeps {s0 : State} {s : State} (hs : State.Keeps s0 s) :
    State.Keeps s0 (pairCmdErr s) := by
  unfold pairCmdErr
  with_reducible repeat' first
    | assumption | apply State.modPair_keeps

theorem swapOp_keeps {s0 : State} {s : State} (hs : State.Keeps s0 s) :
    State.Keeps s0 (swapOp s) := by
  unfold swapOp
  with_reducible repeat' first
    | assumption | apply State.ite_keeps | apply State.modPair_keeps | apply pickTs_keeps | apply pairRec_keeps
    | apply pairCmdErr_keeps

theorem swapYieldOp_keeps {s0 : State} {s : State} (hs : State.Keeps s0 s) :
    State.Keeps s0 (swapYieldOp s) := by
  unfold swapYieldOp
  with_reducible repeat' first
    | assumption | apply State.ite_keeps | apply yieldTo_keeps | (refine State.keeps_of_pair (by assumption) ?_)
    | (refine State.keeps_of_parts ?_; dsimp only; refine State.Keeps.ofParts ?_) | split

theorem swapTimeoutOp_keeps {s0 : State} {s : State} (hs : State.Keeps s0 s) :
    State.Keeps s0 (swapTimeoutOp s) := by
  unfold swapTimeoutOp
  with_reducible repeat' first
    | assumption | apply State.ite_keeps | apply State.modPair_keeps | apply armRelease_keeps | apply busModes_keeps
    | apply pairRec_keeps | (refine State.keeps_of_pair (by assumption) ?_) | apply State.chs_keeps
    | (refine State.keeps_of_parts ?_; dsimp only; refine State.Keeps.ofParts ?_) | split

theorem selftestOp_keeps {s0 : State} {s : State} (hs : State.Keeps s0 s) :
    State.Keeps s0 (selftestOp s) := by
  unfold selftestOp
  with_reducible repeat' first
    | assumption | apply State.ite_keeps | apply State.modPair_keeps | apply pairCmdErr_keeps

theorem ownReport_keeps {s0 : State} {s : State} {hot : Bool} {hubF chP chF : Byte} {faults : Word} (hs : State.Keeps s0 s) :
    State.Keeps s0 (ownReport s hot hubF chP chF faults) := by
  unfold ownReport
  with_reducible repeat' first
    | assumption | apply State.ite_keeps | apply State.modPair_keeps | apply State.tick1_keeps
    | apply State.emit_keeps

theorem selftestDoneOp_keeps {s0 : State} {hubF chP chF : Byte} {faults : Word} {s : State} (hs : State.Keeps s0 s) :
    State.Keeps s0 (selftestDoneOp hubF chP chF faults s) := by
  unfold selftestDoneOp
  with_reducible repeat' first
    | assumption | apply State.ite_keeps | apply ownReport_keeps | apply State.modPair_keeps

theorem healthSendOp_keeps {s0 : State} {s : State} (hs : State.Keeps s0 s) :
    State.Keeps s0 (healthSendOp s) := by
  unfold healthSendOp
  with_reducible repeat' first
    | assumption | apply State.ite_keeps | apply ownReport_keeps | apply State.tick1_keeps

theorem healthReportOp_keeps {s0 : State} {words : List Word} {s : State} (hs : State.Keeps s0 s) :
    State.Keeps s0 (healthReportOp words s) := by
  unfold healthReportOp
  with_reducible repeat' first
    | assumption | apply State.ite_keeps | apply State.modPair_keeps | apply setPartnerFit_keeps
    | apply pickTs_keeps

theorem healthTimeoutOp_keeps {s0 : State} {s : State} (hs : State.Keeps s0 s) :
    State.Keeps s0 (healthTimeoutOp s) := by
  unfold healthTimeoutOp
  with_reducible repeat' first
    | assumption | apply State.ite_keeps | apply setPartnerFit_keeps

theorem resyncDoneOp_keeps {s0 : State} {epoch : Nat} {time : Instant} {s : State} (hs : State.Keeps s0 s) :
    State.Keeps s0 (resyncDoneOp epoch time s) := by
  unfold resyncDoneOp
  with_reducible repeat' first
    | assumption | apply State.ite_keeps | apply State.modWs_keeps | apply setClass_keeps | apply armStep_keeps
    | apply setRole_keeps | apply State.modPair_keeps

theorem linkLostOp_keeps {s0 : State} {n : Nat} {s : State} (hs : State.Keeps s0 s) :
    State.Keeps s0 (linkLostOp n s) := by
  unfold linkLostOp
  with_reducible repeat' first
    | assumption | apply State.ite_keeps | apply State.modCh_keeps | apply setChState_keeps
    | apply State.alert_keeps | apply markStale_keeps | apply channelYield_keeps | apply txnChannelLeft_keeps

theorem linkReturnOp_keeps {s0 : State} {n : Nat} {s : State} (hs : State.Keeps s0 s) :
    State.Keeps s0 (linkReturnOp n s) := by
  unfold linkReturnOp
  with_reducible repeat' first
    | assumption | apply State.ite_keeps | apply State.modCh_keeps

theorem dropOrphans_keeps {s0 : State} {s : State} {n : Nat} (hs : State.Keeps s0 s) :
    State.Keeps s0 (dropOrphans s n) := by
  unfold dropOrphans
  with_reducible repeat' first
    | assumption | intro _ | apply State.ite_keeps | apply State.foldl_keeps | apply withdrawEntry_keeps
    | (refine State.keeps_of_pair (by assumption) ?_)
    | (refine State.keeps_of_parts ?_; dsimp only; refine State.Keeps.ofParts ?_) | split

theorem resendCompleteOp_keeps {s0 : State} {n : Nat} {s : State} (hs : State.Keeps s0 s) :
    State.Keeps s0 (resendCompleteOp n s) := by
  unfold resendCompleteOp
  with_reducible repeat' first
    | assumption | apply State.ite_keeps | apply dropOrphans_keeps | apply releaseRecs_keeps
    | apply setChState_keeps | apply channelOut_keeps | apply trigger_keeps

theorem bkpRec_keeps {s0 : State} {s : State} {i : Nat} {payload : List Byte} (hs : State.Keeps s0 s) :
    State.Keeps s0 (bkpRec s i payload) := by
  unfold bkpRec
  with_reducible repeat' first
    | assumption | apply raise_keeps | apply State.intBit_keeps

theorem prescRuns_keeps {s0 : State} {s : State} (hs : State.Keeps s0 s) :
    State.Keeps s0 (prescRuns s) := by
  unfold prescRuns
  with_reducible repeat' first
    | assumption | apply State.modBkp_keeps | apply State.tick1_keeps

theorem fireAlarm_keeps {s0 : State} {s : State} {i : Nat} {last : Int} {skipped : Bool} (hs : State.Keeps s0 s) :
    State.Keeps s0 (fireAlarm s i last skipped) := by
  unfold fireAlarm
  with_reducible repeat' first
    | assumption | apply State.ite_keeps | apply State.modBkp_keeps | apply bkpRec_keeps

theorem calAdjusted_keeps {s0 : State} {s : State} {old : Cal} (hs : State.Keeps s0 s) :
    State.Keeps s0 (calAdjusted s old) := by
  unfold calAdjusted
  with_reducible repeat' first
    | assumption | intro _ | apply State.foldl_keeps | apply fireAlarm_keeps
    | (refine State.keeps_of_pair (by assumption) ?_)
    | (refine State.keeps_of_parts ?_; dsimp only; refine State.Keeps.ofParts ?_) | split

theorem loadCal_keeps {s0 : State} {s : State} {new : Cal} {cause : Nat} (hs : State.Keeps s0 s) :
    State.Keeps s0 (loadCal s new cause) := by
  unfold loadCal
  with_reducible repeat' first
    | assumption | apply State.ite_keeps | apply State.modBkp_keeps | apply bkpRec_keeps | apply calAdjusted_keeps

theorem calendarSecondOp_keeps {s0 : State} {s : State} (hs : State.Keeps s0 s) :
    State.Keeps s0 (calendarSecondOp s) := by
  unfold calendarSecondOp
  with_reducible repeat' first
    | assumption | intro _ | apply State.ite_keeps | apply State.foldl_keeps | apply State.modBkp_keeps
    | apply fireAlarm_keeps

theorem rtcLoadOp_keeps {s0 : State} {s : State} (hs : State.Keeps s0 s) :
    State.Keeps s0 (rtcLoadOp s) := by
  unfold rtcLoadOp
  with_reducible repeat' first
    | assumption | apply State.ite_keeps | apply State.modBkp_keeps | apply loadCal_keeps

theorem soClearOp_keeps {s0 : State} {s : State} (hs : State.Keeps s0 s) :
    State.Keeps s0 (soClearOp s) := by
  unfold soClearOp
  with_reducible repeat' first
    | assumption | apply State.modBkp_keeps

theorem calendarSyncOp_keeps {s0 : State} {s : State} (hs : State.Keeps s0 s) :
    State.Keeps s0 (calendarSyncOp s) := by
  unfold calendarSyncOp
  with_reducible repeat' first
    | assumption | apply State.ite_keeps | apply loadCal_keeps | apply State.modBkp_keeps
    | (refine State.keeps_of_pair (by assumption) ?_)
    | (refine State.keeps_of_parts ?_; dsimp only; refine State.Keeps.ofParts ?_) | split

theorem calCycleOp_keeps {s0 : State} {s : State} (hs : State.Keeps s0 s) :
    State.Keeps s0 (calCycleOp s) := by
  unfold calCycleOp
  with_reducible repeat' first
    | assumption | apply State.ite_keeps | apply prescRuns_keeps | apply State.modBkp_keeps
    | apply calendarSecondOp_keeps

theorem autoCalOp_keeps {s0 : State} {drift : Int} {s : State} (hs : State.Keeps s0 s) :
    State.Keeps s0 (autoCalOp drift s) := by
  unfold autoCalOp
  with_reducible repeat' first
    | assumption | apply State.ite_keeps | apply State.modBkp_keeps

theorem oscStoppedOp_keeps {s0 : State} {s : State} (hs : State.Keeps s0 s) :
    State.Keeps s0 (oscStoppedOp s) := by
  unfold oscStoppedOp
  with_reducible repeat' first
    | assumption | apply State.ite_keeps | apply State.modBkp_keeps | apply bkpRec_keeps

theorem vbatMeasureOp_keeps {s0 : State} {v : Nat} {s : State} (hs : State.Keeps s0 s) :
    State.Keeps s0 (vbatMeasureOp v s) := by
  unfold vbatMeasureOp
  with_reducible repeat' first
    | assumption | apply State.ite_keeps | apply State.modBkp_keeps | apply bkpRec_keeps

theorem almWritten_keeps {s0 : State} {s : State} {i : Nat} {f : Alarm → Alarm} (hs : State.Keeps s0 s) :
    State.Keeps s0 (almWritten s i f) := by
  unfold almWritten
  with_reducible repeat' first
    | assumption | apply State.modBkp_keeps

theorem backupLoss_keeps {s0 s : State} (hs : State.Keeps s0 s) : State.Keeps s0 (backupLoss s) :=
  ⟨⟨regsOk_filter _ hs.inv.1, hs.inv.2⟩, hs.pending, hs.ident, hs.free, hs.serial, hs.frames, hs.floor, hs.revoked⟩

end Sys2Proof.Machine
end

