-- ==== Sys2Proof/Laws/KeepsStart.lean ====
section
/-! SUPPORT. What every effect keeps (`State.Keeps`), for the vault, starts, the life cycle and updates: one lemma per operation. -/

namespace Sys2Proof.Machine

theorem vaultRec_keeps {s0 : State} {s : State} {i subject : Nat} {payload : List Byte} (hs : State.Keeps s0 s) :
    State.Keeps s0 (vaultRec s i subject payload) := by
  unfold vaultRec
  with_reducible repeat' first
    | assumption | apply raiseBoth_keeps | apply State.intBit_keeps

theorem State.setVslot_keeps {s0 : State} {s : State} {n : Nat} {v : VSlot} (hs : State.Keeps s0 s) :
    State.Keeps s0 (State.setVslot s n v) := by
  unfold State.setVslot
  with_reducible repeat' first
    | assumption | apply State.ite_keeps | apply State.modVlt_keeps

theorem putPending_keeps {s0 : State} {s : State} {slot : Nat} {k : VKey} (hs : State.Keeps s0 s) :
    State.Keeps s0 (putPending s slot k) := by
  unfold putPending
  with_reducible repeat' first
    | assumption | apply State.setVslot_keeps

theorem vGenerate_keeps {s0 : State} {s : State} {o : VOp} (hs : State.Keeps s0 s) :
    State.Keeps s0 (vGenerate s o).1 := by
  unfold vGenerate
  with_reducible repeat' first
    | assumption | apply State.ite_keeps | apply State.iteFst_keeps | apply putPending_keeps
    | apply State.tick1_keeps | (refine State.keeps_of_pair (by assumption) ?_)
    | (refine State.keeps_of_parts ?_; dsimp only; refine State.Keeps.ofParts ?_) | split

theorem vDerive_keeps {s0 : State} {s : State} {o : VOp} (hs : State.Keeps s0 s) :
    State.Keeps s0 (vDerive s o).1 := by
  unfold vDerive
  with_reducible repeat' first
    | assumption | apply State.ite_keeps | apply State.iteFst_keeps | apply putPending_keeps
    | (refine State.keeps_of_pair (by assumption) ?_)
    | (refine State.keeps_of_parts ?_; dsimp only; refine State.Keeps.ofParts ?_) | split

theorem vImport_keeps {s0 : State} {s : State} {o : VOp} (hs : State.Keeps s0 s) :
    State.Keeps s0 (vImport s o).1 := by
  unfold vImport
  with_reducible repeat' first
    | assumption | apply State.ite_keeps | apply State.iteFst_keeps | apply putPending_keeps
    | (refine State.keeps_of_pair (by assumption) ?_)
    | (refine State.keeps_of_parts ?_; dsimp only; refine State.Keeps.ofParts ?_) | split

theorem keyChanged_keeps {s0 : State} {s : State} {slot basin cause affected : Nat} (hs : State.Keeps s0 s) :
    State.Keeps s0 (keyChanged s slot basin cause affected) := by
  unfold keyChanged
  with_reducible repeat' first
    | assumption | apply State.ite_keeps | apply vaultRec_keeps

theorem orphanAll_keeps {s0 : State} {s : State} {ds : List Nat} (hs : State.Keeps s0 s) :
    State.Keeps s0 (orphanAll s ds) := by
  unfold orphanAll
  with_reducible repeat' first
    | assumption | intro _ | apply State.foldl_keeps | apply State.setVslot_keeps | apply keyChanged_keeps

theorem dropPending_keeps {s0 : State} {s : State} {ps : List Nat} (hs : State.Keeps s0 s) :
    State.Keeps s0 (dropPending s ps) := by
  unfold dropPending
  with_reducible repeat' first
    | assumption | intro _ | apply State.foldl_keeps | apply State.setVslot_keeps

theorem vPromote_keeps {s0 : State} {s : State} {o : VOp} (hs : State.Keeps s0 s) :
    State.Keeps s0 (vPromote s o).1 := by
  unfold vPromote
  with_reducible repeat' first
    | assumption | apply State.setVslot_keeps | apply dropPending_keeps | apply orphanAll_keeps
    | apply keyChanged_keeps | (refine State.keeps_of_pair (by assumption) ?_)
    | (refine State.keeps_of_parts ?_; dsimp only; refine State.Keeps.ofParts ?_) | split

theorem vDiscard_keeps {s0 : State} {s : State} {o : VOp} (hs : State.Keeps s0 s) :
    State.Keeps s0 (vDiscard s o).1 := by
  unfold vDiscard
  with_reducible repeat' first
    | assumption | apply State.ite_keeps | apply State.iteFst_keeps | apply State.setVslot_keeps

theorem vInvalidate_keeps {s0 : State} {s : State} {o : VOp} (hs : State.Keeps s0 s) :
    State.Keeps s0 (vInvalidate s o).1 := by
  unfold vInvalidate
  with_reducible repeat' first
    | assumption | intro _ | apply State.foldl_keeps | apply State.foldlFst_keeps | apply dropPending_keeps
    | apply State.setVslot_keeps | apply keyChanged_keeps | (refine State.keeps_of_pair (by assumption) ?_)
    | (refine State.keeps_of_parts ?_; dsimp only; refine State.Keeps.ofParts ?_) | split

theorem vRederive_keeps {s0 : State} {s : State} {o : VOp} (hs : State.Keeps s0 s) :
    State.Keeps s0 (vRederive s o).1 := by
  unfold vRederive
  with_reducible repeat' first
    | assumption | apply State.ite_keeps | apply State.iteFst_keeps | apply putPending_keeps
    | (refine State.keeps_of_pair (by assumption) ?_)
    | (refine State.keeps_of_parts ?_; dsimp only; refine State.Keeps.ofParts ?_) | split

theorem vHmac_keeps {s0 : State} {s : State} {o : VOp} (hs : State.Keeps s0 s) :
    State.Keeps s0 (vHmac s o).1 := by
  unfold vHmac
  with_reducible repeat' first
    | assumption | apply State.modVlt_keeps | (refine State.keeps_of_pair (by assumption) ?_)
    | (refine State.keeps_of_parts ?_; dsimp only; refine State.Keeps.ofParts ?_) | split

theorem vHmacVerify_keeps {s0 : State} {s : State} {o : VOp} (hs : State.Keeps s0 s) :
    State.Keeps s0 (vHmacVerify s o).1 := by
  unfold vHmacVerify
  with_reducible repeat' first
    | assumption | apply State.ite_keeps | apply State.iteFst_keeps
    | (refine State.keeps_of_pair (by assumption) ?_)
    | (refine State.keeps_of_parts ?_; dsimp only; refine State.Keeps.ofParts ?_) | split

theorem vEcdsaVerify_keeps {s0 : State} {s : State} {o : VOp} (hs : State.Keeps s0 s) :
    State.Keeps s0 (vEcdsaVerify s o).1 := by
  unfold vEcdsaVerify
  with_reducible repeat' first
    | assumption | apply State.ite_keeps | apply State.iteFst_keeps
    | (refine State.keeps_of_pair (by assumption) ?_)
    | (refine State.keeps_of_parts ?_; dsimp only; refine State.Keeps.ofParts ?_) | split

theorem vaultRun_keeps {s0 : State} {s : State} {o : VOp} (hs : State.Keeps s0 s) :
    State.Keeps s0 (vaultRun s o).1 := by
  unfold vaultRun
  with_reducible repeat' first
    | assumption | apply State.ite_keeps | apply State.iteFst_keeps | apply vGenerate_keeps | apply vDerive_keeps
    | apply vImport_keeps | apply vPromote_keeps | apply vDiscard_keeps | apply vInvalidate_keeps
    | apply vRederive_keeps | apply vHmac_keeps | apply vHmacVerify_keeps | apply vEcdsaVerify_keeps
    | (refine State.keeps_of_pair (by assumption) ?_)
    | (refine State.keeps_of_parts ?_; dsimp only; refine State.Keeps.ofParts ?_) | split

theorem vaultRefuse_keeps {s0 : State} {s : State} {res : Nat} (hs : State.Keeps s0 s) :
    State.Keeps s0 (vaultRefuse s res) := by
  unfold vaultRefuse
  with_reducible repeat' first
    | assumption | apply State.modVlt_keeps | apply State.intBit_keeps

theorem vaultOp_keeps {s0 : State} {cmd slot : Nat} {s : State} (hs : State.Keeps s0 s) :
    State.Keeps s0 (vaultOp cmd slot s) := by
  unfold vaultOp
  with_reducible repeat' first
    | assumption | apply State.ite_keeps | apply State.modVlt_keeps | apply vaultRefuse_keeps

theorem vaultDone_keeps {s0 : State} {s : State} (hs : State.Keeps s0 s) :
    State.Keeps s0 (vaultDone s) := by
  unfold vaultDone
  with_reducible repeat' first
    | assumption | apply vaultRun_keeps | apply State.modVlt_keeps | apply State.intBit_keeps
    | (refine State.keeps_of_pair (by assumption) ?_)
    | (refine State.keeps_of_parts ?_; dsimp only; refine State.Keeps.ofParts ?_) | split

theorem slotselOp_keeps {s0 : State} {slot : Nat} {s : State} (hs : State.Keeps s0 s) :
    State.Keeps s0 (slotselOp slot s) := by
  unfold slotselOp
  with_reducible repeat' first
    | assumption | apply State.ite_keeps | apply State.setReg_keeps | apply State.modVlt_keeps

theorem journalCloseOp_keeps {s0 : State} {s : State} (hs : State.Keeps s0 s) :
    State.Keeps s0 (journalCloseOp s) := by
  unfold journalCloseOp
  with_reducible repeat' first
    | assumption | apply State.ite_keeps | apply vaultAbort_keeps

theorem makeRoot_keeps {s0 : State} {s : State} (hs : State.Keeps s0 s) :
    State.Keeps s0 (makeRoot s) := by
  unfold makeRoot
  with_reducible repeat' first
    | assumption | apply State.tick1_keeps | apply State.modVlt_keeps | apply State.modBkp_keeps

theorem remeasure_keeps {s0 : State} {s : State} {n : Nat} (hs : State.Keeps s0 s) :
    State.Keeps s0 (remeasure s n) := by
  unfold remeasure
  with_reducible repeat' first
    | assumption | apply State.setVslot_keeps | (refine State.keeps_of_pair (by assumption) ?_)
    | (refine State.keeps_of_parts ?_; dsimp only; refine State.Keeps.ofParts ?_) | split

theorem measureStart_keeps {s0 : State} {s : State} (hs : State.Keeps s0 s) :
    State.Keeps s0 (measureStart s) := by
  unfold measureStart
  with_reducible repeat' first
    | assumption | intro _ | apply State.ite_keeps | apply State.foldl_keeps | apply State.modVlt_keeps
    | apply remeasure_keeps | apply keyChanged_keeps | apply orphanAll_keeps | apply vaultRec_keeps

theorem setVstate_keeps {s0 : State} {s : State} {new cause : Nat} (hs : State.Keeps s0 s) :
    State.Keeps s0 (setVstate s new cause) := by
  unfold setVstate
  with_reducible repeat' first
    | assumption | apply State.ite_keeps | apply vaultRec_keeps | apply State.modVlt_keeps

theorem tamperResponse_keeps {s0 : State} {s : State} {i : Nat} {c : LoopSense} (hs : State.Keeps s0 s) :
    State.Keeps s0 (tamperResponse s i c) := by
  unfold tamperResponse
  with_reducible repeat' first
    | assumption | intro _ | apply State.ite_keeps | apply State.foldl_keeps | apply prescRuns_keeps
    | apply State.modBkp_keeps | apply vaultAbort_keeps | apply vaultRec_keeps | apply State.alert_keeps
    | apply setVstate_keeps | apply State.modVlt_keeps

theorem sampleLoop_keeps {s0 : State} {s : State} {i : Nat} {c : LoopSense} (hs : State.Keeps s0 s) :
    State.Keeps s0 (sampleLoop s i c) := by
  unfold sampleLoop
  with_reducible repeat' first
    | assumption | apply State.ite_keeps | apply State.modBkp_keeps | apply tamperResponse_keeps

theorem tamperSampleOp_keeps {s0 : State} {c0 c1 : LoopSense} {s : State} (hs : State.Keeps s0 s) :
    State.Keeps s0 (tamperSampleOp c0 c1 s) := by
  unfold tamperSampleOp
  with_reducible repeat' first
    | assumption | apply sampleLoop_keeps

theorem tamperModeOp_keeps {s0 : State} {data : Word} {s : State} (hs : State.Keeps s0 s) :
    State.Keeps s0 (tamperModeOp data s) := by
  unfold tamperModeOp
  with_reducible repeat' first
    | assumption | apply State.ite_keeps | apply State.modBkp_keeps

/-- A reset leaves the fuses. -/
theorem wipedUpd_fuses (s : State) :
    (wipedUpd s).floor = s.upd.floor ∧ (wipedUpd s).revoked = s.upd.revoked := by
  unfold wipedUpd
  dsimp only
  split
  · exact ⟨rfl, rfl⟩
  · split <;> exact ⟨rfl, rfl⟩

theorem wiped_keeps {s0 s : State} {kind : Nat} (hs : State.Keeps s0 s) : State.Keeps s0 (wiped s kind) := by
  refine ⟨⟨regsOk_filter _ hs.inv.1, ?_⟩, hs.pending, hs.ident, Nat.le_succ_of_le hs.free, hs.serial, hs.frames,
    Nat.le_trans hs.floor (Nat.le_of_eq (wipedUpd_fuses s).1.symm), (wipedUpd_fuses s).2.trans hs.revoked⟩
  have h := hs.inv.2
  simp only [State.shaped, Bool.and_eq_true, beq_iff_eq] at h
  simp [State.shaped, wiped, State.reset, h]

theorem quarantine_keeps {s0 : State} {s : State} {cause : Nat} (hs : State.Keeps s0 s) :
    State.Keeps s0 (quarantine s cause) := by
  unfold quarantine
  with_reducible repeat' first
    | assumption | apply State.ite_keeps | apply State.modPwr_keeps | apply State.alert_keeps
    | (refine State.keeps_of_parts ?_; dsimp only; refine State.Keeps.ofParts ?_)

theorem bootSlot_keeps {s0 : State} {s : State} (hs : State.Keeps s0 s) :
    State.Keeps s0 (bootSlot s) := by
  unfold bootSlot
  with_reducible repeat' first
    | assumption | apply State.ite_keeps | apply State.modUpd_keeps | exact ⟨Nat.le_refl _, rfl⟩
    | (refine State.keeps_of_pair (by assumption) ?_)
    | (refine State.keeps_of_parts ?_; dsimp only; refine State.Keeps.ofParts ?_) | split

theorem tamperAtStart_keeps {s0 : State} {s : State} {loops : BitVec 2} (hs : State.Keeps s0 s) :
    State.Keeps s0 (tamperAtStart s loops) := by
  unfold tamperAtStart
  with_reducible repeat' first
    | assumption | intro _ | apply State.ite_keeps | apply State.foldl_keeps | apply tamperResponse_keeps
    | apply State.modBkp_keeps

theorem openVault_keeps {s0 : State} {s : State} (hs : State.Keeps s0 s) :
    State.Keeps s0 (openVault s) := by
  unfold openVault
  with_reducible repeat' first
    | assumption | apply State.ite_keeps | apply makeRoot_keeps | apply State.modVlt_keeps | apply setVstate_keeps
    | apply measureStart_keeps | (refine State.keeps_of_parts ?_; dsimp only; refine State.Keeps.ofParts ?_)

theorem occupySlots_keeps {s0 : State} {s : State} (hs : State.Keeps s0 s) :
    State.Keeps s0 (occupySlots s) := by
  unfold occupySlots
  with_reducible repeat' first
    | assumption | intro _ | apply State.foldl_keeps | apply occupySlot_keeps

theorem trainChannels_keeps {s0 : State} {s : State} (hs : State.Keeps s0 s) :
    State.Keeps s0 (trainChannels s) := by
  unfold trainChannels
  with_reducible repeat' first
    | assumption | intro _ | apply State.ite_keeps | apply State.foldl_keeps | apply State.modCh_keeps
    | apply State.tick1_keeps

theorem loadTime_keeps {s0 : State} {s : State} (hs : State.Keeps s0 s) :
    State.Keeps s0 (loadTime s) := by
  unfold loadTime
  with_reducible repeat' first
    | assumption | apply State.ite_keeps | apply prescRuns_keeps | apply timeGained_keeps
    | apply State.modTime_keeps

theorem stopsOutOfService_keeps {s0 : State} {s : State} (hs : State.Keeps s0 s) :
    State.Keeps s0 (stopsOutOfService s) := by
  unfold stopsOutOfService
  with_reducible repeat' first
    | assumption | intro _ | apply State.ite_keeps | apply State.foldl_keeps | apply applyAllSafe_keeps
    | apply setChState_keeps | apply State.modWs_keeps

theorem startUp_keeps {s0 : State} {s : State} {backupLost : Bool} {loops : BitVec 2} {rngOk : Bool} (hs : State.Keeps s0 s) :
    State.Keeps s0 (startUp s backupLost loops rngOk) := by
  unfold startUp
  with_reducible repeat' first
    | assumption | apply State.ite_keeps | apply State.modPwr_keeps | apply State.modWs_keeps
    | apply backupLoss_keeps | apply State.alert_keeps | apply setVstate_keeps | apply tamperAtStart_keeps
    | apply bootSlot_keeps | apply quarantine_keeps | apply trainChannels_keeps | apply stopsOutOfService_keeps
    | apply occupySlots_keeps | apply openVault_keeps | apply ptpPorts_keeps | apply loadTime_keeps
    | (refine State.keeps_of_parts ?_; dsimp only; refine State.Keeps.ofParts ?_)
    | (refine State.keeps_of_parts ?_; dsimp only; refine KeepsParts.more (State.Keeps.ofParts ?_) (Nat.le_add_right _ _) (Nat.le_refl _) (Nat.le_refl _))

theorem restart_keeps {s0 : State} {s : State} {kind : Nat} (hs : State.Keeps s0 s) :
    State.Keeps s0 (restart s kind) := by
  unfold restart
  with_reducible repeat' first
    | assumption | intro _ | apply State.foldl_keeps | apply wiped_keeps | apply startUp_keeps
    | apply State.tick1_keeps

theorem wipePersisted_keeps {s0 s : State} (hs : State.Keeps s0 s) : State.Keeps s0 (wipePersisted s) := by
  refine ⟨⟨hs.inv.1, ?_⟩, hs.pending, hs.ident, hs.free, hs.serial, hs.frames, hs.floor, hs.revoked⟩
  have h := hs.inv.2
  simp only [State.shaped, Bool.and_eq_true, beq_iff_eq] at h
  simp [State.shaped, wipePersisted, State.modWs, State.modUpd, State.modBkp, h]

theorem lcRun_keeps {s0 : State} {cmd : Nat} {s : State} (hs : State.Keeps s0 s) :
    State.Keeps s0 (lcRun cmd s) := by
  unfold lcRun
  with_reducible repeat' first
    | assumption | apply State.ite_keeps | apply pairLost_keeps | apply wipePersisted_keeps
    | apply State.modVlt_keeps | apply State.modBkp_keeps | apply makeRoot_keeps | apply restart_keeps
    | (refine State.keeps_of_pair (by assumption) ?_)
    | (refine State.keeps_of_parts ?_; dsimp only; refine State.Keeps.ofParts ?_) | split

theorem lcOp_keeps {s0 : State} {cmd : Nat} {key : Byte} {confirm : BitVec 16} {s : State} (hs : State.Keeps s0 s) :
    State.Keeps s0 (lcOp cmd key confirm s) := by
  unfold lcOp
  with_reducible repeat' first
    | assumption | apply State.ite_keeps | apply lcRun_keeps
    | (refine State.keeps_of_parts ?_; dsimp only; refine State.Keeps.ofParts ?_)

theorem vaultOpCompleteOp_keeps {s0 : State} {s : State} (hs : State.Keeps s0 s) :
    State.Keeps s0 (vaultOpCompleteOp s) := by
  unfold vaultOpCompleteOp
  with_reducible repeat' first
    | assumption | apply vaultDone_keeps | apply lcRun_keeps | (refine State.keeps_of_pair (by assumption) ?_)
    | (refine State.keeps_of_parts ?_; dsimp only; refine State.Keeps.ofParts ?_) | split

theorem releaseOp_keeps {s0 : State} {key : Byte} {s : State} (hs : State.Keeps s0 s) :
    State.Keeps s0 (releaseOp key s) := by
  unfold releaseOp
  with_reducible repeat' first
    | assumption | apply State.ite_keeps | apply restart_keeps | apply State.modBkp_keeps
    | (refine State.keeps_of_parts ?_; dsimp only; refine State.Keeps.ofParts ?_)

theorem updResult_keeps {s0 : State} {s : State} {r : Nat} (hs : State.Keeps s0 s) :
    State.Keeps s0 (updResult s r) := by
  unfold updResult
  with_reducible repeat' first
    | assumption | apply State.modUpd_keeps | exact ⟨Nat.le_refl _, rfl⟩

theorem updFreeResult_keeps {s0 : State} {s : State} (hs : State.Keeps s0 s) :
    State.Keeps s0 (updFreeResult s) := by
  unfold updFreeResult
  with_reducible repeat' first
    | assumption | apply updResult_keeps | apply State.tick1_keeps

theorem loadOp_keeps {s0 : State} {bytes : List Byte} {s : State} (hs : State.Keeps s0 s) :
    State.Keeps s0 (loadOp bytes s) := by
  unfold loadOp
  with_reducible repeat' first
    | assumption | apply State.ite_keeps | apply updFreeResult_keeps | apply takeHeader_keeps
    | apply updResult_keeps | apply takeBody_keeps

theorem abortUpd_keeps {s0 : State} {s : State} (hs : State.Keeps s0 s) :
    State.Keeps s0 (abortUpd s) := by
  unfold abortUpd
  with_reducible repeat' first
    | assumption | apply updEnds_keeps | apply State.tick1_keeps

theorem updateAbortOp_keeps {s0 : State} {s : State} (hs : State.Keeps s0 s) :
    State.Keeps s0 (updateAbortOp s) := by
  unfold updateAbortOp
  with_reducible repeat' first
    | assumption | apply State.ite_keeps | apply abortUpd_keeps | apply updResult_keeps

theorem updAck_keeps {s0 : State} {s : State} {port res : Nat} {seq : BitVec 16} (hs : State.Keeps s0 s) :
    State.Keeps s0 (updAck s port res seq) := by
  unfold updAck
  with_reducible repeat' first
    | assumption | apply State.ite_keeps | apply State.emit_keeps

theorem updateHeaderOp_keeps {s0 : State} {port : Nat} {mac : BitVec 48} {seq : BitVec 16} {bytes : List Byte} {s : State} (hs : State.Keeps s0 s) :
    State.Keeps s0 (updateHeaderOp port mac seq bytes s) := by
  unfold updateHeaderOp
  with_reducible repeat' first
    | assumption | apply State.ite_keeps | apply updAck_keeps | apply takeHeader_keeps

theorem updateChunkOp_keeps {s0 : State} {port : Nat} {mac : BitVec 48} {seq : BitVec 16} {offset : Nat} {bytes : List Byte} {s : State} (hs : State.Keeps s0 s) :
    State.Keeps s0 (updateChunkOp port mac seq offset bytes s) := by
  unfold updateChunkOp
  with_reducible repeat' first
    | assumption | apply State.ite_keeps | apply updAck_keeps | apply takeBody_keeps

theorem updateAbortFrameOp_keeps {s0 : State} {port : Nat} {mac : BitVec 48} {seq : BitVec 16} {s : State} (hs : State.Keeps s0 s) :
    State.Keeps s0 (updateAbortFrameOp port mac seq s) := by
  unfold updateAbortFrameOp
  with_reducible repeat' first
    | assumption | apply State.ite_keeps | apply updAck_keeps | apply abortUpd_keeps

theorem stagingVerifiedOp_keeps {s0 : State} {s : State} (hs : State.Keeps s0 s) :
    State.Keeps s0 (stagingVerifiedOp s) := by
  unfold stagingVerifiedOp
  with_reducible repeat' first
    | assumption | apply State.ite_keeps | apply updEnds_keeps

theorem stagingTimeoutOp_keeps {s0 : State} {s : State} (hs : State.Keeps s0 s) :
    State.Keeps s0 (stagingTimeoutOp s) := by
  unfold stagingTimeoutOp
  with_reducible repeat' first
    | assumption | apply State.ite_keeps | apply updEnds_keeps

theorem activateOp_keeps {s0 : State} {target : BitVec 2} {s : State} (hs : State.Keeps s0 s) :
    State.Keeps s0 (activateOp target s) := by
  unfold activateOp
  with_reducible repeat' first
    | assumption | apply State.ite_keeps | apply updResult_keeps | apply State.modUpd_keeps
    | apply State.mirror_keeps | exact ⟨Nat.le_refl _, rfl⟩

theorem disarmOp_keeps {s0 : State} {s : State} (hs : State.Keeps s0 s) :
    State.Keeps s0 (disarmOp s) := by
  unfold disarmOp
  with_reducible repeat' first
    | assumption | apply State.ite_keeps | apply disarm_keeps | apply updResult_keeps

theorem copyStaged_keeps {s0 : State} {s : State} (hs : State.Keeps s0 s) :
    State.Keeps s0 (copyStaged s) := by
  unfold copyStaged
  with_reducible repeat' first
    | assumption | apply State.ite_keeps | apply State.modUpd_keeps | exact ⟨Nat.le_refl _, rfl⟩

theorem plannedReset_keeps {s0 : State} {s : State} {copy : Bool} (hs : State.Keeps s0 s) :
    State.Keeps s0 (plannedReset s copy) := by
  unfold plannedReset
  with_reducible repeat' first
    | assumption | intro _ | apply State.ite_keeps | apply State.foldl_keeps | apply guardHoldOp_keeps
    | apply copyStaged_keeps | apply restart_keeps | apply State.modUpd_keeps | apply State.modPwr_keeps
    | exact ⟨Nat.le_refl _, rfl⟩

theorem plannedRestartOp_keeps {s0 : State} {s : State} (hs : State.Keeps s0 s) :
    State.Keeps s0 (plannedRestartOp s) := by
  unfold plannedRestartOp
  with_reducible repeat' first
    | assumption | apply State.ite_keeps | apply State.modUpd_keeps | apply plannedReset_keeps
    | exact ⟨Nat.le_refl _, rfl⟩

theorem confirmed_keeps {s0 : State} {s : State} (hs : State.Keeps s0 s) :
    State.Keeps s0 (confirmed s) := by
  unfold confirmed
  with_reducible repeat' first
    | assumption | apply State.ite_keeps | apply updRec_keeps | apply State.modUpd_keeps
    | exact ⟨Nat.le_refl _, rfl⟩ | exact ⟨Nat.le_max_left _ _, rfl⟩

theorem confirmOp_keeps {s0 : State} {s : State} (hs : State.Keeps s0 s) :
    State.Keeps s0 (confirmOp s) := by
  unfold confirmOp
  with_reducible repeat' first
    | assumption | apply State.ite_keeps | apply confirmed_keeps | apply updResult_keeps

theorem autoConfirmOp_keeps {s0 : State} {s : State} (hs : State.Keeps s0 s) :
    State.Keeps s0 (autoConfirmOp s) := by
  unfold autoConfirmOp
  with_reducible repeat' first
    | assumption | apply State.ite_keeps | apply confirmed_keeps

theorem revertOp_keeps {s0 : State} {s : State} (hs : State.Keeps s0 s) :
    State.Keeps s0 (revertOp s) := by
  unfold revertOp
  with_reducible repeat' first
    | assumption | apply State.ite_keeps | apply plannedReset_keeps | apply State.modUpd_keeps
    | apply updResult_keeps | exact ⟨Nat.le_refl _, rfl⟩

theorem pushOp_keeps {s0 : State} {s : State} (hs : State.Keeps s0 s) :
    State.Keeps s0 (pushOp s) := by
  unfold pushOp
  with_reducible repeat' first
    | assumption | apply State.ite_keeps | apply State.modUpd_keeps | apply State.mirror_keeps
    | apply updResult_keeps | exact ⟨Nat.le_refl _, rfl⟩

end Sys2Proof.Machine
end

