-- ==== Sys2Proof/Laws/KeepsHost.lean ====
section
/-! SUPPORT. What every effect keeps (`State.Keeps`), for the host port, power and the registers: one lemma per operation. -/

namespace Sys2Proof.Machine

theorem txnRegsReset_keeps {s0 : State} {s : State} {fn : Nat} (hs : State.Keeps s0 s) :
    State.Keeps s0 (txnRegsReset s fn) := by
  unfold txnRegsReset
  with_reducible repeat' first
    | assumption | apply State.regsFilter_keeps

theorem ringReset_keeps {s0 : State} {s : State} {k : Nat} (hs : State.Keeps s0 s) :
    State.Keeps s0 (ringReset s k) := by
  unfold ringReset
  with_reducible repeat' first
    | assumption | apply State.setReg_keeps
    | (refine State.keeps_of_parts ?_; dsimp only; refine State.Keeps.ofParts ?_)

theorem evReset_keeps {s0 : State} {s : State} {b : Nat} (hs : State.Keeps s0 s) :
    State.Keeps s0 (evReset s b) := by
  unfold evReset
  with_reducible repeat' first
    | assumption | apply State.setReg_keeps | apply State.modEv_keeps

theorem fnReset_keeps {s0 : State} {s : State} {b : Nat} {busy : Bool} (hs : State.Keeps s0 s) :
    State.Keeps s0 (fnReset s b busy) := by
  unfold fnReset
  with_reducible repeat' first
    | assumption | intro _ | apply State.foldl_keeps | apply ringReset_keeps | apply txnRegsReset_keeps
    | apply txnFnReset_keeps | apply evReset_keeps | apply State.modFn_keeps

theorem flrOp_keeps {s0 : State} {b : Nat} {s : State} (hs : State.Keeps s0 s) :
    State.Keeps s0 (flrOp b s) := by
  unfold flrOp
  with_reducible repeat' first
    | assumption | apply State.ite_keeps | apply trigger_keeps | apply fnReset_keeps

theorem vfsOff_keeps {s0 : State} {s : State} (hs : State.Keeps s0 s) :
    State.Keeps s0 (vfsOff s) := by
  unfold vfsOff
  with_reducible repeat' first
    | assumption | intro _ | apply State.foldl_keeps | apply fnReset_keeps
    | (refine State.keeps_of_parts ?_; dsimp only; refine State.Keeps.ofParts ?_)

theorem pfReset_keeps {s0 : State} {s : State} {busy : Bool} (hs : State.Keeps s0 s) :
    State.Keeps s0 (pfReset s busy) := by
  unfold pfReset
  with_reducible repeat' first
    | assumption | apply State.ite_keeps | apply fnReset_keeps | apply vfsOff_keeps | apply State.setReg_keeps
    | apply trigger_keeps | apply State.alert_keeps
    | (refine State.keeps_of_parts ?_; dsimp only; refine State.Keeps.ofParts ?_)

theorem pfFlrOp_keeps {s0 : State} {s : State} (hs : State.Keeps s0 s) :
    State.Keeps s0 (pfFlrOp s) := by
  unfold pfFlrOp
  with_reducible repeat' first
    | assumption | apply State.ite_keeps | apply pfReset_keeps

theorem flrDoneOp_keeps {s0 : State} {fn : Nat} {s : State} (hs : State.Keeps s0 s) :
    State.Keeps s0 (flrDoneOp fn s) := by
  unfold flrDoneOp
  with_reducible repeat' first
    | assumption | apply State.modFn_keeps

theorem hostPortResetOp_keeps {s0 : State} {cause : HostResetCause} {s : State} (hs : State.Keeps s0 s) :
    State.Keeps s0 (hostPortResetOp cause s) := by
  unfold hostPortResetOp
  with_reducible repeat' first
    | assumption | apply State.ite_keeps | apply pfReset_keeps | apply State.alert_keeps
    | (refine State.keeps_of_parts ?_; dsimp only; refine State.Keeps.ofParts ?_)

theorem perstReleaseOp_keeps {s0 : State} {s : State} (hs : State.Keeps s0 s) :
    State.Keeps s0 (perstReleaseOp s) := by
  unfold perstReleaseOp
  with_reducible repeat' first
    | assumption | (refine State.keeps_of_parts ?_; dsimp only; refine State.Keeps.ofParts ?_)

theorem endpointReadyOp_keeps {s0 : State} {s : State} (hs : State.Keeps s0 s) :
    State.Keeps s0 (endpointReadyOp s) := by
  unfold endpointReadyOp
  with_reducible repeat' first
    | assumption | apply State.ite_keeps | apply State.modPwr_keeps
    | (refine State.keeps_of_parts ?_; dsimp only; refine State.Keeps.ofParts ?_)

theorem pcieLinkUpOp_keeps {s0 : State} {speed width : Nat} {s : State} (hs : State.Keeps s0 s) :
    State.Keeps s0 (pcieLinkUpOp speed width s) := by
  unfold pcieLinkUpOp
  with_reducible repeat' first
    | assumption | apply State.ite_keeps
    | (refine State.keeps_of_parts ?_; dsimp only; refine State.Keeps.ofParts ?_)

theorem vfEnableOp_keeps {s0 : State} {en : Bool} {num : Nat} {s : State} (hs : State.Keeps s0 s) :
    State.Keeps s0 (vfEnableOp en num s) := by
  unfold vfEnableOp
  with_reducible repeat' first
    | assumption | apply State.ite_keeps | apply vfsOff_keeps | apply trigger_keeps
    | (refine State.keeps_of_parts ?_; dsimp only; refine State.Keeps.ofParts ?_)

theorem staleIdx_keeps {s0 : State} {s : State} {b : Nat} (hs : State.Keeps s0 s) :
    State.Keeps s0 (staleIdx s b) := by
  unfold staleIdx
  with_reducible repeat' first
    | assumption | intro _ | apply State.ite_keeps | apply State.foldl_keeps | apply writeIdx_keeps
    | apply State.modRing_keeps | apply writeEvIdx_keeps | apply State.modEv_keeps

theorem dmaResumes_keeps {s0 : State} {s : State} {b : Nat} (hs : State.Keeps s0 s) :
    State.Keeps s0 (dmaResumes s b) := by
  unfold dmaResumes
  with_reducible repeat' first
    | assumption | intro _ | apply State.ite_keeps | apply State.foldl_keeps | apply flushRing_keeps
    | apply State.flushEv_keeps | apply staleIdx_keeps | apply sendPending_keeps

theorem ifConfig_keeps {s0 : State} {b off : Nat} {f : State → State} {s : State} (hf : ∀ x : State, State.Keeps s0 x → State.Keeps s0 (f x)) (hs : State.Keeps s0 s) :
    State.Keeps s0 (ifConfig b off f s) := by
  unfold ifConfig
  with_reducible repeat' first
    | assumption | intro _ | apply State.ite_keeps | apply hf | apply State.emit_keeps

theorem busMasterOp_keeps {s0 : State} {b : Nat} {bme d3hot : Bool} {s : State} (hs : State.Keeps s0 s) :
    State.Keeps s0 (busMasterOp b bme d3hot s) := by
  unfold busMasterOp
  with_reducible repeat' first
    | assumption | apply State.ite_keeps | apply State.modFn_keeps | apply dmaResumes_keeps

theorem msixUnmaskOp_keeps {s0 : State} {b : Nat} {vector : Option Nat} {s : State} (hs : State.Keeps s0 s) :
    State.Keeps s0 (msixUnmaskOp b vector s) := by
  unfold msixUnmaskOp
  with_reducible repeat' first
    | assumption | apply State.ite_keeps | apply State.modFn_keeps | apply sendPending_keeps

theorem logAer_keeps {s0 : State} {s : State} {b : Nat} {k : AerKind} (hs : State.Keeps s0 s) :
    State.Keeps s0 (logAer s b k) := by
  unfold logAer
  with_reducible repeat' first
    | assumption | apply State.ite_keeps | apply State.modFn_keeps

theorem unsupportedRequest_keeps {s0 : State} {s : State} {b off : Nat} {posted : Bool} (hs : State.Keeps s0 s) :
    State.Keeps s0 (unsupportedRequest s b off posted) := by
  unfold unsupportedRequest
  with_reducible repeat' first
    | assumption | apply State.ite_keeps | apply logAer_keeps | apply State.emit_keeps

theorem ifMse_keeps {s0 : State} {b off : Nat} {posted : Bool} {f : State → State} {s : State} (hf : ∀ x : State, State.Keeps s0 x → State.Keeps s0 (f x)) (hs : State.Keeps s0 s) :
    State.Keeps s0 (ifMse b off posted f s) := by
  unfold ifMse
  with_reducible repeat' first
    | assumption | intro _ | apply State.ite_keeps | apply hf | apply unsupportedRequest_keeps

theorem countCorr_keeps {s0 : State} {s : State} (hs : State.Keeps s0 s) :
    State.Keeps s0 (countCorr s) := by
  unfold countCorr
  with_reducible repeat' first
    | assumption | (refine State.keeps_of_parts ?_; dsimp only; refine State.Keeps.ofParts ?_)

theorem ringFails_keeps {s0 : State} {s : State} {b : Nat} {ring : Option Nat} {chain : List (BitVec 512)} {internal : Bool} (hs : State.Keeps s0 s) :
    State.Keeps s0 (ringFails s b ring chain internal) := by
  unfold ringFails
  with_reducible repeat' first
    | assumption | apply State.ite_keeps | apply haltRing_keeps | (refine State.keeps_of_pair (by assumption) ?_)
    | (refine State.keeps_of_parts ?_; dsimp only; refine State.Keeps.ofParts ?_) | split

theorem tlpErrorOp_keeps {s0 : State} {e : TlpError} {b : Nat} {ring : Option Nat} {chain : List (BitVec 512)} {s : State} (hs : State.Keeps s0 s) :
    State.Keeps s0 (tlpErrorOp e b ring chain s) := by
  unfold tlpErrorOp
  with_reducible repeat' first
    | assumption | apply countCorr_keeps | apply logAer_keeps | apply ringFails_keeps
    | (refine State.keeps_of_pair (by assumption) ?_)
    | (refine State.keeps_of_parts ?_; dsimp only; refine State.Keeps.ofParts ?_) | split

theorem completionTimeoutOp_keeps {s0 : State} {b r : Nat} {chain : List (BitVec 512)} {s : State} (hs : State.Keeps s0 s) :
    State.Keeps s0 (completionTimeoutOp b r chain s) := by
  unfold completionTimeoutOp
  with_reducible repeat' first
    | assumption | apply ringFails_keeps | apply logAer_keeps

theorem dmaReadFailureOp_keeps {s0 : State} {b r : Nat} {chain : List (BitVec 512)} {s : State} (hs : State.Keeps s0 s) :
    State.Keeps s0 (dmaReadFailureOp b r chain s) := by
  unfold dmaReadFailureOp
  with_reducible repeat' first
    | assumption | apply ringFails_keeps

theorem bufferErrorOp_keeps {s0 : State} {multi : Bool} {b : Nat} {ring : Option Nat} {chain : List (BitVec 512)} {s : State} (hs : State.Keeps s0 s) :
    State.Keeps s0 (bufferErrorOp multi b ring chain s) := by
  unfold bufferErrorOp
  with_reducible repeat' first
    | assumption | apply State.ite_keeps | apply ringFails_keeps | apply logAer_keeps | apply countCorr_keeps

theorem ifSmbus_keeps {s0 : State} {addr : Nat} {f : State → State} {s : State} (hf : ∀ x : State, State.Keeps s0 x → State.Keeps s0 (f x)) (hs : State.Keeps s0 s) :
    State.Keeps s0 (ifSmbus addr f s) := by
  unfold ifSmbus
  with_reducible repeat' first
    | assumption | intro _ | apply State.ite_keeps | apply hf

theorem smbusAnswer_keeps {s0 : State} {s : State} {code : Nat} {block pec : Bool} {data : List Byte} (hs : State.Keeps s0 s) :
    State.Keeps s0 (smbusAnswer s code block pec data) := by
  unfold smbusAnswer
  with_reducible repeat' first
    | assumption | apply State.ite_keeps | apply State.emit_keeps

theorem smbusIdentOp_keeps {s0 : State} {pec : Bool} {s : State} (hs : State.Keeps s0 s) :
    State.Keeps s0 (smbusIdentOp pec s) := by
  unfold smbusIdentOp
  with_reducible repeat' first
    | assumption | apply smbusAnswer_keeps

theorem smbusHealthOp_keeps {s0 : State} {pec : Bool} {s : State} (hs : State.Keeps s0 s) :
    State.Keeps s0 (smbusHealthOp pec s) := by
  unfold smbusHealthOp
  with_reducible repeat' first
    | assumption | apply smbusAnswer_keeps | apply State.tick1_keeps

theorem smbusReadAlertOp_keeps {s0 : State} {pec : Bool} {s : State} (hs : State.Keeps s0 s) :
    State.Keeps s0 (smbusReadAlertOp pec s) := by
  unfold smbusReadAlertOp
  with_reducible repeat' first
    | assumption | apply smbusAnswer_keeps

theorem smbusClearAlertOp_keeps {s0 : State} {bits : BitVec 16} {s : State} (hs : State.Keeps s0 s) :
    State.Keeps s0 (smbusClearAlertOp bits s) := by
  unfold smbusClearAlertOp
  with_reducible repeat' first
    | assumption | apply clearAlert_keeps

theorem dieTempOp_keeps {s0 : State} {s : State} (hs : State.Keeps s0 s) :
    State.Keeps s0 (dieTempOp s) := by
  unfold dieTempOp
  with_reducible repeat' first
    | assumption | apply State.alert_keeps

theorem memErrorOp_keeps {s0 : State} {s : State} (hs : State.Keeps s0 s) :
    State.Keeps s0 (memErrorOp s) := by
  unfold memErrorOp
  with_reducible repeat' first
    | assumption | apply yieldTo_keeps | apply State.alert_keeps | apply State.modPair_keeps

theorem usbVbusOp_keeps {s0 : State} {above : Bool} {s : State} (hs : State.Keeps s0 s) :
    State.Keeps s0 (usbVbusOp above s) := by
  unfold usbVbusOp
  with_reducible repeat' first
    | assumption | (refine State.keeps_of_parts ?_; dsimp only; refine State.Keeps.ofParts ?_)

theorem vinGoodOp_keeps {s0 : State} {backupLost : Bool} {loops : BitVec 2} {rngOk : Bool} {s : State} (hs : State.Keeps s0 s) :
    State.Keeps s0 (vinGoodOp backupLost loops rngOk s) := by
  unfold vinGoodOp
  with_reducible repeat' first
    | assumption | apply State.ite_keeps | apply startUp_keeps | apply wiped_keeps | apply State.modPwr_keeps

theorem channelServes_keeps {s0 : State} {s : State} {n : Nat} (hs : State.Keeps s0 s) :
    State.Keeps s0 (channelServes s n) := by
  unfold channelServes
  with_reducible repeat' first
    | assumption | apply State.ite_keeps | apply guardKickOp_keeps | apply setChState_keeps

theorem pointServiceOp_keeps {s0 : State} {s : State} (hs : State.Keeps s0 s) :
    State.Keeps s0 (pointServiceOp s) := by
  unfold pointServiceOp
  with_reducible repeat' first
    | assumption | intro _ | apply State.ite_keeps | apply State.foldl_keeps | apply State.modPwr_keeps
    | apply channelServes_keeps | apply ringsServe_keeps | apply beginService_keeps | apply applyPlan_keeps

theorem txnsLostAtWarning_keeps {s0 : State} {s : State} (hs : State.Keeps s0 s) :
    State.Keeps s0 (txnsLostAtWarning s) := by
  unfold txnsLostAtWarning
  with_reducible repeat' first
    | assumption | intro _ | apply State.ite_keeps | apply State.foldl_keeps | apply State.modPwr_keeps
    | apply loseTxn_keeps | apply State.modTxn_keeps

theorem powerWarningOp_keeps {s0 : State} {s : State} (hs : State.Keeps s0 s) :
    State.Keeps s0 (powerWarningOp s) := by
  unfold powerWarningOp
  with_reducible repeat' first
    | assumption | apply State.ite_keeps | apply State.modPwr_keeps | apply yieldTo_keeps | apply State.alert_keeps
    | apply disarm_keeps | apply txnsLostAtWarning_keeps

theorem powerFreezeOp_keeps {s0 : State} {s : State} (hs : State.Keeps s0 s) :
    State.Keeps s0 (powerFreezeOp s) := by
  unfold powerFreezeOp
  with_reducible repeat' first
    | assumption | apply State.ite_keeps | apply State.modPwr_keeps

theorem powerRecordOp_keeps {s0 : State} {s : State} (hs : State.Keeps s0 s) :
    State.Keeps s0 (powerRecordOp s) := by
  unfold powerRecordOp
  with_reducible repeat' first
    | assumption | apply State.ite_keeps | apply State.modPwr_keeps | apply restart_keeps

theorem vinCollapseOp_keeps {s0 : State} {s : State} (hs : State.Keeps s0 s) :
    State.Keeps s0 (vinCollapseOp s) := by
  unfold vinCollapseOp
  with_reducible repeat' first
    | assumption | apply State.ite_keeps | apply wiped_keeps | apply State.modPwr_keeps
    | (refine State.keeps_of_parts ?_; dsimp only; refine State.Keeps.ofParts ?_)

theorem vinReturnOp_keeps {s0 : State} {s : State} (hs : State.Keeps s0 s) :
    State.Keeps s0 (vinReturnOp s) := by
  unfold vinReturnOp
  with_reducible repeat' first
    | assumption | apply State.ite_keeps | apply State.modPwr_keeps | apply restart_keeps

theorem warmOp_keeps {s0 : State} {key : Byte} {s : State} (hs : State.Keeps s0 s) :
    State.Keeps s0 (warmOp key s) := by
  unfold warmOp
  with_reducible repeat' first
    | assumption | apply State.ite_keeps | apply restart_keeps

theorem watchdogOp_keeps {s0 : State} {s : State} (hs : State.Keeps s0 s) :
    State.Keeps s0 (watchdogOp s) := by
  unfold watchdogOp
  with_reducible repeat' first
    | assumption | apply State.ite_keeps | apply restart_keeps | apply yieldTo_keeps

theorem channelRestartOp_keeps {s0 : State} {n : Nat} {key : Byte} {s : State} (hs : State.Keeps s0 s) :
    State.Keeps s0 (channelRestartOp n key s) := by
  unfold channelRestartOp
  with_reducible repeat' first
    | assumption | apply State.ite_keeps | apply State.modPwr_keeps | apply channelFlightsLost_keeps
    | apply frameCancelsLost_keeps | apply setChState_keeps | apply setSvc_keeps | apply State.modCh_keeps
    | (refine State.keeps_of_pair (by assumption) ?_) | apply State.regsFilter_keeps

theorem channelRestartDoneOp_keeps {s0 : State} {n : Nat} {s : State} (hs : State.Keeps s0 s) :
    State.Keeps s0 (channelRestartDoneOp n s) := by
  unfold channelRestartDoneOp
  with_reducible repeat' first
    | assumption | apply State.ite_keeps | apply State.modCh_keeps | apply State.tick1_keeps
    | apply applyAllSafe_keeps | apply setChState_keeps

theorem storeWord_keeps {s0 : State} {s : State} {key : Nat} {be : BitVec 4} {w : Word} (hs : State.Keeps s0 s) :
    State.Keeps s0 (storeWord s key be w) := by
  unfold storeWord
  with_reducible repeat' first
    | assumption | apply State.ite_keeps | apply State.setReg_keeps | apply State.mirror_keeps
    | (refine State.keeps_of_pair (by assumption) ?_)
    | (refine State.keeps_of_parts ?_; dsimp only; refine State.Keeps.ofParts ?_) | split

theorem storeLow_keeps {s0 : State} {s : State} {key : Nat} {be : BitVec 4} {w : Word} (hs : State.Keeps s0 s) :
    State.Keeps s0 (storeLow s key be w) := by
  unfold storeLow
  with_reducible repeat' first
    | assumption | (refine State.keeps_of_pair (by assumption) ?_)
    | (refine State.keeps_of_parts ?_; dsimp only; refine State.Keeps.ofParts ?_)

theorem storeHigh_keeps {s0 : State} {s : State} {key : Nat} {be : BitVec 4} {w : Word} (hs : State.Keeps s0 s) :
    State.Keeps s0 (storeHigh s key be w) := by
  unfold storeHigh
  with_reducible repeat' first
    | assumption | apply storeWord_keeps | (refine State.keeps_of_pair (by assumption) ?_)
    | (refine State.keeps_of_parts ?_; dsimp only; refine State.Keeps.ofParts ?_) | split

theorem writeId_keeps {s0 : State} {o : Nat} {be : BitVec 4} {w : Word} {s : State} (hs : State.Keeps s0 s) :
    State.Keeps s0 (writeId o be w s) := by
  unfold writeId
  with_reducible repeat' first
    | assumption | apply State.ite_keeps | apply lcOp_keeps | apply releaseOp_keeps

theorem writeTxn_keeps {s0 : State} {fn o : Nat} {be : BitVec 4} {w : Word} {s : State} (hs : State.Keeps s0 s) :
    State.Keeps s0 (writeTxn fn o be w s) := by
  unfold writeTxn
  with_reducible repeat' first
    | assumption | apply State.ite_keeps | apply beginOp_keeps | apply commitOp_keeps | apply rollbackOp_keeps
    | apply storeWord_keeps | (refine State.keeps_of_pair (by assumption) ?_)
    | (refine State.keeps_of_parts ?_; dsimp only; refine State.Keeps.ofParts ?_) | split

theorem writeHp_keeps {s0 : State} {o : Nat} {be : BitVec 4} {w : Word} {s : State} (hs : State.Keeps s0 s) :
    State.Keeps s0 (writeHp o be w s) := by
  unfold writeHp
  with_reducible repeat' first
    | assumption | apply State.ite_keeps | apply clearAlert_keeps | apply State.modFn_keeps | apply storeWord_keeps

theorem writeRing_keeps {s0 : State} {k o : Nat} {be : BitVec 4} {w : Word} {s : State} (hs : State.Keeps s0 s) :
    State.Keeps s0 (writeRing k o be w s) := by
  unfold writeRing
  with_reducible repeat' first
    | assumption | apply State.ite_keeps | apply ringEnableOp_keeps | apply State.setReg_keeps
    | apply haltedDisableOp_keeps | apply ringDisableOp_keeps | apply storeLow_keeps | apply storeHigh_keeps
    | apply State.modRing_keeps | apply storeWord_keeps | apply ringNotify_keeps
    | (refine State.keeps_of_pair (by assumption) ?_)
    | (refine State.keeps_of_parts ?_; dsimp only; refine State.Keeps.ofParts ?_) | split

theorem writeEv_keeps {s0 : State} {b o : Nat} {be : BitVec 4} {w : Word} {s : State} (hs : State.Keeps s0 s) :
    State.Keeps s0 (writeEv b o be w s) := by
  unfold writeEv
  with_reducible repeat' first
    | assumption | apply State.ite_keeps | apply evCtlOp_keeps | apply storeLow_keeps | apply storeHigh_keeps
    | apply evconsOp_keeps | apply State.modEv_keeps | apply storeWord_keeps | apply evNotify_keeps

theorem writeWs_keeps {s0 : State} {fn o : Nat} {be : BitVec 4} {w : Word} {s : State} (hs : State.Keeps s0 s) :
    State.Keeps s0 (writeWs fn o be w s) := by
  unfold writeWs
  with_reducible repeat' first
    | assumption | apply State.ite_keeps | apply State.modFn_keeps | apply storeWord_keeps | apply takeOutOp_keeps
    | apply bringInOp_keeps | apply mirselOp_keeps | apply basinRemoveOp_keeps
    | (refine State.keeps_of_pair (by assumption) ?_)
    | (refine State.keeps_of_parts ?_; dsimp only; refine State.Keeps.ofParts ?_) | split

theorem writeTime_keeps {s0 : State} {o : Nat} {be : BitVec 4} {w : Word} {s : State} (hs : State.Keeps s0 s) :
    State.Keeps s0 (writeTime o be w s) := by
  unfold writeTime
  with_reducible repeat' first
    | assumption | apply State.ite_keeps | apply storeWord_keeps | apply setTimeOp_keeps | apply invalidateOp_keeps
    | apply offinOp_keeps | apply clearInt_keeps | apply ptpCfgWritten_keeps | apply tsqPopOp_keeps
    | (refine State.keeps_of_pair (by assumption) ?_) | apply State.tsqs_keeps
    | (refine State.keeps_of_parts ?_; dsimp only; refine State.Keeps.ofParts ?_) | split

theorem writeNet_keeps {s0 : State} {p o : Nat} {be : BitVec 4} {w : Word} {s : State} (hs : State.Keeps s0 s) :
    State.Keeps s0 (writeNet p o be w s) := by
  unfold writeNet
  with_reducible repeat' first
    | assumption | apply State.ite_keeps | apply clearInt_keeps | apply storeWord_keeps | apply netCtlWritten_keeps

theorem writePair_keeps {s0 : State} {o : Nat} {be : BitVec 4} {w : Word} {s : State} (hs : State.Keeps s0 s) :
    State.Keeps s0 (writePair o be w s) := by
  unfold writePair
  with_reducible repeat' first
    | assumption | apply State.ite_keeps | apply pairCfgWritten_keeps | apply storeWord_keeps | apply swapOp_keeps
    | apply selftestOp_keeps | (refine State.keeps_of_pair (by assumption) ?_)
    | (refine State.keeps_of_parts ?_; dsimp only; refine State.Keeps.ofParts ?_) | split

theorem writeVault_keeps {s0 : State} {o : Nat} {be : BitVec 4} {w : Word} {s : State} (hs : State.Keeps s0 s) :
    State.Keeps s0 (writeVault o be w s) := by
  unfold writeVault
  with_reducible repeat' first
    | assumption | apply State.ite_keeps | apply vaultOp_keeps | apply clearInt_keeps | apply slotselOp_keeps
    | apply State.modVlt_keeps | apply storeWord_keeps

theorem writeUpd_keeps {s0 : State} {o : Nat} {be : BitVec 4} {w : Word} {s : State} (hs : State.Keeps s0 s) :
    State.Keeps s0 (writeUpd o be w s) := by
  unfold writeUpd
  with_reducible repeat' first
    | assumption | apply State.ite_keeps | apply loadOp_keeps | apply State.tick1_keeps | apply updateAbortOp_keeps
    | apply activateOp_keeps | apply disarmOp_keeps | apply confirmOp_keeps | apply revertOp_keeps
    | apply pushOp_keeps | apply storeLow_keeps | apply storeHigh_keeps | apply storeWord_keeps
    | (refine State.keeps_of_pair (by assumption) ?_)
    | (refine State.keeps_of_parts ?_; dsimp only; refine State.Keeps.ofParts ?_) | split

theorem writeBkp_keeps {s0 : State} {o : Nat} {be : BitVec 4} {w : Word} {s : State} (hs : State.Keeps s0 s) :
    State.Keeps s0 (writeBkp o be w s) := by
  unfold writeBkp
  with_reducible repeat' first
    | assumption | apply State.ite_keeps | apply State.modBkp_keeps | apply rtcLoadOp_keeps | apply soClearOp_keeps
    | apply clearInt_keeps | apply almWritten_keeps | apply tamperModeOp_keeps | apply storeWord_keeps
    | (refine State.keeps_of_pair (by assumption) ?_)
    | (refine State.keeps_of_parts ?_; dsimp only; refine State.Keeps.ofParts ?_) | split

theorem writePwr_keeps {s0 : State} {o : Nat} {be : BitVec 4} {w : Word} {s : State} (hs : State.Keeps s0 s) :
    State.Keeps s0 (writePwr o be w s) := by
  unfold writePwr
  with_reducible repeat' first
    | assumption | apply State.ite_keeps | apply State.modPwr_keeps | apply warmOp_keeps
    | apply channelRestartOp_keeps | (refine State.keeps_of_pair (by assumption) ?_)
    | (refine State.keeps_of_parts ?_; dsimp only; refine State.Keeps.ofParts ?_) | split

theorem writeHub_keeps {s0 : State} {fn off : Nat} {be : BitVec 4} {w : Word} {s : State} (hs : State.Keeps s0 s) :
    State.Keeps s0 (writeHub fn off be w s) := by
  unfold writeHub
  with_reducible repeat' first
    | assumption | apply State.ite_keeps | apply writeId_keeps | apply writeTxn_keeps | apply writeHp_keeps
    | apply writeRing_keeps | apply writeEv_keeps | apply storeWord_keeps | apply writeWs_keeps
    | apply writeTime_keeps | apply writeNet_keeps | apply writePair_keeps | apply writeVault_keeps
    | apply writeUpd_keeps | apply writeBkp_keeps | apply writePwr_keeps
    | (refine State.keeps_of_pair (by assumption) ?_)
    | (refine State.keeps_of_parts ?_; dsimp only; refine State.Keeps.ofParts ?_) | split

theorem writeTa_keeps {s0 : State} {n o : Nat} {be : BitVec 4} {w : Word} {s : State} (hs : State.Keeps s0 s) :
    State.Keeps s0 (writeTa n o be w s) := by
  unfold writeTa
  with_reducible repeat' first
    | assumption | apply State.ite_keeps | apply tableOnOp_keeps | apply tableOffOp_keeps | apply calStartOp_keeps
    | apply storeWord_keeps

theorem writeLe_keeps {s0 : State} {n o : Nat} {be : BitVec 4} {w : Word} {s : State} (hs : State.Keeps s0 s) :
    State.Keeps s0 (writeLe n o be w s) := by
  unfold writeLe
  with_reducible repeat' first
    | assumption | apply State.ite_keeps | apply State.modCh_keeps | apply snapselOp_keeps | apply storeWord_keeps

theorem writeCan_keeps {s0 : State} {n x o : Nat} {be : BitVec 4} {w : Word} {s : State} (hs : State.Keeps s0 s) :
    State.Keeps s0 (writeCan n x o be w s) := by
  unfold writeCan
  with_reducible repeat' first
    | assumption | apply State.ite_keeps | apply canCtlOp_keeps | apply State.modCan_keeps | apply storeWord_keeps

theorem writeSeg_keeps {s0 : State} {n x o : Nat} {be : BitVec 4} {w : Word} {s : State} (hs : State.Keeps s0 s) :
    State.Keeps s0 (writeSeg n x o be w s) := by
  unfold writeSeg
  with_reducible repeat' first
    | assumption | apply State.ite_keeps | apply storeWord_keeps | apply plcaSet_keeps

theorem writeDio_keeps {s0 : State} {n o : Nat} {be : BitVec 4} {w : Word} {s : State} (hs : State.Keeps s0 s) :
    State.Keeps s0 (writeDio n o be w s) := by
  unfold writeDio
  with_reducible repeat' first
    | assumption | intro _ | apply State.ite_keeps | apply State.foldl_keeps | apply clearCause0_keeps
    | apply clearCause1_keeps | apply clrOcOp_keeps | apply State.modDio_keeps | apply storeWord_keeps
    | apply inputsChanged_keeps

theorem writeAdc_keeps {s0 : State} {n o : Nat} {be : BitVec 4} {w : Word} {s : State} (hs : State.Keeps s0 s) :
    State.Keeps s0 (writeAdc n o be w s) := by
  unfold writeAdc
  with_reducible repeat' first
    | assumption | apply State.ite_keeps | apply storeWord_keeps | apply inputsChanged_keeps

theorem writeChannel_keeps {s0 : State} {n o : Nat} {be : BitVec 4} {w : Word} {s : State} (hs : State.Keeps s0 s) :
    State.Keeps s0 (writeChannel n o be w s) := by
  unfold writeChannel
  with_reducible repeat' first
    | assumption | apply writeTa_keeps | apply writeLe_keeps | apply slotWriteOp_keeps | apply writeCan_keeps
    | apply writeSeg_keeps | apply writeDio_keeps | apply writeAdc_keeps | apply storeWord_keeps
    | (refine State.keeps_of_pair (by assumption) ?_)
    | (refine State.keeps_of_parts ?_; dsimp only; refine State.Keeps.ofParts ?_) | split

theorem writeReg_keeps {s0 : State} {fn off : Nat} {be : BitVec 4} {w : Word} {s : State} (hs : State.Keeps s0 s) :
    State.Keeps s0 (writeReg fn off be w s) := by
  unfold writeReg
  with_reducible repeat' first
    | assumption | apply State.ite_keeps | apply writeHub_keeps | apply writeChannel_keeps

theorem bar0Word_keeps {s0 : State} {fn off : Nat} {be : BitVec 4} {w : Word} {s : State} (hs : State.Keeps s0 s) :
    State.Keeps s0 (bar0Word fn off be w s) := by
  unfold bar0Word
  with_reducible repeat' first
    | assumption | apply State.ite_keeps | apply stageWord_keeps | apply writeReg_keeps
    | (refine State.keeps_of_pair (by assumption) ?_)
    | (refine State.keeps_of_parts ?_; dsimp only; refine State.Keeps.ofParts ?_) | split

theorem stagedWord_keeps {s0 : State} {fn off : Nat} {be : BitVec 4} {w : Word} {s : State} (hs : State.Keeps s0 s) :
    State.Keeps s0 (stagedWord fn off be w s) := by
  unfold stagedWord
  with_reducible repeat' first
    | assumption | apply State.ite_keeps | apply stageWord_keeps | (refine State.keeps_of_pair (by assumption) ?_)
    | (refine State.keeps_of_parts ?_; dsimp only; refine State.Keeps.ofParts ?_) | split

theorem memWriteOp_keeps {s0 : State} {fn off len : Nat} {data : BitVec 64} {word : Nat → BitVec 4 → Word → State → State} {s : State} (hword : ∀ o b w (x : State), State.Keeps s0 x → State.Keeps s0 (word o b w x)) (hs : State.Keeps s0 s) :
    State.Keeps s0 (memWriteOp fn off len data word s) := by
  unfold memWriteOp
  with_reducible repeat' first
    | assumption | intro _ | apply State.ite_keeps | apply State.foldl_keeps | apply hword | apply ifMse_keeps
    | apply unsupportedRequest_keeps

theorem msixWord_keeps {s0 : State} {fn off : Nat} {be : BitVec 4} {w : Word} {s : State} (hs : State.Keeps s0 s) :
    State.Keeps s0 (msixWord fn off be w s) := by
  unfold msixWord
  with_reducible repeat' first
    | assumption | apply State.ite_keeps | apply State.modFn_keeps | apply sendPending_keeps

theorem cfgStore_keeps {s0 : State} {fn off : Nat} {be : BitVec 4} {w : Word} {s : State} (hs : State.Keeps s0 s) :
    State.Keeps s0 (cfgStore fn off be w s) := by
  unfold cfgStore
  with_reducible repeat' first
    | assumption | apply State.modFn_keeps | (refine State.keeps_of_pair (by assumption) ?_)
    | (refine State.keeps_of_parts ?_; dsimp only; refine State.Keeps.ofParts ?_) | split

theorem configWord_keeps {s0 : State} {fn off : Nat} {be : BitVec 4} {w : Word} {s : State} (hs : State.Keeps s0 s) :
    State.Keeps s0 (configWord fn off be w s) := by
  unfold configWord
  with_reducible repeat' first
    | assumption | apply State.ite_keeps | apply busMasterOp_keeps | apply State.modFn_keeps
    | apply sendPending_keeps | apply cfgStore_keeps | apply pfFlrOp_keeps | apply flrOp_keeps
    | apply vfEnableOp_keeps

theorem registerWriteOp_keeps {s0 : State} {space : Space} {fn off len : Nat} {data : BitVec 64} {s : State} (hs : State.Keeps s0 s) :
    State.Keeps s0 (registerWriteOp space fn off len data s) := by
  unfold registerWriteOp
  with_reducible repeat' first
    | assumption | intro _ | apply State.ite_keeps | apply State.foldl_keeps | apply memWriteOp_keeps
    | apply bar0Word_keeps | apply ifMse_keeps | apply unsupportedRequest_keeps | apply ifServed_keeps
    | apply doorbellOp_keeps | apply msixWord_keeps | apply ifConfig_keeps | apply configWord_keeps
    | (refine State.keeps_of_pair (by assumption) ?_)
    | (refine State.keeps_of_parts ?_; dsimp only; refine State.Keeps.ofParts ?_) | split

theorem unpinWatershed_keeps {s0 : State} {s : State} (hs : State.Keeps s0 s) :
    State.Keeps s0 (unpinWatershed s) := by
  unfold unpinWatershed
  with_reducible repeat' first
    | assumption | apply State.modWs_keeps | apply trigger_keeps | apply dirFrom_keeps
    | (refine State.keeps_of_parts ?_; dsimp only; refine State.Keeps.ofParts ?_)

theorem levelApplied_keeps {s0 : State} {s : State} {off : Nat} (hs : State.Keeps s0 s) :
    State.Keeps s0 (levelApplied s off) := by
  unfold levelApplied
  with_reducible repeat' first
    | assumption | apply State.ite_keeps | apply unpinWatershed_keeps
    | (refine State.keeps_of_parts ?_; dsimp only; refine State.Keeps.ofParts ?_)

theorem applyStaged_keeps {s0 : State} {fn : Nat} {s : State} {e : Staged} (hs : State.Keeps s0 s) :
    State.Keeps s0 (applyStaged fn s e) := by
  unfold applyStaged
  with_reducible repeat' first
    | assumption | apply State.ite_keeps | apply levelApplied_keeps | apply storeWord_keeps | apply writeReg_keeps
    | (refine State.keeps_of_parts ?_; dsimp only; refine State.Keeps.ofParts ?_)

theorem txnApplyOp_keeps {s0 : State} {c : Nat} {s : State} (hs : State.Keeps s0 s) :
    State.Keeps s0 (txnApplyOp c s) := by
  unfold txnApplyOp
  with_reducible repeat' first
    | assumption | intro _ | apply State.ite_keeps | apply State.foldl_keeps | apply applyPlan_keeps
    | apply applyStaged_keeps | apply State.modTxn_keeps | apply endTxn_keeps
    | (refine State.keeps_of_pair (by assumption) ?_)
    | (refine State.keeps_of_parts ?_; dsimp only; refine State.Keeps.ofParts ?_) | split

theorem latchHigh_keeps {s0 : State} {s : State} {key : Nat} {w : Word} (hs : State.Keeps s0 s) :
    State.Keeps s0 (latchHigh s key w) := by
  unfold latchHigh
  with_reducible repeat' first
    | assumption | (refine State.keeps_of_parts ?_; dsimp only; refine State.Keeps.ofParts ?_)

theorem latchHub_keeps {s0 : State} {off : Nat} {s : State} (hs : State.Keeps s0 s) :
    State.Keeps s0 (latchHub off s) := by
  unfold latchHub
  with_reducible repeat' first
    | assumption | apply State.ite_keeps | apply latchHigh_keeps | apply State.modTime_keeps
    | apply State.modBkp_keeps | (refine State.keeps_of_pair (by assumption) ?_) | apply State.tsqs_keeps
    | (refine State.keeps_of_parts ?_; dsimp only; refine State.Keeps.ofParts ?_) | split

theorem latchChannel_keeps {s0 : State} {n o : Nat} {s : State} (hs : State.Keeps s0 s) :
    State.Keeps s0 (latchChannel n o s) := by
  unfold latchChannel
  with_reducible repeat' first
    | assumption | apply State.ite_keeps | apply latchHigh_keeps | apply State.modCh_keeps

theorem latchAt_keeps {s0 : State} {off : Nat} {s : State} (hs : State.Keeps s0 s) :
    State.Keeps s0 (latchAt off s) := by
  unfold latchAt
  with_reducible repeat' first
    | assumption | apply State.ite_keeps | apply latchHub_keeps | apply latchChannel_keeps

theorem bar0Read_keeps {s0 : State} {fn off : Nat} {be : BitVec 4} {s : State} (hs : State.Keeps s0 s) :
    State.Keeps s0 (bar0Read fn off be s) := by
  unfold bar0Read
  with_reducible repeat' first
    | assumption | apply State.ite_keeps | apply State.emit_keeps | apply prescRuns_keeps | apply State.tick1_keeps
    | apply latchAt_keeps | (refine State.keeps_of_pair (by assumption) ?_)
    | (refine State.keeps_of_parts ?_; dsimp only; refine State.Keeps.ofParts ?_) | split

theorem memReadOp_keeps {s0 : State} {fn off len : Nat} {word : Nat → BitVec 4 → State → State} {s : State} (hword : ∀ o b (x : State), State.Keeps s0 x → State.Keeps s0 (word o b x)) (hs : State.Keeps s0 s) :
    State.Keeps s0 (memReadOp fn off len word s) := by
  unfold memReadOp
  with_reducible repeat' first
    | assumption | intro _ | apply State.ite_keeps | apply State.foldl_keeps | apply hword | apply ifMse_keeps
    | apply unsupportedRequest_keeps

theorem latchingReadOp_keeps {s0 : State} {space : Space} {fn off len : Nat} {s : State} (hs : State.Keeps s0 s) :
    State.Keeps s0 (latchingReadOp space fn off len s) := by
  unfold latchingReadOp
  with_reducible repeat' first
    | assumption | intro _ | apply State.ite_keeps | apply State.foldl_keeps | apply memReadOp_keeps
    | apply bar0Read_keeps | apply State.emit_keeps | apply ifConfig_keeps
    | (refine State.keeps_of_pair (by assumption) ?_)
    | (refine State.keeps_of_parts ?_; dsimp only; refine State.Keeps.ofParts ?_) | split

end Sys2Proof.Machine
end

