-- ==== Sys2Proof/Laws/Links.lean ====
section
/-! SUPPORT. The operations that leave the state and the link of every channel alone. -/

namespace Sys2Proof.Machine

/-- State and link of each channel. -/
abbrev Chan.link (c : Chan) : ChState × ChState × Bool × Bool × Nat := (c.state, c.prior, c.xbarUp, c.isoOk, c.lossCnt)
/-- The list of them. -/
abbrev State.links (s : State) : List (ChState × ChState × Bool × Bool × Nat) := s.chs.map Chan.link
theorem State.links_ite {c : Prop} [Decidable c] {a b : State} {r : List (ChState × ChState × Bool × Bool × Nat)} (ha : a.links = r) (hb : b.links = r) :
    (if c then a else b).links = r := by split <;> assumption
theorem State.links_foldl {α : Type} {f : State → α → State} {r : List (ChState × ChState × Bool × Bool × Nat)}
    (hf : ∀ s a, (f s a).links = s.links) : ∀ {l : List α} {s : State}, s.links = r → (l.foldl f s).links = r
  | [], _, h => h
  | a :: l, s, h => State.links_foldl hf (l := l) ((hf s a).trans h)
theorem State.modCh_links {s : State} {n : Nat} {f : Chan → Chan} (hf : ∀ c, (f c).link = c.link) :
    (s.modCh n f).links = s.links := by
  unfold State.links State.modCh
  apply List.ext_getElem?
  intro i
  simp only [List.getElem?_map, List.getElem?_modify]
  cases s.chs[i]? with
  | none => rfl
  | some c => simp only [Option.map_some]; split <;> first | exact congrArg some (hf c) | rfl
theorem State.emit_links {s : State} {e : Emission} : (s.emit e).links = s.links := rfl
theorem State.modFn_links {s : State} {b : Nat} {f : Fn → Fn} : (s.modFn b f).links = s.links := rfl
theorem State.modEv_links {s : State} {b : Nat} {f : EvRing → EvRing} : (s.modEv b f).links = s.links := rfl
theorem State.modRing_links {s : State} {b : Nat} {f : Ring → Ring} : (s.modRing b f).links = s.links := rfl
theorem State.modPair_links {s : State} {f : Pair → Pair} : (s.modPair f).links = s.links := rfl
theorem State.modNet_links {s : State} {n : Nat} {f : NetPort → NetPort} : (s.modNet n f).links = s.links := rfl
theorem State.modPt_links {s : State} {n : Nat} {f : Point → Point} : (s.modPt n f).links = s.links := rfl
theorem State.modPwr_links {s : State} {f : Power → Power} : (s.modPwr f).links = s.links := rfl
theorem State.modTime_links {s : State} {f : HubTime → HubTime} : (s.modTime f).links = s.links := rfl
theorem State.modWs_links {s : State} {f : Watershed → Watershed} : (s.modWs f).links = s.links := rfl
theorem State.modTxn_links {s : State} {c : Nat} {f : Txn → Txn} : (s.modTxn c f).links = s.links := rfl
theorem State.modBkp_links {s : State} {f : Backup → Backup} : (s.modBkp f).links = s.links := rfl
theorem State.modVlt_links {s : State} {f : Vault → Vault} : (s.modVlt f).links = s.links := rfl
theorem State.modUpd_links {s : State} {f : Upd → Upd} : (s.modUpd f).links = s.links := rfl
theorem State.tick1_links {s : State} : s.tick1.links = s.links := rfl
theorem State.setReg_links {s : State} {k : Nat} {w : Word} : (s.setReg k w).links = s.links := by
  unfold State.setReg; split <;> rfl

theorem State.modCan_links {s : State} {n x : Nat} {f : Can → Can} :
    State.links (State.modCan s n x f) = State.links s := by
  unfold State.modCan
  with_reducible repeat' first
    | rfl | refine (State.modCh_links ?_).trans ?_ | intro _

theorem State.modSeg_links {s : State} {n x : Nat} {f : Seg → Seg} :
    State.links (State.modSeg s n x f) = State.links s := by
  unfold State.modSeg
  with_reducible repeat' first
    | rfl | refine (State.modCh_links ?_).trans ?_ | intro _


theorem State.sendVec_links {s : State} {b v : Nat} :
    State.links (State.sendVec s b v) = State.links s := by
  unfold State.sendVec
  with_reducible repeat' first
    | rfl | apply State.links_ite | refine State.modFn_links.trans ?_ | refine State.emit_links.trans ?_ | split

theorem State.alert_links {s : State} {i : Nat} :
    State.links (State.alert s i) = State.links s := by
  unfold State.alert
  with_reducible repeat' first
    | rfl | apply State.links_ite | refine State.sendVec_links.trans ?_ | split

theorem State.intBit_links {s : State} {key i vec : Nat} :
    State.links (State.intBit s key i vec) = State.links s := by
  unfold State.intBit
  with_reducible repeat' first
    | rfl | apply State.links_ite | refine State.setReg_links.trans ?_ | refine State.sendVec_links.trans ?_ | split

theorem writeEvIdx_links {s : State} {b : Nat} :
    State.links (writeEvIdx s b) = State.links s := by
  unfold writeEvIdx
  with_reducible repeat' first
    | rfl | apply State.links_ite | refine State.emit_links.trans ?_ | refine State.modEv_links.trans ?_ | split

theorem evNotify_links {s : State} {b : Nat} {due : Bool} :
    State.links (evNotify s b due) = State.links s := by
  unfold evNotify
  with_reducible repeat' first
    | rfl | apply State.links_ite | refine State.modEv_links.trans ?_ | refine State.sendVec_links.trans ?_ | split

theorem pumpEv_links {b : Nat} : ∀ {q : List EvRec} {s : State}, State.links (pumpEv b q s) = State.links s
  | [], _ => rfl
  | _ :: q, s => by
    unfold pumpEv
    dsimp only
    split
    · exact (pumpEv_links (q := q)).trans (evNotify_links.trans (writeEvIdx_links.trans (State.modEv_links.trans State.emit_links)))
    · rfl

theorem State.flushEv_links {s : State} {b : Nat} :
    State.links (State.flushEv s b) = State.links s := by
  unfold State.flushEv
  with_reducible repeat' first
    | rfl | refine pumpEv_links.trans ?_

theorem raise_links {s : State} {b kind subject : Nat} {payload : List Byte} :
    State.links (raise s b kind subject payload) = State.links s := by
  unfold raise
  with_reducible repeat' first
    | rfl | apply State.links_ite | refine State.modEv_links.trans ?_ | refine writeEvIdx_links.trans ?_
    | refine State.flushEv_links.trans ?_ | split

theorem raiseBoth_links {s : State} {kind subject : Nat} {payload : List Byte} :
    State.links (raiseBoth s kind subject payload) = State.links s := by
  unfold raiseBoth
  with_reducible repeat' first
    | rfl | apply State.links_ite | refine raise_links.trans ?_ | split

theorem State.mirror_links {s : State} {r : MirrorRec} :
    State.links (State.mirror s r) = State.links s := by
  unfold State.mirror
  with_reducible repeat' first
    | rfl | apply State.links_ite | refine State.modPair_links.trans ?_ | refine State.emit_links.trans ?_ | split


theorem writeIdx_links {s : State} {k : Nat} :
    State.links (writeIdx s k) = State.links s := by
  unfold writeIdx
  with_reducible repeat' first
    | rfl | apply State.links_ite | refine State.emit_links.trans ?_ | refine State.modRing_links.trans ?_ | split

theorem ringNotify_links {s : State} {k : Nat} {due : Bool} :
    State.links (ringNotify s k due) = State.links s := by
  unfold ringNotify
  with_reducible repeat' first
    | rfl | apply State.links_ite | refine State.modRing_links.trans ?_ | refine State.sendVec_links.trans ?_
    | split

theorem ringItem_links {s : State} {k : Nat} :
    State.links (ringItem s k) = State.links s := by
  unfold ringItem
  with_reducible repeat' first
    | rfl | refine State.modRing_links.trans ?_ | refine writeIdx_links.trans ?_ | refine ringNotify_links.trans ?_

theorem putCompletion_links {s : State} {k : Nat} {c : Completion} :
    State.links (putCompletion s k c) = State.links s := by
  unfold putCompletion
  with_reducible repeat' first
    | rfl | refine State.emit_links.trans ?_ | refine ringItem_links.trans ?_ | refine State.modRing_links.trans ?_

theorem complete_links {s : State} {k : Nat} {c : Completion} :
    State.links (complete s k c) = State.links s := by
  unfold complete
  with_reducible repeat' first
    | rfl | apply State.links_ite | refine State.modRing_links.trans ?_ | refine putCompletion_links.trans ?_
    | split

theorem completeAll_links {k idx status ckind : Nat} {tsq late : Bool} {info : Word} :
    ∀ {l : List Slot} {j : Nat} {s : State},
      State.links (completeAll s k idx status ckind tsq late info j l) = State.links s
  | [], _, _ => rfl
  | _ :: l, j, _ => (completeAll_links (l := l) (j := j + 1)).trans complete_links

theorem finish_links {s : State} {k id status : Nat} {tsq late : Bool} {info : Word} :
    State.links (finish s k id status tsq late info) = State.links s := by
  unfold finish
  with_reducible repeat' first
    | rfl | apply State.links_ite | refine completeAll_links.trans ?_ | refine State.modRing_links.trans ?_ | split

theorem putHeld_links {s : State} {k : Nat} {h : HeldWrite} :
    State.links (putHeld s k h) = State.links s := by
  unfold putHeld
  with_reducible repeat' first
    | rfl | apply State.links_ite | refine putCompletion_links.trans ?_ | refine State.emit_links.trans ?_
    | refine State.modRing_links.trans ?_ | refine ringItem_links.trans ?_ | refine writeIdx_links.trans ?_ | split

theorem flushRing_links {s : State} {k : Nat} :
    State.links (flushRing s k) = State.links s := by
  unfold flushRing
  with_reducible repeat' first
    | rfl | intro _ | apply State.links_ite | apply State.links_foldl | refine putHeld_links.trans ?_
    | refine State.modRing_links.trans ?_ | split

theorem putSlot_links {s : State} {k idx : Nat} {bytes : List Byte} {last : Bool} :
    State.links (putSlot s k idx bytes last) = State.links s := by
  unfold putSlot
  with_reducible repeat' first
    | rfl | apply State.links_ite | refine putHeld_links.trans ?_ | refine State.modRing_links.trans ?_ | split

theorem putSlots_links {k : Nat} : ∀ {l : List (List Byte)} {i : Nat} {s : State}, State.links (putSlots s k i l) = State.links s
  | [], _, _ => rfl
  | [_], _, _ => putSlot_links
  | _ :: c :: l, i, _ => (putSlots_links (l := c :: l) (i := i + 1)).trans putSlot_links

theorem withhold_links {s : State} {b : Nat} :
    State.links (withhold s b) = State.links s := by
  unfold withhold
  with_reducible repeat' first
    | rfl | refine State.modFn_links.trans ?_

theorem steer_links {s : State} {b r h : Nat} {p : Point} {m : Mirror} {repeated : Bool} :
    State.links (steer s b r h p m repeated) = State.links s := by
  unfold steer
  with_reducible repeat' first
    | rfl | apply State.links_ite | refine State.emit_links.trans ?_ | refine State.modPwr_links.trans ?_
    | refine ringItem_links.trans ?_ | refine State.modRing_links.trans ?_ | refine writeIdx_links.trans ?_
    | refine withhold_links.trans ?_ | split

theorem writeBuf_links {b : Nat} : ∀ {n addr : Nat} {bytes : List Byte} {s : State}, State.links (writeBuf b n addr bytes s) = State.links s
  | 0, _, _, _ => rfl
  | n + 1, addr, bytes, s => by
    unfold writeBuf
    split
    · rfl
    · exact (writeBuf_links (n := n)).trans State.emit_links

theorem rxData_links {b : Nat} :
    ∀ {l : List (BitVec 512)} {bs : List Byte} {s : State}, State.links (rxData s b l bs) = State.links s
  | [], _, _ => rfl
  | _ :: l, bs, s => by
    unfold rxData
    split
    · exact rxData_links (l := l)
    · split
      · rfl
      · exact (rxData_links (l := l)).trans writeBuf_links

theorem deliverFrame_links {s : State} {k : Nat} {f : RxFrame} {posted : List (BitVec 512)} :
    State.links (deliverFrame s k f posted) = State.links s := by
  unfold deliverFrame
  with_reducible repeat' first
    | rfl | apply State.links_ite | refine State.modRing_links.trans ?_ | refine putSlots_links.trans ?_
    | refine writeIdx_links.trans ?_ | refine rxData_links.trans ?_ | split


theorem dirChanged_links {s : State} :
    State.links (dirChanged s) = State.links s := by
  unfold dirChanged
  with_reducible repeat' first
    | rfl | refine State.modWs_links.trans ?_

theorem dirFrom_links {s t : State} :
    State.links (dirFrom s t) = State.links t := by
  unfold dirFrom
  with_reducible repeat' first
    | rfl | apply State.links_ite | refine dirChanged_links.trans ?_ | split

theorem deliver_links {s : State} {h : Nat} {m : Mirror} {repeated : Bool} :
    State.links (deliver s h m repeated) = State.links s := by
  unfold deliver
  with_reducible repeat' first
    | rfl | intro _ | apply State.links_ite | apply State.links_foldl | refine steer_links.trans ?_
    | refine (State.modCh_links ?_).trans ?_ | intro _ | refine State.modPt_links.trans ?_ | split

theorem covUnit_links {s : State} {h : Nat} {p : Point} {m : Mirror} {newSeq : Bool} :
    State.links (covUnit s h p m newSeq) = State.links s := by
  unfold covUnit
  with_reducible repeat' first
    | rfl | apply State.links_ite | refine deliver_links.trans ?_ | refine State.modPt_links.trans ?_ | split

theorem mirrorWrite_links {s : State} {h : Nat} {m : Mirror} :
    State.links (mirrorWrite s h m) = State.links s := by
  unfold mirrorWrite
  with_reducible repeat' first
    | rfl | refine State.modPt_links.trans ?_ | refine State.mirror_links.trans ?_ | refine covUnit_links.trans ?_
    | split

theorem acquire_links {s : State} {h : Nat} {v : Slot} {q : Nat} {stamp : Instant} :
    State.links (acquire s h v q stamp) = State.links s := by
  unfold acquire
  with_reducible repeat' first
    | rfl | apply State.links_ite | refine State.modPt_links.trans ?_ | refine mirrorWrite_links.trans ?_
    | refine (State.modCh_links ?_).trans ?_ | intro _ | split

theorem hubUpdate_links {s : State} {n : Nat} {u : Update} :
    State.links (hubUpdate s n u) = State.links s := by
  unfold hubUpdate
  with_reducible repeat' first
    | rfl | apply State.links_ite | refine raise_links.trans ?_ | refine mirrorWrite_links.trans ?_ | split

theorem pointUpdateOp_links {n : Nat} {s : State} :
    State.links (pointUpdateOp n s) = State.links s := by
  unfold pointUpdateOp
  with_reducible repeat' first
    | rfl | refine hubUpdate_links.trans ?_ | refine (State.modCh_links ?_).trans ?_ | intro _ | split

theorem forwardedOp_links {n : Nat} {s : State} :
    State.links (forwardedOp n s) = State.links s := by
  unfold forwardedOp
  with_reducible repeat' first
    | rfl | apply State.links_ite | refine (State.modCh_links ?_).trans ?_ | intro _ | split

theorem markStale_links {s : State} {n : Nat} :
    State.links (markStale s n) = State.links s := by
  unfold markStale
  with_reducible repeat' first
    | rfl | intro _ | apply State.links_foldl | refine deliver_links.trans ?_ | refine State.modPt_links.trans ?_
    | refine State.mirror_links.trans ?_ | split

theorem resendAll_links {s : State} {n : Nat} :
    State.links (resendAll s n) = State.links s := by
  unfold resendAll
  with_reducible repeat' first
    | rfl | refine (State.modCh_links ?_).trans ?_ | intro _

theorem minExpiryOp_links {h : Nat} {s : State} :
    State.links (minExpiryOp h s) = State.links s := by
  unfold minExpiryOp
  with_reducible repeat' first
    | rfl | apply State.links_ite | refine deliver_links.trans ?_ | refine State.modPt_links.trans ?_ | split

theorem maxExpiryOp_links {h : Nat} {s : State} :
    State.links (maxExpiryOp h s) = State.links s := by
  unfold maxExpiryOp
  with_reducible repeat' first
    | rfl | apply State.links_ite | refine deliver_links.trans ?_ | split

theorem dirwinOp_links {en : Bool} {s : State} :
    State.links (dirwinOp en s) = State.links s := by
  unfold dirwinOp
  with_reducible repeat' first
    | rfl | refine State.setReg_links.trans ?_


theorem State.modDio_links {s : State} {n : Nat} {f : Dio → Dio} :
    State.links (State.modDio s n f) = State.links s := by
  unfold State.modDio
  with_reducible repeat' first
    | rfl | refine (State.modCh_links ?_).trans ?_ | intro _

theorem State.modDout_links {s : State} {n d : Nat} {f : Dout → Dout} :
    State.links (State.modDout s n d f) = State.links s := by
  unfold State.modDout
  with_reducible repeat' first
    | rfl | refine State.modDio_links.trans ?_

theorem State.modAout_links {s : State} {n t : Nat} {f : Aout → Aout} :
    State.links (State.modAout s n t f) = State.links s := by
  unfold State.modAout
  with_reducible repeat' first
    | rfl | refine State.modDio_links.trans ?_

theorem State.modAin_links {s : State} {n i : Nat} {f : Ain → Ain} :
    State.links (State.modAin s n i f) = State.links s := by
  unfold State.modAin
  with_reducible repeat' first
    | rfl | refine State.modDio_links.trans ?_

theorem acquireTerm_links {s : State} {n term : Nat} {v : Slot} {q : Nat} {stamp : Instant} :
    State.links (acquireTerm s n term v q stamp) = State.links s := by
  unfold acquireTerm
  with_reducible repeat' first
    | rfl | intro _ | apply State.links_foldl | refine acquire_links.trans ?_

theorem doutAcquire_links {s : State} {n d : Nat} {stamp : Instant} :
    State.links (doutAcquire s n d stamp) = State.links s := by
  unfold doutAcquire
  with_reducible repeat' first
    | rfl | apply State.links_ite | refine acquireTerm_links.trans ?_ | refine State.modDout_links.trans ?_ | split

theorem doutRequal_links {s : State} {n d : Nat} :
    State.links (doutRequal s n d) = State.links s := by
  unfold doutRequal
  with_reducible repeat' first
    | rfl | apply State.links_ite | refine doutAcquire_links.trans ?_ | split

theorem aoutAcquire_links {s : State} {n t : Nat} {stamp : Instant} :
    State.links (aoutAcquire s n t stamp) = State.links s := by
  unfold aoutAcquire
  with_reducible repeat' first
    | rfl | refine acquireTerm_links.trans ?_ | refine State.modAout_links.trans ?_

theorem aoutRequal_links {s : State} {n t : Nat} :
    State.links (aoutRequal s n t) = State.links s := by
  unfold aoutRequal
  with_reducible repeat' first
    | rfl | apply State.links_ite | refine aoutAcquire_links.trans ?_ | split

theorem latchDout_links {s : State} {n d : Nat} {v : Bool} {stamp : Instant} :
    State.links (latchDout s n d v stamp) = State.links s := by
  unfold latchDout
  with_reducible repeat' first
    | rfl | apply State.links_ite | refine State.modDout_links.trans ?_ | refine doutAcquire_links.trans ?_ | split

theorem latchAout_links {s : State} {n t code : Nat} {stamp : Instant} :
    State.links (latchAout s n t code stamp) = State.links s := by
  unfold latchAout
  with_reducible repeat' first
    | rfl | refine aoutAcquire_links.trans ?_ | refine State.modAout_links.trans ?_

theorem applySafe_links {s : State} {n term : Nat} :
    State.links (applySafe s n term) = State.links s := by
  unfold applySafe
  with_reducible repeat' first
    | rfl | apply State.links_ite | refine latchDout_links.trans ?_ | refine State.modAout_links.trans ?_
    | refine latchAout_links.trans ?_ | refine aoutAcquire_links.trans ?_ | split

theorem applyAllSafe_links {s : State} {n : Nat} :
    State.links (applyAllSafe s n) = State.links s := by
  unfold applyAllSafe
  with_reducible repeat' first
    | rfl | intro _ | apply State.links_ite | apply State.links_foldl | refine applySafe_links.trans ?_ | split

theorem requalAll_links {s : State} {n : Nat} :
    State.links (requalAll s n) = State.links s := by
  unfold requalAll
  with_reducible repeat' first
    | rfl | intro _ | apply State.links_foldl | refine doutRequal_links.trans ?_ | refine aoutRequal_links.trans ?_

theorem acquireDin_links {s : State} {n i : Nat} {q : Nat} {stamp : Instant} :
    State.links (acquireDin s n i q stamp) = State.links s := by
  unfold acquireDin
  with_reducible repeat' first
    | rfl | apply State.links_ite | refine acquireTerm_links.trans ?_ | split

theorem acquireCnt_links {s : State} {n i : Nat} {q : Nat} {stamp : Instant} :
    State.links (acquireCnt s n i q stamp) = State.links s := by
  unfold acquireCnt
  with_reducible repeat' first
    | rfl | refine acquireTerm_links.trans ?_

theorem acquireInputs_links {s : State} {n : Nat} {q : Nat} :
    State.links (acquireInputs s n q) = State.links s := by
  unfold acquireInputs
  with_reducible repeat' first
    | rfl | intro _ | apply State.links_ite | apply State.links_foldl | refine acquireDin_links.trans ?_
    | refine acquireCnt_links.trans ?_ | split

theorem reacquireAin_links {s : State} {n i : Nat} {q : Nat} :
    State.links (reacquireAin s n i q) = State.links s := by
  unfold reacquireAin
  with_reducible repeat' first
    | rfl | intro _ | apply State.links_foldl | refine acquire_links.trans ?_

theorem fsupLowOp_links {n v : Nat} {s : State} :
    State.links (fsupLowOp n v s) = State.links s := by
  unfold fsupLowOp
  with_reducible repeat' first
    | rfl | apply State.links_ite | refine State.modDio_links.trans ?_ | split

theorem fsupOkOp_links {n v : Nat} {s : State} :
    State.links (fsupOkOp n v s) = State.links s := by
  unfold fsupOkOp
  with_reducible repeat' first
    | rfl | apply State.links_ite | refine State.modDio_links.trans ?_ | split

theorem fsupInvalidOp_links {n v : Nat} {s : State} :
    State.links (fsupInvalidOp n v s) = State.links s := by
  unfold fsupInvalidOp
  with_reducible repeat' first
    | rfl | intro _ | apply State.links_ite | apply State.links_foldl | refine State.modDio_links.trans ?_
    | refine acquireInputs_links.trans ?_ | refine reacquireAin_links.trans ?_ | split

theorem fsupValidOp_links {n v : Nat} {s : State} :
    State.links (fsupValidOp n v s) = State.links s := by
  unfold fsupValidOp
  with_reducible repeat' first
    | rfl | apply State.links_ite | refine acquireInputs_links.trans ?_ | refine State.modDio_links.trans ?_ | split

theorem guardLossOp_links {n v : Nat} {s : State} :
    State.links (guardLossOp n v s) = State.links s := by
  unfold guardLossOp
  with_reducible repeat' first
    | rfl | apply State.links_ite | refine State.modDio_links.trans ?_ | split

theorem dinEdgeOp_links {n i : Nat} {level : Bool} {stamp : Instant} {s : State} :
    State.links (dinEdgeOp n i level stamp s) = State.links s := by
  unfold dinEdgeOp
  with_reducible repeat' first
    | rfl | apply State.links_ite | refine State.modDio_links.trans ?_ | refine acquireDin_links.trans ?_ | split

theorem counterAcqOp_links {n : Nat} {s : State} :
    State.links (counterAcqOp n s) = State.links s := by
  unfold counterAcqOp
  with_reducible repeat' first
    | rfl | intro _ | apply State.links_ite | apply State.links_foldl | refine acquireDin_links.trans ?_
    | refine acquireCnt_links.trans ?_ | split

theorem presetCnt_links {s : State} {n i : Nat} {v : Slot} {stamp : Instant} :
    State.links (presetCnt s n i v stamp) = State.links s := by
  unfold presetCnt
  with_reducible repeat' first
    | rfl | refine State.modDio_links.trans ?_ | refine (State.modCh_links ?_).trans ?_ | intro _
    | refine acquireCnt_links.trans ?_

theorem inputsChanged_links {old s : State} {n : Nat} :
    State.links (inputsChanged old s n) = State.links s := by
  unfold inputsChanged
  with_reducible repeat' first
    | rfl | intro _ | apply State.links_ite | apply State.links_foldl | refine acquireDin_links.trans ?_
    | refine acquireCnt_links.trans ?_ | refine reacquireAin_links.trans ?_ | split

theorem switchOff_links {s : State} {n d : Nat} {hot : Bool} :
    State.links (switchOff s n d hot) = State.links s := by
  unfold switchOff
  with_reducible repeat' first
    | rfl | refine doutRequal_links.trans ?_ | refine State.modDout_links.trans ?_

theorem overcurrentOp_links {n d : Nat} {s : State} :
    State.links (overcurrentOp n d s) = State.links s := by
  unfold overcurrentOp
  with_reducible repeat' first
    | rfl | apply State.links_ite | refine switchOff_links.trans ?_ | refine State.modDio_links.trans ?_ | split

theorem overtempOp_links {n d : Nat} {s : State} :
    State.links (overtempOp n d s) = State.links s := by
  unfold overtempOp
  with_reducible repeat' first
    | rfl | apply State.links_ite | refine switchOff_links.trans ?_ | refine State.modDio_links.trans ?_ | split

theorem switchOn_links {s : State} {n d : Nat} :
    State.links (switchOn s n d) = State.links s := by
  unfold switchOn
  with_reducible repeat' first
    | rfl | apply State.links_ite | refine doutRequal_links.trans ?_ | refine State.modDout_links.trans ?_ | split

theorem retryOp_links {n d : Nat} {s : State} :
    State.links (retryOp n d s) = State.links s := by
  unfold retryOp
  with_reducible repeat' first
    | rfl | apply State.links_ite | refine State.modDout_links.trans ?_ | refine switchOn_links.trans ?_ | split

theorem cooledOp_links {n d : Nat} {s : State} :
    State.links (cooledOp n d s) = State.links s := by
  unfold cooledOp
  with_reducible repeat' first
    | rfl | apply State.links_ite | refine State.modDout_links.trans ?_ | refine switchOn_links.trans ?_
    | refine doutRequal_links.trans ?_ | split

theorem clrOcOp_links {n : Nat} {mask : BitVec 8} {s : State} :
    State.links (clrOcOp n mask s) = State.links s := by
  unfold clrOcOp
  with_reducible repeat' first
    | rfl | intro _ | apply State.links_ite | apply State.links_foldl | refine switchOn_links.trans ?_ | split

theorem groupOcOp_links {n : Nat} {cs : List Nat} {s : State} :
    State.links (groupOcOp n cs s) = State.links s := by
  unfold groupOcOp
  with_reducible repeat' first
    | rfl | intro _ | apply State.links_ite | apply State.links_foldl | refine State.modDio_links.trans ?_
    | refine switchOff_links.trans ?_ | split

theorem extDriveOp_links {n d : Nat} {s : State} :
    State.links (extDriveOp n d s) = State.links s := by
  unfold extDriveOp
  with_reducible repeat' first
    | rfl | apply State.links_ite | refine State.modDio_links.trans ?_ | refine doutRequal_links.trans ?_
    | refine State.modDout_links.trans ?_ | split

theorem openLoadOp_links {n d : Nat} {s : State} :
    State.links (openLoadOp n d s) = State.links s := by
  unfold openLoadOp
  with_reducible repeat' first
    | rfl | apply State.links_ite | refine State.modDio_links.trans ?_ | split

theorem clearCause0_links {s : State} {n : Nat} {w : Word} :
    State.links (clearCause0 s n w) = State.links s := by
  unfold clearCause0
  with_reducible repeat' first
    | rfl | intro _ | apply State.links_ite | apply State.links_foldl | refine State.modDio_links.trans ?_
    | refine State.tick1_links.trans ?_ | refine doutRequal_links.trans ?_ | refine State.modDout_links.trans ?_
    | split

theorem clearCause1_links {s : State} {n : Nat} {w : Word} :
    State.links (clearCause1 s n w) = State.links s := by
  unfold clearCause1
  with_reducible repeat' first
    | rfl | intro _ | apply State.links_ite | apply State.links_foldl | refine State.modDio_links.trans ?_
    | refine State.tick1_links.trans ?_ | split

theorem guardKickOp_links {n : Nat} {s : State} :
    State.links (guardKickOp n s) = State.links s := by
  unfold guardKickOp
  with_reducible repeat' first
    | rfl | intro _ | apply State.links_ite | apply State.links_foldl | refine State.modDio_links.trans ?_
    | refine doutAcquire_links.trans ?_ | refine aoutAcquire_links.trans ?_ | split

theorem guardTripOp_links {n : Nat} {s : State} :
    State.links (guardTripOp n s) = State.links s := by
  unfold guardTripOp
  with_reducible repeat' first
    | rfl | apply State.links_ite | refine State.modDio_links.trans ?_ | split

theorem guardHoldOp_links {n : Nat} {s : State} :
    State.links (guardHoldOp n s) = State.links s := by
  unfold guardHoldOp
  with_reducible repeat' first
    | rfl | apply State.links_ite | refine State.modDio_links.trans ?_ | split

theorem guardHoldExpiryOp_links {n : Nat} {s : State} :
    State.links (guardHoldExpiryOp n s) = State.links s := by
  unfold guardHoldExpiryOp
  with_reducible repeat' first
    | rfl | apply State.links_ite | refine State.modDio_links.trans ?_ | split

theorem adcScanOp_links {n i : Nat} {s : State} :
    State.links (adcScanOp n i s) = State.links s := by
  unfold adcScanOp
  with_reducible repeat' first
    | rfl | apply State.links_ite | refine State.modAin_links.trans ?_ | split

theorem adcBurstOp_links {n idx : Nat} {s : State} :
    State.links (adcBurstOp n idx s) = State.links s := by
  unfold adcBurstOp
  with_reducible repeat' first
    | rfl | intro _ | apply State.links_ite | apply State.links_foldl | refine State.modDio_links.trans ?_
    | refine State.modAin_links.trans ?_ | split

theorem acquireAin_links {s : State} {n i range : Nat} {u m : Int} {bad : Bool} :
    State.links (acquireAin s n i range u m bad) = State.links s := by
  unfold acquireAin
  with_reducible repeat' first
    | rfl | intro _ | apply State.links_ite | apply State.links_foldl | refine acquire_links.trans ?_ | split

theorem adcDoneOp_links {n i : Nat} {src : ConvSource} {m : Int} {fault : Bool} {s : State} :
    State.links (adcDoneOp n i src m fault s) = State.links s := by
  unfold adcDoneOp
  with_reducible repeat' first
    | rfl | apply State.links_ite | refine State.modAin_links.trans ?_ | refine acquireAin_links.trans ?_ | split

theorem burdenOpenOp_links {n i : Nat} {s : State} :
    State.links (burdenOpenOp n i s) = State.links s := by
  unfold burdenOpenOp
  with_reducible repeat' first
    | rfl | apply State.links_ite | refine reacquireAin_links.trans ?_ | refine State.modAin_links.trans ?_ | split

theorem burdenRestoreOp_links {n i : Nat} {s : State} :
    State.links (burdenRestoreOp n i s) = State.links s := by
  unfold burdenRestoreOp
  with_reducible repeat' first
    | rfl | refine State.modAin_links.trans ?_

theorem aoutLimitOp_links {n t : Nat} {inLimit : Bool} {s : State} :
    State.links (aoutLimitOp n t inLimit s) = State.links s := by
  unfold aoutLimitOp
  with_reducible repeat' first
    | rfl | apply State.links_ite | refine aoutRequal_links.trans ?_ | refine State.modAout_links.trans ?_ | split


theorem timeRec_links {s : State} {i : Nat} {payload : List Byte} :
    State.links (timeRec s i payload) = State.links s := by
  unfold timeRec
  with_reducible repeat' first
    | rfl | refine raise_links.trans ?_ | refine State.intBit_links.trans ?_

theorem tsqPopOp_links {q : Nat} {s : State} :
    State.links (tsqPopOp q s) = State.links s := by
  unfold tsqPopOp
  with_reducible repeat' first
    | rfl | apply State.links_ite | split

theorem sendReport_links {s : State} {n : Nat} {r : Report} :
    State.links (sendReport s n r) = State.links s := by
  unfold sendReport
  with_reducible repeat' first
    | rfl | apply State.links_ite | refine (State.modCh_links ?_).trans ?_ | intro _ | split

theorem State.modTbl_links {s : State} {t : Nat} {f : Table → Table} :
    State.links (State.modTbl s t f) = State.links s := by
  unfold State.modTbl
  with_reducible repeat' first
    | rfl | apply State.links_ite | refine (State.modCh_links ?_).trans ?_ | intro _ | split

theorem State.modEnt_links {s : State} {t i : Nat} {f : Entry → Entry} :
    State.links (State.modEnt s t i f) = State.links s := by
  unfold State.modEnt
  with_reducible repeat' first
    | rfl | refine State.modTbl_links.trans ?_

theorem enterEntry_links {s : State} {t i : Nat} {e : Entry} :
    State.links (enterEntry s t i e) = State.links s := by
  unfold enterEntry
  with_reducible repeat' first
    | rfl | refine State.modTbl_links.trans ?_ | refine State.mirror_links.trans ?_ | split

theorem countArrival_links {s : State} {t outcome : Nat} :
    State.links (countArrival s t outcome) = State.links s := by
  unfold countArrival
  with_reducible repeat' first
    | rfl | apply State.links_ite | refine State.modTbl_links.trans ?_ | split

theorem actRecord_links {s : State} {t i : Nat} {e : Entry} {outcome detail lateUs skipped : Nat} {final : Bool} :
    State.links (actRecord s t i e outcome detail lateUs skipped final) = State.links s := by
  unfold actRecord
  with_reducible repeat' first
    | rfl | apply State.links_ite | refine (State.modCh_links ?_).trans ?_ | intro _
    | refine State.modEv_links.trans ?_ | refine raise_links.trans ?_ | split

theorem actOutcome_links {s : State} {t i : Nat} {e : Entry} {outcome detail lateUs : Nat} {final : Bool} :
    State.links (actOutcome s t i e outcome detail lateUs final) = State.links s := by
  unfold actOutcome
  with_reducible repeat' first
    | rfl | apply State.links_ite | refine State.modTbl_links.trans ?_ | refine actRecord_links.trans ?_
    | refine State.modEnt_links.trans ?_ | split

theorem endEntry_links {s : State} {t i : Nat} {e : Entry} :
    State.links (endEntry s t i e) = State.links s := by
  unfold endEntry
  with_reducible repeat' first
    | rfl | apply State.links_ite | refine State.modEnt_links.trans ?_ | refine State.modTbl_links.trans ?_
    | refine State.mirror_links.trans ?_ | split

theorem occOutcome_links {s : State} {t i : Nat} {e : Entry} {outcome detail lateUs : Nat} {last : Bool} :
    State.links (occOutcome s t i e outcome detail lateUs last) = State.links s := by
  unfold occOutcome
  with_reducible repeat' first
    | rfl | apply State.links_ite | refine actOutcome_links.trans ?_ | refine endEntry_links.trans ?_ | split

theorem cancelEntry_links {s : State} {t i : Nat} {e : Entry} {detail : Nat} :
    State.links (cancelEntry s t i e detail) = State.links s := by
  unfold cancelEntry
  with_reducible repeat' first
    | rfl | refine actOutcome_links.trans ?_ | refine State.modTbl_links.trans ?_
    | refine State.mirror_links.trans ?_

theorem actFrameDone_links {s : State} {f : TxFrame} {outcome detail : Nat} :
    State.links (actFrameDone s f outcome detail) = State.links s := by
  unfold actFrameDone
  with_reducible repeat' first
    | rfl | apply State.links_ite | refine State.modEnt_links.trans ?_ | refine occOutcome_links.trans ?_ | split

theorem frameEnds_links {s : State} {n : Nat} {f : TxFrame} {status detail : Nat} {tsq : Bool} {info : Word} :
    State.links (frameEnds s n f status detail tsq info) = State.links s := by
  unfold frameEnds
  with_reducible repeat' first
    | rfl | apply State.links_ite | refine actFrameDone_links.trans ?_ | refine sendReport_links.trans ?_
    | refine finish_links.trans ?_ | split

theorem outcomeReportedOp_links {n : Nat} {s : State} :
    State.links (outcomeReportedOp n s) = State.links s := by
  unfold outcomeReportedOp
  with_reducible repeat' first
    | rfl | apply State.links_ite | refine finish_links.trans ?_ | refine (State.modCh_links ?_).trans ?_ | intro _
    | split

theorem releaseRecs_links {s : State} {n : Nat} :
    State.links (releaseRecs s n) = State.links s := by
  unfold releaseRecs
  with_reducible repeat' first
    | rfl | intro _ | apply State.links_foldl | refine raise_links.trans ?_ | refine (State.modCh_links ?_).trans ?_
    | intro _


theorem chRaise_links {s : State} {n b kind subject : Nat} {payload : List Byte} :
    State.links (chRaise s n b kind subject payload) = State.links s := by
  unfold chRaise
  with_reducible repeat' first
    | rfl | apply State.links_ite | refine (State.modCh_links ?_).trans ?_ | intro _
    | refine State.modEv_links.trans ?_ | refine raise_links.trans ?_ | split

theorem chRaiseBoth_links {s : State} {n kind subject : Nat} {payload : List Byte} :
    State.links (chRaiseBoth s n kind subject payload) = State.links s := by
  unfold chRaiseBoth
  with_reducible repeat' first
    | rfl | apply State.links_ite | refine chRaise_links.trans ?_ | split

theorem touchImages_links {s : State} {n x : Nat} {ps : List (Nat × Point)} :
    State.links (touchImages s n x ps) = State.links s := by
  unfold touchImages
  with_reducible repeat' first
    | rfl | intro _ | apply State.links_ite | apply State.links_foldl | refine State.modCan_links.trans ?_
    | refine State.tick1_links.trans ?_ | split

theorem canEnqueue_links {s : State} {n x : Nat} {f : TxFrame} :
    State.links (canEnqueue s n x f) = State.links s := by
  unfold canEnqueue
  with_reducible repeat' first
    | rfl | apply State.links_ite | refine frameEnds_links.trans ?_ | refine State.modCan_links.trans ?_ | split

theorem canCommand_links {s : State} {n x h : Nat} {p : Point} {v : Slot} {f : TxFrame} :
    State.links (canCommand s n x h p v f) = State.links s := by
  unfold canCommand
  with_reducible repeat' first
    | rfl | apply State.links_ite | refine frameEnds_links.trans ?_ | refine touchImages_links.trans ?_
    | refine State.modCan_links.trans ?_ | refine canEnqueue_links.trans ?_ | split

theorem cancelAnswer_links {s : State} {n : Nat} {f : TxFrame} {status : Nat} :
    State.links (cancelAnswer s n f status) = State.links s := by
  unfold cancelAnswer
  with_reducible repeat' first
    | rfl | intro _ | apply State.links_ite | apply State.links_foldl | refine sendReport_links.trans ?_
    | refine finish_links.trans ?_ | split

theorem endFrames_links {s : State} {n : Nat} {fs : List TxFrame} {status detail req : Nat} :
    State.links (endFrames s n fs status detail req) = State.links s := by
  unfold endFrames
  with_reducible repeat' first
    | rfl | intro _ | apply State.links_foldl | refine cancelAnswer_links.trans ?_ | refine frameEnds_links.trans ?_

theorem canFaultUpdate_links {s : State} {n x : Nat} :
    State.links (canFaultUpdate s n x) = State.links s := by
  unfold canFaultUpdate
  with_reducible repeat' first
    | rfl | apply State.links_ite | refine State.modCan_links.trans ?_ | refine chRaise_links.trans ?_
    | refine endFrames_links.trans ?_ | split

theorem noAck_links {s : State} {n x : Nat} {f : TxFrame} :
    State.links (noAck s n x f) = State.links s := by
  unfold noAck
  with_reducible repeat' first
    | rfl | apply State.links_ite | refine State.modCan_links.trans ?_ | refine chRaiseBoth_links.trans ?_ | split

theorem recDown_links {s : State} {n x : Nat} :
    State.links (recDown s n x) = State.links s := by
  unfold recDown
  with_reducible repeat' first
    | rfl | apply State.links_ite | refine canFaultUpdate_links.trans ?_ | refine State.modCan_links.trans ?_
    | refine State.tick1_links.trans ?_ | split

theorem canStage_links {s : State} {n x q : Nat} {f : RxFrame} {rings : List Nat} :
    State.links (canStage s n x q f rings) = State.links s := by
  unfold canStage
  with_reducible repeat' first
    | rfl | apply State.links_ite | refine State.modCan_links.trans ?_ | refine chRaise_links.trans ?_
    | refine (State.modCh_links ?_).trans ?_ | intro _ | split

theorem canDecode_links {s : State} {n x : Nat} {f : CanFrame} {stamp : Instant} :
    State.links (canDecode s n x f stamp) = State.links s := by
  unfold canDecode
  with_reducible repeat' first
    | rfl | intro _ | apply State.links_foldl | refine acquire_links.trans ?_ | split

theorem canNodeTmoOp_links {n x id : Nat} {ide : Bool} {s : State} :
    State.links (canNodeTmoOp n x id ide s) = State.links s := by
  unfold canNodeTmoOp
  with_reducible repeat' first
    | rfl | intro _ | apply State.links_ite | apply State.links_foldl | refine State.modCan_links.trans ?_
    | refine acquire_links.trans ?_ | refine chRaise_links.trans ?_ | split

theorem canApply_links {s : State} {n x : Nat} :
    State.links (canApply s n x) = State.links s := by
  unfold canApply
  with_reducible repeat' first
    | rfl | apply State.links_ite | refine State.modCan_links.trans ?_ | refine endFrames_links.trans ?_ | split

theorem canCtlOp_links {n x : Nat} {data : Word} {s : State} :
    State.links (canCtlOp n x data s) = State.links s := by
  unfold canCtlOp
  with_reducible repeat' first
    | rfl | apply State.links_ite | refine State.setReg_links.trans ?_ | refine State.modCan_links.trans ?_ | split

theorem recoverOp_links {n x : Nat} {s : State} :
    State.links (recoverOp n x s) = State.links s := by
  unfold recoverOp
  with_reducible repeat' first
    | rfl | apply State.links_ite | refine State.modCan_links.trans ?_ | split

theorem canModeOp_links {n x : Nat} {s : State} :
    State.links (canModeOp n x s) = State.links s := by
  unfold canModeOp
  with_reducible repeat' first
    | rfl | apply State.links_ite | refine canApply_links.trans ?_ | split

theorem canIntegrateOp_links {n x : Nat} {s : State} :
    State.links (canIntegrateOp n x s) = State.links s := by
  unfold canIntegrateOp
  with_reducible repeat' first
    | rfl | apply State.links_ite | refine State.modCan_links.trans ?_ | split

theorem canBusOnOp_links {n x us : Nat} {s : State} :
    State.links (canBusOnOp n x us s) = State.links s := by
  unfold canBusOnOp
  with_reducible repeat' first
    | rfl | apply State.links_ite | refine State.modCan_links.trans ?_ | refine chRaise_links.trans ?_
    | refine canApply_links.trans ?_ | split

theorem canArbOp_links {n x : Nat} {won : Bool} {s : State} :
    State.links (canArbOp n x won s) = State.links s := by
  unfold canArbOp
  with_reducible repeat' first
    | rfl | apply State.links_ite | refine endFrames_links.trans ?_ | refine State.modCan_links.trans ?_ | split

theorem canTxErrOp_links {n x : Nat} {err : CanErr} {dataPhase dominant : Bool} {s : State} :
    State.links (canTxErrOp n x err dataPhase dominant s) = State.links s := by
  unfold canTxErrOp
  with_reducible repeat' first
    | rfl | apply State.links_ite | refine State.modCan_links.trans ?_ | refine noAck_links.trans ?_
    | refine canFaultUpdate_links.trans ?_ | refine endFrames_links.trans ?_ | split

theorem canRxErrOp_links {n x : Nat} {err : CanErr} {dataPhase severe : Bool} {s : State} :
    State.links (canRxErrOp n x err dataPhase severe s) = State.links s := by
  unfold canRxErrOp
  with_reducible repeat' first
    | rfl | apply State.links_ite | refine State.modCan_links.trans ?_ | refine canFaultUpdate_links.trans ?_
    | split

theorem canProtoOp_links {n x : Nat} {s : State} :
    State.links (canProtoOp n x s) = State.links s := by
  unfold canProtoOp
  with_reducible repeat' first
    | rfl | apply State.links_ite | refine State.modCan_links.trans ?_ | refine chRaise_links.trans ?_ | split


theorem netCount_links {s : State} {p o : Nat} :
    State.links (netCount s p o) = State.links s := by
  unfold netCount
  with_reducible repeat' first
    | rfl | refine State.modNet_links.trans ?_ | split

theorem netInt_links {s : State} {p i : Nat} :
    State.links (netInt s p i) = State.links s := by
  unfold netInt
  with_reducible repeat' first
    | rfl | refine State.intBit_links.trans ?_

theorem netAct_links {s : State} {p : Nat} :
    State.links (netAct s p) = State.links s := by
  unfold netAct
  with_reducible repeat' first
    | rfl | refine State.emit_links.trans ?_

theorem netKick_links {s : State} {p : Nat} :
    State.links (netKick s p) = State.links s := by
  unfold netKick
  with_reducible repeat' first
    | rfl | apply State.links_ite | refine State.modNet_links.trans ?_ | split

theorem netPreempt_links {s : State} {p : Nat} :
    State.links (netPreempt s p) = State.links s := by
  unfold netPreempt
  with_reducible repeat' first
    | rfl | apply State.links_ite | refine State.tick1_links.trans ?_ | refine netCount_links.trans ?_
    | refine State.modNet_links.trans ?_ | split

theorem netEnqueue_links {s : State} {p : Nat} {f : TxFrame} :
    State.links (netEnqueue s p f) = State.links s := by
  unfold netEnqueue
  with_reducible repeat' first
    | rfl | apply State.links_ite | refine frameEnds_links.trans ?_ | refine State.modNet_links.trans ?_
    | refine netKick_links.trans ?_ | refine netPreempt_links.trans ?_ | split

theorem netLinkRec_links {s : State} {p : Nat} :
    State.links (netLinkRec s p) = State.links s := by
  unfold netLinkRec
  with_reducible repeat' first
    | rfl | apply State.links_ite | refine netInt_links.trans ?_ | refine raise_links.trans ?_ | split

theorem netVerifyStart_links {s : State} {p : Nat} :
    State.links (netVerifyStart s p) = State.links s := by
  unfold netVerifyStart
  with_reducible repeat' first
    | rfl | apply State.links_ite | refine State.modNet_links.trans ?_ | refine State.emit_links.trans ?_ | split

theorem netUpOp_links {p speed : Nat} {rx tx : Bool} {s : State} :
    State.links (netUpOp p speed rx tx s) = State.links s := by
  unfold netUpOp
  with_reducible repeat' first
    | rfl | apply State.links_ite | refine State.modNet_links.trans ?_ | refine netVerifyStart_links.trans ?_
    | refine netLinkRec_links.trans ?_ | split

theorem netDownOp_links {p : Nat} {s : State} :
    State.links (netDownOp p s) = State.links s := by
  unfold netDownOp
  with_reducible repeat' first
    | rfl | intro _ | apply State.links_ite | apply State.links_foldl | refine State.modNet_links.trans ?_
    | refine netCount_links.trans ?_ | refine cancelAnswer_links.trans ?_ | refine frameEnds_links.trans ?_
    | refine netInt_links.trans ?_ | refine endFrames_links.trans ?_ | refine netLinkRec_links.trans ?_ | split

theorem netDisableOp_links {p : Nat} {s : State} :
    State.links (netDisableOp p s) = State.links s := by
  unfold netDisableOp
  with_reducible repeat' first
    | rfl | apply State.links_ite | refine endFrames_links.trans ?_ | refine State.modNet_links.trans ?_
    | refine netDownOp_links.trans ?_ | split

theorem sendXoff_links {s : State} {p : Nat} :
    State.links (sendXoff s p) = State.links s := by
  unfold sendXoff
  with_reducible repeat' first
    | rfl | refine netCount_links.trans ?_ | refine netAct_links.trans ?_ | refine State.emit_links.trans ?_

theorem netFlow_links {s : State} {p : Nat} :
    State.links (netFlow s p) = State.links s := by
  unfold netFlow
  with_reducible repeat' first
    | rfl | apply State.links_ite | refine sendXoff_links.trans ?_ | refine State.modNet_links.trans ?_ | split

theorem xoffRepeatOp_links {p : Nat} {s : State} :
    State.links (xoffRepeatOp p s) = State.links s := by
  unfold xoffRepeatOp
  with_reducible repeat' first
    | rfl | apply State.links_ite | refine sendXoff_links.trans ?_ | split

theorem xonOp_links {p : Nat} {s : State} :
    State.links (xonOp p s) = State.links s := by
  unfold xonOp
  with_reducible repeat' first
    | rfl | apply State.links_ite | refine netCount_links.trans ?_ | refine netAct_links.trans ?_
    | refine State.modNet_links.trans ?_ | refine State.emit_links.trans ?_ | split

theorem pauseRxOp_links {p quanta : Nat} {s : State} :
    State.links (pauseRxOp p quanta s) = State.links s := by
  unfold pauseRxOp
  with_reducible repeat' first
    | rfl | apply State.links_ite | refine netCount_links.trans ?_ | refine State.modNet_links.trans ?_
    | refine netKick_links.trans ?_ | refine netPreempt_links.trans ?_ | split

theorem pauseExpiryOp_links {p : Nat} {s : State} :
    State.links (pauseExpiryOp p s) = State.links s := by
  unfold pauseExpiryOp
  with_reducible repeat' first
    | rfl | apply State.links_ite | refine netKick_links.trans ?_ | refine State.modNet_links.trans ?_ | split

theorem verifyRxOp_links {p : Nat} {s : State} :
    State.links (verifyRxOp p s) = State.links s := by
  unfold verifyRxOp
  with_reducible repeat' first
    | rfl | apply State.links_ite | refine State.emit_links.trans ?_ | split

theorem netVerifyRec_links {s : State} {p code : Nat} :
    State.links (netVerifyRec s p code) = State.links s := by
  unfold netVerifyRec
  with_reducible repeat' first
    | rfl | refine netInt_links.trans ?_ | refine raise_links.trans ?_

theorem verifyRespOp_links {p : Nat} {s : State} :
    State.links (verifyRespOp p s) = State.links s := by
  unfold verifyRespOp
  with_reducible repeat' first
    | rfl | apply State.links_ite | refine netVerifyRec_links.trans ?_ | refine State.modNet_links.trans ?_ | split

theorem verifyTmoOp_links {p : Nat} {s : State} :
    State.links (verifyTmoOp p s) = State.links s := by
  unfold verifyTmoOp
  with_reducible repeat' first
    | rfl | apply State.links_ite | refine State.modNet_links.trans ?_ | refine State.emit_links.trans ?_
    | refine netVerifyRec_links.trans ?_ | split

theorem holdOp_links {p : Nat} {s : State} :
    State.links (holdOp p s) = State.links s := by
  unfold holdOp
  with_reducible repeat' first
    | rfl | apply State.links_ite | refine netPreempt_links.trans ?_ | refine State.modNet_links.trans ?_ | split

theorem netStage_links {s : State} {p : Nat} {b : List Byte} {stamp : Instant} :
    State.links (netStage s p b stamp) = State.links s := by
  unfold netStage
  with_reducible repeat' first
    | rfl | apply State.links_ite | refine State.modNet_links.trans ?_ | refine netCount_links.trans ?_
    | refine netInt_links.trans ?_ | refine raise_links.trans ?_ | refine netFlow_links.trans ?_ | split

theorem netJudge_links {s : State} {p : Nat} {f : EthFrame} {stamp : Instant} :
    State.links (netJudge s p f stamp) = State.links s := by
  unfold netJudge
  with_reducible repeat' first
    | rfl | apply State.links_ite | refine netAct_links.trans ?_ | refine netCount_links.trans ?_
    | refine pauseRxOp_links.trans ?_ | refine netStage_links.trans ?_ | split

theorem reasmErr_links {s : State} {p : Nat} :
    State.links (reasmErr s p) = State.links s := by
  unfold reasmErr
  with_reducible repeat' first
    | rfl | refine netCount_links.trans ?_ | refine State.modNet_links.trans ?_

theorem netRxOp_links {p : Nat} {rx : NetRx} {stamp : Instant} {s : State} :
    State.links (netRxOp p rx stamp s) = State.links s := by
  unfold netRxOp
  with_reducible repeat' first
    | rfl | apply State.links_ite | refine netJudge_links.trans ?_ | refine reasmErr_links.trans ?_
    | refine State.modNet_links.trans ?_ | split

theorem reasmTmoOp_links {p : Nat} {s : State} :
    State.links (reasmTmoOp p s) = State.links s := by
  unfold reasmTmoOp
  with_reducible repeat' first
    | rfl | apply State.links_ite | refine reasmErr_links.trans ?_ | split

theorem netCtlWritten_links {s : State} {p : Nat} :
    State.links (netCtlWritten s p) = State.links s := by
  unfold netCtlWritten
  with_reducible repeat' first
    | rfl | apply State.links_ite | refine netVerifyStart_links.trans ?_ | refine netFlow_links.trans ?_ | split


theorem segCount_links {s : State} {n x o : Nat} :
    State.links (segCount s n x o) = State.links s := by
  unfold segCount
  with_reducible repeat' first
    | rfl | refine State.modSeg_links.trans ?_ | split

theorem segKick_links {s : State} {n x : Nat} :
    State.links (segKick s n x) = State.links s := by
  unfold segKick
  with_reducible repeat' first
    | rfl | apply State.links_ite | refine State.modSeg_links.trans ?_ | split

theorem segEnqueue_links {s : State} {n x : Nat} {f : TxFrame} :
    State.links (segEnqueue s n x f) = State.links s := by
  unfold segEnqueue
  with_reducible repeat' first
    | rfl | apply State.links_ite | refine frameEnds_links.trans ?_ | refine segCount_links.trans ?_
    | refine State.modSeg_links.trans ?_ | refine segKick_links.trans ?_ | split

theorem segCommand_links {s : State} {n x h : Nat} {p : Point} {v : Slot} {f : TxFrame} :
    State.links (segCommand s n x h p v f) = State.links s := by
  unfold segCommand
  with_reducible repeat' first
    | rfl | refine frameEnds_links.trans ?_ | refine State.modSeg_links.trans ?_ | refine segEnqueue_links.trans ?_
    | split

theorem nextOpp_links {s : State} {n x : Nat} :
    State.links (nextOpp s n x) = State.links s := by
  unfold nextOpp
  with_reducible repeat' first
    | rfl | apply State.links_ite | refine segKick_links.trans ?_ | refine State.modSeg_links.trans ?_ | split

theorem segCollOp_links {n x : Nat} {late : Bool} {s : State} :
    State.links (segCollOp n x late s) = State.links s := by
  unfold segCollOp
  with_reducible repeat' first
    | rfl | apply State.links_ite | refine segCount_links.trans ?_ | refine State.modSeg_links.trans ?_
    | refine chRaiseBoth_links.trans ?_ | refine nextOpp_links.trans ?_ | refine endFrames_links.trans ?_
    | refine State.tick1_links.trans ?_ | split

theorem backoffOp_links {n x : Nat} {s : State} :
    State.links (backoffOp n x s) = State.links s := by
  unfold backoffOp
  with_reducible repeat' first
    | rfl | apply State.links_ite | refine segKick_links.trans ?_ | refine State.modSeg_links.trans ?_ | split

theorem plcaSet_links {s : State} {n x : Nat} {on : Bool} :
    State.links (plcaSet s n x on) = State.links s := by
  unfold plcaSet
  with_reducible repeat' first
    | rfl | apply State.links_ite | refine chRaise_links.trans ?_ | refine State.modSeg_links.trans ?_ | split

theorem plcaBeaconOp_links {n x : Nat} {s : State} :
    State.links (plcaBeaconOp n x s) = State.links s := by
  unfold plcaBeaconOp
  with_reducible repeat' first
    | rfl | apply State.links_ite | refine plcaSet_links.trans ?_ | refine segCount_links.trans ?_
    | refine segKick_links.trans ?_ | refine State.modSeg_links.trans ?_ | split

theorem plcaToOp_links {n x : Nat} {s : State} :
    State.links (plcaToOp n x s) = State.links s := by
  unfold plcaToOp
  with_reducible repeat' first
    | rfl | apply State.links_ite | refine nextOpp_links.trans ?_ | split

theorem plcaLossOp_links {n x : Nat} {s : State} :
    State.links (plcaLossOp n x s) = State.links s := by
  unfold plcaLossOp
  with_reducible repeat' first
    | rfl | apply State.links_ite | refine segKick_links.trans ?_ | refine plcaSet_links.trans ?_ | split

theorem segApply_links {s : State} {n x : Nat} :
    State.links (segApply s n x) = State.links s := by
  unfold segApply
  with_reducible repeat' first
    | rfl | apply State.links_ite | refine State.modSeg_links.trans ?_ | refine plcaSet_links.trans ?_
    | refine endFrames_links.trans ?_ | refine segKick_links.trans ?_ | split

theorem segModeOp_links {n x : Nat} {s : State} :
    State.links (segModeOp n x s) = State.links s := by
  unfold segModeOp
  with_reducible repeat' first
    | rfl | apply State.links_ite | refine segApply_links.trans ?_ | split

theorem segAcquire_links {s : State} {h : Nat} {p : Point} {b : List Byte} {count i : Nat} {stamp : Instant} :
    State.links (segAcquire s h p b count i stamp) = State.links s := by
  unfold segAcquire
  with_reducible repeat' first
    | rfl | refine acquire_links.trans ?_ | split

theorem segStage_links {s : State} {n x basin : Nat} {f : RxFrame} {rings : List Nat} :
    State.links (segStage s n x basin f rings) = State.links s := by
  unfold segStage
  with_reducible repeat' first
    | rfl | apply State.links_ite | refine State.modSeg_links.trans ?_ | refine segCount_links.trans ?_
    | refine chRaise_links.trans ?_ | refine (State.modCh_links ?_).trans ?_ | intro _ | split

theorem segNodeTmoOp_links {n x j : Nat} {s : State} :
    State.links (segNodeTmoOp n x j s) = State.links s := by
  unfold segNodeTmoOp
  with_reducible repeat' first
    | rfl | intro _ | apply State.links_ite | apply State.links_foldl | refine State.modSeg_links.trans ?_
    | refine acquire_links.trans ?_ | refine chRaise_links.trans ?_ | split


theorem driveDout_links {s : State} {n d : Nat} {v : Bool} {stamp : Instant} :
    State.links (driveDout s n d v stamp) = State.links s := by
  unfold driveDout
  with_reducible repeat' first
    | rfl | apply State.links_ite | refine latchDout_links.trans ?_ | refine State.mirror_links.trans ?_ | split

theorem driveAout_links {s : State} {n t code : Nat} {stamp : Instant} :
    State.links (driveAout s n t code stamp) = State.links s := by
  unfold driveAout
  with_reducible repeat' first
    | rfl | refine latchAout_links.trans ?_ | refine State.mirror_links.trans ?_

theorem writePoint_links {s : State} {n h : Nat} {p : Point} {v : Slot} {f : TxFrame} :
    State.links (writePoint s n h p v f) = State.links s := by
  unfold writePoint
  with_reducible repeat' first
    | rfl | apply State.links_ite | refine frameEnds_links.trans ?_ | refine presetCnt_links.trans ?_
    | refine driveDout_links.trans ?_ | refine driveAout_links.trans ?_ | refine canCommand_links.trans ?_
    | refine State.mirror_links.trans ?_ | refine segCommand_links.trans ?_ | split

theorem tagMismatch_links {s : State} {n h tag owner : Nat} :
    State.links (tagMismatch s n h tag owner) = State.links s := by
  unfold tagMismatch
  with_reducible repeat' first
    | rfl | refine chRaise_links.trans ?_


theorem State.modSlot_links {s : State} {n slot : Nat} {f : LoopRt → LoopRt} :
    State.links (State.modSlot s n slot f) = State.links s := by
  unfold State.modSlot
  with_reducible repeat' first
    | rfl | refine (State.modCh_links ?_).trans ?_ | intro _

theorem slotCtlApplied_links {s : State} {n slot : Nat} {old new : Word} :
    State.links (slotCtlApplied s n slot old new) = State.links s := by
  unfold slotCtlApplied
  with_reducible repeat' first
    | rfl | apply State.links_ite | refine State.modSlot_links.trans ?_ | split

theorem slotWriteOp_links {n slot w : Nat} {be : BitVec 4} {data : Word} {s : State} :
    State.links (slotWriteOp n slot w be data s) = State.links s := by
  unfold slotWriteOp
  with_reducible repeat' first
    | rfl | apply State.links_ite | refine State.setReg_links.trans ?_ | refine State.mirror_links.trans ?_
    | refine slotCtlApplied_links.trans ?_ | split

theorem clearEn_links {s : State} {n slot : Nat} :
    State.links (clearEn s n slot) = State.links s := by
  unfold clearEn
  with_reducible repeat' first
    | rfl | refine slotCtlApplied_links.trans ?_ | refine State.setReg_links.trans ?_

theorem feTrip_links {s : State} {n slot : Nat} :
    State.links (feTrip s n slot) = State.links s := by
  unfold feTrip
  with_reducible repeat' first
    | rfl | apply State.links_ite | refine (State.modCh_links ?_).trans ?_ | intro _ | refine clearEn_links.trans ?_
    | refine State.modSlot_links.trans ?_ | split

theorem loopCommand_links {s : State} {n : Nat} {l : Loop} {b : Bank} {u : Int} :
    State.links (loopCommand s n l b u) = State.links s := by
  unfold loopCommand
  with_reducible repeat' first
    | rfl | apply State.links_ite | refine acquire_links.trans ?_ | refine writePoint_links.trans ?_
    | refine tagMismatch_links.trans ?_ | refine (State.modCh_links ?_).trans ?_ | intro _ | split

theorem publishLoop_links {s : State} {n id : Nat} {b : Bank} {r : LoopRt} :
    State.links (publishLoop s n id b r) = State.links s := by
  unfold publishLoop
  with_reducible repeat' first
    | rfl | intro _ | apply State.links_ite | apply State.links_foldl | refine acquire_links.trans ?_ | split

theorem snapselOp_links {n slot : Nat} {s : State} :
    State.links (snapselOp n slot s) = State.links s := by
  unfold snapselOp
  with_reducible repeat' first
    | rfl | refine State.setReg_links.trans ?_ | refine (State.modCh_links ?_).trans ?_ | intro _


theorem resubscribe_links {s : State} :
    State.links (resubscribe s) = State.links s := by
  unfold resubscribe
  with_reducible repeat' first
    | rfl | intro _ | apply State.links_ite | apply State.links_foldl | refine State.modPt_links.trans ?_
    | refine (State.modCh_links ?_).trans ?_ | intro _ | split

theorem groupTxnEnded_links {s : State} {i result : Nat} :
    State.links (groupTxnEnded s i result) = State.links s := by
  unfold groupTxnEnded
  with_reducible repeat' first
    | rfl | apply State.links_ite | refine State.modEnt_links.trans ?_ | refine occOutcome_links.trans ?_
    | refine cancelEntry_links.trans ?_ | split

theorem txnStateErr_links {s : State} {c : Nat} :
    State.links (txnStateErr s c) = State.links s := by
  unfold txnStateErr
  with_reducible repeat' first
    | rfl | refine State.modTxn_links.trans ?_

theorem beginOp_links {fn : Nat} {s : State} :
    State.links (beginOp fn s) = State.links s := by
  unfold beginOp
  with_reducible repeat' first
    | rfl | apply State.links_ite | refine txnStateErr_links.trans ?_ | refine State.modTxn_links.trans ?_ | split

theorem stageWord_links {s : State} {fn key : Nat} {be : BitVec 4} {w : Word} :
    State.links (stageWord s fn key be w) = State.links s := by
  unfold stageWord
  with_reducible repeat' first
    | rfl | apply State.links_ite | refine State.modTxn_links.trans ?_ | split

theorem prepareAckOp_links {c ch : Nat} {s : State} :
    State.links (prepareAckOp c ch s) = State.links s := by
  unfold prepareAckOp
  with_reducible repeat' first
    | rfl | apply State.links_ite | refine State.modTxn_links.trans ?_ | refine State.mirror_links.trans ?_ | split

theorem goOp_links {c : Nat} {s : State} :
    State.links (goOp c s) = State.links s := by
  unfold goOp
  with_reducible repeat' first
    | rfl | intro _ | apply State.links_ite | apply State.links_foldl | refine State.modTxn_links.trans ?_
    | refine State.emit_links.trans ?_ | split

theorem goAckOp_links {c ch : Nat} {s : State} :
    State.links (goAckOp c ch s) = State.links s := by
  unfold goAckOp
  with_reducible repeat' first
    | rfl | apply State.links_ite | refine State.modTxn_links.trans ?_ | split


theorem fireDouts_links {s : State} {n : Nat} {mask value : BitVec 8} {stamp : Nat → Bool → Instant} :
    State.links (fireDouts s n mask value stamp) = State.links s := by
  unfold fireDouts
  with_reducible repeat' first
    | rfl | intro _ | apply State.links_ite | apply State.links_foldl | refine driveDout_links.trans ?_ | split

theorem fireAout_links {s : State} {n t code : Nat} {stamp : Instant} :
    State.links (fireAout s n t code stamp) = State.links s := by
  unfold fireAout
  with_reducible repeat' first
    | rfl | apply State.links_ite | refine driveAout_links.trans ?_ | split

theorem actOn_links {s : State} {t i : Nat} {e : Entry} {occ : Instant} :
    State.links (actOn s t i e occ) = State.links s := by
  unfold actOn
  with_reducible repeat' first
    | rfl | apply State.links_ite | refine occOutcome_links.trans ?_ | refine State.modEnt_links.trans ?_
    | refine fireDouts_links.trans ?_ | refine fireAout_links.trans ?_ | refine adcBurstOp_links.trans ?_
    | refine State.modDio_links.trans ?_ | refine canEnqueue_links.trans ?_ | refine netEnqueue_links.trans ?_
    | refine segEnqueue_links.trans ?_ | refine acquire_links.trans ?_ | refine writePoint_links.trans ?_ | split

theorem noteFired_links {s : State} {e : Entry} :
    State.links (noteFired s e) = State.links s := by
  unfold noteFired
  with_reducible repeat' first
    | rfl | apply State.links_ite | split

theorem fireEntry_links {early : Bool} {t i : Nat} {s : State} :
    State.links (fireEntry early t i s) = State.links s := by
  unfold fireEntry
  with_reducible repeat' first
    | rfl | apply State.links_ite | refine cancelEntry_links.trans ?_ | refine State.modEnt_links.trans ?_
    | refine occOutcome_links.trans ?_ | refine actOutcome_links.trans ?_ | refine State.mirror_links.trans ?_
    | refine noteFired_links.trans ?_ | refine actOn_links.trans ?_ | split

theorem actionFireOp_links {t i : Nat} {s : State} :
    State.links (actionFireOp t i s) = State.links s := by
  unfold actionFireOp
  with_reducible repeat' first
    | rfl | intro _ | apply State.links_ite | apply State.links_foldl | refine fireEntry_links.trans ?_ | split

theorem actTimeValid_links {s : State} {t : Nat} :
    State.links (actTimeValid s t) = State.links s := by
  unfold actTimeValid
  with_reducible repeat' first
    | rfl | intro _ | apply State.links_ite | apply State.links_foldl | refine occOutcome_links.trans ?_
    | refine State.modEnt_links.trans ?_ | split

theorem actSteppedBack_links {s : State} {t : Nat} :
    State.links (actSteppedBack s t) = State.links s := by
  unfold actSteppedBack
  with_reducible repeat' first
    | rfl | apply State.links_ite | refine State.modTbl_links.trans ?_ | split

theorem tableOffOp_links {n : Nat} {s : State} :
    State.links (tableOffOp n s) = State.links s := by
  unfold tableOffOp
  with_reducible repeat' first
    | rfl | intro _ | apply State.links_ite | apply State.links_foldl | refine State.setReg_links.trans ?_
    | refine (State.modCh_links ?_).trans ?_ | intro _ | refine cancelEntry_links.trans ?_
    | refine actOutcome_links.trans ?_ | refine State.modEnt_links.trans ?_ | split

theorem tableOnOp_links {n : Nat} {s : State} :
    State.links (tableOnOp n s) = State.links s := by
  unfold tableOnOp
  with_reducible repeat' first
    | rfl | apply State.links_ite | refine State.setReg_links.trans ?_ | refine (State.modCh_links ?_).trans ?_
    | intro _ | refine State.modTbl_links.trans ?_ | split

theorem calStartOp_links {n : Nat} {sel : Word} {s : State} :
    State.links (calStartOp n sel s) = State.links s := by
  unfold calStartOp
  with_reducible repeat' first
    | rfl | apply State.links_ite | refine State.setReg_links.trans ?_ | refine State.modDio_links.trans ?_ | split

theorem calDoneOp_links {n : Nat} {results : List (Nat × Nat × Nat)} {s : State} :
    State.links (calDoneOp n results s) = State.links s := by
  unfold calDoneOp
  with_reducible repeat' first
    | rfl | intro _ | apply State.links_ite | apply State.links_foldl | refine State.setReg_links.trans ?_
    | refine State.modDio_links.trans ?_ | split


theorem clearAlert_links {s : State} {w : Word} :
    State.links (clearAlert s w) = State.links s := by
  unfold clearAlert
  with_reducible repeat' first
    | rfl | refine State.alert_links.trans ?_

theorem clearInt_links {s : State} {key : Nat} {w : Word} :
    State.links (clearInt s key w) = State.links s := by
  unfold clearInt
  with_reducible repeat' first
    | rfl | refine State.setReg_links.trans ?_

theorem sendPending_links {s : State} {b : Nat} :
    State.links (sendPending s b) = State.links s := by
  unfold sendPending
  with_reducible repeat' first
    | rfl | intro _ | apply State.links_foldl | refine State.modFn_links.trans ?_
    | refine State.sendVec_links.trans ?_


theorem dbError_links {s : State} {k field refused inForce : Nat} :
    State.links (dbError s k field refused inForce) = State.links s := by
  unfold dbError
  with_reducible repeat' first
    | rfl | apply State.links_ite | refine State.modRing_links.trans ?_ | refine raise_links.trans ?_ | split

theorem dbIdx_links {s : State} {k v : Nat} :
    State.links (dbIdx s k v) = State.links s := by
  unfold dbIdx
  with_reducible repeat' first
    | rfl | apply State.links_ite | refine State.modRing_links.trans ?_ | refine dbError_links.trans ?_ | split

theorem dbCpl_links {s : State} {k v : Nat} :
    State.links (dbCpl s k v) = State.links s := by
  unfold dbCpl
  with_reducible repeat' first
    | rfl | apply State.links_ite | refine State.modRing_links.trans ?_ | refine dbError_links.trans ?_ | split

theorem dbArm_links {s : State} {k : Nat} :
    State.links (dbArm s k) = State.links s := by
  unfold dbArm
  with_reducible repeat' first
    | rfl | refine State.modRing_links.trans ?_ | refine ringNotify_links.trans ?_

theorem doorbellOp_links {b r : Nat} {be : BitVec 8} {data : BitVec 64} {s : State} :
    State.links (doorbellOp b r be data s) = State.links s := by
  unfold doorbellOp
  with_reducible repeat' first
    | rfl | apply State.links_ite | refine dbIdx_links.trans ?_ | refine dbCpl_links.trans ?_
    | refine dbArm_links.trans ?_ | split

theorem evconsOp_links {b : Nat} {data : Word} {s : State} :
    State.links (evconsOp b data s) = State.links s := by
  unfold evconsOp
  with_reducible repeat' first
    | rfl | apply State.links_ite | refine State.modEv_links.trans ?_ | refine raise_links.trans ?_
    | refine State.flushEv_links.trans ?_ | refine evNotify_links.trans ?_ | split

theorem trigger_links {s : State} {t : Nat} :
    State.links (trigger s t) = State.links s := by
  unfold trigger
  with_reducible repeat' first
    | rfl | refine State.modWs_links.trans ?_ | split

theorem ringEnableOp_links {b r : Nat} {ctl : Word} {s : State} :
    State.links (ringEnableOp b r ctl s) = State.links s := by
  unfold ringEnableOp
  with_reducible repeat' first
    | rfl | apply State.links_ite | refine State.setReg_links.trans ?_ | refine State.modRing_links.trans ?_
    | refine trigger_links.trans ?_ | refine writeIdx_links.trans ?_ | split

theorem ringOff_links {s : State} {k : Nat} :
    State.links (ringOff s k) = State.links s := by
  unfold ringOff
  with_reducible repeat' first
    | rfl | refine ringNotify_links.trans ?_ | refine writeIdx_links.trans ?_ | refine State.modRing_links.trans ?_
    | refine State.setReg_links.trans ?_

theorem flushChan_links {s : State} {n k : Nat} :
    State.links (flushChan s n k) = State.links s := by
  unfold flushChan
  with_reducible repeat' first
    | rfl | intro _ | apply State.links_ite | apply State.links_foldl | refine endFrames_links.trans ?_
    | refine State.modCan_links.trans ?_ | refine State.modSeg_links.trans ?_ | split

theorem flushNet_links {s : State} {p k : Nat} :
    State.links (flushNet s p k) = State.links s := by
  unfold flushNet
  with_reducible repeat' first
    | rfl | refine endFrames_links.trans ?_ | refine State.modNet_links.trans ?_

theorem flushCmds_links {s : State} {n k : Nat} :
    State.links (flushCmds s n k) = State.links s := by
  unfold flushCmds
  with_reducible repeat' first
    | rfl | intro _ | apply State.links_ite | apply State.links_foldl | refine finish_links.trans ?_
    | refine (State.modCh_links ?_).trans ?_ | intro _ | split

theorem flushRingWork_links {s : State} {k : Nat} :
    State.links (flushRingWork s k) = State.links s := by
  unfold flushRingWork
  with_reducible repeat' first
    | rfl | intro _ | apply State.links_foldl | refine flushChan_links.trans ?_ | refine flushCmds_links.trans ?_
    | refine flushNet_links.trans ?_

theorem ringDisableOp_links {b r : Nat} {s : State} :
    State.links (ringDisableOp b r s) = State.links s := by
  unfold ringDisableOp
  with_reducible repeat' first
    | rfl | apply State.links_ite | refine State.modRing_links.trans ?_ | refine State.setReg_links.trans ?_
    | refine trigger_links.trans ?_ | refine flushRingWork_links.trans ?_ | split

theorem haltedDisableOp_links {b r : Nat} {s : State} :
    State.links (haltedDisableOp b r s) = State.links s := by
  unfold haltedDisableOp
  with_reducible repeat' first
    | rfl | intro _ | apply State.links_ite | apply State.links_foldl | refine State.modRing_links.trans ?_
    | refine State.setReg_links.trans ?_ | refine flushRing_links.trans ?_ | refine finish_links.trans ?_
    | refine flushRingWork_links.trans ?_ | split

theorem ringDisabledOp_links {b r : Nat} {posted : List (BitVec 512)} {s : State} :
    State.links (ringDisabledOp b r posted s) = State.links s := by
  unfold ringDisabledOp
  with_reducible repeat' first
    | rfl | apply State.links_ite | refine putSlots_links.trans ?_ | refine ringOff_links.trans ?_ | split

theorem evCtlOp_links {b : Nat} {ctl : Word} {s : State} :
    State.links (evCtlOp b ctl s) = State.links s := by
  unfold evCtlOp
  with_reducible repeat' first
    | rfl | apply State.links_ite | refine State.setReg_links.trans ?_ | refine State.modEv_links.trans ?_
    | refine writeEvIdx_links.trans ?_ | refine State.flushEv_links.trans ?_ | refine evNotify_links.trans ?_
    | split

theorem ringsServe_links {s : State} :
    State.links (ringsServe s) = State.links s := by
  unfold ringsServe
  with_reducible repeat' first
    | rfl | intro _ | apply State.links_ite | apply State.links_foldl | refine State.flushEv_links.trans ?_ | split

theorem takeFlight_links {s : State} {k : Nat} {cookies : List Slot} {ckind channel : Nat} :
    State.links (takeFlight s k cookies ckind channel) = State.links s := by
  unfold takeFlight
  with_reducible repeat' first
    | rfl | refine State.modRing_links.trans ?_ | refine writeIdx_links.trans ?_

theorem haltRing_links {s : State} {k cause : Nat} {cookies : List Slot} {ckind : Nat} :
    State.links (haltRing s k cause cookies ckind) = State.links s := by
  unfold haltRing
  with_reducible repeat' first
    | rfl | apply State.links_ite | refine takeFlight_links.trans ?_ | refine State.modRing_links.trans ?_
    | refine raise_links.trans ?_ | refine trigger_links.trans ?_ | refine ringNotify_links.trans ?_ | split

theorem channelFlightsLost_links {s : State} {n : Nat} :
    State.links (channelFlightsLost s n) = State.links s := by
  unfold channelFlightsLost
  with_reducible repeat' first
    | rfl | intro _ | apply State.links_ite | apply State.links_foldl | refine finish_links.trans ?_ | split

theorem cmdPass_links {s : State} {k id b : Nat} {d : BitVec 256} {p : Point} :
    State.links (cmdPass s k id b d p) = State.links s := by
  unfold cmdPass
  with_reducible repeat' first
    | rfl | apply State.links_ite | refine finish_links.trans ?_ | refine enterEntry_links.trans ?_
    | refine acquire_links.trans ?_ | refine countArrival_links.trans ?_ | refine (State.modCh_links ?_).trans ?_
    | intro _ | split

theorem countTx_links {s : State} {t o : Nat} :
    State.links (countTx s t o) = State.links s := by
  unfold countTx
  with_reducible repeat' first
    | rfl | apply State.links_ite | refine netCount_links.trans ?_ | refine segCount_links.trans ?_ | split

theorem framePass_links {s : State} {k id b : Nat} {d : BitVec 512} {f : TxFrame} :
    State.links (framePass s k id b d f) = State.links s := by
  unfold framePass
  with_reducible repeat' first
    | rfl | apply State.links_ite | refine finish_links.trans ?_ | refine enterEntry_links.trans ?_
    | refine countArrival_links.trans ?_ | refine netEnqueue_links.trans ?_ | refine canEnqueue_links.trans ?_
    | refine segEnqueue_links.trans ?_ | split

theorem frameTransmitOp_links {b r : Nat} {chain : List (BitVec 512)} {payload : List Byte} {s : State} :
    State.links (frameTransmitOp b r chain payload s) = State.links s := by
  unfold frameTransmitOp
  with_reducible repeat' first
    | rfl | apply State.links_ite | refine takeFlight_links.trans ?_ | refine finish_links.trans ?_
    | refine countTx_links.trans ?_ | refine countArrival_links.trans ?_ | refine framePass_links.trans ?_ | split

theorem moderationOp_links {b r : Nat} {s : State} :
    State.links (moderationOp b r s) = State.links s := by
  unfold moderationOp
  with_reducible repeat' first
    | rfl | apply State.links_ite | refine evNotify_links.trans ?_ | refine ringNotify_links.trans ?_ | split



theorem declDone_links {s : State} {fn res id : Nat} :
    State.links (declDone s fn res id) = State.links s := by
  unfold declDone
  with_reducible repeat' first
    | rfl | refine State.modFn_links.trans ?_

theorem enterDecl_links {s : State} {fn : Nat} {ws : List Word} :
    State.links (enterDecl s fn ws).1 = State.links s := by
  unfold enterDecl
  with_reducible repeat' first
    | rfl | intro _ | apply State.links_foldl | refine State.modWs_links.trans ?_ | refine trigger_links.trans ?_
    | refine dirChanged_links.trans ?_ | refine dirFrom_links.trans ?_ | split

theorem leaveSlot_links {s : State} {id : Nat} {l : Loop} :
    State.links (leaveSlot s id l) = State.links s := by
  unfold leaveSlot
  with_reducible repeat' first
    | rfl | apply State.links_ite | refine loopCommand_links.trans ?_ | refine State.setReg_links.trans ?_
    | refine (State.modCh_links ?_).trans ?_ | intro _ | split

theorem loopPointsOut_links {s : State} {id : Nat} :
    State.links (loopPointsOut s id) = State.links s := by
  unfold loopPointsOut
  with_reducible repeat' first
    | rfl | intro _ | apply State.links_foldl | refine acquire_links.trans ?_

theorem stopLoop_links {s : State} {id reason : Nat} :
    State.links (stopLoop s id reason) = State.links s := by
  unfold stopLoop
  with_reducible repeat' first
    | rfl | apply State.links_ite | refine State.setReg_links.trans ?_ | refine (State.modCh_links ?_).trans ?_
    | intro _ | refine leaveSlot_links.trans ?_ | refine applySafe_links.trans ?_
    | refine State.modWs_links.trans ?_ | refine loopPointsOut_links.trans ?_ | refine State.mirror_links.trans ?_
    | refine raiseBoth_links.trans ?_ | split

theorem revokePass_links {s : State} {id reason : Nat} :
    State.links (revokePass s id reason) = State.links s := by
  unfold revokePass
  with_reducible repeat' first
    | rfl | refine dirFrom_links.trans ?_ | refine State.modWs_links.trans ?_ | refine raise_links.trans ?_ | split

theorem dropPoint_links {s : State} {h : Nat} :
    State.links (dropPoint s h) = State.links s := by
  unfold dropPoint
  with_reducible repeat' first
    | rfl | intro _ | apply State.links_ite | apply State.links_foldl | refine raise_links.trans ?_
    | refine raiseBoth_links.trans ?_ | refine trigger_links.trans ?_ | refine dirChanged_links.trans ?_
    | refine State.modWs_links.trans ?_ | split

theorem dropLoop_links {s : State} {id : Nat} :
    State.links (dropLoop s id) = State.links s := by
  unfold dropLoop
  with_reducible repeat' first
    | rfl | apply State.links_ite | refine trigger_links.trans ?_ | refine State.modWs_links.trans ?_ | split

theorem dropSub_links {s : State} {id : Nat} :
    State.links (dropSub s id) = State.links s := by
  unfold dropSub
  with_reducible repeat' first
    | rfl | refine trigger_links.trans ?_ | refine State.modWs_links.trans ?_

theorem placeNowOp_links {fn : Nat} {s : State} :
    State.links (placeNowOp fn s) = State.links s := by
  unfold placeNowOp
  with_reducible repeat' first
    | rfl | apply State.links_ite | refine declDone_links.trans ?_ | refine trigger_links.trans ?_
    | refine State.modWs_links.trans ?_ | split

theorem passExpiryOp_links {id : Nat} {s : State} :
    State.links (passExpiryOp id s) = State.links s := by
  unfold passExpiryOp
  with_reducible repeat' first
    | rfl | apply State.links_ite | refine revokePass_links.trans ?_ | refine State.mirror_links.trans ?_ | split

theorem passesValid_links {s : State} :
    State.links (passesValid s) = State.links s := by
  unfold passesValid
  with_reducible repeat' first
    | rfl | intro _ | apply State.links_foldl | refine passExpiryOp_links.trans ?_
    | refine State.modWs_links.trans ?_

theorem passesInvalid_links {s : State} :
    State.links (passesInvalid s) = State.links s := by
  unfold passesInvalid
  with_reducible repeat' first
    | rfl | apply State.links_ite | refine State.modWs_links.trans ?_ | split

theorem removeLoop_links {s : State} {id : Nat} :
    State.links (removeLoop s id) = State.links s := by
  unfold removeLoop
  with_reducible repeat' first
    | rfl | apply State.links_ite | refine stopLoop_links.trans ?_ | refine State.modWs_links.trans ?_ | split

theorem basinReturned_links {b : Nat} {s : State} :
    State.links (basinReturned b s) = State.links s := by
  unfold basinReturned
  with_reducible repeat' first
    | rfl | refine State.modWs_links.trans ?_

theorem basinRemovedOp_links {b : Nat} {s : State} :
    State.links (basinRemovedOp b s) = State.links s := by
  unfold basinRemovedOp
  with_reducible repeat' first
    | rfl | refine State.modWs_links.trans ?_


theorem pairRec_links {s : State} {i : Nat} {payload : List Byte} :
    State.links (pairRec s i payload) = State.links s := by
  unfold pairRec
  with_reducible repeat' first
    | rfl | refine raise_links.trans ?_ | refine State.sendVec_links.trans ?_

theorem stopChannel_links {s : State} {n : Nat} {h : Instant} :
    State.links (stopChannel s n h) = State.links s := by
  unfold stopChannel
  with_reducible repeat' first
    | rfl | apply State.links_ite | refine (State.modCh_links ?_).trans ?_ | intro _ | split

theorem vaultAbort_links {s : State} {result : Nat} :
    State.links (vaultAbort s result) = State.links s := by
  unfold vaultAbort
  with_reducible repeat' first
    | rfl | apply State.links_ite | refine State.modVlt_links.trans ?_ | refine State.intBit_links.trans ?_ | split

theorem yieldTo_links {s : State} {cause : Nat} :
    State.links (yieldTo s cause) = State.links s := by
  unfold yieldTo
  with_reducible repeat' first
    | rfl | intro _ | apply State.links_ite | apply State.links_foldl | refine stopChannel_links.trans ?_
    | refine State.modPair_links.trans ?_ | split

theorem channelYield_links {s : State} {n : Nat} :
    State.links (channelYield s n) = State.links s := by
  unfold channelYield
  with_reducible repeat' first
    | rfl | apply State.links_ite | refine yieldTo_links.trans ?_ | split


theorem loopPointsAt_links {s : State} {id n : Nat} :
    State.links (loopPointsAt s id n) = State.links s := by
  unfold loopPointsAt
  with_reducible repeat' first
    | rfl | apply State.links_ite | split

theorem occupySlot_links {s : State} {id n t : Nat} :
    State.links (occupySlot s id n t) = State.links s := by
  unfold occupySlot
  with_reducible repeat' first
    | rfl | apply State.links_ite | refine (State.modCh_links ?_).trans ?_ | intro _ | split

theorem loopMovedRec_links {s : State} {b id n t n' t' reason : Nat} {tm : Instant} :
    State.links (loopMovedRec s b id n t n' t' reason tm) = State.links s := by
  unfold loopMovedRec
  with_reducible repeat' first
    | rfl | refine raiseBoth_links.trans ?_

theorem mirrorMove_links {s : State} {m : Migration} :
    State.links (mirrorMove s m) = State.links s := by
  unfold mirrorMove
  with_reducible repeat' first
    | rfl | refine State.mirror_links.trans ?_ | split

theorem applyPoint_links {s : State} {h : Nat} :
    State.links (applyPoint s h) = State.links s := by
  unfold applyPoint
  with_reducible repeat' first
    | rfl | apply State.links_ite | refine State.modPt_links.trans ?_ | refine State.mirror_links.trans ?_
    | refine raiseBoth_links.trans ?_ | refine acquire_links.trans ?_ | split

theorem removeTable_links {s : State} {n reason : Nat} :
    State.links (removeTable s n reason) = State.links s := by
  unfold removeTable
  with_reducible repeat' first
    | rfl | intro _ | apply State.links_ite | apply State.links_foldl | refine State.modTbl_links.trans ?_
    | refine cancelEntry_links.trans ?_ | refine raiseBoth_links.trans ?_ | split

theorem steerRecords_links {s : State} {l : List Steer} :
    State.links (steerRecords s l) = State.links s := by
  unfold steerRecords
  with_reducible repeat' first
    | rfl | intro _ | apply State.links_ite | apply State.links_foldl | refine raiseBoth_links.trans ?_
    | refine State.modPt_links.trans ?_ | split

theorem pinConflicts_links {s : State} {p : Plan} :
    State.links (pinConflicts s p) = State.links s := by
  unfold pinConflicts
  with_reducible repeat' first
    | rfl | intro _ | apply State.links_ite | apply State.links_foldl | refine raise_links.trans ?_ | split

theorem capacityChanged_links {s : State} {n : Nat} :
    State.links (capacityChanged s n) = State.links s := by
  unfold capacityChanged
  with_reducible repeat' first
    | rfl | refine raise_links.trans ?_ | split

theorem planAgain_links {s : State} :
    State.links (planAgain s) = State.links s := by
  unfold planAgain
  with_reducible repeat' first
    | rfl | apply State.links_ite | refine trigger_links.trans ?_ | split

theorem rebalanceTimerOp_links {s : State} :
    State.links (rebalanceTimerOp s) = State.links s := by
  unfold rebalanceTimerOp
  with_reducible repeat' first
    | rfl | apply State.links_ite | refine trigger_links.trans ?_ | refine State.modWs_links.trans ?_ | split

theorem stateArrivalOp_links {id : Nat} {s : State} :
    State.links (stateArrivalOp id s) = State.links s := by
  unfold stateArrivalOp
  with_reducible repeat' first
    | rfl | apply State.links_ite | refine State.modSlot_links.trans ?_ | refine State.modWs_links.trans ?_ | split

theorem stateTimeoutOp_links {id : Nat} {s : State} :
    State.links (stateTimeoutOp id s) = State.links s := by
  unfold stateTimeoutOp
  with_reducible repeat' first
    | rfl | apply State.links_ite | refine State.modSlot_links.trans ?_ | refine State.modWs_links.trans ?_
    | refine raiseBoth_links.trans ?_ | split

theorem setSvc_links {s : State} {n : Nat} {v : Svc} :
    State.links (setSvc s n v) = State.links s := by
  unfold setSvc
  with_reducible repeat' first
    | rfl | refine State.modWs_links.trans ?_

theorem svcError_links {s : State} {n : Nat} :
    State.links (svcError s n) = State.links s := by
  unfold svcError
  with_reducible repeat' first
    | rfl | refine State.modWs_links.trans ?_

theorem takeOutOp_links {n : Nat} {s : State} :
    State.links (takeOutOp n s) = State.links s := by
  unfold takeOutOp
  with_reducible repeat' first
    | rfl | apply State.links_ite | refine svcError_links.trans ?_ | refine setSvc_links.trans ?_
    | refine State.modWs_links.trans ?_ | refine trigger_links.trans ?_ | refine capacityChanged_links.trans ?_
    | split

theorem cancelCanQueues_links {n : Nat} {s : State} :
    State.links (cancelCanQueues n s) = State.links s := by
  unfold cancelCanQueues
  with_reducible repeat' first
    | rfl | intro _ | apply State.links_ite | apply State.links_foldl | refine endFrames_links.trans ?_
    | refine State.modCan_links.trans ?_ | split

theorem channelOut_links {n : Nat} {s : State} :
    State.links (channelOut n s) = State.links s := by
  unfold channelOut
  with_reducible repeat' first
    | rfl | refine cancelCanQueues_links.trans ?_ | refine removeTable_links.trans ?_
    | refine (State.modCh_links ?_).trans ?_ | intro _ | refine applyAllSafe_links.trans ?_ | split

theorem frameCancelsLost_links {s : State} {n : Nat} :
    State.links (frameCancelsLost s n) = State.links s := by
  unfold frameCancelsLost
  with_reducible repeat' first
    | rfl | intro _ | apply State.links_foldl | refine finish_links.trans ?_

/-- States with the same links have channels of the same state and link. -/
theorem State.link_of {s t : State} (h : t.links = s.links) (n : Nat) : (t.ch n).link = (s.ch n).link := by
  have e := congrArg (fun l => l[n]?) h
  simp only [State.links, List.getElem?_map] at e
  unfold State.ch
  rw [List.getD_eq_getElem?_getD, List.getD_eq_getElem?_getD]
  cases ht : t.chs[n]? <;> cases hs : s.chs[n]? <;> simp_all

theorem State.state_of_links {s t : State} (h : t.links = s.links) (n : Nat) : (t.ch n).state = (s.ch n).state :=
  congrArg (fun x => x.1) (State.link_of h n)

theorem State.prior_of_links {s t : State} (h : t.links = s.links) (n : Nat) : (t.ch n).prior = (s.ch n).prior :=
  congrArg (fun x => x.2.1) (State.link_of h n)

theorem State.xbarUp_of_links {s t : State} (h : t.links = s.links) (n : Nat) : (t.ch n).xbarUp = (s.ch n).xbarUp :=
  congrArg (fun x => x.2.2.1) (State.link_of h n)

theorem State.isoOk_of_links {s t : State} (h : t.links = s.links) (n : Nat) : (t.ch n).isoOk = (s.ch n).isoOk :=
  congrArg (fun x => x.2.2.2.1) (State.link_of h n)

theorem State.lossCnt_of_links {s t : State} (h : t.links = s.links) (n : Nat) : (t.ch n).lossCnt = (s.ch n).lossCnt :=
  congrArg (fun x => x.2.2.2.2) (State.link_of h n)

end Sys2Proof.Machine
end

