-- ==== Sys2Proof/Laws/Modes.lean ====
section
/-! SUPPORT. The operations that leave every function but for its pending bits and its count of withheld updates. -/

namespace Sys2Proof.Machine

/-- A function but for its pending bits and its count of withheld updates. -/
abbrev Fn.mode (f : Fn) : Fn := { f with pba := [], withheld := 0 }
/-- The list of them. -/
abbrev State.modes (s : State) : List (Fn) := s.fns.map Fn.mode
theorem State.modes_ite {c : Prop} [Decidable c] {a b : State} {r : List (Fn)} (ha : a.modes = r) (hb : b.modes = r) :
    (if c then a else b).modes = r := by split <;> assumption
theorem State.modes_foldl {α : Type} {f : State → α → State} {r : List (Fn)}
    (hf : ∀ s a, (f s a).modes = s.modes) : ∀ {l : List α} {s : State}, s.modes = r → (l.foldl f s).modes = r
  | [], _, h => h
  | a :: l, s, h => State.modes_foldl hf (l := l) ((hf s a).trans h)
theorem State.modFn_modes {s : State} {n : Nat} {f : Fn → Fn} (hf : ∀ c, (f c).mode = c.mode) :
    (s.modFn n f).modes = s.modes := by
  unfold State.modes State.modFn
  apply List.ext_getElem?
  intro i
  simp only [List.getElem?_map, List.getElem?_modify]
  cases s.fns[i]? with
  | none => rfl
  | some c => simp only [Option.map_some]; split <;> first | exact congrArg some (hf c) | rfl
theorem State.emit_modes {s : State} {e : Emission} : (s.emit e).modes = s.modes := rfl
theorem State.modCh_modes {s : State} {n : Nat} {f : Chan → Chan} : (s.modCh n f).modes = s.modes := rfl
theorem State.modEv_modes {s : State} {b : Nat} {f : EvRing → EvRing} : (s.modEv b f).modes = s.modes := rfl
theorem State.modRing_modes {s : State} {b : Nat} {f : Ring → Ring} : (s.modRing b f).modes = s.modes := rfl
theorem State.modPair_modes {s : State} {f : Pair → Pair} : (s.modPair f).modes = s.modes := rfl
theorem State.modNet_modes {s : State} {n : Nat} {f : NetPort → NetPort} : (s.modNet n f).modes = s.modes := rfl
theorem State.modPt_modes {s : State} {n : Nat} {f : Point → Point} : (s.modPt n f).modes = s.modes := rfl
theorem State.modPwr_modes {s : State} {f : Power → Power} : (s.modPwr f).modes = s.modes := rfl
theorem State.modTime_modes {s : State} {f : HubTime → HubTime} : (s.modTime f).modes = s.modes := rfl
theorem State.modWs_modes {s : State} {f : Watershed → Watershed} : (s.modWs f).modes = s.modes := rfl
theorem State.modTxn_modes {s : State} {c : Nat} {f : Txn → Txn} : (s.modTxn c f).modes = s.modes := rfl
theorem State.modBkp_modes {s : State} {f : Backup → Backup} : (s.modBkp f).modes = s.modes := rfl
theorem State.modVlt_modes {s : State} {f : Vault → Vault} : (s.modVlt f).modes = s.modes := rfl
theorem State.modUpd_modes {s : State} {f : Upd → Upd} : (s.modUpd f).modes = s.modes := rfl
theorem State.tick1_modes {s : State}  : (s.tick1 ).modes = s.modes := rfl
theorem State.modCan_modes {s : State} {n x : Nat} {f : Can → Can} : (s.modCan n x f).modes = s.modes := rfl
theorem State.modSeg_modes {s : State} {n x : Nat} {f : Seg → Seg} : (s.modSeg n x f).modes = s.modes := rfl
theorem State.setReg_modes {s : State} {k : Nat} {w : Word} : (s.setReg k w).modes = s.modes := by
  unfold State.setReg; split <;> rfl

theorem State.sendVec_modes {s : State} {b v : Nat} :
    State.modes (State.sendVec s b v) = State.modes s := by
  unfold State.sendVec
  with_reducible repeat' first
    | rfl | apply State.modes_ite | refine (State.modFn_modes ?_).trans ?_ | intro _
    | refine State.emit_modes.trans ?_ | split

theorem State.alert_modes {s : State} {i : Nat} :
    State.modes (State.alert s i) = State.modes s := by
  unfold State.alert
  with_reducible repeat' first
    | rfl | apply State.modes_ite | refine State.sendVec_modes.trans ?_ | split

theorem State.intBit_modes {s : State} {key i vec : Nat} :
    State.modes (State.intBit s key i vec) = State.modes s := by
  unfold State.intBit
  with_reducible repeat' first
    | rfl | apply State.modes_ite | refine State.setReg_modes.trans ?_ | refine State.sendVec_modes.trans ?_ | split

theorem writeEvIdx_modes {s : State} {b : Nat} :
    State.modes (writeEvIdx s b) = State.modes s := by
  unfold writeEvIdx
  with_reducible repeat' first
    | rfl | apply State.modes_ite | refine State.emit_modes.trans ?_ | refine State.modEv_modes.trans ?_ | split

theorem evNotify_modes {s : State} {b : Nat} {due : Bool} :
    State.modes (evNotify s b due) = State.modes s := by
  unfold evNotify
  with_reducible repeat' first
    | rfl | apply State.modes_ite | refine State.modEv_modes.trans ?_ | refine State.sendVec_modes.trans ?_ | split

theorem pumpEv_modes {b : Nat} : ∀ {q : List EvRec} {s : State}, State.modes (pumpEv b q s) = State.modes s
  | [], _ => rfl
  | _ :: q, s => by
    unfold pumpEv
    dsimp only
    split
    · exact (pumpEv_modes (q := q)).trans (evNotify_modes.trans (writeEvIdx_modes.trans (State.modEv_modes.trans State.emit_modes)))
    · rfl

theorem State.flushEv_modes {s : State} {b : Nat} :
    State.modes (State.flushEv s b) = State.modes s := by
  unfold State.flushEv
  with_reducible repeat' first
    | rfl | refine pumpEv_modes.trans ?_

theorem raise_modes {s : State} {b kind subject : Nat} {payload : List Byte} :
    State.modes (raise s b kind subject payload) = State.modes s := by
  unfold raise
  with_reducible repeat' first
    | rfl | apply State.modes_ite | refine State.modEv_modes.trans ?_ | refine writeEvIdx_modes.trans ?_
    | refine State.flushEv_modes.trans ?_ | split

theorem raiseBoth_modes {s : State} {kind subject : Nat} {payload : List Byte} :
    State.modes (raiseBoth s kind subject payload) = State.modes s := by
  unfold raiseBoth
  with_reducible repeat' first
    | rfl | apply State.modes_ite | refine raise_modes.trans ?_ | split

theorem State.mirror_modes {s : State} {r : MirrorRec} :
    State.modes (State.mirror s r) = State.modes s := by
  unfold State.mirror
  with_reducible repeat' first
    | rfl | apply State.modes_ite | refine State.modPair_modes.trans ?_ | refine State.emit_modes.trans ?_ | split

theorem writeIdx_modes {s : State} {k : Nat} :
    State.modes (writeIdx s k) = State.modes s := by
  unfold writeIdx
  with_reducible repeat' first
    | rfl | apply State.modes_ite | refine State.emit_modes.trans ?_ | refine State.modRing_modes.trans ?_ | split

theorem ringNotify_modes {s : State} {k : Nat} {due : Bool} :
    State.modes (ringNotify s k due) = State.modes s := by
  unfold ringNotify
  with_reducible repeat' first
    | rfl | apply State.modes_ite | refine State.modRing_modes.trans ?_ | refine State.sendVec_modes.trans ?_
    | split

theorem ringItem_modes {s : State} {k : Nat} :
    State.modes (ringItem s k) = State.modes s := by
  unfold ringItem
  with_reducible repeat' first
    | rfl | refine State.modRing_modes.trans ?_ | refine writeIdx_modes.trans ?_ | refine ringNotify_modes.trans ?_

theorem putCompletion_modes {s : State} {k : Nat} {c : Completion} :
    State.modes (putCompletion s k c) = State.modes s := by
  unfold putCompletion
  with_reducible repeat' first
    | rfl | refine State.emit_modes.trans ?_ | refine ringItem_modes.trans ?_ | refine State.modRing_modes.trans ?_

theorem complete_modes {s : State} {k : Nat} {c : Completion} :
    State.modes (complete s k c) = State.modes s := by
  unfold complete
  with_reducible repeat' first
    | rfl | apply State.modes_ite | refine State.modRing_modes.trans ?_ | refine putCompletion_modes.trans ?_
    | split

theorem completeAll_modes {k idx status ckind : Nat} {tsq late : Bool} {info : Word} :
    ∀ {l : List Slot} {j : Nat} {s : State},
      State.modes (completeAll s k idx status ckind tsq late info j l) = State.modes s
  | [], _, _ => rfl
  | _ :: l, j, _ => (completeAll_modes (l := l) (j := j + 1)).trans complete_modes

theorem finish_modes {s : State} {k id status : Nat} {tsq late : Bool} {info : Word} :
    State.modes (finish s k id status tsq late info) = State.modes s := by
  unfold finish
  with_reducible repeat' first
    | rfl | apply State.modes_ite | refine completeAll_modes.trans ?_ | refine State.modRing_modes.trans ?_ | split

theorem putHeld_modes {s : State} {k : Nat} {h : HeldWrite} :
    State.modes (putHeld s k h) = State.modes s := by
  unfold putHeld
  with_reducible repeat' first
    | rfl | apply State.modes_ite | refine putCompletion_modes.trans ?_ | refine State.emit_modes.trans ?_
    | refine State.modRing_modes.trans ?_ | refine ringItem_modes.trans ?_ | refine writeIdx_modes.trans ?_ | split

theorem flushRing_modes {s : State} {k : Nat} :
    State.modes (flushRing s k) = State.modes s := by
  unfold flushRing
  with_reducible repeat' first
    | rfl | intro _ | apply State.modes_ite | apply State.modes_foldl | refine putHeld_modes.trans ?_
    | refine State.modRing_modes.trans ?_ | split

theorem putSlot_modes {s : State} {k idx : Nat} {bytes : List Byte} {last : Bool} :
    State.modes (putSlot s k idx bytes last) = State.modes s := by
  unfold putSlot
  with_reducible repeat' first
    | rfl | apply State.modes_ite | refine putHeld_modes.trans ?_ | refine State.modRing_modes.trans ?_ | split

theorem putSlots_modes {k : Nat} : ∀ {l : List (List Byte)} {i : Nat} {s : State}, State.modes (putSlots s k i l) = State.modes s
  | [], _, _ => rfl
  | [_], _, _ => putSlot_modes
  | _ :: c :: l, i, _ => (putSlots_modes (l := c :: l) (i := i + 1)).trans putSlot_modes

theorem withhold_modes {s : State} {b : Nat} :
    State.modes (withhold s b) = State.modes s := by
  unfold withhold
  with_reducible repeat' first
    | rfl | refine (State.modFn_modes ?_).trans ?_ | intro _

theorem steer_modes {s : State} {b r h : Nat} {p : Point} {m : Mirror} {repeated : Bool} :
    State.modes (steer s b r h p m repeated) = State.modes s := by
  unfold steer
  with_reducible repeat' first
    | rfl | apply State.modes_ite | refine State.emit_modes.trans ?_ | refine State.modPwr_modes.trans ?_
    | refine ringItem_modes.trans ?_ | refine State.modRing_modes.trans ?_ | refine writeIdx_modes.trans ?_
    | refine withhold_modes.trans ?_ | split

theorem writeBuf_modes {b : Nat} : ∀ {n addr : Nat} {bytes : List Byte} {s : State}, State.modes (writeBuf b n addr bytes s) = State.modes s
  | 0, _, _, _ => rfl
  | n + 1, addr, bytes, s => by
    unfold writeBuf
    split
    · rfl
    · exact (writeBuf_modes (n := n)).trans State.emit_modes

theorem rxData_modes {b : Nat} :
    ∀ {l : List (BitVec 512)} {bs : List Byte} {s : State}, State.modes (rxData s b l bs) = State.modes s
  | [], _, _ => rfl
  | _ :: l, bs, s => by
    unfold rxData
    split
    · exact rxData_modes (l := l)
    · split
      · rfl
      · exact (rxData_modes (l := l)).trans writeBuf_modes

theorem deliverFrame_modes {s : State} {k : Nat} {f : RxFrame} {posted : List (BitVec 512)} :
    State.modes (deliverFrame s k f posted) = State.modes s := by
  unfold deliverFrame
  with_reducible repeat' first
    | rfl | apply State.modes_ite | refine State.modRing_modes.trans ?_ | refine putSlots_modes.trans ?_
    | refine writeIdx_modes.trans ?_ | refine rxData_modes.trans ?_ | split

theorem clearAlert_modes {s : State} {w : Word} :
    State.modes (clearAlert s w) = State.modes s := by
  unfold clearAlert
  with_reducible repeat' first
    | rfl | refine State.alert_modes.trans ?_

theorem clearInt_modes {s : State} {key : Nat} {w : Word} :
    State.modes (clearInt s key w) = State.modes s := by
  unfold clearInt
  with_reducible repeat' first
    | rfl | refine State.setReg_modes.trans ?_

theorem sendPending_modes {s : State} {b : Nat} :
    State.modes (sendPending s b) = State.modes s := by
  unfold sendPending
  with_reducible repeat' first
    | rfl | intro _ | apply State.modes_foldl | refine (State.modFn_modes ?_).trans ?_ | intro _
    | refine State.sendVec_modes.trans ?_

theorem trigger_modes {s : State} {t : Nat} :
    State.modes (trigger s t) = State.modes s := by
  unfold trigger
  with_reducible repeat' first
    | rfl | refine State.modWs_modes.trans ?_ | split

theorem takeFlight_modes {s : State} {k : Nat} {cookies : List Slot} {ckind channel : Nat} :
    State.modes (takeFlight s k cookies ckind channel) = State.modes s := by
  unfold takeFlight
  with_reducible repeat' first
    | rfl | refine State.modRing_modes.trans ?_ | refine writeIdx_modes.trans ?_

theorem haltRing_modes {s : State} {k cause : Nat} {cookies : List Slot} {ckind : Nat} :
    State.modes (haltRing s k cause cookies ckind) = State.modes s := by
  unfold haltRing
  with_reducible repeat' first
    | rfl | apply State.modes_ite | refine takeFlight_modes.trans ?_ | refine State.modRing_modes.trans ?_
    | refine raise_modes.trans ?_ | refine trigger_modes.trans ?_ | refine ringNotify_modes.trans ?_ | split

/-- Functions with the same modes answer the same. -/
theorem State.mode_of {s t : State} (h : t.modes = s.modes) (n : Nat) : (t.fn n).mode = (s.fn n).mode := by
  have e := congrArg (fun l => l[n]?) h
  simp only [State.modes, List.getElem?_map] at e
  unfold State.fn
  rw [List.getD_eq_getElem?_getD, List.getD_eq_getElem?_getD]
  cases ht : t.fns[n]? <;> cases hs : s.fns[n]? <;> simp_all

theorem State.bme_of_modes {s t : State} (h : t.modes = s.modes) (n : Nat) : (t.fn n).bme = (s.fn n).bme :=
  (congrArg Fn.bme (State.mode_of h n) :)

theorem State.d3hot_of_modes {s t : State} (h : t.modes = s.modes) (n : Nat) : (t.fn n).d3hot = (s.fn n).d3hot :=
  (congrArg Fn.d3hot (State.mode_of h n) :)

theorem State.mse_of_modes {s t : State} (h : t.modes = s.modes) (n : Nat) : (t.fn n).mse = (s.fn n).mse :=
  (congrArg Fn.mse (State.mode_of h n) :)

theorem State.msixEn_of_modes {s t : State} (h : t.modes = s.modes) (n : Nat) : (t.fn n).msixEn = (s.fn n).msixEn :=
  (congrArg Fn.msixEn (State.mode_of h n) :)

theorem State.fmask_of_modes {s t : State} (h : t.modes = s.modes) (n : Nat) : (t.fn n).fmask = (s.fn n).fmask :=
  (congrArg Fn.fmask (State.mode_of h n) :)

theorem State.flrBusy_of_modes {s t : State} (h : t.modes = s.modes) (n : Nat) : (t.fn n).flrBusy = (s.fn n).flrBusy :=
  (congrArg Fn.flrBusy (State.mode_of h n) :)

theorem State.table_of_modes {s t : State} (h : t.modes = s.modes) (n : Nat) : (t.fn n).table = (s.fn n).table :=
  (congrArg Fn.table (State.mode_of h n) :)

theorem State.aer_of_modes {s t : State} (h : t.modes = s.modes) (n : Nat) : (t.fn n).aer = (s.fn n).aer :=
  (congrArg Fn.aer (State.mode_of h n) :)

theorem State.mirsel_of_modes {s t : State} (h : t.modes = s.modes) (n : Nat) : (t.fn n).mirsel = (s.fn n).mirsel :=
  (congrArg Fn.mirsel (State.mode_of h n) :)

theorem State.mirStat_of_modes {s t : State} (h : t.modes = s.modes) (n : Nat) : (t.fn n).mirStat = (s.fn n).mirStat :=
  (congrArg Fn.mirStat (State.mode_of h n) :)

theorem State.mirdata_of_modes {s t : State} (h : t.modes = s.modes) (n : Nat) : (t.fn n).mirdata = (s.fn n).mirdata :=
  (congrArg Fn.mirdata (State.mode_of h n) :)

theorem State.declCmd_of_modes {s t : State} (h : t.modes = s.modes) (n : Nat) : (t.fn n).declCmd = (s.fn n).declCmd :=
  (congrArg Fn.declCmd (State.mode_of h n) :)

theorem State.declRes_of_modes {s t : State} (h : t.modes = s.modes) (n : Nat) : (t.fn n).declRes = (s.fn n).declRes :=
  (congrArg Fn.declRes (State.mode_of h n) :)

theorem State.declId_of_modes {s t : State} (h : t.modes = s.modes) (n : Nat) : (t.fn n).declId = (s.fn n).declId :=
  (congrArg Fn.declId (State.mode_of h n) :)

theorem State.declOver_of_modes {s t : State} (h : t.modes = s.modes) (n : Nat) : (t.fn n).declOver = (s.fn n).declOver :=
  (congrArg Fn.declOver (State.mode_of h n) :)

theorem State.fns_length_of_modes {s t : State} (h : t.modes = s.modes) : t.fns.length = s.fns.length := by
  have := congrArg List.length h
  simpa [State.modes] using this

end Sys2Proof.Machine
end

