-- ==== Sys2Proof/Laws/Parts.lean ====
section
/-! SUPPORT. The operations that leave one part of the state alone: the hub timebase (`clock`), the supply (`pwrs`), the
lifecycle (`life`), the update engine (`upds`), the backup domain (`bkps`), the vault (`vlts`), the ports (`netsv`). -/

namespace Sys2Proof.Machine

/- ### `State.clock` -/

/-- The hub timebase, as a view. -/
abbrev State.clock (s : State) : HubTime := s.time
theorem State.clock_ite {c : Prop} [Decidable c] {a b : State} {r : HubTime} (ha : a.clock = r) (hb : b.clock = r) :
    (if c then a else b).clock = r := by split <;> assumption
theorem State.clock_foldl {α : Type} {f : State → α → State} {r : HubTime}
    (hf : ∀ s a, (f s a).clock = s.clock) : ∀ {l : List α} {s : State}, s.clock = r → (l.foldl f s).clock = r
  | [], _, h => h
  | a :: l, s, h => State.clock_foldl hf (l := l) ((hf s a).trans h)
theorem State.emit_clock {s : State} {e : Emission} : (s.emit e).clock = s.clock := rfl
theorem State.modCh_clock {s : State} {n : Nat} {f : Chan → Chan} : (s.modCh n f).clock = s.clock := rfl
theorem State.modEv_clock {s : State} {b : Nat} {f : EvRing → EvRing} : (s.modEv b f).clock = s.clock := rfl
theorem State.modRing_clock {s : State} {b : Nat} {f : Ring → Ring} : (s.modRing b f).clock = s.clock := rfl
theorem State.modPair_clock {s : State} {f : Pair → Pair} : (s.modPair f).clock = s.clock := rfl
theorem State.modNet_clock {s : State} {n : Nat} {f : NetPort → NetPort} : (s.modNet n f).clock = s.clock := rfl
theorem State.modPt_clock {s : State} {n : Nat} {f : Point → Point} : (s.modPt n f).clock = s.clock := rfl
theorem State.modPwr_clock {s : State} {f : Power → Power} : (s.modPwr f).clock = s.clock := rfl
theorem State.modWs_clock {s : State} {f : Watershed → Watershed} : (s.modWs f).clock = s.clock := rfl
theorem State.modTxn_clock {s : State} {c : Nat} {f : Txn → Txn} : (s.modTxn c f).clock = s.clock := rfl
theorem State.modBkp_clock {s : State} {f : Backup → Backup} : (s.modBkp f).clock = s.clock := rfl
theorem State.modVlt_clock {s : State} {f : Vault → Vault} : (s.modVlt f).clock = s.clock := rfl
theorem State.modUpd_clock {s : State} {f : Upd → Upd} : (s.modUpd f).clock = s.clock := rfl
theorem State.tick1_clock {s : State}  : (s.tick1 ).clock = s.clock := rfl
theorem State.modCan_clock {s : State} {n x : Nat} {f : Can → Can} : (s.modCan n x f).clock = s.clock := rfl
theorem State.modSeg_clock {s : State} {n x : Nat} {f : Seg → Seg} : (s.modSeg n x f).clock = s.clock := rfl
theorem State.modFn_clock {s : State} {n : Nat} {f : Fn → Fn} : (s.modFn n f).clock = s.clock := rfl
theorem State.setReg_clock {s : State} {k : Nat} {w : Word} : (s.setReg k w).clock = s.clock := by
  unfold State.setReg; split <;> rfl

theorem State.sendVec_clock {s : State} {b v : Nat} :
    State.clock (State.sendVec s b v) = State.clock s := by
  unfold State.sendVec
  with_reducible repeat' first
    | rfl | apply State.clock_ite | refine State.modFn_clock.trans ?_ | refine State.emit_clock.trans ?_ | split

theorem State.alert_clock {s : State} {i : Nat} :
    State.clock (State.alert s i) = State.clock s := by
  unfold State.alert
  with_reducible repeat' first
    | rfl | apply State.clock_ite | refine State.sendVec_clock.trans ?_ | split

theorem State.intBit_clock {s : State} {key i vec : Nat} :
    State.clock (State.intBit s key i vec) = State.clock s := by
  unfold State.intBit
  with_reducible repeat' first
    | rfl | apply State.clock_ite | refine State.setReg_clock.trans ?_ | refine State.sendVec_clock.trans ?_ | split

theorem writeEvIdx_clock {s : State} {b : Nat} :
    State.clock (writeEvIdx s b) = State.clock s := by
  unfold writeEvIdx
  with_reducible repeat' first
    | rfl | apply State.clock_ite | refine State.emit_clock.trans ?_ | refine State.modEv_clock.trans ?_ | split

theorem evNotify_clock {s : State} {b : Nat} {due : Bool} :
    State.clock (evNotify s b due) = State.clock s := by
  unfold evNotify
  with_reducible repeat' first
    | rfl | apply State.clock_ite | refine State.modEv_clock.trans ?_ | refine State.sendVec_clock.trans ?_ | split

theorem pumpEv_clock {b : Nat} : ∀ {q : List EvRec} {s : State}, State.clock (pumpEv b q s) = State.clock s
  | [], _ => rfl
  | _ :: q, s => by
    unfold pumpEv
    dsimp only
    split
    · exact (pumpEv_clock (q := q)).trans (evNotify_clock.trans (writeEvIdx_clock.trans (State.modEv_clock.trans State.emit_clock)))
    · rfl

theorem State.flushEv_clock {s : State} {b : Nat} :
    State.clock (State.flushEv s b) = State.clock s := by
  unfold State.flushEv
  with_reducible repeat' first
    | rfl | refine pumpEv_clock.trans ?_

theorem raise_clock {s : State} {b kind subject : Nat} {payload : List Byte} :
    State.clock (raise s b kind subject payload) = State.clock s := by
  unfold raise
  with_reducible repeat' first
    | rfl | apply State.clock_ite | refine State.modEv_clock.trans ?_ | refine writeEvIdx_clock.trans ?_
    | refine State.flushEv_clock.trans ?_ | split

theorem raiseBoth_clock {s : State} {kind subject : Nat} {payload : List Byte} :
    State.clock (raiseBoth s kind subject payload) = State.clock s := by
  unfold raiseBoth
  with_reducible repeat' first
    | rfl | apply State.clock_ite | refine raise_clock.trans ?_ | split

theorem State.mirror_clock {s : State} {r : MirrorRec} :
    State.clock (State.mirror s r) = State.clock s := by
  unfold State.mirror
  with_reducible repeat' first
    | rfl | apply State.clock_ite | refine State.modPair_clock.trans ?_ | refine State.emit_clock.trans ?_ | split

theorem dirChanged_clock {s : State} :
    State.clock (dirChanged s) = State.clock s := by
  unfold dirChanged
  with_reducible repeat' first
    | rfl | refine State.modWs_clock.trans ?_

theorem dirFrom_clock {s t : State} :
    State.clock (dirFrom s t) = State.clock t := by
  unfold dirFrom
  with_reducible repeat' first
    | rfl | apply State.clock_ite | refine dirChanged_clock.trans ?_ | split

theorem timeRec_clock {s : State} {i : Nat} {payload : List Byte} :
    State.clock (timeRec s i payload) = State.clock s := by
  unfold timeRec
  with_reducible repeat' first
    | rfl | refine raise_clock.trans ?_ | refine State.intBit_clock.trans ?_

theorem State.modTbl_clock {s : State} {t : Nat} {f : Table → Table} :
    State.clock (State.modTbl s t f) = State.clock s := by
  unfold State.modTbl
  with_reducible repeat' first
    | rfl | apply State.clock_ite | refine State.modCh_clock.trans ?_ | split

theorem State.modEnt_clock {s : State} {t i : Nat} {f : Entry → Entry} :
    State.clock (State.modEnt s t i f) = State.clock s := by
  unfold State.modEnt
  with_reducible repeat' first
    | rfl | refine State.modTbl_clock.trans ?_

theorem actRecord_clock {s : State} {t i : Nat} {e : Entry} {outcome detail lateUs skipped : Nat} {final : Bool} :
    State.clock (actRecord s t i e outcome detail lateUs skipped final) = State.clock s := by
  unfold actRecord
  with_reducible repeat' first
    | rfl | apply State.clock_ite | refine State.modCh_clock.trans ?_ | refine State.modEv_clock.trans ?_
    | refine raise_clock.trans ?_ | split

theorem actOutcome_clock {s : State} {t i : Nat} {e : Entry} {outcome detail lateUs : Nat} {final : Bool} :
    State.clock (actOutcome s t i e outcome detail lateUs final) = State.clock s := by
  unfold actOutcome
  with_reducible repeat' first
    | rfl | apply State.clock_ite | refine State.modTbl_clock.trans ?_ | refine actRecord_clock.trans ?_
    | refine State.modEnt_clock.trans ?_ | split

theorem endEntry_clock {s : State} {t i : Nat} {e : Entry} :
    State.clock (endEntry s t i e) = State.clock s := by
  unfold endEntry
  with_reducible repeat' first
    | rfl | apply State.clock_ite | refine State.modEnt_clock.trans ?_ | refine State.modTbl_clock.trans ?_
    | refine State.mirror_clock.trans ?_ | split

theorem occOutcome_clock {s : State} {t i : Nat} {e : Entry} {outcome detail lateUs : Nat} {last : Bool} :
    State.clock (occOutcome s t i e outcome detail lateUs last) = State.clock s := by
  unfold occOutcome
  with_reducible repeat' first
    | rfl | apply State.clock_ite | refine actOutcome_clock.trans ?_ | refine endEntry_clock.trans ?_ | split

theorem cancelEntry_clock {s : State} {t i : Nat} {e : Entry} {detail : Nat} :
    State.clock (cancelEntry s t i e detail) = State.clock s := by
  unfold cancelEntry
  with_reducible repeat' first
    | rfl | refine actOutcome_clock.trans ?_ | refine State.modTbl_clock.trans ?_
    | refine State.mirror_clock.trans ?_

theorem netCount_clock {s : State} {p o : Nat} :
    State.clock (netCount s p o) = State.clock s := by
  unfold netCount
  with_reducible repeat' first
    | rfl | refine State.modNet_clock.trans ?_ | split

theorem netInt_clock {s : State} {p i : Nat} :
    State.clock (netInt s p i) = State.clock s := by
  unfold netInt
  with_reducible repeat' first
    | rfl | refine State.intBit_clock.trans ?_

theorem netAct_clock {s : State} {p : Nat} :
    State.clock (netAct s p) = State.clock s := by
  unfold netAct
  with_reducible repeat' first
    | rfl | refine State.emit_clock.trans ?_

theorem netKick_clock {s : State} {p : Nat} :
    State.clock (netKick s p) = State.clock s := by
  unfold netKick
  with_reducible repeat' first
    | rfl | apply State.clock_ite | refine State.modNet_clock.trans ?_ | split

theorem netPreempt_clock {s : State} {p : Nat} :
    State.clock (netPreempt s p) = State.clock s := by
  unfold netPreempt
  with_reducible repeat' first
    | rfl | apply State.clock_ite | refine State.tick1_clock.trans ?_ | refine netCount_clock.trans ?_
    | refine State.modNet_clock.trans ?_ | split

theorem sendXoff_clock {s : State} {p : Nat} :
    State.clock (sendXoff s p) = State.clock s := by
  unfold sendXoff
  with_reducible repeat' first
    | rfl | refine netCount_clock.trans ?_ | refine netAct_clock.trans ?_ | refine State.emit_clock.trans ?_

theorem netFlow_clock {s : State} {p : Nat} :
    State.clock (netFlow s p) = State.clock s := by
  unfold netFlow
  with_reducible repeat' first
    | rfl | apply State.clock_ite | refine sendXoff_clock.trans ?_ | refine State.modNet_clock.trans ?_ | split

theorem pauseRxOp_clock {p quanta : Nat} {s : State} :
    State.clock (pauseRxOp p quanta s) = State.clock s := by
  unfold pauseRxOp
  with_reducible repeat' first
    | rfl | apply State.clock_ite | refine netCount_clock.trans ?_ | refine State.modNet_clock.trans ?_
    | refine netKick_clock.trans ?_ | refine netPreempt_clock.trans ?_ | split

theorem netStage_clock {s : State} {p : Nat} {b : List Byte} {stamp : Instant} :
    State.clock (netStage s p b stamp) = State.clock s := by
  unfold netStage
  with_reducible repeat' first
    | rfl | apply State.clock_ite | refine State.modNet_clock.trans ?_ | refine netCount_clock.trans ?_
    | refine netInt_clock.trans ?_ | refine raise_clock.trans ?_ | refine netFlow_clock.trans ?_ | split

theorem netJudge_clock {s : State} {p : Nat} {f : EthFrame} {stamp : Instant} :
    State.clock (netJudge s p f stamp) = State.clock s := by
  unfold netJudge
  with_reducible repeat' first
    | rfl | apply State.clock_ite | refine netAct_clock.trans ?_ | refine netCount_clock.trans ?_
    | refine pauseRxOp_clock.trans ?_ | refine netStage_clock.trans ?_ | split

theorem resubscribe_clock {s : State} :
    State.clock (resubscribe s) = State.clock s := by
  unfold resubscribe
  with_reducible repeat' first
    | rfl | intro _ | apply State.clock_ite | apply State.clock_foldl | refine State.modPt_clock.trans ?_
    | refine State.modCh_clock.trans ?_ | split

theorem groupTxnEnded_clock {s : State} {i result : Nat} :
    State.clock (groupTxnEnded s i result) = State.clock s := by
  unfold groupTxnEnded
  with_reducible repeat' first
    | rfl | apply State.clock_ite | refine State.modEnt_clock.trans ?_ | refine occOutcome_clock.trans ?_
    | refine cancelEntry_clock.trans ?_ | split

theorem actTimeValid_clock {s : State} {t : Nat} :
    State.clock (actTimeValid s t) = State.clock s := by
  unfold actTimeValid
  with_reducible repeat' first
    | rfl | intro _ | apply State.clock_ite | apply State.clock_foldl | refine occOutcome_clock.trans ?_
    | refine State.modEnt_clock.trans ?_ | split

theorem actSteppedBack_clock {s : State} {t : Nat} :
    State.clock (actSteppedBack s t) = State.clock s := by
  unfold actSteppedBack
  with_reducible repeat' first
    | rfl | apply State.clock_ite | refine State.modTbl_clock.trans ?_ | split

theorem revokePass_clock {s : State} {id reason : Nat} :
    State.clock (revokePass s id reason) = State.clock s := by
  unfold revokePass
  with_reducible repeat' first
    | rfl | refine dirFrom_clock.trans ?_ | refine State.modWs_clock.trans ?_ | refine raise_clock.trans ?_ | split

theorem passExpiryOp_clock {id : Nat} {s : State} :
    State.clock (passExpiryOp id s) = State.clock s := by
  unfold passExpiryOp
  with_reducible repeat' first
    | rfl | apply State.clock_ite | refine revokePass_clock.trans ?_ | refine State.mirror_clock.trans ?_ | split

theorem passesValid_clock {s : State} :
    State.clock (passesValid s) = State.clock s := by
  unfold passesValid
  with_reducible repeat' first
    | rfl | intro _ | apply State.clock_foldl | refine passExpiryOp_clock.trans ?_
    | refine State.modWs_clock.trans ?_

theorem passesInvalid_clock {s : State} :
    State.clock (passesInvalid s) = State.clock s := by
  unfold passesInvalid
  with_reducible repeat' first
    | rfl | apply State.clock_ite | refine State.modWs_clock.trans ?_ | split

theorem updRec_clock {s : State} {i : Nat} {payload : List Byte} :
    State.clock (updRec s i payload) = State.clock s := by
  unfold updRec
  with_reducible repeat' first
    | rfl | refine raise_clock.trans ?_ | refine State.sendVec_clock.trans ?_

theorem updEnds_clock {s : State} {new res : Nat} :
    State.clock (updEnds s new res) = State.clock s := by
  unfold updEnds
  with_reducible repeat' first
    | rfl | apply State.clock_ite | refine updRec_clock.trans ?_ | refine State.modUpd_clock.trans ?_ | split

theorem disarm_clock {s : State} {res : Nat} :
    State.clock (disarm s res) = State.clock s := by
  unfold disarm
  with_reducible repeat' first
    | rfl | apply State.clock_ite | refine updEnds_clock.trans ?_ | refine State.modUpd_clock.trans ?_
    | refine State.mirror_clock.trans ?_ | split

theorem tableStepped_clock {s : State} {t old : Nat} :
    State.clock (tableStepped s t old) = State.clock s := by
  unfold tableStepped
  with_reducible repeat' first
    | rfl | apply State.clock_ite | refine actSteppedBack_clock.trans ?_ | split

theorem stepChannel_clock {s : State} {n : Nat} {y : Instant} :
    State.clock (stepChannel s n y) = State.clock s := by
  unfold stepChannel
  with_reducible repeat' first
    | rfl | refine tableStepped_clock.trans ?_ | refine State.modCh_clock.trans ?_

theorem timeGained_clock {s : State} :
    State.clock (timeGained s) = State.clock s := by
  unfold timeGained
  with_reducible repeat' first
    | rfl | refine actTimeValid_clock.trans ?_ | refine passesValid_clock.trans ?_

theorem wsTxnFailed_clock {s : State} {r : Nat} : (wsTxnFailed s r).clock = s.clock := by
  unfold wsTxnFailed
  split
  · rfl
  · dsimp only
    refine State.modWs_clock.trans (resubscribe_clock.trans ?_)
    exact State.clock_foldl (fun s a => (raiseBoth_clock.trans State.modWs_clock)) rfl

theorem endTxn_clock {s : State} {c r : Nat} : (endTxn s c r).clock = s.clock := by
  have h1 : ∀ x : State, x.clock = s.clock → (if c = 64 then (if r = 1 then x else wsTxnFailed x r)
      else if 128 ≤ c then groupTxnEnded x (c - 128) r else raise x c 4 c (txnPayload (s.txn c) r)).clock = s.clock := by
    intro x hx
    split
    · split
      · exact hx
      · exact wsTxnFailed_clock.trans hx
    · split
      · exact groupTxnEnded_clock.trans hx
      · exact raise_clock.trans hx
  unfold endTxn
  refine h1 _ ?_
  unfold mirrorEnded
  split
  · exact State.mirror_clock.trans State.modTxn_clock
  · exact State.modTxn_clock

theorem abortTxn_clock {s : State} {c r : Nat} : (abortTxn s c r).clock = s.clock := by
  unfold abortTxn
  exact endTxn_clock.trans (State.clock_foldl (fun s a => State.emit_clock) rfl)

theorem txnNoTime_clock {s : State} : (txnNoTime s).clock = s.clock := by
  unfold txnNoTime
  refine State.clock_foldl (fun s a => ?_) rfl
  dsimp only
  split
  · exact abortTxn_clock
  · rfl

theorem txnStepped_clock {s : State} : (txnStepped s).clock = s.clock := by
  unfold txnStepped
  refine State.clock_foldl (fun s a => ?_) rfl
  dsimp only
  split
  · exact abortTxn_clock
  · rfl

/- ### `State.supply` -/

/-- The supply, as a view. -/
abbrev State.supply (s : State) : Power := { s.pwr with deliv := [] }
theorem State.supply_ite {c : Prop} [Decidable c] {a b : State} {r : Power} (ha : a.supply = r) (hb : b.supply = r) :
    (if c then a else b).supply = r := by split <;> assumption
theorem State.supply_foldl {α : Type} {f : State → α → State} {r : Power}
    (hf : ∀ s a, (f s a).supply = s.supply) : ∀ {l : List α} {s : State}, s.supply = r → (l.foldl f s).supply = r
  | [], _, h => h
  | a :: l, s, h => State.supply_foldl hf (l := l) ((hf s a).trans h)
theorem State.emit_supply {s : State} {e : Emission} : (s.emit e).supply = s.supply := rfl
theorem State.modCh_supply {s : State} {n : Nat} {f : Chan → Chan} : (s.modCh n f).supply = s.supply := rfl
theorem State.modEv_supply {s : State} {b : Nat} {f : EvRing → EvRing} : (s.modEv b f).supply = s.supply := rfl
theorem State.modRing_supply {s : State} {b : Nat} {f : Ring → Ring} : (s.modRing b f).supply = s.supply := rfl
theorem State.modPair_supply {s : State} {f : Pair → Pair} : (s.modPair f).supply = s.supply := rfl
theorem State.modNet_supply {s : State} {n : Nat} {f : NetPort → NetPort} : (s.modNet n f).supply = s.supply := rfl
theorem State.modPt_supply {s : State} {n : Nat} {f : Point → Point} : (s.modPt n f).supply = s.supply := rfl
theorem State.modTime_supply {s : State} {f : HubTime → HubTime} : (s.modTime f).supply = s.supply := rfl
theorem State.modWs_supply {s : State} {f : Watershed → Watershed} : (s.modWs f).supply = s.supply := rfl
theorem State.modTxn_supply {s : State} {c : Nat} {f : Txn → Txn} : (s.modTxn c f).supply = s.supply := rfl
theorem State.modBkp_supply {s : State} {f : Backup → Backup} : (s.modBkp f).supply = s.supply := rfl
theorem State.modVlt_supply {s : State} {f : Vault → Vault} : (s.modVlt f).supply = s.supply := rfl
theorem State.modUpd_supply {s : State} {f : Upd → Upd} : (s.modUpd f).supply = s.supply := rfl
theorem State.tick1_supply {s : State}  : (s.tick1 ).supply = s.supply := rfl
theorem State.modCan_supply {s : State} {n x : Nat} {f : Can → Can} : (s.modCan n x f).supply = s.supply := rfl
theorem State.modSeg_supply {s : State} {n x : Nat} {f : Seg → Seg} : (s.modSeg n x f).supply = s.supply := rfl
theorem State.modFn_supply {s : State} {n : Nat} {f : Fn → Fn} : (s.modFn n f).supply = s.supply := rfl
theorem State.setReg_supply {s : State} {k : Nat} {w : Word} : (s.setReg k w).supply = s.supply := by
  unfold State.setReg; split <;> rfl
theorem State.modPwr_supply {s : State} {f : Power → Power} (hf : ∀ p, ({ f p with deliv := [] } : Power) = { p with deliv := [] }) :
    (s.modPwr f).supply = s.supply := hf s.pwr

theorem State.sendVec_supply {s : State} {b v : Nat} :
    State.supply (State.sendVec s b v) = State.supply s := by
  unfold State.sendVec
  with_reducible repeat' first
    | rfl | apply State.supply_ite | refine State.modFn_supply.trans ?_ | refine State.emit_supply.trans ?_ | split

theorem State.alert_supply {s : State} {i : Nat} :
    State.supply (State.alert s i) = State.supply s := by
  unfold State.alert
  with_reducible repeat' first
    | rfl | apply State.supply_ite | refine State.sendVec_supply.trans ?_ | split

theorem State.intBit_supply {s : State} {key i vec : Nat} :
    State.supply (State.intBit s key i vec) = State.supply s := by
  unfold State.intBit
  with_reducible repeat' first
    | rfl | apply State.supply_ite | refine State.setReg_supply.trans ?_ | refine State.sendVec_supply.trans ?_
    | split

theorem writeEvIdx_supply {s : State} {b : Nat} :
    State.supply (writeEvIdx s b) = State.supply s := by
  unfold writeEvIdx
  with_reducible repeat' first
    | rfl | apply State.supply_ite | refine State.emit_supply.trans ?_ | refine State.modEv_supply.trans ?_ | split

theorem evNotify_supply {s : State} {b : Nat} {due : Bool} :
    State.supply (evNotify s b due) = State.supply s := by
  unfold evNotify
  with_reducible repeat' first
    | rfl | apply State.supply_ite | refine State.modEv_supply.trans ?_ | refine State.sendVec_supply.trans ?_
    | split

theorem pumpEv_supply {b : Nat} : ∀ {q : List EvRec} {s : State}, State.supply (pumpEv b q s) = State.supply s
  | [], _ => rfl
  | _ :: q, s => by
    unfold pumpEv
    dsimp only
    split
    · exact (pumpEv_supply (q := q)).trans (evNotify_supply.trans (writeEvIdx_supply.trans (State.modEv_supply.trans State.emit_supply)))
    · rfl

theorem State.flushEv_supply {s : State} {b : Nat} :
    State.supply (State.flushEv s b) = State.supply s := by
  unfold State.flushEv
  with_reducible repeat' first
    | rfl | refine pumpEv_supply.trans ?_

theorem raise_supply {s : State} {b kind subject : Nat} {payload : List Byte} :
    State.supply (raise s b kind subject payload) = State.supply s := by
  unfold raise
  with_reducible repeat' first
    | rfl | apply State.supply_ite | refine State.modEv_supply.trans ?_ | refine writeEvIdx_supply.trans ?_
    | refine State.flushEv_supply.trans ?_ | split

theorem raiseBoth_supply {s : State} {kind subject : Nat} {payload : List Byte} :
    State.supply (raiseBoth s kind subject payload) = State.supply s := by
  unfold raiseBoth
  with_reducible repeat' first
    | rfl | apply State.supply_ite | refine raise_supply.trans ?_ | split

theorem State.mirror_supply {s : State} {r : MirrorRec} :
    State.supply (State.mirror s r) = State.supply s := by
  unfold State.mirror
  with_reducible repeat' first
    | rfl | apply State.supply_ite | refine State.modPair_supply.trans ?_ | refine State.emit_supply.trans ?_
    | split

theorem writeIdx_supply {s : State} {k : Nat} :
    State.supply (writeIdx s k) = State.supply s := by
  unfold writeIdx
  with_reducible repeat' first
    | rfl | apply State.supply_ite | refine State.emit_supply.trans ?_ | refine State.modRing_supply.trans ?_
    | split

theorem ringNotify_supply {s : State} {k : Nat} {due : Bool} :
    State.supply (ringNotify s k due) = State.supply s := by
  unfold ringNotify
  with_reducible repeat' first
    | rfl | apply State.supply_ite | refine State.modRing_supply.trans ?_ | refine State.sendVec_supply.trans ?_
    | split

theorem ringItem_supply {s : State} {k : Nat} :
    State.supply (ringItem s k) = State.supply s := by
  unfold ringItem
  with_reducible repeat' first
    | rfl | refine State.modRing_supply.trans ?_ | refine writeIdx_supply.trans ?_
    | refine ringNotify_supply.trans ?_

theorem putCompletion_supply {s : State} {k : Nat} {c : Completion} :
    State.supply (putCompletion s k c) = State.supply s := by
  unfold putCompletion
  with_reducible repeat' first
    | rfl | refine State.emit_supply.trans ?_ | refine ringItem_supply.trans ?_
    | refine State.modRing_supply.trans ?_

theorem complete_supply {s : State} {k : Nat} {c : Completion} :
    State.supply (complete s k c) = State.supply s := by
  unfold complete
  with_reducible repeat' first
    | rfl | apply State.supply_ite | refine State.modRing_supply.trans ?_ | refine putCompletion_supply.trans ?_
    | split

theorem completeAll_supply {k idx status ckind : Nat} {tsq late : Bool} {info : Word} :
    ∀ {l : List Slot} {j : Nat} {s : State},
      State.supply (completeAll s k idx status ckind tsq late info j l) = State.supply s
  | [], _, _ => rfl
  | _ :: l, j, _ => (completeAll_supply (l := l) (j := j + 1)).trans complete_supply

theorem finish_supply {s : State} {k id status : Nat} {tsq late : Bool} {info : Word} :
    State.supply (finish s k id status tsq late info) = State.supply s := by
  unfold finish
  with_reducible repeat' first
    | rfl | apply State.supply_ite | refine completeAll_supply.trans ?_ | refine State.modRing_supply.trans ?_
    | split

theorem withhold_supply {s : State} {b : Nat} :
    State.supply (withhold s b) = State.supply s := by
  unfold withhold
  with_reducible repeat' first
    | rfl | refine State.modFn_supply.trans ?_

theorem steer_supply {s : State} {b r h : Nat} {p : Point} {m : Mirror} {repeated : Bool} :
    State.supply (steer s b r h p m repeated) = State.supply s := by
  unfold steer
  with_reducible repeat' first
    | rfl | apply State.supply_ite | refine State.emit_supply.trans ?_ | refine (State.modPwr_supply ?_).trans ?_
    | intro _ | refine ringItem_supply.trans ?_ | refine State.modRing_supply.trans ?_
    | refine writeIdx_supply.trans ?_ | refine withhold_supply.trans ?_ | split

theorem setChState_supply {s : State} {n : Nat} {st : ChState} :
    State.supply (setChState s n st) = State.supply s := by
  unfold setChState
  with_reducible repeat' first
    | rfl | apply State.supply_ite | refine State.modCh_supply.trans ?_ | refine State.sendVec_supply.trans ?_
    | split

theorem dirChanged_supply {s : State} :
    State.supply (dirChanged s) = State.supply s := by
  unfold dirChanged
  with_reducible repeat' first
    | rfl | refine State.modWs_supply.trans ?_

theorem dirFrom_supply {s t : State} :
    State.supply (dirFrom s t) = State.supply t := by
  unfold dirFrom
  with_reducible repeat' first
    | rfl | apply State.supply_ite | refine dirChanged_supply.trans ?_ | split

theorem deliver_supply {s : State} {h : Nat} {m : Mirror} {repeated : Bool} :
    State.supply (deliver s h m repeated) = State.supply s := by
  unfold deliver
  with_reducible repeat' first
    | rfl | intro _ | apply State.supply_ite | apply State.supply_foldl | refine steer_supply.trans ?_
    | refine State.modCh_supply.trans ?_ | refine State.modPt_supply.trans ?_ | split

theorem covUnit_supply {s : State} {h : Nat} {p : Point} {m : Mirror} {newSeq : Bool} :
    State.supply (covUnit s h p m newSeq) = State.supply s := by
  unfold covUnit
  with_reducible repeat' first
    | rfl | apply State.supply_ite | refine deliver_supply.trans ?_ | refine State.modPt_supply.trans ?_ | split

theorem mirrorWrite_supply {s : State} {h : Nat} {m : Mirror} :
    State.supply (mirrorWrite s h m) = State.supply s := by
  unfold mirrorWrite
  with_reducible repeat' first
    | rfl | refine State.modPt_supply.trans ?_ | refine State.mirror_supply.trans ?_
    | refine covUnit_supply.trans ?_ | split

theorem acquire_supply {s : State} {h : Nat} {v : Slot} {q : Nat} {stamp : Instant} :
    State.supply (acquire s h v q stamp) = State.supply s := by
  unfold acquire
  with_reducible repeat' first
    | rfl | apply State.supply_ite | refine State.modPt_supply.trans ?_ | refine mirrorWrite_supply.trans ?_
    | refine State.modCh_supply.trans ?_ | split

theorem State.modDio_supply {s : State} {n : Nat} {f : Dio → Dio} :
    State.supply (State.modDio s n f) = State.supply s := by
  unfold State.modDio
  with_reducible repeat' first
    | rfl | refine State.modCh_supply.trans ?_

theorem State.modDout_supply {s : State} {n d : Nat} {f : Dout → Dout} :
    State.supply (State.modDout s n d f) = State.supply s := by
  unfold State.modDout
  with_reducible repeat' first
    | rfl | refine State.modDio_supply.trans ?_

theorem State.modAout_supply {s : State} {n t : Nat} {f : Aout → Aout} :
    State.supply (State.modAout s n t f) = State.supply s := by
  unfold State.modAout
  with_reducible repeat' first
    | rfl | refine State.modDio_supply.trans ?_

theorem acquireTerm_supply {s : State} {n term : Nat} {v : Slot} {q : Nat} {stamp : Instant} :
    State.supply (acquireTerm s n term v q stamp) = State.supply s := by
  unfold acquireTerm
  with_reducible repeat' first
    | rfl | intro _ | apply State.supply_foldl | refine acquire_supply.trans ?_

theorem doutAcquire_supply {s : State} {n d : Nat} {stamp : Instant} :
    State.supply (doutAcquire s n d stamp) = State.supply s := by
  unfold doutAcquire
  with_reducible repeat' first
    | rfl | apply State.supply_ite | refine acquireTerm_supply.trans ?_ | refine State.modDout_supply.trans ?_
    | split

theorem aoutAcquire_supply {s : State} {n t : Nat} {stamp : Instant} :
    State.supply (aoutAcquire s n t stamp) = State.supply s := by
  unfold aoutAcquire
  with_reducible repeat' first
    | rfl | refine acquireTerm_supply.trans ?_ | refine State.modAout_supply.trans ?_

theorem latchDout_supply {s : State} {n d : Nat} {v : Bool} {stamp : Instant} :
    State.supply (latchDout s n d v stamp) = State.supply s := by
  unfold latchDout
  with_reducible repeat' first
    | rfl | apply State.supply_ite | refine State.modDout_supply.trans ?_ | refine doutAcquire_supply.trans ?_
    | split

theorem latchAout_supply {s : State} {n t code : Nat} {stamp : Instant} :
    State.supply (latchAout s n t code stamp) = State.supply s := by
  unfold latchAout
  with_reducible repeat' first
    | rfl | refine aoutAcquire_supply.trans ?_ | refine State.modAout_supply.trans ?_

theorem applySafe_supply {s : State} {n term : Nat} :
    State.supply (applySafe s n term) = State.supply s := by
  unfold applySafe
  with_reducible repeat' first
    | rfl | apply State.supply_ite | refine latchDout_supply.trans ?_ | refine State.modAout_supply.trans ?_
    | refine latchAout_supply.trans ?_ | refine aoutAcquire_supply.trans ?_ | split

theorem applyAllSafe_supply {s : State} {n : Nat} :
    State.supply (applyAllSafe s n) = State.supply s := by
  unfold applyAllSafe
  with_reducible repeat' first
    | rfl | intro _ | apply State.supply_ite | apply State.supply_foldl | refine applySafe_supply.trans ?_ | split

theorem guardKickOp_supply {n : Nat} {s : State} :
    State.supply (guardKickOp n s) = State.supply s := by
  unfold guardKickOp
  with_reducible repeat' first
    | rfl | intro _ | apply State.supply_ite | apply State.supply_foldl | refine State.modDio_supply.trans ?_
    | refine doutAcquire_supply.trans ?_ | refine aoutAcquire_supply.trans ?_ | split

theorem timeRec_supply {s : State} {i : Nat} {payload : List Byte} :
    State.supply (timeRec s i payload) = State.supply s := by
  unfold timeRec
  with_reducible repeat' first
    | rfl | refine raise_supply.trans ?_ | refine State.intBit_supply.trans ?_

theorem State.modTbl_supply {s : State} {t : Nat} {f : Table → Table} :
    State.supply (State.modTbl s t f) = State.supply s := by
  unfold State.modTbl
  with_reducible repeat' first
    | rfl | apply State.supply_ite | refine State.modCh_supply.trans ?_ | split

theorem State.modEnt_supply {s : State} {t i : Nat} {f : Entry → Entry} :
    State.supply (State.modEnt s t i f) = State.supply s := by
  unfold State.modEnt
  with_reducible repeat' first
    | rfl | refine State.modTbl_supply.trans ?_

theorem actRecord_supply {s : State} {t i : Nat} {e : Entry} {outcome detail lateUs skipped : Nat} {final : Bool} :
    State.supply (actRecord s t i e outcome detail lateUs skipped final) = State.supply s := by
  unfold actRecord
  with_reducible repeat' first
    | rfl | apply State.supply_ite | refine State.modCh_supply.trans ?_ | refine State.modEv_supply.trans ?_
    | refine raise_supply.trans ?_ | split

theorem actOutcome_supply {s : State} {t i : Nat} {e : Entry} {outcome detail lateUs : Nat} {final : Bool} :
    State.supply (actOutcome s t i e outcome detail lateUs final) = State.supply s := by
  unfold actOutcome
  with_reducible repeat' first
    | rfl | apply State.supply_ite | refine State.modTbl_supply.trans ?_ | refine actRecord_supply.trans ?_
    | refine State.modEnt_supply.trans ?_ | split

theorem endEntry_supply {s : State} {t i : Nat} {e : Entry} :
    State.supply (endEntry s t i e) = State.supply s := by
  unfold endEntry
  with_reducible repeat' first
    | rfl | apply State.supply_ite | refine State.modEnt_supply.trans ?_ | refine State.modTbl_supply.trans ?_
    | refine State.mirror_supply.trans ?_ | split

theorem occOutcome_supply {s : State} {t i : Nat} {e : Entry} {outcome detail lateUs : Nat} {last : Bool} :
    State.supply (occOutcome s t i e outcome detail lateUs last) = State.supply s := by
  unfold occOutcome
  with_reducible repeat' first
    | rfl | apply State.supply_ite | refine actOutcome_supply.trans ?_ | refine endEntry_supply.trans ?_ | split

theorem cancelEntry_supply {s : State} {t i : Nat} {e : Entry} {detail : Nat} :
    State.supply (cancelEntry s t i e detail) = State.supply s := by
  unfold cancelEntry
  with_reducible repeat' first
    | rfl | refine actOutcome_supply.trans ?_ | refine State.modTbl_supply.trans ?_
    | refine State.mirror_supply.trans ?_

theorem resubscribe_supply {s : State} :
    State.supply (resubscribe s) = State.supply s := by
  unfold resubscribe
  with_reducible repeat' first
    | rfl | intro _ | apply State.supply_ite | apply State.supply_foldl | refine State.modPt_supply.trans ?_
    | refine State.modCh_supply.trans ?_ | split

theorem groupTxnEnded_supply {s : State} {i result : Nat} :
    State.supply (groupTxnEnded s i result) = State.supply s := by
  unfold groupTxnEnded
  with_reducible repeat' first
    | rfl | apply State.supply_ite | refine State.modEnt_supply.trans ?_ | refine occOutcome_supply.trans ?_
    | refine cancelEntry_supply.trans ?_ | split

theorem actTimeValid_supply {s : State} {t : Nat} :
    State.supply (actTimeValid s t) = State.supply s := by
  unfold actTimeValid
  with_reducible repeat' first
    | rfl | intro _ | apply State.supply_ite | apply State.supply_foldl | refine occOutcome_supply.trans ?_
    | refine State.modEnt_supply.trans ?_ | split

theorem ringsServe_supply {s : State} :
    State.supply (ringsServe s) = State.supply s := by
  unfold ringsServe
  with_reducible repeat' first
    | rfl | intro _ | apply State.supply_ite | apply State.supply_foldl | refine State.flushEv_supply.trans ?_
    | split

theorem channelFlightsLost_supply {s : State} {n : Nat} :
    State.supply (channelFlightsLost s n) = State.supply s := by
  unfold channelFlightsLost
  with_reducible repeat' first
    | rfl | intro _ | apply State.supply_ite | apply State.supply_foldl | refine finish_supply.trans ?_ | split

theorem revokePass_supply {s : State} {id reason : Nat} :
    State.supply (revokePass s id reason) = State.supply s := by
  unfold revokePass
  with_reducible repeat' first
    | rfl | refine dirFrom_supply.trans ?_ | refine State.modWs_supply.trans ?_ | refine raise_supply.trans ?_
    | split

theorem passExpiryOp_supply {id : Nat} {s : State} :
    State.supply (passExpiryOp id s) = State.supply s := by
  unfold passExpiryOp
  with_reducible repeat' first
    | rfl | apply State.supply_ite | refine revokePass_supply.trans ?_ | refine State.mirror_supply.trans ?_ | split

theorem passesValid_supply {s : State} :
    State.supply (passesValid s) = State.supply s := by
  unfold passesValid
  with_reducible repeat' first
    | rfl | intro _ | apply State.supply_foldl | refine passExpiryOp_supply.trans ?_
    | refine State.modWs_supply.trans ?_

theorem updRec_supply {s : State} {i : Nat} {payload : List Byte} :
    State.supply (updRec s i payload) = State.supply s := by
  unfold updRec
  with_reducible repeat' first
    | rfl | refine raise_supply.trans ?_ | refine State.sendVec_supply.trans ?_

theorem updEnds_supply {s : State} {new res : Nat} :
    State.supply (updEnds s new res) = State.supply s := by
  unfold updEnds
  with_reducible repeat' first
    | rfl | apply State.supply_ite | refine updRec_supply.trans ?_ | refine State.modUpd_supply.trans ?_ | split

theorem stopChannel_supply {s : State} {n : Nat} {h : Instant} :
    State.supply (stopChannel s n h) = State.supply s := by
  unfold stopChannel
  with_reducible repeat' first
    | rfl | apply State.supply_ite | refine State.modCh_supply.trans ?_ | split

theorem vaultAbort_supply {s : State} {result : Nat} :
    State.supply (vaultAbort s result) = State.supply s := by
  unfold vaultAbort
  with_reducible repeat' first
    | rfl | apply State.supply_ite | refine State.modVlt_supply.trans ?_ | refine State.intBit_supply.trans ?_
    | split

theorem yieldTo_supply {s : State} {cause : Nat} :
    State.supply (yieldTo s cause) = State.supply s := by
  unfold yieldTo
  with_reducible repeat' first
    | rfl | intro _ | apply State.supply_ite | apply State.supply_foldl | refine stopChannel_supply.trans ?_
    | refine State.modPair_supply.trans ?_ | split

theorem vaultRec_supply {s : State} {i subject : Nat} {payload : List Byte} :
    State.supply (vaultRec s i subject payload) = State.supply s := by
  unfold vaultRec
  with_reducible repeat' first
    | rfl | refine raiseBoth_supply.trans ?_ | refine State.intBit_supply.trans ?_

theorem channelServes_supply {s : State} {n : Nat} :
    State.supply (channelServes s n) = State.supply s := by
  unfold channelServes
  with_reducible repeat' first
    | rfl | apply State.supply_ite | refine guardKickOp_supply.trans ?_ | refine setChState_supply.trans ?_ | split

theorem wsTxnFailed_supply {s : State} {r : Nat} : (wsTxnFailed s r).supply = s.supply := by
  unfold wsTxnFailed
  split
  · rfl
  · dsimp only
    refine State.modWs_supply.trans (resubscribe_supply.trans ?_)
    exact State.supply_foldl (fun s a => (raiseBoth_supply.trans State.modWs_supply)) rfl

theorem loseTxn_supply {s : State} {c : Nat} : (loseTxn s c).supply = s.supply := by
  have h1 : ∀ x : State, x.supply = s.supply → (if c = 64 then wsTxnFailed x 12 else if 128 ≤ c then groupTxnEnded x (c - 128) 12
      else raiseBoth x 5 c (bytesLE 4 (s.txn c).id)).supply = s.supply := by
    intro x hx
    split
    · exact wsTxnFailed_supply.trans hx
    · split
      · exact groupTxnEnded_supply.trans hx
      · exact raiseBoth_supply.trans hx
  unfold loseTxn
  dsimp only
  split
  · rfl
  · refine h1 _ ?_
    unfold mirrorEnded
    split
    · exact State.mirror_supply.trans State.modTxn_supply
    · exact State.modTxn_supply

/- ### `State.life` -/

/-- The lifecycle, as a view. -/
abbrev State.life (s : State) : LifeCycle := s.lc
theorem State.life_ite {c : Prop} [Decidable c] {a b : State} {r : LifeCycle} (ha : a.life = r) (hb : b.life = r) :
    (if c then a else b).life = r := by split <;> assumption
theorem State.life_foldl {α : Type} {f : State → α → State} {r : LifeCycle}
    (hf : ∀ s a, (f s a).life = s.life) : ∀ {l : List α} {s : State}, s.life = r → (l.foldl f s).life = r
  | [], _, h => h
  | a :: l, s, h => State.life_foldl hf (l := l) ((hf s a).trans h)
theorem State.emit_life {s : State} {e : Emission} : (s.emit e).life = s.life := rfl
theorem State.modCh_life {s : State} {n : Nat} {f : Chan → Chan} : (s.modCh n f).life = s.life := rfl
theorem State.modEv_life {s : State} {b : Nat} {f : EvRing → EvRing} : (s.modEv b f).life = s.life := rfl
theorem State.modRing_life {s : State} {b : Nat} {f : Ring → Ring} : (s.modRing b f).life = s.life := rfl
theorem State.modPair_life {s : State} {f : Pair → Pair} : (s.modPair f).life = s.life := rfl
theorem State.modNet_life {s : State} {n : Nat} {f : NetPort → NetPort} : (s.modNet n f).life = s.life := rfl
theorem State.modPt_life {s : State} {n : Nat} {f : Point → Point} : (s.modPt n f).life = s.life := rfl
theorem State.modPwr_life {s : State} {f : Power → Power} : (s.modPwr f).life = s.life := rfl
theorem State.modTime_life {s : State} {f : HubTime → HubTime} : (s.modTime f).life = s.life := rfl
theorem State.modWs_life {s : State} {f : Watershed → Watershed} : (s.modWs f).life = s.life := rfl
theorem State.modTxn_life {s : State} {c : Nat} {f : Txn → Txn} : (s.modTxn c f).life = s.life := rfl
theorem State.modBkp_life {s : State} {f : Backup → Backup} : (s.modBkp f).life = s.life := rfl
theorem State.modVlt_life {s : State} {f : Vault → Vault} : (s.modVlt f).life = s.life := rfl
theorem State.modUpd_life {s : State} {f : Upd → Upd} : (s.modUpd f).life = s.life := rfl
theorem State.tick1_life {s : State}  : (s.tick1 ).life = s.life := rfl
theorem State.modCan_life {s : State} {n x : Nat} {f : Can → Can} : (s.modCan n x f).life = s.life := rfl
theorem State.modSeg_life {s : State} {n x : Nat} {f : Seg → Seg} : (s.modSeg n x f).life = s.life := rfl
theorem State.modFn_life {s : State} {n : Nat} {f : Fn → Fn} : (s.modFn n f).life = s.life := rfl
theorem State.setReg_life {s : State} {k : Nat} {w : Word} : (s.setReg k w).life = s.life := by
  unfold State.setReg; split <;> rfl

theorem State.sendVec_life {s : State} {b v : Nat} :
    State.life (State.sendVec s b v) = State.life s := by
  unfold State.sendVec
  with_reducible repeat' first
    | rfl | apply State.life_ite | refine State.modFn_life.trans ?_ | refine State.emit_life.trans ?_ | split

theorem State.alert_life {s : State} {i : Nat} :
    State.life (State.alert s i) = State.life s := by
  unfold State.alert
  with_reducible repeat' first
    | rfl | apply State.life_ite | refine State.sendVec_life.trans ?_ | split

theorem State.intBit_life {s : State} {key i vec : Nat} :
    State.life (State.intBit s key i vec) = State.life s := by
  unfold State.intBit
  with_reducible repeat' first
    | rfl | apply State.life_ite | refine State.setReg_life.trans ?_ | refine State.sendVec_life.trans ?_ | split

theorem writeEvIdx_life {s : State} {b : Nat} :
    State.life (writeEvIdx s b) = State.life s := by
  unfold writeEvIdx
  with_reducible repeat' first
    | rfl | apply State.life_ite | refine State.emit_life.trans ?_ | refine State.modEv_life.trans ?_ | split

theorem evNotify_life {s : State} {b : Nat} {due : Bool} :
    State.life (evNotify s b due) = State.life s := by
  unfold evNotify
  with_reducible repeat' first
    | rfl | apply State.life_ite | refine State.modEv_life.trans ?_ | refine State.sendVec_life.trans ?_ | split

theorem pumpEv_life {b : Nat} : ∀ {q : List EvRec} {s : State}, State.life (pumpEv b q s) = State.life s
  | [], _ => rfl
  | _ :: q, s => by
    unfold pumpEv
    dsimp only
    split
    · exact (pumpEv_life (q := q)).trans (evNotify_life.trans (writeEvIdx_life.trans (State.modEv_life.trans State.emit_life)))
    · rfl

theorem State.flushEv_life {s : State} {b : Nat} :
    State.life (State.flushEv s b) = State.life s := by
  unfold State.flushEv
  with_reducible repeat' first
    | rfl | refine pumpEv_life.trans ?_

theorem raise_life {s : State} {b kind subject : Nat} {payload : List Byte} :
    State.life (raise s b kind subject payload) = State.life s := by
  unfold raise
  with_reducible repeat' first
    | rfl | apply State.life_ite | refine State.modEv_life.trans ?_ | refine writeEvIdx_life.trans ?_
    | refine State.flushEv_life.trans ?_ | split

theorem raiseBoth_life {s : State} {kind subject : Nat} {payload : List Byte} :
    State.life (raiseBoth s kind subject payload) = State.life s := by
  unfold raiseBoth
  with_reducible repeat' first
    | rfl | apply State.life_ite | refine raise_life.trans ?_ | split

theorem State.mirror_life {s : State} {r : MirrorRec} :
    State.life (State.mirror s r) = State.life s := by
  unfold State.mirror
  with_reducible repeat' first
    | rfl | apply State.life_ite | refine State.modPair_life.trans ?_ | refine State.emit_life.trans ?_ | split

theorem writeIdx_life {s : State} {k : Nat} :
    State.life (writeIdx s k) = State.life s := by
  unfold writeIdx
  with_reducible repeat' first
    | rfl | apply State.life_ite | refine State.emit_life.trans ?_ | refine State.modRing_life.trans ?_ | split

theorem ringNotify_life {s : State} {k : Nat} {due : Bool} :
    State.life (ringNotify s k due) = State.life s := by
  unfold ringNotify
  with_reducible repeat' first
    | rfl | apply State.life_ite | refine State.modRing_life.trans ?_ | refine State.sendVec_life.trans ?_ | split

theorem ringItem_life {s : State} {k : Nat} :
    State.life (ringItem s k) = State.life s := by
  unfold ringItem
  with_reducible repeat' first
    | rfl | refine State.modRing_life.trans ?_ | refine writeIdx_life.trans ?_ | refine ringNotify_life.trans ?_

theorem withhold_life {s : State} {b : Nat} :
    State.life (withhold s b) = State.life s := by
  unfold withhold
  with_reducible repeat' first
    | rfl | refine State.modFn_life.trans ?_

theorem steer_life {s : State} {b r h : Nat} {p : Point} {m : Mirror} {repeated : Bool} :
    State.life (steer s b r h p m repeated) = State.life s := by
  unfold steer
  with_reducible repeat' first
    | rfl | apply State.life_ite | refine State.emit_life.trans ?_ | refine State.modPwr_life.trans ?_
    | refine ringItem_life.trans ?_ | refine State.modRing_life.trans ?_ | refine writeIdx_life.trans ?_
    | refine withhold_life.trans ?_ | split

theorem setChState_life {s : State} {n : Nat} {st : ChState} :
    State.life (setChState s n st) = State.life s := by
  unfold setChState
  with_reducible repeat' first
    | rfl | apply State.life_ite | refine State.modCh_life.trans ?_ | refine State.sendVec_life.trans ?_ | split

theorem dirChanged_life {s : State} :
    State.life (dirChanged s) = State.life s := by
  unfold dirChanged
  with_reducible repeat' first
    | rfl | refine State.modWs_life.trans ?_

theorem dirFrom_life {s t : State} :
    State.life (dirFrom s t) = State.life t := by
  unfold dirFrom
  with_reducible repeat' first
    | rfl | apply State.life_ite | refine dirChanged_life.trans ?_ | split

theorem deliver_life {s : State} {h : Nat} {m : Mirror} {repeated : Bool} :
    State.life (deliver s h m repeated) = State.life s := by
  unfold deliver
  with_reducible repeat' first
    | rfl | intro _ | apply State.life_ite | apply State.life_foldl | refine steer_life.trans ?_
    | refine State.modCh_life.trans ?_ | refine State.modPt_life.trans ?_ | split

theorem covUnit_life {s : State} {h : Nat} {p : Point} {m : Mirror} {newSeq : Bool} :
    State.life (covUnit s h p m newSeq) = State.life s := by
  unfold covUnit
  with_reducible repeat' first
    | rfl | apply State.life_ite | refine deliver_life.trans ?_ | refine State.modPt_life.trans ?_ | split

theorem mirrorWrite_life {s : State} {h : Nat} {m : Mirror} :
    State.life (mirrorWrite s h m) = State.life s := by
  unfold mirrorWrite
  with_reducible repeat' first
    | rfl | refine State.modPt_life.trans ?_ | refine State.mirror_life.trans ?_ | refine covUnit_life.trans ?_
    | split

theorem acquire_life {s : State} {h : Nat} {v : Slot} {q : Nat} {stamp : Instant} :
    State.life (acquire s h v q stamp) = State.life s := by
  unfold acquire
  with_reducible repeat' first
    | rfl | apply State.life_ite | refine State.modPt_life.trans ?_ | refine mirrorWrite_life.trans ?_
    | refine State.modCh_life.trans ?_ | split

theorem State.modDio_life {s : State} {n : Nat} {f : Dio → Dio} :
    State.life (State.modDio s n f) = State.life s := by
  unfold State.modDio
  with_reducible repeat' first
    | rfl | refine State.modCh_life.trans ?_

theorem State.modDout_life {s : State} {n d : Nat} {f : Dout → Dout} :
    State.life (State.modDout s n d f) = State.life s := by
  unfold State.modDout
  with_reducible repeat' first
    | rfl | refine State.modDio_life.trans ?_

theorem State.modAout_life {s : State} {n t : Nat} {f : Aout → Aout} :
    State.life (State.modAout s n t f) = State.life s := by
  unfold State.modAout
  with_reducible repeat' first
    | rfl | refine State.modDio_life.trans ?_

theorem acquireTerm_life {s : State} {n term : Nat} {v : Slot} {q : Nat} {stamp : Instant} :
    State.life (acquireTerm s n term v q stamp) = State.life s := by
  unfold acquireTerm
  with_reducible repeat' first
    | rfl | intro _ | apply State.life_foldl | refine acquire_life.trans ?_

theorem doutAcquire_life {s : State} {n d : Nat} {stamp : Instant} :
    State.life (doutAcquire s n d stamp) = State.life s := by
  unfold doutAcquire
  with_reducible repeat' first
    | rfl | apply State.life_ite | refine acquireTerm_life.trans ?_ | refine State.modDout_life.trans ?_ | split

theorem aoutAcquire_life {s : State} {n t : Nat} {stamp : Instant} :
    State.life (aoutAcquire s n t stamp) = State.life s := by
  unfold aoutAcquire
  with_reducible repeat' first
    | rfl | refine acquireTerm_life.trans ?_ | refine State.modAout_life.trans ?_

theorem latchDout_life {s : State} {n d : Nat} {v : Bool} {stamp : Instant} :
    State.life (latchDout s n d v stamp) = State.life s := by
  unfold latchDout
  with_reducible repeat' first
    | rfl | apply State.life_ite | refine State.modDout_life.trans ?_ | refine doutAcquire_life.trans ?_ | split

theorem latchAout_life {s : State} {n t code : Nat} {stamp : Instant} :
    State.life (latchAout s n t code stamp) = State.life s := by
  unfold latchAout
  with_reducible repeat' first
    | rfl | refine aoutAcquire_life.trans ?_ | refine State.modAout_life.trans ?_

theorem applySafe_life {s : State} {n term : Nat} :
    State.life (applySafe s n term) = State.life s := by
  unfold applySafe
  with_reducible repeat' first
    | rfl | apply State.life_ite | refine latchDout_life.trans ?_ | refine State.modAout_life.trans ?_
    | refine latchAout_life.trans ?_ | refine aoutAcquire_life.trans ?_ | split

theorem applyAllSafe_life {s : State} {n : Nat} :
    State.life (applyAllSafe s n) = State.life s := by
  unfold applyAllSafe
  with_reducible repeat' first
    | rfl | intro _ | apply State.life_ite | apply State.life_foldl | refine applySafe_life.trans ?_ | split

theorem State.modTbl_life {s : State} {t : Nat} {f : Table → Table} :
    State.life (State.modTbl s t f) = State.life s := by
  unfold State.modTbl
  with_reducible repeat' first
    | rfl | apply State.life_ite | refine State.modCh_life.trans ?_ | split

theorem State.modEnt_life {s : State} {t i : Nat} {f : Entry → Entry} :
    State.life (State.modEnt s t i f) = State.life s := by
  unfold State.modEnt
  with_reducible repeat' first
    | rfl | refine State.modTbl_life.trans ?_

theorem actRecord_life {s : State} {t i : Nat} {e : Entry} {outcome detail lateUs skipped : Nat} {final : Bool} :
    State.life (actRecord s t i e outcome detail lateUs skipped final) = State.life s := by
  unfold actRecord
  with_reducible repeat' first
    | rfl | apply State.life_ite | refine State.modCh_life.trans ?_ | refine State.modEv_life.trans ?_
    | refine raise_life.trans ?_ | split

theorem actOutcome_life {s : State} {t i : Nat} {e : Entry} {outcome detail lateUs : Nat} {final : Bool} :
    State.life (actOutcome s t i e outcome detail lateUs final) = State.life s := by
  unfold actOutcome
  with_reducible repeat' first
    | rfl | apply State.life_ite | refine State.modTbl_life.trans ?_ | refine actRecord_life.trans ?_
    | refine State.modEnt_life.trans ?_ | split

theorem endEntry_life {s : State} {t i : Nat} {e : Entry} :
    State.life (endEntry s t i e) = State.life s := by
  unfold endEntry
  with_reducible repeat' first
    | rfl | apply State.life_ite | refine State.modEnt_life.trans ?_ | refine State.modTbl_life.trans ?_
    | refine State.mirror_life.trans ?_ | split

theorem occOutcome_life {s : State} {t i : Nat} {e : Entry} {outcome detail lateUs : Nat} {last : Bool} :
    State.life (occOutcome s t i e outcome detail lateUs last) = State.life s := by
  unfold occOutcome
  with_reducible repeat' first
    | rfl | apply State.life_ite | refine actOutcome_life.trans ?_ | refine endEntry_life.trans ?_ | split

theorem actTimeValid_life {s : State} {t : Nat} :
    State.life (actTimeValid s t) = State.life s := by
  unfold actTimeValid
  with_reducible repeat' first
    | rfl | intro _ | apply State.life_ite | apply State.life_foldl | refine occOutcome_life.trans ?_
    | refine State.modEnt_life.trans ?_ | split

theorem revokePass_life {s : State} {id reason : Nat} :
    State.life (revokePass s id reason) = State.life s := by
  unfold revokePass
  with_reducible repeat' first
    | rfl | refine dirFrom_life.trans ?_ | refine State.modWs_life.trans ?_ | refine raise_life.trans ?_ | split

theorem passExpiryOp_life {id : Nat} {s : State} :
    State.life (passExpiryOp id s) = State.life s := by
  unfold passExpiryOp
  with_reducible repeat' first
    | rfl | apply State.life_ite | refine revokePass_life.trans ?_ | refine State.mirror_life.trans ?_ | split

theorem passesValid_life {s : State} :
    State.life (passesValid s) = State.life s := by
  unfold passesValid
  with_reducible repeat' first
    | rfl | intro _ | apply State.life_foldl | refine passExpiryOp_life.trans ?_ | refine State.modWs_life.trans ?_

theorem vaultAbort_life {s : State} {result : Nat} :
    State.life (vaultAbort s result) = State.life s := by
  unfold vaultAbort
  with_reducible repeat' first
    | rfl | apply State.life_ite | refine State.modVlt_life.trans ?_ | refine State.intBit_life.trans ?_ | split

theorem vaultRec_life {s : State} {i subject : Nat} {payload : List Byte} :
    State.life (vaultRec s i subject payload) = State.life s := by
  unfold vaultRec
  with_reducible repeat' first
    | rfl | refine raiseBoth_life.trans ?_ | refine State.intBit_life.trans ?_

theorem State.setVslot_life {s : State} {n : Nat} {v : VSlot} :
    State.life (State.setVslot s n v) = State.life s := by
  unfold State.setVslot
  with_reducible repeat' first
    | rfl | apply State.life_ite | refine State.modVlt_life.trans ?_ | split

theorem keyChanged_life {s : State} {slot basin cause affected : Nat} :
    State.life (keyChanged s slot basin cause affected) = State.life s := by
  unfold keyChanged
  with_reducible repeat' first
    | rfl | apply State.life_ite | refine vaultRec_life.trans ?_ | split

theorem orphanAll_life {s : State} {ds : List Nat} :
    State.life (orphanAll s ds) = State.life s := by
  unfold orphanAll
  with_reducible repeat' first
    | rfl | intro _ | apply State.life_foldl | refine State.setVslot_life.trans ?_ | refine keyChanged_life.trans ?_

theorem dropPending_life {s : State} {ps : List Nat} :
    State.life (dropPending s ps) = State.life s := by
  unfold dropPending
  with_reducible repeat' first
    | rfl | intro _ | apply State.life_foldl | refine State.setVslot_life.trans ?_ | split

/- ### `State.upds` -/

/-- The update engine, as a view. -/
abbrev State.upds (s : State) : Upd := s.upd
theorem State.upds_ite {c : Prop} [Decidable c] {a b : State} {r : Upd} (ha : a.upds = r) (hb : b.upds = r) :
    (if c then a else b).upds = r := by split <;> assumption
theorem State.upds_foldl {α : Type} {f : State → α → State} {r : Upd}
    (hf : ∀ s a, (f s a).upds = s.upds) : ∀ {l : List α} {s : State}, s.upds = r → (l.foldl f s).upds = r
  | [], _, h => h
  | a :: l, s, h => State.upds_foldl hf (l := l) ((hf s a).trans h)
theorem State.emit_upds {s : State} {e : Emission} : (s.emit e).upds = s.upds := rfl
theorem State.modCh_upds {s : State} {n : Nat} {f : Chan → Chan} : (s.modCh n f).upds = s.upds := rfl
theorem State.modEv_upds {s : State} {b : Nat} {f : EvRing → EvRing} : (s.modEv b f).upds = s.upds := rfl
theorem State.modRing_upds {s : State} {b : Nat} {f : Ring → Ring} : (s.modRing b f).upds = s.upds := rfl
theorem State.modPair_upds {s : State} {f : Pair → Pair} : (s.modPair f).upds = s.upds := rfl
theorem State.modNet_upds {s : State} {n : Nat} {f : NetPort → NetPort} : (s.modNet n f).upds = s.upds := rfl
theorem State.modPt_upds {s : State} {n : Nat} {f : Point → Point} : (s.modPt n f).upds = s.upds := rfl
theorem State.modPwr_upds {s : State} {f : Power → Power} : (s.modPwr f).upds = s.upds := rfl
theorem State.modTime_upds {s : State} {f : HubTime → HubTime} : (s.modTime f).upds = s.upds := rfl
theorem State.modWs_upds {s : State} {f : Watershed → Watershed} : (s.modWs f).upds = s.upds := rfl
theorem State.modTxn_upds {s : State} {c : Nat} {f : Txn → Txn} : (s.modTxn c f).upds = s.upds := rfl
theorem State.modBkp_upds {s : State} {f : Backup → Backup} : (s.modBkp f).upds = s.upds := rfl
theorem State.modVlt_upds {s : State} {f : Vault → Vault} : (s.modVlt f).upds = s.upds := rfl
theorem State.tick1_upds {s : State}  : (s.tick1 ).upds = s.upds := rfl
theorem State.modCan_upds {s : State} {n x : Nat} {f : Can → Can} : (s.modCan n x f).upds = s.upds := rfl
theorem State.modSeg_upds {s : State} {n x : Nat} {f : Seg → Seg} : (s.modSeg n x f).upds = s.upds := rfl
theorem State.modFn_upds {s : State} {n : Nat} {f : Fn → Fn} : (s.modFn n f).upds = s.upds := rfl
theorem State.setReg_upds {s : State} {k : Nat} {w : Word} : (s.setReg k w).upds = s.upds := by
  unfold State.setReg; split <;> rfl

theorem State.sendVec_upds {s : State} {b v : Nat} :
    State.upds (State.sendVec s b v) = State.upds s := by
  unfold State.sendVec
  with_reducible repeat' first
    | rfl | apply State.upds_ite | refine State.modFn_upds.trans ?_ | refine State.emit_upds.trans ?_ | split

theorem State.alert_upds {s : State} {i : Nat} :
    State.upds (State.alert s i) = State.upds s := by
  unfold State.alert
  with_reducible repeat' first
    | rfl | apply State.upds_ite | refine State.sendVec_upds.trans ?_ | split

theorem State.intBit_upds {s : State} {key i vec : Nat} :
    State.upds (State.intBit s key i vec) = State.upds s := by
  unfold State.intBit
  with_reducible repeat' first
    | rfl | apply State.upds_ite | refine State.setReg_upds.trans ?_ | refine State.sendVec_upds.trans ?_ | split

theorem writeEvIdx_upds {s : State} {b : Nat} :
    State.upds (writeEvIdx s b) = State.upds s := by
  unfold writeEvIdx
  with_reducible repeat' first
    | rfl | apply State.upds_ite | refine State.emit_upds.trans ?_ | refine State.modEv_upds.trans ?_ | split

theorem evNotify_upds {s : State} {b : Nat} {due : Bool} :
    State.upds (evNotify s b due) = State.upds s := by
  unfold evNotify
  with_reducible repeat' first
    | rfl | apply State.upds_ite | refine State.modEv_upds.trans ?_ | refine State.sendVec_upds.trans ?_ | split

theorem pumpEv_upds {b : Nat} : ∀ {q : List EvRec} {s : State}, State.upds (pumpEv b q s) = State.upds s
  | [], _ => rfl
  | _ :: q, s => by
    unfold pumpEv
    dsimp only
    split
    · exact (pumpEv_upds (q := q)).trans (evNotify_upds.trans (writeEvIdx_upds.trans (State.modEv_upds.trans State.emit_upds)))
    · rfl

theorem State.flushEv_upds {s : State} {b : Nat} :
    State.upds (State.flushEv s b) = State.upds s := by
  unfold State.flushEv
  with_reducible repeat' first
    | rfl | refine pumpEv_upds.trans ?_

theorem raise_upds {s : State} {b kind subject : Nat} {payload : List Byte} :
    State.upds (raise s b kind subject payload) = State.upds s := by
  unfold raise
  with_reducible repeat' first
    | rfl | apply State.upds_ite | refine State.modEv_upds.trans ?_ | refine writeEvIdx_upds.trans ?_
    | refine State.flushEv_upds.trans ?_ | split

theorem raiseBoth_upds {s : State} {kind subject : Nat} {payload : List Byte} :
    State.upds (raiseBoth s kind subject payload) = State.upds s := by
  unfold raiseBoth
  with_reducible repeat' first
    | rfl | apply State.upds_ite | refine raise_upds.trans ?_ | split

theorem State.mirror_upds {s : State} {r : MirrorRec} :
    State.upds (State.mirror s r) = State.upds s := by
  unfold State.mirror
  with_reducible repeat' first
    | rfl | apply State.upds_ite | refine State.modPair_upds.trans ?_ | refine State.emit_upds.trans ?_ | split

theorem writeIdx_upds {s : State} {k : Nat} :
    State.upds (writeIdx s k) = State.upds s := by
  unfold writeIdx
  with_reducible repeat' first
    | rfl | apply State.upds_ite | refine State.emit_upds.trans ?_ | refine State.modRing_upds.trans ?_ | split

theorem ringNotify_upds {s : State} {k : Nat} {due : Bool} :
    State.upds (ringNotify s k due) = State.upds s := by
  unfold ringNotify
  with_reducible repeat' first
    | rfl | apply State.upds_ite | refine State.modRing_upds.trans ?_ | refine State.sendVec_upds.trans ?_ | split

theorem ringItem_upds {s : State} {k : Nat} :
    State.upds (ringItem s k) = State.upds s := by
  unfold ringItem
  with_reducible repeat' first
    | rfl | refine State.modRing_upds.trans ?_ | refine writeIdx_upds.trans ?_ | refine ringNotify_upds.trans ?_

theorem withhold_upds {s : State} {b : Nat} :
    State.upds (withhold s b) = State.upds s := by
  unfold withhold
  with_reducible repeat' first
    | rfl | refine State.modFn_upds.trans ?_

theorem steer_upds {s : State} {b r h : Nat} {p : Point} {m : Mirror} {repeated : Bool} :
    State.upds (steer s b r h p m repeated) = State.upds s := by
  unfold steer
  with_reducible repeat' first
    | rfl | apply State.upds_ite | refine State.emit_upds.trans ?_ | refine State.modPwr_upds.trans ?_
    | refine ringItem_upds.trans ?_ | refine State.modRing_upds.trans ?_ | refine writeIdx_upds.trans ?_
    | refine withhold_upds.trans ?_ | split

theorem setChState_upds {s : State} {n : Nat} {st : ChState} :
    State.upds (setChState s n st) = State.upds s := by
  unfold setChState
  with_reducible repeat' first
    | rfl | apply State.upds_ite | refine State.modCh_upds.trans ?_ | refine State.sendVec_upds.trans ?_ | split

theorem dirChanged_upds {s : State} :
    State.upds (dirChanged s) = State.upds s := by
  unfold dirChanged
  with_reducible repeat' first
    | rfl | refine State.modWs_upds.trans ?_

theorem dirFrom_upds {s t : State} :
    State.upds (dirFrom s t) = State.upds t := by
  unfold dirFrom
  with_reducible repeat' first
    | rfl | apply State.upds_ite | refine dirChanged_upds.trans ?_ | split

theorem deliver_upds {s : State} {h : Nat} {m : Mirror} {repeated : Bool} :
    State.upds (deliver s h m repeated) = State.upds s := by
  unfold deliver
  with_reducible repeat' first
    | rfl | intro _ | apply State.upds_ite | apply State.upds_foldl | refine steer_upds.trans ?_
    | refine State.modCh_upds.trans ?_ | refine State.modPt_upds.trans ?_ | split

theorem covUnit_upds {s : State} {h : Nat} {p : Point} {m : Mirror} {newSeq : Bool} :
    State.upds (covUnit s h p m newSeq) = State.upds s := by
  unfold covUnit
  with_reducible repeat' first
    | rfl | apply State.upds_ite | refine deliver_upds.trans ?_ | refine State.modPt_upds.trans ?_ | split

theorem mirrorWrite_upds {s : State} {h : Nat} {m : Mirror} :
    State.upds (mirrorWrite s h m) = State.upds s := by
  unfold mirrorWrite
  with_reducible repeat' first
    | rfl | refine State.modPt_upds.trans ?_ | refine State.mirror_upds.trans ?_ | refine covUnit_upds.trans ?_
    | split

theorem acquire_upds {s : State} {h : Nat} {v : Slot} {q : Nat} {stamp : Instant} :
    State.upds (acquire s h v q stamp) = State.upds s := by
  unfold acquire
  with_reducible repeat' first
    | rfl | apply State.upds_ite | refine State.modPt_upds.trans ?_ | refine mirrorWrite_upds.trans ?_
    | refine State.modCh_upds.trans ?_ | split

theorem State.modDio_upds {s : State} {n : Nat} {f : Dio → Dio} :
    State.upds (State.modDio s n f) = State.upds s := by
  unfold State.modDio
  with_reducible repeat' first
    | rfl | refine State.modCh_upds.trans ?_

theorem State.modDout_upds {s : State} {n d : Nat} {f : Dout → Dout} :
    State.upds (State.modDout s n d f) = State.upds s := by
  unfold State.modDout
  with_reducible repeat' first
    | rfl | refine State.modDio_upds.trans ?_

theorem State.modAout_upds {s : State} {n t : Nat} {f : Aout → Aout} :
    State.upds (State.modAout s n t f) = State.upds s := by
  unfold State.modAout
  with_reducible repeat' first
    | rfl | refine State.modDio_upds.trans ?_

theorem acquireTerm_upds {s : State} {n term : Nat} {v : Slot} {q : Nat} {stamp : Instant} :
    State.upds (acquireTerm s n term v q stamp) = State.upds s := by
  unfold acquireTerm
  with_reducible repeat' first
    | rfl | intro _ | apply State.upds_foldl | refine acquire_upds.trans ?_

theorem doutAcquire_upds {s : State} {n d : Nat} {stamp : Instant} :
    State.upds (doutAcquire s n d stamp) = State.upds s := by
  unfold doutAcquire
  with_reducible repeat' first
    | rfl | apply State.upds_ite | refine acquireTerm_upds.trans ?_ | refine State.modDout_upds.trans ?_ | split

theorem aoutAcquire_upds {s : State} {n t : Nat} {stamp : Instant} :
    State.upds (aoutAcquire s n t stamp) = State.upds s := by
  unfold aoutAcquire
  with_reducible repeat' first
    | rfl | refine acquireTerm_upds.trans ?_ | refine State.modAout_upds.trans ?_

theorem latchDout_upds {s : State} {n d : Nat} {v : Bool} {stamp : Instant} :
    State.upds (latchDout s n d v stamp) = State.upds s := by
  unfold latchDout
  with_reducible repeat' first
    | rfl | apply State.upds_ite | refine State.modDout_upds.trans ?_ | refine doutAcquire_upds.trans ?_ | split

theorem latchAout_upds {s : State} {n t code : Nat} {stamp : Instant} :
    State.upds (latchAout s n t code stamp) = State.upds s := by
  unfold latchAout
  with_reducible repeat' first
    | rfl | refine aoutAcquire_upds.trans ?_ | refine State.modAout_upds.trans ?_

theorem applySafe_upds {s : State} {n term : Nat} :
    State.upds (applySafe s n term) = State.upds s := by
  unfold applySafe
  with_reducible repeat' first
    | rfl | apply State.upds_ite | refine latchDout_upds.trans ?_ | refine State.modAout_upds.trans ?_
    | refine latchAout_upds.trans ?_ | refine aoutAcquire_upds.trans ?_ | split

theorem applyAllSafe_upds {s : State} {n : Nat} :
    State.upds (applyAllSafe s n) = State.upds s := by
  unfold applyAllSafe
  with_reducible repeat' first
    | rfl | intro _ | apply State.upds_ite | apply State.upds_foldl | refine applySafe_upds.trans ?_ | split

theorem guardKickOp_upds {n : Nat} {s : State} :
    State.upds (guardKickOp n s) = State.upds s := by
  unfold guardKickOp
  with_reducible repeat' first
    | rfl | intro _ | apply State.upds_ite | apply State.upds_foldl | refine State.modDio_upds.trans ?_
    | refine doutAcquire_upds.trans ?_ | refine aoutAcquire_upds.trans ?_ | split

theorem guardHoldOp_upds {n : Nat} {s : State} :
    State.upds (guardHoldOp n s) = State.upds s := by
  unfold guardHoldOp
  with_reducible repeat' first
    | rfl | apply State.upds_ite | refine State.modDio_upds.trans ?_ | split

theorem State.modTbl_upds {s : State} {t : Nat} {f : Table → Table} :
    State.upds (State.modTbl s t f) = State.upds s := by
  unfold State.modTbl
  with_reducible repeat' first
    | rfl | apply State.upds_ite | refine State.modCh_upds.trans ?_ | split

theorem State.modEnt_upds {s : State} {t i : Nat} {f : Entry → Entry} :
    State.upds (State.modEnt s t i f) = State.upds s := by
  unfold State.modEnt
  with_reducible repeat' first
    | rfl | refine State.modTbl_upds.trans ?_

theorem actRecord_upds {s : State} {t i : Nat} {e : Entry} {outcome detail lateUs skipped : Nat} {final : Bool} :
    State.upds (actRecord s t i e outcome detail lateUs skipped final) = State.upds s := by
  unfold actRecord
  with_reducible repeat' first
    | rfl | apply State.upds_ite | refine State.modCh_upds.trans ?_ | refine State.modEv_upds.trans ?_
    | refine raise_upds.trans ?_ | split

theorem actOutcome_upds {s : State} {t i : Nat} {e : Entry} {outcome detail lateUs : Nat} {final : Bool} :
    State.upds (actOutcome s t i e outcome detail lateUs final) = State.upds s := by
  unfold actOutcome
  with_reducible repeat' first
    | rfl | apply State.upds_ite | refine State.modTbl_upds.trans ?_ | refine actRecord_upds.trans ?_
    | refine State.modEnt_upds.trans ?_ | split

theorem endEntry_upds {s : State} {t i : Nat} {e : Entry} :
    State.upds (endEntry s t i e) = State.upds s := by
  unfold endEntry
  with_reducible repeat' first
    | rfl | apply State.upds_ite | refine State.modEnt_upds.trans ?_ | refine State.modTbl_upds.trans ?_
    | refine State.mirror_upds.trans ?_ | split

theorem occOutcome_upds {s : State} {t i : Nat} {e : Entry} {outcome detail lateUs : Nat} {last : Bool} :
    State.upds (occOutcome s t i e outcome detail lateUs last) = State.upds s := by
  unfold occOutcome
  with_reducible repeat' first
    | rfl | apply State.upds_ite | refine actOutcome_upds.trans ?_ | refine endEntry_upds.trans ?_ | split

theorem cancelEntry_upds {s : State} {t i : Nat} {e : Entry} {detail : Nat} :
    State.upds (cancelEntry s t i e detail) = State.upds s := by
  unfold cancelEntry
  with_reducible repeat' first
    | rfl | refine actOutcome_upds.trans ?_ | refine State.modTbl_upds.trans ?_ | refine State.mirror_upds.trans ?_

theorem resubscribe_upds {s : State} :
    State.upds (resubscribe s) = State.upds s := by
  unfold resubscribe
  with_reducible repeat' first
    | rfl | intro _ | apply State.upds_ite | apply State.upds_foldl | refine State.modPt_upds.trans ?_
    | refine State.modCh_upds.trans ?_ | split

theorem groupTxnEnded_upds {s : State} {i result : Nat} :
    State.upds (groupTxnEnded s i result) = State.upds s := by
  unfold groupTxnEnded
  with_reducible repeat' first
    | rfl | apply State.upds_ite | refine State.modEnt_upds.trans ?_ | refine occOutcome_upds.trans ?_
    | refine cancelEntry_upds.trans ?_ | split

theorem actTimeValid_upds {s : State} {t : Nat} :
    State.upds (actTimeValid s t) = State.upds s := by
  unfold actTimeValid
  with_reducible repeat' first
    | rfl | intro _ | apply State.upds_ite | apply State.upds_foldl | refine occOutcome_upds.trans ?_
    | refine State.modEnt_upds.trans ?_ | split

theorem ringsServe_upds {s : State} :
    State.upds (ringsServe s) = State.upds s := by
  unfold ringsServe
  with_reducible repeat' first
    | rfl | intro _ | apply State.upds_ite | apply State.upds_foldl | refine State.flushEv_upds.trans ?_ | split

theorem revokePass_upds {s : State} {id reason : Nat} :
    State.upds (revokePass s id reason) = State.upds s := by
  unfold revokePass
  with_reducible repeat' first
    | rfl | refine dirFrom_upds.trans ?_ | refine State.modWs_upds.trans ?_ | refine raise_upds.trans ?_ | split

theorem passExpiryOp_upds {id : Nat} {s : State} :
    State.upds (passExpiryOp id s) = State.upds s := by
  unfold passExpiryOp
  with_reducible repeat' first
    | rfl | apply State.upds_ite | refine revokePass_upds.trans ?_ | refine State.mirror_upds.trans ?_ | split

theorem passesValid_upds {s : State} :
    State.upds (passesValid s) = State.upds s := by
  unfold passesValid
  with_reducible repeat' first
    | rfl | intro _ | apply State.upds_foldl | refine passExpiryOp_upds.trans ?_ | refine State.modWs_upds.trans ?_

theorem stopChannel_upds {s : State} {n : Nat} {h : Instant} :
    State.upds (stopChannel s n h) = State.upds s := by
  unfold stopChannel
  with_reducible repeat' first
    | rfl | apply State.upds_ite | refine State.modCh_upds.trans ?_ | split

theorem vaultAbort_upds {s : State} {result : Nat} :
    State.upds (vaultAbort s result) = State.upds s := by
  unfold vaultAbort
  with_reducible repeat' first
    | rfl | apply State.upds_ite | refine State.modVlt_upds.trans ?_ | refine State.intBit_upds.trans ?_ | split

theorem yieldTo_upds {s : State} {cause : Nat} :
    State.upds (yieldTo s cause) = State.upds s := by
  unfold yieldTo
  with_reducible repeat' first
    | rfl | intro _ | apply State.upds_ite | apply State.upds_foldl | refine stopChannel_upds.trans ?_
    | refine State.modPair_upds.trans ?_ | split

theorem vaultRec_upds {s : State} {i subject : Nat} {payload : List Byte} :
    State.upds (vaultRec s i subject payload) = State.upds s := by
  unfold vaultRec
  with_reducible repeat' first
    | rfl | refine raiseBoth_upds.trans ?_ | refine State.intBit_upds.trans ?_

theorem channelServes_upds {s : State} {n : Nat} :
    State.upds (channelServes s n) = State.upds s := by
  unfold channelServes
  with_reducible repeat' first
    | rfl | apply State.upds_ite | refine guardKickOp_upds.trans ?_ | refine setChState_upds.trans ?_ | split

theorem wsTxnFailed_upds {s : State} {r : Nat} : (wsTxnFailed s r).upds = s.upds := by
  unfold wsTxnFailed
  split
  · rfl
  · dsimp only
    refine State.modWs_upds.trans (resubscribe_upds.trans ?_)
    exact State.upds_foldl (fun s a => (raiseBoth_upds.trans State.modWs_upds)) rfl

theorem loseTxn_upds {s : State} {c : Nat} : (loseTxn s c).upds = s.upds := by
  have h1 : ∀ x : State, x.upds = s.upds → (if c = 64 then wsTxnFailed x 12 else if 128 ≤ c then groupTxnEnded x (c - 128) 12
      else raiseBoth x 5 c (bytesLE 4 (s.txn c).id)).upds = s.upds := by
    intro x hx
    split
    · exact wsTxnFailed_upds.trans hx
    · split
      · exact groupTxnEnded_upds.trans hx
      · exact raiseBoth_upds.trans hx
  unfold loseTxn
  dsimp only
  split
  · rfl
  · refine h1 _ ?_
    unfold mirrorEnded
    split
    · exact State.mirror_upds.trans State.modTxn_upds
    · exact State.modTxn_upds

/- ### `State.bkps` -/

/-- The backup domain, as a view. -/
abbrev State.bkps (s : State) : Backup := s.bkp
theorem State.bkps_ite {c : Prop} [Decidable c] {a b : State} {r : Backup} (ha : a.bkps = r) (hb : b.bkps = r) :
    (if c then a else b).bkps = r := by split <;> assumption
theorem State.bkps_foldl {α : Type} {f : State → α → State} {r : Backup}
    (hf : ∀ s a, (f s a).bkps = s.bkps) : ∀ {l : List α} {s : State}, s.bkps = r → (l.foldl f s).bkps = r
  | [], _, h => h
  | a :: l, s, h => State.bkps_foldl hf (l := l) ((hf s a).trans h)
theorem State.emit_bkps {s : State} {e : Emission} : (s.emit e).bkps = s.bkps := rfl
theorem State.modCh_bkps {s : State} {n : Nat} {f : Chan → Chan} : (s.modCh n f).bkps = s.bkps := rfl
theorem State.modEv_bkps {s : State} {b : Nat} {f : EvRing → EvRing} : (s.modEv b f).bkps = s.bkps := rfl
theorem State.modRing_bkps {s : State} {b : Nat} {f : Ring → Ring} : (s.modRing b f).bkps = s.bkps := rfl
theorem State.modPair_bkps {s : State} {f : Pair → Pair} : (s.modPair f).bkps = s.bkps := rfl
theorem State.modNet_bkps {s : State} {n : Nat} {f : NetPort → NetPort} : (s.modNet n f).bkps = s.bkps := rfl
theorem State.modPt_bkps {s : State} {n : Nat} {f : Point → Point} : (s.modPt n f).bkps = s.bkps := rfl
theorem State.modPwr_bkps {s : State} {f : Power → Power} : (s.modPwr f).bkps = s.bkps := rfl
theorem State.modTime_bkps {s : State} {f : HubTime → HubTime} : (s.modTime f).bkps = s.bkps := rfl
theorem State.modWs_bkps {s : State} {f : Watershed → Watershed} : (s.modWs f).bkps = s.bkps := rfl
theorem State.modTxn_bkps {s : State} {c : Nat} {f : Txn → Txn} : (s.modTxn c f).bkps = s.bkps := rfl
theorem State.modVlt_bkps {s : State} {f : Vault → Vault} : (s.modVlt f).bkps = s.bkps := rfl
theorem State.modUpd_bkps {s : State} {f : Upd → Upd} : (s.modUpd f).bkps = s.bkps := rfl
theorem State.tick1_bkps {s : State}  : (s.tick1 ).bkps = s.bkps := rfl
theorem State.modCan_bkps {s : State} {n x : Nat} {f : Can → Can} : (s.modCan n x f).bkps = s.bkps := rfl
theorem State.modSeg_bkps {s : State} {n x : Nat} {f : Seg → Seg} : (s.modSeg n x f).bkps = s.bkps := rfl
theorem State.modFn_bkps {s : State} {n : Nat} {f : Fn → Fn} : (s.modFn n f).bkps = s.bkps := rfl
theorem State.setReg_bkps {s : State} {k : Nat} {w : Word} : (s.setReg k w).bkps = s.bkps := by
  unfold State.setReg; split <;> rfl

theorem State.sendVec_bkps {s : State} {b v : Nat} :
    State.bkps (State.sendVec s b v) = State.bkps s := by
  unfold State.sendVec
  with_reducible repeat' first
    | rfl | apply State.bkps_ite | refine State.modFn_bkps.trans ?_ | refine State.emit_bkps.trans ?_ | split

theorem State.intBit_bkps {s : State} {key i vec : Nat} :
    State.bkps (State.intBit s key i vec) = State.bkps s := by
  unfold State.intBit
  with_reducible repeat' first
    | rfl | apply State.bkps_ite | refine State.setReg_bkps.trans ?_ | refine State.sendVec_bkps.trans ?_ | split

theorem writeEvIdx_bkps {s : State} {b : Nat} :
    State.bkps (writeEvIdx s b) = State.bkps s := by
  unfold writeEvIdx
  with_reducible repeat' first
    | rfl | apply State.bkps_ite | refine State.emit_bkps.trans ?_ | refine State.modEv_bkps.trans ?_ | split

theorem evNotify_bkps {s : State} {b : Nat} {due : Bool} :
    State.bkps (evNotify s b due) = State.bkps s := by
  unfold evNotify
  with_reducible repeat' first
    | rfl | apply State.bkps_ite | refine State.modEv_bkps.trans ?_ | refine State.sendVec_bkps.trans ?_ | split

theorem pumpEv_bkps {b : Nat} : ∀ {q : List EvRec} {s : State}, State.bkps (pumpEv b q s) = State.bkps s
  | [], _ => rfl
  | _ :: q, s => by
    unfold pumpEv
    dsimp only
    split
    · exact (pumpEv_bkps (q := q)).trans (evNotify_bkps.trans (writeEvIdx_bkps.trans (State.modEv_bkps.trans State.emit_bkps)))
    · rfl

theorem State.flushEv_bkps {s : State} {b : Nat} :
    State.bkps (State.flushEv s b) = State.bkps s := by
  unfold State.flushEv
  with_reducible repeat' first
    | rfl | refine pumpEv_bkps.trans ?_

theorem raise_bkps {s : State} {b kind subject : Nat} {payload : List Byte} :
    State.bkps (raise s b kind subject payload) = State.bkps s := by
  unfold raise
  with_reducible repeat' first
    | rfl | apply State.bkps_ite | refine State.modEv_bkps.trans ?_ | refine writeEvIdx_bkps.trans ?_
    | refine State.flushEv_bkps.trans ?_ | split

theorem raiseBoth_bkps {s : State} {kind subject : Nat} {payload : List Byte} :
    State.bkps (raiseBoth s kind subject payload) = State.bkps s := by
  unfold raiseBoth
  with_reducible repeat' first
    | rfl | apply State.bkps_ite | refine raise_bkps.trans ?_ | split

theorem vaultAbort_bkps {s : State} {result : Nat} :
    State.bkps (vaultAbort s result) = State.bkps s := by
  unfold vaultAbort
  with_reducible repeat' first
    | rfl | apply State.bkps_ite | refine State.modVlt_bkps.trans ?_ | refine State.intBit_bkps.trans ?_ | split

theorem bkpRec_bkps {s : State} {i : Nat} {payload : List Byte} :
    State.bkps (bkpRec s i payload) = State.bkps s := by
  unfold bkpRec
  with_reducible repeat' first
    | rfl | refine raise_bkps.trans ?_ | refine State.intBit_bkps.trans ?_

theorem vaultRec_bkps {s : State} {i subject : Nat} {payload : List Byte} :
    State.bkps (vaultRec s i subject payload) = State.bkps s := by
  unfold vaultRec
  with_reducible repeat' first
    | rfl | refine raiseBoth_bkps.trans ?_ | refine State.intBit_bkps.trans ?_

theorem setVstate_bkps {s : State} {new cause : Nat} :
    State.bkps (setVstate s new cause) = State.bkps s := by
  unfold setVstate
  with_reducible repeat' first
    | rfl | apply State.bkps_ite | refine vaultRec_bkps.trans ?_ | refine State.modVlt_bkps.trans ?_ | split

/- ### `State.vlts` -/

/-- The vault, as a view. -/
abbrev State.vlts (s : State) : Vault := s.vlt
theorem State.vlts_ite {c : Prop} [Decidable c] {a b : State} {r : Vault} (ha : a.vlts = r) (hb : b.vlts = r) :
    (if c then a else b).vlts = r := by split <;> assumption
theorem State.vlts_foldl {α : Type} {f : State → α → State} {r : Vault}
    (hf : ∀ s a, (f s a).vlts = s.vlts) : ∀ {l : List α} {s : State}, s.vlts = r → (l.foldl f s).vlts = r
  | [], _, h => h
  | a :: l, s, h => State.vlts_foldl hf (l := l) ((hf s a).trans h)
theorem State.emit_vlts {s : State} {e : Emission} : (s.emit e).vlts = s.vlts := rfl
theorem State.modCh_vlts {s : State} {n : Nat} {f : Chan → Chan} : (s.modCh n f).vlts = s.vlts := rfl
theorem State.modEv_vlts {s : State} {b : Nat} {f : EvRing → EvRing} : (s.modEv b f).vlts = s.vlts := rfl
theorem State.modRing_vlts {s : State} {b : Nat} {f : Ring → Ring} : (s.modRing b f).vlts = s.vlts := rfl
theorem State.modPair_vlts {s : State} {f : Pair → Pair} : (s.modPair f).vlts = s.vlts := rfl
theorem State.modNet_vlts {s : State} {n : Nat} {f : NetPort → NetPort} : (s.modNet n f).vlts = s.vlts := rfl
theorem State.modPt_vlts {s : State} {n : Nat} {f : Point → Point} : (s.modPt n f).vlts = s.vlts := rfl
theorem State.modPwr_vlts {s : State} {f : Power → Power} : (s.modPwr f).vlts = s.vlts := rfl
theorem State.modTime_vlts {s : State} {f : HubTime → HubTime} : (s.modTime f).vlts = s.vlts := rfl
theorem State.modWs_vlts {s : State} {f : Watershed → Watershed} : (s.modWs f).vlts = s.vlts := rfl
theorem State.modTxn_vlts {s : State} {c : Nat} {f : Txn → Txn} : (s.modTxn c f).vlts = s.vlts := rfl
theorem State.modBkp_vlts {s : State} {f : Backup → Backup} : (s.modBkp f).vlts = s.vlts := rfl
theorem State.modUpd_vlts {s : State} {f : Upd → Upd} : (s.modUpd f).vlts = s.vlts := rfl
theorem State.tick1_vlts {s : State}  : (s.tick1 ).vlts = s.vlts := rfl
theorem State.modCan_vlts {s : State} {n x : Nat} {f : Can → Can} : (s.modCan n x f).vlts = s.vlts := rfl
theorem State.modSeg_vlts {s : State} {n x : Nat} {f : Seg → Seg} : (s.modSeg n x f).vlts = s.vlts := rfl
theorem State.modFn_vlts {s : State} {n : Nat} {f : Fn → Fn} : (s.modFn n f).vlts = s.vlts := rfl
theorem State.setReg_vlts {s : State} {k : Nat} {w : Word} : (s.setReg k w).vlts = s.vlts := by
  unfold State.setReg; split <;> rfl

theorem State.sendVec_vlts {s : State} {b v : Nat} :
    State.vlts (State.sendVec s b v) = State.vlts s := by
  unfold State.sendVec
  with_reducible repeat' first
    | rfl | apply State.vlts_ite | refine State.modFn_vlts.trans ?_ | refine State.emit_vlts.trans ?_ | split

theorem State.intBit_vlts {s : State} {key i vec : Nat} :
    State.vlts (State.intBit s key i vec) = State.vlts s := by
  unfold State.intBit
  with_reducible repeat' first
    | rfl | apply State.vlts_ite | refine State.setReg_vlts.trans ?_ | refine State.sendVec_vlts.trans ?_ | split

theorem writeEvIdx_vlts {s : State} {b : Nat} :
    State.vlts (writeEvIdx s b) = State.vlts s := by
  unfold writeEvIdx
  with_reducible repeat' first
    | rfl | apply State.vlts_ite | refine State.emit_vlts.trans ?_ | refine State.modEv_vlts.trans ?_ | split

theorem evNotify_vlts {s : State} {b : Nat} {due : Bool} :
    State.vlts (evNotify s b due) = State.vlts s := by
  unfold evNotify
  with_reducible repeat' first
    | rfl | apply State.vlts_ite | refine State.modEv_vlts.trans ?_ | refine State.sendVec_vlts.trans ?_ | split

theorem pumpEv_vlts {b : Nat} : ∀ {q : List EvRec} {s : State}, State.vlts (pumpEv b q s) = State.vlts s
  | [], _ => rfl
  | _ :: q, s => by
    unfold pumpEv
    dsimp only
    split
    · exact (pumpEv_vlts (q := q)).trans (evNotify_vlts.trans (writeEvIdx_vlts.trans (State.modEv_vlts.trans State.emit_vlts)))
    · rfl

theorem State.flushEv_vlts {s : State} {b : Nat} :
    State.vlts (State.flushEv s b) = State.vlts s := by
  unfold State.flushEv
  with_reducible repeat' first
    | rfl | refine pumpEv_vlts.trans ?_

theorem raise_vlts {s : State} {b kind subject : Nat} {payload : List Byte} :
    State.vlts (raise s b kind subject payload) = State.vlts s := by
  unfold raise
  with_reducible repeat' first
    | rfl | apply State.vlts_ite | refine State.modEv_vlts.trans ?_ | refine writeEvIdx_vlts.trans ?_
    | refine State.flushEv_vlts.trans ?_ | split

theorem raiseBoth_vlts {s : State} {kind subject : Nat} {payload : List Byte} :
    State.vlts (raiseBoth s kind subject payload) = State.vlts s := by
  unfold raiseBoth
  with_reducible repeat' first
    | rfl | apply State.vlts_ite | refine raise_vlts.trans ?_ | split

theorem vaultRec_vlts {s : State} {i subject : Nat} {payload : List Byte} :
    State.vlts (vaultRec s i subject payload) = State.vlts s := by
  unfold vaultRec
  with_reducible repeat' first
    | rfl | refine raiseBoth_vlts.trans ?_ | refine State.intBit_vlts.trans ?_

theorem keyChanged_vlts {s : State} {slot basin cause affected : Nat} :
    State.vlts (keyChanged s slot basin cause affected) = State.vlts s := by
  unfold keyChanged
  with_reducible repeat' first
    | rfl | apply State.vlts_ite | refine vaultRec_vlts.trans ?_ | split

/- ### `State.netsv` -/

/-- The backbone ports, as a view. -/
abbrev State.netsv (s : State) : List NetPort := s.nets
theorem State.netsv_ite {c : Prop} [Decidable c] {a b : State} {r : List NetPort} (ha : a.netsv = r) (hb : b.netsv = r) :
    (if c then a else b).netsv = r := by split <;> assumption
theorem State.netsv_foldl {α : Type} {f : State → α → State} {r : List NetPort}
    (hf : ∀ s a, (f s a).netsv = s.netsv) : ∀ {l : List α} {s : State}, s.netsv = r → (l.foldl f s).netsv = r
  | [], _, h => h
  | a :: l, s, h => State.netsv_foldl hf (l := l) ((hf s a).trans h)
theorem State.emit_netsv {s : State} {e : Emission} : (s.emit e).netsv = s.netsv := rfl
theorem State.modCh_netsv {s : State} {n : Nat} {f : Chan → Chan} : (s.modCh n f).netsv = s.netsv := rfl
theorem State.modEv_netsv {s : State} {b : Nat} {f : EvRing → EvRing} : (s.modEv b f).netsv = s.netsv := rfl
theorem State.modRing_netsv {s : State} {b : Nat} {f : Ring → Ring} : (s.modRing b f).netsv = s.netsv := rfl
theorem State.modPair_netsv {s : State} {f : Pair → Pair} : (s.modPair f).netsv = s.netsv := rfl
theorem State.modPt_netsv {s : State} {n : Nat} {f : Point → Point} : (s.modPt n f).netsv = s.netsv := rfl
theorem State.modPwr_netsv {s : State} {f : Power → Power} : (s.modPwr f).netsv = s.netsv := rfl
theorem State.modTime_netsv {s : State} {f : HubTime → HubTime} : (s.modTime f).netsv = s.netsv := rfl
theorem State.modWs_netsv {s : State} {f : Watershed → Watershed} : (s.modWs f).netsv = s.netsv := rfl
theorem State.modTxn_netsv {s : State} {c : Nat} {f : Txn → Txn} : (s.modTxn c f).netsv = s.netsv := rfl
theorem State.modBkp_netsv {s : State} {f : Backup → Backup} : (s.modBkp f).netsv = s.netsv := rfl
theorem State.modVlt_netsv {s : State} {f : Vault → Vault} : (s.modVlt f).netsv = s.netsv := rfl
theorem State.modUpd_netsv {s : State} {f : Upd → Upd} : (s.modUpd f).netsv = s.netsv := rfl
theorem State.tick1_netsv {s : State}  : (s.tick1 ).netsv = s.netsv := rfl
theorem State.modCan_netsv {s : State} {n x : Nat} {f : Can → Can} : (s.modCan n x f).netsv = s.netsv := rfl
theorem State.modSeg_netsv {s : State} {n x : Nat} {f : Seg → Seg} : (s.modSeg n x f).netsv = s.netsv := rfl
theorem State.modFn_netsv {s : State} {n : Nat} {f : Fn → Fn} : (s.modFn n f).netsv = s.netsv := rfl
theorem State.setReg_netsv {s : State} {k : Nat} {w : Word} : (s.setReg k w).netsv = s.netsv := by
  unfold State.setReg; split <;> rfl

theorem State.sendVec_netsv {s : State} {b v : Nat} :
    State.netsv (State.sendVec s b v) = State.netsv s := by
  unfold State.sendVec
  with_reducible repeat' first
    | rfl | apply State.netsv_ite | refine State.modFn_netsv.trans ?_ | refine State.emit_netsv.trans ?_ | split

theorem State.intBit_netsv {s : State} {key i vec : Nat} :
    State.netsv (State.intBit s key i vec) = State.netsv s := by
  unfold State.intBit
  with_reducible repeat' first
    | rfl | apply State.netsv_ite | refine State.setReg_netsv.trans ?_ | refine State.sendVec_netsv.trans ?_ | split

theorem writeEvIdx_netsv {s : State} {b : Nat} :
    State.netsv (writeEvIdx s b) = State.netsv s := by
  unfold writeEvIdx
  with_reducible repeat' first
    | rfl | apply State.netsv_ite | refine State.emit_netsv.trans ?_ | refine State.modEv_netsv.trans ?_ | split

theorem evNotify_netsv {s : State} {b : Nat} {due : Bool} :
    State.netsv (evNotify s b due) = State.netsv s := by
  unfold evNotify
  with_reducible repeat' first
    | rfl | apply State.netsv_ite | refine State.modEv_netsv.trans ?_ | refine State.sendVec_netsv.trans ?_ | split

theorem pumpEv_netsv {b : Nat} : ∀ {q : List EvRec} {s : State}, State.netsv (pumpEv b q s) = State.netsv s
  | [], _ => rfl
  | _ :: q, s => by
    unfold pumpEv
    dsimp only
    split
    · exact (pumpEv_netsv (q := q)).trans (evNotify_netsv.trans (writeEvIdx_netsv.trans (State.modEv_netsv.trans State.emit_netsv)))
    · rfl

theorem State.flushEv_netsv {s : State} {b : Nat} :
    State.netsv (State.flushEv s b) = State.netsv s := by
  unfold State.flushEv
  with_reducible repeat' first
    | rfl | refine pumpEv_netsv.trans ?_

theorem raise_netsv {s : State} {b kind subject : Nat} {payload : List Byte} :
    State.netsv (raise s b kind subject payload) = State.netsv s := by
  unfold raise
  with_reducible repeat' first
    | rfl | apply State.netsv_ite | refine State.modEv_netsv.trans ?_ | refine writeEvIdx_netsv.trans ?_
    | refine State.flushEv_netsv.trans ?_ | split

theorem State.mirror_netsv {s : State} {r : MirrorRec} :
    State.netsv (State.mirror s r) = State.netsv s := by
  unfold State.mirror
  with_reducible repeat' first
    | rfl | apply State.netsv_ite | refine State.modPair_netsv.trans ?_ | refine State.emit_netsv.trans ?_ | split

theorem writeIdx_netsv {s : State} {k : Nat} :
    State.netsv (writeIdx s k) = State.netsv s := by
  unfold writeIdx
  with_reducible repeat' first
    | rfl | apply State.netsv_ite | refine State.emit_netsv.trans ?_ | refine State.modRing_netsv.trans ?_ | split

theorem ringNotify_netsv {s : State} {k : Nat} {due : Bool} :
    State.netsv (ringNotify s k due) = State.netsv s := by
  unfold ringNotify
  with_reducible repeat' first
    | rfl | apply State.netsv_ite | refine State.modRing_netsv.trans ?_ | refine State.sendVec_netsv.trans ?_
    | split

theorem ringItem_netsv {s : State} {k : Nat} :
    State.netsv (ringItem s k) = State.netsv s := by
  unfold ringItem
  with_reducible repeat' first
    | rfl | refine State.modRing_netsv.trans ?_ | refine writeIdx_netsv.trans ?_ | refine ringNotify_netsv.trans ?_

theorem putCompletion_netsv {s : State} {k : Nat} {c : Completion} :
    State.netsv (putCompletion s k c) = State.netsv s := by
  unfold putCompletion
  with_reducible repeat' first
    | rfl | refine State.emit_netsv.trans ?_ | refine ringItem_netsv.trans ?_ | refine State.modRing_netsv.trans ?_

theorem complete_netsv {s : State} {k : Nat} {c : Completion} :
    State.netsv (complete s k c) = State.netsv s := by
  unfold complete
  with_reducible repeat' first
    | rfl | apply State.netsv_ite | refine State.modRing_netsv.trans ?_ | refine putCompletion_netsv.trans ?_
    | split

theorem completeAll_netsv {k idx status ckind : Nat} {tsq late : Bool} {info : Word} :
    ∀ {l : List Slot} {j : Nat} {s : State},
      State.netsv (completeAll s k idx status ckind tsq late info j l) = State.netsv s
  | [], _, _ => rfl
  | _ :: l, j, _ => (completeAll_netsv (l := l) (j := j + 1)).trans complete_netsv

theorem finish_netsv {s : State} {k id status : Nat} {tsq late : Bool} {info : Word} :
    State.netsv (finish s k id status tsq late info) = State.netsv s := by
  unfold finish
  with_reducible repeat' first
    | rfl | apply State.netsv_ite | refine completeAll_netsv.trans ?_ | refine State.modRing_netsv.trans ?_ | split

theorem sendReport_netsv {s : State} {n : Nat} {r : Report} :
    State.netsv (sendReport s n r) = State.netsv s := by
  unfold sendReport
  with_reducible repeat' first
    | rfl | apply State.netsv_ite | refine State.modCh_netsv.trans ?_ | split

theorem State.modTbl_netsv {s : State} {t : Nat} {f : Table → Table} :
    State.netsv (State.modTbl s t f) = State.netsv s := by
  unfold State.modTbl
  with_reducible repeat' first
    | rfl | apply State.netsv_ite | refine State.modCh_netsv.trans ?_ | split

theorem State.modEnt_netsv {s : State} {t i : Nat} {f : Entry → Entry} :
    State.netsv (State.modEnt s t i f) = State.netsv s := by
  unfold State.modEnt
  with_reducible repeat' first
    | rfl | refine State.modTbl_netsv.trans ?_

theorem actRecord_netsv {s : State} {t i : Nat} {e : Entry} {outcome detail lateUs skipped : Nat} {final : Bool} :
    State.netsv (actRecord s t i e outcome detail lateUs skipped final) = State.netsv s := by
  unfold actRecord
  with_reducible repeat' first
    | rfl | apply State.netsv_ite | refine State.modCh_netsv.trans ?_ | refine State.modEv_netsv.trans ?_
    | refine raise_netsv.trans ?_ | split

theorem actOutcome_netsv {s : State} {t i : Nat} {e : Entry} {outcome detail lateUs : Nat} {final : Bool} :
    State.netsv (actOutcome s t i e outcome detail lateUs final) = State.netsv s := by
  unfold actOutcome
  with_reducible repeat' first
    | rfl | apply State.netsv_ite | refine State.modTbl_netsv.trans ?_ | refine actRecord_netsv.trans ?_
    | refine State.modEnt_netsv.trans ?_ | split

theorem endEntry_netsv {s : State} {t i : Nat} {e : Entry} :
    State.netsv (endEntry s t i e) = State.netsv s := by
  unfold endEntry
  with_reducible repeat' first
    | rfl | apply State.netsv_ite | refine State.modEnt_netsv.trans ?_ | refine State.modTbl_netsv.trans ?_
    | refine State.mirror_netsv.trans ?_ | split

theorem occOutcome_netsv {s : State} {t i : Nat} {e : Entry} {outcome detail lateUs : Nat} {last : Bool} :
    State.netsv (occOutcome s t i e outcome detail lateUs last) = State.netsv s := by
  unfold occOutcome
  with_reducible repeat' first
    | rfl | apply State.netsv_ite | refine actOutcome_netsv.trans ?_ | refine endEntry_netsv.trans ?_ | split

theorem actFrameDone_netsv {s : State} {f : TxFrame} {outcome detail : Nat} :
    State.netsv (actFrameDone s f outcome detail) = State.netsv s := by
  unfold actFrameDone
  with_reducible repeat' first
    | rfl | apply State.netsv_ite | refine State.modEnt_netsv.trans ?_ | refine occOutcome_netsv.trans ?_ | split

theorem frameEnds_netsv {s : State} {n : Nat} {f : TxFrame} {status detail : Nat} {tsq : Bool} {info : Word} :
    State.netsv (frameEnds s n f status detail tsq info) = State.netsv s := by
  unfold frameEnds
  with_reducible repeat' first
    | rfl | apply State.netsv_ite | refine actFrameDone_netsv.trans ?_ | refine sendReport_netsv.trans ?_
    | refine finish_netsv.trans ?_ | split

theorem cancelAnswer_netsv {s : State} {n : Nat} {f : TxFrame} {status : Nat} :
    State.netsv (cancelAnswer s n f status) = State.netsv s := by
  unfold cancelAnswer
  with_reducible repeat' first
    | rfl | intro _ | apply State.netsv_ite | apply State.netsv_foldl | refine sendReport_netsv.trans ?_
    | refine finish_netsv.trans ?_ | split

theorem endFrames_netsv {s : State} {n : Nat} {fs : List TxFrame} {status detail req : Nat} :
    State.netsv (endFrames s n fs status detail req) = State.netsv s := by
  unfold endFrames
  with_reducible repeat' first
    | rfl | intro _ | apply State.netsv_foldl | refine cancelAnswer_netsv.trans ?_ | refine frameEnds_netsv.trans ?_

theorem netInt_netsv {s : State} {p i : Nat} :
    State.netsv (netInt s p i) = State.netsv s := by
  unfold netInt
  with_reducible repeat' first
    | rfl | refine State.intBit_netsv.trans ?_

theorem netLinkRec_netsv {s : State} {p : Nat} :
    State.netsv (netLinkRec s p) = State.netsv s := by
  unfold netLinkRec
  with_reducible repeat' first
    | rfl | apply State.netsv_ite | refine netInt_netsv.trans ?_ | refine raise_netsv.trans ?_ | split

theorem netVerifyRec_netsv {s : State} {p code : Nat} :
    State.netsv (netVerifyRec s p code) = State.netsv s := by
  unfold netVerifyRec
  with_reducible repeat' first
    | rfl | refine netInt_netsv.trans ?_ | refine raise_netsv.trans ?_

/- ### `State.duty` -/

/-- The pair, as a view. -/
abbrev State.duty (s : State) : Pair := { s.pair with mirSeq := 0 }
theorem State.duty_ite {c : Prop} [Decidable c] {a b : State} {r : Pair} (ha : a.duty = r) (hb : b.duty = r) :
    (if c then a else b).duty = r := by split <;> assumption
theorem State.duty_foldl {α : Type} {f : State → α → State} {r : Pair}
    (hf : ∀ s a, (f s a).duty = s.duty) : ∀ {l : List α} {s : State}, s.duty = r → (l.foldl f s).duty = r
  | [], _, h => h
  | a :: l, s, h => State.duty_foldl hf (l := l) ((hf s a).trans h)
theorem State.emit_duty {s : State} {e : Emission} : (s.emit e).duty = s.duty := rfl
theorem State.modCh_duty {s : State} {n : Nat} {f : Chan → Chan} : (s.modCh n f).duty = s.duty := rfl
theorem State.modEv_duty {s : State} {b : Nat} {f : EvRing → EvRing} : (s.modEv b f).duty = s.duty := rfl
theorem State.modRing_duty {s : State} {b : Nat} {f : Ring → Ring} : (s.modRing b f).duty = s.duty := rfl
theorem State.modNet_duty {s : State} {n : Nat} {f : NetPort → NetPort} : (s.modNet n f).duty = s.duty := rfl
theorem State.modPt_duty {s : State} {n : Nat} {f : Point → Point} : (s.modPt n f).duty = s.duty := rfl
theorem State.modPwr_duty {s : State} {f : Power → Power} : (s.modPwr f).duty = s.duty := rfl
theorem State.modTime_duty {s : State} {f : HubTime → HubTime} : (s.modTime f).duty = s.duty := rfl
theorem State.modWs_duty {s : State} {f : Watershed → Watershed} : (s.modWs f).duty = s.duty := rfl
theorem State.modTxn_duty {s : State} {c : Nat} {f : Txn → Txn} : (s.modTxn c f).duty = s.duty := rfl
theorem State.modBkp_duty {s : State} {f : Backup → Backup} : (s.modBkp f).duty = s.duty := rfl
theorem State.modVlt_duty {s : State} {f : Vault → Vault} : (s.modVlt f).duty = s.duty := rfl
theorem State.modUpd_duty {s : State} {f : Upd → Upd} : (s.modUpd f).duty = s.duty := rfl
theorem State.tick1_duty {s : State}  : (s.tick1 ).duty = s.duty := rfl
theorem State.modCan_duty {s : State} {n x : Nat} {f : Can → Can} : (s.modCan n x f).duty = s.duty := rfl
theorem State.modSeg_duty {s : State} {n x : Nat} {f : Seg → Seg} : (s.modSeg n x f).duty = s.duty := rfl
theorem State.modFn_duty {s : State} {n : Nat} {f : Fn → Fn} : (s.modFn n f).duty = s.duty := rfl
theorem State.setReg_duty {s : State} {k : Nat} {w : Word} : (s.setReg k w).duty = s.duty := by
  unfold State.setReg; split <;> rfl
theorem State.mirror_duty {s : State} {r : MirrorRec} : (s.mirror r).duty = s.duty := by
  unfold State.mirror; split <;> rfl

theorem State.sendVec_duty {s : State} {b v : Nat} :
    State.duty (State.sendVec s b v) = State.duty s := by
  unfold State.sendVec
  with_reducible repeat' first
    | rfl | apply State.duty_ite | refine State.modFn_duty.trans ?_ | refine State.emit_duty.trans ?_ | split

theorem State.alert_duty {s : State} {i : Nat} :
    State.duty (State.alert s i) = State.duty s := by
  unfold State.alert
  with_reducible repeat' first
    | rfl | apply State.duty_ite | refine State.sendVec_duty.trans ?_ | split

theorem State.intBit_duty {s : State} {key i vec : Nat} :
    State.duty (State.intBit s key i vec) = State.duty s := by
  unfold State.intBit
  with_reducible repeat' first
    | rfl | apply State.duty_ite | refine State.setReg_duty.trans ?_ | refine State.sendVec_duty.trans ?_ | split

theorem writeEvIdx_duty {s : State} {b : Nat} :
    State.duty (writeEvIdx s b) = State.duty s := by
  unfold writeEvIdx
  with_reducible repeat' first
    | rfl | apply State.duty_ite | refine State.emit_duty.trans ?_ | refine State.modEv_duty.trans ?_ | split

theorem evNotify_duty {s : State} {b : Nat} {due : Bool} :
    State.duty (evNotify s b due) = State.duty s := by
  unfold evNotify
  with_reducible repeat' first
    | rfl | apply State.duty_ite | refine State.modEv_duty.trans ?_ | refine State.sendVec_duty.trans ?_ | split

theorem pumpEv_duty {b : Nat} : ∀ {q : List EvRec} {s : State}, State.duty (pumpEv b q s) = State.duty s
  | [], _ => rfl
  | _ :: q, s => by
    unfold pumpEv
    dsimp only
    split
    · exact (pumpEv_duty (q := q)).trans (evNotify_duty.trans (writeEvIdx_duty.trans (State.modEv_duty.trans State.emit_duty)))
    · rfl

theorem State.flushEv_duty {s : State} {b : Nat} :
    State.duty (State.flushEv s b) = State.duty s := by
  unfold State.flushEv
  with_reducible repeat' first
    | rfl | refine pumpEv_duty.trans ?_

theorem raise_duty {s : State} {b kind subject : Nat} {payload : List Byte} :
    State.duty (raise s b kind subject payload) = State.duty s := by
  unfold raise
  with_reducible repeat' first
    | rfl | apply State.duty_ite | refine State.modEv_duty.trans ?_ | refine writeEvIdx_duty.trans ?_
    | refine State.flushEv_duty.trans ?_ | split

theorem raiseBoth_duty {s : State} {kind subject : Nat} {payload : List Byte} :
    State.duty (raiseBoth s kind subject payload) = State.duty s := by
  unfold raiseBoth
  with_reducible repeat' first
    | rfl | apply State.duty_ite | refine raise_duty.trans ?_ | split

theorem writeIdx_duty {s : State} {k : Nat} :
    State.duty (writeIdx s k) = State.duty s := by
  unfold writeIdx
  with_reducible repeat' first
    | rfl | apply State.duty_ite | refine State.emit_duty.trans ?_ | refine State.modRing_duty.trans ?_ | split

theorem ringNotify_duty {s : State} {k : Nat} {due : Bool} :
    State.duty (ringNotify s k due) = State.duty s := by
  unfold ringNotify
  with_reducible repeat' first
    | rfl | apply State.duty_ite | refine State.modRing_duty.trans ?_ | refine State.sendVec_duty.trans ?_ | split

theorem ringItem_duty {s : State} {k : Nat} :
    State.duty (ringItem s k) = State.duty s := by
  unfold ringItem
  with_reducible repeat' first
    | rfl | refine State.modRing_duty.trans ?_ | refine writeIdx_duty.trans ?_ | refine ringNotify_duty.trans ?_

theorem putCompletion_duty {s : State} {k : Nat} {c : Completion} :
    State.duty (putCompletion s k c) = State.duty s := by
  unfold putCompletion
  with_reducible repeat' first
    | rfl | refine State.emit_duty.trans ?_ | refine ringItem_duty.trans ?_ | refine State.modRing_duty.trans ?_

theorem complete_duty {s : State} {k : Nat} {c : Completion} :
    State.duty (complete s k c) = State.duty s := by
  unfold complete
  with_reducible repeat' first
    | rfl | apply State.duty_ite | refine State.modRing_duty.trans ?_ | refine putCompletion_duty.trans ?_ | split

theorem completeAll_duty {k idx status ckind : Nat} {tsq late : Bool} {info : Word} :
    ∀ {l : List Slot} {j : Nat} {s : State},
      State.duty (completeAll s k idx status ckind tsq late info j l) = State.duty s
  | [], _, _ => rfl
  | _ :: l, j, _ => (completeAll_duty (l := l) (j := j + 1)).trans complete_duty

theorem finish_duty {s : State} {k id status : Nat} {tsq late : Bool} {info : Word} :
    State.duty (finish s k id status tsq late info) = State.duty s := by
  unfold finish
  with_reducible repeat' first
    | rfl | apply State.duty_ite | refine completeAll_duty.trans ?_ | refine State.modRing_duty.trans ?_ | split

theorem withhold_duty {s : State} {b : Nat} :
    State.duty (withhold s b) = State.duty s := by
  unfold withhold
  with_reducible repeat' first
    | rfl | refine State.modFn_duty.trans ?_

theorem steer_duty {s : State} {b r h : Nat} {p : Point} {m : Mirror} {repeated : Bool} :
    State.duty (steer s b r h p m repeated) = State.duty s := by
  unfold steer
  with_reducible repeat' first
    | rfl | apply State.duty_ite | refine State.emit_duty.trans ?_ | refine State.modPwr_duty.trans ?_
    | refine ringItem_duty.trans ?_ | refine State.modRing_duty.trans ?_ | refine writeIdx_duty.trans ?_
    | refine withhold_duty.trans ?_ | split

theorem setChState_duty {s : State} {n : Nat} {st : ChState} :
    State.duty (setChState s n st) = State.duty s := by
  unfold setChState
  with_reducible repeat' first
    | rfl | apply State.duty_ite | refine State.modCh_duty.trans ?_ | refine State.sendVec_duty.trans ?_ | split

theorem dirChanged_duty {s : State} :
    State.duty (dirChanged s) = State.duty s := by
  unfold dirChanged
  with_reducible repeat' first
    | rfl | refine State.modWs_duty.trans ?_

theorem dirFrom_duty {s t : State} :
    State.duty (dirFrom s t) = State.duty t := by
  unfold dirFrom
  with_reducible repeat' first
    | rfl | apply State.duty_ite | refine dirChanged_duty.trans ?_ | split

theorem deliver_duty {s : State} {h : Nat} {m : Mirror} {repeated : Bool} :
    State.duty (deliver s h m repeated) = State.duty s := by
  unfold deliver
  with_reducible repeat' first
    | rfl | intro _ | apply State.duty_ite | apply State.duty_foldl | refine steer_duty.trans ?_
    | refine State.modCh_duty.trans ?_ | refine State.modPt_duty.trans ?_ | split

theorem covUnit_duty {s : State} {h : Nat} {p : Point} {m : Mirror} {newSeq : Bool} :
    State.duty (covUnit s h p m newSeq) = State.duty s := by
  unfold covUnit
  with_reducible repeat' first
    | rfl | apply State.duty_ite | refine deliver_duty.trans ?_ | refine State.modPt_duty.trans ?_ | split

theorem mirrorWrite_duty {s : State} {h : Nat} {m : Mirror} :
    State.duty (mirrorWrite s h m) = State.duty s := by
  unfold mirrorWrite
  with_reducible repeat' first
    | rfl | refine State.modPt_duty.trans ?_ | refine State.mirror_duty.trans ?_ | refine covUnit_duty.trans ?_
    | split

theorem acquire_duty {s : State} {h : Nat} {v : Slot} {q : Nat} {stamp : Instant} :
    State.duty (acquire s h v q stamp) = State.duty s := by
  unfold acquire
  with_reducible repeat' first
    | rfl | apply State.duty_ite | refine State.modPt_duty.trans ?_ | refine mirrorWrite_duty.trans ?_
    | refine State.modCh_duty.trans ?_ | split

theorem State.modDio_duty {s : State} {n : Nat} {f : Dio → Dio} :
    State.duty (State.modDio s n f) = State.duty s := by
  unfold State.modDio
  with_reducible repeat' first
    | rfl | refine State.modCh_duty.trans ?_

theorem State.modDout_duty {s : State} {n d : Nat} {f : Dout → Dout} :
    State.duty (State.modDout s n d f) = State.duty s := by
  unfold State.modDout
  with_reducible repeat' first
    | rfl | refine State.modDio_duty.trans ?_

theorem State.modAout_duty {s : State} {n t : Nat} {f : Aout → Aout} :
    State.duty (State.modAout s n t f) = State.duty s := by
  unfold State.modAout
  with_reducible repeat' first
    | rfl | refine State.modDio_duty.trans ?_

theorem acquireTerm_duty {s : State} {n term : Nat} {v : Slot} {q : Nat} {stamp : Instant} :
    State.duty (acquireTerm s n term v q stamp) = State.duty s := by
  unfold acquireTerm
  with_reducible repeat' first
    | rfl | intro _ | apply State.duty_foldl | refine acquire_duty.trans ?_

theorem doutAcquire_duty {s : State} {n d : Nat} {stamp : Instant} :
    State.duty (doutAcquire s n d stamp) = State.duty s := by
  unfold doutAcquire
  with_reducible repeat' first
    | rfl | apply State.duty_ite | refine acquireTerm_duty.trans ?_ | refine State.modDout_duty.trans ?_ | split

theorem aoutAcquire_duty {s : State} {n t : Nat} {stamp : Instant} :
    State.duty (aoutAcquire s n t stamp) = State.duty s := by
  unfold aoutAcquire
  with_reducible repeat' first
    | rfl | refine acquireTerm_duty.trans ?_ | refine State.modAout_duty.trans ?_

theorem latchDout_duty {s : State} {n d : Nat} {v : Bool} {stamp : Instant} :
    State.duty (latchDout s n d v stamp) = State.duty s := by
  unfold latchDout
  with_reducible repeat' first
    | rfl | apply State.duty_ite | refine State.modDout_duty.trans ?_ | refine doutAcquire_duty.trans ?_ | split

theorem latchAout_duty {s : State} {n t code : Nat} {stamp : Instant} :
    State.duty (latchAout s n t code stamp) = State.duty s := by
  unfold latchAout
  with_reducible repeat' first
    | rfl | refine aoutAcquire_duty.trans ?_ | refine State.modAout_duty.trans ?_

theorem applySafe_duty {s : State} {n term : Nat} :
    State.duty (applySafe s n term) = State.duty s := by
  unfold applySafe
  with_reducible repeat' first
    | rfl | apply State.duty_ite | refine latchDout_duty.trans ?_ | refine State.modAout_duty.trans ?_
    | refine latchAout_duty.trans ?_ | refine aoutAcquire_duty.trans ?_ | split

theorem applyAllSafe_duty {s : State} {n : Nat} :
    State.duty (applyAllSafe s n) = State.duty s := by
  unfold applyAllSafe
  with_reducible repeat' first
    | rfl | intro _ | apply State.duty_ite | apply State.duty_foldl | refine applySafe_duty.trans ?_ | split

theorem acquireCnt_duty {s : State} {n i : Nat} {q : Nat} {stamp : Instant} :
    State.duty (acquireCnt s n i q stamp) = State.duty s := by
  unfold acquireCnt
  with_reducible repeat' first
    | rfl | refine acquireTerm_duty.trans ?_

theorem presetCnt_duty {s : State} {n i : Nat} {v : Slot} {stamp : Instant} :
    State.duty (presetCnt s n i v stamp) = State.duty s := by
  unfold presetCnt
  with_reducible repeat' first
    | rfl | refine State.modDio_duty.trans ?_ | refine State.modCh_duty.trans ?_ | refine acquireCnt_duty.trans ?_

theorem guardKickOp_duty {n : Nat} {s : State} :
    State.duty (guardKickOp n s) = State.duty s := by
  unfold guardKickOp
  with_reducible repeat' first
    | rfl | intro _ | apply State.duty_ite | apply State.duty_foldl | refine State.modDio_duty.trans ?_
    | refine doutAcquire_duty.trans ?_ | refine aoutAcquire_duty.trans ?_ | split

theorem timeRec_duty {s : State} {i : Nat} {payload : List Byte} :
    State.duty (timeRec s i payload) = State.duty s := by
  unfold timeRec
  with_reducible repeat' first
    | rfl | refine raise_duty.trans ?_ | refine State.intBit_duty.trans ?_

theorem sendReport_duty {s : State} {n : Nat} {r : Report} :
    State.duty (sendReport s n r) = State.duty s := by
  unfold sendReport
  with_reducible repeat' first
    | rfl | apply State.duty_ite | refine State.modCh_duty.trans ?_ | split

theorem State.modTbl_duty {s : State} {t : Nat} {f : Table → Table} :
    State.duty (State.modTbl s t f) = State.duty s := by
  unfold State.modTbl
  with_reducible repeat' first
    | rfl | apply State.duty_ite | refine State.modCh_duty.trans ?_ | split

theorem State.modEnt_duty {s : State} {t i : Nat} {f : Entry → Entry} :
    State.duty (State.modEnt s t i f) = State.duty s := by
  unfold State.modEnt
  with_reducible repeat' first
    | rfl | refine State.modTbl_duty.trans ?_

theorem actRecord_duty {s : State} {t i : Nat} {e : Entry} {outcome detail lateUs skipped : Nat} {final : Bool} :
    State.duty (actRecord s t i e outcome detail lateUs skipped final) = State.duty s := by
  unfold actRecord
  with_reducible repeat' first
    | rfl | apply State.duty_ite | refine State.modCh_duty.trans ?_ | refine State.modEv_duty.trans ?_
    | refine raise_duty.trans ?_ | split

theorem actOutcome_duty {s : State} {t i : Nat} {e : Entry} {outcome detail lateUs : Nat} {final : Bool} :
    State.duty (actOutcome s t i e outcome detail lateUs final) = State.duty s := by
  unfold actOutcome
  with_reducible repeat' first
    | rfl | apply State.duty_ite | refine State.modTbl_duty.trans ?_ | refine actRecord_duty.trans ?_
    | refine State.modEnt_duty.trans ?_ | split

theorem endEntry_duty {s : State} {t i : Nat} {e : Entry} :
    State.duty (endEntry s t i e) = State.duty s := by
  unfold endEntry
  with_reducible repeat' first
    | rfl | apply State.duty_ite | refine State.modEnt_duty.trans ?_ | refine State.modTbl_duty.trans ?_
    | refine State.mirror_duty.trans ?_ | split

theorem occOutcome_duty {s : State} {t i : Nat} {e : Entry} {outcome detail lateUs : Nat} {last : Bool} :
    State.duty (occOutcome s t i e outcome detail lateUs last) = State.duty s := by
  unfold occOutcome
  with_reducible repeat' first
    | rfl | apply State.duty_ite | refine actOutcome_duty.trans ?_ | refine endEntry_duty.trans ?_ | split

theorem cancelEntry_duty {s : State} {t i : Nat} {e : Entry} {detail : Nat} :
    State.duty (cancelEntry s t i e detail) = State.duty s := by
  unfold cancelEntry
  with_reducible repeat' first
    | rfl | refine actOutcome_duty.trans ?_ | refine State.modTbl_duty.trans ?_ | refine State.mirror_duty.trans ?_

theorem actFrameDone_duty {s : State} {f : TxFrame} {outcome detail : Nat} :
    State.duty (actFrameDone s f outcome detail) = State.duty s := by
  unfold actFrameDone
  with_reducible repeat' first
    | rfl | apply State.duty_ite | refine State.modEnt_duty.trans ?_ | refine occOutcome_duty.trans ?_ | split

theorem frameEnds_duty {s : State} {n : Nat} {f : TxFrame} {status detail : Nat} {tsq : Bool} {info : Word} :
    State.duty (frameEnds s n f status detail tsq info) = State.duty s := by
  unfold frameEnds
  with_reducible repeat' first
    | rfl | apply State.duty_ite | refine actFrameDone_duty.trans ?_ | refine sendReport_duty.trans ?_
    | refine finish_duty.trans ?_ | split

theorem chRaise_duty {s : State} {n b kind subject : Nat} {payload : List Byte} :
    State.duty (chRaise s n b kind subject payload) = State.duty s := by
  unfold chRaise
  with_reducible repeat' first
    | rfl | apply State.duty_ite | refine State.modCh_duty.trans ?_ | refine State.modEv_duty.trans ?_
    | refine raise_duty.trans ?_ | split

theorem touchImages_duty {s : State} {n x : Nat} {ps : List (Nat × Point)} :
    State.duty (touchImages s n x ps) = State.duty s := by
  unfold touchImages
  with_reducible repeat' first
    | rfl | intro _ | apply State.duty_ite | apply State.duty_foldl | refine State.modCan_duty.trans ?_
    | refine State.tick1_duty.trans ?_ | split

theorem canEnqueue_duty {s : State} {n x : Nat} {f : TxFrame} :
    State.duty (canEnqueue s n x f) = State.duty s := by
  unfold canEnqueue
  with_reducible repeat' first
    | rfl | apply State.duty_ite | refine frameEnds_duty.trans ?_ | refine State.modCan_duty.trans ?_ | split

theorem canCommand_duty {s : State} {n x h : Nat} {p : Point} {v : Slot} {f : TxFrame} :
    State.duty (canCommand s n x h p v f) = State.duty s := by
  unfold canCommand
  with_reducible repeat' first
    | rfl | apply State.duty_ite | refine frameEnds_duty.trans ?_ | refine touchImages_duty.trans ?_
    | refine State.modCan_duty.trans ?_ | refine canEnqueue_duty.trans ?_ | split

theorem cancelAnswer_duty {s : State} {n : Nat} {f : TxFrame} {status : Nat} :
    State.duty (cancelAnswer s n f status) = State.duty s := by
  unfold cancelAnswer
  with_reducible repeat' first
    | rfl | intro _ | apply State.duty_ite | apply State.duty_foldl | refine sendReport_duty.trans ?_
    | refine finish_duty.trans ?_ | split

theorem endFrames_duty {s : State} {n : Nat} {fs : List TxFrame} {status detail req : Nat} :
    State.duty (endFrames s n fs status detail req) = State.duty s := by
  unfold endFrames
  with_reducible repeat' first
    | rfl | intro _ | apply State.duty_foldl | refine cancelAnswer_duty.trans ?_ | refine frameEnds_duty.trans ?_

theorem segCount_duty {s : State} {n x o : Nat} :
    State.duty (segCount s n x o) = State.duty s := by
  unfold segCount
  with_reducible repeat' first
    | rfl | refine State.modSeg_duty.trans ?_ | split

theorem segKick_duty {s : State} {n x : Nat} :
    State.duty (segKick s n x) = State.duty s := by
  unfold segKick
  with_reducible repeat' first
    | rfl | apply State.duty_ite | refine State.modSeg_duty.trans ?_ | split

theorem segEnqueue_duty {s : State} {n x : Nat} {f : TxFrame} :
    State.duty (segEnqueue s n x f) = State.duty s := by
  unfold segEnqueue
  with_reducible repeat' first
    | rfl | apply State.duty_ite | refine frameEnds_duty.trans ?_ | refine segCount_duty.trans ?_
    | refine State.modSeg_duty.trans ?_ | refine segKick_duty.trans ?_ | split

theorem segCommand_duty {s : State} {n x h : Nat} {p : Point} {v : Slot} {f : TxFrame} :
    State.duty (segCommand s n x h p v f) = State.duty s := by
  unfold segCommand
  with_reducible repeat' first
    | rfl | refine frameEnds_duty.trans ?_ | refine State.modSeg_duty.trans ?_ | refine segEnqueue_duty.trans ?_
    | split

theorem plcaSet_duty {s : State} {n x : Nat} {on : Bool} :
    State.duty (plcaSet s n x on) = State.duty s := by
  unfold plcaSet
  with_reducible repeat' first
    | rfl | apply State.duty_ite | refine chRaise_duty.trans ?_ | refine State.modSeg_duty.trans ?_ | split

theorem segApply_duty {s : State} {n x : Nat} :
    State.duty (segApply s n x) = State.duty s := by
  unfold segApply
  with_reducible repeat' first
    | rfl | apply State.duty_ite | refine State.modSeg_duty.trans ?_ | refine plcaSet_duty.trans ?_
    | refine endFrames_duty.trans ?_ | refine segKick_duty.trans ?_ | split

theorem driveDout_duty {s : State} {n d : Nat} {v : Bool} {stamp : Instant} :
    State.duty (driveDout s n d v stamp) = State.duty s := by
  unfold driveDout
  with_reducible repeat' first
    | rfl | apply State.duty_ite | refine latchDout_duty.trans ?_ | refine State.mirror_duty.trans ?_ | split

theorem driveAout_duty {s : State} {n t code : Nat} {stamp : Instant} :
    State.duty (driveAout s n t code stamp) = State.duty s := by
  unfold driveAout
  with_reducible repeat' first
    | rfl | refine latchAout_duty.trans ?_ | refine State.mirror_duty.trans ?_

theorem writePoint_duty {s : State} {n h : Nat} {p : Point} {v : Slot} {f : TxFrame} :
    State.duty (writePoint s n h p v f) = State.duty s := by
  unfold writePoint
  with_reducible repeat' first
    | rfl | apply State.duty_ite | refine frameEnds_duty.trans ?_ | refine presetCnt_duty.trans ?_
    | refine driveDout_duty.trans ?_ | refine driveAout_duty.trans ?_ | refine canCommand_duty.trans ?_
    | refine State.mirror_duty.trans ?_ | refine segCommand_duty.trans ?_ | split

theorem tagMismatch_duty {s : State} {n h tag owner : Nat} :
    State.duty (tagMismatch s n h tag owner) = State.duty s := by
  unfold tagMismatch
  with_reducible repeat' first
    | rfl | refine chRaise_duty.trans ?_

theorem loopCommand_duty {s : State} {n : Nat} {l : Loop} {b : Bank} {u : Int} :
    State.duty (loopCommand s n l b u) = State.duty s := by
  unfold loopCommand
  with_reducible repeat' first
    | rfl | apply State.duty_ite | refine acquire_duty.trans ?_ | refine writePoint_duty.trans ?_
    | refine tagMismatch_duty.trans ?_ | refine State.modCh_duty.trans ?_ | split

theorem resubscribe_duty {s : State} :
    State.duty (resubscribe s) = State.duty s := by
  unfold resubscribe
  with_reducible repeat' first
    | rfl | intro _ | apply State.duty_ite | apply State.duty_foldl | refine State.modPt_duty.trans ?_
    | refine State.modCh_duty.trans ?_ | split

theorem groupTxnEnded_duty {s : State} {i result : Nat} :
    State.duty (groupTxnEnded s i result) = State.duty s := by
  unfold groupTxnEnded
  with_reducible repeat' first
    | rfl | apply State.duty_ite | refine State.modEnt_duty.trans ?_ | refine occOutcome_duty.trans ?_
    | refine cancelEntry_duty.trans ?_ | split

theorem actTimeValid_duty {s : State} {t : Nat} :
    State.duty (actTimeValid s t) = State.duty s := by
  unfold actTimeValid
  with_reducible repeat' first
    | rfl | intro _ | apply State.duty_ite | apply State.duty_foldl | refine occOutcome_duty.trans ?_
    | refine State.modEnt_duty.trans ?_ | split

theorem trigger_duty {s : State} {t : Nat} :
    State.duty (trigger s t) = State.duty s := by
  unfold trigger
  with_reducible repeat' first
    | rfl | refine State.modWs_duty.trans ?_ | split

theorem ringsServe_duty {s : State} :
    State.duty (ringsServe s) = State.duty s := by
  unfold ringsServe
  with_reducible repeat' first
    | rfl | intro _ | apply State.duty_ite | apply State.duty_foldl | refine State.flushEv_duty.trans ?_ | split

theorem revokePass_duty {s : State} {id reason : Nat} :
    State.duty (revokePass s id reason) = State.duty s := by
  unfold revokePass
  with_reducible repeat' first
    | rfl | refine dirFrom_duty.trans ?_ | refine State.modWs_duty.trans ?_ | refine raise_duty.trans ?_ | split

theorem passExpiryOp_duty {id : Nat} {s : State} :
    State.duty (passExpiryOp id s) = State.duty s := by
  unfold passExpiryOp
  with_reducible repeat' first
    | rfl | apply State.duty_ite | refine revokePass_duty.trans ?_ | refine State.mirror_duty.trans ?_ | split

theorem passesValid_duty {s : State} :
    State.duty (passesValid s) = State.duty s := by
  unfold passesValid
  with_reducible repeat' first
    | rfl | intro _ | apply State.duty_foldl | refine passExpiryOp_duty.trans ?_ | refine State.modWs_duty.trans ?_

theorem passesInvalid_duty {s : State} :
    State.duty (passesInvalid s) = State.duty s := by
  unfold passesInvalid
  with_reducible repeat' first
    | rfl | apply State.duty_ite | refine State.modWs_duty.trans ?_ | split

theorem updRec_duty {s : State} {i : Nat} {payload : List Byte} :
    State.duty (updRec s i payload) = State.duty s := by
  unfold updRec
  with_reducible repeat' first
    | rfl | refine raise_duty.trans ?_ | refine State.sendVec_duty.trans ?_

theorem updEnds_duty {s : State} {new res : Nat} :
    State.duty (updEnds s new res) = State.duty s := by
  unfold updEnds
  with_reducible repeat' first
    | rfl | apply State.duty_ite | refine updRec_duty.trans ?_ | refine State.modUpd_duty.trans ?_ | split

theorem disarm_duty {s : State} {res : Nat} :
    State.duty (disarm s res) = State.duty s := by
  unfold disarm
  with_reducible repeat' first
    | rfl | apply State.duty_ite | refine updEnds_duty.trans ?_ | refine State.modUpd_duty.trans ?_
    | refine State.mirror_duty.trans ?_ | split

theorem pairRec_duty {s : State} {i : Nat} {payload : List Byte} :
    State.duty (pairRec s i payload) = State.duty s := by
  unfold pairRec
  with_reducible repeat' first
    | rfl | refine raise_duty.trans ?_ | refine State.sendVec_duty.trans ?_

theorem stopChannel_duty {s : State} {n : Nat} {h : Instant} :
    State.duty (stopChannel s n h) = State.duty s := by
  unfold stopChannel
  with_reducible repeat' first
    | rfl | apply State.duty_ite | refine State.modCh_duty.trans ?_ | split

theorem vaultAbort_duty {s : State} {result : Nat} :
    State.duty (vaultAbort s result) = State.duty s := by
  unfold vaultAbort
  with_reducible repeat' first
    | rfl | apply State.duty_ite | refine State.modVlt_duty.trans ?_ | refine State.intBit_duty.trans ?_ | split

theorem clearLocked_duty {s : State} :
    State.duty (clearLocked s) = State.duty s := by
  unfold clearLocked
  with_reducible repeat' first
    | rfl | apply State.duty_ite | refine timeRec_duty.trans ?_ | refine State.modTime_duty.trans ?_ | split

theorem timeGained_duty {s : State} :
    State.duty (timeGained s) = State.duty s := by
  unfold timeGained
  with_reducible repeat' first
    | rfl | refine actTimeValid_duty.trans ?_ | refine passesValid_duty.trans ?_

theorem armStep_duty {s : State} {value : Int} {cause : Nat} :
    State.duty (armStep s value cause) = State.duty s := by
  unfold armStep
  with_reducible repeat' first
    | rfl | refine State.modTime_duty.trans ?_

theorem setPortState_duty {s : State} {p v : Nat} :
    State.duty (setPortState s p v) = State.duty s := by
  unfold setPortState
  with_reducible repeat' first
    | rfl | apply State.duty_ite | refine State.modTime_duty.trans ?_ | split

theorem pairLost_duty {s : State} {cause : Nat} :
    State.duty (pairLost s cause) = State.duty s := by
  unfold pairLost
  with_reducible repeat' first
    | rfl | refine pairRec_duty.trans ?_ | refine State.alert_duty.trans ?_

theorem armRelease_duty {s : State} :
    State.duty (armRelease s) = State.duty s := by
  unfold armRelease
  with_reducible repeat' first
    | rfl

theorem holdTerminals_duty {s : State} {n : Nat} :
    State.duty (holdTerminals s n) = State.duty s := by
  unfold holdTerminals
  with_reducible repeat' first
    | rfl | intro _ | apply State.duty_ite | apply State.duty_foldl | refine applyAllSafe_duty.trans ?_
    | refine State.modAout_duty.trans ?_ | split

theorem busModes_duty {s : State} :
    State.duty (busModes s) = State.duty s := by
  unfold busModes
  with_reducible repeat' first
    | rfl

theorem ringsWait_duty {s : State} :
    State.duty (ringsWait s) = State.duty s := by
  unfold ringsWait
  with_reducible repeat' first
    | rfl | apply State.duty_ite | split

theorem beginService_duty {s : State} :
    State.duty (beginService s) = State.duty s := by
  unfold beginService
  with_reducible repeat' first
    | rfl | intro _ | apply State.duty_ite | apply State.duty_foldl | refine ringsServe_duty.trans ?_
    | refine State.modPwr_duty.trans ?_ | refine raiseBoth_duty.trans ?_ | refine timeRec_duty.trans ?_
    | refine raise_duty.trans ?_ | refine State.intBit_duty.trans ?_ | refine State.modBkp_duty.trans ?_
    | refine State.modVlt_duty.trans ?_ | refine updRec_duty.trans ?_ | refine State.modUpd_duty.trans ?_ | split

theorem pairHealthRec_duty {s : State} :
    State.duty (pairHealthRec s) = State.duty s := by
  unfold pairHealthRec
  with_reducible repeat' first
    | rfl | refine pairRec_duty.trans ?_

theorem switchRecord_duty {s : State} {cause gap : Nat} {h : Instant} :
    State.duty (switchRecord s cause gap h) = State.duty s := by
  unfold switchRecord
  with_reducible repeat' first
    | rfl | apply State.duty_ite | refine State.modBkp_duty.trans ?_ | split

theorem releaseStopped_duty {s : State} {n : Nat} :
    State.duty (releaseStopped s n) = State.duty s := by
  unfold releaseStopped
  with_reducible repeat' first
    | rfl | apply State.duty_ite | refine holdTerminals_duty.trans ?_ | refine State.modCh_duty.trans ?_ | split

theorem vaultRec_duty {s : State} {i subject : Nat} {payload : List Byte} :
    State.duty (vaultRec s i subject payload) = State.duty s := by
  unfold vaultRec
  with_reducible repeat' first
    | rfl | refine raiseBoth_duty.trans ?_ | refine State.intBit_duty.trans ?_

theorem channelServes_duty {s : State} {n : Nat} :
    State.duty (channelServes s n) = State.duty s := by
  unfold channelServes
  with_reducible repeat' first
    | rfl | apply State.duty_ite | refine guardKickOp_duty.trans ?_ | refine setChState_duty.trans ?_ | split

theorem wsTxnFailed_duty {s : State} {r : Nat} : (wsTxnFailed s r).duty = s.duty := by
  unfold wsTxnFailed
  split
  · rfl
  · dsimp only
    refine State.modWs_duty.trans (resubscribe_duty.trans ?_)
    exact State.duty_foldl (fun s a => (raiseBoth_duty.trans State.modWs_duty)) rfl

theorem endTxn_duty {s : State} {c r : Nat} : (endTxn s c r).duty = s.duty := by
  have h1 : ∀ x : State, x.duty = s.duty → (if c = 64 then (if r = 1 then x else wsTxnFailed x r)
      else if 128 ≤ c then groupTxnEnded x (c - 128) r else raise x c 4 c (txnPayload (s.txn c) r)).duty = s.duty := by
    intro x hx
    split
    · split
      · exact hx
      · exact wsTxnFailed_duty.trans hx
    · split
      · exact groupTxnEnded_duty.trans hx
      · exact raise_duty.trans hx
  unfold endTxn
  refine h1 _ ?_
  unfold mirrorEnded
  split
  · exact State.mirror_duty.trans State.modTxn_duty
  · exact State.modTxn_duty

theorem abortTxn_duty {s : State} {c r : Nat} : (abortTxn s c r).duty = s.duty := by
  unfold abortTxn
  exact endTxn_duty.trans (State.duty_foldl (fun s a => State.emit_duty) rfl)

theorem txnNoTime_duty {s : State} : (txnNoTime s).duty = s.duty := by
  unfold txnNoTime
  refine State.duty_foldl (fun s a => ?_) rfl
  dsimp only
  split
  · exact abortTxn_duty
  · rfl

theorem loseTxn_duty {s : State} {c : Nat} : (loseTxn s c).duty = s.duty := by
  have h1 : ∀ x : State, x.duty = s.duty → (if c = 64 then wsTxnFailed x 12 else if 128 ≤ c then groupTxnEnded x (c - 128) 12
      else raiseBoth x 5 c (bytesLE 4 (s.txn c).id)).duty = s.duty := by
    intro x hx
    split
    · exact wsTxnFailed_duty.trans hx
    · split
      · exact groupTxnEnded_duty.trans hx
      · exact raiseBoth_duty.trans hx
  unfold loseTxn
  dsimp only
  split
  · rfl
  · refine h1 _ ?_
    unfold mirrorEnded
    split
    · exact State.mirror_duty.trans State.modTxn_duty
    · exact State.modTxn_duty

/- ### `State.regsv` -/

/-- The registers, as a view. -/
abbrev State.regsv (s : State) : AMap Word := s.regs
theorem State.regsv_ite {c : Prop} [Decidable c] {a b : State} {r : AMap Word} (ha : a.regsv = r) (hb : b.regsv = r) :
    (if c then a else b).regsv = r := by split <;> assumption
theorem State.regsv_foldl {α : Type} {f : State → α → State} {r : AMap Word}
    (hf : ∀ s a, (f s a).regsv = s.regsv) : ∀ {l : List α} {s : State}, s.regsv = r → (l.foldl f s).regsv = r
  | [], _, h => h
  | a :: l, s, h => State.regsv_foldl hf (l := l) ((hf s a).trans h)
theorem State.emit_regsv {s : State} {e : Emission} : (s.emit e).regsv = s.regsv := rfl
theorem State.modCh_regsv {s : State} {n : Nat} {f : Chan → Chan} : (s.modCh n f).regsv = s.regsv := rfl
theorem State.modEv_regsv {s : State} {b : Nat} {f : EvRing → EvRing} : (s.modEv b f).regsv = s.regsv := rfl
theorem State.modRing_regsv {s : State} {b : Nat} {f : Ring → Ring} : (s.modRing b f).regsv = s.regsv := rfl
theorem State.modPair_regsv {s : State} {f : Pair → Pair} : (s.modPair f).regsv = s.regsv := rfl
theorem State.modNet_regsv {s : State} {n : Nat} {f : NetPort → NetPort} : (s.modNet n f).regsv = s.regsv := rfl
theorem State.modPt_regsv {s : State} {n : Nat} {f : Point → Point} : (s.modPt n f).regsv = s.regsv := rfl
theorem State.modPwr_regsv {s : State} {f : Power → Power} : (s.modPwr f).regsv = s.regsv := rfl
theorem State.modTime_regsv {s : State} {f : HubTime → HubTime} : (s.modTime f).regsv = s.regsv := rfl
theorem State.modWs_regsv {s : State} {f : Watershed → Watershed} : (s.modWs f).regsv = s.regsv := rfl
theorem State.modTxn_regsv {s : State} {c : Nat} {f : Txn → Txn} : (s.modTxn c f).regsv = s.regsv := rfl
theorem State.modBkp_regsv {s : State} {f : Backup → Backup} : (s.modBkp f).regsv = s.regsv := rfl
theorem State.modVlt_regsv {s : State} {f : Vault → Vault} : (s.modVlt f).regsv = s.regsv := rfl
theorem State.modUpd_regsv {s : State} {f : Upd → Upd} : (s.modUpd f).regsv = s.regsv := rfl
theorem State.tick1_regsv {s : State}  : (s.tick1 ).regsv = s.regsv := rfl
theorem State.modCan_regsv {s : State} {n x : Nat} {f : Can → Can} : (s.modCan n x f).regsv = s.regsv := rfl
theorem State.modSeg_regsv {s : State} {n x : Nat} {f : Seg → Seg} : (s.modSeg n x f).regsv = s.regsv := rfl
theorem State.modFn_regsv {s : State} {n : Nat} {f : Fn → Fn} : (s.modFn n f).regsv = s.regsv := rfl

theorem State.sendVec_regsv {s : State} {b v : Nat} :
    State.regsv (State.sendVec s b v) = State.regsv s := by
  unfold State.sendVec
  with_reducible repeat' first
    | rfl | apply State.regsv_ite | refine State.modFn_regsv.trans ?_ | refine State.emit_regsv.trans ?_ | split

theorem State.alert_regsv {s : State} {i : Nat} :
    State.regsv (State.alert s i) = State.regsv s := by
  unfold State.alert
  with_reducible repeat' first
    | rfl | apply State.regsv_ite | refine State.sendVec_regsv.trans ?_ | split

theorem writeEvIdx_regsv {s : State} {b : Nat} :
    State.regsv (writeEvIdx s b) = State.regsv s := by
  unfold writeEvIdx
  with_reducible repeat' first
    | rfl | apply State.regsv_ite | refine State.emit_regsv.trans ?_ | refine State.modEv_regsv.trans ?_ | split

theorem evNotify_regsv {s : State} {b : Nat} {due : Bool} :
    State.regsv (evNotify s b due) = State.regsv s := by
  unfold evNotify
  with_reducible repeat' first
    | rfl | apply State.regsv_ite | refine State.modEv_regsv.trans ?_ | refine State.sendVec_regsv.trans ?_ | split

theorem pumpEv_regsv {b : Nat} : ∀ {q : List EvRec} {s : State}, State.regsv (pumpEv b q s) = State.regsv s
  | [], _ => rfl
  | _ :: q, s => by
    unfold pumpEv
    dsimp only
    split
    · exact (pumpEv_regsv (q := q)).trans (evNotify_regsv.trans (writeEvIdx_regsv.trans (State.modEv_regsv.trans State.emit_regsv)))
    · rfl

theorem State.flushEv_regsv {s : State} {b : Nat} :
    State.regsv (State.flushEv s b) = State.regsv s := by
  unfold State.flushEv
  with_reducible repeat' first
    | rfl | refine pumpEv_regsv.trans ?_

theorem raise_regsv {s : State} {b kind subject : Nat} {payload : List Byte} :
    State.regsv (raise s b kind subject payload) = State.regsv s := by
  unfold raise
  with_reducible repeat' first
    | rfl | apply State.regsv_ite | refine State.modEv_regsv.trans ?_ | refine writeEvIdx_regsv.trans ?_
    | refine State.flushEv_regsv.trans ?_ | split

theorem raiseBoth_regsv {s : State} {kind subject : Nat} {payload : List Byte} :
    State.regsv (raiseBoth s kind subject payload) = State.regsv s := by
  unfold raiseBoth
  with_reducible repeat' first
    | rfl | apply State.regsv_ite | refine raise_regsv.trans ?_ | split

theorem State.mirror_regsv {s : State} {r : MirrorRec} :
    State.regsv (State.mirror s r) = State.regsv s := by
  unfold State.mirror
  with_reducible repeat' first
    | rfl | apply State.regsv_ite | refine State.modPair_regsv.trans ?_ | refine State.emit_regsv.trans ?_ | split

theorem writeIdx_regsv {s : State} {k : Nat} :
    State.regsv (writeIdx s k) = State.regsv s := by
  unfold writeIdx
  with_reducible repeat' first
    | rfl | apply State.regsv_ite | refine State.emit_regsv.trans ?_ | refine State.modRing_regsv.trans ?_ | split

theorem ringNotify_regsv {s : State} {k : Nat} {due : Bool} :
    State.regsv (ringNotify s k due) = State.regsv s := by
  unfold ringNotify
  with_reducible repeat' first
    | rfl | apply State.regsv_ite | refine State.modRing_regsv.trans ?_ | refine State.sendVec_regsv.trans ?_
    | split

theorem ringItem_regsv {s : State} {k : Nat} :
    State.regsv (ringItem s k) = State.regsv s := by
  unfold ringItem
  with_reducible repeat' first
    | rfl | refine State.modRing_regsv.trans ?_ | refine writeIdx_regsv.trans ?_ | refine ringNotify_regsv.trans ?_

theorem withhold_regsv {s : State} {b : Nat} :
    State.regsv (withhold s b) = State.regsv s := by
  unfold withhold
  with_reducible repeat' first
    | rfl | refine State.modFn_regsv.trans ?_

theorem steer_regsv {s : State} {b r h : Nat} {p : Point} {m : Mirror} {repeated : Bool} :
    State.regsv (steer s b r h p m repeated) = State.regsv s := by
  unfold steer
  with_reducible repeat' first
    | rfl | apply State.regsv_ite | refine State.emit_regsv.trans ?_ | refine State.modPwr_regsv.trans ?_
    | refine ringItem_regsv.trans ?_ | refine State.modRing_regsv.trans ?_ | refine writeIdx_regsv.trans ?_
    | refine withhold_regsv.trans ?_ | split

theorem setChState_regsv {s : State} {n : Nat} {st : ChState} :
    State.regsv (setChState s n st) = State.regsv s := by
  unfold setChState
  with_reducible repeat' first
    | rfl | apply State.regsv_ite | refine State.modCh_regsv.trans ?_ | refine State.sendVec_regsv.trans ?_ | split

theorem dirChanged_regsv {s : State} :
    State.regsv (dirChanged s) = State.regsv s := by
  unfold dirChanged
  with_reducible repeat' first
    | rfl | refine State.modWs_regsv.trans ?_

theorem dirFrom_regsv {s t : State} :
    State.regsv (dirFrom s t) = State.regsv t := by
  unfold dirFrom
  with_reducible repeat' first
    | rfl | apply State.regsv_ite | refine dirChanged_regsv.trans ?_ | split

theorem deliver_regsv {s : State} {h : Nat} {m : Mirror} {repeated : Bool} :
    State.regsv (deliver s h m repeated) = State.regsv s := by
  unfold deliver
  with_reducible repeat' first
    | rfl | intro _ | apply State.regsv_ite | apply State.regsv_foldl | refine steer_regsv.trans ?_
    | refine State.modCh_regsv.trans ?_ | refine State.modPt_regsv.trans ?_ | split

theorem covUnit_regsv {s : State} {h : Nat} {p : Point} {m : Mirror} {newSeq : Bool} :
    State.regsv (covUnit s h p m newSeq) = State.regsv s := by
  unfold covUnit
  with_reducible repeat' first
    | rfl | apply State.regsv_ite | refine deliver_regsv.trans ?_ | refine State.modPt_regsv.trans ?_ | split

theorem mirrorWrite_regsv {s : State} {h : Nat} {m : Mirror} :
    State.regsv (mirrorWrite s h m) = State.regsv s := by
  unfold mirrorWrite
  with_reducible repeat' first
    | rfl | refine State.modPt_regsv.trans ?_ | refine State.mirror_regsv.trans ?_ | refine covUnit_regsv.trans ?_
    | split

theorem acquire_regsv {s : State} {h : Nat} {v : Slot} {q : Nat} {stamp : Instant} :
    State.regsv (acquire s h v q stamp) = State.regsv s := by
  unfold acquire
  with_reducible repeat' first
    | rfl | apply State.regsv_ite | refine State.modPt_regsv.trans ?_ | refine mirrorWrite_regsv.trans ?_
    | refine State.modCh_regsv.trans ?_ | split

theorem State.modDio_regsv {s : State} {n : Nat} {f : Dio → Dio} :
    State.regsv (State.modDio s n f) = State.regsv s := by
  unfold State.modDio
  with_reducible repeat' first
    | rfl | refine State.modCh_regsv.trans ?_

theorem State.modDout_regsv {s : State} {n d : Nat} {f : Dout → Dout} :
    State.regsv (State.modDout s n d f) = State.regsv s := by
  unfold State.modDout
  with_reducible repeat' first
    | rfl | refine State.modDio_regsv.trans ?_

theorem State.modAout_regsv {s : State} {n t : Nat} {f : Aout → Aout} :
    State.regsv (State.modAout s n t f) = State.regsv s := by
  unfold State.modAout
  with_reducible repeat' first
    | rfl | refine State.modDio_regsv.trans ?_

theorem acquireTerm_regsv {s : State} {n term : Nat} {v : Slot} {q : Nat} {stamp : Instant} :
    State.regsv (acquireTerm s n term v q stamp) = State.regsv s := by
  unfold acquireTerm
  with_reducible repeat' first
    | rfl | intro _ | apply State.regsv_foldl | refine acquire_regsv.trans ?_

theorem doutAcquire_regsv {s : State} {n d : Nat} {stamp : Instant} :
    State.regsv (doutAcquire s n d stamp) = State.regsv s := by
  unfold doutAcquire
  with_reducible repeat' first
    | rfl | apply State.regsv_ite | refine acquireTerm_regsv.trans ?_ | refine State.modDout_regsv.trans ?_ | split

theorem aoutAcquire_regsv {s : State} {n t : Nat} {stamp : Instant} :
    State.regsv (aoutAcquire s n t stamp) = State.regsv s := by
  unfold aoutAcquire
  with_reducible repeat' first
    | rfl | refine acquireTerm_regsv.trans ?_ | refine State.modAout_regsv.trans ?_

theorem latchDout_regsv {s : State} {n d : Nat} {v : Bool} {stamp : Instant} :
    State.regsv (latchDout s n d v stamp) = State.regsv s := by
  unfold latchDout
  with_reducible repeat' first
    | rfl | apply State.regsv_ite | refine State.modDout_regsv.trans ?_ | refine doutAcquire_regsv.trans ?_ | split

theorem latchAout_regsv {s : State} {n t code : Nat} {stamp : Instant} :
    State.regsv (latchAout s n t code stamp) = State.regsv s := by
  unfold latchAout
  with_reducible repeat' first
    | rfl | refine aoutAcquire_regsv.trans ?_ | refine State.modAout_regsv.trans ?_

theorem applySafe_regsv {s : State} {n term : Nat} :
    State.regsv (applySafe s n term) = State.regsv s := by
  unfold applySafe
  with_reducible repeat' first
    | rfl | apply State.regsv_ite | refine latchDout_regsv.trans ?_ | refine State.modAout_regsv.trans ?_
    | refine latchAout_regsv.trans ?_ | refine aoutAcquire_regsv.trans ?_ | split

theorem applyAllSafe_regsv {s : State} {n : Nat} :
    State.regsv (applyAllSafe s n) = State.regsv s := by
  unfold applyAllSafe
  with_reducible repeat' first
    | rfl | intro _ | apply State.regsv_ite | apply State.regsv_foldl | refine applySafe_regsv.trans ?_ | split

theorem guardHoldOp_regsv {n : Nat} {s : State} :
    State.regsv (guardHoldOp n s) = State.regsv s := by
  unfold guardHoldOp
  with_reducible repeat' first
    | rfl | apply State.regsv_ite | refine State.modDio_regsv.trans ?_ | split

theorem State.modTbl_regsv {s : State} {t : Nat} {f : Table → Table} :
    State.regsv (State.modTbl s t f) = State.regsv s := by
  unfold State.modTbl
  with_reducible repeat' first
    | rfl | apply State.regsv_ite | refine State.modCh_regsv.trans ?_ | split

theorem State.modEnt_regsv {s : State} {t i : Nat} {f : Entry → Entry} :
    State.regsv (State.modEnt s t i f) = State.regsv s := by
  unfold State.modEnt
  with_reducible repeat' first
    | rfl | refine State.modTbl_regsv.trans ?_

theorem actRecord_regsv {s : State} {t i : Nat} {e : Entry} {outcome detail lateUs skipped : Nat} {final : Bool} :
    State.regsv (actRecord s t i e outcome detail lateUs skipped final) = State.regsv s := by
  unfold actRecord
  with_reducible repeat' first
    | rfl | apply State.regsv_ite | refine State.modCh_regsv.trans ?_ | refine State.modEv_regsv.trans ?_
    | refine raise_regsv.trans ?_ | split

theorem actOutcome_regsv {s : State} {t i : Nat} {e : Entry} {outcome detail lateUs : Nat} {final : Bool} :
    State.regsv (actOutcome s t i e outcome detail lateUs final) = State.regsv s := by
  unfold actOutcome
  with_reducible repeat' first
    | rfl | apply State.regsv_ite | refine State.modTbl_regsv.trans ?_ | refine actRecord_regsv.trans ?_
    | refine State.modEnt_regsv.trans ?_ | split

theorem endEntry_regsv {s : State} {t i : Nat} {e : Entry} :
    State.regsv (endEntry s t i e) = State.regsv s := by
  unfold endEntry
  with_reducible repeat' first
    | rfl | apply State.regsv_ite | refine State.modEnt_regsv.trans ?_ | refine State.modTbl_regsv.trans ?_
    | refine State.mirror_regsv.trans ?_ | split

theorem occOutcome_regsv {s : State} {t i : Nat} {e : Entry} {outcome detail lateUs : Nat} {last : Bool} :
    State.regsv (occOutcome s t i e outcome detail lateUs last) = State.regsv s := by
  unfold occOutcome
  with_reducible repeat' first
    | rfl | apply State.regsv_ite | refine actOutcome_regsv.trans ?_ | refine endEntry_regsv.trans ?_ | split

theorem actTimeValid_regsv {s : State} {t : Nat} :
    State.regsv (actTimeValid s t) = State.regsv s := by
  unfold actTimeValid
  with_reducible repeat' first
    | rfl | intro _ | apply State.regsv_ite | apply State.regsv_foldl | refine occOutcome_regsv.trans ?_
    | refine State.modEnt_regsv.trans ?_ | split

theorem revokePass_regsv {s : State} {id reason : Nat} :
    State.regsv (revokePass s id reason) = State.regsv s := by
  unfold revokePass
  with_reducible repeat' first
    | rfl | refine dirFrom_regsv.trans ?_ | refine State.modWs_regsv.trans ?_ | refine raise_regsv.trans ?_ | split

theorem passExpiryOp_regsv {id : Nat} {s : State} :
    State.regsv (passExpiryOp id s) = State.regsv s := by
  unfold passExpiryOp
  with_reducible repeat' first
    | rfl | apply State.regsv_ite | refine revokePass_regsv.trans ?_ | refine State.mirror_regsv.trans ?_ | split

theorem passesValid_regsv {s : State} :
    State.regsv (passesValid s) = State.regsv s := by
  unfold passesValid
  with_reducible repeat' first
    | rfl | intro _ | apply State.regsv_foldl | refine passExpiryOp_regsv.trans ?_
    | refine State.modWs_regsv.trans ?_

theorem stopChannel_regsv {s : State} {n : Nat} {h : Instant} :
    State.regsv (stopChannel s n h) = State.regsv s := by
  unfold stopChannel
  with_reducible repeat' first
    | rfl | apply State.regsv_ite | refine State.modCh_regsv.trans ?_ | split

theorem yieldTo_regsv {s : State} {cause : Nat} :
    State.regsv (yieldTo s cause) = State.regsv s := by
  unfold yieldTo
  with_reducible repeat' first
    | rfl | intro _ | apply State.regsv_ite | apply State.regsv_foldl | refine stopChannel_regsv.trans ?_
    | refine State.modPair_regsv.trans ?_ | split

end Sys2Proof.Machine
end

