-- ==== Sys2Proof/Laws/RingModes.lean ====
section
/-! SUPPORT. The operations that leave every module ring's state, kind, size, error bits and halt cause. -/

namespace Sys2Proof.Machine
/-- What a ring is set up as and which state it is in. -/
abbrev Ring.mode (r : Ring) : RingState × Nat × Nat × Bool × Bool × Nat :=
  (r.state, r.kind, r.sizeLog2, r.cfgErr, r.dbErr, r.haltCause)
/-- Those of every module ring of a store. -/
def ringModesOf (m : AMap Ring) : Nat → RingState × Nat × Nat × Bool × Bool × Nat := fun k => (match amGet m k with
  | some r => r
  | none => Ring.reset : Ring).mode
/-- Those of every module ring. -/
abbrev State.ringModes (s : State) : Nat → RingState × Nat × Nat × Bool × Bool × Nat := ringModesOf s.rings
theorem State.ringModes_ite {c : Prop} [Decidable c] {a b : State} {r : Nat → RingState × Nat × Nat × Bool × Bool × Nat} (ha : a.ringModes = r) (hb : b.ringModes = r) :
    (if c then a else b).ringModes = r := by split <;> assumption
theorem State.ringModes_foldl {α : Type} {f : State → α → State} {r : Nat → RingState × Nat × Nat × Bool × Bool × Nat}
    (hf : ∀ s a, (f s a).ringModes = s.ringModes) : ∀ {l : List α} {s : State}, s.ringModes = r → (l.foldl f s).ringModes = r
  | [], _, h => h
  | a :: l, s, h => State.ringModes_foldl hf (l := l) ((hf s a).trans h)
theorem State.modRing_ringModes {s : State} {n : Nat} {f : Ring → Ring} (hf : ∀ c, (f c).mode = c.mode) :
    (s.modRing n f).ringModes = s.ringModes := by
  funext k
  unfold State.ringModes State.modRing ringModesOf
  by_cases h : k = n
  · subst h
    dsimp only
    rw [amGet_amSet_self]
    exact hf _
  · dsimp only
    rw [amGet_amSet_ne h]
theorem State.emit_ringModes {s : State} {e : Emission} : (s.emit e).ringModes = s.ringModes := rfl
theorem State.modCh_ringModes {s : State} {n : Nat} {f : Chan → Chan} : (s.modCh n f).ringModes = s.ringModes := rfl
theorem State.modEv_ringModes {s : State} {b : Nat} {f : EvRing → EvRing} : (s.modEv b f).ringModes = s.ringModes := rfl
theorem State.modPair_ringModes {s : State} {f : Pair → Pair} : (s.modPair f).ringModes = s.ringModes := rfl
theorem State.modNet_ringModes {s : State} {n : Nat} {f : NetPort → NetPort} : (s.modNet n f).ringModes = s.ringModes := rfl
theorem State.modPt_ringModes {s : State} {n : Nat} {f : Point → Point} : (s.modPt n f).ringModes = s.ringModes := rfl
theorem State.modPwr_ringModes {s : State} {f : Power → Power} : (s.modPwr f).ringModes = s.ringModes := rfl
theorem State.modTime_ringModes {s : State} {f : HubTime → HubTime} : (s.modTime f).ringModes = s.ringModes := rfl
theorem State.modWs_ringModes {s : State} {f : Watershed → Watershed} : (s.modWs f).ringModes = s.ringModes := rfl
theorem State.modTxn_ringModes {s : State} {c : Nat} {f : Txn → Txn} : (s.modTxn c f).ringModes = s.ringModes := rfl
theorem State.modBkp_ringModes {s : State} {f : Backup → Backup} : (s.modBkp f).ringModes = s.ringModes := rfl
theorem State.modVlt_ringModes {s : State} {f : Vault → Vault} : (s.modVlt f).ringModes = s.ringModes := rfl
theorem State.modUpd_ringModes {s : State} {f : Upd → Upd} : (s.modUpd f).ringModes = s.ringModes := rfl
theorem State.tick1_ringModes {s : State}  : (s.tick1 ).ringModes = s.ringModes := rfl
theorem State.modCan_ringModes {s : State} {n x : Nat} {f : Can → Can} : (s.modCan n x f).ringModes = s.ringModes := rfl
theorem State.modSeg_ringModes {s : State} {n x : Nat} {f : Seg → Seg} : (s.modSeg n x f).ringModes = s.ringModes := rfl
theorem State.modFn_ringModes {s : State} {n : Nat} {f : Fn → Fn} : (s.modFn n f).ringModes = s.ringModes := rfl
theorem State.setReg_ringModes {s : State} {k : Nat} {w : Word} : (s.setReg k w).ringModes = s.ringModes := by
  unfold State.setReg; split <;> rfl

theorem State.sendVec_ringModes {s : State} {b v : Nat} :
    State.ringModes (State.sendVec s b v) = State.ringModes s := by
  unfold State.sendVec
  with_reducible repeat' first
    | rfl | apply State.ringModes_ite | refine State.modFn_ringModes.trans ?_ | refine State.emit_ringModes.trans ?_
    | split

theorem writeEvIdx_ringModes {s : State} {b : Nat} :
    State.ringModes (writeEvIdx s b) = State.ringModes s := by
  unfold writeEvIdx
  with_reducible repeat' first
    | rfl | apply State.ringModes_ite | refine State.emit_ringModes.trans ?_ | refine State.modEv_ringModes.trans ?_
    | split

theorem evNotify_ringModes {s : State} {b : Nat} {due : Bool} :
    State.ringModes (evNotify s b due) = State.ringModes s := by
  unfold evNotify
  with_reducible repeat' first
    | rfl | apply State.ringModes_ite | refine State.modEv_ringModes.trans ?_
    | refine State.sendVec_ringModes.trans ?_ | split

theorem pumpEv_ringModes {b : Nat} : ∀ {q : List EvRec} {s : State}, State.ringModes (pumpEv b q s) = State.ringModes s
  | [], _ => rfl
  | _ :: q, s => by
    unfold pumpEv
    dsimp only
    split
    · exact (pumpEv_ringModes (q := q)).trans (evNotify_ringModes.trans (writeEvIdx_ringModes.trans (State.modEv_ringModes.trans State.emit_ringModes)))
    · rfl

theorem State.flushEv_ringModes {s : State} {b : Nat} :
    State.ringModes (State.flushEv s b) = State.ringModes s := by
  unfold State.flushEv
  with_reducible repeat' first
    | rfl | refine pumpEv_ringModes.trans ?_

theorem raise_ringModes {s : State} {b kind subject : Nat} {payload : List Byte} :
    State.ringModes (raise s b kind subject payload) = State.ringModes s := by
  unfold raise
  with_reducible repeat' first
    | rfl | apply State.ringModes_ite | refine State.modEv_ringModes.trans ?_ | refine writeEvIdx_ringModes.trans ?_
    | refine State.flushEv_ringModes.trans ?_ | split

theorem raiseBoth_ringModes {s : State} {kind subject : Nat} {payload : List Byte} :
    State.ringModes (raiseBoth s kind subject payload) = State.ringModes s := by
  unfold raiseBoth
  with_reducible repeat' first
    | rfl | apply State.ringModes_ite | refine raise_ringModes.trans ?_ | split

theorem State.mirror_ringModes {s : State} {r : MirrorRec} :
    State.ringModes (State.mirror s r) = State.ringModes s := by
  unfold State.mirror
  with_reducible repeat' first
    | rfl | apply State.ringModes_ite | refine State.modPair_ringModes.trans ?_
    | refine State.emit_ringModes.trans ?_ | split


theorem writeIdx_ringModes {s : State} {k : Nat} :
    State.ringModes (writeIdx s k) = State.ringModes s := by
  unfold writeIdx
  with_reducible repeat' first
    | rfl | apply State.ringModes_ite | refine State.emit_ringModes.trans ?_
    | refine (State.modRing_ringModes ?_).trans ?_ | intro _ | split

theorem ringNotify_ringModes {s : State} {k : Nat} {due : Bool} :
    State.ringModes (ringNotify s k due) = State.ringModes s := by
  unfold ringNotify
  with_reducible repeat' first
    | rfl | apply State.ringModes_ite | refine (State.modRing_ringModes ?_).trans ?_ | intro _
    | refine State.sendVec_ringModes.trans ?_ | split

theorem ringItem_ringModes {s : State} {k : Nat} :
    State.ringModes (ringItem s k) = State.ringModes s := by
  unfold ringItem
  with_reducible repeat' first
    | rfl | refine (State.modRing_ringModes ?_).trans ?_ | intro _ | refine writeIdx_ringModes.trans ?_
    | refine ringNotify_ringModes.trans ?_

theorem putCompletion_ringModes {s : State} {k : Nat} {c : Completion} :
    State.ringModes (putCompletion s k c) = State.ringModes s := by
  unfold putCompletion
  with_reducible repeat' first
    | rfl | refine State.emit_ringModes.trans ?_ | refine ringItem_ringModes.trans ?_
    | refine (State.modRing_ringModes ?_).trans ?_ | intro _

theorem complete_ringModes {s : State} {k : Nat} {c : Completion} :
    State.ringModes (complete s k c) = State.ringModes s := by
  unfold complete
  with_reducible repeat' first
    | rfl | apply State.ringModes_ite | refine (State.modRing_ringModes ?_).trans ?_ | intro _
    | refine putCompletion_ringModes.trans ?_ | split

theorem completeAll_ringModes {k idx status ckind : Nat} {tsq late : Bool} {info : Word} :
    ∀ {l : List Slot} {j : Nat} {s : State},
      State.ringModes (completeAll s k idx status ckind tsq late info j l) = State.ringModes s
  | [], _, _ => rfl
  | _ :: l, j, _ => (completeAll_ringModes (l := l) (j := j + 1)).trans complete_ringModes

theorem finish_ringModes {s : State} {k id status : Nat} {tsq late : Bool} {info : Word} :
    State.ringModes (finish s k id status tsq late info) = State.ringModes s := by
  unfold finish
  with_reducible repeat' first
    | rfl | apply State.ringModes_ite | refine completeAll_ringModes.trans ?_
    | refine (State.modRing_ringModes ?_).trans ?_ | intro _ | split

theorem putHeld_ringModes {s : State} {k : Nat} {h : HeldWrite} :
    State.ringModes (putHeld s k h) = State.ringModes s := by
  unfold putHeld
  with_reducible repeat' first
    | rfl | apply State.ringModes_ite | refine putCompletion_ringModes.trans ?_
    | refine State.emit_ringModes.trans ?_ | refine (State.modRing_ringModes ?_).trans ?_ | intro _
    | refine ringItem_ringModes.trans ?_ | refine writeIdx_ringModes.trans ?_ | split

theorem flushRing_ringModes {s : State} {k : Nat} :
    State.ringModes (flushRing s k) = State.ringModes s := by
  unfold flushRing
  with_reducible repeat' first
    | rfl | intro _ | apply State.ringModes_ite | apply State.ringModes_foldl | refine putHeld_ringModes.trans ?_
    | refine (State.modRing_ringModes ?_).trans ?_ | intro _ | split

theorem setChState_ringModes {s : State} {n : Nat} {st : ChState} :
    State.ringModes (setChState s n st) = State.ringModes s := by
  unfold setChState
  with_reducible repeat' first
    | rfl | apply State.ringModes_ite | refine State.modCh_ringModes.trans ?_
    | refine State.sendVec_ringModes.trans ?_ | split


theorem sendReport_ringModes {s : State} {n : Nat} {r : Report} :
    State.ringModes (sendReport s n r) = State.ringModes s := by
  unfold sendReport
  with_reducible repeat' first
    | rfl | apply State.ringModes_ite | refine State.modCh_ringModes.trans ?_ | split

theorem State.modTbl_ringModes {s : State} {t : Nat} {f : Table → Table} :
    State.ringModes (State.modTbl s t f) = State.ringModes s := by
  unfold State.modTbl
  with_reducible repeat' first
    | rfl | apply State.ringModes_ite | refine State.modCh_ringModes.trans ?_ | split

theorem State.modEnt_ringModes {s : State} {t i : Nat} {f : Entry → Entry} :
    State.ringModes (State.modEnt s t i f) = State.ringModes s := by
  unfold State.modEnt
  with_reducible repeat' first
    | rfl | refine State.modTbl_ringModes.trans ?_

theorem enterEntry_ringModes {s : State} {t i : Nat} {e : Entry} :
    State.ringModes (enterEntry s t i e) = State.ringModes s := by
  unfold enterEntry
  with_reducible repeat' first
    | rfl | refine State.modTbl_ringModes.trans ?_ | refine State.mirror_ringModes.trans ?_ | split

theorem actRecord_ringModes {s : State} {t i : Nat} {e : Entry} {outcome detail lateUs skipped : Nat} {final : Bool} :
    State.ringModes (actRecord s t i e outcome detail lateUs skipped final) = State.ringModes s := by
  unfold actRecord
  with_reducible repeat' first
    | rfl | apply State.ringModes_ite | refine State.modCh_ringModes.trans ?_
    | refine State.modEv_ringModes.trans ?_ | refine raise_ringModes.trans ?_ | split

theorem actOutcome_ringModes {s : State} {t i : Nat} {e : Entry} {outcome detail lateUs : Nat} {final : Bool} :
    State.ringModes (actOutcome s t i e outcome detail lateUs final) = State.ringModes s := by
  unfold actOutcome
  with_reducible repeat' first
    | rfl | apply State.ringModes_ite | refine State.modTbl_ringModes.trans ?_ | refine actRecord_ringModes.trans ?_
    | refine State.modEnt_ringModes.trans ?_ | split

theorem endEntry_ringModes {s : State} {t i : Nat} {e : Entry} :
    State.ringModes (endEntry s t i e) = State.ringModes s := by
  unfold endEntry
  with_reducible repeat' first
    | rfl | apply State.ringModes_ite | refine State.modEnt_ringModes.trans ?_
    | refine State.modTbl_ringModes.trans ?_ | refine State.mirror_ringModes.trans ?_ | split

theorem occOutcome_ringModes {s : State} {t i : Nat} {e : Entry} {outcome detail lateUs : Nat} {last : Bool} :
    State.ringModes (occOutcome s t i e outcome detail lateUs last) = State.ringModes s := by
  unfold occOutcome
  with_reducible repeat' first
    | rfl | apply State.ringModes_ite | refine actOutcome_ringModes.trans ?_ | refine endEntry_ringModes.trans ?_
    | split

theorem cancelEntry_ringModes {s : State} {t i : Nat} {e : Entry} {detail : Nat} :
    State.ringModes (cancelEntry s t i e detail) = State.ringModes s := by
  unfold cancelEntry
  with_reducible repeat' first
    | rfl | refine actOutcome_ringModes.trans ?_ | refine State.modTbl_ringModes.trans ?_
    | refine State.mirror_ringModes.trans ?_

theorem actFrameDone_ringModes {s : State} {f : TxFrame} {outcome detail : Nat} :
    State.ringModes (actFrameDone s f outcome detail) = State.ringModes s := by
  unfold actFrameDone
  with_reducible repeat' first
    | rfl | apply State.ringModes_ite | refine State.modEnt_ringModes.trans ?_
    | refine occOutcome_ringModes.trans ?_ | split

theorem frameEnds_ringModes {s : State} {n : Nat} {f : TxFrame} {status detail : Nat} {tsq : Bool} {info : Word} :
    State.ringModes (frameEnds s n f status detail tsq info) = State.ringModes s := by
  unfold frameEnds
  with_reducible repeat' first
    | rfl | apply State.ringModes_ite | refine actFrameDone_ringModes.trans ?_
    | refine sendReport_ringModes.trans ?_ | refine finish_ringModes.trans ?_ | split

theorem cancelAnswer_ringModes {s : State} {n : Nat} {f : TxFrame} {status : Nat} :
    State.ringModes (cancelAnswer s n f status) = State.ringModes s := by
  unfold cancelAnswer
  with_reducible repeat' first
    | rfl | intro _ | apply State.ringModes_ite | apply State.ringModes_foldl | refine sendReport_ringModes.trans ?_
    | refine finish_ringModes.trans ?_ | split

theorem endFrames_ringModes {s : State} {n : Nat} {fs : List TxFrame} {status detail req : Nat} :
    State.ringModes (endFrames s n fs status detail req) = State.ringModes s := by
  unfold endFrames
  with_reducible repeat' first
    | rfl | intro _ | apply State.ringModes_foldl | refine cancelAnswer_ringModes.trans ?_
    | refine frameEnds_ringModes.trans ?_

theorem dbArm_ringModes {s : State} {k : Nat} :
    State.ringModes (dbArm s k) = State.ringModes s := by
  unfold dbArm
  with_reducible repeat' first
    | rfl | refine (State.modRing_ringModes ?_).trans ?_ | intro _ | refine ringNotify_ringModes.trans ?_

theorem trigger_ringModes {s : State} {t : Nat} :
    State.ringModes (trigger s t) = State.ringModes s := by
  unfold trigger
  with_reducible repeat' first
    | rfl | refine State.modWs_ringModes.trans ?_ | split

theorem flushChan_ringModes {s : State} {n k : Nat} :
    State.ringModes (flushChan s n k) = State.ringModes s := by
  unfold flushChan
  with_reducible repeat' first
    | rfl | intro _ | apply State.ringModes_ite | apply State.ringModes_foldl | refine endFrames_ringModes.trans ?_
    | refine State.modCan_ringModes.trans ?_ | refine State.modSeg_ringModes.trans ?_ | split

theorem flushNet_ringModes {s : State} {p k : Nat} :
    State.ringModes (flushNet s p k) = State.ringModes s := by
  unfold flushNet
  with_reducible repeat' first
    | rfl | refine endFrames_ringModes.trans ?_ | refine State.modNet_ringModes.trans ?_

theorem flushCmds_ringModes {s : State} {n k : Nat} :
    State.ringModes (flushCmds s n k) = State.ringModes s := by
  unfold flushCmds
  with_reducible repeat' first
    | rfl | intro _ | apply State.ringModes_ite | apply State.ringModes_foldl | refine finish_ringModes.trans ?_
    | refine State.modCh_ringModes.trans ?_ | split

theorem flushRingWork_ringModes {s : State} {k : Nat} :
    State.ringModes (flushRingWork s k) = State.ringModes s := by
  unfold flushRingWork
  with_reducible repeat' first
    | rfl | intro _ | apply State.ringModes_foldl | refine flushChan_ringModes.trans ?_
    | refine flushCmds_ringModes.trans ?_ | refine flushNet_ringModes.trans ?_

theorem takeFlight_ringModes {s : State} {k : Nat} {cookies : List Slot} {ckind channel : Nat} :
    State.ringModes (takeFlight s k cookies ckind channel) = State.ringModes s := by
  unfold takeFlight
  with_reducible repeat' first
    | rfl | refine (State.modRing_ringModes ?_).trans ?_ | intro _ | refine writeIdx_ringModes.trans ?_

theorem moderationOp_ringModes {b r : Nat} {s : State} :
    State.ringModes (moderationOp b r s) = State.ringModes s := by
  unfold moderationOp
  with_reducible repeat' first
    | rfl | apply State.ringModes_ite | refine evNotify_ringModes.trans ?_ | refine ringNotify_ringModes.trans ?_
    | split

/-- States with the same ring modes have rings of the same mode. -/
theorem State.ringMode_of {s t : State} (h : t.ringModes = s.ringModes) (k : Nat) : (t.ring k).mode = (s.ring k).mode :=
  congrFun h k

theorem State.ringState_of {s t : State} (h : t.ringModes = s.ringModes) (k : Nat) :
    (t.ring k).state = (s.ring k).state := congrArg (fun x => x.1) (State.ringMode_of h k)

theorem State.ringKind_of {s t : State} (h : t.ringModes = s.ringModes) (k : Nat) :
    (t.ring k).kind = (s.ring k).kind := congrArg (fun x => x.2.1) (State.ringMode_of h k)

theorem State.ringHalt_of {s t : State} (h : t.ringModes = s.ringModes) (k : Nat) :
    (t.ring k).haltCause = (s.ring k).haltCause := congrArg (fun x => x.2.2.2.2.2) (State.ringMode_of h k)

end Sys2Proof.Machine
end

