-- ==== Sys2Proof/Laws/Steps.lean ====
section
/-! SUPPORT. What single operations do, said once: the lemmas a proof about a command cites in place of unfolding it. -/

namespace Sys2Proof.Machine

/-- An entry is shown with its value and quality (R40). -/
@[simp] theorem State.mirShown_value {s : State} {m : Mirror} : (s.mirShown m).value = m.value := by
  unfold State.mirShown; split <;> rfl

@[simp] theorem State.mirShown_quality {s : State} {m : Mirror} : (s.mirShown m).quality = m.quality := by
  unfold State.mirShown; split <;> rfl

/-- What a delivery leaves of its point (R51). -/
theorem deliver_get {s : State} {h : Nat} {m : Mirror} {r : Bool} :
    amGet (deliver s h m r).points h = (amGet s.points h).map (fun p =>
      { p with lastVal := m.value, lastQual := m.quality, lastTick := s.ticks, minDone := false, held := false }) := by
  unfold deliver
  cases hp : amGet s.points h with
  | none => simp [hp]
  | some p =>
    dsimp only
    rw [State.modPt_get, State.foldl_same State.points (by intro s a; split <;> rfl),
      State.foldl_same State.ticks (by intro s a; split <;> rfl), State.foldl_same State.points (by intros; simp),
      State.foldl_same State.ticks (by intros; simp)]
    simp [hp]

/-- The change-of-value unit leaves the mirror entry of its point. -/
theorem covUnit_mir {s : State} {h : Nat} {p : Point} {m : Mirror} {ns : Bool} :
    (amGet (covUnit s h p m ns).points h).map Point.mir = (amGet s.points h).map Point.mir := by
  unfold covUnit
  split
  · rw [deliver_get]; cases amGet s.points h <;> rfl
  · split
    · split
      · rw [deliver_get]; cases amGet s.points h <;> rfl
      · rw [State.modPt_get]; cases amGet s.points h <;> rfl
    · rfl

/-- What an update writes into the mirror (R26). -/
theorem mirrorWrite_mir {s : State} {h : Nat} {m : Mirror} {p : Point} (hp : amGet s.points h = some p) :
    (amGet (mirrorWrite s h m).points h).map Point.mir = some { m with epoch := s.ws.epoch } := by
  unfold mirrorWrite
  simp only [hp]
  rw [covUnit_mir, State.mirror_points, State.modPt_get, hp]
  rfl

/-- A channel that is not fitted holds nothing: a channel number with a queued item is one of the eight. -/
theorem State.ch_len {s : State} {n : Nat} {α : Type} {f : Chan → List α} (h0 : f Chan.reset = []) {a : α} {l : List α}
    (h : f (s.ch n) = a :: l) : n < s.chs.length := by
  apply Decidable.byContradiction
  intro hn
  have : s.ch n = Chan.reset := by
    unfold State.ch
    rw [List.getD_eq_getElem?_getD, List.getElem?_eq_none (Nat.le_of_not_lt hn)]
    rfl
  rw [this, h0] at h
  cases h

/-- Where its number is one of the channels, a channel changes state and nothing else of it changes (R32, R98). -/
theorem setChState_ch_self {s : State} {n : Nat} {st : ChState} (h : n < s.chs.length) :
    (setChState s n st).ch n = { s.ch n with state := st } := by
  unfold setChState
  split
  · rename_i e; rw [← e]
  · rw [State.sendVec_ch, State.modCh_ch_self h]

theorem setChState_ch_ne {s : State} {n m : Nat} {st : ChState} (h : m ≠ n) : (setChState s n st).ch m = s.ch m := by
  unfold setChState
  split
  · rfl
  · rw [State.sendVec_ch, State.modCh_ch_ne h]

/-- A Watershed transaction that fails leaves the channels' states. -/
theorem wsTxnFailed_links {s : State} {r : Nat} : (wsTxnFailed s r).links = s.links := by
  unfold wsTxnFailed
  split
  · rfl
  · dsimp only
    refine State.modWs_links.trans (resubscribe_links.trans ?_)
    exact State.links_foldl (fun s a => (raiseBoth_links.trans State.modWs_links)) rfl

theorem mirrorEnded_links {s : State} {t : Txn} {c : Nat} : (mirrorEnded s t c).links = s.links := by
  unfold mirrorEnded
  split
  · exact State.mirror_links
  · rfl

theorem mirrorEnded_core {s : State} {t : Txn} {c : Nat} : (mirrorEnded s t c).core = s.core := by
  unfold mirrorEnded
  split
  · exact State.mirror_core
  · rfl

@[simp] theorem mirrorEnded_txns {s : State} {t : Txn} {c : Nat} : (mirrorEnded s t c).txns = s.txns :=
  (congrArg State.txns (mirrorEnded_core : _ = s.core) :)

@[simp] theorem mirrorEnded_regs {s : State} {t : Txn} {c : Nat} : (mirrorEnded s t c).regs = s.regs :=
  (congrArg State.regs (mirrorEnded_core : _ = s.core) :)

@[simp] theorem mirrorEnded_lastTxn {s : State} {t : Txn} {c : Nat} : (mirrorEnded s t c).lastTxn = s.lastTxn :=
  (congrArg State.lastTxn (mirrorEnded_core : _ = s.core) :)

theorem endTxn_links {s : State} {c r : Nat} : (endTxn s c r).links = s.links := by
  unfold endTxn
  dsimp only
  split
  · split
    · exact mirrorEnded_links.trans State.modTxn_links
    · exact wsTxnFailed_links.trans (mirrorEnded_links.trans State.modTxn_links)
  · split
    · exact groupTxnEnded_links.trans (mirrorEnded_links.trans State.modTxn_links)
    · exact raise_links.trans (mirrorEnded_links.trans State.modTxn_links)

/-- A withdrawal from a table leaves the channels' states. -/
theorem withdrawEntry_links {s : State} {t i : Nat} : (withdrawEntry s t i).links = s.links := by
  have key : ∀ u : State, u.links = s.links → (match amGet (u.tbl t).entries i with
      | some e =>
        if e.st = ActState.ended then u.modTbl t (fun b => { b with entries := amDel b.entries i })
        else if t = 8 ∧ e.prep.isSome then
          if (u.txn (128 + i)).goSent then u.modEnt 8 i (fun e => { e with skipDet := 0x23 })
          else cancelEntry (((u.txn (128 + i)).channels.foldl (fun (s : State) n => s.emit (.abort (128 + i) n)) u).modTxn (128 + i) (fun _ => Txn.reset)) t i e 0x23
        else cancelEntry u t i e 0x23
      | none => u).links = s.links := by
    intro u h
    split
    · split
      · exact State.modTbl_links.trans h
      · split
        · split
          · exact State.modEnt_links.trans h
          · refine cancelEntry_links.trans (State.modTxn_links.trans ?_)
            exact State.links_foldl (fun s n => State.emit_links) h
        · exact cancelEntry_links.trans h
    · exact h
  unfold withdrawEntry
  split
  · rfl
  refine key _ ?_
  split
  · split
    · exact fireEntry_links
    · rfl
  · rfl

theorem dropOrphans_links {s : State} {n : Nat} : (dropOrphans s n).links = s.links := by
  unfold dropOrphans
  refine State.links_foldl (fun s i => ?_) rfl
  split
  · split
    · exact withdrawEntry_links
    · rfl
  · rfl

theorem abortTxn_links {s : State} {c r : Nat} : (abortTxn s c r).links = s.links := by
  unfold abortTxn
  exact endTxn_links.trans (State.links_foldl (fun s a => State.emit_links) rfl)

theorem txnChannelLeft_links {s : State} {n : Nat} : (txnChannelLeft s n).links = s.links := by
  unfold txnChannelLeft
  refine State.links_foldl (fun s a => ?_) rfl
  dsimp only
  split
  · exact abortTxn_links
  · rfl

theorem loseTxn_links {s : State} {c : Nat} : (loseTxn s c).links = s.links := by
  unfold loseTxn
  dsimp only
  split
  · rfl
  · split
    · exact wsTxnFailed_links.trans (mirrorEnded_links.trans State.modTxn_links)
    · split
      · exact groupTxnEnded_links.trans (mirrorEnded_links.trans State.modTxn_links)
      · exact raiseBoth_links.trans (mirrorEnded_links.trans State.modTxn_links)

theorem State.state_ne_absent_lt {s : State} {n : Nat} (hs : s.shaped = true) (hn : n < 8) : n < s.chs.length := by
  rw [State.chs_length hs]; exact hn

/-- The length of the list of channels is the same where the links are. -/
theorem State.chs_length_of_links {s t : State} (h : t.links = s.links) : t.chs.length = s.chs.length := by
  have := congrArg List.length h
  simpa [State.links] using this

theorem State.chs_length_of_bodies {s t : State} (h : t.bodies = s.bodies) : t.chs.length = s.chs.length := by
  have := congrArg List.length h
  simpa [State.bodies] using this

/-- An entry that reads is listed. -/
theorem amGet_mem {α : Type} {m : AMap α} {k : Nat} {v : α} (h : amGet m k = some v) : (k, v) ∈ m := by
  unfold amGet at h
  cases hf : m.find? (fun p => p.1 == k) with
  | none => rw [hf] at h; cases h
  | some p =>
    rw [hf] at h
    have h1 := List.find?_some hf
    have h2 := List.mem_of_find?_eq_some hf
    simp only [Option.map_some, Option.some.injEq] at h
    simp only [beq_iff_eq] at h1
    rw [← h, ← h1]; exact h2

/-- Withdrawing a point removes it from the directory and leaves the others (R163). -/
theorem dropPoint_points {s : State} {h : Nat} : (dropPoint s h).points = amDel s.points h := by
  unfold dropPoint
  cases hp : amGet s.points h with
  | none =>
    symm
    unfold amDel
    rw [List.filter_eq_self]
    intro p hm
    unfold amGet at hp
    simp only [Option.map_eq_none_iff, List.find?_eq_none] at hp
    simpa using hp p hm
  | some p =>
    simp only [trigger, dirChanged, State.modWs_points, raiseBoth_points]
    rw [State.foldl_same State.points (fun s a => by split <;> simp)]

@[simp] theorem dirFrom_passes {s t : State} : (dirFrom s t).ws.passes = t.ws.passes := by
  unfold dirFrom; split <;> rfl

@[simp] theorem dirFrom_points {s t : State} : (dirFrom s t).points = t.points := by
  unfold dirFrom; split <;> rfl

/-- Withdrawing points one by one leaves a point that reads as it was, and none of those withdrawn. -/
theorem withdrawAll_points {k : Nat} {p : Point} : ∀ {l : List Nat} {s : State},
    amGet (withdrawAll 2 dropPoint l s).points k = some p → amGet s.points k = some p ∧ k ∉ l
  | [], _, h => ⟨h, List.not_mem_nil⟩
  | h :: l, s, hp => by
    obtain ⟨h1, h2⟩ := withdrawAll_points (l := l) (s := (dropPoint s h).mirror (.withdrawn 2 h)) hp
    rw [State.mirror_points, dropPoint_points] at h1
    by_cases e : k = h
    · rw [e, amGet_amDel_self] at h1; cases h1
    · rw [amGet_amDel_ne e] at h1
      exact ⟨h1, by simp [e, h2]⟩

@[simp] theorem basinReturned_points {b : Nat} {s : State} : (basinReturned b s).points = s.points := rfl

/-- No assignment names a basin once its assignments have returned to basin 0 (R66). -/
theorem basinReturned_assigns {b : Nat} {s : State} (h : b ≠ 0) : ∀ a ∈ (basinReturned b s).ws.assigns, a.2.basin ≠ b := by
  intro a ha
  unfold basinReturned at ha
  rw [State.modWs_ws] at ha
  obtain ⟨x, _, rfl⟩ := List.mem_map.mp ha
  dsimp only
  unfold Assign.returned
  split
  · exact Ne.symm h
  · assumption

/-- A ring reads the same where the store of rings is the same. -/
theorem State.ring_congr {s t : State} (h : t.rings = s.rings) (k : Nat) : t.ring k = s.ring k := by
  unfold State.ring; rw [h]

@[simp] theorem State.emit_ring {s : State} {e : Emission} {k : Nat} : (s.emit e).ring k = s.ring k := rfl

@[simp] theorem State.modCh_ring {s : State} {n : Nat} {f : Chan → Chan} {k : Nat} : (s.modCh n f).ring k = s.ring k := rfl

/-- An index record that is written touches no ring. -/
theorem writeIdx_ring {s : State} {k j : Nat} (h : s.mayWrite (ringFn k) = true) : (writeIdx s k).ring j = s.ring j := by
  unfold writeIdx; rw [if_pos h]; rfl

/-- One that has to wait leaves the ring but for its mark (R119). -/
theorem writeIdx_ring_self {s : State} {k : Nat} : ∃ x, (writeIdx s k).ring k = { s.ring k with stale := x } := by
  unfold writeIdx
  split
  · exact ⟨_, rfl⟩
  · exact ⟨_, State.modRing_ring_self⟩

theorem writeIdx_ring_ne {s : State} {k j : Nat} (h : j ≠ k) : (writeIdx s k).ring j = s.ring j := by
  unfold writeIdx
  split
  · rfl
  · unfold State.ring State.modRing; rw [amGet_amSet_ne h]

/-- A vector touches no ring. -/
theorem State.sendVec_ring {s : State} {b v j : Nat} : (s.sendVec b v).ring j = s.ring j :=
  State.ring_congr (congrArg State.rings (State.sendVec_quiet : _ = s.quiet)) j

/-- What an interrupt leaves of a ring. -/
theorem ringNotify_ring {s : State} {k : Nat} {due : Bool} :
    ∃ a p, (ringNotify s k due).ring k = { s.ring k with armed := a, pend := p } := by
  unfold ringNotify
  split
  · dsimp only
    split
    · exact ⟨_, _, by rw [State.sendVec_ring, State.modRing_ring_self]⟩
    · exact ⟨_, _, by rw [State.modRing_ring_self]⟩
  · exact ⟨_, _, rfl⟩

/-- What an item leaves of a ring: counts for the interrupt only. -/
theorem ringItem_ring {s : State} {k : Nat} :
    ∃ a p x, (ringItem s k).ring k = { s.ring k with armed := a, pend := p, stale := x } := by
  unfold ringItem
  dsimp only
  obtain ⟨a, p, h⟩ := ringNotify_ring (s := writeIdx (s.modRing k (fun r => { r with pend := r.pend + 1 })) k) (k := k)
    (due := ringDue (writeIdx (s.modRing k (fun r => { r with pend := r.pend + 1 })) k) k)
  obtain ⟨x, hx⟩ := writeIdx_ring_self (s := s.modRing k (fun r => { r with pend := r.pend + 1 })) (k := k)
  exact ⟨a, p, x, by rw [h, hx, State.modRing_ring_self]⟩

/-- What has been put out stays put out. -/
theorem State.sendVec_out {s : State} {b v : Nat} {e : Emission} (h : e ∈ s.out) : e ∈ (s.sendVec b v).out := by
  unfold State.sendVec
  dsimp only
  split
  · exact h
  · split
    · exact h
    · exact List.mem_append_left _ h

theorem writeIdx_out {s : State} {k : Nat} {e : Emission} (h : e ∈ s.out) : e ∈ (writeIdx s k).out := by
  unfold writeIdx
  split
  · exact List.mem_append_left _ h
  · exact h

theorem ringNotify_out {s : State} {k : Nat} {due : Bool} {e : Emission} (h : e ∈ s.out) :
    e ∈ (ringNotify s k due).out := by
  unfold ringNotify
  split
  · dsimp only
    split
    · exact State.sendVec_out h
    · exact h
  · exact h

theorem ringItem_out {s : State} {k : Nat} {e : Emission} (h : e ∈ s.out) : e ∈ (ringItem s k).out :=
  ringNotify_out (writeIdx_out h)

/-- A completion that is written advances CPL_IDX and puts its sixteen bytes out (R130). -/
theorem putCompletion_ring {s : State} {k : Nat} {c : Completion} :
    ∃ a p x, (putCompletion s k c).ring k =
      { s.ring k with cpl := ((s.ring k).cpl + 1) % 65536, armed := a, pend := p, stale := x } := by
  unfold putCompletion
  dsimp only
  obtain ⟨a, p, x, h⟩ := ringItem_ring (s := (s.emit (.memWrite (ringFn k) (s.reg64 (ringBase k + 16) + 16 * ((s.ring k).cpl % (s.ring k).slots))
    (cplBytes (s.ring k) c))).modRing k (fun r => { r with cpl := (r.cpl + 1) % 65536 })) (k := k)
  exact ⟨a, p, x, by rw [h, State.modRing_ring_self]; rfl⟩

theorem putCompletion_out {s : State} {k : Nat} {c : Completion} :
    .memWrite (ringFn k) (s.reg64 (ringBase k + 16) + 16 * ((s.ring k).cpl % (s.ring k).slots)) (cplBytes (s.ring k) c) ∈
      (putCompletion s k c).out := by
  unfold putCompletion
  exact ringItem_out (List.mem_append_right _ (List.mem_singleton.mpr rfl))

/-- The channels are as many as before. -/
@[simp] theorem State.modCh_length {s : State} {n : Nat} {f : Chan → Chan} : (s.modCh n f).chs.length = s.chs.length := by
  simp [State.modCh]

/-- Changed field I/O reads as changed. -/
theorem State.modDio_dio_self {s : State} {n : Nat} {f : Dio → Dio} (hn : n < s.chs.length) :
    (s.modDio n f).dio n = f (s.dio n) := by
  unfold State.dio State.modDio; rw [State.modCh_ch_self hn]

@[simp] theorem State.modDio_length {s : State} {n : Nat} {f : Dio → Dio} : (s.modDio n f).chs.length = s.chs.length :=
  State.modCh_length

@[simp] theorem State.modDout_length {s : State} {n d : Nat} {f : Dout → Dout} :
    (s.modDout n d f).chs.length = s.chs.length := State.modCh_length

@[simp] theorem State.modAout_length {s : State} {n d : Nat} {f : Aout → Aout} :
    (s.modAout n d f).chs.length = s.chs.length := State.modCh_length

@[simp] theorem State.modAin_length {s : State} {n d : Nat} {f : Ain → Ain} :
    (s.modAin n d f).chs.length = s.chs.length := State.modCh_length

@[simp] theorem State.modCan_length {s : State} {n x : Nat} {f : Can → Can} :
    (s.modCan n x f).chs.length = s.chs.length := State.modCh_length

@[simp] theorem State.modSeg_length {s : State} {n x : Nat} {f : Seg → Seg} :
    (s.modSeg n x f).chs.length = s.chs.length := State.modCh_length

/-- A changed digital output reads as changed. -/
theorem State.modDout_dout_self {s : State} {n d : Nat} {f : Dout → Dout} (hn : n < s.chs.length)
    (hd : d < (s.dio n).dout.length) : (s.modDout n d f).dout n d = f (s.dout n d) := by
  unfold State.modDout State.dout
  rw [State.modDio_dio_self hn]
  simp [List.getD_eq_getElem?_getD, hd]

/-- A changed analogue output reads as changed. -/
theorem State.modAout_aout_self {s : State} {n d : Nat} {f : Aout → Aout} (hn : n < s.chs.length)
    (hd : d < (s.dio n).aout.length) : (s.modAout n d f).aout n d = f (s.aout n d) := by
  unfold State.modAout State.aout
  rw [State.modDio_dio_self hn]
  simp [List.getD_eq_getElem?_getD, hd]

/-- A changed analogue input reads as changed. -/
theorem State.modAin_ain_self {s : State} {n d : Nat} {f : Ain → Ain} (hn : n < s.chs.length)
    (hd : d < (s.dio n).ain.length) : (s.modAin n d f).ain n d = f (s.ain n d) := by
  unfold State.modAin State.ain
  rw [State.modDio_dio_self hn]
  simp [List.getD_eq_getElem?_getD, hd]

/-- A changed controller reads as changed. -/
theorem State.modCan_can_self {s : State} {n x : Nat} {f : Can → Can} (hn : n < s.chs.length)
    (hx : x < (s.ch n).can.length) : (s.modCan n x f).can n x = f (s.can n x) := by
  unfold State.modCan State.can
  rw [State.modCh_ch_self hn]
  simp [List.getD_eq_getElem?_getD, hx]

/-- A changed segment reads as changed. -/
theorem State.modSeg_seg_self {s : State} {n x : Nat} {f : Seg → Seg} (hn : n < s.chs.length)
    (hx : x < (s.ch n).seg.length) : (s.modSeg n x f).seg n x = f (s.seg n x) := by
  unfold State.modSeg State.seg
  rw [State.modCh_ch_self hn]
  simp [List.getD_eq_getElem?_getD, hx]

/-- The quality an acquisition notes is all it changes of an output (R369). -/
theorem doutAcquire_dout {s : State} {n d : Nat} {stamp : Instant} (hn : n < s.chs.length)
    (hd : d < (s.dio n).dout.length) : (doutAcquire s n d stamp).dout n d =
      { s.dout n d with qual := doutQual (s.dio n).lockout (s.dout n d) } := by
  unfold doutAcquire
  dsimp only
  rw [State.dout, acquireTerm_dio, ← State.dout, State.modDout_dout_self hn hd]

/-- The state of an output after its latch (R368). -/
theorem latchDout_cmd {s : State} {n d : Nat} {v : Bool} {stamp : Instant} (hn : n < s.chs.length)
    (hd : d < (s.dio n).dout.length) : ((latchDout s n d v stamp).dout n d).cmd = v := by
  unfold latchDout
  dsimp only
  rw [doutAcquire_dout (by simpa using hn) (by rw [State.modDout, State.modDio_dio_self hn]; simpa using hd),
    State.modDout_dout_self hn hd]
  cases v
  · rfl
  · dsimp only
    rw [if_pos rfl]
    split
    · assumption
    · rfl

/-- One thing put out for each of a list. -/
theorem State.emits_out {α : Type} {f : α → Emission} : ∀ {l : List α} {s : State},
    (l.foldl (fun s a => s.emit (f a)) s).out = s.out ++ l.map f
  | [], _ => by simp
  | a :: l, s => by rw [List.foldl_cons, State.emits_out, State.emit_out]; simp

/-- Transaction contexts read the same where their store is. -/
theorem State.txn_congr {s t : State} (h : t.txns = s.txns) (c : Nat) : t.txn c = s.txn c := by
  unfold State.txn; rw [h]

@[simp] theorem State.modTxn_txn_ne {s : State} {c d : Nat} {f : Txn → Txn} (h : d ≠ c) :
    (s.modTxn c f).txn d = s.txn d := by
  simp only [State.modTxn, State.txn, amGet_amSet_ne h]

/-- What the end of a function's transaction leaves of its context (R89, R107). -/
theorem endTxn_txn {s : State} {c r : Nat} (hc : c < 64) : (endTxn s c r).txn c =
    if (s.txn c).resetAfter then Txn.reset
    else { s.txn c with state := .idle, result := r, staged := [], waitPrep := [], goSent := false, waitGo := [],
                        applied := [], parts := [] } := by
  unfold endTxn
  dsimp only
  rw [if_neg (by omega), if_neg (by omega)]
  rw [State.txn_congr (raise_txns.trans mirrorEnded_txns) c]
  exact State.modTxn_txn_self

theorem abortTxn_txn {s : State} {c r : Nat} (hc : c < 64) : (abortTxn s c r).txn c =
    if (s.txn c).resetAfter then Txn.reset
    else { s.txn c with state := .idle, result := r, staged := [], waitPrep := [], goSent := false, waitGo := [],
                        applied := [], parts := [] } := by
  unfold abortTxn
  rw [endTxn_txn hc]
  have h : ∀ l : List Nat, (l.foldl (fun s n => s.emit (.abort c n)) s).txn c = s.txn c := fun l =>
    State.txn_congr (State.foldl_same State.txns (by intros; simp)) c
  rw [h]

/-- The end of a function's transaction touches no register. -/
theorem endTxn_regs {s : State} {c r : Nat} (hc : c < 64) : (endTxn s c r).regs = s.regs := by
  unfold endTxn
  dsimp only
  rw [if_neg (by omega), if_neg (by omega)]
  simp

theorem endTxn_lastTxn {s : State} {c r : Nat} (hc : c < 64) : (endTxn s c r).lastTxn = s.lastTxn := by
  unfold endTxn
  dsimp only
  rw [if_neg (by omega), if_neg (by omega)]
  simp

/-- A write of one whole word is that word with all its bytes enabled (R70). -/
theorem accessWords_word {off : Nat} {data : BitVec 64} (h : off % 4 = 0) :
    accessWords off 4 data = [(off, 15, data.setWidth 32)] := by
  have h8 : off % 8 = 0 ∨ off % 8 = 4 := by omega
  rcases h8 with h8 | h8
  · have hb : off / 8 * 8 = off := by omega
    unfold accessWords accessBe
    simp only [h8, hb]
    simp
    apply BitVec.eq_of_getLsbD_eq
    intro i hi
    simp [hi]
  · have hb : off / 8 * 8 + 4 = off := by omega
    unfold accessWords accessBe
    simp only [h8, hb]
    simp
    apply BitVec.eq_of_getLsbD_eq
    intro i hi
    simp [hi]
    omega

/-- A word with every byte enabled replaces the old one (R70). -/
theorem beMerge_all {old w : Word} : beMerge 15 old w = w := by
  unfold beMerge
  have : beMask 15 = 0xFFFFFFFF#32 := by decide
  rw [this]
  have h : (0xFFFFFFFF#32) = BitVec.allOnes 32 := by decide
  rw [h, BitVec.and_allOnes, BitVec.not_allOnes, BitVec.and_zero, BitVec.zero_or]

theorem State.lt_fns {s : State} {n : Nat} (hs : s.shaped = true) (hn : n < 64) : n < s.fns.length := by
  rw [State.fns_length hs]; exact hn

/-- An alert sets its bit in the alert register (R110). -/
theorem State.alert_host {s : State} {i : Nat} :
    (s.alert i).host = { s.host with alert := setBit s.host.alert i } := by
  unfold State.alert
  dsimp only
  split
  · rfl
  · rw [State.sendVec_host]

/-- A changed function among the others. -/
theorem State.modFn_fn {s : State} {n m : Nat} {f : Fn → Fn} (hn : n < s.fns.length) :
    (s.modFn n f).fn m = if m = n then f (s.fn n) else s.fn m := by
  split
  · rename_i e; rw [e, State.modFn_fn_self hn]
  · rename_i e; exact State.modFn_fn_ne e

/-- The rings of a function are gone after its reset, those of others as before (R104). -/
theorem ringResets_ring {b k : Nat} : ∀ {l : List Nat} {s : State},
    (l.foldl (fun s r => ringReset s (16 * b + r)) s).ring k =
      if (l.any (fun r => 16 * b + r == k)) then Ring.reset else s.ring k
  | [], s => by simp
  | r :: l, s => by
    rw [List.foldl_cons, ringResets_ring (l := l)]
    have h : (ringReset s (16 * b + r)).ring k = if 16 * b + r = k then Ring.reset else s.ring k := by
      unfold ringReset State.ring
      by_cases e : 16 * b + r = k
      · simp [e]
      · simp [e, amGet_amDel_ne (fun e' => e (Eq.symm e'))]
    rw [h, List.any_cons]
    by_cases e : 16 * b + r = k <;> simp [e]

/-- The end of a transaction of a function touches only its context, the event rings, the interrupts and the partner. -/
theorem loseTxn_quiet {s : State} {c : Nat} (hc : c < 64) : loseTxn s c = s ∨ ∃ f t,
    (loseTxn s c).quiet = (mirrorEnded (s.modTxn c f) t c).quiet := by
  unfold loseTxn
  dsimp only
  split
  · exact Or.inl rfl
  · rw [if_neg (by omega), if_neg (by omega)]
    exact Or.inr ⟨_, _, raiseBoth_quiet⟩

/-- The copy a partner drops leaves all but the link to it. -/
theorem mirrorEnded_same {α : Type} (F : State → α) (hF : ∀ u o p, F { u with out := o, pair := p } = F u) {s : State} {t : Txn}
    {c : Nat} : F (mirrorEnded s t c) = F s := by
  unfold mirrorEnded
  split
  · unfold State.mirror
    split
    · exact hF s _ _
    · rfl
  · rfl

theorem txnFnReset_same {α : Type} (F : State → α) (hQ : ∀ u v, u.quiet = v.quiet → F u = F v)
    (hF : ∀ u o p, F { u with out := o, pair := p } = F u) (hT : ∀ u c f, F (State.modTxn u c f) = F u) {s : State} {c : Nat}
    (hc : c < 64) : F (txnFnReset s c) = F s := by
  unfold txnFnReset
  dsimp only
  split
  · exact hT s _ _
  · rw [hT]
    rcases loseTxn_quiet (s := s) hc with h | ⟨f, t, h⟩
    · rw [h]
    · rw [hQ _ _ h, mirrorEnded_same F hF, hT]

theorem txnFnReset_rings {s : State} {c : Nat} (hc : c < 64) : (txnFnReset s c).rings = s.rings :=
  txnFnReset_same State.rings (fun _ _ h => (congrArg State.rings h : _)) (fun _ _ _ => rfl) (fun _ _ _ => rfl) hc

theorem txnFnReset_points {s : State} {c : Nat} (hc : c < 64) : (txnFnReset s c).points = s.points :=
  txnFnReset_same State.points (fun _ _ h => (congrArg State.points h : _)) (fun _ _ _ => rfl) (fun _ _ _ => rfl) hc

theorem txnFnReset_ws {s : State} {c : Nat} (hc : c < 64) : (txnFnReset s c).ws = s.ws :=
  txnFnReset_same State.ws (fun _ _ h => (congrArg State.ws h : _)) (fun _ _ _ => rfl) (fun _ _ _ => rfl) hc

theorem ringResets_points {b : Nat} {l : List Nat} {s : State} :
    (l.foldl (fun s r => ringReset s (16 * b + r)) s).points = s.points :=
  State.foldl_same State.points (fun s a => by simp [ringReset])

theorem ringResets_ws {b : Nat} {l : List Nat} {s : State} :
    (l.foldl (fun s r => ringReset s (16 * b + r)) s).ws = s.ws :=
  State.foldl_same State.ws (fun s a => by simp [ringReset])

/-- A function reset leaves every point, declaration and placement (R104). -/
theorem fnReset_points {s : State} {b : Nat} {busy : Bool} (hb : b < 64) : (fnReset s b busy).points = s.points := by
  unfold fnReset txnRegsReset
  dsimp only
  rw [State.modFn_points]
  show (txnFnReset (evReset _ b) b).points = s.points
  rw [txnFnReset_points hb]
  unfold evReset
  simp [ringResets_points]

theorem fnReset_ws {s : State} {b : Nat} {busy : Bool} (hb : b < 64) : (fnReset s b busy).ws = s.ws := by
  unfold fnReset txnRegsReset
  dsimp only
  rw [State.modFn_ws]
  show (txnFnReset (evReset _ b) b).ws = s.ws
  rw [txnFnReset_ws hb]
  unfold evReset
  simp [ringResets_ws]

theorem fnReset_ring {s : State} {b k : Nat} {busy : Bool} (hb : b < 64) :
    (fnReset s b busy).ring k = if k / 16 = b then Ring.reset else s.ring k := by
  unfold fnReset txnRegsReset
  dsimp only
  show (txnFnReset (evReset _ b) b).ring k = _
  rw [State.ring_congr (txnFnReset_rings hb) k]
  have h : ∀ t : State, (evReset t b).ring k = t.ring k := fun t => State.ring_congr (by simp [evReset]) k
  rw [h, ringResets_ring]
  by_cases e : k / 16 = b
  · rw [if_pos e, if_pos]
    rw [List.any_eq_true]
    exact ⟨k % 16, List.mem_range.mpr (by omega), by simp; omega⟩
  · rw [if_neg e, if_neg]
    simp
    omega

/-- What a function reset leaves of the function (R104). -/
theorem fnReset_fn {s : State} {b : Nat} {busy : Bool} (hi : s.Inv) (hb : b < 64) :
    ∃ g : Fn, (fnReset s b busy).fn b =
      { Fn.reset with flrBusy := busy, withheld := g.withheld, declCmd := g.declCmd, declRes := g.declRes,
                      declId := g.declId, declOver := g.declOver } := by
  unfold fnReset
  dsimp only
  have hk : State.Keeps s (txnRegsReset (txnFnReset (evReset ((List.range 16).foldl (fun s r => ringReset s (16 * b + r)) s) b) b) b) := by
    apply txnRegsReset_keeps
    apply txnFnReset_keeps
    apply evReset_keeps
    exact State.foldl_keeps (fun s a h => ringReset_keeps h) hi.keeps
  exact ⟨_, State.modFn_fn_self (State.lt_fns hk.inv.2 hb)⟩

theorem txnFnReset_host {s : State} {c : Nat} (hc : c < 64) : (txnFnReset s c).host = s.host :=
  txnFnReset_same State.host (fun _ _ h => (congrArg State.host h : _)) (fun _ _ _ => rfl) (fun _ _ _ => rfl) hc

theorem fnReset_host {s : State} {b : Nat} {busy : Bool} (hb : b < 64) : (fnReset s b busy).host = s.host := by
  unfold fnReset txnRegsReset
  dsimp only
  rw [State.modFn_host]
  show (txnFnReset (evReset _ b) b).host = s.host
  rw [txnFnReset_host hb]
  unfold evReset
  simp only [State.modEv_host, State.setReg_host]
  exact State.foldl_same State.host (fun s r => by unfold ringReset; simp)

/-- A function that is ready takes a configuration request (R103). -/
theorem ifConfig_ready {s : State} {b off : Nat} {f : State → State} (h : s.cfgReady b = true) : ifConfig b off f s = f s := by
  unfold State.cfgReady at h
  simp only [Bool.and_eq_true, Bool.not_eq_true'] at h
  obtain ⟨⟨⟨⟨h1, h2⟩, h3⟩, h4⟩, h5⟩ := h
  unfold ifConfig
  simp [h1, h2, h3, h4, h5]

/-- One that is not answers Configuration Request Retry Status and does nothing else (R103, R104). -/
theorem ifConfig_retry {s : State} {b off : Nat} {f : State → State} (h1 : s.fnEn b = true) (h2 : s.host.perst = false)
    (h3 : s.pwr.vinGood = true) (h4 : s.host.ready = false ∨ (s.fn b).flrBusy = true) :
    ifConfig b off f s = s.emit (.configRetry b off) := by
  unfold ifConfig
  rcases h4 with h4 | h4 <;> simp [h1, h2, h3, h4]

theorem mirrorEnded_modes {s : State} {t : Txn} {c : Nat} : (mirrorEnded s t c).modes = s.modes := by
  unfold mirrorEnded
  split
  · exact State.mirror_modes
  · rfl

theorem loseTxn_modes {s : State} {c : Nat} (h : c < 64) : (loseTxn s c).modes = s.modes := by
  unfold loseTxn
  dsimp only
  split
  · rfl
  · rw [if_neg (by omega), if_neg (by omega)]
    exact raiseBoth_modes.trans (mirrorEnded_modes.trans State.modTxn_modes)

theorem txnFnReset_modes {s : State} {b : Nat} (h : b < 64) : (txnFnReset s b).modes = s.modes := by
  unfold txnFnReset
  dsimp only
  split
  · exact State.modTxn_modes
  · exact State.modTxn_modes.trans (loseTxn_modes h)

/-- The reset of one function leaves the Bus Master Enable of another, and whether its own reset runs. -/
theorem fnReset_other {s : State} {b c : Nat} {busy : Bool} (hb : b < 64) (h : c ≠ b) :
    ((fnReset s b busy).fn c).bme = (s.fn c).bme ∧ ((fnReset s b busy).fn c).flrBusy = (s.fn c).flrBusy := by
  unfold fnReset
  dsimp only
  rw [State.modFn_fn_ne h]
  generalize hu : List.foldl (fun s r => ringReset s (16 * b + r)) s (List.range 16) = u
  have hm : u.modes = s.modes := by
    rw [← hu]
    exact State.foldl_same State.modes (fun s r => by
      show State.modes { s.setReg (ringBase (16 * b + r)) _ with rings := _ } = _
      exact (show State.modes { s.setReg (ringBase (16 * b + r)) (s.reg (ringBase (16 * b + r)) &&& 0xFE) with rings := amDel s.rings (16 * b + r) } = (s.setReg (ringBase (16 * b + r)) (s.reg (ringBase (16 * b + r)) &&& 0xFE)).modes from rfl).trans State.setReg_modes)
  have h2 : (txnRegsReset (txnFnReset (evReset u b) b) b).modes = s.modes := by
    show (txnFnReset (evReset u b) b).modes = s.modes
    rw [txnFnReset_modes hb]
    show (State.modEv _ b _).modes = _
    rw [State.modEv_modes, State.setReg_modes, hm]
  exact ⟨State.bme_of_modes h2 c, State.flrBusy_of_modes h2 c⟩

/-- Clearing VF Enable leaves the rings of function 0, its Bus Master Enable, the points, and whether its own reset runs. -/
theorem vfsOff_zero {s : State} (h : s.host.numVfs < 64) : (vfsOff s).points = s.points ∧
    ((vfsOff s).fn 0).bme = (s.fn 0).bme ∧ ((vfsOff s).fn 0).flrBusy = (s.fn 0).flrBusy ∧
    ∀ k, k / 16 = 0 → (vfsOff s).ring k = s.ring k := by
  have key : ∀ (l : List Nat), (∀ i ∈ l, i + 1 < 64) → ∀ s : State,
      (l.foldl (fun s i => fnReset s (i + 1) false) s).points = s.points ∧
      ((l.foldl (fun s i => fnReset s (i + 1) false) s).fn 0).bme = (s.fn 0).bme ∧
      ((l.foldl (fun s i => fnReset s (i + 1) false) s).fn 0).flrBusy = (s.fn 0).flrBusy ∧
      ∀ k, k / 16 = 0 → (l.foldl (fun s i => fnReset s (i + 1) false) s).ring k = s.ring k := by
    intro l
    induction l with
    | nil => intro _ s; exact ⟨rfl, rfl, rfl, fun k _ => rfl⟩
    | cons a l ih =>
      intro hl s
      have ha := hl a List.mem_cons_self
      obtain ⟨h1, h2, h3, h4⟩ := ih (fun i hi => hl i (List.mem_cons_of_mem _ hi)) (fnReset s (a + 1) false)
      obtain ⟨g1, g2⟩ := fnReset_other (s := s) (busy := false) ha (show 0 ≠ a + 1 by omega)
      rw [List.foldl_cons]
      refine ⟨h1.trans (fnReset_points ha), h2.trans g1, h3.trans g2, fun k hk => (h4 k hk).trans ?_⟩
      rw [fnReset_ring ha, if_neg (by omega)]
  exact key (List.range s.host.numVfs) (fun i hi => by have := List.mem_range.mp hi; omega) s

/-- A set bit reads as set. -/
theorem bitN_setBit {w : Word} {i : Nat} (hi : i < 32) : bitN (setBit w i) i = true := by
  unfold bitN setBit
  rw [BitVec.getLsbD_or, BitVec.getLsbD_ofNat]
  simp [hi]

@[simp] theorem State.alert_pair {s : State} {i : Nat} : (s.alert i).pair = s.pair := by
  unfold State.alert
  dsimp only
  split
  · rfl
  · rw [State.sendVec_pair]

@[simp] theorem State.alert_pwr {s : State} {i : Nat} : (s.alert i).pwr = s.pwr := by
  unfold State.alert
  dsimp only
  split
  · rfl
  · rw [State.sendVec_pwr]

@[simp] theorem State.alert_rings {s : State} {i : Nat} : (s.alert i).rings = s.rings := by
  unfold State.alert
  dsimp only
  split
  · rfl
  · rw [State.sendVec_rings]

/-- What waited for a function's DMA leaves its configuration (R529). -/
theorem dmaResumes_modes {s : State} {b : Nat} : (dmaResumes s b).modes = s.modes := by
  unfold dmaResumes
  dsimp only
  have h : ∀ t : State, ((List.range 16).foldl (fun s r => if (amGet s.rings (16 * b + r)).isSome then flushRing s (16 * b + r) else s) t).modes = t.modes :=
    fun t => State.modes_foldl (fun s a => by split; exacts [flushRing_modes, rfl]) rfl
  have h2 : ∀ t : State, (staleIdx t b).modes = t.modes := by
    intro t
    unfold staleIdx
    have h3 : ∀ u : State, ((List.range 16).foldl (fun s r => if (s.ring (16 * b + r)).stale then writeIdx (s.modRing (16 * b + r)
        (fun r => { r with stale := false })) (16 * b + r) else s) u).modes = u.modes :=
      fun u => State.modes_foldl (fun s a => by split; exacts [writeIdx_modes.trans State.modRing_modes, rfl]) rfl
    split
    · rfl
    · dsimp only
      split
      · exact writeEvIdx_modes.trans (State.modEv_modes.trans (h3 t))
      · exact h3 t
  split
  · exact sendPending_modes.trans ((h2 _).trans (State.flushEv_modes.trans (h s)))
  · exact (h2 _).trans (State.flushEv_modes.trans (h s))

/-- Pending vectors that are sent touch no ring. -/
theorem sendPending_ring {s : State} {b k : Nat} : (sendPending s b).ring k = s.ring k :=
  State.ring_congr (State.foldl_same State.rings (fun s a => by simp)) k

/-- A ring that halts (R102). -/
theorem haltRing_ring {s : State} {k cause ck : Nat} {cookies : List Slot}
    (h : (s.ring k).state = .active ∨ (s.ring k).state = .disabling) :
    ((haltRing s k cause cookies ck).ring k).state = .halted ∧
      ((haltRing s k cause cookies ck).ring k).haltCause = cause := by
  unfold haltRing
  rw [if_pos h]
  dsimp only
  generalize (if cookies.isEmpty = true then s else takeFlight s k cookies ck 9) = u
  have ht : ∀ v : State, (trigger v 1).ring k = v.ring k := fun _ => rfl
  rw [ht]
  obtain ⟨a, p, hr⟩ := ringNotify_ring (s := raise (u.modRing k (fun r => { r with state := .halted, haltCause := cause })) (ringFn k) 6 (ringFn k)
    ([BitVec.ofNat 8 (k % 16), BitVec.ofNat 8 cause] ++ bytesLE 2 ((u.modRing k (fun r => { r with state := .halted, haltCause := cause })).ring k).hw)) (k := k) (due := true)
  rw [hr, State.ring_congr raise_rings k, State.modRing_ring_self]
  exact ⟨rfl, rfl⟩

/-- A ring that an error reached halts, and no function's configuration changes (R102). -/
theorem ringFails_ring {s : State} {b r : Nat} {chain : List (BitVec 512)} {int : Bool} (hr : r < 16)
    (h : (s.ring (16 * b + r)).state = .active) :
    ((ringFails s b (some r) chain int).ring (16 * b + r)).state = .halted ∧
      ((ringFails s b (some r) chain int).ring (16 * b + r)).haltCause =
        (if int then 3 else if chain.isEmpty then 1 else 2) := by
  unfold ringFails
  dsimp only
  rw [if_neg (by omega)]
  exact haltRing_ring (Or.inl h)

theorem ringFails_modes {s : State} {b : Nat} {r : Option Nat} {chain : List (BitVec 512)} {int : Bool} :
    (ringFails s b r chain int).modes = s.modes := by
  unfold ringFails
  split
  · split
    · rfl
    · exact haltRing_modes
  · rfl

/-- A logged error is in the function's log (R100). -/
theorem logAer_aer {s : State} {b : Nat} {k : AerKind} (hs : s.shaped = true) (hb : b < 64) :
    k ∈ ((logAer s b k).fn b).aer := by
  unfold logAer
  rw [State.modFn_fn_self (State.lt_fns hs hb)]
  dsimp only
  split
  · rename_i h; simpa using h
  · simp

/-- Event rings read the same where their store is. -/
theorem State.ev_congr {s t : State} (h : t.evs = s.evs) (b : Nat) : t.ev b = s.ev b := by
  unfold State.ev; rw [h]

/-- A vector touches no event ring. -/
theorem State.sendVec_ev {s : State} {b v c : Nat} : (s.sendVec b v).ev c = s.ev c := by
  refine State.ev_congr ?_ c
  unfold State.sendVec
  dsimp only
  split
  · rfl
  · split <;> rfl

/-- State, consumer index and size of an event ring. -/
abbrev EvRing.shape (r : EvRing) : RingState × Nat × Nat := (r.state, r.cons, r.sizeLog2)

/-- Those of every event ring. -/
abbrev State.evShapes (s : State) : Nat → RingState × Nat × Nat := fun b => (s.ev b).shape

theorem State.modEv_evShapes {s : State} {b : Nat} {f : EvRing → EvRing} (hf : ∀ r, (f r).shape = r.shape) :
    (s.modEv b f).evShapes = s.evShapes := by
  funext k
  unfold State.evShapes State.ev State.modEv
  by_cases h : k = b
  · subst h
    dsimp only
    rw [amGet_amSet_self]
    exact hf _
  · dsimp only
    rw [amGet_amSet_ne h]

theorem State.sendVec_evShapes {s : State} {b v : Nat} : (s.sendVec b v).evShapes = s.evShapes := by
  funext k
  exact congrArg EvRing.shape State.sendVec_ev

theorem State.emit_evShapes {s : State} {e : Emission} : (s.emit e).evShapes = s.evShapes := rfl

theorem evNotify_evShapes {s : State} {b : Nat} {due : Bool} : (evNotify s b due).evShapes = s.evShapes := by
  unfold evNotify
  split
  · exact State.sendVec_evShapes.trans (State.modEv_evShapes (fun _ => rfl))
  · rfl

theorem writeEvIdx_evShapes {s : State} {b : Nat} : (writeEvIdx s b).evShapes = s.evShapes := by
  unfold writeEvIdx
  split
  · exact State.emit_evShapes
  · exact State.modEv_evShapes (fun _ => rfl)

/-- Writing the records that wait leaves every event ring's set-up, state and consumer index (R134). -/
theorem pumpEv_evShapes {b : Nat} : ∀ {q : List EvRec} {s : State}, (pumpEv b q s).evShapes = s.evShapes
  | [], _ => rfl
  | _ :: q, s => by
    unfold pumpEv
    dsimp only
    split
    · exact (pumpEv_evShapes (q := q)).trans (evNotify_evShapes.trans
        (writeEvIdx_evShapes.trans ((State.modEv_evShapes
          (f := fun r => { r with hw := (r.hw + 1) % 65536, pend := r.pend + 1, lost := false, queue := q })
          (fun _ => rfl)).trans State.emit_evShapes)))
    · rfl

theorem State.flushEv_evShapes {s : State} {b : Nat} : (s.flushEv b).evShapes = s.evShapes := pumpEv_evShapes

theorem raise_evShapes {s : State} {b k j : Nat} {p : List Byte} : (raise s b k j p).evShapes = s.evShapes := by
  unfold raise
  dsimp only
  split
  · split
    · exact writeEvIdx_evShapes.trans (State.modEv_evShapes (fun r => rfl))
    · exact State.modEv_evShapes (fun r => rfl)
  · exact State.flushEv_evShapes.trans (State.modEv_evShapes (fun _ => rfl))

/-- Event rings of the same shape. -/
theorem State.ev_state_of {s t : State} (h : t.evShapes = s.evShapes) (b : Nat) : (t.ev b).state = (s.ev b).state :=
  congrArg (fun f => (f b).1) h

theorem State.ev_cons_of {s t : State} (h : t.evShapes = s.evShapes) (b : Nat) : (t.ev b).cons = (s.ev b).cons :=
  congrArg (fun f => (f b).2.1) h

theorem State.ev_size_of {s t : State} (h : t.evShapes = s.evShapes) (b : Nat) : (t.ev b).sizeLog2 = (s.ev b).sizeLog2 :=
  congrArg (fun f => (f b).2.2) h

/-- The other module rings read as before. -/
theorem State.modRing_ring_ne {s : State} {k j : Nat} {f : Ring → Ring} (h : j ≠ k) : (s.modRing k f).ring j = s.ring j := by
  simp only [State.modRing, State.ring, amGet_amSet_ne h]

/-- The outcome of a one-descriptor flight is one completion (R131). -/
theorem finish_one {s : State} {k id st : Nat} {tsq late : Bool} {info : Word} {f : Flight} {c : Slot} (hk : k < 1024)
    (hf : (s.ring k).flights.find? (fun f => f.id == id) = some f) (hc : f.cookies = [c])
    (ha : (s.ring k).state ≠ .disabled) (hh : (s.ring k).state ≠ .halted) (he : (s.ring k).held = [])
    (hm : s.mayWrite (ringFn k) = true) :
    finish s k id st tsq late info =
      putCompletion (s.modRing k (fun g => { g with flights := g.flights.filter (fun f => !(f.id == id)) })) k
        { cookie := c, idx := f.idx % 65536, status := st, ckind := f.ckind, tsq := tsq, late := late || f.late,
          info := info } := by
  unfold finish
  rw [if_neg (by omega)]
  simp only [hf, hc, completeAll]
  have hw : (s.modRing k (fun g => { g with flights := g.flights.filter (fun f => !(f.id == id)) })).mayWrite (ringFn k) = true := hm
  simp [complete, State.modRing_ring_self, ha, hh, he, hw]

/-- What taking one descriptor leaves of its ring (R131). -/
theorem takeFlight_ring {s : State} {k ck ch : Nat} {cs : List Slot} (hw : s.mayWrite (ringFn k) = true) : (takeFlight s k cs ck ch).ring k =
    { s.ring k with hw := ((s.ring k).hw + cs.length) % 65536,
                    flights := (s.ring k).flights ++ [{ id := s.serial, idx := (s.ring k).hw, cookies := cs, ckind := ck,
                                                        channel := ch, late := false }] } := by
  unfold takeFlight
  dsimp only
  rw [writeIdx_ring (by exact hw)]
  refine (State.ring_congr (s := s.modRing k (fun r => { r with hw := (r.hw + cs.length) % 65536, flights := r.flights ++ [{ id := s.serial, idx := r.hw, cookies := cs, ckind := ck, channel := ch, late := false }] })) rfl k).trans ?_
  exact State.modRing_ring_self

theorem writeIdx_core_eq {s : State} {k : Nat} (hw : s.mayWrite (ringFn k) = true) : ∃ o, writeIdx s k = { s with out := o } := by
  unfold writeIdx
  rw [if_pos hw]
  exact ⟨_, rfl⟩

/-- The other rings are left alone by the taking of a descriptor. -/
theorem takeFlight_ring_ne {s : State} {k ck ch j : Nat} {cs : List Slot} (h : j ≠ k) :
    (takeFlight s k cs ck ch).ring j = s.ring j := by
  unfold takeFlight
  dsimp only
  rw [writeIdx_ring_ne h]
  unfold State.ring State.modRing
  simp only [amGet_amSet_ne h]

/-- A new flight is found by its number where no older one bears it. -/
theorem find_new {l : List Flight} {f : Flight} (h : ∀ g ∈ l, g.id ≠ f.id) :
    (l ++ [f]).find? (fun g => g.id == f.id) = some f := by
  rw [List.find?_append]
  have : l.find? (fun g => g.id == f.id) = none := by
    rw [List.find?_eq_none]; intro g hg; simpa using h g hg
  rw [this]; simp

/-- A descriptor taken as one flight and finished at once is one completion, and the ring's flights are as before. -/
theorem taken_finish {s u : State} {k ck ch st : Nat} {c : Slot} {late : Bool} {info : Word} (hk : k < 1024)
    (hs : s.mayWrite (ringFn k) = true) (hr : u.ring k = (takeFlight s k [c] ck ch).ring k) (hw : u.mayWrite (ringFn k) = true)
    (hg : u.reg64 (ringBase k + 16) = s.reg64 (ringBase k + 16))
    (hn : ∀ g ∈ (s.ring k).flights, g.id ≠ s.serial) (ha : (s.ring k).state = .active) (he : (s.ring k).held = []) :
    ((finish u k s.serial st false late info).ring k).hw = ((s.ring k).hw + 1) % 65536 ∧
    ((finish u k s.serial st false late info).ring k).cpl = ((s.ring k).cpl + 1) % 65536 ∧
    ((finish u k s.serial st false late info).ring k).flights = (s.ring k).flights ∧
    .memWrite (ringFn k) (s.reg64 (ringBase k + 16) + 16 * ((s.ring k).cpl % (s.ring k).slots))
      (cplBytes (s.ring k) { cookie := c, idx := (s.ring k).hw % 65536, status := st, ckind := ck, tsq := false,
                             late := late, info := info }) ∈ (finish u k s.serial st false late info).out := by
  rw [takeFlight_ring hs] at hr
  have hf : (u.ring k).flights.find? (fun f => f.id == s.serial) =
      some { id := s.serial, idx := (s.ring k).hw, cookies := [c], ckind := ck, channel := ch, late := false } := by
    rw [hr]
    exact find_new (f := { id := s.serial, idx := (s.ring k).hw, cookies := [c], ckind := ck, channel := ch, late := false }) hn
  have hfin := finish_one (st := st) (tsq := false) (late := late) (info := info) hk hf rfl (by rw [hr]; dsimp only; rw [ha]; decide)
    (by rw [hr]; dsimp only; rw [ha]; decide) (by rw [hr]; exact he) hw
  rw [Bool.or_false] at hfin
  rw [hfin]
  obtain ⟨a, p, x, h⟩ := putCompletion_ring (s := u.modRing k (fun g => { g with flights := g.flights.filter (fun f => !(f.id == s.serial)) })) (k := k)
    (c := { cookie := c, idx := (s.ring k).hw % 65536, status := st, ckind := ck, tsq := false, late := late, info := info })
  have h2 := putCompletion_out (s := u.modRing k (fun g => { g with flights := g.flights.filter (fun f => !(f.id == s.serial)) })) (k := k)
    (c := { cookie := c, idx := (s.ring k).hw % 65536, status := st, ckind := ck, tsq := false, late := late, info := info })
  dsimp only
  rw [h]
  rw [State.modRing_ring_self, hr] at h2
  rw [State.modRing_ring_self, hr]
  refine ⟨rfl, rfl, ?_, ?_⟩
  · dsimp only
    rw [List.filter_append]
    have : (s.ring k).flights.filter (fun f => !(f.id == s.serial)) = (s.ring k).flights := by
      rw [List.filter_eq_self]; intro g hg; simpa using hn g hg
    rw [this]; simp
  · have hg' : (u.modRing k (fun g => { g with flights := g.flights.filter (fun f => !(f.id == s.serial)) })).reg64 (ringBase k + 16) = s.reg64 (ringBase k + 16) := hg
    rw [hg'] at h2
    exact h2

theorem writeIdx_misc {s : State} {k : Nat} : ∃ o r, writeIdx s k = { s with out := o, rings := r } := by
  unfold writeIdx
  split
  · exact ⟨_, _, rfl⟩
  · exact ⟨_, _, rfl⟩

theorem takeFlight_misc {s : State} {k ck ch : Nat} {cs : List Slot} : ∃ o r, takeFlight s k cs ck ch =
    { s with out := o, rings := r, serial := s.serial + 1 } := by
  unfold takeFlight
  dsimp only
  obtain ⟨o, r, h⟩ := writeIdx_misc (s := { s.modRing k (fun r => { r with hw := (r.hw + cs.length) % 65536, flights := r.flights ++ [{ id := s.serial, idx := (s.ring k).hw, cookies := cs, ckind := ck, channel := ch, late := false }] }) with serial := s.serial + 1 }) (k := k)
  exact ⟨o, r, h⟩
/-- Ending an entry touches no ring. -/
theorem actRecord_rings {s : State} {t i : Nat} {e : Entry} {o d l sk : Nat} {f : Bool} :
    (actRecord s t i e o d l sk f).rings = s.rings := by
  unfold actRecord
  dsimp only
  split
  · split <;> rfl
  · simp

theorem State.modTbl_rings {s : State} {t : Nat} {f : Table → Table} : (s.modTbl t f).rings = s.rings := by
  unfold State.modTbl; split <;> rfl

/-- A mirror record touches neither the rings nor the host port nor the supply. -/
theorem State.mirror_ports {s : State} {r : MirrorRec} :
    (s.mirror r).rings = s.rings ∧ (s.mirror r).host = s.host ∧ (s.mirror r).pwr = s.pwr := by
  unfold State.mirror; split <;> exact ⟨rfl, rfl, rfl⟩

theorem cancelEntry_rings {s : State} {t i : Nat} {e : Entry} {d : Nat} : (cancelEntry s t i e d).rings = s.rings := by
  unfold cancelEntry
  rw [State.mirror_ports.1, State.modTbl_rings]
  unfold actOutcome
  dsimp only
  split
  · unfold State.modEnt
    rw [State.modTbl_rings, actRecord_rings, State.modTbl_rings]
  · rw [State.modTbl_rings]

theorem State.modTbl_tbl_self {s : State} {f : Table → Table} : (s.modTbl 8 f).tbl 8 = f (s.tbl 8) := rfl

theorem State.tbl8 {s : State} : s.tbl 8 = s.hlist := rfl

/-- A record leaves the hub list. -/
theorem actRecord_hlist {s : State} {t i : Nat} {e : Entry} {o d l sk : Nat} {f : Bool} :
    (actRecord s t i e o d l sk f).hlist = s.hlist := by
  unfold actRecord
  dsimp only
  split
  · split <;> rfl
  · simp

/-- A cancelled entry of the hub list is gone (R243). -/
theorem cancelEntry_hlist {s : State} {i : Nat} {e : Entry} {d : Nat} (h : s.hlist.entries = [(i, e)]) :
    (cancelEntry s 8 i e d).hlist.entries = [] := by
  unfold cancelEntry
  rw [State.mirror_hlist]
  have h1 : ∀ (u : State), (u.modTbl 8 (fun b => { b with entries := amDel b.entries i })).hlist.entries = amDel u.hlist.entries i := fun u => rfl
  rw [h1]
  unfold actOutcome
  dsimp only
  have h2 : ∀ (u : State) (f : Entry → Entry), (u.modEnt 8 i f).hlist.entries = amMod u.hlist.entries i f := fun u f => rfl
  have h3 : ∀ (u : State) (f : Table → Table), (u.modTbl 8 f).hlist = f u.hlist := fun u f => rfl
  split
  · rw [h2, actRecord_hlist, h3]
    dsimp only
    rw [h]
    simp [amMod, amDel]
  · rw [h3]
    dsimp only
    rw [h]
    simp [amDel]

theorem cancelEntry_keepsWrite {s : State} {t i : Nat} {e : Entry} {d b : Nat} :
    (cancelEntry s t i e d).mayWrite b = s.mayWrite b ∧ (cancelEntry s t i e d).regs = s.regs := by
  refine ⟨?_, (congrArg State.regs (cancelEntry_unit : State.unit (cancelEntry s t i e d) = State.unit s) :)⟩
  have hA : ∀ u : State, u.modes = s.modes → u.host = s.host → u.pwr = s.pwr → u.mayWrite b = s.mayWrite b := by
    intro u h1 h2 h3
    unfold State.mayWrite State.mayDma State.fnEn
    rw [State.bme_of_modes h1, State.d3hot_of_modes h1, State.flrBusy_of_modes h1, h2, h3]
  have r1 : ∀ (u : State) (f : Table → Table), (u.modTbl t f).modes = u.modes ∧ (u.modTbl t f).host = u.host ∧ (u.modTbl t f).pwr = u.pwr := by
    intro u f; unfold State.modTbl; split <;> exact ⟨rfl, rfl, rfl⟩
  have r2 : ∀ (u : State) (o d l sk : Nat) (f : Bool), (actRecord u t i e o d l sk f).modes = u.modes ∧
      (actRecord u t i e o d l sk f).host = u.host ∧ (actRecord u t i e o d l sk f).pwr = u.pwr := by
    intro u o d l sk f
    unfold actRecord
    dsimp only
    split
    · split <;> exact ⟨rfl, rfl, rfl⟩
    · exact ⟨raise_modes, raise_host, raise_pwr⟩
  have r3 : ∀ (u : State) (o d l : Nat) (f : Bool), (actOutcome u t i e o d l f).modes = u.modes ∧
      (actOutcome u t i e o d l f).host = u.host ∧ (actOutcome u t i e o d l f).pwr = u.pwr := by
    intro u o d l f
    unfold actOutcome
    dsimp only
    split
    · unfold State.modEnt
      rw [(r1 _ _).1, (r1 _ _).2.1, (r1 _ _).2.2, (r2 _ _ _ _ _ _).1, (r2 _ _ _ _ _ _).2.1, (r2 _ _ _ _ _ _).2.2]
      exact r1 _ _
    · exact r1 _ _
  apply hA
  · unfold cancelEntry; rw [State.mirror_modes, (r1 _ _).1, (r3 _ _ _ _ _).1]
  · unfold cancelEntry; rw [State.mirror_ports.2.1, (r1 _ _).2.1, (r3 _ _ _ _ _).2.1]
  · unfold cancelEntry; rw [State.mirror_ports.2.2, (r1 _ _).2.2, (r3 _ _ _ _ _).2.2]

/-- Registers written at rising offsets leave every other register. -/
theorem setWords_reg_ne {base j : Nat} : ∀ {ws : List Word} {k : Nat} {s : State}, (∀ i, k ≤ i → j ≠ base + 4 * i) →
    ((ws.zipIdx k).foldl (fun s p => s.setReg (base + 4 * p.2) p.1) s).reg j = s.reg j
  | [], _, _, _ => rfl
  | w :: ws, k, s, h => by
    rw [List.zipIdx_cons, List.foldl_cons, setWords_reg_ne (fun i hi => h i (by omega))]
    exact State.reg_setReg_ne (h k (Nat.le_refl _))

/-- Registers written at rising offsets read as written. -/
theorem setWords_reg {base : Nat} {ws : List Word} : ∀ {k i : Nat} {s : State} (h : i < ws.length),
    ((ws.zipIdx k).foldl (fun s p => s.setReg (base + 4 * p.2) p.1) s).reg (base + 4 * (k + i)) = ws[i] := by
  induction ws with
  | nil => intro k i s h; exact absurd h (Nat.not_lt_zero _)
  | cons w ws ih =>
    intro k i s h
    rw [List.zipIdx_cons, List.foldl_cons]
    cases i with
    | zero => rw [setWords_reg_ne (fun i hi => by omega)]; exact State.reg_setReg_self
    | succ i =>
      rw [show k + (i + 1) = k + 1 + i by omega, ih (by simpa using h)]
      rfl

@[simp] theorem State.mirror_fns {s : State} {r : MirrorRec} : (s.mirror r).fns = s.fns := by
  unfold State.mirror; split <;> rfl

/-- What a command answers in DECLSTAT. -/
theorem declDone_fn {s : State} {fn r id : Nat} (hs : s.shaped = true) (hf : fn < 64) :
    (declDone s fn r id).fn fn = { s.fn fn with declCmd := 0, declRes := r, declId := id } := by
  unfold declDone
  exact State.modFn_fn_self (State.lt_fns hs hf)

/-- What `State.Keeps` says holds at the start. -/
theorem State.Keeps.self {s : State} (h : s.Inv) : s.Keeps s :=
  ⟨h, rfl, rfl, Nat.le_refl _, Nat.le_refl _, Nat.le_refl _, Nat.le_refl _, rfl⟩

/-- Storing a register changes the register store alone. -/
theorem State.setReg_eq {s : State} {k : Nat} {w : Word} : ∃ m, s.setReg k w = { s with regs := m } := by
  unfold State.setReg; split <;> exact ⟨_, rfl⟩

/-- Filling the declaration buffer changes registers alone. -/
theorem setDeclBuf_eq {fn : Nat} {ws : List Word} {s : State} : ∃ m, setDeclBuf s fn ws = { s with regs := m } := by
  unfold setDeclBuf
  generalize ws.zipIdx = l
  induction l generalizing s with
  | nil => exact ⟨_, rfl⟩
  | cons a l ih =>
    rw [List.foldl_cons]
    obtain ⟨m, hm⟩ := State.setReg_eq (s := s) (k := fn * 0x1000000 + 0x40000 + 4 * a.2) (w := a.1)
    rw [hm]
    exact ih (s := { s with regs := m })

/-- What a store lists after a key is set. -/
theorem amSet_mem {α : Type} {k : Nat} {v : α} {p : Nat × α} : ∀ {m : AMap α}, p ∈ amSet m k v → p = (k, v) ∨ p ∈ m
  | [], h => by simpa [amSet] using h
  | q :: m, h => by
    unfold amSet at h
    split at h
    · rcases List.mem_cons.mp h with h | h
      · exact .inl h
      · exact .inr h
    · split at h
      · rcases List.mem_cons.mp h with h | h
        · exact .inl h
        · exact .inr (List.mem_cons_of_mem _ h)
      · rcases List.mem_cons.mp h with h | h
        · exact .inr (by rw [h]; exact List.mem_cons_self)
        · rcases amSet_mem h with h | h
          · exact .inl h
          · exact .inr (List.mem_cons_of_mem _ h)

/-- Subscriptions follow the loops: only points and channels change. -/
theorem resubscribe_rest {s : State} : ∃ p c, resubscribe s = { s with points := p, chs := c } := by
  have h : ({ resubscribe s with points := [], chs := [] } : State) = { s with points := [], chs := [] } := by
    unfold resubscribe
    refine State.foldl_same (fun u : State => ({ u with points := [], chs := [] } : State)) (fun u a => ?_)
    have key : ∀ (p : Point) (v : BitVec 8), ({ (if v = p.subs then u else
        (List.range 8).foldl (fun (s : State) n =>
          if v.getLsbD n && !p.subs.getLsbD n && p.mir.seq ≠ 0 then
            s.modCh n (fun c => { c with ingress := c.ingress ++ [{ handle := a, tag := p.owner, m := p.mir, resent := true }] })
          else if !v.getLsbD n && p.subs.getLsbD n then s.modCh n (fun c => { c with inputs := amDel c.inputs a })
          else s) (u.modPt a (fun p => { p with subs := v }))) with points := [], chs := [] } : State) = { u with points := [], chs := [] } := by
      intro p v
      split
      · rfl
      · refine (State.foldl_same (fun u : State => ({ u with points := [], chs := [] } : State)) (fun u n => ?_)).trans ?_
        · split
          · rfl
          · split <;> rfl
        · rfl
    split
    · rfl
    · exact key _ _
  have h2 := congrArg (fun u : State => ({ u with points := (resubscribe s).points, chs := (resubscribe s).chs } : State)) h
  exact ⟨(resubscribe s).points, (resubscribe s).chs, h2⟩

/-- Without another transaction under way there is no conflict (R85). -/
theorem conflicts_alone {s : State} {c : Nat} (ha : (s.txn c).applied = [])
    (h : ∀ o ∈ s.txns, o.1 ≠ c → o.2.state ≠ .preparing ∧ o.2.state ≠ .pending) : conflicts s c = false := by
  unfold conflicts
  rw [List.any_eq_false]
  intro e _
  rw [ha]
  simp only [List.contains_nil, Bool.false_or]
  rw [Bool.not_eq_true, List.any_eq_false]
  intro o ho
  by_cases hc : o.1 = c
  · simp [hc]
  · simp [h o ho hc]

/-- What a channel update leaves of every channel reads as before. -/
theorem State.modCh_field {α : Type} (g : Chan → α) {s : State} {n m : Nat} {f : Chan → Chan}
    (hf : ∀ c, g (f c) = g c) : g ((s.modCh n f).ch m) = g (s.ch m) := by
  unfold State.modCh State.ch
  simp only [List.getD_eq_getElem?_getD, List.getElem?_modify]
  cases s.chs[m]? with
  | none => rfl
  | some c =>
    simp only [Option.map_some, Option.getD_some]
    split
    · exact hf c
    · rfl

/-- A slot in use, changed, reads as changed. -/
theorem State.modSlot_slotRt {s : State} {n d : Nat} {f : LoopRt → LoopRt} {r : LoopRt} (hn : n < s.chs.length)
    (hr : amGet (s.ch n).slots d = some r) : (s.modSlot n d f).slotRt n d = f r := by
  unfold State.slotRt State.modSlot
  rw [State.modCh_ch_self hn]
  dsimp only
  rw [amGet_amMod_self, hr]
  rfl

/-- Subscriptions of the channels to points leave the loop slots. -/
theorem resubscribe_slots {s : State} {m : Nat} : ((resubscribe s).ch m).slots = (s.ch m).slots := by
  unfold resubscribe
  refine State.foldl_same (fun s => (s.ch m).slots) ?_
  intro s h
  split
  · rfl
  · rename_i p _
    dsimp only
    generalize (if p.inEffect = true then wantSubs s h else 0) = v
    split
    · rfl
    · refine (State.foldl_same (fun s => (s.ch m).slots) ?_).trans rfl
      intro s n
      split
      · exact State.modCh_field Chan.slots (fun _ => rfl)
      · split
        · exact State.modCh_field Chan.slots (fun _ => rfl)
        · rfl
/-- The directory shows the points with what runs them, who holds passes over them, and nothing else. -/
theorem dirImage_congr {s t : State} (hp : s.points = t.points) (hm : s.ws.migrations = t.ws.migrations)
    (hl : s.ws.loops = t.ws.loops) (hh : s.ws.passes = t.ws.passes) : dirImage s = dirImage t := by
  unfold dirImage dirWord State.dirPlace State.holders
  rw [hp, hm, hl, hh]

/-- A time record sets its interrupt bit and no other register (R221). -/
theorem timeRec_parts {s : State} {i : Nat} {p : List Byte} : (timeRec s i p).time = s.time ∧
    (timeRec s i p).points = s.points ∧ (timeRec s i p).chs = s.chs ∧ (timeRec s i p).ws = s.ws ∧
    ∀ j, j ≠ 0x50060 → (timeRec s i p).reg j = s.reg j := by
  unfold timeRec State.intBit
  dsimp only
  have h : ∀ (u : State) (j : Nat) (w : Word), j ≠ 0x50060 → (u.setReg 0x50060 w).reg j = u.reg j :=
    fun u j w hj => State.reg_setReg_ne hj
  split
  · refine ⟨by simp, by simp, by simp, by simp, fun j hj => ?_⟩
    rw [State.sendVec_reg, h _ _ _ hj, raise_reg]
  · refine ⟨by simp, by simp, by simp, by simp, fun j hj => ?_⟩
    rw [h _ _ _ hj, raise_reg]

/-- What a sample leaves of the servo before it acts (R201). -/
theorem lockSample_time {s : State} {e : Int} : ∃ lk lc uc, (lockSample s e).time =
    { s.time with offset := satS32 e, locked := lk, lockCnt := lc, unlockCnt := uc } := by
  unfold lockSample
  dsimp only
  generalize hu : State.modTime s _ = u
  have h : ∃ lk lc uc, u.time = { s.time with offset := satS32 e, locked := lk, lockCnt := lc, unlockCnt := uc } := by
    rw [← hu]; exact ⟨_, _, _, rfl⟩
  obtain ⟨_, _, _, h⟩ := h
  split
  · rw [timeRec_parts.1]
    show ∃ lk lc uc, { u.time with locked := true } = _
    rw [h]; exact ⟨_, _, _, rfl⟩
  · split
    · unfold clearLocked
      split
      · rw [timeRec_parts.1]
        show ∃ lk lc uc, { u.time with locked := false } = _
        rw [h]; exact ⟨_, _, _, rfl⟩
      · rw [h]; exact ⟨_, _, _, rfl⟩
    · rw [h]; exact ⟨_, _, _, rfl⟩

theorem clearLocked_parts {s : State} : (∃ lk, (clearLocked s).time = { s.time with locked := lk }) ∧
    ∀ j, j ≠ 0x50060 → (clearLocked s).reg j = s.reg j := by
  unfold clearLocked
  split
  · rw [timeRec_parts.1]
    exact ⟨⟨_, rfl⟩, fun j hj => timeRec_parts.2.2.2.2 j hj⟩
  · exact ⟨⟨_, rfl⟩, fun _ _ => rfl⟩

theorem lockSample_reg {s : State} {e : Int} {j : Nat} (hj : j ≠ 0x50060) : (lockSample s e).reg j = s.reg j := by
  unfold lockSample
  dsimp only
  generalize hu : State.modTime s _ = u
  have h : u.reg j = s.reg j := by rw [← hu]; rfl
  split
  · rw [timeRec_parts.2.2.2.2 j hj]; exact h
  · split
    · rw [clearLocked_parts.2 j hj]; exact h
    · exact h

/-- The servo tracks a small sample (R199). -/
theorem takeSample_track {s : State} {e : Int} (hs : s.time.step = none) (ht : s.time.servo = .track)
    (hb : e.natAbs < stepThr s) : (takeSample s e).time.offset = satS32 e ∧ (takeSample s e).time.step = none ∧
    (takeSample s e).time.integ = clampF s (s.time.integ - gainTerm e (gain s 0x5004C 0x20000)) ∧
    (takeSample s e).time.adj = clampF s ((takeSample s e).time.integ - gainTerm e (gain s 0x50048 0x220000)) ∧
    (takeSample s e).time.cls = s.time.cls := by
  obtain ⟨lk, lc, uc, h1⟩ := lockSample_time (s := s) (e := e)
  have h2 : ∀ j, j ≠ 0x50060 → (lockSample s e).reg j = s.reg j := fun j hj => lockSample_reg hj
  unfold takeSample
  simp only [hs, Option.isSome_none, Bool.false_eq_true, if_false]
  generalize lockSample s e = u at h1 h2 ⊢
  have hst : stepThr u = stepThr s := by unfold stepThr; rw [h2 _ (by decide)]
  have hbig : decide (stepThr u ≤ e.natAbs) = false := by rw [hst]; simpa using hb
  simp only [hbig, Bool.false_and, Bool.and_false, Bool.false_eq_true, if_false]
  have hsv : (u.modTime (fun t => { t with overCnt := 0 })).time.servo = .track := by
    show u.time.servo = _
    rw [h1]; exact ht
  have hex : u.expertAt 0x50000 = s.expertAt 0x50000 := by unfold State.expertAt; rw [h2 _ (by decide)]
  have hf : ∀ x, clampF (u.modTime (fun t => { t with overCnt := 0 })) x = clampF s x := by
    intro x
    show clampF u x = _
    unfold clampF fmaxUnits; rw [h2 _ (by decide)]
  have hg : ∀ k b, k ≠ 0x50060 → gain (u.modTime (fun t => { t with overCnt := 0 })) k b = gain s k b := by
    intro k b hk
    show gain u k b = _
    unfold gain; rw [hex, h2 _ hk, h1]
  have hwt : (u.modTime (fun t => { t with overCnt := 0 })).time = { u.time with overCnt := 0 } := rfl
  generalize u.modTime (fun t => { t with overCnt := 0 }) = w at hsv hf hg hwt ⊢
  unfold servoSample
  simp only [hsv]
  dsimp only [State.modTime]
  rw [hf, hf, hg _ _ (by decide), hg _ _ (by decide), hwt, h1]
  exact ⟨rfl, hs, rfl, rfl, rfl⟩

theorem timeGone_clock {s : State} {w c : Nat} : (timeGone s w c).time = s.time := by
  unfold timeGone
  dsimp only
  have h : ∀ u : State, (u.alert 5).time = u.time := fun u => State.alert_clock
  rw [h, timeRec_parts.1]
  exact disarm_clock.trans (passesInvalid_clock.trans txnNoTime_clock)

/-- A change of CLASS leaves the counters and the servo's rate (R195). -/
theorem setClass_time {s : State} {n c : Nat} : ∃ v lk lc uc oc sl, (setClass s n c).time =
    { s.time with cls := n, servo := v, locked := lk, lockCnt := lc, unlockCnt := uc, overCnt := oc, syncL := sl } := by
  unfold setClass
  dsimp only
  split
  · rename_i h; subst h; exact ⟨_, _, _, _, _, _, rfl⟩
  · generalize hu : State.modTime s _ = u
    have h : ∃ v lk lc uc oc sl, u.time = { s.time with cls := n, servo := v, locked := lk, lockCnt := lc, unlockCnt := uc, overCnt := oc, syncL := sl } := by
      rw [← hu]; exact ⟨_, _, _, _, _, _, rfl⟩
    obtain ⟨v, lk, lc, uc, oc, sl, h⟩ := h
    generalize hw : clearLocked _ = w
    have h2 : ∃ lk, w.time = { u.time with locked := lk } := by
      rw [← hw]
      obtain ⟨lk, e⟩ := (clearLocked_parts (s := timeRec u.tick1 1 _)).1
      rw [timeRec_parts.1] at e
      exact ⟨lk, e⟩
    obtain ⟨lk2, h2⟩ := h2
    have h3 : ∃ v lk lc uc oc sl, w.time = { s.time with cls := n, servo := v, locked := lk, lockCnt := lc, unlockCnt := uc, overCnt := oc, syncL := sl } := by
      rw [h2, h]; exact ⟨_, _, _, _, _, _, rfl⟩
    split
    · rw [show (timeGained w).time = w.time from timeGained_clock]; exact h3
    · split
      · rw [timeGone_clock]; exact h3
      · exact h3

/-- What a beacon's offset leaves in a channel (R208). -/
theorem chanLock_tb {s : State} {n : Nat} {e : Int} (hn : n < s.chs.length) : ∃ lk lc uc,
    ((chanLock s n e).ch n).tb = { (s.ch n).tb with offset := e, locked := lk, lockCnt := lc, unlockCnt := uc } ∧
    (chanLock s n e).points = s.points ∧ ((chanLock s n e).ch n).relock = (s.ch n).relock ∧
    (chanLock s n e).chs.length = s.chs.length := by
  unfold chanLock
  dsimp only
  generalize hu : State.modCh s n _ = u
  have hul : n < u.chs.length := by rw [← hu, State.modCh_length]; exact hn
  have hlen : u.chs.length = s.chs.length := by rw [← hu, State.modCh_length]
  have hup : u.points = s.points := by rw [← hu]; rfl
  have hur : (u.ch n).relock = (s.ch n).relock := by rw [← hu]; exact State.modCh_field Chan.relock (fun c => rfl)
  have h : ∃ lk lc uc, (u.ch n).tb = { (s.ch n).tb with offset := e, locked := lk, lockCnt := lc, unlockCnt := uc } := by
    rw [← hu, State.modCh_ch_self hn]; exact ⟨_, _, _, rfl⟩
  obtain ⟨lk, lc, uc, h⟩ := h
  split
  · rw [State.modCh_ch_self hul, h]; exact ⟨_, _, _, rfl, hup, hur, by simpa using hlen⟩
  · split
    · have h1 := (timeRec_parts (s := u.modCh n (fun c => { c with tb := { c.tb with locked := false } })) (i := 5)
        (p := [BitVec.ofNat 8 n, 0, 0, 0] ++ offsetBytes e))
      have h2 : ∀ m, State.ch (timeRec (u.modCh n (fun c => { c with tb := { c.tb with locked := false } })) 5
          ([BitVec.ofNat 8 n, 0, 0, 0] ++ offsetBytes e)) m = (u.modCh n (fun c => { c with tb := { c.tb with locked := false } })).ch m := by
        intro m; unfold State.ch; rw [h1.2.2.1]
      rw [h2, h1.2.1, h1.2.2.1, State.modCh_ch_self hul, h]
      exact ⟨_, _, _, rfl, hup, hur, by simpa using hlen⟩
    · exact ⟨_, _, _, h, hup, hur, hlen⟩

/-- A channel counts its ticks and touches nothing beside its timebase (R193). -/
theorem chanTicks_field {α : Type} (g : Chan → α) (hg : ∀ c tb, g { c with tb := tb } = g c) {s : State} {n k m : Nat} :
    g ((chanTicks s n k).ch m) = g (s.ch m) := State.modCh_field g (fun c => hg c _)

/-- A table update leaves what a channel holds beside its table. -/
theorem State.modTbl_field {α : Type} (g : Chan → α) (hg : ∀ c tb, g { c with table := tb } = g c) {s : State} {t m : Nat}
    {f : Table → Table} : g ((s.modTbl t f).ch m) = g (s.ch m) := by
  unfold State.modTbl
  split
  · exact State.modCh_field g (fun c => hg c _)
  · rfl

theorem stepChannel_field {α : Type} (g : Chan → α) (hg : ∀ c tb, g { c with tb := tb } = g c)
    (hh : ∀ c tb, g { c with table := tb } = g c) {s : State} {n m : Nat} {y : Instant} :
    g ((stepChannel s n y).ch m) = g (s.ch m) := by
  unfold stepChannel tableStepped
  dsimp only
  split
  · unfold actSteppedBack
    rw [State.modTbl_field g hh]; exact State.modCh_field g (fun c => hg c _)
  · exact State.modCh_field g (fun c => hg c _)

theorem chanRun_field {α : Type} (g : Chan → α) (hg : ∀ c tb, g { c with tb := tb } = g c)
    (hh : ∀ c tb, g { c with table := tb } = g c) {s : State} {n k m : Nat} : g ((chanRun s n k).ch m) = g (s.ch m) := by
  unfold chanRun
  dsimp only
  split
  · split
    · rw [chanTicks_field g hg, stepChannel_field g hg hh, chanTicks_field g hg]
    · exact chanTicks_field g hg
  · exact chanTicks_field g hg

theorem runTicks_eq {k : Nat} {s : State} : ∃ u l, runTicks k s = (List.foldl
    (fun (s : State) c => if s.present c then chanRun s c (Config.channelTicks s.free c k) else s) u l).tick1 ∧
    u.chs = s.chs ∧ u.ident = s.ident ∧ u.points = s.points ∧ ∃ a b, u.time = { s.time with now := a, frac := b } := by
  have h : ∃ a b j, runTicks k s = (List.foldl
      (fun (s : State) c => if s.present c then chanRun s c (Config.channelTicks s.free c k) else s)
      { s.modTime (fun t => { t with now := a, frac := b }) with ticks := j } (List.range 8)).tick1 :=
    ⟨(advance s.time.now s.time.frac k s.time.incr).1, (advance s.time.now s.time.frac k s.time.incr).2, s.ticks + k, rfl⟩
  obtain ⟨a, b, j, h⟩ := h
  exact ⟨_, List.range 8, h, rfl, rfl, rfl, a, b, rfl⟩

/-- Ticks of the hub leave what a channel holds beside its timebase and its table (R193, R204). -/
theorem runTicks_field {α : Type} (g : Chan → α) (hg : ∀ c tb, g { c with tb := tb } = g c)
    (hh : ∀ c tb, g { c with table := tb } = g c) {s : State} {k m : Nat} : g ((runTicks k s).ch m) = g (s.ch m) := by
  obtain ⟨u, l, h, hc, -⟩ := runTicks_eq (k := k) (s := s)
  rw [h]
  show g (State.ch (List.foldl _ u l) m) = _
  rw [State.foldl_same (fun s => g (s.ch m)) (fun s c => by split; exact chanRun_field g hg hh; rfl)]
  unfold State.ch; rw [hc]

theorem State.modTbl_rest {s : State} {t : Nat} {f : Table → Table} : (s.modTbl t f).chs.length = s.chs.length ∧
    (s.modTbl t f).ident = s.ident ∧ (s.modTbl t f).points = s.points ∧ (s.modTbl t f).time = s.time := by
  unfold State.modTbl
  split
  · exact ⟨by simp, rfl, rfl, rfl⟩
  · exact ⟨rfl, rfl, rfl, rfl⟩

/-- A channel's step changes no number of channels, no point and no hub time (R204). -/
theorem stepChannel_rest {s : State} {n : Nat} {y : Instant} : (stepChannel s n y).chs.length = s.chs.length ∧
    (stepChannel s n y).ident = s.ident ∧ (stepChannel s n y).points = s.points ∧ (stepChannel s n y).time = s.time := by
  unfold stepChannel tableStepped
  dsimp only
  split
  · unfold actSteppedBack
    exact ⟨State.modTbl_rest.1.trans (by simp), State.modTbl_rest.2.1, State.modTbl_rest.2.2.1, State.modTbl_rest.2.2.2⟩
  · exact ⟨by simp, rfl, rfl, rfl⟩

theorem chanRun_rest {s : State} {n k : Nat} : (chanRun s n k).chs.length = s.chs.length ∧
    (chanRun s n k).ident = s.ident ∧ (chanRun s n k).points = s.points ∧ (chanRun s n k).time = s.time := by
  have h : ∀ (u : State) (k : Nat), (chanTicks u n k).chs.length = u.chs.length ∧ (chanTicks u n k).ident = u.ident ∧
      (chanTicks u n k).points = u.points ∧ (chanTicks u n k).time = u.time :=
    fun u k => ⟨by unfold chanTicks; simp, rfl, rfl, rfl⟩
  unfold chanRun
  dsimp only
  split
  · split
    · simp only [h, stepChannel_rest, and_self]
    · exact h s k
  · exact h s k

/-- Ticks of the hub advance its counter and change nothing else of the hub timebase (R192). -/
theorem runTicks_rest {s : State} {k : Nat} : (∃ a b, (runTicks k s).time = { s.time with now := a, frac := b }) ∧
    (runTicks k s).chs.length = s.chs.length ∧ (runTicks k s).ident = s.ident ∧ (runTicks k s).points = s.points := by
  obtain ⟨u, l, e, e1, e2, e3, a, b, e4⟩ := runTicks_eq (k := k) (s := s)
  rw [e]
  have h : ∀ (u : State) (l : List Nat),
      (l.foldl (fun s c => if s.present c then chanRun s c (Config.channelTicks s.free c k) else s) u).chs.length =
        u.chs.length ∧
      (l.foldl (fun s c => if s.present c then chanRun s c (Config.channelTicks s.free c k) else s) u).ident = u.ident ∧
      (l.foldl (fun s c => if s.present c then chanRun s c (Config.channelTicks s.free c k) else s) u).points = u.points ∧
      (l.foldl (fun s c => if s.present c then chanRun s c (Config.channelTicks s.free c k) else s) u).time = u.time := by
    intro u l
    induction l generalizing u with
    | nil => exact ⟨rfl, rfl, rfl, rfl⟩
    | cons a l ih =>
      rw [List.foldl_cons]
      have hi := ih (if u.present a then chanRun u a (Config.channelTicks u.free a k) else u)
      have hs : ∀ w : State, w = (if u.present a then chanRun u a (Config.channelTicks u.free a k) else u) →
          w.chs.length = u.chs.length ∧ w.ident = u.ident ∧ w.points = u.points ∧ w.time = u.time := by
        rintro w rfl; split
        · exact chanRun_rest
        · exact ⟨rfl, rfl, rfl, rfl⟩
      have hs := hs _ rfl
      exact ⟨hi.1.trans hs.1, hi.2.1.trans hs.2.1, hi.2.2.1.trans hs.2.2.1, hi.2.2.2.trans hs.2.2.2⟩
  have h := h u l
  exact ⟨⟨a, b, h.2.2.2.trans e4⟩, h.1.trans (congrArg List.length e1), h.2.1.trans e2, h.2.2.1.trans e3⟩

theorem runTicks_present {k n : Nat} {s : State} : (runTicks k s).present n = s.present n := by
  unfold State.present State.fitted
  rw [runTicks_field Chan.state (fun _ _ => rfl) (fun _ _ => rfl), runTicks_rest.2.2.1]

/-- A relock leaves the timebase of every channel, and ends once 64 beacons lock the channel (R32, R208). -/
theorem relockCheck_tb {s : State} {n : Nat} (hn : n < s.chs.length) : (∀ m, ((relockCheck s n).ch m).tb = (s.ch m).tb) ∧
    ((relockCheck s n).ch n).relock = ((s.ch n).relock && !decide (64 ≤ (s.ch n).tb.lockCnt)) ∧
    ((s.ch n).relock = false → relockCheck s n = s) := by
  unfold relockCheck
  split
  · rename_i h
    simp only [Bool.and_eq_true, decide_eq_true_eq] at h
    dsimp only
    have hb : ∀ u : State, (releaseRecs (if u.standby then u else resendAll u n) n).bodies = u.bodies := by
      intro u
      rw [releaseRecs_bodies]; split
      · rfl
      · exact resendAll_bodies
    refine ⟨fun m => ?_, ?_, ?_⟩
    · rw [State.ch_of_bodies Chan.tb (fun _ => rfl) (hb _) m]
      exact State.modCh_field Chan.tb (fun c => rfl)
    · rw [State.ch_of_bodies Chan.relock (fun _ => rfl) (hb _) n, State.modCh_ch_self hn, h.1]
      simp [h.2]
    · intro h2; rw [h.1] at h2; cases h2
  · rename_i h
    refine ⟨fun _ => rfl, ?_, fun _ => rfl⟩
    cases hr : (s.ch n).relock <;> simp [hr] at h ⊢; omega

/-- The servo of a channel, on a beacon within the step threshold (R208). -/
theorem chanServo_small {s : State} {n : Nat} {b : Beacon} {e : Int} (h : e.natAbs ≤ 1000) : chanServo s n b e =
    s.modCh n (fun c => { c with tb := { c.tb with
      integ := clampChan ((s.ch n).tb.integ - gainTerm e Config.channelKi),
      adj := clampChan (clampChan ((s.ch n).tb.integ - gainTerm e Config.channelKi) - gainTerm e Config.channelKp) } }) := by
  unfold chanServo
  dsimp only
  rw [if_neg (by omega)]

/-- An outcome record leaves what a channel holds beside its held records. -/
theorem actRecord_field {α : Type} (g : Chan → α) (hh : ∀ c l, g { c with heldRecs := l } = g c) {s : State}
    {t i o d l sk m : Nat} {e : Entry} {f : Bool} : g ((actRecord s t i e o d l sk f).ch m) = g (s.ch m) := by
  unfold actRecord
  dsimp only
  split
  · split
    · exact State.modCh_field g (fun c => hh c _)
    · rfl
  · rw [raise_ch]

theorem actOutcome_field {α : Type} (g : Chan → α) (hg : ∀ c tb, g { c with table := tb } = g c)
    (hh : ∀ c l, g { c with heldRecs := l } = g c) {s : State} {t i o d l m : Nat} {e : Entry} {f : Bool} :
    g ((actOutcome s t i e o d l f).ch m) = g (s.ch m) := by
  unfold actOutcome
  dsimp only
  split
  · unfold State.modEnt
    rw [State.modTbl_field g hg, actRecord_field g hh, State.modTbl_field g hg]
  · exact State.modTbl_field g hg

theorem cancelEntry_field {α : Type} (g : Chan → α) (hg : ∀ c tb, g { c with table := tb } = g c)
    (hh : ∀ c l, g { c with heldRecs := l } = g c) {s : State} {t i d m : Nat} {e : Entry} :
    g ((cancelEntry s t i e d).ch m) = g (s.ch m) := by
  unfold cancelEntry
  rw [State.mirror_ch, State.modTbl_field g hg, actOutcome_field g hg hh]

theorem occOutcome_field {α : Type} (g : Chan → α) (hg : ∀ c tb, g { c with table := tb } = g c)
    (hh : ∀ c l, g { c with heldRecs := l } = g c) {s : State} {t i o d l m : Nat} {e : Entry} {f : Bool} :
    g ((occOutcome s t i e o d l f).ch m) = g (s.ch m) := by
  unfold occOutcome
  dsimp only
  split
  · unfold endEntry State.modEnt
    split
    · rw [State.modTbl_field g hg, actOutcome_field g hg hh]
    · rw [State.mirror_ch, State.modTbl_field g hg, actOutcome_field g hg hh]
  · exact actOutcome_field g hg hh

/-- The other outputs are as before. -/
theorem State.modDout_dout_ne {s : State} {n d c : Nat} {f : Dout → Dout} (hn : n < s.chs.length) (h : c ≠ d) :
    (s.modDout n d f).dout n c = s.dout n c := by
  unfold State.modDout State.dout
  rw [State.modDio_dio_self hn]
  simp [List.getD_eq_getElem?_getD, List.getElem?_modify, Ne.symm h]

/-- A latch leaves the other outputs, and how many there are (R368). -/
theorem latchDout_ne {s : State} {n d c : Nat} {v : Bool} {stamp : Instant} (hn : n < s.chs.length) (h : c ≠ d) :
    (latchDout s n d v stamp).dout n c = s.dout n c ∧
    ((latchDout s n d v stamp).dio n).dout.length = (s.dio n).dout.length := by
  unfold latchDout doutAcquire
  dsimp only
  constructor
  · rw [State.dout, acquireTerm_dio, ← State.dout, State.modDout_dout_ne (by simpa using hn) h,
      State.modDout_dout_ne hn h]
  · rw [acquireTerm_dio, State.modDout, State.modDio_dio_self (by simpa using hn), State.modDout,
      State.modDio_dio_self hn]
    simp

theorem latchDout_len {s : State} {n d : Nat} {v : Bool} {stamp : Instant} (hn : n < s.chs.length) :
    n < (latchDout s n d v stamp).chs.length ∧
    ((latchDout s n d v stamp).dio n).dout.length = (s.dio n).dout.length := by
  refine ⟨?_, (latchDout_ne (c := d + 1) hn (by omega)).2⟩
  rw [State.chs_length_of_links latchDout_links]; exact hn

/-- The outputs an entry names take their states (R233). -/
theorem fireDouts_cmd {n : Nat} {mask value : BitVec 8} {st : Nat → Bool → Instant} {d : Nat} {s : State}
    (hn : n < s.chs.length) (hl : (s.dio n).dout.length = 8) (hd : d < 8) (hm : mask.getLsbD d = true) :
    ((fireDouts s n mask value st).dout n d).cmd = value.getLsbD d := by
  unfold fireDouts
  have gen : ∀ (l : List Nat) (s : State), n < s.chs.length → (s.dio n).dout.length = 8 → (∀ x ∈ l, x < 8) →
      (d ∈ l ∨ (s.dout n d).cmd = value.getLsbD d) →
      ((l.foldl (fun s d => let v := value.getLsbD d
        if mask.getLsbD d && (s.dout n d).cmd ≠ v then driveDout s n d v (st d v) else s) s).dout n d).cmd =
        value.getLsbD d := by
    intro l
    induction l with
    | nil => intro s _ _ _ h; rcases h with h | h; exact absurd h List.not_mem_nil; exact h
    | cons a l ih =>
      intro s hn hl hx h
      rw [List.foldl_cons]
      have hla := latchDout_len (s := s) (n := n) (d := a) (v := value.getLsbD a) (stamp := st a (value.getLsbD a)) hn
      have hdio : ∀ v x, (driveDout s n a v x).dio n = (latchDout s n a v x).dio n := by
        intro v x; unfold driveDout State.dio; rw [State.mirror_ch]
      have hdout : ∀ v x c, (driveDout s n a v x).dout n c = (latchDout s n a v x).dout n c := by
        intro v x c; unfold State.dout; rw [hdio]
      apply ih
      · dsimp only
        split
        · unfold driveDout; rw [State.mirror_chs]; exact hla.1
        · exact hn
      · dsimp only
        split
        · rw [hdio, hla.2]; exact hl
        · exact hl
      · exact fun x h => hx x (List.mem_cons_of_mem _ h)
      · by_cases ha : a = d
        · right
          subst ha
          dsimp only
          split
          · rw [hdout]; exact latchDout_cmd hn (by rw [hl]; exact hx a List.mem_cons_self)
          · rename_i hc
            simpa [hm] using hc
        · rcases h with h | h
          · left; exact (List.mem_cons.mp h).resolve_left (fun e => ha e.symm)
          · right
            dsimp only
            split
            · rw [hdout, (latchDout_ne hn (fun e => ha e.symm)).1]; exact h
            · exact h
  exact gen (List.range 8) s hn hl (fun x h => List.mem_range.mp h) (.inl (List.mem_range.mpr hd))

/-- Storing a register leaves every slot's runtime state. -/
theorem State.setReg_slotRt {s : State} {k n d : Nat} {w : Word} : (s.setReg k w).slotRt n d = s.slotRt n d := by
  unfold State.slotRt State.ch; rw [State.setReg_chs]

theorem State.mirror_slotRt {s : State} {r : MirrorRec} {n d : Nat} : (s.mirror r).slotRt n d = s.slotRt n d := by
  unfold State.slotRt; rw [State.mirror_ch]

/-- What an update of a controller leaves of every controller reads as before. -/
theorem State.modCan_field {α : Type} (g : Can → α) {s : State} {n x m y : Nat} {f : Can → Can}
    (hf : ∀ c, g (f c) = g c) : g ((s.modCan n x f).can m y) = g (s.can m y) := by
  unfold State.modCan State.can
  refine State.modCh_field (fun c => g (c.can.getD y Can.reset)) ?_
  intro c
  dsimp only
  simp only [List.getD_eq_getElem?_getD, List.getElem?_modify]
  cases c.can[y]? with
  | none => rfl
  | some d =>
    simp only [Option.map_some, Option.getD_some]
    split
    · exact hf d
    · rfl

theorem State.modCan_keep {α : Type} (g : Chan → α) (hg : ∀ c l, g { c with can := l } = g c) {s : State} {n x m : Nat}
    {f : Can → Can} : g ((s.modCan n x f).ch m) = g (s.ch m) := by
  unfold State.modCan
  exact State.modCh_field g (fun c => hg c _)

theorem State.modSeg_keep {α : Type} (g : Chan → α) (hg : ∀ c l, g { c with seg := l } = g c) {s : State} {n x m : Nat}
    {f : Seg → Seg} : g ((s.modSeg n x f).ch m) = g (s.ch m) := by
  unfold State.modSeg
  exact State.modCh_field g (fun c => hg c _)

theorem State.modDio_keep {α : Type} (g : Chan → α) (hg : ∀ c l, g { c with dio := l } = g c) {s : State} {n m : Nat}
    {f : Dio → Dio} : g ((s.modDio n f).ch m) = g (s.ch m) := by
  unfold State.modDio
  exact State.modCh_field g (fun c => hg c _)

/-- A filter depends on its elements, old and new (R178, R314). -/
theorem canFilter_congr {s u : State} {n x : Nat} {f : CanFrame} {stamp : Instant} (hr : u.regs = s.regs)
    (h1 : (u.can n x).switched = (s.can n x).switched) (h2 : (u.can n x).oldElems = (s.can n x).oldElems) :
    canFilter u n x f stamp = canFilter s n x f stamp := by
  unfold canFilter filterWord State.canReg State.reg
  simp only [hr, h1, h2]

/-- Frames that wait in receive queues depend on no counter of a controller (R170, R312). -/
theorem stuckFrames_modCan {s : State} {n x m j : Nat} {f : Can → Can} (hf : ∀ c, (f c).queues = c.queues) :
    stuckFrames (s.modCan n x f) m j = stuckFrames s m j := by
  have hq : ∀ a y, ((s.modCan n x f).can a y).queues.length = (s.can a y).queues.length :=
    fun a y => congrArg List.length (State.modCan_field Can.queues hf)
  have hg : ∀ a y, (s.modCan n x f).seg a y = s.seg a y := fun a y => by
    unfold State.seg; rw [State.modCan_keep Chan.seg (fun _ _ => rfl)]
  have hs : ∀ a, ((s.modCan n x f).ch a).staged = (s.ch a).staged := fun a => State.modCan_keep Chan.staged (fun _ _ => rfl)
  have ht : ((s.modCan n x f).ch m).state = (s.ch m).state := State.modCan_keep Chan.state (fun _ _ => rfl)
  unfold stuckFrames stuckAll spillCap spillUsed stagingShare
  simp only [hq, hg, hs, ht]

/-- A field of a channel that is neither its table nor its held records nor its reports. -/
structure Calm {α : Type} (g : Chan → α) : Prop where
  table : ∀ c tb, g { c with table := tb } = g c
  held : ∀ c l, g { c with heldRecs := l } = g c
  reports : ∀ c l, g { c with reports := l } = g c

theorem chRaise_field {α : Type} (g : Chan → α) (hg : Calm g) {s : State} {n b k j m : Nat} {p : List Byte} :
    g ((chRaise s n b k j p).ch m) = g (s.ch m) := by
  unfold chRaise
  split
  · split
    · exact State.modCh_field g (fun c => hg.held c _)
    · rfl
  · rw [raise_ch]

theorem sendReport_field {α : Type} (g : Chan → α) (hg : Calm g) {s : State} {n m : Nat} {r : Report} :
    g ((sendReport s n r).ch m) = g (s.ch m) := by
  unfold sendReport
  split
  · rfl
  · exact State.modCh_field g (fun c => hg.reports c _)

theorem actFrameDone_field {α : Type} (g : Chan → α) (hg : Calm g) {s : State} {f : TxFrame} {o d m : Nat} :
    g ((actFrameDone s f o d).ch m) = g (s.ch m) := by
  unfold actFrameDone
  split
  · rfl
  · split
    · dsimp only
      split
      all_goals (repeat' first | rfl | rw [occOutcome_field g hg.table hg.held] | rw [actOutcome_field g hg.table hg.held] | (unfold State.modEnt) | rw [State.modTbl_field g hg.table] | split)
    · rfl

theorem frameEnds_field {α : Type} (g : Chan → α) (hg : Calm g) {s : State} {n st d m : Nat} {f : TxFrame} {ts : Bool}
    {info : Word} : g ((frameEnds s n f st d ts info).ch m) = g (s.ch m) := by
  unfold frameEnds
  split
  · exact actFrameDone_field g hg
  · split
    · exact sendReport_field g hg
    · rw [finish_ch]

theorem cancelAnswer_field {α : Type} (g : Chan → α) (hg : Calm g) {s : State} {n st m : Nat} {f : TxFrame} :
    g ((cancelAnswer s n f st).ch m) = g (s.ch m) := by
  unfold cancelAnswer
  refine State.foldl_same (fun s => g (s.ch m)) ?_
  intro s c
  split
  · exact sendReport_field g hg
  · rw [finish_ch]

theorem endFrames_field {α : Type} (g : Chan → α) (hg : Calm g) {s : State} {n st d r m : Nat} {fs : List TxFrame} :
    g ((endFrames s n fs st d r).ch m) = g (s.ch m) := by
  unfold endFrames
  refine State.foldl_same (fun s => g (s.ch m)) ?_
  intro s f
  rw [cancelAnswer_field g hg, frameEnds_field g hg]

theorem Calm.can : Calm Chan.can := ⟨fun _ _ => rfl, fun _ _ => rfl, fun _ _ => rfl⟩
theorem Calm.seg : Calm Chan.seg := ⟨fun _ _ => rfl, fun _ _ => rfl, fun _ _ => rfl⟩
theorem Calm.staged : Calm Chan.staged := ⟨fun _ _ => rfl, fun _ _ => rfl, fun _ _ => rfl⟩
theorem Calm.dio : Calm Chan.dio := ⟨fun _ _ => rfl, fun _ _ => rfl, fun _ _ => rfl⟩

theorem chRaise_can {s : State} {n b k j m x : Nat} {p : List Byte} : (chRaise s n b k j p).can m x = s.can m x := by
  unfold State.can; rw [chRaise_field _ Calm.can]

theorem endFrames_can {s : State} {n st d r m x : Nat} {fs : List TxFrame} :
    (endFrames s n fs st d r).can m x = s.can m x := by
  unfold State.can; rw [endFrames_field _ Calm.can]

/-- A controller whose counters stay below their limits stays ERROR_ACTIVE (R321, R322). -/
theorem canFaultUpdate_active {s : State} {n x : Nat} (h : (s.can n x).state = .errorActive)
    (ht : (s.can n x).tec < 128) (hr : (s.can n x).recv < 128) :
    canFaultUpdate s n x = s.modCan n x (fun c =>
      { c with state := if c.onBus then .errorActive else c.state, ewarn := 96 ≤ c.tec || 96 ≤ c.recv }) := by
  have hf : faultState (s.can n x).tec (s.can n x).recv = .errorActive := by
    unfold faultState
    rw [if_neg (by omega), if_neg (by omega)]
  unfold canFaultUpdate
  dsimp only
  rw [if_pos (by simp [hf, h]), hf]

theorem State.net_congr {s t : State} (h : t.netsv = s.netsv) (p : Nat) : t.net p = s.net p := by
  unfold State.net; rw [show t.nets = s.nets from h]

@[simp] theorem State.modNet_length {s : State} {p : Nat} {f : NetPort → NetPort} : (s.modNet p f).nets.length = s.nets.length := by
  simp [State.modNet]

theorem netCount_net {s : State} {p o : Nat} (h : p < s.nets.length) : (netCount s p o).net p =
    { s.net p with cnts := amSet (s.net p).cnts o (((amGet (s.net p).cnts o).getD 0 + 1) % 2 ^ 32) } := by
  unfold netCount
  rw [State.modNet_net_self h]
  cases amGet (s.net p).cnts o <;> rfl

@[simp] theorem netCount_length {s : State} {p o : Nat} : (netCount s p o).nets.length = s.nets.length := State.modNet_length

/-- With nothing waiting, a port begins no frame. -/
theorem netKick_idle {s : State} {p : Nat} (h1 : (s.net p).express = []) (h2 : (s.net p).preempt = [])
    (h3 : (s.net p).suspended = none) : netKick s p = s := by
  unfold netKick
  dsimp only
  rw [h1, h2, h3]
  cases bitN (s.netReg p 0) 0 <;> exact ite_self s

/-- A port that cannot preempt leaves the frame on the wire. -/
theorem netPreempt_off {s : State} {p : Nat} (h : preemptActive s p = false) : netPreempt s p = s := by
  unfold netPreempt
  split
  · rfl
  · rw [if_neg (by simp [h])]

theorem State.reg_intBit_ne {s : State} {k i v j : Nat} (h : j ≠ k) : (s.intBit k i v).reg j = s.reg j := by
  unfold State.intBit
  dsimp only
  split
  · rw [State.sendVec_reg]; exact State.reg_setReg_ne h
  · exact State.reg_setReg_ne h

theorem State.intBit_points {s : State} {k i v : Nat} : (s.intBit k i v).points = s.points := by
  unfold State.intBit
  dsimp only
  split
  · rw [State.sendVec_points, State.setReg_points]
  · rw [State.setReg_points]

theorem netLinkRec_reg {s : State} {p j : Nat} (h : j ≠ 0x60020 + 0x10000 * p) : (netLinkRec s p).reg j = s.reg j := by
  unfold netLinkRec netInt
  dsimp only
  rw [State.reg_intBit_ne h, raise_reg]

theorem netLinkRec_points {s : State} {p : Nat} : (netLinkRec s p).points = s.points := by
  unfold netLinkRec netInt
  dsimp only
  rw [State.intBit_points, raise_points]

theorem State.intBit_out {s : State} {k i v : Nat} {e : Emission} (h : e ∈ s.out) : e ∈ (s.intBit k i v).out := by
  unfold State.intBit
  dsimp only
  split
  · exact State.sendVec_out (by rw [State.setReg_out]; exact h)
  · rw [State.setReg_out]; exact h

theorem netVerifyRec_net {s : State} {p c : Nat} : (netVerifyRec s p c).net p = s.net p :=
  State.net_congr netVerifyRec_netsv p

theorem netVerifyRec_points {s : State} {p c : Nat} : (netVerifyRec s p c).points = s.points := by
  unfold netVerifyRec netInt
  rw [State.intBit_points, raise_points]

theorem chRaise_seg {s : State} {n b k j m x : Nat} {p : List Byte} : (chRaise s n b k j p).seg m x = s.seg m x := by
  unfold State.seg; rw [chRaise_field _ Calm.seg]

theorem State.modSeg_slen {s : State} {n m x : Nat} {f : Seg → Seg} :
    ((s.modSeg n x f).ch m).seg.length = (s.ch m).seg.length := by
  unfold State.modSeg
  exact State.modCh_field (fun c => c.seg.length) (fun c => by dsimp only; rw [List.length_modify])

/-- What an update of a segment leaves of every segment reads as before. -/
theorem State.modSeg_field {α : Type} (g : Seg → α) {s : State} {n x m y : Nat} {f : Seg → Seg}
    (hf : ∀ c, g (f c) = g c) : g ((s.modSeg n x f).seg m y) = g (s.seg m y) := by
  unfold State.modSeg State.seg
  refine State.modCh_field (fun c => g (c.seg.getD y Seg.reset)) ?_
  intro c
  dsimp only
  simp only [List.getD_eq_getElem?_getD, List.getElem?_modify]
  cases c.seg[y]? with
  | none => rfl
  | some d =>
    simp only [Option.map_some, Option.getD_some]
    split
    · exact hf d
    · rfl

/-- Whether a frame finds staging depends on no counter of a segment (R170, R312). -/
theorem stagingFull_modSeg {s : State} {n x m : Nat} {f : Seg → Seg} {g : RxFrame} (hf : ∀ c, (f c).queues = c.queues) :
    stagingFull (s.modSeg n x f) m g = stagingFull s m g := by
  have hq : ∀ a y, ((s.modSeg n x f).seg a y).queues.length = (s.seg a y).queues.length :=
    fun a y => congrArg List.length (State.modSeg_field Seg.queues hf)
  have hg : ∀ a y, (s.modSeg n x f).can a y = s.can a y := fun a y => by
    unfold State.can; rw [State.modSeg_keep Chan.can (fun _ _ => rfl)]
  have hs : ∀ a, ((s.modSeg n x f).ch a).staged = (s.ch a).staged := fun a => State.modSeg_keep Chan.staged (fun _ _ => rfl)
  have ht : ((s.modSeg n x f).ch m).state = (s.ch m).state := State.modSeg_keep Chan.state (fun _ _ => rfl)
  unfold stagingFull spillCap spillUsed stagingShare
  simp only [hq, hg, hs, ht]

theorem chRaise_points {s : State} {n b k j : Nat} {p : List Byte} : (chRaise s n b k j p).points = s.points := by
  unfold chRaise
  split
  · split <;> rfl
  · exact raise_points

/-- A count of a segment, and nothing else of it. -/
theorem segCount_seg {s : State} {n x o : Nat} (hn : n < s.chs.length) (hx : x < (s.ch n).seg.length) :
    (segCount s n x o).seg n x =
      { s.seg n x with cnts := amSet (s.seg n x).cnts o (((s.seg n x).cnt o + 1) % 2 ^ 32) } := by
  unfold segCount
  rw [State.modSeg_seg_self hn hx]
  unfold Seg.cnt
  cases amGet (s.seg n x).cnts o <;> rfl

theorem cnt_amSet {c : Seg} {o v : Nat} : ({ c with cnts := amSet c.cnts o v } : Seg).cnt o = v := by
  unfold Seg.cnt
  rw [amGet_amSet_self]

/-- A segment that may not send begins no attempt. -/
theorem segKick_off {s : State} {n x : Nat}
    (h : (s.seg n x).txq = [] ∨ ((s.seg n x).plca = true ∧ (s.seg n x).opp ≠ localId s n x)) : segKick s n x = s := by
  unfold segKick
  dsimp only
  rw [if_neg]
  rcases h with h | ⟨h1, h2⟩ <;> simp_all

/-- An attempt changes BUSY and CARRIER of the segment alone. -/
theorem segKick_seg {s : State} {n x : Nat} (hn : n < s.chs.length) (hx : x < (s.ch n).seg.length) :
    ∃ b c, (segKick s n x).seg n x = { s.seg n x with busy := b, carrier := c } := by
  unfold segKick
  dsimp only
  split
  · rw [State.modSeg_seg_self hn hx]; exact ⟨_, _, rfl⟩
  · exact ⟨_, _, rfl⟩

/-- PLCA turned on or off on a segment. -/
theorem plcaSet_seg {s : State} {n x : Nat} {on : Bool} (hn : n < s.chs.length) (hx : x < (s.ch n).seg.length) :
    ∃ o b, (plcaSet s n x on).seg n x = { s.seg n x with plca := on, opp := o, burst := b } := by
  unfold plcaSet
  split
  · rename_i h; exact ⟨_, _, by rw [← h]⟩
  · rw [chRaise_seg, State.modSeg_seg_self hn hx]; exact ⟨_, _, rfl⟩

theorem chRaise_ch_len {s : State} {n b k j m : Nat} {p : List Byte} :
    (chRaise s n b k j p).chs.length = s.chs.length ∧ ((chRaise s n b k j p).ch m).seg.length = (s.ch m).seg.length :=
  ⟨State.chs_length_of_links chRaise_links, congrArg List.length (chRaise_field _ Calm.seg)⟩

theorem plcaSet_len {s : State} {n x m : Nat} {on : Bool} :
    (plcaSet s n x on).chs.length = s.chs.length ∧ ((plcaSet s n x on).ch m).seg.length = (s.ch m).seg.length := by
  unfold plcaSet
  split
  · exact ⟨rfl, rfl⟩
  · rw [(chRaise_ch_len (m := m)).1, chRaise_ch_len.2, State.modSeg_length, State.modSeg_slen]; exact ⟨rfl, rfl⟩

/-- What an update of an output leaves of every output reads as before. -/
theorem State.modDout_field {α : Type} (g : Dout → α) {s : State} {n d m e : Nat} {f : Dout → Dout}
    (hf : ∀ o, g (f o) = g o) : g ((s.modDout n d f).dout m e) = g (s.dout m e) := by
  unfold State.modDout State.modDio State.dout State.dio
  refine State.modCh_field (fun c => g (c.dio.dout.getD e Dout.reset)) ?_
  intro c
  dsimp only
  simp only [List.getD_eq_getElem?_getD, List.getElem?_modify]
  cases c.dio.dout[e]? with
  | none => rfl
  | some o =>
    simp only [Option.map_some, Option.getD_some]
    split
    · exact hf o
    · rfl

/-- As `State.modDout_field`, for an analogue output. -/
theorem State.modAout_field {α : Type} (g : Aout → α) {s : State} {n d m e : Nat} {f : Aout → Aout}
    (hf : ∀ o, g (f o) = g o) : g ((s.modAout n d f).aout m e) = g (s.aout m e) := by
  unfold State.modAout State.modDio State.aout State.dio
  refine State.modCh_field (fun c => g (c.dio.aout.getD e Aout.reset)) ?_
  intro c
  dsimp only
  simp only [List.getD_eq_getElem?_getD, List.getElem?_modify]
  cases c.dio.aout[e]? with
  | none => rfl
  | some o =>
    simp only [Option.map_some, Option.getD_some]
    split
    · exact hf o
    · rfl

/-- A field of the field I/O that is neither its outputs. -/
structure Dio.Apart {α : Type} (g : Dio → α) : Prop where
  dout : ∀ c l, g { c with dout := l } = g c
  aout : ∀ c l, g { c with aout := l } = g c

theorem State.modDout_dio {α : Type} (g : Dio → α) (hg : Dio.Apart g) {s : State} {n d m : Nat} {f : Dout → Dout} :
    g ((s.modDout n d f).dio m) = g (s.dio m) := by
  unfold State.modDout State.modDio State.dio
  exact State.modCh_field (fun c => g c.dio) (fun c => hg.dout c.dio _)

theorem State.modAout_dio {α : Type} (g : Dio → α) (hg : Dio.Apart g) {s : State} {n d m : Nat} {f : Aout → Aout} :
    g ((s.modAout n d f).dio m) = g (s.dio m) := by
  unfold State.modAout State.modDio State.dio
  exact State.modCh_field (fun c => g c.dio) (fun c => hg.aout c.dio _)

theorem doutRequal_dio {α : Type} (g : Dio → α) (hg : Dio.Apart g) {s : State} {n d m : Nat} :
    g ((doutRequal s n d).dio m) = g (s.dio m) := by
  unfold doutRequal doutAcquire
  dsimp only
  split
  · rfl
  · rw [acquireTerm_dio, State.modDout_dio g hg]

theorem aoutRequal_dio {α : Type} (g : Dio → α) (hg : Dio.Apart g) {s : State} {n d m : Nat} :
    g ((aoutRequal s n d).dio m) = g (s.dio m) := by
  unfold aoutRequal aoutAcquire
  dsimp only
  split
  · rfl
  · rw [acquireTerm_dio, State.modAout_dio g hg]

theorem requalAll_dio {α : Type} (g : Dio → α) (hg : Dio.Apart g) {s : State} {n m : Nat} :
    g ((requalAll s n).dio m) = g (s.dio m) := by
  unfold requalAll
  generalize List.range 8 = l
  generalize List.range 4 = k
  dsimp only
  rw [State.foldl_same (fun s => g (s.dio m)) (fun s d => aoutRequal_dio g hg),
    State.foldl_same (fun s => g (s.dio m)) (fun s d => doutRequal_dio g hg)]

/-- The quality last given is all of an output that a new acquisition of its points changes (R369). -/
theorem doutRequal_dout {α : Type} (g : Dout → α) (hg : ∀ o q, g { o with qual := q } = g o) {s : State} {n d m e : Nat} :
    g ((doutRequal s n d).dout m e) = g (s.dout m e) := by
  unfold doutRequal doutAcquire
  dsimp only
  split
  · rfl
  · rw [State.dout, acquireTerm_dio, ← State.dout]
    exact State.modDout_field g (fun o => hg o _)

theorem aoutRequal_aout {α : Type} (g : Aout → α) (hg : ∀ o q, g { o with qual := q } = g o) {s : State} {n d m e : Nat} :
    g ((aoutRequal s n d).aout m e) = g (s.aout m e) := by
  unfold aoutRequal aoutAcquire
  dsimp only
  split
  · rfl
  · rw [State.aout, acquireTerm_dio, ← State.aout]
    exact State.modAout_field g (fun o => hg o _)

theorem aoutRequal_douts {s : State} {n d m : Nat} : ((aoutRequal s n d).dio m).dout = (s.dio m).dout := by
  unfold aoutRequal aoutAcquire
  dsimp only
  split
  · rfl
  · rw [acquireTerm_dio]
    unfold State.modAout State.modDio State.dio
    exact State.modCh_field (fun c => c.dio.dout) (fun c => rfl)

theorem doutRequal_aouts {s : State} {n d m : Nat} : ((doutRequal s n d).dio m).aout = (s.dio m).aout := by
  unfold doutRequal doutAcquire
  dsimp only
  split
  · rfl
  · rw [acquireTerm_dio]
    unfold State.modDout State.modDio State.dio
    exact State.modCh_field (fun c => c.dio.aout) (fun c => rfl)

theorem requalAll_dout {α : Type} (g : Dout → α) (hg : ∀ o q, g { o with qual := q } = g o) {s : State} {n m e : Nat} :
    g ((requalAll s n).dout m e) = g (s.dout m e) := by
  unfold requalAll
  generalize List.range 8 = l
  generalize List.range 4 = k
  dsimp only
  have h : ∀ u : State, (k.foldl (fun s t => aoutRequal s n t) u).dout m e = u.dout m e := fun u => by
    unfold State.dout
    rw [State.foldl_same (fun s => (s.dio m).dout) (fun s d => aoutRequal_douts)]
  rw [h, State.foldl_same (fun s => g (s.dout m e)) (fun s d => doutRequal_dout g hg)]

theorem requalAll_aout {α : Type} (g : Aout → α) (hg : ∀ o q, g { o with qual := q } = g o) {s : State} {n m e : Nat} :
    g ((requalAll s n).aout m e) = g (s.aout m e) := by
  unfold requalAll
  generalize List.range 8 = l
  generalize List.range 4 = k
  dsimp only
  rw [State.foldl_same (fun s => g (s.aout m e)) (fun s d => aoutRequal_aout g hg)]
  unfold State.aout
  rw [State.foldl_same (fun s => (s.dio m).aout) (fun s d => doutRequal_aouts)]

/-- An acquisition of a point that is not the hub's leaves where every point stands. -/
theorem acquire_localPoints {s : State} {h n t q : Nat} {v : Slot} {stamp : Instant} {p : Point}
    (hp : amGet s.points h = some p) (hh : p.isHub = false) :
    (acquire s h v q stamp).localPoints n t = s.localPoints n t := by
  have key : ∀ (m : AMap Point) (f : Point → Point), (∀ p, (f p).inEffect = p.inEffect ∧ (f p).origin = p.origin ∧
      (f p).channel = p.channel ∧ (f p).index = p.index) →
      ((amMod m h f).filter (fun x => x.2.inEffect && x.2.origin == 1 && x.2.channel == n && x.2.index == t)).map (·.1) =
      (m.filter (fun x => x.2.inEffect && x.2.origin == 1 && x.2.channel == n && x.2.index == t)).map (·.1) := by
    intro m f hf
    unfold amMod
    induction m with
    | nil => rfl
    | cons a m ih =>
      obtain ⟨h1, h2, h3, h4⟩ := hf a.2
      rw [List.map_cons, List.filter_cons, List.filter_cons]
      by_cases e : a.1 = h
      · simp only [e, if_true, h1, h2, h3, h4]
        split
        · simp only [List.map_cons, ih, e]
        · exact ih
      · simp only [e, if_false]
        split
        · rw [List.map_cons, List.map_cons, ih]
        · exact ih
  have key2 : ∀ f : Point → Point, (∀ p, (f p).inEffect = p.inEffect ∧ (f p).origin = p.origin ∧
      (f p).channel = p.channel ∧ (f p).index = p.index) → (s.modPt h f).localPoints n t = s.localPoints n t :=
    fun f hf => key s.points f hf
  unfold acquire
  simp only [hp]
  split
  · rfl
  · split
    · exact key2 _ (fun p => ⟨rfl, rfl, rfl, rfl⟩)
    · rw [if_neg (by simp [hh])]
      split
      · exact key2 _ (fun p => ⟨rfl, rfl, rfl, rfl⟩)
      · have e : ∀ (u : State) (m : Nat) (f : Chan → Chan), (u.modCh m f).localPoints n t = u.localPoints n t :=
          fun _ _ _ => rfl
        rw [e]
        exact key2 _ (fun p => ⟨rfl, rfl, rfl, rfl⟩)

theorem State.modDout_doutLen {s : State} {n d m : Nat} {f : Dout → Dout} :
    ((s.modDout n d f).dio m).dout.length = (s.dio m).dout.length := by
  unfold State.modDout State.modDio State.dio
  exact State.modCh_field (fun c => c.dio.dout.length) (fun c => by dsimp only; rw [List.length_modify])

theorem State.dout_of_bodies {s t : State} (h : t.bodies = s.bodies) (n d : Nat) : t.dout n d = s.dout n d :=
  State.ch_of_bodies (fun c => c.dio.dout.getD d Dout.reset) (fun _ => rfl) h n

/-- A new acquisition of an output's points changes no other output. -/
theorem doutRequal_dout_ne {s : State} {n d c : Nat} (hn : n < s.chs.length) (h : c ≠ d) :
    (doutRequal s n d).dout n c = s.dout n c := by
  unfold doutRequal doutAcquire
  dsimp only
  split
  · rfl
  · rw [State.dout_of_bodies acquireTerm_bodies, State.modDout_dout_ne hn h]

theorem doutRequal_length {s : State} {n d m : Nat} :
    ((doutRequal s n d).dio m).dout.length = (s.dio m).dout.length ∧ (doutRequal s n d).chs.length = s.chs.length := by
  unfold doutRequal doutAcquire
  dsimp only
  split
  · exact ⟨rfl, rfl⟩
  · rw [acquireTerm_dio, State.modDout_doutLen, State.chs_length_of_bodies acquireTerm_bodies, State.modDout_length]
    exact ⟨rfl, rfl⟩

/-- Switching on changes no other output. -/
theorem switchOn_ne {s : State} {n d c : Nat} (hn : n < s.chs.length) (h : c ≠ d) :
    (switchOn s n d).dout n c = s.dout n c := by
  unfold switchOn
  dsimp only
  split
  · rw [doutRequal_dout_ne (by rw [State.modDout_length]; exact hn) h, State.modDout_dout_ne hn h]
  · rfl

theorem switchOn_length {s : State} {n d m : Nat} :
    ((switchOn s n d).dio m).dout.length = (s.dio m).dout.length ∧ (switchOn s n d).chs.length = s.chs.length := by
  unfold switchOn
  dsimp only
  split
  · rw [doutRequal_length.1, (doutRequal_length (m := m)).2, State.modDout_doutLen, State.modDout_length]; exact ⟨rfl, rfl⟩
  · exact ⟨rfl, rfl⟩

theorem switchOn_dio {α : Type} (g : Dio → α) (hg : Dio.Apart g) {s : State} {n d m : Nat} :
    g ((switchOn s n d).dio m) = g (s.dio m) := by
  unfold switchOn
  dsimp only
  split
  · rw [doutRequal_dio g hg, State.modDout_dio g hg]
  · rfl

/-- A tripped output that is commanded on and cool switches on, unless lockout holds it (R378). -/
theorem switchOn_self {s : State} {n d : Nat} (hn : n < s.chs.length) (hd : d < (s.dio n).dout.length)
    (h1 : (s.dout n d).cmd = true) (h2 : (s.dout n d).tripped = true) (h3 : (s.dout n d).hot = false) :
    ((switchOn s n d).dout n d).drive = !(s.dio n).lockout ∧ ((switchOn s n d).dout n d).tripped = false ∧
    ((switchOn s n d).dout n d).cmd = true := by
  unfold switchOn
  dsimp only
  rw [if_pos (by simp [h1, h2, h3]), doutRequal_dout Dout.drive (fun _ _ => rfl),
    doutRequal_dout Dout.tripped (fun _ _ => rfl), doutRequal_dout Dout.cmd (fun _ _ => rfl), State.modDout_dout_self hn hd]
  exact ⟨rfl, rfl, h1⟩

/-- The output driven on with strictly the largest current is the one the group limit takes (R379). -/
theorem largestOn_eq {os : List Dout} {cs : List Nat} {d : Nat} (hd : d < 8) (ho : (os.getD d Dout.reset).drive = true)
    (h : ∀ c, c < 8 → c ≠ d → (os.getD c Dout.reset).drive = true → cs.getD c 0 < cs.getD d 0) : largestOn os cs = d := by
  have key : ∀ (l : List Nat) (b : Nat), (∀ c ∈ l, c < 8) → b < 8 → (b = d ∨ d ∈ l) →
      l.foldl (fun b d => if (os.getD d Dout.reset).drive && (!(os.getD b Dout.reset).drive || cs.getD b 0 < cs.getD d 0)
        then d else b) b = d := by
    intro l
    induction l with
    | nil => intro b _ _ hb; simpa using hb
    | cons a l ih =>
      intro b hl hb hm
      rw [List.foldl_cons]
      apply ih
      · exact fun c hc => hl c (List.mem_cons_of_mem _ hc)
      · split
        · exact hl a List.mem_cons_self
        · exact hb
      · by_cases e : a = d
        · left
          rw [e]
          by_cases eb : b = d
          · rw [eb]; split <;> rfl
          · rw [if_pos]
            rw [ho, Bool.true_and]
            cases hv : (os.getD b Dout.reset).drive
            · rfl
            · simpa using h b hb eb hv
        · rcases hm with hm | hm
          · left
            rw [hm, if_neg, ]
            cases hv : (os.getD a Dout.reset).drive
            · simp
            · have := h a (hl a List.mem_cons_self) e hv
              simp only [ho, Bool.not_true, Bool.false_or, Bool.true_and, decide_eq_true_eq]
              omega
          · rcases List.mem_cons.mp hm with hm | hm
            · exact absurd hm.symm e
            · right; exact hm
  unfold largestOn
  refine key _ 0 (fun c hc => by simpa using hc) (by omega) (Or.inr (by simpa using hd))

theorem doutAcquire_dout_field {α : Type} (g : Dout → α) (hg : ∀ o q, g { o with qual := q } = g o) {s : State}
    {n d m e : Nat} {st : Instant} : g ((doutAcquire s n d st).dout m e) = g (s.dout m e) := by
  unfold doutAcquire
  dsimp only
  rw [State.dout, acquireTerm_dio, ← State.dout]
  exact State.modDout_field g (fun o => hg o _)

theorem doutAcquire_dio {α : Type} (g : Dio → α) (hg : Dio.Apart g) {s : State} {n d m : Nat} {st : Instant} :
    g ((doutAcquire s n d st).dio m) = g (s.dio m) := by
  unfold doutAcquire
  dsimp only
  rw [acquireTerm_dio, State.modDout_dio g hg]

theorem aoutAcquire_dio {α : Type} (g : Dio → α) (hg : Dio.Apart g) {s : State} {n d m : Nat} {st : Instant} :
    g ((aoutAcquire s n d st).dio m) = g (s.dio m) := by
  unfold aoutAcquire
  dsimp only
  rw [acquireTerm_dio, State.modAout_dio g hg]

theorem aoutAcquire_douts {s : State} {n d m : Nat} {st : Instant} :
    ((aoutAcquire s n d st).dio m).dout = (s.dio m).dout := by
  unfold aoutAcquire
  dsimp only
  rw [acquireTerm_dio]
  unfold State.modAout State.modDio State.dio
  exact State.modCh_field (fun c => c.dio.dout) (fun c => rfl)

/-- As `State.modDout_field`, for an analogue input. -/
theorem State.modAin_field {α : Type} (g : Ain → α) {s : State} {n d m e : Nat} {f : Ain → Ain}
    (hf : ∀ o, g (f o) = g o) : g ((s.modAin n d f).ain m e) = g (s.ain m e) := by
  unfold State.modAin State.modDio State.ain State.dio
  refine State.modCh_field (fun c => g (c.dio.ain.getD e Ain.reset)) ?_
  intro c
  dsimp only
  simp only [List.getD_eq_getElem?_getD, List.getElem?_modify]
  cases c.dio.ain[e]? with
  | none => rfl
  | some o =>
    simp only [Option.map_some, Option.getD_some]
    split
    · exact hf o
    · rfl

theorem State.modAin_ainLen {s : State} {n d m : Nat} {f : Ain → Ain} :
    ((s.modAin n d f).dio m).ain.length = (s.dio m).ain.length := by
  unfold State.modAin State.modDio State.dio
  exact State.modCh_field (fun c => c.dio.ain.length) (fun c => by dsimp only; rw [List.length_modify])

theorem acquireAin_ain {s : State} {n i r m j : Nat} {u x : Int} {bad : Bool} :
    (acquireAin s n i r u x bad).ain m j = s.ain m j :=
  State.ch_of_bodies (fun c => c.dio.ain.getD j Ain.reset) (fun _ => rfl) acquireAin_bodies m

theorem bkpRec_bkp {s : State} {i : Nat} {p : List Byte} : (bkpRec s i p).bkp = s.bkp :=
  (bkpRec_bkps : State.bkps _ = State.bkps s)

/-- An alarm that fires changes the alarms alone of the backup domain. -/
theorem fireAlarm_bkp {s : State} {i : Nat} {l : Int} {k : Bool} :
    ∃ as, (fireAlarm s i l k).bkp = { s.bkp with alarms := as } := by
  unfold fireAlarm
  dsimp only
  split
  · exact ⟨_, bkpRec_bkp⟩
  · exact ⟨_, rfl⟩

theorem fireAlarm_field {α : Type} (g : Backup → α) (hg : ∀ b as, g { b with alarms := as } = g b) {s : State} {i : Nat}
    {l : Int} {k : Bool} : g (fireAlarm s i l k).bkp = g s.bkp := by
  obtain ⟨as, h⟩ := fireAlarm_bkp (s := s) (i := i) (l := l) (k := k)
  rw [h, hg]

/-- A load gives the calendar its value (R446). -/
theorem loadCal_field {α : Type} (g : Backup → α) (hg : ∀ b as, g { b with alarms := as } = g b) {s : State} {new : Cal}
    {c : Nat} : g (loadCal s new c).bkp = g { s.bkp with cal := new, osf := false } := by
  unfold loadCal calAdjusted
  dsimp only
  generalize ([0, 1] : List Nat) = l
  rw [State.foldl_same (fun s : State => g s.bkp) (by
    intro s i
    split
    · exact fireAlarm_field g hg
    · rfl), bkpRec_bkp]
  rfl

theorem calendarSecond_field {α : Type} (g : Backup → α) (hg : ∀ b as, g { b with alarms := as } = g b) {s : State} :
    g (calendarSecondOp s).bkp = g { s.bkp with cal := { s.bkp.cal.tick with presc := 0 } } := by
  unfold calendarSecondOp
  dsimp only
  generalize ([0, 1] : List Nat) = l
  rw [State.foldl_same (fun s : State => g s.bkp) (by
    intro s i
    split
    · exact fireAlarm_field g hg
    · rfl)]
  exact hg { s.bkp with cal := { s.bkp.cal.tick with presc := 0 } } _

theorem abortTxn_regs {s : State} {c r : Nat} (hc : c < 64) : (abortTxn s c r).regs = s.regs := by
  unfold abortTxn
  rw [endTxn_regs hc]
  exact State.foldl_same State.regs (by intros; simp)

/-- What a served write to a BAR does: its words in turn (R70, R97). -/
theorem memWrite_run {s : State} {fn off len : Nat} {data : BitVec 64} {word : Nat → BitVec 4 → Word → State → State}
    (he : s.fnEn fn = true) (hm : (s.fn fn).mse = true) (ha : accessOk off len = true) :
    memWriteOp fn off len data word s = (accessWords off len data).foldl (fun s x => word x.1 x.2.1 x.2.2 s) s := by
  unfold memWriteOp ifMse
  simp [he, hm, ha]

/-- One that is not served (R97, R100). -/
theorem memWrite_refused {s : State} {fn off len : Nat} {data : BitVec 64} {word : Nat → BitVec 4 → Word → State → State}
    (he : s.fnEn fn = true) (h : (s.fn fn).mse = false ∨ accessOk off len = false) :
    memWriteOp fn off len data word s = logAer s fn (.tlp .unsupported) := by
  unfold memWriteOp ifMse unsupportedRequest
  rcases h with h | h
  · simp [he, h]
  · cases hm : (s.fn fn).mse <;> simp [he, h]

theorem memRead_run {s : State} {fn off len : Nat} {word : Nat → BitVec 4 → State → State}
    (he : s.fnEn fn = true) (hm : (s.fn fn).mse = true) (ha : accessOk off len = true) :
    memReadOp fn off len word s = (readWords off len).foldl (fun s x => word x.1 x.2 s) s := by
  unfold memReadOp ifMse
  simp [he, hm, ha]

theorem memRead_refused {s : State} {fn off len : Nat} {word : Nat → BitVec 4 → State → State}
    (he : s.fnEn fn = true) (h : (s.fn fn).mse = false ∨ accessOk off len = false) :
    memReadOp fn off len word s = (logAer s fn (.tlp .unsupported)).emit (.unsupported fn off) := by
  unfold memReadOp ifMse unsupportedRequest
  rcases h with h | h
  · simp [he, h]
  · cases hm : (s.fn fn).mse <;> simp [he, h]

theorem accessOk_not {off len : Nat} (h : len = 0 ∨ 8 < off % 8 + len) : accessOk off len = false := by
  unfold accessOk
  simp only [Bool.and_eq_false_iff, decide_eq_false_iff_not]
  omega

/-- A write to a block no register of which is reached changes nothing (R4, R92). -/
theorem registerWrite_unreached {s : State} {off len : Nat} {data : BitVec 64} (he : s.fnEn 0 = true)
    (hm : (s.fn 0).mse = true) (ha : accessOk off len = true)
    (hr : ∀ x, x / 8 = off / 8 → writeReaches s 0 x = false) :
    registerWriteOp .bar0 0 off len data s = s := by
  show memWriteOp 0 off len data (bar0Word 0) s = s
  rw [memWrite_run he hm ha]
  have hx : ∀ x ∈ accessWords off len data, x.1 / 8 = off / 8 := by
    intro x hx
    unfold accessWords at hx
    have h := (List.mem_filter.mp hx).1
    simp only [List.mem_cons, List.not_mem_nil, or_false] at h
    rcases h with h | h <;> rw [h] <;> dsimp only <;> omega
  revert hx
  generalize accessWords off len data = l
  intro hx
  induction l with
  | nil => rfl
  | cons y l ih =>
    have h1 : bar0Word 0 y.1 y.2.1 y.2.2 s = s := by
      unfold bar0Word viewOffset
      simp [hr y.1 (hx y (List.mem_cons_self ..))]
    rw [List.foldl_cons, h1]
    exact ih (fun x h => hx x (List.mem_cons_of_mem _ h))

theorem writeReaches_lost {s : State} {n x : Nat} (hx : x / 0x100000 = n + 1)
    (h : s.fitted n = false ∨ (s.ch n).state = .linkLost ∨ (s.ch n).state = .fault) : writeReaches s 0 x = false := by
  have h1 : ¬ x < 0x100000 := by omega
  have h2 : ¬ (x = 0x10000 ∨ x = 0x40040) := by omega
  have h3 : answersStandby x = false := by
    unfold answersStandby
    simp only [Bool.or_eq_false_iff, decide_eq_false_iff_not, Bool.and_eq_false_iff]
    exact ⟨⟨by omega, by omega⟩, Or.inr (by omega)⟩
  have h4 : s.reaches x = false := by
    unfold State.reaches
    dsimp only
    rw [if_neg h1, hx]
    rcases h with h | h | h <;> simp [h]
  unfold writeReaches
  simp [h3, h4]

/-- A part of the state that a start, once the reset is done, does not touch. -/
structure Settled {β : Type} (F : State → β) : Prop where
  rec' : ∀ (u : State) a b p, F (vaultRec u a b p) = F u
  bkp : ∀ (u : State) f, F (u.modBkp f) = F u
  vlt : ∀ (u : State) f, F (u.modVlt f) = F u
  time : ∀ (u : State) f, F (u.modTime f) = F u
  ch : ∀ (u : State) n f, F (u.modCh n f) = F u
  alert : ∀ (u : State) i, F (u.alert i) = F u
  tick : ∀ u : State, F u.tick1 = F u
  quar : ∀ (u : State) k, F { u with lc := { u.lc with quar := k } } = F u
  usb : ∀ (u : State) b, F { u with usb := b } = F u
  free : ∀ (u : State) k, F { u with free := k } = F u
  good : ∀ u : State, F (u.modPwr (fun p => { p with vinGood := true })) = F u
  vin : ∀ (u : State) a b, F (u.modPwr (fun p => { p with vin := a, vio := b })) = F u
  halt : ∀ (u : State) k, F (u.modPwr (fun p => { p with state := k })) = F u
  epoch : ∀ (u : State) (k : Watershed → Nat), F (u.modWs (fun w => { w with epoch := k w })) = F u
  out : ∀ (u : State) (k : Watershed → List Svc), F (u.modWs (fun w => { w with svc := k w })) = F u
  abort : ∀ (u : State) k, F (vaultAbort u k) = F u
  set : ∀ (u : State) n c, F (setChState u n c) = F u
  safe : ∀ (u : State) n, F (applyAllSafe u n) = F u
  acts : ∀ (u : State) n, F (actTimeValid u n) = F u
  pass : ∀ u : State, F (passesValid u) = F u

/-- The boot slot's choice touches the update service only (R502). -/
theorem bootSlot_same {β : Type} (F : State → β) (h : ∀ (u : State) f, F (u.modUpd f) = F u) (v : State) :
    F (bootSlot v) = F v := by
  unfold bootSlot
  split
  · rfl
  · exact h _ _

/-- The life-cycle state. -/
theorem settled_lc : Settled (fun s : State => s.lc.state) where
  rec' := fun u a b p => congrArg LifeCycle.state vaultRec_life
  bkp := fun _ _ => rfl
  vlt := fun _ _ => rfl
  time := fun _ _ => rfl
  ch := fun _ _ _ => rfl
  alert := fun _ _ => congrArg LifeCycle.state State.alert_life
  tick := fun _ => rfl
  quar := fun _ _ => rfl
  usb := fun _ _ => rfl
  free := fun _ _ => rfl
  good := fun _ => rfl
  vin := fun _ _ _ => rfl
  halt := fun _ _ => rfl
  epoch := fun _ _ => rfl
  out := fun _ _ => rfl
  abort := fun _ _ => congrArg LifeCycle.state vaultAbort_life
  set := fun _ _ _ => congrArg LifeCycle.state setChState_life
  safe := fun _ _ => congrArg LifeCycle.state applyAllSafe_life
  acts := fun _ _ => congrArg LifeCycle.state actTimeValid_life
  pass := fun _ => congrArg LifeCycle.state passesValid_life

namespace Settled
variable {β : Type} {F : State → β} (h : Settled F)
include h

theorem setVslot (u : State) (n : Nat) (v : VSlot) : F (u.setVslot n v) = F u := h.vlt u _

theorem keyChanged (u : State) (a b c d : Nat) : F (keyChanged u a b c d) = F u := h.rec' u _ _ _

theorem setVstate (u : State) (a b : Nat) : F (setVstate u a b) = F u := by
  unfold Machine.setVstate
  dsimp only
  split
  · rfl
  · exact (h.rec' _ _ _ _).trans (h.vlt _ _)

theorem prescRuns (u : State) : F (prescRuns u) = F u := (h.tick _).trans (h.bkp _ _)

theorem tamperResponse (u : State) (i : Nat) (c : LoopSense) : F (tamperResponse u i c) = F u := by
  unfold Machine.tamperResponse
  dsimp only
  split
  · split
    · exact (h.setVstate _ _ _).trans ((h.rec' _ _ _ _).trans ((h.alert _ _).trans ((h.abort _ _).trans
        ((h.bkp _ _).trans (h.prescRuns u)))))
    · exact (h.rec' _ _ _ _).trans ((h.alert _ _).trans ((h.abort _ _).trans ((h.bkp _ _).trans (h.prescRuns u))))
  · split
    · exact (h.vlt _ _).trans ((h.bkp _ _).trans ((h.bkp _ _).trans (h.prescRuns u)))
    · exact (h.bkp _ _).trans ((h.bkp _ _).trans (h.prescRuns u))

theorem quarantine (u : State) (k : Nat) : F (quarantine u k) = F u := by
  unfold Machine.quarantine
  dsimp only
  split
  · exact (h.alert _ _).trans ((h.alert _ _).trans ((h.halt _ _).trans (h.quar _ _)))
  · exact (h.alert _ _).trans ((h.halt _ _).trans (h.quar _ _))

theorem tamperAtStart (u : State) (l : BitVec 2) : F (tamperAtStart u l) = F u := by
  unfold Machine.tamperAtStart
  refine State.foldl_same F (fun s i => ?_)
  dsimp only
  split
  · exact (h.tamperResponse _ _ _).trans (h.bkp _ _)
  · rfl

theorem orphanAll (u : State) (ds : List Nat) : F (orphanAll u ds) = F u := by
  unfold Machine.orphanAll
  dsimp only
  exact (State.foldl_same F (fun s d => h.keyChanged _ _ _ _ _)).trans (State.foldl_same F (fun s d => h.setVslot _ _ _))

theorem measureStart (u : State) : F (measureStart u) = F u := by
  unfold Machine.measureStart
  dsimp only
  split
  · exact h.vlt _ _
  · refine (h.rec' _ _ _ _).trans ((h.orphanAll _ _).trans ((State.foldl_same F (fun s d => h.keyChanged _ _ _ _ _)).trans
      ((State.foldl_same F (fun s d => State.foldl_same F (fun s n => ?_))).trans (h.vlt _ _))))
    unfold remeasure
    dsimp only
    split
    · split
      · exact h.setVslot _ _ _
      · rfl
    · rfl

theorem makeRoot (u : State) : F (makeRoot u) = F u := by
  unfold Machine.makeRoot
  exact (h.bkp _ _).trans ((h.vlt _ _).trans (h.tick _))

theorem openVault (u : State) (hb : u.lc.state = 0 →
    ∀ v : State, v.lc.state = 0 → F { v with lc := { v.lc with state := 1 } } = F v) : F (openVault u) = F u := by
  unfold Machine.openVault
  split
  · rename_i h0
    exact (h.setVstate _ _ _).trans ((h.vlt _ _).trans ((hb h0 ((Machine.makeRoot u).modVlt _) h0).trans ((h.vlt _ _).trans (h.makeRoot u))))
  · exact (h.measureStart _).trans (h.setVstate _ _ _)

theorem occupySlots (u : State) : F (occupySlots u) = F u :=
  State.foldl_same F (fun s p => h.ch _ _ _)

theorem trainChannels (u : State) : F (trainChannels u) = F u := by
  unfold Machine.trainChannels
  refine State.foldl_same F (fun s n => ?_)
  split
  · exact (h.tick _).trans (h.ch _ _ _)
  · rfl

theorem loadTime (u : State) : F (loadTime u) = F u := by
  unfold Machine.loadTime
  split
  · exact (h.acts _ _).trans ((h.pass _).trans ((h.time _ _).trans (h.prescRuns u)))
  · rfl

theorem stopsOutOfService (u : State) : F (stopsOutOfService u) = F u := by
  unfold Machine.stopsOutOfService
  dsimp only
  refine (h.out _ _).trans (State.foldl_same F (fun s n => ?_))
  split
  · exact (h.safe _ _).trans (h.set _ _ _)
  · rfl

theorem ptpPorts (u : State) : F (ptpPorts u) = F u :=
  State.foldl_same F (fun s p => h.time _ _)

/-- A start leaves it, with the backup domain intact (R430), once the slot is chosen. -/
theorem startUp_boot (u : State) (l : BitVec 2) (ok : Bool) (hb : u.lc.state = 0 →
    ∀ v : State, v.lc.state = 0 → F { v with lc := { v.lc with state := 1 } } = F v) : ∃ v : State, F v = F u ∧ v.upd = u.upd ∧
    F (startUp u false l ok) = F (bootSlot v) := by
  refine ⟨{ ((u.modPwr (fun p => { p with vinGood := true })).modWs (fun w => { w with epoch := (w.epoch + 1) % 65536 })).modPwr
    (fun p => { p with vin := (Config.reading u.free).toNat, vio := (Config.reading (u.free + 1)).toNat }) with
    free := u.free + 2 }, ?_, rfl, ?_⟩
  · exact (h.free _ _).trans ((h.vin _ _ _).trans ((h.epoch _ (fun w => (w.epoch + 1) % 65536)).trans (h.good u)))
  unfold Machine.startUp
  dsimp only
  simp only [Bool.false_eq_true, if_false, Bool.false_and]
  have e : ∀ v : State, F { Machine.tamperAtStart (Machine.bootSlot v) l with
      usb := (Machine.tamperAtStart (Machine.bootSlot v) l).vbus } = F (bootSlot v) := fun v =>
    (h.usb _ _).trans (h.tamperAtStart _ _)
  split
  · exact (h.quarantine _ _).trans (e _)
  split
  · exact (h.quarantine _ _).trans (e _)
  split
  · exact (h.quarantine _ _).trans (e _)
  split
  · exact (h.quarantine _ _).trans (e _)
  have e2 : ∀ v : State, (Machine.trainChannels { Machine.tamperAtStart (Machine.bootSlot v) l with
      usb := (Machine.tamperAtStart (Machine.bootSlot v) l).vbus }).lc.state = v.lc.state := fun v =>
    (settled_lc.trainChannels _).trans ((settled_lc.usb _ _).trans ((settled_lc.tamperAtStart _ _).trans
      (bootSlot_same (fun s : State => s.lc.state) (fun _ _ => rfl) v)))
  split
  · exact (h.stopsOutOfService _).trans ((h.trainChannels _).trans (e _))
  · exact (h.ptpPorts _).trans ((h.loadTime _).trans ((h.occupySlots _).trans ((h.openVault _ (fun h0 => hb (by rw [e2] at h0; exact h0))).trans
      ((h.trainChannels _).trans (e _)))))

/-- A start leaves it, with the backup domain intact (R430). -/
theorem startUp (hs : ∀ v : State, F (bootSlot v) = F v) (u : State) (l : BitVec 2) (ok : Bool) (hb : u.lc.state = 0 →
    ∀ v : State, v.lc.state = 0 → F { v with lc := { v.lc with state := 1 } } = F v) :
    F (startUp u false l ok) = F u := by
  obtain ⟨v, h1, -, h2⟩ := h.startUp_boot u l ok hb
  exact h2.trans ((hs v).trans h1)

/-- A reset leaves of it what the wipe leaves (R433). -/
theorem restart (hs : ∀ v : State, F (bootSlot v) = F v) (u : State) (k : Nat) (hb : u.lc.state = 0 →
    ∀ v : State, v.lc.state = 0 → F { v with lc := { v.lc with state := 1 } } = F v) : F (restart u k) = F (wiped u k) := by
  unfold Machine.restart
  dsimp only
  have hw : ((wiped u k).tick1).lc.state = u.lc.state := rfl
  exact (h.startUp hs _ _ _ (fun h0 => hb (by rw [hw] at h0; exact h0))).trans (h.tick _)

end Settled

theorem settled_upd : Settled State.upds where
  rec' := fun u a b p => vaultRec_upds
  bkp := fun _ _ => rfl
  vlt := fun _ _ => rfl
  time := fun _ _ => rfl
  ch := fun _ _ _ => rfl
  alert := fun _ _ => State.alert_upds
  tick := fun _ => rfl
  quar := fun _ _ => rfl
  usb := fun _ _ => rfl
  free := fun _ _ => rfl
  good := fun _ => rfl
  vin := fun _ _ _ => rfl
  halt := fun _ _ => rfl
  epoch := fun _ _ => rfl
  out := fun _ _ => rfl
  abort := fun _ _ => vaultAbort_upds
  set := fun _ _ _ => setChState_upds
  safe := fun _ _ => applyAllSafe_upds
  acts := fun _ _ => actTimeValid_upds
  pass := fun _ => passesValid_upds

theorem settled_duty : Settled State.duty where
  rec' := fun u a b p => vaultRec_duty
  bkp := fun _ _ => rfl
  vlt := fun _ _ => rfl
  time := fun _ _ => rfl
  ch := fun _ _ _ => rfl
  alert := fun _ _ => State.alert_duty
  tick := fun _ => rfl
  quar := fun _ _ => rfl
  usb := fun _ _ => rfl
  free := fun _ _ => rfl
  good := fun _ => rfl
  vin := fun _ _ _ => rfl
  halt := fun _ _ => rfl
  epoch := fun _ _ => rfl
  out := fun _ _ => rfl
  abort := fun _ _ => vaultAbort_duty
  set := fun _ _ _ => setChState_duty
  safe := fun _ _ => applyAllSafe_duty
  acts := fun _ _ => actTimeValid_duty
  pass := fun _ => passesValid_duty

theorem State.reg_of_regs {a b : State} {k : Nat} (h : a.regs = b.regs) : a.reg k = b.reg k := State.reg_congr h k

theorem vaultRec_reg {u : State} {a b k : Nat} {p : List Byte} (hk : k ≠ 0x90080) : (vaultRec u a b p).reg k = u.reg k := by
  unfold vaultRec
  exact (State.reg_intBit_ne hk).trans (State.reg_of_regs raiseBoth_regsv)

theorem vaultAbort_reg {u : State} {a k : Nat} (hk : k ≠ 0x90080) : (vaultAbort u a).reg k = u.reg k := by
  unfold vaultAbort
  split
  · exact State.reg_intBit_ne hk
  · rfl

theorem settled_reg {k : Nat} (hk : k ≠ 0x90080) : Settled (fun s : State => s.reg k) where
  rec' := fun u a b p => vaultRec_reg hk
  bkp := fun _ _ => rfl
  vlt := fun _ _ => rfl
  time := fun _ _ => rfl
  ch := fun _ _ _ => rfl
  alert := fun _ _ => State.reg_of_regs State.alert_regsv
  tick := fun _ => rfl
  quar := fun _ _ => rfl
  usb := fun _ _ => rfl
  free := fun _ _ => rfl
  good := fun _ => rfl
  vin := fun _ _ _ => rfl
  halt := fun _ _ => rfl
  epoch := fun _ _ => rfl
  out := fun _ _ => rfl
  abort := fun _ _ => vaultAbort_reg hk
  set := fun _ _ _ => State.reg_of_regs setChState_regsv
  safe := fun _ _ => State.reg_of_regs applyAllSafe_regsv
  acts := fun _ _ => State.reg_of_regs actTimeValid_regsv
  pass := fun _ => State.reg_of_regs passesValid_regsv

/-- The life-cycle state after the first start is never FACTORY again by itself (R482). -/
theorem settled_life : Settled (fun s : State => max 1 s.lc.state) where
  rec' := fun u a b p => congrArg (fun l : LifeCycle => max 1 l.state) vaultRec_life
  bkp := fun _ _ => rfl
  vlt := fun _ _ => rfl
  time := fun _ _ => rfl
  ch := fun _ _ _ => rfl
  alert := fun _ _ => congrArg (fun l : LifeCycle => max 1 l.state) State.alert_life
  tick := fun _ => rfl
  quar := fun _ _ => rfl
  usb := fun _ _ => rfl
  free := fun _ _ => rfl
  good := fun _ => rfl
  vin := fun _ _ _ => rfl
  halt := fun _ _ => rfl
  epoch := fun _ _ => rfl
  out := fun _ _ => rfl
  abort := fun _ _ => congrArg (fun l : LifeCycle => max 1 l.state) vaultAbort_life
  set := fun _ _ _ => congrArg (fun l : LifeCycle => max 1 l.state) setChState_life
  safe := fun _ _ => congrArg (fun l : LifeCycle => max 1 l.state) applyAllSafe_life
  acts := fun _ _ => congrArg (fun l : LifeCycle => max 1 l.state) actTimeValid_life
  pass := fun _ => congrArg (fun l : LifeCycle => max 1 l.state) passesValid_life

/-- The parts of the supply that a start leaves. -/
abbrev Power.mode (p : Power) : Nat × Bool × Bool × Bool × AMap PfRec := (p.kind, p.service, p.begun, p.warn, p.recs)

theorem settled_mode : Settled (fun s : State => s.supply.mode) where
  rec' := fun u a b p => congrArg Power.mode vaultRec_supply
  bkp := fun _ _ => rfl
  vlt := fun _ _ => rfl
  time := fun _ _ => rfl
  ch := fun _ _ _ => rfl
  alert := fun _ _ => congrArg Power.mode State.alert_supply
  tick := fun _ => rfl
  quar := fun _ _ => rfl
  usb := fun _ _ => rfl
  free := fun _ _ => rfl
  good := fun _ => rfl
  vin := fun _ _ _ => rfl
  halt := fun _ _ => rfl
  epoch := fun _ _ => rfl
  out := fun _ _ => rfl
  abort := fun _ _ => congrArg Power.mode vaultAbort_supply
  set := fun _ _ _ => congrArg Power.mode setChState_supply
  safe := fun _ _ => congrArg Power.mode applyAllSafe_supply
  acts := fun _ _ => congrArg Power.mode actTimeValid_supply
  pass := fun _ => congrArg Power.mode passesValid_supply

theorem amGet_filter {α : Type} {m : AMap α} {k : Nat} {q : Nat → Bool} :
    amGet (m.filter (fun p => q p.1)) k = if q k then amGet m k else none := by
  induction m with
  | nil => simp [amGet]
  | cons p m ih =>
    rw [List.filter_cons]
    by_cases hk : p.1 = k
    · subst hk
      by_cases hq : q p.1 = true
      · rw [if_pos hq, if_pos hq, amGet_cons, amGet_cons, if_pos rfl, if_pos rfl]
      · rw [if_neg hq, ih, if_neg hq, if_neg hq]
    · by_cases hq : q p.1 = true
      · rw [if_pos hq, amGet_cons, if_neg hk, ih, amGet_cons, if_neg hk]
      · rw [if_neg hq, ih, amGet_cons, if_neg hk]

theorem wiped_reg {s : State} {kind k : Nat} (hk : k < 0x100000) : (wiped s kind).reg k =
    if 0xB0000 ≤ k ∧ k < 0xC0000 then s.reg k else State.reset.reg k := by
  have h1 : slotKept s k = false := by
    unfold slotKept
    rw [List.any_eq_false]
    intro p _
    have : ¬ slotKey p.2.channel p.2.slot 0 ≤ k := by unfold slotKey chBase; omega
    simp [this]
  have h2 : amGet (wiped s kind).regs k = if 0xB0000 ≤ k ∧ k < 0xC0000 then amGet s.regs k else none := by
    show amGet (s.regs.filter (fun p => (0xB0000 ≤ p.1 && p.1 < 0xC0000) || slotKept s p.1)) k = _
    rw [amGet_filter (q := fun j => (0xB0000 ≤ j && j < 0xC0000) || slotKept s j), h1]
    simp
  unfold State.reg
  rw [h2]
  by_cases hb : 0xB0000 ≤ k ∧ k < 0xC0000
  · rw [if_pos hb, if_pos hb]
  · rw [if_neg hb, if_neg hb]
    rfl

/-- A reset leaves a fresh start (R433). -/
theorem restart_fresh {s : State} {kind : Nat} : FreshStart s (restart s kind) kind := by
  have hm := settled_mode.restart (bootSlot_same (fun s : State => s.supply.mode) (fun _ _ => rfl)) s kind (fun _ _ _ => rfl)
  have hd := settled_duty.restart (bootSlot_same State.duty (fun _ _ => rfl)) s kind (fun _ _ _ => rfl)
  have e : (wiped s kind).supply.mode = (kind, false, false, false, s.pwr.recs) := rfl
  have hm := hm.trans e
  have hm : (restart s kind).supply.mode = _ := hm
  simp only [Power.mode, Prod.mk.injEq] at hm
  refine ⟨hm.1, hm.2.1, hm.2.2.1, hm.2.2.2.1, congrArg Pair.role hd, congrArg Pair.partner hd, congrArg Pair.yielding hd, ?_⟩
  intro k h1 h2
  exact ((settled_reg h2).restart (bootSlot_same (fun s : State => s.reg k) (fun _ _ => rfl)) s kind (fun _ _ _ => rfl)).trans (wiped_reg h1)

theorem restart_recs {s : State} {kind : Nat} : (restart s kind).pwr.recs = s.pwr.recs := by
  have hm := settled_mode.restart (bootSlot_same (fun s : State => s.supply.mode) (fun _ _ => rfl)) s kind (fun _ _ _ => rfl)
  exact congrArg (fun x : Nat × Bool × Bool × Bool × AMap PfRec => x.2.2.2.2) hm

theorem restart_life {s : State} {kind : Nat} : max 1 (restart s kind).lc.state = max 1 s.lc.state :=
  settled_life.restart (bootSlot_same (fun s : State => max 1 s.lc.state) (fun _ _ => rfl)) s kind
    (fun _ v h => by show max 1 1 = max 1 v.lc.state; rw [h]; rfl)

/-- A reset leaves the life-cycle state, the first start apart (R482). -/
theorem restart_lcState {s : State} {kind : Nat} (h : s.lc.state ≠ 0) : (restart s kind).lc.state = s.lc.state :=
  settled_lc.restart (bootSlot_same (fun s : State => s.lc.state) (fun _ _ => rfl)) s kind (fun h0 => absurd h0 h)

/-- The update service after a reset with no slot to revert to (R502). -/
theorem restart_upd {s : State} {kind : Nat} (h : trialEnds s kind = none) :
    (restart s kind).upd = (wiped s kind).upd := by
  obtain ⟨v, -, h2, h3⟩ := settled_upd.startUp_boot ((wiped s kind).tick1)
    ((wiped s kind).bkp.loops.zipIdx.foldl (fun w l => setBitTo w l.2 l.1.active) 0) ((Config.freeByte (wiped s kind).free).getLsbD 0) (fun _ _ _ => rfl)
  have h4 : v.upd.revert = none := by rw [h2]; exact h
  have h5 : bootSlot v = v := by unfold bootSlot; rw [h4]
  exact (h3.trans (congrArg State.upd h5)).trans h2

/-- The update service after a reset that a trial slot ends with (R502). -/
theorem restart_upd_revert {s : State} {kind c : Nat} (h : trialEnds s kind = some c) :
    (restart s kind).upd =
      { (wiped s kind).upd with
        slotB := !s.upd.slotB, trial := false, revert := none
        owed := (wiped s kind).upd.owed ++ [(3, [if s.upd.slotB then 0 else 1, BitVec.ofNat 8 c])] } := by
  obtain ⟨v, -, h2, h3⟩ := settled_upd.startUp_boot ((wiped s kind).tick1)
    ((wiped s kind).bkp.loops.zipIdx.foldl (fun w l => setBitTo w l.2 l.1.active) 0) ((Config.freeByte (wiped s kind).free).getLsbD 0) (fun _ _ _ => rfl)
  have h2' : v.upd = (wiped s kind).upd := h2
  have h4 : v.upd.revert = some c := by rw [h2]; exact h
  have h6 : (wiped s kind).upd.slotB = s.upd.slotB := by
    show ({ wipedUpd s with revert := trialEnds s kind } : Upd).slotB = _
    unfold wipedUpd
    dsimp only
    split <;> [rfl; (split <;> rfl)]
  have h5 : (bootSlot v).upd = { v.upd with
      slotB := !v.upd.slotB, trial := false, revert := none
      owed := v.upd.owed ++ [(3, [if v.upd.slotB then 0 else 1, BitVec.ofNat 8 c])] } := by
    unfold bootSlot; rw [h4]; rfl
  refine h3.trans (h5.trans ?_)
  rw [h2', h6]

theorem padTo_self {n : Nat} {l : List Byte} (h : l.length = n) : padTo n l = l := by
  unfold padTo
  simp [← h]

theorem updRec_upd {s : State} {i : Nat} {p : List Byte} : (updRec s i p).upd = s.upd := by
  unfold updRec; simp

theorem updRec_regs {s : State} {i : Nat} {p : List Byte} : (updRec s i p).regs = s.regs := by
  unfold updRec; simp

theorem updEnds_upd {s : State} {new res : Nat} : (updEnds s new res).upd =
    { s.upd with state := new, result := res, lock := 0, port := 0, mac := 0,
                 header := if new = 3 then s.upd.header else [], body := if new = 3 then s.upd.body else [] } := by
  unfold updEnds
  dsimp only
  rw [updRec_upd]
  rfl

theorem updEnds_regs {s : State} {new res : Nat} : (updEnds s new res).regs = s.regs := by
  unfold updEnds
  dsimp only
  rw [updRec_regs]
  rfl

theorem takeBody_upd {s : State} {d : List Byte} (h : d.length ≤ s.upd.missing) : (takeBody s d).upd =
    { s.upd with body := s.upd.body ++ d, state := if d.length = s.upd.missing then 2 else s.upd.state } := by
  have hm : ({ s.upd with body := s.upd.body ++ d } : Upd).missing = s.upd.missing - d.length := by
    unfold Upd.missing
    simp only [List.length_append]
    omega
  unfold takeBody
  dsimp only
  rw [State.modUpd_upd, hm]
  split
  · rw [if_pos (by omega)]; rfl
  · rw [if_neg (by omega)]; rfl

theorem takeBody_rest {s : State} {d : List Byte} : (takeBody s d).regs = s.regs ∧ (takeBody s d).out = s.out := by
  unfold takeBody
  dsimp only
  split <;> exact ⟨rfl, rfl⟩

theorem FreshStart.of_same {a b t : State} {k : Nat} (h : FreshStart a t k) (hr : ∀ j, a.reg j = b.reg j) : FreshStart b t k := by
  obtain ⟨h1, h2, h3, h4, h5, h6, h7, h8⟩ := h
  refine ⟨h1, h2, h3, h4, h5, h6, h7, fun j hj1 hj2 => ?_⟩
  rw [h8 j hj1 hj2, hr]

theorem holdAll_regs {s : State} :
    ((List.range 8).foldl (fun s n => if s.present n then guardHoldOp n s else s) s).regs = s.regs :=
  State.foldl_same (fun u : State => u.regs) (fun u n => by
    split
    · exact guardHoldOp_regsv
    · rfl)

theorem holdAll_upd {s : State} :
    ((List.range 8).foldl (fun s n => if s.present n then guardHoldOp n s else s) s).upd = s.upd :=
  State.foldl_same (fun u : State => u.upd) (fun u n => by
    split
    · exact guardHoldOp_upds
    · rfl)

theorem wipedUpd_idle {s : State} (h : s.upd.state = 0 ∨ s.upd.state = 3) :
    wipedUpd s = { s.upd with lock := 0, port := 0, mac := 0, pState := 0, pSec := 0, pFmt := 0, result := 0 } := by
  unfold wipedUpd
  dsimp only
  rw [if_neg (by omega), if_neg (by omega)]

theorem confirmed_upd {s : State} : (confirmed s).upd =
    { s.upd with trial := false, floor := max s.upd.floor s.upd.running.secVer, result := 1 } := by
  unfold confirmed
  dsimp only
  rw [updRec_upd]
  rfl

theorem confirmed_regs {s : State} : (confirmed s).regs = s.regs := by
  unfold confirmed
  dsimp only
  rw [updRec_regs]
  rfl

/-- A planned restart with the copy (R501). -/
theorem plannedReset_copy {s : State} : ∃ t, plannedReset s true = t ∧ FreshStart s t 4 ∧ ∃ v : State, v.upd = s.upd ∧
    t.upd = { wipedUpd ((copyStaged v).modUpd (fun u => { u with trial := false })) with
      revert := none, trial := if (copyStaged v).upd.trial then true else s.upd.trial } := by
  refine ⟨_, rfl, ?_⟩
  unfold plannedReset
  dsimp only
  generalize hv : (List.range 8).foldl (fun s n => if s.present n then guardHoldOp n s else s) s = v
  have hu : v.upd = s.upd := hv ▸ holdAll_upd
  have hr : ∀ j, v.reg j = s.reg j := fun j => State.reg_of_regs (hv ▸ holdAll_regs)
  rw [if_pos rfl]
  have hc : ∀ j, ((copyStaged v).modUpd (fun u => { u with trial := false })).reg j = s.reg j := by
    intro j
    refine Eq.trans ?_ (hr j)
    unfold copyStaged
    dsimp only
    split <;> rfl
  have hf := (restart_fresh (s := (copyStaged v).modUpd (fun u => { u with trial := false })) (kind := 4)).of_same hc
  have hx := restart_upd (s := (copyStaged v).modUpd (fun u => { u with trial := false })) (kind := 4) rfl
  generalize restart ((copyStaged v).modUpd (fun u => { u with trial := false })) 4 = w at hf hx ⊢
  rw [← hu]
  have e : (w.modUpd (fun u => { u with trial := if (copyStaged v).upd.trial then true else v.upd.trial })).upd =
      { wipedUpd ((copyStaged v).modUpd (fun u => { u with trial := false })) with
        revert := none, trial := if (copyStaged v).upd.trial then true else v.upd.trial } := by
    rw [State.modUpd_upd, hx]
    rfl
  refine ⟨?_, v, rfl, ?_⟩
  · generalize (if (copyStaged v).upd.trial = true then true else v.upd.trial) = b
    split <;> exact hf
  · generalize (if (copyStaged v).upd.trial = true then true else v.upd.trial) = b at e ⊢
    split <;> exact e

theorem plannedReset_plain {s : State} {c : Nat} (ht : s.upd.trial = true) (hc : s.upd.revert = some c) :
    FreshStart s (plannedReset s false) 4 ∧ (plannedReset s false).upd.slotB = (!s.upd.slotB) ∧
    (plannedReset s false).upd.trial = false ∧ (plannedReset s false).upd.slotAImg = s.upd.slotAImg ∧
    (plannedReset s false).upd.slotBImg = s.upd.slotBImg ∧ (plannedReset s false).upd.floor = s.upd.floor := by
  unfold plannedReset
  dsimp only
  generalize hv : (List.range 8).foldl (fun s n => if s.present n then guardHoldOp n s else s) s = v
  have hu : v.upd = s.upd := hv ▸ holdAll_upd
  have hr : ∀ j, v.reg j = s.reg j := fun j => State.reg_of_regs (hv ▸ holdAll_regs)
  simp only [Bool.false_eq_true, if_false]
  have ht' : trialEnds v 4 = some c := by
    unfold trialEnds
    rw [hu, ht, hc]
    rfl
  have hw : ∀ {β : Type} (g : Upd → β), (∀ (u : Upd) a b c d e f x st he bo ow, g { u with
      lock := a, port := b, mac := c, pState := d, pSec := e, pFmt := f, result := x, state := st, header := he,
      body := bo, owed := ow } = g u) → g (wipedUpd v) = g v.upd := by
    intro β g hg
    unfold wipedUpd
    dsimp only
    split
    · exact hg _ _ _ _ _ _ _ _ _ _ _ _
    split
    · exact hg v.upd _ _ _ _ _ _ _ _ v.upd.header v.upd.body _
    · exact hg v.upd _ _ _ _ _ _ _ v.upd.state v.upd.header v.upd.body v.upd.owed
  rw [restart_upd_revert ht', ← hu]
  exact ⟨restart_fresh.of_same hr, rfl, rfl, hw (fun u => u.slotAImg) (fun _ _ _ _ _ _ _ _ _ _ _ _ => rfl),
    hw (fun u => u.slotBImg) (fun _ _ _ _ _ _ _ _ _ _ _ _ => rfl), hw (fun u => u.floor) (fun _ _ _ _ _ _ _ _ _ _ _ _ => rfl)⟩

/-- A slot reads as it was set. -/
theorem State.setVslot_vslot {s : State} {n m : Nat} {v : VSlot} :
    (s.setVslot n v).vslot m = if m = n then v else s.vslot m := by
  unfold State.setVslot State.vslot State.modVlt
  dsimp only
  by_cases hv : v = VSlot.reset
  · rw [if_pos hv]
    by_cases h : m = n
    · subst h; rw [amGet_amDel_self, if_pos rfl, hv]
    · rw [amGet_amDel_ne h, if_neg h]
  · rw [if_neg hv]
    by_cases h : m = n
    · subst h; rw [amGet_amSet_self, if_pos rfl]
    · rw [amGet_amSet_ne h, if_neg h]

/-- Slots read the same where the vault is the same. -/
theorem State.vslot_congr {s t : State} (h : t.vlt = s.vlt) (n : Nat) : t.vslot n = s.vslot n := by
  unfold State.vslot; rw [h]

/-- A change made to each slot of a list, once or more. -/
theorem State.foldVslot {g : VSlot → VSlot} (hg : ∀ v, g (g v) = g v) :
    ∀ {ds : List Nat} {s : State} {m : Nat}, (ds.foldl (fun (s : State) d => s.setVslot d (g (s.vslot d))) s).vslot m =
      if m ∈ ds then g (s.vslot m) else s.vslot m
  | [], _, _ => rfl
  | d :: ds, s, m => by
    rw [List.foldl_cons, State.foldVslot hg, State.setVslot_vslot]
    by_cases h : m = d
    · subst h
      simp only [if_true, List.mem_cons, true_or]
      split
      · exact hg _
      · rfl
    · simp only [List.mem_cons, h, false_or, if_false]

theorem orphanAll_vslot {s : State} {ds : List Nat} {m : Nat} : (orphanAll s ds).vslot m =
    if m ∈ ds then { s.vslot m with orphan := true, pend := none } else s.vslot m := by
  unfold orphanAll
  dsimp only
  rw [State.vslot_congr (State.vlts_foldl (fun s a => keyChanged_vlts) rfl)]
  exact State.foldVslot (g := fun v => { v with orphan := true, pend := none }) (fun v => rfl)

theorem dropPending_vslot {s : State} {ps : List Nat} {m : Nat} : (dropPending s ps).vslot m = s.vslot m ∨
    (dropPending s ps).vslot m = { s.vslot m with pend := none } := by
  unfold dropPending
  have h : ∀ l : List (Nat × VSlot), ((l.foldl (fun s p => s.setVslot p.1 { s.vslot p.1 with pend := none }) s).vslot m) =
      ((l.map (·.1)).foldl (fun (s : State) d => s.setVslot d ((fun v : VSlot => { v with pend := none }) (s.vslot d))) s).vslot m := by
    intro l; rw [List.foldl_map]
  rw [h, State.foldVslot (g := fun v => { v with pend := none }) (fun v => rfl)]
  split
  · exact Or.inr rfl
  · exact Or.inl rfl

/-- What the end of an operation leaves (R469). -/
theorem vaultDone_of {s s' : State} {o : VOp} {r : Nat} (hb : s.vlt.busy = some o) (h : vaultRun s o = (s', r)) :
    (vaultDone s).vlt = { s'.vlt with busy := none, result := r } ∧ ∀ n, (vaultDone s).vslot n = s'.vslot n := by
  have e : (vaultDone s).vlt = { s'.vlt with busy := none, result := r } := by
    unfold vaultDone
    rw [hb]
    dsimp only
    rw [h]
    dsimp only
    exact (State.intBit_vlts : (State.intBit _ _ _ _).vlts = _)
  refine ⟨e, fun n => ?_⟩
  unfold State.vslot
  rw [e]

theorem vaultOpComplete_done {s : State} (h : (vaultDone s).lc.waiting = none) : vaultOpCompleteOp s = vaultDone s := by
  unfold vaultOpCompleteOp
  dsimp only
  rw [h]

/-- No vault operation touches the life cycle. -/
theorem vaultRun_lc {s : State} {o : VOp} : (vaultRun s o).1.lc = s.lc := by
  have hl : ∀ {s t : State}, t.life = s.life → t.lc = s.lc := fun h => h
  unfold vaultRun
  split
  · rfl
  split
  · rfl
  split
  · unfold vGenerate
    split
    · rfl
    · split <;> rfl
  · unfold vDerive
    split
    · rfl
    · split
      · rfl
      · split
        · dsimp only
          split <;> rfl
        · rfl
  · unfold vImport
    dsimp only
    repeat' (first | rfl | split)
  · unfold vPromote
    dsimp only
    split
    · rfl
    · exact hl (orphanAll_life.trans (keyChanged_life.trans (dropPending_life.trans rfl)))
  · unfold vDiscard
    dsimp only
    split <;> rfl
  · unfold vInvalidate
    dsimp only
    split
    · rfl
    · exact hl (keyChanged_life.trans ((State.life_foldl (fun s a => State.setVslot_life) rfl).trans dropPending_life))
  · unfold vRederive
    dsimp only
    split
    · rfl
    · split
      · rfl
      · split <;> rfl
  · unfold vHmac; split <;> rfl
  · unfold vHmacVerify
    split
    · rfl
    · split <;> rfl
  · unfold vEcdsaVerify
    split
    · rfl
    · split
      · split <;> rfl
      · rfl

theorem vaultDone_lc {s : State} : (vaultDone s).lc = s.lc := by
  unfold vaultDone
  split
  · rfl
  · dsimp only
    have h : ∀ u : State, (u.intBit 0x90080 0 7).lc = u.lc := fun u => (State.intBit_life : (u.intBit 0x90080 0 7).life = u.life)
    rw [h]
    exact vaultRun_lc

theorem bytesBE_length {n v : Nat} : (bytesBE n v).length = n := by
  unfold bytesBE bytesLE; simp

/-- An interrupt bit set reads 1. -/
theorem State.intBit_reg {s : State} {key i vec : Nat} (h : i < 32) : bitN ((s.intBit key i vec).reg key) i = true := by
  have hr : (s.intBit key i vec).reg key = setBit (s.reg key) i := by
    unfold State.intBit
    dsimp only
    split
    · rw [State.sendVec_reg, State.reg_setReg_self]
    · rw [State.reg_setReg_self]
  rw [hr]
  exact bitN_setBit h

theorem putPending_vslot {s : State} {n m : Nat} {k : VKey} : (putPending s n k).vslot m =
    if m = n then { s.vslot n with pend := some k } else s.vslot m := State.setVslot_vslot

theorem descendants_zero {s : State} {n : Nat} : 0 ∉ descendants s n := by
  have st : ∀ (ps : List Nat), 0 ∉ (s.vlt.slots.filter (fun p => p.1 ≠ 0 && p.2.childOf ps)).map (·.1) := by
    intro ps h
    obtain ⟨p, hp, h0⟩ := List.mem_map.mp h
    have := (List.mem_filter.mp hp).2
    simp [h0] at this
  unfold descendants
  dsimp only
  intro h
  rw [List.mem_eraseDups, List.mem_filter] at h
  have h1 := h.1
  simp only [List.mem_append] at h1
  rcases h1 with ((((h1 | h1) | h1) | h1) | h1) | h1 <;> exact st _ h1

theorem descendants_self {s : State} {n : Nat} : n ∉ descendants s n := by
  unfold descendants
  dsimp only
  intro h
  rw [List.mem_eraseDups, List.mem_filter] at h
  simpa using h.2

theorem vaultAbort_vlt {s : State} {r : Nat} {o : VOp} (h : s.vlt.busy = some o) : (vaultAbort s r).vlt =
    { s.vlt with busy := none, result := r, outLen := 0, inBuf := [], outBuf := List.replicate 12 0 } := by
  unfold vaultAbort
  rw [if_pos (by rw [h]; rfl)]
  exact (State.intBit_vlts : (State.intBit _ _ _ _).vlts = _)

/-- What a loop's response leaves of the backup domain (R475, R476). -/
theorem tamperResponse_bkp {s : State} {i : Nat} {c : LoopSense} :
    (tamperResponse s i c).bkp.tcfg = s.bkp.tcfg ∧ (tamperResponse s i c).bkp.loops = s.bkp.loops ∧
    (tamperResponse s i c).bkp.unack = true ∧ (tamperResponse s i c).bkp.tcount = satInc 255 s.bkp.tcount ∧
    (tamperResponse s i c).bkp.tnext = (s.bkp.tnext + 1) % 30 ∧
    (tamperResponse s i c).bkp.bkek = (s.bkp.bkek && !s.eraseMode) ∧
    (tamperResponse s i c).bkp.bkekErased = (s.bkp.bkekErased || (s.eraseMode && s.bkp.bkek)) := by
  have h1 : ∀ (u : State) a b p, (vaultRec u a b p).bkp = u.bkp := fun u a b p => (vaultRec_bkps : (vaultRec u a b p).bkps = u.bkps)
  have h2 : ∀ (u : State) a, (vaultAbort u a).bkp = u.bkp := fun u a => (vaultAbort_bkps : (vaultAbort u a).bkps = u.bkps)
  have h3 : ∀ (u : State) a b, (setVstate u a b).bkp = u.bkp := fun u a b => (setVstate_bkps : (setVstate u a b).bkps = u.bkps)
  unfold tamperResponse
  dsimp only
  split
  · split
    · rw [h3, h1, State.alert_bkp, h2]
      exact ⟨rfl, rfl, rfl, rfl, rfl, rfl, rfl⟩
    · rw [h1, State.alert_bkp, h2]
      exact ⟨rfl, rfl, rfl, rfl, rfl, rfl, rfl⟩
  · split <;> exact ⟨rfl, rfl, rfl, rfl, rfl, rfl, rfl⟩

/-- What it leaves of the vault while VIN is good (R473, R476). -/
theorem tamperResponse_vlt {s : State} {i : Nat} {c : LoopSense} (hv : s.pwr.vinGood = true) :
    (tamperResponse s i c).vlt.busy = none ∧ (tamperResponse s i c).vlt.slots = s.vlt.slots ∧
    (s.vlt.busy ≠ none → (tamperResponse s i c).vlt.result = 9) ∧
    (tamperResponse s i c).vlt.vstate = (if s.eraseMode then 2 else s.vlt.vstate) := by
  have h1 : ∀ (u : State) a b p, (vaultRec u a b p).vlt = u.vlt := fun u a b p => (vaultRec_vlts : (vaultRec u a b p).vlts = u.vlts)
  have h3 : ∀ (u : State) a b, (setVstate u a b).vlt = { u.vlt with vstate := a } := by
    intro u a b
    unfold setVstate
    dsimp only
    split
    · rename_i h; rw [← h]
    · rw [h1]; rfl
  have h2 : ∀ (u : State), (vaultAbort u 9).vlt.busy = none ∧ (vaultAbort u 9).vlt.slots = u.vlt.slots ∧
      (u.vlt.busy ≠ none → (vaultAbort u 9).vlt.result = 9) ∧ (vaultAbort u 9).vlt.vstate = u.vlt.vstate := by
    intro u
    cases hb : u.vlt.busy with
    | none =>
      unfold vaultAbort
      rw [if_neg (by rw [hb]; simp)]
      exact ⟨hb, rfl, fun h => absurd rfl h, rfl⟩
    | some o => rw [vaultAbort_vlt hb]; exact ⟨rfl, rfl, fun _ => rfl, rfl⟩
  unfold tamperResponse
  dsimp only
  have hp : (prescRuns s).pwr.vinGood = true := hv
  rw [if_pos hp]
  have he : (prescRuns s).eraseMode = s.eraseMode := rfl
  rw [he]
  split
  · rw [h3, h1, State.alert_vlt]
    exact ⟨(h2 _).1, (h2 _).2.1, fun h => (h2 _).2.2.1 h, rfl⟩
  · rw [h1, State.alert_vlt]
    exact h2 _

theorem vaultRec_host {s : State} {i n : Nat} {p : List Byte} : (vaultRec s i n p).host = s.host := by
  unfold vaultRec State.intBit
  dsimp only
  split <;> simp

theorem setVstate_host {s : State} {a b : Nat} : (setVstate s a b).host = s.host := by
  unfold setVstate
  dsimp only
  split
  · rfl
  · rw [vaultRec_host]; rfl

theorem tamperResponse_alert {s : State} {i : Nat} {c : LoopSense} (hv : s.pwr.vinGood = true) :
    bitN (tamperResponse s i c).host.alert 4 = true := by
  unfold tamperResponse
  dsimp only
  have hp : (prescRuns s).pwr.vinGood = true := hv
  rw [if_pos hp]
  split
  · rw [setVstate_host, vaultRec_host, State.alert_host]; exact bitN_setBit (by decide)
  · rw [vaultRec_host, State.alert_host]; exact bitN_setBit (by decide)

theorem startUp_fresh {u w : State} {l : BitVec 2} {ok : Bool} {kind : Nat} (h1 : w.supply.mode = (wiped u kind).supply.mode)
    (h2 : w.duty = (wiped u kind).duty) (h3 : w.regs = (wiped u kind).regs) :
    FreshStart u (startUp w false l ok) kind ∧ (startUp w false l ok).pwr.recs = u.pwr.recs := by
  have hm := settled_mode.startUp (bootSlot_same (fun s : State => s.supply.mode) (fun _ _ => rfl)) w l ok (fun _ _ _ => rfl)
  have hd := (settled_duty.startUp (bootSlot_same State.duty (fun _ _ => rfl)) w l ok (fun _ _ _ => rfl)).trans h2
  have e : (wiped u kind).supply.mode = (kind, false, false, false, u.pwr.recs) := rfl
  have hm := hm.trans (h1.trans e)
  simp only [Power.mode, Prod.mk.injEq] at hm
  refine ⟨⟨hm.1, hm.2.1, hm.2.2.1, hm.2.2.2.1, congrArg Pair.role hd, congrArg Pair.partner hd, congrArg Pair.yielding hd, ?_⟩,
    hm.2.2.2.2⟩
  intro k h4 h5
  exact ((settled_reg h5).startUp (bootSlot_same (fun s : State => s.reg k) (fun _ _ => rfl)) w l ok (fun _ _ _ => rfl)).trans
    ((State.reg_of_regs h3).trans (wiped_reg h4))

theorem frameCancelsLost_supply {s : State} {n : Nat} : (frameCancelsLost s n).supply = s.supply := by
  unfold frameCancelsLost
  exact State.foldl_same State.supply (fun u f => State.foldl_same State.supply (fun v c => finish_supply))

theorem yieldTo_rest {s : State} {c : Nat} : (yieldTo s c).regs = s.regs ∧ (yieldTo s c).upd = s.upd ∧
    (yieldTo s c).supply = s.supply := ⟨yieldTo_regsv, yieldTo_upds, yieldTo_supply⟩

theorem yieldTo_pair {s : State} {c : Nat} (h1 : s.partnerReady = true) (h2 : s.pair.yielding = none) :
    (yieldTo s c).duty = { s.duty with yielding := some c, aliveOut := false } := by
  unfold yieldTo
  rw [if_pos ⟨h1, by rw [h2]; rfl⟩]
  exact State.foldl_same State.duty (fun u n => stopChannel_duty)

theorem beginService_supply_eq {s : State} : (beginService s).supply = { s.supply with service := true, state := 2, lost := [] } := by
  unfold beginService
  dsimp only
  refine (State.foldl_same State.supply (fun u x => updRec_supply)).trans (State.modUpd_supply.trans ?_)
  refine (State.foldl_same State.supply (fun u x => State.intBit_supply.trans raise_supply)).trans (State.modBkp_supply.trans ?_)
  refine (State.foldl_same State.supply (fun u x => State.intBit_supply.trans raise_supply)).trans (State.modVlt_supply.trans ?_)
  refine (State.foldl_same State.supply (fun u x => ?_)).trans (State.modBkp_supply.trans ?_)
  · split
    · exact State.intBit_supply.trans raise_supply
    · rfl
  have e : ((ringsServe (s.modPwr (fun p => { p with service := true, state := 2 }))).pwr.lost.foldl
      (fun s x => raiseBoth s 5 x.1 (bytesLE 4 x.2))
      ((ringsServe (s.modPwr (fun p => { p with service := true, state := 2 }))).modPwr (fun p => { p with lost := [] }))).supply =
      { s.supply with service := true, state := 2, lost := [] } := by
    refine (State.foldl_same State.supply (fun u x => raiseBoth_supply)).trans ?_
    have h : (ringsServe (s.modPwr (fun p => { p with service := true, state := 2 }))).supply =
        { s.supply with service := true, state := 2 } := ringsServe_supply
    exact congrArg (fun p : Power => { p with lost := [] }) h
  show State.supply (if _ then _ else _) = _
  split
  · exact timeRec_supply.trans e
  · exact e

theorem txnsLostAtWarning_rest {s : State} : (txnsLostAtWarning s).upd = s.upd ∧ (txnsLostAtWarning s).duty = s.duty ∧
    (txnsLostAtWarning s).supply = { s.supply with lost := s.pwr.lost ++ txnsLost s } := by
  unfold txnsLostAtWarning
  dsimp only
  refine ⟨?_, ?_, ?_⟩
  · refine (State.foldl_same State.upds (fun u c => ?_)).trans rfl
    split
    · exact loseTxn_upds
    · split
      · rfl
      · rfl
  · refine (State.foldl_same State.duty (fun u c => ?_)).trans rfl
    split
    · exact loseTxn_duty
    · split
      · rfl
      · rfl
  · refine (State.foldl_same State.supply (fun u c => ?_)).trans rfl
    split
    · exact loseTxn_supply
    · split
      · rfl
      · rfl

theorem setChState_chs_len {s : State} {n : Nat} {st : ChState} : (setChState s n st).chs.length = s.chs.length := by
  unfold setChState
  split
  · rfl
  · rw [State.sendVec_chs]
    simp [State.modCh]

theorem lcRun_fresh {s : State} {cmd new : Nat} (h : lcTarget s cmd = some new) :
    FreshStart s (lcRun cmd s) 5 ∧ max 1 (lcRun cmd s).lc.state = max 1 new ∧
    (new ≠ 0 → (lcRun cmd s).lc.state = new) := by
  unfold lcRun
  rw [h]
  dsimp only
  have h1 : ∀ c : Bool, (if c = true then pairLost s 5 else s).regs = s.regs := by
    intro c
    split
    · unfold pairLost pairRec
      exact State.alert_regsv.trans (State.sendVec_regsv.trans raise_regsv)
    · rfl
  generalize hA : (if (s.pair.role ≠ 0 && s.paired) = true then pairLost s 5 else s) = A
  have hA' : A.regs = s.regs := hA ▸ h1 _
  generalize hB : (if (cmd = 1 || cmd = 4 || cmd = 6) = true then wipePersisted A else A) = B
  have hB' : B.regs = s.regs := by
    rw [← hB, ← hA']
    split <;> rfl
  have key : ∀ C' : State, C'.regs = s.regs → C'.lc.state = new →
      FreshStart s (restart C' 5) 5 ∧ max 1 (restart C' 5).lc.state = max 1 new ∧
        (new ≠ 0 → (restart C' 5).lc.state = new) := by
    intro C' hC' hl
    refine ⟨restart_fresh.of_same (fun j => State.reg_of_regs hC'), by rw [restart_life, hl], fun h0 => ?_⟩
    rw [restart_lcState (by rw [hl]; exact h0), hl]
  split <;> refine key _ ?_ rfl <;> first | exact hB' | (split <;> exact hB')

theorem setPartnerFit_duty {s : State} {f : Bool} :
    (setPartnerFit s f).duty = { s.duty with partnerFit := f, fit := f } := by
  unfold setPartnerFit
  dsimp only
  split
  · exact pairHealthRec_duty.trans (armRelease_duty.trans rfl)
  · exact armRelease_duty.trans rfl

theorem setPartnerFit_regs {s : State} {f : Bool} : (setPartnerFit s f).regs = s.regs := by
  unfold setPartnerFit
  dsimp only
  split
  · unfold pairHealthRec pairRec
    dsimp only
    exact State.sendVec_regsv.trans raise_regsv
  · rfl

theorem pickTs_rest {s : State} : (pickTs s).regs = s.regs ∧ ∃ x, (pickTs s).duty = { s.duty with swapTs := x } := by
  unfold pickTs
  split
  · exact ⟨rfl, _, rfl⟩
  · exact ⟨rfl, s.pair.swapTs, rfl⟩

theorem closeRecs_nil {s : State} {n : Nat} (h : s.pair.recs = []) : closeRecs s n = s := by
  unfold closeRecs
  rw [h]
  have e : ({ s.pair with recs := [] } : Pair) = s.pair :=
    calc ({ s.pair with recs := [] } : Pair) = { s.pair with recs := s.pair.recs } := by rw [h]
      _ = s.pair := rfl
  exact congrArg (fun p => { s with pair := p }) e

theorem ownReport_rest {s : State} {hot : Bool} {a b c : Byte} {w : Word} : (ownReport s hot a b c w).regs = s.regs ∧
    ∃ l, l.length = 6 ∧ (ownReport s hot a b c w).pair = { s.pair with
      health := l, reportSeq := (s.pair.reportSeq + 1) % 65536, cycles := (s.pair.cycles + 1) % 2 ^ 32, lagMax := 0
      testBad := (a ≠ 0 || (b &&& ~~~c) ≠ 0 : Bool), fit := (s.pair.role = 2 : Bool) && !(a ≠ 0 || (b &&& ~~~c) ≠ 0 : Bool) } := by
  unfold ownReport
  dsimp only
  split <;> exact ⟨rfl, _, rfl, rfl⟩

theorem setRole_same {s : State} {c : Nat} : setRole s s.pair.role c = s := by
  unfold setRole
  dsimp only
  rw [if_pos rfl]

/-- The bulk copy of a partner that joins changes nothing here but the records sent (R408, R424). -/
theorem mirrorAll_rest {s : State} : (mirrorAll s).regs = s.regs ∧ (mirrorAll s).duty = s.duty := by
  have h1 : ∀ l : List MirrorRec, (l.foldl State.mirror s).regs = s.regs := fun l => State.foldl_same State.regs (fun u r => State.mirror_regs)
  have h2 : ∀ l : List MirrorRec, (l.foldl State.mirror s).duty = s.duty := fun l => State.foldl_same State.duty (fun u r => State.mirror_duty)
  unfold mirrorAll
  dsimp only
  exact ⟨h1 _, h2 _⟩

theorem joinMirror_regs {s t : State} : (joinMirror s t).regs = t.regs := by
  unfold joinMirror
  split
  · exact mirrorAll_rest.1
  · rfl

theorem joinMirror_duty {s t : State} : (joinMirror s t).duty = t.duty := by
  unfold joinMirror
  split
  · exact mirrorAll_rest.2
  · rfl

/-- Nothing is copied where the pair's standing did not change, or no mirror runs after it. -/
theorem joinMirror_same {s t : State} (h : t.mirrors = s.mirrors) : joinMirror s t = t := by
  unfold joinMirror
  rw [h]
  cases s.mirrors <;> rfl

theorem joinMirror_idle {s t : State} (h : t.pair.role ≠ 1 ∨ t.pair.refused = true) : joinMirror s t = t := by
  unfold joinMirror
  rw [if_neg]
  unfold State.mirrors
  rcases h with h | h <;> simp [h]

/-- A record of the pair keeps the pair's state but for the number of the last mirror record. -/
theorem mirrorLag_role {s : State} {h : Instant} (h1 : s.pair.role = 2) (h2 : s.time.now - h ≤ 100000) :
    mirrorLag s h = s.modPair (fun p => { p with lastH := h, lagMax := max p.lagMax ((s.time.now - h) / 1000) }) := by
  unfold mirrorLag
  dsimp only
  rw [if_neg (by rintro ⟨-, c⟩; exact Nat.not_lt.mpr h2 c)]

/-- A refusal leaves an UNPAIRED module UNPAIRED, and the other module no partner (R5, R401). -/
theorem pairRefused_idle {s : State} {p : Partner} {r : Nat} (h : s.pair.role = 0) :
    (pairRefused s p r).duty = { s.duty with refused := true, partnerFit := false } ∧ (pairRefused s p r).regs = s.regs := by
  unfold pairRefused
  dsimp only
  have g : (armRelease (s.modPair (fun q => { q with refused := true, partnerFit := false }))).duty =
      { s.duty with refused := true, partnerFit := false } := armRelease_duty
  have g' : (armRelease (s.modPair (fun q => { q with refused := true, partnerFit := false }))).regs = s.regs := rfl
  generalize armRelease (s.modPair (fun q => { q with refused := true, partnerFit := false })) = B at g g'
  have key : ∀ C : State, C.duty = B.duty → C.regs = B.regs →
      (if C.pair.role = 1 then C else setRole C 0 0).duty = { s.duty with refused := true, partnerFit := false } ∧
        (if C.pair.role = 1 then C else setRole C 0 0).regs = s.regs := fun C c1 c2 => by
    have c3 : C.pair.role = 0 := by
      have h9 := congrArg Pair.role (c1.trans g)
      exact h9.trans h
    rw [if_neg (by rw [c3]; decide)]
    have c4 := setRole_same (s := C) (c := 0)
    rw [c3] at c4
    rw [c4]
    exact ⟨c1.trans g, c2.trans g'⟩
  refine key _ pairRec_duty ?_
  unfold pairRec
  exact State.sendVec_regsv.trans raise_regsv

theorem txnsHandedOver_duty {s : State} : (txnsHandedOver s).duty = s.duty := by
  unfold txnsHandedOver
  refine State.foldl_same State.duty (fun u c => ?_)
  split
  · rfl
  · exact loseTxn_duty

theorem timeGone_duty {s : State} {a b : Nat} : (timeGone s a b).duty = s.duty := by
  unfold timeGone
  dsimp only
  exact State.alert_duty.trans (timeRec_duty.trans (disarm_duty.trans (passesInvalid_duty.trans txnNoTime_duty)))

theorem setClass_duty {s : State} {a b : Nat} : (setClass s a b).duty = s.duty := by
  unfold setClass
  dsimp only
  split
  · rfl
  have h : ∀ (u : State) (l : List Byte), u.duty = s.duty → (clearLocked (timeRec u.tick1 1 l)).duty = s.duty :=
    fun u l hu => clearLocked_duty.trans (timeRec_duty.trans hu)
  split
  · exact timeGained_duty.trans (h _ _ rfl)
  · split
    · exact timeGone_duty.trans (h _ _ rfl)
    · exact h _ _ rfl

theorem sourceLostOp_duty {s : State} : (sourceLostOp s).duty = s.duty := by
  unfold sourceLostOp
  dsimp only
  split
  · exact setClass_duty.trans (timeRec_duty.trans rfl)
  · split
    · exact setClass_duty.trans rfl
    · rfl

theorem sourceCheck_duty {s : State} : (sourceCheck s).duty = s.duty := by
  unfold sourceCheck
  split
  · exact sourceLostOp_duty
  · rfl

/-- What a change of role does to the pair's state (R400). -/
theorem setRole_duty {s : State} {new cause : Nat} (h : s.pair.role ≠ new) :
    (setRole s new cause).duty = { s.duty with
      role := new, made := false, memErr := false, decided := none, yielding := none, cycles := 0, aliveOut := true,
      syncPct := if new = 2 then 100 else 0 } := by
  unfold setRole
  dsimp only
  rw [if_neg h]
  generalize hA : (if 2 ≤ new then vaultAbort s 13 else s) = A
  have a1 : A.duty = s.duty := by
    rw [← hA]; split
    · exact vaultAbort_duty
    · rfl
  generalize hB : A.modPair (fun p => { p with role := new, made := false, memErr := false, decided := none, yielding := none, cycles := 0, aliveOut := true, syncPct := if new = 2 then 100 else 0 }) = B
  have b1 : B.duty = { s.duty with
      role := new, made := false, memErr := false, decided := none, yielding := none, cycles := 0, aliveOut := true,
      syncPct := if new = 2 then 100 else 0 } := by
    rw [← hB, ← a1]; rfl
  rw [← b1]
  generalize hC : pairRec B 1 [BitVec.ofNat 8 s.pair.role, BitVec.ofNat 8 new, BitVec.ofNat 8 B.pair.partnerRole, BitVec.ofNat 8 cause] = C
  have c1 : C.duty = B.duty := hC ▸ pairRec_duty
  have d1 : ∀ D : State, (sourceCheck (armRelease { busModes D with chs := (busModes D).chs.map (fun c => { c with stopped := false }) })).duty = D.duty :=
    fun D => sourceCheck_duty.trans armRelease_duty
  have d2 := (d1 C).trans c1
  generalize sourceCheck (armRelease { busModes C with chs := (busModes C).chs.map (fun c => { c with stopped := false }) }) = E at d2
  split
  · refine sourceCheck_duty.trans ((State.foldl_same State.duty (fun u p => ?_)).trans ((State.foldl_same State.duty (fun u p => ?_)).trans ?_))
    · split
      · exact setPortState_duty
      · rfl
    · split
      · exact holdTerminals_duty
      · rfl
    · split
      · exact txnsHandedOver_duty.trans (ringsWait_duty.trans d2)
      · exact d2
  · split
    · exact ringsServe_duty.trans d2
    · split
      · exact beginService_duty.trans d2
      · exact d2

theorem resumeLoop_duty {s : State} {n t g : Nat} : (resumeLoop s n t g).duty = s.duty := by
  unfold resumeLoop
  dsimp only
  split
  · rfl
  split
  · rfl
  split
  · rfl
  split
  · exact loopCommand_duty.trans rfl
  · rfl

theorem channelGo_duty {s : State} {n : Nat} {h : Instant} : (channelGo s n h).duty = s.duty := by
  unfold channelGo
  dsimp only
  split
  · rfl
  refine (State.foldl_same State.duty (fun u t => resumeLoop_duty)).trans (State.modCh_duty.trans ?_)
  refine (State.foldl_same State.duty (fun u x => segApply_duty)).trans ?_
  refine (State.foldl_same State.duty (fun u t => ?_)).trans (State.foldl_same State.duty (fun u d => ?_))
  · split
    · exact driveAout_duty
    · rfl
  · split
    · exact driveDout_duty
    · rfl

/-- What a takeover leaves of the pair's state (R418, R420). -/
theorem takeOver_duty {s : State} {cause gap : Nat} (h : s.pair.role ≠ 1) :
    ∃ y z x, (takeOver s cause gap).duty = { s.duty with
      recs := [], role := 1, made := true, memErr := false, decided := none, yielding := none, cycles := 0, aliveOut := true,
      syncPct := 0, takeovers := satInc 255 s.pair.takeovers, lastCause := cause, lastHot := s.pair.hot
      lastGap := min 65535 gap, lastSec := s.pair.lastH / giga % 2 ^ 32, swapping := false, busy := y, swapTs := z
      outs := x } := by
  refine ⟨false, s.pair.swapTs, [], ?_⟩
  unfold takeOver
  dsimp only
  have e1 : (disarm (s.modPair (fun p => { p with recs := [] })) 21).duty = { s.duty with recs := [] } := disarm_duty.trans rfl
  generalize disarm (s.modPair (fun p => { p with recs := [] })) 21 = D at e1 ⊢
  have e0 : D.pair.role = s.pair.role := by have := congrArg Pair.role e1; exact this
  have e2 := setRole_duty (s := D) (new := 1) (cause := if cause = 5 then 3 else 2) (by rw [e0]; exact h)
  rw [e1] at e2
  generalize setRole D 1 (if cause = 5 then 3 else 2) = A at e2 ⊢
  refine trigger_duty.trans (pairRec_duty.trans (State.alert_duty.trans (switchRecord_duty.trans ?_)))
  have key : ∀ B : State, B.duty = A.duty → (B.modPair (fun p => { p with
      made := true, takeovers := satInc 255 p.takeovers, lastCause := cause, lastHot := s.pair.hot, lastGap := min 65535 gap,
      lastSec := s.pair.lastH / giga % 2 ^ 32, swapping := false, busy := false, decided := none, outs := [] })).duty = { s.duty with
      recs := [], role := 1, made := true, memErr := false, decided := none, yielding := none, cycles := 0, aliveOut := true,
      syncPct := 0, takeovers := satInc 255 s.pair.takeovers, lastCause := cause, lastHot := s.pair.hot
      lastGap := min 65535 gap, lastSec := s.pair.lastH / giga % 2 ^ 32, swapping := false, busy := false, swapTs := s.pair.swapTs
      outs := [] } := by
    intro B hB
    have h1 : (B.modPair (fun p => { p with
      made := true, takeovers := satInc 255 p.takeovers, lastCause := cause, lastHot := s.pair.hot, lastGap := min 65535 gap,
      lastSec := s.pair.lastH / giga % 2 ^ 32, swapping := false, busy := false, decided := none, outs := [] })).duty =
      { B.duty with
        made := true, takeovers := satInc 255 B.duty.takeovers, lastCause := cause, lastHot := s.pair.hot, lastGap := min 65535 gap,
        lastSec := s.pair.lastH / giga % 2 ^ 32, swapping := false, busy := false, decided := none, outs := [] } := rfl
    rw [h1, hB, e2]
    rfl
  refine key _ ?_
  refine (State.foldl_same State.duty (fun u c => ?_)).trans ?_
  · split
    · rfl
    · rfl
  have e3 : ∀ X : State, (List.foldl (fun v n => channelGo v n s.pair.lastH) X (List.range 8)).duty = X.duty := fun X =>
    State.foldl_same State.duty (fun u n => channelGo_duty)
  generalize hF : List.foldl (fun v n => channelGo v n s.pair.lastH) _ (List.range 8) = F
  show F.duty = A.duty
  rw [← hF]
  exact (e3 _).trans rfl

theorem mirrorLag_late {s : State} {h : Instant} (h1 : s.pair.role = 2) (h2 : 100000 < s.time.now - h) :
    (mirrorLag s h).pair.role = 3 ∧ (mirrorLag s h).pair.lastH = h := by
  have key : ∀ D : State, D.pair.role = 2 → D.pair.lastH = h →
      (pairLost (setRole D 3 0) 1).pair.role = 3 ∧ (pairLost (setRole D 3 0) 1).pair.lastH = h := fun D d1 d2 => by
    have e := (pairLost_duty (s := setRole D 3 0) (cause := 1)).trans
      (setRole_duty (s := D) (new := 3) (cause := 0) (by rw [d1]; decide))
    have e1 := congrArg Pair.role e
    have e2 := congrArg Pair.lastH e
    exact ⟨e1, e2.trans d2⟩
  unfold mirrorLag
  dsimp only
  rw [if_pos ⟨h1, h2⟩]
  exact key _ h1 rfl

theorem accessWords_four {off : Nat} {data : BitVec 64} (h : off % 4 = 0) :
    accessWords off 4 data = [(off, 15, data.truncate 32)] := by
  have h8 : off % 8 = 0 ∨ off % 8 = 4 := by omega
  have e1 : (data <<< 32).extractLsb' 32 32 = (data.truncate 32 : BitVec 32) := by
    ext i hi; simp; intro _; omega
  have e0 : data.extractLsb' 0 32 = (data.truncate 32 : BitVec 32) := by
    ext i hi; simp
  unfold accessWords accessBe
  rcases h8 with h8 | h8
  · rw [h8]
    have : off / 8 * 8 = off := by omega
    simp only [this, Nat.mul_zero, BitVec.shiftLeft_zero, e0]
    rfl
  · rw [h8]
    have : off / 8 * 8 + 4 = off := by omega
    simp only [this]
    rw [show 8 * 4 = 32 from rfl, e1]
    rfl
theorem accessWords_one {off : Nat} {data : BitVec 64} (h : off % 4 = 0) :
    accessWords off 1 data = [(off, 1, data.truncate 32)] := by
  have h8 : off % 8 = 0 ∨ off % 8 = 4 := by omega
  have e1 : (data <<< 32).extractLsb' 32 32 = (data.truncate 32 : BitVec 32) := by
    ext i hi; simp; intro _; omega
  have e0 : data.extractLsb' 0 32 = (data.truncate 32 : BitVec 32) := by
    ext i hi; simp
  unfold accessWords accessBe
  rcases h8 with h8 | h8
  · rw [h8]
    have : off / 8 * 8 = off := by omega
    simp only [this, Nat.mul_zero, BitVec.shiftLeft_zero, e0]
    rfl
  · rw [h8]
    have : off / 8 * 8 + 4 = off := by omega
    simp only [this]
    rw [show 8 * 4 = 32 from rfl, e1]
    rfl
theorem regRow_join {n : Nat} (h : n < 8) : ∃ r, regRow (0x80020 + 4 * n) = some r ∧ r.mask = 0xFFF ∧ r.expert = false ∧ r.stage = true := by
  have : n = 0 ∨ n = 1 ∨ n = 2 ∨ n = 3 ∨ n = 4 ∨ n = 5 ∨ n = 6 ∨ n = 7 := by omega
  rcases this with rfl | rfl | rfl | rfl | rfl | rfl | rfl | rfl <;> exact ⟨_, rfl, rfl, rfl, rfl⟩
theorem join_four {a b : Word} : (a &&& ~~~(0xFFF : Word)) ||| (beMerge 15 a b &&& 0xFFF) = (a &&& 0xFFFFF000) ||| (b &&& 0xFFF) := by
  unfold beMerge
  rw [show beMask 15 = 0xFFFFFFFF from by decide, show ~~~(0xFFF : Word) = 0xFFFFF000 from by decide, show ~~~(0xFFFFFFFF : Word) = 0 from by decide]
  simp
  rw [show (4294967295#32) = BitVec.allOnes 32 from by decide, BitVec.and_allOnes]
theorem join_one {a b : Word} : (a &&& ~~~(0xFFF : Word)) ||| (beMerge 1 a b &&& 0xFFF) = (a &&& 0xFFFFFF00) ||| (b &&& 0xFF) := by
  unfold beMerge
  rw [show beMask 1 = 0xFF from by decide]
  ext i hi
  simp only [BitVec.getElem_or, BitVec.getElem_and, BitVec.getElem_not]
  have : ∀ i (h : i < 32), ∀ x y : Bool, ((x && !(0xFFF : Word)[i]) || ((x && !(0xFF : Word)[i]) || (y && (0xFF : Word)[i])) && (0xFFF : Word)[i]) =
    ((x && (0xFFFFFF00 : Word)[i]) || (y && (0xFF : Word)[i])) := by decide
  exact this i hi _ _
/-- A write to HUB_PAIR_JOINn (R412, R426). -/
theorem write_join {s : State} {n len : Nat} {be : BitVec 4} {data : BitVec 64} (hn : n < 8) (he : s.fnEn 0 = true)
    (hm : (s.fn 0).mse = true) (hr : s.reaches (0x80020 + 4 * n) = true) (ht : (s.txn 0).state ≠ .opened)
    (ha : accessOk (0x80020 + 4 * n) len = true)
    (hw : accessWords (0x80020 + 4 * n) len data = [(0x80020 + 4 * n, be, data.truncate 32)]) :
    ∃ w, exec (.registerWrite .bar0 0 (0x80020 + 4 * n) len data) s = .next ((s.setReg (0x80020 + 4 * n) w).mirror
      (.register (0x80020 + 4 * n) w)) ∧
      w = ((s.reg (0x80020 + 4 * n) &&& ~~~0xFFF) ||| (beMerge be (s.reg (0x80020 + 4 * n)) (data.truncate 32) &&& 0xFFF)) := by
  refine ⟨_, ?_, rfl⟩
  show Host.Outcome.next (memWriteOp 0 (0x80020 + 4 * n) len data (bar0Word 0) s) = _
  rw [memWrite_run he hm ha, hw]
  simp only [List.foldl_cons, List.foldl_nil]
  obtain ⟨r, r1, r2, r3, r4⟩ := regRow_join hn
  have w1 : writeReaches s 0 (0x80020 + 4 * n) = true := by
    unfold writeReaches ringForeign
    rw [if_neg (by omega), if_neg (by omega), hr]; rfl
  have w2 : stages s 0 (0x80020 + 4 * n) = false := by unfold stages; simp [ht]
  have w3 : isExpert (0x80020 + 4 * n) = false := by unfold isExpert; rw [r1]; exact r3
  unfold bar0Word viewOffset
  simp only [if_true, w1, w2, w3, Bool.not_true, Bool.false_eq_true, if_false]
  have d1 : (0x80020 + 4 * n) / 65536 = 8 := by omega
  have d2 : (0x80020 + 4 * n) % 65536 = 0x20 + 4 * n := by omega
  unfold writeReg
  rw [if_neg (by omega), if_pos (by omega)]
  unfold writeHub
  dsimp only
  rw [d1, d2]
  show Host.Outcome.next (writePair _ _ _ _) = _
  unfold writePair
  rw [if_neg (by omega), if_neg (by omega), show 0x80000 + (0x20 + 4 * n) = 0x80020 + 4 * n by omega]
  unfold storeWord
  have d3 : (0x80020 + 4 * n) % 0x1000000 = 0x80020 + 4 * n := by omega
  rw [d3, r1]
  dsimp only
  have d4 : ∀ w, clampReg (0x80020 + 4 * n) w = w := by
    intro w
    unfold clampReg
    dsimp only
    rw [if_neg (by omega), if_neg (by omega), if_neg (by omega), if_neg (by omega), if_pos (by omega)]
  have d5 : mirroredKey (0x80020 + 4 * n) = true := by
    unfold mirroredKey
    simp [r1, r4]; omega
  rw [d4, d5, r2]
  rfl

end Sys2Proof.Machine
end

