-- ==== Sys2Proof/WellFormed.lean ====
section
/-! DEFINITION. Well-formed commands: every operand names something the module has. `exec` gives the other commands a
meaning too; a statement that needs the bounds takes well-formedness as a hypothesis. -/

namespace Sys2Proof

/-- The first count of nanoseconds that 48 bits of seconds do not hold (R41). -/
def instantEnd : Nat := 2 ^ 48 * 1000000000

/-- A transaction context: a function's, Watershed's (64), or that of a LOOP_GROUP entry of the hub list (128 + i). -/
def ctxOk (c : Nat) : Bool := c < 65 || (128 ≤ c && c < 1086)

/-- An access of 1 to 8 bytes that crosses no 8-byte boundary (R70). -/
def widthOk (off len : Nat) : Bool := 0 < len && off % 8 + len ≤ 8

/-- The command's operands lie in their ranges. -/
def Instr.wf : Instr → Bool
  | .registerWrite _ fn off len _ => fn < 64 && off < 2 ^ 24 && widthOk off len
  | .pointUpdate ch => ch < 8
  | .forwardedUpdate ch => ch < 8
  | .commandAtChannel ch => ch < 8
  | .outcomeReported ch => ch < 8
  | .linkLost ch => ch < 8
  | .linkReturn ch => ch < 8
  | .resendComplete ch => ch < 8
  | .mirselWrite fn handle => fn < 64 && handle < 16384
  | .dirwinWrite _ => true
  | .minIntExpiry handle => handle < 16384
  | .maxIntExpiry handle => handle < 16384
  | .passExpiry pass => pass < 4096
  | .basinRemove b => 0 < b && b < 64
  | .basinRemoveDone b => b < 64
  | .beginTxn fn => fn < 64
  | .stagedWrite fn off len _ => fn < 64 && off < 2 ^ 24 && widthOk off len
  | .commitNow fn => fn < 64
  | .commitAt fn => fn < 64
  | .rollback fn => fn < 64
  | .prepareAck ctx ch => ctxOk ctx && ch < 9
  | .txnPrepTimeout ctx => ctxOk ctx
  | .txnGo ctx => ctxOk ctx
  | .goAck ctx ch => ctxOk ctx && ch < 8
  | .txnGoDeadline ctx => ctxOk ctx
  | .txnApply ctx => ctxOk ctx
  | .perstRelease => true
  | .endpointReady => true
  | .hostPortReset _ => true
  | .flr b => 0 < b && b < 64
  | .pfFlr => true
  | .flrDone fn => fn < 64
  | .vfEnableWrite _ numVfs => numVfs < 65536
  | .busMasterChange fn _ _ => fn < 64
  | .msixUnmask fn _ => fn < 64
  | .tlpError _ fn ring _ => fn < 64 && ring.all (fun r => decide (r < 16))
  | .completionTimeout fn ring _ => fn < 64 && ring < 16
  | .dmaReadFailure fn ring _ => fn < 64 && ring < 16
  | .smbusIdent addr _ => addr < 128
  | .smbusHealth addr _ => addr < 128
  | .smbusReadAlert addr _ => addr < 128
  | .smbusClearAlert _ addr => addr < 128
  | .doorbell b r _ _ => b < 64 && r < 16
  | .evconsWrite b _ => b < 64
  | .ringEnable b r _ => b < 64 && r < 16
  | .ringDisable b r => b < 64 && r < 16
  | .haltedRingDisable b r => b < 64 && r < 16
  | .ringDisabled b r _ => b < 64 && r < 16
  | .eventRingControl b _ => b < 64
  | .pointCommand b r _ => b < 64 && r < 16
  | .frameTransmit b r _ _ => b < 64 && r < 16
  | .cancelFrame b r _ _ => b < 64 && r < 16
  | .cancelByCookie b r _ => b < 64 && r < 16
  | .moderationTimer b r => b < 64 && r < 17
  | .frameReceived b r _ => b < 64 && r < 16
  | .submit fn => fn < 64
  | .withdraw fn => fn < 64
  | .query fn => fn < 64
  | .placeNow fn => fn < 64
  | .placementPass => true
  | .rebalanceTimer => true
  | .takeOut ch => ch < 8
  | .channelDrained ch => ch < 8
  | .bringIn ch => ch < 8
  | .channelFault ch _ => ch < 8
  | .migrationStateArrival loop => loop < 8192
  | .migrationStateTimeout loop => loop < 8192
  | .migrationRelease loop => loop < 8192
  | .offsetSample _ _ _ => true
  | .offinWrite _ => true
  | .setTime => true
  | .invalidate => true
  | .timeStep => true
  | .sourceLost => true
  | .holdoverEnd => true
  | .beacon => true
  | .beaconArrival ch => ch < 8
  | .ptpMessage port _ _ ago => port < 2 && ago < instantEnd
  | .gptpSync ch seg => ch < 8 && seg < 2
  | .pdelayReq ch seg node => ch < 8 && seg < 2 && node < 64
  | .tsqPop q => q < 10
  | .actionFire table idx => table < 9 && idx < 2048
  | .loopGroupPrepare idx => idx < 958
  | .calStart ch _ => ch < 8
  | .calDone ch _ => ch < 8
  | .tableDisable ch => ch < 8
  | .tableEnable ch => ch < 8
  | .loopSample ch slot => ch < 8 && slot < 1024
  | .loopOutput ch slot => ch < 8 && slot < 1024
  | .loopSlotWrite ch slot w _ _ => ch < 8 && slot < 1024 && w < 16
  | .snapselWrite ch slot => ch < 8 && slot < 1024
  | .counterAcquisition ch => ch < 8
  | .canCtlWrite ch x _ => ch < 8 && x < 2
  | .recover ch x => ch < 8 && x < 2
  | .canModeApplied ch x => ch < 8 && x < 2
  | .canIntegrationDone ch x => ch < 8 && x < 2
  | .canFrameReceived ch x _ ago => ch < 8 && x < 2 && ago < instantEnd
  | .canArbitrationEnd ch x _ => ch < 8 && x < 2
  | .canTxSuccess ch x ago _ => ch < 8 && x < 2 && ago < instantEnd
  | .canTxError ch x _ _ _ => ch < 8 && x < 2
  | .canBusOn ch x _ => ch < 8 && x < 2
  | .canNodeTimeout ch x id _ => ch < 8 && x < 2 && id < 2 ^ 29
  | .canProtoExc ch x => ch < 8 && x < 2
  | .netLinkUp p speed _ _ => p < 2 && 0 < speed && speed < 4
  | .netLinkDown p => p < 2
  | .netPortDisable p => p < 2
  | .netFrameReceived p _ ago => p < 2 && ago < instantEnd
  | .netTxDone p ago => p < 2 && ago < instantEnd
  | .pauseReceived p quanta => p < 2 && quanta < 65536
  | .pauseExpiry p => p < 2
  | .xoffRepeat p => p < 2
  | .verifyMpacket p => p < 2
  | .verifyResponse p => p < 2
  | .verifyTimeout p => p < 2
  | .netHold p => p < 2
  | .reasmTimeout p => p < 2
  | .segFrameReceived ch x _ ago => ch < 8 && x < 2 && ago < instantEnd
  | .segTxDone ch x ago => ch < 8 && x < 2 && ago < instantEnd
  | .segCollision ch x _ => ch < 8 && x < 2
  | .segBackoffExpiry ch x => ch < 8 && x < 2
  | .segModeApplied ch x => ch < 8 && x < 2
  | .plcaBeacon ch x => ch < 8 && x < 2
  | .plcaToTimer ch x => ch < 8 && x < 2
  | .plcaBeaconLoss ch x => ch < 8 && x < 2
  | .t1sNodeTimeout ch x node => ch < 8 && x < 2 && node < 32
  | .fsupLow ch reading => ch < 8 && reading < 65536
  | .fsupOk ch reading => ch < 8 && reading < 65536
  | .fsupInputsInvalid ch reading => ch < 8 && reading < 65536
  | .fsupInputsValid ch reading => ch < 8 && reading < 65536
  | .undervoltageLockout ch reading => ch < 8 && reading < 65536
  | .fsupRestartRise ch reading => ch < 8 && reading < 65536
  | .uvloRestart ch => ch < 8
  | .fsupGuardLoss ch reading => ch < 8 && reading < 65536
  | .dinEdge ch i _ ago => ch < 8 && i < 16 && ago < instantEnd
  | .doutOvercurrent ch d => ch < 8 && d < 8
  | .doutOvertemp ch d => ch < 8 && d < 8
  | .doutRetry ch d => ch < 8 && d < 8
  | .clrOc ch _ => ch < 8
  | .groupOvercurrent ch currents => ch < 8 && currents.length == 8
  | .extDrive ch d => ch < 8 && d < 8
  | .openLoad ch d => ch < 8 && d < 8
  | .guardKick ch => ch < 8
  | .guardTrip ch => ch < 8
  | .guardHold ch => ch < 8
  | .guardHoldExpiry ch => ch < 8
  | .adcScan ch i => ch < 8 && i < 8
  | .adcConversionComplete ch i _ _ _ => ch < 8 && i < 8
  | .ainBurdenOpen ch i => ch < 8 && i < 8
  | .ainBurdenRestore ch i => ch < 8 && i < 8
  | .pairLinkUp _ _ => true
  | .roleDecision _ => true
  | .heartbeatSend => true
  | .heartbeatReceived _ => true
  | .mirrorRecord seq _ => seq < 65536
  | .heartbeatTimeout => true
  | .pairAliveChange _ => true
  | .takeover _ _ => true
  | .madeReceived => true
  | .releaseTimeout ch => ch < 8
  | .swap => true
  | .swapYield => true
  | .swapTimeout => true
  | .selftest => true
  | .selftestDone _ _ _ _ => true
  | .healthReport words => words.length == 6
  | .healthReportTimeout => true
  | .resyncDone epoch time => epoch < 65536 && time < instantEnd
  | .vinGood _ _ _ => true
  | .pointServiceBegin => true
  | .powerFailWarning => true
  | .powerFailFreeze => true
  | .powerFailRecord => true
  | .vinCollapse => true
  | .vinReturn => true
  | .warm _ => true
  | .channelRestart ch _ => ch < 8
  | .channelRestartDone ch => ch < 8
  | .watchdog => true
  | .calendarSecond => true
  | .rtcLoad => true
  | .soClear => true
  | .calendarSync => true
  | .calCycle => true
  | .autoCalWindow _ => true
  | .oscStopped => true
  | .vbatMeasure v => v < 65536
  | .vaultGenerate slot => slot < 512
  | .vaultDerive slot => slot < 512
  | .vaultImport slot => slot < 512
  | .vaultPromote slot => slot < 512
  | .vaultDiscard slot => slot < 512
  | .vaultInvalidate slot => slot < 512
  | .vaultRederive slot => slot < 512
  | .vaultHmac slot => slot < 512
  | .vaultHmacVerify slot => slot < 512
  | .vaultEcdsaVerify slot => slot < 512
  | .vaultOpComplete => true
  | .slotselWrite slot => slot < 512
  | .tamperSample _ _ => true
  | .tamperModeChange _ => true
  | .release _ => true
  | .commission _ _ => true
  | .enterService _ _ => true
  | .maintain _ _ => true
  | .decommission _ _ => true
  | .reclaim _ _ => true
  | .reprovision _ _ => true
  | .updateLoad _ => true
  | .updateAbort => true
  | .updateHeader port _ _ _ => port < 2
  | .updateChunk port _ _ offset _ => port < 2 && offset < 2 ^ 26
  | .updateAbortFrame port _ _ => port < 2
  | .stagingVerified => true
  | .stagingTimeout => true
  | .activate _ => true
  | .disarm => true
  | .plannedRestart => true
  | .confirmSlot => true
  | .autoConfirm => true
  | .revert => true
  | .push => true
  | .latchingRead fn off _ len => fn < 64 && off < 2 ^ 24 && widthOk off len
  | .canRxError ch x _ _ _ => ch < 8 && x < 2
  | .xon p => p < 2
  | .doutJunctionCooled ch d => ch < 8 && d < 8
  | .aoutCurrentLimit ch t _ => ch < 8 && t < 4
  | .dieTemperatureLimit => true
  | .uncorrectableMemoryError => true
  | .hostPortBufferError _ fn ring _ => fn < 64 && ring.all (fun r => decide (r < 16))
  | .pcieLinkUp speed width => 0 < speed && speed < 4 && (width == 1 || width == 2 || width == 4)
  | .usbVbusSense _ => true
  | .adcBurstConversion ch idx => ch < 8 && idx < 2048
  | .vaultJournalClose => true
  | .healthReportSend => true
  | .ptpTransmit port kind => port < 2 && kind < 5
  | .beaconSilenceStop ch => ch < 8

end Sys2Proof
end

