-- ==== Sys2Proof/Tests/Slice0.lean ====
section
/-! SUPPORT. Tests: commands the block's tables refuse, worked examples of the spec, and for each statement about the
module a state and operands that meet its hypotheses together. -/

open Sys2Proof Sys2Proof.Machine Sys2Proof.Config

namespace Sys2Proof.Tests

set_option Elab.async false

/- ## States the tests start from -/

/-- A channel in service with a valid time. -/
def upCh : Chan :=
  { Chan.reset with
    state := .inService, xbarUp := true, isoOk := true,
    tb := { ChanTime.reset with now := 1000000000000, valid := true, locked := true } }

/-- A module in service: time valid, functions 0 to 3 with bus mastering and memory space, all channels up. -/
def on : State :=
  { State.reset with
    ticks := 1000000000, host := { HostPort.reset with perst := false, ready := true, vfEnable := true, numVfs := 3 },
    fns := List.replicate 64 { Fn.reset with mse := true, bme := true, msixEn := true },
    time := { HubTime.reset with now := 1000000000000, cls := 5, servo := .track },
    chs := List.replicate 8 upCh, lc := { LifeCycle.reset with state := 3 },
    pwr := { Power.reset with vinGood := true, begun := true, service := true } }

/-- `on` with channel 0 as given. -/
def chOn (c : Chan) : State := { on with chs := c :: List.replicate 7 upCh }

/-- `on` with port 0 as given. -/
def netOn (p : NetPort) : State := { on with nets := [p, NetPort.reset] }

/-- `on` with the first CAN controller of channel 0 as given. -/
def canOn (c : Can) : State := chOn { upCh with can := [c, Can.reset] }

/-- `on` with the first T1S segment of channel 0 as given. -/
def segOn (g : Seg) : State := chOn { upCh with seg := [g, Seg.reset] }

/-- `on` with the field I/O of channel 0 as given. -/
def dioOn (d : Dio) : State := chOn { upCh with dio := d }

/-- `on` with ring 0 of basin 0 as given. -/
def ringOn (r : Ring) : State := { on with rings := [(0, r)] }

/-- `on` with the transaction context 0 as given. -/
def txnOn (t : Txn) : State := { on with txns := [(0, t)] }

/-- `on` with the pair unit as given. -/
def pairOn (p : Pair) : State := { on with pair := p }

/-- `on` with the update service as given. -/
def updOn (u : Upd) : State := { on with upd := u }

/-- `on` with the vault open and slot 5 as given. -/
def vltOn (o : Option VOp) (k : VSlot) : State :=
  { on with vlt := { Vault.reset with vstate := 1, busy := o, slots := [(5, k)] } }

/-- An active ring of 64 slots, of a kind. -/
def actRing (kind : Nat) : Ring := { Ring.reset with state := .active, kind := kind, sizeLog2 := 6 }

/-- A point in effect, of an origin, at an index of a channel. -/
def pt (origin channel index : Nat) : Point :=
  { pointOf 0 0 [] with origin := origin, channel := channel, index := index, inEffect := true, ring := 0, write := 1 }

/-- `on` with one point. -/
def ptOn (p : Point) : State := { on with points := [(0, p)] }

/-- A GOOD update of point 0. -/
def upd0 : Update := { handle := 0, tag := 0, m := Mirror.never, resent := false }

/-- A command to point 0 of an owner, from ring 1,023. -/
def cmd0 (tag : Nat) : ChCmd :=
  { handle := 0, value := 1, tag := tag, ring := 1023, flight := 0, cookie := 0, at? := none, tol := 0 }

/-- An outcome of flight 7 of ring 0, and the flight. -/
def rep7 : Report := { ring := 0, flight := 7, status := 0, tsq := false, late := false, info := 0 }
def fl7 : Flight := { id := 7, idx := 0, cookies := [0], ckind := 0, channel := 0, late := false }

/-- A ring with one descriptor to fetch. -/
def oneRing (kind : Nat) : Ring := { actRing kind with sw := 1 }

/-- A point command of point 0, a cancel request by index of ring 1 and one by cookie. -/
def cmdD : BitVec 256 := BitVec.ofNat 256 (0x10 * 2 ^ 240)
def canIdxD : BitVec 256 := BitVec.ofNat 256 (0x11 * 2 ^ 240 + 2 ^ 208)
def canByD : BitVec 256 := BitVec.ofNat 256 (0x11 * 2 ^ 240 + 2 ^ 212)

/-- A frame of one CAN identifier 0x123 and no data, and a posted buffer of 64 bytes. -/
def frmD : BitVec 512 := BitVec.ofNat 512 (0x20 * 2 ^ 496 + 3 * 2 ^ 184 + 0x123 * 2 ^ 192 + 2 ^ 128)
def bufD : BitVec 512 := BitVec.ofNat 512 (0x21 * 2 ^ 496 + 64 * 2 ^ 128)

/-- A controller on its bus. -/
def canUp : Can := { Can.reset with state := .errorActive, mode := 1 }

/-- A received frame staged for a ring. -/
def rxF : RxFrame :=
  { target := 0, node := 0, can := none, bytes := List.replicate 64 0, stamp := 0, timeValid := true, queue := 0 }

/-- The timed entry of a point command with a cookie of 0, at an instant. -/
def ent (kind : ActKind) (start : Instant) : Entry := descEntry .descCmd kind 0 0 0 0 0 start

/-- A loop of one sample on channel 0. -/
def lp : Loop := { loopOf 0 [] with period := 1, st := .placed }

/-- `on` with a watershed as given. -/
def wsOn (w : Watershed) : State := { on with ws := w }

/-- A migration of loop 0 from slot 0 of channel 0 to slot 1 of channel 7. -/
def mig : Migration :=
  { loop := 0, fromCh := 0, fromSlot := 0, toCh := 7, toSlot := 1, reason := 0, tm := none, arrived := false }

/-- A beacon at hub time. -/
def bcn : Beacon := { time := 1000000000000, seq := 0, valid := true, stepArm := false, stepped := false, cls := 5 }

/-- `on` with a time unit as given. -/
def timeOn (t : HubTime) : State := { on with time := t }

/-- A slot of the loop engine that runs loop 0. -/
def rt : LoopRt := { LoopRt.reset with loop := some 0, en := true }

/-- `on` with slot 0 of channel 0 as given and loop 0 placed there. -/
def loopOn (r : LoopRt) : State :=
  { chOn { upCh with slots := [(0, r)] } with ws := { Watershed.reset with loops := [(0, lp)] } }

/-- A CAN frame of identifier 0x7FF, and a filter element that accepts it into queue 7. -/
def canF : CanFrame :=
  { id := 0x7FF, ide := false, fdf := false, brs := false, rtr := false, esi := false, dlc := 0, data := [] }
def elem7 : Nat × Word := (0x151000, 0x07FFFFEF)

/-- A frame of the module's own, of no ring. -/
def txF : TxFrame := TxFrame.blank

/-- An Ethernet frame of 60 bytes to all stations, and its wire form. -/
def ethB : List Byte := List.replicate 6 0xFF ++ List.replicate 54 0
def eth (ok : Bool) : EthFrame := ⟨ethB, ok⟩

/-- An Ethernet frame from node 31 (address 0) to the first segment of channel 0. -/
def segB : List Byte := [2, 0, 0, 0, 0, 2] ++ List.replicate 54 0

/-- `on` with a segment and its configuration word 0x18. -/
def plcaOn (g : Seg) (w : Word) : State := { segOn g with regs := [(0x170018, w)] }

/-- `on` with DOUT 7 of channel 0 as given. -/
def doutOn (o : Dout) : State := dioOn { Dio.reset with dout := List.replicate 7 Dout.reset ++ [o] }

/-- A tripped output that is commanded on. -/
def trip : Dout := { Dout.reset with cmd := true, tripped := true }

/-- A vault command, and the vault with slots as given. -/
def vop (cmd slot : Nat) (arg : Word) (len : Nat) : VOp :=
  { cmd := cmd, slot := slot, arg := arg, len := len, label := [], input := [] }
def vkey (kind origin parent : Nat) : VKey :=
  { kind := kind, origin := origin, parent := parent, depth := 1, basin := 0, label := [], key := [] }
def vlts (o : VOp) (l : List (Nat × VSlot)) : State :=
  { on with vlt := { Vault.reset with vstate := 1, busy := some o, slots := l } }
def vact (k : VKey) : VSlot := { VSlot.reset with active := some k }

/-- The life cycle as given. -/
def lcOn (l : LifeCycle) : State := { on with lc := l }

/-- `on` with the backup domain or the power unit as given. -/
def bkpOn (b : Backup) : State := { on with bkp := b }
def pwrOn (p : Power) : State := { on with pwr := p }

/-- A partner that fits, and a heartbeat of an ACTIVE module. -/
def mate : Partner :=
  { code4 := false, enabled := true, groupId := 0, sideB := true, mirrorFmt := 1, lifecycle := 3, serial := 2,
    segSerial := 2, role := 0, modeHot := false }
def beat : Heartbeat :=
  { time := 1000000000000, seq := 0, role := 1, fit := true, yields := true, made := false, swapPrep := false,
    mirrorSeq := 0, crcOk := true }

/-- Inputs 1 to 3 of channel 0 do not count. -/
theorem counts_none (i : Nat) (h1 : 0 < i) (h2 : i < 4) :
    { on with regs := [(0x190014, 0x10), (0x190040, 0x10000)], points := [(0, pt 1 0 36)] }.counting 0 i = false := by
  have h : i = 1 ∨ i = 2 ∨ i = 3 := by omega
  rcases h with rfl | rfl | rfl <;> decide +kernel

/-- A header of the module's format, for eight channels. -/
def updHdr : List Byte :=
  [0x54, 0x55, 0x5A, 0x49, 1, 0, 1, 0, 1, 0, 0, 0] ++ List.replicate 12 0 ++ [1, 0, 0, 0] ++ List.replicate 228 0

/- ## Each statement's hypotheses are met -/

theorem test_meets_PointUpdates :
    (∃ (s : State) (n : Nat) (u : Update) (us : List Update) (p : Point), (s.ch n).egress = u :: us ∧
      amGet s.points u.handle = some p ∧ p.owner = u.tag) ∧
    (∃ (s : State) (n : Nat) (u : Update) (us : List Update) (p : Point), (s.ch n).egress = u :: us ∧
      amGet s.points u.handle = some p ∧ p.owner ≠ u.tag) ∧
    (∃ (s : State) (n : Nat) (u : Update) (us : List Update), (s.ch n).ingress = u :: us ∧ s.linkDown n = false) :=
  ⟨⟨{ chOn { upCh with egress := [upd0] } with points := [(0, pt 1 0 0)] }, 0, upd0, [], pt 1 0 0, by decide +kernel⟩,
   ⟨{ chOn { upCh with egress := [upd0] } with points := [(0, { pt 1 0 0 with owner := 1 })] }, 0, upd0, [],
      { pt 1 0 0 with owner := 1 }, by decide +kernel⟩,
   ⟨chOn { upCh with ingress := [upd0] }, 0, upd0, [], by decide +kernel⟩⟩

theorem test_meets_MirrorWindow :
    (∃ (s : State) (fn h : Nat) (p : Point), s.shaped = true ∧ fn < 64 ∧ s.reaches 0x4F010 = true ∧
      amGet s.points (h % 16384) = some p ∧ s.sees fn (h % 16384) = true) ∧
    (∃ (s : State) (fn h : Nat), s.shaped = true ∧ fn < 64 ∧ s.reaches 0x4F010 = true ∧
      s.sees fn (h % 16384) = false) ∧
    (∃ (s : State) (_en : Bool), s.reaches 0x4F000 = true) :=
  ⟨⟨ptOn { pt 1 0 0 with owner := 63 }, 63, 0, { pt 1 0 0 with owner := 63 }, by decide +kernel⟩,
   ⟨ptOn (pt 1 0 0), 63, 16383, by decide +kernel⟩,
   ⟨on, true, by decide +kernel⟩⟩

theorem test_meets_DeliveryTimers :
    (∃ (s : State) (h : Nat) (p : Point), amGet s.points h = some p ∧ p.held = true ∧ covPasses p p.mir true = true) ∧
    (∃ (s : State) (h : Nat) (p : Point), amGet s.points h = some p ∧ p.held = true ∧
      covPasses p p.mir true = false) ∧
    (∃ (s : State) (h : Nat) (p : Point), amGet s.points h = some p ∧ p.maxInt ≠ 0) :=
  ⟨⟨ptOn { pt 1 0 0 with held := true, cov := 0, mir := { Mirror.never with seq := 1 } }, 0,
      { pt 1 0 0 with held := true, cov := 0, mir := { Mirror.never with seq := 1 } }, by decide +kernel⟩,
   ⟨ptOn { pt 1 0 0 with held := true, cov := 1 }, 0, { pt 1 0 0 with held := true, cov := 1 }, by decide +kernel⟩,
   ⟨ptOn { pt 1 0 0 with maxInt := 1 }, 0, { pt 1 0 0 with maxInt := 1 }, by decide +kernel⟩⟩

theorem test_meets_ChannelLink :
    (∃ (s : State) (n : Nat), s.shaped = true ∧ s.fitted n = true ∧ (s.ch n).state ≠ .absent ∧
      (s.ch n).state ≠ .linkLost ∧ (s.ch n).state ≠ .fault) ∧
    (∃ (s : State) (n : Nat), s.shaped = true ∧ n < 8 ∧ (s.ch n).state = .linkLost ∧ (s.ch n).xbarUp = false) ∧
    (∃ (s : State) (n : Nat), s.shaped = true ∧ n < 8 ∧ (s.ch n).state = .linkLost ∧ (s.ch n).xbarUp = true ∧
      (s.ch n).relock = false ∧ (∀ u ∈ (s.ch n).egress, u.resent = false)) :=
  ⟨⟨on, 7, by decide +kernel⟩,
   ⟨chOn { upCh with state := .linkLost, xbarUp := false }, 0, by decide +kernel⟩,
   ⟨chOn { upCh with state := .linkLost }, 0, by decide +kernel⟩⟩

theorem test_meets_PassesAndRemoval :
    (∃ (s : State) (id : Nat) (p : Pass), amGet s.ws.passes id = some p ∧ p.expiry ≠ 0 ∧ s.timeValid = true ∧
      p.expiry * giga ≤ s.time.now) ∧
    (∃ (s : State) (b : Nat), 1 ≤ b ∧ b ≤ 63 ∧ s.reaches 0x4F100 = true ∧ s.basinEn b = false ∧
      s.ws.removing.contains b = false) :=
  ⟨⟨{ on with ws := { Watershed.reset with passes := [(0, { passOf [] with expiry := 1000 })] } }, 0,
      { passOf [] with expiry := 1000 }, by decide +kernel⟩,
   ⟨on, 63, by decide +kernel⟩⟩

theorem test_meets_CommandsAndOutcomes :
    (∃ (s : State) (n : Nat) (c : ChCmd) (cs : List ChCmd) (p : Point), s.shaped = true ∧ n < 8 ∧
      (s.ch n).cmds = c :: cs ∧ amGet s.points c.handle = some p ∧ (s.ch n).state = .inService ∧ s.works n = true ∧
      tagOk p c.tag = true ∧ s.loopOut c.handle = false ∧ p.origin = 1 ∧ 16 ≤ p.index ∧ p.index < 24 ∧
      c.at? = none ∧ s.guardHolds n = false ∧ p.index - 16 < (s.dio n).dout.length ∧ c.ring < 1024) ∧
    (∃ (s : State) (n : Nat) (c : ChCmd) (cs : List ChCmd) (p : Point), s.shaped = true ∧ n < 8 ∧
      (s.ch n).cmds = c :: cs ∧ amGet s.points c.handle = some p ∧ (s.ch n).state = .inService ∧ s.works n = true ∧
      tagOk p c.tag = false ∧ c.ring < 1024) ∧
    (∃ (s : State) (n : Nat) (r : Report) (rs : List Report) (f : Flight) (k : Slot), (s.ch n).reports = r :: rs ∧
      r.ring < 1024 ∧ (s.ring r.ring).flights.find? (fun f => f.id == r.flight) = some f ∧ f.cookies = [k] ∧
      (s.ring r.ring).state = .active ∧ (s.ring r.ring).held = [] ∧ s.mayWrite (ringFn r.ring) = true ∧
      s.linkDown n = false) :=
  ⟨⟨{ chOn { upCh with cmds := [cmd0 0] } with points := [(0, pt 1 0 23)] }, 0, cmd0 0, [], pt 1 0 23,
      by decide +kernel⟩,
   ⟨{ chOn { upCh with cmds := [cmd0 1] } with points := [(0, pt 1 0 23)] }, 0, cmd0 1, [], pt 1 0 23,
      by decide +kernel⟩,
   ⟨{ chOn { upCh with reports := [rep7] } with rings := [(0, { actRing 1 with flights := [fl7] })] }, 0, rep7, [],
      fl7, 0, by decide +kernel⟩⟩

theorem test_meets_TransactionBuilt :
    (∃ (s : State) (fn : Nat), s.lc.quar = 0 ∧ s.txnRefused = false ∧ (s.txn fn).state = .idle ∧
      scopeOk s fn (fld (s.regF fn 0x10004) 0 16) = true) ∧
    (∃ (s : State) (fn : Nat), s.lc.quar = 0 ∧ s.txnRefused = false ∧ (s.txn fn).state ≠ .idle) ∧
    (∃ (s : State) (fn off a : Nat) (_data : BitVec 64), s.fnEn fn = true ∧ (s.fn fn).mse = true ∧ off % 4 = 0 ∧
      viewOffset fn off = some a ∧ writeReaches s fn a = true ∧ stages s fn a = true ∧
      (∀ e ∈ (s.txn fn).staged, e.key ≠ a) ∧ (s.txn fn).staged.length < 4096) ∧
    (∃ (s : State) (fn : Nat), fn < 64 ∧ s.lc.quar = 0 ∧ s.txnRefused = false ∧ (s.txn fn).state = .opened ∧
      (s.txn fn).goSent = false ∧ (s.txn fn).resetAfter = false) :=
  ⟨⟨{ on with regs := [(0x10004, 1)] }, 0, by decide +kernel⟩,
   ⟨txnOn { Txn.reset with state := .opened }, 0, by decide +kernel⟩,
   ⟨{ on with txns := [(0, { Txn.reset with state := .opened, scope := 0x400 })] }, 0, 0x41000, 0x41000, 0,
      by decide +kernel⟩,
   ⟨{ on with txns := [(63, { Txn.reset with state := .opened })] }, 63, by decide +kernel⟩⟩

theorem test_meets_TransactionCommitted :
    (∃ (s : State) (fn : Nat), s.lc.quar = 0 ∧ s.txnRefused = false ∧ (s.txn fn).state = .opened ∧
      commitCheck s fn false = 0) ∧
    (∃ (s : State) (fn : Nat), s.lc.quar = 0 ∧ s.txnRefused = false ∧ (s.txn fn).state = .opened ∧
      commitCheck s fn true = 0) ∧
    (∃ (s : State) (c ch : Nat), (s.txn c).state = .preparing ∧ (s.txn c).waitPrep = [ch]) ∧
    (∃ (s : State) (c : Nat), c < 64 ∧ (s.txn c).state = .preparing ∧ (s.txn c).resetAfter = false) ∧
    (∃ (s : State) (c : Nat), (s.txn c).state = .pending ∧ (s.txn c).goSent = false ∧
      (s.txn c).apply ≤ s.time.now + 100000) ∧
    (∃ (s : State) (c _ch : Nat), (s.txn c).goSent = true) ∧
    (∃ (s : State) (c : Nat), c < 64 ∧ (s.txn c).state = .pending ∧ (s.txn c).goSent = true ∧
      (s.txn c).waitGo ≠ [] ∧ (s.txn c).resetAfter = false) ∧
    (∃ (s : State) (c : Nat), c < 64 ∧ (s.txn c).state = .pending ∧ partsDue s (s.txn c) ≠ [] ∧
      (s.txn c).waitGo = [] ∧ ((s.txn c).goSent = true ∨ (s.txn c).channels = [])) :=
  ⟨⟨txnOn { Txn.reset with state := .opened, scope := 1 }, 0, by decide +kernel⟩,
   ⟨{ txnOn { Txn.reset with state := .opened, scope := 1 } with regs := [(0x10008, 0), (0x1000C, 1001)] }, 0,
      by decide +kernel⟩,
   ⟨txnOn { Txn.reset with state := .preparing, waitPrep := [7] }, 0, 7, by decide +kernel⟩,
   ⟨{ on with txns := [(63, { Txn.reset with state := .preparing })] }, 63, by decide +kernel⟩,
   ⟨txnOn { Txn.reset with state := .pending, apply := 1000000100000 }, 0, by decide +kernel⟩,
   ⟨txnOn { Txn.reset with state := .pending, goSent := true }, 0, 0, by decide +kernel⟩,
   ⟨txnOn { Txn.reset with state := .pending, goSent := true, waitGo := [0] }, 0, by decide +kernel⟩,
   ⟨txnOn { Txn.reset with state := .pending, apply := 1000000000000, scope := 1, goSent := true }, 0,
      by decide +kernel⟩⟩

theorem test_meets_HostPortUp :
    (∃ s : State, s.host.perst = false ∧ s.pwr.vinGood = true) ∧
    (∃ (s : State) (speed width : Nat), s.host.perst = false ∧ s.pwr.vinGood = true ∧ 1 ≤ speed ∧ 1 ≤ width) ∧
    (∃ (s : State) (_en : Bool) (num : Nat), s.cfgReady 0 = true ∧ s.host.vfEnable = false ∧ s.lc.quar = 0 ∧
      s.lc.state ≠ 5 ∧ num ≤ 63) ∧
    (∃ (s : State) (_num : Nat), s.cfgReady 0 = true ∧ s.host.vfEnable = true) ∧
    (∃ (s : State) (_en : Bool) (_num : Nat), s.host.perst = false ∧ s.pwr.vinGood = true ∧ s.host.ready = false) :=
  ⟨⟨on, by decide +kernel⟩,
   ⟨on, 1, 1, by decide +kernel⟩,
   ⟨{ on with host := { on.host with vfEnable := false } }, true, 63, by decide +kernel⟩,
   ⟨on, 0, by decide +kernel⟩,
   ⟨{ on with host := { on.host with ready := false } }, true, 63, by decide +kernel⟩⟩

theorem test_meets_FunctionResets :
    (∃ (s : State) (b : Nat), s.Inv ∧ 1 ≤ b ∧ b < 64 ∧ s.cfgReady b = true) ∧
    (∃ (s : State) (fn : Nat), s.shaped = true ∧ fn < 64) ∧
    (∃ s : State, s.Inv ∧ s.host.numVfs < 64 ∧ s.cfgReady 0 = true) ∧
    (∃ (s : State) (_cause : HostResetCause), s.Inv ∧ s.host.numVfs < 64) :=
  ⟨⟨on, 3, ⟨by decide +kernel, by decide +kernel⟩, by decide +kernel⟩,
   ⟨on, 63, by decide +kernel⟩,
   ⟨on, ⟨by decide +kernel, by decide +kernel⟩, by decide +kernel⟩,
   ⟨on, .perst, ⟨by decide +kernel, by decide +kernel⟩, by decide +kernel⟩⟩

theorem test_meets_BusMasteringAndMsix :
    (∃ (s : State) (b : Nat) (_bme _d3hot : Bool), s.shaped = true ∧ b < 64 ∧ s.cfgReady b = true) ∧
    (∃ (s : State) (b _v : Nat), s.shaped = true ∧ b < 64) ∧
    (∃ (s : State) (b : Nat), s.shaped = true ∧ b < 64) :=
  ⟨⟨on, 3, true, false, by decide +kernel⟩,
   ⟨on, 63, 2047, by decide +kernel⟩,
   ⟨on, 63, by decide +kernel⟩⟩

theorem test_meets_HostPortErrors :
    (∃ (s : State) (e : TlpError) (_fn : Nat) (_ring : Option Nat) (_chain : List (BitVec 512)), s.shaped = true ∧
      (e = .receiver ∨ e = .badTlp ∨ e = .badDllp ∨ e = .replayTimeout ∨ e = .replayRollover)) ∧
    (∃ (s : State) (e : TlpError) (_fn : Nat) (_ring : Option Nat) (_chain : List (BitVec 512)), s.shaped = true ∧
      (e = .dataLink ∨ e = .flowControl ∨ e = .overflow ∨ e = .malformed ∨ e = .unexpected)) ∧
    (∃ (s : State) (e : TlpError) (fn : Nat) (_ring : Option Nat) (_chain : List (BitVec 512)), s.shaped = true ∧
      fn < 64 ∧ (e = .poisonedWrite ∨ e = .ecrcRequest ∨ e = .unsupported)) ∧
    (∃ (s : State) (e : TlpError) (fn r : Nat) (_chain : List (BitVec 512)), s.shaped = true ∧ fn < 64 ∧ r < 16 ∧
      (s.ring (16 * fn + r)).state = .active ∧
      (e = .poisonedCompletion ∨ e = .ecrcCompletion ∨ e = .urCompletion ∨ e = .caCompletion)) ∧
    (∃ (s : State) (fn r : Nat) (_chain : List (BitVec 512)), s.shaped = true ∧ fn < 64 ∧ r < 16 ∧
      (s.ring (16 * fn + r)).state = .active) ∧
    (∃ (s : State) (fn r : Nat) (_chain : List (BitVec 512)), r < 16 ∧ (s.ring (16 * fn + r)).state = .active) ∧
    (∃ (s : State) (_fn : Nat) (_ring : Option Nat) (_chain : List (BitVec 512)), s.shaped = true) ∧
    (∃ (s : State) (fn r : Nat) (_chain : List (BitVec 512)), s.shaped = true ∧ fn < 64 ∧ r < 16 ∧
      (s.ring (16 * fn + r)).state = .active) :=
  ⟨⟨on, .replayRollover, 63, none, [], by decide +kernel⟩,
   ⟨on, .unexpected, 0, none, [], by decide +kernel⟩,
   ⟨on, .unsupported, 63, none, [], by decide +kernel⟩,
   ⟨{ on with rings := [(1023, actRing 1)] }, .caCompletion, 63, 15, [], by decide +kernel⟩,
   ⟨{ on with rings := [(1023, actRing 1)] }, 63, 15, [], by decide +kernel⟩,
   ⟨{ on with rings := [(15, actRing 1)] }, 0, 15, [], by decide +kernel⟩,
   ⟨on, 0, none, [], by decide +kernel⟩,
   ⟨{ on with rings := [(1023, actRing 1)] }, 63, 15, [], by decide +kernel⟩⟩

theorem test_meets_SmbusCommands :
    (∃ (s : State) (_pec : Bool), s.pwr.vinGood = true ∧ s.pwr.vinTick + 37500000 ≤ s.ticks) ∧
    (∃ (s : State) (_pec : Bool), s.pwr.vinGood = true ∧ s.pwr.vinTick + 37500000 ≤ s.ticks) ∧
    (∃ (s : State) (_pec : Bool), s.pwr.vinGood = true ∧ s.pwr.vinTick + 37500000 ≤ s.ticks) ∧
    (∃ (s : State) (_bits : BitVec 16), s.pwr.vinGood = true ∧ s.pwr.vinTick + 37500000 ≤ s.ticks) ∧
    (∃ (s : State) (addr : Nat) (_pec : Bool) (_bits : BitVec 16),
      (s.pwr.vinGood = false ∨ s.ticks < s.pwr.vinTick + 37500000 ∨ addr ≠ (if s.pwr.smbHigh then 0x5D else 0x5C))) :=
  ⟨⟨{ on with pwr := { on.pwr with vinTick := 962500000 } }, true, by decide +kernel⟩,
   ⟨{ on with pwr := { on.pwr with vinTick := 962500000 } }, true, by decide +kernel⟩,
   ⟨{ on with pwr := { on.pwr with vinTick := 962500000 } }, true, by decide +kernel⟩,
   ⟨{ on with pwr := { on.pwr with vinTick := 962500000 } }, 0, by decide +kernel⟩,
   ⟨on, 0x5D, false, 0, by decide +kernel⟩⟩

theorem test_meets_RingControl :
    (∃ (s : State) (b r : Nat) (ctl : Word), s.lc.quar = 0 ∧ r < 16 ∧ (s.ring (16 * b + r)).state = .disabled ∧
      fld ctl 1 3 ≤ 3 ∧ 6 ≤ fld ctl 4 4 ∧ addrsOk s (ringBase (16 * b + r)) = true ∧ (s.fn b).bme = true) ∧
    (∃ (s : State) (b r : Nat) (ctl : Word), s.lc.quar = 0 ∧ r < 16 ∧ (s.ring (16 * b + r)).state = .disabled ∧
      (3 < fld ctl 1 3 ∨ fld ctl 4 4 < 6 ∨ addrsOk s (ringBase (16 * b + r)) = false ∨ (s.fn b).bme = false)) ∧
    (∃ (s : State) (b r : Nat), s.lc.quar = 0 ∧
      ((s.ring (16 * b + r)).state = .active ∨ (s.ring (16 * b + r)).state = .waitService)) ∧
    (∃ (s : State) (b r : Nat), s.lc.quar = 0 ∧ (s.ring (16 * b + r)).state = .halted) ∧
    (∃ (s : State) (b r : Nat) (_posted : List (BitVec 512)), (s.ring (16 * b + r)).state = .disabling ∧
      ((s.ring (16 * b + r)).kind = 1 ∨ (s.ring (16 * b + r)).kind = 2) ∧ s.mayWrite b = true ∧
      (s.ring (16 * b + r)).held = [] ∧ (s.ring (16 * b + r)).hw = (s.ring (16 * b + r)).sw ∧
      (s.ring (16 * b + r)).flights = []) ∧
    (∃ (s : State) (b : Nat) (ctl : Word), s.lc.quar = 0 ∧ (s.ev b).state = .disabled ∧ bitN ctl 0 = true ∧
      6 ≤ fld ctl 4 4 ∧ addrsOk s (evBase b) = true ∧ (s.fn b).bme = true) ∧
    (∃ (s : State) (b : Nat) (ctl : Word), s.lc.quar = 0 ∧ (s.ev b).state ≠ .disabled ∧ bitN ctl 0 = false) :=
  ⟨⟨{ on with regs := [(0x301E8, 0x1000), (0x301F0, 0x1000)] }, 0, 15, 0x66, by decide +kernel⟩,
   ⟨on, 0, 0, 0x50, by decide +kernel⟩,
   ⟨ringOn { actRing 1 with state := .waitService }, 0, 0, by decide +kernel⟩,
   ⟨ringOn { actRing 1 with state := .halted }, 0, 0, by decide +kernel⟩,
   ⟨ringOn { actRing 2 with state := .disabling }, 0, 0, [], by decide +kernel⟩,
   ⟨{ on with regs := [(0x38008, 0x1000), (0x38010, 0x1000)] }, 0, 0x61, by decide +kernel⟩,
   ⟨{ on with evs := [(0, { EvRing.reset with state := .halted })] }, 0, 0, by decide +kernel⟩⟩

theorem test_meets_RingTraffic :
    (∃ (s : State) (b r : Nat) (be : BitVec 8) (data : BitVec 64), s.fnEn b = true ∧ (s.fn b).mse = true ∧
      s.lc.quar = 0 ∧ r < 16 ∧ (s.ring (16 * b + r)).state = .active ∧ (s.ring (16 * b + r)).kind ≠ 0 ∧
      be.getLsbD 0 = true ∧ be.getLsbD 1 = true ∧ be.getLsbD 2 = false ∧ be.getLsbD 4 = false ∧
      producerOk (s.ring (16 * b + r)) (data.toNat % 65536) = true) ∧
    (∃ (s : State) (b r : Nat) (be : BitVec 8) (data : BitVec 64), s.fnEn b = true ∧ (s.fn b).mse = true ∧
      s.lc.quar = 0 ∧ r < 16 ∧ (s.ring (16 * b + r)).state = .active ∧ (s.ring (16 * b + r)).kind ≠ 0 ∧
      be.getLsbD 0 = true ∧ be.getLsbD 1 = true ∧ be.getLsbD 2 = false ∧ be.getLsbD 4 = false ∧
      producerOk (s.ring (16 * b + r)) (data.toNat % 65536) = false) ∧
    (∃ (s : State) (b : Nat) (data : Word), s.lc.quar = 0 ∧ (s.ev b).state ≠ .disabled ∧
      consumerOk (s.ev b).cons (s.ev b).hw (fld data 0 16) = true) ∧
    (∃ (s : State) (b : Nat), ((s.ev b).armed = true ∨ bitN (s.reg (evBase b + 4)) 24 = false) ∧ 0 < (s.ev b).pend) ∧
    (∃ (s : State) (b r : Nat), r < 16 ∧
      ((s.ring (16 * b + r)).armed = true ∨ bitN (s.reg (ringBase (16 * b + r) + 4)) 24 = false) ∧
      0 < (s.ring (16 * b + r)).pend) ∧
    (∃ (s : State) (b r src len : Nat) (f : RxFrame) (d : BitVec 512) (_ds : List (BitVec 512)), r < 16 ∧
      oldestFrame (stagedFor s (16 * b + r)) = some (src, f) ∧ (s.ring (16 * b + r)).state = .active ∧
      (s.ring (16 * b + r)).kind = 3 ∧ (s.ring (16 * b + r)).held = [] ∧ s.mayWrite b = true ∧ s.basinEn b = true ∧
      1 ≤ idxDist (s.ring (16 * b + r)).sw (s.ring (16 * b + r)).hw ∧ rxLen d = some len ∧ f.payload.length ≤ len) :=
  ⟨⟨ringOn (actRing 1), 0, 0, 3, 64, by decide +kernel⟩,
   ⟨ringOn (actRing 1), 0, 0, 3, 65, by decide +kernel⟩,
   ⟨{ on with evs := [(0, { EvRing.reset with state := .active, hw := 2 })] }, 0, 2, by decide +kernel⟩,
   ⟨{ on with evs := [(0, { EvRing.reset with pend := 1 })] }, 0, by decide +kernel⟩,
   ⟨{ on with rings := [(15, { Ring.reset with pend := 1 })] }, 0, 15, by decide +kernel⟩,
   ⟨{ chOn { upCh with staged := [(0, rxF)] } with rings := [(0, oneRing 3)] }, 0, 0, 0, 64, rxF, bufD, [],
      by decide +kernel⟩⟩

theorem test_meets_Descriptors :
    (∃ (s : State) (b r : Nat) (d : BitVec 256) (p : Point), s.shaped = true ∧ r < 16 ∧
      mayFetch s (16 * b + r) 1 1 = true ∧ (s.ring (16 * b + r)).state = .active ∧ cmdKind d ≠ 0x11 ∧
      cmdCheck s b d = 0 ∧ amGet s.points (cmdHandle d) = some p ∧ p.isHub = false ∧ p.channel < 8) ∧
    (∃ (s : State) (b r e : Nat) (d : BitVec 256), b < 64 ∧ r < 16 ∧ mayFetch s (16 * b + r) 1 1 = true ∧
      (s.ring (16 * b + r)).state = .active ∧ (s.ring (16 * b + r)).held = [] ∧
      (∀ g ∈ (s.ring (16 * b + r)).flights, g.id ≠ s.serial) ∧ cmdKind d ≠ 0x11 ∧ cmdCheck s b d = e ∧ e ≠ 0 ∧
      e ≠ 5) ∧
    (∃ (s : State) (b r : Nat) (d : BitVec 512) (ds : List (BitVec 512)) (payload : List Byte) (f : TxFrame),
      s.shaped = true ∧ r < 16 ∧ oneChain (d :: ds) = true ∧ mayFetch s (16 * b + r) (ds.length + 1) 2 = true ∧
      (s.ring (16 * b + r)).state = .active ∧ frameCheck s b (d :: ds) payload = 0 ∧
      canTarget (frmTarget d) = true ∧ frmTarget d < 32 ∧ (s.ch (frmTarget d / 4)).can.length = 2 ∧
      frmAt d = false ∧ frameOf s b (16 * b + r) d s.serial (s.ring (16 * b + r)).hw payload = some f ∧
      (s.can (frmTarget d / 4) (frmTarget d % 4)).down = false) ∧
    (∃ (s : State) (b r n : Nat) (d : BitVec 256) (f : TxFrame), s.shaped = true ∧ b < 64 ∧ r < 16 ∧ n < 8 ∧
      (s.ch n).can.length = 2 ∧ mayFetch s (16 * b + r) 1 1 = true ∧ (s.ring (16 * b + r)).state = .active ∧
      cmdKind d = 0x11 ∧ s.basinEn b = true ∧ cancelBy d = false ∧
      (s.ring (16 * b + d32 d 26 0 4)).state ≠ .disabled ∧ (s.ring (16 * b + d32 d 26 0 4)).kind = 2 ∧
      d32 d 26 0 4 ≠ r ∧
      (∀ m < n, ∀ x, (s.can m x).txq.find? (isTarget (16 * b + d32 d 26 0 4) (d32 d 24 0 16)) = none ∧ (s.seg m x).txq.find? (isTarget (16 * b + d32 d 26 0 4) (d32 d 24 0 16)) = none) ∧
      (s.can n 0).txq.find? (isTarget (16 * b + d32 d 26 0 4) (d32 d 24 0 16)) = some f ∧ f.table = 9 ∧
      f.cancel = [] ∧ f.ring < 1024 ∧ (s.can n 0).won = false ∧ (s.ch n).state ≠ .linkLost) ∧
    (∃ (s : State) (b r i : Nat) (d : BitVec 256) (e : Entry), b < 64 ∧ r < 16 ∧
      mayFetch s (16 * b + r) 1 1 = true ∧ (s.ring (16 * b + r)).state = .active ∧ (s.ring (16 * b + r)).held = [] ∧
      (∀ g ∈ (s.ring (16 * b + r)).flights, g.id ≠ s.serial) ∧ cmdKind d = 0x11 ∧ s.basinEn b = true ∧
      cancelBy d = true ∧ (∀ n < 8, (s.ch n).table.entries = []) ∧ s.hlist.entries = [(i, e)] ∧
      e.origin ≠ .declared ∧ e.basin = b ∧ e.cookie = BitVec.ofNat 64 (d32 d 16 0 64) ∧ e.waiting = false ∧
      inWindow s 8 e = false) :=
  ⟨⟨{ ringOn (oneRing 1) with points := [(0, pt 1 7 16)] }, 0, 0, cmdD, pt 1 7 16, by decide +kernel⟩,
   ⟨ringOn (oneRing 1), 0, 0, 8, 0, by decide +kernel⟩,
   ⟨{ canOn canUp with rings := [(0, oneRing 2)] }, 0, 0, frmD, [], [],
      (frameOf { canOn canUp with rings := [(0, oneRing 2)] } 0 0 frmD 0 0 []).getD TxFrame.blank,
      by decide +kernel⟩,
   ⟨{ canOn { canUp with txq := [{ TxFrame.blank with ring := 1 }] } with rings := [(0, oneRing 1), (1, actRing 2)] },
      0, 0, 0, canIdxD, { TxFrame.blank with ring := 1 }, by decide +kernel, by decide +kernel, by decide +kernel,
      by decide +kernel, by decide +kernel, by decide +kernel, by decide +kernel, by decide +kernel,
      by decide +kernel, by decide +kernel, by decide +kernel, by decide +kernel, by decide +kernel,
      by intro m hm; exact absurd hm (Nat.not_lt_zero m), by decide +kernel⟩,
   ⟨{ ringOn (oneRing 1) with hlist := { Table.reset with entries := [(0, ent (.pointWrite 0 0) 2000000000000)] } }, 0,
      0, 0, canByD, ent (.pointWrite 0 0) 2000000000000, by decide +kernel⟩⟩

theorem test_meets_Declarations :
    (∃ (s : State) (fn h : Nat), s.Inv ∧ fn < 64 ∧ s.lc.quar = 0 ∧ ((s.fn fn).declCmd = 0 ∨ (s.fn fn).declCmd = 1) ∧
      submitCheck s fn (declBuf s fn) = 1 ∧ rec64 (declBuf s fn) 0 0 8 = 2 ∧ newHandle s (declBuf s fn) = some h) ∧
    (∃ (s : State) (fn : Nat), s.lc.quar = 0 ∧ ((s.fn fn).declCmd = 0 ∨ (s.fn fn).declCmd = 1) ∧
      submitCheck s fn (declBuf s fn) ≠ 1) ∧
    (∃ (s : State) (fn h : Nat), s.Inv ∧ fn < 64 ∧ s.lc.quar = 0 ∧ ((s.fn fn).declCmd = 0 ∨ (s.fn fn).declCmd = 2) ∧
      declRefused s = false ∧ basinOff s fn = false ∧ rec64 (declBuf s fn) 0 0 8 = 2 ∧
      rec64 (declBuf s fn) 2 0 16 = h ∧ declNamed s fn 2 h = 1 ∧ pointUsed s h = false) ∧
    (∃ (s : State) (fn id : Nat), s.Inv ∧ fn < 64 ∧ s.lc.quar = 0 ∧
      ((s.fn fn).declCmd = 0 ∨ (s.fn fn).declCmd = 2) ∧ declRefused s = false ∧ basinOff s fn = false ∧
      rec64 (declBuf s fn) 0 0 8 = 4 ∧ rec64 (declBuf s fn) 2 0 16 = id ∧ declNamed s fn 4 id = 1) ∧
    (∃ (s : State) (fn dt id i : Nat), s.Inv ∧ fn < 64 ∧ s.lc.quar = 0 ∧
      ((s.fn fn).declCmd = 0 ∨ (s.fn fn).declCmd = 3) ∧ basinOff s fn = false ∧ rec64 (declBuf s fn) 0 0 8 = dt ∧
      rec64 (declBuf s fn) 2 0 16 = id ∧
      (declNamed s fn dt id = 1 ∨ (dt = 6 ∧ ∃ p, amGet s.ws.passes id = some p ∧ p.grantee = fn)) ∧
      i < (queryRec s dt id).length) ∧
    (∃ (s : State), s.Inv ∧ s.lc.quar = 0 ∧ ((s.fn 0).declCmd = 0 ∨ (s.fn 0).declCmd = 4) ∧ declRefused s = false) :=
  ⟨⟨{ on with regs := [(0x40000, 0xFFFF0002), (0x40008, 3)] }, 0, 0, ⟨by decide +kernel, by decide +kernel⟩,
      by decide +kernel⟩,
   ⟨{ on with regs := [(0x40000, 0xFFFF00FF), (0x40008, 3)] }, 0, by decide +kernel⟩,
   ⟨{ ptOn (pt 3 0 0) with regs := [(0x40000, 2)] }, 0, 0, ⟨by decide +kernel, by decide +kernel⟩, by decide +kernel⟩,
   ⟨{ wsOn { Watershed.reset with subs := [(5, subOf 0 [])] } with regs := [(0x40000, 0x00050004)] }, 0, 5,
      ⟨by decide +kernel, by decide +kernel⟩, by decide +kernel⟩,
   ⟨{ ptOn { pt 3 0 0 with decl := List.replicate 16 0 } with regs := [(0x40000, 2)] }, 0, 2, 0, 15,
      ⟨by decide +kernel, by decide +kernel⟩, by decide +kernel, by decide +kernel, by decide +kernel,
      by decide +kernel, by decide +kernel, by decide +kernel, .inl (by decide +kernel), by decide +kernel⟩,
   ⟨on, ⟨by decide +kernel, by decide +kernel⟩, by decide +kernel⟩⟩

theorem test_meets_ChannelService :
    (∃ (s : State) (tr : Nat), s.ws.trigger = some tr ∧ s.ws.plan = none ∧ declRefused s = false ∧
      (s.txn 64).state = .idle ∧ (∀ o ∈ s.txns, o.1 ≠ 64 → o.2.state ≠ .preparing ∧ o.2.state ≠ .pending) ∧
      (decidePlan s tr).idle s = false ∧ (∀ n ∈ planChannels s (decidePlan s tr), s.inService n = true)) ∧
    (∃ (s : State), bitN (s.reg 0x41000) 0 = true ∧ declRefused s = false ∧ unbalanced s = true) ∧
    (∃ (s : State) (n : Nat), s.lc.quar = 0 ∧ declRefused s = false ∧ s.fitted n = true ∧
      s.ws.svc.getD n .absent = .inPool ∧
      ((s.ch n).state = .inService ∨ (s.ch n).state = .linkLost ∨ (s.ch n).state = .starting)) ∧
    (∃ (s : State) (n : Nat), s.shaped = true ∧ n < 8 ∧ s.ws.svc.getD n .absent = .draining ∧ s.ws.plan = none ∧
      s.ws.loops.any (fun p => p.2.holds && p.2.channel == n) = false ∧
      s.ws.migrations.any (fun m => !m.arrived && (m.fromCh == n || m.toCh == n)) = false ∧
      (s.ch n).state = .inService) ∧
    (∃ (s : State) (n : Nat), s.shaped = true ∧ n < 8 ∧ s.ws.svc.getD n .absent = .draining ∧ s.ws.plan = none ∧
      s.ws.loops.any (fun p => p.2.holds && p.2.channel == n) = false ∧
      s.ws.migrations.any (fun m => !m.arrived && (m.fromCh == n || m.toCh == n)) = false ∧
      (s.ch n).state = .linkLost) ∧
    (∃ (s : State) (n : Nat), s.shaped = true ∧ n < 8 ∧ s.lc.quar = 0 ∧ declRefused s = false ∧
      s.ws.svc.getD n .absent = .out ∧ (s.ch n).state = .outOfService) ∧
    (∃ (s : State) (n : Nat) (_conv : Bool), s.shaped = true ∧ n < 8 ∧ s.fitted n = true ∧
      (s.ch n).state ≠ .absent ∧ (s.ch n).state ≠ .fault) :=
  ⟨⟨{ ptOn { pt 3 0 0 with inEffect := false } with ws := { Watershed.reset with trigger := some 0 } }, 0,
      by decide +kernel⟩,
   ⟨{ wsOn { Watershed.reset with loops := (List.range 17).map (fun i => (i, { lp with fast := true })) , svc := List.replicate 8 .inPool } with regs := [(0x41000, 0x3201)] },
      by decide +kernel⟩,
   ⟨{ on with ws := { Watershed.reset with svc := List.replicate 8 .inPool } }, 7, by decide +kernel⟩,
   ⟨{ on with ws := { Watershed.reset with svc := .draining :: List.replicate 7 .inPool } }, 0, by decide +kernel⟩,
   ⟨{ chOn { upCh with state := .linkLost } with ws := { Watershed.reset with svc := .draining :: List.replicate 7 .inPool } },
      0, by decide +kernel⟩,
   ⟨{ chOn { upCh with state := .outOfService } with ws := { Watershed.reset with svc := .out :: List.replicate 7 .inPool } },
      0, by decide +kernel⟩,
   ⟨on, 7, true, by decide +kernel⟩⟩

theorem test_meets_LiveMigration :
    (∃ (s : State) (m : Migration) (r : LoopRt), s.ws.migrations.find? (fun x => x.loop == m.loop) = some m ∧
      m.arrived = false ∧ s.shaped = true ∧ m.toCh < 8 ∧ amGet (s.ch m.toCh).slots m.toSlot = some r) ∧
    (∃ (s : State) (m : Migration) (r : LoopRt) (l : Loop),
      s.ws.migrations.find? (fun x => x.loop == m.loop) = some m ∧ amGet s.ws.loops m.loop = some l ∧
      m.arrived = false ∧ s.shaped = true ∧ m.toCh < 8 ∧ amGet (s.ch m.toCh).slots m.toSlot = some r) ∧
    (∃ (s : State) (m : Migration) (l : Loop), s.ws.migrations.find? (fun x => x.loop == m.loop) = some m ∧
      amGet s.ws.loops m.loop = some l ∧ m.arrived = true ∧ s.shaped = true ∧ m.fromCh < 8) :=
  ⟨⟨{ on with ws := { Watershed.reset with migrations := [mig], loops := [(0, lp)] }, chs := List.replicate 7 upCh ++ [{ upCh with slots := [(1, LoopRt.reset)] }] },
      mig, LoopRt.reset, by decide +kernel⟩,
   ⟨{ on with ws := { Watershed.reset with migrations := [mig], loops := [(0, lp)] }, chs := List.replicate 7 upCh ++ [{ upCh with slots := [(1, LoopRt.reset)] }] },
      mig, LoopRt.reset, lp, by decide +kernel⟩,
   ⟨{ on with ws := { Watershed.reset with migrations := [{ mig with arrived := true }], loops := [(0, lp)] } },
      { mig with arrived := true }, lp, by decide +kernel⟩⟩

theorem test_meets_HubTimebase :
    (∃ (s : State) (src : TimeSource) (e _l : Int), sampleClass s src = some s.time.cls ∧ s.time.step = none ∧
      s.time.servo = .track ∧ e.natAbs < stepThr s) ∧
    (∃ (s : State) (data : Word), s.reaches 0x50038 = true ∧ srcMode s = 4 ∧ s.standby = false ∧ s.time.cls = 2 ∧
      s.time.step = none ∧ s.time.servo = .track ∧ data.toInt.natAbs < stepThr s) ∧
    (∃ (s : State), s.reaches 0x50028 = true ∧ (srcMode s = 4 ∨ s.time.cls = 0 ∨ s.time.cls = 1 ∨ s.time.cls = 3) ∧
      (s.reg 0x5002C).toNat < giga) ∧
    (∃ (s : State), s.reaches 0x50028 = true) ∧
    (∃ (s : State), (s.time.cls = 4 ∨ s.time.cls = 5)) ∧
    (∃ (s : State), s.time.cls = 3) :=
  ⟨⟨timeOn { on.time with ptp := { on.time.ptp with stateB := 3 } }, .ptp, -1, 0, by decide +kernel⟩,
   ⟨{ timeOn { on.time with cls := 2 } with regs := [(0x50020, 4)] }, -9999, by decide +kernel⟩,
   ⟨{ timeOn { on.time with cls := 3 } with regs := [(0x5002C, 999999999)] }, by decide +kernel⟩,
   ⟨on, by decide +kernel⟩,
   ⟨on, by decide +kernel⟩,
   ⟨timeOn { on.time with cls := 3 }, by decide +kernel⟩⟩

theorem test_meets_StepsAndBeacons :
    (∃ (s : State) (a : StepArm) (y : Instant), s.time.step = some a ∧ a.y = some y) ∧
    (∃ (s : State) (n : Nat), s.shaped = true ∧ n < 8 ∧ s.present n = true ∧ s.linkDown n = false ∧
      (∀ a, s.time.step = some a → a.y = none)) ∧
    (∃ (s : State) (n : Nat) (b : Beacon), s.shaped = true ∧ n < 8 ∧ s.present n = true ∧
      (s.ch n).tb.beacon = some b ∧ b.stepArm = true ∧ (s.ch n).tb.valid = true) ∧
    (∃ (s : State) (n : Nat) (b : Beacon), s.shaped = true ∧ n < 8 ∧ s.present n = true ∧
      (s.ch n).tb.beacon = some b ∧ b.stepArm = false ∧ (s.ch n).tb.valid = true ∧
      (((s.ch n).tb.now : Int) - ((b.time + (s.ch n).tb.delay : Nat) : Int)).natAbs ≤ 1000) ∧
    (∃ (s : State) (n : Nat), s.shaped = true ∧ n < 8 ∧ (s.ch n).relArmed = true ∧ (s.ch n).stopped = false) :=
  ⟨⟨timeOn { on.time with step := some { value := 0, cause := 0, y := some 5 } },
      { value := 0, cause := 0, y := some 5 }, 5, by decide +kernel⟩,
   ⟨on, 7, by decide +kernel, by decide +kernel, by decide +kernel, by decide +kernel,
      fun a h => by simp [on, HubTime.reset] at h⟩,
   ⟨chOn { upCh with tb := { upCh.tb with beacon := some { bcn with stepArm := true } } }, 0,
      { bcn with stepArm := true }, by decide +kernel⟩,
   ⟨chOn { upCh with tb := { upCh.tb with beacon := some { bcn with time := 999999999000 } } }, 0,
      { bcn with time := 999999999000 }, by decide +kernel⟩,
   ⟨chOn { upCh with relArmed := true }, 0, by decide +kernel⟩⟩

theorem test_meets_PtpMessages :
    (∃ (s : State) (p st : Nat) (_gm : Slot) (_utc : Int) (_l61 _l59 _uv : Bool) (f : EthFrame) (_ago : Nat),
      p < 2 ∧ (s.net p).up = true ∧ ptpPort s p = true ∧ f.fcsOk = true ∧ st ≤ 6 ∧ st ≠ 3) ∧
    (∃ (s : State) (p k : Nat), ptpPort s p = true ∧ (s.net p).up = true ∧
      ((s.time.ptp.state p = 2 ∧ (k = 0 ∨ k = 1 ∨ (k = 2 ∧ bitN (s.reg 0x50080) (5 + p) = false))) ∨ (s.time.ptp.state p = 3 ∧ k = (if bitN (s.reg 0x50080) 1 then 4 else 3)))) ∧
    (∃ (s : State) (_p : Nat), bitN (s.reg 0x50080) 15 = true ∧ s.time.cls ≤ 3) ∧
    (∃ (s : State) (_p : Nat), bitN (s.reg 0x50080) 15 = false) ∧
    (∃ (s : State) (n x : Nat), gptpSends s n x = true) ∧
    (∃ (s : State) (_n : Nat), 4 ≤ s.time.cls) ∧
    (∃ (s : State) (n x _j : Nat), s.shaped = true ∧ n < 8 ∧ x < (s.ch n).seg.length ∧ gptpSends s n x = true) ∧
    (∃ (s : State) (q : Nat) (e : TsEntry) (es : List TsEntry), s.reaches 0x50114 = true ∧ q < s.tsqs.length ∧
      (s.tsqs.getD q Tsq.reset).entries = e :: es) :=
  ⟨⟨{ netOn { NetPort.reset with up := true } with regs := [(0x50080, 0x9)] }, 0, 6, 0, 0, false, false, false,
      ⟨[], true⟩, 0, by decide +kernel⟩,
   ⟨{ netOn { NetPort.reset with up := true } with regs := [(0x50080, 0x9)], time := { on.time with ptp := { on.time.ptp with stateA := 2 } } },
      0, 0, by decide +kernel⟩,
   ⟨{ timeOn { on.time with cls := 3 } with regs := [(0x50080, 0x8000)] }, 0, by decide +kernel⟩,
   ⟨{ on with regs := [(0x50080, 1)] }, 0, by decide +kernel⟩,
   ⟨{ segOn { Seg.reset with mode := 1 } with regs := [(0x110020, 1)] }, 0, 0, by decide +kernel⟩,
   ⟨on, 0, by decide +kernel⟩,
   ⟨{ segOn { Seg.reset with mode := 1 } with regs := [(0x110020, 1)] }, 0, 0, 0, by decide +kernel⟩,
   ⟨{ on with tsqs := List.replicate 9 Tsq.reset ++ [{ Tsq.reset with entries := [⟨0, 0, 0, 0, true⟩] }] }, 9,
      ⟨0, 0, 0, 0, true⟩, [], by decide +kernel⟩⟩

theorem test_meets_TimedActions :
    (∃ (s : State) (n i d : Nat) (e : Entry) (mask value : BitVec 8), s.shaped = true ∧ n < 8 ∧ d < 8 ∧
      amGet (s.ch n).table.entries i = some e ∧ e.kind = .dout mask value ∧ e.period = 0 ∧ e.done = 0 ∧
      e.st = .pending ∧ e.waiting = false ∧ (s.ch n).tb.valid = true ∧ (s.ch n).tableEn = true ∧
      s.loopsRun n = true ∧ e.start ≤ s.chNow n ∧
      (s.chNow n < e.start + 5 ∨ e.tol = 0xFFFF ∨ s.chNow n - e.start ≤ 1000 * e.tol) ∧ mask.getLsbD d = true ∧
      (s.dio n).dout.length = 8 ∧ (∀ x < 8, mask.getLsbD x = true → termOwned s n (16 + x) = false) ∧
      s.guardHolds n = false ∧ firesBefore s n e = []) ∧
    (∃ (s : State) (i : Nat) (e : Entry) (op : Nat) (ids : List Nat) (l : Loop), amGet s.hlist.entries i = some e ∧
      e.kind = .loopGroup op ids ∧ ids.filterMap (fun id => amGet s.ws.loops id) = [l] ∧ ids.length = 1 ∧
      l.channel < 8 ∧ e.period = 0 ∧ e.done = 0 ∧ e.st = .pending ∧ e.prep = none ∧ s.timeValid = true ∧
      s.standby = false ∧ s.time.now < e.start ∧ ceilSample e.start ≤ s.time.now + 10000000 + 1000 ∧
      s.time.now + 10000000 ≤ ceilSample e.start + 1000 ∧ l.st = .placed ∧ l.gone = false ∧
      s.inService l.channel = true ∧ (∀ o ∈ s.txns, o.1 ≠ 128 + i → o.2.state ≠ .preparing ∧ o.2.state ≠ .pending)) ∧
    (∃ (s : State) (n : Nat) (sel : Word), s.shaped = true ∧ n < 8 ∧ s.reaches (chBase n + 0x20010) = true ∧
      (s.dio n).cal = none ∧ bitN sel 16 = true ∧ calOk s n sel = true) ∧
    (∃ (s : State) (n k _on _off : Nat) (sel : Word), s.shaped = true ∧ n < 8 ∧ (s.dio n).cal = some sel ∧ k < 8 ∧
      bitN sel k = true) ∧
    (∃ (s : State) (n : Nat), s.shaped = true ∧ n < 8 ∧ s.reaches (chBase n + 0x20000) = true ∧
      (s.ch n).tableEn = true) ∧
    (∃ (s : State) (n i : Nat) (e : Entry), s.shaped = true ∧ n < 8 ∧ s.reaches (chBase n + 0x20000) = true ∧
      (s.ch n).tableEn = false ∧ (i, e) ∈ (s.ch n).table.entries ∧ e.st = .stopped) :=
  ⟨⟨chOn { upCh with table := { Table.reset with entries := [(0, ent (.dout 0x80 0x80) 1000000000000)] } }, 0, 0, 7,
      ent (.dout 0x80 0x80) 1000000000000, 0x80, 0x80, by decide +kernel⟩,
   ⟨{ loopOn rt with hlist := { Table.reset with entries := [(0, ent (.loopGroup 0 [0]) 1000010000000)] } }, 0,
      ent (.loopGroup 0 [0]) 1000010000000, 0, [0], lp, by decide +kernel⟩,
   ⟨{ dioOn { Dio.reset with fsupOk := true } with lc := { on.lc with state := 4 } }, 0, 0x10FFF, by decide +kernel⟩,
   ⟨dioOn { Dio.reset with cal := some 0x80 }, 0, 7, 0, 0, 0x80, by decide +kernel⟩,
   ⟨on, 7, by decide +kernel⟩,
   ⟨chOn { upCh with tableEn := false, table := { Table.reset with entries := [(0, { ent (.dout 1 1) 0 with st := .stopped })] } },
      0, 0, { ent (.dout 1 1) 0 with st := .stopped }, by decide +kernel⟩⟩

theorem test_meets_LoopEngine :
    (∃ (s : State) (n slot w : Nat) (_be : BitVec 4) (_data : Word), s.reaches (chBase n + 0x40000) = true ∧ w ≠ 0 ∧
      (regRow (slotKey n slot w)).isSome = true) ∧
    (∃ (s : State) (n slot : Nat) (data : Word) (r : LoopRt), s.shaped = true ∧ n < 8 ∧
      s.reaches (chBase n + 0x40000) = true ∧ (regRow (slotKey n slot 0)).isSome = true ∧
      amGet (s.ch n).slots slot = some r ∧ r.loop.isSome = true ∧ bitN (s.slotReg n slot 0) 0 = false ∧
      bitN (data &&& regMask (slotKey n slot 0)) 0 = true) ∧
    (∃ (s : State) (n slot id : Nat) (r : LoopRt) (l : Loop), s.shaped = true ∧ n < 8 ∧
      amGet (s.ch n).slots slot = some r ∧ r.loop = some id ∧ amGet s.ws.loops id = some l ∧ r.en = true ∧
      r.waiting = false ∧ s.loopsRun n = true ∧ sampleDue s n l r = true ∧
      (sampleRt (lawInput s n slot l r).1 (slotBank s n slot (lawInput s n slot l r).1.bankNo) (bitN (s.slotReg n slot 0) 5) (r.lastIn = 0) r).2 = false) ∧
    (∃ (s : State) (n slot id : Nat) (u lo hi : Int) (r : LoopRt) (l : Loop) (p : Point), s.shaped = true ∧ n < 8 ∧
      amGet (s.ch n).slots slot = some r ∧ r.loop = some id ∧ amGet s.ws.loops id = some l ∧ s.loopsRun n = true ∧
      r.out = .command u ∧ r.pub = .nothing ∧ r.lim = some (lo, hi) ∧ r.en = true ∧ amGet s.points l.outp = some p ∧
      p.isHub = false ∧ p.channel ≠ n ∧ p.channel < 8 ∧ (s.ch n).state = .inService ∧
      (s.ch p.channel).state = .inService) ∧
    (∃ (s : State) (n slot : Nat), s.shaped = true ∧ n < 8 ∧ slot < 1024 ∧ s.reaches (chBase n + 0x30010) = true) :=
  ⟨⟨on, 0, 1023, 15, 15, 0, by decide +kernel⟩,
   ⟨loopOn { rt with en := false }, 0, 0, 1, { rt with en := false }, by decide +kernel⟩,
   ⟨loopOn rt, 0, 0, 0, rt, lp, by decide +kernel⟩,
   ⟨{ loopOn { rt with out := .command 1, lim := some (0, 2) } with points := [(0, pt 1 7 16)] }, 0, 0, 0, 1, 0, 2,
      { rt with out := .command 1, lim := some (0, 2) }, lp, pt 1 7 16, by decide +kernel⟩,
   ⟨on, 7, 1023, by decide +kernel⟩⟩

theorem test_meets_CanModes :
    (∃ (s : State) (n x : Nat) (data : Word), s.shaped = true ∧ n < 8 ∧ x < (s.ch n).can.length ∧
      s.reaches (chBase n + 0x50000) = true ∧ fld data 0 3 < 4 ∧ bitN data 4 = false) ∧
    (∃ (s : State) (n x : Nat), s.shaped = true ∧ n < 8 ∧ x < (s.ch n).can.length ∧ (s.can n x).pendingMode = true ∧
      (s.can n x).won = false ∧ (s.can n x).state ≠ .busOff ∧ (s.can n x).state ≠ .recovering ∧
      wantedMode s n x ≠ 0) ∧
    (∃ (s : State) (n x : Nat), s.shaped = true ∧ n < 8 ∧ x < (s.ch n).can.length ∧
      (s.can n x).state = .integrating) ∧
    (∃ (s : State) (n x : Nat), s.shaped = true ∧ n < 8 ∧ x < (s.ch n).can.length ∧
      s.reaches (chBase n + 0x50000) = true ∧ (s.can n x).state = .busOff) ∧
    (∃ (s : State) (n x _us : Nat), s.shaped = true ∧ n < 8 ∧ x < (s.ch n).can.length ∧
      (s.can n x).state = .recovering ∧ (s.can n x).pendingMode = false) :=
  ⟨⟨on, 7, 1, 3, by decide +kernel⟩,
   ⟨{ canOn { canUp with pendingMode := true } with regs := [(0x150000, 1)] }, 0, 0, by decide +kernel⟩,
   ⟨canOn { canUp with state := .integrating }, 0, 0, by decide +kernel⟩,
   ⟨canOn { canUp with state := .busOff }, 0, 0, by decide +kernel⟩,
   ⟨canOn { canUp with state := .recovering }, 0, 0, 0, by decide +kernel⟩⟩

theorem test_meets_CanFrames :
    (∃ (s : State) (n x q : Nat) (f : CanFrame) (ago : Nat) (rings : List Nat), s.shaped = true ∧ n < 8 ∧
      x < (s.ch n).can.length ∧ (s.can n x).onBus = true ∧ f.fdf = false ∧ (s.can n x).recv = 0 ∧
      canFilter s n x (rxCanFrame f) (s.chStamp n ago) = some q ∧
      (if s.chStamp n ago < (s.can n x).switched then (s.can n x).oldQueues else (s.can n x).queues).getD q (false, []) = (false, rings) ∧
      rings ≠ [] ∧ stuckFrames s n (4 * n + x) = []) ∧
    (∃ (s : State) (n x : Nat) (f : CanFrame) (ago : Nat), s.shaped = true ∧ n < 8 ∧ x < (s.ch n).can.length ∧
      (s.can n x).onBus = true ∧ f.fdf = false ∧ (s.can n x).recv = 0 ∧
      canFilter s n x (rxCanFrame f) (s.chStamp n ago) = none) ∧
    (∃ (s : State) (n x : Nat) (f : TxFrame) (q : List TxFrame), s.shaped = true ∧ n < 8 ∧ x < (s.ch n).can.length ∧
      (s.can n x).won = false ∧ (s.can n x).sends = true ∧ (s.can n x).txq = f :: q ∧ (∀ g ∈ q, g.cancel = [])) ∧
    (∃ (s : State) (n x : Nat) (f : TxFrame) (q : List TxFrame) (_ago : Nat) (_dly : Option Nat), s.shaped = true ∧
      n < 8 ∧ x < (s.ch n).can.length ∧ (s.can n x).won = true ∧ (s.can n x).mode = 1 ∧
      (s.can n x).state = .errorActive ∧ (s.can n x).tec < 128 ∧ (s.can n x).recv < 128 ∧ (s.can n x).txq = f :: q ∧
      f.points = [] ∧ f.cancel = [] ∧ f.tsReq = false ∧ f.table = 9 ∧ f.ring < 1024) ∧
    (∃ (s : State) (n x : Nat) (f : TxFrame) (q : List TxFrame) (err : CanErr) (_dp _dom : Bool), s.shaped = true ∧
      n < 8 ∧ x < (s.ch n).can.length ∧ (s.can n x).mode = 1 ∧ (s.can n x).state = .errorActive ∧
      (s.can n x).tec < 120 ∧ (s.can n x).recv < 128 ∧ (s.can n x).txq = f :: q ∧ f.cancel = [] ∧ err ≠ .ack ∧
      (f.ring < 1024 → (s.ring f.ring).state ≠ .disabling)) ∧
    (∃ (s : State) (n x : Nat) (_err : CanErr) (_dp _sev : Bool), s.shaped = true ∧ n < 8 ∧
      x < (s.ch n).can.length ∧ (s.can n x).mode = 1 ∧ (s.can n x).state = .errorActive ∧ (s.can n x).tec < 128 ∧
      (s.can n x).recv < 120) ∧
    (∃ (s : State) (n x id : Nat) (ide : Bool), s.shaped = true ∧ n < 8 ∧ x < (s.ch n).can.length ∧
      (s.can n x).state ≠ .disabled ∧ fld (s.canReg n x 0x38) 0 16 ≠ 0 ∧ s.canPoints n x id ide ≠ [] ∧
      (s.can n x).silent.contains (idKey id ide) = false) ∧
    (∃ (s : State) (n x : Nat), s.shaped = true ∧ n < 8 ∧ x < (s.ch n).can.length ∧ s.fdEn n x = false ∧
      (s.can n x).onBus = true) :=
  ⟨⟨{ canOn { canUp with queues := List.replicate 7 (false, []) ++ [(false, [0])] } with regs := [elem7] }, 0, 0, 7,
      canF, 0, [0], by decide +kernel⟩,
   ⟨canOn canUp, 0, 0, canF, 0, by decide +kernel⟩,
   ⟨canOn { canUp with txq := [txF] }, 0, 0, txF, [], by decide +kernel⟩,
   ⟨canOn { canUp with won := true, txq := [{ txF with ring := 1023 }] }, 0, 0, { txF with ring := 1023 }, [], 0, none,
      by decide +kernel⟩,
   ⟨canOn { canUp with tec := 119, txq := [txF] }, 0, 0, txF, [], .crc, false, false, by decide +kernel⟩,
   ⟨canOn { canUp with recv := 119 }, 0, 0, .bitR, false, false, by decide +kernel⟩,
   ⟨{ canOn canUp with points := [(0, pt 0 0 0)], regs := [(0x150038, 1)] }, 0, 0, 0, false, by decide +kernel⟩,
   ⟨canOn canUp, 0, 0, by decide +kernel⟩⟩

theorem test_meets_BackboneLink :
    (∃ (s : State) (p _speed : Nat) (_rx _tx : Bool), s.shaped = true ∧ p < 2 ∧ bitN (s.netReg p 0) 0 = true ∧
      (s.net p).up = false) ∧
    (∃ (s : State) (p : Nat), s.shaped = true ∧ p < 2 ∧ (s.net p).up = true) ∧
    (∃ (s : State) (p : Nat), s.shaped = true ∧ p < 2 ∧ bitN (s.netReg p 0) 0 = false ∧ (s.net p).wire = none ∧
      (s.net p).suspended = none ∧ (s.net p).up = true) ∧
    (∃ (s : State) (p : Nat), bitN (s.netReg p 0) 6 = true) ∧
    (∃ (s : State) (p : Nat), s.shaped = true ∧ p < 2 ∧ (s.net p).verify = .verifying) ∧
    (∃ (s : State) (p : Nat), s.shaped = true ∧ p < 2 ∧ (s.net p).verify = .verifying) :=
  ⟨⟨on, 1, 2, true, true, by decide +kernel⟩,
   ⟨netOn { NetPort.reset with up := true }, 0, by decide +kernel⟩,
   ⟨{ netOn { NetPort.reset with up := true } with regs := [(0x60000, 0)] }, 0, by decide +kernel⟩,
   ⟨{ on with regs := [(0x60000, 0x41)] }, 0, by decide +kernel⟩,
   ⟨netOn { NetPort.reset with verify := .verifying }, 0, by decide +kernel⟩,
   ⟨netOn { NetPort.reset with verify := .verifying }, 0, by decide +kernel⟩⟩

theorem test_meets_BackboneTraffic :
    (∃ (s : State) (p : Nat) (f : EthFrame) (_ago : Nat), s.shaped = true ∧ p < 2 ∧ (s.net p).up = true ∧
      64 ≤ f.bytes.length + 4 ∧ f.bytes.length + 4 ≤ maxFrame (s.netReg p 8) ∧ f.fcsOk = true ∧
      etherType f.bytes ≠ 0x8808 ∧ netAddrOk s p (f.bytes.take 6) = true ∧ netVlanOk s p f.bytes = true ∧
      (s.ptpEn && innerType f.bytes = 0x88F7) = false ∧ (s.ptpUdp && udpPtp f.bytes) = false ∧
      updFrame s p f.bytes = false ∧ rxHeld (s.net p) + f.bytes.length + 4 ≤ 131072 ∧ (s.net p).pauseTx = false) ∧
    (∃ (s : State) (p : Nat) (f : EthFrame) (_ago : Nat), s.shaped = true ∧ p < 2 ∧ (s.net p).up = true ∧
      64 ≤ f.bytes.length + 4 ∧ f.bytes.length + 4 ≤ maxFrame (s.netReg p 8) ∧ f.fcsOk = false) ∧
    (∃ (s : State) (p : Nat) (f : TxFrame) (_ago : Nat), s.shaped = true ∧ p < 2 ∧ (s.net p).wire = some f ∧
      (s.net p).express = [] ∧ (s.net p).preempt = [] ∧ (s.net p).suspended = none ∧ f.table = 9 ∧ f.ring = 1024 ∧
      f.cancel = [] ∧ f.tsReq = false) ∧
    (∃ (s : State) (p quanta : Nat), s.shaped = true ∧ p < 2 ∧ (s.net p).pauseRx = true ∧ 0 < quanta ∧
      quanta < 65536 ∧ preemptActive s p = false) ∧
    (∃ (s : State) (p : Nat) (f : TxFrame) (q : List TxFrame), s.shaped = true ∧ p < 2 ∧ (s.net p).up = true ∧
      (s.net p).wire = none ∧ (s.net p).pauseQ ≠ 0 ∧ bitN (s.netReg p 0) 0 = true ∧ (s.net p).express = f :: q) ∧
    (∃ (s : State) (p : Nat), s.shaped = true ∧ p < 2 ∧ (s.net p).xoff = true ∧
      (bitN (s.netReg p 0) 8 || decide (xonThr s p ≤ rxHeld (s.net p))) = true) ∧
    (∃ (s : State) (p : Nat), s.shaped = true ∧ p < 2 ∧ (s.net p).xoff = true ∧ bitN (s.netReg p 0) 8 = false ∧
      rxHeld (s.net p) < xonThr s p) ∧
    (∃ (s : State) (p : Nat), s.shaped = true ∧ p < 2 ∧ fld (s.netReg p 0x18) 16 16 ≠ 0 ∧ preemptActive s p = false) ∧
    (∃ (s : State) (p : Nat), s.shaped = true ∧ p < 2 ∧ (s.net p).reasm.isSome = true) :=
  ⟨⟨netOn { NetPort.reset with up := true }, 0, eth true, 0, by decide +kernel⟩,
   ⟨netOn { NetPort.reset with up := true }, 0, eth false, 0, by decide +kernel⟩,
   ⟨netOn { NetPort.reset with up := true, wire := some { txF with ring := 1024 } }, 0, { txF with ring := 1024 }, 0,
      by decide +kernel⟩,
   ⟨netOn { NetPort.reset with pauseRx := true }, 0, 65535, by decide +kernel⟩,
   ⟨netOn { NetPort.reset with up := true, pauseQ := 1, express := [txF] }, 0, txF, [], by decide +kernel⟩,
   ⟨{ netOn { NetPort.reset with xoff := true } with regs := [(0x60000, 0x101)] }, 0, by decide +kernel⟩,
   ⟨netOn { NetPort.reset with xoff := true }, 0, by decide +kernel⟩,
   ⟨{ on with regs := [(0x70018, 0x10000)] }, 1, by decide +kernel⟩,
   ⟨netOn { NetPort.reset with reasm := some (eth true) }, 0, by decide +kernel⟩⟩

theorem test_meets_SegmentFrames :
    (∃ (s : State) (n x j : Nat) (f : EthFrame) (ago : Nat) (rings : List Nat) (g : RxFrame), s.shaped = true ∧
      n < 8 ∧ x < (s.ch n).seg.length ∧ (s.seg n x).mode ≠ 0 ∧ (s.seg n x).plca = false ∧ 64 ≤ f.bytes.length + 4 ∧
      f.bytes.length + 4 ≤ maxFrame (s.segReg n x 8) ∧ f.fcsOk = true ∧ f.bytes.take 6 = segMac s n x ∧
      macNode s n x ((f.bytes.drop 6).take 6) = some j ∧ innerType f.bytes ≠ 0x88F7 ∧ etherType f.bytes ≠ 0x88B5 ∧
      segSubs s n x (nodeBasin s n (2 + x) j) j = rings ∧ rings ≠ [] ∧
      g = { target := 4 * n + 2 + x, node := j, can := none, bytes := f.bytes, stamp := s.chStamp n ago, timeValid := (s.ch n).tb.valid, queue := (s.seg n x).queues.findIdx (fun b => b == nodeBasin s n (2 + x) j) } ∧
      stagingFull s n g = false) ∧
    (∃ (s : State) (n x : Nat) (f : TxFrame) (_ago : Nat), s.shaped = true ∧ n < 8 ∧ x < (s.ch n).seg.length ∧
      (s.seg n x).busy = true ∧ (s.seg n x).plca = false ∧ (s.seg n x).txq = [f] ∧ f.table = 9 ∧ f.ring = 1024 ∧
      f.cancel = [] ∧ f.tsReq = false ∧ f.points = []) ∧
    (∃ (s : State) (n x : Nat) (f : TxFrame) (q : List TxFrame), s.shaped = true ∧ n < 8 ∧ x < (s.ch n).seg.length ∧
      (s.seg n x).busy = true ∧ (s.seg n x).plca = false ∧ (s.seg n x).txq = f :: q ∧ f.cancel = [] ∧
      ((s.seg n x).collisions + 1) % 16 ≠ 0 ∧ (f.ring < 1024 → (s.ring f.ring).state ≠ .disabling)) ∧
    (∃ (s : State) (n x : Nat), s.shaped = true ∧ n < 8 ∧ x < (s.ch n).seg.length ∧ (s.seg n x).backoff ≠ 0 ∧
      (s.seg n x).mode = 1 ∧ (s.ch n).stopped = false ∧ (s.seg n x).busy = false ∧ (s.seg n x).txq ≠ [] ∧
      (s.seg n x).plca = false) ∧
    (∃ (s : State) (n x : Nat), s.shaped = true ∧ n < 8 ∧ x < (s.ch n).seg.length ∧
      (s.seg n x).mode ≠ wantedSeg s n x ∧ (s.seg n x).busy = false ∧ wantedSeg s n x ≠ 0) :=
  ⟨⟨{ segOn { Seg.reset with mode := 1 } with regs := [(0x1701FC, 0x80000000)], ws := { Watershed.reset with subs := [(0, { subOf 0 [] with segment := 2, ring := 15, node := 31 })] } },
      0, 0, 31, ⟨segB, true⟩, 0, [15],
      { target := 2, node := 31, can := none, bytes := segB, stamp := 1000000000000, timeValid := true, queue := 0 },
      by decide +kernel⟩,
   ⟨segOn { Seg.reset with mode := 1, busy := true, txq := [txF] }, 0, 0, txF, 0, by decide +kernel⟩,
   ⟨segOn { Seg.reset with mode := 1, busy := true, txq := [txF] }, 0, 0, txF, [], by decide +kernel⟩,
   ⟨segOn { Seg.reset with mode := 1, backoff := 1, txq := [txF] }, 0, 0, by decide +kernel⟩,
   ⟨{ segOn Seg.reset with regs := [(0x170000, 1)] }, 0, 0, by decide +kernel⟩⟩

theorem test_meets_SegmentPlca :
    (∃ (s : State) (n x : Nat), s.shaped = true ∧ n < 8 ∧ x < (s.ch n).seg.length ∧
      bitN (s.segReg n x 0x18) 0 = true ∧ (s.seg n x).mode = 1) ∧
    (∃ (s : State) (n x : Nat), s.shaped = true ∧ n < 8 ∧ x < (s.ch n).seg.length ∧ (s.seg n x).plca = true ∧
      (s.seg n x).busy = false) ∧
    (∃ (s : State) (n x : Nat), s.shaped = true ∧ n < 8 ∧ x < (s.ch n).seg.length ∧ (s.seg n x).plca = true ∧
      localId s n x ≠ 0) ∧
    (∃ (s : State) (n x j : Nat), s.shaped = true ∧ n < 8 ∧ x < (s.ch n).seg.length ∧
      fld (s.segReg n x 0) 16 16 ≠ 0 ∧ (nodeMac s n x j).isSome = true ∧ (s.seg n x).lost.contains j = false) :=
  ⟨⟨plcaOn { Seg.reset with mode := 1 } 1, 0, 0, by decide +kernel⟩,
   ⟨segOn { Seg.reset with plca := true }, 0, 0, by decide +kernel⟩,
   ⟨plcaOn { Seg.reset with plca := true } 0x100, 0, 0, by decide +kernel⟩,
   ⟨{ on with regs := [(0x180000, 0x10000), (0x1801FC, 0x80000000)] }, 0, 1, 31, by decide +kernel⟩⟩

theorem test_meets_FieldSupplyAndInputs :
    (∃ (s : State) (n v : Nat), s.shaped = true ∧ n < 8 ∧ v < 1800 ∧ (s.dio n).low = false) ∧
    (∃ (s : State) (n v : Nat), s.shaped = true ∧ n < 8 ∧ 1800 ≤ v) ∧
    (∃ (s : State) (n v : Nat), s.shaped = true ∧ n < 8 ∧ v < 1400 ∧ (s.dio n).inv = false) ∧
    (∃ (s : State) (n v : Nat), s.shaped = true ∧ n < 8 ∧ 1400 ≤ v ∧ (s.dio n).inv = true) ∧
    (∃ (s : State) (n v _d : Nat), s.shaped = true ∧ n < 8 ∧ v < 900) ∧
    (∃ (s : State) (n v : Nat), s.shaped = true ∧ n < 8 ∧ 1100 ≤ v ∧ (s.dio n).uvlo = true) ∧
    (∃ (s : State) (n d : Nat), s.shaped = true ∧ n < 8 ∧ d < 8 ∧ (s.dio n).restart = true) ∧
    (∃ (s : State) (n v : Nat), s.shaped = true ∧ n < 8 ∧ v < 600) ∧
    (∃ (s : State) (n i : Nat) (level : Bool) (_ago : Nat), s.shaped = true ∧ n < 8 ∧ i < 16 ∧
      (s.dio n).level.getLsbD i ≠ level) ∧
    (∃ (s : State) (n h : Nat) (p : Point), s.counting n 0 = true ∧ (∀ i, 0 < i → i < 4 → s.counting n i = false) ∧
      s.localPoints n 36 = [h] ∧ s.localPoints n 0 = [] ∧ amGet s.points h = some p ∧ p.isHub = false) :=
  ⟨⟨on, 7, 1799, by decide +kernel⟩,
   ⟨on, 7, 1800, by decide +kernel⟩,
   ⟨on, 7, 1399, by decide +kernel⟩,
   ⟨dioOn { Dio.reset with inv := true }, 0, 1400, by decide +kernel⟩,
   ⟨on, 7, 899, 0, by decide +kernel⟩,
   ⟨dioOn { Dio.reset with uvlo := true }, 0, 1100, by decide +kernel⟩,
   ⟨dioOn { Dio.reset with restart := true }, 0, 7, by decide +kernel⟩,
   ⟨on, 7, 599, by decide +kernel⟩,
   ⟨on, 7, 15, true, 0, by decide +kernel⟩,
   ⟨{ on with regs := [(0x190014, 0x10), (0x190040, 0x10000)], points := [(0, pt 1 0 36)] }, 0, 0, pt 1 0 36,
      by decide +kernel, fun i h1 h2 => counts_none i h1 h2, by decide +kernel⟩⟩

theorem test_meets_DigitalOutputs :
    (∃ (s : State) (n d : Nat), s.shaped = true ∧ n < 8 ∧ d < 8 ∧ d < (s.dio n).dout.length ∧
      (s.dout n d).drive = true) ∧
    (∃ (s : State) (n d : Nat), s.shaped = true ∧ n < 8 ∧ d < 8 ∧ d < (s.dio n).dout.length ∧
      (s.dout n d).drive = true) ∧
    (∃ (s : State) (n d : Nat), s.shaped = true ∧ n < 8 ∧ d < 8 ∧ d < (s.dio n).dout.length ∧
      fld (s.dioReg n 0xF8) 16 16 ≠ 0 ∧ (s.dout n d).hot = false ∧ (s.dout n d).cmd = true ∧
      (s.dout n d).tripped = true) ∧
    (∃ (s : State) (n d : Nat), s.shaped = true ∧ n < 8 ∧ d < 8 ∧ d < (s.dio n).dout.length ∧
      (s.dout n d).hot = true ∧ (s.dout n d).due = true ∧ (s.dout n d).cmd = true ∧ (s.dout n d).tripped = true) ∧
    (∃ (s : State) (n d : Nat) (mask : BitVec 8), s.shaped = true ∧ n < 8 ∧ d < 8 ∧ d < (s.dio n).dout.length ∧
      s.reaches (chBase n + 0x900A8) = true ∧ mask.getLsbD d = true ∧ (s.dout n d).cmd = true ∧
      (s.dout n d).tripped = true ∧ (s.dout n d).hot = false) ∧
    (∃ (s : State) (n d : Nat) (cs : List Nat), s.shaped = true ∧ n < 8 ∧ d < 8 ∧ cs.length = 8 ∧
      4400 < cs.foldl (· + ·) 0 ∧ (s.dout n d).drive = true ∧
      (∀ c, c < 8 → c ≠ d → (s.dout n c).drive = true → cs.getD c 0 < cs.getD d 0)) ∧
    (∃ (s : State) (n d : Nat), s.shaped = true ∧ n < 8 ∧ d < 8 ∧ d < (s.dio n).dout.length ∧
      (s.dout n d).cmd = false ∧ s.wor n d = false ∧ s.checksRun n = true) ∧
    (∃ (s : State) (n d : Nat), s.shaped = true ∧ n < 8 ∧ d < 8 ∧ bitN (s.dioReg n 0xA4) (8 + d) = true ∧
      (s.dout n d).cmd = true ∧ (s.dout n d).drive = true ∧ s.wor n d = false ∧ s.checksRun n = true) :=
  ⟨⟨doutOn { Dout.reset with drive := true }, 0, 7, by decide +kernel⟩,
   ⟨doutOn { Dout.reset with drive := true }, 0, 7, by decide +kernel⟩,
   ⟨{ doutOn trip with regs := [(0x1900F8, 0x10000)] }, 0, 7, by decide +kernel⟩,
   ⟨doutOn { trip with hot := true, due := true }, 0, 7, by decide +kernel⟩,
   ⟨doutOn trip, 0, 7, 0x80, by decide +kernel⟩,
   ⟨doutOn { Dout.reset with drive := true }, 0, 7, List.replicate 7 0 ++ [4401], by decide +kernel⟩,
   ⟨on, 7, 7, by decide +kernel⟩,
   ⟨{ doutOn { Dout.reset with drive := true, cmd := true } with regs := [(0x1900A4, 0x8000)] }, 0, 7,
      by decide +kernel⟩⟩

theorem test_meets_OutputGuard :
    (∃ (s : State) (n _d : Nat), s.shaped = true ∧ n < 8 ∧ (s.ch n).state = .inService) ∧
    (∃ (s : State) (n : Nat), s.shaped = true ∧ n < 8 ∧ (s.dio n).armed = true ∧ (s.dio n).holding = false) ∧
    (∃ (s : State) (n : Nat), s.shaped = true ∧ n < 8 ∧ bitN (s.dioReg n 0xE0) 15 = true ∧ (s.dio n).armed = true) ∧
    (∃ (s : State) (n : Nat), s.shaped = true ∧ n < 8 ∧ (s.dio n).holding = true) :=
  ⟨⟨on, 7, 7, by decide +kernel⟩,
   ⟨dioOn { Dio.reset with armed := true }, 0, by decide +kernel⟩,
   ⟨{ dioOn { Dio.reset with armed := true } with regs := [(0x1900E0, 0x8000)] }, 0, by decide +kernel⟩,
   ⟨dioOn { Dio.reset with holding := true }, 0, by decide +kernel⟩⟩

theorem test_meets_Converters :
    (∃ (s : State) (n i : Nat), s.shaped = true ∧ n < 8 ∧ i < 8 ∧ i < (s.dio n).ain.length ∧ s.ainRange n i ≠ 0 ∧
      fld (s.adcReg n (16 * i)) 16 16 ≠ 0) ∧
    (∃ (s : State) (n idx i : Nat) (b : Burst), s.shaped = true ∧ n < 8 ∧ (s.dio n).bursts[idx]? = some b ∧
      1 < b.left ∧ i < 8 ∧ i < (s.dio n).ain.length ∧ b.mask.getLsbD i = true) ∧
    (∃ (s : State) (n i : Nat) (_m : Int), s.shaped = true ∧ n < 8 ∧ i < 8 ∧ i < (s.dio n).ain.length ∧
      s.ainRange n i ≠ 0 ∧ (s.ain n i).range = s.ainRange n i ∧ (s.ain n i).settle ≤ s.chNow n ∧
      (s.ain n i).burden = false ∧ (s.dio n).inv = false ∧ fld (s.adcReg n (16 * i)) 4 4 = 0) ∧
    (∃ (s : State) (n i : Nat), s.shaped = true ∧ n < 8 ∧ i < 8 ∧ i < (s.dio n).ain.length ∧
      (s.ainRange n i = 3 ∨ s.ainRange n i = 4)) ∧
    (∃ (s : State) (n i : Nat), s.shaped = true ∧ n < 8 ∧ i < (s.dio n).ain.length) ∧
    (∃ (s : State) (n k : Nat) (_lim : Bool), s.shaped = true ∧ n < 8 ∧ k < 4 ∧ k < (s.dio n).aout.length) :=
  ⟨⟨{ on with regs := [(0x1A0070, 0x10001)] }, 0, 7, by decide +kernel⟩,
   ⟨dioOn { Dio.reset with bursts := [⟨0x80, 2⟩] }, 0, 0, 7, ⟨0x80, 2⟩, by decide +kernel⟩,
   ⟨{ dioOn { Dio.reset with ain := List.replicate 7 Ain.reset ++ [{ Ain.reset with range := 1 }] } with regs := [(0x1A0070, 1)] },
      0, 7, 0, by decide +kernel⟩,
   ⟨{ on with regs := [(0x1A0070, 4)] }, 0, 7, by decide +kernel⟩,
   ⟨on, 7, 7, by decide +kernel⟩,
   ⟨on, 7, 3, true, by decide +kernel⟩⟩

theorem test_meets_Calendar :
    (∃ s : State, s.reaches 0xB0008 = true) ∧
    (∃ s : State, s.reaches 0xB0008 = true) ∧
    (∃ (s : State) (new : Cal), s.bkp.syncEn = true ∧ (s.time.cls = 5 ∨ s.time.cls = 4 ∨ s.time.cls = 2) ∧
      s.pwr.vinGood = true ∧ calOf (s.time.now / giga) s.bkp.cal.wday = some new) ∧
    (∃ (s : State) (p : Nat), 0 < s.bkp.rate ∧ s.bkp.rate ≤ 511 ∧ s.bkp.cal.presc < 32768 ∧
      p = s.bkp.cal.presc + (freeWord s.free).toNat % (32768 - s.bkp.cal.presc) + s.bkp.rate.toNat) ∧
    (∃ (s : State) (_d : Int), s.bkp.autoCal = true ∧ (s.time.cls = 5 ∨ s.time.cls = 4) ∧ s.time.locked = true) ∧
    (∃ (s : State) (_v : Nat), s.pwr.vinGood = true) :=
  ⟨⟨on, by decide +kernel⟩,
   ⟨on, by decide +kernel⟩,
   ⟨{ on with time := { on.time with now := 1000000000000000000 } }, (calOf 1000000000 0).getD Cal.reset,
      by decide +kernel⟩,
   ⟨bkpOn { Backup.reset with rate := 511, cal := { Cal.reset with presc := 32767 } }, _, by decide +kernel,
      by decide +kernel, by decide +kernel, rfl⟩,
   ⟨{ on with time := { on.time with locked := true } }, 0, by decide +kernel⟩,
   ⟨on, 0, by decide +kernel⟩⟩

theorem test_meets_StepRunsFront :
    ∃ s : State, s.pending = [] :=
  ⟨on, by decide +kernel⟩

theorem test_meets_StepKeepsWellKept :
    ∃ s t : State, s.Inv ∧ step s = .next t :=
  ⟨on, idleTick on, ⟨by decide +kernel, by decide +kernel⟩, rfl⟩

theorem test_meets_CommandsKeepIdentity :
    ∃ (_c : Instr) (s : State), s.Inv :=
  ⟨.beacon, on, ⟨by decide +kernel, by decide +kernel⟩⟩

theorem test_meets_RollbackWindow :
    (∃ (s : State) (fn : Nat), fn < 64 ∧ s.lc.quar = 0 ∧ s.txnRefused = false ∧ (s.txn fn).resetAfter = false ∧
      (s.txn fn).goSent = false ∧
      ((s.txn fn).state = .opened ∨ (s.txn fn).state = .preparing ∨ ((s.txn fn).state = .pending ∧ s.time.now + 100000 < (s.txn fn).apply))) ∧
    (∃ (s : State) (fn : Nat), fn < 64 ∧ s.lc.quar = 0 ∧ s.txnRefused = false ∧ (s.txn fn).state ≠ .idle ∧
      ((s.txn fn).goSent = true ∨ ((s.txn fn).state = .pending ∧ (s.txn fn).apply ≤ s.time.now + 100000))) :=
  ⟨⟨{ on with txns := [(63, { Txn.reset with state := .pending, apply := 1000000100001 })] }, 63, by decide +kernel⟩,
   ⟨{ on with txns := [(63, { Txn.reset with state := .pending, apply := 1000000100000 })] }, 63, by decide +kernel⟩⟩

theorem test_meets_LostChannelBlock :
    (∃ (s : State) (n : Nat), n < 8 ∧ s.lc.quar = 0 ∧ s.fitted n = true ∧ (s.ch n).state ≠ .absent) ∧
    (∃ (s : State) (n o : Nat), n < 8 ∧ s.lc.quar = 0 ∧ s.fitted n = true ∧ 0 < o ∧ o < 0x100000 ∧ o % 4 = 0 ∧
      ((s.ch n).state = .linkLost ∨ (s.ch n).state = .fault)) ∧
    (∃ (s : State) (n o len : Nat) (_data : BitVec 64), n < 8 ∧ o < 0x100000 ∧ s.fnEn 0 = true ∧
      (s.fn 0).mse = true ∧ accessOk o len = true ∧ ((s.ch n).state = .linkLost ∨ (s.ch n).state = .fault)) ∧
    (∃ (s : State) (n o len : Nat) (_data : BitVec 64), s.ident.eight = false ∧ 4 ≤ n ∧ n < 8 ∧ o < 0x100000 ∧
      o % 4 = 0 ∧ s.fnEn 0 = true ∧ (s.fn 0).mse = true ∧ accessOk o len = true) :=
  ⟨⟨on, 7, by decide +kernel⟩,
   ⟨chOn { upCh with state := .linkLost }, 0, 0xFFFFC, by decide +kernel⟩,
   ⟨chOn { upCh with state := .linkLost }, 0, 0xFFFFC, 4, 0, by decide +kernel⟩,
   ⟨{ on with ident := { Ident.factory with eight := false } }, 4, 0, 4, 0, by decide +kernel⟩⟩

theorem test_meets_CalendarFields :
    (∃ c : Cal, c.sec < 64 ∧ c.min < 64 ∧ c.hour < 32 ∧ c.day < 32 ∧ c.month < 16 ∧ c.year < 512) ∧
    (∃ c : Cal, c.ok = true) ∧
    (∃ c : Cal, c.ok = true ∧ c.sec = 59 ∧ c.min = 59 ∧ c.hour = 23 ∧ c.day = 31 ∧ c.month = 12 ∧ c.year = 399) :=
  ⟨⟨{ presc := 0, sec := 63, min := 63, hour := 31, wday := 0, day := 31, month := 15, year := 511 },
      by decide +kernel⟩,
   ⟨Cal.reset, by decide +kernel⟩,
   ⟨{ presc := 0, sec := 59, min := 59, hour := 23, wday := 6, day := 31, month := 12, year := 399 },
      by decide +kernel⟩⟩

theorem test_meets_UpdateIntake :
    (∃ (s : State) (port : Nat) (mac : BitVec 48) (_seq : BitVec 16) (h : List Byte), updPort s port = true ∧
      h.length = 256 ∧ hdrCheck s (updHolds s port mac) h ≠ 0) ∧
    (∃ (s : State) (port : Nat) (mac : BitVec 48) (_seq : BitVec 16) (d : List Byte), updPort s port = true ∧
      updHolds s port mac = true ∧ s.upd.state = 1 ∧ 1 ≤ d.length ∧ d.length ≤ 1024 ∧ d.length ≤ s.upd.missing) ∧
    (∃ (s : State) (port : Nat) (mac : BitVec 48) (_seq : BitVec 16) (ofs : Nat) (d : List Byte),
      updPort s port = true ∧ updHolds s port mac = true ∧ s.upd.state = 1 ∧ 1 ≤ d.length ∧ d.length ≤ 1024 ∧
      (ofs ≠ 256 + s.upd.body.length ∨ s.upd.missing < d.length)) ∧
    (∃ (s : State) (port : Nat) (mac : BitVec 48) (_seq : BitVec 16) (_ofs : Nat) (_d : List Byte),
      updPort s port = true ∧ s.upd.lock ≠ 0 ∧ updHolds s port mac = false) ∧
    (∃ (s : State) (port : Nat) (mac : BitVec 48) (_seq : BitVec 16), updPort s port = true ∧
      updHolds s port mac = true) ∧
    (∃ s : State, s.reaches 0xA0000 = true ∧ s.upd.lock = 1) ∧
    (∃ (s : State) (h : List Byte), s.reaches 0xA0000 = true ∧ s.mayDma 0 = true ∧ fld (s.reg 0xA0010) 0 26 = 0 ∧
      fld (s.reg 0xA0014) 0 21 = 256 ∧ h.length = 256) ∧
    (∃ (s : State) (d : List Byte), s.reaches 0xA0000 = true ∧ s.mayDma 0 = true ∧ s.upd.lock = 1 ∧
      s.upd.state = 1 ∧ fld (s.reg 0xA0010) 0 26 = 256 + s.upd.body.length ∧ fld (s.reg 0xA0014) 0 21 = d.length ∧
      1 ≤ d.length ∧ d.length ≤ 2 ^ 20 ∧ d.length ≤ s.upd.missing) ∧
    (∃ s : State, s.upd.state = 2) ∧
    (∃ s : State, s.upd.state = 1) :=
  ⟨⟨{ netOn { NetPort.reset with up := true } with regs := [(0xA0024, 1)], upd := Upd.reset }, 0, 0, 0,
      List.replicate 256 0, by decide +kernel⟩,
   ⟨{ netOn { NetPort.reset with up := true } with regs := [(0xA0024, 1)], upd := { Upd.reset with state := 1, lock := 2, header := [0] ++ List.replicate 255 4 } },
      0, 0, 0, List.replicate 1024 0, by decide +kernel⟩,
   ⟨{ netOn { NetPort.reset with up := true } with regs := [(0xA0024, 1)], upd := { Upd.reset with state := 1, lock := 2, header := [0] ++ List.replicate 255 4 } },
      0, 0, 0, 0, [0], by decide +kernel⟩,
   ⟨{ netOn { NetPort.reset with up := true } with regs := [(0xA0024, 1)], upd := { Upd.reset with state := 1, lock := 2, header := [0] ++ List.replicate 255 4 } },
      0, 1, 0, 0, [], by decide +kernel⟩,
   ⟨{ netOn { NetPort.reset with up := true } with regs := [(0xA0024, 1)], upd := { Upd.reset with state := 1, lock := 2, header := [0] ++ List.replicate 255 4 } },
      0, 0, 0, by decide +kernel⟩,
   ⟨updOn { Upd.reset with lock := 1 }, by decide +kernel⟩,
   ⟨{ on with regs := [(0xA0014, 256)] }, List.replicate 256 0, by decide +kernel⟩,
   ⟨{ updOn { Upd.reset with state := 1, lock := 1, header := [0] ++ List.replicate 255 4 } with regs := [(0xA0010, 256), (0xA0014, 1)] },
      [0], by decide +kernel⟩,
   ⟨updOn { Upd.reset with state := 2 }, by decide +kernel⟩,
   ⟨updOn { Upd.reset with state := 1 }, by decide +kernel⟩⟩

theorem test_meets_ActivationRuns :
    (∃ s : State, s.reaches 0xA0000 = true ∧ s.upd.state = 3 ∧ s.timeValid = true ∧ (s.reg 0xA0018).toNat < giga ∧
      s.time.now + giga ≤ updInstant s ∧ updInstant s ≤ s.time.now + 604800 * giga ∧
      (s.pair.role = 0 ∨ (s.pair.partnerRole ≠ 2 ∧ s.pair.partnerRole ≠ 3))) ∧
    (∃ s : State, s.reaches 0xA0000 = true ∧ s.upd.state = 3 ∧ s.timeValid = true ∧ (s.reg 0xA0018).toNat < giga ∧
      s.time.now + giga ≤ updInstant s ∧ updInstant s ≤ s.time.now + 604800 * giga ∧ s.pair.role ≠ 0 ∧
      (s.pair.partnerRole = 2 ∨ s.pair.partnerRole = 3)) ∧
    (∃ s : State, s.reaches 0xA0000 = true ∧ s.upd.state ≠ 4 ∧ s.upd.pState ≠ 4 ∧ s.timeValid = true ∧
      (s.reg 0xA0018).toNat < giga ∧ s.time.now + giga ≤ updInstant s ∧ updInstant s ≤ s.time.now + 604800 * giga) ∧
    (∃ (s : State) (g : BitVec 2), s.reaches 0xA0000 = true ∧
      ((g = 0 ∧ s.upd.state ≠ 3) ∨ (g = 2 ∧ s.upd.state ≠ 3) ∨ (g = 1 ∧ s.upd.state = 4))) ∧
    (∃ s : State, s.reaches 0xA0000 = true ∧ s.upd.state = 3) ∧
    (∃ s : State, s.reaches 0xA0000 = true ∧ s.upd.state = 4 ∧ s.upd.pState ≠ 4) ∧
    (∃ s : State, s.reaches 0xA0000 = true ∧ s.upd.state ≠ 4 ∧ s.upd.pState ≠ 4) ∧
    (∃ s : State, s.upd.armedAt ≤ s.time.now ∧ s.timeValid = true ∧ s.upd.state = 4 ∧ s.upd.pState ≠ 4 ∧
      (hdrSigOk s.upd.header && digestsOk s.upd.header s.upd.body) = false) ∧
    (∃ s : State, s.reaches 0xA0000 = true ∧ s.upd.trial = true) ∧
    (∃ s : State, s.reaches 0xA0000 = true ∧ s.upd.trial = false) ∧
    (∃ s : State, s.upd.trial = true ∧ s.pwr.service = true ∧ fld (s.reg 0xA0024) 16 16 ≠ 0) ∧
    (∃ s : State, s.reaches 0xA0000 = true ∧ s.upd.trial = true) ∧
    (∃ s : State, s.reaches 0xA0000 = true ∧ s.mirrors = true ∧ s.upd.state = 3) ∧
    (∃ s : State, s.reaches 0xA0000 = true ∧ (s.mirrors = false ∨ s.upd.state ≠ 3)) :=
  ⟨⟨{ updOn { Upd.reset with state := 3 } with regs := [(0xA001C, 1001)] }, by decide +kernel⟩,
   ⟨{ updOn { Upd.reset with state := 3 } with regs := [(0xA001C, 1001)], pair := { Pair.reset with role := 1, partnerRole := 3 } },
      by decide +kernel⟩,
   ⟨{ updOn Upd.reset with regs := [(0xA001C, 1001)] }, by decide +kernel⟩,
   ⟨updOn { Upd.reset with state := 4 }, 1, by decide +kernel⟩,
   ⟨updOn { Upd.reset with state := 3 }, by decide +kernel⟩,
   ⟨updOn { Upd.reset with state := 4 }, by decide +kernel⟩,
   ⟨on, by decide +kernel⟩,
   ⟨updOn { Upd.reset with state := 4 }, by decide +kernel, by decide +kernel, by decide +kernel, by decide +kernel,
      Bool.and_eq_false_iff.mpr (.inr rfl)⟩,
   ⟨updOn { Upd.reset with trial := true }, by decide +kernel⟩,
   ⟨on, by decide +kernel⟩,
   ⟨{ updOn { Upd.reset with trial := true } with regs := [(0xA0024, 0x10000)] }, by decide +kernel⟩,
   ⟨updOn { Upd.reset with trial := true }, by decide +kernel⟩,
   ⟨{ updOn { Upd.reset with state := 3 } with pair := { Pair.reset with role := 1, linkUp := true, partnerRole := 2 } },
      by decide +kernel⟩,
   ⟨updOn { Upd.reset with state := 3 }, by decide +kernel⟩⟩

theorem test_meets_VaultStarts :
    (∃ (s : State) (slot : Nat), slot < 512 ∧ s.reaches 0x90000 = true ∧ s.vlt.busy = none ∧ s.lc.state ≠ 0 ∧
      s.lc.state ≠ 5 ∧ s.vstate = 1 ∧ s.pwr.warn = false) ∧
    (∃ (s : State) (_slot : Nat) (o : VOp), s.reaches 0x90000 = true ∧ s.vlt.busy = some o) ∧
    (∃ (s : State) (_slot : Nat), s.reaches 0x90000 = true ∧ s.vlt.busy = none ∧
      (s.lc.state = 0 ∨ s.lc.state = 5 ∨ s.vstate = 0 ∨ s.vstate = 2)) :=
  ⟨⟨{ on with vlt := { Vault.reset with vstate := 1 } }, 511, by decide +kernel⟩,
   ⟨vlts (vop 1 5 0 0) [], 0, vop 1 5 0 0, by decide +kernel⟩,
   ⟨on, 0, by decide +kernel⟩⟩

theorem test_meets_VaultTree :
    (∃ (s : State) (o : VOp) (b d : Nat), s.vlt.busy = some o ∧ s.lc.waiting = none ∧ 2 ≤ o.slot ∧ o.cmd = 1 ∧
      (o.kind = 1 ∨ o.kind = 2) ∧ vaultPlace s o = .ok (b, d)) ∧
    (∃ (s : State) (o : VOp) (b d : Nat) (k : VKey), s.vlt.busy = some o ∧ s.lc.waiting = none ∧ 2 ≤ o.slot ∧
      o.cmd = 2 ∧ (o.kind = 1 ∨ o.kind = 2) ∧ vaultPlace s o = .ok (b, d) ∧ (s.vslot o.parent).active = some k ∧
      (s.vslot o.parent).orphan = false) ∧
    (∃ (s : State) (o : VOp) (b d : Nat), s.vlt.busy = some o ∧ s.lc.waiting = none ∧ 2 ≤ o.slot ∧ o.cmd = 3 ∧
      (o.kind = 1 ∧ o.len = 32 ∧ s.lc.state ≠ 3 ∨ o.kind = 2 ∧ o.len = 48 ∧ s.lc.state ≠ 3 ∨ o.kind = 3 ∧ o.len = 96 ∧ onP384 (o.input.take 96) = true) ∧
      vaultPlace s o = .ok (b, d)) ∧
    (∃ (s : State) (o : VOp) (k : VKey), s.vlt.busy = some o ∧ s.lc.waiting = none ∧ 2 ≤ o.slot ∧ o.cmd = 4 ∧
      (s.vslot o.slot).pend = some k) ∧
    (∃ (s : State) (o : VOp), s.vlt.busy = some o ∧ s.lc.waiting = none ∧ 2 ≤ o.slot ∧ o.cmd = 5 ∧
      (s.vslot o.slot).pend ≠ none) ∧
    (∃ (s : State) (o : VOp), s.vlt.busy = some o ∧ s.lc.waiting = none ∧ 2 ≤ o.slot ∧ o.cmd = 6 ∧
      (s.vslot o.slot).active ≠ none) ∧
    (∃ (s : State) (o : VOp) (k p : VKey), s.vlt.busy = some o ∧ s.lc.waiting = none ∧ 2 ≤ o.slot ∧ o.cmd = 7 ∧
      (s.vslot o.slot).active = some k ∧ (s.vslot o.slot).orphan = true ∧ (k.origin = 2 ∨ k.origin = 4) ∧
      (s.vslot k.parent).active = some p ∧ (s.vslot k.parent).orphan = false) ∧
    (∃ (s t : State), s.lc.waiting = none ∧ exec .vaultOpComplete s = .next t) :=
  ⟨⟨vlts (vop 1 65 0x400 0) [], vop 1 65 0x400 0, 63, 1, by decide +kernel⟩,
   ⟨vlts (vop 2 2 0x200 0) [(0, vact (vkey 1 0 0))], vop 2 2 0x200 0, 0, 1, vkey 1 0 0, by decide +kernel⟩,
   ⟨{ vlts (vop 3 2 0x400 48) [] with lc := { on.lc with state := 2 } }, vop 3 2 0x400 48, 0, 1, by decide +kernel⟩,
   ⟨vlts (vop 4 511 0 0) [(511, { VSlot.reset with pend := some (vkey 1 1 0) })], vop 4 511 0 0, vkey 1 1 0,
      by decide +kernel⟩,
   ⟨vlts (vop 5 511 0 0) [(511, { VSlot.reset with pend := some (vkey 1 1 0) })], vop 5 511 0 0, by decide +kernel⟩,
   ⟨vlts (vop 6 511 0 0) [(511, vact (vkey 1 1 0))], vop 6 511 0 0, by decide +kernel⟩,
   ⟨vlts (vop 7 66 0 0) [(5, vact (vkey 1 1 0)), (66, { vact (vkey 1 4 5) with orphan := true })], vop 7 66 0 0,
      vkey 1 4 5, vkey 1 1 0, by decide +kernel⟩,
   ⟨on, on, by decide +kernel, rfl⟩⟩

theorem test_meets_VaultUses :
    (∃ (s : State) (o : VOp) (k : VKey), s.vlt.busy = some o ∧ s.lc.waiting = none ∧ 2 ≤ o.slot ∧ o.cmd = 8 ∧
      o.len ≤ 1024 ∧ (s.vslot o.slot).active = some k ∧ k.kind ≠ 3) ∧
    (∃ (s : State) (o : VOp) (k : VKey), s.vlt.busy = some o ∧ s.lc.waiting = none ∧ 2 ≤ o.slot ∧ o.cmd = 9 ∧
      48 ≤ o.len ∧ o.len ≤ 1024 ∧ (s.vslot o.slot).active = some k ∧ k.kind ≠ 3) ∧
    (∃ (s : State) (o : VOp) (k : VKey), s.vlt.busy = some o ∧ s.lc.waiting = none ∧ 2 ≤ o.slot ∧ o.cmd = 10 ∧
      o.len = 144 ∧ (s.vslot o.slot).active = some k ∧ k.kind = 3 ∧ (s.vslot o.slot).orphan = false) ∧
    (∃ (s : State) (n : Nat) (k : VKey), n < 512 ∧ s.reaches 0x90100 = true ∧ s.vstate = 1 ∧
      (s.vslot n).active = some k) ∧
    (∃ (s : State) (o : VOp), s.pwr.warn = true ∧ s.vlt.busy = some o) :=
  ⟨⟨vlts (vop 8 2 0 1024) [(2, vact (vkey 1 1 0))], vop 8 2 0 1024, vkey 1 1 0, by decide +kernel⟩,
   ⟨vlts (vop 9 2 0 48) [(2, vact (vkey 1 1 0))], vop 9 2 0 48, vkey 1 1 0, by decide +kernel⟩,
   ⟨vlts (vop 10 2 0 144) [(2, vact (vkey 3 1 0))], vop 10 2 0 144, vkey 3 1 0, by decide +kernel⟩,
   ⟨{ on with vlt := { Vault.reset with vstate := 1, slots := [(511, vact (vkey 3 1 0))] } }, 511, vkey 3 1 0,
      by decide +kernel⟩,
   ⟨{ vlts (vop 1 2 0 0) [] with pwr := { on.pwr with warn := true } }, vop 1 2 0 0, by decide +kernel⟩⟩

theorem test_meets_TamperMonitor :
    (∃ (s : State) (i : Nat) (c : LoopSense) (l : TLoop), i < 2 ∧ s.bkp.tcfg.getLsbD i = true ∧
      s.bkp.tcfg.getLsbD (1 - i) = false ∧ s.bkp.loops[i]? = some l ∧ l.last ≠ c) ∧
    (∃ (s : State) (i : Nat) (c : LoopSense) (l : TLoop), i < 2 ∧ s.bkp.tcfg.getLsbD i = true ∧
      s.bkp.tcfg.getLsbD (1 - i) = false ∧ s.bkp.loops[i]? = some l ∧ l.last = c ∧ c ≠ .good ∧ l.active = false ∧
      s.pwr.vinGood = true) ∧
    (∃ (s : State) (i : Nat) (l : TLoop), i < 2 ∧ s.bkp.tcfg.getLsbD i = true ∧ s.bkp.tcfg.getLsbD (1 - i) = false ∧
      s.bkp.loops[i]? = some l ∧ l.last = .good) ∧
    (∃ (s : State) (_w : Word), s.reaches 0xB0200 = true ∧ (s.lc.state = 1 ∨ s.lc.state = 2 ∨ s.lc.state = 4)) ∧
    (∃ (s : State) (_w : Word), (¬(s.lc.state = 1 ∨ s.lc.state = 2 ∨ s.lc.state = 4))) ∧
    (∃ (s : State) (key : Byte), s.reaches 0x48 = true ∧
      (key ≠ 0xC3 ∨ (s.lc.quar ≠ 1 ∧ s.lc.quar ≠ 2) ∨ s.vlt.vstate ≠ 0 ∨ s.bkp.loops.any (fun l => l.active) = true)) :=
  ⟨⟨bkpOn { Backup.reset with tcfg := 2, loops := [⟨.good, false⟩, ⟨.good, false⟩] }, 1, .open, ⟨.good, false⟩,
      by decide +kernel⟩,
   ⟨bkpOn { Backup.reset with tcfg := 2, loops := [⟨.good, false⟩, ⟨.open, false⟩] }, 1, .open, ⟨.open, false⟩,
      by decide +kernel⟩,
   ⟨bkpOn { Backup.reset with tcfg := 2, loops := [⟨.good, false⟩, ⟨.good, false⟩] }, 1, ⟨.good, false⟩,
      by decide +kernel⟩,
   ⟨lcOn { on.lc with state := 4 }, 0, by decide +kernel⟩,
   ⟨on, 0, by decide +kernel⟩,
   ⟨on, 0xC2, by decide +kernel⟩⟩

theorem test_meets_StartsAndResets :
    (∃ (s : State) (_loops : BitVec 2) (_ok : Bool), s.pwr.vinGood = false) ∧
    (∃ (s : State) (_b : Bool) (_loops : BitVec 2) (_ok : Bool), s.pwr.vinGood = true) ∧
    (∃ s : State, s.reaches 0xC000C = true ∧ s.pwr.warn = false) ∧
    (∃ (s : State) (key : Byte), s.reaches 0xC000C = true ∧ key ≠ 0xA5) ∧
    (∃ s : State, s.pwr.vinGood = true) ∧
    (∃ (s : State) (n : Nat), s.reaches 0xC000C = true ∧ n < s.chs.length ∧ s.fitted n = true ∧ s.pwr.warn = false ∧
      ((s.ch n).state = .outOfService ∨ (s.ch n).state = .fault)) ∧
    (∃ (s : State) (n : Nat), s.reaches 0xC000C = true ∧ s.pwr.warn = false ∧
      (s.fitted n = false ∨ ((s.ch n).state ≠ .outOfService ∧ (s.ch n).state ≠ .fault))) ∧
    (∃ (s : State) (n : Nat), n < s.chs.length ∧ (s.ch n).state = .starting ∧ s.pwr.begun = true) ∧
    (∃ s : State, s.pwr.vinGood = true ∧ s.pwr.begun = false ∧ s.pwr.warn = false ∧ s.lc.quar = 0 ∧ s.lc.state ≠ 5 ∧
      s.standby = false) ∧
    (∃ s : State, s.pwr.vinGood = true ∧ s.pwr.begun = false ∧ s.pwr.warn = false ∧ s.lc.quar = 0 ∧ s.lc.state ≠ 5 ∧
      s.standby = true) ∧
    (∃ s : State, (s.pwr.vinGood = false ∨ s.pwr.begun = true ∨ s.lc.quar ≠ 0 ∨ s.lc.state = 5)) :=
  ⟨⟨pwrOn { on.pwr with vinGood := false }, 0, true, by decide +kernel⟩,
   ⟨on, true, 0, true, by decide +kernel⟩,
   ⟨on, by decide +kernel⟩,
   ⟨on, 0xA4, by decide +kernel⟩,
   ⟨on, by decide +kernel⟩,
   ⟨{ on with chs := List.replicate 7 upCh ++ [{ upCh with state := .fault }] }, 7, by decide +kernel⟩,
   ⟨on, 7, by decide +kernel⟩,
   ⟨chOn { upCh with state := .starting }, 0, by decide +kernel⟩,
   ⟨pwrOn { on.pwr with begun := false }, by decide +kernel⟩,
   ⟨{ pwrOn { on.pwr with begun := false } with pair := { Pair.reset with role := 2 } }, by decide +kernel⟩,
   ⟨on, by decide +kernel⟩⟩

theorem test_meets_PowerFailure :
    (∃ s : State, s.pwr.vinGood = true ∧ s.pwr.warn = false ∧ s.upd.pState ≠ 4) ∧
    (∃ s : State, s.pwr.warn = true) ∧
    (∃ s : State, s.pwr.warn = false) ∧
    (∃ s : State, s.pwr.frozen = true ∧ s.pwr.recorded = false) ∧
    (∃ s : State, (s.pwr.frozen = false ∨ s.pwr.recorded = true)) ∧
    (∃ s : State, s.pwr.warn = true) ∧
    (∃ s : State, s.pwr.warn = true ∧ s.pwr.recorded = false) ∧
    (∃ s : State, s.pwr.warn = true ∧ s.pwr.recorded = true) :=
  ⟨⟨on, by decide +kernel⟩,
   ⟨pwrOn { on.pwr with warn := true }, by decide +kernel⟩,
   ⟨on, by decide +kernel⟩,
   ⟨pwrOn { on.pwr with frozen := true }, by decide +kernel⟩,
   ⟨on, by decide +kernel⟩,
   ⟨pwrOn { on.pwr with warn := true }, by decide +kernel⟩,
   ⟨pwrOn { on.pwr with warn := true }, by decide +kernel⟩,
   ⟨pwrOn { on.pwr with warn := true, recorded := true }, by decide +kernel⟩⟩

theorem test_meets_LifeCycleCommands :
    (∃ (s : State) (cmd old new : Nat) (c : Byte → BitVec 16 → Instr) (confirm : BitVec 16),
      (cmd, c, old, new) ∈ [(1, Instr.commission, 1, 2), (1, .commission, 3, 2), (1, .commission, 4, 2), (2, .enterService, 2, 3), (2, .enterService, 4, 3), (3, .maintain, 3, 4), (4, .decommission, 1, 5), (4, .decommission, 2, 5), (4, .decommission, 3, 5), (4, .decommission, 4, 5), (5, .reclaim, 5, 0)] ∧
      s.reaches 0x44 = true ∧ s.lc.quar = 0 ∧ s.lc.state = old ∧ s.pwr.warn = false ∧ s.lc.waiting = none ∧
      (4 ≤ cmd → confirm.toNat = s.ident.serial.toNat % 65536)) ∧
    (∃ (s : State) (confirm : BitVec 16), s.reaches 0x44 = true ∧ s.lc.quar ≠ 4 ∧ s.vlt.vstate = 2 ∧
      s.pwr.warn = false ∧ s.lc.waiting = none ∧ s.vlt.busy = none ∧ confirm.toNat = s.ident.serial.toNat % 65536) ∧
    (∃ (s : State) (c : Byte → BitVec 16 → Instr) (key : Byte) (_confirm : BitVec 16),
      c ∈ [Instr.commission, .enterService, .maintain, .decommission, .reclaim, .reprovision] ∧
      s.reaches 0x44 = true ∧ (key ≠ 0xC3 ∨ s.pwr.warn = true)) ∧
    (∃ (s : State) (c : Byte → BitVec 16 → Instr) (_key : Byte) (confirm : BitVec 16),
      c ∈ [Instr.decommission, .reclaim, .reprovision] ∧ s.reaches 0x44 = true ∧
      confirm.toNat ≠ s.ident.serial.toNat % 65536) ∧
    (∃ (s : State) (c : Byte → BitVec 16 → Instr) (l : List Nat) (_key : Byte) (_confirm : BitVec 16),
      (c, l) ∈ [(Instr.commission, [0, 2, 5]), (.enterService, [0, 1, 3, 5]), (.maintain, [0, 1, 2, 4, 5]), (.decommission, [0, 5]), (.reclaim, [0, 1, 2, 3, 4])] ∧
      s.reaches 0x44 = true ∧ s.lc.state ∈ l) ∧
    (∃ (s : State) (_key : Byte) (_confirm : BitVec 16), s.reaches 0x44 = true ∧ s.vlt.vstate ≠ 2) ∧
    (∃ s : State, s.reaches 0x48 = true ∧ (s.lc.quar = 1 ∨ s.lc.quar = 2) ∧ s.vlt.vstate = 0 ∧
      s.bkp.loops.any (fun l => l.active) = false) :=
  ⟨⟨lcOn { on.lc with state := 4 }, 4, 4, 5, .decommission, 1, by simp, by decide +kernel⟩,
   ⟨{ on with vlt := { Vault.reset with vstate := 2 } }, 1, by decide +kernel⟩,
   ⟨on, .reclaim, 0, 0, by simp, by decide +kernel⟩,
   ⟨on, .reprovision, 0, 0, by simp, by decide +kernel⟩,
   ⟨lcOn { on.lc with state := 0 }, .decommission, [0, 5], 0, 0, by simp, by decide +kernel⟩,
   ⟨on, 0, 0, by decide +kernel⟩,
   ⟨lcOn { on.lc with quar := 2 }, by decide +kernel⟩⟩

theorem test_meets_PairLink :
    (∃ s : State, s.pair.linkUp = true ∧ bitN (s.reg 0x80000) 0 = true) ∧
    (∃ s : State, (s.pair.linkUp = false ∨ bitN (s.reg 0x80000) 0 = false)) ∧
    (∃ (_s : State) (hb : Heartbeat), hb.crcOk = false) ∧
    (∃ (s : State) (hb : Heartbeat), hb.crcOk = true ∧ s.pair.refused = true) ∧
    (∃ (s : State) (hb : Heartbeat), hb.crcOk = true ∧ s.pair.role = 1 ∧ s.pair.refused = false) ∧
    (∃ (s : State) (hb : Heartbeat), hb.crcOk = true ∧ s.pair.role = 2 ∧ s.pair.refused = false ∧
      s.pair.testBad = false ∧ s.pair.recs = [] ∧ hb.role = 1 ∧ hb.yields = true ∧ s.time.now - hb.time ≤ 100000) ∧
    (∃ (s : State) (hb : Heartbeat), hb.crcOk = true ∧ s.pair.role = 2 ∧ s.pair.refused = false ∧ s.pair.recs = [] ∧
      hb.role = 1 ∧ 100000 < s.time.now - hb.time) ∧
    (∃ (s : State) (_n : Nat) (_r : MirrorRec), s.standby = true) ∧
    (∃ (s : State) (_n : Nat) (_r : MirrorRec), s.standby = false) ∧
    (∃ (s : State) (ws : List Word), s.pair.role = 1 ∧ ws.length = 6) ∧
    (∃ (s : State) (_ws : List Word), s.pair.role ≠ 1) ∧
    (∃ s : State, s.pair.role = 1 ∧ s.pair.hot = true) ∧
    (∃ s : State, s.reaches 0x80008 = true ∧ s.pair.role = 2 ∧ s.pair.busy = false) ∧
    (∃ s : State, s.reaches 0x80008 = true ∧ (s.pair.role ≠ 2 ∨ s.pair.busy = true)) ∧
    (∃ (s : State) (_hubF _chP _chF : Byte) (_faults : Word), s.pair.role = 2 ∧ s.pair.busy = true) ∧
    (∃ s : State, s.pair.role = 2 ∧ s.pair.hot = true) ∧
    (∃ (s : State) (p : Partner) (_lanes : BitVec 2), s.pair.role = 0 ∧ bitN (s.reg 0x80000) 0 = true ∧
      p.enabled = true ∧ p.code4 = !s.ident.eight ∧ fld (s.reg 0x80000) 16 16 = p.groupId ∧
      p.sideB = !s.ident.sideB ∧ s.upd.running.mirFmt = p.mirrorFmt ∧ s.lc.state = p.lifecycle ∧ 2 ≤ p.lifecycle ∧
      p.lifecycle ≤ 4) ∧
    (∃ (s : State) (p : Partner) (_lanes : BitVec 2), s.pair.role = 0 ∧
      (bitN (s.reg 0x80000) 0 = false ∨ p.enabled = false ∨ p.code4 = s.ident.eight ∨ fld (s.reg 0x80000) 16 16 ≠ p.groupId ∨ p.sideB = s.ident.sideB)) :=
  ⟨⟨{ pairOn { Pair.reset with linkUp := true } with regs := [(0x80000, 1)] }, by decide +kernel⟩,
   ⟨on, by decide +kernel⟩,
   ⟨on, { beat with crcOk := false }, by decide +kernel⟩,
   ⟨pairOn { Pair.reset with refused := true }, beat, by decide +kernel⟩,
   ⟨pairOn { Pair.reset with role := 1 }, beat, by decide +kernel⟩,
   ⟨pairOn { Pair.reset with role := 2 }, { beat with time := 999999900000 }, by decide +kernel⟩,
   ⟨pairOn { Pair.reset with role := 2 }, { beat with time := 999999899999 }, by decide +kernel⟩,
   ⟨pairOn { Pair.reset with role := 3 }, 0, .output 0 0 0, by decide +kernel⟩,
   ⟨on, 0, .output 0 0 0, by decide +kernel⟩,
   ⟨pairOn { Pair.reset with role := 1 }, List.replicate 6 0, by decide +kernel⟩,
   ⟨on, [], by decide +kernel⟩,
   ⟨pairOn { Pair.reset with role := 1, hot := true }, by decide +kernel⟩,
   ⟨pairOn { Pair.reset with role := 2 }, by decide +kernel⟩,
   ⟨on, by decide +kernel⟩,
   ⟨pairOn { Pair.reset with role := 2, busy := true }, 0, 0, 0, 0, by decide +kernel⟩,
   ⟨pairOn { Pair.reset with role := 2, hot := true }, by decide +kernel⟩,
   ⟨{ pairOn { Pair.reset with role := 0 } with regs := [(0x80000, 1)] }, mate, 0, by decide +kernel⟩,
   ⟨on, mate, 0, by decide +kernel⟩⟩

theorem test_meets_RoleChanges :
    (∃ (s : State) (_seen : Bool), bitN (s.reg 0x80000) 0 = true ∧ s.pwr.service = false ∧ s.pwr.vinGood = true ∧
      s.pair.role = 0 ∧ (∀ p, s.pair.partner = some p → s.pair.linkUp = true → pairRefusal s p = none)) ∧
    (∃ (s : State) (_seen : Bool), (bitN (s.reg 0x80000) 0 = false ∨ s.pwr.service = true ∨ s.pair.role ≠ 0)) ∧
    (∃ s : State, s.pair.partnerRole ≠ 0 ∧ s.pair.role = 2 ∧ s.pair.refused = false) ∧
    (∃ s : State, s.pair.partnerRole ≠ 0 ∧ (s.pair.role ≠ 2 ∨ s.pair.refused = true)) ∧
    (∃ s : State, s.pair.partnerRole = 0) ∧
    (∃ (s : State) (_gap cause : Nat) (ok : Bool), s.pair.decided = some cause ∧ s.pair.role = 2 ∧
      (s.pair.hot = true ∨ (ok = true ∧ s.pair.memErr = false))) ∧
    (∃ (s : State) (_gap cause : Nat) (ok : Bool), s.pair.decided = some cause ∧ s.pair.role = 2 ∧
      s.pair.hot = false ∧ (ok = false ∨ s.pair.memErr = true)) ∧
    (∃ (s : State) (_gap : Nat) (_ok : Bool), s.pair.decided = none) ∧
    (∃ (s : State) (cause : Nat), s.pair.yielding = some cause ∧ s.pair.role = 1) ∧
    (∃ s : State, (s.pair.yielding = none ∨ s.pair.role ≠ 1)) ∧
    (∃ (s : State) (n : Nat), ((s.ch n).stopped = false ∨ (s.ch n).relArmed = false)) ∧
    (∃ s : State, s.reaches 0x80008 = true ∧ s.partnerReady = true ∧ s.pair.busy = false ∧ s.pair.yielding = none) ∧
    (∃ s : State, s.reaches 0x80008 = true ∧ (s.partnerReady = false ∨ s.pair.busy = true)) ∧
    (∃ (s : State) (ts : Instant), s.pair.swapTs = some ts ∧ s.pair.swapping = true ∧ ts ≤ s.time.now ∧
      s.partnerReady = true ∧ s.pair.yielding = none) ∧
    (∃ (s : State) (ts : Instant), s.pair.swapTs = some ts ∧ s.pair.yielding = some 5 ∧ ts + 16000 ≤ s.time.now) ∧
    (∃ (s : State) (_epoch : Nat) (_time : Instant), s.pair.role = 3 ∧ s.pair.linkUp = true ∧
      s.pair.partnerRole = 1 ∧ s.pair.refused = false) ∧
    (∃ (s : State) (_epoch : Nat) (_time : Instant),
      (s.pair.role ≠ 3 ∨ s.pair.linkUp = false ∨ s.pair.partnerRole ≠ 1 ∨ s.pair.refused = true)) :=
  ⟨⟨{ pwrOn { on.pwr with service := false } with regs := [(0x80000, 1)] }, true, by decide +kernel, by decide +kernel,
      by decide +kernel, by decide +kernel, fun p h => nomatch h⟩,
   ⟨on, true, by decide +kernel⟩,
   ⟨pairOn { Pair.reset with role := 2, partnerRole := 1 }, by decide +kernel⟩,
   ⟨pairOn { Pair.reset with role := 1, partnerRole := 2 }, by decide +kernel⟩,
   ⟨on, by decide +kernel⟩,
   ⟨pairOn { Pair.reset with role := 2, decided := some 1 }, 0, 1, true, by decide +kernel⟩,
   ⟨pairOn { Pair.reset with role := 2, decided := some 1 }, 0, 1, false, by decide +kernel⟩,
   ⟨on, 0, true, by decide +kernel⟩,
   ⟨pairOn { Pair.reset with role := 1, yielding := some 5 }, 5, by decide +kernel⟩,
   ⟨on, by decide +kernel⟩,
   ⟨on, 0, by decide +kernel⟩,
   ⟨pairOn { Pair.reset with role := 1, partnerRole := 2, partnerFit := true }, by decide +kernel⟩,
   ⟨on, by decide +kernel⟩,
   ⟨pairOn { Pair.reset with role := 1, partnerRole := 2, partnerFit := true, swapping := true, swapTs := some 1000000000000 },
      1000000000000, by decide +kernel⟩,
   ⟨pairOn { Pair.reset with role := 1, yielding := some 5, swapTs := some 999999984000 }, 999999984000,
      by decide +kernel⟩,
   ⟨pairOn { Pair.reset with role := 3, linkUp := true, partnerRole := 1 }, 0, 0, by decide +kernel⟩,
   ⟨on, 0, 0, by decide +kernel⟩⟩

theorem test_meets_RegisterAccess :
    (∃ (s : State) (n : Nat) (_data : BitVec 64), n < 8 ∧ s.fnEn 0 = true ∧ (s.fn 0).mse = true ∧
      s.reaches (0x80020 + 4 * n) = true ∧ (s.txn 0).state ≠ .opened) ∧
    (∃ (s : State) (n : Nat) (_data : BitVec 64), n < 8 ∧ s.fnEn 0 = true ∧ (s.fn 0).mse = true ∧
      s.reaches (0x80020 + 4 * n) = true ∧ (s.txn 0).state ≠ .opened) ∧
    (∃ (s : State) (fn off len : Nat) (_data : BitVec 64), s.fnEn fn = true ∧
      ((s.fn fn).mse = false ∨ len = 0 ∨ 8 < off % 8 + len)) ∧
    (∃ (s : State) (off : Nat) (_be : BitVec 4) (_w : Word), isExpert off = true ∧ (s.txn 0).state ≠ .opened) ∧
    (∃ s : State, s.fnEn 0 = true ∧ (s.fn 0).mse = true ∧ s.lc.quar = 0) ∧
    (∃ s : State, s.fnEn 0 = true ∧ (s.fn 0).mse = true ∧ s.lc.quar = 0) ∧
    (∃ (s : State) (fn off len : Nat), s.fnEn fn = true ∧ ((s.fn fn).mse = false ∨ len = 0 ∨ 8 < off % 8 + len)) :=
  ⟨⟨on, 7, 0, by decide +kernel⟩,
   ⟨on, 7, 0, by decide +kernel⟩,
   ⟨on, 0, 4, 5, 0, by decide +kernel⟩,
   ⟨on, 0x50048, 15, 0, by decide +kernel⟩,
   ⟨on, by decide +kernel⟩,
   ⟨on, by decide +kernel⟩,
   ⟨on, 0, 7, 2, by decide +kernel⟩⟩

/-- The two clauses that rest on the signature, a constant without a body: with a signature that holds the header is
accepted, and the other hypotheses of the planned restart are met whether or not it holds. -/
theorem test_meets_UpdateIntake_signed :
    ∃ (s : State) (port : Nat) (mac : BitVec 48) (h : List Byte), updPort s port = true ∧ h.length = 256 ∧
      (hdrSigOk h = true → hdrCheck s (updHolds s port mac) h = 0) :=
  ⟨{ netOn { NetPort.reset with up := true } with regs := [(0xA0024, 1)] }, 0, 0, updHdr, by decide +kernel,
    by decide +kernel, by intro h; unfold hdrCheck; rw [h]; decide +kernel⟩

theorem test_meets_ActivationRuns_signed :
    ∃ s : State, s.upd.armedAt ≤ s.time.now ∧ s.timeValid = true ∧ s.upd.state = 4 ∧ s.upd.pState ≠ 4 :=
  ⟨updOn { Upd.reset with state := 4 }, by decide +kernel⟩

/- ## Commands the checks refuse -/

/-- Operands one beyond the last value of each range. -/
def illFormed : List Instr :=
  [.registerWrite .bar0 64 0 4 0, .registerWrite .bar0 0 0x1000000 4 0, .registerWrite .bar0 0 4 5 0,
   .pointUpdate 8, .mirselWrite 0 16384, .minIntExpiry 16384, .passExpiry 4096, .basinRemove 0, .basinRemove 64,
   .beginTxn 64, .stagedWrite 0 4 0 0, .prepareAck 0 9, .txnPrepTimeout 65, .txnPrepTimeout 1086, .goAck 0 8, .flr 0,
   .vfEnableWrite true 65536, .tlpError .receiver 0 (some 16) [], .smbusIdent 128, .doorbell 0 16 0 0,
   .moderationTimer 0 17, .migrationRelease 8192, .ptpMessage 2 .event ⟨[], true⟩]
def illFormed2 : List Instr :=
  [.ptpMessage 0 .event ⟨[], true⟩ instantEnd, .gptpSync 0 2, .pdelayReq 0 0 64, .tsqPop 10, .actionFire 9 0,
   .actionFire 0 2048, .loopGroupPrepare 958, .loopSample 0 1024, .loopSlotWrite 0 0 16 0 0, .recover 0 2,
   .canNodeTimeout 0 0 0x20000000 false, .netLinkUp 0 0 true true, .netLinkUp 0 4 true true, .pauseReceived 0 65536,
   .t1sNodeTimeout 0 0 32, .fsupLow 0 65536, .dinEdge 0 16 true 0, .doutRetry 0 8, .groupOvercurrent 0 [0],
   .mirrorRecord 65536 (.output 0 0 0), .healthReport [], .resyncDone 65536 0, .vbatMeasure 65536,
   .vaultGenerate 512, .updateHeader 2 0 0 [], .updateChunk 0 0 0 0x4000000 [], .aoutCurrentLimit 0 4 true,
   .pcieLinkUp 4 1, .pcieLinkUp 1 3, .adcBurstConversion 0 2048, .ptpTransmit 0 5]

theorem test_wf_refuses_first : illFormed.all (fun c => !c.wf) = true := by decide +kernel
theorem test_wf_refuses_rest : illFormed2.all (fun c => !c.wf) = true := by decide +kernel

/-- The last values of the same ranges are accepted. -/
theorem test_wf_accepts :
    [Instr.registerWrite .bar0 63 0xFFFFFF 1 0, .registerWrite .bar0 0 4 4 0, .prepareAck 1085 8, .basinRemove 63,
     .moderationTimer 63 16, .loopGroupPrepare 957, .updateHeader 1 0 0 [], .pcieLinkUp 3 4].all Instr.wf = true := by
  decide +kernel

/-- No row of the table has bits, so no word spells a command. -/
theorem test_no_word_spells : decodeTableWord 0 0 = none ∧ decodeTableWord 32 0xFFFFFFFF = none := by decide

/- ## Worked examples of the spec -/

/-- The heating coil of chapter 09: its day bank, its loop, and an input of a temperature. -/
def coilBank : Bank :=
  { kp := 32000, ki := 17067, kd := 0, kff := 0, kpSh := 19, kiSh := 25, kdSh := 0, kffSh := 0, pfSh := 2, dfSh := 0,
    omin := 6554, omax := 65535 }
def coilIn (pv : Int) : LawIn :=
  { pv := pv, pvGood := true, tgt := some 0x128000, hasFf := false, ff := none, track := none, reverse := false,
    bumpless := false, slew := 0, felim := 0, feTime := 0, settleP := 0, preset := 30000, bankNo := 0 }
def coil1 : LoopRt := (sampleRt (coilIn 1130496) coilBank false true LoopRt.reset).1
def coil2 : LoopRt := (sampleRt (coilIn 1146880) coilBank false false coil1).1

/-- Samples 1 and 2 of the example (09_loop_engine_arithmetic.md, Worked example). -/
theorem test_coil_samples :
    (coil1.e, coil1.i48, coil1.u, coil1.clamp) = (81920, 1968810720, 35042, Clamp.none) ∧
    (coil2.e, coil2.i48, coil2.u) = (77824, 1971404904, 34831) ∧ coil2.pvf48 = 1134592 * 65536 := by
  decide +kernel

/-- The day sample of 21:59:59 and the first night sample after the swap of banks. -/
theorem test_coil_swap :
    let day := (lawRt { coilIn 786432 with preset := 0 } coilBank
      { coil1 with pvf48 := 786432 * 65536, pvfPrev := 786432, i48 := 63000 * 65536 }).1
    let night := (lawRt (coilIn 786432) { coilBank with omin := 0, omax := 45875 } day).1
    (day.u, day.clamp, day.i48) = (65535, Clamp.high, 63000 * 65536) ∧
    (night.u, night.clamp, night.i48) = (45875, Clamp.high, 45875 * 65536) := by
  decide +kernel

/-- The dock bus of chapter 06: points and subscriptions of CH3 CANA. -/
def dockPt (owner id : Nat) : Point := { pt 0 3 0 with owner := owner, canId := id }
def dockSub (basin ring form id1 id2 : Nat) : Sub :=
  { subOf basin [] with channel := 3, ring := ring, form := form, id1 := id1, id2 := id2 }
def dock : State :=
  { on with
    points := (List.range 64).map (fun i => (i, dockPt 4 (0x100 + i))) ++
      [(64, dockPt 0 0x200), (65, dockPt 0 0x205), (66, dockPt 0 0x20A), (67, dockPt 0 0x300), (68, dockPt 0 0x301)],
    ws := { Watershed.reset with subs := [(0, dockSub 4 6 2 0x120 0x7F0), (1, dockSub 9 3 1 0x400 0x47F)] } }

/-- Queues and elements of the example (06_watershed_placement.md, Worked example: a dock bus). -/
theorem test_dock_filter :
    compileFilter dock 3 0 = some
      { std := [⟨3, 0x120, 0x7F0, 0⟩, ⟨1, 0x100, 0x13F, 1⟩, ⟨2, 0x200, 0x205, 1⟩, ⟨2, 0x20A, 0x300, 1⟩,
          ⟨2, 0x301, 0x301, 1⟩, ⟨1, 0x400, 0x47F, 2⟩],
        ext := [], queues := [(true, [16 * 4 + 6]), (true, []), (false, [16 * 9 + 3])] } := by
  decide +kernel

/-- Servo of the hall module: samples of 0.125 s to 0.500 s (07_timebase.md, Worked example). -/
def servoAt (e : Int) (s : State) : State :=
  servoSample { s with time := { s.time with now := s.time.now + 125000000, syncL := -3 } } e
def servo2 : State := servoAt 4540 (servoAt 2290 { on with time := { on.time with servo := .arm, integ := 0, adj := 0 } })

theorem test_servo_samples :
    (servo2.time.integ, servo2.time.adj) = (-309238, -463598) ∧
    ((servoAt 3417 servo2).time.integ, (servoAt 3417 servo2).time.adj) = (-316072, -432250) := by
  decide +kernel

/-- The calendar of the wrong date on the bench: three midnights (16_backup_domain.md, Worked example). -/
def bench : Cal := { presc := 0, sec := 59, min := 59, hour := 23, wday := 6, day := 30, month := 2, year := 31 }
def midnight (c : Cal) : Cal := { c with sec := 59, min := 59, hour := 23 }.tick
theorem test_bench_calendar :
    (bench.tick.day, bench.tick.month, bench.tick.wday) = (31, 2, 0) ∧
    ((midnight bench.tick).day, (midnight bench.tick).month) = (0, 2) ∧
    ((midnight (midnight bench.tick)).day, (midnight (midnight bench.tick)).month) = (1, 2) ∧
    ((midnight { bench with day := 28 }).day, (midnight { bench with day := 28 }).month) = (1, 3) := by
  decide +kernel

/-- The dead band of the return-air temperature: 21.50 °C delivered, threshold 0.25 °C (02, Worked example). -/
def airPt (last : Slot) : Point := { pt 3 0 0 with type := 3, cov := 2, thresh := 0x4000, lastVal := last }
theorem test_return_air :
    covPasses (airPt 0x158000) { Mirror.never with value := 0x15CCCD } true = true ∧
    covPasses (airPt 0x158000) { Mirror.never with value := 0x15B333 } true = false ∧
    covPasses (airPt 0x158000) { Mirror.never with value := 0x153333 } true = true := by
  decide +kernel

/-- RING_07 of basin 5 is module ring 87 at 0x030AE0; CTL 0x87 enables it as FRM_IN with 256 slots (05). -/
theorem test_ring_87 :
    let s : State := { on with
      host := { on.host with numVfs := 5 }, regs := [(0x30AE8, 0x1000), (0x30AF0, 0x2000)] }
    let t := ringEnableOp 5 7 0x87 s
    ringBase 87 = 0x30AE0 ∧ ((t.ring 87).state, (t.ring 87).kind, (t.ring 87).slots) = (RingState.active, 3, 256) := by
  decide +kernel

end Sys2Proof.Tests
end

section
/-! Proofs of O36 to O39: how a step takes its command, and what every command keeps. -/

namespace Sys2Proof.Machine

/-- With a command at the front of the queue a step is its meaning, with the rest of the queue behind it. -/
theorem step_of_cons {c : Instr} {rest : List Instr} {s : State} (h : s.pending = c :: rest) :
    step s = exec c { s with pending := rest } := by
  simp only [step, h]

/-- With an empty queue a step is the idle tick. -/
theorem step_of_nil {s : State} (h : s.pending = []) : step s = .next (idleTick s) := by
  simp only [step, h]

/-- The invariant says nothing of the queue. -/
theorem State.Inv.setPending {s : State} {q : List Instr} (h : s.Inv) : State.Inv { s with pending := q } := h

/-- Every command answers a next state and keeps what `State.Keeps` names: each arm is the lemma of the operation the
command runs, under the guard it runs it with (`ifReaches`, `ifServed`, `ifConfig`, `ifMse`, `ifSmbus`). -/
theorem exec_keeps (c : Instr) {s : State} (h : s.Inv) : ∃ t, exec c s = .next t ∧ State.Keeps s t := by
  have hs := h.keeps
  cases c with
  -- chapters 00 to 02: registers, crossbar, points, basins
  | registerWrite => exact ⟨_, rfl, registerWriteOp_keeps hs⟩
  | pointUpdate => exact ⟨_, rfl, pointUpdateOp_keeps hs⟩
  | forwardedUpdate => exact ⟨_, rfl, forwardedOp_keeps hs⟩
  | commandAtChannel => exact ⟨_, rfl, commandAtOp_keeps hs⟩
  | outcomeReported => exact ⟨_, rfl, outcomeReportedOp_keeps hs⟩
  | linkLost => exact ⟨_, rfl, linkLostOp_keeps hs⟩
  | linkReturn => exact ⟨_, rfl, linkReturnOp_keeps hs⟩
  | resendComplete => exact ⟨_, rfl, resendCompleteOp_keeps hs⟩
  | mirselWrite => exact ⟨_, rfl, ifReaches_keeps (fun _ => mirselOp_keeps) hs⟩
  | dirwinWrite => exact ⟨_, rfl, ifReaches_keeps (fun _ => dirwinOp_keeps) hs⟩
  | minIntExpiry => exact ⟨_, rfl, minExpiryOp_keeps hs⟩
  | maxIntExpiry => exact ⟨_, rfl, maxExpiryOp_keeps hs⟩
  | passExpiry => exact ⟨_, rfl, passExpiryOp_keeps hs⟩
  | basinRemove => exact ⟨_, rfl, ifReaches_keeps (fun _ => basinRemoveOp_keeps) hs⟩
  | basinRemoveDone => exact ⟨_, rfl, basinRemovedOp_keeps hs⟩
  -- chapter 03: transactions
  | beginTxn => exact ⟨_, rfl, ifServed_keeps (fun _ => beginOp_keeps) hs⟩
  | stagedWrite => exact ⟨_, rfl, memWriteOp_keeps (fun _ _ _ _ => stagedWord_keeps) hs⟩
  | commitNow | commitAt => exact ⟨_, rfl, ifServed_keeps (fun _ => commitOp_keeps) hs⟩
  | rollback => exact ⟨_, rfl, ifServed_keeps (fun _ => rollbackOp_keeps) hs⟩
  | prepareAck => exact ⟨_, rfl, prepareAckOp_keeps hs⟩
  | txnPrepTimeout => exact ⟨_, rfl, prepTimeoutOp_keeps hs⟩
  | txnGo => exact ⟨_, rfl, goOp_keeps hs⟩
  | goAck => exact ⟨_, rfl, goAckOp_keeps hs⟩
  | txnGoDeadline => exact ⟨_, rfl, goDeadlineOp_keeps hs⟩
  | txnApply => exact ⟨_, rfl, txnApplyOp_keeps hs⟩
  -- chapter 04: host port
  | perstRelease => exact ⟨_, rfl, perstReleaseOp_keeps hs⟩
  | endpointReady => exact ⟨_, rfl, endpointReadyOp_keeps hs⟩
  | hostPortReset => exact ⟨_, rfl, hostPortResetOp_keeps hs⟩
  | flr => exact ⟨_, rfl, ifConfig_keeps (fun _ => flrOp_keeps) hs⟩
  | pfFlr => exact ⟨_, rfl, ifConfig_keeps (fun _ => pfFlrOp_keeps) hs⟩
  | flrDone => exact ⟨_, rfl, flrDoneOp_keeps hs⟩
  | vfEnableWrite => exact ⟨_, rfl, ifConfig_keeps (fun _ => vfEnableOp_keeps) hs⟩
  | busMasterChange => exact ⟨_, rfl, ifConfig_keeps (fun _ => busMasterOp_keeps) hs⟩
  | msixUnmask => exact ⟨_, rfl, msixUnmaskOp_keeps hs⟩
  | tlpError => exact ⟨_, rfl, tlpErrorOp_keeps hs⟩
  | completionTimeout => exact ⟨_, rfl, completionTimeoutOp_keeps hs⟩
  | dmaReadFailure => exact ⟨_, rfl, dmaReadFailureOp_keeps hs⟩
  | smbusIdent => exact ⟨_, rfl, ifSmbus_keeps (fun _ => smbusIdentOp_keeps) hs⟩
  | smbusHealth => exact ⟨_, rfl, ifSmbus_keeps (fun _ => smbusHealthOp_keeps) hs⟩
  | smbusReadAlert => exact ⟨_, rfl, ifSmbus_keeps (fun _ => smbusReadAlertOp_keeps) hs⟩
  | smbusClearAlert => exact ⟨_, rfl, ifSmbus_keeps (fun _ => smbusClearAlertOp_keeps) hs⟩
  -- chapter 05: rings
  | doorbell => exact ⟨_, rfl, ifMse_keeps (fun _ => ifServed_keeps (fun _ => doorbellOp_keeps)) hs⟩
  | evconsWrite => exact ⟨_, rfl, ifServed_keeps (fun _ => evconsOp_keeps) hs⟩
  | ringEnable => exact ⟨_, rfl, ifServed_keeps (fun _ => ringEnableOp_keeps) hs⟩
  | ringDisable => exact ⟨_, rfl, ifServed_keeps (fun _ => ringDisableOp_keeps) hs⟩
  | haltedRingDisable => exact ⟨_, rfl, ifServed_keeps (fun _ => haltedDisableOp_keeps) hs⟩
  | ringDisabled => exact ⟨_, rfl, ringDisabledOp_keeps hs⟩
  | eventRingControl => exact ⟨_, rfl, ifServed_keeps (fun _ => evCtlOp_keeps) hs⟩
  | pointCommand | cancelFrame | cancelByCookie => exact ⟨_, rfl, fetchCmdOp_keeps hs⟩
  | frameTransmit => exact ⟨_, rfl, frameTransmitOp_keeps hs⟩
  | moderationTimer => exact ⟨_, rfl, moderationOp_keeps hs⟩
  | frameReceived => exact ⟨_, rfl, frameReceivedOp_keeps hs⟩
  -- chapter 06: Watershed
  | submit => exact ⟨_, rfl, ifServed_keeps (fun _ => runDecl_keeps (fun _ => submitOp_keeps)) hs⟩
  | withdraw => exact ⟨_, rfl, ifServed_keeps (fun _ => runDecl_keeps (fun _ => withdrawOp_keeps)) hs⟩
  | query => exact ⟨_, rfl, ifServed_keeps (fun _ => runDecl_keeps (fun _ => queryOp_keeps)) hs⟩
  | placeNow => exact ⟨_, rfl, ifServed_keeps (fun _ => runDecl_keeps (fun _ => placeNowOp_keeps)) hs⟩
  | placementPass => exact ⟨_, rfl, placementPassOp_keeps hs⟩
  | rebalanceTimer => exact ⟨_, rfl, rebalanceTimerOp_keeps hs⟩
  | takeOut => exact ⟨_, rfl, ifServed_keeps (fun _ => takeOutOp_keeps) hs⟩
  | channelDrained => exact ⟨_, rfl, channelDrainedOp_keeps hs⟩
  | bringIn => exact ⟨_, rfl, ifServed_keeps (fun _ => bringInOp_keeps) hs⟩
  | channelFault => exact ⟨_, rfl, channelFaultOp_keeps hs⟩
  | migrationStateArrival => exact ⟨_, rfl, stateArrivalOp_keeps hs⟩
  | migrationStateTimeout => exact ⟨_, rfl, stateTimeoutOp_keeps hs⟩
  | migrationRelease => exact ⟨_, rfl, migrationReleaseOp_keeps hs⟩
  -- chapter 07: time
  | offsetSample => exact ⟨_, rfl, offsetSampleOp_keeps hs⟩
  | offinWrite => exact ⟨_, rfl, ifReaches_keeps (fun _ => offinOp_keeps) hs⟩
  | setTime => exact ⟨_, rfl, ifReaches_keeps (fun _ => setTimeOp_keeps) hs⟩
  | invalidate => exact ⟨_, rfl, ifReaches_keeps (fun _ => invalidateOp_keeps) hs⟩
  | timeStep => exact ⟨_, rfl, timeStepOp_keeps hs⟩
  | sourceLost => exact ⟨_, rfl, sourceLostOp_keeps hs⟩
  | holdoverEnd => exact ⟨_, rfl, holdoverEndOp_keeps hs⟩
  | beacon => exact ⟨_, rfl, beaconOp_keeps hs⟩
  | beaconArrival => exact ⟨_, rfl, beaconArrivalOp_keeps hs⟩
  | ptpMessage => exact ⟨_, rfl, ptpMessageOp_keeps hs⟩
  | gptpSync => exact ⟨_, rfl, gptpSyncOp_keeps hs⟩
  | pdelayReq => exact ⟨_, rfl, pdelayReqOp_keeps hs⟩
  | tsqPop => exact ⟨_, rfl, ifReaches_keeps (fun _ => tsqPopOp_keeps) hs⟩
  -- chapter 08: timed actions
  | actionFire => exact ⟨_, rfl, actionFireOp_keeps hs⟩
  | loopGroupPrepare => exact ⟨_, rfl, groupPrepOp_keeps hs⟩
  | calStart => exact ⟨_, rfl, ifReaches_keeps (fun _ => calStartOp_keeps) hs⟩
  | calDone => exact ⟨_, rfl, calDoneOp_keeps hs⟩
  | tableDisable => exact ⟨_, rfl, ifReaches_keeps (fun _ => tableOffOp_keeps) hs⟩
  | tableEnable => exact ⟨_, rfl, ifReaches_keeps (fun _ => tableOnOp_keeps) hs⟩
  -- chapters 09 and 10: loop engine
  | loopSample => exact ⟨_, rfl, loopSampleOp_keeps hs⟩
  | loopOutput => exact ⟨_, rfl, loopOutputOp_keeps hs⟩
  | loopSlotWrite => exact ⟨_, rfl, ifReaches_keeps (fun _ => slotWriteOp_keeps) hs⟩
  | snapselWrite => exact ⟨_, rfl, ifReaches_keeps (fun _ => snapselOp_keeps) hs⟩
  | counterAcquisition => exact ⟨_, rfl, counterAcqOp_keeps hs⟩
  -- chapter 11: CAN controllers
  | canCtlWrite => exact ⟨_, rfl, ifReaches_keeps (fun _ => canCtlOp_keeps) hs⟩
  | recover => exact ⟨_, rfl, ifReaches_keeps (fun _ => recoverOp_keeps) hs⟩
  | canModeApplied => exact ⟨_, rfl, canModeOp_keeps hs⟩
  | canIntegrationDone => exact ⟨_, rfl, canIntegrateOp_keeps hs⟩
  | canFrameReceived => exact ⟨_, rfl, canRxOp_keeps hs⟩
  | canArbitrationEnd => exact ⟨_, rfl, canArbOp_keeps hs⟩
  | canTxSuccess => exact ⟨_, rfl, canTxOkOp_keeps hs⟩
  | canTxError => exact ⟨_, rfl, canTxErrOp_keeps hs⟩
  | canBusOn => exact ⟨_, rfl, canBusOnOp_keeps hs⟩
  | canNodeTimeout => exact ⟨_, rfl, canNodeTmoOp_keeps hs⟩
  | canProtoExc => exact ⟨_, rfl, canProtoOp_keeps hs⟩
  -- chapter 12: backbone ports and segments
  | netLinkUp => exact ⟨_, rfl, netUpOp_keeps hs⟩
  | netLinkDown => exact ⟨_, rfl, netDownOp_keeps hs⟩
  | netPortDisable => exact ⟨_, rfl, netDisableOp_keeps hs⟩
  | netFrameReceived => exact ⟨_, rfl, netRxOp_keeps hs⟩
  | netTxDone => exact ⟨_, rfl, netTxDoneOp_keeps hs⟩
  | pauseReceived => exact ⟨_, rfl, pauseRxOp_keeps (netAct_keeps hs)⟩
  | pauseExpiry => exact ⟨_, rfl, pauseExpiryOp_keeps hs⟩
  | xoffRepeat => exact ⟨_, rfl, xoffRepeatOp_keeps hs⟩
  | verifyMpacket => exact ⟨_, rfl, verifyRxOp_keeps hs⟩
  | verifyResponse => exact ⟨_, rfl, verifyRespOp_keeps hs⟩
  | verifyTimeout => exact ⟨_, rfl, verifyTmoOp_keeps hs⟩
  | netHold => exact ⟨_, rfl, holdOp_keeps hs⟩
  | reasmTimeout => exact ⟨_, rfl, reasmTmoOp_keeps hs⟩
  | segFrameReceived => exact ⟨_, rfl, segRxOp_keeps hs⟩
  | segTxDone => exact ⟨_, rfl, segTxDoneOp_keeps hs⟩
  | segCollision => exact ⟨_, rfl, segCollOp_keeps hs⟩
  | segBackoffExpiry => exact ⟨_, rfl, backoffOp_keeps hs⟩
  | segModeApplied => exact ⟨_, rfl, segModeOp_keeps hs⟩
  | plcaBeacon => exact ⟨_, rfl, plcaBeaconOp_keeps hs⟩
  | plcaToTimer => exact ⟨_, rfl, plcaToOp_keeps hs⟩
  | plcaBeaconLoss => exact ⟨_, rfl, plcaLossOp_keeps hs⟩
  | t1sNodeTimeout => exact ⟨_, rfl, segNodeTmoOp_keeps hs⟩
  -- chapter 13: field I/O
  | fsupLow => exact ⟨_, rfl, fsupLowOp_keeps hs⟩
  | fsupOk => exact ⟨_, rfl, fsupOkOp_keeps hs⟩
  | fsupInputsInvalid => exact ⟨_, rfl, fsupInvalidOp_keeps hs⟩
  | fsupInputsValid => exact ⟨_, rfl, fsupValidOp_keeps hs⟩
  | undervoltageLockout => exact ⟨_, rfl, uvloOp_keeps hs⟩
  | fsupRestartRise => exact ⟨_, rfl, restartRiseOp_keeps hs⟩
  | uvloRestart => exact ⟨_, rfl, uvloRestartOp_keeps hs⟩
  | fsupGuardLoss => exact ⟨_, rfl, guardLossOp_keeps hs⟩
  | dinEdge => exact ⟨_, rfl, dinEdgeOp_keeps hs⟩
  | doutOvercurrent => exact ⟨_, rfl, overcurrentOp_keeps hs⟩
  | doutOvertemp => exact ⟨_, rfl, overtempOp_keeps hs⟩
  | doutRetry => exact ⟨_, rfl, retryOp_keeps hs⟩
  | clrOc => exact ⟨_, rfl, ifReaches_keeps (fun _ => clrOcOp_keeps) hs⟩
  | groupOvercurrent => exact ⟨_, rfl, groupOcOp_keeps hs⟩
  | extDrive => exact ⟨_, rfl, extDriveOp_keeps hs⟩
  | openLoad => exact ⟨_, rfl, openLoadOp_keeps hs⟩
  | guardKick => exact ⟨_, rfl, guardKickOp_keeps hs⟩
  | guardTrip => exact ⟨_, rfl, guardTripOp_keeps hs⟩
  | guardHold => exact ⟨_, rfl, guardHoldOp_keeps hs⟩
  | guardHoldExpiry => exact ⟨_, rfl, guardHoldExpiryOp_keeps hs⟩
  | adcScan => exact ⟨_, rfl, adcScanOp_keeps hs⟩
  | adcConversionComplete => exact ⟨_, rfl, adcDoneOp_keeps hs⟩
  | ainBurdenOpen => exact ⟨_, rfl, burdenOpenOp_keeps hs⟩
  | ainBurdenRestore => exact ⟨_, rfl, burdenRestoreOp_keeps hs⟩
  -- chapter 14: pairing
  | pairLinkUp => exact ⟨_, rfl, joinMirror_keeps hs (pairLinkUpOp_keeps hs)⟩
  | roleDecision => exact ⟨_, rfl, roleDecisionOp_keeps hs⟩
  | heartbeatSend => exact ⟨_, rfl, heartbeatSendOp_keeps hs⟩
  | heartbeatReceived => exact ⟨_, rfl, joinMirror_keeps hs (heartbeatReceivedOp_keeps hs)⟩
  | mirrorRecord => exact ⟨_, rfl, mirrorRecordOp_keeps hs⟩
  | heartbeatTimeout => exact ⟨_, rfl, heartbeatTimeoutOp_keeps hs⟩
  | pairAliveChange => exact ⟨_, rfl, aliveChangeOp_keeps hs⟩
  | takeover => exact ⟨_, rfl, takeoverOp_keeps hs⟩
  | madeReceived => exact ⟨_, rfl, madeReceivedOp_keeps hs⟩
  | releaseTimeout => exact ⟨_, rfl, releaseTimeoutOp_keeps hs⟩
  | swap => exact ⟨_, rfl, ifReaches_keeps (fun _ => swapOp_keeps) hs⟩
  | swapYield => exact ⟨_, rfl, swapYieldOp_keeps hs⟩
  | swapTimeout => exact ⟨_, rfl, swapTimeoutOp_keeps hs⟩
  | selftest => exact ⟨_, rfl, ifReaches_keeps (fun _ => selftestOp_keeps) hs⟩
  | selftestDone => exact ⟨_, rfl, selftestDoneOp_keeps hs⟩
  | healthReport => exact ⟨_, rfl, healthReportOp_keeps hs⟩
  | healthReportTimeout => exact ⟨_, rfl, healthTimeoutOp_keeps hs⟩
  | resyncDone => exact ⟨_, rfl, resyncDoneOp_keeps hs⟩
  -- chapter 15: power
  | vinGood => exact ⟨_, rfl, vinGoodOp_keeps hs⟩
  | pointServiceBegin => exact ⟨_, rfl, pointServiceOp_keeps hs⟩
  | powerFailWarning => exact ⟨_, rfl, powerWarningOp_keeps hs⟩
  | powerFailFreeze => exact ⟨_, rfl, powerFreezeOp_keeps hs⟩
  | powerFailRecord => exact ⟨_, rfl, powerRecordOp_keeps hs⟩
  | vinCollapse => exact ⟨_, rfl, vinCollapseOp_keeps hs⟩
  | vinReturn => exact ⟨_, rfl, vinReturnOp_keeps hs⟩
  | warm => exact ⟨_, rfl, ifReaches_keeps (fun _ => warmOp_keeps) hs⟩
  | channelRestart => exact ⟨_, rfl, ifReaches_keeps (fun _ => channelRestartOp_keeps) hs⟩
  | channelRestartDone => exact ⟨_, rfl, channelRestartDoneOp_keeps hs⟩
  | watchdog => exact ⟨_, rfl, watchdogOp_keeps hs⟩
  -- chapter 16: backup domain
  | calendarSecond => exact ⟨_, rfl, calendarSecondOp_keeps hs⟩
  | rtcLoad => exact ⟨_, rfl, ifReaches_keeps (fun _ => rtcLoadOp_keeps) hs⟩
  | soClear => exact ⟨_, rfl, ifReaches_keeps (fun _ => soClearOp_keeps) hs⟩
  | calendarSync => exact ⟨_, rfl, calendarSyncOp_keeps hs⟩
  | calCycle => exact ⟨_, rfl, calCycleOp_keeps hs⟩
  | autoCalWindow => exact ⟨_, rfl, autoCalOp_keeps hs⟩
  | oscStopped => exact ⟨_, rfl, oscStoppedOp_keeps hs⟩
  | vbatMeasure => exact ⟨_, rfl, vbatMeasureOp_keeps hs⟩
  -- chapter 17: vault, tamper, life cycle
  | vaultGenerate | vaultDerive | vaultImport | vaultPromote | vaultDiscard | vaultInvalidate | vaultRederive
    | vaultHmac | vaultHmacVerify | vaultEcdsaVerify =>
    exact ⟨_, rfl, ifReaches_keeps (fun _ => vaultOp_keeps) hs⟩
  | vaultOpComplete => exact ⟨_, rfl, vaultOpCompleteOp_keeps hs⟩
  | slotselWrite => exact ⟨_, rfl, ifReaches_keeps (fun _ => slotselOp_keeps) hs⟩
  | tamperSample => exact ⟨_, rfl, tamperSampleOp_keeps hs⟩
  | tamperModeChange => exact ⟨_, rfl, ifReaches_keeps (fun _ => tamperModeOp_keeps) hs⟩
  | release => exact ⟨_, rfl, ifReaches_keeps (fun _ => releaseOp_keeps) hs⟩
  | commission | enterService | maintain | decommission | reclaim | reprovision =>
    exact ⟨_, rfl, ifReaches_keeps (fun _ => lcOp_keeps) hs⟩
  -- chapter 18: update
  | updateLoad => exact ⟨_, rfl, ifReaches_keeps (fun _ => loadOp_keeps) hs⟩
  | updateAbort => exact ⟨_, rfl, ifReaches_keeps (fun _ => updateAbortOp_keeps) hs⟩
  | updateHeader => exact ⟨_, rfl, updateHeaderOp_keeps hs⟩
  | updateChunk => exact ⟨_, rfl, updateChunkOp_keeps hs⟩
  | updateAbortFrame => exact ⟨_, rfl, updateAbortFrameOp_keeps hs⟩
  | stagingVerified => exact ⟨_, rfl, stagingVerifiedOp_keeps hs⟩
  | stagingTimeout => exact ⟨_, rfl, stagingTimeoutOp_keeps hs⟩
  | activate => exact ⟨_, rfl, ifReaches_keeps (fun _ => activateOp_keeps) hs⟩
  | disarm => exact ⟨_, rfl, ifReaches_keeps (fun _ => disarmOp_keeps) hs⟩
  | plannedRestart => exact ⟨_, rfl, plannedRestartOp_keeps hs⟩
  | confirmSlot => exact ⟨_, rfl, ifReaches_keeps (fun _ => confirmOp_keeps) hs⟩
  | autoConfirm => exact ⟨_, rfl, autoConfirmOp_keeps hs⟩
  | revert => exact ⟨_, rfl, ifReaches_keeps (fun _ => revertOp_keeps) hs⟩
  | push => exact ⟨_, rfl, ifReaches_keeps (fun _ => pushOp_keeps) hs⟩
  -- rows added at the table's end
  | latchingRead => exact ⟨_, rfl, latchingReadOp_keeps hs⟩
  | canRxError => exact ⟨_, rfl, canRxErrOp_keeps hs⟩
  | xon => exact ⟨_, rfl, xonOp_keeps hs⟩
  | doutJunctionCooled => exact ⟨_, rfl, cooledOp_keeps hs⟩
  | aoutCurrentLimit => exact ⟨_, rfl, aoutLimitOp_keeps hs⟩
  | dieTemperatureLimit => exact ⟨_, rfl, dieTempOp_keeps hs⟩
  | uncorrectableMemoryError => exact ⟨_, rfl, memErrorOp_keeps hs⟩
  | hostPortBufferError => exact ⟨_, rfl, bufferErrorOp_keeps hs⟩
  | pcieLinkUp => exact ⟨_, rfl, pcieLinkUpOp_keeps hs⟩
  | usbVbusSense => exact ⟨_, rfl, usbVbusOp_keeps hs⟩
  | adcBurstConversion => exact ⟨_, rfl, adcBurstOp_keeps hs⟩
  | vaultJournalClose => exact ⟨_, rfl, journalCloseOp_keeps hs⟩
  | healthReportSend => exact ⟨_, rfl, healthSendOp_keeps hs⟩
  | ptpTransmit => exact ⟨_, rfl, ptpTransmitOp_keeps hs⟩
  | beaconSilenceStop => exact ⟨_, rfl, beaconSilenceOp_keeps hs⟩

/-- The register store after reset is empty, so canonical, and the module has its fixed parts. -/
theorem reset_inv : State.reset.Inv := ⟨rfl, rfl⟩

/-- Settles O36: a step takes the front of the queue, and counts one tick when nothing waits. -/
theorem stepRunsFront : Obligations.StepRunsFront :=
  ⟨fun _ _ _ => step_of_cons rfl, fun _ => step_of_nil⟩

/-- Settles O37: the reset state is given in full. -/
theorem resetWellKept : Obligations.ResetWellKept := ⟨reset_inv, rfl, rfl⟩

/-- Settles O39: the parts of `exec_keeps`. -/
theorem commandsKeepIdentity : Obligations.CommandsKeepIdentity := by
  intro c s h
  obtain ⟨t, ht, hk⟩ := exec_keeps c h
  exact ⟨t, ht, hk.pending, hk.ident, hk.revoked, hk.floor, hk.free, hk.serial, hk.frames⟩

/-- Settles O38, by the queue: the idle tick keeps the invariant (`idleTick_keeps`), and so does the command at the
front (`exec_keeps`). -/
theorem stepKeepsWellKept : Obligations.StepKeepsWellKept := by
  intro s t h hstep
  cases hq : s.pending with
  | nil =>
    rw [step_of_nil hq] at hstep
    cases hstep
    exact (idleTick_keeps h.keeps).inv
  | cons c rest =>
    obtain ⟨u, hu, hk⟩ := exec_keeps c (h.setPending (q := rest))
    rw [step_of_cons hq, hu] at hstep
    cases hstep
    exact hk.inv

end Sys2Proof.Machine
end

section
/-! Proofs of O1 and O4: point updates between channels and hub, and the loss and return of a channel's link. -/

namespace Sys2Proof.Machine

/- ### Updates to the hub and from it -/

/-- POINT_UPDATE hands the head of the egress queue to the hub (R25, R26). -/
theorem pointUpdateOp_cons {s : State} {n : Nat} {u : Update} {us : List Update} (h : (s.ch n).egress = u :: us) :
    pointUpdateOp n s = hubUpdate (s.modCh n (fun c => { c with egress := us })) n u := by
  simp only [pointUpdateOp, h]

/-- An update with the owner's tag is written into the mirror, with the running epoch (R26). -/
theorem hubUpdate_mir {s : State} {n : Nat} {u : Update} {p : Point} (hp : amGet s.points u.handle = some p)
    (ho : p.owner = u.tag) :
    (amGet (hubUpdate s n u).points u.handle).map Point.mir = some { u.m with epoch := s.ws.epoch } := by
  have hwrite : hubUpdate s n u = mirrorWrite s u.handle u.m := by simp [hubUpdate, hp, ho]
  rw [hwrite]
  exact mirrorWrite_mir hp

/-- An update with another tag leaves no more than an event record: points and channels stay (R27). -/
theorem hubUpdate_of_owner_ne {s : State} {n : Nat} {u : Update} {p : Point} (hp : amGet s.points u.handle = some p)
    (ho : p.owner ≠ u.tag) : (hubUpdate s n u).points = s.points ∧ (hubUpdate s n u).ch n = s.ch n := by
  simp [hubUpdate, hp, ho]

/-- FORWARDED_UPDATE makes the head of the ingress queue usable while the link passes (R24, R30). -/
theorem forwardedOp_cons {s : State} {n : Nat} {u : Update} {us : List Update} (h : (s.ch n).ingress = u :: us)
    (hl : s.linkDown n = false) :
    forwardedOp n s = s.modCh n (fun c => { c with ingress := us, inputs := amSet c.inputs u.handle u.m }) := by
  simp [forwardedOp, h, hl]

/-- Settles O1: the tag decides between the mirror write and the drop. -/
theorem pointUpdates : Obligations.PointUpdates := by
  refine ⟨fun s n u us p he hp ho => ?_, fun s n u us p he hp ho => ?_, fun s n u us hi hl => ?_⟩
  · have hmir : (amGet (pointUpdateOp n s).points u.handle).map Point.mir = some { u.m with epoch := s.ws.epoch } := by
      rw [pointUpdateOp_cons he]
      exact hubUpdate_mir hp ho
    obtain ⟨q, hq, hqm⟩ := Option.map_eq_some_iff.mp hmir
    exact ⟨_, q, rfl, hq, hqm⟩
  · have hn : n < s.chs.length := State.ch_len (f := Chan.egress) rfl he
    obtain ⟨hpoints, hch⟩ := hubUpdate_of_owner_ne (s := s.modCh n (fun c => { c with egress := us })) (n := n) hp ho
    refine ⟨_, rfl, ?_⟩
    rw [pointUpdateOp_cons he, hch, State.modCh_ch_self hn]
    exact ⟨hpoints, rfl⟩
  · have hn : n < s.chs.length := State.ch_len (f := Chan.ingress) rfl hi
    refine ⟨_, rfl, ?_⟩
    rw [forwardedOp_cons hi hl, State.modCh_ch_self hn]
    exact ⟨amGet_amSet_self, rfl, rfl⟩

/- ### The link of a channel -/

/-- A fitted channel is one of the eight (R3, R4). -/
theorem State.lt_chs_of_fitted {s : State} {n : Nat} (hs : s.shaped = true) (hf : s.fitted n = true) :
    n < s.chs.length := by
  rw [State.chs_length hs]
  simp only [State.fitted, decide_eq_true_eq] at hf
  split at hf <;> omega

/-- A channel that is not LINK_LOST has its link. -/
theorem State.linkDown_of_ne {s : State} {n : Nat} (h : (s.ch n).state ≠ .linkLost) : s.linkDown n = false := by
  simp [State.linkDown, h]

/-- LINK_LOST of a served channel: the state it held is kept as the prior one, the link is down, the loss counts (R30). -/
theorem linkLostOp_link {s : State} {n : Nat} (hn : n < s.chs.length) (hf : s.fitted n = true)
    (ha : (s.ch n).state ≠ .absent) (hl : (s.ch n).state ≠ .linkLost) (hx : (s.ch n).state ≠ .fault) :
    ((linkLostOp n s).ch n).link =
      (.linkLost, (s.ch n).state, false, (s.ch n).isoOk, satInc 255 (s.ch n).lossCnt) := by
  unfold linkLostOp
  rw [if_neg (by simp [hf, ha, hx, State.linkDown_of_ne hl])]
  dsimp only
  rw [State.link_of (channelYield_links.trans (txnChannelLeft_links.trans
      ((State.links_ite rfl markStale_links).trans State.alert_links))) n,
    setChState_ch_self (by simpa [State.modCh] using hn), State.modCh_ch_self hn]
  simp [Chan.link, hl]

/-- LINK_RETURN of a channel whose link is down: the link is up and the timebase relocks first (R32, R209). -/
theorem linkReturnOp_of_down {s : State} {n : Nat} (h : s.linkDown n = true) :
    linkReturnOp n s = s.modCh n (fun c => { c with
      xbarUp := true, relock := true, tb := { c.tb with lockCnt := 0, unlockCnt := 0 } }) := by
  simp only [linkReturnOp, h, if_true]

/-- RESEND_COMPLETE of a channel that has relocked and resent its points changes its state to the one it held, and no
other state or link (R32). -/
theorem resendCompleteOp_links {s : State} {n : Nat} (hl : (s.ch n).state = .linkLost) (hu : (s.ch n).xbarUp = true)
    (hr : (s.ch n).relock = false) (he : ∀ u ∈ (s.ch n).egress, u.resent = false) :
    (resendCompleteOp n s).links = (setChState s n (s.ch n).prior).links := by
  have hback : (dropOrphans (releaseRecs (setChState s n (s.ch n).prior) n) n).links =
      (setChState s n (s.ch n).prior).links := dropOrphans_links.trans releaseRecs_links
  unfold resendCompleteOp
  dsimp only
  rw [if_pos (by simpa [hl, hu, hr] using he)]
  have hout := State.links_ite (c := (s.ch n).prior = .outOfService) ((channelOut_links (n := n)).trans hback) hback
  exact State.links_ite (trigger_links.trans hout) (State.links_ite (trigger_links.trans hout) hout)

/-- Settles O4, by what each command leaves of the state and link of the channel. -/
theorem channelLink : Obligations.ChannelLink := by
  refine ⟨fun s n hs hf ha hl hx => ?_, fun s n hs hn hl hu => ?_, fun s n hs hn hl hu hr he => ?_⟩
  · have h := linkLostOp_link (State.lt_chs_of_fitted hs hf) hf ha hl hx
    simp only [Chan.link, Prod.mk.injEq] at h
    obtain ⟨hstate, hprior, hup, _, hcnt⟩ := h
    exact ⟨_, rfl, hstate, hprior, hup, hcnt⟩
  · refine ⟨_, rfl, ?_⟩
    rw [linkReturnOp_of_down (by simp [State.linkDown, hl, hu]), State.modCh_ch_self (State.state_ne_absent_lt hs hn)]
    exact ⟨hl, rfl, rfl, rfl, rfl, rfl, rfl⟩
  · have h := resendCompleteOp_links hl hu hr he
    have hself := setChState_ch_self (st := (s.ch n).prior) (State.state_ne_absent_lt hs hn)
    refine ⟨_, rfl, ?_, ?_, ?_⟩
    · rw [State.state_of_links h, hself]
    · rw [State.xbarUp_of_links h, hself, hu]
    · rw [State.lossCnt_of_links h, hself]

end Sys2Proof.Machine
end

section
/-! Proofs of O2, O3, O5 and O6: the mirror window, the delivery timers, passes and basins, commands at a channel and
their outcomes. -/

namespace Sys2Proof.Machine

/- ### The mirror window -/

/-- A write that reaches its register has its effect. -/
theorem ifReaches_of {off : Nat} {f : State → State} {s : State} (h : s.reaches off = true) :
    ifReaches off f s = f s := if_pos h

/-- MIRSEL_WRITE of a point the function sees takes its snapshot (R47, R48). -/
theorem mirselOp_of_sees {s : State} {fn h : Nat} {p : Point} (hp : amGet s.points (h % 16384) = some p)
    (hs : s.sees fn (h % 16384) = true) :
    mirselOp fn h s = s.modFn fn (fun f =>
      { f with mirsel := h % 16384, mirStat := 0, mirdata := mirWords s (h % 16384) p }) := by
  simp only [mirselOp, hp, hs, if_true]

/-- MIRSEL_WRITE of a handle the function does not see gives NO_POINT and zeros (R48, R59). -/
theorem mirselOp_of_not_sees {s : State} {fn h : Nat} (hs : s.sees fn (h % 16384) = false) :
    mirselOp fn h s = s.modFn fn (fun f =>
      { f with mirsel := h % 16384, mirStat := 1, mirdata := List.replicate 8 0 }) := by
  cases hp : amGet s.points (h % 16384) with
  | none => simp only [mirselOp, hp]
  | some p => simp only [mirselOp, hp, hs, Bool.false_eq_true, if_false]

/-- Settles O2: what the function sees decides the snapshot, and the enable is a register of its own. -/
theorem mirrorWindow : Obligations.MirrorWindow := by
  refine ⟨fun s fn h p hs hf hr hp hsee => ?_, fun s fn h hs hf hr hsee => ?_, fun s en hr => ?_⟩
  · refine ⟨_, rfl, ?_⟩
    rw [ifReaches_of hr, mirselOp_of_sees hp hsee, State.modFn_fn_self (State.lt_fns hs hf)]
    exact ⟨rfl, rfl, rfl, rfl⟩
  · refine ⟨_, rfl, ?_⟩
    rw [ifReaches_of hr, mirselOp_of_not_sees hsee, State.modFn_fn_self (State.lt_fns hs hf)]
    exact ⟨rfl, rfl, rfl, rfl⟩
  · refine ⟨_, rfl, ?_⟩
    rw [ifReaches_of hr]
    exact ⟨State.reg_setReg_self, fun k hk => State.reg_setReg_ne hk, State.setReg_points⟩

/- ### The delivery timers -/

/-- A delivered point holds its value, quality and instant as the last delivered ones (R51). -/
theorem deliver_get_of {s : State} {h : Nat} {m : Mirror} {r : Bool} {p : Point} (hp : amGet s.points h = some p) :
    amGet (deliver s h m r).points h = some
      { p with lastVal := m.value, lastQual := m.quality, lastTick := s.ticks, minDone := false, held := false } := by
  rw [deliver_get, hp, Option.map_some]

/-- MIN_INT of a pending point whose value still passes: its present entry is delivered (R51 rule 3). -/
theorem minExpiryOp_passes {s : State} {h : Nat} {p : Point} (hp : amGet s.points h = some p) (hh : p.held = true)
    (hc : covPasses p p.mir true = true) : minExpiryOp h s = deliver s h p.mir false := by
  simp only [minExpiryOp, hp, hh, hc, if_true]

/-- MIN_INT of a pending point whose value no longer passes: the mark goes (R51 rule 3). -/
theorem minExpiryOp_fails {s : State} {h : Nat} {p : Point} (hp : amGet s.points h = some p) (hh : p.held = true)
    (hc : covPasses p p.mir true = false) :
    minExpiryOp h s = s.modPt h (fun p => { p with held := false, minDone := true }) := by
  simp only [minExpiryOp, hp, hh, hc, Bool.false_eq_true, if_true, if_false]

/-- MAX_INT of a point that has one: its present entry is delivered (R51 rule 4). -/
theorem maxExpiryOp_delivers {s : State} {h : Nat} {p : Point} (hp : amGet s.points h = some p) (hm : p.maxInt ≠ 0) :
    maxExpiryOp h s = deliver s h p.mir true := by
  simp only [maxExpiryOp, hp, hm, if_false]

/-- Settles O3, by what a delivery leaves of its point (`deliver_get_of`). -/
theorem deliveryTimers : Obligations.DeliveryTimers := by
  refine ⟨fun s h p hp hh hc => ?_, fun s h p hp hh hc => ?_, fun s h p hp hm => ?_⟩
  · have hget := deliver_get_of (m := p.mir) (r := false) hp
    rw [← minExpiryOp_passes hp hh hc] at hget
    exact ⟨_, _, rfl, hget, rfl, rfl, rfl, rfl, rfl⟩
  · have hget : amGet (minExpiryOp h s).points h = some { p with held := false, minDone := true } := by
      rw [minExpiryOp_fails hp hh hc, State.modPt_get, hp, Option.map_some]
    have hout : (minExpiryOp h s).out = s.out := by rw [minExpiryOp_fails hp hh hc, State.modPt_out]
    exact ⟨_, _, rfl, hget, rfl, rfl, rfl, rfl, hout⟩
  · have hget := deliver_get_of (m := p.mir) (r := true) hp
    rw [← maxExpiryOp_delivers hp hm] at hget
    exact ⟨_, _, rfl, hget, rfl, rfl, rfl, rfl, rfl, rfl⟩

/- ### Passes and basins -/

/-- A pass that ends leaves the table; no other pass and no point changes (R63). -/
theorem revokePass_rest {s : State} {id reason : Nat} {p : Pass} (hp : amGet s.ws.passes id = some p) :
    (revokePass s id reason).ws.passes = amDel s.ws.passes id ∧ (revokePass s id reason).points = s.points := by
  simp [revokePass, hp]

/-- PASS_EXPIRY at or past EXPIRY ends the pass, and the partner learns of it (R64, R67). -/
theorem passExpiryOp_due {s : State} {id : Nat} {p : Pass} (hp : amGet s.ws.passes id = some p) (he : p.expiry ≠ 0)
    (hv : s.timeValid = true) (ht : p.expiry * giga ≤ s.time.now) :
    passExpiryOp id s = (revokePass s id 2).mirror (.withdrawn 6 id) := by
  simp only [passExpiryOp, hp]
  exact if_pos ⟨he, hv, ht⟩

/-- Once the points of a basin are withdrawn none is left that it owns (R66). -/
theorem withdrawOwned_points {s : State} {b h : Nat} {p : Point}
    (hp : amGet (withdrawAll 2 dropPoint ((s.points.filter (fun p => p.2.owner == b)).map (·.1)) s).points h =
      some p) :
    p.owner ≠ b := by
  obtain ⟨hget, hnot⟩ := withdrawAll_points hp
  intro ho
  exact hnot (List.mem_map_of_mem (List.mem_filter.mpr ⟨amGet_mem hget, by simpa using ho⟩))

/-- An accepted BASIN_REMOVE withdraws the basin's points last, returns its assignments and clears its word (R66). -/
theorem basinRemoveOp_accepted {s : State} {b : Nat} (h1 : 1 ≤ b) (h63 : b ≤ 63) (he : s.basinEn b = false)
    (hr : s.ws.removing.contains b = false) : ∃ u : State, basinRemoveOp b s =
      (((basinReturned b (withdrawAll 2 dropPoint ((u.points.filter (fun p => p.2.owner == b)).map (·.1)) u)).mirror
        (.basinRemoved b)).setReg (0x4F100 + 4 * b) 0).mirror (.register (0x4F100 + 4 * b) 0) := by
  unfold basinRemoveOp
  rw [if_neg (by rw [he, hr]; simp; omega)]
  exact ⟨_, rfl⟩

/-- Settles O5: a pass that ends takes only its own entry from the table, and a basin's points are withdrawn one by one
(`withdrawOwned_points`). -/
theorem passesAndRemoval : Obligations.PassesAndRemoval := by
  refine ⟨fun s id p hp he hv ht => ?_, fun s b h1 h63 hr he hrem => ?_, fun s b => ?_⟩
  · obtain ⟨hpasses, hpoints⟩ := revokePass_rest (reason := 2) hp
    refine ⟨_, rfl, ?_, fun j hj => ?_, ?_⟩
    · rw [passExpiryOp_due hp he hv ht, State.mirror_ws, hpasses, amGet_amDel_self]
    · rw [passExpiryOp_due hp he hv ht, State.mirror_ws, hpasses, amGet_amDel_ne hj]
    · rw [passExpiryOp_due hp he hv ht, State.mirror_points, hpoints]
  · obtain ⟨u, hu⟩ := basinRemoveOp_accepted h1 h63 he hrem
    refine ⟨_, rfl, ?_⟩
    rw [ifReaches_of hr, hu]
    refine ⟨?_, fun a ha => ?_, fun h p hp => ?_⟩
    · rw [State.mirror_reg, State.reg_setReg_self]
    · simp only [State.mirror_ws, State.setReg_ws] at ha
      exact basinReturned_assigns (by omega) a ha
    · simp only [State.mirror_points, State.setReg_points, basinReturned_points] at hp
      exact withdrawOwned_points hp
  · refine ⟨_, rfl, ?_, fun c hc => ?_, rfl⟩
    · simp [basinRemovedOp]
    · simp [basinRemovedOp, hc]

/- ### Commands at their channel, and outcomes -/

/-- The channel with the commands `cs` left on their way to it. -/
def State.leaveCmds (s : State) (n : Nat) (cs : List ChCmd) : State := s.modCh n (fun x => { x with cmds := cs })

/-- COMMAND_AT_CHANNEL takes the head of the commands on their way while the link passes (R30, R58). -/
theorem commandAtOp_cons {s : State} {n : Nat} {c : ChCmd} {cs : List ChCmd} (hc : (s.ch n).cmds = c :: cs)
    (hl : s.linkDown n = false) : commandAtOp n s = runCmd (s.leaveCmds n cs) n c := by
  simp [commandAtOp, hc, hl, State.leaveCmds]

@[simp] theorem State.leaveCmds_points {s : State} {n : Nat} {cs : List ChCmd} :
    (s.leaveCmds n cs).points = s.points := rfl

@[simp] theorem State.leaveCmds_length {s : State} {n : Nat} {cs : List ChCmd} :
    (s.leaveCmds n cs).chs.length = s.chs.length := State.modCh_length

@[simp] theorem State.leaveCmds_state {s : State} {n m : Nat} {cs : List ChCmd} :
    ((s.leaveCmds n cs).ch m).state = (s.ch m).state := State.modCh_field Chan.state (fun _ => rfl)

@[simp] theorem State.leaveCmds_dio {s : State} {n m : Nat} {cs : List ChCmd} :
    ((s.leaveCmds n cs).ch m).dio = (s.ch m).dio := State.modCh_field Chan.dio (fun _ => rfl)

/-- The queue of commands decides neither whether the channel works nor what the guard holds nor what a loop owns. -/
@[simp] theorem State.leaveCmds_works {s : State} {n m : Nat} {cs : List ChCmd} :
    (s.leaveCmds n cs).works m = s.works m := by
  have hstop : ((s.leaveCmds n cs).ch m).stopped = (s.ch m).stopped := State.modCh_field Chan.stopped (fun _ => rfl)
  unfold State.works
  rw [hstop]
  rfl

@[simp] theorem State.leaveCmds_guardHolds {s : State} {n m : Nat} {cs : List ChCmd} :
    (s.leaveCmds n cs).guardHolds m = s.guardHolds m := by
  simp only [State.guardHolds, State.dio, State.leaveCmds_dio]

@[simp] theorem State.leaveCmds_loopOut {s : State} {n h : Nat} {cs : List ChCmd} :
    (s.leaveCmds n cs).loopOut h = s.loopOut h := by
  have hslots : ∀ m, ((s.leaveCmds n cs).ch m).slots = (s.ch m).slots :=
    fun m => State.modCh_field Chan.slots (fun _ => rfl)
  simp only [State.loopOut, hslots]
  rfl

/-- A command for a terminal that passes its channel's checks, without an instant, writes the point; what it
completes is its own descriptor (R58, R139). -/
theorem runCmd_writes {s : State} {n : Nat} {c : ChCmd} {p : Point} (hp : amGet s.points c.handle = some p)
    (hs : (s.ch n).state = .inService) (hw : s.works n = true) (ht : tagOk p c.tag = true)
    (hl : s.loopOut c.handle = false) (ho : p.origin = 1) (ha : c.at? = none) :
    ∃ f, f.table = 9 ∧ f.ring = c.ring ∧ f.flight = c.flight ∧ f.late = false ∧
      runCmd s n c = writePoint s n c.handle p c.value f := by
  refine ⟨{ TxFrame.blank with basin := c.tag, ring := c.ring, flight := c.flight, late := false,
                               prio := if 1024 ≤ c.ring then 6 else 5 }, rfl, rfl, rfl, rfl, ?_⟩
  simp [runCmd, hp, hs, hw, ht, hl, ho, ha]

/-- A command whose tag fails is refused with NOT_OWNER (R58, R368). -/
theorem runCmd_refuses {s : State} {n : Nat} {c : ChCmd} {p : Point} (hp : amGet s.points c.handle = some p)
    (hs : (s.ch n).state = .inService) (hw : s.works n = true) (ht : tagOk p c.tag = false) :
    runCmd s n c = sendReport (tagMismatch s n c.handle c.tag p.owner) n (cmdReport c 0x0A false 0) := by
  simp [runCmd, hp, hs, hw, ht]

/-- A digital output that the guard does not hold takes its state, and the command ends with outcome 0 (R368). -/
theorem writePoint_dout {s : State} {n h : Nat} {p : Point} {v : Slot} {f : TxFrame} (ho : p.origin = 1)
    (h16 : 16 ≤ p.index) (h24 : p.index < 24) (hg : s.guardHolds n = false) :
    writePoint s n h p v f =
      frameEnds (driveDout s n (p.index - 16) (v.toNat % 2 == 1) (s.chNow n)) n f 0 0 false 0 := by
  unfold writePoint
  rw [if_pos ho, if_neg (by omega), if_neg (by simp [hg]), if_pos ⟨h16, h24⟩]

/-- What ends in a channel and is no occurrence of an entry is reported (R131). -/
theorem frameEnds_report {s : State} {n st d : Nat} {f : TxFrame} {ts : Bool} {info : Word} (ht : f.table = 9)
    (hn : n < 8) : frameEnds s n f st d ts info =
      sendReport s n { ring := f.ring, flight := f.flight, status := st, tsq := ts, late := f.late, info := info } := by
  simp [frameEnds, ht, hn]

/-- An outcome with a descriptor queues up behind those on their way (R131). -/
theorem sendReport_reports {s : State} {n : Nat} {r : Report} (hn : n < s.chs.length) (hr : r.ring < 1024) :
    ((sendReport s n r).ch n).reports = (s.ch n).reports ++ [r] := by
  unfold sendReport
  rw [if_neg (by omega), State.modCh_ch_self hn]

/-- An outcome leaves the points. -/
theorem sendReport_points {s : State} {n : Nat} {r : Report} : (sendReport s n r).points = s.points := by
  unfold sendReport
  split <;> rfl

/-- A driven output takes the commanded state (R368). -/
theorem driveDout_cmd {s : State} {n d : Nat} {v : Bool} {stamp : Instant} (hn : n < s.chs.length)
    (hd : d < (s.dio n).dout.length) : ((driveDout s n d v stamp).dout n d).cmd = v := by
  unfold driveDout
  rw [State.dout, State.dio, State.mirror_ch, ← State.dio, ← State.dout, latchDout_cmd hn hd]

/-- Driving an output leaves the number of channels. -/
theorem driveDout_length {s : State} {n d : Nat} {v : Bool} {stamp : Instant} :
    (driveDout s n d v stamp).chs.length = s.chs.length := by
  simp [driveDout, latchDout, doutAcquire, State.chs_length_of_bodies acquireTerm_bodies]

/-- OUTCOME_REPORTED finishes the flight of the head outcome while the link passes (R30, R131). -/
theorem outcomeReportedOp_cons {s : State} {n : Nat} {r : Report} {rs : List Report} (hr : (s.ch n).reports = r :: rs)
    (hl : s.linkDown n = false) : outcomeReportedOp n s =
      finish (s.modCh n (fun c => { c with reports := rs })) r.ring r.flight r.status r.tsq r.late r.info := by
  simp [outcomeReportedOp, hr, hl]

/-- The outcome of a one-descriptor flight is written at CPL_IDX, which advances; the flight is gone (R130, R131). -/
theorem finish_completes {s : State} {k id st : Nat} {tsq late : Bool} {info : Word} {f : Flight} {c : Slot}
    (hk : k < 1024) (hf : (s.ring k).flights.find? (fun f => f.id == id) = some f) (hc : f.cookies = [c])
    (ha : (s.ring k).state = .active) (he : (s.ring k).held = []) (hm : s.mayWrite (ringFn k) = true) :
    ((finish s k id st tsq late info).ring k).cpl = ((s.ring k).cpl + 1) % 65536 ∧
    ((finish s k id st tsq late info).ring k).flights = (s.ring k).flights.filter (fun f => !(f.id == id)) ∧
    .memWrite (ringFn k) (s.reg64 (ringBase k + 16) + 16 * ((s.ring k).cpl % (s.ring k).slots))
      (cplBytes (s.ring k) { cookie := c, idx := f.idx % 65536, status := st, ckind := f.ckind, tsq := tsq,
                             late := late || f.late, info := info }) ∈ (finish s k id st tsq late info).out := by
  rw [finish_one hk hf hc (by simp [ha]) (by simp [ha]) he hm]
  obtain ⟨_, _, _, hring⟩ := putCompletion_ring (k := k)
    (s := s.modRing k (fun g => { g with flights := g.flights.filter (fun f => !(f.id == id)) }))
    (c := { cookie := c, idx := f.idx % 65536, status := st, ckind := f.ckind, tsq := tsq, late := late || f.late,
            info := info })
  have hout := putCompletion_out (k := k)
    (s := s.modRing k (fun g => { g with flights := g.flights.filter (fun f => !(f.id == id)) }))
    (c := { cookie := c, idx := f.idx % 65536, status := st, ckind := f.ckind, tsq := tsq, late := late || f.late,
            info := info })
  rw [State.modRing_ring_self] at hring hout
  exact ⟨congrArg Ring.cpl hring, congrArg Ring.flights hring, hout⟩

/-- The head command, for a digital output, that passes its checks drives it and leaves outcome 0 (R58, R368). -/
theorem commandAtOp_dout {s : State} {n : Nat} {c : ChCmd} {cs : List ChCmd} {p : Point} (hn : n < 8)
    (hc : (s.ch n).cmds = c :: cs) (hp : amGet s.points c.handle = some p)
    (hs : (s.ch n).state = .inService) (hw : s.works n = true) (ht : tagOk p c.tag = true)
    (hl : s.loopOut c.handle = false) (ho : p.origin = 1) (h16 : 16 ≤ p.index) (h24 : p.index < 24)
    (ha : c.at? = none) (hg : s.guardHolds n = false) : commandAtOp n s =
      sendReport (driveDout (s.leaveCmds n cs) n (p.index - 16) (c.value.toNat % 2 == 1) ((s.leaveCmds n cs).chNow n)) n
        { ring := c.ring, flight := c.flight, status := 0, tsq := false, late := false, info := 0 } := by
  obtain ⟨f, htable, hring, hflight, hlate, hrun⟩ := runCmd_writes (s := s.leaveCmds n cs) (n := n) hp
    (State.leaveCmds_state.trans hs) (State.leaveCmds_works.trans hw) ht (State.leaveCmds_loopOut.trans hl) ho ha
  rw [commandAtOp_cons hc (State.linkDown_of_ne (by rw [hs]; decide)), hrun,
    writePoint_dout ho h16 h24 (State.leaveCmds_guardHolds.trans hg), frameEnds_report htable hn, hring, hflight, hlate]

/-- The head command, where its tag fails, leaves a record and the outcome NOT_OWNER (R58, R368). -/
theorem commandAtOp_refused {s : State} {n : Nat} {c : ChCmd} {cs : List ChCmd} {p : Point}
    (hc : (s.ch n).cmds = c :: cs) (hp : amGet s.points c.handle = some p) (hs : (s.ch n).state = .inService)
    (hw : s.works n = true) (ht : tagOk p c.tag = false) : commandAtOp n s =
      sendReport (tagMismatch (s.leaveCmds n cs) n c.handle c.tag p.owner) n (cmdReport c 0x0A false 0) := by
  rw [commandAtOp_cons hc (State.linkDown_of_ne (by rw [hs]; decide)),
    runCmd_refuses (s := s.leaveCmds n cs) hp (State.leaveCmds_state.trans hs) (State.leaveCmds_works.trans hw) ht]

/-- Settles O6: the tag decides between latch and refusal, and an outcome of one descriptor is one completion. -/
theorem commandsAndOutcomes : Obligations.CommandsAndOutcomes := by
  refine ⟨fun s n c cs p hs hn hc hp hst hw ht hl ho h16 h24 ha hg hd hr => ?_,
    fun s n c cs p hs hn hc hp hst hw ht hr => ?_, fun s n r rs f k hr hk hf hck hact hheld hmw hl => ?_⟩
  · have hlen := State.state_ne_absent_lt hs hn
    refine ⟨_, rfl, ?_⟩
    rw [commandAtOp_dout hn hc hp hst hw ht hl ho h16 h24 ha hg]
    refine ⟨?_, ?_⟩
    · rw [State.dout, sendReport_dio, ← State.dout]
      exact driveDout_cmd (by simpa using hlen) (by simpa [State.dio] using hd)
    · rw [sendReport_reports (by simpa [driveDout_length] using hlen) hr, List.getLast?_concat]
  · have hlen := State.state_ne_absent_lt hs hn
    refine ⟨_, rfl, ?_⟩
    rw [commandAtOp_refused hc hp hst hw ht]
    refine ⟨?_, ?_, ?_⟩
    · rw [sendReport_points, tagMismatch, chRaise_points, State.leaveCmds_points]
    · rw [sendReport_ch_dio, tagMismatch, chRaise_ch_dio, State.leaveCmds_dio]
    · rw [sendReport_reports _ hr, List.getLast?_concat, cmdReport]
      rw [tagMismatch, State.chs_length_of_bodies chRaise_bodies]
      simpa using hlen
  · refine ⟨_, rfl, ?_⟩
    rw [outcomeReportedOp_cons hr hl]
    exact finish_completes hk hf hck hact hheld hmw

end Sys2Proof.Machine
end

section
/-! Proof of O16: commands, frames and cancel requests fetched from the descriptor rings. -/

namespace Sys2Proof.Machine

/- ### What a fetch takes -/

/-- A module ring belongs to its basin (R53). -/
theorem ringFn_of {b r : Nat} (hr : r < 16) : ringFn (16 * b + r) = b := by unfold ringFn; omega

/-- A ring that may fetch may write (R529). -/
theorem mayWrite_of_mayFetch {s : State} {k n kind : Nat} (h : mayFetch s k n kind = true) :
    s.mayWrite (ringFn k) = true := by
  simp only [mayFetch, Bool.and_eq_true] at h
  obtain ⟨⟨_, hwrite⟩, _⟩ := h
  exact hwrite

/-- What the put-out list, the rings and the numbering of flights do not enter stays when a descriptor is taken. -/
theorem takeFlight_same {β : Type} (F : State → β)
    (hF : ∀ (u : State) o r n, F { u with out := o, rings := r, serial := n } = F u) {s : State} {k ck ch : Nat}
    {cs : List Slot} : F (takeFlight s k cs ck ch) = F s := by
  obtain ⟨o, r, h⟩ := takeFlight_misc (s := s) (k := k) (ck := ck) (ch := ch) (cs := cs)
  rw [h, hF]

@[simp] theorem takeFlight_chs {s : State} {k ck ch : Nat} {cs : List Slot} : (takeFlight s k cs ck ch).chs = s.chs :=
  takeFlight_same State.chs (fun _ _ _ _ => rfl)

@[simp] theorem takeFlight_ch {s : State} {k ck ch n : Nat} {cs : List Slot} :
    (takeFlight s k cs ck ch).ch n = s.ch n := takeFlight_same (State.ch · n) (fun _ _ _ _ => rfl)

@[simp] theorem takeFlight_can {s : State} {k ck ch n x : Nat} {cs : List Slot} :
    (takeFlight s k cs ck ch).can n x = s.can n x := takeFlight_same (State.can · n x) (fun _ _ _ _ => rfl)

@[simp] theorem takeFlight_seg {s : State} {k ck ch n x : Nat} {cs : List Slot} :
    (takeFlight s k cs ck ch).seg n x = s.seg n x := takeFlight_same (State.seg · n x) (fun _ _ _ _ => rfl)

@[simp] theorem takeFlight_points {s : State} {k ck ch : Nat} {cs : List Slot} :
    (takeFlight s k cs ck ch).points = s.points := takeFlight_same State.points (fun _ _ _ _ => rfl)

@[simp] theorem takeFlight_hlist {s : State} {k ck ch : Nat} {cs : List Slot} :
    (takeFlight s k cs ck ch).hlist = s.hlist := takeFlight_same State.hlist (fun _ _ _ _ => rfl)

@[simp] theorem takeFlight_frames {s : State} {k ck ch : Nat} {cs : List Slot} :
    (takeFlight s k cs ck ch).frames = s.frames := takeFlight_same State.frames (fun _ _ _ _ => rfl)

@[simp] theorem takeFlight_basinEn {s : State} {k ck ch b : Nat} {cs : List Slot} :
    (takeFlight s k cs ck ch).basinEn b = s.basinEn b := takeFlight_same (State.basinEn · b) (fun _ _ _ _ => rfl)

@[simp] theorem takeFlight_mayWrite {s : State} {k ck ch b : Nat} {cs : List Slot} :
    (takeFlight s k cs ck ch).mayWrite b = s.mayWrite b := takeFlight_same (State.mayWrite · b) (fun _ _ _ _ => rfl)

@[simp] theorem takeFlight_reg64 {s : State} {k ck ch j : Nat} {cs : List Slot} :
    (takeFlight s k cs ck ch).reg64 j = s.reg64 j := takeFlight_same (State.reg64 · j) (fun _ _ _ _ => rfl)

/-- A 64-bit register reads the same where the store is the same. -/
theorem State.reg64_congr {s t : State} (h : t.regs = s.regs) (k : Nat) : t.reg64 k = s.reg64 k := by
  simp only [State.reg64, State.reg_congr h]

/- ### Point commands -/

/-- A command that passes its checks is taken and passed on (R139). -/
theorem fetchCmdOp_passes {s : State} {b r : Nat} {d : BitVec 256} {a : Bool} {p : Point} (hr : r < 16)
    (hm : mayFetch s (16 * b + r) 1 1 = true) (hs : (s.ring (16 * b + r)).state = .active) (hk : cmdKind d ≠ 0x11)
    (hc : cmdCheck s b d = 0) (hp : amGet s.points (cmdHandle d) = some p) :
    fetchCmdOp b r d a s =
      cmdPass (takeFlight s (16 * b + r) [cmdCookie d] 0 (cmdChannel s d)) (16 * b + r) s.serial b d p := by
  simp [fetchCmdOp, Nat.not_le.mpr hr, hm, hs, hk, hc, hp]

/-- A command that fails a check other than the one of its instant is taken and finished with that status (R139). -/
theorem fetchCmdOp_refuses {s : State} {b r e : Nat} {d : BitVec 256} {a : Bool} (hr : r < 16)
    (hm : mayFetch s (16 * b + r) 1 1 = true) (hk : cmdKind d ≠ 0x11) (hc : cmdCheck s b d = e) (h0 : e ≠ 0)
    (h5 : e ≠ 5) : fetchCmdOp b r d a s =
      finish (takeFlight s (16 * b + r) [cmdCookie d] 0 (cmdChannel s d)) (16 * b + r) s.serial e false false 0 := by
  simp [fetchCmdOp, Nat.not_le.mpr hr, hm, hk, hc, h0, h5]

/-- A cancel request is taken and carried out (R141). -/
theorem fetchCmdOp_cancels {s : State} {b r : Nat} {d : BitVec 256} {a : Bool} (hr : r < 16)
    (hm : mayFetch s (16 * b + r) 1 1 = true) (hs : (s.ring (16 * b + r)).state = .active) (hk : cmdKind d = 0x11) :
    fetchCmdOp b r d a s =
      cancelRun (takeFlight s (16 * b + r) [cmdCookie d] 2 8) (16 * b + r) s.serial b d a := by
  simp [fetchCmdOp, Nat.not_le.mpr hr, hm, hs, hk]

/-- A command for a channel's point queues up behind those on their way (R58, R139). -/
theorem cmdPass_channel {s : State} {k id b : Nat} {d : BitVec 256} {p : Point} (hh : p.isHub = false) :
    cmdPass s k id b d p = s.modCh p.channel (fun c => { c with cmds := c.cmds ++
      [{ handle := cmdHandle d, value := cmdValue d, tag := b, ring := k, flight := id, cookie := cmdCookie d,
         at? := if cmdAt d then some (cmdInstant d) else none, tol := cmdTol d }] }) := by
  simp only [cmdPass, hh, Bool.false_eq_true, if_false]

/- ### Frames -/

/-- A frame without an instant that passes its checks is taken and handed to its CAN controller (R140, R311). -/
theorem frameTransmitOp_can {s : State} {b r : Nat} {d : BitVec 512} {ds : List (BitVec 512)} {payload : List Byte}
    {f : TxFrame} (hr : r < 16) (ho : oneChain (d :: ds) = true) (hm : mayFetch s (16 * b + r) (ds.length + 1) 2 = true)
    (hs : (s.ring (16 * b + r)).state = .active) (hc : frameCheck s b (d :: ds) payload = 0)
    (ht : canTarget (frmTarget d) = true) (ha : frmAt d = false)
    (hf : frameOf s b (16 * b + r) d s.serial (s.ring (16 * b + r)).hw payload = some f) :
    frameTransmitOp b r (d :: ds) payload s =
      canEnqueue (takeFlight s (16 * b + r) ((d :: ds).map frmCookie) 1 (frmTarget d / 4)) (frmTarget d / 4)
        (frmTarget d % 4) { f with late := false } := by
  obtain ⟨h32, h2⟩ : frmTarget d < 32 ∧ frmTarget d % 4 < 2 := by simpa [canTarget] using ht
  simp [frameTransmitOp, Nat.not_le.mpr hr, ho, hm, hs, hc, hf, framePass, ha, ht, Nat.not_le.mpr h32, h2]

/-- A controller that takes frames ranks the new one into its queue (R311). -/
theorem canEnqueue_up {s : State} {n x : Nat} {f : TxFrame} (hd : (s.can n x).down = false) :
    canEnqueue s n x f = { s.modCan n x (fun c =>
      { c with txq := queueInsert c.won { f with order := s.frames } c.txq }) with frames := s.frames + 1 } := by
  simp [canEnqueue, hd]

/- ### Cancelling a frame -/

/-- A frame that has not won arbitration leaves the queue and ends CANCELLED, its request with it (R319). -/
theorem cancelCan_waiting {s : State} {n x k idx : Nat} {req : Nat × Nat} {f : TxFrame}
    (hf : (s.can n x).txq.find? (isTarget k idx) = some f) (hw : (s.can n x).won = false) :
    cancelCan s n x k idx req false =
      some (endFrames (s.modCan n x (fun c => { c with txq := c.txq.filter (fun g => !isTarget k idx g) })) n
        [{ f with cancel := f.cancel ++ [req] }] 2 0x29 0) := by
  simp [cancelCan, hf, hw]

/-- Where the queue of a controller or segment does not hold the frame, there is nothing to cancel. -/
theorem cancelCan_none {s : State} {n x k idx : Nat} {req : Nat × Nat} {a : Bool}
    (h : (s.can n x).txq.find? (isTarget k idx) = none) : cancelCan s n x k idx req a = none := by
  simp [cancelCan, h]

theorem cancelSeg_none {s : State} {n x k idx : Nat} {req : Nat × Nat}
    (h : (s.seg n x).txq.find? (isTarget k idx) = none) : cancelSeg s n x k idx req = none := by
  simp [cancelSeg, h]

/-- The first of a range of places that holds something is the one found. -/
theorem find?_map_range {α : Type} {f : Nat → Option α} {m n : Nat} {a : α} (hn : n < m) (hf : f n = some a)
    (hnone : ∀ i < n, f i = none) : ((List.range m).map f).find? (·.isSome) = some (some a) := by
  have hfirst : (List.range m).find? ((·.isSome) ∘ f) = some n :=
    List.find?_range_eq_some.mpr ⟨by simp [hf], by simpa using hn, fun i hi => by simp [hnone i hi]⟩
  rw [List.find?_map, hfirst, Option.map_some, hf]

/-- The frame is cancelled in the first controller that holds it, while its channel can be asked (R319). -/
theorem cancelAnywhere_can {s t : State} {n k idx : Nat} {req : Nat × Nat} {a : Bool} (hn : n < 8)
    (hnone : ∀ m < n, ∀ x, (s.can m x).txq.find? (isTarget k idx) = none ∧
      (s.seg m x).txq.find? (isTarget k idx) = none)
    (hc : cancelCan s n 0 k idx req a = some t) (hl : (s.ch n).state ≠ .linkLost) :
    cancelAnywhere s k idx req a = t := by
  unfold cancelAnywhere
  dsimp only
  rw [List.find?_append, find?_map_range (a := t) hn]
  · rfl
  · simp [hc, hl]
  · intro m hm
    obtain ⟨hcan, hseg⟩ : (∀ x, cancelCan s m x k idx req a = none) ∧ ∀ x, cancelSeg s m x k idx req = none :=
      ⟨fun x => cancelCan_none (hnone m hm x).1, fun x => cancelSeg_none (hnone m hm x).2⟩
    simp [hcan, hseg]

/-- A cancelled frame of a descriptor and its one request are two outcomes, in that order (R141). -/
theorem endFrames_cancelled {s : State} {n d : Nat} {f : TxFrame} {req : Nat × Nat} (hn : n < 8) (ht : f.table = 9)
    (hc : f.cancel = []) : endFrames s n [{ f with cancel := f.cancel ++ [req] }] 2 d 0 =
      sendReport (sendReport s n { ring := f.ring, flight := f.flight, status := 2, tsq := false, late := f.late,
                                   info := 0 }) n
        { ring := req.1, flight := req.2, status := 0, tsq := false, late := false, info := 0 } := by
  simp [endFrames, cancelAnswer, frameEnds, ht, hn, hc]

/-- A request for the frame of a FRM_OUT ring in use is put to every queue of the module (R141). -/
theorem cancelRun_frame {s : State} {k id b : Nat} {d : BitVec 256} {a : Bool} (he : s.basinEn b = true)
    (hb : cancelBy d = false) (hs : (s.ring (16 * b + d32 d 26 0 4)).state ≠ .disabled)
    (hk : (s.ring (16 * b + d32 d 26 0 4)).kind = 2) :
    cancelRun s k id b d a = cancelAnywhere s (16 * b + d32 d 26 0 4) (d32 d 24 0 16) (k, id) a := by
  simp [cancelRun, he, hb, hs, hk]

/-- A request by cookie ends with the status of the search (R243). -/
theorem cancelRun_cookie {s : State} {k id b : Nat} {d : BitVec 256} {a : Bool} (he : s.basinEn b = true)
    (hb : cancelBy d = true) : cancelRun s k id b d a =
      finish (cancelCookie s b (BitVec.ofNat 64 (d32 d 16 0 64))).1 k id
        (cancelCookie s b (BitVec.ofNat 64 (d32 d 16 0 64))).2 false false 0 := by
  simp [cancelRun, he, hb]

/-- Two outcomes with descriptors queue up one after the other. -/
theorem sendReport_twice {s : State} {n : Nat} {q r : Report} (hn : n < s.chs.length) (hq : q.ring < 1024)
    (hr : r.ring < 1024) : ((sendReport (sendReport s n q) n r).ch n).reports = (s.ch n).reports ++ [q, r] := by
  rw [sendReport_reports (by rwa [State.chs_length_of_bodies sendReport_bodies]) hr, sendReport_reports hn hq,
    List.append_assoc, List.singleton_append]

/- ### Cancelling by cookie -/

/-- A cancelled entry leaves what a ring needs to write: the right to, and its addresses. -/
theorem cancelEntry_mayWrite {s : State} {t i d b : Nat} {e : Entry} :
    (cancelEntry s t i e d).mayWrite b = s.mayWrite b := cancelEntry_keepsWrite.1

theorem cancelEntry_reg64 {s : State} {t i d j : Nat} {e : Entry} : (cancelEntry s t i e d).reg64 j = s.reg64 j :=
  State.reg64_congr (cancelEntry_keepsWrite (b := 0)).2 j

/-- A table without entries gives nothing to cancel. -/
theorem cancelIn_empty {t b : Nat} {cookie : Slot} {acc : State × Nat × Nat} (h : (acc.1.tbl t).entries = []) :
    cancelIn t b cookie acc = acc := by
  simp [cancelIn, State.tblKeys, h]

/-- The one entry of the hub list, with the cookie and outside its window, is cancelled (R243). -/
theorem cancelIn_hub {s : State} {b i : Nat} {e : Entry} (h : s.hlist.entries = [(i, e)]) (ho : e.origin ≠ .declared)
    (hb : e.basin = b) (hw : e.waiting = false) (hin : inWindow s 8 e = false) :
    cancelIn 8 b e.cookie (s, 0, 0) = (cancelEntry s 8 i e 0x29, 1, 0) := by
  simp [cancelIn, State.tblKeys, State.tbl8, h, amGet_cons, ho, hb, hw, hin]

/-- With no other entry in any table, the request cancels the one of the hub list and is OK (R141, R243). -/
theorem cancelCookie_hub {s : State} {b i : Nat} {e : Entry} (hch : ∀ n < 8, (s.ch n).table.entries = [])
    (h : s.hlist.entries = [(i, e)]) (ho : e.origin ≠ .declared) (hb : e.basin = b) (hw : e.waiting = false)
    (hin : inWindow s 8 e = false) : cancelCookie s b e.cookie = (cancelEntry s 8 i e 0x29, 0) := by
  have hchannels : (List.range 8).foldl (fun a t => cancelIn t b e.cookie a) (s, 0, 0) = (s, 0, 0) :=
    List.foldlRecOn (motive := fun a => a = (s, 0, 0)) _ _ rfl (fun a ha t ht => by
      rw [ha]
      have ht8 : t < 8 := List.mem_range.mp ht
      exact cancelIn_empty (by simpa [State.tbl, ht8] using hch t ht8))
  unfold cancelCookie
  rw [List.range_succ, List.foldl_append, hchannels, List.foldl_cons, List.foldl_nil, cancelIn_hub h ho hb hw hin]
  rfl

/-- Settles O16: each command is its fetch (`takeFlight`) followed by what its check decides. -/
theorem descriptors : Obligations.Descriptors := by
  refine ⟨fun s b r d p hs hr hm ha hk hc hp hh hn => ?_,
    fun s b r e d hb hr hm ha hheld hnew hk hc h0 h5 => ?_,
    fun s b r d ds payload f hs hr ho hm ha hc ht h32 hcan hat hf hd => ?_,
    fun s b r n d f hs hb hr hn hcan hm ha hk hen hby hst hkind hne hnone hf htbl hcancel hfr hwon hl => ?_,
    fun s b r i d e hb hr hm ha hheld hnew hk hen hby hch hhub ho heb hcookie hwait hin => ?_⟩
  · refine ⟨_, rfl, ?_⟩
    rw [fetchCmdOp_passes hr hm ha hk hc hp, cmdPass_channel hh]
    refine ⟨?_, ?_, ?_⟩
    · rw [State.modCh_ch_self (by simpa [State.chs_length hs] using hn), takeFlight_ch]
    · rw [State.modCh_ring, takeFlight_ring (mayWrite_of_mayFetch hm)]
      rfl
    · rw [State.modCh_points, takeFlight_points]
  · have hmw := mayWrite_of_mayFetch hm
    obtain ⟨_, _, hflights, hout⟩ := taken_finish (s := s) (k := 16 * b + r) (ck := 0) (ch := cmdChannel s d) (st := e)
      (c := cmdCookie d) (late := false) (info := 0) (by omega) hmw rfl (by simpa using hmw) (by simp) hnew ha hheld
    refine ⟨_, rfl, ?_⟩
    rw [fetchCmdOp_refuses hr hm hk hc h0 h5]
    rw [ringFn_of hr] at hout
    exact ⟨hout, hflights, by simp⟩
  · obtain ⟨_, h2⟩ : frmTarget d < 32 ∧ frmTarget d % 4 < 2 := by simpa [canTarget] using ht
    refine ⟨_, rfl, ?_⟩
    rw [frameTransmitOp_can hr ho hm ha hc ht hat hf, canEnqueue_up (by simpa using hd)]
    refine ⟨?_, ?_, ?_⟩
    · have hself := State.modCan_can_self (n := frmTarget d / 4) (x := frmTarget d % 4)
        (s := takeFlight s (16 * b + r) ((d :: ds).map frmCookie) 1 (frmTarget d / 4))
        (f := fun c => { c with txq := queueInsert c.won { f with order := s.frames, late := false } c.txq })
        (by rw [takeFlight_chs, State.chs_length hs]; omega) (by rw [takeFlight_ch, hcan]; exact h2)
      rw [takeFlight_can] at hself
      rw [takeFlight_frames]
      exact congrArg Can.txq hself
    · refine (congrArg Ring.hw (takeFlight_ring (mayWrite_of_mayFetch hm))).trans ?_
      simp
    · exact takeFlight_points
  · have hn' : n < s.chs.length := by rw [State.chs_length hs]; exact hn
    refine ⟨_, rfl, ?_⟩
    rw [fetchCmdOp_cancels hr hm ha hk,
      cancelRun_frame (by simpa using hen) hby (by rwa [takeFlight_ring_ne (by omega)])
        (by rwa [takeFlight_ring_ne (by omega)]),
      cancelAnywhere_can hn (by simpa using hnone)
        (cancelCan_waiting (by simpa using hf) (by simpa using hwon)) (by simpa using hl),
      endFrames_cancelled hn htbl hcancel]
    refine ⟨?_, ?_⟩
    · rw [State.can, sendReport_ch_can, sendReport_ch_can, ← State.can, State.modCan_can_self (by simpa using hn')
        (by simp [hcan]), takeFlight_can]
    · rw [sendReport_twice (by simpa using hn') hfr (by dsimp only; omega),
        State.modCan_keep Chan.reports (fun _ _ => rfl), takeFlight_ch]
  · have hmw := mayWrite_of_mayFetch hm
    have hcancel := cancelCookie_hub (s := takeFlight s (16 * b + r) [cmdCookie d] 2 8) (by simpa using hch)
      (by simpa using hhub) ho heb hwait ((takeFlight_same (inWindow · 8 e) (fun _ _ _ _ => rfl)).trans hin)
    obtain ⟨_, _, _, hout⟩ := taken_finish (k := 16 * b + r) (ck := 2) (ch := 8) (st := 0) (c := cmdCookie d)
      (s := s) (u := cancelEntry (takeFlight s (16 * b + r) [cmdCookie d] 2 8) 8 i e 0x29) (late := false) (info := 0)
      (by omega) hmw (State.ring_congr cancelEntry_rings _) (by simpa [cancelEntry_mayWrite] using hmw)
      (by simp [cancelEntry_reg64]) hnew ha hheld
    refine ⟨_, rfl, ?_⟩
    rw [fetchCmdOp_cancels hr hm ha hk, cancelRun_cookie (by simpa using hen) hby, ← hcookie, hcancel]
    rw [ringFn_of hr] at hout
    exact ⟨by rw [finish_hlist]; exact cancelEntry_hlist (by simpa using hhub), hout⟩

end Sys2Proof.Machine
end

section
/-! Proof of O17: declarations submitted, withdrawn and read back, and PLACE_NOW. -/

namespace Sys2Proof.Machine

/-- A module that serves carries a declaration command out while its function runs no other (R108, R150). -/
theorem runDecl_served {fn cmd : Nat} {f : State → State} {s : State} (hq : s.lc.quar = 0)
    (hc : (s.fn fn).declCmd = 0 ∨ (s.fn fn).declCmd = cmd) : ifServed (runDecl fn cmd f) s = f s := by
  simp only [ifServed, hq, runDecl, hc, if_true]

/-- A command that has run leaves a trigger waiting (R179). -/
theorem trigger_waits {s : State} {t : Nat} : (trigger s t).ws.trigger.isSome = true := by
  unfold trigger
  rw [State.modWs_ws]
  cases s.ws.trigger <;> rfl

/-- A command's answer in DECLSTAT stands, whatever is put out and triggered after it (R153). -/
theorem declAnswer_fn {s : State} {fn r id t : Nat} {m : MirrorRec} (hs : s.shaped = true) (hf : fn < 64) :
    (trigger ((declDone s fn r id).mirror m) t).fn fn = { s.fn fn with declCmd := 0, declRes := r, declId := id } :=
  (congrArg (·.getD fn Fn.reset) State.mirror_fns).trans (declDone_fn hs hf)

/- ### SUBMIT -/

/-- A record that fails a check answers with the first that fails (R153). -/
theorem submitOp_refused {s : State} {fn : Nat} (h : submitCheck s fn (declBuf s fn) ≠ 1) :
    submitOp fn s = declDone s fn (submitCheck s fn (declBuf s fn)) 0 := by
  unfold submitOp
  exact if_pos h

/-- A POINT record that passes is entered at its handle, counts in DIRGEN and triggers a pass (R152, R156, R179). -/
theorem submitOp_point {s : State} {fn h : Nat} (hc : submitCheck s fn (declBuf s fn) = 1)
    (ht : rec64 (declBuf s fn) 0 0 8 = 2) (hh : newHandle s (declBuf s fn) = some h) : submitOp fn s =
      trigger ((declDone (trigger (dirChanged { s with points := amSet s.points h (pointOf fn h (declBuf s fn)) }) 0)
        fn 1 h).mirror (.declared 2 h fn (declBuf s fn))) 0 := by
  simp [submitOp, hc, ht, enterDecl, hh]

/- ### WITHDRAW -/

/-- A point nothing uses is withdrawn (R163). -/
theorem withdrawOp_point {s : State} {fn h : Nat} (hr : declRefused s = false) (hb : basinOff s fn = false)
    (ht : rec64 (declBuf s fn) 0 0 8 = 2) (hi : rec64 (declBuf s fn) 2 0 16 = h) (hn : declNamed s fn 2 h = 1)
    (hu : pointUsed s h = false) :
    withdrawOp fn s = trigger ((declDone (dropPoint s h) fn 1 h).mirror (.withdrawn 2 h)) 0 := by
  simp [withdrawOp, hr, hb, ht, hi, hn, hu]

/-- A subscription is withdrawn (R163). -/
theorem withdrawOp_sub {s : State} {fn id : Nat} (hr : declRefused s = false) (hb : basinOff s fn = false)
    (ht : rec64 (declBuf s fn) 0 0 8 = 4) (hi : rec64 (declBuf s fn) 2 0 16 = id) (hn : declNamed s fn 4 id = 1) :
    withdrawOp fn s = trigger ((declDone (dropSub s id) fn 1 id).mirror (.withdrawn 4 id)) 0 := by
  simp [withdrawOp, hr, hb, ht, hi, hn]

/- ### QUERY and PLACE_NOW -/

/-- A declaration of the function, or a pass it holds, is read back into the buffer (R59, R164). -/
theorem queryOp_named {s : State} {fn dt id : Nat} (hb : basinOff s fn = false)
    (ht : rec64 (declBuf s fn) 0 0 8 = dt) (hi : rec64 (declBuf s fn) 2 0 16 = id)
    (hn : declNamed s fn dt id = 1 ∨ (dt = 6 ∧ ∃ p, amGet s.ws.passes id = some p ∧ p.grantee = fn)) :
    queryOp fn s = declDone (setDeclBuf s fn (queryRec s dt id)) fn 1 id := by
  rcases hn with hn | ⟨rfl, p, hp, hg⟩
  · simp [queryOp, hb, ht, hi, hn]
  · simp [queryOp, hb, ht, hi, hp, hg]

/-- The declaration buffer reads as it was filled (R191). -/
theorem setDeclBuf_reg {s : State} {fn i : Nat} {ws : List Word} (h : i < ws.length) :
    (setDeclBuf s fn ws).reg (fn * 0x1000000 + 0x40000 + 4 * i) = ws[i] := by
  have hword := setWords_reg (base := fn * 0x1000000 + 0x40000) (k := 0) (s := s) h
  rwa [Nat.zero_add] at hword

/-- Filling the buffer touches neither points nor declarations. -/
theorem setDeclBuf_rest {s : State} {fn : Nat} {ws : List Word} :
    (setDeclBuf s fn ws).points = s.points ∧ (setDeclBuf s fn ws).ws = s.ws := by
  obtain ⟨m, hm⟩ := setDeclBuf_eq (fn := fn) (ws := ws) (s := s)
  rw [hm]
  exact ⟨rfl, rfl⟩

/-- PLACE_NOW of the physical function makes the next pass a rebalance (R150). -/
theorem placeNowOp_zero {s : State} (hr : declRefused s = false) :
    placeNowOp 0 s = declDone ((trigger s 2).modWs (fun w => { w with rebalance := true })) 0 1 0 := by
  simp [placeNowOp, hr]

/-- Settles O17: each command is its one change followed by its answer in DECLSTAT (`declAnswer_fn`). -/
theorem declarations : Obligations.Declarations := by
  refine ⟨fun s fn h hi hf hq hcmd hc ht hh => ?_, fun s fn hq hcmd hc => ?_,
    fun s fn h hi hf hq hcmd hr hb ht hid hn hu => ?_, fun s fn id hi hf hq hcmd hr hb ht hid hn => ?_,
    fun s fn dt id i hi hf hq hcmd hb ht hid hn hlen => ?_, fun s hi hq hcmd hr => ?_⟩
  · obtain ⟨_, hshape⟩ := hi
    refine ⟨_, rfl, ?_⟩
    rw [runDecl_served hq hcmd, submitOp_point hc ht hh, declAnswer_fn (by exact hshape) hf]
    refine ⟨State.mirror_points, rfl, rfl, rfl, ?_, State.mirror_regs⟩
    exact congrArg Watershed.dirgen State.mirror_ws
  · exact congrArg _ ((runDecl_served hq hcmd).trans (submitOp_refused hc))
  · obtain ⟨_, hshape⟩ := (dropPoint_keeps (h := h) (State.Keeps.self hi)).inv
    refine ⟨_, rfl, ?_⟩
    rw [runDecl_served hq hcmd, withdrawOp_point hr hb ht hid hn hu, declAnswer_fn hshape hf]
    exact ⟨State.mirror_points.trans dropPoint_points, rfl, rfl⟩
  · obtain ⟨_, hshape⟩ := (dropSub_keeps (id := id) (State.Keeps.self hi)).inv
    refine ⟨_, rfl, ?_⟩
    rw [runDecl_served hq hcmd, withdrawOp_sub hr hb ht hid hn, declAnswer_fn hshape hf]
    exact ⟨congrArg Watershed.subs State.mirror_ws, rfl, State.mirror_points⟩
  · obtain ⟨hpoints, hws⟩ := setDeclBuf_rest (s := s) (fn := fn) (ws := queryRec s dt id)
    obtain ⟨_, hshape⟩ := (setDeclBuf_keeps (fn := fn) (ws := queryRec s dt id) (State.Keeps.self hi)).inv
    refine ⟨_, rfl, ?_⟩
    rw [runDecl_served hq hcmd, queryOp_named hb ht hid hn, declDone_fn hshape hf]
    exact ⟨setDeclBuf_reg hlen, rfl, rfl, hpoints, hws⟩
  · obtain ⟨_, hshape⟩ := hi
    refine ⟨_, rfl, ?_⟩
    rw [runDecl_served hq hcmd, placeNowOp_zero hr, declDone_fn (by exact hshape) (by decide)]
    exact ⟨rfl, trigger_waits, rfl, rfl, rfl⟩

end Sys2Proof.Machine
end

section
/-! Proofs of O7, O8 and O40: transactions built, committed, applied and rolled back. -/

namespace Sys2Proof.Machine

/-- A module that is not halted in QUARANTINE serves its commands (R108). -/
theorem ifServed_of {f : State → State} {s : State} (h : s.lc.quar = 0) : ifServed f s = f s := if_pos h

/- ### What putting things out, and the end of a transaction, leave of a context -/

/-- One thing put out for each of a list changes no transaction context. -/
theorem State.emits_txn {α : Type} {f : α → Emission} {l : List α} {s : State} {c : Nat} :
    (l.foldl (fun s a => s.emit (f a)) s).txn c = s.txn c :=
  State.foldl_same (State.txn · c) (f := fun s a => s.emit (f a)) (fun _ _ => rfl)

/-- One thing put out for each of a list changes no register. -/
theorem State.emits_regs {α : Type} {f : α → Emission} {l : List α} {s : State} :
    (l.foldl (fun s a => s.emit (f a)) s).regs = s.regs :=
  State.foldl_same State.regs (f := fun s a => s.emit (f a)) (fun _ _ => rfl)

/-- Counting the identifiers on changes no transaction context. -/
@[simp] theorem State.txn_nextTxn {s : State} {n c : Nat} : State.txn { s with nextTxn := n } c = s.txn c := rfl

/-- A context whose transaction has ended with a result, no reset having been put off (R82, R84, R89). -/
def Txn.ended (t : Txn) (result : Nat) : Txn :=
  { t with state := .idle, result := result, staged := [], waitPrep := [], goSent := false, waitGo := [], applied := [],
           parts := [] }

theorem endTxn_ended {s : State} {c r : Nat} (hc : c < 64) (h : (s.txn c).resetAfter = false) :
    (endTxn s c r).txn c = (s.txn c).ended r := by
  rw [endTxn_txn hc, h]
  rfl

theorem abortTxn_ended {s : State} {c r : Nat} (hc : c < 64) (h : (s.txn c).resetAfter = false) :
    (abortTxn s c r).txn c = (s.txn c).ended r := by
  rw [abortTxn_txn hc, h]
  rfl

/-- Reset put off or not, a context whose transaction ends is idle with an empty shadow (R89, R107). -/
theorem endTxn_idle {s : State} {c r : Nat} (hc : c < 64) :
    ((endTxn s c r).txn c).state = .idle ∧ ((endTxn s c r).txn c).staged = [] := by
  rw [endTxn_txn hc]
  cases (s.txn c).resetAfter <;> exact ⟨rfl, rfl⟩

/- ### BEGIN, STAGED_WRITE and ROLLBACK -/

/-- BEGIN opens an idle context whose scope the function may name, with the next identifier (R77). -/
theorem beginOp_opens {s : State} {fn : Nat} (hr : s.txnRefused = false) (hi : (s.txn fn).state = .idle)
    (hs : scopeOk s fn (fld (s.regF fn 0x10004) 0 16) = true) :
    beginOp fn s = { s.modTxn fn (fun _ => { Txn.reset with
      state := .opened, id := s.nextTxn, scope := fld (s.regF fn 0x10004) 0 16 }) with
        nextTxn := (s.nextTxn + 1) % 2 ^ 32 } := by
  simp [beginOp, hr, hi, hs]

/-- BEGIN while a transaction is open is BUSY (R76, R77). -/
theorem beginOp_busy {s : State} {fn : Nat} (hr : s.txnRefused = false) (hi : (s.txn fn).state ≠ .idle) :
    beginOp fn s = s.modTxn fn (fun t => { t with result := 13 }) := by
  simp [beginOp, hr, hi]

/-- A whole word of a register not yet staged becomes the shadow's last entry, while the shadow has room (R78). -/
theorem stageWord_new {s : State} {fn key : Nat} {w : Word} (hn : ∀ e ∈ (s.txn fn).staged, e.key ≠ key)
    (hl : (s.txn fn).staged.length < 4096) : stageWord s fn key 15 w =
      s.modTxn fn (fun t => { t with staged := t.staged ++ [{ key := key, be := 15, data := w }] }) := by
  have hany : (s.txn fn).staged.any (fun e => e.key == key) = false := by simpa using hn
  simp only [stageWord, hany, Nat.not_le.mpr hl, beMerge_all, Bool.false_eq_true, if_false]

/-- An access of up to a word at a word's offset crosses no 8-byte boundary (R70). -/
theorem accessOk_aligned {off len : Nat} (h : off % 4 = 0) (h1 : 1 ≤ len) (h4 : len ≤ 4) : accessOk off len = true := by
  simp only [accessOk, Bool.and_eq_true, decide_eq_true_eq]
  omega

/-- A write of one word that reaches a register the open transaction stages (R75, R78). -/
theorem stagedWrite_stages {s : State} {fn off a : Nat} {data : BitVec 64} (he : s.fnEn fn = true)
    (hm : (s.fn fn).mse = true) (ho : off % 4 = 0) (hv : viewOffset fn off = some a) (hw : writeReaches s fn a = true)
    (hs : stages s fn a = true) :
    memWriteOp fn off 4 data (stagedWord fn) s = stageWord s fn a 15 (data.setWidth 32) := by
  rw [memWrite_run he hm (accessOk_aligned ho (by decide) (by decide)), accessWords_word ho]
  simp [stagedWord, hv, hw, hs]

/-- What is staged is staged in an open transaction (R78). -/
theorem opened_of_stages {s : State} {fn a : Nat} (h : stages s fn a = true) : (s.txn fn).state = .opened := by
  simp only [stages, Bool.and_eq_true, decide_eq_true_eq] at h
  obtain ⟨⟨hopen, _⟩, _⟩ := h
  exact hopen

/-- ROLLBACK up to T − 100 µs, before GO, ends the transaction: the shadow goes, the registers stay (R84). -/
theorem rollbackOp_ended {s : State} {fn : Nat} (hf : fn < 64) (hr : s.txnRefused = false)
    (ha : (s.txn fn).resetAfter = false) (hg : (s.txn fn).goSent = false) (hi : (s.txn fn).state ≠ .idle)
    (hp : (s.txn fn).state = .pending → s.time.now + 100000 < (s.txn fn).apply) :
    (rollbackOp fn s).txn fn = (s.txn fn).ended 2 ∧ (rollbackOp fn s).regs = s.regs := by
  have hlate : ¬((s.txn fn).state = .pending ∧ (s.txn fn).apply ≤ s.time.now + 100000) :=
    fun h => Nat.not_le.mpr (hp h.1) h.2
  have hop : rollbackOp fn s = if (s.txn fn).state = .opened then endTxn s fn 2 else abortTxn s fn 2 := by
    simp [rollbackOp, hr, hi, hg, hlate]
  rw [hop]
  split
  · exact ⟨endTxn_ended hf ha, endTxn_regs hf⟩
  · exact ⟨abortTxn_ended hf ha, abortTxn_regs hf⟩

/-- ROLLBACK from T − 100 µs on, or after GO, is TOO_LATE (R82, R84). -/
theorem rollbackOp_late {s : State} {fn : Nat} (hr : s.txnRefused = false) (hi : (s.txn fn).state ≠ .idle)
    (hl : (s.txn fn).goSent = true ∨ ((s.txn fn).state = .pending ∧ (s.txn fn).apply ≤ s.time.now + 100000)) :
    rollbackOp fn s = s.modTxn fn (fun t => { t with result := 11 }) := by
  simp only [rollbackOp, hr, Bool.false_or, decide_eq_true_eq, hi, if_false, hl, if_true]

/-- Settles O7: each command is its one change of the function's context. -/
theorem transactionBuilt : Obligations.TransactionBuilt := by
  refine ⟨fun s fn hq hr hi hs => ?_, fun s fn hq hr hi => ?_, fun s fn off a data he hm ho hv hw hs hn hl => ?_,
    fun s fn hf hq hr ho hg ha => ?_⟩
  · refine ⟨_, rfl, ?_⟩
    rw [ifServed_of hq, beginOp_opens hr hi hs]
    simp only [State.txn_nextTxn, State.modTxn_txn_self, true_and]
    exact ⟨rfl, rfl, rfl, fun c hc => State.modTxn_txn_ne hc⟩
  · refine ⟨_, rfl, ?_⟩
    rw [ifServed_of hq, beginOp_busy hr hi]
    exact ⟨State.modTxn_txn_self, rfl⟩
  · refine ⟨_, rfl, ?_⟩
    rw [stagedWrite_stages he hm ho hv hw hs, stageWord_new hn hl, State.modTxn_txn_self]
    exact ⟨rfl, opened_of_stages hs, rfl, rfl, fun c hc => State.modTxn_txn_ne hc⟩
  · obtain ⟨htxn, hregs⟩ := rollbackOp_ended hf hr ha hg (by simp [ho]) (by simp [ho])
    refine ⟨_, rfl, ?_⟩
    rw [ifServed_of hq, htxn]
    exact ⟨rfl, rfl, rfl, rfl, hregs⟩

/-- Settles O40: the window is the one test ROLLBACK makes. -/
theorem rollbackWindow : Obligations.RollbackWindow := by
  refine ⟨fun s fn hf hq hr ha hg hst => ?_, fun s fn hf hq hr hi hl => ?_⟩
  · have hidle : (s.txn fn).state ≠ .idle := by
      rcases hst with h | h | ⟨h, _⟩ <;> simp [h]
    have hahead : (s.txn fn).state = .pending → s.time.now + 100000 < (s.txn fn).apply := by
      intro hp
      rcases hst with h | h | ⟨_, h⟩
      · simp [h] at hp
      · simp [h] at hp
      · exact h
    obtain ⟨htxn, hregs⟩ := rollbackOp_ended hf hr ha hg hidle hahead
    refine ⟨_, rfl, ?_⟩
    rw [ifServed_of hq, htxn]
    exact ⟨rfl, rfl, rfl, hregs⟩
  · refine ⟨_, rfl, ?_⟩
    rw [ifServed_of hq, rollbackOp_late hr hi hl]
    exact ⟨State.modTxn_txn_self, rfl, fun c hc => State.modTxn_txn_ne hc⟩

/- ### COMMIT and preparation -/

/-- A commit that passes its checks is prepared in every part of its scope and in the hub (R79, R81, R82). -/
theorem commitOp_prepares {s : State} {fn : Nat} {isAt : Bool} (hr : s.txnRefused = false)
    (ho : (s.txn fn).state = .opened) (hc : commitCheck s fn isAt = 0) :
    (commitOp fn isAt s).txn fn = { s.txn fn with
        state := .preparing, isAt := isAt, apply := if isAt then commitInstant s fn else 0,
        waitPrep := (s.txn fn).channels ++ [8], goSent := false, waitGo := [] } ∧
      (commitOp fn isAt s).out = s.out ++ ((s.txn fn).channels ++ [8]).map (fun n => .shadow fn n) ∧
      (commitOp fn isAt s).regs = s.regs := by
  simp only [commitOp, hr, ho, hc, ne_eq, not_true_eq_false, decide_false, Bool.or_self, Bool.false_eq_true, if_false]
  exact ⟨State.emits_txn.trans State.modTxn_txn_self, State.emits_out, State.emits_regs⟩

/-- The last acknowledgement makes the transaction PENDING, at the instant asked for or 250 µs ahead (R81, R82). -/
theorem prepareAckOp_last {s : State} {c ch : Nat} (hp : (s.txn c).state = .preparing)
    (hw : (s.txn c).waitPrep = [ch]) :
    (prepareAckOp c ch s).txn c = { s.txn c with
        waitPrep := [], state := .pending,
        apply := if (s.txn c).isAt then (s.txn c).apply else ceilSample (s.time.now + 250000) } ∧
      (prepareAckOp c ch s).regs = s.regs := by
  simp only [prepareAckOp, hp, hw, List.contains_cons, beq_self_eq_true, Bool.true_or, and_self, if_true,
    List.filter_cons, Bool.not_true, Bool.false_eq_true, if_false, List.filter_nil, List.isEmpty_nil]
  exact ⟨(State.txn_congr State.mirror_txns c).trans State.modTxn_txn_self, State.mirror_regs⟩

/-- TXN_PREP_TIMEOUT of a transaction in preparation aborts it (R82). -/
theorem prepTimeoutOp_preparing {s : State} {c : Nat} (hp : (s.txn c).state = .preparing) :
    prepTimeoutOp c s = abortTxn s c 10 := if_pos hp

/- ### GO and its acknowledgements -/

/-- From T − 100 µs on GO goes to every channel of the scope (R82). -/
theorem goOp_due {s : State} {c : Nat} (hp : (s.txn c).state = .pending) (hg : (s.txn c).goSent = false)
    (ht : (s.txn c).apply ≤ s.time.now + 100000) :
    (goOp c s).txn c = { s.txn c with goSent := true, waitGo := (s.txn c).channels } ∧
      (goOp c s).out = s.out ++ (s.txn c).channels.map (fun n => .go c n) ∧ (goOp c s).regs = s.regs := by
  have hdue : (s.txn c).state = .pending ∧ (!(s.txn c).goSent) = true ∧ (s.txn c).apply ≤ s.time.now + 100000 :=
    ⟨hp, by rw [hg]; rfl, ht⟩
  simp only [goOp, if_pos hdue]
  exact ⟨State.emits_txn.trans State.modTxn_txn_self, State.emits_out, State.emits_regs⟩

/-- GO_ACK takes the channel off the list (R82). -/
theorem goAckOp_sent {s : State} {c ch : Nat} (hg : (s.txn c).goSent = true) : goAckOp c ch s =
    s.modTxn c (fun t => { t with waitGo := t.waitGo.filter (fun n => !(n == ch)) }) := if_pos hg

/-- TXN_GO_DEADLINE with an acknowledgement missing aborts the transaction (R82). -/
theorem goDeadlineOp_missing {s : State} {c : Nat} (hp : (s.txn c).state = .pending) (hg : (s.txn c).goSent = true)
    (hw : (s.txn c).waitGo ≠ []) : goDeadlineOp c s = abortTxn s c 10 := if_pos ⟨hp, hg, hw⟩

/- ### The apply instant -/

/-- The state once every part of transaction `c` whose time has come has applied its staged writes in order (R80). -/
def dueApplied (s : State) (c : Nat) : State :=
  ((s.txn c).staged.filter (fun e => (partsDue s (s.txn c)).contains (stagedPart e.key))).foldl (applyStaged c) s

/-- The state once the last part has applied: every open transaction knows the keys, for the conflict rule (R80, R85). -/
def lastApplied (s : State) (c : Nat) : State :=
  { dueApplied s c with
    txns := (dueApplied s c).txns.map (fun (p : Nat × Txn) =>
      if p.1 ≠ c ∧ p.2.state = .opened then (p.1, { p.2 with applied := p.2.applied ++ (s.txn c).staged.map (·.key) })
      else p)
    lastTxn := (s.txn c).id }

/-- A part of the scope has not applied and its time has not come (R80). -/
def partLeft (s : State) (t : Txn) : Bool :=
  (t.channels ++ [8]).any (fun n => !t.parts.contains n && !(partsDue s t).contains n)

theorem partLeft_iff {s : State} {t : Txn} :
    partLeft s t = true ↔ ∃ n ∈ t.channels ++ [8], n ∉ t.parts ∧ n ∉ partsDue s t := by
  simp only [partLeft, List.any_eq_true, Bool.and_eq_true, Bool.not_eq_true', List.contains_eq_mem,
    decide_eq_false_iff_not]

/-- TXN_APPLY of a function's transaction with a part due and every acknowledgement: with a part left over the context
remembers the parts that have applied, with none the transaction ends (R80, R85). -/
theorem txnApplyOp_due {s : State} {c : Nat} (hc : c < 64) (hp : (s.txn c).state = .pending)
    (hd : partsDue s (s.txn c) ≠ []) (hw : (s.txn c).waitGo = [])
    (hg : (s.txn c).goSent = true ∨ (s.txn c).channels = []) :
    txnApplyOp c s =
      if partLeft s (s.txn c) then
        (dueApplied s c).modTxn c (fun x => { x with parts := x.parts ++ partsDue s (s.txn c) })
      else endTxn (lastApplied s c) c 1 := by
  have hctx : c ≠ 64 := by omega
  have hgo : (!(s.txn c).goSent && !(s.txn c).channels.isEmpty) = false := by
    rcases hg with h | h <;> simp [h]
  simp only [txnApplyOp, hp, hctx, hc, hw, hgo, List.isEmpty_iff, hd, ne_eq, not_true_eq_false, not_false_eq_true,
    or_self, if_false, if_true, true_and, Bool.false_eq_true]
  rfl

/-- Settles O8: every step of the protocol is one change of the context, and TXN_APPLY has the two cases of
`txnApplyOp_due`. -/
theorem transactionCommitted : Obligations.TransactionCommitted := by
  refine ⟨fun s fn hq hr ho hc => ?_, fun s fn hq hr ho hc => ?_, fun s c ch hp hw => ?_, fun s c hc hp ha => ?_,
    fun s c hp hg ht => ?_, fun s c ch hg => ?_, fun s c hc hp hg hw ha => ?_, fun s c hc hp hd hw hg => ?_⟩
  · obtain ⟨htxn, hout, hregs⟩ := commitOp_prepares hr ho hc
    refine ⟨_, rfl, ?_⟩
    rw [ifServed_of hq, htxn]
    exact ⟨rfl, rfl, rfl, rfl, hout, hregs⟩
  · obtain ⟨htxn, hout, hregs⟩ := commitOp_prepares hr ho hc
    refine ⟨_, rfl, ?_⟩
    rw [ifServed_of hq, htxn]
    exact ⟨rfl, rfl, rfl, rfl, hout, hregs⟩
  · obtain ⟨htxn, hregs⟩ := prepareAckOp_last hp hw
    refine ⟨_, rfl, ?_⟩
    rw [htxn]
    exact ⟨rfl, rfl, rfl, rfl, hregs⟩
  · refine ⟨_, rfl, ?_⟩
    rw [prepTimeoutOp_preparing hp, abortTxn_ended hc ha]
    exact ⟨rfl, rfl, rfl⟩
  · obtain ⟨htxn, hout, hregs⟩ := goOp_due hp hg ht
    refine ⟨_, rfl, ?_⟩
    rw [htxn]
    exact ⟨rfl, rfl, hout, hregs⟩
  · refine ⟨_, rfl, ?_⟩
    rw [goAckOp_sent hg, State.modTxn_txn_self]
    exact ⟨rfl, rfl, rfl⟩
  · refine ⟨_, rfl, ?_⟩
    rw [goDeadlineOp_missing hp hg hw, abortTxn_ended hc ha]
    exact ⟨rfl, rfl, rfl⟩
  · refine ⟨_, rfl, ?_⟩
    rw [txnApplyOp_due hc hp hd hw hg]
    split
    next hrest =>
      refine ⟨fun k => rfl, fun hall => ?_, fun _ _ _ _ => rfl⟩
      obtain ⟨n, hn, hnp, hnd⟩ := partLeft_iff.mp hrest
      exact absurd (hall n hn) (not_or.mpr ⟨hnp, hnd⟩)
    next hnone =>
      refine ⟨fun k => State.reg_congr (endTxn_regs hc) k, fun _ => ?_, fun n hn hnp hnd => ?_⟩
      · obtain ⟨hidle, hempty⟩ := endTxn_idle (r := 1) hc
        exact ⟨hidle, hempty, endTxn_lastTxn hc⟩
      · exact absurd (partLeft_iff.mpr ⟨n, hn, hnp, hnd⟩) hnone

end Sys2Proof.Machine
end

section
/-! Proof of O54: direct register writes, latching reads and requests that are none. -/

namespace Sys2Proof.Machine

/- ### The mirror record of a write -/

/-- A mirror record changes the pair's count of records only (R408). -/
theorem State.mirror_pair {s : State} {r : MirrorRec} :
    (s.mirror r).pair = { s.pair with mirSeq := (s.mirror r).pair.mirSeq } := by
  unfold State.mirror
  split <;> rfl

/-- Without a partner that follows nothing leaves (R408). -/
theorem State.mirror_alone {s : State} {r : MirrorRec} (h : s.mirrors = false) : s.mirror r = s := by
  simp [State.mirror, h]

/-- Whether records leave does not depend on the registers. -/
theorem State.setReg_mirrors {s : State} {k : Nat} {w : Word} : (s.setReg k w).mirrors = s.mirrors := by
  simp [State.mirrors]

/-- The registers, and what leaves, after a register has been stored and mirrored (R70, R88). -/
theorem storedMirrored {s : State} {k : Nat} {w : Word} {r : MirrorRec} :
    ((s.setReg k w).mirror r).reg k = w ∧ (∀ j, j ≠ k → ((s.setReg k w).mirror r).reg j = s.reg j) ∧
      (s.mirrors = false → ((s.setReg k w).mirror r).out = s.out) := by
  refine ⟨State.mirror_reg.trans State.reg_setReg_self, fun j hj => State.mirror_reg.trans (State.reg_setReg_ne hj),
    fun h => ?_⟩
  rw [State.mirror_alone (State.setReg_mirrors.trans h), State.setReg_out]

/- ### Requests that are none -/

/-- A function without Memory Space Enable, and an access against R70, are not served. -/
theorem not_served {s : State} {fn off len : Nat} (h : (s.fn fn).mse = false ∨ len = 0 ∨ 8 < off % 8 + len) :
    (s.fn fn).mse = false ∨ accessOk off len = false := h.imp_right accessOk_not

/-- An expert register takes no direct write (R72). -/
theorem bar0Word_expert {s : State} {off : Nat} {be : BitVec 4} {w : Word} (he : isExpert off = true)
    (ht : (s.txn 0).state ≠ .opened) : bar0Word 0 off be w s = s := by
  have hstage : stages s 0 off = false := by simp [stages, ht]
  simp [bar0Word, viewOffset, hstage, he]

/- ### Reads -/

/-- A read of one word (R9, R70). -/
theorem readWords_word {off : Nat} (h : off % 4 = 0) : readWords off 4 = [(off, 15)] := by
  simp only [readWords, accessWords_word h, List.map_cons, List.map_nil]

/-- A read of every byte gives the whole word (R70). -/
theorem and_beMask_all {w : Word} : w &&& beMask 15 = w := by
  rw [show beMask 15 = BitVec.allOnes 32 by decide, BitVec.and_allOnes]

/-- A read of one word of the hub's map by the physical function, the directory window apart: the word is put out and its
companions are latched at the same instant (R9, R194). -/
theorem latchingRead_hub {s : State} {off : Nat} (he : s.fnEn 0 = true) (hm : (s.fn 0).mse = true)
    (hq : s.lc.quar = 0) (h4 : off % 4 = 0) (hoff : off < 0x80000) :
    exec (.latchingRead 0 off .bar0 4) s =
      .next ((latchHub off s.tick1).emit (.readData 0 off (readHub s.tick1 0 off))) := by
  have hlatch : latchAt off s.tick1 = latchHub off s.tick1 := by
    unfold latchAt
    rw [if_neg (by simp [hq]), if_neg (by omega), if_pos (by omega)]
  have hread : readMap s.tick1 0 off = readHub s.tick1 0 off := by
    unfold readMap
    rw [if_neg (by omega), if_neg (by simp [hq]), if_neg (by omega), if_pos (by omega)]
  have hrun : exec (.latchingRead 0 off .bar0 4) s = .next (memReadOp 0 off 4 (bar0Read 0) s) := rfl
  rw [hrun, memRead_run he hm (accessOk_aligned h4 (by decide) (by decide)), readWords_word h4]
  simp only [List.foldl_cons, List.foldl_nil, bar0Read, readOffset, if_true, if_neg (show off ≠ 0xB0010 by omega),
    hlatch, hread,
    and_beMask_all]

/-- Settles O54: a write is `write_join`'s one stored word, a read is `latchingRead_hub`. -/
theorem registerAccess : Obligations.RegisterAccess := by
  refine ⟨fun s n data hn he hm hr ht => ?_, fun s n data hn he hm hr ht => ?_, fun s fn off len data he h => ?_,
    fun s off be w he ht => bar0Word_expert he ht, fun s he hm hq => ?_, fun s he hm hq => ?_,
    fun s fn off len he h => ?_⟩
  · obtain ⟨w, hrun, hw⟩ := write_join hn he hm hr ht (accessOk_aligned (by omega) (by decide) (by decide))
      (accessWords_four (data := data) (by omega))
    obtain ⟨hself, hothers, hout⟩ := storedMirrored (s := s) (k := 0x80020 + 4 * n) (w := w)
      (r := .register (0x80020 + 4 * n) w)
    refine ⟨_, hrun, hself.trans (hw.trans join_four), hothers, ?_, ?_, ?_, ?_, ?_, hout⟩
    · rw [State.mirror_time, State.setReg_time]
    · rw [State.mirror_pair, State.setReg_pair]
    · rw [State.mirror_chs, State.setReg_chs]
    · rw [State.mirror_ws, State.setReg_ws]
    · rw [State.mirror_txns, State.setReg_txns]
  · obtain ⟨w, hrun, hw⟩ := write_join hn he hm hr ht (accessOk_aligned (by omega) (by decide) (by decide))
      (accessWords_one (data := data) (by omega))
    obtain ⟨hself, hothers, hout⟩ := storedMirrored (s := s) (k := 0x80020 + 4 * n) (w := w)
      (r := .register (0x80020 + 4 * n) w)
    exact ⟨_, hrun, hself.trans (hw.trans join_one), hothers, hout⟩
  · exact congrArg _ (memWrite_refused he (not_served h))
  · exact ⟨_, latchingRead_hub he hm hq (by decide) (by decide), rfl, rfl, amGet_amSet_self⟩
  · exact ⟨_, latchingRead_hub he hm hq (by decide) (by decide), rfl, rfl, rfl, rfl, rfl⟩
  · exact congrArg _ (memRead_refused he (not_served h))

end Sys2Proof.Machine
end

section
/-! Proofs of O9, O10 and O11: the host port comes up, functions are reset, bus mastering and the masks of vectors. -/

namespace Sys2Proof.Machine

/-- A function answers configuration requests when it exists, the endpoint is up and no FLR of it runs (R103, R104). -/
theorem State.cfgReady_iff {s : State} {b : Nat} : s.cfgReady b = true ↔
    s.fnEn b = true ∧ s.host.perst = false ∧ s.pwr.vinGood = true ∧ s.host.ready = true ∧
      (s.fn b).flrBusy = false := by
  simp only [State.cfgReady, Bool.and_eq_true, Bool.not_eq_true', and_assoc]

/- ### What a waiting trigger leaves (R179) -/

theorem trigger_fn {s : State} {t n : Nat} : (trigger s t).fn n = s.fn n := rfl

theorem trigger_ring {s : State} {t k : Nat} : (trigger s t).ring k = s.ring k := rfl

theorem trigger_points {s : State} {t : Nat} : (trigger s t).points = s.points := rfl

theorem trigger_loops {s : State} {t : Nat} : (trigger s t).ws.loops = s.ws.loops := rfl

theorem trigger_passes {s : State} {t : Nat} : (trigger s t).ws.passes = s.ws.passes := rfl

theorem trigger_assigns {s : State} {t : Nat} : (trigger s t).ws.assigns = s.ws.assigns := rfl

/- ### The host port comes up -/

/-- ENDPOINT_READY with PERST_N released and VIN good (R103, R430). -/
theorem endpointReadyOp_up {s : State} (hp : s.host.perst = false) (hv : s.pwr.vinGood = true) :
    (endpointReadyOp s).host = { s.host with ready := true } ∧
      (endpointReadyOp s).pwr.state = if s.pwr.state = 0 then 1 else s.pwr.state := by
  simp only [endpointReadyOp, hp, hv, Bool.not_true, Bool.or_self, Bool.false_eq_true, if_false]
  split
  · exact ⟨rfl, rfl⟩
  · exact ⟨rfl, rfl⟩

/-- PCIE_LINK_UP with a partner that has a rate and a lane (R90, R112). -/
theorem pcieLinkUpOp_trained {s : State} {speed width : Nat} (hp : s.host.perst = false) (hv : s.pwr.vinGood = true)
    (hs : 1 ≤ speed) (hw : 1 ≤ width) : pcieLinkUpOp speed width s = { s with host := { s.host with
      speed := min 3 speed, width := commonWidth width,
      upCnt := if s.host.speed = 0 then satInc 255 s.host.upCnt else s.host.upCnt } } := by
  have hs0 : speed ≠ 0 := by omega
  have hw0 : width ≠ 0 := by omega
  simp [pcieLinkUpOp, hp, hv, hs0, hw0]

/-- With VF Enable 0, on a module that offers its virtual functions, NumVFs and VF Enable are taken (R94). -/
theorem vfEnableOp_off {s : State} {en : Bool} {num : Nat} (hv : s.host.vfEnable = false) (hq : s.lc.quar = 0)
    (hl : s.lc.state ≠ 5) (hn : num ≤ 63) :
    vfEnableOp en num s = { s with host := { s.host with vfEnable := en, numVfs := num } } := by
  have hoffered : s.noVfs = false := by simp [State.noVfs, hq, hl]
  simp [vfEnableOp, hv, hoffered, Nat.not_lt.mpr hn]

/-- Clearing VF Enable resets the virtual functions and keeps NumVFs (R94). -/
theorem vfEnableOp_clear {s : State} {num : Nat} (hv : s.host.vfEnable = true) :
    vfEnableOp false num s =
      trigger { vfsOff s with host := { (vfsOff s).host with numVfs := s.host.numVfs } } 1 := by
  simp [vfEnableOp, hv]

/-- Settles O9: each command is its one change of the host port, under the guard it is taken with. -/
theorem hostPortUp : Obligations.HostPortUp := by
  refine ⟨fun s => rfl, fun s hp hv => ⟨_, rfl, endpointReadyOp_up hp hv⟩,
    fun s speed width hp hv hs hw => congrArg _ (pcieLinkUpOp_trained hp hv hs hw), fun s above => rfl,
    fun s en num hr hv hq hl hn => congrArg _ ((ifConfig_ready hr).trans (vfEnableOp_off hv hq hl hn)),
    fun s num hr hv => ?_,
    fun s en num hp hv hr => congrArg _ (ifConfig_retry rfl hp hv (.inl hr))⟩
  refine ⟨_, rfl, ?_⟩
  rw [ifConfig_ready hr, vfEnableOp_clear hv]
  exact ⟨rfl, rfl⟩

/- ### Function resets -/

/-- FLR of a virtual function that is ready resets it and triggers a pass (R104). -/
theorem flrOp_ready {s : State} {b : Nat} (hb : b ≠ 0) (hr : s.cfgReady b = true) :
    flrOp b s = trigger (fnReset s b true) 1 := by
  obtain ⟨hen, -, -, -, hbusy⟩ := State.cfgReady_iff.mp hr
  simp [flrOp, hb, hen, hbusy]

/-- PF_FLR of a function 0 that is ready resets it with every virtual function (R105). -/
theorem pfFlrOp_ready {s : State} (hr : s.cfgReady 0 = true) : pfFlrOp s = pfReset s true := by
  obtain ⟨-, -, -, -, hbusy⟩ := State.cfgReady_iff.mp hr
  simp [pfFlrOp, hbusy]

/-- A reset function is disabled: no DMA, no memory space, no MSI-X, an empty table; an FLR goes on (R104). -/
theorem fnReset_disabled {s : State} {b : Nat} {busy : Bool} (hi : s.Inv) (hb : b < 64) :
    ((fnReset s b busy).fn b).flrBusy = busy ∧ ((fnReset s b busy).fn b).bme = false ∧
      ((fnReset s b busy).fn b).mse = false ∧ ((fnReset s b busy).fn b).msixEn = false ∧
      ((fnReset s b busy).fn b).table = [] := by
  obtain ⟨g, hg⟩ := fnReset_fn (busy := busy) hi hb
  rw [hg]
  exact ⟨rfl, rfl, rfl, rfl, rfl⟩

/-- Function 0 and the points are as before where VF Enable, if it is set, is cleared (R105). -/
theorem vfsCleared_zero {s : State} (h : s.host.numVfs < 64) :
    (if s.host.vfEnable then vfsOff s else s).points = s.points ∧
      ((if s.host.vfEnable then vfsOff s else s).fn 0).bme = (s.fn 0).bme ∧
      ((if s.host.vfEnable then vfsOff s else s).fn 0).flrBusy = (s.fn 0).flrBusy ∧
      ∀ k, k / 16 = 0 → (if s.host.vfEnable then vfsOff s else s).ring k = s.ring k := by
  split
  · exact vfsOff_zero h
  · exact ⟨rfl, rfl, rfl, fun _ _ => rfl⟩

/-- What the reset of the physical function leaves in the host port: no virtual function, and no alert but QUARANTINE
(R105). -/
theorem pfReset_host {s : State} {busy : Bool} : ∃ h : HostPort,
    (pfReset s busy).host = { h with vfEnable := false, numVfs := 0, alert := h.alert &&& 1 } := ⟨_, rfl⟩

/-- The reset of the physical function closes the directory window (R105). -/
theorem pfReset_dirwin {s : State} {busy : Bool} : (pfReset s busy).reg 0x4F000 = 0 := State.reg_setReg_self

/-- Function 0 and the points after the reset of the physical function: the resets of the virtual functions that follow its
own touch neither (R105). -/
theorem pfReset_zero {s : State} {busy : Bool} (hi : s.Inv) (hn : s.host.numVfs < 64) :
    (pfReset s busy).points = s.points ∧ ((pfReset s busy).fn 0).flrBusy = busy ∧
      ((pfReset s busy).fn 0).bme = false ∧ ∀ k, k / 16 = 0 → (pfReset s busy).ring k = Ring.reset := by
  obtain ⟨hbusy, hbme, -, -, -⟩ := fnReset_disabled (busy := busy) hi (show 0 < 64 by decide)
  have hpoints : (fnReset s 0 busy).points = s.points := fnReset_points (by decide)
  have hring : ∀ k, k / 16 = 0 → (fnReset s 0 busy).ring k = Ring.reset := fun k hk =>
    (fnReset_ring (by decide)).trans (if_pos hk)
  have hlow : (fnReset s 0 busy).host.numVfs < 64 := by rwa [fnReset_host (by decide)]
  obtain ⟨hvpoints, hvbme, hvbusy, hvring⟩ := vfsCleared_zero hlow
  rw [hpoints] at hvpoints
  rw [hbusy] at hvbusy
  rw [hbme] at hvbme
  unfold pfReset
  dsimp only
  generalize (if (fnReset s 0 busy).host.vfEnable then vfsOff (fnReset s 0 busy) else fnReset s 0 busy) = u at *
  exact ⟨hvpoints, hvbusy, hvbme, fun k hk => (hvring k hk).trans (hring k hk)⟩

/-- HOST_PORT_RESET is the reset of the physical function with the link down; PERST_N asserted is noted (R106). -/
theorem hostPortResetOp_host {s : State} {cause : HostResetCause} :
    (hostPortResetOp cause s).host.vfEnable = false ∧ (hostPortResetOp cause s).host.speed = 0 ∧
      (hostPortResetOp cause s).host.width = 0 ∧
      (cause = .perst → (hostPortResetOp cause s).host.perst = true ∧ (hostPortResetOp cause s).host.ready = false) := by
  obtain ⟨h, hh⟩ := pfReset_host (s := s) (busy := false)
  unfold hostPortResetOp
  dsimp only
  split
  · rw [State.alert_host]
    simp +contextual [hh]
  · simp +contextual [hh]

/-- HOST_PORT_RESET leaves points and function 0 as the reset of the physical function does (R106). -/
theorem hostPortResetOp_rest {s : State} {cause : HostResetCause} :
    (hostPortResetOp cause s).points = (pfReset s false).points ∧
      ((hostPortResetOp cause s).fn 0).bme = ((pfReset s false).fn 0).bme := by
  unfold hostPortResetOp
  dsimp only
  split
  · exact ⟨State.alert_points, State.bme_of_modes State.alert_modes 0⟩
  · exact ⟨rfl, rfl⟩

/-- Settles O10: each reset is `fnReset` of its function, or `pfReset`. -/
theorem functionResets : Obligations.FunctionResets := by
  refine ⟨fun s b hi h1 hb hr => ?_, fun s fn hs hf => ?_, fun s hi hn hr => ?_, fun s cause hi hn => ?_⟩
  · obtain ⟨hbusy, hbme, hmse, hmsix, htable⟩ := fnReset_disabled (busy := true) hi hb
    have hws := fnReset_ws (s := s) (busy := true) hb
    refine ⟨_, rfl, ?_⟩
    rw [ifConfig_ready hr, flrOp_ready (by omega) hr]
    rw [trigger_fn, trigger_points, trigger_loops, trigger_passes, trigger_assigns, hws]
    refine ⟨hbusy, hbme, hmse, hmsix, htable, fun r hlt => ?_, fun k hk => ?_, fnReset_points hb, rfl, rfl, rfl⟩
    · rw [trigger_ring, fnReset_ring hb, if_pos (by omega)]
      rfl
    · rw [trigger_ring, fnReset_ring hb, if_neg hk]
  · exact ⟨_, rfl, State.modFn_fn_self (State.lt_fns hs hf), fun c hc => State.modFn_fn_ne hc, rfl⟩
  · obtain ⟨h, hh⟩ := pfReset_host (s := s) (busy := true)
    obtain ⟨hpoints, hbusy, hbme, hring⟩ := pfReset_zero (busy := true) hi hn
    refine ⟨_, rfl, ?_⟩
    rw [ifConfig_ready hr, pfFlrOp_ready hr, hh]
    refine ⟨hbusy, hbme, rfl, rfl, pfReset_dirwin, ?_, fun r hlt => ?_, hpoints⟩
    · rw [BitVec.and_assoc]
      exact BitVec.and_zero
    · rw [hring r (by omega)]
      rfl
  · obtain ⟨hpoints, -, hbme, -⟩ := pfReset_zero (busy := false) hi hn
    obtain ⟨hkeep, hfn⟩ := hostPortResetOp_rest (s := s) (cause := cause)
    obtain ⟨hvf, hspeed, hwidth, hperst⟩ := hostPortResetOp_host (s := s) (cause := cause)
    exact ⟨_, rfl, hfn.trans hbme, hvf, hspeed, hwidth, hperst, hkeep.trans hpoints⟩

/- ### Bus mastering and MSI-X -/

/-- BUS_MASTER_CHANGE of a function that exists: what then goes out leaves every function's configuration (R95, R529). -/
theorem busMasterOp_modes {s : State} {b : Nat} {bme d3hot : Bool} (he : s.fnEn b = true) :
    (busMasterOp b bme d3hot s).modes = (s.modFn b (fun f => { f with bme := bme, d3hot := d3hot })).modes := by
  unfold busMasterOp
  rw [if_neg (by simp [he])]
  exact State.modes_ite dmaResumes_modes rfl

/-- The function as MSIX_UNMASK leaves it (R99). -/
def Fn.unmask (f : Fn) : Option Nat → Fn
  | some v => { f with table := amSet f.table v { f.entry v with masked := false } }
  | none => { f with fmask := false }

/-- MSIX_UNMASK: the vectors then sent leave every function's configuration (R99). -/
theorem msixUnmaskOp_modes {s : State} {b : Nat} {v : Option Nat} :
    (msixUnmaskOp b v s).modes = (s.modFn b (fun f => f.unmask v)).modes := by
  cases v
  · exact State.modes_ite sendPending_modes rfl
  · exact State.modes_ite sendPending_modes rfl

/-- The unmasked vector's entry has its mask cleared; the other entries stay (R99). -/
theorem Fn.unmask_entry {f : Fn} {v : Nat} : (f.unmask (some v)).entry v = { f.entry v with masked := false } ∧
    ∀ w, w ≠ v → (f.unmask (some v)).entry w = f.entry w := by
  refine ⟨?_, fun w hw => ?_⟩
  · simp [Fn.entry, Fn.unmask]
  · simp [Fn.entry, Fn.unmask, amGet_amSet_ne hw]

/-- An entry is read from the function's table. -/
theorem Fn.entry_congr {f g : Fn} (h : f.table = g.table) (v : Nat) : f.entry v = g.entry v := by
  simp only [Fn.entry, h]

/-- Settles O11: the command is its one change of the function, and what goes out after it changes no configuration. -/
theorem busMasteringAndMsix : Obligations.BusMasteringAndMsix := by
  refine ⟨fun s b bme d3hot hs hb hr => ?_, fun s b v hs hb => ?_, fun s b hs hb => ?_⟩
  · obtain ⟨hen, -⟩ := State.cfgReady_iff.mp hr
    have hm := busMasterOp_modes (bme := bme) (d3hot := d3hot) hen
    refine ⟨_, rfl, ?_⟩
    rw [ifConfig_ready hr, State.bme_of_modes hm, State.d3hot_of_modes hm, State.mse_of_modes hm,
      State.table_of_modes hm, State.modFn_fn_self (State.lt_fns hs hb)]
    refine ⟨rfl, rfl, rfl, rfl, fun c hc => ?_⟩
    rw [State.bme_of_modes hm, State.modFn_fn_ne hc]
  · have hm := msixUnmaskOp_modes (s := s) (b := b) (v := some v)
    have hself := State.modFn_fn_self (f := fun f => f.unmask (some v)) (State.lt_fns hs hb)
    have hentry : ∀ w, ((msixUnmaskOp b (some v) s).fn b).entry w = ((s.fn b).unmask (some v)).entry w := fun w =>
      Fn.entry_congr ((State.table_of_modes hm b).trans (congrArg Fn.table hself)) w
    obtain ⟨hv, hothers⟩ := Fn.unmask_entry (f := s.fn b) (v := v)
    refine ⟨_, rfl, (hentry v).trans hv, fun w hw => (hentry w).trans (hothers w hw), ?_⟩
    rw [State.fmask_of_modes hm, hself]
    rfl
  · have hm := msixUnmaskOp_modes (s := s) (b := b) (v := none)
    refine ⟨_, rfl, ?_⟩
    rw [State.fmask_of_modes hm, State.table_of_modes hm, State.modFn_fn_self (State.lt_fns hs hb)]
    exact ⟨rfl, rfl⟩

end Sys2Proof.Machine
end

section
/-! Proof of O12: errors of the host port, and the two alerts of the module's own parts. -/

namespace Sys2Proof.Machine

/- ### Errors logged, counted, and reaching a ring -/

/-- A correctable error is logged in function 0 and counted (R100). -/
theorem tlpErrorOp_correctable {s : State} {e : TlpError} {b : Nat} {ring : Option Nat} {chain : List (BitVec 512)}
    (h : e = .receiver ∨ e = .badTlp ∨ e = .badDllp ∨ e = .replayTimeout ∨ e = .replayRollover) :
    tlpErrorOp e b ring chain s = countCorr (logAer s 0 (.tlp e)) := by
  rcases h with rfl | rfl | rfl | rfl | rfl <;> rfl

/-- A link-level uncorrectable error is logged in function 0 (R100). -/
theorem tlpErrorOp_link {s : State} {e : TlpError} {b : Nat} {ring : Option Nat} {chain : List (BitVec 512)}
    (h : e = .dataLink ∨ e = .flowControl ∨ e = .overflow ∨ e = .malformed ∨ e = .unexpected) :
    tlpErrorOp e b ring chain s = logAer s 0 (.tlp e) := by
  rcases h with rfl | rfl | rfl | rfl | rfl <;> rfl

/-- A request's error is logged in its function (R101). -/
theorem tlpErrorOp_request {s : State} {e : TlpError} {b : Nat} {ring : Option Nat} {chain : List (BitVec 512)}
    (h : e = .poisonedWrite ∨ e = .ecrcRequest ∨ e = .unsupported) :
    tlpErrorOp e b ring chain s = logAer s b (.tlp e) := by
  rcases h with rfl | rfl | rfl <;> rfl

/-- A failed completion is logged in its function and reaches a ring (R102). -/
theorem tlpErrorOp_completion {s : State} {e : TlpError} {b : Nat} {ring : Option Nat} {chain : List (BitVec 512)}
    (h : e = .poisonedCompletion ∨ e = .ecrcCompletion ∨ e = .urCompletion ∨ e = .caCompletion) :
    tlpErrorOp e b ring chain s = ringFails (logAer s b (.tlp e)) b ring chain false := by
  rcases h with rfl | rfl | rfl | rfl <;> rfl

/-- A logged error whose ring is ACTIVE: the log holds it, and the ring halts with the cause of its failure (R102,
R147). -/
theorem loggedFailure_halts {s : State} {fn r : Nat} {k : AerKind} {chain : List (BitVec 512)} {int : Bool}
    (hs : s.shaped = true) (hf : fn < 64) (hr : r < 16) (ha : (s.ring (16 * fn + r)).state = .active) :
    k ∈ ((ringFails (logAer s fn k) fn (some r) chain int).fn fn).aer ∧
      ((ringFails (logAer s fn k) fn (some r) chain int).ring (16 * fn + r)).state = .halted ∧
      ((ringFails (logAer s fn k) fn (some r) chain int).ring (16 * fn + r)).haltCause =
        if int then 3 else if chain.isEmpty then 1 else 2 := by
  refine ⟨?_, ringFails_ring (s := logAer s fn k) hr ha⟩
  rw [State.aer_of_modes ringFails_modes]
  exact logAer_aer hs hf

/- ### The module's own alerts -/

/-- What leaves the pair unit's yielding and the channels aside is as before a yield (R417). -/
theorem yieldTo_same {α : Type} (F : State → α) {s : State} {cause : Nat}
    (hp : F (s.modPair (fun p => { p with yielding := some cause, aliveOut := false })) = F s)
    (hc : ∀ (u : State) n f, F (u.modCh n f) = F u) : F (yieldTo s cause) = F s := by
  have hstop : ∀ (u : State) n, F (stopChannel u n u.pair.lastH) = F u := by
    intro u n
    unfold stopChannel
    split
    · exact hc u _ _
    · rfl
  unfold yieldTo
  split
  · exact (State.foldl_same F hstop).trans hp
  · rfl

/-- Settles O12: an error is logged, counted or passed to its ring by its kind (`loggedFailure_halts`). -/
theorem hostPortErrors : Obligations.HostPortErrors := by
  refine ⟨fun s e fn ring chain hs h => ?_, fun s e fn ring chain hs h => ?_, fun s e fn ring chain hs hf h => ?_,
    fun s e fn r chain hs hf hr ha h => ?_, fun s fn r chain hs hf hr ha => ⟨_, rfl, loggedFailure_halts hs hf hr ha⟩,
    fun s fn r chain hr ha => ⟨_, rfl, ringFails_ring hr ha⟩,
    fun s fn ring chain hs => ⟨_, rfl, logAer_aer hs (by decide), rfl, rfl⟩,
    fun s fn r chain hs hf hr ha => ⟨_, rfl, loggedFailure_halts hs hf hr ha⟩, fun s => ?_, fun s => ?_⟩
  · refine ⟨_, rfl, ?_⟩
    rw [tlpErrorOp_correctable h]
    exact ⟨rfl, logAer_aer hs (by decide), rfl, rfl⟩
  · refine ⟨_, rfl, ?_⟩
    rw [tlpErrorOp_link h]
    exact ⟨logAer_aer hs (by decide), rfl, rfl⟩
  · refine ⟨_, rfl, ?_⟩
    rw [tlpErrorOp_request h]
    exact ⟨logAer_aer hs hf, rfl, rfl⟩
  · refine ⟨_, rfl, ?_⟩
    rw [tlpErrorOp_completion h]
    exact loggedFailure_halts hs hf hr ha
  · have hhost : (memErrorOp s).host = { s.host with alert := setBit s.host.alert 7 } :=
      (yieldTo_same State.host rfl (fun _ _ _ => rfl)).trans State.alert_host
    have hmem : (memErrorOp s).pair.memErr = true := yieldTo_same (fun u => u.pair.memErr) rfl (fun _ _ _ => rfl)
    have hpoints : (memErrorOp s).points = s.points :=
      (yieldTo_same State.points rfl (fun _ _ _ => rfl)).trans State.alert_points
    refine ⟨_, rfl, ?_, hmem, hpoints⟩
    rw [hhost]
    exact bitN_setBit (by decide)
  · refine ⟨_, rfl, State.alert_host, ?_, State.alert_pair, State.alert_points⟩
    rw [dieTempOp, State.alert_host]
    exact bitN_setBit (by decide)

end Sys2Proof.Machine
end

section
/-! Proof of O13: the commands of the SMBus. -/

namespace Sys2Proof.Machine

/-- From 150 ms after VIN good a command to the sampled address is carried out (R109, R112). -/
theorem ifSmbus_of {s : State} {f : State → State} (hv : s.pwr.vinGood = true)
    (ht : s.pwr.vinTick + 37500000 ≤ s.ticks) : ifSmbus (if s.pwr.smbHigh then 0x5D else 0x5C) f s = f s := by
  simp [ifSmbus, State.smbAddr, hv, ht]

/-- Before that, or at another address, it is not acknowledged (R109, R112). -/
theorem ifSmbus_silent {s : State} {addr : Nat} {f : State → State}
    (h : s.pwr.vinGood = false ∨ s.ticks < s.pwr.vinTick + 37500000 ∨
      addr ≠ (if s.pwr.smbHigh then 0x5D else 0x5C)) : ifSmbus addr f s = s := by
  unfold ifSmbus State.smbAddr
  rcases h with h | h | h <;> simp [h]

/-- An answer is the data asked for, followed by one byte when the host clocks one more (R112). -/
theorem smbusAnswer_puts {s : State} {code : Nat} {block pec : Bool} {data : List Byte} :
    ∃ p : List Byte, (pec = false → p = []) ∧ (pec = true → p.length = 1) ∧
      smbusAnswer s code block pec data = s.emit (.smbus (data ++ p)) := by
  cases pec
  · exact ⟨[], fun _ => rfl, by simp, rfl⟩
  · exact ⟨_, by simp, fun _ => rfl, rfl⟩

/-- Clearing an alert leaves QUARANTINE, whatever is written (R112). -/
theorem smbusClearAlertOp_quarantine {s : State} {bits : BitVec 16} :
    bitN (smbusClearAlertOp bits s).host.alert 0 = bitN s.host.alert 0 := by
  simp [bitN, smbusClearAlertOp, clearAlert]

/-- Every other alert is cleared where 1 is written (R110, R112). -/
theorem smbusClearAlertOp_bit {s : State} {bits : BitVec 16} {i : Nat} (h1 : 1 ≤ i) (h9 : i ≤ 9) :
    bitN (smbusClearAlertOp bits s).host.alert i = (bitN s.host.alert i && !bits.getLsbD i) := by
  have hmask : (0x3FE : Word).getLsbD i = true := by
    interval_cases i <;> decide
  have h32 : i < 32 := by omega
  simp only [bitN, smbusClearAlertOp, clearAlert, BitVec.getLsbD_and, BitVec.getLsbD_not, BitVec.getLsbD_setWidth,
    hmask, h32, decide_true, Bool.true_and, Bool.and_true]

/-- Settles O13: a command is carried out at its address (`ifSmbus_of`), or is not (`ifSmbus_silent`). -/
theorem smbusCommands : Obligations.SmbusCommands := by
  refine ⟨fun s pec hv ht => ?_, fun s pec hv ht => ?_, fun s pec hv ht => ?_, fun s bits hv ht => ?_,
    fun s addr pec bits h => ?_⟩
  · obtain ⟨p, hnone, hone, hput⟩ := smbusAnswer_puts (s := s) (code := 1) (block := true) (pec := pec)
      (data := identBytes s)
    exact ⟨p, hnone, hone, congrArg _ ((ifSmbus_of hv ht).trans hput)⟩
  · obtain ⟨p, hnone, hone, hput⟩ := smbusAnswer_puts (s := s.tick1) (code := 2) (block := true) (pec := pec)
      (data := healthBytes s)
    exact ⟨p, hnone, hone, congrArg _ ((ifSmbus_of hv ht).trans hput)⟩
  · obtain ⟨p, hnone, hone, hput⟩ := smbusAnswer_puts (s := s) (code := 3) (block := false) (pec := pec)
      (data := bytesLE 2 s.host.alert.toNat)
    exact ⟨p, hnone, hone, congrArg _ ((ifSmbus_of hv ht).trans hput)⟩
  · refine ⟨_, rfl, ?_⟩
    rw [ifSmbus_of hv ht]
    exact ⟨smbusClearAlertOp_quarantine, fun _ => smbusClearAlertOp_bit, rfl⟩
  · exact ⟨congrArg _ (ifSmbus_silent h), congrArg _ (ifSmbus_silent h), congrArg _ (ifSmbus_silent h),
      congrArg _ (ifSmbus_silent h)⟩

end Sys2Proof.Machine
end

section
/-! Proof of O41: the block of a channel that is lost or not fitted. -/

namespace Sys2Proof.Machine

/-- The physical function reads the block of a channel, on a module that serves (R4, R92, R108). -/
theorem readReg_block {s : State} {n o : Nat} (hn : n < 8) (hq : s.lc.quar = 0) (ho : o < 0x100000)
    (h4 : o % 4 = 0) : readReg s 0 (0x100000 * (n + 1) + o) =
      if !s.fitted n ∨ (s.ch n).state = .absent then 0
      else if o ≠ 0 ∧ ((s.ch n).state = .linkLost ∨ (s.ch n).state = .fault) then 0xFFFFFFFF
      else readChannel s n o := by
  have hchan : (0x100000 * (n + 1) + o) / 0x100000 - 1 = n := by omega
  have hofs : (0x100000 * (n + 1) + o) % 0x100000 = o := by omega
  have hmap : readReg s 0 (0x100000 * (n + 1) + o) = readMap s 0 (0x100000 * (n + 1) + o) := rfl
  rw [hmap, readMap, if_neg (by omega), if_neg (by simp [hq]), if_neg (by omega), if_neg (by omega),
    if_pos (by omega)]
  dsimp only
  rw [hchan, hofs]

/-- Whatever the life of the module, the block of a channel that is not fitted reads 0 (R4, R108). -/
theorem readReg_unfitted {s : State} {n o : Nat} (hn : n < 8) (hf : s.fitted n = false) (ho : o < 0x100000)
    (h4 : o % 4 = 0) : readReg s 0 (0x100000 * (n + 1) + o) = 0 := by
  by_cases hq : s.lc.quar = 0
  · rw [readReg_block hn hq ho h4, if_pos (by simp [hf])]
  · have hhidden : quarReads (0x100000 * (n + 1) + o) = false := by
      simp only [quarReads, Bool.or_eq_false_iff, Bool.and_eq_false_iff, decide_eq_false_iff_not]
      omega
    have haligned : (0x100000 * (n + 1) + o) % 4 = 0 := by omega
    simp [readReg, readOffset, readMap, hq, hhidden, haligned]

/-- On the UZF-4A channels 4 to 7 are not fitted (R4). -/
theorem State.not_fitted_four {s : State} {n : Nat} (he : s.ident.eight = false) (h4 : 4 ≤ n) :
    s.fitted n = false := by
  simpa [State.fitted, he] using h4

/-- A write to the block of a channel that is lost or not fitted reaches no register and changes nothing (R4, R92). -/
theorem registerWrite_lostBlock {s : State} {n o len : Nat} {data : BitVec 64} (ho : o < 0x100000)
    (he : s.fnEn 0 = true) (hm : (s.fn 0).mse = true) (ha : accessOk (0x100000 * (n + 1) + o) len = true)
    (h : s.fitted n = false ∨ (s.ch n).state = .linkLost ∨ (s.ch n).state = .fault) :
    registerWriteOp .bar0 0 (0x100000 * (n + 1) + o) len data s = s :=
  registerWrite_unreached he hm ha (fun _ hx => writeReaches_lost (by omega) h)

/-- An access is judged by its place within its 8 bytes, which is the same in every block (R70). -/
theorem accessOk_block {n o len : Nat} : accessOk (0x100000 * (n + 1) + o) len = accessOk o len := by
  have hplace : (0x100000 * (n + 1) + o) % 8 = o % 8 := by omega
  simp only [accessOk, hplace]

/-- Settles O41: reads are `readReg_block`, and no write reaches a register (`registerWrite_lostBlock`). -/
theorem lostChannelBlock : Obligations.LostChannelBlock := by
  refine ⟨fun s n hn hq hf ha => ?_, fun s n o hn hq hf h0 ho h4 hl => ?_,
    fun s n o len data hn ho he hm ha hl => ?_, fun s n o len data height hn4 hn8 ho h4 he hm ha => ?_⟩
  · have hread := readReg_block (o := 0) hn hq (by decide) (by decide)
    rw [if_neg (by simp [hf, ha]), if_neg (by simp)] at hread
    exact hread
  · have hpresent : (s.ch n).state ≠ .absent := by
      rcases hl with h | h <;> simp [h]
    rw [readReg_block hn hq ho h4, if_neg (by simp [hf, hpresent]), if_pos ⟨by omega, hl⟩]
  · exact congrArg _ (registerWrite_lostBlock ho he hm (accessOk_block.trans ha) (.inr hl))
  · have hfit := State.not_fitted_four height hn4
    exact ⟨readReg_unfitted hn8 hfit ho h4,
      congrArg _ (registerWrite_lostBlock ho he hm (accessOk_block.trans ha) (.inl hfit))⟩

end Sys2Proof.Machine
end

section
/-! O14: enabling a ring while its function may not write, where the index record has to wait. -/

namespace Sys2Proof.Machine

/-- An index record is written, or marks its ring as waiting for it (R119, R529). -/
theorem writeIdx_ring_mark {s : State} {k : Nat} :
    (writeIdx s k).ring k = { s.ring k with stale := (s.ring k).stale || !s.mayWrite (ringFn k) } := by
  cases hw : s.mayWrite (ringFn k) with
  | true => rw [writeIdx_ring hw]; simp
  | false => simp [writeIdx, hw]

/-- Neither a register word nor a ring says who may write or whether the module serves. -/
theorem State.setReg_mayWrite {s : State} {key b : Nat} {w : Word} : (s.setReg key w).mayWrite b = s.mayWrite b := by
  unfold State.setReg
  split <;> rfl

theorem State.setReg_serves {s : State} {key : Nat} {w : Word} : (s.setReg key w).serves = s.serves := by
  unfold State.setReg
  split <;> rfl

theorem State.modRing_mayWrite {s : State} {k b : Nat} {f : Ring → Ring} :
    (s.modRing k f).mayWrite b = s.mayWrite b := rfl

/-- A field of four bits is at most 15: the largest ring has 32,768 slots (R114). -/
theorem fld_four_le {w : Word} {lo : Nat} : fld w lo 4 ≤ 15 := by
  unfold fld
  omega

/-- RING_ENABLE with a good configuration starts the ring anew, but with its index record waiting where the function
may not write (R119, R144, R529). -/
theorem ringEnableOp_ring {s : State} {b r : Nat} {ctl : Word} (hr : r < 16)
    (hd : (s.ring (16 * b + r)).state = .disabled) (hk : fld ctl 1 3 ≤ 3) (hl : 6 ≤ fld ctl 4 4)
    (ha : addrsOk s (ringBase (16 * b + r)) = true) (hb : (s.fn b).bme = true) :
    (ringEnableOp b r ctl s).ring (16 * b + r) =
      { Ring.reset with state := if s.serves then .active else .waitService, kind := fld ctl 1 3,
                        sizeLog2 := fld ctl 4 4, armed := true, stale := !s.mayWrite b } := by
  have hgood : ¬(3 < fld ctl 1 3 ∨ fld ctl 4 4 < 6 ∨ 15 < fld ctl 4 4 ∨ !addrsOk s (ringBase (16 * b + r)) ∨
      !(s.fn b).bme) := by
    have hmax := fld_four_le (w := ctl) (lo := 4)
    simp only [ha, hb, Bool.not_true, Bool.false_eq_true, or_false]
    omega
  unfold ringEnableOp
  dsimp only
  rw [if_neg (by simp [hd, hr]), if_neg hgood, trigger_ring, writeIdx_ring_mark, State.modRing_ring_self, ringFn_of hr]
  split <;> simp [State.modRing_mayWrite, State.setReg_mayWrite, State.setReg_serves, Ring.reset]

/-- A module in its power-fail freeze (R437) whose function 0 has bus mastering and has given addresses to the DISABLED
ring 0. -/
def frozenModule : State :=
  { State.reset with
    regs := [(0x30008, 0x1000), (0x30010, 0x1000)],
    fns := List.replicate 64 { Fn.reset with bme := true },
    pwr := { Power.reset with frozen := true } }

/-- Refutes O14: the first clause has every status of the enabled ring as after reset, but in `frozenModule` the index
record of the enable cannot be written and the ring is marked as waiting for it (R119, R529; `ringEnableOp_ring`). -/
theorem not_ringControl : ¬ Obligations.RingControl := by
  intro h
  obtain ⟨henable, _⟩ := h
  obtain ⟨_, ht, hring, _⟩ := henable frozenModule 0 0 0x61 rfl (by decide) rfl (by decide) (by decide) (by decide)
    rfl
  obtain rfl := Host.Outcome.next.inj ht
  have hwaits := ringEnableOp_ring (s := frozenModule) (b := 0) (r := 0) (ctl := 0x61) (by decide) rfl (by decide)
    (by decide) (by decide) rfl
  rw [ifServed_of rfl, hwaits] at hring
  exact absurd (congrArg Ring.stale hring) (by decide)

end Sys2Proof.Machine
end

section
/-! Proof of O15: doorbells, the moderation timer and received frames. -/

namespace Sys2Proof.Machine

/- ### Doorbells -/

/-- An access to a function with its memory space enabled has its effect (R97). -/
theorem ifMse_of {b off : Nat} {posted : Bool} {f : State → State} {s : State} (he : s.fnEn b = true)
    (hm : (s.fn b).mse = true) : ifMse b off posted f s = f s := by
  simp [ifMse, he, hm]

/-- A doorbell of an ACTIVE ring that writes IDX alone moves that index or refuses it (R121). -/
theorem doorbellOp_idx {s : State} {b r : Nat} {be : BitVec 8} {data : BitVec 64} (hq : s.lc.quar = 0) (hr : r < 16)
    (ha : (s.ring (16 * b + r)).state = .active) (h0 : be.getLsbD 0 = true) (h1 : be.getLsbD 1 = true)
    (h2 : be.getLsbD 2 = false) (h4 : be.getLsbD 4 = false) :
    doorbellOp b r be data s = dbIdx s (16 * b + r) (data.toNat % 65536) := by
  simp [doorbellOp, hq, Nat.not_le.mpr hr, ha, h0, h1, h2, h4, -BitVec.getLsbD_eq_getElem]

/-- A valid producer index is taken (R122). -/
theorem dbIdx_producer {s : State} {k v : Nat} (hk : (s.ring k).kind ≠ 0) (hv : producerOk (s.ring k) v = true) :
    dbIdx s k v = s.modRing k (fun g => { g with sw := v }) := by
  simp [dbIdx, hk, hv]

/-- An invalid one is an error (R122). -/
theorem dbIdx_refused {s : State} {k v : Nat} (hk : (s.ring k).kind ≠ 0) (hv : producerOk (s.ring k) v = false) :
    dbIdx s k v = dbError s k 0 v (s.ring k).sw := by
  simp [dbIdx, hk, hv]

/-- A refused index leaves its ring but for DB_ERR, whether or not a record of it is raised (R122). -/
theorem dbError_ring {s : State} {k field refused inForce : Nat} :
    (dbError s k field refused inForce).ring k = { s.ring k with dbErr := true } := by
  unfold dbError
  dsimp only
  split
  · exact State.modRing_ring_self
  · exact (State.ring_congr raise_rings k).trans State.modRing_ring_self

/-- A refused index leaves the points. -/
theorem dbError_points {s : State} {k field refused inForce : Nat} :
    (dbError s k field refused inForce).points = s.points :=
  (congrArg State.points (dbError_core : State.core (dbError s k field refused inForce) = s.core) :)

/- ### The consumer index of an event ring -/

/-- A valid consumer index is all that EVCONS_WRITE changes of state, consumer index and size of an event ring in use:
arming it, the records it lets out and its interrupt leave them (R122, R134). -/
theorem evconsOp_evShapes {s : State} {b : Nat} {data : Word} (hd : (s.ev b).state ≠ .disabled)
    (hc : consumerOk (s.ev b).cons (s.ev b).hw (fld data 0 16) = true) :
    (evconsOp b data s).evShapes = (s.modEv b (fun r => { r with cons := fld data 0 16 })).evShapes := by
  unfold evconsOp
  dsimp only
  rw [if_neg hd, if_pos hc]
  refine evNotify_evShapes.trans (State.flushEv_evShapes.trans ?_)
  split
  · exact State.modEv_evShapes (fun _ => rfl)
  · rfl

/-- EVCONS_WRITE touches no module ring. -/
theorem evconsOp_rings {s : State} {b : Nat} {data : Word} : (evconsOp b data s).rings = s.rings := by
  unfold evconsOp
  dsimp only
  split
  · rfl
  · simp only [evNotify_rings, State.flushEv_rings, apply_ite State.rings, State.modEv_rings, raise_rings, ite_self]

/- ### Moderation -/

/-- An event ring whose vector is sent has nothing pending, and is armed again unless ARM_MODE asks for a doorbell
(R142, R143). -/
theorem evNotify_ev {s : State} {b : Nat} :
    (evNotify s b true).ev b = { s.ev b with pend := 0, armed := !bitN (s.reg (evBase b + 4)) 24 } :=
  State.sendVec_ev.trans State.modEv_ev_self

/-- The same of a module ring. -/
theorem ringNotify_ring_due {s : State} {k : Nat} : (ringNotify s k true).ring k =
    { s.ring k with pend := 0, armed := !bitN (s.reg (ringBase k + 4)) 24 } := by
  simp only [ringNotify, if_true]
  split
  · exact State.sendVec_ring.trans State.modRing_ring_self
  · exact State.modRing_ring_self

/-- The timer of an event ring that is armed, or always is, sends what is pending (R142). -/
theorem moderationOp_event {s : State} {b : Nat} (ha : (s.ev b).armed = true ∨ bitN (s.reg (evBase b + 4)) 24 = false)
    (hp : 0 < (s.ev b).pend) : moderationOp b 16 s = evNotify s b true := by
  have harmed : evArmed s b = true := by simpa [evArmed] using ha
  simp [moderationOp, harmed, hp]

/-- The same of a module ring. -/
theorem moderationOp_ring {s : State} {b r : Nat} (hr : r < 16)
    (ha : (s.ring (16 * b + r)).armed = true ∨ bitN (s.reg (ringBase (16 * b + r) + 4)) 24 = false)
    (hp : 0 < (s.ring (16 * b + r)).pend) : moderationOp b r s = ringNotify s (16 * b + r) true := by
  have harmed : ringArmed s (16 * b + r) = true := by simpa [ringArmed] using ha
  simp [moderationOp, Nat.ne_of_lt hr, hr, harmed, hp]

/- ### Received frames -/

/-- The staged frame of source `src` for ring `k` has left its channel (0 to 7) or backbone port (8, 9). -/
def State.frameTaken (s : State) (src k : Nat) : State :=
  if src < 8 then s.modCh src (fun c => { c with staged := unstage k c.staged })
  else s.modNet (src - 8) (fun c => { c with rx := c.rx.drop 1 })

/-- What channels and ports do not enter stays when a staged frame leaves. -/
theorem State.frameTaken_same {β : Type} (F : State → β)
    (hF : ∀ (u : State) cs ns, F { u with chs := cs, nets := ns } = F u) {s : State} {src k : Nat} :
    F (s.frameTaken src k) = F s := by
  unfold State.frameTaken
  split
  · exact hF s _ s.nets
  · exact hF s s.chs _

@[simp] theorem State.frameTaken_ring {s : State} {src k j : Nat} : (s.frameTaken src k).ring j = s.ring j :=
  State.frameTaken_same (State.ring · j) (fun _ _ _ => rfl)

@[simp] theorem State.frameTaken_basinEn {s : State} {src k b : Nat} :
    (s.frameTaken src k).basinEn b = s.basinEn b := State.frameTaken_same (State.basinEn · b) (fun _ _ _ => rfl)

@[simp] theorem State.frameTaken_mayWrite {s : State} {src k b : Nat} :
    (s.frameTaken src k).mayWrite b = s.mayWrite b := State.frameTaken_same (State.mayWrite · b) (fun _ _ _ => rfl)

@[simp] theorem State.frameTaken_reg64 {s : State} {src k j : Nat} : (s.frameTaken src k).reg64 j = s.reg64 j :=
  State.frameTaken_same (State.reg64 · j) (fun _ _ _ => rfl)

/-- FRAME_RECEIVED hands the oldest staged frame to an ACTIVE FRM_IN ring of an enabled basin (R136). -/
theorem frameReceivedOp_delivers {s : State} {b r src : Nat} {f : RxFrame} {posted : List (BitVec 512)}
    (ho : oldestFrame (stagedFor s (16 * b + r)) = some (src, f)) (ha : (s.ring (16 * b + r)).state = .active)
    (hk : (s.ring (16 * b + r)).kind = 3) (he : s.basinEn b = true) :
    frameReceivedOp b r posted s = deliverFrame (s.frameTaken src (16 * b + r)) (16 * b + r) f posted := by
  unfold frameReceivedOp
  dsimp only
  rw [ho]
  dsimp only
  rw [← State.frameTaken, if_pos (by simp [ha, hk, he])]

/-- A frame that fits the first posted buffer is one complete slot (R129, R136). -/
theorem fillSlots_fits {f : RxFrame} {total left len : Nat} {first : Bool} {d : BitVec 512} {ds : List (BitVec 512)}
    (hd : rxLen d = some len) (hl : left ≤ len) :
    fillSlots f total (d :: ds) left first = ([rxSlot f d left first true false total], false) := by
  simp [fillSlots, hd, hl]

/-- The data of a frame only leave as memory writes (R90, R136). -/
theorem writeBuf_eq {b : Nat} : ∀ {n addr : Nat} {bytes : List Byte} {s : State},
    ∃ o, writeBuf b n addr bytes s = { s with out := o }
  | 0, _, _, _ => ⟨_, rfl⟩
  | n + 1, addr, bytes, s => by
    unfold writeBuf
    split
    · exact ⟨_, rfl⟩
    · exact writeBuf_eq (n := n) (s := s.emit (.memWrite b addr (bytes.take s.mps)))

theorem rxData_eq {b : Nat} : ∀ {l : List (BitVec 512)} {bytes : List Byte} {s : State},
    ∃ o, rxData s b l bytes = { s with out := o }
  | [], _, _ => ⟨_, rfl⟩
  | d :: l, bytes, s => by
    unfold rxData
    split
    · exact rxData_eq (l := l)
    · next len _ =>
      split
      · exact ⟨_, rfl⟩
      · obtain ⟨o, ho⟩ := writeBuf_eq (b := b) (n := 4096) (addr := getLE (bytesLE 64 d.toNat) 0 8)
          (bytes := bytes.take len) (s := s)
        rw [ho]
        exact rxData_eq (l := l)

/-- The last slot of a burst is written at its index, and HW_IDX passes it (R136). -/
theorem putSlot_last {s : State} {k idx : Nat} {bytes : List Byte} (hw : s.mayWrite (ringFn k) = true)
    (hh : (s.ring k).held = []) :
    ((putSlot s k idx bytes true).ring k).hw = (idx + 1) % 65536 ∧
    .memWrite (ringFn k) (s.reg64 (ringBase k + 8) + 64 * (idx % (s.ring k).slots)) bytes ∈
      (putSlot s k idx bytes true).out := by
  have hput : putSlot s k idx bytes true = putHeld s k (.slot idx bytes true) := by simp [putSlot, hw, hh]
  rw [hput]
  unfold putHeld
  dsimp only
  rw [if_neg (by decide)]
  split
  · obtain ⟨_, _, _, hring⟩ := ringItem_ring (k := k) (s := (s.emit (.memWrite (ringFn k)
      (s.reg64 (ringBase k + 8) + 64 * (idx % (s.ring k).slots)) bytes)).modRing k
        (fun r => { r with hw := (idx + 1) % 65536 }))
    exact ⟨by rw [hring, State.modRing_ring_self], ringItem_out (by simp [State.emit])⟩
  · exact ⟨by rw [writeIdx_ring (by exact hw), State.modRing_ring_self], writeIdx_out (by simp [State.emit])⟩

/-- Into a posted buffer it fits a frame is delivered as its data followed by its one slot (R136). -/
theorem deliverFrame_fits {s : State} {k len : Nat} {f : RxFrame} {d : BitVec 512} {ds : List (BitVec 512)}
    (hw : s.mayWrite (ringFn k) = true) (hp : 1 ≤ idxDist (s.ring k).sw (s.ring k).hw) (hd : rxLen d = some len)
    (hl : f.payload.length ≤ len) : ∃ o, deliverFrame s k f (d :: ds) =
      putSlot { s with out := o } k ((s.ring k).hw % 65536)
        (rxSlot f d f.payload.length true true false f.payload.length) true := by
  obtain ⟨n, hn⟩ := Nat.exists_eq_add_of_le' hp
  obtain ⟨o, ho⟩ := rxData_eq (s := s) (b := ringFn k) (l := d :: ds.take n) (bytes := f.payload)
  have hdma : s.mayDma (ringFn k) = true := (Bool.and_eq_true_iff.mp hw).1
  refine ⟨o, ?_⟩
  simp [deliverFrame, hn, hdma, hd, hw, fillSlots_fits hd hl, ho, putSlots]

/-- That slot stands at HW_IDX, which advances by one (R129, R136). -/
theorem deliverFrame_slot {s : State} {k len : Nat} {f : RxFrame} {d : BitVec 512} {ds : List (BitVec 512)}
    (hw : s.mayWrite (ringFn k) = true) (hh : (s.ring k).held = []) (hp : 1 ≤ idxDist (s.ring k).sw (s.ring k).hw)
    (hd : rxLen d = some len) (hl : f.payload.length ≤ len) :
    ((deliverFrame s k f (d :: ds)).ring k).hw = ((s.ring k).hw % 65536 + 1) % 65536 ∧
    .memWrite (ringFn k) (s.reg64 (ringBase k + 8) + 64 * ((s.ring k).hw % 65536 % (s.ring k).slots))
      (rxSlot f d f.payload.length true true false f.payload.length) ∈ (deliverFrame s k f (d :: ds)).out := by
  obtain ⟨o, ho⟩ := deliverFrame_fits (ds := ds) hw hp hd hl
  rw [ho]
  exact putSlot_last (s := { s with out := o }) hw hh

/-- Settles O15: an index is judged alone (`doorbellOp_idx`), sending resets the pending count (`evNotify_ev`,
`ringNotify_ring_due`), and a frame that fits is one slot (`deliverFrame_slot`). -/
theorem ringTraffic : Obligations.RingTraffic := by
  refine ⟨fun s b r be data he hm hq hr ha hk h0 h1 h2 h4 hv => ?_,
    fun s b r be data he hm hq hr ha hk h0 h1 h2 h4 hv => ?_, fun s b data hq hd hc => ?_, fun s b ha hp => ?_,
    fun s b r hr ha hp => ?_, fun s b r src len f d ds hr ho ha hk hh hw he hp hd hl => ?_⟩
  · refine congrArg _ ((ifMse_of he hm).trans ?_)
    rw [ifServed_of hq, doorbellOp_idx hq hr ha h0 h1 h2 h4, dbIdx_producer hk hv]
  · refine ⟨_, rfl, ?_⟩
    rw [ifMse_of he hm, ifServed_of hq, doorbellOp_idx hq hr ha h0 h1 h2 h4, dbIdx_refused hk hv]
    exact ⟨dbError_ring, dbError_points⟩
  · refine ⟨_, rfl, ?_⟩
    rw [ifServed_of hq]
    have hshapes := evconsOp_evShapes hd hc
    refine ⟨?_, ?_, evconsOp_rings⟩
    · rw [State.ev_cons_of hshapes, State.modEv_ev_self]
    · rw [State.ev_state_of hshapes, State.modEv_ev_self]
  · refine ⟨_, rfl, ?_⟩
    rw [moderationOp_event ha hp, evNotify_ev]
    exact ⟨rfl, rfl, rfl⟩
  · refine ⟨_, rfl, ?_⟩
    rw [moderationOp_ring hr ha hp, ringNotify_ring_due]
  · have hslot := deliverFrame_slot (s := s.frameTaken src (16 * b + r)) (k := 16 * b + r) (ds := ds)
      (by simpa [ringFn_of hr] using hw) (by simpa using hh) (by simpa using hp) hd hl
    simp only [ringFn_of hr, State.frameTaken_ring, State.frameTaken_reg64] at hslot
    refine ⟨_, rfl, ?_⟩
    rw [frameReceivedOp_delivers ho ha hk he]
    exact hslot

end Sys2Proof.Machine
end

section
/-! Proof of O19: the state of a migrating loop arrives, is waited for in vain, or the loop's old slot is released. -/

namespace Sys2Proof.Machine

/- ### The state arrives, or is waited for no longer (R185, R186) -/

/-- The migrations of a loop wait for no state any more. -/
def State.waitOver (s : State) (id : Nat) : State :=
  s.modWs (fun w => { w with migrations := w.migrations.map (fun x =>
    if x.loop = id then { x with arrived := true } else x) })

theorem State.waitOver_arrived {s : State} {id : Nat} :
    ∀ x ∈ (s.waitOver id).ws.migrations, x.loop = id → x.arrived = true := by
  intro x hx hid
  obtain ⟨y, _, rfl⟩ := List.mem_map.mp hx
  by_cases hy : y.loop = id
  · rw [if_pos hy]
  · rw [if_neg hy] at hid
    exact absurd hid hy

/-- The state of a loop that waits for it arrives in its new slot (R185). -/
theorem stateArrivalOp_waiting {s : State} {id : Nat} {m : Migration}
    (hm : s.ws.migrations.find? (fun x => x.loop == id) = some m) (ha : m.arrived = false) :
    stateArrivalOp id s =
      (s.modSlot m.toCh m.toSlot (carriedRt (s.slotRt m.fromCh m.fromSlot))).waitOver id := by
  simp only [stateArrivalOp, hm, ha, Bool.false_eq_true, if_false]
  rfl

/-- A loop that waits for its state in vain runs without it, primed anew when enabled, and LOOP_RESTARTED says so
(R186). -/
theorem stateTimeoutOp_waiting {s : State} {id : Nat} {m : Migration} {l : Loop}
    (hm : s.ws.migrations.find? (fun x => x.loop == id) = some m) (hl : amGet s.ws.loops id = some l)
    (ha : m.arrived = false) :
    stateTimeoutOp id s = raiseBoth ((s.modSlot m.toCh m.toSlot (fun r =>
        { (if r.en then enableRt r else r) with waiting := false })).waitOver id) 0x0105 l.basin
      (bytesLE 2 id ++ [BitVec.ofNat 8 m.toCh, 1] ++ bytesLE 2 m.toSlot) := by
  simp only [stateTimeoutOp, hm, hl, ha, Bool.false_eq_true, if_false]
  rfl

/-- A slot reads the same where the channels are the same. -/
theorem State.slotRt_congr {s t : State} (h : t.chs = s.chs) (n d : Nat) : t.slotRt n d = s.slotRt n d := by
  unfold State.slotRt State.ch; rw [h]

/- ### The old slot is released (R184) -/

/-- The old slot of a migration is free, its loop placed and the migration over. -/
def State.released (s : State) (id : Nat) (m : Migration) : State :=
  (s.modCh m.fromCh (fun c => { c with slots := amDel c.slots m.fromSlot })).modWs (fun w => { w with
    loops := amMod w.loops id (fun l => { l with st := .placed, fails := 0 }),
    migrations := w.migrations.filter (fun x => !(x.loop == id)) })

theorem State.released_slot {s : State} {id : Nat} {m : Migration} (hn : m.fromCh < s.chs.length) :
    amGet ((s.released id m).ch m.fromCh).slots m.fromSlot = none := by
  have hch : (s.released id m).ch m.fromCh =
    { s.ch m.fromCh with slots := amDel (s.ch m.fromCh).slots m.fromSlot } := State.modCh_ch_self hn
  rw [hch]
  exact amGet_amDel_self

theorem State.released_loop {s : State} {id : Nat} {m : Migration} :
    amGet (s.released id m).ws.loops id =
      (amGet s.ws.loops id).map (fun l => { l with st := .placed, fails := 0 }) := by
  rw [State.released, State.modWs_ws, amGet_amMod_self]
  rfl

/-- Subscriptions of the channels to points leave Watershed's tables and the registers. -/
theorem resubscribe_ws {s : State} : (resubscribe s).ws = s.ws ∧ (resubscribe s).regs = s.regs := by
  obtain ⟨p, c, h⟩ := resubscribe_rest (s := s)
  rw [h]
  exact ⟨rfl, rfl⟩

/-- Counting a change of the directory touches DIRGEN alone (R45). -/
theorem dirFrom_eq {s t : State} : dirFrom s t = t.modWs (fun w => { w with
    dirgen := if dirImage s = dirImage t then w.dirgen else (w.dirgen + 1) % 2 ^ 32 }) := by
  unfold dirFrom dirChanged
  split <;> rfl

theorem loopMovedRec_quiet {s : State} {b id n t n' t' reason : Nat} {tm : Instant} :
    (loopMovedRec s b id n t n' t' reason tm).quiet = s.quiet := raiseBoth_quiet

/-- MIGRATION_RELEASE of a loop whose state has come or is waited for no more: but for event records and the pass a
withdrawn loop waits for, the release and the count of the change it makes in the directory. -/
theorem migrationReleaseOp_arrived {s : State} {id : Nat} {m : Migration} {l : Loop}
    (hm : s.ws.migrations.find? (fun x => x.loop == id) = some m) (hl : amGet s.ws.loops id = some l)
    (ha : m.arrived = true) :
    ∃ tr, (migrationReleaseOp id s).quiet =
      ((dirFrom s (resubscribe (s.released id m))).modWs (fun w => { w with trigger := tr })).quiet := by
  simp only [migrationReleaseOp, hm, hl, ha, Bool.not_true, Bool.false_eq_true, if_false]
  cases l.gone with
  | false => exact ⟨_, loopMovedRec_quiet⟩
  | true => exact ⟨_, loopMovedRec_quiet⟩

/-- What a release leaves of the channels, of Watershed's tables, of the directory number and of the registers. -/
theorem migrationReleaseOp_parts {s : State} {id : Nat} {m : Migration} {l : Loop}
    (hm : s.ws.migrations.find? (fun x => x.loop == id) = some m) (hl : amGet s.ws.loops id = some l)
    (ha : m.arrived = true) {t : State} (ht : migrationReleaseOp id s = t) :
    (∀ n, (t.ch n).slots = ((s.released id m).ch n).slots) ∧ t.ws.loops = (s.released id m).ws.loops ∧
      t.ws.migrations = (s.released id m).ws.migrations ∧
      t.ws.dirgen = (if dirImage s = dirImage t then s.ws.dirgen else (s.ws.dirgen + 1) % 2 ^ 32) ∧
      t.regs = s.regs := by
  obtain ⟨tr, hq⟩ := migrationReleaseOp_arrived hm hl ha
  obtain ⟨hws, hregs⟩ := resubscribe_ws (s := s.released id m)
  rw [ht, dirFrom_eq] at hq
  have htws := congrArg State.ws hq
  simp only [State.modWs_ws, hws] at htws
  have himage : dirImage t = dirImage (resubscribe (s.released id m)) :=
    dirImage_congr (congrArg State.points hq :) (by rw [htws, hws]) (by rw [htws, hws]) (by rw [htws, hws])
  refine ⟨fun n => ?_, by rw [htws], by rw [htws], ?_, (congrArg State.regs hq :).trans hregs⟩
  · have hchs : t.chs = (resubscribe (s.released id m)).chs := (congrArg State.chs hq :)
    calc (t.ch n).slots = ((resubscribe (s.released id m)).ch n).slots := by unfold State.ch; rw [hchs]
      _ = ((s.released id m).ch n).slots := resubscribe_slots
  · rw [htws, himage]
    rfl

/-- Settles O19: arrival and timeout change the new slot and end the wait; the release frees the old slot and marks the
loop placed, and the record of the move and a waiting pass leave all that alone. -/
theorem liveMigration : Obligations.LiveMigration := by
  refine ⟨fun s m r hm ha hs hn hr => ?_, fun s m r l hm hl ha hs hn hr => ?_, fun s m l hm hl ha hs hn => ?_⟩
  · refine ⟨_, rfl, ?_⟩
    rw [stateArrivalOp_waiting hm ha]
    exact ⟨State.modSlot_slotRt (State.state_ne_absent_lt hs hn) hr, State.waitOver_arrived, rfl, rfl⟩
  · refine ⟨_, rfl, ?_⟩
    rw [stateTimeoutOp_waiting hm hl ha]
    refine ⟨?_, ?_, raiseBoth_points⟩
    · exact (State.slotRt_congr raiseBoth_chs _ _).trans
        (State.modSlot_slotRt (State.state_ne_absent_lt hs hn) hr)
    · rw [raiseBoth_ws]
      exact State.waitOver_arrived
  · obtain ⟨hslots, hloops, hmoves, hdir, hregs⟩ := migrationReleaseOp_parts hm hl ha rfl
    refine ⟨_, rfl, ?_, ?_, hmoves, hdir, hregs⟩
    · rw [hslots]
      exact State.released_slot (State.state_ne_absent_lt hs hn)
    · rw [hloops, State.released_loop, hl]
      rfl

end Sys2Proof.Machine
end

section
/-! Proof of O18: placement passes, and the channels they empty, take back and lose. -/

namespace Sys2Proof.Machine

/- ### Changing the state and link of one channel -/

/-- State and link of a channel, as `Chan.link` shows them. -/
abbrev ChanLink : Type := ChState × ChState × Bool × Bool × Nat
abbrev ChanLink.state (l : ChanLink) : ChState := l.1
abbrev ChanLink.prior (l : ChanLink) : ChState := l.2.1
abbrev ChanLink.xbarUp (l : ChanLink) : Bool := l.2.2.1
abbrev ChanLink.isoOk (l : ChanLink) : Bool := l.2.2.2.1

/-- The state and link of a channel stand at its number. -/
theorem State.ch_link {s : State} {n : Nat} : (s.ch n).link = s.links.getD n Chan.reset.link := by
  simp only [State.ch, State.links, List.getD_eq_getElem?_getD, List.getElem?_map]
  cases s.chs[n]? <;> rfl

theorem State.link_of_modify {s t : State} {n : Nat} {g : ChanLink → ChanLink} (h : t.links = s.links.modify n g)
    (hn : n < s.chs.length) : (t.ch n).link = g (s.ch n).link := by
  have hlen : n < s.links.length := by rwa [State.links, List.length_map]
  rw [State.ch_link, State.ch_link, h]
  simp only [List.getD_eq_getElem?_getD, List.getElem?_modify_eq, List.getElem?_eq_getElem hlen]
  rfl

theorem State.link_of_modify_ne {s t : State} {n m : Nat} {g : ChanLink → ChanLink}
    (h : t.links = s.links.modify n g) (hm : m ≠ n) : (t.ch m).link = (s.ch m).link := by
  rw [State.ch_link, State.ch_link, h]
  simp only [List.getD_eq_getElem?_getD, List.getElem?_modify_ne _ _ hm.symm]

/-- A change of a channel that acts on its state and link as `g` does. -/
theorem State.modCh_links_of {s : State} {n : Nat} {f : Chan → Chan} {g : ChanLink → ChanLink}
    (h : ∀ c, (f c).link = g c.link) : (s.modCh n f).links = s.links.modify n g := by
  apply List.ext_getElem?
  intro i
  simp only [State.links, State.modCh, List.getElem?_map, List.getElem?_modify]
  cases s.chs[i]? with
  | none => rfl
  | some c =>
    simp only [Option.map_some]
    split
    · exact congrArg some (h c)
    · rfl

/-- Changing the state of a channel to the one it is in changes nothing. -/
theorem State.links_modify_state {s : State} {n : Nat} :
    s.links.modify n (fun l => ((s.ch n).state, l.2)) = s.links := by
  apply List.ext_getElem?
  intro i
  rw [List.getElem?_modify]
  split
  next he =>
    subst he
    cases hl : s.links[n]? with
    | none => rfl
    | some l =>
      have hstate : (s.ch n).link = l := by
        rw [State.ch_link, List.getD_eq_getElem?_getD, hl]; rfl
      rw [← hstate]
      rfl
  next => simp

/-- Of states and links, a change of a channel's state changes that state alone (R98). -/
theorem setChState_links {s : State} {n : Nat} {st : ChState} :
    (setChState s n st).links = s.links.modify n (fun l => (st, l.2)) := by
  unfold setChState
  split
  next h => rw [← h, State.links_modify_state]
  next => exact State.sendVec_links.trans (State.modCh_links_of (fun _ => rfl))

/- ### PLACEMENT_PASS (R148, R179) -/

/-- Watershed with a plan decided: no trigger waits, and the loops the plan moves are migrating. -/
def Watershed.planned (w : Watershed) (p : Plan) : Watershed :=
  { w with
    trigger := none, rebalance := false, plan := some p
    loops := w.loops.map (fun (x : Nat × Loop) =>
      if p.moves.any (fun m => m.loop == x.1) then (x.1, { x.2 with st := .migrating }) else x) }

/-- The state with a plan decided: the subscriptions of the channels follow its moves. -/
def State.planned (s : State) (p : Plan) : State := resubscribe (s.modWs (fun w => w.planned p))

/-- The transaction of a plan: in preparation in some channels and in the hub, with the next number. -/
def planTxn (s : State) (p : Plan) (chans : List Nat) : Txn :=
  { Txn.reset with
    state := .preparing, id := s.nextTxn, scope := chans.foldl (fun m n => m + 2 ^ n) 0
    staged := planStaged s p, waitPrep := chans ++ [8] }

/-- The state with the transaction of a plan opened in context 64. -/
def State.planOpened (s : State) (p : Plan) (chans : List Nat) : State :=
  { s.modTxn 64 (fun _ => planTxn s p chans) with nextTxn := (s.nextTxn + 1) % 2 ^ 32 }

/-- Planning changes Watershed, points and the inputs of channels; no channel changes state. -/
theorem State.planned_parts {s : State} {p : Plan} :
    (s.planned p).links = s.links ∧ (s.planned p).ws.plan = some p ∧ (s.planned p).ws.trigger = none ∧
      (s.planned p).ws.rebalance = false ∧ (s.planned p).txns = s.txns ∧ (s.planned p).nextTxn = s.nextTxn ∧
      (s.planned p).regs = s.regs ∧ (s.planned p).rings = s.rings := by
  refine ⟨resubscribe_links.trans State.modWs_links, ?_⟩
  obtain ⟨q, c, h⟩ := resubscribe_rest (s := s.modWs (fun w => w.planned p))
  rw [State.planned, h]
  exact ⟨rfl, rfl, rfl, rfl, rfl, rfl, rfl⟩

theorem State.planOpened_txn {s : State} {p : Plan} {chans : List Nat} :
    (s.planOpened p chans).txn 64 = planTxn s p chans := by
  rw [State.planOpened, State.txn_nextTxn, State.modTxn_txn_self]

/-- One thing put out for each of a list changes nothing but what is put out. -/
theorem State.emits_quiet {α : Type} {f : α → Emission} {l : List α} {s : State} :
    (l.foldl (fun s a => s.emit (f a)) s).quiet = s.quiet :=
  State.foldl_same State.quiet (f := fun s a => s.emit (f a)) (fun _ _ => rfl)

/-- With no other transaction under way that of a plan meets no conflict (R85). -/
theorem State.planOpened_conflicts {s : State} {p : Plan} {chans : List Nat}
    (h : ∀ o ∈ s.txns, o.1 ≠ 64 → o.2.state ≠ .preparing ∧ o.2.state ≠ .pending) :
    conflicts (s.planOpened p chans) 64 = false := by
  refine conflicts_alone (by rw [State.planOpened_txn]; rfl) ?_
  intro o ho hc
  rcases amSet_mem ho with he | hold
  · exact absurd (congrArg Prod.fst he) hc
  · exact h o hold hc

/-- A pass with something to change, in channels that all serve, opens its transaction (R148, R179). -/
theorem placementPassOp_opens {s : State} {tr : Nat} {p : Plan} (he : decidePlan s tr = p)
    (ht : s.ws.trigger = some tr) (hp : s.ws.plan = none) (hr : declRefused s = false) (hi : (s.txn 64).state = .idle)
    (ho : ∀ o ∈ s.txns, o.1 ≠ 64 → o.2.state ≠ .preparing ∧ o.2.state ≠ .pending) (hd : p.idle s = false)
    (hs : ∀ n ∈ planChannels s p, s.inService n = true) :
    placementPassOp s = (planChannels s p ++ [8]).foldl (fun s n => s.emit (.shadow 64 n))
      ((s.planned p).planOpened p (planChannels s p)) := by
  obtain ⟨hlinks, -, -, -, htxns, -⟩ := State.planned_parts (s := s) (p := p)
  have hconf : ¬conflicts ((s.planned p).planOpened p (planChannels s p)) 64 = true := by
    rw [State.planOpened_conflicts (by rwa [htxns])]
    exact Bool.false_ne_true
  have hserve : ¬(planChannels s p).any
      (fun n => !((s.planned p).planOpened p (planChannels s p)).inService n) = true := by
    rw [List.any_eq_true]
    rintro ⟨n, hn, hout⟩
    have hstate : (((s.planned p).planOpened p (planChannels s p)).ch n).state = .inService :=
      (State.state_of_links hlinks n).trans (of_decide_eq_true (hs n hn))
    simp [State.inService, hstate] at hout
  simp only [placementPassOp, ht, hp, hr, hi, he, hd, Option.isSome_none, Bool.false_eq_true, ne_eq,
    not_true_eq_false, or_self, if_false]
  exact (if_neg hconf).trans (if_neg hserve)

/-- REBALANCE_TIMER with the pool unbalanced and REBALANCE on (R179). -/
theorem rebalanceTimerOp_unbalanced {s : State} (hb : bitN (s.reg 0x41000) 0 = true) (hr : declRefused s = false)
    (hu : unbalanced s = true) :
    rebalanceTimerOp s = (trigger s 3).modWs (fun w => { w with rebalance := true }) := by
  simp only [rebalanceTimerOp, hb, hr, hu, Bool.not_false, Bool.and_self, if_true]

/- ### TAKE_OUT, CHANNEL_DRAINED and BRING_IN (R181, R182) -/

/-- A channel reads the same where the list of them is the same. -/
theorem State.ch_congr {s t : State} (h : t.chs = s.chs) (n : Nat) : t.ch n = s.ch n := by unfold State.ch; rw [h]

theorem capacityChanged_chs {s : State} {n : Nat} : (capacityChanged s n).chs = s.chs := raise_chs

theorem capacityChanged_ch {s : State} {n m : Nat} : (capacityChanged s n).ch m = s.ch m :=
  State.ch_congr capacityChanged_chs m

theorem capacityChanged_points {s : State} {n : Nat} : (capacityChanged s n).points = s.points := raise_points

theorem capacityChanged_ws {s : State} {n : Nat} : (capacityChanged s n).ws = s.ws := raise_ws

theorem trigger_svc {s : State} {t : Nat} : (trigger s t).ws.svc = s.ws.svc := rfl

theorem trigger_chs {s : State} {t : Nat} : (trigger s t).chs = s.chs := rfl

theorem trigger_ch {s : State} {t n : Nat} : (trigger s t).ch n = s.ch n := rfl

theorem setChState_ws {s : State} {n : Nat} {st : ChState} : (setChState s n st).ws = s.ws := by
  unfold setChState
  split
  · rfl
  · exact State.sendVec_ws

theorem setChState_points {s : State} {n : Nat} {st : ChState} : (setChState s n st).points = s.points := by
  unfold setChState
  split
  · rfl
  · exact State.sendVec_points

/-- A served channel of the pool is draining, its capacity is reported and a pass waits (R182). -/
theorem takeOutOp_pool {s : State} {n : Nat} (hr : declRefused s = false) (hf : s.fitted n = true)
    (hp : s.ws.svc.getD n .absent = .inPool)
    (hs : (s.ch n).state = .inService ∨ (s.ch n).state = .linkLost ∨ (s.ch n).state = .starting) :
    takeOutOp n s = trigger (capacityChanged
      ((setSvc s n .draining).modWs (fun w => { w with svcErr := w.svcErr.set n false })) n) 4 := by
  have hst : ¬((s.ch n).state ≠ .inService ∧ (s.ch n).state ≠ .linkLost ∧ (s.ch n).state ≠ .starting) := by
    rintro ⟨h1, h2, h3⟩
    rcases hs with h | h | h <;> contradiction
  simp only [takeOutOp, hr, hf, hp, hst, Bool.not_true, Bool.false_eq_true, ne_eq, not_true_eq_false, or_self, if_false]

/-- A channel that is out of the pool and OUT_OF_SERVICE serves again, in the pool, and a pass waits (R181). -/
theorem bringInOp_out {s : State} {n : Nat} (hr : declRefused s = false) (hp : s.ws.svc.getD n .absent = .out)
    (hs : (s.ch n).state = .outOfService) :
    bringInOp n s = trigger (capacityChanged (setChState
      ((setSvc s n .inPool).modWs (fun w => { w with svcErr := w.svcErr.set n false })) n .inService) n) 7 := by
  simp only [bringInOp, hr, hp, hs, Bool.false_eq_true, ne_eq, not_true_eq_false, or_self, if_false]

/-- Nothing is left on a draining channel (R182). -/
def State.drained (s : State) (n : Nat) : Prop :=
  s.ws.svc.getD n .absent = .draining ∧ s.ws.plan = none ∧
    s.ws.loops.any (fun p => p.2.holds && p.2.channel == n) = false ∧
    s.ws.migrations.any (fun m => !m.arrived && (m.fromCh == n || m.toCh == n)) = false

/-- CHANNEL_DRAINED acts in such a channel once it has started (R182). -/
theorem State.drained.acts {s : State} {n : Nat} (h : s.drained n) (hs : (s.ch n).state ≠ .starting) :
    ¬(s.ws.svc.getD n .absent ≠ .draining ∨ s.ws.plan.isSome = true ∨ (s.ch n).state = .starting ∨
      s.ws.loops.any (fun p => p.2.holds && p.2.channel == n) = true ∨
      s.ws.migrations.any (fun m => !m.arrived && (m.fromCh == n || m.toCh == n)) = true) := by
  obtain ⟨hsvc, hplan, hloops, hmoves⟩ := h
  simp only [hsvc, hplan, hloops, hmoves, hs, Option.isSome_none, Bool.false_eq_true, ne_eq, not_true_eq_false,
    or_self, not_false_eq_true]

/-- CHANNEL_DRAINED in a channel nothing is left on, whose link is up: it is OUT_OF_SERVICE, its link and the other
channels as they were (R182). -/
theorem channelDrainedOp_up {s : State} {n : Nat} (h : s.drained n) (hs : (s.ch n).state = .inService) :
    (channelDrainedOp n s).links = s.links.modify n (fun l => (.outOfService, l.2)) := by
  unfold channelDrainedOp
  rw [if_neg (h.acts (by simp [hs]))]
  simp only [hs, reduceCtorEq, decide_false, Bool.false_eq_true, if_false]
  rw [capacityChanged_links, txnChannelLeft_links, setChState_links,
    State.links_foldl (fun _ _ => acquire_links) (setSvc_links.trans channelOut_links)]

/-- CHANNEL_DRAINED in a channel nothing is left on, whose link is lost: it will be OUT_OF_SERVICE when its link returns
(R31, R32, R182). -/
theorem channelDrainedOp_lost {s : State} {n : Nat} (h : s.drained n) (hs : (s.ch n).state = .linkLost) :
    (channelDrainedOp n s).links = s.links.modify n (fun l => (l.1, .outOfService, l.2.2)) := by
  unfold channelDrainedOp
  rw [if_neg (h.acts (by simp [hs]))]
  simp only [hs, decide_true, if_true]
  rw [capacityChanged_links, txnChannelLeft_links, State.modCh_links_of (g := fun l => (l.1, .outOfService, l.2.2))
    (fun _ => rfl), State.links_foldl (fun _ _ => acquire_links) setSvc_links]

/- ### CHANNEL_FAULT (R183) -/

/-- CHANNEL_FAULT in a fitted channel that is present: it is in FAULT, its crossbar isolated and a fault of the
converter kept; the other channels keep state and link (R183). -/
theorem channelFaultOp_links {s : State} {n : Nat} {conv : Bool} (hf : s.fitted n = true)
    (ha : (s.ch n).state ≠ .absent) (hx : (s.ch n).state ≠ .fault) :
    (channelFaultOp n conv s).links =
      s.links.modify n (fun l => (.fault, l.2.1, false, l.2.2.2.1 && !conv, l.2.2.2.2)) := by
  have hiso : (s.modCh n (fun c => { c with isoOk := c.isoOk && !conv, xbarUp := false })).links =
      s.links.modify n (fun l => (l.1, l.2.1, false, l.2.2.2.1 && !conv, l.2.2.2.2)) :=
    State.modCh_links_of (fun _ => rfl)
  have hfault : (txnChannelLeft (setChState (s.modCh n (fun c =>
      { c with isoOk := c.isoOk && !conv, xbarUp := false })) n .fault) n).links =
      s.links.modify n (fun l => (.fault, l.2.1, false, l.2.2.2.1 && !conv, l.2.2.2.2)) := by
    rw [txnChannelLeft_links, setChState_links, hiso, List.modify_modify_eq]
    rfl
  unfold channelFaultOp
  dsimp only
  rw [if_neg (by simp [hf, ha, hx]), channelYield_links, trigger_links, capacityChanged_links, setSvc_links,
    State.modWs_links, State.links_foldl (fun _ _ => stopLoop_links) State.modWs_links, removeTable_links,
    channelFlightsLost_links]
  refine (State.modCh_links ?_).trans (frameCancelsLost_links.trans (State.alert_links.trans hfault))
  exact fun _ => rfl

/-- Settles O18: a pass opens its transaction by `placementPassOp_opens`; TAKE_OUT and BRING_IN are one change of the
channel's service each; what CHANNEL_DRAINED and CHANNEL_FAULT leave is said of the states and links of all channels. -/
theorem channelService : Obligations.ChannelService := by
  refine ⟨fun s tr ht hp hr hi ho hd hs => ?_, fun s hb hr hu => ?_, fun s n hq hr hf hp hs => ?_,
    fun s n hs hn hsvc hplan hloops hmoves hst => ?_, fun s n hs hn hsvc hplan hloops hmoves hst => ?_,
    fun s n hs hn hq hr hp hst => ?_, fun s n conv hs hn hf ha hx => ?_⟩
  · generalize he : decidePlan s tr = p at hd hs ⊢
    obtain ⟨-, hplan, htrig, hreb, -, hnext, hregs, hrings⟩ := State.planned_parts (s := s) (p := p)
    have hq := State.emits_quiet (f := fun n => .shadow 64 n) (l := planChannels s p ++ [8])
      (s := (s.planned p).planOpened p (planChannels s p))
    have hws := congrArg State.ws hq
    refine ⟨_, rfl, ?_⟩
    rw [placementPassOp_opens he ht hp hr hi ho hd hs, State.emits_txn, State.planOpened_txn]
    exact ⟨(congrArg Watershed.plan hws).trans hplan, (congrArg Watershed.trigger hws).trans htrig,
      (congrArg Watershed.rebalance hws).trans hreb, rfl, hnext, rfl,
      (congrArg State.nextTxn hq :).trans (congrArg (fun k => (k + 1) % 2 ^ 32) hnext),
      (congrArg State.regs hq :).trans hregs, (congrArg State.rings hq :).trans hrings⟩
  · refine ⟨_, rfl, ?_⟩
    rw [rebalanceTimerOp_unbalanced hb hr hu]
    exact ⟨rfl, trigger_waits, rfl, rfl⟩
  · refine ⟨_, rfl, ?_⟩
    rw [ifServed_of hq, takeOutOp_pool hr hf hp hs]
    refine ⟨?_, trigger_waits, ?_, ?_⟩
    · rw [trigger_svc, capacityChanged_ws]
      rfl
    · rw [trigger_chs, capacityChanged_chs]
      rfl
    · rw [trigger_points, capacityChanged_points]
      rfl
  · have h := channelDrainedOp_up ⟨hsvc, hplan, hloops, hmoves⟩ hst
    have hlink := State.link_of_modify h (State.state_ne_absent_lt hs hn)
    exact ⟨_, rfl, congrArg ChanLink.state hlink, congrArg ChanLink.xbarUp hlink,
      fun m hm => congrArg ChanLink.state (State.link_of_modify_ne h hm)⟩
  · have hlink := State.link_of_modify (channelDrainedOp_lost ⟨hsvc, hplan, hloops, hmoves⟩ hst)
      (State.state_ne_absent_lt hs hn)
    exact ⟨_, rfl, (congrArg ChanLink.state hlink).trans hst, congrArg ChanLink.prior hlink⟩
  · refine ⟨_, rfl, ?_⟩
    rw [ifServed_of hq, bringInOp_out hr hp hst]
    refine ⟨?_, ?_, trigger_waits, ?_, fun m hm => ?_⟩
    · rw [trigger_ch, capacityChanged_ch, setChState_ch_self]
      exact State.state_ne_absent_lt hs hn
    · rw [trigger_svc, capacityChanged_ws, setChState_ws]
      rfl
    · rw [trigger_points, capacityChanged_points, setChState_points]
      rfl
    · rw [trigger_ch, capacityChanged_ch, setChState_ch_ne hm]
      rfl
  · have h := channelFaultOp_links (conv := conv) hf ha hx
    have hlink := State.link_of_modify h (State.state_ne_absent_lt hs hn)
    exact ⟨_, rfl, congrArg ChanLink.state hlink, congrArg ChanLink.xbarUp hlink, congrArg ChanLink.isoOk hlink,
      fun m hm => congrArg ChanLink.state (State.link_of_modify_ne h hm)⟩

end Sys2Proof.Machine
end

section
/-! Proof of O20: the hub timebase, its samples, its commands and the loss of its source. -/

namespace Sys2Proof.Machine

/- ### Class and servo of the hub (R195 to R204) -/

/-- A time record leaves the hub timebase. -/
@[simp] theorem timeRec_time {s : State} {i : Nat} {p : List Byte} : (timeRec s i p).time = s.time := timeRec_clock

section
variable {s : State} {new cause : Nat}

@[simp] theorem setClass_cls : (setClass s new cause).time.cls = new := by
  obtain ⟨_, _, _, _, _, _, h⟩ := setClass_time (s := s) (n := new) (c := cause)
  rw [h]

/-- A change of CLASS leaves what a view of the timebase shows, unless it shows the class, the servo's state, its
counts or L. -/
theorem setClass_field {α : Type} (g : HubTime → α)
    (hg : ∀ (t : HubTime) v lk lc uc oc sl, g { t with
      cls := new, servo := v, locked := lk, lockCnt := lc, unlockCnt := uc, overCnt := oc, syncL := sl } = g t) :
    g (setClass s new cause).time = g s.time := by
  obtain ⟨_, _, _, _, _, _, h⟩ := setClass_time (s := s) (n := new) (c := cause)
  rw [h, hg]

@[simp] theorem setClass_now : (setClass s new cause).time.now = s.time.now :=
  setClass_field HubTime.now (by intros; rfl)

@[simp] theorem setClass_adj : (setClass s new cause).time.adj = s.time.adj :=
  setClass_field HubTime.adj (by intros; rfl)

@[simp] theorem setClass_integ : (setClass s new cause).time.integ = s.time.integ :=
  setClass_field HubTime.integ (by intros; rfl)

@[simp] theorem setClass_step : (setClass s new cause).time.step = s.time.step :=
  setClass_field HubTime.step (by intros; rfl)

@[simp] theorem setClass_cmdErr : (setClass s new cause).time.cmdErr = s.time.cmdErr :=
  setClass_field HubTime.cmdErr (by intros; rfl)

@[simp] theorem setClass_ptp : (setClass s new cause).time.ptp = s.time.ptp :=
  setClass_field HubTime.ptp (by intros; rfl)

end

/-- The class in force, set again, changes nothing (R196). -/
theorem setClass_of_cls {s : State} {c cause : Nat} (h : s.time.cls = c) : setClass s c cause = s := if_pos h

/-- A sample of the source in force goes to the servo, with L of its source (R200). -/
theorem offsetSampleOp_of_inForce {s : State} {src : TimeSource} {e l : Int}
    (h : sampleClass s src = some s.time.cls) :
    offsetSampleOp src e l s = takeSample (s.modTime (fun t => { t with syncL := sampleL src l })) e := by
  simp only [offsetSampleOp, h, setClass_of_cls]

/-- A host's offset goes to the servo while CLASS is HOST, with L = 0 (R199, R200). -/
theorem offinOp_of_host {s : State} {data : Word} (hm : srcMode s = 4) (hp : s.standby = false)
    (hc : s.time.cls = 2) :
    offinOp data s = takeSample (s.modTime (fun t => { t with syncL := 0 })) data.toInt := by
  rw [offinOp, if_pos (by simp [hm, hp]), setClass_of_cls hc]

/-- SET with the classes and the nanoseconds it takes: the step is armed and CLASS becomes HOST (R198, R204). -/
theorem setTimeOp_of_ok {s : State} (hc : srcMode s = 4 ∨ s.time.cls = 0 ∨ s.time.cls = 1 ∨ s.time.cls = 3)
    (hg : (s.reg 0x5002C).toNat < giga) :
    setTimeOp s =
      setClass (armStep (s.modTime (fun t => { t with cmdErr := false })) (s.regInstant 0x5002C) 1) 2 0 :=
  if_pos (by simpa [hg, or_assoc] using hc)

/-- PTP or PAIR, lost under any mode: the rate falls to the integrator and CLASS to HOLDOVER (R196, R202). -/
theorem sourceLostOp_of_synced {s : State} (h : s.time.cls = 4 ∨ s.time.cls = 5) :
    sourceLostOp s = setClass (timeRec (s.modTime (fun t => { t with adj := t.integ })) 7
      ([BitVec.ofNat 8 s.time.cls, 0, 0, 0] ++ bytesLE 4 (fld (s.reg 0x50024) 0 17))) 3 0 :=
  if_pos (h.imp_right Or.inl)

/-- The end of holdover: the calendar takes over where the mode is open to it and it is available (R196). -/
theorem holdoverEndOp_of_holdover {s : State} (h : s.time.cls = 3) :
    holdoverEndOp s =
      setClass s (if (srcMode s = 0 ∨ srcMode s = 3) ∧ s.rtcAvailable then 1 else 0) 1 := by
  rw [holdoverEndOp, if_pos h]
  split <;> rfl

/-- Settles O20: a sample is `takeSample_track`; commands and lost sources are changes of CLASS. -/
theorem hubTimebase : Obligations.HubTimebase := by
  refine ⟨fun s src e l hc hs ht he => ?_, fun s data hr hm hp hc hs ht he => ?_, fun s hr hc hg => ?_,
    fun s hr => ?_, fun s hc => ?_, fun s hc => ?_⟩
  · refine ⟨_, rfl, ?_⟩
    rw [offsetSampleOp_of_inForce hc]
    exact takeSample_track hs ht he
  · obtain ⟨hoff, -, hinteg, -, hcls⟩ :=
      takeSample_track (s := s.modTime (fun t => { t with syncL := 0 })) hs ht he
    refine ⟨_, rfl, ?_⟩
    rw [ifReaches_of hr, offinOp_of_host hm hp hc]
    exact ⟨hoff, hinteg, hcls.trans hc⟩
  · refine ⟨_, rfl, ?_⟩
    rw [ifReaches_of hr, setTimeOp_of_ok hc hg]
    simp [armStep]
  · refine ⟨_, rfl, ?_⟩
    rw [ifReaches_of hr]
    simp [invalidateOp]
  · refine ⟨_, rfl, ?_⟩
    rw [sourceLostOp_of_synced hc]
    simp
  · refine ⟨_, rfl, ?_⟩
    rw [holdoverEndOp_of_holdover hc]
    exact ⟨setClass_cls, setClass_adj⟩

end Sys2Proof.Machine
end

section
/-! Proof of O21: the step of the hub, and beacons that leave, arrive or stay away. -/

namespace Sys2Proof.Machine

/- ### The step of the hub (R204, R205) -/

/-- A choice that leaves the hub timebase either way. -/
theorem State.ite_clock {c : Prop} [Decidable c] {a b : State} (h : a.clock = b.clock) :
    (if c then a else b).clock = b.clock := State.clock_ite h rfl

/-- At the boundary of a step that a beacon has announced the hub loads its new time (R204, R205). -/
theorem timeStepOp_time {s : State} {a : StepArm} {y : Instant} (hs : s.time.step = some a) (hy : a.y = some y) :
    (timeStepOp s).time = { s.time with
      now := y, frac := 0, servo := .arm, overCnt := 0, step := none, stepped := true,
      stepCnt := (s.time.stepCnt + 1) % 65536 } := by
  obtain ⟨⟨now, frac, hrun⟩, -⟩ :=
    runTicks_rest (s := s) (k := ticksTo s.time ((s.time.now / 1000 + 1) * 1000))
  simp only [timeStepOp, hs, hy]
  refine (State.foldl_same State.clock (fun _ _ => passExpiryOp_clock)).trans ?_
  refine (State.ite_clock disarm_clock).trans ((State.ite_clock txnStepped_clock).trans ?_)
  refine tableStepped_clock.trans (timeRec_clock.trans ?_)
  rw [State.clock, State.modTime_time, hrun]

/- ### Beacons leave (R206, R207) -/

/-- What BEACON does for one channel: a beacon leaves for a channel present, lost where its link is down. -/
def launchBeacon (b : Beacon) (s : State) (n : Nat) : State :=
  if s.present n then
    (s.modCh n (fun c => { c with tb :=
      { c.tb with beacon := if s.linkDown n then none else some b, silent := c.tb.silent + 1 } })).emit (.beacon n b)
  else s

/-- The channel is there and its link passes. -/
def State.Receives (s : State) (n : Nat) : Prop :=
  n < s.chs.length ∧ s.present n = true ∧ s.linkDown n = false

/-- The beacon has left for the channel and is on its way. -/
def State.Launched (s : State) (b : Beacon) (n : Nat) : Prop :=
  (s.ch n).tb.beacon = some b ∧ .beacon n b ∈ s.out

/-- Beacons for the channels leave what a channel holds beside its timebase. -/
theorem launchBeacon_field {α : Type} (g : Chan → α) (hg : ∀ c tb, g { c with tb := tb } = g c) {b : Beacon}
    {s : State} {m n : Nat} : g ((launchBeacon b s m).ch n) = g (s.ch n) := by
  unfold launchBeacon
  split
  · exact State.modCh_field g (fun c => hg c _)
  · rfl

theorem launchBeacon_time {b : Beacon} {s : State} {m : Nat} : (launchBeacon b s m).time = s.time := by
  unfold launchBeacon
  split <;> rfl

theorem launchBeacon_ident {b : Beacon} {s : State} {m : Nat} : (launchBeacon b s m).ident = s.ident := by
  unfold launchBeacon
  split <;> rfl

theorem launchBeacon_length {b : Beacon} {s : State} {m : Nat} :
    (launchBeacon b s m).chs.length = s.chs.length := by
  unfold launchBeacon
  split
  · exact State.modCh_length
  · rfl

/-- A beacon for any channel leaves every channel there and its link as it was. -/
theorem State.Receives.launchBeacon {s : State} {b : Beacon} {m n : Nat} (h : s.Receives n) :
    (launchBeacon b s m).Receives n := by
  obtain ⟨hlen, hpresent, hlink⟩ := h
  have hstate : ((Machine.launchBeacon b s m).ch n).state = (s.ch n).state :=
    launchBeacon_field Chan.state (fun _ _ => rfl)
  have hup : ((Machine.launchBeacon b s m).ch n).xbarUp = (s.ch n).xbarUp :=
    launchBeacon_field Chan.xbarUp (fun _ _ => rfl)
  refine ⟨launchBeacon_length.symm ▸ hlen, ?_, ?_⟩
  · rw [← hpresent, State.present, State.present, State.fitted, State.fitted, launchBeacon_ident, hstate]
  · rw [← hlink, State.linkDown, State.linkDown, hstate, hup]

/-- The beacon leaves for a channel that receives. -/
theorem launchBeacon_self {s : State} {b : Beacon} {n : Nat} (h : s.Receives n) :
    (launchBeacon b s n).Launched b n := by
  obtain ⟨hlen, hpresent, hlink⟩ := h
  rw [launchBeacon, if_pos hpresent]
  refine ⟨?_, by simp⟩
  show ((s.modCh n _).ch n).tb.beacon = _
  rw [State.modCh_ch_self hlen, hlink]
  rfl

/-- A beacon for another channel leaves one on its way. -/
theorem State.Launched.launchBeacon_ne {s : State} {b : Beacon} {m n : Nat} (h : s.Launched b n) (hne : n ≠ m) :
    (launchBeacon b s m).Launched b n := by
  obtain ⟨hb, hout⟩ := h
  unfold Machine.launchBeacon
  split
  · refine ⟨?_, by simp [hout]⟩
    show ((s.modCh m _).ch n).tb.beacon = _
    rw [State.modCh_ch_ne hne, hb]
  · exact ⟨hb, hout⟩

/-- Beacons for a list of channels are on their way to each of them that receives. -/
theorem launchBeacon_foldl {b : Beacon} {n : Nat} : ∀ {l : List Nat} {s : State}, s.Receives n →
    n ∈ l ∨ s.Launched b n → (l.foldl (launchBeacon b) s).Launched b n
  | [], _, _, h => h.resolve_left List.not_mem_nil
  | m :: l, s, hr, h => by
    rw [List.foldl_cons]
    refine launchBeacon_foldl hr.launchBeacon ?_
    by_cases hm : n = m
    · subst hm
      exact Or.inr (launchBeacon_self hr)
    · exact h.imp (fun hl => (List.mem_cons.mp hl).resolve_left hm) (fun hl => hl.launchBeacon_ne hm)

/-- The hub at the boundary at which a beacon leaves: after a step that of the step itself, else the next one. -/
def beaconBoundary (s : State) : State :=
  if s.time.stepped then s else runTicks (ticksTo s.time ((s.time.now / 1000 + 1) * 1000)) s

/-- The new time a beacon announces while a step is armed (R204). -/
def HubTime.announced (t : HubTime) : Option Instant :=
  match t.step with
  | some a => some (wrapTime (if a.cause = 1 then a.value else (t.now / 1000 * 1000 : Nat) + 1000 + a.value))
  | none => none

/-- The beacon that leaves at a boundary (R206). -/
def HubTime.beacon (t : HubTime) : Beacon :=
  { time := match t.announced with | some y => y | none => t.now
    seq := (t.seq + 1) % 65536, valid := t.cls ≠ 0, stepArm := t.announced.isSome, stepped := t.stepped
    cls := t.cls }

/-- The hub once a beacon has left: its number is counted, and an armed step has its new time. -/
def HubTime.beaconLeft (t : HubTime) : HubTime :=
  { t with seq := t.beacon.seq, stepped := false,
           step := match t.step with | some a => some { a with y := t.announced } | none => none }

/-- BEACON while no step waits at this boundary: one beacon leaves for each channel (R206, R207). -/
theorem beaconOp_of_noStep {s : State} (h : ∀ a, s.time.step = some a → a.y = none) :
    beaconOp s = (List.range 8).foldl (launchBeacon (beaconBoundary s).time.beacon)
      ((beaconBoundary s).modTime HubTime.beaconLeft) := by
  unfold beaconOp
  rw [if_neg]
  · rfl
  · cases hs : s.time.step with
    | none => exact Bool.false_ne_true
    | some a => simp [h a hs]

theorem HubTime.announced_isSome {t : HubTime} : t.announced.isSome = t.step.isSome := by
  unfold HubTime.announced
  cases t.step <;> rfl

/-- On the way to the boundary the hub counts, and nothing else of its timebase changes (R192). -/
theorem beaconBoundary_time {s : State} :
    ∃ now frac, (beaconBoundary s).time = { s.time with now := now, frac := frac } := by
  unfold beaconBoundary
  split
  · exact ⟨_, _, rfl⟩
  · exact runTicks_rest.1

/-- On the way to the boundary every channel stays there, and its link as it was. -/
theorem State.Receives.beaconBoundary {s : State} {n : Nat} (h : s.Receives n) :
    (beaconBoundary s).Receives n := by
  obtain ⟨hlen, hpresent, hlink⟩ := h
  unfold Machine.beaconBoundary
  split
  · exact ⟨hlen, hpresent, hlink⟩
  · obtain ⟨-, hlen', -⟩ := runTicks_rest (s := s) (k := ticksTo s.time ((s.time.now / 1000 + 1) * 1000))
    refine ⟨hlen' ▸ hlen, runTicks_present.trans hpresent, ?_⟩
    rw [State.linkDown, runTicks_field Chan.state (fun _ _ => rfl) (fun _ _ => rfl),
      runTicks_field Chan.xbarUp (fun _ _ => rfl) (fun _ _ => rfl)]
    exact hlink

/-- Every channel that receives has the beacon of this boundary on its way (R206, R207). -/
theorem beaconOp_launched {s : State} {n : Nat} (hn : n < 8) (hr : s.Receives n)
    (h : ∀ a, s.time.step = some a → a.y = none) :
    (beaconOp s).Launched (beaconBoundary s).time.beacon n := by
  rw [beaconOp_of_noStep h]
  exact launchBeacon_foldl hr.beaconBoundary (Or.inl (List.mem_range.mpr hn))

theorem beaconOp_time {s : State} (h : ∀ a, s.time.step = some a → a.y = none) :
    (beaconOp s).time = (beaconBoundary s).time.beaconLeft := by
  rw [beaconOp_of_noStep h]
  exact State.foldl_same State.time (fun _ _ => launchBeacon_time)

/- ### Beacons arrive, or stay away (R208, R421) -/

/-- Beacons lost between the last one that arrived and this one. -/
def ChanTime.gap (t : ChanTime) (b : Beacon) : Nat :=
  match t.lastSeq with
  | some q => (b.seq + 65535 - q) % 65536
  | none => 0

/-- A channel timebase that takes number, class and validity of a beacon, and counts those lost before it (R208). -/
def ChanTime.took (t : ChanTime) (b : Beacon) (gap : Nat) : ChanTime :=
  { t with beacon := none, silent := 0, holdover := false, valid := b.valid, cls := b.cls, lastSeq := some b.seq,
           missed := min 255 (t.missed + gap) }

/-- Channel `n` takes a beacon. -/
def takeBeacon (s : State) (n : Nat) (b : Beacon) : State :=
  s.modCh n (fun c => { c with tb := c.tb.took b ((s.ch n).tb.gap b) })

section
variable {s : State} {n : Nat} {b : Beacon}

/-- A beacon that arms a step: its new time waits in the channel (R208). -/
theorem beaconArrivalOp_stepArm (hp : s.present n = true) (hb : (s.ch n).tb.beacon = some b)
    (ha : b.stepArm = true) (hv : (s.ch n).tb.valid = true) :
    beaconArrivalOp n s = relockCheck
      ((takeBeacon s n b).modCh n (fun c => { c with tb := { c.tb with stepTo := some b.time } })) n := by
  simp only [beaconArrivalOp, hb, hp, ha, hv, Bool.not_true, Bool.false_and, Bool.false_eq_true, if_false, if_true]
  rfl

/-- A beacon that arms no step: its offset goes to the servo of the channel and to its lock (R208). -/
theorem beaconArrivalOp_plain (hp : s.present n = true) (hb : (s.ch n).tb.beacon = some b)
    (ha : b.stepArm = false) (hv : (s.ch n).tb.valid = true) {e : Int}
    (he : e = ((s.ch n).tb.now : Int) - ((b.time + (s.ch n).tb.delay : Nat) : Int)) :
    beaconArrivalOp n s = relockCheck (chanLock (chanServo
      ((takeBeacon s n b).modCh n (fun c => { c with tb := { c.tb with lastPlain := b.time } })) n b e) n e) n := by
  subst he
  simp only [beaconArrivalOp, hb, hp, ha, hv, Bool.not_true, Bool.false_and, Bool.false_eq_true, if_false]
  rfl

theorem takeBeacon_modCh_length {f : Chan → Chan} (hn : n < s.chs.length) :
    n < ((takeBeacon s n b).modCh n f).chs.length := by
  rwa [State.modCh_length, takeBeacon, State.modCh_length]

theorem takeBeacon_modCh_self {f : Chan → Chan} (hn : n < s.chs.length) :
    ((takeBeacon s n b).modCh n f).ch n =
      f { s.ch n with tb := (s.ch n).tb.took b ((s.ch n).tb.gap b) } := by
  rw [State.modCh_ch_self (by rwa [takeBeacon, State.modCh_length]), takeBeacon, State.modCh_ch_self hn]

/-- A beacon within the step threshold moves the servo of its channel and the lock, and nothing else (R208). -/
theorem chanLock_chanServo_small {e : Int} (hn : n < s.chs.length) (he : e.natAbs ≤ 1000) :
    ∃ integ adj locked lockCnt unlockCnt,
      ((chanLock (chanServo s n b e) n e).ch n).tb = { (s.ch n).tb with
        integ := integ, adj := adj, offset := e, locked := locked, lockCnt := lockCnt, unlockCnt := unlockCnt } ∧
      (chanLock (chanServo s n b e) n e).points = s.points ∧
      ((chanLock (chanServo s n b e) n e).ch n).relock = (s.ch n).relock ∧
      (chanLock (chanServo s n b e) n e).chs.length = s.chs.length := by
  rw [chanServo_small he]
  obtain ⟨_, _, _, htb, hpoints, hrelock, hlen⟩ := chanLock_tb (e := e) (State.modCh_length.symm ▸ hn)
  rw [htb, hpoints, hrelock, hlen, State.modCh_ch_self hn]
  exact ⟨_, _, _, _, _, rfl, rfl, rfl, State.modCh_length⟩

/-- A channel that holds RELEASE_ARMED and works stops (R417, R421). -/
theorem stopChannel_of_armed {h : Instant} (ha : (s.ch n).relArmed = true) (hs : (s.ch n).stopped = false) :
    stopChannel s n h = s.modCh n (fun c =>
      { c with stopped := true, stopH := h, can := c.can.map (fun x => { x with pendingMode := true }) }) :=
  if_pos (by simp [ha, hs])

end

/-- Settles O21: a step of the hub, a beacon that leaves, the two kinds that arrive, and the silence. -/
theorem stepsAndBeacons : Obligations.StepsAndBeacons := by
  refine ⟨fun s a y hs hy => ?_, fun s n hs hn hp hl ha => ?_, fun s n b hs hn hp hb ha hv => ?_,
    fun s n b hs hn hp hb ha hv he => ?_, fun s n hs hn ha hst => ?_⟩
  · refine ⟨_, rfl, ?_⟩
    rw [timeStepOp_time hs hy]
    exact ⟨rfl, rfl, rfl, rfl, rfl, rfl, rfl⟩
  · obtain ⟨hbeacon, hout⟩ := beaconOp_launched hn ⟨(State.chs_length hs).symm ▸ hn, hp, hl⟩ ha
    obtain ⟨now, frac, ht⟩ := beaconBoundary_time (s := s)
    have hleft := beaconOp_time ha
    refine ⟨_, _, rfl, hbeacon, ?_, ?_, ?_, ?_, ?_, hout, ?_, ?_⟩
    · rw [ht]; rfl
    · rw [ht]; rfl
    · rw [ht]; rfl
    · exact HubTime.announced_isSome.trans (by rw [ht])
    · rw [ht]; rfl
    · rw [hleft]; rfl
    · rw [hleft]; rfl
  · have hlen : n < s.chs.length := (State.chs_length hs).symm ▸ hn
    have hself := takeBeacon_modCh_self (b := b) hlen
      (f := fun c => { c with tb := { c.tb with stepTo := some b.time } })
    obtain ⟨htb, hrelock, hsame⟩ := relockCheck_tb (takeBeacon_modCh_length (b := b) hlen
      (f := fun c => { c with tb := { c.tb with stepTo := some b.time } }))
    refine ⟨_, rfl, ?_⟩
    rw [beaconArrivalOp_stepArm hp hb ha hv, htb, hrelock, hself]
    refine ⟨rfl, rfl, rfl, rfl, rfl, rfl, rfl, rfl, fun hr m hm => ?_⟩
    rw [hsame (hself ▸ hr), State.modCh_ch_ne hm, takeBeacon, State.modCh_ch_ne hm]
  · have hlen : n < s.chs.length := (State.chs_length hs).symm ▸ hn
    have hlen' := takeBeacon_modCh_length (b := b) hlen
      (f := fun c => { c with tb := { c.tb with lastPlain := b.time } })
    obtain ⟨_, _, _, _, _, hplain, hpoints, hrel, hlock⟩ := chanLock_chanServo_small (b := b) hlen' he
    obtain ⟨htb, hrelock, hsame⟩ := relockCheck_tb (hlock.symm ▸ hlen')
    rw [takeBeacon_modCh_self hlen] at hplain hrel
    refine ⟨_, rfl, ?_⟩
    rw [beaconArrivalOp_plain hp hb ha hv rfl, hrelock, htb, hrel, hplain]
    refine ⟨rfl, rfl, rfl, rfl, rfl, rfl, fun hr => ?_⟩
    rw [hsame (hrel.trans hr), hpoints]
    rfl
  · refine ⟨_, rfl, ?_⟩
    rw [beaconSilenceOp, stopChannel_of_armed ha hst, State.modCh_ch_self ((State.chs_length hs).symm ▸ hn)]
    exact ⟨rfl, rfl, fun m hm => State.modCh_ch_ne hm, rfl⟩

end Sys2Proof.Machine
end

section
/-! Proof of O22: PTP and gPTP messages, and the timestamp queues. -/

namespace Sys2Proof.Machine

/- ### PTP at the backbone ports (R211 to R213) -/

/-- The loss of a source leaves the PTP ports and the counter of the hub. -/
theorem sourceLostOp_ptp {s : State} : (sourceLostOp s).time.ptp = s.time.ptp := by
  simp only [sourceLostOp]
  split_ifs <;> simp

theorem sourceLostOp_now {s : State} : (sourceLostOp s).time.now = s.time.now := by
  simp only [sourceLostOp]
  split_ifs <;> simp

theorem sourceCheck_ptp {s : State} : (sourceCheck s).time.ptp = s.time.ptp := by
  unfold sourceCheck
  split
  · exact sourceLostOp_ptp
  · rfl

theorem sourceCheck_now {s : State} : (sourceCheck s).time.now = s.time.now := by
  unfold sourceCheck
  split
  · exact sourceLostOp_now
  · rfl

/-- PORT_STATE of a port reads as set. -/
theorem setPortState_self {s : State} {p v : Nat} : (setPortState s p v).time.ptp.state p = v := by
  by_cases hp : p = 0 <;> simp [setPortState, Ptp.state, hp]

/-- PORT_STATE of the other port stays. -/
theorem setPortState_other {s : State} {p v : Nat} (hp : p < 2) :
    (setPortState s p v).time.ptp.state (1 - p) = s.time.ptp.state (1 - p) := by
  obtain rfl | rfl : p = 0 ∨ p = 1 := by omega
  · rfl
  · rfl

theorem setPortState_now {s : State} {p v : Nat} : (setPortState s p v).time.now = s.time.now := rfl

/-- An Announce whose state is one of R212 and not SLAVE: the port takes it (R212). -/
theorem announceOp_of_ne_slave {s : State} {p st : Nat} {gm : Slot} {utc : Int} {l61 l59 uv : Bool} (h6 : st ≤ 6)
    (h3 : st ≠ 3) : announceOp p st gm utc l61 l59 uv s = sourceCheck (setPortState s p st) := by
  have hno : ¬ (6 < st ∨ (st = 3 ∧ (s.time.ptp.state (1 - p) = 3 ∨ s.standby = true))) := by omega
  simp only [announceOp, if_neg hno, if_neg h3]

/-- A good Announce at a port that is up and takes part (R213). -/
theorem ptpMessageOp_announce {s : State} {p st : Nat} {gm : Slot} {utc : Int} {l61 l59 uv : Bool} {f : EthFrame}
    {stamp : Instant} (hup : (s.net p).up = true) (hp : ptpPort s p = true) (hf : f.fcsOk = true) :
    ptpMessageOp p (.announce st gm utc l61 l59 uv) f stamp s =
      announceOp p st gm utc l61 l59 uv (netJudge s p f stamp) := by
  simp [ptpMessageOp, hup, hp, hf]

/-- A message that the port's state allows leaves (R211, R212). -/
theorem ptpTransmitOp_of_allowed {s : State} {p k : Nat} (hp : ptpPort s p = true) (hup : (s.net p).up = true)
    (hk : (s.time.ptp.state p = 2 ∧ (k = 0 ∨ k = 1 ∨ (k = 2 ∧ bitN (s.reg 0x50080) (5 + p) = false))) ∨
      (s.time.ptp.state p = 3 ∧ k = (if bitN (s.reg 0x50080) 1 then 4 else 3))) :
    ptpTransmitOp p k s = netAct (s.tick1.emit (.ptp p (ptpSend s p k))) p := by
  unfold ptpTransmitOp
  refine if_pos ?_
  rcases hk with ⟨hst, rfl | rfl | ⟨rfl, hone⟩⟩ | ⟨hst, rfl⟩
  · simp [hp, hup, hst]
  · simp [hp, hup, hst]
  · simp [hp, hup, hst, hone]
  · cases bitN (s.reg 0x50080) 1 <;> simp [hp, hup, hst]

/- ### gPTP on the segments, and the timestamp queues (R215, R219) -/

/-- A message depends on none sent before it. -/
@[simp] theorem segSend_emit {s : State} {e : Emission} {n k : Nat} : segSend (s.emit e) n k = segSend s n k := rfl

/-- The messages of a segment leave in their order, with nothing else changed (R215). -/
theorem emitSeg_eq {n x : Nat} : ∀ {kinds : List Nat} {s : State}, emitSeg s n x kinds =
    { s with out := s.out ++ kinds.map (fun k => .ptp (16 + 2 * n + x) (segSend s n k)) }
  | [], s => by rw [List.map_nil, List.append_nil]; rfl
  | k :: kinds, s => by
    refine (emitSeg_eq (kinds := kinds) (s := s.emit (.ptp (16 + 2 * n + x) (segSend s n k)))).trans ?_
    simp only [segSend_emit, State.emit_out, List.append_assoc]
    rfl

/-- A segment's messages do not depend on what its port notes of its nodes. -/
theorem segSend_modSeg {s : State} {n x k : Nat} {f : Seg → Seg} : segSend (s.modSeg n x f) n k = segSend s n k := by
  have hnow : (s.modSeg n x f).chNow n = s.chNow n :=
    State.modSeg_keep (fun c => c.tb.now) (fun _ _ => rfl)
  simp only [segSend, hnow]
  rfl

/-- The head of a queue is gone, and the queue's overflow counter stays (R219). -/
theorem tsqPopOp_self {s : State} {q : Nat} (hq : q < s.tsqs.length) :
    (tsqPopOp q s).tsqs.getD q Tsq.reset =
      { s.tsqs.getD q Tsq.reset with
        entries := (s.tsqs.getD q Tsq.reset).entries.drop 1
        told := if (s.tsqs.getD q Tsq.reset).entries.length ≤ 1 then false else (s.tsqs.getD q Tsq.reset).told } := by
  simp [tsqPopOp, List.getD_eq_getElem?_getD, hq]

/-- Settles O22: an Announce, the messages a port's state allows, those of a segment, and the queue's head. -/
theorem ptpMessages : Obligations.PtpMessages := by
  refine ⟨fun s p st gm utc l61 l59 uv f ago hp hup hpp hf h6 h3 => ?_, fun s p k hp hup hk => ?_,
    fun s p hg hc => ?_, fun s p hg => ?_, fun s n x hs => ?_, fun s n hc => ?_,
    fun s n x j hs hn hx hg => ?_, fun s q e es hr hq he => ?_⟩
  · refine ⟨_, rfl, ?_⟩
    rw [ptpMessageOp_announce hup hpp hf, announceOp_of_ne_slave h6 h3, sourceCheck_ptp, sourceCheck_now,
      setPortState_self, setPortState_other hp, setPortState_now]
    have hclock := netJudge_clock (s := s) (p := p) (f := f) (stamp := s.hubStamp ago)
    exact ⟨rfl, congrArg (fun t => t.ptp.state (1 - p)) hclock, congrArg HubTime.now hclock⟩
  · refine ⟨_, rfl, ?_⟩
    rw [ptpTransmitOp_of_allowed hp hup hk]
    simp [netAct]
  · have hcls : s.time.cls = 0 ∨ s.time.cls = 1 ∨ s.time.cls = 2 ∨ s.time.cls = 3 := by omega
    rcases hcls with h | h | h | h <;> simp [ptpSend, clockClass, hg, h]
  · simp [ptpSend, clockClass, hg]
  · show Host.Outcome.next (gptpSyncOp n x s) = _
    rw [gptpSyncOp, if_pos hs, emitSeg_eq]
    rfl
  · show some (segClass s.time.cls) = some 6
    rw [segClass, if_neg (by omega), if_neg (by omega), if_neg (by omega)]
  · have hlen : n < s.chs.length := (State.chs_length hs).symm ▸ hn
    refine ⟨_, rfl, ?_⟩
    rw [pdelayReqOp, if_pos hg, emitSeg_eq]
    refine ⟨?_, ?_, ?_⟩
    · show amGet ((s.modSeg n x _).seg n x).gptp j = _
      rw [State.modSeg_seg_self hlen hx, amGet_amSet_self]
    · simp [segSend_modSeg]
    · show ((s.modSeg n x _).seg n x).txq = _
      rw [State.modSeg_seg_self hlen hx]
  · have hself := tsqPopOp_self hq
    refine ⟨_, rfl, ?_⟩
    rw [ifReaches_of hr, hself, he]
    exact ⟨rfl, rfl, rfl⟩

end Sys2Proof.Machine
end

section
/-! Proof of O23: timed actions that fire, loop groups, calibration, and tables switched off and on. -/

namespace Sys2Proof.Machine

/-! ### A DOUT entry fires -/

/-- An entry whose only occurrence has been counted, that much late. -/
def Entry.counted (e : Entry) (late : Nat) : Entry := { e with done := 1, late := late, st := .pending }

/-- The state in which an occurrence acts: it is counted in its table and noted (R230). -/
def State.occBegun (s : State) (t i : Nat) (e e' : Entry) (occ : Instant) : State :=
  noteFired (((s.modEnt t i (fun _ => { e' with skipDet := 0 })).modEnt t i
    (fun e => { e with last := some occ })).mirror (.actionLast t i occ)) e

/-- A change of an entry leaves what a channel holds beside its table. -/
theorem State.modEnt_field {α : Type} (g : Chan → α) (hg : ∀ c tb, g { c with table := tb } = g c) {s : State}
    {t i m : Nat} {f : Entry → Entry} : g ((s.modEnt t i f).ch m) = g (s.ch m) :=
  State.modTbl_field g hg

theorem State.modTbl_points {s : State} {t : Nat} {f : Table → Table} : (s.modTbl t f).points = s.points := by
  obtain ⟨-, -, hpoints, -⟩ := State.modTbl_rest (s := s) (t := t) (f := f)
  exact hpoints

theorem State.modEnt_points {s : State} {t i : Nat} {f : Entry → Entry} : (s.modEnt t i f).points = s.points :=
  State.modTbl_points

/-- Remembering a cookie changes the list of cookies alone (R141). -/
theorem noteFired_eq {s : State} {e : Entry} : ∃ l, noteFired s e = { s with fired := l } := by
  unfold noteFired
  split
  · exact ⟨s.fired, rfl⟩
  · exact ⟨_, rfl⟩

theorem State.occBegun_points {s : State} {t i : Nat} {e e' : Entry} {occ : Instant} :
    (s.occBegun t i e e' occ).points = s.points := by
  unfold State.occBegun
  obtain ⟨l, h⟩ := noteFired_eq
  rw [h]
  simp only [State.mirror_points, State.modEnt_points]

theorem State.occBegun_ws {s : State} {t i : Nat} {e e' : Entry} {occ : Instant} :
    (s.occBegun t i e e' occ).ws = s.ws := by
  unfold State.occBegun
  obtain ⟨l, h⟩ := noteFired_eq
  rw [h]
  simp only [State.mirror_ws, State.modEnt_ws]

theorem State.occBegun_links {s : State} {t i : Nat} {e e' : Entry} {occ : Instant} :
    (s.occBegun t i e e' occ).links = s.links :=
  noteFired_links.trans (State.mirror_links.trans (State.modEnt_links.trans State.modEnt_links))

theorem State.occBegun_field {α : Type} (g : Chan → α) (hg : ∀ c tb, g { c with table := tb } = g c) {s : State}
    {t i m : Nat} {e e' : Entry} {occ : Instant} : g ((s.occBegun t i e e' occ).ch m) = g (s.ch m) := by
  unfold State.occBegun
  obtain ⟨l, h⟩ := noteFired_eq
  rw [h]
  show g (State.ch (State.mirror _ _) m) = _
  rw [State.mirror_ch, State.modEnt_field g hg, State.modEnt_field g hg]

/-- Who owns a terminal depends on the points, on the loops, and on the slots they run in (R241, R271). -/
theorem termOwned_congr {s t : State} (hp : t.points = s.points) (hw : t.ws = s.ws)
    (hs : ∀ m, (t.ch m).slots = (s.ch m).slots) (n x : Nat) : termOwned t n x = termOwned s n x := by
  simp only [termOwned, State.localPoints, State.loopOut, hp, hw, hs]

/-- An occurrence within the tolerance of its entry is not missed (R235). -/
theorem late_in_tolerance {now start tol : Nat} (h : now < start + 5 ∨ tol = 0xFFFF ∨ now - start ≤ 1000 * tol) :
    ¬ (tol ≠ 0xFFFF ∧ tol * 1000 < if now < start + 5 then 0 else now - start) := by
  split <;> omega

/-- A due single occurrence of a working channel's DOUT entry, within its tolerance, is counted and acts (R230, R235). -/
theorem fireEntry_single {s : State} {n i : Nat} {e : Entry} {mask value : BitVec 8} (hn : n < 8)
    (he : amGet (s.ch n).table.entries i = some e) (hk : e.kind = .dout mask value) (hp : e.period = 0)
    (hd : e.done = 0) (hst : e.st = .pending) (hw : e.waiting = false) (hv : (s.ch n).tb.valid = true)
    (hen : (s.ch n).tableEn = true) (hrun : s.loopsRun n = true) (hdue : e.start ≤ s.chNow n)
    (htol : s.chNow n < e.start + 5 ∨ e.tol = 0xFFFF ∨ s.chNow n - e.start ≤ 1000 * e.tol) :
    ∃ late, fireEntry false n i s = actOn (s.occBegun n i e (e.counted late) e.start) n i
      { e.counted late with last := some e.start, skipDet := 0 } e.start := by
  have hpassed : e.passedAt (s.chNow n) = 1 := by
    simp [Entry.passedAt, Entry.total, hp, Nat.not_lt.mpr hdue]
  have hocc : e.occ 0 = e.start := by simp [Entry.occ]
  have hnear : ¬ s.chNow n + entryLead s n e + 2 < e.start :=
    Nat.not_lt.mpr (Nat.le_add_right_of_le (Nat.le_add_right_of_le hdue))
  have hintol := late_in_tolerance htol
  generalize hl : (if s.chNow n < e.start + 5 then 0 else s.chNow n - e.start) = late at hintol
  refine ⟨late, ?_⟩
  simp [fireEntry, State.tbl, State.tblNow, State.tblValid, Entry.total, mayFire, hn, he, hk, hp, hd, hst, hw, hv, hen,
    hrun, hpassed, hocc, hnear, hl, hintol, State.occBegun, Entry.counted]

/-- A DOUT entry of outputs that no loop owns and no guard holds latches them (R233, R241). -/
theorem actOn_dout {s : State} {t i : Nat} {e : Entry} {occ : Instant} {mask value : BitVec 8}
    (hk : e.kind = .dout mask value) (hfree : ∀ x < 8, mask.getLsbD x = true → termOwned s t (16 + x) = false)
    (hguard : s.guardHolds t = false) :
    ∃ st outcome us last, actOn s t i e occ = occOutcome (fireDouts s t mask value st) t i e outcome 0 us last := by
  have hown : ¬ (List.range 8).any (fun d => mask.getLsbD d && termOwned s t (16 + d)) = true := by
    rw [List.any_eq_true]
    rintro ⟨x, hx, hboth⟩
    rw [Bool.and_eq_true] at hboth
    rw [hfree x (List.mem_range.mp hx) hboth.1] at hboth
    exact Bool.false_ne_true hboth.2
  simp only [actOn, hk, if_neg hown, hguard, Bool.false_eq_true, if_false]
  exact ⟨_, _, _, _, rfl⟩

/-- In the state in which it acts, such an entry puts every output it names into its state (R233). -/
theorem actOn_occBegun_dout {s : State} {n i d : Nat} {e e' a : Entry} {occ : Instant} {mask value : BitVec 8}
    (hn : n < s.chs.length) (hlen : (s.dio n).dout.length = 8) (hd : d < 8) (hm : mask.getLsbD d = true)
    (hk : a.kind = .dout mask value) (hfree : ∀ x < 8, mask.getLsbD x = true → termOwned s n (16 + x) = false)
    (hguard : s.guardHolds n = false) :
    ((actOn (s.occBegun n i e e' occ) n i a occ).dout n d).cmd = value.getLsbD d := by
  have hdio : (s.occBegun n i e e' occ).dio n = s.dio n := State.occBegun_field Chan.dio (fun _ _ => rfl)
  have hchs : (s.occBegun n i e e' occ).chs.length = s.chs.length := State.chs_length_of_links State.occBegun_links
  have hown : ∀ x, termOwned (s.occBegun n i e e' occ) n x = termOwned s n x :=
    termOwned_congr State.occBegun_points State.occBegun_ws
      (fun m => State.occBegun_field Chan.slots (fun _ _ => rfl)) n
  obtain ⟨st, outcome, us, last, hact⟩ := actOn_dout (s := s.occBegun n i e e' occ) (t := n) (i := i) (occ := occ) hk
    (fun x hx hmx => by rw [hown, hfree x hx hmx]) (by rw [State.guardHolds, hdio]; exact hguard)
  rw [hact]
  show (((occOutcome _ _ _ _ _ _ _ _).ch n).dio.dout.getD d Dout.reset).cmd = _
  rw [occOutcome_field (fun c => (c.dio.dout.getD d Dout.reset).cmd) (fun _ _ => rfl) (fun _ _ => rfl)]
  exact fireDouts_cmd (by rwa [hchs]) (by rwa [hdio]) hd hm

/-- With nothing accepted before it for the same instant an entry fires alone (R231). -/
theorem actionFireOp_alone {s : State} {n i : Nat} {e : Entry} (hn : n < 8)
    (he : amGet (s.ch n).table.entries i = some e) (hb : firesBefore s n e = []) :
    actionFireOp n i s = fireEntry false n i s := by
  simp [actionFireOp, State.tbl, hn, he, hb]

/-! ### A loop group is prepared -/

/-- The channels of a group of one loop. -/
def groupChans (l : Loop) : List Nat := (List.range 8).filter (fun n => l.channel == n)

/-- The transaction of a group of one loop, due at `t` (R249). -/
def groupTxn (s : State) (op : Nat) (l : Loop) (t : Instant) : Txn :=
  { Txn.reset with
    state := .preparing, id := s.nextTxn, scope := (groupChans l).foldl (fun m n => m + 2 ^ n) 0
    staged := [groupWrite s op l], apply := t, isAt := true, waitPrep := groupChans l ++ [8] }

/-- The state with that transaction opened in the context of entry `i`, whose occurrence is counted in `e'`. -/
def State.groupOpened (s : State) (i op : Nat) (l : Loop) (t : Instant) (e' : Entry) : State :=
  State.modEnt { (s.modEnt 8 i (fun _ => e')).modTxn (128 + i) (fun _ => groupTxn s op l t) with
    nextTxn := (s.nextTxn + 1) % 2 ^ 32 } 8 i (fun e => { e with prep := some (groupChans l) })

theorem State.groupOpened_txn {s : State} {i op : Nat} {l : Loop} {t : Instant} {e' : Entry} :
    (s.groupOpened i op l t e').txn (128 + i) = groupTxn s op l t := by
  rw [State.groupOpened, State.txn_congr State.modEnt_txns, State.txn_nextTxn, State.modTxn_txn_self]

/-- With no other transaction under way that of a group meets no conflict (R85). -/
theorem State.groupOpened_conflicts {s : State} {i op : Nat} {l : Loop} {t : Instant} {e' : Entry}
    (h : ∀ o ∈ s.txns, o.1 ≠ 128 + i → o.2.state ≠ .preparing ∧ o.2.state ≠ .pending) :
    conflicts (s.groupOpened i op l t e') (128 + i) = false := by
  refine conflicts_alone (by rw [State.groupOpened_txn]; rfl) ?_
  intro o ho hc
  rcases amSet_mem ho with he | hold
  · exact absurd (congrArg Prod.fst he) hc
  · exact h o hold hc

/-- The channel of a group of one loop serves where the loop's does. -/
theorem groupChans_inService {s : State} {l : Loop} (h : s.inService l.channel = true) :
    (groupChans l).any (fun n => !s.inService n) = false := by
  rw [List.any_eq_false]
  intro n hmem
  have hchan : l.channel = n := by simpa using (List.mem_filter.mp hmem).2
  rw [← hchan, h]
  exact Bool.false_ne_true

/-- What is staged for a loop depends on its slot's register and not on a table (R249). -/
theorem groupWrite_modEnt {s : State} {t i op : Nat} {f : Entry → Entry} {l : Loop} :
    groupWrite (s.modEnt t i f) op l = groupWrite s op l := by
  simp only [groupWrite, State.slotReg, State.modEnt_reg]

/-- One thing put out for each of a list leaves what putting out leaves. -/
theorem State.emits_same {α β : Type} (F : State → β) (hF : ∀ s x, F (State.emit s x) = F s) {f : α → Emission}
    {l : List α} {s : State} : F (l.foldl (fun s a => s.emit (f a)) s) = F s :=
  State.foldl_same F (fun s a => hF s (f a))

/-- 10 ms before its instant a group of one placed loop in service opens its transaction (R249). -/
theorem groupPrepOp_opens {s : State} {i op : Nat} {ids : List Nat} {e : Entry} {l : Loop}
    (he : amGet s.hlist.entries i = some e) (hk : e.kind = .loopGroup op ids)
    (hl : ids.filterMap (fun id => amGet s.ws.loops id) = [l]) (hlen : ids.length = 1) (hp : e.period = 0)
    (hd : e.done = 0) (hst : e.st = .pending) (hprep : e.prep = none) (hv : s.timeValid = true)
    (hsb : s.standby = false) (hnow : s.time.now < e.start)
    (hsoon : ceilSample e.start ≤ s.time.now + 10000000 + 1000)
    (hlate : s.time.now + 10000000 ≤ ceilSample e.start + 1000) (hpl : l.st = .placed) (hgone : l.gone = false)
    (hserve : s.inService l.channel = true)
    (ho : ∀ o ∈ s.txns, o.1 ≠ 128 + i → o.2.state ≠ .preparing ∧ o.2.state ≠ .pending) :
    groupPrepOp i s = (groupChans l ++ [8]).foldl (fun s n => s.emit (.shadow (128 + i) n))
      (s.groupOpened i op l (ceilSample e.start) { e.counted 0 with skipDet := 0 }) := by
  have hpassed : e.passedAt s.time.now = 0 := by simp [Entry.passedAt, hnow]
  have hocc : e.occ 0 = e.start := by simp [Entry.occ]
  have hnotyet : ¬ s.time.now + 10000000 + 1000 < ceilSample e.start := Nat.not_lt.mpr hsoon
  have hopens : ¬ (conflicts (s.groupOpened i op l (ceilSample e.start) { e.counted 0 with skipDet := 0 }) (128 + i) ||
      (groupChans l).any (fun n => !s.inService n)) = true := by
    rw [State.groupOpened_conflicts ho, groupChans_inService hserve]
    exact Bool.false_ne_true
  -- With the fields of `e` put in place, both sides name the same entry.
  cases e
  dsimp only at hk hp hd hst hprep hpassed hocc hnotyet hlate hopens ⊢
  subst hk hp hd hst hprep
  simp only [groupPrepOp, he, Entry.total, hv, hsb, hpassed, hocc, hnotyet, hlate, State.modEnt_ws, hl, hlen, hpl, hgone,
    groupWrite_modEnt, State.modEnt_nextTxn, List.map_cons, List.map_nil, List.any_cons, List.any_nil, Bool.or_false,
    Nat.zero_sub, Nat.max_self, Nat.sub_self, Nat.not_lt_zero, and_false, if_true, if_false]
  exact if_neg hopens

/-! ### Calibration -/

/-- Whether calibration is accepted depends on no register but those that join or wire outputs (R234). -/
theorem calOk_setReg {s : State} {n k : Nat} {sel w : Word} (h1 : chBase n + 0x900A4 ≠ k) (h2 : 0x80020 + 4 * n ≠ k) :
    calOk (s.setReg k w) n sel = calOk s n sel := by
  have hch : ∀ m, (s.setReg k w).ch m = s.ch m := fun m => by simp only [State.ch, State.setReg_chs]
  have hown : ∀ x, termOwned (s.setReg k w) n x = termOwned s n x :=
    termOwned_congr State.setReg_points State.setReg_ws (fun m => by rw [hch]) n
  have hwor : ∀ d, (s.setReg k w).wor n d = s.wor n d := fun d => by
    have h1' : chBase n + 0x90000 + 0xA4 ≠ k := h1
    simp only [State.wor, State.dioReg, State.joinedDo, State.reg_setReg_ne h1', State.reg_setReg_ne h2, State.setReg_pair]
  simp only [calOk, State.setReg_lc, State.dio, hch, hown, hwor]

/-- A calibration that is accepted starts for the terminals selected (R234). -/
theorem calStartOp_accepted {s : State} {n : Nat} {sel : Word} (hc : (s.dio n).cal = none)
    (hb : bitN sel 16 = true) (hok : calOk s n sel = true) : calStartOp n sel s =
      (s.setReg (chBase n + 0x20010) (sel &&& 0xFFF)).modDio n
        (fun c => { c with cal := some (sel &&& 0xFFF), calErr := false }) := by
  have hok' : calOk (s.setReg (chBase n + 0x20010) (sel &&& 0xFFF)) n sel = true := by
    rw [calOk_setReg (by omega) (by unfold chBase; omega), hok]
  have hidle : ¬ (s.dio n).cal.isSome = true := by rw [hc]; exact Bool.false_ne_true
  rw [calStartOp, if_neg hidle]
  exact (if_neg (by rw [hb]; exact Bool.false_ne_true)).trans (if_pos hok')

/-- The result of a selected DOUT is written over its compensation, and calibration is over (R234). -/
theorem calDoneOp_single {s : State} {n k on off : Nat} {sel : Word} (hc : (s.dio n).cal = some sel) (hk : k < 8)
    (hb : bitN sel k = true) : calDoneOp n [(k, on, off)] s =
      (s.setReg (chBase n + 0x20100 + 4 * k) (BitVec.ofNat 32 (on % 65536 + off % 65536 * 65536))).modDio n
        (fun c => { c with cal := none }) := by
  have hsel : k < 12 ∧ bitN sel k = true := ⟨by omega, hb⟩
  rw [calDoneOp, hc]
  dsimp only [List.foldl_cons, List.foldl_nil]
  rw [if_pos hsel, if_pos hk]

/-! ### Tables off and on -/

/-- What switching a table off does to one entry: a descriptor entry is cancelled, a declared one stops (R245). -/
def stopEntry (n : Nat) (s : State) (i : Nat) : State :=
  match amGet (s.tbl n).entries i with
  | none => s
  | some e =>
    if e.origin ≠ .declared then (if e.waiting then s else cancelEntry s n i e 0x24)
    else if e.st = .ended ∨ e.st = .stopped then s
    else (actOutcome s n i e oCancelled 0x24 0 false).modEnt n i (fun e => { e with st := .stopped })

/-- The enable of a table, with its register. -/
def State.tableSet (s : State) (n : Nat) (en : Bool) : State :=
  (s.setReg (chBase n + 0x20000) (if en then 1 else 0)).modCh n (fun c => { c with tableEn := en })

theorem tableOffOp_enabled {s : State} {n : Nat} (h : (s.ch n).tableEn = true) :
    tableOffOp n s = ((s.tableSet n false).tblKeys n).foldl (stopEntry n) (s.tableSet n false) := by
  simp only [tableOffOp, h, State.tableSet, Bool.not_true, Bool.false_eq_true, if_false]
  rfl

theorem tableOnOp_disabled {s : State} {n : Nat} (h : (s.ch n).tableEn = false) :
    tableOnOp n s = (s.tableSet n true).modTbl n (fun b => { b with entries := b.entries.map (fun p =>
      if p.2.st = .stopped then (p.1, { p.2 with st := if p.2.done = 0 then .pending else .running }) else p) }) := by
  simp only [tableOnOp, h, State.tableSet, Bool.false_eq_true, if_false, if_true]

theorem State.tableSet_reg {s : State} {n : Nat} {en : Bool} :
    (s.tableSet n en).reg (chBase n + 0x20000) = if en then 1 else 0 :=
  (State.reg_congr State.modCh_regs _).trans State.reg_setReg_self

theorem State.tableSet_length {s : State} {n : Nat} {en : Bool} : (s.tableSet n en).chs.length = s.chs.length := by
  rw [State.tableSet, State.modCh_length, State.setReg_chs]

/-- A changed table of a channel reads as changed. -/
theorem State.modTbl_table_self {s : State} {n : Nat} {f : Table → Table} (h : n < 8) (hn : n < s.chs.length) :
    ((s.modTbl n f).ch n).table = f (s.ch n).table := by
  rw [State.modTbl, if_pos h, State.modCh_ch_self hn]

theorem State.tableSet_points {s : State} {n : Nat} {en : Bool} : (s.tableSet n en).points = s.points :=
  State.modCh_points.trans State.setReg_points

theorem State.tableSet_ch {s : State} {n : Nat} {en : Bool} (hn : n < s.chs.length) :
    (s.tableSet n en).ch n = { s.ch n with tableEn := en } := by
  rw [State.tableSet, State.modCh_ch_self (by rwa [State.setReg_chs]), State.ch, State.setReg_chs]
  rfl

/-- Setting the enable leaves the rest of every channel. -/
theorem State.tableSet_field {α : Type} (g : Chan → α) (hg : ∀ c b, g { c with tableEn := b } = g c) {s : State}
    {n m : Nat} {en : Bool} : g ((s.tableSet n en).ch m) = g (s.ch m) := by
  rw [State.tableSet, State.modCh_field g (fun c => hg c en), State.ch, State.setReg_chs]
  rfl

/-- Stopping an entry leaves what a channel holds beside its table and its held records. -/
theorem stopEntry_field {α : Type} (g : Chan → α) (hg : ∀ c tb, g { c with table := tb } = g c)
    (hh : ∀ c l, g { c with heldRecs := l } = g c) {n m : Nat} (s : State) (i : Nat) :
    g ((stopEntry n s i).ch m) = g (s.ch m) := by
  unfold stopEntry
  cases amGet (s.tbl n).entries i with
  | none => rfl
  | some e =>
    dsimp only
    split
    · split
      · rfl
      · exact cancelEntry_field g hg hh
    · split
      · rfl
      · rw [State.modEnt_field g hg, actOutcome_field g hg hh]

theorem stopEntry_reg {n k : Nat} (s : State) (i : Nat) : (stopEntry n s i).reg k = s.reg k := by
  unfold stopEntry
  cases amGet (s.tbl n).entries i with
  | none => rfl
  | some e =>
    dsimp only
    split
    · split
      · rfl
      · exact cancelEntry_reg
    · split
      · rfl
      · rw [State.modEnt_reg, actOutcome_reg]

/-- Settles O23: a single occurrence is `fireEntry_single`, a group `groupPrepOp_opens`, calibration one change of the field
I/O, and a table's enable is set before its entries stop or after them start. -/
theorem timedActions : Obligations.TimedActions := by
  refine ⟨fun s n i d e mask value hs hn hd he hk hp hdone hst hw hv hen hrun hdue htol hm hlen hfree hguard hb => ?_,
    fun s i e op ids l he hk hl hlen _ hp hd hst hprep hv hsb hnow hsoon hlate hpl hgone hserve ho => ?_,
    fun s n sel hs hn hr hc hb hok => ?_, fun s n k on off sel hs hn hc hk hb => ?_,
    fun s n hs hn hr hen => ?_, fun s n i e hs hn hr hen hmem hst => ?_⟩
  · refine ⟨_, rfl, ?_⟩
    obtain ⟨late, hfire⟩ := fireEntry_single hn he hk hp hdone hst hw hv hen hrun hdue htol
    rw [actionFireOp_alone hn he hb, hfire]
    exact actOn_occBegun_dout ((State.chs_length hs).symm ▸ hn) hlen hd hm hk hfree hguard
  · refine ⟨_, rfl, ?_⟩
    rw [groupPrepOp_opens he hk hl hlen hp hd hst hprep hv hsb hnow hsoon hlate hpl hgone hserve ho,
      State.txn_congr (State.emits_same State.txns (fun _ _ => rfl)), State.groupOpened_txn,
      State.emits_same State.nextTxn (fun _ _ => rfl), State.emits_same State.points (fun _ _ => rfl)]
    exact ⟨rfl, rfl, rfl, State.modEnt_nextTxn, State.modEnt_points.trans State.modEnt_points⟩
  · refine ⟨_, rfl, ?_⟩
    rw [ifReaches_of hr, calStartOp_accepted hc hb hok,
      State.modDio_dio_self (by rw [State.setReg_chs, State.chs_length hs]; exact hn), State.modDio_points,
      State.setReg_points]
    exact ⟨rfl, rfl, rfl⟩
  · refine ⟨_, rfl, ?_⟩
    rw [calDoneOp_single hc hk hb, State.modDio_dio_self (by rw [State.setReg_chs, State.chs_length hs]; exact hn),
      State.comp, State.reg_congr State.modDio_regs, State.reg_setReg_self, State.modDio_points, State.setReg_points]
    exact ⟨rfl, rfl, rfl⟩
  · refine ⟨_, rfl, ?_⟩
    have hlen : n < s.chs.length := (State.chs_length hs).symm ▸ hn
    rw [ifReaches_of hr, tableOffOp_enabled hen]
    refine ⟨?_, ?_, fun m => ⟨?_, ?_⟩⟩
    · rw [State.foldl_same (fun s => (s.ch n).tableEn)
        (stopEntry_field Chan.tableEn (fun _ _ => rfl) (fun _ _ => rfl)), State.tableSet_ch hlen]
    · rw [State.foldl_same (fun s => s.reg (chBase n + 0x20000)) stopEntry_reg, State.tableSet_reg]
      rfl
    · rw [State.foldl_same (fun s => (s.ch m).state)
        (stopEntry_field Chan.state (fun _ _ => rfl) (fun _ _ => rfl)), State.tableSet_field Chan.state (fun _ _ => rfl)]
    · rw [State.foldl_same (fun s => s.dio m) (stopEntry_field Chan.dio (fun _ _ => rfl) (fun _ _ => rfl))]
      exact State.tableSet_field Chan.dio (fun _ _ => rfl)
  · refine ⟨_, rfl, ?_⟩
    have hlen : n < s.chs.length := (State.chs_length hs).symm ▸ hn
    rw [ifReaches_of hr, tableOnOp_disabled hen, State.modTbl_field Chan.tableEn (fun _ _ => rfl), State.modTbl_reg,
      State.modTbl_points, State.tableSet_ch hlen, State.tableSet_reg, State.tableSet_points]
    refine ⟨rfl, rfl, ?_, rfl⟩
    rw [State.modTbl_table_self hn (by rwa [State.tableSet_length]), State.tableSet_ch hlen]
    exact List.mem_map.mpr ⟨(i, e), hmem, if_pos hst⟩

end Sys2Proof.Machine
end

section
/-! Proof of O34: the converters, their burdens and the current limit of an output. -/

namespace Sys2Proof.Machine

/-- The other inputs are as before. -/
theorem State.modAin_ain_ne {s : State} {n i j : Nat} {f : Ain → Ain} (hn : n < s.chs.length) (h : i ≠ j) :
    (s.modAin n j f).ain n i = s.ain n i := by
  unfold State.modAin State.ain
  rw [State.modDio_dio_self hn]
  simp [List.getD_eq_getElem?_getD, Ne.symm h]

/-- Field I/O but for its inputs stays when an input changes. -/
theorem State.modAin_dio {α : Type} (g : Dio → α) (hg : ∀ c l, g { c with ain := l } = g c) {s : State} {n i m : Nat}
    {f : Ain → Ain} : g ((s.modAin n i f).dio m) = g (s.dio m) :=
  State.modCh_field (fun c => g c.dio) (fun c => hg c.dio _)

/-- One input of a burst is asked for a conversion if the burst names it (R393). -/
def askBurst (n : Nat) (mask : BitVec 8) (s : State) (i : Nat) : State :=
  if mask.getLsbD i then s.modAin n i (fun a => { a with burst := true }) else s

/-- A burst with conversions left counts down and asks for the inputs it names (R228, R393). -/
theorem adcBurstOp_of_left {s : State} {n idx : Nat} {b : Burst} (hb : (s.dio n).bursts[idx]? = some b)
    (hl : 1 < b.left) : adcBurstOp n idx s =
      (List.range 8).foldl (askBurst n b.mask)
        (s.modDio n (fun c => { c with bursts := c.bursts.set idx { b with left := b.left - 1 } })) := by
  simp only [adcBurstOp, hb, if_neg (Nat.not_le.mpr hl)]
  rfl

/-- Asking for an input keeps whatever a change of an input keeps. -/
theorem askBurst_same {α : Type} (F : State → α) {n : Nat} {mask : BitVec 8}
    (hF : ∀ (s : State) i, F (s.modAin n i (fun a => { a with burst := true })) = F s) (s : State) (i : Nat) :
    F (askBurst n mask s i) = F s := by
  unfold askBurst
  split
  · exact hF s i
  · rfl

/-- An input waits for a burst's conversion if it did before, or if the burst asks for it now. -/
theorem askBurst_burst {s : State} {n i j : Nat} {mask : BitVec 8} (hn : n < s.chs.length)
    (hi : i < (s.dio n).ain.length) :
    ((askBurst n mask s j).ain n i).burst = ((s.ain n i).burst || (i == j && mask.getLsbD j)) := by
  unfold askBurst
  cases hm : mask.getLsbD j with
  | false => simp
  | true =>
    by_cases hij : i = j
    · subst hij
      simp [State.modAin_ain_self hn hi]
    · simp [State.modAin_ain_ne hn hij, hij]

/-- Every input a burst names waits once all of them have been asked for. -/
theorem askBursts_burst {n i : Nat} {mask : BitVec 8} (hm : mask.getLsbD i = true) : ∀ {l : List Nat} {s : State},
    n < s.chs.length → i < (s.dio n).ain.length → i ∈ l ∨ (s.ain n i).burst = true →
    ((l.foldl (askBurst n mask) s).ain n i).burst = true
  | [], _, _, _, h => h.resolve_left List.not_mem_nil
  | j :: l, s, hn, hi, h => by
    have hlen := askBurst_same (mask := mask) (n := n) (fun s => s.chs.length) (fun _ _ => State.modAin_length) s j
    have hain := askBurst_same (mask := mask) (n := n) (fun s => (s.dio n).ain.length) (fun _ _ => State.modAin_ainLen) s j
    refine askBursts_burst hm (l := l) (hlen.symm ▸ hn) (hain.symm ▸ hi) ?_
    rw [askBurst_burst hn hi]
    rcases h with h | h
    · rcases List.mem_cons.mp h with rfl | h
      · simp [hm]
      · exact Or.inl h
    · simp [h]

/-- A conversion at a range already in force, of an input that has settled, with its burden closed and the supply good,
when the filter is off (R391, R395). -/
theorem adcDoneOp_unfiltered {s : State} {n i : Nat} {m : Int} (hi : i < 8) (hr : s.ainRange n i ≠ 0)
    (hra : (s.ain n i).range = s.ainRange n i) (hst : (s.ain n i).settle ≤ s.chNow n)
    (hb : (s.ain n i).burden = false) (hinv : (s.dio n).inv = false) (hf : fld (s.adcReg n (16 * i)) 4 4 = 0) :
    adcDoneOp n i .scan m false s =
      acquireAin (s.modAin n i (fun _ => { s.ain n i with
        code := (max 0 (min 65535 (ainCode (s.ainRange n i) m))).toNat, qual := ainQual s n i (s.ainRange n i) m,
        meas := m, fs := some (ainCode (s.ainRange n i) m * 65536), scan := false })) n i (s.ainRange n i)
        (ainCode (s.ainRange n i) m) m false := by
  have hskip : ¬ (8 ≤ i ∨ s.ainRange n i = 0) := by omega
  have hsettled : ¬ s.chNow n < (s.ain n i).settle := Nat.not_lt.mpr hst
  simp [adcDoneOp, hskip, hra, hsettled, hb, hinv, hf]

/-- Settles O34: a scan, a burst and the burden are changes of their inputs, a conversion is `adcDoneOp_unfiltered`, and the
limit of an output changes its points' quality alone. -/
theorem converters : Obligations.Converters := by
  refine ⟨fun s n i hs hn hi hlen hr hp => ?_, fun s n idx i b hs hn hb hl hi hlen hm => ?_,
    fun s n i m hs hn hi hlen hr hra hst hb hinv hf => ?_, fun s n i hs hn hi hlen hr => ?_,
    fun s n i hs hn hlen => ?_, fun s n k lim hs hn hk hlen => ?_⟩
  all_goals have hch : n < s.chs.length := (State.chs_length hs).symm ▸ hn
  · refine ⟨_, rfl, ?_⟩
    rw [adcScanOp, if_pos ⟨hi, hr, hp⟩]
    exact ⟨State.modAin_ain_self hch hlen, rfl⟩
  · refine ⟨_, rfl, ?_⟩
    rw [adcBurstOp_of_left hb hl]
    have hdio := State.modDio_dio_self (f := fun c => { c with bursts := c.bursts.set idx { b with left := b.left - 1 } }) hch
    refine ⟨askBursts_burst hm (by rwa [State.modDio_length]) (by rw [hdio]; exact hlen)
        (Or.inl (List.mem_range.mpr hi)), ?_, ?_, ?_⟩
    · rw [State.foldl_same (fun s => (s.ain n i).code)
        (askBurst_same (fun s => (s.ain n i).code) (fun _ _ => State.modAin_field Ain.code (fun _ => rfl))), State.ain, hdio]
      rfl
    · rw [State.foldl_same (fun s => (s.dio n).bursts)
        (askBurst_same (fun s => (s.dio n).bursts) (fun _ _ => State.modAin_dio Dio.bursts (fun _ _ => rfl))), hdio]
    · rw [State.foldl_same State.points (askBurst_same State.points (fun _ _ => State.modAin_points))]
      rfl
  · refine ⟨_, rfl, ?_⟩
    rw [adcDoneOp_unfiltered hi hr hra hst hb hinv hf, acquireAin_ain, State.modAin_ain_self hch hlen, acquireAin_regs,
      State.modAin_regs]
    exact ⟨rfl, rfl, rfl, rfl, rfl, hra, rfl⟩
  · refine ⟨_, rfl, ?_⟩
    rw [burdenOpenOp, if_pos ⟨hi, hr⟩, reacquireAin_regs, State.modAin_regs, State.ain, reacquireAin_dio]
    exact ⟨State.modAin_ain_self hch hlen, rfl⟩
  · exact ⟨_, rfl, State.modAin_ain_self hch hlen, rfl⟩
  · refine ⟨_, rfl, ?_⟩
    rw [aoutLimitOp, if_pos hk, aoutRequal_aout Aout.ovl (fun _ _ => rfl), aoutRequal_aout Aout.code (fun _ _ => rfl),
      aoutRequal_aout Aout.zero (fun _ _ => rfl), State.modAout_aout_self hch hlen, aoutRequal_regs, State.modAout_regs]
    exact ⟨rfl, rfl, rfl, rfl⟩

end Sys2Proof.Machine
end

section
/-! Proof of O24: a word of a slot is written, a loop samples and commands its OUT, and a slot is shown in the
snapshot. -/

namespace Sys2Proof.Machine

/-! ### A slot word is written (R258, R268) -/

/-- A slot word as stored, with its mirror record. -/
def State.slotWordSet (s : State) (n slot w : Nat) (v : Word) : State :=
  (s.setReg (slotKey n slot w) v).mirror (.register (slotKey n slot w) v)

theorem State.slotWordSet_slotReg {s : State} {n slot w : Nat} {v : Word} :
    (s.slotWordSet n slot w v).slotReg n slot w = v := State.mirror_reg.trans State.reg_setReg_self

theorem State.slotWordSet_slotRt {s : State} {n slot w m d : Nat} {v : Word} :
    (s.slotWordSet n slot w v).slotRt m d = s.slotRt m d := State.mirror_slotRt.trans State.setReg_slotRt

theorem State.slotWordSet_chs {s : State} {n slot w : Nat} {v : Word} : (s.slotWordSet n slot w v).chs = s.chs :=
  State.mirror_chs.trans State.setReg_chs

theorem State.slotWordSet_points {s : State} {n slot w : Nat} {v : Word} :
    (s.slotWordSet n slot w v).points = s.points := State.mirror_points.trans State.setReg_points

/-- A word of a slot other than CTL is stored, and nothing else happens. -/
theorem slotWriteOp_of_ne_ctl {s : State} {n slot w : Nat} {be : BitVec 4} {data : Word} (hw : w ≠ 0)
    (hreg : (regRow (slotKey n slot w)).isSome = true) : slotWriteOp n slot w be data s =
      s.slotWordSet n slot w (beMerge be (s.slotReg n slot w) data &&& regMask (slotKey n slot w)) :=
  (if_pos hreg).trans (if_neg hw)

/-- CTL is stored, and then takes effect. -/
theorem slotWriteOp_ctl {s : State} {n slot : Nat} {be : BitVec 4} {data : Word}
    (hreg : (regRow (slotKey n slot 0)).isSome = true) : slotWriteOp n slot 0 be data s =
      slotCtlApplied
        (s.slotWordSet n slot 0 (beMerge be (s.slotReg n slot 0) data &&& regMask (slotKey n slot 0)))
        n slot (s.slotReg n slot 0) (beMerge be (s.slotReg n slot 0) data &&& regMask (slotKey n slot 0)) :=
  (if_pos hreg).trans (if_pos rfl)

/-- EN from 0 to 1 in the slot of a loop enables it. -/
theorem slotCtlApplied_enables {s : State} {n slot : Nat} {old new : Word}
    (hl : (s.slotRt n slot).loop.isSome = true) (hold : bitN old 0 = false) (hnew : bitN new 0 = true) :
    slotCtlApplied s n slot old new = s.modSlot n slot enableRt := by
  have hloop : ¬ (s.slotRt n slot).loop.isNone = true := by simp [← Option.not_isSome, hl]
  rw [slotCtlApplied, if_neg hloop, hold, hnew]
  rfl

/-- A slot in use has the runtime state its channel lists. -/
theorem State.slotRt_of_get {s : State} {n slot : Nat} {r : LoopRt} (h : amGet (s.ch n).slots slot = some r) :
    s.slotRt n slot = r := by
  rw [State.slotRt, h]

/-! ### A sample (R260, R274) -/

/-- What the loop law gives for a sample of a slot: the state after it, and whether following error was activated. -/
def lawSample (s : State) (n slot : Nat) (l : Loop) (r : LoopRt) : LoopRt × Bool :=
  sampleRt (lawInput s n slot l r).1 (slotBank s n slot (lawInput s n slot l r).1.bankNo)
    (bitN (s.slotReg n slot 0) 5) (r.lastIn = 0) r

/-- A due sample that activates no following error leaves the state the loop law gives: beside it stand only the instant
of the sample, the limits its output takes, and what the next sample needs of the inputs. -/
theorem loopSampleOp_due {s : State} {n slot id : Nat} {r : LoopRt} {l : Loop}
    (hr : amGet (s.ch n).slots slot = some r) (hid : r.loop = some id) (hl : amGet s.ws.loops id = some l)
    (hen : r.en = true) (hw : r.waiting = false) (hrun : s.loopsRun n = true) (hdue : sampleDue s n l r = true)
    (htrip : (lawSample s n slot l r).2 = false) :
    ∃ lim cnts pulse src spErr srcErr record, loopSampleOp n slot s =
      (s.modSlot n slot (fun _ => { (lawSample s n slot l r).1 with
        lastIn := s.ticks + 1, lim := lim, cnts := cnts, pulse := pulse, spsrc := src, spsrcErr := spErr,
        srcErr := srcErr })).mirror record := by
  have hgo : ¬ (!(r.en && !r.waiting && s.loopsRun n && sampleDue s n l r)) = true := by simp [hen, hw, hrun, hdue]
  simp only [loopSampleOp, State.slotRt_of_get hr, hid, hl]
  exact ⟨_, _, _, _, _, _, _, (if_neg hgo).trans (if_neg (ne_true_of_eq_false htrip))⟩

/-! ### An output (R80, R281) -/

/-- The command of a loop for an OUT on another channel. -/
def loopCmd (l : Loop) (v : Slot) : ChCmd :=
  { handle := l.outp, value := v, tag := l.basin, ring := 1024, flight := 0, cookie := 0, at? := none, tol := 0 }

/-- With both links up a value for an OUT on another channel leaves as a command to that channel. -/
theorem loopCommand_away {s : State} {n : Nat} {l : Loop} {b : Bank} {u : Int} {p : Point}
    (hp : amGet s.points l.outp = some p) (hub : p.isHub = false) (hne : p.channel ≠ n)
    (hs : (s.ch n).state = .inService) (hd : (s.ch p.channel).state = .inService) :
    loopCommand s n l b u = s.modCh p.channel (fun c => { c with
      cmds := c.cmds ++ [loopCmd l (outConv p.type p.enumCount b.omin b.omax u)] }) := by
  have hup : ¬ ((s.ch n).state = .linkLost ∨ (s.ch p.channel).state = .linkLost) := by simp [hs, hd]
  simp only [loopCommand, hp]
  exact (if_neg (ne_true_of_eq_false hub)).trans ((if_neg hne).trans (if_neg hup))

/-- At its output instant an enabled loop with a value to command commands it under the limits of its sample, and owes
nothing more. -/
theorem loopOutputOp_command {s : State} {n slot id : Nat} {u lo hi : Int} {r : LoopRt} {l : Loop}
    (hr : amGet (s.ch n).slots slot = some r) (hid : r.loop = some id) (hl : amGet s.ws.loops id = some l)
    (hrun : s.loopsRun n = true) (hout : r.out = .command u) (hpub : r.pub = .nothing) (hlim : r.lim = some (lo, hi))
    (hen : r.en = true) : loopOutputOp n slot s =
      (loopCommand s n l { slotBank s n slot r.bankSel with omin := lo, omax := hi } u).modSlot n slot
        (fun c => { c with out := .nothing, pub := .nothing }) := by
  simp only [loopOutputOp, State.slotRt_of_get hr, hid, hl, hrun, hout, hlim, hen, publishLoop, hpub, Bool.not_true,
    Bool.false_and, Bool.false_eq_true, if_false]

/-- Settles O24: a word is `slotWriteOp_of_ne_ctl`, EN is `slotCtlApplied_enables`, a sample is `loopSampleOp_due`, an
output is `loopOutputOp_command` with `loopCommand_away`, and a snapshot is the change of its channel. -/
theorem loopEngine : Obligations.LoopEngine := by
  refine ⟨fun s n slot w be data hreach hw hreg => ⟨_, rfl, ?_⟩,
    fun s n slot data r hs hn hreach hreg hr hl hold hnew => ⟨_, rfl, ?_⟩,
    fun s n slot id r l hs hn hr hid hl hen hw hrun hdue htrip => ⟨_, rfl, ?_⟩,
    fun s n slot id u lo hi r l p hs hn hr hid hl hrun hout hpub hlim hen hp hub hne hch hsn hsp => ⟨_, rfl, ?_⟩,
    fun s n slot hs hn hslot hreach => ⟨_, rfl, ?_⟩⟩
  · rw [ifReaches_of hreach, slotWriteOp_of_ne_ctl hw hreg]
    exact ⟨State.slotWordSet_slotReg, State.slotWordSet_slotRt, State.slotWordSet_points⟩
  · have hlen : n < s.chs.length := (State.chs_length hs).symm ▸ hn
    rw [ifReaches_of hreach, slotWriteOp_ctl hreg, beMerge_all, slotCtlApplied_enables
        (by rw [State.slotWordSet_slotRt, State.slotRt_of_get hr]; exact hl) hold hnew,
      State.modSlot_slotRt (by rwa [State.slotWordSet_chs])
        (by rw [State.ch_congr State.slotWordSet_chs]; exact hr)]
    exact ⟨rfl, rfl, rfl, rfl⟩
  · obtain ⟨_, _, _, _, _, _, _, hop⟩ := loopSampleOp_due hr hid hl hen hw hrun hdue htrip
    rw [hop, State.mirror_slotRt, State.modSlot_slotRt ((State.chs_length hs).symm ▸ hn) hr, State.mirror_points,
      State.mirror_regs]
    exact ⟨rfl, rfl, rfl, rfl, rfl⟩
  · rw [loopOutputOp_command hr hid hl hrun hout hpub hlim hen, loopCommand_away hp hub hne hsn hsp]
    refine ⟨?_, ?_, rfl⟩
    · rw [State.modSlot_slotRt (by rw [State.modCh_length, State.chs_length hs]; exact hn)
        (by rw [State.modCh_ch_ne hne.symm]; exact hr)]
    · rw [State.modSlot, State.modCh_ch_ne hne, State.modCh_ch_self ((State.chs_length hs).symm ▸ hch)]
      rfl
  · have hlen : n < (s.setReg (chBase n + 0x30010) (BitVec.ofNat 32 slot)).chs.length := by
      rw [State.setReg_chs, State.chs_length hs]; exact hn
    rw [ifReaches_of hreach, snapselOp, Nat.mod_eq_of_lt hslot, State.modCh_ch_self hlen]
    exact ⟨rfl, rfl, rfl, State.modCh_points.trans State.setReg_points⟩

end Sys2Proof.Machine
end

section
/-! Proofs of O25 and O26: what the modes of a CAN controller change of it, and what its frames and errors count. -/

namespace Sys2Proof.Machine

/- ### One controller -/

/-- Two changes of a controller are one. -/
theorem State.modCan_modCan {s : State} {n x : Nat} {f g : Can → Can} :
    (s.modCan n x f).modCan n x g = s.modCan n x (fun c => g (f c)) := by
  simp only [State.modCan, State.modCh, List.modify_modify_eq, Function.comp_def]

/-- The controllers of a channel are as many as before. -/
theorem State.modCan_canCount {s : State} {n x m : Nat} {f : Can → Can} :
    ((s.modCan n x f).ch m).can.length = (s.ch m).can.length :=
  State.modCh_field (fun c => c.can.length) (fun _ => List.length_modify ..)

/-- A record to the hub leaves the state with a controller that reads as its change made it (R242). -/
theorem chRaise_modCan_self {s : State} {n x b k j : Nat} {p : List Byte} {f : Can → Can} (hn : n < s.chs.length)
    (hx : x < (s.ch n).can.length) : (chRaise (s.modCan n x f) n b k j p).can n x = f (s.can n x) :=
  chRaise_can.trans (State.modCan_can_self hn hx)

/-- An ERROR_ACTIVE controller takes part on the bus. -/
theorem Can.onBus_of_active {c : Can} (h : c.state = .errorActive) : c.onBus = true := by
  simp [Can.onBus, h]

/-- An ERROR_ACTIVE controller in NORMAL sends (R307). -/
theorem Can.sends_of_normal {c : Can} (hs : c.state = .errorActive) (hm : c.mode = 1) : c.sends = true := by
  simp [Can.sends, Can.onBus_of_active hs, hm]

/-- The warning bit follows the counters of a controller that stays ERROR_ACTIVE (R321, R322). -/
def Can.warned (c : Can) : Can :=
  { c with state := if c.onBus then .errorActive else c.state, ewarn := 96 ≤ c.tec || 96 ≤ c.recv }

theorem Can.warned_state {c : Can} (h : c.state = .errorActive) : c.warned.state = .errorActive :=
  if_pos (Can.onBus_of_active h)

/-- After a change that leaves both counters below 128, an ERROR_ACTIVE controller has only its warning bit brought up
to date. -/
theorem canFaultUpdate_modCan {s : State} {n x : Nat} {f : Can → Can} (hn : n < s.chs.length)
    (hx : x < (s.ch n).can.length) (hs : (f (s.can n x)).state = .errorActive) (ht : (f (s.can n x)).tec < 128)
    (hr : (f (s.can n x)).recv < 128) :
    canFaultUpdate (s.modCan n x f) n x = s.modCan n x (fun c => (f c).warned) := by
  rw [← State.modCan_can_self (f := f) hn hx] at hs ht hr
  exact (canFaultUpdate_active hs ht hr).trans State.modCan_modCan

/-- CTL is the first register of a controller. -/
theorem State.canReg_ctl {s : State} {n x : Nat} : s.canReg n x 0 = s.reg (chBase n + 0x50000 + 0x10000 * x) := by
  rw [State.canReg, Nat.add_zero]

theorem State.canReg_modCan {s : State} {n x m y o : Nat} {f : Can → Can} :
    (s.modCan n x f).canReg m y o = s.canReg m y o := rfl

/- ### Modes (R307 to R309, R322, R323) -/

/-- A control word with a mode below the loop-backs and no RECOVER is stored, and what it changes waits for bus idle. -/
theorem canCtlOp_stored {s : State} {n x : Nat} {data : Word} (hm : fld data 0 3 < 4) (hrec : bitN data 4 = false) :
    canCtlOp n x data s =
      (s.setReg (chBase n + 0x50000 + 0x10000 * x) (data &&& 0x7F2F)).modCan n x (fun c => { c with
        modeWant := wantedMode (s.setReg (chBase n + 0x50000 + 0x10000 * x) (data &&& 0x7F2F)) n x,
        pendingMode := c.pendingMode || decide (data &&& 0x7F2F ≠ s.canReg n x 0) }) := by
  have h6 : ¬ 6 ≤ fld data 0 3 := by omega
  have h4 : ¬ 4 ≤ fld data 0 3 := by omega
  simp [canCtlOp, h6, h4, hrec, State.canReg_ctl]

/-- A mode other than DISABLED comes into force in one change of the controller; beside the mode it sets CFG_ERR, the
timing in force, and whether the controller integrates again (R302, R308). -/
theorem canApply_running {s : State} {n x : Nat} (h : wantedMode s n x ≠ 0) : ∃ (err fresh : Bool) (abt dbt : Word),
    canApply s n x = s.modCan n x (fun c => { c with
      mode := wantedMode s n x, modeWant := wantedMode s n x, pendingMode := false, cfgErr := err, abt := abt, dbt := dbt,
      loopDly := if wantedMode s n x = c.mode then c.loopDly else none,
      state := if fresh then .integrating else c.state }) := by
  simp only [canApply, if_neg h]
  exact ⟨_, _, _, _, rfl⟩

/-- At bus idle the mode that waits is applied (R308). -/
theorem canModeOp_pending {s : State} {n x : Nat} (hp : (s.can n x).pendingMode = true) (hw : (s.can n x).won = false)
    (hb : (s.can n x).state ≠ .busOff) (hr : (s.can n x).state ≠ .recovering) : canModeOp n x s = canApply s n x := by
  simp [canModeOp, hp, hw, hb, hr]

/-- A controller that comes back on the bus with no mode waiting has its counters cleared (R323). -/
theorem canBusOnOp_can {s : State} {n x us : Nat} (hn : n < s.chs.length) (hx : x < (s.ch n).can.length)
    (hs : (s.can n x).state = .recovering) (hp : (s.can n x).pendingMode = false) :
    (canBusOnOp n x us s).can n x =
      { s.can n x with state := .errorActive, tec := 0, recv := 0, ewarn := false } := by
  simp only [canBusOnOp, hs, if_true, chRaise_modCan_self hn hx, hp, Bool.false_eq_true, if_false]

/-- Settles O25: each command is its one change of the controller; a mode comes into force by `canApply_running`. -/
theorem canModes : Obligations.CanModes := by
  refine ⟨fun s n x data hs hn hx hreach hm hrec => ⟨_, rfl, ?_⟩,
    fun s n x hs hn hx hp hw hb hr hwant => ⟨_, rfl, ?_⟩, fun s n x hs hn hx hst => ⟨_, rfl, ?_⟩,
    fun s n x hs hn hx hreach hst => ⟨_, rfl, ?_⟩, fun s n x us hs hn hx hst hp => ⟨_, rfl, ?_⟩⟩
  all_goals have hlen : n < s.chs.length := (State.chs_length hs).symm ▸ hn
  · have hch := State.setReg_chs (s := s) (k := chBase n + 0x50000 + 0x10000 * x) (w := data &&& 0x7F2F)
    rw [ifReaches_of hreach, canCtlOp_stored hm hrec,
      State.modCan_can_self (by rwa [hch]) (by rwa [State.ch_congr hch]), State.can, State.ch_congr hch,
      State.canReg_modCan, State.canReg_ctl, State.reg_setReg_self]
    exact ⟨rfl, rfl, rfl, rfl, rfl⟩
  · obtain ⟨err, fresh, abt, dbt, happ⟩ := canApply_running hwant
    rw [canModeOp_pending hp hw hb hr, happ, State.modCan_can_self hlen hx]
    exact ⟨rfl, rfl, rfl, rfl, rfl⟩
  · rw [canIntegrateOp, if_pos hst, State.modCan_can_self hlen hx]
    exact ⟨rfl, rfl⟩
  · rw [ifReaches_of hreach, recoverOp, if_pos hst, State.modCan_can_self hlen hx]
    exact ⟨rfl, rfl, rfl, rfl⟩
  · rw [canBusOnOp_can hlen hx hst hp]
    exact ⟨rfl, rfl, rfl, rfl, rfl⟩

/- ### Reception (R297, R312, R314) -/

/-- A frame heard ends the run of missing acknowledgements (R318). -/
def Can.heard (c : Can) : Can := { c with noack := 0 }

theorem Can.heard_queues {c : Can} : c.heard.queues = c.queues := rfl

/-- A classical frame reaches the filter of a controller on the bus; with the receive counter at zero nothing falls. -/
theorem canRxOp_classical {s : State} {n x : Nat} {f : CanFrame} {stamp : Instant} (hn : n < s.chs.length)
    (hx : x < (s.ch n).can.length) (hb : (s.can n x).onBus = true) (hf : f.fdf = false) (hr : (s.can n x).recv = 0) :
    canRxOp n x f stamp s = canAccept (s.modCan n x Can.heard) n x f stamp := by
  have hrecv : ((s.modCan n x Can.heard).can n x).recv = 0 := (congrArg Can.recv (State.modCan_can_self hn hx)).trans hr
  have hdown : recDown (s.modCan n x Can.heard) n x = s.modCan n x Can.heard := by simp [recDown, hrecv]
  have hgo : ((s.can n x).onBus && (!f.fdf || s.fdEn n x)) = true := by simp [hb, hf]
  exact (if_pos hgo).trans (congrArg (canAccept · n x f stamp) hdown)

/-- A frame heard leaves the filter, whichever bank judges (R178, R314). -/
theorem canFilter_heard {s : State} {n x : Nat} {f : CanFrame} {stamp : Instant} :
    canFilter (s.modCan n x Can.heard) n x f stamp = canFilter s n x f stamp :=
  canFilter_congr State.modCan_regs (State.modCan_field Can.switched (fun _ => rfl))
    (State.modCan_field Can.oldElems (fun _ => rfl))

/-- A frame the filter rejects is counted, and nothing else happens. -/
theorem canAccept_rejected {s : State} {n x : Nat} {f : CanFrame} {stamp : Instant}
    (hq : canFilter s n x (rxCanFrame f) stamp = none) :
    canAccept s n x f stamp = s.modCan n x (fun c => { c with rxRej := (c.rxRej + 1) % 2 ^ 32 }) := by
  simp only [canAccept, hq]

/-- A controller that accepted a frame counts it, and knows its identifier and nodes to be alive (R297, R300). -/
def Can.accepted (s : State) (n x : Nat) (f : CanFrame) (c : Can) : Can :=
  { c with rxOk := (c.rxOk + 1) % 2 ^ 32, silent := c.silent.filter (fun k => !(k == idKey f.id f.ide)),
           lostNodes := c.lostNodes.filter (fun j => !(nodeHas s n x j f.id f.ide)) }

theorem Can.accepted_queues {s : State} {n x : Nat} {f : CanFrame} {c : Can} :
    (Can.accepted s n x f c).queues = c.queues := rfl

/-- What a channel stages of an accepted frame (R312). -/
def stagedCan (s : State) (n x q : Nat) (f : CanFrame) (stamp : Instant) : RxFrame :=
  { target := 4 * n + x, node := canNode s n x f.id f.ide, can := some f, bytes := [], stamp := stamp,
    timeValid := (s.ch n).tb.valid, queue := q }

theorem stagedCan_modCan {s : State} {n x q : Nat} {f : CanFrame} {stamp : Instant} {g : Can → Can} :
    stagedCan (s.modCan n x g) n x q f stamp = stagedCan s n x q f stamp := by
  simp only [stagedCan, State.modCan_keep Chan.tb (fun _ _ => rfl)]
  rfl

/-- A frame of a raw queue goes to staging once it is counted. -/
theorem canAccept_raw {s : State} {n x q : Nat} {f : CanFrame} {stamp : Instant} {rings : List Nat}
    (hn : n < s.chs.length) (hx : x < (s.ch n).can.length) (hq : canFilter s n x (rxCanFrame f) stamp = some q)
    (hd : (if stamp < (s.can n x).switched then (s.can n x).oldQueues else (s.can n x).queues).getD q (false, []) =
      (false, rings)) (hne : rings ≠ []) :
    canAccept s n x f stamp = canStage (s.modCan n x (Can.accepted s n x (rxCanFrame f))) n x q
      (stagedCan s n x q (rxCanFrame f) stamp) rings := by
  have hempty : ¬ rings.isEmpty = true := fun h => hne (List.isEmpty_iff.mp h)
  rw [← stagedCan_modCan (g := Can.accepted s n x (rxCanFrame f))]
  simp only [canAccept, hq, State.modCan_can_self hn hx, hd, Bool.false_and, Bool.false_eq_true, if_false, hempty]
  rfl

/-- With no frame stuck in its receive queues a controller stages a frame for every ring of the queue (R312). -/
theorem canStage_room {s : State} {n x q : Nat} {f : RxFrame} {rings : List Nat}
    (h : stuckFrames s n (4 * n + x) = []) : canStage s n x q f rings =
      (s.modCan n x (fun c => { c with rxTold := c.rxTold.filter (fun k => !(k == q)) })).modCh n
        (fun c => { c with staged := c.staged ++ rings.map (fun k => (k, f)) }) := by
  simp [canStage, h]

/-- A classical frame that the filter rejects, on a controller with a clean receive counter. -/
theorem canRxOp_rejected {s : State} {n x : Nat} {f : CanFrame} {stamp : Instant} (hn : n < s.chs.length)
    (hx : x < (s.ch n).can.length) (hb : (s.can n x).onBus = true) (hf : f.fdf = false) (hr : (s.can n x).recv = 0)
    (hq : canFilter s n x (rxCanFrame f) stamp = none) : canRxOp n x f stamp s =
      s.modCan n x (fun c => { c.heard with rxRej := (c.rxRej + 1) % 2 ^ 32 }) := by
  rw [canRxOp_classical hn hx hb hf hr, canAccept_rejected (canFilter_heard.trans hq), State.modCan_modCan]
  rfl

/-- What a controller notes of a classical frame it accepts and stages for queue `q`. -/
def Can.received (s : State) (n x q : Nat) (f : CanFrame) (c : Can) : Can :=
  { Can.accepted s n x f c.heard with rxTold := c.rxTold.filter (fun k => !(k == q)) }

/-- A classical frame that the filter gives to a raw queue with room, on a controller with a clean receive counter. -/
theorem canRxOp_raw {s : State} {n x q : Nat} {f : CanFrame} {stamp : Instant} {rings : List Nat}
    (hn : n < s.chs.length) (hx : x < (s.ch n).can.length) (hb : (s.can n x).onBus = true) (hf : f.fdf = false)
    (hr : (s.can n x).recv = 0) (hq : canFilter s n x (rxCanFrame f) stamp = some q)
    (hd : (if stamp < (s.can n x).switched then (s.can n x).oldQueues else (s.can n x).queues).getD q (false, []) =
      (false, rings)) (hne : rings ≠ []) (hstuck : stuckFrames s n (4 * n + x) = []) :
    canRxOp n x f stamp s = (s.modCan n x (Can.received s n x q (rxCanFrame f))).modCh n (fun c => { c with
      staged := c.staged ++ rings.map (fun k => (k, stagedCan s n x q (rxCanFrame f) stamp)) }) := by
  have hn' : n < (s.modCan n x Can.heard).chs.length := by rwa [State.modCan_length]
  have hx' : x < ((s.modCan n x Can.heard).ch n).can.length := by rwa [State.modCan_canCount]
  have hself : (s.modCan n x Can.heard).can n x = (s.can n x).heard := State.modCan_can_self hn hx
  have hroom : stuckFrames ((s.modCan n x Can.heard).modCan n x
      (Can.accepted (s.modCan n x Can.heard) n x (rxCanFrame f))) n (4 * n + x) = [] := by
    rw [stuckFrames_modCan (fun _ => Can.accepted_queues), stuckFrames_modCan (fun _ => Can.heard_queues), hstuck]
  rw [canRxOp_classical hn hx hb hf hr,
    canAccept_raw hn' hx' (canFilter_heard.trans hq) (by simpa only [hself, Can.heard] using hd) hne, canStage_room hroom,
    stagedCan_modCan, State.modCan_modCan, State.modCan_modCan]
  rfl

/- ### Transmission (R317, R319, R321) -/

/-- An attempt that wins with no cancel waiting behind it leaves the queue as it is. -/
theorem canArbOp_won {s : State} {n x : Nat} {f : TxFrame} {q : List TxFrame} (hw : (s.can n x).won = false)
    (hs : (s.can n x).sends = true) (hq : (s.can n x).txq = f :: q) (hc : ∀ g ∈ q, g.cancel = []) :
    canArbOp n x true s = s.modCan n x (fun c => { c with won := true, txq := f :: q }) := by
  have hkeep : q.filter (fun g => g.cancel.isEmpty) = q := List.filter_eq_self.mpr (fun g hg => by simp [hc g hg])
  have hend : q.filter (fun g => !g.cancel.isEmpty) = [] := List.filter_eq_nil_iff.mpr (fun g hg => by simp [hc g hg])
  simp only [canArbOp, hw, hs, hq, Bool.not_true, Bool.or_self, Bool.false_eq_true, if_false, if_true, hkeep, hend,
    endFrames, List.foldl_nil]

/-- An outcome on its way puts nothing out. -/
theorem sendReport_out {s : State} {n : Nat} {r : Report} : (sendReport s n r).out = s.out := by
  unfold sendReport
  split <;> rfl

/-- A controller whose frame was sent has counted it (R317, R321). -/
def Can.sent (q : List TxFrame) (dly : Option Nat) (c : Can) : Can :=
  { c with txq := q, won := false, txOk := (c.txOk + 1) % 2 ^ 32, noack := 0, tec := c.tec - 1,
           loopDly := match dly with | some d => some (d % 256) | none => c.loopDly }

/-- A frame of a descriptor with no points, cancel or time stamp, sent in NORMAL: it is on the bus, the controller counts
it, and its outcome is on the way. -/
theorem canTxOkOp_sent {s : State} {n x : Nat} {stamp : Instant} {dly : Option Nat} {f : TxFrame} {q : List TxFrame}
    (hn : n < s.chs.length) (h8 : n < 8) (hx : x < (s.ch n).can.length) (hw : (s.can n x).won = true)
    (hm : (s.can n x).mode = 1) (hs : (s.can n x).state = .errorActive) (ht : (s.can n x).tec < 128)
    (hr : (s.can n x).recv < 128) (hq : (s.can n x).txq = f :: q) (hp : f.points = []) (hc : f.cancel = [])
    (hts : f.tsReq = false) (htab : f.table = 9) : canTxOkOp n x stamp dly s =
      sendReport ((s.emit (.canFrame n x f.can)).modCan n x (fun c => (c.sent q dly).warned)) n
        { ring := f.ring, flight := f.flight, status := 0, tsq := false, late := f.late, info := 0 } := by
  have hfault := canFaultUpdate_modCan (s := s.emit (.canFrame n x f.can)) (f := Can.sent q dly) hn hx hs
    (Nat.lt_of_le_of_lt (Nat.sub_le _ 1) ht) hr
  have hnormal : ¬ 1 = 4 ∧ ¬ 4 ≤ 1 := by decide
  rw [← frameEnds_report htab h8, ← hfault]
  simp only [canTxOkOp, hw, Can.sends_of_normal hs hm, hq, hm, hp, hc, hts, hnormal, frameSent, cancelAnswer,
    List.foldl_nil, Bool.not_true, Bool.or_self, Bool.false_eq_true, false_and, if_false] <;> rfl

/-- A controller whose attempt ended in an error has counted it (R321). -/
def Can.failed (err : CanErr) (dataPhase : Bool) (c : Can) : Can :=
  { markErr c err dataPhase with won := false, tec := c.tec + 8 }

/-- An attempt that ends in an error other than a missing acknowledgement leaves the frame where it was. -/
theorem canTxErrOp_retries {s : State} {n x : Nat} {err : CanErr} {dp dom : Bool} {f : TxFrame} {q : List TxFrame}
    (hn : n < s.chs.length) (hx : x < (s.ch n).can.length) (hm : (s.can n x).mode = 1)
    (hs : (s.can n x).state = .errorActive) (ht : (s.can n x).tec < 120) (hr : (s.can n x).recv < 128)
    (hq : (s.can n x).txq = f :: q) (hc : f.cancel = []) (he : err ≠ .ack)
    (hring : f.ring < 1024 → (s.ring f.ring).state ≠ .disabling) :
    canTxErrOp n x err dp dom s = s.modCan n x (fun c => (c.failed err dp).warned) := by
  have hfault : canFaultUpdate (s.modCan n x (fun c => { markErr c err dp with won := false, tec := c.tec + 8 })) n x =
      s.modCan n x (fun c => (c.failed err dp).warned) :=
    canFaultUpdate_modCan hn hx hs (Nat.add_lt_add_right ht 8) hr
  have hstate : ((s.modCan n x (fun c => (c.failed err dp).warned)).can n x).state = .errorActive :=
    (congrArg Can.state (State.modCan_can_self hn hx)).trans (Can.warned_state hs)
  have hkeeps : ¬ (f.ring < 1024 ∧
      ((s.modCan n x (fun c => (c.failed err dp).warned)).ring f.ring).state = .disabling) := fun h => hring h.1 h.2
  simp [canTxErrOp, Can.sends_of_normal hs hm, hm, hq, hs, he, hc, hfault, hstate, hkeeps]

/-- A controller that saw an error while receiving has counted it (R321). -/
def Can.disturbed (err : CanErr) (dataPhase severe : Bool) (c : Can) : Can :=
  { markErr c err dataPhase with
    recv := if c.counts then min 255 (c.recv + if severe then 8 else 1) else c.recv }

theorem Can.disturbed_recv {err : CanErr} {dp sev : Bool} {c : Can} (hm : c.mode = 1) (hr : c.recv < 120) :
    (c.disturbed err dp sev).recv = c.recv + if sev then 8 else 1 := by
  have hle : c.recv + (if sev then 8 else 1) ≤ 255 := by split <;> omega
  simp [Can.disturbed, Can.counts, hm, Nat.min_eq_right hle]

/-- A receive error of a controller that stays ERROR_ACTIVE changes its counts alone. -/
theorem canRxErrOp_counts {s : State} {n x : Nat} {err : CanErr} {dp sev : Bool} (hn : n < s.chs.length)
    (hx : x < (s.ch n).can.length) (hm : (s.can n x).mode = 1) (hs : (s.can n x).state = .errorActive)
    (ht : (s.can n x).tec < 128) (hr : (s.can n x).recv < 120) :
    canRxErrOp n x err dp sev s = s.modCan n x (fun c => (c.disturbed err dp sev).warned) := by
  have hrecv : ((s.can n x).disturbed err dp sev).recv < 128 := by
    rw [Can.disturbed_recv hm hr]; split <;> omega
  exact (if_neg (by simp [Can.onBus_of_active hs])).trans (canFaultUpdate_modCan hn hx hs ht hrecv)

/- ### Silent identifiers and protocol exceptions (R300, R324) -/

/-- Beside the nodes reported lost, a timeout adds its identifier to the silent ones and nothing else. -/
theorem canNodeTmoOp_field {α : Type} (g : Can → α) (hg : ∀ c l, g { c with lostNodes := l } = g c) {s : State}
    {n x id : Nat} {ide : Bool} (hn : n < s.chs.length) (hx : x < (s.ch n).can.length)
    (hs : (s.can n x).state ≠ .disabled) (hw : fld (s.canReg n x 0x38) 0 16 ≠ 0) (hp : s.canPoints n x id ide ≠ [])
    (hsil : (s.can n x).silent.contains (idKey id ide) = false) :
    g ((canNodeTmoOp n x id ide s).can n x) =
      g { s.can n x with silent := (s.can n x).silent ++ [idKey id ide] } := by
  have hgo : ¬ ((s.can n x).state = .disabled || fld (s.canReg n x 0x38) 0 16 = 0 ||
      (s.canPoints n x id ide).isEmpty || (s.can n x).silent.contains (idKey id ide)) = true := by
    simpa [hs, hw, hp] using hsil
  simp only [canNodeTmoOp, if_neg hgo]
  rw [State.foldl_same (fun s => g (s.can n x)), State.foldl_same (fun s => g (s.can n x)), State.modCan_can_self hn hx]
  · intro s p
    rw [State.can, acquire_ch_can, ← State.can]
  · intro s j
    split
    · rw [chRaise_can, State.modCan_field g (fun c => hg c _)]
    · rfl

/-- An FD frame while FD_EN is 0 is counted, and the controller integrates again. -/
theorem canProtoOp_can {s : State} {n x : Nat} (hn : n < s.chs.length) (hx : x < (s.ch n).can.length)
    (hf : s.fdEn n x = false) (hb : (s.can n x).onBus = true) : (canProtoOp n x s).can n x =
      { s.can n x with fdExc := satInc 0xFFFFFFFF (s.can n x).fdExc, state := .integrating } := by
  have hgo : ¬ (s.fdEn n x || !(s.can n x).onBus) = true := by simp [hf, hb]
  rw [canProtoOp, if_neg hgo]
  split
  · exact chRaise_modCan_self hn hx
  · exact State.modCan_can_self hn hx

/-- Settles O26: a reception is `canRxOp_raw` or `canRxOp_rejected`, a transmission `canArbOp_won`, `canTxOkOp_sent` or
`canTxErrOp_retries`, and the other commands are their one change of the controller. -/
theorem canFrames : Obligations.CanFrames := by
  refine ⟨fun s n x q f ago rings hs hn hx hb hf hr hq hd hne hstuck => ⟨_, rfl, ?_⟩,
    fun s n x f ago hs hn hx hb hf hr hq => ⟨_, rfl, ?_⟩, fun s n x f q hs hn hx hw hsend hq hc => ⟨_, rfl, ?_⟩,
    fun s n x f q ago dly hs hn hx hw hm hst ht hr hq hp hc hts htab hring => ⟨_, rfl, ?_⟩,
    fun s n x f q err dp dom hs hn hx hm hst ht hr hq hc he hring => ⟨_, rfl, ?_⟩,
    fun s n x err dp sev hs hn hx hm hst ht hr => ⟨_, rfl, ?_⟩,
    fun s n x id ide hs hn hx hst hw hp hsil => ⟨_, rfl, ?_⟩, fun s n x hs hn hx hf hb => ⟨_, rfl, ?_⟩⟩
  all_goals have hlen : n < s.chs.length := (State.chs_length hs).symm ▸ hn
  · rw [canRxOp_raw hlen hx hb hf hr hq hd hne hstuck]
    refine ⟨?_, ?_, rfl⟩
    · rw [State.can, State.modCh_ch_self (by simpa using hlen), ← State.can, State.modCan_can_self hlen hx]
      rfl
    · rw [State.modCh_ch_self (by simpa using hlen), State.modCan_keep Chan.staged (fun _ _ => rfl)]
      rfl
  · rw [canRxOp_rejected hlen hx hb hf hr hq, State.modCan_can_self hlen hx]
    exact ⟨rfl, State.modCan_keep Chan.staged (fun _ _ => rfl), rfl⟩
  · rw [canArbOp_won hw hsend hq hc, State.modCan_can_self hlen hx]
    exact ⟨rfl, rfl, rfl⟩
  · have hlen' : n < ((s.emit (.canFrame n x f.can)).modCan n x (fun c => (c.sent q dly).warned)).chs.length :=
      State.modCan_length.symm ▸ hlen
    rw [canTxOkOp_sent hlen hn hx hw hm hst ht hr hq hp hc hts htab, State.can, sendReport_ch_can, ← State.can,
      State.modCan_can_self (s := s.emit _) hlen hx, sendReport_reports hlen' hring,
      State.modCan_keep Chan.reports (fun _ _ => rfl), sendReport_out]
    exact ⟨rfl, rfl, rfl, rfl, rfl, List.mem_append_right _ (List.mem_singleton.mpr rfl), rfl⟩
  · rw [canTxErrOp_retries hlen hx hm hst ht hr hq hc he hring, State.modCan_can_self hlen hx]
    exact ⟨rfl, hq, rfl, Can.warned_state hst, rfl, rfl⟩
  · rw [canRxErrOp_counts hlen hx hm hst ht hr, State.modCan_can_self hlen hx]
    exact ⟨Can.disturbed_recv (err := err) (dp := dp) hm hr, rfl, Can.warned_state hst, rfl⟩
  · exact ⟨canNodeTmoOp_field Can.silent (fun _ _ => rfl) hlen hx hst hw hp hsil,
      canNodeTmoOp_field Can.state (fun _ _ => rfl) hlen hx hst hw hp hsil⟩
  · rw [canProtoOp_can hlen hx hf hb]
    exact ⟨rfl, rfl, rfl⟩

end Sys2Proof.Machine
end

section
/-! Proof of O27: the link of a backbone port comes up, goes down or is switched off, and its verification. -/

namespace Sys2Proof.Machine

theorem State.lt_nets {s : State} {p : Nat} (hs : s.shaped = true) (hp : p < 2) : p < s.nets.length :=
  (State.nets_length hs).symm ▸ hp

/-- The ports are as many where they are the same. -/
theorem State.nets_length_congr {s t : State} (h : t.netsv = s.netsv) : t.nets.length = s.nets.length :=
  congrArg List.length h

/-- A port's control word is not its interrupt register, so a NET_LINK record leaves it. -/
theorem netLinkRec_netReg {s : State} {p o : Nat} (h : o ≠ 0x20) : (netLinkRec s p).netReg p o = s.netReg p o :=
  netLinkRec_reg (by omega)

/-- The link wants verification: PREEMPT_EN without DIS_VERIFY (R344). -/
def State.verifies (s : State) (p : Nat) : Bool := bitN (s.netReg p 0) 6 && !bitN (s.netReg p 0x18) 3

/-- On a link that is up verification begins where R344 asks, and is off elsewhere. -/
theorem netVerifyStart_net {s : State} {p : Nat} (hp : p < s.nets.length) (hup : (s.net p).up = true) :
    (netVerifyStart s p).net p = { s.net p with
      verify := if s.verifies p then .verifying else .disabled, attempts := if s.verifies p then 1 else 0 } := by
  unfold netVerifyStart State.verifies
  cases bitN (s.netReg p 0) 6 && !bitN (s.netReg p 0x18) 3 with
  | true => rw [if_pos rfl, if_pos hup]; exact State.modNet_net_self hp
  | false => exact State.modNet_net_self hp

theorem netVerifyStart_points {s : State} {p : Nat} : (netVerifyStart s p).points = s.points := by
  unfold netVerifyStart
  split
  · split <;> rfl
  · rfl

/-- The port as a link that comes up leaves it, verification aside (R329, R343). -/
def NetPort.linked (c : NetPort) (speed : Nat) (rx tx : Bool) : NetPort :=
  { c with up := true, speed := speed, pauseRx := rx, pauseTx := tx, linkCnt := satInc 255 c.linkCnt, poweredDown := false }

theorem netUpOp_of_down {s : State} {p speed : Nat} {rx tx : Bool} (hen : bitN (s.netReg p 0) 0 = true)
    (hdown : (s.net p).up = false) : netUpOp p speed rx tx s =
      netVerifyStart (netLinkRec (s.modNet p (fun c => c.linked speed rx tx)) p) p := by
  unfold netUpOp
  rw [if_pos ⟨hen, by rw [hdown]; rfl⟩]
  rfl

/-- The port a link that comes up leaves. -/
theorem netUpOp_net {s : State} {p speed : Nat} {rx tx : Bool} (hp : p < s.nets.length)
    (hen : bitN (s.netReg p 0) 0 = true) (hdown : (s.net p).up = false) :
    (netUpOp p speed rx tx s).net p = { (s.net p).linked speed rx tx with
      verify := if s.verifies p then .verifying else .disabled, attempts := if s.verifies p then 1 else 0 } := by
  have hnet : (netLinkRec (s.modNet p (fun c => c.linked speed rx tx)) p).net p = (s.net p).linked speed rx tx :=
    (State.net_congr netLinkRec_netsv p).trans (State.modNet_net_self hp)
  have hlen : p < (netLinkRec (s.modNet p (fun c => c.linked speed rx tx)) p).nets.length := by
    rw [State.nets_length_congr netLinkRec_netsv, State.modNet_length]; exact hp
  have hver : (netLinkRec (s.modNet p (fun c => c.linked speed rx tx)) p).verifies p = s.verifies p := by
    unfold State.verifies
    rw [netLinkRec_netReg (by decide), netLinkRec_netReg (by decide)]
    rfl
  rw [netUpOp_of_down hen hdown, netVerifyStart_net hlen (by rw [hnet]; rfl), hnet, hver]

/-- A port without its link: nothing waits and no frame is on the wire (R330). -/
def NetPort.unlinked (c : NetPort) : NetPort :=
  { c with up := false, speed := 0, pauseRx := false, pauseTx := false, pauseQ := 0, xoff := false, hold := false,
           wire := none, suspended := none, express := [], preempt := [], reasm := none }

/-- A frame lost with the link is answered and counted (R330). -/
def loseFrame (p : Nat) (s : State) (f : TxFrame) : State :=
  netCount (cancelAnswer (frameEnds s 8 f 0x11 0 false 0) 8 f 3) p 0x424

theorem loseFrame_net {s : State} {p : Nat} {f : TxFrame} (hp : p < s.nets.length) :
    ∃ m, (loseFrame p s f).net p = { s.net p with cnts := m } := by
  have h : (cancelAnswer (frameEnds s 8 f 0x11 0 false 0) 8 f 3).netsv = s.netsv := cancelAnswer_netsv.trans frameEnds_netsv
  unfold loseFrame
  rw [netCount_net (by rw [State.nets_length_congr h]; exact hp), State.net_congr h]
  exact ⟨_, rfl⟩

theorem loseFrame_length {s : State} {p : Nat} {f : TxFrame} : (loseFrame p s f).nets.length = s.nets.length := by
  unfold loseFrame
  rw [netCount_length]
  exact State.nets_length_congr (cancelAnswer_netsv.trans frameEnds_netsv)

/-- The frames lost with a link change the counters alone of their port. -/
theorem loseFrames_net {p : Nat} : ∀ {l : List TxFrame} {s : State}, p < s.nets.length →
    ∃ m, (l.foldl (loseFrame p) s).net p = { s.net p with cnts := m }
  | [], s, _ => ⟨(s.net p).cnts, rfl⟩
  | f :: l, s, hp => by
    obtain ⟨m, hm⟩ := loseFrames_net (l := l) (s := loseFrame p s f) (by rw [loseFrame_length]; exact hp)
    obtain ⟨m', hm'⟩ := loseFrame_net (f := f) hp
    exact ⟨m, by rw [List.foldl_cons, hm, hm']⟩

theorem loseFrames_length {p : Nat} {l : List TxFrame} {s : State} :
    (l.foldl (loseFrame p) s).nets.length = s.nets.length :=
  State.foldl_same (fun s => s.nets.length) (fun _ _ => loseFrame_length)

/-- A link that goes down ends every frame of its port; the frames on the wire are counted (R330). -/
theorem netDownOp_of_up {s : State} {p : Nat} (hup : (s.net p).up = true) : ∃ (u : State) (v : Verify),
    netDownOp p s = netLinkRec (u.modNet p (fun c => { c with attempts := 0, verify := v })) p ∧
    u.netsv = (((s.net p).wire.toList ++ (s.net p).suspended.toList).foldl (loseFrame p)
      (s.modNet p NetPort.unlinked)).netsv := by
  unfold netDownOp
  dsimp only
  rw [if_neg (by rw [hup]; decide)]
  refine ⟨_, _, rfl, endFrames_netsv.trans ?_⟩
  split
  · rfl
  · exact netInt_netsv

/-- A link that goes down leaves its port unlinked; beside that its counters and its verification change (R330). -/
theorem netDownOp_net {s : State} {p : Nat} (hp : p < s.nets.length) (hup : (s.net p).up = true) :
    (∃ m v, (netDownOp p s).net p = { (s.net p).unlinked with cnts := m, attempts := 0, verify := v }) ∧
    (netDownOp p s).nets.length = s.nets.length := by
  obtain ⟨u, v, hdown, hu⟩ := netDownOp_of_up hup
  obtain ⟨m, hm⟩ := loseFrames_net (p := p) (l := (s.net p).wire.toList ++ (s.net p).suspended.toList)
    (s := s.modNet p NetPort.unlinked) (State.modNet_length.symm ▸ hp)
  have hlen : u.nets.length = s.nets.length :=
    (State.nets_length_congr hu).trans (loseFrames_length.trans State.modNet_length)
  have hport : u.net p = { (s.net p).unlinked with cnts := m } := by
    rw [State.net_congr hu, hm, State.modNet_net_self hp]
  rw [hdown, State.net_congr netLinkRec_netsv, State.modNet_net_self (hlen.symm ▸ hp), hport,
    State.nets_length_congr netLinkRec_netsv, State.modNet_length]
  exact ⟨⟨m, v, rfl⟩, hlen⟩

/-- A port that is switched off with no frame begun ends what waits and goes down (R331). -/
theorem netDisableOp_net {s : State} {p : Nat} (hp : p < s.nets.length) (hen : bitN (s.netReg p 0) 0 = false)
    (hw : (s.net p).wire = none) (hsus : (s.net p).suspended = none) (hup : (s.net p).up = true) :
    ∃ m v, (netDisableOp p s).net p =
      { (s.net p).unlinked with cnts := m, attempts := 0, verify := v, poweredDown := true } := by
  have hgo : ¬ (bitN (s.netReg p 0) 0 || (s.net p).wire.isSome || (s.net p).suspended.isSome) = true := by
    simp [hen, hw, hsus]
  simp only [netDisableOp, if_neg hgo]
  generalize hu : endFrames (s.modNet p (fun c => { c with express := [], preempt := [] })) 8
    ((s.net p).express ++ (s.net p).preempt) 2 0x2A 0 = u
  have hsame : u.netsv = (s.modNet p (fun c => { c with express := [], preempt := [] })).netsv := hu ▸ endFrames_netsv
  have hport : u.net p = { s.net p with express := [], preempt := [] } :=
    (State.net_congr hsame p).trans (State.modNet_net_self hp)
  have hlen : p < u.nets.length := by rw [State.nets_length_congr hsame, State.modNet_length]; exact hp
  obtain ⟨⟨m, v, hdown⟩, hlen'⟩ := netDownOp_net hlen (by rw [hport]; exact hup)
  rw [State.modNet_net_self (hlen'.symm ▸ hlen), hdown, hport]
  exact ⟨m, v, rfl⟩

/-- Settles O27: the link's coming and going are `netUpOp_net`, `netDownOp_net` and `netDisableOp_net`, and the answers to
mPackets are one change of the port each. -/
theorem backboneLink : Obligations.BackboneLink := by
  refine ⟨fun s p speed rx tx hs hp hen hdown => ⟨_, rfl, ?_⟩, fun s p hs hp hup => ⟨_, rfl, ?_⟩,
    fun s p hs hp hen hw hsus hup => ⟨_, rfl, ?_⟩, fun s p hpre => ?_, fun s p hs hp hv => ⟨_, rfl, ?_⟩,
    fun s p hs hp hv => ⟨_, rfl, ?_⟩⟩
  · rw [netUpOp_net (State.lt_nets hs hp) hen hdown, netUpOp_of_down hen hdown, netVerifyStart_points, netLinkRec_points]
    exact ⟨rfl, rfl, rfl, rfl, rfl, rfl, rfl⟩
  · obtain ⟨⟨m, v, h⟩, -⟩ := netDownOp_net (State.lt_nets hs hp) hup
    rw [h]
    exact ⟨rfl, rfl, rfl, rfl, rfl, rfl, rfl, rfl⟩
  · obtain ⟨m, v, h⟩ := netDisableOp_net (State.lt_nets hs hp) hen hw hsus hup
    rw [h]
    exact ⟨rfl, rfl, rfl, rfl, rfl⟩
  · exact congrArg Host.Outcome.next (if_pos hpre)
  · rw [verifyRespOp, if_pos hv, netVerifyRec_net, State.modNet_net_self (State.lt_nets hs hp), netVerifyRec_points]
    exact ⟨rfl, rfl⟩
  · rw [verifyTmoOp, if_pos hv]
    by_cases hlt : (s.net p).attempts < 3
    · rw [if_pos hlt]
      exact ⟨rfl, fun _ => ⟨State.modNet_net_self (State.lt_nets hs hp), List.mem_append_right _ (List.mem_singleton.mpr rfl)⟩,
        fun h => absurd hlt (Nat.not_lt.mpr h)⟩
    · rw [if_neg hlt, netVerifyRec_net, State.modNet_net_self (State.lt_nets hs hp), netVerifyRec_points]
      exact ⟨rfl, fun h => absurd h hlt, fun _ => rfl⟩

end Sys2Proof.Machine
end

section
/-! Proof of O28: frames a backbone port receives and sends, PAUSE in both directions, and the hold of preemptable traffic. -/

namespace Sys2Proof.Machine

/- ### Counters (R363) -/

/-- The count of an event of a port, 0 before the first (R363). -/
theorem netCount_cnt {s : State} {p o : Nat} (hp : p < s.nets.length) :
    amGet ((netCount s p o).net p).cnts o = some (((amGet (s.net p).cnts o).getD 0 + 1) % 2 ^ 32) := by
  rw [netCount_net hp]
  exact amGet_amSet_self

/-- A count changes the counters alone of its port. -/
theorem netCount_field {α : Type} (g : NetPort → α) (hg : ∀ c m, g { c with cnts := m } = g c) {s : State} {p o : Nat}
    (hp : p < s.nets.length) : g ((netCount s p o).net p) = g (s.net p) := by
  rw [netCount_net hp, hg]

/-- A change of a port that leaves its counters, then a count. -/
theorem netCount_modNet_cnt {s : State} {p o : Nat} {f : NetPort → NetPort} (hf : ∀ c, (f c).cnts = c.cnts)
    (hp : p < s.nets.length) :
    amGet ((netCount (s.modNet p f) p o).net p).cnts o = some (((amGet (s.net p).cnts o).getD 0 + 1) % 2 ^ 32) := by
  rw [netCount_cnt (State.modNet_length.symm ▸ hp), State.modNet_net_self hp, hf]

/-- What a port reads after a change and a count, but for its counters. -/
theorem netCount_modNet_field {α : Type} (g : NetPort → α) (hg : ∀ c m, g { c with cnts := m } = g c) {s : State}
    {p o : Nat} {f : NetPort → NetPort} (hp : p < s.nets.length) :
    g ((netCount (s.modNet p f) p o).net p) = g (f (s.net p)) := by
  rw [netCount_field g hg (State.modNet_length.symm ▸ hp), State.modNet_net_self hp]

/- ### Reception (R334 to R336) -/

/-- A whole frame of an allowed size with a bad FCS is counted (R336). -/
theorem netJudge_badFcs {s : State} {p : Nat} {f : EthFrame} {stamp : Instant} (hmin : 64 ≤ f.bytes.length + 4)
    (hmax : f.bytes.length + 4 ≤ maxFrame (s.netReg p 8)) (hfcs : f.fcsOk = false) :
    netJudge s p f stamp = netCount (netAct s p) p 0x410 := by
  have hmax' : ¬ maxFrame ((netAct s p).netReg p 8) < f.bytes.length + 4 := Nat.not_lt.mpr hmax
  simp [netJudge, Nat.not_lt.mpr hmin, hmax', hfcs]

/-- A good frame that is no MAC control frame, passes the address and VLAN filters and is taken by neither PTP nor the
update service enters the receive buffer (R334, R335). -/
theorem netJudge_staged {s : State} {p : Nat} {f : EthFrame} {stamp : Instant} (hmin : 64 ≤ f.bytes.length + 4)
    (hmax : f.bytes.length + 4 ≤ maxFrame (s.netReg p 8)) (hfcs : f.fcsOk = true) (htype : etherType f.bytes ≠ 0x8808)
    (haddr : netAddrOk s p (f.bytes.take 6) = true) (hvlan : netVlanOk s p f.bytes = true)
    (hptp : (s.ptpEn && innerType f.bytes = 0x88F7) = false) (hudp : (s.ptpUdp && udpPtp f.bytes) = false)
    (hupd : updFrame s p f.bytes = false) : netJudge s p f stamp = netStage (netAct s p) p f.bytes stamp := by
  have hmax' : ¬ maxFrame ((netAct s p).netReg p 8) < f.bytes.length + 4 := Nat.not_lt.mpr hmax
  have haddr' : netAddrOk (netAct s p) p (f.bytes.take 6) = true := haddr
  have hvlan' : netVlanOk (netAct s p) p f.bytes = true := hvlan
  have htaken : (((netAct s p).ptpEn && innerType f.bytes = 0x88F7) || ((netAct s p).ptpUdp && udpPtp f.bytes) ||
      updFrame (netAct s p) p f.bytes) = false := by
    show ((s.ptpEn && innerType f.bytes = 0x88F7) || (s.ptpUdp && udpPtp f.bytes) || updFrame s p f.bytes) = false
    rw [hptp, hudp, hupd]
    rfl
  unfold netJudge
  dsimp only
  rw [if_neg (Nat.not_lt.mpr hmin), if_neg hmax', hfcs, if_neg (by decide), if_neg (fun h => htype h.1),
    if_neg (fun h => htype h.1), haddr', if_neg (by decide), hvlan', if_neg (by decide), htaken, if_neg (by decide)]

/-- A port that may send no PAUSE begins no XOFF (R342). -/
theorem netFlow_off {s : State} {p : Nat} (h : (s.net p).pauseTx = false) : netFlow s p = s := by
  simp [netFlow, h]

/-- A frame in the receive buffer, as a port holds it (R335). -/
def NetPort.buffered (p : Nat) (bytes : List Byte) (stamp : Instant) (valid : Bool) : RxFrame :=
  { target := 32 + p, node := 0xFF, can := none, bytes := bytes, stamp := stamp, timeValid := valid, queue := 0 }

/-- With room in the receive buffer, and no PAUSE to send, a frame waits and counts; the drop mark is renewed with the
first one (R335). -/
theorem netStage_room {s : State} {p : Nat} {b : List Byte} {stamp : Instant} (hp : p < s.nets.length)
    (hroom : rxHeld (s.net p) + b.length + 4 ≤ 131072) (htx : (s.net p).pauseTx = false) :
    ∃ f : NetPort → NetPort, (∀ c, (f c).cnts = c.cnts) ∧
      (∀ c, (f c).rx = c.rx ++ [NetPort.buffered p b stamp s.timeValid]) ∧
      (∀ c, (f c).pauseTx = c.pauseTx) ∧ netStage s p b stamp = netCount (s.modNet p f) p 0x404 := by
  have hmod : ∀ f g : NetPort → NetPort, (s.modNet p f).modNet p g = s.modNet p (fun c => g (f c)) := fun f g => by
    simp only [State.modNet, List.modify_modify_eq, Function.comp_def]
  have hflow : ∀ f : NetPort → NetPort, (∀ c, (f c).pauseTx = c.pauseTx) →
      netFlow (netCount (s.modNet p f) p 0x404) p = netCount (s.modNet p f) p 0x404 := fun f hf =>
    netFlow_off (by rw [netCount_modNet_field NetPort.pauseTx (fun _ _ => rfl) hp, hf, htx])
  unfold netStage
  dsimp only
  rw [if_neg (Nat.not_lt.mpr hroom)]
  split
  · refine ⟨fun c => { c with rxTold := false, rx := c.rx ++ [NetPort.buffered p b stamp s.timeValid] },
      fun _ => rfl, fun _ => rfl, fun _ => rfl, ?_⟩
    rw [hmod]
    exact hflow _ (fun _ => rfl)
  · exact ⟨fun c => { c with rx := c.rx ++ [NetPort.buffered p b stamp s.timeValid] }, fun _ => rfl, fun _ => rfl,
      fun _ => rfl, hflow _ (fun _ => rfl)⟩

/- ### Transmission (R333) -/

/-- A frame that asks for no stamp and completes nothing ends without a trace (R131, R218). -/
theorem frameSent_silent {s : State} {n q target : Nat} {f : TxFrame} {stamp : Instant} {valid : Bool} (ht : f.table = 9)
    (hr : f.ring = 1024) (hts : f.tsReq = false) : frameSent s n f stamp valid q target = s := by
  have h9 : ¬ 9 < 9 := by decide
  simp [frameSent, hts, frameEnds, ht, hr, sendReport, finish]

/-- A frame no cancel waits for gets no answer to one. -/
theorem cancelAnswer_nil {s : State} {n status : Nat} {f : TxFrame} (hc : f.cancel = []) : cancelAnswer s n f status = s := by
  unfold cancelAnswer
  rw [hc]
  rfl

/-- The frame on the wire of a port on which nothing waits has been sent (R333). -/
theorem netTxDoneOp_last {s : State} {p : Nat} {stamp : Instant} {f : TxFrame} (hp : p < s.nets.length)
    (hw : (s.net p).wire = some f) (hx : (s.net p).express = []) (hpre : (s.net p).preempt = [])
    (hsus : (s.net p).suspended = none) (ht : f.table = 9) (hr : f.ring = 1024) (hc : f.cancel = [])
    (hts : f.tsReq = false) : netTxDoneOp p stamp s =
      netCount (netAct ((s.modNet p (fun c => { c with wire := none, hold := c.hold && (f.preempt || 9 ≤ f.table) })).emit
        (.ethFrame (32 + p) (f.bytes ++ bytesLE 4 (Config.crc32 f.bytes).toNat))) p) p 0x400 := by
  unfold netTxDoneOp
  rw [hw]
  dsimp only
  rw [frameSent_silent ht hr hts, cancelAnswer_nil hc]
  refine netKick_idle ?_ ?_ ?_
  · exact (netCount_modNet_field NetPort.express (fun _ _ => rfl) hp).trans hx
  · exact (netCount_modNet_field NetPort.preempt (fun _ _ => rfl) hp).trans hpre
  · exact (netCount_modNet_field NetPort.suspended (fun _ _ => rfl) hp).trans hsus

/-- Preemption depends on the registers and on the verification of the port (R344). -/
theorem preemptActive_modNet {s : State} {p : Nat} {f : NetPort → NetPort} (hf : ∀ c, (f c).verify = c.verify)
    (hp : p < s.nets.length) : preemptActive (s.modNet p f) p = preemptActive s p := by
  unfold preemptActive
  rw [State.modNet_net_self hp, hf]
  rfl

theorem preemptActive_netCount {s : State} {p o : Nat} (hp : p < s.nets.length) :
    preemptActive (netCount s p o) p = preemptActive s p := by
  unfold netCount
  exact preemptActive_modNet (fun _ => rfl) hp

/-- Where preemption is not active, a change of a port that leaves its verification interrupts no frame (R345). -/
theorem netPreempt_modNet {s : State} {p : Nat} (f : NetPort → NetPort) (hf : ∀ c, (f c).verify = c.verify)
    (hp : p < s.nets.length) (hoff : preemptActive s p = false) : netPreempt (s.modNet p f) p = s.modNet p f :=
  netPreempt_off ((preemptActive_modNet hf hp).trans hoff)

/-- A running pause timer takes the new time, on a port that may be paused (R339). -/
theorem pauseRxOp_runs {s : State} {p quanta : Nat} (hp : p < s.nets.length) (hrx : (s.net p).pauseRx = true)
    (h0 : 0 < quanta) (hq : quanta < 65536) (hoff : preemptActive s p = false) :
    pauseRxOp p quanta s = (netCount s p 0x428).modNet p (fun c => { c with pauseQ := quanta }) := by
  have hlen : p < (netCount s p 0x428).nets.length := netCount_length.symm ▸ hp
  unfold pauseRxOp
  dsimp only
  rw [if_pos ((netCount_field NetPort.pauseRx (fun _ _ => rfl) hp).trans hrx), Nat.mod_eq_of_lt hq,
    if_neg (Nat.pos_iff_ne_zero.mp h0)]
  exact netPreempt_modNet _ (fun _ => rfl) hlen ((preemptActive_netCount hp).trans hoff)

/-- An express frame begins on a port that is up, free and not paused (R332, R340). -/
theorem netKick_express {s : State} {p : Nat} {f : TxFrame} {q : List TxFrame} (hup : (s.net p).up = true)
    (hw : (s.net p).wire = none) (hq : (s.net p).pauseQ = 0) (hen : bitN (s.netReg p 0) 0 = true)
    (hx : (s.net p).express = f :: q) :
    netKick s p = s.modNet p (fun c => { c with wire := some f, express := q }) := by
  have hfree : netFree s p = true := by simp [netFree, hup, hw, hq]
  unfold netKick
  dsimp only
  rw [hfree, hen, hx]
  rfl

/-- Settles O28: a reception is `netJudge_staged` into `netStage_room`, or `netJudge_badFcs`; a transmission is
`netTxDoneOp_last`; the PAUSE and hold commands are one change of their port and its count. -/
theorem backboneTraffic : Obligations.BackboneTraffic := by
  refine ⟨fun s p f ago hs hp2 hup hmin hmax hfcs htype haddr hvlan hptp hudp hupd hroom htx => ⟨_, rfl, ?_⟩,
    fun s p f ago hs hp2 hup hmin hmax hfcs => ⟨_, rfl, ?_⟩,
    fun s p f ago hs hp2 hw hx hpre hsus ht hr hc hts => ⟨_, rfl, ?_⟩,
    fun s p quanta hs hp2 hrx h0 hq hoff => ⟨_, rfl, ?_⟩,
    fun s p f q hs hp2 hup hw hq hen hx => ⟨_, rfl, ?_⟩, fun s p hs hp2 hxoff hfull => ⟨_, rfl, ?_⟩,
    fun s p hs hp2 hxoff hforce hlow => ⟨_, rfl, ?_⟩, fun s p hs hp2 hadv hoff => ⟨_, rfl, ?_⟩,
    fun s p hs hp2 hre => ⟨_, rfl, ?_⟩⟩
  all_goals have hp : p < s.nets.length := State.lt_nets hs hp2
  all_goals have hact : p < (netAct s p).nets.length := hp
  · have hup' : ¬ (!(s.net p).up) = true := by simp [hup]
    simp only [netRxOp, if_neg hup']
    obtain ⟨g, hcnt, hrx, -, hstage⟩ := netStage_room (stamp := s.hubStamp ago) hact hroom htx
    rw [netJudge_staged hmin hmax hfcs htype haddr hvlan hptp hudp hupd, hstage,
      netCount_modNet_field NetPort.rx (fun _ _ => rfl) hact, hrx, netCount_modNet_cnt hcnt hact]
    exact ⟨rfl, rfl, rfl⟩
  · have hup' : ¬ (!(s.net p).up) = true := by simp [hup]
    simp only [netRxOp, if_neg hup']
    rw [netJudge_badFcs hmin hmax hfcs]
    exact ⟨netCount_field NetPort.rx (fun _ _ => rfl) hact, netCount_cnt hact, rfl⟩
  · rw [netTxDoneOp_last hp hw hx hpre hsus ht hr hc hts]
    exact ⟨netCount_modNet_field NetPort.wire (fun _ _ => rfl) hp,
      List.mem_append_left _ (List.mem_append_right _ (List.mem_singleton.mpr rfl)),
      netCount_modNet_cnt (fun _ => rfl) hp, rfl⟩
  · rw [pauseRxOp_runs hact hrx h0 hq hoff, State.modNet_net_self (netCount_length.symm ▸ hact)]
    exact ⟨rfl, netCount_field NetPort.wire (fun _ _ => rfl) hact, netCount_cnt hact, rfl⟩
  · have hport : (s.modNet p (fun c => { c with pauseQ := 0 })).net p = { s.net p with pauseQ := 0 } :=
      State.modNet_net_self hp
    rw [pauseExpiryOp, if_neg hq, netKick_express ((congrArg NetPort.up hport).trans hup)
      ((congrArg NetPort.wire hport).trans hw) (congrArg NetPort.pauseQ hport) hen
      ((congrArg NetPort.express hport).trans hx), State.modNet_net_self (State.modNet_length.symm ▸ hp), hport]
    exact ⟨rfl, rfl⟩
  · simp only [xoffRepeatOp, hxoff, hfull, Bool.true_and, if_true]
    exact ⟨(netCount_field NetPort.xoff (fun _ _ => rfl) hp).trans hxoff,
      List.mem_append_left _ (List.mem_append_right _ (List.mem_singleton.mpr rfl)), netCount_cnt hp⟩
  · have hgo : ((s.net p).xoff && !bitN (s.netReg p 0) 8 && decide (rxHeld (s.net p) < xonThr s p)) = true := by
      simp [hxoff, hforce, hlow]
    simp only [xonOp, if_pos hgo]
    exact ⟨netCount_modNet_field NetPort.xoff (fun _ _ => rfl) hp,
      List.mem_append_left _ (List.mem_append_right _ (List.mem_singleton.mpr rfl)),
      netCount_modNet_cnt (fun _ => rfl) hp⟩
  · rw [holdOp, if_neg hadv, netPreempt_modNet (fun c => { c with hold := true }) (fun _ => rfl) hp hoff]
    exact ⟨State.modNet_net_self hp, rfl⟩
  · rw [reasmTmoOp, if_pos hre]
    exact ⟨netCount_modNet_field NetPort.reasm (fun _ _ => rfl) hp, netCount_modNet_field NetPort.rx (fun _ _ => rfl) hp,
      netCount_modNet_cnt (fun _ => rfl) hp⟩

end Sys2Proof.Machine
end

section
/-! Proof of O29: frames a T1S segment receives and sends, collisions and back-offs, and a mode that comes into force. -/

namespace Sys2Proof.Machine

theorem State.lt_chs {s : State} {n : Nat} (hs : s.shaped = true) (hn : n < 8) : n < s.chs.length :=
  (State.chs_length hs).symm ▸ hn

/-- Two changes of a segment are one. -/
theorem State.modSeg_modSeg {s : State} {n x : Nat} {f g : Seg → Seg} :
    (s.modSeg n x f).modSeg n x g = s.modSeg n x (fun c => g (f c)) := by
  simp only [State.modSeg, State.modCh, List.modify_modify_eq, Function.comp_def]

/-- A segment that has counted an event (R363). -/
def Seg.counted (o : Nat) (c : Seg) : Seg :=
  { c with cnts := amSet c.cnts o ((c.cnt o + 1) % 2 ^ 32) }

theorem segCount_eq {s : State} {n x o : Nat} : segCount s n x o = s.modSeg n x (Seg.counted o) := rfl

theorem Seg.counted_cnt {c : Seg} {o : Nat} : (c.counted o).cnt o = (c.cnt o + 1) % 2 ^ 32 := cnt_amSet

/- ### An attempt begins (R353, R355) -/

/-- A segment in NORMAL with a frame waiting, nothing in the way and no PLCA begins an attempt. -/
theorem segKick_begins {s : State} {n x : Nat} (hmode : (s.seg n x).mode = 1) (hstop : (s.ch n).stopped = false)
    (hbusy : (s.seg n x).busy = false) (hback : (s.seg n x).backoff = 0) (hq : (s.seg n x).txq ≠ [])
    (hplca : (s.seg n x).plca = false) :
    segKick s n x = s.modSeg n x (fun c => { c with busy := true, carrier := true }) := by
  simp [segKick, hmode, hstop, hbusy, hback, hq, hplca]

theorem segKick_points {s : State} {n x : Nat} : (segKick s n x).points = s.points := by
  unfold segKick
  dsimp only
  split <;> rfl

/-- With PLCA off, the end of an opportunity only lets the next attempt begin (R355). -/
theorem nextOpp_off {s : State} {n x : Nat} (hplca : (s.seg n x).plca = false) : nextOpp s n x = segKick s n x := by
  simp [nextOpp, hplca]

/- ### Reception (R336, R358) -/

/-- The node is heard, and no longer lost (R358, R362). -/
def Seg.hears (j : Nat) (c : Seg) : Seg :=
  { c with heard := if c.heard.contains j then c.heard else c.heard ++ [j], lost := c.lost.filter (fun k => !(k == j)) }

/-- A received frame that finds staging waits for its rings; beside the drop marks nothing of the segment changes. -/
theorem segStage_room {s : State} {n x basin : Nat} {f g : RxFrame} {rings : List Nat} (hn : n < s.chs.length)
    (hg : g = { f with queue := (s.seg n x).queues.findIdx (fun b => b == basin) }) (hroom : stagingFull s n g = false) :
    (∀ o, ((segStage s n x basin f rings).seg n x).cnt o = (s.seg n x).cnt o) ∧
    ((segStage s n x basin f rings).ch n).staged = (s.ch n).staged ++ rings.map (fun k => (k, g)) ∧
    (segStage s n x basin f rings).points = s.points := by
  have hseg : ∀ (u : State) l, ((u.modCh n (fun c => { c with staged := c.staged ++ l })).seg n x) = u.seg n x := fun u l =>
    State.modCh_field (fun c => c.seg.getD x Seg.reset) (fun _ => rfl)
  subst hg
  unfold segStage
  dsimp only
  generalize (s.seg n x).queues.findIdx (fun b => b == basin) = q at hroom ⊢
  split
  · rw [stagingFull_modSeg (f := fun c => { c with rxTold := c.rxTold.filter (fun k => !(k == q)) }) (fun _ => rfl), hroom,
      if_neg (by decide), hseg, State.modCh_ch_self (State.modSeg_length.symm ▸ hn), State.modSeg_keep Chan.staged (fun _ _ => rfl)]
    exact ⟨fun o => State.modSeg_field (fun c => c.cnt o) (fun _ => rfl), rfl, rfl⟩
  · rw [hroom, if_neg (by decide), hseg, State.modCh_ch_self hn]
    exact ⟨fun o => rfl, rfl, rfl⟩

/-- A good frame to the segment from a mapped node, that is neither gPTP nor a point frame, counts, marks its node heard and
goes to the rings that subscribe to it. -/
theorem segRxOp_staged {s : State} {n x j : Nat} {f : EthFrame} {stamp : Instant} {rings : List Nat}
    (hmode : (s.seg n x).mode ≠ 0) (hplca : (s.seg n x).plca = false) (hmin : 64 ≤ f.bytes.length + 4)
    (hmax : f.bytes.length + 4 ≤ maxFrame (s.segReg n x 8)) (hfcs : f.fcsOk = true)
    (hdst : f.bytes.take 6 = segMac s n x) (hnode : macNode s n x ((f.bytes.drop 6).take 6) = some j)
    (hgptp : innerType f.bytes ≠ 0x88F7) (hpoint : etherType f.bytes ≠ 0x88B5)
    (hsubs : segSubs s n x (nodeBasin s n (2 + x) j) j = rings) (hrings : rings ≠ []) :
    segRxOp n x f stamp s = segStage (s.modSeg n x (fun c => (c.counted 0x404).hears j)) n x (nodeBasin s n (2 + x) j)
      { target := 4 * n + 2 + x, node := j, can := none, bytes := f.bytes, stamp := stamp,
        timeValid := (s.ch n).tb.valid, queue := 0 } rings := by
  have hnode' : macNode (segCount s n x 0x404) n x ((f.bytes.drop 6).take 6) = some j := hnode
  have hvalid : ((segCount s n x 0x404).ch n).tb.valid = (s.ch n).tb.valid :=
    State.modSeg_keep (fun c => c.tb.valid) (fun _ _ => rfl)
  have hto : ¬ (!(f.bytes.take 6 = segMac s n x || ((f.bytes.take 6).headD 0).getLsbD 0)) = true := by simp [hdst]
  have hnext : ¬ ((s.seg n x).plca && !(s.seg n x).busy) = true := by simp [hplca]
  have hptp : ¬ (innerType f.bytes = 0x88F7 && gptpEn ((segCount s n x 0x404).modSeg n x (Seg.hears j)) n x) = true := by
    simp [hgptp]
  have hempty : ¬ rings.isEmpty = true := by simpa using hrings
  unfold segRxOp
  dsimp only
  rw [if_neg hnext, if_neg hmode, if_neg (Nat.not_lt.mpr hmin), if_neg (Nat.not_lt.mpr hmax), hfcs, if_neg (by decide),
    if_neg hto, hnode']
  dsimp only
  rw [hvalid]
  refine (if_neg hptp).trans ?_
  rw [if_neg hpoint]
  refine (if_neg (fun h => hempty ((congrArg List.isEmpty hsubs).symm.trans h))).trans ?_
  rw [← hsubs, ← State.modSeg_modSeg (f := Seg.counted 0x404) (g := Seg.hears j)]
  rfl

/- ### Transmission (R353, R354) -/

/-- A segment whose head frame was sent, with nothing behind it. -/
def Seg.idled (c : Seg) : Seg :=
  { c with txq := [], busy := false, carrier := false, collisions := 0, excTold := false }

/-- The only frame of a segment has been sent with PLCA off, and it completes nothing: it is on the wire, and the segment
counts it. -/
theorem segTxDoneOp_last {s : State} {n x : Nat} {stamp : Instant} {f : TxFrame} (hn : n < s.chs.length)
    (hx : x < (s.ch n).seg.length) (hbusy : (s.seg n x).busy = true) (hplca : (s.seg n x).plca = false)
    (hq : (s.seg n x).txq = [f]) (ht : f.table = 9) (hr : f.ring = 1024) (hc : f.cancel = []) (hts : f.tsReq = false)
    (hp : f.points = []) : segTxDoneOp n x stamp s =
      ((s.modSeg n x (fun c => { c.idled with writes := c.writes ++ [] })).emit (.ethFrame (4 * n + 2 + x)
        (f.bytes ++ bytesLE 4 (Config.crc32 f.bytes).toNat))).modSeg n x (Seg.counted 0x400) := by
  have hwait : ¬ (!(s.seg n x).busy) = true := by simp [hbusy]
  have hburst : ¬ ((s.seg n x).plca && decide ((s.seg n x).burst < fld (s.segReg n x 0x1C) 0 8) && !([] : List TxFrame).isEmpty) = true := by
    simp
  generalize hu : ((s.modSeg n x (fun c => { c.idled with writes := c.writes ++ [] })).emit (.ethFrame (4 * n + 2 + x)
    (f.bytes ++ bytesLE 4 (Config.crc32 f.bytes).toNat))).modSeg n x (Seg.counted 0x400) = u
  have hseg : u.seg n x = ({ (s.seg n x).idled with writes := (s.seg n x).writes ++ [] } : Seg).counted 0x400 := by
    rw [← hu, State.modSeg_seg_self (State.modSeg_length.symm ▸ hn) (State.modSeg_slen.symm ▸ hx)]
    exact congrArg (Seg.counted 0x400) (State.modSeg_seg_self hn hx)
  unfold segTxDoneOp
  dsimp only
  rw [if_neg hwait, hq]
  dsimp only
  rw [frameSent_silent ht hr hts, cancelAnswer_nil hc, hp]
  refine (if_neg (by simp)).trans ?_
  refine (congrArg (fun v => nextOpp v n x) (hu : _ = u)).trans ?_
  rw [nextOpp_off (by rw [hseg]; exact hplca)]
  exact segKick_off (Or.inl (by rw [hseg]; rfl))

/-- A collision with PLCA off, below the sixteenth, of a frame nobody takes back: it counts, and the segment waits for a
number of slots drawn for this collision (R353). -/
theorem segCollOp_backsOff {s : State} {n x : Nat} {f : TxFrame} {q : List TxFrame} (hbusy : (s.seg n x).busy = true)
    (hplca : (s.seg n x).plca = false) (hq : (s.seg n x).txq = f :: q) (hc : f.cancel = [])
    (hk : ((s.seg n x).collisions + 1) % 16 ≠ 0) (hring : f.ring < 1024 → (s.ring f.ring).state ≠ .disabling) :
    ∃ r, r < 2 ^ min ((s.seg n x).collisions + 1) 10 ∧ segCollOp n x false s =
      (s.modSeg n x (fun c => { c.counted 0x440 with
        busy := false, carrier := false, collisions := (s.seg n x).collisions + 1, backoff := r + 1 })).tick1 := by
  have hwait : ¬ (!(s.seg n x).busy) = true := by simp [hbusy]
  have hcancel : ¬ (!f.cancel.isEmpty) = true := by simp [hc]
  have hring' : ¬ (f.ring < 1024 ∧ (s.ring f.ring).state = .disabling) := fun h => hring h.1 h.2
  have hplca' : ¬ (s.seg n x).plca = true := by simp [hplca]
  refine ⟨Config.backoffDraw s.free % 2 ^ min ((s.seg n x).collisions + 1) 10, Nat.mod_lt _ (Nat.two_pow_pos _), ?_⟩
  unfold segCollOp
  dsimp only
  rw [if_neg hwait, hq]
  dsimp only
  rw [if_neg hk, if_neg Bool.false_ne_true, if_neg hcancel]
  refine (if_neg hring').trans ((if_neg hplca').trans ?_)
  rw [segCount_eq, State.modSeg_modSeg]
  exact congrArg State.tick1 State.modSeg_modSeg

/-- Bus idle brings the wanted mode into force; one other than DISABLED leaves what is queued (R352). -/
theorem segModeOp_applies {s : State} {n x : Nat} (hmode : (s.seg n x).mode ≠ wantedSeg s n x)
    (hbusy : (s.seg n x).busy = false) (hwant : wantedSeg s n x ≠ 0) :
    segModeOp n x s = segKick (s.modSeg n x (fun c => { c with mode := wantedSeg s n x })) n x := by
  unfold segModeOp segApply
  dsimp only
  rw [if_pos ⟨hmode, by rw [hbusy]; rfl⟩, if_neg hwant]

/-- Settles O29: a reception is `segRxOp_staged` into `segStage_room`, a transmission `segTxDoneOp_last`, a collision
`segCollOp_backsOff`; the end of a back-off and a new mode let the next attempt begin. -/
theorem segmentFrames : Obligations.SegmentFrames := by
  refine ⟨fun s n x j f ago rings g hs hn8 hx hmode hplca hmin hmax hfcs hdst hnode hgptp hpoint hsubs hrings hg hroom =>
      ⟨_, rfl, ?_⟩,
    fun s n x f ago hs hn8 hx hbusy hplca hq ht hr hc hts hp => ⟨_, rfl, ?_⟩,
    fun s n x f q hs hn8 hx hbusy hplca hq hc hk hring => ⟨_, rfl, ?_⟩,
    fun s n x hs hn8 hx hback hmode hstop hbusy hq hplca => ⟨_, rfl, ?_⟩,
    fun s n x hs hn8 hx hmode hbusy hwant => ⟨_, rfl, ?_⟩⟩
  all_goals have hn : n < s.chs.length := State.lt_chs hs hn8
  · have hheard := State.modSeg_seg_self (f := fun c => (c.counted 0x404).hears j) hn hx
    have hroom' : stagingFull (s.modSeg n x (fun c => (c.counted 0x404).hears j)) n g = false :=
      (stagingFull_modSeg (f := fun c => (c.counted 0x404).hears j) (fun _ => rfl)).trans hroom
    obtain ⟨hcnt, hstaged, hpts⟩ := segStage_room (rings := rings) (basin := nodeBasin s n (2 + x) j)
      (f := { target := 4 * n + 2 + x, node := j, can := none, bytes := f.bytes, stamp := s.chStamp n ago,
              timeValid := (s.ch n).tb.valid, queue := 0 }) (State.modSeg_length.symm ▸ hn) (by rw [hheard, hg]; rfl) hroom'
    rw [segRxOp_staged hmode hplca hmin hmax hfcs hdst hnode hgptp hpoint hsubs hrings, hcnt, hstaged, hpts, hheard,
      State.modSeg_keep Chan.staged (fun _ _ => rfl)]
    exact ⟨Seg.counted_cnt, rfl, rfl⟩
  · rw [segTxDoneOp_last hn hx hbusy hplca hq ht hr hc hts hp,
      State.modSeg_seg_self (State.modSeg_length.symm ▸ hn) (State.modSeg_slen.symm ▸ hx)]
    have hseg : ∀ e, (((s.modSeg n x (fun c => { c.idled with writes := c.writes ++ [] })).emit e).seg n x) =
        { (s.seg n x).idled with writes := (s.seg n x).writes ++ [] } := fun e => State.modSeg_seg_self hn hx
    rw [hseg]
    exact ⟨rfl, rfl, rfl, rfl, Seg.counted_cnt, List.mem_append_right _ (List.mem_singleton.mpr rfl), rfl⟩
  · obtain ⟨r, hr, hcoll⟩ := segCollOp_backsOff hbusy hplca hq hc hk hring
    have hseg : ∀ g : Seg → Seg, (s.modSeg n x g).tick1.seg n x = g (s.seg n x) := fun g => State.modSeg_seg_self hn hx
    rw [hcoll, hseg]
    exact ⟨rfl, hq, rfl, Nat.succ_le_succ (Nat.zero_le r), hr, Seg.counted_cnt, rfl⟩
  · have hseg : (s.modSeg n x (fun c => { c with backoff := 0 })).seg n x = { s.seg n x with backoff := 0 } :=
      State.modSeg_seg_self hn hx
    rw [backoffOp, if_neg hback, segKick_begins, State.modSeg_modSeg, State.modSeg_seg_self hn hx]
    · exact ⟨rfl, rfl⟩
    · exact (congrArg Seg.mode hseg).trans hmode
    · exact (State.modSeg_keep Chan.stopped (fun _ _ => rfl)).trans hstop
    · exact (congrArg Seg.busy hseg).trans hbusy
    · exact congrArg Seg.backoff hseg
    · exact fun h => hq ((congrArg Seg.txq hseg).symm.trans h)
    · exact (congrArg Seg.plca hseg).trans hplca
  · obtain ⟨b, c, hseg⟩ := segKick_seg (s := s.modSeg n x (fun c => { c with mode := wantedSeg s n x }))
      (State.modSeg_length.symm ▸ hn) (State.modSeg_slen.symm ▸ hx)
    rw [segModeOp_applies hmode hbusy hwant, hseg, State.modSeg_seg_self hn hx, segKick_points]
    exact ⟨rfl, rfl, rfl, rfl⟩

end Sys2Proof.Machine
end

section
/-! Proof of O30: PLCA beacons and opportunities on a T1S segment, and a node that stays silent. -/

namespace Sys2Proof.Machine

theorem segKick_regs {s : State} {n x : Nat} : (segKick s n x).regs = s.regs := by
  unfold segKick
  dsimp only
  split <;> rfl

theorem plcaSet_regs {s : State} {n x : Nat} {on : Bool} : (plcaSet s n x on).regs = s.regs := by
  unfold plcaSet
  split
  · rfl
  · exact chRaise_regs

/-- What an attempt leaves of its segment. -/
theorem segKick_field {α : Type} (g : Seg → α) (hg : ∀ c b k, g { c with busy := b, carrier := k } = g c) {s : State}
    {n x : Nat} (hn : n < s.chs.length) (hx : x < (s.ch n).seg.length) : g ((segKick s n x).seg n x) = g (s.seg n x) := by
  obtain ⟨b, k, h⟩ := segKick_seg hn hx
  rw [h, hg]

/-- What PLCA turned on or off leaves of its segment (R355). -/
theorem plcaSet_field {α : Type} (g : Seg → α) {s : State} {n x : Nat} {on : Bool}
    (hg : ∀ (c : Seg) o b, g { c with plca := on, opp := o, burst := b } = g { c with plca := on }) (hn : n < s.chs.length)
    (hx : x < (s.ch n).seg.length) : g ((plcaSet s n x on).seg n x) = g ({ s.seg n x with plca := on } : Seg) := by
  obtain ⟨o, b, h⟩ := plcaSet_seg (on := on) hn hx
  rw [h, hg]

/-- The segment as a beacon leaves it, before the next attempt (R355). -/
theorem plcaBeaconOp_eq {s : State} {n x : Nat} (hen : bitN (s.segReg n x 0x18) 0 = true) (hmode : (s.seg n x).mode = 1) :
    plcaBeaconOp n x s = segKick ((plcaSet (segCount s n x 0x450) n x true).modSeg n x
      (fun c => { c with opp := 0, burst := 0, backoff := 0 })) n x := by
  simp [plcaBeaconOp, hen, hmode]

/-- A beacon leaves PLCA active, the opportunities at their first, and itself counted (R355). -/
theorem plcaBeaconOp_seg {s : State} {n x : Nat} (hn : n < s.chs.length) (hx : x < (s.ch n).seg.length)
    (hen : bitN (s.segReg n x 0x18) 0 = true) (hmode : (s.seg n x).mode = 1) :
    ∃ b k, (plcaBeaconOp n x s).seg n x = { (s.seg n x).counted 0x450 with
      plca := true, opp := 0, burst := 0, backoff := 0, busy := b, carrier := k } := by
  have hlen := plcaSet_len (s := segCount s n x 0x450) (n := n) (x := x) (m := n) (on := true)
  have hn' : n < (plcaSet (segCount s n x 0x450) n x true).chs.length := hlen.1.symm ▸ State.modSeg_length.symm ▸ hn
  have hx' : x < ((plcaSet (segCount s n x 0x450) n x true).ch n).seg.length := hlen.2.symm ▸ State.modSeg_slen.symm ▸ hx
  obtain ⟨o, u, hset⟩ := plcaSet_seg (s := segCount s n x 0x450) (on := true) (State.modSeg_length.symm ▸ hn)
    (State.modSeg_slen.symm ▸ hx)
  obtain ⟨b, k, hkick⟩ := segKick_seg (s := (plcaSet (segCount s n x 0x450) n x true).modSeg n x
    (fun c => { c with opp := 0, burst := 0, backoff := 0 })) (State.modSeg_length.symm ▸ hn') (State.modSeg_slen.symm ▸ hx')
  rw [plcaBeaconOp_eq hen hmode, hkick, State.modSeg_seg_self hn' hx', hset, segCount_eq, State.modSeg_seg_self hn hx]
  exact ⟨b, k, rfl⟩

/-- An opportunity that passes makes room for the next (R355). -/
theorem nextOpp_on {s : State} {n x : Nat} (hplca : (s.seg n x).plca = true) : nextOpp s n x =
    segKick (s.modSeg n x (fun c => { c with opp := min (c.opp + 1) (nodeCount s n x), burst := 0 })) n x := by
  simp [nextOpp, hplca]

/-- A mapped node that was not lost and has not been heard for NODE_TMO is lost; its points are acquired as such (R362). -/
theorem segNodeTmoOp_seg {s : State} {n x j : Nat} (hn : n < s.chs.length) (hx : x < (s.ch n).seg.length)
    (htmo : fld (s.segReg n x 0) 16 16 ≠ 0) (hnode : (nodeMac s n x j).isSome = true)
    (hlost : (s.seg n x).lost.contains j = false) : (segNodeTmoOp n x j s).seg n x =
      { s.seg n x with lost := (s.seg n x).lost ++ [j], heard := (s.seg n x).heard.filter (fun k => !(k == j)) } ∧
    (segNodeTmoOp n x j s).regs = s.regs := by
  have hgo : ¬ (fld (s.segReg n x 0) 16 16 = 0 || (nodeMac s n x j).isNone || (s.seg n x).lost.contains j) = true := by
    cases h : nodeMac s n x j with
    | none => simp [h] at hnode
    | some m => simpa [htmo] using hlost
  simp only [segNodeTmoOp, if_neg hgo]
  constructor
  · rw [chRaise_seg, State.foldl_same (fun s => s.seg n x) (fun s p => by rw [State.seg, acquire_ch_seg, ← State.seg]),
      State.modSeg_seg_self hn hx]
  · rw [chRaise_regs, State.foldl_same State.regs (fun s p => acquire_regs)]
    rfl

/-- Settles O30: a beacon is `plcaBeaconOp_seg`, an unused opportunity `nextOpp_on`, a silent node `segNodeTmoOp_seg`, and
the loss of beacons turns PLCA off before the next attempt. -/
theorem segmentPlca : Obligations.SegmentPlca := by
  refine ⟨fun s n x hs hn8 hx hen hmode => ⟨_, rfl, ?_⟩, fun s n x hs hn8 hx hplca hbusy => ⟨_, rfl, ?_⟩,
    fun s n x hs hn8 hx hplca hid => ⟨_, rfl, ?_⟩, fun s n x j hs hn8 hx htmo hnode hlost => ⟨_, rfl, ?_⟩⟩
  all_goals have hn : n < s.chs.length := State.lt_chs hs hn8
  · obtain ⟨b, k, h⟩ := plcaBeaconOp_seg hn hx hen hmode
    rw [h]
    refine ⟨rfl, rfl, Seg.counted_cnt, rfl, ?_⟩
    rw [plcaBeaconOp_eq hen hmode, segKick_regs]
    exact plcaSet_regs
  · have hgo : ((s.seg n x).plca && !(s.seg n x).busy) = true := by simp [hplca, hbusy]
    rw [plcaToOp, if_pos hgo, nextOpp_on hplca, segKick_points]
    obtain ⟨b, k, h⟩ := segKick_seg (s := s.modSeg n x (fun c =>
      { c with opp := min (c.opp + 1) (nodeCount s n x), burst := 0 })) (State.modSeg_length.symm ▸ hn)
      (State.modSeg_slen.symm ▸ hx)
    rw [h, State.modSeg_seg_self hn hx]
    exact ⟨rfl, rfl, rfl, rfl⟩
  · have hgo : ((s.seg n x).plca && localId s n x ≠ 0) = true := by simp [hplca, hid]
    have hlen := plcaSet_len (s := s) (n := n) (x := x) (m := n) (on := false)
    have hn' : n < (plcaSet s n x false).chs.length := hlen.1.symm ▸ hn
    have hx' : x < ((plcaSet s n x false).ch n).seg.length := hlen.2.symm ▸ hx
    rw [plcaLossOp, if_pos hgo, segKick_field Seg.plca (fun _ _ _ => rfl) hn' hx', segKick_field Seg.txq (fun _ _ _ => rfl) hn' hx',
      segKick_field Seg.mode (fun _ _ _ => rfl) hn' hx', plcaSet_field Seg.plca (fun _ _ _ => rfl) hn hx,
      plcaSet_field Seg.txq (fun _ _ _ => rfl) hn hx, plcaSet_field Seg.mode (fun _ _ _ => rfl) hn hx]
    exact ⟨rfl, rfl, rfl⟩
  · obtain ⟨hseg, hregs⟩ := segNodeTmoOp_seg hn hx htmo hnode hlost
    rw [hseg]
    exact ⟨rfl, rfl, rfl, hregs⟩

end Sys2Proof.Machine
end

section
/-! Proof of O31: the thresholds of the field supply, edges of the digital inputs, and the counters. -/

namespace Sys2Proof.Machine

/-- An output of a list that is changed throughout reads as the change of one of the outputs, or as reset. -/
theorem getD_map_dout {α : Type} (g : Dout → α) {l : List Dout} {f : Dout → Dout} {d : Nat} {a : α}
    (hf : ∀ o, g (f o) = a) (hr : g Dout.reset = a) : g ((l.map f).getD d Dout.reset) = a := by
  rw [List.getD_eq_getElem?_getD, List.getElem?_map]
  cases l[d]? with
  | none => exact hr
  | some o => exact hf o

/-- What a change of every output keeps of one. -/
theorem getD_map_dout_same {α : Type} (g : Dout → α) {l : List Dout} {f : Dout → Dout} {d : Nat}
    (hf : ∀ o, g (f o) = g o) : g ((l.map f).getD d Dout.reset) = g (l.getD d Dout.reset) := by
  rw [List.getD_eq_getElem?_getD, List.getElem?_map, List.getD_eq_getElem?_getD]
  cases l[d]? with
  | none => rfl
  | some o => exact hf o

/-- As `getD_map_dout_same`, for the analogue outputs. -/
theorem getD_map_aout_same {α : Type} (g : Aout → α) {l : List Aout} {f : Aout → Aout} {k : Nat}
    (hf : ∀ o, g (f o) = g o) : g ((l.map f).getD k Aout.reset) = g (l.getD k Aout.reset) := by
  rw [List.getD_eq_getElem?_getD, List.getElem?_map, List.getD_eq_getElem?_getD]
  cases l[k]? with
  | none => rfl
  | some o => exact hf o

/-- A list built output by output reads the output asked for. -/
theorem getD_range_dout {f : Nat → Dout} {d : Nat} (hd : d < 8) : ((List.range 8).map f).getD d Dout.reset = f d := by
  rw [List.getD_eq_getElem?_getD, List.getElem?_map, List.getElem?_range hd]
  rfl

/-- The inputs' points at a 14 V crossing change neither field I/O nor a register (R370). -/
theorem fsupInvalidOp_rest {s : State} {n v m : Nat} (hv : v < 1400) (hinv : (s.dio n).inv = false) :
    (fsupInvalidOp n v s).dio m = (s.modDio n (fun c => { c with fsup := v, inv := true })).dio m ∧
    (fsupInvalidOp n v s).regs = s.regs := by
  have hgo : v < 1400 ∧ !(s.dio n).inv := ⟨hv, by simp [hinv]⟩
  simp only [fsupInvalidOp, if_pos hgo]
  constructor
  · rw [State.foldl_same (fun u : State => u.dio m) (fun _ _ => reacquireAin_dio), acquireInputs_dio]
  · rw [State.foldl_same State.regs (fun _ _ => reacquireAin_regs), acquireInputs_regs, State.modDio_regs]

/-- A counted edge needs an enabled input (R375). -/
theorem State.dinEn_of_counting {s : State} {n i : Nat} (h : s.counting n i = true) : s.dinEn n i = true := by
  simp only [State.counting, Bool.and_eq_true] at h
  exact h.2

/-- An accepted edge: the level follows, and a counting input counts it where CNT_EDGE accepts it (R373 to R375). -/
theorem dinEdgeOp_rest {s : State} {n i : Nat} {level : Bool} {stamp : Instant} (hn : n < s.chs.length) (hi : i < 16)
    (hl : (s.dio n).level.getLsbD i ≠ level) :
    (dinEdgeOp n i level stamp s).dio n = { s.dio n with
      level := setBitTo (s.dio n).level i level,
      counts := if s.counting n i && edgeCounts (s.dioReg n 0x14) i level then
        (s.dio n).counts.modify i (fun k => (k + 1) % 2 ^ 64) else (s.dio n).counts } ∧
    (dinEdgeOp n i level stamp s).regs = s.regs := by
  have hlvl := State.modDio_dio_self (f := fun c => { c with level := setBitTo c.level i level }) hn
  rw [dinEdgeOp, if_pos ⟨hi, hl⟩]
  generalize hs1 : s.modDio n (fun c => { c with level := setBitTo c.level i level }) = s1 at hlvl ⊢
  have hregs : s1.regs = s.regs := by rw [← hs1]; rfl
  have hcnt : s1.counting n i = s.counting n i := by rw [← hs1]; rfl
  have hcfg : s1.dioReg n 0x14 = s.dioReg n 0x14 := by rw [← hs1]; rfl
  have hn1 : n < s1.chs.length := by rw [← hs1, State.modDio_length]; exact hn
  simp only [hcnt, hcfg]
  cases hc : s.counting n i with
  | false =>
    split
    · exact ⟨by rw [if_neg Bool.false_ne_true, acquireDin_dio, hlvl]; rfl,
        by rw [if_neg Bool.false_ne_true, acquireDin_regs, hregs]⟩
    · exact ⟨by rw [hlvl]; rfl, hregs⟩
  | true =>
    rw [if_pos (State.dinEn_of_counting (hcnt.trans hc)), if_pos rfl]
    cases he : edgeCounts (s.dioReg n 0x14) i level with
    | false => exact ⟨by rw [if_neg Bool.false_ne_true, hlvl]; rfl, hregs⟩
    | true => exact ⟨by rw [if_pos rfl, State.modDio_dio_self hn1, hlvl]; rfl, hregs⟩

/-- One counter at an acquisition instant (R375). -/
def acquireCounter (n : Nat) (s : State) (i : Nat) : State :=
  if s.counting n i then
    acquireDin (acquireCnt s n i (s.dinQual n) (s.chNow n)) n i (s.dinQual n) (s.chNow n)
  else s

theorem counterAcqOp_eq {s : State} {n : Nat} : counterAcqOp n s = (List.range 4).foldl (acquireCounter n) s := rfl

/-- A counter that is off acquires nothing. -/
theorem acquireCounter_off {s : State} {n i : Nat} (h : s.counting n i = false) : acquireCounter n s i = s := by
  rw [acquireCounter, if_neg (by simp [h])]

/-- What counts depends on registers alone. -/
theorem State.counting_congr {s t : State} (h : t.regs = s.regs) (n i : Nat) : t.counting n i = s.counting n i := by
  unfold State.counting State.dinEn State.dioReg State.reg
  rw [h]

/-- The only declared counter is acquired with its count, and nothing else is (R375). -/
theorem counterAcqOp_single {s : State} {n h : Nat} {p : Point} (h0 : s.counting n 0 = true)
    (hoff : ∀ i, 0 < i → i < 4 → s.counting n i = false) (hcnt : s.localPoints n 36 = [h])
    (hdin : s.localPoints n 0 = []) (hp : amGet s.points h = some p) (hh : p.isHub = false) :
    counterAcqOp n s = acquire s h (BitVec.ofNat 64 ((s.dio n).counts.getD 0 0)) (s.dinQual n) (s.chNow n) := by
  have hone : acquireCounter n s 0 =
      acquire s h (BitVec.ofNat 64 ((s.dio n).counts.getD 0 0)) (s.dinQual n) (s.chNow n) := by
    rw [acquireCounter, if_pos h0, acquireCnt, acquireTerm, hcnt, List.foldl_cons, List.foldl_nil, acquireDin,
      acquireTerm, acquire_localPoints hp hh, hdin, List.foldl_nil]
  have hrest : ∀ i, 0 < i → i < 4 → acquireCounter n (acquireCounter n s 0) i = acquireCounter n s 0 :=
    fun i hi hi4 => acquireCounter_off (by rw [hone, State.counting_congr acquire_regs]; exact hoff i hi hi4)
  have hr : List.range 4 = [0, 1, 2, 3] := rfl
  rw [counterAcqOp_eq, hr, ← hone]
  simp only [List.foldl_cons, List.foldl_nil, hrest 1 (by decide) (by decide), hrest 2 (by decide) (by decide),
    hrest 3 (by decide) (by decide)]

/-- Settles O31: each threshold is a change of the channel's field I/O, with the outputs' points acquired anew (`requalAll`)
or the inputs' (`fsupInvalidOp_rest`); an edge is `dinEdgeOp_rest`, the counters `counterAcqOp_single`. -/
theorem fieldSupplyAndInputs : Obligations.FieldSupplyAndInputs := by
  refine ⟨fun s n v hs hn8 hv hl => ⟨_, rfl, ?_⟩, fun s n v hs hn8 hv => ⟨_, rfl, ?_⟩,
    fun s n v hs hn8 hv hinv => ⟨_, rfl, ?_⟩, fun s n v hs hn8 hv hinv => ⟨_, rfl, ?_⟩,
    fun s n v d hs hn8 hv => ⟨_, rfl, ?_⟩, fun s n v hs hn8 hv hu => ⟨_, rfl, ?_⟩,
    fun s n d hs hn8 hd hr => ⟨_, rfl, ?_⟩, fun s n v hs hn8 hv => ⟨_, rfl, ?_⟩,
    fun s n i level ago hs hn8 hi hl => ⟨_, rfl, ?_⟩,
    fun s n h p h0 hoff hcnt hdin hp hh => congrArg _ (counterAcqOp_single h0 hoff hcnt hdin hp hh)⟩
  all_goals have hn : n < s.chs.length := State.lt_chs hs hn8
  · rw [fsupLowOp, if_pos ⟨hv, by simp [hl]⟩, State.modDio_dio_self hn]
    exact ⟨rfl, rfl⟩
  · rw [fsupOkOp, if_pos hv, State.modDio_dio_self hn]
    exact ⟨rfl, rfl⟩
  · obtain ⟨hdio, hregs⟩ := fsupInvalidOp_rest (m := n) hv hinv
    rw [hdio, State.modDio_dio_self hn]
    exact ⟨rfl, hregs⟩
  · rw [fsupValidOp, if_pos ⟨hv, hinv⟩, acquireInputs_dio, acquireInputs_regs, State.modDio_dio_self hn]
    exact ⟨rfl, rfl⟩
  · rw [uvloOp, if_pos hv, requalAll_dout Dout.drive (fun _ _ => rfl), requalAll_dout Dout.cmd (fun _ _ => rfl),
      requalAll_aout Aout.code (fun _ _ => rfl), requalAll_dio Dio.uvlo ⟨fun _ _ => rfl, fun _ _ => rfl⟩,
      requalAll_dio Dio.restart ⟨fun _ _ => rfl, fun _ _ => rfl⟩, requalAll_dio Dio.fsup ⟨fun _ _ => rfl, fun _ _ => rfl⟩,
      requalAll_dio Dio.armed ⟨fun _ _ => rfl, fun _ _ => rfl⟩, State.dout, State.aout, State.modDio_dio_self hn]
    exact ⟨rfl, rfl, rfl, getD_map_dout Dout.drive (fun _ => rfl) rfl, getD_map_dout_same Dout.cmd (fun _ => rfl), rfl, rfl⟩
  · rw [restartRiseOp, if_pos ⟨hv, hu⟩, State.modDio_dio_self hn]
    exact ⟨rfl, rfl⟩
  · rw [uvloRestartOp, if_pos hr, requalAll_dout Dout.drive (fun _ _ => rfl), requalAll_dout Dout.cmd (fun _ _ => rfl),
      requalAll_aout Aout.code (fun _ _ => rfl), requalAll_dio Dio.restart ⟨fun _ _ => rfl, fun _ _ => rfl⟩,
      requalAll_dio Dio.suspTo ⟨fun _ _ => rfl, fun _ _ => rfl⟩, State.dout, State.aout, State.modDio_dio_self hn]
    rw [getD_range_dout hd]
    exact ⟨rfl, rfl, rfl, rfl, getD_map_aout_same Aout.code (fun _ => rfl)⟩
  · rw [guardLossOp, if_pos hv, State.modDio_dio_self hn]
    exact ⟨rfl, rfl, rfl, rfl, rfl, rfl⟩
  · obtain ⟨hdio, hregs⟩ := dinEdgeOp_rest (stamp := s.chStamp n ago - 4000) hn hi hl
    rw [hdio]
    exact ⟨rfl, rfl, rfl, hregs⟩

end Sys2Proof.Machine
end

section
/-! Proof of O32: digital outputs trip, retry, cool, are cleared and limited as a group; external drive and open load. -/

namespace Sys2Proof.Machine

/-- Bits of FCAUSE0 stay as they are when an output switches off. -/
theorem switchOff_dio {α : Type} (g : Dio → α) (hg : Dio.Apart g) {s : State} {n d m : Nat} {hot : Bool} :
    g ((switchOff s n d hot).dio m) = g (s.dio m) := by
  rw [switchOff, doutRequal_dio g hg, State.modDout_dio g hg]

/-- An output switched off under R378 keeps its command, and the other outputs are as before. -/
theorem switchOff_dout {s : State} {n d : Nat} {hot : Bool} (hn : n < s.chs.length) (hd : d < (s.dio n).dout.length) :
    ((switchOff s n d hot).dout n d).drive = false ∧ ((switchOff s n d hot).dout n d).tripped = true ∧
    ((switchOff s n d hot).dout n d).cmd = (s.dout n d).cmd ∧
    ((switchOff s n d hot).dout n d).hot = ((s.dout n d).hot || hot) ∧
    ∀ c, c ≠ d → (switchOff s n d hot).dout n c = s.dout n c := by
  have hn' : n < (s.modDout n d (fun o =>
      { o with drive := false, tripped := true, hot := o.hot || hot, due := false })).chs.length := by
    rw [State.modDout_length]; exact hn
  rw [switchOff, doutRequal_dout Dout.drive (fun _ _ => rfl), doutRequal_dout Dout.tripped (fun _ _ => rfl),
    doutRequal_dout Dout.cmd (fun _ _ => rfl), doutRequal_dout Dout.hot (fun _ _ => rfl), State.modDout_dout_self hn hd]
  exact ⟨rfl, rfl, rfl, rfl, fun c hc => by rw [doutRequal_dout_ne hn' hc, State.modDout_dout_ne hn hc]⟩

/-- A change of FCAUSE0 leaves the outputs, their number and the channels. -/
theorem modFc0_rest {s : State} {n : Nat} {k : Word → Word} (hn : n < s.chs.length) :
    (∀ c, (s.modDio n (fun c => { c with fc0 := k c.fc0 })).dout n c = s.dout n c) ∧
    ((s.modDio n (fun c => { c with fc0 := k c.fc0 })).dio n).dout.length = (s.dio n).dout.length ∧
    ((s.modDio n (fun c => { c with fc0 := k c.fc0 })).dio n).fc0 = k (s.dio n).fc0 ∧
    n < (s.modDio n (fun c => { c with fc0 := k c.fc0 })).chs.length := by
  have hdio := State.modDio_dio_self (f := fun c => { c with fc0 := k c.fc0 }) hn
  refine ⟨fun c => ?_, congrArg (fun c => c.dout.length) hdio, congrArg Dio.fc0 hdio, State.modDio_length.symm ▸ hn⟩
  exact congrArg (fun i => i.dout.getD c Dout.reset) hdio

/-- A protection that sets bit `i` of FCAUSE0 and switches the output off (R378). -/
theorem trip_dout {s : State} {n d i : Nat} {hot : Bool} (hn : n < s.chs.length) (hd : d < (s.dio n).dout.length)
    (hi : i < 32) :
    let t := switchOff (s.modDio n (fun c => { c with fc0 := setBit c.fc0 i })) n d hot
    (t.dout n d).drive = false ∧ (t.dout n d).tripped = true ∧ (t.dout n d).cmd = (s.dout n d).cmd ∧
    (t.dout n d).hot = ((s.dout n d).hot || hot) ∧ bitN (t.dio n).fc0 i = true ∧
    ∀ c, c ≠ d → t.dout n c = s.dout n c := by
  obtain ⟨hdout, hlen, hfc0, hn'⟩ := modFc0_rest (s := s) (k := fun w => setBit w i) hn
  obtain ⟨hdrive, htrip, hcmd, hhot, hne⟩ := switchOff_dout (hot := hot) hn' (hlen.symm ▸ hd)
  refine ⟨hdrive, htrip, hcmd.trans (congrArg Dout.cmd (hdout d)), hhot.trans (congrArg (Dout.hot · || hot) (hdout d)), ?_,
    fun c hc => (hne c hc).trans (hdout c)⟩
  rw [switchOff_dio Dio.fc0 ⟨fun _ _ => rfl, fun _ _ => rfl⟩, hfc0]
  exact bitN_setBit hi

/-- One output of CLR_OC (R378). -/
def clrOne (n : Nat) (mask : BitVec 8) (s : State) (d : Nat) : State := if mask.getLsbD d then switchOn s n d else s

theorem clrOcOp_eq {s : State} {n : Nat} {mask : BitVec 8} : clrOcOp n mask s = (List.range 8).foldl (clrOne n mask) s := rfl

/-- Clearing one output leaves every other, and field I/O beside the outputs. -/
theorem clrOne_rest {s : State} {n c d : Nat} {mask : BitVec 8} (hn : n < s.chs.length)
    (h : mask.getLsbD c = false ∨ c ≠ d) :
    (clrOne n mask s d).dout n c = s.dout n c ∧ n < (clrOne n mask s d).chs.length ∧
    ((clrOne n mask s d).dio n).dout.length = (s.dio n).dout.length ∧
    ((clrOne n mask s d).dio n).lockout = (s.dio n).lockout := by
  unfold clrOne
  split
  · rename_i hm
    have hne : c ≠ d := h.elim (fun h0 e => by rw [e, hm] at h0; exact Bool.noConfusion h0) id
    refine ⟨switchOn_ne hn hne, ?_, (switchOn_length (m := n)).1, switchOn_dio Dio.lockout ⟨fun _ _ => rfl, fun _ _ => rfl⟩⟩
    rw [(switchOn_length (m := n)).2]
    exact hn
  · exact ⟨rfl, hn, rfl, rfl⟩

/-- Clearing outputs leaves one that is not among those cleared. -/
theorem clrList_rest {n c : Nat} {mask : BitVec 8} : ∀ {l : List Nat} {s : State}, n < s.chs.length →
    (mask.getLsbD c = false ∨ c ∉ l) →
    (l.foldl (clrOne n mask) s).dout n c = s.dout n c
  | [], _, _, _ => rfl
  | d :: l, s, hn, h => by
    have hd : mask.getLsbD c = false ∨ c ≠ d := h.imp_right (fun h e => h (e ▸ List.mem_cons_self))
    obtain ⟨hsame, hn', -, -⟩ := clrOne_rest hn hd
    rw [List.foldl_cons, clrList_rest hn' (h.imp_right (fun h e => h (List.mem_cons_of_mem _ e))), hsame]

/-- A tripped, commanded and cool output among those cleared switches on, unless lockout holds it (R378). -/
theorem clrList_self {n d : Nat} {mask : BitVec 8} (hm : mask.getLsbD d = true) {l : List Nat} {s : State}
    (hn : n < s.chs.length) (hlen : d < (s.dio n).dout.length) (hmem : d ∈ l) (hnd : l.Nodup)
    (hcmd : (s.dout n d).cmd = true) (htr : (s.dout n d).tripped = true) (hhot : (s.dout n d).hot = false) :
    ((l.foldl (clrOne n mask) s).dout n d).drive = !(s.dio n).lockout ∧
    ((l.foldl (clrOne n mask) s).dout n d).tripped = false ∧ ((l.foldl (clrOne n mask) s).dout n d).cmd = true := by
  induction l generalizing s with
  | nil => exact absurd hmem List.not_mem_nil
  | cons c l ih =>
    obtain ⟨hcl, hl⟩ := List.nodup_cons.mp hnd
    rw [List.foldl_cons]
    by_cases hdc : d = c
    · subst hdc
      have hn' : n < (clrOne n mask s d).chs.length := by
        rw [clrOne, if_pos hm, (switchOn_length (m := n)).2]; exact hn
      rw [clrList_rest hn' (Or.inr hcl), clrOne, if_pos hm]
      exact switchOn_self hn hlen hcmd htr hhot
    · obtain ⟨hsame, hn', hlen', hlock⟩ := clrOne_rest (mask := mask) hn (Or.inr hdc)
      rw [← hlock]
      exact ih hn' (by rw [hlen']; exact hlen) ((List.mem_cons.mp hmem).resolve_left hdc) hl (by rw [hsame]; exact hcmd)
        (by rw [hsame]; exact htr) (by rw [hsame]; exact hhot)

/-- Field I/O with the measured currents of its outputs, the group's sum and the cause of the group limit (R379). -/
def groupMark (cs : List Nat) (c : Dio) : Dio :=
  { c with group := cs.foldl (· + ·) 0, fc0 := setBit c.fc0 1,
           dout := (List.range 8).map (fun d => { c.dout.getD d Dout.reset with current := cs.getD d 0 }) }

/-- The state in which the group's currents are judged (R379). -/
def groupSeen (s : State) (n : Nat) (cs : List Nat) : State := s.modDio n (groupMark cs)

theorem groupSeen_dio {s : State} {n : Nat} {cs : List Nat} (hn : n < s.chs.length) :
    (groupSeen s n cs).dio n = groupMark cs (s.dio n) := State.modDio_dio_self hn

theorem groupSeen_dout {s : State} {n c : Nat} {cs : List Nat} (hn : n < s.chs.length) (hc : c < 8) :
    (groupSeen s n cs).dout n c = { s.dout n c with current := cs.getD c 0 } := by
  rw [State.dout, groupSeen_dio hn]
  exact getD_range_dout (f := fun d => { (s.dio n).dout.getD d Dout.reset with current := cs.getD d 0 }) hc

/-- Above the group limit the output with strictly the largest current switches off (R379). -/
theorem groupOcOp_eq {s : State} {n d : Nat} {cs : List Nat} (hn : n < s.chs.length) (hd : d < 8) (hcs : cs.length = 8)
    (hsum : 4400 < cs.foldl (· + ·) 0) (hdrive : (s.dout n d).drive = true)
    (hmax : ∀ c, c < 8 → c ≠ d → (s.dout n c).drive = true → cs.getD c 0 < cs.getD d 0) :
    groupOcOp n cs s = switchOff (groupSeen s n cs) n d false := by
  have hon : ((groupSeen s n cs).dout n d).drive = true := by rw [groupSeen_dout hn hd]; exact hdrive
  have hlargest : largestOn ((groupSeen s n cs).dio n).dout cs = d := by
    refine largestOn_eq hd hon (fun c hc hne h => hmax c hc hne ?_)
    have h' : ((groupSeen s n cs).dout n c).drive = true := h
    rwa [groupSeen_dout hn hc] at h'
  rw [groupOcOp, if_pos ⟨hcs, hsum⟩]
  show (if ((groupSeen s n cs).dout n (largestOn ((groupSeen s n cs).dio n).dout cs)).drive = true then
    switchOff (groupSeen s n cs) n (largestOn ((groupSeen s n cs).dio n).dout cs) false else groupSeen s n cs) = _
  rw [hlargest, if_pos hon]

/-- Settles O32: overcurrent and overtemperature are `trip_dout`, the ways back `switchOn_self`, CLR_OC `clrList_self`, the
group limit `groupOcOp_eq`. -/
theorem digitalOutputs : Obligations.DigitalOutputs := by
  refine ⟨fun s n d hs hn8 hd hlen hdrive => ⟨_, rfl, ?_⟩, fun s n d hs hn8 hd hlen hdrive => ⟨_, rfl, ?_⟩,
    fun s n d hs hn8 hd hlen hretry hhot hcmd htr => ⟨_, rfl, ?_⟩,
    fun s n d hs hn8 hd hlen hhot hdue hcmd htr => ⟨_, rfl, ?_⟩,
    fun s n d mask hs hn8 hd hlen hre hm hcmd htr hhot => ⟨_, rfl, ?_⟩,
    fun s n d cs hs hn8 hd hcs hsum hdrive hmax => ⟨_, rfl, ?_⟩,
    fun s n d hs hn8 hd hlen hcmd hwor hck => ⟨_, rfl, ?_⟩,
    fun s n d hs hn8 hd hen hcmd hdrive hwor hck => ⟨_, rfl, ?_⟩⟩
  all_goals have hn : n < s.chs.length := State.lt_chs hs hn8
  · obtain ⟨h1, h2, h3, h4, h5, h6⟩ := trip_dout (i := 16 + d) (hot := false) hn hlen (by omega)
    rw [overcurrentOp, if_pos ⟨hd, hdrive⟩]
    exact ⟨h1, h2, h3, h4.trans (Bool.or_false _), h5, h6⟩
  · obtain ⟨h1, h2, h3, h4, h5, h6⟩ := trip_dout (i := 24 + d) (hot := true) hn hlen (by omega)
    rw [overtempOp, if_pos ⟨hd, hdrive⟩]
    exact ⟨h1, h2, h3, h4.trans (Bool.or_true _), h5, h6⟩
  · obtain ⟨h1, h2, h3⟩ := switchOn_self hn hlen hcmd htr hhot
    rw [retryOp, if_pos ⟨hd, hretry⟩, if_neg (by simp [hhot])]
    exact ⟨h1, h2, h3, fun c hc => switchOn_ne hn hc⟩
  · have hself := State.modDout_dout_self (f := fun o => { o with hot := false, due := false }) hn hlen
    have hn' : n < (s.modDout n d (fun o => { o with hot := false, due := false })).chs.length := by
      rw [State.modDout_length]; exact hn
    obtain ⟨h1, h2, h3⟩ := switchOn_self (d := d) hn' (State.modDout_doutLen.symm ▸ hlen)
      ((congrArg Dout.cmd hself).trans hcmd) ((congrArg Dout.tripped hself).trans htr) (congrArg Dout.hot hself)
    rw [State.modDout_dio Dio.lockout ⟨fun _ _ => rfl, fun _ _ => rfl⟩] at h1
    rw [cooledOp, if_pos ⟨hd, hhot⟩]
    simp only [hdue, if_true]
    exact ⟨h1, h2, h3, fun c hc => by rw [switchOn_ne hn' hc, State.modDout_dout_ne hn hc]⟩
  · rw [ifReaches, if_pos hre, clrOcOp_eq]
    obtain ⟨h1, h2, h3⟩ := clrList_self hm hn hlen (List.mem_range.mpr hd) List.nodup_range hcmd htr hhot
    exact ⟨h1, h2, h3, fun c _ hc => clrList_rest hn (Or.inl hc)⟩
  · rw [groupOcOp_eq hn hd hcs hsum hdrive hmax]
    have hn' : n < (groupSeen s n cs).chs.length := by rw [groupSeen, State.modDio_length]; exact hn
    have hdio := groupSeen_dio (cs := cs) hn
    have hlen : d < ((groupSeen s n cs).dio n).dout.length := by
      rw [hdio, groupMark]; simpa using hd
    obtain ⟨h1, h2, h3, -, hne⟩ := switchOff_dout (hot := false) hn' hlen
    refine ⟨h1, h2, by rw [h3, groupSeen_dout hn hd], ?_, ?_, fun c hc hcd => ?_⟩
    · rw [switchOff_dio Dio.group ⟨fun _ _ => rfl, fun _ _ => rfl⟩, hdio]
      rfl
    · rw [switchOff_dio Dio.fc0 ⟨fun _ _ => rfl, fun _ _ => rfl⟩, hdio]
      exact bitN_setBit (by decide)
    · rw [hne c hcd, groupSeen_dout hn hc]
  · obtain ⟨hdout, hdl, hfc0, hn'⟩ := modFc0_rest (s := s) (k := fun w => setBit w (8 + d)) hn
    rw [extDriveOp, if_pos ⟨hd, by simp [hcmd], by simp [hwor], hck⟩]
    rw [doutRequal_dout Dout.ext (fun _ _ => rfl), doutRequal_dout Dout.cmd (fun _ _ => rfl),
      doutRequal_dout Dout.drive (fun _ _ => rfl), doutRequal_dio Dio.fc0 ⟨fun _ _ => rfl, fun _ _ => rfl⟩,
      State.modDout_dio Dio.fc0 ⟨fun _ _ => rfl, fun _ _ => rfl⟩, State.modDout_dout_self hn' (hdl.symm ▸ hlen), hdout]
    refine ⟨rfl, hcmd, rfl, ?_, fun c hc => ?_⟩
    · rw [hfc0]; exact bitN_setBit (by omega)
    · rw [doutRequal_dout_ne (by rw [State.modDout_length]; exact hn') hc, State.modDout_dout_ne hn' hc, hdout]
  · rw [openLoadOp, if_pos ⟨hd, hen, hcmd, hdrive, by simp [hwor], hck⟩]
    exact ⟨State.modDio_dio_self hn, rfl⟩

end Sys2Proof.Machine
end

section
/-! Proof of O33: the output guard is kicked, trips, holds the terminals and ends the hold. -/

namespace Sys2Proof.Machine

/-- The field I/O a kick leaves: the guard armed with the states to drive at a trip (R384, R386). -/
def kicked (s : State) (n : Nat) (c : Dio) : Dio :=
  { c with
    armed := true, holding := false, keeps := true, fresh := false, gSafe := guardTable s n,
    gWor := (List.range 8).foldl (fun w d => setBitTo w d (s.wor n d)) 0,
    gCodes := (List.range 4).map (fun t => fld (s.dioReg n (0xE8 + 4 * t)) 0 16) }

/-- The commands a re-arm takes over from the terminals (R387). -/
def takeHeld (c : Dio) : Dio :=
  { c with
    dout := c.dout.map (fun o => { o with cmd := o.drive, tripped := false }),
    aout := c.aout.map (fun o => if o.zero then { o with code := 0 } else o) }

/-- The points of all outputs of a channel are acquired (R387). -/
def acquireOutputs (s : State) (n : Nat) : State :=
  (List.range 4).foldl (fun s t => aoutAcquire s n t (s.chNow n))
    ((List.range 8).foldl (fun s d => doutAcquire s n d (s.chNow n)) s)

/-- A kick in service arms the guard; at a re-arm the channel takes over what the terminals hold (R384, R387). -/
theorem guardKickOp_inService {s : State} {n : Nat} (h : (s.ch n).state = .inService) : guardKickOp n s =
    if (s.dio n).fresh && !(s.dio n).holding then
      acquireOutputs ((s.modDio n (kicked s n)).modDio n takeHeld) n
    else s.modDio n (kicked s n) := by
  rw [guardKickOp]
  exact if_pos (Or.inl h)

theorem acquireOutputs_dio {α : Type} (g : Dio → α) (hg : Dio.Apart g) {s : State} {n m : Nat} :
    g ((acquireOutputs s n).dio m) = g (s.dio m) := by
  unfold acquireOutputs
  rw [State.foldl_same (fun s : State => g (s.dio m)) (fun _ _ => aoutAcquire_dio g hg),
    State.foldl_same (fun s : State => g (s.dio m)) (fun _ _ => doutAcquire_dio g hg)]

theorem acquireOutputs_dout {α : Type} (g : Dout → α) (hg : ∀ o q, g { o with qual := q } = g o) {s : State} {n m e : Nat} :
    g ((acquireOutputs s n).dout m e) = g (s.dout m e) := by
  have haout : ∀ (l : List Nat) (u : State),
      ((l.foldl (fun s t => aoutAcquire s n t (s.chNow n)) u).dio m).dout = (u.dio m).dout :=
    fun l u => State.foldl_same (fun s : State => (s.dio m).dout) (fun _ _ => aoutAcquire_douts)
  rw [acquireOutputs, State.dout, haout]
  exact State.foldl_same (fun s : State => g (s.dout m e)) (fun _ _ => doutAcquire_dout_field g hg)

/-- An output takes over the state of its terminal (R387). -/
theorem takeHeld_dout {c : Dio} {d : Nat} : (takeHeld c).dout.getD d Dout.reset =
    { c.dout.getD d Dout.reset with cmd := (c.dout.getD d Dout.reset).drive, tripped := false } := by
  rw [takeHeld, List.getD_eq_getElem?_getD, List.getElem?_map, List.getD_eq_getElem?_getD]
  cases c.dout[d]? with
  | none => rfl
  | some o => rfl

/-- A DOUT with a safe state shows it after a trip, as far as lockout and its temperature let it (R385, R386). -/
theorem guardDrive_safe {c : Dio} {d : Nat} {v : Bool} (hd : d < 8)
    (h : doutSafe c.gSafe (c.gWor.getLsbD d) d = some v) :
    ((guardDrive c).dout.getD d Dout.reset).drive = (v && !c.lockout && !(c.dout.getD d Dout.reset).hot) := by
  rw [guardDrive, getD_range_dout hd, h]

/-- A DOUT whose safe state is HOLD stays as it is (R386). -/
theorem guardDrive_hold {c : Dio} {d : Nat} (hd : d < 8) (h : doutSafe c.gSafe (c.gWor.getLsbD d) d = none) :
    (guardDrive c).dout.getD d Dout.reset = c.dout.getD d Dout.reset := by
  rw [guardDrive, getD_range_dout hd, h]

/-- Settles O33: a kick is `guardKickOp_inService`; a trip, and the end of a hold, drive every output by `guardDrive`. -/
theorem outputGuard : Obligations.OutputGuard := by
  refine ⟨fun s n d hs hn8 hst => ⟨_, rfl, ?_⟩, fun s n hs hn8 harm hhold => ⟨_, rfl, ?_⟩,
    fun s n hs hn8 hen harm => ⟨_, rfl, ?_⟩, fun s n hs hn8 hhold => ⟨_, rfl, ?_⟩⟩
  all_goals have hn : n < s.chs.length := State.lt_chs hs hn8
  · have hkick : (s.modDio n (kicked s n)).dio n = kicked s n (s.dio n) := State.modDio_dio_self hn
    rw [guardKickOp_inService hst]
    cases hre : ((s.dio n).fresh && !(s.dio n).holding) with
    | false =>
      rw [if_neg Bool.false_ne_true, State.dout, hkick]
      exact ⟨rfl, rfl, rfl, rfl, rfl, rfl, rfl, rfl⟩
    | true =>
      have htake : ((s.modDio n (kicked s n)).modDio n takeHeld).dio n = takeHeld (kicked s n (s.dio n)) := by
        rw [State.modDio_dio_self (by rw [State.modDio_length]; exact hn), hkick]
      have hdout : ((s.modDio n (kicked s n)).modDio n takeHeld).dout n d =
          { s.dout n d with cmd := (s.dout n d).drive, tripped := false } := by
        rw [State.dout, htake]
        exact takeHeld_dout
      rw [if_pos rfl, acquireOutputs_dio Dio.armed ⟨fun _ _ => rfl, fun _ _ => rfl⟩,
        acquireOutputs_dio Dio.holding ⟨fun _ _ => rfl, fun _ _ => rfl⟩,
        acquireOutputs_dio Dio.keeps ⟨fun _ _ => rfl, fun _ _ => rfl⟩,
        acquireOutputs_dio Dio.fresh ⟨fun _ _ => rfl, fun _ _ => rfl⟩,
        acquireOutputs_dio Dio.gSafe ⟨fun _ _ => rfl, fun _ _ => rfl⟩,
        acquireOutputs_dio Dio.gCodes ⟨fun _ _ => rfl, fun _ _ => rfl⟩, acquireOutputs_dout Dout.drive (fun _ _ => rfl),
        acquireOutputs_dout Dout.cmd (fun _ _ => rfl), htake, hdout]
      exact ⟨rfl, rfl, rfl, rfl, rfl, rfl, rfl, rfl⟩
  · have hdio := State.modDio_dio_self (f := guardDrive) hn
    rw [guardTripOp, if_pos ⟨harm, by simp [hhold]⟩, hdio]
    refine ⟨rfl, rfl, rfl, rfl, rfl, fun d v hd hv => ?_, fun d hd hv => ?_⟩
    · rw [State.dout, hdio]
      exact guardDrive_safe hd hv
    · rw [State.dout, hdio]
      exact guardDrive_hold hd hv
  · rw [guardHoldOp, if_pos ⟨hen, harm⟩]
    exact ⟨rfl, State.modDio_dio_self hn⟩
  · have hdio := State.modDio_dio_self (f := guardDrive) hn
    rw [guardHoldExpiryOp, if_pos hhold, hdio]
    refine ⟨rfl, rfl, rfl, rfl, rfl, fun d v hd hv => ?_⟩
    rw [State.dout, hdio]
    exact guardDrive_safe hd hv

end Sys2Proof.Machine
end

section
/-! Proof of O35: the calendar counts, is loaded, synchronised and calibrated; its oscillator, VBAT and the switch-over
record. -/

namespace Sys2Proof.Machine

/-- The seconds a calendar counts do not depend on its prescaler (R447). -/
theorem Cal.tick_sec_presc {c : Cal} {p : Nat} : ({ c with presc := p } : Cal).tick.sec = c.tick.sec := by
  unfold Cal.tick
  dsimp only
  repeat' split
  all_goals rfl

/-- A value the guard lets pass is loaded (R445, R446). -/
theorem rtcLoadOp_loads {s : State}
    (h : s.calGuard = false ∨ (calWords (s.reg 0xB001C) (s.reg 0xB0020)).ok = true) :
    rtcLoadOp s = loadCal (s.modBkp (fun b => { b with dateErr := false })) (calWords (s.reg 0xB001C) (s.reg 0xB0020)) 0 := by
  rw [rtcLoadOp]
  refine if_neg ?_
  rcases h with h | h <;> simp [h]

/-- An invalid value under the guard sets DATE_ERR alone (R445, R446). -/
theorem rtcLoadOp_refuses {s : State}
    (h : s.calGuard = true ∧ (calWords (s.reg 0xB001C) (s.reg 0xB0020)).ok = false) :
    rtcLoadOp s = s.modBkp (fun b => { b with dateErr := true }) := by
  rw [rtcLoadOp]
  exact if_pos (by simp [h.1, h.2])

/-- A whole second of valid hub time is loaded (R450). -/
theorem calendarSyncOp_loads {s : State} {new : Cal} (hen : s.bkp.syncEn = true)
    (hcls : s.time.cls = 5 ∨ s.time.cls = 4 ∨ s.time.cls = 2) (hvin : s.pwr.vinGood = true)
    (hcal : calOf (s.time.now / giga) s.bkp.cal.wday = some new) :
    calendarSyncOp s = loadCal (s.modBkp (fun b => { b with syncRange := false })) new 1 := by
  have hgo : ¬ (!s.bkp.syncEn || !(s.time.cls = 5 || s.time.cls = 4 || s.time.cls = 2) || !s.pwr.vinGood) = true := by
    rcases hcls with h | h | h <;> simp [hen, hvin, h]
  rw [calendarSyncOp]
  refine (if_neg hgo).trans ?_
  rw [hcal]

/-- A load of the calendar reaches the fields beside the alarms as if it were the assignment (R446). -/
theorem loadCal_loaded {s : State} {new : Cal} {c : Nat} :
    (loadCal s new c).bkp.cal = new ∧ (loadCal s new c).bkp.osf = false ∧
    (loadCal s new c).bkp.dateErr = s.bkp.dateErr ∧ (loadCal s new c).bkp.syncRange = s.bkp.syncRange :=
  ⟨loadCal_field Backup.cal (fun _ _ => rfl), loadCal_field Backup.osf (fun _ _ => rfl),
    loadCal_field Backup.dateErr (fun _ _ => rfl), loadCal_field Backup.syncRange (fun _ _ => rfl)⟩

/-- PRESC as a calibration cycle finds it: between two events it has run on by a free number of ticks (log 43). -/
def runPresc (s : State) : Nat := s.bkp.cal.presc + (Config.freeWord s.free).toNat % (32768 - s.bkp.cal.presc)

theorem prescRuns_bkp {s : State} : (prescRuns s).bkp = { s.bkp with cal := { s.bkp.cal with presc := runPresc s } } := rfl

theorem State.modBkp_bkp_sec {s : State} {p : Nat} :
    (s.modBkp (fun b => { b with cal := { b.cal with presc := p } })).bkp.cal.sec = s.bkp.cal.sec := rfl

theorem State.modBkp_bkp_rate {s : State} {p : Nat} :
    (s.modBkp (fun b => { b with cal := { b.cal with presc := p } })).bkp.rate = s.bkp.rate := rfl

/-- A record of the domain, or none, leaves the domain itself. -/
theorem bkpRec_ite_bkp {c : Prop} [Decidable c] {s : State} {i : Nat} {p : List Byte} :
    (if c then bkpRec s i p else s).bkp = s.bkp := by
  split
  · exact bkpRec_bkp
  · rfl

/-- A positive CAL within the second only moves PRESC on (R451). -/
theorem calCycleOp_within {s : State} (hr : 0 < s.bkp.rate) (hp : runPresc s + s.bkp.rate.toNat < 32768) :
    (calCycleOp s).bkp = { s.bkp with cal := { s.bkp.cal with presc := runPresc s + s.bkp.rate.toNat } } := by
  rw [calCycleOp, if_neg (not_le.mpr hr)]
  exact congrArg State.bkp (if_pos hp)

/-- One that reaches the end of the second counts it (R451). -/
theorem calCycleOp_carries {s : State} (hr : 0 < s.bkp.rate) (hp : ¬ runPresc s + s.bkp.rate.toNat < 32768) :
    calCycleOp s = (calendarSecondOp (prescRuns s)).modBkp
      (fun b => { b with cal := { b.cal with presc := runPresc s + s.bkp.rate.toNat - 32768 } }) := by
  rw [calCycleOp, if_neg (not_le.mpr hr)]
  exact if_neg hp

/-- What CAL_CYCLE leaves of the calendar (R451). -/
theorem calCycleOp_cal {s : State} (hr : 0 < s.bkp.rate) (hr' : s.bkp.rate ≤ 511) (hp : s.bkp.cal.presc < 32768) :
    (calCycleOp s).bkp.cal.presc = (runPresc s + s.bkp.rate.toNat) % 32768 ∧
    (calCycleOp s).bkp.cal.sec =
      (if runPresc s + s.bkp.rate.toNat < 32768 then s.bkp.cal.sec else s.bkp.cal.tick.sec) ∧
    (calCycleOp s).bkp.rate = s.bkp.rate := by
  by_cases hlt : runPresc s + s.bkp.rate.toNat < 32768
  · rw [calCycleOp_within hr hlt, if_pos hlt]
    exact ⟨(Nat.mod_eq_of_lt hlt).symm, rfl, rfl⟩
  · rw [calCycleOp_carries hr hlt, if_neg hlt]
    refine ⟨?_, ?_, ?_⟩
    · have hmod := Nat.mod_lt (Config.freeWord s.free).toNat (show 0 < 32768 - s.bkp.cal.presc by omega)
      show runPresc s + s.bkp.rate.toNat - 32768 = _
      unfold runPresc at hlt ⊢
      omega
    · rw [State.modBkp_bkp_sec, calendarSecond_field (fun b => b.cal.sec) (fun _ _ => rfl), prescRuns_bkp]
      exact Cal.tick_sec_presc
    · rw [State.modBkp_bkp_rate, calendarSecond_field Backup.rate (fun _ _ => rfl), prescRuns_bkp]

/-- Settles O35: loads are `loadCal_loaded`, the second `calendarSecond_field`, a calibration cycle `calCycleOp_cal`. -/
theorem calendar : Obligations.Calendar := by
  refine ⟨fun s => ⟨_, rfl, ?_⟩, fun s hre => ⟨_, rfl, ?_⟩, fun s hre => ⟨_, rfl, ?_⟩,
    fun s new hen hcls hvin hcal => ⟨_, rfl, ?_⟩, fun s p hr hr' hpresc hp => ⟨_, rfl, ?_⟩,
    fun s d hauto hcls hlock => ⟨_, rfl, ?_⟩, fun s => ⟨_, rfl, ?_⟩, fun s v hvin => ⟨_, rfl, ?_⟩⟩
  · exact ⟨calendarSecond_field Backup.cal (fun _ _ => rfl), calendarSecond_field Backup.so (fun _ _ => rfl),
      calendarSecond_field Backup.osf (fun _ _ => rfl), calendarSecond_field Backup.rate (fun _ _ => rfl)⟩
  · rw [ifReaches, if_pos hre]
    refine ⟨fun h => ?_, fun h => by rw [rtcLoadOp_refuses h]; rfl⟩
    rw [rtcLoadOp_loads h]
    obtain ⟨hcal, hosf, herr, -⟩ :=
      loadCal_loaded (s := s.modBkp (fun b => { b with dateErr := false }))
        (new := calWords (s.reg 0xB001C) (s.reg 0xB0020)) (c := 0)
    exact ⟨hcal, hosf, herr⟩
  · rw [ifReaches, if_pos hre]
    exact ⟨rfl, rfl⟩
  · rw [calendarSyncOp_loads hen hcls hvin hcal]
    obtain ⟨hcal, hosf, -, hrange⟩ := loadCal_loaded (s := s.modBkp (fun b => { b with syncRange := false })) (new := new) (c := 1)
    exact ⟨hcal, hosf, hrange⟩
  · subst hp
    exact calCycleOp_cal hr hr' hpresc
  · have hgo : (s.bkp.autoCal && (s.time.cls = 5 || s.time.cls = 4) && s.time.locked) = true := by
      rcases hcls with h | h <;> simp [hauto, h, hlock]
    rw [autoCalOp, if_pos hgo]
    exact ⟨rfl, rfl⟩
  · exact bkpRec_ite_bkp
  · have hgo : ¬ (!s.pwr.vinGood) = true := by simp [hvin]
    rw [vbatMeasureOp, if_neg hgo]
    exact bkpRec_ite_bkp

end Sys2Proof.Machine
end

section
/-! Proof of O42: the fields of the calendar at the end of a second. -/

namespace Sys2Proof.Machine

/-- SEC carries (R447). -/
def Cal.secCarry (c : Cal) : Prop := c.sec + 1 = 60 ∨ c.sec + 1 = 64

/-- MIN carries (R447). -/
def Cal.minCarry (c : Cal) : Prop := c.secCarry ∧ (c.min + 1 = 60 ∨ c.min + 1 = 64)

/-- HOUR carries (R447). -/
def Cal.hourCarry (c : Cal) : Prop := c.minCarry ∧ (c.hour + 1 = 24 ∨ c.hour + 1 = 32)

/-- DAY carries (R447). -/
def Cal.dayCarry (c : Cal) : Prop := c.hourCarry ∧ c.day = monthLen c.year c.month

/-- MONTH carries (R447). -/
def Cal.monthCarry (c : Cal) : Prop := c.dayCarry ∧ (c.month = 12 ∨ c.month = 15)

/-- The weekday after `w` (R448). -/
def nextWday (w : Nat) : Nat := if w = 6 ∨ w = 7 then 0 else w + 1

theorem Cal.tick_of_not_secCarry {c : Cal} (h : ¬ c.secCarry) : c.tick = { c with sec := c.sec + 1 } := by
  rw [Cal.tick]
  exact if_pos (not_or.mp h)

/-- With SEC's carry the minute advances. -/
theorem Cal.tick_of_secCarry {c : Cal} (hs : c.secCarry) (h : ¬ c.minCarry) :
    c.tick = { c with sec := 0, min := c.min + 1 } := by
  have hm : ¬ (c.min + 1 = 60 ∨ c.min + 1 = 64) := fun e => h ⟨hs, e⟩
  rw [Cal.tick]
  exact (if_neg (fun e => not_or.mpr e hs)).trans (if_pos (not_or.mp hm))

/-- With MIN's carry the hour advances. -/
theorem Cal.tick_of_minCarry {c : Cal} (hm : c.minCarry) (h : ¬ c.hourCarry) :
    c.tick = { c with sec := 0, min := 0, hour := c.hour + 1 } := by
  have hh : ¬ (c.hour + 1 = 24 ∨ c.hour + 1 = 32) := fun e => h ⟨hm, e⟩
  rw [Cal.tick]
  exact (if_neg (fun e => not_or.mpr e hm.1)).trans
    ((if_neg (fun e => not_or.mpr e hm.2)).trans (if_pos (not_or.mp hh)))

/-- With HOUR's carry the day advances, to 0 after 31 where the month does not end. -/
theorem Cal.tick_of_hourCarry {c : Cal} (hh : c.hourCarry) (h : ¬ c.dayCarry) :
    c.tick = { c with sec := 0, min := 0, hour := 0, wday := nextWday c.wday, day := if c.day = 31 then 0 else c.day + 1 } := by
  have hd : ¬ c.day + 1 = monthLen c.year c.month + 1 := fun e => h ⟨hh, Nat.succ.inj e⟩
  rw [Cal.tick]
  refine (if_neg (fun e => not_or.mpr e hh.1.1)).trans
    ((if_neg (fun e => not_or.mpr e hh.1.2)).trans ((if_neg (fun e => not_or.mpr e hh.2)).trans ((if_neg hd).trans ?_)))
  by_cases h31 : c.day = 31
  · rw [if_pos h31]
    exact if_pos (show c.day + 1 = 32 by omega)
  · rw [if_neg h31]
    exact if_neg (show ¬ c.day + 1 = 32 by omega)

/-- With DAY's carry the month advances. -/
theorem Cal.tick_of_dayCarry {c : Cal} (hd : c.dayCarry) (h : ¬ c.monthCarry) :
    c.tick = { c with sec := 0, min := 0, hour := 0, wday := nextWday c.wday, day := 1, month := c.month + 1 } := by
  have hmo : ¬ (c.month = 12 ∨ c.month = 15) := fun e => h ⟨hd, e⟩
  rw [Cal.tick]
  exact (if_neg (fun e => not_or.mpr e hd.1.1.1)).trans ((if_neg (fun e => not_or.mpr e hd.1.1.2)).trans
    ((if_neg (fun e => not_or.mpr e hd.1.2)).trans ((if_pos (congrArg (· + 1) hd.2)).trans (if_neg (show ¬ (c.month + 1 = 13 ∧ c.month = 12 ∨ c.month + 1 = 16) by omega)))))

/-- With MONTH's carry the year advances. -/
theorem Cal.tick_of_monthCarry {c : Cal} (h : c.monthCarry) :
    c.tick = { c with sec := 0, min := 0, hour := 0, wday := nextWday c.wday, day := 1, month := 1,
                      year := if c.year + 1 = 400 ∨ c.year + 1 = 512 then 0 else c.year + 1 } := by
  obtain ⟨hd, hmo⟩ := h
  rw [Cal.tick]
  exact (if_neg (fun e => not_or.mpr e hd.1.1.1)).trans ((if_neg (fun e => not_or.mpr e hd.1.1.2)).trans
    ((if_neg (fun e => not_or.mpr e hd.1.2)).trans ((if_pos (congrArg (· + 1) hd.2)).trans 
      (if_pos (show c.month + 1 = 13 ∧ c.month = 12 ∨ c.month + 1 = 16 by omega)))))

/-- How far the carry of a second goes (R447). -/
theorem Cal.carry_cases (c : Cal) : ¬ c.secCarry ∨ (c.secCarry ∧ ¬ c.minCarry) ∨ (c.minCarry ∧ ¬ c.hourCarry) ∨
    (c.hourCarry ∧ ¬ c.dayCarry) ∨ (c.dayCarry ∧ ¬ c.monthCarry) ∨ c.monthCarry := by
  tauto

/-- The length of a month, as a condition on the year of the cycle of 400 (R445, R447). -/
theorem monthLen_eq (y m : Nat) : monthLen y m =
    if m = 2 then (if (y % 4 = 0 ∧ y % 100 ≠ 0) ∨ y % 400 = 0 then 29 else 28)
    else if m = 4 ∨ m = 6 ∨ m = 9 ∨ m = 11 then 30 else 31 := by
  have hleap : (leapYear y = true) = ((y % 4 = 0 ∧ y % 100 ≠ 0) ∨ y % 400 = 0) := by
    simp only [leapYear, Bool.or_eq_true, Bool.and_eq_true, decide_eq_true_eq, eq_iff_iff]
    omega
  unfold monthLen
  split
  · simp only [hleap, if_true]
  all_goals simp_all

/-- A month has 28 to 31 days. -/
theorem monthLen_bounds (y m : Nat) : 28 ≤ monthLen y m ∧ monthLen y m ≤ 31 := by
  rw [monthLen_eq]
  split_ifs <;> omega

/-- What makes a calendar valid (R445). -/
theorem Cal.ok_iff {c : Cal} : c.ok = true ↔ c.year < 400 ∧ 1 ≤ c.month ∧ c.month ≤ 12 ∧ 1 ≤ c.day ∧
    c.day ≤ monthLen c.year c.month ∧ c.hour < 24 ∧ c.min < 60 ∧ c.sec < 60 ∧ c.wday < 7 := by
  simp only [Cal.ok, Bool.and_eq_true, decide_eq_true_eq, and_assoc]

theorem nextWday_lt {w : Nat} (h : w < 7) : nextWday w < 7 := by
  unfold nextWday
  split <;> omega

/-- A valid calendar stays valid (R447). -/
theorem Cal.tick_ok {c : Cal} (h : c.ok = true) : c.tick.ok = true := by
  obtain ⟨hy, hm1, hm12, hd1, hd, hh, hmin, hsec, hw⟩ := Cal.ok_iff.mp h
  have hlen := monthLen_bounds c.year c.month
  have hwd := nextWday_lt hw
  rw [Cal.ok_iff]
  rcases c.carry_cases with hs | ⟨hs, hm⟩ | ⟨hm, hho⟩ | ⟨hho, hda⟩ | ⟨hda, hmo⟩ | hmo
  · rw [Cal.tick_of_not_secCarry hs]
    exact ⟨hy, hm1, hm12, hd1, hd, hh, hmin, by unfold Cal.secCarry at hs; dsimp only; omega, hw⟩
  · have hlast : ¬ (c.min + 1 = 60 ∨ c.min + 1 = 64) := fun e => hm ⟨hs, e⟩
    rw [Cal.tick_of_secCarry hs hm]
    exact ⟨hy, hm1, hm12, hd1, hd, hh, by dsimp only; omega, Nat.zero_lt_succ 59, hw⟩
  · have hlast : ¬ (c.hour + 1 = 24 ∨ c.hour + 1 = 32) := fun e => hho ⟨hm, e⟩
    rw [Cal.tick_of_minCarry hm hho]
    exact ⟨hy, hm1, hm12, hd1, hd, by dsimp only; omega, Nat.zero_lt_succ 59, Nat.zero_lt_succ 59, hw⟩
  · have hlast : c.day ≠ monthLen c.year c.month := fun e => hda ⟨hho, e⟩
    rw [Cal.tick_of_hourCarry hho hda, if_neg (by omega)]
    exact ⟨hy, hm1, hm12, by dsimp only; omega, by dsimp only; omega, Nat.zero_lt_succ 23, Nat.zero_lt_succ 59, Nat.zero_lt_succ 59, hwd⟩
  · have hlast : ¬ (c.month = 12 ∨ c.month = 15) := fun e => hmo ⟨hda, e⟩
    have hnext := monthLen_bounds c.year (c.month + 1)
    rw [Cal.tick_of_dayCarry hda hmo]
    exact ⟨hy, by dsimp only; omega, by dsimp only; omega, le_refl _, by dsimp only; omega, Nat.zero_lt_succ 23, Nat.zero_lt_succ 59, Nat.zero_lt_succ 59, hwd⟩
  · rw [Cal.tick_of_monthCarry hmo]
    refine ⟨?_, le_refl 1, Nat.one_le_of_lt (show 0 < 12 by decide), le_refl 1, ?_, Nat.zero_lt_succ 23, Nat.zero_lt_succ 59, Nat.zero_lt_succ 59, hwd⟩
    · dsimp only; split <;> omega
    · exact le_trans (show 1 ≤ 28 by decide) (monthLen_bounds _ 1).1

/-- Settles O42: by how far the carry goes (`Cal.carry_cases`), the fields are those of the matching equation of `Cal.tick`. -/
theorem calendarFields : Obligations.CalendarFields := by
  refine ⟨fun c _ _ _ _ _ _ => ?_, monthLen_eq, fun c h => Cal.tick_ok h, fun c _ hs hm hh hd hmo hy => ?_⟩
  · show c.tick.presc = c.presc ∧ (c.secCarry → _) ∧ (¬ c.secCarry → _) ∧ (c.minCarry → _) ∧
      (c.secCarry → ¬ c.minCarry → _) ∧ (¬ c.secCarry → _) ∧ (c.hourCarry → _) ∧ (c.minCarry → ¬ c.hourCarry → _) ∧
      (¬ c.minCarry → _) ∧ (c.dayCarry → _) ∧ (c.hourCarry → ¬ c.dayCarry → _) ∧ (¬ c.hourCarry → _) ∧
      (c.monthCarry → _) ∧ (c.dayCarry → ¬ c.monthCarry → _) ∧ (¬ c.dayCarry → _) ∧ (c.monthCarry → _) ∧
      (¬ c.monthCarry → _)
    have hms : c.minCarry → c.secCarry := And.left
    have hhm : c.hourCarry → c.minCarry := And.left
    have hdh : c.dayCarry → c.hourCarry := And.left
    have hmd : c.monthCarry → c.dayCarry := And.left
    rcases c.carry_cases with hs | ⟨hs, hm⟩ | ⟨hm, hho⟩ | ⟨hho, hda⟩ | ⟨hda, hmo⟩ | hmo
    · rw [Cal.tick_of_not_secCarry hs]
      tauto
    · rw [Cal.tick_of_secCarry hs hm]
      tauto
    · rw [Cal.tick_of_minCarry hm hho]
      tauto
    · rw [Cal.tick_of_hourCarry hho hda]
      tauto
    · rw [Cal.tick_of_dayCarry hda hmo]
      tauto
    · rw [Cal.tick_of_monthCarry hmo]
      tauto
  · have hcarry : c.monthCarry := ⟨⟨⟨⟨Or.inl (by omega), Or.inl (by omega)⟩, Or.inl (by omega)⟩, by rw [hd, hmo, hy]; rfl⟩,
      Or.inl hmo⟩
    rw [Cal.tick_of_monthCarry hcarry, if_pos (Or.inl (by omega))]

end Sys2Proof.Machine
end

section
/-! Proof of O45: an operation written to HUB_VLT_OP starts, finds another in flight, or is refused. -/

namespace Sys2Proof.Machine

/-- The ten operations of HUB_VLT_OP on a slot, each with its CMD (R469). -/
def vaultCmds (slot : Nat) : List (Nat × Instr) :=
  [(1, .vaultGenerate slot), (2, .vaultDerive slot), (3, .vaultImport slot), (4, .vaultPromote slot),
   (5, .vaultDiscard slot), (6, .vaultInvalidate slot), (7, .vaultRederive slot), (8, .vaultHmac slot),
   (9, .vaultHmacVerify slot), (10, .vaultEcdsaVerify slot)]

/-- Where the vault's block is reached, each of them is the write of its CMD (R469). -/
theorem exec_vaultCmd {s : State} {slot : Nat} {p : Nat × Instr} (hre : s.reaches 0x90000 = true)
    (hp : p ∈ vaultCmds slot) : exec p.2 s = .next (vaultOp p.1 slot s) := by
  have hif : ∀ cmd, ifReaches 0x90000 (vaultOp cmd slot) s = vaultOp cmd slot s := fun cmd => if_pos hre
  simp only [vaultCmds, List.mem_cons, List.not_mem_nil, or_false] at hp
  rcases hp with rfl | rfl | rfl | rfl | rfl | rfl | rfl | rfl | rfl | rfl
  all_goals exact congrArg _ (hif _)

/-- The same, for a command without its CMD. -/
theorem exec_vaultInstr {s : State} {slot : Nat} {c : Instr} (hre : s.reaches 0x90000 = true)
    (hc : c ∈ (vaultCmds slot).map (·.2)) : ∃ cmd, exec c s = .next (vaultOp cmd slot s) := by
  obtain ⟨p, hp, rfl⟩ := List.mem_map.mp hc
  exact ⟨p.1, exec_vaultCmd hre hp⟩

/-- The operation latched at a write of HUB_VLT_OP (R469). -/
def latchedOp (s : State) (cmd slot : Nat) : VOp :=
  { cmd := cmd, slot := slot % 512, arg := s.reg 0x90004, len := fld (s.reg 0x9000C) 0 11,
    label := (List.range 4).flatMap (fun i => bytesLE 4 (s.reg (0x90010 + 4 * i)).toNat),
    input := (List.range 256).flatMap (fun i =>
      bytesLE 4 (match amGet s.vlt.inBuf i with | some w => w.toNat | none => 0)) }

/-- An operation that may start latches its arguments and is BUSY (R469). -/
theorem vaultOp_starts {s : State} {cmd slot : Nat} (hb : s.vlt.busy = none) (h0 : s.lc.state ≠ 0) (h5 : s.lc.state ≠ 5)
    (hv : s.vstate = 1) (hw : s.pwr.warn = false) : vaultOp cmd slot s = s.modVlt (fun v =>
      { v with busy := some (latchedOp s cmd slot), outLen := 0, inBuf := [], outBuf := List.replicate 12 0 }) := by
  have hnb : ¬ s.vlt.busy.isSome = true := by simp [hb]
  have hnw : ¬ s.pwr.warn = true := by simp [hw]
  rw [vaultOp, if_neg hnb, if_neg (not_or.mpr ⟨h0, h5⟩), if_neg (by omega), if_neg (by omega), if_neg hnw]
  rfl

/-- While an operation is in flight, another only reads BUSY (R469). -/
theorem vaultOp_busy {s : State} {cmd slot : Nat} {o : VOp} (hb : s.vlt.busy = some o) :
    vaultOp cmd slot s = s.modVlt (fun v => { v with result := 1 }) := by
  rw [vaultOp, hb]
  exact if_pos rfl

/-- The life cycle refuses before the state of the store does (R460, R470). -/
theorem vaultOp_refused {s : State} {cmd slot : Nat} (hb : s.vlt.busy = none)
    (h : s.lc.state = 0 ∨ s.lc.state = 5 ∨ s.vstate = 0 ∨ s.vstate = 2) : vaultOp cmd slot s =
      vaultRefuse s (if s.lc.state = 0 ∨ s.lc.state = 5 then 6 else if s.vstate = 0 then 11 else 12) := by
  have hnb : ¬ s.vlt.busy.isSome = true := by simp [hb]
  rw [vaultOp, if_neg hnb]
  by_cases hl : s.lc.state = 0 ∨ s.lc.state = 5
  · rw [if_pos hl, if_pos hl]
  · rw [if_neg hl, if_neg hl]
    by_cases hv : s.vstate = 0
    · rw [if_pos hv, if_pos hv]
    · have h2 : s.vstate = 2 := by tauto
      rw [if_neg hv, if_neg hv, if_pos h2]

theorem vaultRefuse_vlt {s : State} {r : Nat} : (vaultRefuse s r).vlt =
    { s.vlt with result := r, outLen := 0, inBuf := [], outBuf := List.replicate 12 0 } :=
  (State.intBit_vlts : (State.intBit _ _ _ _).vlts = _)

/-- Settles O45: every command is `vaultOp` of its CMD, which starts, waits or refuses. -/
theorem vaultStarts : Obligations.VaultStarts := by
  refine ⟨fun s slot hslot hre hb h0 h5 hv hw p hp => ?_, fun s slot o hre hb c hc => ?_, fun s slot hre hb h c hc => ?_⟩
  · refine ⟨_, latchedOp s p.1 slot, exec_vaultCmd hre hp, ?_⟩
    rw [vaultOp_starts hb h0 h5 hv hw]
    exact ⟨rfl, rfl, Nat.mod_eq_of_lt hslot, rfl, rfl, rfl, rfl, rfl, rfl⟩
  · obtain ⟨cmd, hexec⟩ := exec_vaultInstr (s := s) (slot := slot) hre hc
    rw [hexec, vaultOp_busy hb]
    rfl
  · obtain ⟨cmd, hexec⟩ := exec_vaultInstr (s := s) (slot := slot) hre hc
    refine ⟨_, hexec, ?_⟩
    rw [vaultOp_refused hb h, vaultRefuse_vlt]
    exact ⟨hb, rfl, rfl, State.intBit_reg (by decide)⟩

end Sys2Proof.Machine
end

section
/-! Proof of O46: what the operations of the vault do to the key tree when they complete. -/

namespace Sys2Proof.Machine

/-- The effect of an operation by its CMD, once its slot and length are allowed (R469, R470). -/
def vaultEffect (s : State) (o : VOp) : Nat → State × Nat
  | 1 => vGenerate s o
  | 2 => vDerive s o
  | 3 => vImport s o
  | 4 => vPromote s o
  | 5 => vDiscard s o
  | 6 => vInvalidate s o
  | 7 => vRederive s o
  | 8 => vHmac s o
  | 9 => vHmacVerify s o
  | _ => vEcdsaVerify s o

/-- An operation whose slot and length are allowed runs by its CMD. -/
theorem vaultRun_eq {s : State} {o : VOp} (hslot : 2 ≤ o.slot) (hlen : o.len ≤ 1024 ∨ (o.cmd ≠ 3 ∧ o.cmd < 8)) :
    vaultRun s o = vaultEffect s o o.cmd := by
  rw [vaultRun, if_neg (by omega), if_neg (by omega)]
  rfl

/-- An operation in flight that runs to `s'` and a result ends there, not BUSY (R469). -/
theorem vaultOpComplete_of {s s' : State} {o : VOp} {r : Nat} (hb : s.vlt.busy = some o) (hw : s.lc.waiting = none)
    (h : vaultRun s o = (s', r)) : ∃ t, exec .vaultOpComplete s = .next t ∧
      t.vlt = { s'.vlt with busy := none, result := r } ∧ ∀ n, t.vslot n = s'.vslot n := by
  obtain ⟨hvlt, hslot⟩ := vaultDone_of hb h
  refine ⟨vaultDone s, congrArg Host.Outcome.next (vaultOpComplete_done ?_), hvlt, hslot⟩
  rw [vaultDone_lc, hw]

/-- Slot `n` of `t` holds the active key of `s`, with its GEN and its place in the tree. -/
def SameKey (s t : State) (n : Nat) : Prop :=
  (t.vslot n).active = (s.vslot n).active ∧ (t.vslot n).gen = (s.vslot n).gen ∧ (t.vslot n).orphan = (s.vslot n).orphan

theorem SameKey.of_vslot {s t : State} {n : Nat} (h : t.vslot n = s.vslot n) : SameKey s t n := by
  rw [SameKey, h]
  exact ⟨rfl, rfl, rfl⟩

theorem SameKey.ite {s : State} {n : Nat} {c : Prop} [Decidable c] {x y : State × Nat} (hx : SameKey s x.1 n)
    (hy : SameKey s y.1 n) : SameKey s (if c then x else y).1 n := by
  split
  · exact hx
  · exact hy

/-- A dropped pending key leaves the active key. -/
theorem dropPending_sameKey {s : State} {ps : List Nat} {n : Nat} : SameKey s (dropPending s ps) n := by
  rcases dropPending_vslot (s := s) (ps := ps) (m := n) with h | h <;> rw [SameKey, h] <;> exact ⟨rfl, rfl, rfl⟩

/-- Writing a pending key changes its slot alone. -/
theorem putPending_ne {s : State} {n m : Nat} {k : VKey} (h : m ≠ n) : (putPending s n k).vslot m = s.vslot m := by
  rw [putPending_vslot, if_neg h]

theorem putPending_self {s : State} {n : Nat} {k : VKey} :
    (putPending s n k).vslot n = { s.vslot n with pend := some k } := by
  rw [putPending_vslot, if_pos rfl]

theorem keyChanged_vslot {s : State} {a b c d n : Nat} : (keyChanged s a b c d).vslot n = s.vslot n :=
  State.vslot_congr keyChanged_vlts n

/-- GENERATE where the tree lets the key stand (R465, R469). -/
theorem vGenerate_ok {s : State} {o : VOp} {b d : Nat} (hk : o.kind = 1 ∨ o.kind = 2) (hp : vaultPlace s o = .ok (b, d)) :
    vGenerate s o = (putPending s.tick1 o.slot (VKey.mk o.kind 1 o.parent d b o.label
      ((bytesBE 48 (Config.random s.free).toNat).take (if o.kind = 1 then 32 else 48))), 0) := by
  rw [vGenerate, if_neg (by omega), hp]

/-- The first bits of a MAC that make a key of a KIND (R467). -/
theorem deriveKey_eq {s : State} {pk label : List Byte} {kind slot basin depth gen : Nat} {measured : Bool} {meas : BitVec 384} :
    deriveKey s pk label kind slot basin depth gen measured meas =
      ((bytesBE 48 (Config.hmacSha384 pk (bytesBE 4 1 ++ label ++ [0] ++ vaultContext s slot basin depth gen measured meas ++
        bytesBE 4 (if kind = 1 then 256 else 384))).toNat).take (if kind = 1 then 32 else 48)) := by
  have hbits : (if kind = 1 then 256 else 384) / 8 = if kind = 1 then 32 else 48 := by split <;> rfl
  rw [deriveKey, hbits]

/-- DERIVE under an ACTIVE parent (R467, R469). -/
theorem vDerive_ok {s : State} {o : VOp} {b d : Nat} {k : VKey} (hk : o.kind = 1 ∨ o.kind = 2)
    (hp : vaultPlace s o = .ok (b, d)) (ha : (s.vslot o.parent).active = some k) (ho : (s.vslot o.parent).orphan = false) :
    vDerive s o = (putPending s o.slot (VKey.mk o.kind (if o.measured then 4 else 2) o.parent d b o.label
      (deriveKey s k.key o.label o.kind o.slot b d (s.vslot o.slot).nextGen o.measured s.vlt.meas)), 0) := by
  rw [vDerive, if_neg (by omega), hp]
  dsimp only
  rw [ha]
  dsimp only
  rw [ho]
  rfl

/-- What IMPORT asks of a kind and its length (R470). -/
def importable (s : State) (o : VOp) : Prop :=
  o.kind = 1 ∧ o.len = 32 ∧ s.lc.state ≠ 3 ∨ o.kind = 2 ∧ o.len = 48 ∧ s.lc.state ≠ 3 ∨
    o.kind = 3 ∧ o.len = 96 ∧ Config.onP384 (o.input.take 96) = true

/-- IMPORT of a key of an allowed kind and length (R469, R470). -/
theorem vImport_ok {s : State} {o : VOp} {b d : Nat} (h : importable s o) (hp : vaultPlace s o = .ok (b, d)) :
    vImport s o = (putPending s o.slot (VKey.mk o.kind 3 o.parent d b o.label (o.input.take o.len)), 0) := by
  have hkind : ¬ (o.kind = 0 ∨ 3 < o.kind) := by unfold importable at h; omega
  have hlc : ¬ (o.kind ≠ 3 ∧ s.lc.state = 3) := by unfold importable at h; omega
  have hcurve : ¬ (o.kind = 3 && !Config.onP384 (o.input.take o.len)) = true := by
    rcases h with ⟨hk, -, -⟩ | ⟨hk, -, -⟩ | ⟨hk, hl, hon⟩
    · simp [hk]
    · simp [hk]
    · rw [hl, hon]; simp
  rw [vImport, if_neg hkind, if_neg hlc]
  have hlen : o.len = (match o.kind with | 1 => 32 | 2 => 48 | _ => 96) := by
    rcases h with ⟨hk, hl, -⟩ | ⟨hk, hl, -⟩ | ⟨hk, hl, -⟩ <;> rw [hk] <;> exact hl
  refine (if_neg (not_not_intro hlen)).trans ?_
  rw [hp]
  exact if_neg hcurve

/-- PROMOTE makes the pending key ACTIVE with the next GEN and orphans what descends from the slot (R471, R472). -/
theorem vPromote_ok {s : State} {o : VOp} {k : VKey} (hk : (s.vslot o.slot).pend = some k) : ∃ u, vPromote s o = (u, 0) ∧
    u.vslot o.slot = VSlot.mk false (s.vslot o.slot).nextGen (some k) none ∧
    (∀ n ∈ descendants s o.slot, u.vslot n = { s.vslot n with orphan := true, pend := none }) ∧
    (∀ n, n ≠ o.slot → n ∉ descendants s o.slot → SameKey s u n) := by
  refine ⟨_, by rw [vPromote, hk], ?_, fun n hn => ?_, fun n hn hd => ?_⟩
  · rw [orphanAll_vslot, if_neg descendants_self, keyChanged_vslot]
    rcases dropPending_vslot (s := s.setVslot o.slot (VSlot.mk false (s.vslot o.slot).nextGen (some k) none))
      (ps := o.slot :: descendants s o.slot) (m := o.slot) with h | h <;>
      rw [h, State.setVslot_vslot, if_pos rfl]
  · have hne : n ≠ o.slot := fun e => descendants_self (e ▸ hn)
    rw [orphanAll_vslot, if_pos hn, keyChanged_vslot]
    rcases dropPending_vslot (s := s.setVslot o.slot (VSlot.mk false (s.vslot o.slot).nextGen (some k) none))
      (ps := o.slot :: descendants s o.slot) (m := n) with h | h <;>
      rw [h, State.setVslot_vslot, if_neg hne]
  · rw [SameKey, orphanAll_vslot, if_neg hd, keyChanged_vslot]
    have h := dropPending_sameKey (s := s.setVslot o.slot (VSlot.mk false (s.vslot o.slot).nextGen (some k) none))
      (ps := o.slot :: descendants s o.slot) (n := n)
    rwa [SameKey, State.setVslot_vslot, if_neg hn] at h

/-- DISCARD drops the pending key of its slot (R469). -/
theorem vDiscard_ok {s : State} {o : VOp} (h : (s.vslot o.slot).pend ≠ none) :
    vDiscard s o = (s.setVslot o.slot { s.vslot o.slot with pend := none }, 0) := by
  rw [vDiscard]
  exact if_neg (by rwa [Option.isNone_iff_eq_none])

/-- INVALIDATE empties the slot and what descends from it (R469, R471). -/
theorem vInvalidate_ok {s : State} {o : VOp} (h : (s.vslot o.slot).active ≠ none) : ∃ u, vInvalidate s o = (u, 0) ∧
    (∀ n, n = o.slot ∨ n ∈ descendants s o.slot → u.vslot n = VSlot.reset) ∧
    (∀ n, n ≠ o.slot → n ∉ descendants s o.slot → SameKey s u n) := by
  obtain ⟨k, hk⟩ := Option.ne_none_iff_exists'.mp h
  have hfold : ∀ (u : State) (ds : List Nat) (n : Nat), (ds.foldl (fun s d => s.setVslot d VSlot.reset) u).vslot n =
      if n ∈ ds then VSlot.reset else u.vslot n :=
    fun u ds n => State.foldVslot (g := fun _ => VSlot.reset) (fun _ => rfl)
  refine ⟨_, by rw [vInvalidate, hk], fun n hn => ?_, fun n hn hd => ?_⟩
  · rw [keyChanged_vslot, hfold, if_pos (List.mem_cons.mpr hn)]
  · rw [SameKey, keyChanged_vslot, hfold, if_neg (by simp [hn, hd])]
    exact dropPending_sameKey

/-- REDERIVE of an ORPHANED derived slot under its parent's present key (R469). -/
theorem vRederive_ok {s : State} {o : VOp} {k p : VKey} (hk : (s.vslot o.slot).active = some k)
    (ho : (s.vslot o.slot).orphan = true) (horg : k.origin = 2 ∨ k.origin = 4)
    (hp : (s.vslot k.parent).active = some p) (hpo : (s.vslot k.parent).orphan = false) :
    vRederive s o = (putPending s o.slot (VKey.mk k.kind k.origin k.parent k.depth k.basin k.label
      (deriveKey s p.key k.label k.kind o.slot k.basin k.depth (s.vslot o.slot).nextGen (k.origin = 4) s.vlt.meas)), 0) := by
  have hgo : ¬ (!(s.vslot o.slot).orphan || (k.origin ≠ 2 && k.origin ≠ 4) || (s.vslot k.parent).orphan) = true := by
    rcases horg with h | h <;> simp [ho, hpo, h]
  rw [vRederive, hk]
  dsimp only
  rw [hp]
  exact if_neg hgo

/-- An operation that writes at most a pending key of its slot leaves the root (R464). -/
theorem putPending_root {s u : State} {n : Nat} {k : VKey} (hn : n ≠ 0) (hu : u.vslot 0 = s.vslot 0) :
    SameKey s (putPending u n k) 0 := SameKey.of_vslot ((putPending_ne (Ne.symm hn)).trans hu)

theorem vPromote_root {s : State} {o : VOp} (hn : o.slot ≠ 0) : SameKey s (vPromote s o).1 0 := by
  cases hk : (s.vslot o.slot).pend with
  | none =>
    rw [vPromote, hk]
    exact SameKey.of_vslot rfl
  | some k =>
    obtain ⟨u, hu, -, -, hother⟩ := vPromote_ok hk
    rw [hu]
    exact hother 0 (Ne.symm hn) descendants_zero

theorem vInvalidate_root {s : State} {o : VOp} (hn : o.slot ≠ 0) : SameKey s (vInvalidate s o).1 0 := by
  by_cases hk : (s.vslot o.slot).active = none
  · rw [vInvalidate, hk]
    exact SameKey.of_vslot rfl
  · obtain ⟨u, hu, -, hother⟩ := vInvalidate_ok hk
    rw [hu]
    exact hother 0 (Ne.symm hn) descendants_zero

/-- GENERATE, DERIVE, IMPORT and REDERIVE write at most a pending key of their slot. -/
theorem newKey_root {s : State} {o : VOp} (hn : o.slot ≠ 0) : SameKey s (vGenerate s o).1 0 ∧ SameKey s (vDerive s o).1 0 ∧
    SameKey s (vImport s o).1 0 ∧ SameKey s (vRederive s o).1 0 := by
  have hsame : SameKey s s 0 := SameKey.of_vslot rfl
  refine ⟨?_, ?_, ?_, ?_⟩
  · unfold vGenerate
    split
    · exact hsame
    split
    · exact hsame
    · exact putPending_root hn rfl
  · unfold vDerive
    split
    · exact hsame
    split
    · exact hsame
    split
    · exact SameKey.ite hsame (putPending_root hn rfl)
    · exact hsame
  · unfold vImport
    refine SameKey.ite hsame (SameKey.ite hsame (SameKey.ite hsame ?_))
    split
    · exact hsame
    · exact SameKey.ite hsame (putPending_root hn rfl)
  · unfold vRederive
    dsimp only
    split
    · exact hsame
    split
    · exact hsame
    · exact SameKey.ite hsame (putPending_root hn rfl)

theorem vDiscard_root {s : State} {o : VOp} (hn : o.slot ≠ 0) : SameKey s (vDiscard s o).1 0 := by
  rw [vDiscard]
  exact SameKey.ite (SameKey.of_vslot rfl) (SameKey.of_vslot (by rw [State.setVslot_vslot, if_neg (Ne.symm hn)]))

/-- MACs and signatures change no slot. -/
theorem vaultUse_slots {s : State} {o : VOp} : (vHmac s o).1.vlt.slots = s.vlt.slots ∧
    (vHmacVerify s o).1.vlt.slots = s.vlt.slots ∧ (vEcdsaVerify s o).1.vlt.slots = s.vlt.slots := by
  refine ⟨?_, ?_, ?_⟩
  · unfold vHmac
    split <;> rfl
  · unfold vHmacVerify
    split
    · rfl
    · split <;> rfl
  · unfold vEcdsaVerify
    split
    · rfl
    split
    · split <;> rfl
    · rfl

theorem SameKey.of_slots {s t : State} {n : Nat} (h : t.vlt.slots = s.vlt.slots) : SameKey s t n :=
  SameKey.of_vslot (by rw [State.vslot, State.vslot, h])

/-- No operation touches the root (R464). -/
theorem vaultRun_root {s : State} {o : VOp} : SameKey s (vaultRun s o).1 0 := by
  have hsame : SameKey s s 0 := SameKey.of_vslot rfl
  unfold vaultRun
  split
  · exact hsame
  have hn : o.slot ≠ 0 := by omega
  obtain ⟨hgenerate, hderive, himport, hrederive⟩ := newKey_root (s := s) hn
  obtain ⟨hhmac, hverify, hecdsa⟩ := vaultUse_slots (s := s) (o := o)
  split
  · exact hsame
  split
  · exact hgenerate
  · exact hderive
  · exact himport
  · exact vPromote_root hn
  · exact vDiscard_root hn
  · exact vInvalidate_root hn
  · exact hrederive
  · exact SameKey.of_slots hhmac
  · exact SameKey.of_slots hverify
  · exact SameKey.of_slots hecdsa

/-- The end of an operation, or of none, leaves the root. -/
theorem vaultDone_root {s : State} : SameKey s (vaultDone s) 0 := by
  cases hb : s.vlt.busy with
  | none =>
    rw [vaultDone, hb]
    exact SameKey.of_vslot rfl
  | some o =>
    rw [SameKey, (vaultDone_of (o := o) (s' := (vaultRun s o).1) (r := (vaultRun s o).2) hb rfl).2 0]
    exact vaultRun_root

/-- Settles O46: each operation runs by its CMD (`vaultRun_eq`) and ends by `vaultOpComplete_of`; what it writes is its own
lemma, and the root is `vaultDone_root`. -/
theorem vaultTree : Obligations.VaultTree := by
  refine ⟨fun s o b d hb hw hslot hcmd hk hp => ?_, fun s o b d k hb hw hslot hcmd hk hp ha ho => ?_,
    fun s o b d hb hw hslot hcmd hi hp => ?_, fun s o k hb hw hslot hcmd hk => ?_, fun s o hb hw hslot hcmd hk => ?_,
    fun s o hb hw hslot hcmd hk => ?_, fun s o k p hb hw hslot hcmd hk ho horg hp hpo => ?_, fun s t hw he => ?_⟩
  · have hrun : vaultRun s o = vGenerate s o := by rw [vaultRun_eq hslot (Or.inr (by omega)), hcmd]; rfl
    obtain ⟨t, ht, hvlt, hvs⟩ := vaultOpComplete_of hb hw (hrun.trans (vGenerate_ok hk hp))
    refine ⟨t, _, ht, congrArg Vault.busy hvlt, congrArg Vault.result hvlt, ?_, (hvs _).trans putPending_self,
      fun n hn => (hvs n).trans (putPending_ne hn)⟩
    rw [List.length_take, bytesBE_length]
    split <;> rfl
  · have hrun : vaultRun s o = vDerive s o := by rw [vaultRun_eq hslot (Or.inr (by omega)), hcmd]; rfl
    obtain ⟨t, ht, hvlt, hvs⟩ := vaultOpComplete_of hb hw (hrun.trans (vDerive_ok hk hp ha ho))
    refine ⟨t, ht, congrArg Vault.busy hvlt, congrArg Vault.result hvlt, ?_, fun n hn => (hvs n).trans (putPending_ne hn)⟩
    rw [hvs, putPending_self, deriveKey_eq]
  · have hlen : o.len ≤ 1024 := by omega
    have hrun : vaultRun s o = vImport s o := by rw [vaultRun_eq hslot (Or.inl hlen), hcmd]; rfl
    obtain ⟨t, ht, hvlt, hvs⟩ := vaultOpComplete_of hb hw (hrun.trans (vImport_ok hi hp))
    exact ⟨t, ht, congrArg Vault.busy hvlt, congrArg Vault.result hvlt, (hvs _).trans putPending_self,
      fun n hn => (hvs n).trans (putPending_ne hn)⟩
  · have hrun : vaultRun s o = vPromote s o := by rw [vaultRun_eq hslot (Or.inr (by omega)), hcmd]; rfl
    obtain ⟨u, hu, hself, hdesc, hother⟩ := vPromote_ok hk
    obtain ⟨t, ht, hvlt, hvs⟩ := vaultOpComplete_of hb hw (hrun.trans hu)
    refine ⟨t, ht, congrArg Vault.busy hvlt, congrArg Vault.result hvlt, (hvs _).trans hself,
      fun n hn => (hvs n).trans (hdesc n hn), fun n hn hd => ?_⟩
    rw [hvs]
    exact hother n hn hd
  · have hrun : vaultRun s o = vDiscard s o := by rw [vaultRun_eq hslot (Or.inr (by omega)), hcmd]; rfl
    obtain ⟨t, ht, hvlt, hvs⟩ := vaultOpComplete_of hb hw (hrun.trans (vDiscard_ok hk))
    refine ⟨t, ht, congrArg Vault.busy hvlt, congrArg Vault.result hvlt, ?_, fun n hn => ?_⟩
    · rw [hvs, State.setVslot_vslot, if_pos rfl]
    · rw [hvs, State.setVslot_vslot, if_neg hn]
  · have hrun : vaultRun s o = vInvalidate s o := by rw [vaultRun_eq hslot (Or.inr (by omega)), hcmd]; rfl
    obtain ⟨u, hu, hempty, hother⟩ := vInvalidate_ok hk
    obtain ⟨t, ht, hvlt, hvs⟩ := vaultOpComplete_of hb hw (hrun.trans hu)
    refine ⟨t, ht, congrArg Vault.busy hvlt, congrArg Vault.result hvlt, fun n hn => (hvs n).trans (hempty n hn),
      fun n hn hd => ?_⟩
    rw [hvs]
    exact hother n hn hd
  · have hrun : vaultRun s o = vRederive s o := by rw [vaultRun_eq hslot (Or.inr (by omega)), hcmd]; rfl
    obtain ⟨t, ht, hvlt, hvs⟩ := vaultOpComplete_of hb hw (hrun.trans (vRederive_ok hk ho horg hp hpo))
    exact ⟨t, ht, congrArg Vault.busy hvlt, congrArg Vault.result hvlt, (hvs _).trans putPending_self,
      fun n hn => (hvs n).trans (putPending_ne hn)⟩
  · have hdone : vaultOpCompleteOp s = vaultDone s := vaultOpComplete_done (by rw [vaultDone_lc, hw])
    have ht : vaultDone s = t := hdone ▸ Host.Outcome.next.inj he
    rw [← ht]
    exact vaultDone_root

end Sys2Proof.Machine
end

section
/-! Proof of O47: MACs and signatures of the vault, the description of a slot, and the journal's close. -/

namespace Sys2Proof.Machine

/-- A key that is no PUBKEY is a secret (R469). -/
theorem VSlot.secret_eq {v : VSlot} {k : VKey} (ha : v.active = some k) (hk : k.kind ≠ 3) : v.secret = some k.key := by
  rw [VSlot.secret, ha]
  exact if_neg hk

/-- HMAC puts the MAC over the first LEN bytes of IN into OUT (R469). -/
theorem vHmac_ok {s : State} {o : VOp} {key : List Byte} (h : (s.vslot o.slot).secret = some key) : vHmac s o =
    (s.modVlt (fun v => { v with outLen := 48, outBuf := (List.range 12).map (fun i => BitVec.ofNat 32
      (getLE (bytesBE 48 (Config.hmacSha384 key (o.input.take o.len)).toNat) (4 * i) 4)) }), 0) := by
  rw [vHmac, h]

/-- HMAC_VERIFY compares the last 48 bytes with the MAC of those before (R469). -/
theorem vHmacVerify_ok {s : State} {o : VOp} {key : List Byte} (hlen : 48 ≤ o.len)
    (h : (s.vslot o.slot).secret = some key) : vHmacVerify s o =
      (s, if bytesBE 48 (Config.hmacSha384 key (o.input.take (o.len - 48))).toNat =
        (o.input.drop (o.len - 48)).take 48 then 0 else 7) := by
  rw [vHmacVerify, if_neg (by omega), h]

/-- ECDSA_VERIFY under an ACTIVE PUBKEY slot (R469). -/
theorem vEcdsaVerify_ok {s : State} {o : VOp} {k : VKey} (hlen : o.len = 144) (ha : (s.vslot o.slot).active = some k)
    (hk : k.kind = 3) (ho : (s.vslot o.slot).orphan = false) : vEcdsaVerify s o =
      (s, if Config.ecdsaP384 k.key (o.input.take 48) ((o.input.drop 48).take 96) then 0 else 8) := by
  rw [vEcdsaVerify, if_neg (not_not_intro hlen), ha]
  exact if_neg (by simp [hk, ho])

/-- SLOTINFO of an ACTIVE slot of an OPEN vault (R488). -/
theorem slotselOp_active {s : State} {n : Nat} {k : VKey} (hn : n < 512) (hv : s.vstate = 1)
    (ha : (s.vslot n).active = some k) : slotselOp n s = (s.setReg 0x90100 (BitVec.ofNat 32 n)).modVlt (fun t =>
      { t with info := [mkFld 0 2 (if (s.vslot n).orphan then 2 else 1) ||| mkBit 2 (s.vslot n).pend.isSome |||
        mkFld 3 3 k.kind ||| mkFld 6 3 k.origin ||| mkFld 9 3 k.depth ||| mkFld 12 6 k.basin ||| mkFld 18 9 k.parent,
        BitVec.ofNat 32 (s.vslot n).gen,
        BitVec.ofNat 32 (getLE (bytesBE 48 (Config.hmacSha384 k.key (List.replicate 16 0)).toNat) 0 4)] ++
        (List.range 4).map (fun i => BitVec.ofNat 32 (getLE k.label (4 * i) 4)) }) := by
  have hslot : (s.setReg 0x90100 (BitVec.ofNat 32 n)).vslot n = s.vslot n := State.vslot_congr State.setReg_vlt n
  have hstate : (s.setReg 0x90100 (BitVec.ofNat 32 n)).vstate = s.vstate := by
    rw [State.vstate, State.vstate, State.standby, State.standby, State.setReg_vlt, State.setReg_lc, State.setReg_pair]
  rw [slotselOp, Nat.mod_eq_of_lt hn]
  dsimp only
  rw [if_neg (not_not_intro (hstate.trans hv)), hslot, ha]

/-- Settles O47: the uses run by their CMD (`vaultRun_eq`) and end by `vaultOpComplete_of`; an operation after the warning ends
by `vaultAbort_vlt`. -/
theorem vaultUses : Obligations.VaultUses := by
  refine ⟨fun s o k hb hw hslot hcmd hlen ha hk => ?_, fun s o k hb hw hslot hcmd h48 hlen ha hk => ?_,
    fun s o k hb hw hslot hcmd hlen ha hk ho => ?_, fun s n k hn hre hv ha => ⟨_, rfl, ?_⟩,
    fun s o hw hb => ⟨_, rfl, ?_⟩⟩
  · have hrun : vaultRun s o = vHmac s o := by rw [vaultRun_eq hslot (Or.inl hlen), hcmd]; rfl
    obtain ⟨t, ht, hvlt, -⟩ := vaultOpComplete_of hb hw (hrun.trans (vHmac_ok (VSlot.secret_eq ha hk)))
    refine ⟨t, ht, ?_⟩
    rw [hvlt]
    exact ⟨rfl, rfl, rfl, rfl, rfl⟩
  · have hrun : vaultRun s o = vHmacVerify s o := by rw [vaultRun_eq hslot (Or.inl hlen), hcmd]; rfl
    obtain ⟨t, ht, hvlt, -⟩ := vaultOpComplete_of hb hw (hrun.trans (vHmacVerify_ok h48 (VSlot.secret_eq ha hk)))
    refine ⟨t, ht, ?_⟩
    rw [hvlt]
    exact ⟨rfl, rfl, rfl⟩
  · have hrun : vaultRun s o = vEcdsaVerify s o := by rw [vaultRun_eq hslot (Or.inl (by omega)), hcmd]; rfl
    obtain ⟨t, ht, hvlt, -⟩ := vaultOpComplete_of hb hw (hrun.trans (vEcdsaVerify_ok hlen ha hk ho))
    refine ⟨t, ht, ?_⟩
    rw [hvlt]
    exact ⟨rfl, rfl, rfl⟩
  · rw [ifReaches, if_pos hre, slotselOp_active hn hv ha]
    have hslots : (s.setReg 0x90100 (BitVec.ofNat 32 n)).vlt.slots = s.vlt.slots := by rw [State.setReg_vlt]
    exact ⟨State.reg_setReg_self, hslots, rfl⟩
  · rw [journalCloseOp, if_pos hw]
    exact vaultAbort_vlt hb

end Sys2Proof.Machine
end

section
/-! Proof of O48: samples of the tamper loops, the response of each mode, the settings, and a RELEASE refused. -/

namespace Sys2Proof.Machine

/-- A loop that is not monitored takes no sample (R474). -/
theorem sampleLoop_off {s : State} {i : Nat} {c : LoopSense} (h : s.bkp.tcfg.getLsbD i = false) : sampleLoop s i c = s := by
  rw [sampleLoop]
  exact if_pos (by simp [h])

/-- A sample that agrees with the one before decides whether the loop is active (R474). -/
def loopAfter (l : TLoop) (c : LoopSense) : TLoop :=
  { last := c, active := decide (if l.last = c then c ≠ .good else l.active = true) }

/-- The backup domain after a sample of a monitored loop, before any response. -/
def sampled (s : State) (i : Nat) (l : TLoop) (c : LoopSense) : State :=
  s.modBkp (fun b => { b with loops := b.loops.set i (loopAfter l c) })

/-- A sample of a monitored loop (R474): a loop that becomes active is answered. -/
theorem sampleLoop_on {s : State} {i : Nat} {c : LoopSense} {l : TLoop} (h : s.bkp.tcfg.getLsbD i = true)
    (hl : s.bkp.loops[i]? = some l) : sampleLoop s i c =
      if (loopAfter l c).active && !l.active then tamperResponse (sampled s i l c) i c else sampled s i l c := by
  have hget : s.bkp.loops.getD i { last := .good, active := false } = l := by
    rw [List.getD_eq_getElem?_getD, hl]; rfl
  have hgo : ¬ (!s.bkp.tcfg.getLsbD i) = true := by rw [h]; decide
  rw [sampleLoop, hget]
  exact if_neg hgo

/-- No sample changes what is monitored. -/
theorem sampleLoop_tcfg {s : State} {i : Nat} {c : LoopSense} : (sampleLoop s i c).bkp.tcfg = s.bkp.tcfg := by
  unfold sampleLoop
  split
  · rfl
  generalize s.bkp.loops.getD i { last := .good, active := false } = l
  show (if (loopAfter l c).active && !l.active then tamperResponse (sampled s i l c) i c else sampled s i l c).bkp.tcfg = _
  split
  · exact tamperResponse_bkp.1
  · rfl

/-- With one loop monitored, a pair of samples is its own (R474). -/
theorem tamperSampleOp_one {s : State} {i : Nat} {c : LoopSense} (hi : i < 2) (hoff : s.bkp.tcfg.getLsbD (1 - i) = false) :
    tamperSampleOp (if i = 0 then c else .good) (if i = 0 then .good else c) s = sampleLoop s i c := by
  obtain rfl | rfl : i = 0 ∨ i = 1 := by omega
  · exact sampleLoop_off (by rw [sampleLoop_tcfg]; exact hoff)
  · exact congrArg (fun u => sampleLoop u 1 c) (sampleLoop_off hoff)

/-- What TAMPER_MODE_CHANGE writes where the life cycle lets it (R478). -/
theorem tamperModeOp_writes {s : State} {w : Word} (h : s.lc.state = 1 ∨ s.lc.state = 2 ∨ s.lc.state = 4) :
    tamperModeOp w s = s.modBkp (fun b => { b with
      tcfg := w.truncate 3, bkek := b.bkek || (w.truncate 3 : BitVec 3).getLsbD 2
      loops := b.loops.zipIdx.map (fun l =>
        if (w.truncate 3 : BitVec 3).getLsbD l.2 then l.1 else { last := .good, active := false }) }) := by
  rw [tamperModeOp]
  exact if_pos h

/-- A bit of TCFG is the bit written. -/
theorem getLsbD_truncate3 {w : Word} {i : Nat} (hi : i < 3) : (w.truncate 3 : BitVec 3).getLsbD i = bitN w i := by
  rw [BitVec.truncate, BitVec.getLsbD_setWidth, decide_eq_true hi, Bool.true_and, bitN]

/-- A RELEASE that does not meet its conditions sets QERR alone (R480). -/
theorem releaseOp_refused {s : State} {key : Byte} (h : key ≠ 0xC3 ∨ (s.lc.quar ≠ 1 ∧ s.lc.quar ≠ 2) ∨ s.vlt.vstate ≠ 0 ∨
    s.bkp.loops.any (fun l => l.active) = true) : releaseOp key s = { s with lc := { s.lc with qerr := true } } := by
  rw [releaseOp]
  refine if_neg (fun hgo => ?_)
  simp only [Bool.and_eq_true, Bool.or_eq_true, decide_eq_true_eq, Bool.not_eq_true'] at hgo
  obtain ⟨⟨⟨hkey, hquar⟩, hvault⟩, hloops⟩ := hgo
  rcases h with h | ⟨h1, h2⟩ | h | h
  · exact h hkey
  · exact hquar.elim h1 h2
  · exact h hvault
  · rw [hloops] at h
    exact Bool.noConfusion h

/-- Settles O48: a pair of samples is one loop's (`tamperSampleOp_one`), whose response is given by `tamperResponse_bkp`,
`tamperResponse_vlt` and `tamperResponse_alert`. -/
theorem tamperMonitor : Obligations.TamperMonitor := by
  refine ⟨fun s i c l hi hon hoff hl hne => ?_, fun s i c l hi hon hoff hl hc hbad hact hvin => ⟨_, rfl, ?_⟩,
    fun s i l hi hon hoff hl hgood => ?_, fun s w hre hlc => ⟨_, rfl, ?_⟩, fun s w hlc => ?_, fun s key hre h => ?_⟩
  · have hafter : loopAfter l c = { last := c, active := l.active } := by simp [loopAfter, hne]
    refine congrArg Host.Outcome.next ((tamperSampleOp_one hi hoff).trans ((sampleLoop_on hon hl).trans ?_))
    rw [sampled, hafter]
    exact if_neg (by simp)
  · have hafter : loopAfter l c = { last := c, active := true } := by
      simp [loopAfter, hc, hbad]
    rw [tamperSampleOp_one hi hoff, sampleLoop_on hon hl, hafter, if_pos (by simp [hact])]
    have hvin' : (sampled s i l c).pwr.vinGood = true := hvin
    obtain ⟨-, hloops, hunack, hcount, hnext, hbkek, herased⟩ := tamperResponse_bkp (s := sampled s i l c) (i := i) (c := c)
    obtain ⟨hbusy, hslots, hres, hvst⟩ := tamperResponse_vlt (i := i) (c := c) hvin'
    refine ⟨hloops.trans ?_, hunack, hcount, hnext, tamperResponse_alert hvin', hbusy, hslots, hres, hvst, hbkek, herased⟩
    rw [← hafter]
    rfl
  · have hafter : loopAfter l .good = { last := .good, active := false } := by
      simp [loopAfter, hgood]
    have hone := tamperSampleOp_one (c := .good) hi hoff
    rw [ite_self] at hone
    refine congrArg Host.Outcome.next (hone.trans ((sampleLoop_on hon hl).trans ?_))
    rw [sampled, hafter]
    exact if_neg (by simp)
  · rw [ifReaches, if_pos hre, tamperModeOp_writes hlc]
    refine ⟨rfl, rfl, rfl, congrArg (s.bkp.bkek || ·) (getLsbD_truncate3 (by decide)), rfl, rfl, fun i hlen hbit hi => ?_⟩
    show (s.bkp.loops.zipIdx.map _)[i]? = _
    rw [List.getElem?_map, List.getElem?_zipIdx, List.getElem?_eq_getElem hlen]
    exact congrArg some (if_neg (by rw [Nat.zero_add, getLsbD_truncate3 hi, hbit]; decide))
  · refine congrArg Host.Outcome.next ?_
    rw [ifReaches, tamperModeOp, if_neg hlc, ite_self]
  · refine congrArg Host.Outcome.next ((if_pos hre).trans (releaseOp_refused h))

end Sys2Proof.Machine
end

section
/-! Proof of O51: life-cycle commands carried out, held or refused, and the release from QUARANTINE. -/

namespace Sys2Proof.Machine

/-- The life-cycle commands with their numbers (R482, R483). -/
def lcCmds : List (Nat × (Byte → BitVec 16 → Instr)) :=
  [(1, .commission), (2, .enterService), (3, .maintain), (4, .decommission), (5, .reclaim), (6, .reprovision)]

/-- Where HUB_LC_CMD is reached, each of them is the write of its number (R485). -/
theorem exec_lcCmd {s : State} {cmd : Nat} {c : Byte → BitVec 16 → Instr} {key : Byte} {confirm : BitVec 16}
    (hre : s.reaches 0x44 = true) (hc : (cmd, c) ∈ lcCmds) : exec (c key confirm) s = .next (lcOp cmd key confirm s) := by
  have hif : ∀ n, ifReaches 0x44 (lcOp n key confirm) s = lcOp n key confirm s := fun n => if_pos hre
  simp only [lcCmds, List.mem_cons, List.not_mem_nil, or_false, Prod.mk.injEq] at hc
  rcases hc with ⟨rfl, rfl⟩ | ⟨rfl, rfl⟩ | ⟨rfl, rfl⟩ | ⟨rfl, rfl⟩ | ⟨rfl, rfl⟩ | ⟨rfl, rfl⟩
  all_goals exact congrArg Host.Outcome.next (hif _)

/-- A row of the table names its command and the transition it makes (R482). -/
theorem lcTarget_of_row {s : State} {cmd old new : Nat} {c : Byte → BitVec 16 → Instr}
    (hrow : (cmd, c, old, new) ∈ [(1, Instr.commission, 1, 2), (1, .commission, 3, 2), (1, .commission, 4, 2),
      (2, .enterService, 2, 3), (2, .enterService, 4, 3), (3, .maintain, 3, 4), (4, .decommission, 1, 5),
      (4, .decommission, 2, 5), (4, .decommission, 3, 5), (4, .decommission, 4, 5), (5, .reclaim, 5, 0)])
    (hq : s.lc.quar = 0) (hst : s.lc.state = old) : (cmd, c) ∈ lcCmds ∧ lcTarget s cmd = some new := by
  simp only [List.mem_cons, List.not_mem_nil, or_false, Prod.mk.injEq] at hrow
  rcases hrow with ⟨rfl, rfl, rfl, rfl⟩ | ⟨rfl, rfl, rfl, rfl⟩ | ⟨rfl, rfl, rfl, rfl⟩ | ⟨rfl, rfl, rfl, rfl⟩ |
    ⟨rfl, rfl, rfl, rfl⟩ | ⟨rfl, rfl, rfl, rfl⟩ | ⟨rfl, rfl, rfl, rfl⟩ | ⟨rfl, rfl, rfl, rfl⟩ | ⟨rfl, rfl, rfl, rfl⟩ |
    ⟨rfl, rfl, rfl, rfl⟩ | ⟨rfl, rfl, rfl, rfl⟩
  all_goals exact ⟨by simp [lcCmds], by simp [lcTarget, hq, hst]⟩

/-- A command in a state its rows do not name has no transition (R482). -/
theorem lcTarget_none {s : State} {c : Byte → BitVec 16 → Instr} {l : List Nat}
    (hrow : (c, l) ∈ [(Instr.commission, [0, 2, 5]), (.enterService, [0, 1, 3, 5]), (.maintain, [0, 1, 2, 4, 5]),
      (.decommission, [0, 5]), (.reclaim, [0, 1, 2, 3, 4])]) (hst : s.lc.state ∈ l) :
    ∃ cmd, (cmd, c) ∈ lcCmds ∧ lcTarget s cmd = none := by
  simp only [List.mem_cons, List.not_mem_nil, or_false, Prod.mk.injEq] at hrow
  rcases hrow with ⟨rfl, rfl⟩ | ⟨rfl, rfl⟩ | ⟨rfl, rfl⟩ | ⟨rfl, rfl⟩ | ⟨rfl, rfl⟩
  all_goals simp only [List.mem_cons, List.not_mem_nil, or_false] at hst
  · exact ⟨1, by simp [lcCmds], by simp only [lcTarget]; split <;> [rfl; exact if_neg (by omega)]⟩
  · exact ⟨2, by simp [lcCmds], by simp only [lcTarget]; split <;> [rfl; exact if_neg (by omega)]⟩
  · exact ⟨3, by simp [lcCmds], by simp only [lcTarget]; split <;> [rfl; exact if_neg (by omega)]⟩
  · exact ⟨4, by simp [lcCmds], by simp [lcTarget, hst]⟩
  · exact ⟨5, by simp [lcCmds], by simp only [lcTarget]; split <;> [rfl; exact if_neg (by omega)]⟩

/-- REPROVISION is for an ERASED vault (R483). -/
theorem lcTarget_reprovision {s : State} (hq : s.lc.quar ≠ 4) (hv : s.vlt.vstate = 2) : lcTarget s 6 = some 1 := by
  simp [lcTarget, hq, hv]

theorem lcTarget_reprovision_none {s : State} (hv : s.vlt.vstate ≠ 2) : lcTarget s 6 = none := by
  simp [lcTarget, hv]

/-- A command refused sets LC_ERR alone (R485). -/
theorem lcOp_refused {s : State} {cmd : Nat} {key : Byte} {confirm : BitVec 16}
    (h : key ≠ 0xC3 ∨ s.pwr.warn = true ∨ (4 ≤ cmd ∧ confirm.toNat ≠ s.ident.serial.toNat % 65536) ∨ lcTarget s cmd = none) :
    lcOp cmd key confirm s = { s with lc := { s.lc with lcErr := true } } := by
  rw [lcOp]
  refine if_pos ?_
  rcases h with h | h | ⟨hle, hne⟩ | h
  · have hkey : ¬ key = 195#8 := h
    simp [hkey]
  · simp [h]
  · simp [hle, hne]
  · simp [h]

/-- A command accepted waits for the operation in flight, or is carried out (R485, R486). -/
theorem lcOp_accepted {s : State} {cmd new : Nat} {confirm : BitVec 16} (hw : s.pwr.warn = false)
    (hconf : 4 ≤ cmd → confirm.toNat = s.ident.serial.toNat % 65536) (ht : lcTarget s cmd = some new)
    (hwait : s.lc.waiting = none) : lcOp cmd 0xC3 confirm s =
      if s.vlt.busy.isSome then { s with lc := { s.lc with lcErr := false, waiting := some cmd } }
      else lcRun cmd { s with lc := { s.lc with lcErr := false } } := by
  have hcmd : (4 ≤ cmd && confirm.toNat ≠ s.ident.serial.toNat % 65536) = false := by
    simp only [Bool.and_eq_false_iff, decide_eq_false_iff_not, not_not]
    tauto
  rw [lcOp]
  refine if_neg ?_
  rw [hcmd, hw, ht, hwait]
  exact Bool.false_ne_true

/-- A transition carried out: a fresh start of kind LIFECYCLE, in the state of the row (R482, R486). -/
theorem lcOp_carried {s : State} {cmd new : Nat} {confirm : BitVec 16} (hw : s.pwr.warn = false)
    (hconf : 4 ≤ cmd → confirm.toNat = s.ident.serial.toNat % 65536) (ht : lcTarget s cmd = some new)
    (hwait : s.lc.waiting = none) (hb : s.vlt.busy = none) : FreshStart s (lcOp cmd 0xC3 confirm s) 5 ∧
      max 1 (lcOp cmd 0xC3 confirm s).lc.state = max 1 new ∧ (new ≠ 0 → (lcOp cmd 0xC3 confirm s).lc.state = new) := by
  have ht' : lcTarget { s with lc := { s.lc with lcErr := false } } cmd = some new := ht
  obtain ⟨hfresh, hmax, hnew⟩ := lcRun_fresh ht'
  rw [lcOp_accepted hw hconf ht hwait, hb, if_neg (by decide)]
  exact ⟨hfresh.of_same (fun _ => rfl), hmax, hnew⟩

/-- Settles O51: every command is `lcOp` of its number, carried out by `lcOp_carried`, held by `lcOp_accepted` or refused by
`lcOp_refused`. -/
theorem lifeCycleCommands : Obligations.LifeCycleCommands := by
  refine ⟨fun s cmd old new c confirm hrow hre hq hst hw hwait hconf => ?_,
    fun s confirm hre hq hv hw hwait hb hconf => ?_, fun s c key confirm hc hre h => ?_,
    fun s c key confirm hc hre hconf => ?_, fun s c l key confirm hrow hre hst => ?_, fun s key confirm hre hv => ?_,
    fun s hre hq hv hl => ⟨_, rfl, ?_⟩⟩
  · obtain ⟨hc, ht⟩ := lcTarget_of_row hrow hq hst
    rw [exec_lcCmd hre hc]
    refine ⟨fun hb => ⟨_, rfl, ?_⟩, fun hb => ?_⟩
    · obtain ⟨hfresh, hmax, hnew⟩ := lcOp_carried hw hconf ht hwait hb
      refine ⟨hfresh, ?_, by omega⟩
      split
      · rfl
      · exact hnew ‹_›
    · rw [lcOp_accepted hw hconf ht hwait, if_pos (Option.isSome_iff_ne_none.mpr hb)]
  · obtain ⟨hfresh, -, hnew⟩ := lcOp_carried hw (fun _ => hconf) (lcTarget_reprovision hq hv) hwait hb
    exact ⟨_, exec_lcCmd (cmd := 6) hre (by simp [lcCmds]), hfresh, hnew (by decide)⟩
  · have hcmd : ∃ cmd, (cmd, c) ∈ lcCmds := by
      have hmap : c ∈ lcCmds.map (·.2) := hc
      obtain ⟨⟨cmd, c'⟩, hmem, rfl⟩ := List.mem_map.mp hmap
      exact ⟨cmd, hmem⟩
    obtain ⟨cmd, hmem⟩ := hcmd
    rw [exec_lcCmd hre hmem, lcOp_refused (h.imp_right Or.inl)]
  · have hcmd : ∃ cmd, (cmd, c) ∈ lcCmds ∧ 4 ≤ cmd := by
      have hmap : c ∈ (lcCmds.drop 3).map (·.2) := hc
      obtain ⟨⟨cmd, c'⟩, hmem, rfl⟩ := List.mem_map.mp hmap
      have hle : ∀ p ∈ lcCmds.drop 3, 4 ≤ p.1 := by simp [lcCmds]
      exact ⟨cmd, List.mem_of_mem_drop hmem, hle _ hmem⟩
    obtain ⟨cmd, hmem, hle⟩ := hcmd
    rw [exec_lcCmd hre hmem, lcOp_refused (Or.inr (Or.inr (Or.inl ⟨hle, hconf⟩)))]
  · obtain ⟨cmd, hmem, hnone⟩ := lcTarget_none hrow hst
    rw [exec_lcCmd hre hmem, lcOp_refused (Or.inr (Or.inr (Or.inr hnone)))]
  · rw [exec_lcCmd (cmd := 6) hre (by simp [lcCmds]),
      lcOp_refused (Or.inr (Or.inr (Or.inr (lcTarget_reprovision_none hv))))]
  · have hgo : (0xC3 = (0xC3 : Byte) && (s.lc.quar = 1 || s.lc.quar = 2) && s.vlt.vstate = 0 &&
        !s.bkp.loops.any (fun l => l.active)) = true := by
      rw [hl]
      rcases hq with h | h <;> simp [h, hv]
    rw [ifReaches, if_pos hre, releaseOp, if_pos hgo]
    exact restart_fresh.of_same (fun _ => rfl)

end Sys2Proof.Machine
end

section
/-! Proof of O49: what VIN_GOOD, WARM, WATCHDOG and the restart of a channel leave, and the beginning of point service. -/

namespace Sys2Proof.Machine

/-- What a field of the supply, but for the deliveries shown in it, is where the supply is known. -/
theorem State.pwr_of_supply {α : Type} (g : Power → α) (hg : ∀ p d, g { p with deliv := d } = g p) {s : State} {p : Power}
    (h : s.supply = p) : g s.pwr = g p := (hg s.pwr []).symm.trans (congrArg g h)

/-- What a field of the pair's state, but for the number of the last mirror record, is where the duty is known. -/
theorem State.pair_of_duty {α : Type} (g : Pair → α) (hg : ∀ p m, g { p with mirSeq := m } = g p) {s : State} {p : Pair}
    (h : s.duty = p) : g s.pair = g p := (hg s.pair 0).symm.trans (congrArg g h)

/-- A watchdog reset yields first, and ends a slot still TRIAL (R417, R433, R502). -/
theorem watchdogOp_trial {s : State} (hvin : s.pwr.vinGood = true) (ht : s.upd.trial = true) :
    (watchdogOp s).upd.slotB = (!s.upd.slotB) ∧ (watchdogOp s).upd.trial = false := by
  have hupd : (yieldTo s 3).upd = s.upd := yieldTo_rest.2.1
  obtain ⟨c, hc⟩ : ∃ c, trialEnds (yieldTo s 3) 3 = some c := by
    unfold trialEnds
    rw [hupd, ht]
    cases hr : s.upd.revert with
    | none => exact ⟨1, rfl⟩
    | some c => exact ⟨c, rfl⟩
  rw [watchdogOp, if_pos hvin, restart_upd_revert hc, hupd]
  exact ⟨rfl, rfl⟩

/-- The channel a restart has wiped (R435). -/
def restartedChan (c : Chan) : Chan := { wipedChan true c with prior := .outOfService, lossCnt := c.lossCnt }

/-- A fitted channel that is OUT_OF_SERVICE or in FAULT restarts: its frames and flights are lost, and it enters STARTING with
its memories wiped (R435). -/
theorem channelRestartOp_restarts {s : State} {n : Nat} (hf : s.fitted n = true) (hw : s.pwr.warn = false)
    (hst : (s.ch n).state = .outOfService ∨ (s.ch n).state = .fault) : ∃ v : State,
      channelRestartOp n 0xA5 s = setSvc ((setChState v n .starting).modCh n restartedChan) n .out ∧
      v.ws = s.ws ∧ v.chs.length = s.chs.length ∧ v.pwr.resetErr = false := by
  have hgo : ¬ ((0xA5 : Byte) ≠ 0xA5 ∨ s.pwr.warn = true) := by simp [hw]
  have hok : ¬ (!s.fitted n ∨ ((s.ch n).state ≠ .outOfService ∧ (s.ch n).state ≠ .fault)) := by
    rcases hst with h | h <;> simp [hf, h]
  refine ⟨_, by rw [channelRestartOp]; exact (if_neg hgo).trans (if_neg hok), ?_, ?_, ?_⟩
  · have hflights : ∀ u : State, (channelFlightsLost u n).ws = u.ws := fun u =>
      (congrArg State.ws (channelFlightsLost_unit (s := u) (n := n)) :)
    have hframes : ∀ u : State, (frameCancelsLost u n).ws = u.ws := fun u =>
      (congrArg State.ws (frameCancelsLost_unit (s := u) (n := n)) :)
    exact (hflights _).trans (hframes _)
  · exact (State.chs_length_of_links channelFlightsLost_links).trans (State.chs_length_of_links frameCancelsLost_links)
  · exact (State.pwr_of_supply Power.resetErr (fun _ _ => rfl) channelFlightsLost_supply :).trans
      (State.pwr_of_supply Power.resetErr (fun _ _ => rfl) frameCancelsLost_supply :)

/-- One that is neither, or is not fitted, sets RESET_ERR alone (R435). -/
theorem channelRestartOp_refused {s : State} {n : Nat} (hw : s.pwr.warn = false)
    (h : s.fitted n = false ∨ ((s.ch n).state ≠ .outOfService ∧ (s.ch n).state ≠ .fault)) :
    channelRestartOp n 0xA5 s = s.modPwr (fun p => { p with resetErr := true }) := by
  have hgo : ¬ ((0xA5 : Byte) ≠ 0xA5 ∨ s.pwr.warn = true) := by simp [hw]
  have hno : !s.fitted n ∨ ((s.ch n).state ≠ .outOfService ∧ (s.ch n).state ≠ .fault) := h.imp_left (by simp [·])
  rw [channelRestartOp]
  exact (if_neg hgo).trans (if_pos hno)

/-- The state of a channel whose link has come up after a restart, before it leaves STARTING (R435). -/
def trained (s : State) (n : Nat) : State :=
  (s.modCh n (fun c => { c with
    xbarUp := true, isoOk := true, tb := { c.tb with delay := (Config.freeWord s.free).toNat % 65536 } })).tick1

/-- The end of a restart (R435). -/
theorem channelRestartDoneOp_eq {s : State} {n : Nat} (hst : (s.ch n).state = .starting) (hb : s.pwr.begun = true) :
    channelRestartDoneOp n s = applyAllSafe (setChState (trained s n) n .outOfService) n := by
  rw [channelRestartDoneOp]
  exact if_pos ⟨hst, hb⟩

/-- It leaves the channel OUT_OF_SERVICE with its crossbar link up. -/
theorem channelRestartDoneOp_link {s : State} {n : Nat} (hn : n < s.chs.length) (hst : (s.ch n).state = .starting)
    (hb : s.pwr.begun = true) : ((channelRestartDoneOp n s).ch n).state = .outOfService ∧
      ((channelRestartDoneOp n s).ch n).xbarUp = true := by
  have htrained : (trained s n).links = s.links.modify n (fun l => (l.1, l.2.1, true, true, l.2.2.2.2)) :=
    State.modCh_links_of (fun _ => rfl)
  have hlen : n < (trained s n).chs.length := by
    show n < (s.modCh n _).chs.length
    rwa [State.modCh_length]
  have hlink : ((channelRestartDoneOp n s).ch n).link = (ChState.outOfService, ((trained s n).ch n).link.2) := by
    rw [channelRestartDoneOp_eq hst hb]
    exact State.link_of_modify (applyAllSafe_links.trans setChState_links) hlen
  rw [State.link_of_modify htrained hn] at hlink
  exact ⟨congrArg (fun l : ChanLink => l.state) hlink, congrArg (fun l : ChanLink => l.xbarUp) hlink⟩

/-- Channels that enter service leave supply, pair and update service. -/
theorem channelsServe_rest {s : State} {l : List Nat} : (l.foldl channelServes s).supply = s.supply ∧
    (l.foldl channelServes s).duty = s.duty ∧ (l.foldl channelServes s).upd = s.upd :=
  ⟨State.foldl_same State.supply (fun _ _ => channelServes_supply), State.foldl_same State.duty (fun _ _ => channelServes_duty),
    State.foldl_same State.upds (fun _ _ => channelServes_upds)⟩

/-- Where a start has not halted, the channels enter service and the module begins (R431, R432). -/
theorem pointServiceOp_begins {s : State} (hvin : s.pwr.vinGood = true) (hb : s.pwr.begun = false)
    (hw : s.pwr.warn = false) (hq : s.lc.quar = 0) (hl : s.lc.state ≠ 5) : ∃ u : State,
      u.supply = { s.supply with begun := true } ∧ u.duty = s.duty ∧ u.upd = s.upd ∧
      pointServiceOp s = if u.standby then ringsServe u else beginService (applyPlan u u.time.now (decidePlan u 0)) := by
  have hgo : ¬ (!s.pwr.vinGood || s.pwr.begun || s.pwr.warn || s.lc.quar ≠ 0 || s.lc.state = 5) = true := by
    simp [hvin, hb, hw, hq, hl]
  refine ⟨(List.range 8).foldl channelServes (s.modPwr (fun p => { p with begun := true })), ?_, ?_, ?_, ?_⟩
  · rw [channelsServe_rest.1]
    rfl
  · exact channelsServe_rest.2.1
  · exact channelsServe_rest.2.2
  · rw [pointServiceOp, if_neg hgo]

/-- Whether a module stands by is a matter of its role. -/
theorem State.standby_of_duty {s u : State} (h : u.duty = s.duty) : u.standby = s.standby := by
  have hrole : u.pair.role = s.pair.role := (State.pair_of_duty Pair.role (fun _ _ => rfl) h :)
  rw [State.standby, State.standby, hrole]

/-- Settles O49: a start is `startUp_fresh`, a reset `restart_fresh`, the restart of a channel `channelRestartOp_restarts`, and
the beginning of service `pointServiceOp_begins`. -/
theorem startsAndResets : Obligations.StartsAndResets := by
  refine ⟨fun s loops ok hvin => ⟨_, rfl, ?_⟩, fun s b loops ok hvin => ?_, fun s hre hw => ⟨_, rfl, ?_⟩,
    fun s key hre hkey => ?_, fun s hvin => ⟨_, rfl, ?_⟩, fun s n hre hn hf hw hst => ⟨_, rfl, ?_⟩,
    fun s n hre hw h => ?_, fun s n hn hst hb => ⟨_, rfl, ?_⟩, fun s hvin hb hw hq hl hs => ⟨_, rfl, ?_⟩,
    fun s hvin hb hw hq hl hs => ⟨_, rfl, ?_⟩, fun s h => ?_⟩
  · rw [vinGoodOp, hvin, if_neg Bool.false_ne_true]
    exact startUp_fresh rfl rfl rfl
  · exact congrArg Host.Outcome.next (if_pos hvin)
  · rw [ifReaches, if_pos hre, warmOp, if_pos ⟨rfl, by simp [hw]⟩]
    exact ⟨restart_fresh, restart_recs⟩
  · exact congrArg Host.Outcome.next ((if_pos hre).trans (if_neg (fun h => hkey h.1)))
  · obtain ⟨hregs, -, hsupply⟩ := yieldTo_rest (s := s) (c := 3)
    refine ⟨?_, ?_, fun ht => watchdogOp_trial hvin ht⟩
    · rw [watchdogOp, if_pos hvin]
      exact restart_fresh.of_same (fun _ => State.reg_of_regs hregs)
    · rw [watchdogOp, if_pos hvin, restart_recs]
      exact (State.pwr_of_supply Power.recs (fun _ _ => rfl) hsupply :)
  · obtain ⟨v, hv, hws, hlen, herr⟩ := channelRestartOp_restarts hf hw hst
    have hn' : n < (setChState v n .starting).chs.length := by rw [setChState_chs_len, hlen]; exact hn
    have hch : (setSvc ((setChState v n .starting).modCh n restartedChan) n .out).ch n =
        restartedChan ((setChState v n .starting).ch n) := State.modCh_ch_self hn'
    rw [ifReaches, if_pos hre, hv, hch]
    refine ⟨rfl, rfl, (State.pwr_of_supply Power.resetErr (fun _ _ => rfl) setChState_supply :).trans herr, ?_⟩
    show ((setChState v n .starting).ws.svc.set n .out).getD n .absent = _
    rw [setChState_ws, hws, List.getD_eq_getElem?_getD, List.getElem?_set_self']
    split <;> simp_all
  · exact congrArg Host.Outcome.next ((if_pos hre).trans (channelRestartOp_refused hw h))
  · obtain ⟨hstate, hxbar⟩ := channelRestartDoneOp_link hn hst hb
    refine ⟨hstate, hxbar, ?_, ?_⟩
    · rw [channelRestartDoneOp_eq hst hb, applyAllSafe_regs]
      exact setChState_regsv
    · rw [channelRestartDoneOp_eq hst hb]
      exact applyAllSafe_duty.trans setChState_duty
  · obtain ⟨u, -, hduty, -, hu⟩ := pointServiceOp_begins hvin hb hw hq hl
    rw [hu, State.standby_of_duty hduty, hs, if_neg Bool.false_ne_true]
    have hsupply := beginService_supply_eq (s := applyPlan u u.time.now (decidePlan u 0))
    exact ⟨(State.pwr_of_supply Power.service (fun _ _ => rfl) hsupply :), (State.pwr_of_supply Power.state (fun _ _ => rfl) hsupply :),
      (State.pwr_of_supply Power.lost (fun _ _ => rfl) hsupply :)⟩
  · obtain ⟨u, hsupply, hduty, hupd, hu⟩ := pointServiceOp_begins hvin hb hw hq hl
    rw [hu, State.standby_of_duty hduty, hs, if_pos rfl]
    have hs' := (ringsServe_supply (s := u)).trans hsupply
    exact ⟨(State.pwr_of_supply Power.begun (fun _ _ => rfl) hs' :), (State.pwr_of_supply Power.service (fun _ _ => rfl) hs' :),
      ringsServe_duty.trans hduty, ringsServe_upds.trans hupd⟩
  · refine congrArg Host.Outcome.next (if_pos ?_)
    rcases h with h | h | h | h <;> simp [h]

end Sys2Proof.Machine
end

section
/-! Proof of O50: the power-fail warning, the freeze, the record, and the end or the return of VIN. -/

namespace Sys2Proof.Machine

/-- The warning's instant, class and validity are held (R436). -/
def warned (s : State) : State :=
  s.modPwr (fun p => { p with
    warn := true, warnAt := s.time.now, warnCls := s.time.cls, warnValid := s.timeValid
    cancelled := s.upd.state = 4 || s.upd.pState = 4 })

/-- The first warning while VIN is good (R436). -/
theorem powerWarningOp_eq {s : State} (hvin : s.pwr.vinGood = true) (hw : s.pwr.warn = false) :
    powerWarningOp s = disarm (txnsLostAtWarning (yieldTo ((warned s).alert 1) 1)) 15 := by
  have hgo : ¬ (!s.pwr.vinGood || s.pwr.warn) = true := by simp [hvin, hw]
  rw [powerWarningOp, if_neg hgo]
  rfl

/-- The state the warning has brought about, before an activation is disarmed: supply, update service and pair (R436). -/
theorem warned_lost {s : State} :
    (txnsLostAtWarning (yieldTo ((warned s).alert 1) 1)).supply = { (warned s).supply with lost := s.pwr.lost ++ txnsLost s } ∧
    (txnsLostAtWarning (yieldTo ((warned s).alert 1) 1)).upd = s.upd ∧
    (txnsLostAtWarning (yieldTo ((warned s).alert 1) 1)).duty = (yieldTo ((warned s).alert 1) 1).duty := by
  obtain ⟨hupd, hduty, hsupply⟩ := txnsLostAtWarning_rest (s := yieldTo ((warned s).alert 1) 1)
  have hyield : (yieldTo ((warned s).alert 1) 1).supply = (warned s).supply :=
    yieldTo_supply.trans (congrArg (fun p : Power => { p with deliv := [] }) State.alert_pwr)
  have htxns : txnsLost (yieldTo ((warned s).alert 1) 1) = txnsLost s := by
    have h : (yieldTo ((warned s).alert 1) 1).txns = s.txns :=
      (congrArg State.txns (yieldTo_unit (s := (warned s).alert 1) (cause := 1)) :).trans State.alert_txns
    rw [txnsLost, txnsLost, h]
  have hlost : (yieldTo ((warned s).alert 1) 1).pwr.lost = s.pwr.lost :=
    (State.pwr_of_supply Power.lost (fun _ _ => rfl) hyield :)
  refine ⟨?_, hupd.trans (yieldTo_upds.trans State.alert_upds), hduty⟩
  rw [hsupply, hyield, htxns, hlost]

/-- With no partner's activation armed, disarming ends the own one alone (R500). -/
theorem disarm_own {s : State} {r : Nat} (hp : s.upd.pState ≠ 4) : (disarm s r).supply = s.supply ∧ (disarm s r).duty = s.duty ∧
    (disarm s r).upd = (if s.upd.state = 4 then { s.upd with state := 3, result := r, lock := 0, port := 0, mac := 0 } else s.upd) := by
  by_cases h4 : s.upd.state = 4
  · have hend : disarm s r = updEnds s 3 r := by
      rw [disarm, if_pos h4]
      exact if_neg (by rw [updEnds_upd]; exact hp)
    rw [hend, if_pos h4, updEnds_upd]
    exact ⟨updEnds_supply, updEnds_duty, rfl⟩
  · have hend : disarm s r = s := by
      rw [disarm, if_neg h4]
      exact if_neg hp
    rw [hend, if_neg h4]
    exact ⟨rfl, rfl, rfl⟩

/-- An active module with a fit standby yields with cause POWER (R417, R436). -/
theorem warned_yields {s : State} (hr : s.partnerReady = true) (hy : s.pair.yielding = none) :
    (yieldTo ((warned s).alert 1) 1).duty = { s.duty with yielding := some 1, aliveOut := false } := by
  have hpair : ((warned s).alert 1).pair = s.pair := State.alert_pair
  have hready : ((warned s).alert 1).partnerReady = true := by rw [State.partnerReady, hpair]; exact hr
  rw [yieldTo_pair hready (by rw [hpair]; exact hy), State.duty, hpair]

/-- The record of a failure stands in its slot, whatever follows (R438). -/
def recordedFail (s : State) : State :=
  s.modPwr (fun p => { p with
    recorded := true, state := 5, recs := amSet p.recs ((failRecord s).rseq % 8) (failRecord s) })

theorem powerRecordOp_eq {s : State} (hf : s.pwr.frozen = true) (hr : s.pwr.recorded = false) :
    powerRecordOp s = if s.pwr.returned then restart (recordedFail s) 1 else recordedFail s := by
  have hgo : ¬ (!s.pwr.frozen || s.pwr.recorded) = true := by simp [hf, hr]
  rw [powerRecordOp, if_neg hgo]
  rfl

/-- Without power: the reset's wipe, with VIN gone (R437). -/
theorem vinCollapseOp_fresh {s : State} (hw : s.pwr.warn = true) : (vinCollapseOp s).pwr.vinGood = false ∧
    (vinCollapseOp s).usb = false ∧ (vinCollapseOp s).pwr.recs = s.pwr.recs ∧ FreshStart s (vinCollapseOp s) 0 := by
  have hgo : ¬ (!s.pwr.warn) = true := by simp [hw]
  rw [vinCollapseOp, if_neg hgo]
  exact ⟨rfl, rfl, rfl, rfl, rfl, rfl, rfl, rfl, rfl, rfl, fun k hk _ => wiped_reg (kind := 0) hk⟩

/-- Settles O50: the warning is `powerWarningOp_eq`, the record `powerRecordOp_eq`, and what follows a fresh start. -/
theorem powerFailure : Obligations.PowerFailure := by
  refine ⟨fun s hvin hw hp => ⟨_, rfl, ?_⟩, fun s hw => ?_, fun s hw => ⟨?_, ?_, ?_⟩,
    fun s hf hr => ⟨_, failRecord s, rfl, ?_⟩, fun s h => ?_, fun s hw => ⟨_, rfl, vinCollapseOp_fresh hw⟩,
    fun s hw hr => ?_, fun s hw hr => ⟨_, rfl, ?_⟩⟩
  · obtain ⟨hsupply, hupd, hduty⟩ := warned_lost (s := s)
    have hp' : (txnsLostAtWarning (yieldTo ((warned s).alert 1) 1)).upd.pState ≠ 4 := by rw [hupd]; exact hp
    obtain ⟨hsupply', hduty', hupd'⟩ := disarm_own (r := 15) hp'
    rw [powerWarningOp_eq hvin hw]
    have hpwr := hsupply'.trans hsupply
    refine ⟨(State.pwr_of_supply Power.warn (fun _ _ => rfl) hpwr :), (State.pwr_of_supply Power.warnAt (fun _ _ => rfl) hpwr :),
      (State.pwr_of_supply Power.warnCls (fun _ _ => rfl) hpwr :), (State.pwr_of_supply Power.warnValid (fun _ _ => rfl) hpwr :),
      (State.pwr_of_supply Power.lost (fun _ _ => rfl) hpwr :), (State.pwr_of_supply Power.recs (fun _ _ => rfl) hpwr :),
      (State.pwr_of_supply Power.cancelled (fun _ _ => rfl) hpwr :).trans ?_, by rw [hupd', hupd], fun hready hy => ?_⟩
    · show (decide (s.upd.state = 4) || decide (s.upd.pState = 4)) = _
      rw [decide_eq_false hp, Bool.or_false]
    · have hpair := hduty'.trans (hduty.trans (warned_yields hready hy))
      exact ⟨(State.pair_of_duty Pair.yielding (fun _ _ => rfl) hpair :), (State.pair_of_duty Pair.aliveOut (fun _ _ => rfl) hpair :)⟩
  · exact congrArg Host.Outcome.next (if_pos hw)
  · exact congrArg Host.Outcome.next (if_neg (by simp [hw]))
  · exact congrArg Host.Outcome.next (if_pos (by simp [hw]))
  · exact congrArg Host.Outcome.next (if_pos (by simp [hw]))
  · rw [powerRecordOp_eq hf hr]
    cases hret : s.pwr.returned with
    | true =>
      rw [if_pos rfl, restart_recs]
      exact ⟨rfl, rfl, rfl, rfl, rfl, rfl, fun _ => restart_fresh.of_same (fun _ => rfl), fun h => Bool.noConfusion h⟩
    | false =>
      rw [if_neg Bool.false_ne_true]
      exact ⟨rfl, rfl, rfl, rfl, rfl, rfl, fun h => Bool.noConfusion h, fun _ => ⟨rfl, rfl, rfl, rfl⟩⟩
  · refine congrArg Host.Outcome.next (if_pos ?_)
    rcases h with h | h <;> simp [h]
  · have hgo : ¬ (!s.pwr.warn) = true := by simp [hw]
    refine congrArg Host.Outcome.next ((if_neg hgo).trans (if_neg ?_))
    show ¬ s.pwr.recorded = true
    rw [hr]
    exact Bool.false_ne_true
  · have hgo : ¬ (!s.pwr.warn) = true := by simp [hw]
    have hreset : vinReturnOp s = restart (s.modPwr (fun p => { p with returned := true })) 1 :=
      (if_neg hgo).trans (if_pos hr)
    rw [hreset, restart_recs]
    exact ⟨restart_fresh.of_same (fun _ => rfl), rfl⟩

end Sys2Proof.Machine
end

section
/-! Proof of O52: heartbeats, mirror records, health reports, the self-test, and which partner a module accepts. -/

namespace Sys2Proof.Machine

/- ### Heartbeats (R405, R409, R410) -/

/-- A heartbeat leaves over a link that is up, with EN set (R405). -/
theorem heartbeatSendOp_sends {s : State} (hup : s.pair.linkUp = true) (hen : bitN (s.reg 0x80000) 0 = true) :
    (heartbeatSendOp s).regs = s.regs ∧ (heartbeatSendOp s).out = s.out ++ [.heartbeat {
      time := s.time.now / 1000 * 1000, seq := (s.pair.seq + 1) % 65536, role := s.pair.role, fit := ownFit s
      yields := s.pair.yielding.isSome, made := s.pair.made, swapPrep := s.pair.swapping, mirrorSeq := s.pair.mirSeq
      crcOk := true }] ∧ (heartbeatSendOp s).pair.seq = (s.pair.seq + 1) % 65536 := by
  have hgo : ¬ (!s.pair.linkUp || !pairEn s) = true := by simp [hup, pairEn, hen]
  rw [heartbeatSendOp, if_neg hgo]
  exact ⟨rfl, rfl, rfl⟩

/-- What every good heartbeat leaves: the partner's number and role, and what has been missed (R405). -/
def heard (s : State) (hb : Heartbeat) : State :=
  s.modPair (fun p => { p with
    peerSeq := some hb.seq
    hbMiss := min 65535 (p.hbMiss + (match s.pair.peerSeq with | some q => (hb.seq + 65535 - q) % 65536 | none => 0))
    partnerRole := hb.role })

/-- One of a module that was refused counts and does no more (R5). -/
theorem heartbeatReceivedOp_refused {s : State} {hb : Heartbeat} (hok : hb.crcOk = true) (hr : s.pair.refused = true) :
    heartbeatReceivedOp hb s = heard s hb := by
  have hgo : ¬ (!hb.crcOk) = true := by simp [hok]
  rw [heartbeatReceivedOp, if_neg hgo]
  exact if_pos hr

/-- On the active module it tells the partner's FIT (R405, R415). -/
theorem heartbeatReceivedOp_active {s : State} {hb : Heartbeat} (hok : hb.crcOk = true) (hrole : s.pair.role = 1)
    (hr : s.pair.refused = false) : heartbeatReceivedOp hb s =
      if (setPartnerFit (heard s hb) (hb.fit && hb.role = 2)).pair.hot && hb.fit then
        pickTs (setPartnerFit (heard s hb) (hb.fit && hb.role = 2))
      else setPartnerFit (heard s hb) (hb.fit && hb.role = 2) := by
  have hgo : ¬ (!hb.crcOk) = true := by simp [hok]
  have hno : ¬ (heard s hb).pair.refused = true := by
    show ¬ s.pair.refused = true
    simp [hr]
  have hact : (heard s hb).pair.role = 1 := hrole
  rw [heartbeatReceivedOp, if_neg hgo]
  exact (if_neg hno).trans (if_pos hact)

/-- A STANDBY module that has closed the records up to a heartbeat of the active module (R409, R410). -/
def levelled (s : State) (hb : Heartbeat) : State := mirrorLag (closeRecs (heard s hb) hb.mirrorSeq) hb.time

/-- The takeover decided by a heartbeat that carries YIELD (R417). -/
def yieldDecided (s : State) (hb : Heartbeat) : State :=
  (s.modPair (fun p => { p with decided := some (yieldCause s hb) })).tick1

/-- On a STANDBY module it closes the mirror records, may carry YIELD, or ends an announced takeover (R409, R417). -/
theorem heartbeatReceivedOp_standby {s : State} {hb : Heartbeat} (hok : hb.crcOk = true) (hrole : s.pair.role = 2)
    (hr : s.pair.refused = false) (hact : hb.role = 1) : heartbeatReceivedOp hb s =
      if (levelled s hb).pair.role = 2 then
        if hb.yields then
          if ownFit (levelled s hb) then
            yieldDecided (levelled s hb) hb
          else levelled s hb
        else if (levelled s hb).pair.decided.isSome then setRole (levelled s hb) 3 0
        else if hb.swapPrep && !(levelled s hb).pair.hot && !(levelled s hb).pair.swapping then
          (levelled s hb).modPair (fun p => { p with swapping := true, busy := true })
        else levelled s hb
      else levelled s hb := by
  have hgo : ¬ (!hb.crcOk) = true := by simp [hok]
  have hno : ¬ (heard s hb).pair.refused = true := by
    show ¬ s.pair.refused = true
    simp [hr]
  have hrole' : (heard s hb).pair.role = 2 := hrole
  have hnot : ¬ (heard s hb).pair.role = 1 := by rw [hrole']; decide
  have hstand : ((heard s hb).standby && hb.role = 1) = true := by simp [State.standby, hrole', hact]
  rw [heartbeatReceivedOp, if_neg hgo]
  exact (if_neg hno).trans ((if_neg hnot).trans (if_pos hstand))

/-- With no record held, a heartbeat that lags little only moves H on (R410). -/
theorem levelled_near {s : State} {hb : Heartbeat} (hrole : s.pair.role = 2) (hrecs : s.pair.recs = [])
    (hlag : s.time.now - hb.time ≤ 100000) : levelled s hb = (heard s hb).modPair (fun p =>
      { p with lastH := hb.time, lagMax := max p.lagMax ((s.time.now - hb.time) / 1000) }) := by
  have hrecs' : (heard s hb).pair.recs = [] := hrecs
  rw [levelled, closeRecs_nil hrecs']
  exact mirrorLag_role (s := heard s hb) hrole hlag

/-- One that lags by more than 100 µs makes the STANDBY SYNCING (R410). -/
theorem levelled_late {s : State} {hb : Heartbeat} (hrole : s.pair.role = 2) (hrecs : s.pair.recs = [])
    (hlag : 100000 < s.time.now - hb.time) : (levelled s hb).pair.role = 3 ∧ (levelled s hb).pair.lastH = hb.time := by
  have hrecs' : (heard s hb).pair.recs = [] := hrecs
  rw [levelled, closeRecs_nil hrecs']
  exact mirrorLag_late (s := heard s hb) hrole hlag

/-- A YIELD is decided with the announced cause, or one of POWER, MEMORY, WATCHDOG and CHANNEL (log 40). -/
theorem yieldCause_range {s : State} {hb : Heartbeat} :
    if hb.swapPrep = true then yieldCause s hb = 5 else 1 ≤ yieldCause s hb ∧ yieldCause s hb ≤ 4 := by
  unfold yieldCause
  split
  · rfl
  · omega

/- ### The partner's FIT and the self-test (R414 to R416) -/

/-- A new view of the partner's FIT, with or without the choice of Ts, keeps the pair's state but for FIT and Ts. -/
theorem setPartnerFit_pickTs {s : State} {fit c : Bool} :
    (if c then pickTs (setPartnerFit s fit) else setPartnerFit s fit).regs = s.regs ∧
    ∃ ts, (if c then pickTs (setPartnerFit s fit) else setPartnerFit s fit).duty =
      { s.duty with partnerFit := fit, fit := fit, swapTs := ts } := by
  obtain ⟨hregs, ts, hduty⟩ := pickTs_rest (s := setPartnerFit s fit)
  cases c with
  | true => exact ⟨hregs.trans setPartnerFit_regs, ts, hduty.trans (by rw [setPartnerFit_duty])⟩
  | false => exact ⟨setPartnerFit_regs, s.pair.swapTs, setPartnerFit_duty⟩

/-- A report of six words is held as it came, and tells the partner's FIT (R416). -/
theorem healthReportOp_active {s : State} {ws : List Word} (hrole : s.pair.role = 1) (hlen : ws.length = 6) :
    healthReportOp ws s = if !bitN (ws.getD 0 0) 16 then
        pickTs (setPartnerFit (s.modPair (fun p => { p with health := ws }))
          (!bitN (ws.getD 0 0) 16 && s.pair.partnerRole = 2 && !s.pair.refused))
      else setPartnerFit (s.modPair (fun p => { p with health := ws }))
        (!bitN (ws.getD 0 0) 16 && s.pair.partnerRole = 2 && !s.pair.refused) := by
  rw [healthReportOp, if_neg (not_not_intro hrole), List.take_left' hlen]
  rfl

/-- SELFTEST in another role, or while one runs, sets CMD_ERR alone (R426). -/
theorem selftestOp_refused {s : State} (h : s.pair.role ≠ 2 ∨ s.pair.busy = true) : selftestOp s = pairCmdErr s := by
  rw [selftestOp]
  refine if_neg ?_
  rcases h with h | h <;> simp [h]

/- ### Which partner is accepted (R401) -/

/-- A partner that meets every condition is accepted (R401). -/
theorem pairRefusal_none {s : State} {p : Partner} (hen : bitN (s.reg 0x80000) 0 = true) (hpen : p.enabled = true)
    (hcode : p.code4 = !s.ident.eight) (hgroup : fld (s.reg 0x80000) 16 16 = p.groupId) (hside : p.sideB = !s.ident.sideB)
    (hfmt : s.upd.running.mirFmt = p.mirrorFmt) (hlc : s.lc.state = p.lifecycle) (h2 : 2 ≤ p.lifecycle) (h4 : p.lifecycle ≤ 4) :
    pairRefusal s p = none := by
  have h1 : ¬ p.code4 = s.ident.eight := by rw [hcode]; exact Bool.not_ne_self _
  have h3 : ¬ p.sideB = s.ident.sideB := by rw [hside]; exact Bool.not_ne_self _
  rw [pairRefusal, if_neg (by simp [pairEn, hen, hpen]), if_neg h1, if_neg (not_not_intro hgroup), if_neg h3,
    if_neg (not_not_intro hfmt), if_neg (by omega)]

/-- One that fails one of the first conditions is refused with a reason (R401). -/
theorem pairRefusal_some {s : State} {p : Partner} (h : bitN (s.reg 0x80000) 0 = false ∨ p.enabled = false ∨
    p.code4 = s.ident.eight ∨ fld (s.reg 0x80000) 16 16 ≠ p.groupId ∨ p.sideB = s.ident.sideB) :
    ∃ r, pairRefusal s p = some r := by
  unfold pairRefusal
  by_cases h0 : (!(pairEn s && p.enabled)) = true
  · exact ⟨0, if_pos h0⟩
  rw [if_neg h0]
  by_cases h1 : p.code4 = s.ident.eight
  · exact ⟨1, if_pos h1⟩
  rw [if_neg h1]
  by_cases h2 : fld (s.reg 0x80000) 16 16 ≠ p.groupId
  · exact ⟨2, if_pos h2⟩
  rw [if_neg h2]
  by_cases h3 : p.sideB = s.ident.sideB
  · exact ⟨3, if_pos h3⟩
  exfalso
  rcases h with h | h | h | h | h
  · exact h0 (by simp [pairEn, h])
  · exact h0 (by simp [h])
  · exact h1 h
  · exact h2 h
  · exact h3 h

/-- The link to a partner is up, and not yet judged (R401). -/
def linked (s : State) (p : Partner) (lanes : BitVec 2) : State :=
  s.modPair (fun q => { q with linkUp := true, lanes := lanes, partner := some p, partnerRole := p.role, peerSeq := none })

/-- The link to a partner whose check has passed on an UNPAIRED module (R401). -/
def accepted (s : State) (p : Partner) (lanes : BitVec 2) : State :=
  (linked s p lanes).modPair (fun q =>
    { q with refused := false, hot := p.modeHot && s.ident.eight, segBase := some p.segSerial })

/-- An UNPAIRED module takes MODE and the segment base from a partner it accepts (R401). -/
theorem pairLinkUpOp_accepted {s : State} {p : Partner} {lanes : BitVec 2} (hrole : s.pair.role = 0)
    (h : pairRefusal s p = none) : pairLinkUpOp p lanes s = accepted s p lanes := by
  have hnone : pairRefusal (linked s p lanes) p = none := h
  have hnot : ¬ s.pair.role = 1 := by rw [hrole]; decide
  rw [pairLinkUpOp, pairCheck]
  show (match pairRefusal (linked s p lanes) p with | some r => _ | none => _) = _
  rw [hnone]
  simp [accepted, linked, State.modPair, hnot]

/-- It stays UNPAIRED with one it refuses (R5, R401). -/
theorem pairLinkUpOp_refused {s : State} {p : Partner} {lanes : BitVec 2} {r : Nat} (hrole : s.pair.role = 0)
    (h : pairRefusal s p = some r) : pairLinkUpOp p lanes s = pairRefused (linked s p lanes) p r := by
  have hsome : pairRefusal (linked s p lanes) p = some r := h
  have hnot : ¬ s.pair.role = 1 := by rw [hrole]; decide
  rw [pairLinkUpOp, pairCheck]
  show (match pairRefusal (linked s p lanes) p with | some r => _ | none => _) = _
  rw [hsome]
  exact if_neg (by simp [State.modPair, hnot])

/-- Settles O52: a heartbeat received is `heartbeatReceivedOp_refused`, `_active` or `_standby`, a report `ownReport_rest` or
`setPartnerFit_pickTs`, and the partner's acceptance `pairLinkUpOp_accepted` or `pairLinkUpOp_refused`. -/
theorem pairLink : Obligations.PairLink := by
  refine ⟨fun s hup hen => ⟨_, rfl, heartbeatSendOp_sends hup hen⟩, fun s h => ?_, fun s hb hbad => ?_,
    fun s hb hok hr => ⟨_, rfl, ?_⟩, fun s hb hok hrole hr => ⟨_, rfl, ?_⟩,
    fun s hb hok hrole hr htest hrecs hact hy hlag => ?_, fun s hb hok hrole hr hrecs hact hlag => ⟨_, rfl, ?_⟩,
    fun s n r hs => congrArg Host.Outcome.next (if_pos hs), fun s n r hs => congrArg Host.Outcome.next (if_neg (by simp [hs])),
    fun s c => rfl, fun s ws hrole hlen => ⟨_, rfl, ?_⟩, fun s ws hrole => congrArg Host.Outcome.next (if_pos hrole),
    fun s hrole hhot => ⟨_, rfl, ?_⟩, fun s hre hrole hb => ?_, fun s hre h => ?_,
    fun s hubF chP chF faults hrole hb => ⟨_, rfl, ?_⟩, fun s hrole hhot => ⟨_, rfl, ?_⟩,
    fun s p lanes hrole hen hpen hcode hgroup hside hfmt hlc h2 h4 => ⟨_, rfl, ?_⟩, fun s p lanes hrole h => ⟨_, rfl, ?_⟩⟩
  · refine congrArg Host.Outcome.next (if_pos ?_)
    rcases h with h | h <;> simp [pairEn, h]
  · have hop : heartbeatReceivedOp hb s = s.modPair (fun p => { p with crcErr := (p.crcErr + 1) % 65536 }) :=
      if_pos (by simp [hbad])
    exact congrArg Host.Outcome.next ((congrArg (joinMirror s) hop).trans (joinMirror_same rfl))
  · rw [heartbeatReceivedOp_refused hok hr, joinMirror_idle (t := heard s hb) (Or.inr hr)]
    exact ⟨rfl, rfl, rfl, rfl, rfl, rfl, rfl, rfl⟩
  · rw [heartbeatReceivedOp_active hok hrole hr, joinMirror_regs]
    obtain ⟨hregs, ts, hduty⟩ := setPartnerFit_pickTs (s := heard s hb) (fit := hb.fit && hb.role = 2)
      (c := (setPartnerFit (heard s hb) (hb.fit && hb.role = 2)).pair.hot && hb.fit)
    have hd := (joinMirror_duty (s := s)).trans hduty
    exact ⟨(State.pair_of_duty Pair.role (fun _ _ => rfl) hd :).trans hrole,
      (State.pair_of_duty Pair.partnerRole (fun _ _ => rfl) hd :), (State.pair_of_duty Pair.partnerFit (fun _ _ => rfl) hd :),
      (State.pair_of_duty Pair.peerSeq (fun _ _ => rfl) hd :), hregs⟩
  · have hnear := levelled_near (hb := hb) hrole hrecs hlag
    have hrole' : (levelled s hb).pair.role = 2 := by rw [hnear]; exact hrole
    have hfit : ownFit (levelled s hb) = true := by
      have htest' : (levelled s hb).pair.testBad = false := by rw [hnear]; exact htest
      simp [ownFit, hrole', htest']
    have hop : heartbeatReceivedOp hb s =
        yieldDecided (levelled s hb) hb := by
      rw [heartbeatReceivedOp_standby hok hrole hr hact, if_pos hrole', if_pos hy, if_pos hfit]
    refine ⟨_, yieldCause (levelled s hb) hb, rfl, ?_⟩
    rw [hop, joinMirror_idle (t := yieldDecided (levelled s hb) hb) (Or.inl (show (levelled s hb).pair.role ≠ 1 by rw [hrole']; decide))]
    have hlast : (levelled s hb).pair.lastH = hb.time := by rw [hnear]; rfl
    have hregs : (levelled s hb).regs = s.regs := by rw [hnear]; rfl
    exact ⟨rfl, hrole', hlast, hregs, yieldCause_range⟩
  · obtain ⟨hrole', hlast⟩ := levelled_late (hb := hb) hrole hrecs hlag
    have hop : heartbeatReceivedOp hb s = levelled s hb := by
      rw [heartbeatReceivedOp_standby hok hrole hr hact, if_neg (by rw [hrole']; decide)]
    rw [hop, joinMirror_idle (Or.inl (by rw [hrole']; decide))]
    exact ⟨hrole', hlast⟩
  · rw [healthReportOp_active hrole hlen]
    obtain ⟨hregs, ts, hd⟩ := setPartnerFit_pickTs (s := s.modPair (fun p => { p with health := ws }))
      (fit := !bitN (ws.getD 0 0) 16 && s.pair.partnerRole = 2 && !s.pair.refused) (c := !bitN (ws.getD 0 0) 16)
    exact ⟨(State.pair_of_duty Pair.health (fun _ _ => rfl) hd :), (State.pair_of_duty Pair.role (fun _ _ => rfl) hd :).trans hrole,
      hregs, (State.pair_of_duty Pair.partnerFit (fun _ _ => rfl) hd :)⟩
  · rw [healthTimeoutOp, if_pos (by simp [hrole, hhot])]
    have hd := setPartnerFit_duty (s := s) (f := false)
    exact ⟨(State.pair_of_duty Pair.partnerFit (fun _ _ => rfl) hd :),
      (State.pair_of_duty Pair.role (fun _ _ => rfl) hd :).trans hrole, setPartnerFit_regs⟩
  · exact congrArg Host.Outcome.next ((if_pos hre).trans (if_pos (by simp [hrole, hb])))
  · exact congrArg Host.Outcome.next ((if_pos hre).trans (selftestOp_refused h))
  · rw [selftestDoneOp, if_pos (by simp [hrole, hb])]
    obtain ⟨hregs, l, hlen, hpair⟩ := ownReport_rest
      (s := s.modPair (fun p => { p with busy := false, swapping := false })) (hot := false) (a := hubF) (b := chP) (c := chF)
      (w := faults)
    rw [hpair]
    exact ⟨rfl, hrole, rfl, rfl, rfl, hlen, hregs⟩
  · rw [healthSendOp, if_pos (by simp [hrole, hhot])]
    obtain ⟨hregs, l, -, hpair⟩ := ownReport_rest (s := s.tick1) (hot := true) (a := Config.freeByte (4 * s.free) &&& 0x7F)
      (b := Config.freeByte (4 * s.free + 1)) (c := Config.freeByte (4 * s.free + 2)) (w := Config.freeWord s.free)
    rw [hpair]
    exact ⟨rfl, rfl, hrole, hregs⟩
  · have hnone := pairRefusal_none hen hpen hcode hgroup hside hfmt hlc h2 h4
    rw [pairLinkUpOp_accepted hrole hnone, joinMirror_idle (t := accepted s p lanes) (Or.inl (show s.pair.role ≠ 1 by rw [hrole]; decide))]
    exact ⟨rfl, rfl, rfl, rfl, hrole, rfl, rfl, rfl, rfl⟩
  · obtain ⟨r, hsome⟩ := pairRefusal_some h
    obtain ⟨hduty, hregs⟩ := pairRefused_idle (s := linked s p lanes) (p := p) (r := r) hrole
    have hd := (joinMirror_duty (s := s)).trans hduty
    rw [pairLinkUpOp_refused hrole hsome, joinMirror_regs]
    exact ⟨(State.pair_of_duty Pair.linkUp (fun _ _ => rfl) hd :), (State.pair_of_duty Pair.role (fun _ _ => rfl) hd :).trans hrole,
      (State.pair_of_duty Pair.partner (fun _ _ => rfl) hd :), (State.pair_of_duty Pair.refused (fun _ _ => rfl) hd :),
      (State.pair_of_duty Pair.partnerFit (fun _ _ => rfl) hd :), hregs⟩

end Sys2Proof.Machine
end


section
/-! Proof of O53: the roles of a pair. The pair's state without its mirror count is `State.duty`, which almost every helper
leaves alone; each operation gets one equation for it (R402, R417 to R424). -/

namespace Sys2Proof.Machine

/-- The module's partner has fallen silent, or its link is down. -/
def partnerGone (s : State) : State := armRelease (s.modPair (fun p =>
  { p with partnerRole := 0, partnerFit := false, linkUp := false, lanes := 0, peerSeq := none, refused := false }))

theorem partnerGone_duty {s : State} : (partnerGone s).duty = { s.duty with
    partnerRole := 0, partnerFit := false, linkUp := false, lanes := 0, peerSeq := none, refused := false } := armRelease_duty

/-- The hub-time source of a module that takes over: that of its partner is lost with it. -/
def sourceTaken (s : State) : State := if s.time.cls = 4 then sourceLostOp s else s

theorem sourceTaken_duty {s : State} : (sourceTaken s).duty = s.duty := State.duty_ite sourceLostOp_duty rfl

theorem sourceTaken_pair {α : Type} {s : State} (g : Pair → α) (hg : ∀ p m, g { p with mirSeq := m } = g p) :
    g (sourceTaken s).pair = g s.pair :=
  (State.pair_of_duty g hg sourceTaken_duty :).trans (hg s.pair 0)

/-- The first role of an UNPAIRED module whose partner is not refused (R402). -/
theorem roleDecisionOp_first {s : State} {seen : Bool} (hen : bitN (s.reg 0x80000) 0 = true) (hsv : s.pwr.service = false)
    (hvin : s.pwr.vinGood = true) (hrole : s.pair.role = 0)
    (href : ∀ p, s.pair.partner = some p → s.pair.linkUp = true → pairRefusal s p = none) :
    (roleDecisionOp seen s).duty = (setRole s
      (if seen = true ∨ s.pair.aliveIn = .active then 3
        else if s.pair.linkUp = true ∨ s.pair.aliveIn = .other then (if s.ident.sideB then 3 else 1) else 1) 0).duty := by
  unfold roleDecisionOp
  dsimp only
  refine (congrArg State.duty (if_neg ?_)).trans ?_
  · cases hp : s.pair.partner with
    | none => simp [pairEn, hen, hsv, hvin, hrole]
    | some p =>
      cases hl : s.pair.linkUp with
      | false => simp [pairEn, hen, hsv, hvin, hrole]
      | true => simp [pairEn, hen, hsv, hvin, hrole, href p hp hl]
  by_cases h1 : seen = true ∨ s.pair.aliveIn = .active
  · rw [if_pos h1, if_pos (by simpa using h1)]
  · rw [if_neg h1, if_neg (by simpa using h1)]
    cases hl : s.pair.linkUp with
    | true => rw [if_pos rfl, if_pos (Or.inl rfl)]
    | false =>
      rw [if_neg Bool.false_ne_true]
      by_cases h2 : s.pair.aliveIn = .other
      · rw [if_pos h2, if_pos (Or.inr h2)]
        cases s.ident.sideB with
        | true => exact pairLost_duty
        | false => rfl
      · rw [if_neg h2, if_neg (by simp [h2])]

theorem heartbeatTimeoutOp_standby {s : State} (hp : s.pair.partnerRole ≠ 0) (hrole : s.pair.role = 2)
    (hr : s.pair.refused = false) : heartbeatTimeoutOp s =
      if s.pair.aliveIn = .active then pairLost (setRole (partnerGone s) 3 0) 1
      else if ownFit s then (partnerGone s).modPair (fun p => { p with decided := some 0 })
      else pairLost (setRole (partnerGone s) 3 0) 3 := by
  refine (if_neg hp).trans ((if_neg (by simp [hr])).trans ((if_pos hrole).trans rfl))

/-- A standby whose partner fell silent and that does not take over is SYNCING. -/
theorem standby_gone {s u : State} {c : Nat} (hrole : s.pair.role = 2) (hu : u = pairLost (setRole (partnerGone s) 3 0) c) :
    u.duty = { s.duty with
      partnerRole := 0, partnerFit := false, linkUp := false, lanes := 0, peerSeq := none, refused := false, role := 3
      made := false, memErr := false, decided := none, yielding := none, cycles := 0, aliveOut := true, syncPct := 0 } := by
  have hne : (partnerGone s).pair.role ≠ 3 := by
    rw [(show (partnerGone s).pair.role = s.pair.role from rfl), hrole]
    decide
  rw [hu]
  exact pairLost_duty.trans ((setRole_duty hne).trans (by rw [partnerGone_duty]; rfl))

/-- A swap that was announced ends with the partner's loss (R423). -/
def swapDropped (s : State) : State :=
  if s.pair.swapping then
    pairRec (s.modPair (fun p => { p with swapping := false, swapTs := none, busy := false })) 6
      ([2, 0, 0, 0] ++ List.replicate 8 0)
  else s

theorem swapDropped_duty {s : State} : ∃ sw ts b,
    (swapDropped s).duty = { s.duty with swapping := sw, swapTs := ts, busy := b } := by
  unfold swapDropped
  split
  · exact ⟨_, _, _, pairRec_duty⟩
  · exact ⟨_, _, _, rfl⟩

/-- The partner is gone, and nothing of the module's own role changes (R417, R423). -/
theorem heartbeatTimeoutOp_duty {s : State} (hp : s.pair.partnerRole ≠ 0) (h : s.pair.role ≠ 2 ∨ s.pair.refused = true) :
    ∃ sw ts b, (heartbeatTimeoutOp s).duty = { s.duty with
      partnerRole := 0, partnerFit := false, linkUp := false, lanes := 0, peerSeq := none, refused := false
      swapping := sw, swapTs := ts, busy := b } := by
  cases hr : s.pair.refused with
  | true =>
    have hop : heartbeatTimeoutOp s = partnerGone s := (if_neg hp).trans (if_pos hr)
    exact ⟨_, _, _, (congrArg State.duty hop).trans (partnerGone_duty.trans rfl)⟩
  | false =>
    have hrole : s.pair.role ≠ 2 := h.resolve_right (by simp [hr])
    by_cases h1 : s.pair.role = 1
    · have hop : heartbeatTimeoutOp s = swapDropped (pairLost (partnerGone s) (if s.pair.aliveIn = .silent then 0 else 1)) := by
        refine (if_neg hp).trans ((if_neg (by simp [hr])).trans ((if_neg hrole).trans ((if_pos h1).trans rfl)))
      have hgone := (pairLost_duty (cause := if s.pair.aliveIn = .silent then 0 else 1)).trans (partnerGone_duty (s := s))
      obtain ⟨sw, ts, b, hd⟩ := swapDropped_duty (s := pairLost (partnerGone s) (if s.pair.aliveIn = .silent then 0 else 1))
      rw [hgone] at hd
      exact ⟨sw, ts, b, (congrArg State.duty hop).trans hd⟩
    · have hop : heartbeatTimeoutOp s = partnerGone s :=
        (if_neg hp).trans ((if_neg (by simp [hr])).trans ((if_neg hrole).trans (if_neg h1)))
      exact ⟨_, _, _, (congrArg State.duty hop).trans (partnerGone_duty.trans rfl)⟩

theorem takeoverOp_takes {s : State} {gap cause : Nat} {ok : Bool} (hd : s.pair.decided = some cause) (hrole : s.pair.role = 2)
    (h : s.pair.hot = true ∨ (ok = true ∧ s.pair.memErr = false)) :
    takeoverOp gap ok s = takeOver (sourceTaken s) cause gap := by
  have hhot : (sourceTaken s).pair.hot = s.pair.hot := sourceTaken_pair Pair.hot (fun _ _ => rfl)
  have hmem : (sourceTaken s).pair.memErr = s.pair.memErr := sourceTaken_pair Pair.memErr (fun _ _ => rfl)
  rw [takeoverOp, hd]
  refine (if_neg (by simp [hrole])).trans (if_neg ?_)
  change ¬ (!(sourceTaken s).pair.hot && (!ok || (sourceTaken s).pair.memErr)) = true
  rw [hhot, hmem]
  rcases h with h | ⟨h, h'⟩
  · simp [h]
  · simp [h, h']

theorem takeoverOp_fails {s : State} {gap cause : Nat} {ok : Bool} (hd : s.pair.decided = some cause) (hrole : s.pair.role = 2)
    (hhot : s.pair.hot = false) (h : ok = false ∨ s.pair.memErr = true) :
    takeoverOp gap ok s = pairLost (setRole (sourceTaken s) 3 0) 2 := by
  have hhot' : (sourceTaken s).pair.hot = s.pair.hot := sourceTaken_pair Pair.hot (fun _ _ => rfl)
  have hmem : (sourceTaken s).pair.memErr = s.pair.memErr := sourceTaken_pair Pair.memErr (fun _ _ => rfl)
  rw [takeoverOp, hd]
  refine (if_neg (by simp [hrole])).trans (if_pos ?_)
  change (!(sourceTaken s).pair.hot && (!ok || (sourceTaken s).pair.memErr)) = true
  rw [hhot', hmem]
  rcases h with h | h <;> simp [hhot, h]

/-- The module that yielded, once it knows that its partner is in control: its stopped channels let go (R421). -/
def yielded (s : State) : State :=
  ((List.range 8).foldl releaseStopped (disarm s 21)).modPair (fun p => { p with partnerRole := 1 })

theorem releasedAll_duty {l : List Nat} {s : State} : (l.foldl releaseStopped s).duty = s.duty :=
  State.duty_foldl (fun _ _ => releaseStopped_duty) rfl

theorem yielded_duty {s : State} : (yielded s).duty = { s.duty with partnerRole := 1 } := by
  have h := (releasedAll_duty (l := List.range 8) (s := disarm s 21)).trans disarm_duty
  unfold yielded
  exact congrArg (fun p : Pair => { p with partnerRole := 1 }) h

theorem yielded_role {s : State} : (yielded s).pair.role = s.pair.role :=
  (State.pair_of_duty Pair.role (fun _ _ => rfl) (yielded_duty (s := s)) :)

/-- A planned swap has ended with the module standing by (R422). -/
def swapMade (s : State) (payload : List Byte) : State :=
  (pairRec (s.modPair (fun p => { p with
    swapping := false, swapTs := none, busy := false, takeovers := satInc 255 p.takeovers })) 6 payload).alert 3

theorem swapMade_duty {s : State} {payload : List Byte} : (swapMade s payload).duty = { s.duty with
    swapping := false, swapTs := none, busy := false, takeovers := satInc 255 s.pair.takeovers } :=
  State.alert_duty.trans pairRec_duty

theorem madeReceivedOp_yielded {s : State} {cause : Nat} (hy : s.pair.yielding = some cause) (hrole : s.pair.role = 1) :
    madeReceivedOp s = if cause = 5 then
      swapMade (setRole (yielded s) 2 3) ([0, 0, 0, 0] ++ bytesLE 4 ((yielded s).pair.swapTs.getD 0 % giga) ++
        bytesLE 4 ((yielded s).pair.swapTs.getD 0 / giga % 2 ^ 32))
      else setRole (yielded s) 3 4 := by
  unfold madeReceivedOp yielded swapMade
  rw [hy]
  dsimp only
  rw [if_neg (by simp [hrole])]

theorem pairRec_regs {s : State} {i : Nat} {payload : List Byte} : (pairRec s i payload).regs = s.regs :=
  State.sendVec_regsv.trans raise_regsv

theorem swapOp_begins {s : State} (hp : s.partnerReady = true) (hb : s.pair.busy = false) (hy : s.pair.yielding = none) :
    swapOp s = s.modPair (fun p => { p with
      swapping := true, busy := true, cmdErr := false,
      swapTs := if p.hot then some (ceilSample (s.time.now + 10000000)) else none }) := by
  rw [swapOp, if_pos (by simp [hp, hb, hy])]
  cases hh : s.pair.hot with
  | true =>
    refine (if_pos hh).trans ((if_pos rfl).trans ?_)
    simp only [State.modPair, hh, if_true]
  | false =>
    refine (if_neg (by simp [State.modPair, hh])).trans ?_
    simp only [State.modPair, hh, if_false, Bool.false_eq_true]

theorem swapOp_refused {s : State} (h : s.partnerReady = false ∨ s.pair.busy = true) :
    (swapOp s).duty = { s.duty with cmdErr := true } ∧ (swapOp s).regs = s.regs := by
  rw [swapOp, if_neg (by rcases h with h | h <;> simp [h])]
  exact ⟨pairRec_duty, pairRec_regs⟩

/-- The module that yielded works on, the partner of its swap SYNCING (R422). -/
theorem swapTimeoutOp_resumes {s : State} {ts : Instant} (hts : s.pair.swapTs = some ts) (hy : s.pair.yielding = some 5)
    (hnow : ts + 16000 ≤ s.time.now) :
    (swapTimeoutOp s).duty = { s.duty with
      yielding := none, aliveOut := true, swapping := false, swapTs := none, busy := false, partnerRole := 3
      partnerFit := false } ∧ (swapTimeoutOp s).regs = s.regs := by
  rw [swapTimeoutOp, hts]
  dsimp only
  rw [if_pos ⟨hy, hnow⟩]
  exact ⟨pairRec_duty.trans (armRelease_duty.trans (busModes_duty.trans rfl)), pairRec_regs⟩

/-- A SYNCING module takes the epoch and the time of the active module and is level with it (R424). -/
theorem resyncDoneOp_level {s : State} {epoch : Nat} {time : Instant} (hrole : s.pair.role = 3) (hl : s.pair.linkUp = true)
    (hp : s.pair.partnerRole = 1) (hr : s.pair.refused = false) :
    (resyncDoneOp epoch time s).duty = { s.duty with
      role := 2, made := false, memErr := false, decided := none, yielding := none, cycles := 0, aliveOut := true
      syncPct := 100, fit := !s.pair.testBad } := by
  rw [resyncDoneOp, if_pos (by simp [hrole, hl, hp, hr])]
  have hu : ∀ u : State, u.duty = s.duty → ((setRole u 2 1).modPair (fun p => { p with fit := !p.testBad })).duty =
      { s.duty with
        role := 2, made := false, memErr := false, decided := none, yielding := none, cycles := 0, aliveOut := true
        syncPct := 100, fit := !s.pair.testBad } := by
    intro u hu
    have hne : u.pair.role ≠ 2 := by
      rw [(State.pair_of_duty Pair.role (fun _ _ => rfl) hu :), hrole]
      decide
    have h := congrArg (fun p : Pair => { p with fit := !p.testBad }) (setRole_duty (cause := 1) hne)
    rw [hu] at h
    exact h
  exact hu _ (setClass_duty.trans armStep_duty)

/-- Settles O53: each change of role is an equation for the pair's state. -/
theorem roleChanges : Obligations.RoleChanges := by
  refine ⟨fun s seen hen hsv hvin hrole href => ⟨_, rfl, ?_⟩, fun s seen h => ?_, fun s hp hrole hr => ⟨_, rfl, ?_⟩,
    fun s hp h => ⟨_, rfl, ?_⟩, fun s hp => congrArg Host.Outcome.next (if_pos hp),
    fun s gap cause ok hd hrole h => ⟨_, rfl, ?_⟩, fun s gap cause ok hd hrole hhot h => ⟨_, rfl, ?_⟩,
    fun s gap ok hd => ?_, fun s cause hy hrole => ⟨_, rfl, ?_⟩, fun s h => ?_,
    fun s n h => congrArg Host.Outcome.next (if_neg (by rcases h with h | h <;> simp [h])),
    fun s hre hp hb hy => congrArg Host.Outcome.next ((if_pos hre).trans (swapOp_begins hp hb hy)),
    fun s hre h => ⟨_, congrArg Host.Outcome.next (if_pos hre), swapOp_refused h⟩,
    fun s ts hts hsw hnow hp hy => ⟨yieldTo s 5, ?_, yieldTo_pair hp hy, yieldTo_rest.1⟩,
    fun s ts hts hy hnow => ⟨_, rfl, (swapTimeoutOp_resumes hts hy hnow).2, (swapTimeoutOp_resumes hts hy hnow).1⟩,
    fun s epoch time hrole hl hp hr => ⟨_, rfl, ?_⟩, fun s epoch time h => ?_⟩
  · have hd := roleDecisionOp_first (seen := seen) hen hsv hvin hrole href
    have hne : s.pair.role ≠ (if seen = true ∨ s.pair.aliveIn = .active then 3
        else if s.pair.linkUp = true ∨ s.pair.aliveIn = .other then (if s.ident.sideB then 3 else 1) else 1) := by
      rw [hrole]
      repeat' split
      all_goals decide
    have hd' := hd.trans (setRole_duty hne)
    exact ⟨(State.pair_of_duty Pair.linkUp (fun _ _ => rfl) hd' :), (State.pair_of_duty Pair.partner (fun _ _ => rfl) hd' :),
      (State.pair_of_duty Pair.role (fun _ _ => rfl) hd' :)⟩
  · refine congrArg Host.Outcome.next (if_pos ?_)
    rcases h with h | h | h <;> simp [pairEn, h]
  · rw [heartbeatTimeoutOp_standby hp hrole hr]
    by_cases h1 : s.pair.aliveIn = .active
    · rw [if_pos h1, if_neg (by simp [h1])]
      have hd := standby_gone hrole rfl (c := 1)
      exact ⟨(State.pair_of_duty Pair.partnerRole (fun _ _ => rfl) hd :), (State.pair_of_duty Pair.linkUp (fun _ _ => rfl) hd :),
        (State.pair_of_duty Pair.peerSeq (fun _ _ => rfl) hd :), (State.pair_of_duty Pair.role (fun _ _ => rfl) hd :),
        (State.pair_of_duty Pair.decided (fun _ _ => rfl) hd :)⟩
    · rw [if_neg h1]
      cases ht : s.pair.testBad with
      | false =>
        rw [if_pos (by simp [ownFit, hrole, ht]), if_pos ⟨h1, rfl⟩]
        exact ⟨rfl, rfl, rfl, hrole, rfl⟩
      | true =>
        rw [if_neg (by simp [ownFit, ht]), if_neg (by simp)]
        have hd := standby_gone hrole rfl (c := 3)
        exact ⟨(State.pair_of_duty Pair.partnerRole (fun _ _ => rfl) hd :),
          (State.pair_of_duty Pair.linkUp (fun _ _ => rfl) hd :), (State.pair_of_duty Pair.peerSeq (fun _ _ => rfl) hd :),
          (State.pair_of_duty Pair.role (fun _ _ => rfl) hd :), (State.pair_of_duty Pair.decided (fun _ _ => rfl) hd :)⟩
  · obtain ⟨sw, ts, b, hd⟩ := heartbeatTimeoutOp_duty hp h
    exact ⟨(State.pair_of_duty Pair.partnerRole (fun _ _ => rfl) hd :), (State.pair_of_duty Pair.linkUp (fun _ _ => rfl) hd :),
      (State.pair_of_duty Pair.partnerFit (fun _ _ => rfl) hd :), (State.pair_of_duty Pair.role (fun _ _ => rfl) hd :),
      (State.pair_of_duty Pair.decided (fun _ _ => rfl) hd :), (State.pair_of_duty Pair.refused (fun _ _ => rfl) hd :)⟩
  · rw [takeoverOp_takes hd hrole h]
    have hrole' : (sourceTaken s).pair.role = 2 := (sourceTaken_pair Pair.role (fun _ _ => rfl)).trans hrole
    obtain ⟨y, z, x, hduty⟩ := takeOver_duty (cause := cause) (gap := gap) (show (sourceTaken s).pair.role ≠ 1 by simp [hrole'])
    exact ⟨(State.pair_of_duty Pair.role (fun _ _ => rfl) hduty :), (State.pair_of_duty Pair.made (fun _ _ => rfl) hduty :),
      (State.pair_of_duty Pair.decided (fun _ _ => rfl) hduty :), (State.pair_of_duty Pair.lastCause (fun _ _ => rfl) hduty :),
      (State.pair_of_duty Pair.lastHot (fun _ _ => rfl) hduty :).trans (sourceTaken_pair Pair.hot (fun _ _ => rfl)),
      (State.pair_of_duty Pair.lastGap (fun _ _ => rfl) hduty :),
      (State.pair_of_duty Pair.lastSec (fun _ _ => rfl) hduty :).trans
        (congrArg (fun h => h / giga % 2 ^ 32) (sourceTaken_pair Pair.lastH (fun _ _ => rfl))),
      (State.pair_of_duty Pair.takeovers (fun _ _ => rfl) hduty :).trans
        (congrArg (satInc 255) (sourceTaken_pair Pair.takeovers (fun _ _ => rfl))),
      (State.pair_of_duty Pair.recs (fun _ _ => rfl) hduty :)⟩
  · rw [takeoverOp_fails hd hrole hhot h]
    have hrole' : (sourceTaken s).pair.role = 2 := (sourceTaken_pair Pair.role (fun _ _ => rfl)).trans hrole
    have hduty := (pairLost_duty (cause := 2)).trans
      (setRole_duty (new := 3) (cause := 0) (show (sourceTaken s).pair.role ≠ 3 by simp [hrole']))
    exact ⟨(State.pair_of_duty Pair.role (fun _ _ => rfl) hduty :), (State.pair_of_duty Pair.made (fun _ _ => rfl) hduty :),
      (State.pair_of_duty Pair.takeovers (fun _ _ => rfl) hduty :).trans (sourceTaken_pair Pair.takeovers (fun _ _ => rfl))⟩
  · exact congrArg Host.Outcome.next (by rw [takeoverOp, hd])
  · rw [madeReceivedOp_yielded hy hrole]
    have hrole' : (yielded s).pair.role = 1 := yielded_role.trans hrole
    have hy' := yielded_duty (s := s)
    have hto : (yielded s).pair.takeovers = s.pair.takeovers := (State.pair_of_duty Pair.takeovers (fun _ _ => rfl) hy' :)
    have hpr : (yielded s).pair.partnerRole = 1 := (State.pair_of_duty Pair.partnerRole (fun _ _ => rfl) hy' :)
    generalize yielded s = u at hrole' hto hpr
    by_cases hc : cause = 5
    · rw [if_pos hc, if_pos hc]
      have hset := setRole_duty (new := 2) (cause := 3) (show u.pair.role ≠ 2 by simp [hrole'])
      generalize setRole u 2 3 = v at hset
      have hd := swapMade_duty (s := v) (payload := [0, 0, 0, 0] ++ bytesLE 4 (u.pair.swapTs.getD 0 % giga) ++
        bytesLE 4 (u.pair.swapTs.getD 0 / giga % 2 ^ 32))
      rw [(State.pair_of_duty Pair.takeovers (fun _ _ => rfl) hset :)] at hd
      rw [hset] at hd
      exact ⟨(State.pair_of_duty Pair.partnerRole (fun _ _ => rfl) hd :).trans hpr,
        (State.pair_of_duty Pair.yielding (fun _ _ => rfl) hd :), (State.pair_of_duty Pair.role (fun _ _ => rfl) hd :),
        (State.pair_of_duty Pair.swapping (fun _ _ => rfl) hd :), (State.pair_of_duty Pair.busy (fun _ _ => rfl) hd :),
        (State.pair_of_duty Pair.takeovers (fun _ _ => rfl) hd :).trans (congrArg (satInc 255) hto)⟩
    · rw [if_neg hc, if_neg hc]
      have hd := setRole_duty (new := 3) (cause := 4) (show u.pair.role ≠ 3 by simp [hrole'])
      exact ⟨(State.pair_of_duty Pair.partnerRole (fun _ _ => rfl) hd :).trans hpr,
        (State.pair_of_duty Pair.yielding (fun _ _ => rfl) hd :), (State.pair_of_duty Pair.role (fun _ _ => rfl) hd :),
        (State.pair_of_duty Pair.takeovers (fun _ _ => rfl) hd :).trans hto⟩
  · refine congrArg Host.Outcome.next ?_
    rw [madeReceivedOp]
    cases hy : s.pair.yielding with
    | none => rfl
    | some cause => exact if_pos (h.resolve_left (by simp [hy]))
  · refine congrArg Host.Outcome.next ?_
    rw [swapYieldOp, hts]
    exact if_pos (by simp [hsw, hnow])
  · have hd := resyncDoneOp_level (epoch := epoch) (time := time) hrole hl hp hr
    exact ⟨(State.pair_of_duty Pair.role (fun _ _ => rfl) hd :), (State.pair_of_duty Pair.syncPct (fun _ _ => rfl) hd :),
      (State.pair_of_duty Pair.fit (fun _ _ => rfl) hd :), (State.pair_of_duty Pair.linkUp (fun _ _ => rfl) hd :).trans hl⟩
  · refine congrArg Host.Outcome.next (if_neg ?_)
    rcases h with h | h | h | h <;> simp [h]

end Sys2Proof.Machine
end


section
/-! Proof of O43: the transfer of an image (R496 to R499). An acknowledgement emits one frame and touches nothing else, so
each clause is what the operation does before it. -/

namespace Sys2Proof.Machine

theorem updAck_upd {s : State} {port r : Nat} {seq : BitVec 16} : (updAck s port r seq).upd = s.upd := rfl

theorem updAck_regs {s : State} {port r : Nat} {seq : BitVec 16} : (updAck s port r seq).regs = s.regs := rfl

/-- The offset an acknowledgement expects next (R499). -/
theorem updAck_out {s : State} {port r : Nat} {seq : BitVec 16} : (updAck s port r seq).out = s.out ++ [.updAck port
    ([4, BitVec.ofNat 8 r] ++ bytesLE 2 seq.toNat ++
      bytesLE 4 (if s.upd.lock = 2 then 256 + s.upd.body.length else 0) ++ [0, 0, 0, 0])] := rfl

theorem updHolds_lock {s : State} {port : Nat} {mac : BitVec 48} (h : updHolds s port mac = true) : s.upd.lock = 2 := by
  simp only [updHolds, Bool.and_eq_true, decide_eq_true_eq] at h
  exact h.1.1

/-- The holder's body bytes on a port that takes update frames (R499). -/
theorem updateChunkOp_held {s : State} {port : Nat} {mac : BitVec 48} {seq : BitVec 16} {ofs : Nat} {d : List Byte}
    (hp : updPort s port = true) (hh : updHolds s port mac = true) (hst : s.upd.state = 1) (h1 : 1 ≤ d.length)
    (h2 : d.length ≤ 1024) : updateChunkOp port mac seq ofs d s =
      if ofs ≠ 256 + s.upd.body.length ∨ s.upd.missing < d.length then updAck s port 10 seq
      else updAck (takeBody s d) port 1 seq := by
  have hne : d.isEmpty = false := by
    cases d with
    | nil => simp at h1
    | cons b d => rfl
  have hlock := updHolds_lock hh
  rw [updateChunkOp, if_neg (by simp [hp]), if_neg (by simp [hh]), if_neg (by simp [hlock, hst]),
    if_neg (by simp [hne, h2])]
  simp only [Bool.or_eq_true, decide_eq_true_eq]

/-- An aborted transfer leaves EMPTY and the lock free (R497). -/
theorem abortUpd_upd {s : State} : (abortUpd s).upd = { s.upd with
    state := 0, result := (Config.freeByte s.free).toNat % 32, lock := 0, port := 0, mac := 0, header := [], body := [] } := by
  rw [abortUpd, updEnds_upd]
  rfl

theorem abortUpd_regs {s : State} : (abortUpd s).regs = s.regs := updEnds_regs

/-- LOAD at offset 0 takes a header (R496, R498). -/
theorem loadOp_header {s : State} {h : List Byte} (hd : s.mayDma 0 = true) (ho : fld (s.reg 0xA0010) 0 26 = 0)
    (hl : fld (s.reg 0xA0014) 0 21 = 256) (hlen : h.length = 256) : loadOp h s =
      if hdrCheck s (s.upd.lock = 1) h = 0 then takeHeader s 1 0 0 0 h
      else updResult s (hdrCheck s (s.upd.lock = 1) h) := by
  unfold loadOp
  dsimp only
  rw [if_neg (by simp [hd]), if_pos ho, hl, if_neg (by simp), padTo_self hlen]

/-- LOAD at the next offset takes body bytes (R497, R498). -/
theorem loadOp_body {s : State} {d : List Byte} (hd : s.mayDma 0 = true) (hlock : s.upd.lock = 1) (hst : s.upd.state = 1)
    (ho : fld (s.reg 0xA0010) 0 26 = 256 + s.upd.body.length) (hl : fld (s.reg 0xA0014) 0 21 = d.length) (h1 : 1 ≤ d.length)
    (h2 : d.length ≤ 2 ^ 20) (hm : d.length ≤ s.upd.missing) : loadOp d s = updResult (takeBody s d) 1 := by
  unfold loadOp
  dsimp only
  rw [if_neg (by simp [hd]), ho, hl, if_neg (by omega), if_neg (by omega), if_neg (by omega), if_neg (by omega),
    if_neg (by omega), padTo_self rfl]

/-- Settles O43, by the equation of each operation of a transfer. -/
theorem updateIntake : Obligations.UpdateIntake := by
  refine ⟨fun s port mac seq h hp hlen hc => ⟨_, rfl, ?_⟩, fun s port mac seq h hp hlen hc => ⟨_, rfl, ?_⟩,
    fun s port mac seq d hp hh hst h1 h2 hm => ⟨_, rfl, ?_⟩, fun s port mac seq ofs d hp hh hst h1 h2 hbad => ⟨_, rfl, ?_⟩,
    fun s port mac seq ofs d hp hl hh => ?_, fun s port mac seq hp hh => ⟨_, rfl, ?_⟩, fun s hre hlock => ?_,
    fun s h hre hd ho hl hlen => ?_, fun s d hre hd hlock hst ho hl h1 h2 hm => ?_, fun s hst => ⟨_, rfl, ?_⟩,
    fun s hst => ⟨_, rfl, ?_⟩⟩
  · rw [updateHeaderOp, if_neg (by simp [hp]), padTo_self hlen, if_pos hc]
    exact ⟨rfl, rfl, rfl⟩
  · rw [updateHeaderOp, if_neg (by simp [hp]), padTo_self hlen, if_neg hc]
    exact ⟨rfl, rfl, _, rfl⟩
  · have hlock := updHolds_lock hh
    rw [updateChunkOp_held hp hh hst h1 h2, if_neg (by omega), updAck_out, updAck_upd, updAck_regs, takeBody_upd hm,
      takeBody_rest.1, takeBody_rest.2, hst]
    refine ⟨rfl, ?_, rfl⟩
    rw [if_pos hlock, List.length_append, Nat.add_assoc]
    rfl
  · have hlock := updHolds_lock hh
    rw [updateChunkOp_held hp hh hst h1 h2, if_pos hbad, updAck_out, if_pos hlock]
    exact ⟨rfl, rfl, rfl⟩
  · refine ⟨updAck s port 2 seq, _, congrArg Host.Outcome.next ?_, rfl, rfl, updAck_out⟩
    exact (if_neg (by simp [hp])).trans (if_pos (by simp [hl, hh]))
  · rw [updateAbortFrameOp, if_neg (by simp [hp]), if_pos hh, updAck_upd, updAck_regs, abortUpd_upd]
    exact ⟨rfl, rfl, rfl, rfl, rfl, rfl, rfl, abortUpd_regs⟩
  · refine ⟨abortUpd s, congrArg Host.Outcome.next ((if_pos hre).trans (if_pos hlock)), ?_⟩
    rw [abortUpd_upd]
    exact ⟨rfl, rfl, rfl, rfl, rfl, rfl, rfl, abortUpd_regs⟩
  · refine ⟨_, congrArg Host.Outcome.next ((if_pos hre).trans (loadOp_header hd ho hl hlen)), ?_⟩
    by_cases hc : hdrCheck s (s.upd.lock = 1) h = 0
    · rw [if_pos hc]
      exact ⟨rfl, rfl, (if_pos hc).symm⟩
    · rw [if_neg hc]
      exact ⟨rfl, rfl, (if_neg hc).symm⟩
  · refine ⟨_, congrArg Host.Outcome.next ((if_pos hre).trans (loadOp_body hd hlock hst ho hl h1 h2 hm)), takeBody_rest.1,
      takeBody_rest.2, ?_⟩
    rw [updResult, State.modUpd_upd, takeBody_upd hm, hst]
  · rw [stagingVerifiedOp, if_neg (by simp [hst])]
    cases digestsOk s.upd.header s.upd.body with
    | true => exact ⟨updEnds_regs, updEnds_upd⟩
    | false => exact ⟨updEnds_regs, updEnds_upd⟩
  · rw [stagingTimeoutOp, if_pos hst]
    exact ⟨updEnds_regs, updEnds_upd⟩

end Sys2Proof.Machine
end


section
/-! Proof of O44: the activation of a staged image (R500 to R503). -/

namespace Sys2Proof.Machine

/- ### ACTIVATE and DISARM (R500, R503) -/

/-- Neither STAGED nor, for the partner alone, free of an armed activation: STATE_ERR. -/
theorem activateCheck_state {s : State} {k : Nat} (h : k = 3 ∨ if k = 1 then s.upd.state = 4 ∨ s.upd.pState = 4 else s.upd.state ≠ 3) :
    activateCheck s k = 19 := by
  unfold activateCheck
  dsimp only
  by_cases h3 : k = 3
  · rw [if_pos h3]
  · rw [if_neg h3, if_pos (h.resolve_left h3)]

theorem activateCheck_noTime {s : State} (hst : s.upd.state = 3) (ht : s.timeValid = false) : activateCheck s 0 = 12 := by
  unfold activateCheck
  dsimp only
  rw [if_neg (by decide), if_neg (by simp [hst]), if_pos (by simp [ht])]

theorem activateCheck_range {s : State} (hst : s.upd.state = 3) (ht : s.timeValid = true)
    (h : updInstant s < s.time.now + giga ∨ s.time.now + 604800 * giga < updInstant s) : activateCheck s 0 = 13 := by
  unfold activateCheck
  dsimp only
  rw [if_neg (by decide), if_neg (by simp [hst]), if_neg (by simp [ht]), if_pos (Or.inr h)]

/-- HUB_UPD_TIME can be met: hub time is valid, and T lies 1 s to 604,800 s ahead (R500). -/
def timely (s : State) : Prop :=
  s.timeValid = true ∧ (s.reg 0xA0018).toNat < giga ∧ s.time.now + giga ≤ updInstant s ∧
    updInstant s ≤ s.time.now + 604800 * giga

theorem activateCheck_own {s : State} (ht : timely s) (hst : s.upd.state = 3) : activateCheck s 0 =
    if s.pair.role ≠ 0 ∧ (s.pair.partnerRole = 2 ∨ s.pair.partnerRole = 3) then 16 else 0 := by
  obtain ⟨hv, hg, hlo, hhi⟩ := ht
  unfold activateCheck
  dsimp only
  rw [if_neg (by decide), if_neg (by simp [hst]), if_neg (by simp [hv]),
    if_neg (not_or.2 ⟨Nat.not_le.2 hg, not_or.2 ⟨Nat.not_lt.2 hlo, Nat.not_lt.2 hhi⟩⟩)]
  rfl

theorem activateCheck_partner {s : State} (ht : timely s) (hst : s.upd.state ≠ 4) (hp : s.upd.pState ≠ 4) : activateCheck s 1 =
    if s.upd.pState = 3 ∧ s.upd.pFmt = s.upd.running.mirFmt then 0 else 17 := by
  obtain ⟨hv, hg, hlo, hhi⟩ := ht
  unfold activateCheck
  dsimp only
  rw [if_neg (by decide), if_neg (by simp [hst, hp]), if_neg (by simp [hv]),
    if_neg (not_or.2 ⟨Nat.not_le.2 hg, not_or.2 ⟨Nat.not_lt.2 hlo, Nat.not_lt.2 hhi⟩⟩)]
  rfl

theorem activateOp_refused {s : State} {g : BitVec 2} {r : Nat} (h : activateCheck s g.toNat = r) (hr : r ≠ 0) :
    activateOp g s = s.modUpd (fun u => { u with result := r }) := by
  subst h
  exact if_pos hr

theorem activateOp_own {s : State} (h : activateCheck s 0 = 0) : activateOp 0 s =
    s.modUpd (fun u => { u with result := 1, target := 0, armedAt := updInstant s, state := 4 }) :=
  if_neg (not_not_intro h)

theorem activateOp_partner {s : State} (h : activateCheck s 1 = 0) : activateOp 1 s =
    (s.modUpd (fun u => { u with result := 1, target := 1, armedAt := updInstant s, pState := 4 })).mirror
      (.armed (some (updInstant s))) :=
  if_neg (not_not_intro h)

theorem disarm_armed {s : State} {r : Nat} (hst : s.upd.state = 4) (hp : s.upd.pState ≠ 4) : disarm s r = updEnds s 3 r := by
  rw [disarm, if_pos hst]
  exact if_neg (by rw [updEnds_upd]; exact hp)

/- ### The planned restart (R501) -/

theorem plannedRestartOp_own {s : State} (hat : s.upd.armedAt ≤ s.time.now) (ht : s.timeValid = true) (hst : s.upd.state = 4)
    (hp : s.upd.pState ≠ 4) : plannedRestartOp s = plannedReset s true := by
  rw [plannedRestartOp, if_pos ⟨hat, ht⟩, if_neg hp, if_pos hst]

/-- The re-check holds: the other slot takes the staged image and is TRIAL. -/
theorem copyStaged_good {v : State} (h : (hdrSigOk v.upd.header && digestsOk v.upd.header v.upd.body) = true) :
    ∃ owed, (copyStaged v).upd = { v.upd with
      state := 0, header := [], body := [], slotB := !v.upd.slotB, trial := true, revert := none
      slotAImg := if v.upd.slotB then imageOf v.upd.header else v.upd.slotAImg
      slotBImg := if v.upd.slotB then v.upd.slotBImg else imageOf v.upd.header, owed := owed } :=
  ⟨_, congrArg State.upd (if_pos h)⟩

/-- The re-check fails: the image is gone, and the slots are as they were. -/
theorem copyStaged_bad {v : State} (h : (hdrSigOk v.upd.header && digestsOk v.upd.header v.upd.body) = false) :
    ∃ owed, (copyStaged v).upd = { v.upd with state := 0, header := [], body := [], owed := owed } :=
  ⟨_, congrArg State.upd (if_neg (by simp [h]))⟩

/-- Settles O44: ACTIVATE by its refusals in order, the restarts by what a planned reset leaves. -/
theorem activationRuns : Obligations.ActivationRuns := by
  refine ⟨fun s hre hst hv hg hlo hhi hfree => ?_, fun s hre hst hv hg hlo hhi hrole hpr => ?_,
    fun s hre hst hp hv hg hlo hhi => ?_, fun s g hre h => ?_, fun s hre hst => ⟨fun hv => ?_, fun hv h => ?_⟩,
    fun s hre hst hp => ⟨_, congrArg Host.Outcome.next (if_pos hre), ?_⟩,
    fun s hre hst hp => congrArg Host.Outcome.next ((if_pos hre).trans (if_neg (by simp [hst, hp]))),
    fun s hat ht hst hp hok => ?_, fun s hat ht hst hp hok => ?_,
    fun s hre htr => ⟨confirmed s, congrArg Host.Outcome.next ((if_pos hre).trans (if_pos htr)), confirmed_regs, confirmed_upd⟩,
    fun s hre htr => congrArg Host.Outcome.next ((if_pos hre).trans (if_neg (by simp [htr]))),
    fun s htr hsv hs => ⟨confirmed s, congrArg Host.Outcome.next (if_pos (by simp [htr, hsv, hs])), confirmed_regs, confirmed_upd⟩,
    fun s hre htr => ⟨_, congrArg Host.Outcome.next ((if_pos hre).trans (if_pos htr)), ?_⟩,
    fun s hre hm hst => ?_, fun s hre h => congrArg Host.Outcome.next ((if_pos hre).trans (if_neg ?_))⟩
  · refine congrArg Host.Outcome.next ((if_pos hre).trans (activateOp_own ?_))
    rw [activateCheck_own ⟨hv, hg, hlo, hhi⟩ hst, if_neg (by omega)]
  · refine congrArg Host.Outcome.next ((if_pos hre).trans (activateOp_refused (r := 16) ?_ (by decide)))
    exact (activateCheck_own ⟨hv, hg, hlo, hhi⟩ hst).trans (if_pos ⟨hrole, hpr⟩)
  · refine congrArg Host.Outcome.next ((if_pos hre).trans ?_)
    have hc := activateCheck_partner ⟨hv, hg, hlo, hhi⟩ hst hp
    by_cases hf : s.upd.pState = 3 ∧ s.upd.pFmt = s.upd.running.mirFmt
    · rw [if_pos hf] at hc ⊢
      exact activateOp_partner hc
    · rw [if_neg hf] at hc ⊢
      exact activateOp_refused (g := 1) hc (by decide)
  · refine congrArg Host.Outcome.next ((if_pos hre).trans (activateOp_refused (activateCheck_state (Or.inr ?_)) (by decide)))
    rcases h with ⟨rfl, h⟩ | ⟨rfl, h⟩ | ⟨rfl, h⟩
    · exact h
    · exact h
    · exact Or.inl h
  · exact congrArg Host.Outcome.next ((if_pos hre).trans (activateOp_refused (g := 0) (activateCheck_noTime hst hv) (by decide)))
  · exact congrArg Host.Outcome.next ((if_pos hre).trans (activateOp_refused (g := 0) (activateCheck_range hst hv h) (by decide)))
  · rw [disarmOp, if_pos (Or.inl hst), disarm_armed hst hp]
    exact ⟨updEnds_regs, updEnds_upd⟩
  · obtain ⟨t, hop, hfresh, v, hv, hupd⟩ := plannedReset_copy (s := s)
    refine ⟨t, congrArg Host.Outcome.next ((plannedRestartOp_own hat ht hst hp).trans hop), hfresh, ?_⟩
    obtain ⟨owed, hcopy⟩ := copyStaged_good (v := v) (by rw [hv]; exact hok)
    rw [wipedUpd_idle (Or.inl (by rw [State.modUpd_upd, hcopy])), State.modUpd_upd, hcopy, hv] at hupd
    rw [hupd]
    refine ⟨rfl, rfl, rfl, rfl, rfl, ?_, rfl, ?_⟩
    · cases s.upd.slotB <;> simp [Upd.running]
    · cases hb : s.upd.slotB <;> simp [Upd.running, hb]
  · obtain ⟨t, hop, hfresh, v, hv, hupd⟩ := plannedReset_copy (s := s)
    refine ⟨t, congrArg Host.Outcome.next ((plannedRestartOp_own hat ht hst hp).trans hop), hfresh, ?_⟩
    obtain ⟨owed, hcopy⟩ := copyStaged_bad (v := v) (by rw [hv]; exact hok)
    rw [wipedUpd_idle (Or.inl (by rw [State.modUpd_upd, hcopy])), State.modUpd_upd, hcopy, hv] at hupd
    rw [hupd]
    refine ⟨rfl, rfl, rfl, rfl, ?_, rfl, rfl⟩
    cases s.upd.trial <;> rfl
  · have h := plannedReset_plain (s := s.modUpd (fun u => { u with revert := some 0, result := 1 })) (c := 0) htr rfl
    exact h
  · have hrole : s.pair.role = 1 := by
      simp only [State.mirrors, Bool.and_eq_true, decide_eq_true_eq] at hm
      exact hm.1.1.1
    exact congrArg Host.Outcome.next ((if_pos hre).trans (if_pos (by simp [hrole, hm, hst])))
  · rcases h with h | h <;> simp [h]

end Sys2Proof.Machine
end
